-- ==== Sys2Proof/Word.lean ====
section
/-! DEFINITION. The 40-bit word (R2) and its plainest arithmetic. -/

namespace Sys2Proof

/-- R2. A word is 40 bits, the smallest addressable unit of the device. -/
abbrev Word := BitVec 40

/-- R11. An accumulator or a double word is 80 bits. -/
abbrev DWord := BitVec 80

/-- A core, Mangle or Loop Engine word address (R20). -/
abbrev Addr := Nat

/-- R3. The double word held in two consecutive words: the lower address holds bits 39:0. -/
def dword (lo hi : Word) : DWord := hi ++ lo

/-- Bits 39:0 of a double word. -/
def DWord.lo (d : DWord) : Word := d.setWidth 40

/-- Bits 79:40 of a double word. -/
def DWord.hi (d : DWord) : Word := (d >>> 40).setWidth 40

end Sys2Proof
end

