-- ==== Sys2Proof/Syntax.lean ====
section
/-! DEFINITION. The commands the block takes, one constructor per row of the command table, and the operands they carry. -/

namespace Sys2Proof.Machine

open Sys2Proof

/-- R30. The requesters of register pages and memory. A Mangle requester is one of its channels (R39, R158). -/
inductive Requester
  | core (i : Fin 32)
  | cmangle (n : Fin 8) (ch : Fin 8)
  | dmangle (ch : Fin 16)
  | host
  | debugger
  | applier
  | service
  | snap
  | hamper
deriving DecidableEq, Repr

/-- A Seam channel (R138): local channel `ch` of cluster `loc`, or global channel `ch` where `loc` is 15. -/
structure Chan where
  loc : Nat
  ch : Nat
deriving DecidableEq, Repr

/-- An arrival at a consumer input (R147 to R150): the channel that carries it, and a second channel whose arrival is sampled
at the same edge (R149). -/
structure Arrival where
  via : Chan
  also : Option Chan
deriving DecidableEq, Repr

/-- Voltages a measuring unit sees, in one common unit: the input, V_REFN, the span V_REFP − V_REFN, and the unit's own
error in codes (R57, R86, R87).
DESIGN CHOICE, safe: log entry 139. -/
structure Analog where
  vin : Int
  refn : Int
  span : Int
  err : Int
deriving DecidableEq, Repr

/-- The registers whose write is an enable change of the converters (R68). -/
inductive AdcEnReg
  | convA | convB | seq | entry
deriving DecidableEq, Repr

/-- The encoder lines of a tracker (R108). -/
structure Lines where
  a : Bool := false
  b : Bool := false
  z : Bool := false
deriving DecidableEq, Repr

/-- R397. What the outside puts on a pad: nothing, or a voltage below, inside or above the hysteresis band. -/
inductive PadV
  | released | low | band | high
deriving DecidableEq, Repr

/-- R77. The data line of a ΣΔ channel over one bit period: NRZ, at the rising and at the falling edge of the modulator clock;
Manchester, in the first and in the second half of the period. -/
abbrev SdBit := Bool × Bool

/-- What brings a SYNC or a COMMIT to a timebase (R243, R252): an arrival at the input of timebase `t`, or a write of CMD. -/
inductive PwmCmd
  | seam (t : Fin 4) (a : Arrival)
  | cmd (w : Requester) (d : Word)
deriving DecidableEq, Repr

/-- What befalls the cycle of a microword: its word fails the parity check (R218), and the edge that ends the cycle is the
deadline edge of the run's trigger (R219). -/
structure UcCycle where
  parity : Bool
  late : Bool
deriving DecidableEq, Repr

/-- What a DRAM line read brings (R424, R425, R427): the die's report, 0 clean, 1 corrected, 2 detected uncorrectable; the
symbols the outer decoder finds in error, more than 4 of which make the line uncorrectable; and the words of an uncorrectable
line as read, those not given as stored. -/
structure DieRep where
  inner : Fin 3 := 0
  syms : Nat := 0
  words : List Word := []
deriving DecidableEq, Repr

/-- R422. How a request uses a line: a read, or a read-modify-write that replaces the words of these slots. -/
inductive DramOp
  | read
  | modify (slots : List (Fin 8))
deriving DecidableEq, Repr

/-- R431. A request that reaches the DRAM controller: its requester (`none`: a Hamper dump), its line and its use of it. -/
structure DramReq where
  r : Option Requester
  line : Fin 67108864
  how : DramOp
deriving DecidableEq, Repr

/-- R493, R494. The link header's frame type and payload size, and the network header, of a frame that arrives. -/
structure Hdr where
  ftype : Nat
  dst : Nat
  src : Nat
  tc : Nat
  hops : Nat
  kind : Nat
  eseq : Nat
  pbytes : Nat
deriving DecidableEq, Repr

/-- R491, R501. How a frame ends: an EOF whose CRC checks or does not, ABORT, or a bad block on a lane. -/
inductive FrameEnd
  | ok | crc | abort
  | block (lane : Fin 4)
deriving DecidableEq, Repr

/-- R551. A stream as one of its ends names it: its class, whether it is the broadcast stream, and the other end. -/
structure StreamId where
  tc : Nat
  bcast : Bool
  node : Nat
deriving DecidableEq, Repr

/-- R566, R565, R580. A host configuration request: MSI-X Enable and Function Mask, Device Control (Enable Relaxed
Ordering, Enable No Snoop, Max Payload and Max Read Request), or the function power state. -/
inductive CfgWrite
  | msix (en fmask : Bool)
  | devCtl (ro ns : Bool) (mps mrrs : Fin 8)
  | power (d3 : Bool)
deriving DecidableEq, Repr

/-- R472. How an erase of the boot flow's recovery goes: whether it verifies, its running time in µs, and the words a failed
erase leaves, by offset in the sector. -/
structure BootErase where
  ok : Bool := true
  us : Nat := 0
  left : List (Nat × Word) := []
deriving DecidableEq, Repr

/-- R472. What the boot flow meets in the flash array: the sectors whose margin scan differs, and its erases in order (a
clean one where none is given). -/
structure BootRep where
  weak : List Nat := []
  erases : List BootErase := []
deriving DecidableEq, Repr

/-- R605. What requests a device reset that waits on the flash (R608). -/
inductive ResetAsk
  | pin | watchdog | clock | sw | domain | monitor
deriving DecidableEq, Repr

/-- R573. What becomes of the host read of a Mangle beat: its completion brings a word or an error status, or it is still
outstanding. -/
inductive HostAns
  | word (w : Word) | error | later
deriving DecidableEq, Repr

/-- R658. The boundary-scan cells that SAMPLE/PRELOAD shifts in, by pin: a level, or undriven. -/
abbrev ScanCells := List (Fin 324 × Option Bool)

end Sys2Proof.Machine

namespace Sys2Proof

open Machine

/-- The commands of the block: one constructor per row of the command table, in its order.
Each docstring is the row's rule of spec/ and what the command stands for. An operand of type Unit says nothing. -/
inductive Instr where
  /-- R33. A write to a register page that has no row of its own, checked as a controlled write and applied field by field under the access codes. -/
  | registerWrite (w : Requester) (cl : Fin 16) (idx : BitVec 12) (off : BitVec 8) (d : Word)
  /-- R32. A write to a page's OWNER takes effect only while LOCK is 0 and the requester is privileged or the owner. -/
  | ownerWrite (w : Requester) (cl : Fin 16) (idx : BitVec 12) (d : Word)
  /-- R37. Writing 1 to a page's LOCK freezes every RWL field of the page until a reset of its scope. -/
  | lockSet (w : Requester) (cl : Fin 16) (idx : BitVec 12)
  /-- R39. A write of CHSEL changes only the requester's own bank and is ignored when the channel is out of range. -/
  | chselWrite (w : Requester) (cl : Fin 16) (idx : BitVec 12) (d : Word)
  /-- R43. A read of a register pair's low word captures the high word into the requester's bank. -/
  | pairLowRead (w : Requester) (cl : Fin 16) (idx : BitVec 12) (off : BitVec 8)
  /-- R43. A write of a register pair's low word is held in the requester's bank without taking effect. -/
  | pairLowWrite (w : Requester) (cl : Fin 16) (idx : BitVec 12) (off : BitVec 8) (d : Word)
  /-- R43. A write of a register pair's high word commits both words in one page-clock cycle. -/
  | pairHighWrite (w : Requester) (cl : Fin 16) (idx : BitVec 12) (off : BitVec 8) (d : Word)
  /-- R45. The root PLL reports lock and the domains derived from it may run. -/
  | pllLock (rep : BootRep)
  /-- R49. The clock monitor detects loss of root lock or a missing crystal, forces the safe state, switches to the fallback clock and requests a device reset. -/
  | clockFailure (xtal : Bool)
  /-- R624. A write of CLK.DOMAIN.GATE stops a clock domain or is refused when its condition does not hold. -/
  | domainGate (w : Requester) (d : Word)
  /-- R62. A trigger arrives at a sequence entry and starts, becomes pending or is dropped with OVR. -/
  | adcSeqTrigger (c : Fin 8) (ts : List (Fin 16 × Arrival))
  /-- R66. A write of ADC_SEQ.SWTRIG starts each entry whose bit is 1 as a trigger sampled at the next edge. -/
  | adcSwtrig (w : Requester) (c : Fin 8) (d : Word)
  /-- R62. A logical converter able to accept begins an acquisition from the pending start or the lowest sampled entry. -/
  | conversionStart (c : Fin 8)
  /-- R60. After ACQ cycles the sample is held and the conversion phase begins. -/
  | acquisitionEnd (c : Fin 8) (j : Fin 2)
  /-- R60. At the end of conversion RESULT and ESTAT are written, DONE fires and recovery begins. -/
  | conversionDone (c : Fin 8) (j : Fin 2) (x : Analog)
  /-- R60. After 6 recovery cycles the unit can accept its next acquisition. -/
  | adcRecoveryEnd (c : Fin 8) (j : Fin 2)
  /-- R68. A change of an entry's EN, a converter's CTRL.EN or ADC_SEQ.CTRL.EN takes effect at the next edge, discarding pending starts on disable. -/
  | adcEnableChange (w : Requester) (c : Fin 8) (r : AdcEnReg) (d : Word)
  /-- R74. Start-up calibration ends with three verifies and assigns roles, READY or NONE. -/
  | startupCalibrationDone (c : Fin 8) (x0 x1 x2 : Analog)
  /-- R69. The maintenance scheduler grants a calibration of the spare unit. -/
  | calibrationGrant (c : Fin 8) (u : Unit)
  /-- R72. A calibration ends with a verify conversion and passes, repeats or marks the unit FAILED. -/
  | calibrationDone (c : Fin 8) (x : Analog)
  /-- R73. ROT_INT × 100 µs passes since the previous handover and a handover may be armed. -/
  | rotationIntervalExpiry (c : Fin 8)
  /-- R73. A write of ROT_NOW arms a handover without waiting for ROT_INT. -/
  | rotNow (w : Requester) (c : Fin 8) (d : Word)
  /-- R73. At the first edge the outgoing unit is free, the spare takes over its logical converter and the released unit queues for calibration. -/
  | handover (c : Fin 8)
  /-- R74. A write of UNIT_CLR clears FAILED for a unit and, for the spare, restarts calibration. -/
  | unitClr (w : Requester) (c : Fin 8) (d : Word)
  /-- R95. A write of RB_CTRL with REQ = 1 queues a DAC read-back or completes it at once with NOSPARE. -/
  | readbackRequest (w : Requester) (c : Fin 8) (d : Word)
  /-- R95. The scheduler grants a read-back while the spare is READY and the spare converts the DAC. -/
  | readbackGrant (c : Fin 8) (u : Unit)
  /-- R95. The read-back conversion completes and writes CODE, DONE, FAIL and RB_DONE. -/
  | readbackDone (c : Fin 8) (x : Analog)
  /-- R83. After every R-th captured bit the filter writes RESULT and FSTAT and fires DATA when valid. -/
  | sdfOutput (c i : Fin 8) (xs : List SdBit)
  /-- R82. An arrival at a filter's Seam input re-phases its decimation. -/
  | sdfSync (c i : Fin 8) (a : Arrival) (xs : List SdBit)
  /-- R78. A Manchester bit period without a mid-bit transition repeats the previous bit and sets MDERR. -/
  | manchesterBitError (c i : Fin 8) (xs : List SdBit)
  /-- R83. No modulator clock edge for 4 bit periods, or 8 Manchester errors, clears VALID and sets CLK_LOST. -/
  | sdfClockLoss (c i : Fin 8)
  /-- R85. The short-circuit detector output rises, setting SC and firing the SC event. -/
  | scDetect (c i : Fin 8) (xs : List SdBit)
  /-- R87. The pin voltage crosses the threshold or hysteresis level and the raw comparator state changes. -/
  | comparatorCrossing (c i : Fin 8) (x : Analog)
  /-- R89. The lint filter samples its input every LDIV + 1 cycles and applies its majority rule. -/
  | lintSample (c i : Fin 8)
  /-- R90. A write of LINT clears the history and output, making a falling edge when the output was 1. -/
  | lintWrite (w : Requester) (c : Fin 8) (d : Word)
  /-- R106. A write of CCFG.EN = 0 drops the lint output to 0 silently. -/
  | comparatorDisable (w : Requester) (c : Fin 8) (d : Word)
  /-- R109. A filtered encoder line change reaches the decoder and makes a count step. -/
  | encoderInputChange (c : Fin 8) (t : Fin 4) (l : Lines × Nat)
  /-- R130. A selected probe edge latches POS into PRBn and fires PRBn. -/
  | probeLatch (c : Fin 8) (t : Fin 4) (n : Fin 2) (rise : Bool)
  /-- R120. An SSI_TRIG arrival starts an SSI frame, or raises SSI_LINE or SSI_OVR. -/
  | ssiTrigger (c : Fin 8) (t : Fin 4) (a : Arrival)
  /-- R120. A write of CMD.SSI_GO triggers an SSI frame. -/
  | ssiGo (w : Requester) (c : Fin 8) (d : Word)
  /-- R120. The last bit is sampled, decoded and checked, and an accepted code is written to POS with POSUPD. -/
  | ssiFrameDone (c : Fin 8) (t : Fin 4) (raw : Nat) (u : Unit)
  /-- R121. No start bit within 1,023 cycles abandons the frame with SSI_TO. -/
  | ssiTimeout (c : Fin 8) (t : Fin 4)
  /-- R120. The monoflop time ends and the data line is checked for SSI_LINE. -/
  | ssiMonoflopEnd (c : Fin 8) (t : Fin 4)
  /-- R121. A write of CMD.ERR_CLR clears ERR_CNT and ERR_CODE. -/
  | trackerErrClr (w : Requester) (c : Fin 8) (d : Word)
  /-- R136. A write of TCFG or SCFG takes effect at the next edge and may abandon a running SSI frame. -/
  | trackerCfgWrite (w : Requester) (c : Fin 8) (scfg : Bool) (d : Word)
  /-- R116. A write of MODULUS takes effect at the next edge and reduces POS modulo M. -/
  | modulusWrite (w : Requester) (c : Fin 8) (d : Word)
  /-- R117. A write of TURNS commits the POS and TURNS pair at the next edge. -/
  | trackerPosWrite (w : Requester) (c : Fin 8) (d : Word) (l : Option (Lines × Nat))
  /-- R125. A speed window ends and DELTA and SPEED are written and SPD fires. -/
  | speedWindowEnd (c : Fin 8) (t : Fin 4)
  /-- R123. A WSYNC arrival discards the running window and starts a new one. -/
  | windowSync (c : Fin 8) (t : Fin 4) (a : Arrival)
  /-- R127. A full tracker recomputes PSPEED every 256 cycles between steps. -/
  | pspeedUpdate (c : Fin 8) (t : Fin 4)
  /-- R128. E reaches STILL.T × 4,000 cycles and both speeds are set to 0 with STILL. -/
  | standstill (c : Fin 8) (t : Fin 4)
  /-- R143. A write of CH_ROUTE is checked for CODE, CYCLE and FANIN and applied or refused with ROUTE_ERR. -/
  | routingWrite (w : Requester) (n : Option (Fin 8)) (d : Word)
  /-- R155. A write of GSEAM.FIRE launches events on the chosen global channels. -/
  | seamFire (w : Requester) (n : Fin 2) (d : Word)
  /-- R156. A write of ARM in IDLE arms a Mangle channel at HEAD with the writer's ring. -/
  | mangleArm (w : Requester) (n : Option (Fin 8)) (d : Word)
  /-- R157. A write of GO triggers an armed channel or becomes its pending trigger. -/
  | mangleGo (w : Requester) (n : Option (Fin 8)) (d : Word)
  /-- R156. A write of ABORT stops the chain in hand and returns the channel to IDLE. -/
  | mangleAbort (w : Requester) (n : Option (Fin 8)) (d : Word)
  /-- R156. A write of CLR leaves ERROR for IDLE. -/
  | mangleClr (w : Requester) (n : Option (Fin 8)) (d : Word)
  /-- R157. An arrival at a channel's start input with TRIG_SEAM triggers it or is held or dropped. -/
  | mangleStartTrigger (n : Option (Fin 8)) (ch : Fin 16) (a : Arrival)
  /-- R156. The eight descriptor words arrive and the channel runs, or ends in error on a bad format or read. -/
  | descriptorFetchDone (n : Option (Fin 8)) (ch : Fin 16)
  /-- R164. A beat's read returns and its write takes effect, advancing CRC and the beat count. -/
  | mangleBeat (n : Option (Fin 8)) (ch : Fin 16) (host : HostAns)
  /-- R171. All beats and writebacks are done; DONE fires and the channel goes idle, fetches NEXT or waits. -/
  | descriptorComplete (n : Option (Fin 8)) (ch : Fin 16)
  /-- R573. A device read of host memory times out or errors and ends its beat with ECODE 5. -/
  | hostCompletionTimeout (ch : Fin 16)
  /-- R184. A trigger is sampled at a slot, held with its edge, and the input latch takes the source. -/
  | slotTrigger (c : Fin 8) (sl : Fin 12) (a : Arrival) (e : Nat)
  /-- R183. A write of LOOP.SWTRIG triggers each slot whose bit is 1. -/
  | loopSwtrig (w : Requester) (c : Fin 8) (d : Word) (e : Nat)
  /-- R185. With no run executing, the engine starts the lowest-numbered pending slot. -/
  | runStart (c : Fin 8) (edge : Nat)
  /-- R188. A trigger reaches E + DL without its END and misses, abandoning its run or discarding it. -/
  | deadlineMiss (c : Fin 8) (sl : Fin 12) (held : Bool)
  /-- R207. A write of SCFG, SSRC, STGT or UENTRY rechecks CFG_ERR and handles enable changes. -/
  | slotConfigWrite (w : Requester) (c : Fin 8) (r : Fin 4) (d : Word)
  /-- R226. A write of RESEED sets FIRST of each chosen slot. -/
  | loopReseed (w : Requester) (c : Fin 8) (d : Word)
  /-- R226. A write of LATCLR clears LAT.MAX of each chosen slot. -/
  | latClear (w : Requester) (c : Fin 8) (d : Word)
  /-- R230. A write of UC_DATA stores a customer microword or sets UC_ERR, then increments UC_ADDR. -/
  | ucDataWrite (w : Requester) (c : Fin 8) (d : Word)
  /-- R230. A read of UC_DATA returns the microword at UC_ADDR and increments it. -/
  | ucDataRead (w : Requester) (c : Fin 8)
  /-- R212. Microword with no effect. -/
  | ucNop (c : Fin 8) (x : UcCycle)
  /-- R212. Microword copying A into D. -/
  | ucMov (c : Fin 8) (x : UcCycle)
  /-- R212. Microword forming the saturated sum of A and B. -/
  | ucAdd (c : Fin 8) (x : UcCycle)
  /-- R212. Microword forming the saturated difference of A and B. -/
  | ucSub (c : Fin 8) (x : UcCycle)
  /-- R212. Microword forming the saturated negation of A. -/
  | ucNeg (c : Fin 8) (x : UcCycle)
  /-- R212. Microword forming the saturated absolute value of A. -/
  | ucAbs (c : Fin 8) (x : UcCycle)
  /-- R212. Microword forming the minimum of A and B. -/
  | ucMin (c : Fin 8) (x : UcCycle)
  /-- R212. Microword forming the maximum of A and B. -/
  | ucMax (c : Fin 8) (x : UcCycle)
  /-- R212. Microword limiting D between A and B. -/
  | ucLim (c : Fin 8) (x : UcCycle)
  /-- R212. Microword shifting A left with saturation by the B field count. -/
  | ucShl (c : Fin 8) (x : UcCycle)
  /-- R212. Microword shifting A right with rounding by the B field count. -/
  | ucShr (c : Fin 8) (x : UcCycle)
  /-- R212. Microword forming the product of A and B into an accumulator or a rounded register. -/
  | ucMul (c : Fin 8) (x : UcCycle)
  /-- R212. Microword adding the product of A and B to an accumulator. -/
  | ucMac (c : Fin 8) (x : UcCycle)
  /-- R212. Microword subtracting the product of A and B from an accumulator. -/
  | ucMsu (c : Fin 8) (x : UcCycle)
  /-- R212. Microword setting Z and N from A minus B. -/
  | ucCmp (c : Fin 8) (x : UcCycle)
  /-- R215. Microword loading a data memory word, forwarded from the store queue when queued. -/
  | ucLd (c : Fin 8) (x : UcCycle)
  /-- R215. Microword queuing a store for the END commit. -/
  | ucSt (c : Fin 8) (x : UcCycle)
  /-- R212. Microword loading a shifted immediate. -/
  | ucLdi (c : Fin 8) (x : UcCycle)
  /-- R212. Microword forming the bitwise AND of A and B. -/
  | ucAnd (c : Fin 8) (x : UcCycle)
  /-- R212. Microword forming the bitwise OR of A and B. -/
  | ucOr (c : Fin 8) (x : UcCycle)
  /-- R212. Microword shifting A right with truncation. -/
  | ucShrt (c : Fin 8) (x : UcCycle)
  /-- R216. Microword jumping to TARGET when COND holds. -/
  | ucJmp (c : Fin 8) (x : UcCycle)
  /-- R217. Microword pushing the return address and jumping when COND holds. -/
  | ucCall (c : Fin 8) (x : UcCycle)
  /-- R217. Microword popping and jumping when COND holds. -/
  | ucRet (c : Fin 8) (x : UcCycle)
  /-- R191. Microword ending the run and committing states, stores, output, target write, cascade and DONE at the END edge. -/
  | ucEnd (c : Fin 8) (edge : Nat) (parity : Bool)
  /-- R218. Microword ending the run without commit as micro-fault 8. -/
  | ucAbort (c : Fin 8) (x : UcCycle)
  /-- R231. EN becoming 1 sets CNT to 0 at a zero point, transfers every shadow and may begin a trip. -/
  | timebaseStart (w : Requester) (c : Fin 8) (d : Word)
  /-- R231. EN becoming 0 holds the counter and drives every output safe. -/
  | timebaseStop (w : Requester) (c : Fin 8) (d : Word)
  /-- R231. CNT reaches 0 counting down; DIR turns up, REF is set and a load event may occur. -/
  | zeroPoint (c : Fin 8) (t : Fin 4) (u : Unit)
  /-- R231. CNT reaches P counting up; DIR turns down, REF is set and a load event may occur. -/
  | periodPoint (c : Fin 8) (t : Fin 4)
  /-- R250. Position reaches a compare and REF changes once on that slope. -/
  | compareCrossing (c : Fin 8) (k : Fin 12) (b : Bool)
  /-- R239. An output turns on after its dead time and minimum off-time, or is cancelled with DROP. -/
  | outputTurnOn (c : Fin 8) (k : Fin 12) (low : Bool)
  /-- R239. An output turns off at the later of its requested turn-off and its minimum on-time. -/
  | outputTurnOff (c : Fin 8) (k : Fin 12) (low : Bool)
  /-- R244. A CMD.COMMIT write or COMMIT arrival moves a LINKED timebase to COMMITTED. -/
  | pwmCommit (c : Fin 8) (x : PwmCmd)
  /-- R252. A SYNC arrival or CMD.SYNC write loads CNT and DIR from SYNCVAL and re-forms REF. -/
  | pwmSync (c : Fin 8) (x : PwmCmd)
  /-- R246. A write of TBCFG changes LMODE, resetting CSTATE and pending bits, or other timebase settings. -/
  | timebaseCfgWrite (w : Requester) (c : Fin 8) (d : Word)
  /-- R240. A write of OCFG takes effect at the next edge, an enabled output counting as just turned off. -/
  | ocfgWrite (w : Requester) (c : Fin 8) (d : Word)
  /-- R257. An enabled scorch source becomes active and trips the timebase through the asynchronous path. -/
  | scorchSourceActive (c : Fin 8) (t : Fin 4) (k : Fin 8)
  /-- R257. A write of TRCMD.SWTRIP trips the timebase. -/
  | swtrip (w : Requester) (c : Fin 8) (d : Word)
  /-- R259. A write of TRCMD.TRIP_CLR clears TRIP_ACTIVE or is refused with CLR_REFUSED. -/
  | tripClr (w : Requester) (c : Fin 8) (d : Word)
  /-- R283. A move into an operand port holds its value for later triggers. -/
  | operandMove (k : Fin 32)
  /-- R280. A move into v1–v31 sets the register. -/
  | registerMove (k : Fin 32)
  /-- R278. A move into p1–p7 sets the predicate from whether the value is nonzero. -/
  | predicateMove (k : Fin 32)
  /-- R280. Trigger forming T + A modulo 2^40. -/
  | aluT (k : Fin 32)
  /-- R280. Trigger forming the saturated sum. -/
  | aluAdds (k : Fin 32)
  /-- R280. Trigger forming T − A modulo 2^40. -/
  | aluSub (k : Fin 32)
  /-- R280. Trigger forming the saturated difference. -/
  | aluSubs (k : Fin 32)
  /-- R280. Trigger forming T AND A. -/
  | aluAnd (k : Fin 32)
  /-- R280. Trigger forming T OR A. -/
  | aluOr (k : Fin 32)
  /-- R280. Trigger forming T XOR A. -/
  | aluXor (k : Fin 32)
  /-- R280. Trigger forming T AND NOT A. -/
  | aluAndn (k : Fin 32)
  /-- R280. Trigger forming the signed minimum. -/
  | aluMin (k : Fin 32)
  /-- R280. Trigger forming the signed maximum. -/
  | aluMax (k : Fin 32)
  /-- R280. Trigger forming the saturated absolute value. -/
  | aluAbss (k : Fin 32)
  /-- R280. Trigger forming the saturated negation. -/
  | aluNegs (k : Fin 32)
  /-- R280. Trigger shifting T left with zero fill. -/
  | shfT (k : Fin 32)
  /-- R280. Trigger shifting T logically right. -/
  | shfShr (k : Fin 32)
  /-- R280. Trigger shifting T arithmetically right. -/
  | shfSar (k : Fin 32)
  /-- R280. Trigger shifting T right with rounding. -/
  | shfSarr (k : Fin 32)
  /-- R280. Trigger shifting T left with saturation. -/
  | shfShls (k : Fin 32)
  /-- R280. Trigger testing T = A. -/
  | cmpT (k : Fin 32)
  /-- R280. Trigger testing T ≠ A. -/
  | cmpNe (k : Fin 32)
  /-- R280. Trigger testing signed T < A. -/
  | cmpLt (k : Fin 32)
  /-- R280. Trigger testing signed T ≥ A. -/
  | cmpGe (k : Fin 32)
  /-- R280. Trigger testing unsigned T < A. -/
  | cmpLtu (k : Fin 32)
  /-- R280. Trigger testing unsigned T ≥ A. -/
  | cmpGeu (k : Fin 32)
  /-- R280. Trigger forming the rounded Q8.31 product. -/
  | mulT (k : Fin 32)
  /-- R280. Trigger forming the low 40 bits of the exact product. -/
  | mulL (k : Fin 32)
  /-- R280. Trigger forming the high 40 bits of the exact product. -/
  | mulH (k : Fin 32)
  /-- R280. Trigger adding 2 × T × A to accumulator N. -/
  | macT (k : Fin 32)
  /-- R280. Trigger subtracting 2 × T × A from accumulator N. -/
  | macS (k : Fin 32)
  /-- R280. Trigger setting accumulator N to 2 × T × A. -/
  | macZ (k : Fin 32)
  /-- R280. Trigger starting a signed division. -/
  | divT (k : Fin 32)
  /-- R280. Trigger starting a Q8.31 division. -/
  | divQ (k : Fin 32)
  /-- R280. Trigger starting an unsigned division. -/
  | divU (k : Fin 32)
  /-- R285. A division finishes after 22 cycles and its quotient and remainder become readable. -/
  | divComplete (k : Fin 32)
  /-- R289. Trigger starting a word copy beside later moves. -/
  | cpyT (k : Fin 32)
  /-- R289. A copy finishes or stops at a failing word, releasing moves that waited on it. -/
  | cpyComplete (k : Fin 32)
  /-- R291. Trigger loading the word at A + T. -/
  | lsuT (k : Fin 32)
  /-- R291. Trigger loading the word at A and advancing A by T. -/
  | lsuLdi (k : Fin 32)
  /-- R291. Trigger loading a double word, split when odd. -/
  | lsuLdd (k : Fin 32)
  /-- R291. Trigger storing T at B into the store buffer. -/
  | lsuSt (k : Fin 32)
  /-- R291. Trigger storing T at B and incrementing B. -/
  | lsuSti (k : Fin 32)
  /-- R345. Trigger storing a double word, checked and split when odd. -/
  | lsuStd (k : Fin 32)
  /-- R340. A load's data returns from memory or by forwarding and lsu.r becomes readable, or BUS_ERR is raised. -/
  | loadReturn (k : Fin 32)
  /-- R338. A store buffer entry is accepted by its target and becomes visible. -/
  | storeDrain (k : Fin 32)
  /-- R293. Control move jumping to T. -/
  | bruT (k : Fin 32)
  /-- R293. Control move jumping relative to the branch address. -/
  | bruJr (k : Fin 32)
  /-- R304. Control move pushing a return address and jumping to T. -/
  | bruCall (k : Fin 32)
  /-- R304. Control move pushing a return address and jumping relative. -/
  | bruCallr (k : Fin 32)
  /-- R306. Control move popping the return stack and jumping, or raising RS_EMPTY. -/
  | bruRet (k : Fin 32)
  /-- R295. Trigger building a constant from cns.a and T. -/
  | cnsT (k : Fin 32)
  /-- R296. Trigger firing the core's chosen EVP outputs. -/
  | evpT (k : Fin 32)
  /-- R297. Read waiting for an EVP latch, then returning and clearing the latches. -/
  | evpR (k : Fin 32)
  /-- R297. Read returning and clearing the EVP latches without waiting. -/
  | evpP (k : Fin 32)
  /-- R297. An arrival at a core's EVP input sets its latch. -/
  | evpInputArrival (k : Fin 32) (j : Fin 2) (a : Arrival)
  /-- R298. Trigger setting the private port output register. -/
  | gioT (k : Fin 32)
  /-- R298. Trigger setting bits of the private port. -/
  | gioSet (k : Fin 32)
  /-- R298. Trigger clearing bits of the private port. -/
  | gioClr (k : Fin 32)
  /-- R298. Trigger inverting bits of the private port. -/
  | gioTgl (k : Fin 32)
  /-- R341. Move completing when every earlier store has drained and no copy runs. -/
  | sysFence (k : Fin 32)
  /-- R356. Move entering a gate after its checks, pushing a gate frame and changing ring. -/
  | sysGate (k : Fin 32)
  /-- R367. Move returning through the frame at XFP after fence and checks. -/
  | sysGret (k : Fin 32)
  /-- R332. sys.pred FLUSH invalidates every RAP and BTT entry. -/
  | predFlush (k : Fin 32)
  /-- R332. sys.pred BAR disables prediction. -/
  | predBar (k : Fin 32)
  /-- R332. sys.pred SYNC copies the return stack top into the RAP. -/
  | predSync (k : Fin 32)
  /-- R332. sys.pred RELEASE ends BAR. -/
  | predRelease (k : Fin 32)
  /-- R620. Move stopping issue and the core clock until a wake condition. -/
  | sysWait (k : Fin 32)
  /-- R620. A deliverable interrupt, EVP latch or debugger halt resumes a waiting core. -/
  | coreWake (k : Fin 32)
  /-- R299. Move raising TRAP with its code. -/
  | sysTrap (k : Fin 32)
  /-- R299. Move halting the core for the debugger or raising BRK. -/
  | sysBrk (k : Fin 32)
  /-- R300. Prefix repeating the next packet n times. -/
  | rptPrefix (k : Fin 32)
  /-- R310. A read of RS_DATA pops and returns the top return stack entry. -/
  | rsDataRead (k : Fin 32)
  /-- R310. A write of RS_DATA pushes an entry. -/
  | rsDataWrite (k : Fin 32)
  /-- R322. A line-buffer fill from a region completes and may be written into the cache. -/
  | fetchFillDone (k : Fin 32) (a : BitVec 32)
  /-- R326. A write of ICMD.INV_ALL invalidates the cache and line buffer. -/
  | invAll (w : Requester) (k : Fin 32) (d : Word)
  /-- R326. A write of ICMD.INV_LINE invalidates the line holding ICADDR. -/
  | invLine (w : Requester) (k : Fin 32) (d : Word)
  /-- R362. A precise exception, or an imprecise one at a boundary, writes a frame and enters XVEC. -/
  | exceptionEntry (k : Fin 32) (copied : Nat)
  /-- R362. At a boundary with IEN set and a presented source, the core writes a frame and enters IVEC. -/
  | interruptEntry (k : Fin 32) (copied : Nat)
  /-- R373. A DIC source line rises or falls, latching an EDGE source or changing a LEVEL source's pending state. -/
  | dicLineChange (c : Fin 8) (src : Fin 256)
  /-- R373. A write of DOORBELL sets the latch of the named source. -/
  | dicDoorbell (w : Requester) (c : Fin 8) (d : Word)
  /-- R376. A read of CLAIM returns and activates the winning deliverable source, pushing it on the stack. -/
  | dicClaim (w : Requester) (c : Fin 8) (k : Fin 4)
  /-- R378. A write of DONE pops the top active source or is refused with PSF. -/
  | dicDone (w : Requester) (c : Fin 8) (k : Fin 4) (d : Word)
  /-- R380. A write of SRCCFG.EN = 0 takes effect at once or after 4 cycles in COMPAT mode. -/
  | srccfgDisable (w : Requester) (c : Fin 8) (d : Word)
  /-- R382. A watched source rises, setting HIT and possibly requesting a wake. -/
  | aowSourceEdge (w : Fin 32) (a : Option Arrival)
  /-- R384. A write of TMR.COMPARE restarts the wake timer count. -/
  | wakeTimerWrite (w : Requester) (d : Word)
  /-- R384. The wake-timer count reaches COMPARE and the timer source becomes active. -/
  | wakeTimerExpiry
  /-- R391. A write of 1 to CTRL.EN starts a watchdog. -/
  | watchdogEnable (w : Requester) (x : Option (Fin 8)) (d : Word)
  /-- R386. A write of KICK restarts the count or causes expiry by key and window. -/
  | watchdogKick (w : Requester) (x : Option (Fin 8)) (d : Word)
  /-- R386. COUNT reaches a nonzero WARN and sets WARN. -/
  | watchdogWarn (x : Option (Fin 8))
  /-- R387. COUNT reaches CLOSE and the watchdog asserts its expiry signal. -/
  | watchdogExpiry (x : Option (Fin 8))
  /-- R396. A write of a pin's PCFG changes its electrical options or safe state. -/
  | pcfgWrite (w : Requester) (d : Word) (u : Unit)
  /-- R405. A write of PFUNC is checked and switches the pin's functions with keeper and disarm cycles. -/
  | pfuncWrite (w : Requester) (d : Word)
  /-- R406. A write of a pin's OWN changes its ownership or sets PLOCK. -/
  | pinOwnWrite (w : Requester) (d : Word)
  /-- R407. A write of DOUTn changes the bits of pins whose ownership accepts the requester. -/
  | doutWrite (w : Requester) (n : Fin 9) (d : Word)
  /-- R395. A bank supply leaves its range; its pins stop driving and BANK_FAULT is set. -/
  | bankSupplyLoss (n : Fin 9)
  /-- R401. A bank supply becomes valid and its inputs start as at power-up. -/
  | bankSupplyValid (n : Fin 9) (lvl : Fin 4) (pads : List (Fin 36 × PadV))
  /-- R414. A pin event unit's filtered level changes, firing its selected edges. -/
  | pinEvent (pin : Fin 324) (v : PadV × Nat)
  /-- R423. Array initialisation ends and READY becomes 1. -/
  | dramInitDone
  /-- R432. The controller grants a line slot to a waiting request by class. -/
  | dramRequestServe (came : List DramReq) (inner : Fin 3) (syms : Nat) (words : List Word)
  /-- R426. A corrected line is written back as a SCRUB request, or withdrawn after a newer write. -/
  | correctedWriteback (line : Fin 67108864)
  /-- R427. An uncorrectable line is rewritten with every slot poisoned. -/
  | uncorrectableRewrite (line : Fin 67108864)
  /-- R429. A write of DRAM.PCLR clears POISON in a line's tag bytes. -/
  | dramPclr (w : Requester) (d : Word × DieRep)
  /-- R434. A Darner burst falls due and is requested from the scheduler. -/
  | darnerBurstDue
  /-- R434. A write of DARNER.CTRL.NOW makes bursts due back to back to the end of the pass. -/
  | darnerNow (w : Requester) (d : Word)
  /-- R436. The scheduler grants a burst and the Darner steps BURST lines. -/
  | darnerBurstGrant (u : Unit) (reps : List DieRep)
  /-- R443. A write of HAMPER.CTRL.EN = 1 latches the geometry and starts FILL or is refused with CFG_ERR. -/
  | hamperEnable (w : Requester) (d : Word)
  /-- R443. A write of EN = 0 returns the Hamper to IDLE after the record in progress. -/
  | hamperDisable (w : Requester) (d : Word)
  /-- R442. A cadence event starts a record or is dropped with MISS and GAP. -/
  | hamperCadence (a : Arrival)
  /-- R439. A record's signal reads finish and its lines are written, header last, advancing the state. -/
  | hamperRecordComplete
  /-- R443. An enabled freeze source fires and moves the Hamper to POST or counts EXTRA. -/
  | hamperTrigger (a : Option Arrival) (pin : Bool)
  /-- R444. A write of CMD.FREEZE fires the command freeze source. -/
  | hamperFreeze (w : Requester) (d : Word)
  /-- R443. A write of CMD.REARM leaves FROZEN for FILL or is ignored during a dump. -/
  | hamperRearm (w : Requester) (d : Word)
  /-- R447. A write of CMD.DUMP queues a dump or is refused with DUMP_ERR. -/
  | hamperDump (w : Requester) (d : Word)
  /-- R447. The scheduler grants the dump and the ring copy starts oldest first. -/
  | dumpGrant (u : Unit)
  /-- R447. The ring copy ends and DUMP_DONE is set. -/
  | dumpDone
  /-- R455. A flash group read is served after any wait and passes the BCH decoder. -/
  | flashRead (r : Option Requester) (w : Fin 8388608) (corr : Nat)
  /-- R458. FLASH.CMD PROGRAM, if checks pass, programs the group at PADDR. -/
  | flashProgram (w : Requester)
  /-- R458. A program verifies or ends with PROG_FAIL. -/
  | programDone (ok : Bool) (left : List Word)
  /-- R459. FLASH.CMD ERASE queues a sector erase in the maintenance scheduler. -/
  | flashErase (w : Requester) (sector : Fin 2048)
  /-- R459. The scheduler grants an erase and its ledger records begin. -/
  | eraseGrant (u : Unit)
  /-- R470. A ledger record's two group programs complete and the next step may begin. -/
  | ledgerRecordDone (ok : Bool) (left : List Word)
  /-- R459. The sector erase verifies or fails and ERASE_END is written. -/
  | eraseDone (ok : Bool) (left : List (Nat × Word)) (u : Unit)
  /-- R461. FLASH.CMD SUSPEND requests suspension of the running erase. -/
  | flashSuspend (w : Requester)
  /-- R461. FLASH.CMD RESUME restarts a suspended erase. -/
  | flashResume (w : Requester)
  /-- R461. After 200 µs of running time a suspend is accepted and the erase stops. -/
  | suspendAccept (u : Unit)
  /-- R462. An automatically suspended erase resumes after 5 µs without flash reads. -/
  | autoResume
  /-- R464. FLASH.CMD MARGIN_PV compares a sector at the program-verify margin. -/
  | marginPv (w : Requester) (sector : Fin 2048)
  /-- R464. FLASH.CMD MARGIN_EV compares a sector at the erase-verify margin. -/
  | marginEv (w : Requester) (sector : Fin 2048)
  /-- R464. A margin read completes, writes MARGIN and may mark the sector HALF. -/
  | marginDone (count first : Nat)
  /-- R487. A write of LEDGER.APPEND.GO appends a USER record. -/
  | ledgerAppend (w : Requester) (d : Word)
  /-- R474. IMG_CMD MARK_TRIAL puts a slot on trial. -/
  | imgMarkTrial (w : Requester) (slot : Fin 2)
  /-- R474. IMG_CMD CONFIRM confirms the running trial slot or provisions a slot. -/
  | imgConfirm (w : Requester) (slot : Fin 2)
  /-- R474. IMG_CMD START records the running slot and moves a trial to TRIAL_RUN. -/
  | imgStart (w : Requester) (slot : Fin 2)
  /-- R474. IMG_CMD REJECT rejects a trial slot. -/
  | imgReject (w : Requester) (slot : Fin 2)
  /-- R481. A write of LWF.WCMD starts a limited-write field write or fails with a cause. -/
  | lwfWrite (w : Requester) (d : Word)
  /-- R482. The field write verifies and governs, or ends with VERIFY. -/
  | lwfWriteDone (got : Nat)
  /-- R483. The LWF array is read into the page at reset and LOADED becomes 1. -/
  | lwfLoad (rep : BootRep)
  /-- R498. A write of DLn.CTRL.EN enables or disables a port, tearing an active link on disable. -/
  | portEnable (w : Requester) (k : Fin 4) (d : Word)
  /-- R498. Signal is present on lane 0 for 1 µs and the port enters TRAIN. -/
  | signalDetect (k : Fin 4)
  /-- R498. Lane 0 gains block lock and the port moves toward DESKEW. -/
  | blockLockAcquired (k : Fin 4) (mask : BitVec 4) (eq : List Nat)
  /-- R498. No block lock on lane 0 within 1 ms returns the port to DETECT. -/
  | trainTimeout (k : Fin 4)
  /-- R498. Two ALIGN blocks seen on every used lane align the lanes and the port enters INIT. -/
  | deskewDone (k : Fin 4) (skew : List Nat)
  /-- R498. Excess skew or no alignment returns the port to TRAIN with DESKEW_ERR. -/
  | deskewFail (k : Fin 4)
  /-- R499. An INIT control block is received; the width is agreed and the port becomes ACTIVE or resumes Mend. -/
  | lctlInit (k : Fin 4) (lanes : BitVec 4) (exp : BitVec 12) (torn : Bool)
  /-- R492. A used lane loses block lock or alignment and the port enters RETRAIN. -/
  | blockLockLoss (k : Fin 4) (lane : Option (Fin 4)) (errs : Nat)
  /-- R498. A write of DLn.CTRL.RETRAIN moves an ACTIVE port to RETRAIN. -/
  | retrainWrite (w : Requester) (k : Fin 4) (d : Word)
  /-- R497. A RETRAIN control block from the partner moves the port to RETRAIN. -/
  | lctlRetrain (k : Fin 4)
  /-- R502. 10 µs without returning to ACTIVE tears the link and discards retry buffers. -/
  | retrainTimeout (k : Fin 4)
  /-- R506. An egress port starts the highest-priority frame for which it holds credit. -/
  | frameStart (k : Fin 4) (fine : Fin 64)
  /-- R559. A held REORDER frame is sent alone after 10 µs without a next frame. -/
  | frayReorderTimeout (k : Fin 4) (fine : Fin 64)
  /-- R501. A ROUTED frame ends with EOF or ABORT and is accepted, discarded or NAKed under Mend. -/
  | frameReceive (k : Fin 4) (ws : List Word) (fe : FrameEnd)
  /-- R503. A frame's network header arrives and the device delivers, forwards or discards it. -/
  | frameRoute (k : Fin 4) (lseq : BitVec 12) (lack : Option (BitVec 12)) (x : Hdr)
  /-- R501. An ACK control block acknowledges frames in the retry buffer. -/
  | lctlAck (k : Fin 4) (l : BitVec 12)
  /-- R502. A NAK control block makes the sender retransmit from the named frame. -/
  | lctlNak (k : Fin 4) (l : BitVec 12)
  /-- R507. A CREDIT control block returns credits to the sender. -/
  | lctlCredit (k : Fin 4) (loc routed : BitVec 16)
  /-- R501. The receiver repeats NAK(EXP) every 1 µs until it accepts EXP. -/
  | nakRepeat (k : Fin 4)
  /-- R502. The oldest unacknowledged frame waits 2 µs and the sender retransmits or, at the 17th send, retrains. -/
  | ackTimeout (k : Fin 4)
  /-- R509. A HELLO is received, updating neighbour state, roles, conflicts and UP loss. -/
  | dlHello (k : Fin 4) (ws : List Word)
  /-- R509. Every 100 µs the device sends HELLO on every port. -/
  | helloTimer
  /-- R511. After JHOLD and a joined HELLO, an unjoined device sends CHILD_REQ and enters REQUESTING. -/
  | parentChoice
  /-- R511. No grant or refusal within 1 ms returns the device to UNJOINED. -/
  | childReqTimeout
  /-- R512. A joined device receives CHILD_REQ and forwards it as JOIN_REQ or, at the root, handles it. -/
  | childReq (k : Fin 4) (ws : List Word)
  /-- R512. The root handles a join request, granting an ID or refusing with a cause. -/
  | joinReq
  /-- R513. A JOIN_GRANT sets route entries on its way and the parent sends CHILD_GRANT. -/
  | joinGrant
  /-- R513. A JOIN_REFUSE returns toward the child as CHILD_REFUSE. -/
  | joinRefuse
  /-- R513. The child takes its ID, H, JOINED state and UP port. -/
  | childGrant (k : Fin 4) (ws : List Word)
  /-- R511. The child is refused and records JCAUSE. -/
  | childRefuse (k : Fin 4) (ws : List Word)
  /-- R515. A LEAVE frame clears the named routes and the root holds the freed IDs. -/
  | dlLeave
  /-- R514. A write of DCMD.LEAVE makes the device UNJOINED. -/
  | dcmdLeave (w : Requester) (d : Word)
  /-- R515. A freed ID's hold time ends at the root. -/
  | idHoldExpiry (id : BitVec 14)
  /-- R518. Every SYNC_INT the device sends SYNC on each CHILD and STANDBY port. -/
  | syncTimer
  /-- R518. A SYNC is received, stamped and answered with DREQ. -/
  | dlSync (k : Fin 4) (ws : List Word) (fine : Fin 64)
  /-- R518. A DREQ is received, stamped and answered with DRESP. -/
  | dlDreq (k : Fin 4) (ws : List Word) (fine : Fin 64)
  /-- R519. A DRESP completes an exchange and on the UP port steps or steers domain time. -/
  | dlDresp (k : Fin 4) (ws : List Word)
  /-- R520. No exchange for 8 × SYNC_INT moves a LOCKED device to HOLDOVER. -/
  | holdoverEntry
  /-- R520. HOLD_MAX in holdover makes domain time invalid. -/
  | holdoverExpiry
  /-- R517. A write of TSET_H on the root steps domain time to TSET. -/
  | tsetHWrite (w : Requester) (d : Word)
  /-- R529. A TICK_CFG frame is received and its configuration kept. -/
  | tickCfg
  /-- R529. Every 1 ms the root broadcasts TICK_CFG. -/
  | tickCfgTimer
  /-- R530. A write of BASE_H on the root commits a tick configuration or sets CFG_ERR. -/
  | baseHCommit (w : Requester) (d : Word)
  /-- R531. Domain time reaches T(n) and the device fires the tick, skipping overtaken ticks. -/
  | domTick
  /-- R532. The capture reads finish; buffers are released, CAPV written, 0x011 fired and the publication sent. -/
  | captureComplete (u : Unit)
  /-- R533. A capture read not returned in 10 µs is failed and CAP_ERR is set. -/
  | captureTimeout (n : Fin 64) (u : Unit)
  /-- R538. The root receives a publication and writes the node's FRESH block or discards it as late. -/
  | domPublication
  /-- R539. A generation completes when all blocks are FRESH or ASM_DL passes, filling STALE, FENCED or ABSENT blocks. -/
  | generationComplete
  /-- R536. A write of SNAP.CTRL.ASM latches the snapshot geometry or is refused. -/
  | asmEnable (w : Requester) (d : Word)
  /-- R541. A write of LEASE.REQ pins the latest generation or joins the pin. -/
  | leaseReq (w : Requester)
  /-- R541. A write of LEASE.REL ends the requester's lease. -/
  | leaseRel (w : Requester)
  /-- R541. A pin's lease time ends and its holders see EXPIRED. -/
  | leaseExpiry
  /-- R544. A write of CTX_B with GO checks and sends a command, logging it. -/
  | commandSend (w : Requester) (d : Word)
  /-- R546. A target accepts a command and queues or rejects it. -/
  | domCommand
  /-- R547. After capture the applier checks and issues the writes of each command queued for the tick. -/
  | commandApply
  /-- R548. A REPORT frame reaches the sender and is completed from the send log and queued. -/
  | domReport
  /-- R562. A read of DOM.RPT_L captures RPT_H and removes the report entry. -/
  | reportRead (w : Requester)
  /-- R552. A fenced receiver repeats RESUME_REQ every 100 µs. -/
  | resumeReqRepeat (x : StreamId)
  /-- R553. A sender receives RESUME_REQ and queues RESUME_ACK behind the stream. -/
  | resumeReq (tc : Fin 3)
  /-- R554. A fenced receiver releases held frames, reports LOST ones and clears the fence. -/
  | resumeAck (tc : Fin 3)
  /-- R557. A write enabling a Fray action is refused unless LWF.FRAY_EN permits. -/
  | frayConfigWrite (w : Requester) (k : Fin 4) (act : Option (Fin 4)) (d : Word)
  /-- R569. A host read performs one read per touched slot after earlier host writes. -/
  | hostRead (bar : Fin 3) (off : BitVec 32) (len : Fin 4097) (ro ns : Bool)
  /-- R568. A host write performs one access per slot, discarding partial slots. -/
  | hostWrite (bar : Fin 3) (off : BitVec 32) (bytes : List (Option (BitVec 8)))
  /-- R576. A host read of the snapshot window returns the leased buffer's block word. -/
  | snapshotWindowRead (off : BitVec 24) (len : Fin 4097)
  /-- R578. A host read of the Hamper window returns the frozen ring in record order. -/
  | hamperWindowRead (off : BitVec 25) (len : Fin 4097)
  /-- R580. A write of PCIE.VACK resends the vector when its request is still 1. -/
  | pcieVack (w : Requester) (v : Fin 256)
  /-- R580. A write of VFIRE pulses software vectors. -/
  | pcieVfire (w : Requester) (n : Fin 2) (d : Word)
  /-- R582. An FLR resets the host interface state and host banks and releases the host's lease. -/
  | functionLevelReset
  /-- R583. PERST# low or link down holds the endpoint in reset. -/
  | pciePerst (pin : Bool)
  /-- R586. A write of MTX with GO sends a mailbox message or fails with TXERR. -/
  | mailboxSend (w : Requester) (d : Word)
  /-- R586. The mailbox frame has left; TXBUSY falls and TXDONE is set. -/
  | mailboxSent (m : Fin 64)
  /-- R587. A mailbox message is received into a slot or refused with NAK. -/
  | mboxMsg
  /-- R587. A mailbox NAK sets NAKED and NAK_CAUSE. -/
  | mboxNak
  /-- R587. A write of MRXDONE.DONE frees the oldest receive slot. -/
  | mboxRxdone (w : Requester)
  /-- R589. An Ethernet frame is dropped, passed to the service engine or written to the receive ring. -/
  | ethFrameReceive (k : Fin 2) (bytes : List (BitVec 8)) (fcs : Bool) (fine : Fin 64)
  /-- R590. A transmit record is sent, timestamped or one-step updated, and TXRD advances. -/
  | ethFrameTransmit (k : Fin 2) (fine : Fin 64)
  /-- R591. A read of TXTS_L removes a timestamp entry and captures TXTS_H. -/
  | txtsRead (w : Requester) (k : Fin 2)
  /-- R601. A write of MDIO starts an MDIO frame of the selected operation. -/
  | mdioWrite (w : Requester) (d : Word)
  /-- R601. An MDIO frame ends and BUSY clears. -/
  | mdioDone (data : BitVec 16)
  /-- R595. A client OPEN opens a session or is refused with AUTH or FULL. -/
  | svcOpen
  /-- R595. A client SUBSCRIBE replaces the session's subscription or is answered with a failing status. -/
  | svcSubscribe
  /-- R595. A KEEPALIVE refreshes the session's keepalive. -/
  | svcKeepalive
  /-- R595. A client CLOSE closes the session. -/
  | svcClose
  /-- R595. Three keepalive periods without a valid message close the session with TIMEOUT. -/
  | svcKeepaliveTimeout (i : Fin 4096)
  /-- R597. A session due at a tick reads its references and sends DATA, or discards a late one with SKIP. -/
  | svcData (i : Fin 4096)
  /-- R602. A write of SVC.SCLOSE closes the session with ADMIN. -/
  | svcSclose (w : Requester)
  /-- R604. PORST_N low or a brown-out resets everything. -/
  | powerOnReset (low : Bool) (pins : Fin 8) (left : List (Nat × Word)) (got : Nat)
  /-- R607. A low level on RESET_N requests a device reset with cause PIN. -/
  | resetN (low : Bool) (pins : Fin 8) (rep : BootRep)
  /-- R608. A device reset request forces the safe state, stops cores and waits for the flash. -/
  | deviceResetRequest (c : ResetAsk)
  /-- R608. With flash and LWF idle the device reset is carried out and the boot ROM runs. -/
  | deviceReset (pins : Fin 8)
  /-- R606. A write of RST.CMD with DEVICE and the key requests a device reset. -/
  | resetDeviceCmd (w : Requester) (d : Word)
  /-- R606. A write of RST.CMD with CLUSTER bits and the key resets the chosen clusters. -/
  | resetClusterCmd (w : Requester) (d : Word)
  /-- R611. 1 µs after a cluster watchdog expiry with CWDT_RST the cluster is reset and its cores held or started. -/
  | clusterReset (n : Fin 8)
  /-- R612. A write of DEV.CGO releases held cores at CVECn. -/
  | devCgo (w : Requester) (d : Word)
  /-- R638. A write of SEC.VCMD.GO queues a verification of a slot. -/
  | secVcmd (w : Requester) (d : Word)
  /-- R625. The scheduler grants a verification and hashing begins. -/
  | verifyGrant (u : Unit)
  /-- R638. A verification completes with its cause and VDONE. -/
  | verifyDone
  /-- R618. SAFE_N falls and with TRIP_POLICY begins a device-wide forced safe state. -/
  | safeNFall
  /-- R618. SAFE_N has been high for 15 ns and its forced safe state ends. -/
  | safeNRise
  /-- R618. A write of DEV.CTRL.SAFE_SW begins or ends the software forced safe state. -/
  | safeSw (w : Requester) (d : Word)
  /-- R630. Every 10 µs a sensor is sampled and an out-of-range value raises ALARM with its action. -/
  | monitorSample (x : Fin 16) (v : BitVec 16)
  /-- R621. A write of PWR.CTRL.HALT_MASK requests gating or ungates clusters. -/
  | haltMaskWrite (w : Requester) (d : Word)
  /-- R621. When all conditions hold, a cluster's clocks stop with state kept. -/
  | clusterGate (n : Fin 8)
  /-- R622. A write of PWR.CMD.DEEP with the key enters DEEP or is refused. -/
  | pwrDeep (w : Requester) (d : Word)
  /-- R623. A wake request or RESET_N in DEEP restores power and resets the device. -/
  | deepWake (pins : Fin 8)
  /-- R628. A write of CLU.CTRL.SAFE puts the cluster into or out of SAFE. -/
  | clusterSafeWrite (w : Requester) (n : Fin 8) (d : Word)
  /-- R627. A write of BIST.TCFG.REQ queues a BIST or is refused. -/
  | bistRequest (w : Requester) (d : Word)
  /-- R628. The scheduler grants a BIST and the target runs under test. -/
  | bistGrant (t : Fin 40) (u : Unit)
  /-- R628. A BIST ends, writes TSTAT and for logic BIST resets the cluster. -/
  | bistDone (t : Fin 40) (fail : Option Nat)
  /-- R662. A write of DBG.HALT halts chosen cores at their next boundary. -/
  | debugHalt (w : Requester) (d : Word)
  /-- R662. A write of DBG.RESUME resumes chosen cores. -/
  | debugResume (w : Requester) (d : Word)
  /-- R658. TAP instruction BYPASS. -/
  | tapBypass
  /-- R658. TAP instruction returning the IDCODE. -/
  | tapIdcode
  /-- R658. TAP instruction SAMPLE/PRELOAD on the boundary chain. -/
  | tapSamplePreload (cells : ScanCells)
  /-- R658. TAP instruction EXTEST, accepted only while RESET_N is low. -/
  | tapExtest
  /-- R658. TAP instruction CLAMP, accepted only while RESET_N is low. -/
  | tapClamp
  /-- R658. TAP instruction HIGHZ, accepted only while RESET_N is low. -/
  | tapHighz
  /-- R659. TAP instruction accessing pages and memory as requester 0x31 under DEBUG_POLICY. -/
  | dapacc (addr : BitVec 32) (d : Option Word)
  /-- R583. PERST# rises and the PCI Express link trains, so the endpoint leaves its hold and STATUS.LINK_UP becomes 1 at the negotiated rate and width. -/
  | pcieLinkUp (rate : Fin 6) (width : Fin 4) (partner : Bool)
  /-- R580. A host configuration request changes configuration space, such as the MSI-X Function Mask, Device Control enables, Max Payload or the D0/D3hot power state. -/
  | configurationWrite (c : CfgWrite)
  /-- R601. An Ethernet port gains or loses clause 49 block lock or high bit error rate, changing STATUS.LINK and setting LINK_CHG. -/
  | ethLinkChg (k : Fin 2) (lock hiBer : Bool)
  /-- R382. At an AON edge, a watch channel with ACT = 0 whose source is high sets its HIT bit again, and may request a wake. -/
  | aowLevelHit (w : Fin 32)
deriving DecidableEq, Repr

end Sys2Proof
end

