-- ==== Sys2Proof/Decode.lean ====
section
/-! DEFINITION. The command a word spells by the command table's bits. The table gives no row any bits. -/

namespace Sys2Proof

/-- The command of an `nbits`-bit word `w`: none, since spec/opcode_table.json gives its rows no bits. -/
def decodeTableWord (_nbits _w : Nat) : Option Instr := none

end Sys2Proof
end

