-- ==== Sys2Proof/Machine/RegTypes.lean ====
section
/-! DEFINITION. What a register page is made of: pages, fields, access codes and the page index (R13, R28, R50, R51). -/

namespace Sys2Proof.Machine

open Sys2Proof

/-- A register page: its cluster (0 to 7; 15 for a device page, R28) and its index in that page range. -/
structure Page where
  cl : Nat
  idx : Nat
deriving DecidableEq, Repr

/-- R28. CLUSTER reads 0xF on a device page. -/
abbrev devCl : Nat := 15

/-- A field of a register: word offset in the page, lowest bit, width. -/
structure Fld where
  off : Nat
  lo : Nat
  w : Nat
deriving DecidableEq, Repr

/-- One stored register: page, offset, and the channel of the channel window (R38) or the requester's bank of a
banked register (R39); 0 for any other. -/
structure RegKey where
  cl : Nat
  idx : Nat
  off : Nat
  ch : Nat
deriving DecidableEq, Repr

/-- The access codes of R13, and the four further ones the field maps use: banked per requester (R39), and writable
only on the root (R562, R527). -/
inductive RegAcc
  | rw | ro | wo | w1c | w1s | rwl | bk | bkro | root | rate
deriving DecidableEq, Repr

/-- A field of a field map: lowest bit, width, access code and reset value. -/
structure FieldDef where
  lo : Nat
  w : Nat
  acc : RegAcc
  rst : Nat
deriving DecidableEq, Repr

/-- A register, or `cnt` registers of one layout at consecutive offsets. -/
structure RegDef where
  off : Nat
  cnt : Nat
  fields : List FieldDef
deriving DecidableEq, Repr

/-- The kinds of page, one for each layout of the page index (R50, R51). -/
inductive PageKind
  | clu | core | dic | cwdt | loop | loopUc | pwmTb | pwmCh | scorch | adcA | adcB | adcS | adcSeq | sdf | cmp | trk
  | lseam | cmangle | dev | clk | rst | pwr | dwdt | aow | maint | mon | bist | gseam | dmangle | dram | darner
  | hamper | flash | ledger | lwf | dom | snap | dtime | dl | fray | pcie | mbox | eth | svc | pin | sec | dbg | trace
deriving DecidableEq, Repr

/-- One row of the page index: TYPE, instance (R28), channels selected by CHSEL (0: none), write and read floors
(read floor 3: none). -/
structure PageInfo where
  kind : PageKind
  type : Nat
  inst : Nat
  chans : Nat
  wfloor : Nat
  rfloor : Nat
deriving DecidableEq, Repr

/-- R50. The cluster pages.
DESIGN CHOICE, unsafe: log entry 137. -/
def clusterPage (idx : Nat) : Option PageInfo :=
  match idx with
  | 0x00 => some ⟨.clu, 0x0100, 0, 0, 1, 3⟩
  | 0x01 => some ⟨.core, 0x0101, 0, 0, 1, 3⟩
  | 0x02 => some ⟨.core, 0x0101, 1, 0, 1, 3⟩
  | 0x03 => some ⟨.core, 0x0101, 2, 0, 1, 3⟩
  | 0x04 => some ⟨.core, 0x0101, 3, 0, 1, 3⟩
  | 0x05 => some ⟨.dic, 0x0102, 0, 256, 1, 3⟩
  | 0x06 => some ⟨.cwdt, 0x0103, 0, 0, 1, 3⟩
  | 0x08 => some ⟨.loop, 0x0110, 0, 12, 2, 3⟩
  | 0x09 => some ⟨.loopUc, 0x0111, 0, 0, 1, 3⟩
  | 0x0C => some ⟨.pwmTb, 0x0120, 0, 4, 2, 3⟩
  | 0x0D => some ⟨.pwmCh, 0x0121, 0, 12, 2, 3⟩
  | 0x0E => some ⟨.scorch, 0x0122, 0, 4, 1, 3⟩
  | 0x10 => some ⟨.adcA, 0x0130, 0, 0, 2, 3⟩
  | 0x11 => some ⟨.adcB, 0x0130, 1, 0, 2, 3⟩
  | 0x12 => some ⟨.adcS, 0x0130, 2, 0, 2, 3⟩
  | 0x13 => some ⟨.adcSeq, 0x0131, 0, 16, 2, 3⟩
  | 0x14 => some ⟨.sdf, 0x0132, 0, 8, 2, 3⟩
  | 0x15 => some ⟨.cmp, 0x0133, 0, 8, 2, 3⟩
  | 0x18 => some ⟨.trk, 0x0140, 0, 4, 2, 3⟩
  | 0x1C => some ⟨.lseam, 0x0150, 0, 32, 2, 3⟩
  | 0x1D => some ⟨.cmangle, 0x0151, 0, 8, 2, 3⟩
  | _ => none

/-- R51. The device pages. -/
def devicePage (idx : Nat) : Option PageInfo :=
  match idx with
  | 0x000 => some ⟨.dev, 0x0200, 0, 0, 1, 3⟩
  | 0x001 => some ⟨.clk, 0x0201, 0, 60, 0, 3⟩
  | 0x002 => some ⟨.rst, 0x0202, 0, 0, 1, 3⟩
  | 0x003 => some ⟨.pwr, 0x0203, 0, 0, 1, 3⟩
  | 0x004 => some ⟨.dwdt, 0x0204, 0, 0, 1, 3⟩
  | 0x005 => some ⟨.aow, 0x0205, 0, 32, 1, 3⟩
  | 0x006 => some ⟨.maint, 0x0206, 0, 16, 1, 3⟩
  | 0x007 => some ⟨.mon, 0x0207, 0, 16, 1, 3⟩
  | 0x008 => some ⟨.bist, 0x0208, 0, 40, 1, 3⟩
  | 0x010 => some ⟨.gseam, 0x0210, 0, 64, 2, 3⟩
  | 0x011 => some ⟨.dmangle, 0x0211, 0, 16, 2, 3⟩
  | 0x018 => some ⟨.dram, 0x0220, 0, 0, 1, 3⟩
  | 0x019 => some ⟨.darner, 0x0221, 0, 0, 1, 3⟩
  | 0x01A => some ⟨.hamper, 0x0222, 0, 4096, 2, 3⟩
  | 0x020 => some ⟨.flash, 0x0230, 0, 2048, 1, 3⟩
  | 0x021 => some ⟨.ledger, 0x0231, 0, 0, 0, 3⟩
  | 0x022 => some ⟨.lwf, 0x0232, 0, 9, 0, 3⟩
  | 0x028 => some ⟨.dom, 0x0240, 0, 64, 1, 3⟩
  | 0x029 => some ⟨.snap, 0x0241, 0, 0, 1, 3⟩
  | 0x02A => some ⟨.dtime, 0x0242, 0, 0, 1, 3⟩
  | 0x02C => some ⟨.dl, 0x0243, 0, 4, 1, 3⟩
  | 0x02D => some ⟨.dl, 0x0243, 1, 4, 1, 3⟩
  | 0x02E => some ⟨.dl, 0x0243, 2, 4, 1, 3⟩
  | 0x02F => some ⟨.dl, 0x0243, 3, 4, 1, 3⟩
  | 0x030 => some ⟨.fray, 0x0244, 0, 0, 1, 3⟩
  | 0x031 => some ⟨.fray, 0x0244, 1, 0, 1, 3⟩
  | 0x032 => some ⟨.fray, 0x0244, 2, 0, 1, 3⟩
  | 0x033 => some ⟨.fray, 0x0244, 3, 0, 1, 3⟩
  | 0x038 => some ⟨.pcie, 0x0250, 0, 0, 1, 3⟩
  | 0x039 => some ⟨.mbox, 0x0251, 0, 64, 2, 3⟩
  | 0x03C => some ⟨.eth, 0x0252, 0, 256, 1, 3⟩
  | 0x03D => some ⟨.eth, 0x0252, 1, 256, 1, 3⟩
  | 0x03E => some ⟨.svc, 0x0253, 0, 4096, 2, 3⟩
  | 0x040 => some ⟨.pin, 0x0260, 0, 324, 2, 3⟩
  | 0x048 => some ⟨.sec, 0x0270, 0, 0, 0, 0⟩
  | 0x050 => some ⟨.dbg, 0x0280, 0, 0, 0, 3⟩
  | 0x051 => some ⟨.trace, 0x0280, 1, 0, 0, 3⟩
  | _ => none

/-- The index row of a page; `none` for an unmapped index (R50, R51). -/
def pageInfo (p : Page) : Option PageInfo :=
  if p.cl < 8 then clusterPage p.idx
  else if p.cl = devCl then devicePage p.idx
  else none

end Sys2Proof.Machine
end

