-- ==== Sys2Proof/Machine/Fields.lean ====
section
/-! DEFINITION. The fields of every register page, named PAGE_REGISTER_FIELD as the field maps of spec/ name them:
the register's word offset in the page, the field's lowest bit and its width. IRQ names a bit of IRQ_FLAG (R44). -/

namespace Sys2Proof.Machine

/-- R31, bits 9:8, RWL, reset 3. Least privileged ring from which the page accepts controlled writes -/
abbrev OWNER_RING : Fld := ⟨0x06, 8, 2⟩
/-- R31, bits 7:0, RWL, reset 0xFF. Owning requester ID; 0xFF means unowned -/
abbrev OWNER_REQ : Fld := ⟨0x06, 0, 8⟩
/-- R52, bits 3:3, W1C, reset 0. Set when the clock monitor finds the crystal missing -/
abbrev CLK_PLL_XTAL_LOST : Fld := ⟨0x80, 3, 1⟩
/-- R52, bits 2:2, W1C, reset 0. Set when the root PLL loses lock -/
abbrev CLK_PLL_LOCK_LOST : Fld := ⟨0x80, 2, 1⟩
/-- R52, bits 1:1, RO, reset 0. 1 while root-derived domains run from the fallback clock -/
abbrev CLK_PLL_FALLBACK : Fld := ⟨0x80, 1, 1⟩
/-- R52, bits 0:0, RO, reset 0. 1 while the root PLL is locked -/
abbrev CLK_PLL_LOCKED : Fld := ⟨0x80, 0, 1⟩
/-- R53, bits 1:1, RO, reset 0. 1 while the domain's clock runs -/
abbrev CLK_DOMAIN_RUNNING : Fld := ⟨0x10, 1, 1⟩
/-- R53, bits 0:0, RWL, reset 0. 1 requests the domain stopped; refused for a domain whose stopping the power-state rules in Start-up, Power States and Maintenance forbid -/
abbrev CLK_DOMAIN_GATE : Fld := ⟨0x10, 0, 1⟩
/-- R98, bits 0:0, RW, reset 0. 1 enables the logical converter -/
abbrev ADC_CTRL_EN : Fld := ⟨0x02, 0, 1⟩
/-- R98, bits 9:9, RO, reset 0. 1 during start-up calibration -/
abbrev ADC_STATUS_STARTUP : Fld := ⟨0x03, 9, 1⟩
/-- R98, bits 8:7, RO, reset 0 (ADC_A), 1 (ADC_B). Unit serving this logical converter -/
abbrev ADC_STATUS_UNIT : Fld := ⟨0x03, 7, 2⟩
/-- R98, bits 6:3, RO, reset 0. Entry of the pending start -/
abbrev ADC_STATUS_PEND_E : Fld := ⟨0x03, 3, 4⟩
/-- R98, bits 2:2, RO, reset 0. 1 while a start is pending -/
abbrev ADC_STATUS_PEND : Fld := ⟨0x03, 2, 1⟩
/-- R98, bits 1:0, RO, reset 0. 0 idle, 1 acquiring, 2 converting, 3 recovering -/
abbrev ADC_STATUS_PHASE : Fld := ⟨0x03, 0, 2⟩
/-- R99, bits 0:0, RW, reset 0. 1 enables the sequencer -/
abbrev ADC_SEQ_CTRL_EN : Fld := ⟨0x02, 0, 1⟩
/-- R99, bits 15:0, RO, reset 0. Bit e is 1 while entry e acquires or converts -/
abbrev ADC_SEQ_STATUS_ACTIVE : Fld := ⟨0x03, 0, 16⟩
/-- R99, bits 31:16, RW / W1C, reset 0. Bit 16 + e: a start of entry e was dropped -/
abbrev ADC_SEQ_IRQ_OVR : Fld := ⟨0x05, 16, 16⟩
/-- R99, bits 15:0, RW / W1C, reset 0. Bit e: entry e completed -/
abbrev ADC_SEQ_IRQ_DONE : Fld := ⟨0x05, 0, 16⟩
/-- R99, bits 15:0, WO, reset 0. A 1 in bit e starts entry e -/
abbrev ADC_SEQ_SWTRIG_TRIG : Fld := ⟨0x80, 0, 16⟩
/-- R100, bits 23:20, RW, reset 0. Entry started by a chain -/
abbrev ADC_SEQ_ECFG_NEXT : Fld := ⟨0x10, 20, 4⟩
/-- R100, bits 19:19, RW, reset 0. 1 starts NEXT on completion -/
abbrev ADC_SEQ_ECFG_CHAIN : Fld := ⟨0x10, 19, 1⟩
/-- R100, bits 18:11, RW, reset 8. Acquisition cycles; values below 8 act as 8 -/
abbrev ADC_SEQ_ECFG_ACQ : Fld := ⟨0x10, 11, 8⟩
/-- R100, bits 10:6, RW, reset 0. Mux input (R56) -/
abbrev ADC_SEQ_ECFG_MUX : Fld := ⟨0x10, 6, 5⟩
/-- R100, bits 5:4, RW, reset 0. 0: 16-bit, 1: 14-bit, 2: 12-bit, 3: reserved -/
abbrev ADC_SEQ_ECFG_RES : Fld := ⟨0x10, 4, 2⟩
/-- R100, bits 3:3, RW, reset 0. 1 subtracts 32,768 from the code before scaling -/
abbrev ADC_SEQ_ECFG_SIGNED : Fld := ⟨0x10, 3, 1⟩
/-- R100, bits 2:2, RW, reset 0. 1 starts entry e + 1 on the other converter at the same edge -/
abbrev ADC_SEQ_ECFG_PAIR : Fld := ⟨0x10, 2, 1⟩
/-- R100, bits 1:1, RW, reset 0. 0: ADC_A, 1: ADC_B -/
abbrev ADC_SEQ_ECFG_CONV : Fld := ⟨0x10, 1, 1⟩
/-- R100, bits 0:0, RW, reset 0. 1 enables the entry -/
abbrev ADC_SEQ_ECFG_EN : Fld := ⟨0x10, 0, 1⟩
/-- R100, bits 30:30, RO, reset 0. Configuration error (R64, R67) -/
abbrev ADC_SEQ_ESTAT_CFG_ERR : Fld := ⟨0x13, 30, 1⟩
/-- R100, bits 29:29, RO, reset 0. Result saturated -/
abbrev ADC_SEQ_ESTAT_SAT : Fld := ⟨0x13, 29, 1⟩
/-- R100, bits 28:28, RO, reset 0. Code at a range limit -/
abbrev ADC_SEQ_ESTAT_CLIP : Fld := ⟨0x13, 28, 1⟩
/-- R100, bits 27:26, RO, reset 0. Unit that made the conversion -/
abbrev ADC_SEQ_ESTAT_UNIT : Fld := ⟨0x13, 26, 2⟩
/-- R100, bits 23:16, RO, reset 0. Conversion count of this entry, wrapping -/
abbrev ADC_SEQ_ESTAT_SEQ : Fld := ⟨0x13, 16, 8⟩
/-- R100, bits 15:0, RO, reset 0. Code -/
abbrev ADC_SEQ_ESTAT_RAW : Fld := ⟨0x13, 0, 16⟩
/-- R101, bits 13:4, RW, reset 100. Handover interval in units of 100 µs; 0 acts as 1 -/
abbrev ADC_S_CTRL_ROT_INT : Fld := ⟨0x02, 4, 10⟩
/-- R101, bits 1:1, WO, reset 0. 1 arms a handover without waiting for ROT_INT -/
abbrev ADC_S_CTRL_ROT_NOW : Fld := ⟨0x02, 1, 1⟩
/-- R101, bits 0:0, RW, reset 1. 1 enables handovers -/
abbrev ADC_S_CTRL_ROT_EN : Fld := ⟨0x02, 0, 1⟩
/-- R101, bits 15:13, RO, reset 0. Bit u: unit u failed calibration -/
abbrev ADC_S_STATUS_FAILED : Fld := ⟨0x03, 13, 3⟩
/-- R101, bits 12:12, RO, reset 0. No spare unit is available -/
abbrev ADC_S_STATUS_NO_SPARE : Fld := ⟨0x03, 12, 1⟩
/-- R101, bits 11:9, RO, reset 5. 0 CAL, 1 READY, 2 RB, 3 HANDOVER, 4 NONE, 5 STARTUP -/
abbrev ADC_S_STATUS_PHASE : Fld := ⟨0x03, 9, 3⟩
/-- R101, bits 7:6, RO, reset 0. Next outgoing side: 0 ADC_A, 1 ADC_B -/
abbrev ADC_S_STATUS_NEXT_OUT : Fld := ⟨0x03, 6, 2⟩
/-- R101, bits 5:4, RO, reset 2. Spare unit -/
abbrev ADC_S_STATUS_UNIT_S : Fld := ⟨0x03, 4, 2⟩
/-- R101, bits 3:2, RO, reset 1. Unit serving ADC_B -/
abbrev ADC_S_STATUS_UNIT_B : Fld := ⟨0x03, 2, 2⟩
/-- R101, bits 1:0, RO, reset 0. Unit serving ADC_A -/
abbrev ADC_S_STATUS_UNIT_A : Fld := ⟨0x03, 0, 2⟩
/-- R101, bits 39:0, RO, reset 0. Handovers since reset, wrapping -/
abbrev ADC_S_ROT_CNT_COUNT : Fld := ⟨0x80, 0, 40⟩
/-- R101, bits 7:0, RW, reset 16. Verify tolerance in codes -/
abbrev ADC_S_CAL_TOL_TOL : Fld := ⟨0x81, 0, 8⟩
/-- R101, bits 17:16, RO, reset 0. Unit of the last verify -/
abbrev ADC_S_CAL_MID_UNIT : Fld := ⟨0x82, 16, 2⟩
/-- R101, bits 15:0, RO, reset 0. Last verify code -/
abbrev ADC_S_CAL_MID_CODE : Fld := ⟨0x82, 0, 16⟩
/-- R101, bits 2:0, WO, reset 0. A 1 in bit u clears FAILED for unit u -/
abbrev ADC_S_UNIT_CLR_CLR : Fld := ⟨0x83, 0, 3⟩
/-- R101, bits 15:8, RW, reset 96. Read-back tolerance in codes -/
abbrev ADC_S_RB_CTRL_TOL : Fld := ⟨0x84, 8, 8⟩
/-- R101, bits 3:3, WO, reset 0. 1 requests a read-back -/
abbrev ADC_S_RB_CTRL_REQ : Fld := ⟨0x84, 3, 1⟩
/-- R101, bits 2:0, RW, reset 0. Comparator whose DAC is read -/
abbrev ADC_S_RB_CTRL_DAC : Fld := ⟨0x84, 0, 3⟩
/-- R101, bits 20:20, RO, reset 0. Last request found no spare -/
abbrev ADC_S_RB_RESULT_NOSPARE : Fld := ⟨0x85, 20, 1⟩
/-- R101, bits 19:19, RO, reset 0. Last read-back outside tolerance -/
abbrev ADC_S_RB_RESULT_FAIL : Fld := ⟨0x85, 19, 1⟩
/-- R101, bits 18:18, RO, reset 0. Last request completed -/
abbrev ADC_S_RB_RESULT_DONE : Fld := ⟨0x85, 18, 1⟩
/-- R101, bits 17:17, RO, reset 0. A request waits in the scheduler -/
abbrev ADC_S_RB_RESULT_QUEUED : Fld := ⟨0x85, 17, 1⟩
/-- R101, bits 15:0, RO, reset 0. Read-back code -/
abbrev ADC_S_RB_RESULT_CODE : Fld := ⟨0x85, 0, 16⟩
/-- R102, bits 23:16, RO, reset 0. Bit i: channel i has lost its clock -/
abbrev SDF_STATUS_CLK_LOST : Fld := ⟨0x03, 16, 8⟩
/-- R102, bits 15:8, RO, reset 0. Bit 8 + i: short-circuit detector output of channel i -/
abbrev SDF_STATUS_SC : Fld := ⟨0x03, 8, 8⟩
/-- R102, bits 7:0, RO, reset 0. Copy of FSTAT.VALID of channel i -/
abbrev SDF_STATUS_VALID : Fld := ⟨0x03, 0, 8⟩
/-- R102, bits 23:16, RW / W1C, reset 0. Clock lost -/
abbrev SDF_IRQ_CLK_LOST : Fld := ⟨0x05, 16, 8⟩
/-- R102, bits 15:8, RW / W1C, reset 0. Manchester bit error -/
abbrev SDF_IRQ_MDERR : Fld := ⟨0x05, 8, 8⟩
/-- R102, bits 7:0, RW / W1C, reset 0. Detector rose -/
abbrev SDF_IRQ_SC : Fld := ⟨0x05, 0, 8⟩
/-- R102, bits 15:3, RW in CC(2k), RO in CC(2k+1), reset 240. Divider of 4.8 GHz; 192 to 4,800 -/
abbrev SDF_SDMCLK_DIV : Fld := ⟨0x80, 3, 13⟩
/-- R102, bits 2:2, Same, reset 0. 1 drives the generated clock on the group's pin -/
abbrev SDF_SDMCLK_OUT_EN : Fld := ⟨0x80, 2, 1⟩
/-- R102, bits 1:0, Same, reset 0. 0 off, 1 generated, 2 received, 3 reserved (acts as 0) -/
abbrev SDF_SDMCLK_SRC : Fld := ⟨0x80, 0, 2⟩
/-- R103, bits 27:17, RW, reset 64. Decimation R, 4 to 1,024 -/
abbrev SDF_FCFG_DEC : Fld := ⟨0x10, 17, 11⟩
/-- R103, bits 16:16, RW, reset 0. 1 re-phases decimation on the channel's Seam input -/
abbrev SDF_FCFG_SYNC_EN : Fld := ⟨0x10, 16, 1⟩
/-- R103, bits 15:14, RW, reset 2. K − 1 (sinc1 to sinc4) -/
abbrev SDF_FCFG_ORDER : Fld := ⟨0x10, 14, 2⟩
/-- R103, bits 13:13, RW, reset 0. NRZ capture edge: 0 rising, 1 falling -/
abbrev SDF_FCFG_EDGE : Fld := ⟨0x10, 13, 1⟩
/-- R103, bits 12:12, RW, reset 0. 0 NRZ, 1 Manchester -/
abbrev SDF_FCFG_CODING : Fld := ⟨0x10, 12, 1⟩
/-- R103, bits 0:0, RW, reset 0. 1 enables the channel -/
abbrev SDF_FCFG_EN : Fld := ⟨0x10, 0, 1⟩
/-- R103, bits 39:0, RO, reset 0. Q8.31 result -/
abbrev SDF_RESULT_VALUE : Fld := ⟨0x12, 0, 40⟩
/-- R103, bits 11:11, RO, reset 0. DEC, SC_ORD or WIN out of range -/
abbrev SDF_FSTAT_CFG_ERR : Fld := ⟨0x13, 11, 1⟩
/-- R103, bits 10:10, RO, reset 0. Result saturated -/
abbrev SDF_FSTAT_SAT : Fld := ⟨0x13, 10, 1⟩
/-- R103, bits 9:9, RO, reset 0. Filter settled (R83) -/
abbrev SDF_FSTAT_VALID : Fld := ⟨0x13, 9, 1⟩
/-- R103, bits 7:0, RO, reset 0. Output count, wrapping -/
abbrev SDF_FSTAT_SEQ : Fld := ⟨0x13, 0, 8⟩
/-- R103, bits 10:5, RW, reset 16. Window W, 4 to 32 bits -/
abbrev SDF_SC_CFG_WIN : Fld := ⟨0x15, 5, 6⟩
/-- R103, bits 2:1, RW, reset 2. Order S, 1 to 3 -/
abbrev SDF_SC_CFG_SC_ORD : Fld := ⟨0x15, 1, 2⟩
/-- R103, bits 0:0, RW, reset 0. 1 enables the detector -/
abbrev SDF_SC_CFG_SC_EN : Fld := ⟨0x15, 0, 1⟩
/-- R104, bits 15:8, RO, reset 0. Bit 8 + i: lint output of comparator i -/
abbrev CMP_STATUS_OUT : Fld := ⟨0x03, 8, 8⟩
/-- R104, bits 7:0, RO, reset 0. Bit i: raw state of comparator i after POL -/
abbrev CMP_STATUS_RAW : Fld := ⟨0x03, 0, 8⟩
/-- R104, bits 15:8, RW / W1C, reset 0. Lint output of comparator i fell -/
abbrev CMP_IRQ_FALL : Fld := ⟨0x05, 8, 8⟩
/-- R104, bits 7:0, RW / W1C, reset 0. Lint output of comparator i rose -/
abbrev CMP_IRQ_RISE : Fld := ⟨0x05, 0, 8⟩
/-- R105, bits 9:0, RWL, reset 0x3FF. Threshold DAC code -/
abbrev CMP_THRESH_DAC : Fld := ⟨0x10, 0, 10⟩
/-- R105, bits 9:9, RWL, reset 0. 1 offers the output to the AOW and keeps the comparator powered in HALT and DEEP -/
abbrev CMP_CCFG_WAKE : Fld := ⟨0x11, 9, 1⟩
/-- R105, bits 8:7, RW, reset 0. 0 off, 1 rise, 2 fall, 3 both -/
abbrev CMP_CCFG_CAP_EDGE : Fld := ⟨0x11, 7, 2⟩
/-- R105, bits 6:5, RW, reset 0. Timebase whose counter is captured -/
abbrev CMP_CCFG_CAP_TB : Fld := ⟨0x11, 5, 2⟩
/-- R105, bits 4:3, RWL, reset 0. 0, 2, 4 or 8 DAC steps -/
abbrev CMP_CCFG_HYST : Fld := ⟨0x11, 3, 2⟩
/-- R105, bits 2:2, RWL, reset 0. 1 inverts the raw state -/
abbrev CMP_CCFG_POL : Fld := ⟨0x11, 2, 1⟩
/-- R105, bits 1:1, RWL, reset 0. 0 analog comparator, 1 ΣΔ short-circuit detector i -/
abbrev CMP_CCFG_SRC : Fld := ⟨0x11, 1, 1⟩
/-- R105, bits 0:0, RWL, reset 0. 1 powers and enables the comparator -/
abbrev CMP_CCFG_EN : Fld := ⟨0x11, 0, 1⟩
/-- R105, bits 15:8, RWL, reset 0. Sample every LDIV + 1 cycles -/
abbrev CMP_LINT_LDIV : Fld := ⟨0x12, 8, 8⟩
/-- R105, bits 7:4, RWL, reset 0. History length minus 1 -/
abbrev CMP_LINT_M : Fld := ⟨0x12, 4, 4⟩
/-- R105, bits 3:0, RWL, reset 0. Majority count minus 1 -/
abbrev CMP_LINT_N : Fld := ⟨0x12, 0, 4⟩
/-- R105, bits 26:26, W1C, reset 0. A capture occurred while VALID was 1 -/
abbrev CMP_CAPV_OVW : Fld := ⟨0x13, 26, 1⟩
/-- R105, bits 25:25, RO, reset 0. 1 rise, 0 fall -/
abbrev CMP_CAPV_EDGE : Fld := ⟨0x13, 25, 1⟩
/-- R105, bits 24:24, W1C, reset 0. A capture is held -/
abbrev CMP_CAPV_VALID : Fld := ⟨0x13, 24, 1⟩
/-- R105, bits 23:0, RO, reset 0. Captured timebase counter -/
abbrev CMP_CAPV_COUNT : Fld := ⟨0x13, 0, 24⟩
/-- R134, bits 7:4, RO, reset 0. Bit 4 + t: tracker t runs an SSI frame or its monoflop time -/
abbrev TRK_STATUS_SSI_BUSY : Fld := ⟨0x03, 4, 4⟩
/-- R134, bits 3:0, RO, reset 0. Bit t: copy of PSTAT.STILL of tracker t -/
abbrev TRK_STATUS_STILL : Fld := ⟨0x03, 0, 4⟩
/-- R134, bits 31:0, RW / W1C, reset 0. Bit 8t + k for tracker t, with k = 0 ERR, 1 IDX, 2 PRB0, 3 PRB1, 4 CMP0, 5 CMP1, 6 STILL, 7 WRAP -/
abbrev TRK_IRQ_FLAGS : Fld := ⟨0x05, 0, 32⟩
/-- R135, bits 29:28, RW, reset 0. 0 SPEED, 1 PSPEED; 2 and 3 act as 0 -/
abbrev TRK_TCFG_SPD_SRC : Fld := ⟨0x10, 28, 2⟩
/-- R135, bits 27:26, RW, reset 0. Index action (R119) -/
abbrev TRK_TCFG_ZMODE : Fld := ⟨0x10, 26, 2⟩
/-- R135, bits 25:24, RW, reset 0. Gating state: bit 25 A, bit 24 B -/
abbrev TRK_TCFG_ZGATE : Fld := ⟨0x10, 24, 2⟩
/-- R135, bits 23:22, RW, reset 0. 0 off, 1 rise, 2 fall, 3 both -/
abbrev TRK_TCFG_PRB1_EDGE : Fld := ⟨0x10, 22, 2⟩
/-- R135, bits 21:20, RW, reset 0. Same -/
abbrev TRK_TCFG_PRB0_EDGE : Fld := ⟨0x10, 20, 2⟩
/-- R135, bits 19:19, RW, reset 0. 1 lets the WSYNC input restart the window -/
abbrev TRK_TCFG_WSYNC : Fld := ⟨0x10, 19, 1⟩
/-- R135, bits 18:15, RW, reset 0. Glitch filter length minus 1 -/
abbrev TRK_TCFG_FILT : Fld := ⟨0x10, 15, 4⟩
/-- R135, bits 14:14, RW, reset 0. 1 inverts count steps -/
abbrev TRK_TCFG_DIRINV : Fld := ⟨0x10, 14, 1⟩
/-- R135, bits 13:11, RW, reset 0. Input mode -/
abbrev TRK_TCFG_MODE : Fld := ⟨0x10, 11, 3⟩
/-- R135, bits 10:9, RW, reset 0. 0 off, 1 up, 2 down, 3 both -/
abbrev TRK_TCFG_CMP1_DIR : Fld := ⟨0x10, 9, 2⟩
/-- R135, bits 8:7, RW, reset 0. Same -/
abbrev TRK_TCFG_CMP0_DIR : Fld := ⟨0x10, 7, 2⟩
/-- R135, bits 0:0, RW, reset 0. 1 enables the tracker -/
abbrev TRK_TCFG_EN : Fld := ⟨0x10, 0, 1⟩
/-- R135, bits 37:32, RW, reset 20. Monoflop time in µs; 0 acts as 1 -/
abbrev TRK_SCFG_MONO : Fld := ⟨0x11, 32, 6⟩
/-- R135, bits 31:22, RW, reset 0. Sample delay or margin in cycles -/
abbrev TRK_SCFG_LDLY : Fld := ⟨0x11, 22, 10⟩
/-- R135, bits 21:21, RW, reset 0. 1 adds the measured SSI_DLY -/
abbrev TRK_SCFG_AUTO : Fld := ⟨0x11, 21, 1⟩
/-- R135, bits 20:20, RW, reset 0. 1 expects a 0 start bit -/
abbrev TRK_SCFG_START : Fld := ⟨0x11, 20, 1⟩
/-- R135, bits 19:19, RW, reset 0. 1 decodes Gray code -/
abbrev TRK_SCFG_GRAY : Fld := ⟨0x11, 19, 1⟩
/-- R135, bits 18:13, RW, reset 25. Data bits, 1 to 40; 0 or above 40 sets CFG_ERR and acts as 25 -/
abbrev TRK_SCFG_NBITS : Fld := ⟨0x11, 13, 6⟩
/-- R135, bits 12:0, RW, reset 19. Clock divider; below 19 acts as 19 -/
abbrev TRK_SCFG_SDIV : Fld := ⟨0x11, 0, 13⟩
/-- R135, bits 39:0, RW, reset 0. Position, low word of the pair -/
abbrev TRK_POS_VALUE : Fld := ⟨0x12, 0, 40⟩
/-- R135, bits 23:0, RW, reset 0. Signed wrap count, high word of the pair -/
abbrev TRK_TURNS_COUNT : Fld := ⟨0x13, 0, 24⟩
/-- R135, bits 39:0, RW, reset 0. Position modulus; 0 for none -/
abbrev TRK_MODULUS_M : Fld := ⟨0x14, 0, 40⟩
/-- R135, bits 39:0, RO, reset 0. Position at the last index -/
abbrev TRK_IDX_VALUE : Fld := ⟨0x15, 0, 40⟩
/-- R135, bits 39:0, RW, reset 0. Position loaded by an index reset -/
abbrev TRK_ZVAL_VALUE : Fld := ⟨0x16, 0, 40⟩
/-- R135, bits 39:0, RW, reset 0. Compare position 0 -/
abbrev TRK_CMP0_VALUE : Fld := ⟨0x17, 0, 40⟩
/-- R135, bits 39:0, RW, reset 0. Compare position 1 -/
abbrev TRK_CMP1_VALUE : Fld := ⟨0x18, 0, 40⟩
/-- R135, bits 39:0, RO, reset 0. Position latched by probe 0 -/
abbrev TRK_PRB0_VALUE : Fld := ⟨0x19, 0, 40⟩
/-- R135, bits 39:0, RO, reset 0. Position latched by probe 1 -/
abbrev TRK_PRB1_VALUE : Fld := ⟨0x1a, 0, 40⟩
/-- R135, bits 23:16, RO, reset 0. Errors, saturating at 255 -/
abbrev TRK_PSTAT_ERR_CNT : Fld := ⟨0x1b, 16, 8⟩
/-- R135, bits 14:12, RO, reset 0. Last error (R121) -/
abbrev TRK_PSTAT_ERR_CODE : Fld := ⟨0x1b, 12, 3⟩
/-- R135, bits 11:11, RO, reset 0. Configuration error -/
abbrev TRK_PSTAT_CFG_ERR : Fld := ⟨0x1b, 11, 1⟩
/-- R135, bits 10:10, RO, reset 0. Last SPEED saturated -/
abbrev TRK_PSTAT_SAT : Fld := ⟨0x1b, 10, 1⟩
/-- R135, bits 9:9, RO, reset 0. Last count step: 0 forward, 1 reverse -/
abbrev TRK_PSTAT_DIR : Fld := ⟨0x1b, 9, 1⟩
/-- R135, bits 8:8, RO, reset 0. Standstill (R128) -/
abbrev TRK_PSTAT_STILL : Fld := ⟨0x1b, 8, 1⟩
/-- R135, bits 7:7, W1C, reset 0. Code accepted after four jumps -/
abbrev TRK_PSTAT_REACQ : Fld := ⟨0x1b, 7, 1⟩
/-- R135, bits 6:6, W1C, reset 0. Probe 1 latched while valid -/
abbrev TRK_PSTAT_PRB1_OVW : Fld := ⟨0x1b, 6, 1⟩
/-- R135, bits 5:5, W1C, reset 0. PRB1 holds a latch -/
abbrev TRK_PSTAT_PRB1_VALID : Fld := ⟨0x1b, 5, 1⟩
/-- R135, bits 4:4, W1C, reset 0. Probe 0 latched while valid -/
abbrev TRK_PSTAT_PRB0_OVW : Fld := ⟨0x1b, 4, 1⟩
/-- R135, bits 3:3, W1C, reset 0. PRB0 holds a latch -/
abbrev TRK_PSTAT_PRB0_VALID : Fld := ⟨0x1b, 3, 1⟩
/-- R135, bits 2:2, W1C, reset 0. IDX holds a latch -/
abbrev TRK_PSTAT_IDX_VALID : Fld := ⟨0x1b, 2, 1⟩
/-- R135, bits 1:1, RO, reset 0. Frame or monoflop time running -/
abbrev TRK_PSTAT_SSI_BUSY : Fld := ⟨0x1b, 1, 1⟩
/-- R135, bits 0:0, RO, reset 0. PER holds a valid period -/
abbrev TRK_PSTAT_PER_VALID : Fld := ⟨0x1b, 0, 1⟩
/-- R135, bits 21:0, RW, reset 40,000. Window length in cycles -/
abbrev TRK_WIN_CYC : Fld := ⟨0x1c, 0, 22⟩
/-- R135, bits 39:0, RW, reset 0x00_8000_0000. Q8.31 speed per count per window -/
abbrev TRK_KSPD_K : Fld := ⟨0x1d, 0, 40⟩
/-- R135, bits 39:0, RO, reset 0. Window speed, Q8.31 -/
abbrev TRK_SPEED_VALUE : Fld := ⟨0x1e, 0, 40⟩
/-- R135, bits 31:0, RO, reset 0. Last period in cycles; full tracker only -/
abbrev TRK_PER_CYC : Fld := ⟨0x1f, 0, 32⟩
/-- R135, bits 39:0, RW, reset 0. Unsigned period scaling; full tracker only -/
abbrev TRK_KPER_K : Fld := ⟨0x20, 0, 40⟩
/-- R135, bits 39:0, RO, reset 0. Period speed, Q8.31; full tracker only -/
abbrev TRK_PSPEED_VALUE : Fld := ⟨0x21, 0, 40⟩
/-- R135, bits 15:0, RW, reset 0. Standstill timeout in 10 µs; 0 disables; full tracker only -/
abbrev TRK_STILL_T : Fld := ⟨0x22, 0, 16⟩
/-- R135, bits 9:0, RO, reset 0. Measured line delay -/
abbrev TRK_SSI_DLY_CYC : Fld := ⟨0x23, 0, 10⟩
/-- R135, bits 23:0, RW, reset 0. Jump limit in counts; 0 disables -/
abbrev TRK_JUMP_LIM : Fld := ⟨0x24, 0, 24⟩
/-- R135, bits 1:1, WO, reset 0. 1 clears ERR_CNT and ERR_CODE -/
abbrev TRK_CMD_ERR_CLR : Fld := ⟨0x25, 1, 1⟩
/-- R135, bits 0:0, WO, reset 0. 1 triggers an SSI frame -/
abbrev TRK_CMD_SSI_GO : Fld := ⟨0x25, 0, 1⟩
/-- R135, bits 39:0, RO, reset 0. Signed count of the last window -/
abbrev TRK_DELTA_VALUE : Fld := ⟨0x26, 0, 40⟩
/-- R175, bits 9:4, RO, reset 0. Channel of the last refused routing write -/
abbrev SEAM_STATUS_CH : Fld := ⟨0x03, 4, 6⟩
/-- R175, bits 1:0, RO, reset 0. 0 none, 1 CYCLE, 2 FANIN, 3 CODE -/
abbrev SEAM_STATUS_CAUSE : Fld := ⟨0x03, 0, 2⟩
/-- R177, bits 32:32, RW, reset 0. 1 enables the channel -/
abbrev SEAM_CH_ROUTE_EN : Fld := ⟨0x10, 32, 1⟩
/-- R177, bits 31:16, RW, reset 0. Consumer code (R141) -/
abbrev SEAM_CH_ROUTE_CONS : Fld := ⟨0x10, 16, 16⟩
/-- R177, bits 15:0, RW, reset 0. Producer code (R140) -/
abbrev SEAM_CH_ROUTE_PROD : Fld := ⟨0x10, 0, 16⟩
/-- R177, bits 23:16, RO, reset 0. Coincidences, saturating at 255 -/
abbrev SEAM_CH_STAT_COINC_CNT : Fld := ⟨0x11, 16, 8⟩
/-- R177, bits 15:8, RO, reset 0. Dropped arrivals, saturating at 255 -/
abbrev SEAM_CH_STAT_DROP_CNT : Fld := ⟨0x11, 8, 8⟩
/-- R177, bits 1:1, W1C, reset 0. An arrival was dropped; writing 1 also clears DROP_CNT -/
abbrev SEAM_CH_STAT_DROP : Fld := ⟨0x11, 1, 1⟩
/-- R177, bits 0:0, W1C, reset 0. A coincidence occurred; writing 1 also clears COINC_CNT -/
abbrev SEAM_CH_STAT_COINCIDE : Fld := ⟨0x11, 0, 1⟩
/-- R177, bits 39:0, RO, reset 0. Events carried, wrapping -/
abbrev SEAM_EV_CNT_COUNT : Fld := ⟨0x12, 0, 40⟩
/-- R178, bits 31:0, W1C, reset 0. Bit c: GCHc carried an event -/
abbrev LSEAM_GFLAG0_FLAG : Fld := ⟨0x80, 0, 32⟩
/-- R178, bits 31:0, W1C, reset 0. Bit c: GCH(32 + c) carried an event -/
abbrev LSEAM_GFLAG1_FLAG : Fld := ⟨0x81, 0, 32⟩
/-- R178, bits 31:0, RW, reset 0. Bit c: GCHc sets GLOBAL; bits 39:32 reserved -/
abbrev LSEAM_GWATCH0_WATCH : Fld := ⟨0x82, 0, 32⟩
/-- R178, bits 31:0, RW, reset 0. Bit c: GCH(32 + c) sets GLOBAL; bits 39:32 reserved -/
abbrev LSEAM_GWATCH1_WATCH : Fld := ⟨0x83, 0, 32⟩
/-- R178, bits 7:0, RW, reset 0. Bit m enables local merge cell m -/
abbrev LSEAM_MRG_EN_EN : Fld := ⟨0x84, 0, 8⟩
/-- R179, bits 31:0, WO, reset 0. Bit c fires GCHc -/
abbrev GSEAM_FIRE0_FIRE : Fld := ⟨0x80, 0, 32⟩
/-- R179, bits 31:0, WO, reset 0. Bit c fires GCH(32 + c) -/
abbrev GSEAM_FIRE1_FIRE : Fld := ⟨0x81, 0, 32⟩
/-- R179, bits 7:0, RW, reset 0. Bit m enables global merge cell m -/
abbrev GSEAM_MRG_EN_EN : Fld := ⟨0x84, 0, 8⟩
/-- R180, bits 0:0, RW, reset 0. 1 enables the Mangle; while 0, every channel stays in its state and issues nothing -/
abbrev MANGLE_CTRL_EN : Fld := ⟨0x02, 0, 1⟩
/-- R180, bits 15:0, RO, reset 0. Bit c: channel c in FETCH or RUN -/
abbrev MANGLE_STATUS_BUSY : Fld := ⟨0x03, 0, 16⟩
/-- R180, bits 31:16, RW / W1C, reset 0. Bit 16 + c: trigger dropped (R157) -/
abbrev MANGLE_IRQ_OVR : Fld := ⟨0x05, 16, 16⟩
/-- R180, bits 15:0, RW / W1C, reset 0. Bit c: channel c ended in error -/
abbrev MANGLE_IRQ_ERR : Fld := ⟨0x05, 0, 16⟩
/-- R181, bits 5:5, RW, reset 0. 1 accepts the Seam start input as a trigger -/
abbrev MANGLE_MCH_CTRL_TRIG_SEAM : Fld := ⟨0x10, 5, 1⟩
/-- R181, bits 4:4, RW, reset 0. 1 high arbitration class -/
abbrev MANGLE_MCH_CTRL_PRIO : Fld := ⟨0x10, 4, 1⟩
/-- R181, bits 3:3, WO, reset 0. 1 leaves ERROR -/
abbrev MANGLE_MCH_CTRL_CLR : Fld := ⟨0x10, 3, 1⟩
/-- R181, bits 2:2, WO, reset 0. 1 aborts -/
abbrev MANGLE_MCH_CTRL_ABORT : Fld := ⟨0x10, 2, 1⟩
/-- R181, bits 1:1, WO, reset 0. 1 triggers -/
abbrev MANGLE_MCH_CTRL_GO : Fld := ⟨0x10, 1, 1⟩
/-- R181, bits 0:0, WO, reset 0. 1 arms at HEAD -/
abbrev MANGLE_MCH_CTRL_ARM : Fld := ⟨0x10, 0, 1⟩
/-- R181, bits 31:0, RW, reset 0. First descriptor -/
abbrev MANGLE_MCH_HEAD_ADDR : Fld := ⟨0x11, 0, 32⟩
/-- R181, bits 31:0, RO, reset 0. Descriptor in hand -/
abbrev MANGLE_MCH_CUR_ADDR : Fld := ⟨0x12, 0, 32⟩
/-- R181, bits 39:16, RO, reset 0. Beats still to issue -/
abbrev MANGLE_MCH_STAT_REMAIN : Fld := ⟨0x13, 16, 24⟩
/-- R181, bits 15:12, RO, reset 0. Last error code -/
abbrev MANGLE_MCH_STAT_ECODE : Fld := ⟨0x13, 12, 4⟩
/-- R181, bits 9:9, RO, reset 0. A trigger is pending -/
abbrev MANGLE_MCH_STAT_PEND : Fld := ⟨0x13, 9, 1⟩
/-- R181, bits 8:8, RO, reset 0. A writeback of the current or last descriptor failed (R174); cleared at ARM -/
abbrev MANGLE_MCH_STAT_WBF : Fld := ⟨0x13, 8, 1⟩
/-- R181, bits 7:6, RO, reset 3. Ring recorded at ARM -/
abbrev MANGLE_MCH_STAT_RING : Fld := ⟨0x13, 6, 2⟩
/-- R181, bits 2:0, RO, reset 0. 0 IDLE, 1 ARMED, 2 FETCH, 3 RUN, 4 ERROR -/
abbrev MANGLE_MCH_STAT_STATE : Fld := ⟨0x13, 0, 3⟩
/-- R181, bits 23:0, RW, reset 0. Host address bits 63:40 -/
abbrev MANGLE_MCH_HOSTHI_HI : Fld := ⟨0x14, 0, 24⟩
/-- R181, bits 39:0, RO, reset 0. Completed descriptors, wrapping -/
abbrev MANGLE_MCH_CNT_COUNT : Fld := ⟨0x15, 0, 40⟩
/-- R226, bits 0:0, RW, reset 0. 1 enables the engine -/
abbrev LOOP_CTRL_EN : Fld := ⟨0x02, 0, 1⟩
/-- R226, bits 28:28, RO, reset 0. 1 while a run executes -/
abbrev LOOP_STATUS_BUSY : Fld := ⟨0x03, 28, 1⟩
/-- R226, bits 27:24, RO, reset 0xF. Slot of the executing run; 0xF when none -/
abbrev LOOP_STATUS_RUN_SLOT : Fld := ⟨0x03, 24, 4⟩
/-- R226, bits 11:0, RO, reset 0. Bit s: slot s holds a trigger -/
abbrev LOOP_STATUS_PEND : Fld := ⟨0x03, 0, 12⟩
/-- R226, bits 35:24, RW / W1C, reset 0. Bit 24 + s: slot s took a micro-fault -/
abbrev LOOP_IRQ_UFAULT : Fld := ⟨0x05, 24, 12⟩
/-- R226, bits 23:12, RW / W1C, reset 0. Bit 12 + s: a trigger of slot s was dropped -/
abbrev LOOP_IRQ_OVR : Fld := ⟨0x05, 12, 12⟩
/-- R226, bits 11:0, RW / W1C, reset 0. Bit s: a trigger of slot s missed its deadline -/
abbrev LOOP_IRQ_MISS : Fld := ⟨0x05, 0, 12⟩
/-- R226, bits 11:0, WO, reset 0. A 1 in bit s triggers slot s -/
abbrev LOOP_SWTRIG_TRIG : Fld := ⟨0x80, 0, 12⟩
/-- R226, bits 11:0, WO, reset 0. A 1 in bit s sets FIRST of slot s -/
abbrev LOOP_RESEED_SET : Fld := ⟨0x81, 0, 12⟩
/-- R226, bits 11:0, WO, reset 0. A 1 in bit s clears LAT.MAX of slot s -/
abbrev LOOP_LATCLR_CLR : Fld := ⟨0x82, 0, 12⟩
/-- R227, bits 30:27, RW, reset 0. Slot receiving the cascade -/
abbrev LOOP_SCFG_CASC_SLOT : Fld := ⟨0x10, 27, 4⟩
/-- R227, bits 26:26, RW, reset 0. 1 also triggers CASC_SLOT -/
abbrev LOOP_SCFG_CASC_TRIG : Fld := ⟨0x10, 26, 1⟩
/-- R227, bits 25:25, RW, reset 0. 1 enables cascade hand-off -/
abbrev LOOP_SCFG_CASC : Fld := ⟨0x10, 25, 1⟩
/-- R227, bits 24:24, RW, reset 0. Parameter bank: 0 A, 1 B -/
abbrev LOOP_SCFG_PBANK : Fld := ⟨0x10, 24, 1⟩
/-- R227, bits 23:22, RW, reset 0. 0 none, 1 PRE, 2 POST, 3 acts as 0 -/
abbrev LOOP_SCFG_HOOK : Fld := ⟨0x10, 22, 2⟩
/-- R227, bits 21:21, RW, reset 0. PID derivative: 0 on error, 1 on −measurement -/
abbrev LOOP_SCFG_DSRC : Fld := ⟨0x10, 21, 1⟩
/-- R227, bits 20:20, RW, reset 0. 1 enables output scaling -/
abbrev LOOP_SCFG_OSCALE : Fld := ⟨0x10, 20, 1⟩
/-- R227, bits 19:19, RW, reset 0. 1 enables clamp and anti-windup -/
abbrev LOOP_SCFG_CLAMP : Fld := ⟨0x10, 19, 1⟩
/-- R227, bits 18:18, RW, reset 0. 1 enables the gain table -/
abbrev LOOP_SCFG_GTAB : Fld := ⟨0x10, 18, 1⟩
/-- R227, bits 17:17, RW, reset 0. 1 enables the soft-start ramp -/
abbrev LOOP_SCFG_RAMP : Fld := ⟨0x10, 17, 1⟩
/-- R227, bits 16:14, RW, reset 0. 0 P, 1 PI, 2 PI+FF, 3 PID, 4 PR, 5 USER, 6–7 reserved -/
abbrev LOOP_SCFG_LAW : Fld := ⟨0x10, 14, 3⟩
/-- R227, bits 13:8, RW, reset 0. Parameter block at 256 × SBASE -/
abbrev LOOP_SCFG_SBASE : Fld := ⟨0x10, 8, 6⟩
/-- R227, bits 0:0, RW, reset 0. 1 enables the slot; cleared by micro-faults other than code 8 -/
abbrev LOOP_SCFG_EN : Fld := ⟨0x10, 0, 1⟩
/-- R227, bits 18:16, RW, reset 0. Source type (R192) -/
abbrev LOOP_SSRC_TYPE : Fld := ⟨0x11, 16, 3⟩
/-- R227, bits 13:0, RW, reset 0. Source index or address -/
abbrev LOOP_SSRC_IDX : Fld := ⟨0x11, 0, 14⟩
/-- R227, bits 19:18, RW, reset 0. Target type (R202) -/
abbrev LOOP_STGT_TYPE : Fld := ⟨0x12, 18, 2⟩
/-- R227, bits 17:17, RW, reset 0. 0 IMMEDIATE, 1 SYNC -/
abbrev LOOP_STGT_LOAD : Fld := ⟨0x12, 17, 1⟩
/-- R227, bits 16:16, RW, reset 0. 0 DUTY, 1 RAW -/
abbrev LOOP_STGT_FMT : Fld := ⟨0x12, 16, 1⟩
/-- R227, bits 15:15, RW, reset 0. 0 CMPA, 1 CMPB -/
abbrev LOOP_STGT_CMPSEL : Fld := ⟨0x12, 15, 1⟩
/-- R227, bits 13:0, RW, reset 0. Channel or address (R202) -/
abbrev LOOP_STGT_DEST : Fld := ⟨0x12, 0, 14⟩
/-- R227, bits 15:0, RW, reset 0. Deadline in LOOP_CLK; 0 disables -/
abbrev LOOP_SDL_DL : Fld := ⟨0x13, 0, 16⟩
/-- R227, bits 39:0, RW, reset 0. Setpoint, Q8.31 -/
abbrev LOOP_SETP_VALUE : Fld := ⟨0x14, 0, 40⟩
/-- R227, bits 39:0, RW, reset 0. Feed-forward, Q8.31 -/
abbrev LOOP_FF_VALUE : Fld := ⟨0x15, 0, 40⟩
/-- R227, bits 39:0, RO, reset 0. Last committed output o -/
abbrev LOOP_YOUT_VALUE : Fld := ⟨0x16, 0, 40⟩
/-- R227, bits 39:0, RW, reset 0. State words: ST0 I, ST1 x_p, ST2 d, ST3 ramp reference, ST4 s1, ST5 s2 for the built-in laws -/
abbrev LOOP_ST_VALUE (n : Nat) : Fld := ⟨0x18 + n, 0, 40⟩
/-- R227, bits 23:16, RO, reset 0. Misses, saturating at 255 -/
abbrev LOOP_SSTAT_MISS_CNT : Fld := ⟨0x1e, 16, 8⟩
/-- R227, bits 9:9, RO, reset 0. Configuration error (R207) -/
abbrev LOOP_SSTAT_CFG_ERR : Fld := ⟨0x1e, 9, 1⟩
/-- R227, bits 8:8, RO, reset 0. A run of this slot executes -/
abbrev LOOP_SSTAT_RUN : Fld := ⟨0x1e, 8, 1⟩
/-- R227, bits 7:7, RO, reset 0. A trigger is held -/
abbrev LOOP_SSTAT_PEND : Fld := ⟨0x1e, 7, 1⟩
/-- R227, bits 6:6, RO, reset 1. The next run is a first run (R197) -/
abbrev LOOP_SSTAT_FIRST : Fld := ⟨0x1e, 6, 1⟩
/-- R227, bits 5:5, RO, reset 0. Ramp reference equals SETP -/
abbrev LOOP_SSTAT_RAMP_DONE : Fld := ⟨0x1e, 5, 1⟩
/-- R227, bits 4:4, RO, reset 0. Last run clamped at UMIN -/
abbrev LOOP_SSTAT_CLAMP_LO : Fld := ⟨0x1e, 4, 1⟩
/-- R227, bits 3:3, RO, reset 0. Last run clamped at UMAX -/
abbrev LOOP_SSTAT_CLAMP_HI : Fld := ⟨0x1e, 3, 1⟩
/-- R227, bits 2:2, RO, reset 0. Last committed run saturated somewhere -/
abbrev LOOP_SSTAT_SAT : Fld := ⟨0x1e, 2, 1⟩
/-- R227, bits 1:1, W1C, reset 0. A micro-fault occurred -/
abbrev LOOP_SSTAT_UFAULT : Fld := ⟨0x1e, 1, 1⟩
/-- R227, bits 0:0, W1C, reset 0. A miss occurred; writing 1 also clears MISS_CNT -/
abbrev LOOP_SSTAT_MISS : Fld := ⟨0x1e, 0, 1⟩
/-- R227, bits 39:0, RO, reset 0. Committed runs, wrapping -/
abbrev LOOP_SCNT_COUNT : Fld := ⟨0x1f, 0, 40⟩
/-- R227, bits 12:0, RW, reset 0x1800. Customer routine entry -/
abbrev LOOP_UENTRY_ADDR : Fld := ⟨0x20, 0, 13⟩
/-- R227, bits 19:16, RO, reset 0. Last micro-fault code (R218) -/
abbrev LOOP_UFSTAT_CODE : Fld := ⟨0x21, 16, 4⟩
/-- R227, bits 12:0, RO, reset 0. Address of the faulting microword -/
abbrev LOOP_UFSTAT_UPC : Fld := ⟨0x21, 0, 13⟩
/-- R227, bits 31:16, RO, reset 0. Largest END − E since LATCLR, saturating -/
abbrev LOOP_LAT_MAX : Fld := ⟨0x22, 16, 16⟩
/-- R227, bits 15:0, RO, reset 0. END − E of the last committed run, in LOOP_CLK -/
abbrev LOOP_LAT_LAST : Fld := ⟨0x22, 0, 16⟩
/-- R229, bits 0:0, RWL, reset 0. 1 permits customer-partition writes; customer fetches then fault with LOADING -/
abbrev LOOP_UC_CTRL_UC_WEN : Fld := ⟨0x02, 0, 1⟩
/-- R229, bits 15:0, RO, reset 0x0100. Version of the vendor partition -/
abbrev LOOP_UC_STATUS_VEND_VER : Fld := ⟨0x03, 0, 16⟩
/-- R229, bits 1:1, RW / W1C, reset 0. A customer microword failed its parity check -/
abbrev LOOP_UC_IRQ_PARITY : Fld := ⟨0x05, 1, 1⟩
/-- R229, bits 0:0, RW / W1C, reset 0. A UC_DATA write was ignored -/
abbrev LOOP_UC_IRQ_UC_ERR : Fld := ⟨0x05, 0, 1⟩
/-- R229, bits 12:0, RW, banked, reset 0x1800. Store address for UC_DATA -/
abbrev LOOP_UC_UC_ADDR_ADDR : Fld := ⟨0x80, 0, 13⟩
/-- R229, bits 31:0, RW, reset 0. Microword at UC_ADDR -/
abbrev LOOP_UC_UC_DATA_WORD : Fld := ⟨0x81, 0, 32⟩
/-- R262, bits 7:4, WO, reset 0. A 1 in bit 4 + t clears EN of timebase t -/
abbrev PWM_TB_CTRL_STOP : Fld := ⟨0x02, 4, 4⟩
/-- R262, bits 3:0, WO, reset 0. A 1 in bit t sets EN of timebase t; all bits of one write act at the same edge; when one write sets both START and STOP for a timebase, STOP acts and EN ends 0 -/
abbrev PWM_TB_CTRL_START : Fld := ⟨0x02, 0, 4⟩
/-- R262, bits 7:4, RO, reset 0. Bit 4 + t: CSTATE of timebase t is COMMITTED -/
abbrev PWM_TB_STATUS_COMMITTED : Fld := ⟨0x03, 4, 4⟩
/-- R262, bits 3:0, RO, reset 0. Bit t: EN of timebase t -/
abbrev PWM_TB_STATUS_RUN : Fld := ⟨0x03, 0, 4⟩
/-- R262, bits 31:0, RW / W1C, reset 0. Bit 8t + k for timebase t, with k = 0 LOADED, 1 PAIR_SKEW, 2 LATE_WR, 3 PRD_LIM, 4 DA_SNAP, 5 DA_LOST, 6 SYNCED, 7 reserved -/
abbrev PWM_TB_IRQ_FLAGS : Fld := ⟨0x05, 0, 32⟩
/-- R263, bits 11:11, RW, reset 0. 1 aligns the carrier to domain time -/
abbrev PWM_TB_TBCFG_DALIGN : Fld := ⟨0x10, 11, 1⟩
/-- R263, bits 10:10, RW, reset 0. 1 accepts SYNC -/
abbrev PWM_TB_TBCFG_SYNC_EN : Fld := ⟨0x10, 10, 1⟩
/-- R263, bits 9:9, RW, reset 0. 0 LINKED, 1 INDEPENDENT -/
abbrev PWM_TB_TBCFG_LMODE : Fld := ⟨0x10, 9, 1⟩
/-- R263, bits 8:7, RW, reset 1. 1 zero points, 2 period points, 3 both; 0 acts as 1 -/
abbrev PWM_TB_TBCFG_LOAD_AT : Fld := ⟨0x10, 7, 2⟩
/-- R263, bits 0:0, RW, reset 0. 1 runs the timebase -/
abbrev PWM_TB_TBCFG_EN : Fld := ⟨0x10, 0, 1⟩
/-- R263, bits 23:0, RW, reset 5,000. Period shadow, in counts -/
abbrev PWM_TB_PRD_COUNT : Fld := ⟨0x11, 0, 24⟩
/-- R263, bits 23:0, RO, reset 5,000. Active period P -/
abbrev PWM_TB_PRD_ACT_COUNT : Fld := ⟨0x12, 0, 24⟩
/-- R263, bits 31:31, RO, reset 0. 0 up, 1 down -/
abbrev PWM_TB_TSTAT_DIR : Fld := ⟨0x13, 31, 1⟩
/-- R263, bits 30:30, RO, reset 0. 0 OPEN, 1 COMMITTED -/
abbrev PWM_TB_TSTAT_CSTATE : Fld := ⟨0x13, 30, 1⟩
/-- R263, bits 29:29, RO, reset 0. Domain time not valid while aligned -/
abbrev PWM_TB_TSTAT_DA_LOST : Fld := ⟨0x13, 29, 1⟩
/-- R263, bits 28:28, RO, reset 0. |ERR| ≤ 2 at the last zero point -/
abbrev PWM_TB_TSTAT_DA_ALIGNED : Fld := ⟨0x13, 28, 1⟩
/-- R263, bits 26:26, RO, reset 0. PRD shadow pending (INDEPENDENT) -/
abbrev PWM_TB_TSTAT_PEND_PRD : Fld := ⟨0x13, 26, 1⟩
/-- R263, bits 25:25, W1C, reset 0. A compare exceeded P at a load event -/
abbrev PWM_TB_TSTAT_PAIR_SKEW : Fld := ⟨0x13, 25, 1⟩
/-- R263, bits 24:24, W1C, reset 0. A page write landed while COMMITTED -/
abbrev PWM_TB_TSTAT_LATE_WR : Fld := ⟨0x13, 24, 1⟩
/-- R263, bits 23:0, RO, reset 0. Counter -/
abbrev PWM_TB_TSTAT_CNT : Fld := ⟨0x13, 0, 24⟩
/-- R263, bits 24:24, RW, reset 0. Direction after a SYNC: 0 up, 1 down -/
abbrev PWM_TB_SYNCVAL_DIR : Fld := ⟨0x14, 24, 1⟩
/-- R263, bits 23:0, RW, reset 0. Counter value after a SYNC -/
abbrev PWM_TB_SYNCVAL_CNT : Fld := ⟨0x14, 0, 24⟩
/-- R263, bits 29:0, RW, reset 0. Intended zero-point phase in fine steps -/
abbrev PWM_TB_DPHASE_PH : Fld := ⟨0x15, 0, 30⟩
/-- R263, bits 31:8, RW, reset 256. Largest |ERR| corrected by slewing, in fine steps -/
abbrev PWM_TB_DACFG_SNAPLIM : Fld := ⟨0x16, 8, 24⟩
/-- R263, bits 7:0, RW, reset 32. Largest slew per carrier period, in fine steps; 0 acts as 1 -/
abbrev PWM_TB_DACFG_STEP : Fld := ⟨0x16, 0, 8⟩
/-- R263, bits 37:32, RO, reset 0. Fine phase delay of the outputs -/
abbrev PWM_TB_DASTAT_FPH : Fld := ⟨0x17, 32, 6⟩
/-- R263, bits 31:0, RO, reset 0. Last measured error, signed, in fine steps -/
abbrev PWM_TB_DASTAT_ERR : Fld := ⟨0x17, 0, 32⟩
/-- R263, bits 11:8, RW, reset 0. Fire on every (PRESC + 1)-th occurrence -/
abbrev PWM_TB_EVSEL_PRESC (n : Nat) : Fld := ⟨0x18 + n, 8, 4⟩
/-- R263, bits 5:4, RW, reset 0. Channel for compare sources; 3 acts as 0 -/
abbrev PWM_TB_EVSEL_CH (n : Nat) : Fld := ⟨0x18 + n, 4, 2⟩
/-- R263, bits 3:0, RW, reset 0. Occurrence (R249) -/
abbrev PWM_TB_EVSEL_SRC (n : Nat) : Fld := ⟨0x18 + n, 0, 4⟩
/-- R263, bits 1:1, WO, reset 0. 1 applies a SYNC -/
abbrev PWM_TB_CMD_SYNC : Fld := ⟨0x20, 1, 1⟩
/-- R263, bits 0:0, WO, reset 0. 1 commits the shadows -/
abbrev PWM_TB_CMD_COMMIT : Fld := ⟨0x20, 0, 1⟩
/-- R264, bits 23:12, RO, reset 0. Bit 12 + ch: L of channel ch is on -/
abbrev PWM_CH_STATUS_L_ON : Fld := ⟨0x03, 12, 12⟩
/-- R264, bits 11:0, RO, reset 0. Bit ch: H of channel ch is on -/
abbrev PWM_CH_STATUS_H_ON : Fld := ⟨0x03, 0, 12⟩
/-- R264, bits 23:12, RW / W1C, reset 0. Bit 12 + ch: a pulse of channel ch was stretched -/
abbrev PWM_CH_IRQ_STRETCH : Fld := ⟨0x05, 12, 12⟩
/-- R264, bits 11:0, RW / W1C, reset 0. Bit ch: a pulse of channel ch was dropped -/
abbrev PWM_CH_IRQ_DROP : Fld := ⟨0x05, 0, 12⟩
/-- R265, bits 3:3, RW, reset 0. 0 DROP, 1 STRETCH -/
abbrev PWM_CH_CHCFG_MPMODE : Fld := ⟨0x10, 3, 1⟩
/-- R265, bits 2:2, RW, reset 0. 0 SYM, 1 ASYM -/
abbrev PWM_CH_CHCFG_ASYM : Fld := ⟨0x10, 2, 1⟩
/-- R265, bits 39:16, RW, reset 0. Shadow integer count, signed -/
abbrev PWM_CH_CMPA_COUNT : Fld := ⟨0x11, 16, 24⟩
/-- R265, bits 15:10, RW, reset 0. Shadow fine steps -/
abbrev PWM_CH_CMPA_FINE : Fld := ⟨0x11, 10, 6⟩
/-- R265, bits 39:16, RW, reset 0. Shadow integer count, signed -/
abbrev PWM_CH_CMPB_COUNT : Fld := ⟨0x12, 16, 24⟩
/-- R265, bits 15:10, RW, reset 0. Shadow fine steps -/
abbrev PWM_CH_CMPB_FINE : Fld := ⟨0x12, 10, 6⟩
/-- R265, bits 39:10, RO, reset 0. Active CMPA, layout as CMPA -/
abbrev PWM_CH_CMPA_ACT_VALUE : Fld := ⟨0x13, 10, 30⟩
/-- R265, bits 39:10, RO, reset 0. Active CMPB, layout as CMPB -/
abbrev PWM_CH_CMPB_ACT_VALUE : Fld := ⟨0x14, 10, 30⟩
/-- R265, bits 15:0, RW, reset 0. H dead time shadow, in fine steps -/
abbrev PWM_CH_DTR_FINE : Fld := ⟨0x15, 0, 16⟩
/-- R265, bits 15:0, RW, reset 0. L dead time shadow, in fine steps -/
abbrev PWM_CH_DTF_FINE : Fld := ⟨0x16, 0, 16⟩
/-- R265, bits 15:0, RW, reset 64. Minimum pulse and gap in fine steps; below 64 acts as 64 -/
abbrev PWM_CH_MINP_FINE : Fld := ⟨0x17, 0, 16⟩
/-- R265, bits 7:7, RWL, reset 0. 1 enables L -/
abbrev PWM_CH_OCFG_L_EN : Fld := ⟨0x18, 7, 1⟩
/-- R265, bits 6:6, RWL, reset 0. 1 drives L low when on -/
abbrev PWM_CH_OCFG_L_POL : Fld := ⟨0x18, 6, 1⟩
/-- R265, bits 5:4, RWL, reset 2. 0 low, 1 high, 2 high-Z; 3 acts as 2 -/
abbrev PWM_CH_OCFG_L_SAFE : Fld := ⟨0x18, 4, 2⟩
/-- R265, bits 3:3, RWL, reset 0. 1 enables H -/
abbrev PWM_CH_OCFG_H_EN : Fld := ⟨0x18, 3, 1⟩
/-- R265, bits 2:2, RWL, reset 0. 1 drives H low when on -/
abbrev PWM_CH_OCFG_H_POL : Fld := ⟨0x18, 2, 1⟩
/-- R265, bits 1:0, RWL, reset 2. 0 low, 1 high, 2 high-Z; 3 acts as 2 -/
abbrev PWM_CH_OCFG_H_SAFE : Fld := ⟨0x18, 0, 2⟩
/-- R265, bits 9:9, RO, reset 0. DTF shadow pending (INDEPENDENT) -/
abbrev PWM_CH_CHSTAT_PEND_DTF : Fld := ⟨0x19, 9, 1⟩
/-- R265, bits 8:8, RO, reset 0. DTR shadow pending -/
abbrev PWM_CH_CHSTAT_PEND_DTR : Fld := ⟨0x19, 8, 1⟩
/-- R265, bits 7:7, RO, reset 0. CMPB shadow pending -/
abbrev PWM_CH_CHSTAT_PEND_B : Fld := ⟨0x19, 7, 1⟩
/-- R265, bits 6:6, RO, reset 0. CMPA shadow pending -/
abbrev PWM_CH_CHSTAT_PEND_A : Fld := ⟨0x19, 6, 1⟩
/-- R265, bits 5:5, RO, reset 0. L is on -/
abbrev PWM_CH_CHSTAT_L_ON : Fld := ⟨0x19, 5, 1⟩
/-- R265, bits 4:4, RO, reset 0. H is on -/
abbrev PWM_CH_CHSTAT_H_ON : Fld := ⟨0x19, 4, 1⟩
/-- R265, bits 3:3, RO, reset 0. Reference level -/
abbrev PWM_CH_CHSTAT_REF : Fld := ⟨0x19, 3, 1⟩
/-- R265, bits 1:1, W1C, reset 0. A turn-off was delayed (R239) -/
abbrev PWM_CH_CHSTAT_STRETCH : Fld := ⟨0x19, 1, 1⟩
/-- R265, bits 0:0, W1C, reset 0. A turn-on was cancelled (R239) -/
abbrev PWM_CH_CHSTAT_DROP : Fld := ⟨0x19, 0, 1⟩
/-- R265, bits 31:16, RO, reset 0. Active DTF -/
abbrev PWM_CH_DT_ACT_DTF : Fld := ⟨0x1a, 16, 16⟩
/-- R265, bits 15:0, RO, reset 0. Active DTR -/
abbrev PWM_CH_DT_ACT_DTR : Fld := ⟨0x1a, 0, 16⟩
/-- R266, bits 3:0, RO, reset 0. Bit t: copy of TRSTAT.TRIP_ACTIVE of timebase t -/
abbrev SCORCH_STATUS_TRIP_ACTIVE : Fld := ⟨0x03, 0, 4⟩
/-- R266, bits 7:4, RW / W1C, reset 0. Bit 4 + t: a TRIP_CLR of timebase t was ignored -/
abbrev SCORCH_IRQ_CLR_REF : Fld := ⟨0x05, 4, 4⟩
/-- R266, bits 3:0, RW / W1C, reset 0. Bit t: timebase t tripped -/
abbrev SCORCH_IRQ_TRIP : Fld := ⟨0x05, 0, 4⟩
/-- R267, bits 8:8, RWL, reset 0. 1 inverts the source level -/
abbrev SCORCH_SSEL_INV (n : Nat) : Fld := ⟨0x10 + n, 8, 1⟩
/-- R267, bits 7:0, RWL, reset 0. Source code (R256) -/
abbrev SCORCH_SSEL_CODE (n : Nat) : Fld := ⟨0x10 + n, 0, 8⟩
/-- R267, bits 1:1, RWL, reset 0. 0 LATCHED, 1 AUTO -/
abbrev SCORCH_TRCFG_MODE : Fld := ⟨0x18, 1, 1⟩
/-- R267, bits 0:0, RWL, reset 0. 1 enables the scorch inputs -/
abbrev SCORCH_TRCFG_EN : Fld := ⟨0x18, 0, 1⟩
/-- R267, bits 23:16, RO, reset 0. Bit k: source k active at the last trip registration; kept until the next one (R257) -/
abbrev SCORCH_TRSTAT_FIRST : Fld := ⟨0x19, 16, 8⟩
/-- R267, bits 15:8, RO, reset 0. Bit k: source k active now -/
abbrev SCORCH_TRSTAT_ACTIVE : Fld := ⟨0x19, 8, 8⟩
/-- R267, bits 4:4, RO, reset 0. An SSEL holds an invalid code -/
abbrev SCORCH_TRSTAT_CFG_ERR : Fld := ⟨0x19, 4, 1⟩
/-- R267, bits 3:3, W1C, reset 0. A TRIP_CLR was ignored -/
abbrev SCORCH_TRSTAT_CLR_REFUSED : Fld := ⟨0x19, 3, 1⟩
/-- R267, bits 2:2, RO, reset 0. The last trip registered was entered by SWTRIP; kept until the next one (R257) -/
abbrev SCORCH_TRSTAT_SW : Fld := ⟨0x19, 2, 1⟩
/-- R267, bits 1:1, RO, reset 0. The timebase is tripped -/
abbrev SCORCH_TRSTAT_TRIP_ACTIVE : Fld := ⟨0x19, 1, 1⟩
/-- R267, bits 0:0, RO, reset 0. Outputs held safe by a trip, including the wait to resume -/
abbrev SCORCH_TRSTAT_OUT_SAFE : Fld := ⟨0x19, 0, 1⟩
/-- R267, bits 39:0, RO, reset 0. Trips registered, wrapping -/
abbrev SCORCH_TRIP_CNT_COUNT : Fld := ⟨0x1a, 0, 40⟩
/-- R267, bits 1:1, WO, reset 0. 1 trips the timebase -/
abbrev SCORCH_TRCMD_SWTRIP : Fld := ⟨0x1b, 1, 1⟩
/-- R267, bits 0:0, WO, reset 0. 1 requests the trip cleared (R259) -/
abbrev SCORCH_TRCMD_TRIP_CLR : Fld := ⟨0x1b, 0, 1⟩
/-- R348, bits 4:4, RW, reset 1. 1 writes DRAM fills into the cache -/
abbrev CORE_CTRL_CACHE_DRAM : Fld := ⟨0x02, 4, 1⟩
/-- R348, bits 3:3, RW, reset 1. 1 writes flash fills into the cache -/
abbrev CORE_CTRL_CACHE_FLASH : Fld := ⟨0x02, 3, 1⟩
/-- R348, bits 2:2, RW, reset 1. 1 writes device SRAM fills into the cache -/
abbrev CORE_CTRL_CACHE_DSRAM : Fld := ⟨0x02, 2, 1⟩
/-- R348, bits 1:1, RW, reset 1. 1 writes cluster SRAM fills into the cache -/
abbrev CORE_CTRL_CACHE_CSRAM : Fld := ⟨0x02, 1, 1⟩
/-- R348, bits 0:0, RW, reset 1. Sequential prefetch (R323) -/
abbrev CORE_CTRL_PREFETCH : Fld := ⟨0x02, 0, 1⟩
/-- R348, bits 7:5, RO, reset 0. Store-buffer entries occupied, 0 to 4 -/
abbrev CORE_STATUS_SB_USED : Fld := ⟨0x03, 5, 3⟩
/-- R348, bits 4:4, RO, reset 0. Prediction barred (R332) -/
abbrev CORE_STATUS_BAR : Fld := ⟨0x03, 4, 1⟩
/-- R348, bits 3:3, RO, reset 0. A fetch or load waits on a busy flash -/
abbrev CORE_STATUS_FBUSY_WAIT : Fld := ⟨0x03, 3, 1⟩
/-- R348, bits 2:2, RO, reset 0. A fence or a store waits on the buffer -/
abbrev CORE_STATUS_FENCE_WAIT : Fld := ⟨0x03, 2, 1⟩
/-- R348, bits 1:1, RO, reset 0. An invalidation runs (R326) -/
abbrev CORE_STATUS_INV_BUSY : Fld := ⟨0x03, 1, 1⟩
/-- R348, bits 0:0, RO, reset 0. The core waits in sys.wait -/
abbrev CORE_STATUS_WAITING : Fld := ⟨0x03, 0, 1⟩
/-- R348, bits 0:0, RW / W1C, reset 0. A performance counter wrapped -/
abbrev CORE_IRQ_CNT_OVF : Fld := ⟨0x05, 0, 1⟩
/-- R349, bits 1:1, WO, reset 0. 1 invalidates the line holding ICADDR -/
abbrev CORE_ICMD_INV_LINE : Fld := ⟨0x80, 1, 1⟩
/-- R349, bits 0:0, WO, reset 0. 1 invalidates the cache and line buffer -/
abbrev CORE_ICMD_INV_ALL : Fld := ⟨0x80, 0, 1⟩
/-- R349, bits 31:0, RW, reset 0. Packet address for INV_LINE -/
abbrev CORE_ICADDR_ADDR : Fld := ⟨0x81, 0, 32⟩
/-- R349, bits 1:1, WO, reset 0. 1 sets every counter to 0 -/
abbrev CORE_CNT_CTRL_CLR : Fld := ⟨0x82, 1, 1⟩
/-- R349, bits 0:0, RW, reset 1. 1 enables counting -/
abbrev CORE_CNT_CTRL_RUN : Fld := ⟨0x82, 0, 1⟩
/-- R349, bits 39:0, RO, reset 0. CORE_CLK cycles -/
abbrev CORE_CYCLES_COUNT : Fld := ⟨0x83, 0, 40⟩
/-- R349, bits 39:0, RO, reset 0. Packets issued; each repetition of a body counts -/
abbrev CORE_PACKETS_COUNT : Fld := ⟨0x84, 0, 40⟩
/-- R349, bits 39:0, RO, reset 0. Cycles without issue while waiting for a packet -/
abbrev CORE_STALL_FETCH_COUNT : Fld := ⟨0x85, 0, 40⟩
/-- R349, bits 39:0, RO, reset 0. Cycles waiting on result ports (R316) -/
abbrev CORE_STALL_DATA_COUNT : Fld := ⟨0x86, 0, 40⟩
/-- R349, bits 39:0, RO, reset 0. Cycles waiting under R337, R338, R340, R341 or R342 -/
abbrev CORE_STALL_SB_COUNT : Fld := ⟨0x87, 0, 40⟩
/-- R349, bits 39:0, RO, reset 0. Mispredictions (R334) -/
abbrev CORE_MISPRED_COUNT : Fld := ⟨0x88, 0, 40⟩
/-- R349, bits 39:0, RO, reset 0. Fills requested, on any path -/
abbrev CORE_ICMISS_COUNT : Fld := ⟨0x89, 0, 40⟩
/-- R349, bits 39:0, RO, reset 0. Fetches abandoned under R327 -/
abbrev CORE_FBUSY_ABANDON_COUNT : Fld := ⟨0x8a, 0, 40⟩
/-- R388, bits 1:1, RWL, reset 0. 1 selects the AX-2040 compatibility mode (R380) -/
abbrev DIC_CTRL_COMPAT : Fld := ⟨0x02, 1, 1⟩
/-- R388, bits 0:0, RW, reset 0. 1 enables presentation and claims -/
abbrev DIC_CTRL_EN : Fld := ⟨0x02, 0, 1⟩
/-- R388, bits 15:12, RO, reset 0. Bit 12 + k: the active stack of core k is full -/
abbrev DIC_STATUS_FULL : Fld := ⟨0x03, 12, 4⟩
/-- R388, bits 7:4, RO, reset 0. Bit 4 + k: core k is locked up -/
abbrev DIC_STATUS_LOCKED : Fld := ⟨0x03, 4, 4⟩
/-- R388, bits 7:4, RW / W1C, reset 0. Bit 4 + k: core k locked up -/
abbrev DIC_IRQ_LOCKUP : Fld := ⟨0x05, 4, 4⟩
/-- R388, bits 3:0, RW / W1C, reset 0. Bit k: out-of-order DONE for core k (R379) -/
abbrev DIC_IRQ_PSF : Fld := ⟨0x05, 0, 4⟩
/-- R388, bits 7:0, WO, reset 0. Sets the latch of source SRC -/
abbrev DIC_DOORBELL_SRC : Fld := ⟨0x80, 0, 8⟩
/-- R388, bits 39:0, RO, reset 0. Takeovers (R377), wrapping -/
abbrev DIC_TAKE_CNT_COUNT : Fld := ⟨0x81, 0, 40⟩
/-- R388, bits 29:0, RO, reset 0. Bit p: page p of cluster m requests and is routed here -/
abbrev DIC_REMOTE_PAGES (n : Nat) : Fld := ⟨0x88 + n, 0, 30⟩
/-- R389, bits 14:12, RW, reset 7. Tier (R374); 0 is the most urgent -/
abbrev DIC_SRCCFG_TIER : Fld := ⟨0x10, 12, 3⟩
/-- R389, bits 11:4, RW, reset 0xFF. Rank within the tier; 0 is first -/
abbrev DIC_SRCCFG_PRIO : Fld := ⟨0x10, 4, 8⟩
/-- R389, bits 3:2, RW, reset 0. Target core -/
abbrev DIC_SRCCFG_TGT : Fld := ⟨0x10, 2, 2⟩
/-- R389, bits 1:1, RW, reset 0. 0 LEVEL, 1 EDGE -/
abbrev DIC_SRCCFG_TYPE : Fld := ⟨0x10, 1, 1⟩
/-- R389, bits 0:0, RW, reset 0. 1 enables the source -/
abbrev DIC_SRCCFG_EN : Fld := ⟨0x10, 0, 1⟩
/-- R389, bits 3:3, RO, reset 0. Hardware line level -/
abbrev DIC_SRCSTAT_LINE : Fld := ⟨0x11, 3, 1⟩
/-- R389, bits 2:2, RO, reset 0. Claimed and not yet done -/
abbrev DIC_SRCSTAT_ACTIVE : Fld := ⟨0x11, 2, 1⟩
/-- R389, bits 1:1, RO, reset 0. Pending (R373) -/
abbrev DIC_SRCSTAT_PEND : Fld := ⟨0x11, 1, 1⟩
/-- R389, bits 0:0, W1C, reset 0. Edge or doorbell latch -/
abbrev DIC_SRCSTAT_LATCH : Fld := ⟨0x11, 0, 1⟩
/-- R390, bits 23:16, RO, reset 0. PRIO of the claimed source -/
abbrev DIC_CORE_CLAIM_PRIO (k : Nat) : Fld := ⟨0x90 + 0x10 * k + 0x0, 16, 8⟩
/-- R390, bits 11:9, RO, reset 0. Tier of the claimed source -/
abbrev DIC_CORE_CLAIM_TIER (k : Nat) : Fld := ⟨0x90 + 0x10 * k + 0x0, 9, 3⟩
/-- R390, bits 8:8, RO, reset 0. 1: a source was claimed (R376) -/
abbrev DIC_CORE_CLAIM_VALID (k : Nat) : Fld := ⟨0x90 + 0x10 * k + 0x0, 8, 1⟩
/-- R390, bits 7:0, RO, reset 0. Claimed source -/
abbrev DIC_CORE_CLAIM_SRC (k : Nat) : Fld := ⟨0x90 + 0x10 * k + 0x0, 0, 8⟩
/-- R390, bits 7:0, WO, reset 0. Completes SRC (R378) -/
abbrev DIC_CORE_DONE_SRC (k : Nat) : Fld := ⟨0x90 + 0x10 * k + 0x1, 0, 8⟩
/-- R390, bits 19:16, RO, reset 8. Tier of the top entry; 8 when DEPTH is 0 -/
abbrev DIC_CORE_RUNSTAT_RUNTIER (k : Nat) : Fld := ⟨0x90 + 0x10 * k + 0x2, 16, 4⟩
/-- R390, bits 12:8, RO, reset 0. Active stack entries, 0 to 16 -/
abbrev DIC_CORE_RUNSTAT_DEPTH (k : Nat) : Fld := ⟨0x90 + 0x10 * k + 0x2, 8, 5⟩
/-- R390, bits 7:0, RO, reset 0xFF. PRIO of the top entry; 0xFF when DEPTH is 0 -/
abbrev DIC_CORE_RUNSTAT_RUNPRIO (k : Nat) : Fld := ⟨0x90 + 0x10 * k + 0x2, 0, 8⟩
/-- R390, bits 8:8, RW, reset 0. 1 permits interrupt entry; cleared at interrupt entry -/
abbrev DIC_CORE_IMASK_IEN (k : Nat) : Fld := ⟨0x90 + 0x10 * k + 0x3, 8, 1⟩
/-- R390, bits 3:0, RW, reset 8. Presentation floor (R375): tiers numerically below FLOOR are presented; 8 to 15 present every tier, 0 none -/
abbrev DIC_CORE_IMASK_FLOOR (k : Nat) : Fld := ⟨0x90 + 0x10 * k + 0x3, 0, 4⟩
/-- R390, bits 31:0, RWL, reset 0. Interrupt entry address -/
abbrev DIC_CORE_IVEC_ADDR (k : Nat) : Fld := ⟨0x90 + 0x10 * k + 0x4, 0, 32⟩
/-- R390, bits 31:0, RWL, reset 0. Exception entry address -/
abbrev DIC_CORE_XVEC_ADDR (k : Nat) : Fld := ⟨0x90 + 0x10 * k + 0x5, 0, 32⟩
/-- R390, bits 1:0, RWL, reset 1. Exception entry ring; 2 and 3 act as 1 -/
abbrev DIC_CORE_XCFG_XRING (k : Nat) : Fld := ⟨0x90 + 0x10 * k + 0x6, 0, 2⟩
/-- R390, bits 31:8, RWL, reset 0x017F. Gate table address bits 31:8 (address 0x0001_7F00) -/
abbrev DIC_CORE_GBASE_BASE (k : Nat) : Fld := ⟨0x90 + 0x10 * k + 0x7, 8, 24⟩
/-- R390, bits 23:0, RWL, reset 0xFF_FFFF. Ring 2 class permissions (R351) -/
abbrev DIC_CORE_RPERM2_PERM (k : Nat) : Fld := ⟨0x90 + 0x10 * k + 0x8, 0, 24⟩
/-- R390, bits 23:0, RWL, reset 0xFF_FFFF. Ring 3 class permissions -/
abbrev DIC_CORE_RPERM3_PERM (k : Nat) : Fld := ⟨0x90 + 0x10 * k + 0x9, 0, 24⟩
/-- R390, bits 31:2, RW, reset 0x00_5FC0. Frame pointer bits 31:2 (address 0x0001_7F00); moved by entries, gates and returns -/
abbrev DIC_CORE_XFP_ADDR (k : Nat) : Fld := ⟨0x90 + 0x10 * k + 0xa, 2, 30⟩
/-- R390, bits 31:2, RW, reset 0x00_4000. Frame limit bits 31:2 (address 0x0001_0000) -/
abbrev DIC_CORE_XLIM_ADDR (k : Nat) : Fld := ⟨0x90 + 0x10 * k + 0xb, 2, 30⟩
/-- R390, bits 19:12, RO, reset 0. Code of the fault during entry -/
abbrev DIC_CORE_LOCKINFO_CODE2 (k : Nat) : Fld := ⟨0x90 + 0x10 * k + 0xc, 12, 8⟩
/-- R390, bits 11:4, RO, reset 0. Code being entered -/
abbrev DIC_CORE_LOCKINFO_CODE1 (k : Nat) : Fld := ⟨0x90 + 0x10 * k + 0xc, 4, 8⟩
/-- R390, bits 3:0, RO, reset 0. Lockup cause (R370); 0 when not locked -/
abbrev DIC_CORE_LOCKINFO_CAUSE (k : Nat) : Fld := ⟨0x90 + 0x10 * k + 0xc, 0, 4⟩
/-- R390, bits 31:0, RO, reset 0. RET_PC being saved at lockup -/
abbrev DIC_CORE_LOCKPC_ADDR (k : Nat) : Fld := ⟨0x90 + 0x10 * k + 0xd, 0, 32⟩
/-- R391, bits 1:1, RWL, reset 1. 1 pauses counting during a debug halt -/
abbrev WDT_CTRL_DBG_STOP : Fld := ⟨0x02, 1, 1⟩
/-- R391, bits 0:0, W1S, reset 0. 1 starts the watchdog; only a reset clears it -/
abbrev WDT_CTRL_EN : Fld := ⟨0x02, 0, 1⟩
/-- R391, bits 2:2, RO, reset 0. The watchdog has expired -/
abbrev WDT_STATUS_EXPIRED : Fld := ⟨0x03, 2, 1⟩
/-- R391, bits 1:1, RO, reset 0. COUNT ≥ OPEN -/
abbrev WDT_STATUS_OPEN : Fld := ⟨0x03, 1, 1⟩
/-- R391, bits 0:0, RO, reset 0. Counting now -/
abbrev WDT_STATUS_RUNNING : Fld := ⟨0x03, 0, 1⟩
/-- R391, bits 0:0, RW / W1C, reset 0. COUNT reached WARN -/
abbrev WDT_IRQ_WARN : Fld := ⟨0x05, 0, 1⟩
/-- R391, bits 31:16, RWL, reset 0xFFFF. Expiry count -/
abbrev WDT_WTIME_CLOSE : Fld := ⟨0x80, 16, 16⟩
/-- R391, bits 15:0, RWL, reset 0. First count at which a kick is accepted -/
abbrev WDT_WTIME_OPEN : Fld := ⟨0x80, 0, 16⟩
/-- R391, bits 19:4, RWL, reset 0. Warning count; 0 disables -/
abbrev WDT_WCFG_WARN : Fld := ⟨0x81, 4, 16⟩
/-- R391, bits 3:0, RWL, reset 0. Tick prescaler exponent -/
abbrev WDT_WCFG_PRE : Fld := ⟨0x81, 0, 4⟩
/-- R391, bits 7:0, WO, reset 0. Kick key (R386) -/
abbrev WDT_KICK_KEY : Fld := ⟨0x82, 0, 8⟩
/-- R391, bits 15:0, RO, reset 0. Ticks since the last kick -/
abbrev WDT_COUNT_COUNT : Fld := ⟨0x83, 0, 16⟩
/-- R392, bits 0:0, RWL, reset 0. 1 enables the watcher -/
abbrev AOW_CTRL_EN : Fld := ⟨0x02, 0, 1⟩
/-- R392, bits 5:5, W1C, reset 0. CAUSE holds a wake cause -/
abbrev AOW_STATUS_CAUSE_VALID : Fld := ⟨0x03, 5, 1⟩
/-- R392, bits 4:0, RO, reset 0. Channel that caused the last wake -/
abbrev AOW_STATUS_CAUSE : Fld := ⟨0x03, 0, 5⟩
/-- R392, bits 31:0, RW / W1C, reset 0. Bit w: channel w saw its source (R382) -/
abbrev AOW_IRQ_HIT : Fld := ⟨0x05, 0, 32⟩
/-- R392, bits 19:19, RWL, reset 0. 1 enables the channel -/
abbrev AOW_WSRC_EN : Fld := ⟨0x10, 19, 1⟩
/-- R392, bits 18:18, RWL, reset 0. 1 requests a wake from HALT and DEEP -/
abbrev AOW_WSRC_WAKE : Fld := ⟨0x10, 18, 1⟩
/-- R392, bits 17:17, RWL, reset 0. 0 level, 1 edge -/
abbrev AOW_WSRC_ACT : Fld := ⟨0x10, 17, 1⟩
/-- R392, bits 15:0, RWL, reset 0. Source (R381) -/
abbrev AOW_WSRC_CODE : Fld := ⟨0x10, 0, 16⟩
/-- R392, bits 31:0, RW, reset 0. Wake-timer compare in AON cycles; 0 disables -/
abbrev AOW_TMR_COMPARE : Fld := ⟨0x80, 0, 32⟩
/-- R392, bits 31:0, RO, reset 0. Wake-timer count -/
abbrev AOW_TMR_CNT_COUNT : Fld := ⟨0x81, 0, 32⟩
/-- R417, bits 10:9, RO, reset 0. Last refused PFUNC write: 0 none, 1 TAKEN, 2 LOCATION, 3 CODE -/
abbrev PIN_STATUS_CAUSE : Fld := ⟨0x03, 9, 2⟩
/-- R417, bits 8:0, RO, reset 0. Pin of the last refused PFUNC write -/
abbrev PIN_STATUS_PIN : Fld := ⟨0x03, 0, 9⟩
/-- R417, bits 33:33, RW / W1C, reset 0. A bank's VOK fell -/
abbrev PIN_IRQ_BANK_FAULT : Fld := ⟨0x05, 33, 1⟩
/-- R417, bits 32:32, RW / W1C, reset 0. A PFUNC write was refused -/
abbrev PIN_IRQ_FUNC_ERR : Fld := ⟨0x05, 32, 1⟩
/-- R417, bits 31:0, RW / W1C, reset 0. Bit p: pin event unit p fired -/
abbrev PIN_IRQ_PEV : Fld := ⟨0x05, 0, 32⟩
/-- R418, bits 15:14, RWL, reset 2. 0 low, 1 high, 2 high-Z, 3 HOLD -/
abbrev PIN_PCFG_SAFE : Fld := ⟨0x10, 14, 2⟩
/-- R418, bits 13:13, RWL, reset 0. 1 analog mode (R398) -/
abbrev PIN_PCFG_ANA : Fld := ⟨0x10, 13, 1⟩
/-- R418, bits 12:12, RWL, reset 1. 1 enables input hysteresis -/
abbrev PIN_PCFG_HYST : Fld := ⟨0x10, 12, 1⟩
/-- R418, bits 11:10, RWL, reset 0. 0 none, 1 up, 2 down, 3 keeper -/
abbrev PIN_PCFG_PULL : Fld := ⟨0x10, 10, 2⟩
/-- R418, bits 9:9, RWL, reset 0. 1 open-drain -/
abbrev PIN_PCFG_OD : Fld := ⟨0x10, 9, 1⟩
/-- R418, bits 8:8, RWL, reset 0. 0 slow, 1 fast -/
abbrev PIN_PCFG_SLEW : Fld := ⟨0x10, 8, 1⟩
/-- R418, bits 7:6, RWL, reset 1. Drive strength 0 to 3 -/
abbrev PIN_PCFG_DRV : Fld := ⟨0x10, 6, 2⟩
/-- R418, bits 35:24, RWL, reset 0. Input function (R403) -/
abbrev PIN_PFUNC_ISEL : Fld := ⟨0x11, 24, 12⟩
/-- R418, bits 23:12, RWL, reset 0. Second output source (R402) -/
abbrev PIN_PFUNC_OSEL1 : Fld := ⟨0x11, 12, 12⟩
/-- R418, bits 11:0, RWL, reset 0. First output source (R402) -/
abbrev PIN_PFUNC_OSEL0 : Fld := ⟨0x11, 0, 12⟩
/-- R418, bits 10:10, W1S, reset 0. 1 locks the pin's RWL fields (R406) -/
abbrev PIN_OWN_PLOCK : Fld := ⟨0x12, 10, 1⟩
/-- R418, bits 9:8, RWL, reset 3. Least privileged ring accepted for the pin -/
abbrev PIN_OWN_RING : Fld := ⟨0x12, 8, 2⟩
/-- R418, bits 7:0, RWL, reset 0xFF. Owning requester; 0xFF unowned -/
abbrev PIN_OWN_REQ : Fld := ⟨0x12, 0, 8⟩
/-- R418, bits 6:6, RO, reset 0. R401 -/
abbrev PIN_PSTAT_UNRESOLVED : Fld := ⟨0x13, 6, 1⟩
/-- R418, bits 5:5, RO, reset 0. Synchronised input level -/
abbrev PIN_PSTAT_IN : Fld := ⟨0x13, 5, 1⟩
/-- R418, bits 4:4, RO, reset 0. The pin drives its ball -/
abbrev PIN_PSTAT_DRIVING : Fld := ⟨0x13, 4, 1⟩
/-- R418, bits 3:3, RO, reset 0. The pin is in its safe state (R411) -/
abbrev PIN_PSTAT_SAFE_ACT : Fld := ⟨0x13, 3, 1⟩
/-- R418, bits 2:2, RO, reset 0. The keeper cycle of R408 runs -/
abbrev PIN_PSTAT_KEEP : Fld := ⟨0x13, 2, 1⟩
/-- R418, bits 1:1, RO, reset 0. The input function is disarmed (R409) -/
abbrev PIN_PSTAT_DISARM : Fld := ⟨0x13, 1, 1⟩
/-- R418, bits 0:0, RO, reset 0. Copy of VOK of the pin's bank -/
abbrev PIN_PSTAT_BANK_OK : Fld := ⟨0x13, 0, 1⟩
/-- R419, bits 35:0, RW, reset 0. Bit j: DOUT of pin 36n + j (R407) -/
abbrev PIN_DOUT_LEVEL (n : Nat) : Fld := ⟨0x80 + n, 0, 36⟩
/-- R419, bits 35:0, RO, reset 0. Bit j: synchronised input of pin 36n + j -/
abbrev PIN_DIN_LEVEL (n : Nat) : Fld := ⟨0x90 + n, 0, 36⟩
/-- R419, bits 19:19, RWL, reset 0. 1 enables the unit -/
abbrev PIN_PEV_EN (n : Nat) : Fld := ⟨0xa0 + n, 19, 1⟩
/-- R419, bits 18:17, RWL, reset 0. Event on 0 none, 1 rise, 2 fall, 3 both -/
abbrev PIN_PEV_EDGE (n : Nat) : Fld := ⟨0xa0 + n, 17, 2⟩
/-- R419, bits 16:16, RWL, reset 0. 1 inverts the pad input -/
abbrev PIN_PEV_INV (n : Nat) : Fld := ⟨0xa0 + n, 16, 1⟩
/-- R419, bits 15:12, RWL, reset 0. Filter time in 5 ns -/
abbrev PIN_PEV_FILT (n : Nat) : Fld := ⟨0xa0 + n, 12, 4⟩
/-- R419, bits 8:0, RWL, reset 0. Pin watched -/
abbrev PIN_PEV_PIN (n : Nat) : Fld := ⟨0xa0 + n, 0, 9⟩
/-- R419, bits 31:0, RO, reset 0. Bit p: level output of unit p -/
abbrev PIN_PEV_LVL_LEVEL : Fld := ⟨0xc0, 0, 32⟩
/-- R419, bits 2:2, RO, reset 0. The bank supply lies in its operating range -/
abbrev PIN_BANK_VOK (n : Nat) : Fld := ⟨0xd0 + n, 2, 1⟩
/-- R419, bits 1:0, RO, reset 0. Detected level: 0 3.3 V, 1 2.5 V, 2 1.8 V, 3 none -/
abbrev PIN_BANK_VLVL (n : Nat) : Fld := ⟨0xd0 + n, 0, 2⟩
/-- R448, bits 0:0, RW, reset 1. Write back corrected lines (R426) -/
abbrev DRAM_CTRL_WB_EN : Fld := ⟨0x02, 0, 1⟩
/-- R448, bits 1:1, RO, reset 1. Initialisation runs (R423) -/
abbrev DRAM_STATUS_INIT_BUSY : Fld := ⟨0x03, 1, 1⟩
/-- R448, bits 0:0, RO, reset 0. The DRAM range is usable -/
abbrev DRAM_STATUS_READY : Fld := ⟨0x03, 0, 1⟩
/-- R448, bits 3:3, RW / W1C, reset 0. Outer corrections reached CE_THR (R430) -/
abbrev DRAM_IRQ_CE_WARN : Fld := ⟨0x05, 3, 1⟩
/-- R448, bits 2:2, RW / W1C, reset 0. An uncorrectable line was found -/
abbrev DRAM_IRQ_UE : Fld := ⟨0x05, 2, 1⟩
/-- R448, bits 1:1, RW / W1C, reset 0. The outer code corrected a line -/
abbrev DRAM_IRQ_OUTER_CE : Fld := ⟨0x05, 1, 1⟩
/-- R448, bits 0:0, RW / W1C, reset 0. The die reported a correction -/
abbrev DRAM_IRQ_INNER_CE : Fld := ⟨0x05, 0, 1⟩
/-- R448, bits 25:0, RO, reset 0. Line of the last logged event -/
abbrev DRAM_ERR_ADDR_LINE : Fld := ⟨0x80, 0, 26⟩
/-- R448, bits 23:16, RO, reset 0. Requester ID when ORIGIN is 0, else 0 -/
abbrev DRAM_ERR_INFO_REQ : Fld := ⟨0x81, 16, 8⟩
/-- R448, bits 15:14, RO, reset 0. 0 request, 1 Darner, 2 write-back, 3 Hamper dump -/
abbrev DRAM_ERR_INFO_ORIGIN : Fld := ⟨0x81, 14, 2⟩
/-- R448, bits 13:11, RO, reset 0. Symbols corrected, 0 to 4 -/
abbrev DRAM_ERR_INFO_SYMS : Fld := ⟨0x81, 11, 3⟩
/-- R448, bits 10:10, RO, reset 0. The die reported a correction or detection on this line -/
abbrev DRAM_ERR_INFO_INNER : Fld := ⟨0x81, 10, 1⟩
/-- R448, bits 9:8, RO, reset 0. 0 none, 1 inner only, 2 outer corrected, 3 uncorrectable -/
abbrev DRAM_ERR_INFO_KIND : Fld := ⟨0x81, 8, 2⟩
/-- R448, bits 39:0, RO, reset 0. Lines corrected by the die -/
abbrev DRAM_CNT_INNER_COUNT : Fld := ⟨0x82, 0, 40⟩
/-- R448, bits 39:0, RO, reset 0. Lines corrected by the outer code -/
abbrev DRAM_CNT_OUTER_COUNT : Fld := ⟨0x83, 0, 40⟩
/-- R448, bits 39:0, RO, reset 0. Uncorrectable lines -/
abbrev DRAM_CNT_UE_COUNT : Fld := ⟨0x84, 0, 40⟩
/-- R448, bits 15:0, RW, reset 4,096. Correction count that sets CE_WARN; 0 acts as 1 -/
abbrev DRAM_CE_THR_THR : Fld := ⟨0x85, 0, 16⟩
/-- R448, bits 25:0, WO, reset 0. Clears POISON in line LINE (R429) -/
abbrev DRAM_PCLR_LINE : Fld := ⟨0x86, 0, 26⟩
/-- R448, bits 39:0, RO, reset 0. Line slots used by class 0–3, wrapping -/
abbrev DRAM_CLS_CNT_COUNT (n : Nat) : Fld := ⟨0x88 + n, 0, 40⟩
/-- R449, bits 1:1, WO, reset 0. Scrub back to back to the end of the pass (R434) -/
abbrev DARNER_CTRL_NOW : Fld := ⟨0x02, 1, 1⟩
/-- R449, bits 0:0, RW, reset 1. 1 enables scrubbing -/
abbrev DARNER_CTRL_EN : Fld := ⟨0x02, 0, 1⟩
/-- R449, bits 2:2, W1C, reset 0. A pass overran PERIOD -/
abbrev DARNER_STATUS_LATE : Fld := ⟨0x03, 2, 1⟩
/-- R449, bits 1:1, RO, reset 0. A burst waits in the maintenance scheduler -/
abbrev DARNER_STATUS_QUEUED : Fld := ⟨0x03, 1, 1⟩
/-- R449, bits 0:0, RO, reset 0. A burst runs -/
abbrev DARNER_STATUS_ACTIVE : Fld := ⟨0x03, 0, 1⟩
/-- R449, bits 0:0, RW / W1C, reset 0. A pass completed -/
abbrev DARNER_IRQ_PASS_DONE : Fld := ⟨0x05, 0, 1⟩
/-- R449, bits 19:0, RW, reset 86,400. Pass time in seconds; below 60 acts as 60 -/
abbrev DARNER_PERIOD_SEC : Fld := ⟨0x80, 0, 20⟩
/-- R449, bits 7:0, RW, reset 64. Lines per burst; 0 acts as 1 -/
abbrev DARNER_BURST_LINES : Fld := ⟨0x81, 0, 8⟩
/-- R449, bits 25:0, RO, reset 0. Next line to scrub -/
abbrev DARNER_CURSOR_LINE : Fld := ⟨0x82, 0, 26⟩
/-- R449, bits 39:0, RO, reset 0. Completed passes, wrapping -/
abbrev DARNER_PASS_CNT_COUNT : Fld := ⟨0x83, 0, 40⟩
/-- R450, bits 0:0, RW, reset 0. 1 arms recording (R443) -/
abbrev HAMPER_CTRL_EN : Fld := ⟨0x02, 0, 1⟩
/-- R450, bits 5:5, W1C, reset 0. A REARM was ignored during a dump -/
abbrev HAMPER_STATUS_REARM_BUSY : Fld := ⟨0x03, 5, 1⟩
/-- R450, bits 4:4, RO, reset 0. A dump waits in the scheduler -/
abbrev HAMPER_STATUS_DUMP_QUEUED : Fld := ⟨0x03, 4, 1⟩
/-- R450, bits 3:3, RO, reset 0. A dump runs -/
abbrev HAMPER_STATUS_DUMPING : Fld := ⟨0x03, 3, 1⟩
/-- R450, bits 2:0, RO, reset 0. 0 IDLE, 1 FILL, 2 ARMED, 3 POST, 4 FROZEN -/
abbrev HAMPER_STATUS_STATE : Fld := ⟨0x03, 0, 3⟩
/-- R450, bits 4:4, RW / W1C, reset 0. Arming refused (R446) -/
abbrev HAMPER_IRQ_CFG_ERR : Fld := ⟨0x05, 4, 1⟩
/-- R450, bits 3:3, RW / W1C, reset 0. A dump request was refused -/
abbrev HAMPER_IRQ_DUMP_ERR : Fld := ⟨0x05, 3, 1⟩
/-- R450, bits 2:2, RW / W1C, reset 0. A dump completed -/
abbrev HAMPER_IRQ_DUMP_DONE : Fld := ⟨0x05, 2, 1⟩
/-- R450, bits 1:1, RW / W1C, reset 0. A cadence event was dropped -/
abbrev HAMPER_IRQ_MISS : Fld := ⟨0x05, 1, 1⟩
/-- R450, bits 0:0, RW / W1C, reset 0. The Hamper froze -/
abbrev HAMPER_IRQ_FROZEN : Fld := ⟨0x05, 0, 1⟩
/-- R451, bits 31:0, RW, reset 0. Word address of signal i (R441) -/
abbrev HAMPER_SIG_ADDR : Fld := ⟨0x10, 0, 32⟩
/-- R452, bits 12:0, RW, reset 0. Signals per record -/
abbrev HAMPER_NSIG_N : Fld := ⟨0x80, 0, 13⟩
/-- R452, bits 25:0, RW, reset 0. First line of the ring -/
abbrev HAMPER_BASE_LINE : Fld := ⟨0x81, 0, 26⟩
/-- R452, bits 25:0, RW, reset 0. Ring length in lines -/
abbrev HAMPER_SIZE_LINES : Fld := ⟨0x82, 0, 26⟩
/-- R452, bits 16:16, RW, reset 0. 0 consumer 0xF060, 1 domain tick -/
abbrev HAMPER_CAD_SRC : Fld := ⟨0x83, 16, 1⟩
/-- R452, bits 15:0, RW, reset 0. Record on every (DIV + 1)-th cadence event -/
abbrev HAMPER_CAD_DIV : Fld := ⟨0x83, 0, 16⟩
/-- R452, bits 8:4, RWL, reset 0. Pin event unit for the pin source -/
abbrev HAMPER_FRZ_CFG_PEV : Fld := ⟨0x84, 4, 5⟩
/-- R452, bits 3:0, RWL, reset 0x7. Bit k enables source k of R444 -/
abbrev HAMPER_FRZ_CFG_EN : Fld := ⟨0x84, 0, 4⟩
/-- R452, bits 25:0, RW, reset 0. Records before ARMED -/
abbrev HAMPER_PRE_COUNT : Fld := ⟨0x85, 0, 26⟩
/-- R452, bits 25:0, RW, reset 0. Records from the trigger -/
abbrev HAMPER_POST_COUNT : Fld := ⟨0x86, 0, 26⟩
/-- R452, bits 2:2, WO, reset 0. Requests a dump (R447) -/
abbrev HAMPER_CMD_DUMP : Fld := ⟨0x87, 2, 1⟩
/-- R452, bits 1:1, WO, reset 0. Leaves FROZEN -/
abbrev HAMPER_CMD_REARM : Fld := ⟨0x87, 1, 1⟩
/-- R452, bits 0:0, WO, reset 0. Command freeze source -/
abbrev HAMPER_CMD_FREEZE : Fld := ⟨0x87, 0, 1⟩
/-- R452, bits 13:6, RO, reset 0. Triggers after the first, saturating -/
abbrev HAMPER_FRZSTAT_EXTRA : Fld := ⟨0x88, 6, 8⟩
/-- R452, bits 5:5, RO, reset 0. Triggered in FILL -/
abbrev HAMPER_FRZSTAT_SHORT_PRE : Fld := ⟨0x88, 5, 1⟩
/-- R452, bits 4:0, RO, reset 0. Bit k: source k of R444 fired -/
abbrev HAMPER_FRZSTAT_CAUSE : Fld := ⟨0x88, 0, 5⟩
/-- R452, bits 25:0, RO, reset 0. Position of the TRIG record; bits 39:26 reserved -/
abbrev HAMPER_TRIG_IDX_POS : Fld := ⟨0x89, 0, 26⟩
/-- R452, bits 25:0, RO, reset 0. Latest complete record; bits 39:26 reserved -/
abbrev HAMPER_LAST_IDX_POS : Fld := ⟨0x8a, 0, 26⟩
/-- R452, bits 25:0, RO, reset 0. Next position to write; bits 39:26 reserved -/
abbrev HAMPER_WR_IDX_POS : Fld := ⟨0x8b, 0, 26⟩
/-- R452, bits 31:0, RO, reset 0. Next SEQ; bits 39:32 reserved -/
abbrev HAMPER_SEQ_SEQ : Fld := ⟨0x8c, 0, 32⟩
/-- R452, bits 25:0, RO, reset 0. Record positions latched (R437); bits 39:26 reserved -/
abbrev HAMPER_K_COUNT : Fld := ⟨0x8d, 0, 26⟩
/-- R452, bits 39:0, RO, reset 0. Dropped cadence events, wrapping -/
abbrev HAMPER_MISS_CNT_COUNT : Fld := ⟨0x8e, 0, 40⟩
/-- R452, bits 25:0, RW, reset 0. First destination line; bits 39:26 reserved -/
abbrev HAMPER_DUMP_BASE_LINE : Fld := ⟨0x8f, 0, 26⟩
/-- R484, bits 0:0, RW, reset 1. Automatic suspend and resume (R462) -/
abbrev FLASH_CTRL_AUTO_SUS : Fld := ⟨0x02, 0, 1⟩
/-- R484, bits 9:9, RO, reset 0. A reset waits on the flash (R463) -/
abbrev FLASH_STATUS_RST_WAIT : Fld := ⟨0x03, 9, 1⟩
/-- R484, bits 8:8, RO, reset 0. An erase waits in the maintenance scheduler -/
abbrev FLASH_STATUS_QUEUED : Fld := ⟨0x03, 8, 1⟩
/-- R484, bits 7:7, RO, reset 0. A suspend waits for the minimum run time -/
abbrev FLASH_STATUS_SUS_PEND : Fld := ⟨0x03, 7, 1⟩
/-- R484, bits 6:6, RO, reset 0. An erase is suspended -/
abbrev FLASH_STATUS_SUSPENDED : Fld := ⟨0x03, 6, 1⟩
/-- R484, bits 5:5, RO, reset 0. A ledger switch runs -/
abbrev FLASH_STATUS_LEDGER_SW : Fld := ⟨0x03, 5, 1⟩
/-- R484, bits 4:1, RO, reset 0. 0 none, 1 program, 2 erase, 3 margin, 4 ledger write, 5 ledger switch -/
abbrev FLASH_STATUS_OP : Fld := ⟨0x03, 1, 4⟩
/-- R484, bits 0:0, RO, reset 0. An operation runs or is suspended -/
abbrev FLASH_STATUS_BUSY : Fld := ⟨0x03, 0, 1⟩
/-- R484, bits 5:5, RW / W1C, reset 0. An IMG_CMD failed (R475) -/
abbrev FLASH_IRQ_IMG_ERR : Fld := ⟨0x05, 5, 1⟩
/-- R484, bits 4:4, RW / W1C, reset 0. A sector became HALF -/
abbrev FLASH_IRQ_HALF : Fld := ⟨0x05, 4, 1⟩
/-- R484, bits 3:3, RW / W1C, reset 0. An uncorrectable group was read -/
abbrev FLASH_IRQ_UE : Fld := ⟨0x05, 3, 1⟩
/-- R484, bits 2:2, RW / W1C, reset 0. A correction reached ERR_WARN -/
abbrev FLASH_IRQ_WARN : Fld := ⟨0x05, 2, 1⟩
/-- R484, bits 1:1, RW / W1C, reset 0. A command failed (R457) -/
abbrev FLASH_IRQ_OP_ERR : Fld := ⟨0x05, 1, 1⟩
/-- R484, bits 0:0, RW / W1C, reset 0. A command completed -/
abbrev FLASH_IRQ_OP_DONE : Fld := ⟨0x05, 0, 1⟩
/-- R485, bits 3:2, RO, reset Per sector. 0 general, 1 ledger, 2 slot A, 3 slot B (R453) -/
abbrev FLASH_SECTOR_STATE_CLASS : Fld := ⟨0x10, 2, 2⟩
/-- R485, bits 1:0, RO, reset 0. 0 NORMAL, 1 HALF, 2 BAD, 3 reserved; rebuilt under R472 -/
abbrev FLASH_SECTOR_STATE_STATE : Fld := ⟨0x10, 0, 2⟩
/-- R486, bits 22:0, RW, reset 0. Word offset of the group to program -/
abbrev FLASH_PADDR_OFFSET : Fld := ⟨0x80, 0, 23⟩
/-- R486, bits 3:0, RW, reset 0xF. Bit j: program word j of the group -/
abbrev FLASH_PMASK_WEN : Fld := ⟨0x81, 0, 4⟩
/-- R486, bits 39:0, RW, reset 0xFF_FFFF_FFFF. Word j of the group -/
abbrev FLASH_PDATA_WORD (n : Nat) : Fld := ⟨0x82 + n, 0, 40⟩
/-- R486, bits 26:16, WO, reset 0. Sector for ERASE and MARGIN -/
abbrev FLASH_CMD_SECTOR : Fld := ⟨0x86, 16, 11⟩
/-- R486, bits 3:0, WO, reset 0. 1 PROGRAM, 2 ERASE, 3 SUSPEND, 4 RESUME, 5 MARGIN_PV, 6 MARGIN_EV -/
abbrev FLASH_CMD_OP : Fld := ⟨0x86, 0, 4⟩
/-- R486, bits 19:16, RO, reset 0. Last failure cause (R457) -/
abbrev FLASH_OPSTAT_CAUSE : Fld := ⟨0x87, 16, 4⟩
/-- R486, bits 15:12, RO, reset 0. OP of the last command completed or failed -/
abbrev FLASH_OPSTAT_LAST_OP : Fld := ⟨0x87, 12, 4⟩
/-- R486, bits 10:0, RO, reset 0. Sector of that command -/
abbrev FLASH_OPSTAT_SECTOR : Fld := ⟨0x87, 0, 11⟩
/-- R486, bits 1:0, RW, reset 2. Corrected-bit count that warns; 0 disables -/
abbrev FLASH_ERR_WARN_THR : Fld := ⟨0x88, 0, 2⟩
/-- R486, bits 22:0, RO, reset 0. Group of the last logged read -/
abbrev FLASH_ERR_ADDR_OFFSET : Fld := ⟨0x89, 0, 23⟩
/-- R486, bits 15:8, RO, reset 0. Requester of that read; 0xFF for the controller -/
abbrev FLASH_ERR_INFO_REQ : Fld := ⟨0x8a, 8, 8⟩
/-- R486, bits 2:2, RO, reset 0. The read was uncorrectable -/
abbrev FLASH_ERR_INFO_UE : Fld := ⟨0x8a, 2, 1⟩
/-- R486, bits 1:0, RO, reset 0. Bits corrected -/
abbrev FLASH_ERR_INFO_CORR : Fld := ⟨0x8a, 0, 2⟩
/-- R486, bits 39:0, RO, reset 0. Warning corrections, saturating -/
abbrev FLASH_CNT_CORR_COUNT : Fld := ⟨0x8b, 0, 40⟩
/-- R486, bits 39:0, RO, reset 0. Uncorrectable reads, saturating -/
abbrev FLASH_CNT_UE_COUNT : Fld := ⟨0x8c, 0, 40⟩
/-- R486, bits 35:23, RO, reset 0. Words that differed (R464) -/
abbrev FLASH_MARGIN_COUNT : Fld := ⟨0x8d, 23, 13⟩
/-- R486, bits 22:0, RO, reset 0. Offset of the first differing word -/
abbrev FLASH_MARGIN_FIRST : Fld := ⟨0x8d, 0, 23⟩
/-- R486, bits 14:0, RO, reset 0. Running time of the current or last erase, in µs -/
abbrev FLASH_RUNTIME_US : Fld := ⟨0x8e, 0, 15⟩
/-- R486, bits 11:9, RO, reset 0. 0 EMPTY, 1 TRIAL, 2 TRIAL_RUN, 3 CONFIRMED, 4 REJECTED -/
abbrev FLASH_IMG_STATE_B : Fld := ⟨0x8f, 9, 3⟩
/-- R486, bits 8:6, RO, reset 0. Same -/
abbrev FLASH_IMG_STATE_A : Fld := ⟨0x8f, 6, 3⟩
/-- R486, bits 3:3, RO, reset 0. Preferred slot: 0 A, 1 B (R476) -/
abbrev FLASH_IMG_PREF : Fld := ⟨0x8f, 3, 1⟩
/-- R486, bits 2:2, RO, reset 0. A slot is CONFIRMED -/
abbrev FLASH_IMG_PREF_VALID : Fld := ⟨0x8f, 2, 1⟩
/-- R486, bits 1:1, RO, reset 0. Running slot: 0 A, 1 B -/
abbrev FLASH_IMG_RUN : Fld := ⟨0x8f, 1, 1⟩
/-- R486, bits 0:0, RO, reset 0. START has been accepted since reset -/
abbrev FLASH_IMG_RUN_VALID : Fld := ⟨0x8f, 0, 1⟩
/-- R486, bits 3:3, WO, reset 0. 0 A, 1 B -/
abbrev FLASH_IMG_CMD_SLOT : Fld := ⟨0x90, 3, 1⟩
/-- R486, bits 2:0, WO, reset 0. 1 MARK_TRIAL, 2 CONFIRM, 3 START, 4 REJECT; others act as no command -/
abbrev FLASH_IMG_CMD_OP : Fld := ⟨0x90, 0, 3⟩
/-- R486, bits 2:0, RO, reset 0. Last IMG_CMD failure (R475) -/
abbrev FLASH_IMG_STAT_CAUSE : Fld := ⟨0x91, 0, 3⟩
/-- R487, bits 12:12, RO, reset 0. An APPEND waits or is being written -/
abbrev LEDGER_STATUS_APP_BUSY : Fld := ⟨0x03, 12, 1⟩
/-- R487, bits 11:11, RO, reset 0. The boot flow found no valid ledger sector (R472) -/
abbrev LEDGER_STATUS_LOST : Fld := ⟨0x03, 11, 1⟩
/-- R487, bits 10:10, RO, reset 0. Active ledger sector -/
abbrev LEDGER_STATUS_ACTIVE : Fld := ⟨0x03, 10, 1⟩
/-- R487, bits 9:0, RO, reset 0. Free places in the active sector -/
abbrev LEDGER_STATUS_FREE : Fld := ⟨0x03, 0, 10⟩
/-- R487, bits 1:1, RW / W1C, reset 0. A ledger switch completed -/
abbrev LEDGER_IRQ_SWITCHED : Fld := ⟨0x05, 1, 1⟩
/-- R487, bits 0:0, RW / W1C, reset 0. A torn or invalid place was found -/
abbrev LEDGER_IRQ_TORN : Fld := ⟨0x05, 0, 1⟩
/-- R487, bits 39:0, RO, reset 0. Generation of the active sector -/
abbrev LEDGER_GEN_GEN : Fld := ⟨0x80, 0, 40⟩
/-- R487, bits 31:0, RO, reset 0x0800_0008. Core address of the next free place -/
abbrev LEDGER_NEXT_ADDR : Fld := ⟨0x81, 0, 32⟩
/-- R487, bits 31:0, RO, reset 0. SEQ of the next record -/
abbrev LEDGER_SEQ_SEQ : Fld := ⟨0x82, 0, 32⟩
/-- R487, bits 39:0, RW, reset 0. Arguments of a USER record -/
abbrev LEDGER_UARG_ARG (n : Nat) : Fld := ⟨0x83 + n, 0, 40⟩
/-- R487, bits 0:0, WO, reset 0. 1 appends a USER record; no effect while APP_BUSY is 1 -/
abbrev LEDGER_APPEND_GO : Fld := ⟨0x86, 0, 1⟩
/-- R488, bits 1:1, RO, reset 0. Field values are valid (R483) -/
abbrev LWF_STATUS_LOADED : Fld := ⟨0x03, 1, 1⟩
/-- R488, bits 0:0, RO, reset 0. A write runs -/
abbrev LWF_STATUS_BUSY : Fld := ⟨0x03, 0, 1⟩
/-- R488, bits 2:2, RW / W1C, reset 0. The array load or a write found a spoiled slot -/
abbrev LWF_IRQ_SPOILED : Fld := ⟨0x05, 2, 1⟩
/-- R488, bits 1:1, RW / W1C, reset 0. A write failed (R481) -/
abbrev LWF_IRQ_WR_ERR : Fld := ⟨0x05, 1, 1⟩
/-- R488, bits 0:0, RW / W1C, reset 0. A write completed -/
abbrev LWF_IRQ_WR_DONE : Fld := ⟨0x05, 0, 1⟩
/-- R488, bits 28:20, RO, reset Per field. Value width in bits; 64 for ROLLBACK_FLOOR -/
abbrev LWF_FINFO_WIDTH : Fld := ⟨0x10, 20, 9⟩
/-- R488, bits 19:16, RO, reset Per field. Slots; 0 for ROLLBACK_FLOOR -/
abbrev LWF_FINFO_SLOTS : Fld := ⟨0x10, 16, 4⟩
/-- R488, bits 15:12, RO, reset 0. Valid slots -/
abbrev LWF_FINFO_USED : Fld := ⟨0x10, 12, 4⟩
/-- R488, bits 11:8, RO, reset 0. Spoiled slots -/
abbrev LWF_FINFO_SPOILT : Fld := ⟨0x10, 8, 4⟩
/-- R488, bits 7:0, RO, reset 0. Free slots; for ROLLBACK_FLOOR, 64 − floor -/
abbrev LWF_FINFO_FREE : Fld := ⟨0x10, 0, 8⟩
/-- R488, bits 39:0, LWF, reset Per R477. Value bits 40k + 39 to 40k; bits beyond the width read 0 -/
abbrev LWF_VALUE_VALUE (n : Nat) : Fld := ⟨0x11 + n, 0, 40⟩
/-- R488, bits 39:0, RW, reset 0. Value to write (R481) -/
abbrev LWF_STAGE_VALUE (n : Nat) : Fld := ⟨0x80 + n, 0, 40⟩
/-- R488, bits 23:8, WO, reset 0. 0x4C57 -/
abbrev LWF_WCMD_KEY : Fld := ⟨0x87, 8, 16⟩
/-- R488, bits 3:0, WO, reset 0. Field number (R477) -/
abbrev LWF_WCMD_FIELD : Fld := ⟨0x87, 0, 4⟩
/-- R488, bits 15:12, RO, reset 0. Last failure cause; 0 after success -/
abbrev LWF_WSTAT_CAUSE : Fld := ⟨0x88, 12, 4⟩
/-- R488, bits 11:8, RO, reset 0. Field of the last write -/
abbrev LWF_WSTAT_FIELD : Fld := ⟨0x88, 8, 4⟩
/-- R488, bits 7:0, RO, reset 0. Slot written, or the new floor -/
abbrev LWF_WSTAT_SLOT : Fld := ⟨0x88, 0, 8⟩
/-- R523, bits 3:2, RW, reset 0. Widest permitted width: 0 ×4, 1 ×2, 2 ×1, 3 acts as 0 -/
abbrev DL_CTRL_WMAX : Fld := ⟨0x02, 2, 2⟩
/-- R523, bits 1:1, WO, reset 0. 1 moves an ACTIVE port to RETRAIN -/
abbrev DL_CTRL_RETRAIN : Fld := ⟨0x02, 1, 1⟩
/-- R523, bits 0:0, RW, reset 1. 1 enables the port -/
abbrev DL_CTRL_EN : Fld := ⟨0x02, 0, 1⟩
/-- R523, bits 29:16, RO, reset 16,383. Neighbour's node ID from its last HELLO -/
abbrev DL_STATUS_NBR_ID : Fld := ⟨0x03, 16, 14⟩
/-- R523, bits 15:13, RO, reset 0. 0 NONE, 1 UP, 2 CHILD, 3 STANDBY, 4 CONFLICT -/
abbrev DL_STATUS_ROLE : Fld := ⟨0x03, 13, 3⟩
/-- R523, bits 12:11, RO, reset 3. 0 ×4, 1 ×2, 2 ×1, 3 none -/
abbrev DL_STATUS_WIDTH : Fld := ⟨0x03, 11, 2⟩
/-- R523, bits 2:0, RO, reset 0. 0 DISABLED, 1 DETECT, 2 TRAIN, 3 DESKEW, 4 INIT, 5 ACTIVE, 6 RETRAIN -/
abbrev DL_STATUS_PSTATE : Fld := ⟨0x03, 0, 3⟩
/-- R523, bits 9:9, RW / W1C, reset 0. DL0 only: a frame was discarded under R503 -/
abbrev DL_IRQ_NOROUTE : Fld := ⟨0x05, 9, 1⟩
/-- R523, bits 8:8, RW / W1C, reset 0. DL0 only: a join of this device was refused -/
abbrev DL_IRQ_JREFUSED : Fld := ⟨0x05, 8, 1⟩
/-- R523, bits 7:7, RW / W1C, reset 0. DL0 only: this device became UNJOINED -/
abbrev DL_IRQ_LEFT : Fld := ⟨0x05, 7, 1⟩
/-- R523, bits 6:6, RW / W1C, reset 0. DL0 only: this device joined -/
abbrev DL_IRQ_JOINED : Fld := ⟨0x05, 6, 1⟩
/-- R523, bits 5:5, RW / W1C, reset 0. The port took the role CONFLICT -/
abbrev DL_IRQ_CONFLICT : Fld := ⟨0x05, 5, 1⟩
/-- R523, bits 4:4, RW / W1C, reset 0. Deskew failed -/
abbrev DL_IRQ_DESKEW_ERR : Fld := ⟨0x05, 4, 1⟩
/-- R523, bits 3:3, RW / W1C, reset 0. Mend retransmitted -/
abbrev DL_IRQ_RETRY : Fld := ⟨0x05, 3, 1⟩
/-- R523, bits 2:2, RW / W1C, reset 0. The link was torn -/
abbrev DL_IRQ_TORN : Fld := ⟨0x05, 2, 1⟩
/-- R523, bits 1:1, RW / W1C, reset 0. The port left ACTIVE -/
abbrev DL_IRQ_DOWN : Fld := ⟨0x05, 1, 1⟩
/-- R523, bits 0:0, RW / W1C, reset 0. The port entered ACTIVE -/
abbrev DL_IRQ_UP : Fld := ⟨0x05, 0, 1⟩
/-- R524, bits 15:8, RO, reset 0. Lag behind the earliest lane, in blocks -/
abbrev DL_LSTAT_SKEW : Fld := ⟨0x10, 8, 8⟩
/-- R524, bits 2:2, RO, reset 0. The lane is in the agreed width -/
abbrev DL_LSTAT_USED : Fld := ⟨0x10, 2, 1⟩
/-- R524, bits 1:1, RO, reset 0. R492 -/
abbrev DL_LSTAT_BLOCK_LOCK : Fld := ⟨0x10, 1, 1⟩
/-- R524, bits 0:0, RO, reset 0. The receiver has locked to the lane -/
abbrev DL_LSTAT_CDR_LOCK : Fld := ⟨0x10, 0, 1⟩
/-- R524, bits 39:0, RO, reset 0. Invalid sync headers and unknown blocks, saturating -/
abbrev DL_LERR_COUNT : Fld := ⟨0x11, 0, 40⟩
/-- R524, bits 11:8, RW, reset 2. Pre-cursor step -/
abbrev DL_TXEQ_PRE : Fld := ⟨0x12, 8, 4⟩
/-- R524, bits 7:4, RW, reset 6. Post-cursor step -/
abbrev DL_TXEQ_POST : Fld := ⟨0x12, 4, 4⟩
/-- R524, bits 3:0, RW, reset 12. Swing step; the steps are in Electrical Characteristics and Package -/
abbrev DL_TXEQ_AMP : Fld := ⟨0x12, 0, 4⟩
/-- R524, bits 8:8, RW, reset 1. 1 adapts the equaliser -/
abbrev DL_RXEQ_AUTO : Fld := ⟨0x13, 8, 1⟩
/-- R524, bits 7:0, RW, reset 0. Equaliser setting; written while AUTO = 0, the adapted value while AUTO = 1 -/
abbrev DL_RXEQ_CTLE : Fld := ⟨0x13, 0, 8⟩
/-- R525, bits 35:24, RO, reset 0. Receiver's expected LSEQ -/
abbrev DL_MEND_EXP : Fld := ⟨0x80, 24, 12⟩
/-- R525, bits 23:12, RO, reset 0. LSEQ of the next new frame -/
abbrev DL_MEND_NEXT : Fld := ⟨0x80, 12, 12⟩
/-- R525, bits 11:0, RO, reset 0xFFF. Last LSEQ acknowledged -/
abbrev DL_MEND_ACKED : Fld := ⟨0x80, 0, 12⟩
/-- R525, bits 39:0, RO, reset 0. Frames resent, wrapping -/
abbrev DL_RETRY_CNT_COUNT : Fld := ⟨0x81, 0, 40⟩
/-- R525, bits 39:0, RO, reset 0. Frames received with a bad CRC, wrapping -/
abbrev DL_CRC_CNT_COUNT : Fld := ⟨0x82, 0, 40⟩
/-- R525, bits 39:0, RO, reset 0. Tears, wrapping -/
abbrev DL_TORN_CNT_COUNT : Fld := ⟨0x83, 0, 40⟩
/-- R525, bits 39:0, RO, reset 0. Frames discarded by tears, wrapping -/
abbrev DL_LOST_CNT_COUNT : Fld := ⟨0x84, 0, 40⟩
/-- R525, bits 39:0, RO, reset 0. Frames sent, wrapping -/
abbrev DL_TX_CNT_COUNT : Fld := ⟨0x85, 0, 40⟩
/-- R525, bits 39:0, RO, reset 0. Frames accepted, wrapping -/
abbrev DL_RX_CNT_COUNT : Fld := ⟨0x86, 0, 40⟩
/-- R525, bits 23:0, RO, reset 0. Cable delay c in fine steps (R518) -/
abbrev DL_CDELAY_FINE : Fld := ⟨0x87, 0, 24⟩
/-- R525, bits 39:0, RO, reset 0. W0 of the neighbour's last HELLO -/
abbrev DL_NBR_W0_WORD : Fld := ⟨0x88, 0, 40⟩
/-- R525, bits 39:0, RO, reset 0. W1 of that HELLO -/
abbrev DL_NBR_W1_WORD : Fld := ⟨0x89, 0, 40⟩
/-- R525, bits 15:0, RO, reset 0. ROUTED credits held for sending -/
abbrev DL_CREDIT_ROUTED : Fld := ⟨0x8a, 0, 16⟩
/-- R526, bits 31:30, RO, reset 0. 0 UNJOINED, 1 REQUESTING, 2 JOINED, 3 ROOT -/
abbrev DL_NODE_JSTATE : Fld := ⟨0xc0, 30, 2⟩
/-- R526, bits 29:28, RO, reset 0. UP port; meaningful when JOINED -/
abbrev DL_NODE_UPPORT : Fld := ⟨0xc0, 28, 2⟩
/-- R526, bits 27:20, RO, reset 255. Hops from the root -/
abbrev DL_NODE_H : Fld := ⟨0xc0, 20, 8⟩
/-- R526, bits 13:0, RO, reset 16,383. Node ID -/
abbrev DL_NODE_ID : Fld := ⟨0xc0, 0, 14⟩
/-- R526, bits 23:8, RWL, reset 200. Hold before choosing a parent, µs -/
abbrev DL_DCTRL_JHOLD : Fld := ⟨0xc1, 8, 16⟩
/-- R526, bits 1:1, RWL, reset 1. Root: 1 admits joins -/
abbrev DL_DCTRL_ADMIT : Fld := ⟨0xc1, 1, 1⟩
/-- R526, bits 0:0, RWL, reset 0. 1 makes this device the root -/
abbrev DL_DCTRL_ROOT : Fld := ⟨0xc1, 0, 1⟩
/-- R526, bits 0:0, WO, reset 0. 1 leaves the domain (R514) -/
abbrev DL_DCMD_LEAVE : Fld := ⟨0xc2, 0, 1⟩
/-- R526, bits 17:4, RO, reset 16,383. ID held before the last leave -/
abbrev DL_DSTAT_PREV_ID : Fld := ⟨0xc3, 4, 14⟩
/-- R526, bits 3:0, RO, reset 0. Cause of the last refusal (R512) -/
abbrev DL_DSTAT_JCAUSE : Fld := ⟨0xc3, 0, 4⟩
/-- R526, bits 13:0, RO, reset 0. Root: joined devices, the root included -/
abbrev DL_JOINED_CNT_COUNT : Fld := ⟨0xc4, 0, 14⟩
/-- R526, bits 15:0, RW, reset 1,000. Root: hold time of a freed ID -/
abbrev DL_ID_HOLD_MS : Fld := ⟨0xc5, 0, 16⟩
/-- R526, bits 13:0, RW, banked, reset 0. ID whose route ROUTE shows; banked as CHSEL (R39) -/
abbrev DL_ROUTE_IDX_ID : Fld := ⟨0xc6, 0, 14⟩
/-- R526, bits 2:2, RO, reset 0. An entry exists -/
abbrev DL_ROUTE_VALID : Fld := ⟨0xc7, 2, 1⟩
/-- R526, bits 1:0, RO, reset 0. Port of the entry -/
abbrev DL_ROUTE_PORT : Fld := ⟨0xc7, 0, 2⟩
/-- R526, bits 39:0, RO, reset Per device. UID bits 39:0; low word of a pair (R43) -/
abbrev DL_UID_L_UID : Fld := ⟨0xc8, 0, 40⟩
/-- R526, bits 23:0, RO, reset Per device. UID bits 63:40 -/
abbrev DL_UID_H_UID : Fld := ⟨0xc9, 0, 24⟩
/-- R526, bits 39:0, RO, reset 0. Frames discarded under R503, wrapping -/
abbrev DL_NOROUTE_CNT_COUNT : Fld := ⟨0xca, 0, 40⟩
/-- R527, bits 1:1, RW, reset 0. Root: 1 lets software set RATE -/
abbrev DTIME_CTRL_ROOT_SRC : Fld := ⟨0x02, 1, 1⟩
/-- R527, bits 0:0, RW, reset 1. 1 runs domain time -/
abbrev DTIME_CTRL_EN : Fld := ⟨0x02, 0, 1⟩
/-- R527, bits 3:3, RO, reset 0. Domain time is valid -/
abbrev DTIME_STATUS_VALID : Fld := ⟨0x03, 3, 1⟩
/-- R527, bits 2:0, RO, reset 0. 0 FREE, 1 ACQUIRE, 2 LOCKED, 3 HOLDOVER, 4 ROOT -/
abbrev DTIME_STATUS_STATE : Fld := ⟨0x03, 0, 3⟩
/-- R527, bits 2:2, RW / W1C, reset 0. Domain time stepped -/
abbrev DTIME_IRQ_STEP : Fld := ⟨0x05, 2, 1⟩
/-- R527, bits 1:1, RW / W1C, reset 0. VALID fell -/
abbrev DTIME_IRQ_UNLOCK : Fld := ⟨0x05, 1, 1⟩
/-- R527, bits 0:0, RW / W1C, reset 0. VALID rose -/
abbrev DTIME_IRQ_LOCK : Fld := ⟨0x05, 0, 1⟩
/-- R527, bits 39:0, RO, reset 0. Domain time bits 39:0 at the accepting edge; low word of a pair (R43) -/
abbrev DTIME_TIME_L_TIME : Fld := ⟨0x80, 0, 40⟩
/-- R527, bits 23:0, RO, reset 0. Domain time bits 63:40 -/
abbrev DTIME_TIME_H_TIME : Fld := ⟨0x81, 0, 24⟩
/-- R527, bits 39:0, RW, reset 0. Root: bits 39:0 of the value to set -/
abbrev DTIME_TSET_L_TIME : Fld := ⟨0x82, 0, 40⟩
/-- R527, bits 23:0, RW, reset 0. Root: bits 63:40; a write commits (R517); no effect on a non-root device -/
abbrev DTIME_TSET_H_TIME : Fld := ⟨0x83, 0, 24⟩
/-- R527, bits 39:0, RO; RW on the root with ROOT_SRC = 1, reset 0. Signed fractional frequency in units of 2^−40; writes beyond ±200 ppm act as the limit -/
abbrev DTIME_RATE_Y : Fld := ⟨0x84, 0, 40⟩
/-- R527, bits 39:0, RO, reset 0. Signed o of the last exchange, in fine steps -/
abbrev DTIME_OFFSET_O : Fld := ⟨0x85, 0, 40⟩
/-- R527, bits 7:4, RW, reset 6. Integral shift (R519) -/
abbrev DTIME_SERVO_KI_SH : Fld := ⟨0x86, 4, 4⟩
/-- R527, bits 3:0, RW, reset 2. Proportional shift -/
abbrev DTIME_SERVO_KP_SH : Fld := ⟨0x86, 0, 4⟩
/-- R527, bits 9:0, RW, reset 10. SYNC interval in µs; 0 acts as 1 -/
abbrev DTIME_SYNC_INT_US : Fld := ⟨0x87, 0, 10⟩
/-- R527, bits 23:0, RW, reset 25,600. Offset beyond which time steps (1 µs) -/
abbrev DTIME_STEP_LIM_FINE : Fld := ⟨0x88, 0, 24⟩
/-- R527, bits 15:0, RW, reset 13. Lock threshold (0.51 ns); 0 acts as 1 -/
abbrev DTIME_LOCK_THR_FINE : Fld := ⟨0x89, 0, 16⟩
/-- R527, bits 19:0, RW, reset 1,000. Longest holdover that stays valid -/
abbrev DTIME_HOLD_MAX_US : Fld := ⟨0x8a, 0, 20⟩
/-- R527, bits 39:0, RO, reset 0. Steps taken, wrapping -/
abbrev DTIME_STEP_CNT_COUNT : Fld := ⟨0x8b, 0, 40⟩
/-- R560, bits 17:9, RO, reset 0. Commands queued, 0 to 256 -/
abbrev DOM_STATUS_CQ_USED : Fld := ⟨0x03, 9, 9⟩
/-- R560, bits 2:2, RO, reset 0. A receive stream is fenced -/
abbrev DOM_STATUS_FENCED : Fld := ⟨0x03, 2, 1⟩
/-- R560, bits 1:1, RO, reset 0. Ticks fire (R531) -/
abbrev DOM_STATUS_TICK_RUN : Fld := ⟨0x03, 1, 1⟩
/-- R560, bits 0:0, RO, reset 0. A tick configuration is held -/
abbrev DOM_STATUS_CFG_VALID : Fld := ⟨0x03, 0, 1⟩
/-- R560, bits 6:6, RW / W1C, reset 0. A report was dropped -/
abbrev DOM_IRQ_RPT_OVF : Fld := ⟨0x05, 6, 1⟩
/-- R560, bits 5:5, RW / W1C, reset 0. A report was queued -/
abbrev DOM_IRQ_REPORT : Fld := ⟨0x05, 5, 1⟩
/-- R560, bits 4:4, RW / W1C, reset 0. A stream was fenced -/
abbrev DOM_IRQ_FENCE : Fld := ⟨0x05, 4, 1⟩
/-- R560, bits 3:3, RW / W1C, reset 0. A fence cleared -/
abbrev DOM_IRQ_RESUMED : Fld := ⟨0x05, 3, 1⟩
/-- R560, bits 2:2, RW / W1C, reset 0. A tick was skipped -/
abbrev DOM_IRQ_TICK_SKIP : Fld := ⟨0x05, 2, 1⟩
/-- R560, bits 1:1, RW / W1C, reset 0. A capture waited for the applier -/
abbrev DOM_IRQ_CAP_LATE : Fld := ⟨0x05, 1, 1⟩
/-- R560, bits 0:0, RW / W1C, reset 0. A commit was refused (R530) -/
abbrev DOM_IRQ_CFG_ERR : Fld := ⟨0x05, 0, 1⟩
/-- R561, bits 32:32, RW, reset 0. 1 publishes the entry -/
abbrev DOM_PUB_EN : Fld := ⟨0x10, 32, 1⟩
/-- R561, bits 31:0, RW, reset 0. Word address captured -/
abbrev DOM_PUB_ADDR : Fld := ⟨0x10, 0, 32⟩
/-- R561, bits 39:0, RO, reset 0. Value captured at the last tick -/
abbrev DOM_CAPV_VALUE : Fld := ⟨0x11, 0, 40⟩
/-- R562, bits 19:0, RW on the root, else RO, reset 10,000. Tick period in 10 ns -/
abbrev DOM_PERIOD_P : Fld := ⟨0x80, 0, 20⟩
/-- R562, bits 39:0, RW on the root, else RO, reset 0. BASE_TN -/
abbrev DOM_BASE_TN_TN : Fld := ⟨0x81, 0, 40⟩
/-- R562, bits 39:0, RW on the root, else RO, reset 0. BASE_TIME bits 39:0; low word of a pair (R43) -/
abbrev DOM_BASE_L_TIME : Fld := ⟨0x82, 0, 40⟩
/-- R562, bits 23:0, RW on the root, else RO, reset 0. BASE_TIME bits 63:40; a write commits (R530) -/
abbrev DOM_BASE_H_TIME : Fld := ⟨0x83, 0, 24⟩
/-- R562, bits 39:0, RO, reset 0. Last tick fired -/
abbrev DOM_TICK_TN : Fld := ⟨0x84, 0, 40⟩
/-- R562, bits 31:24, RO, reset 0. Domain level from TICK_CFG -/
abbrev DOM_VER_DLEVEL : Fld := ⟨0x85, 24, 8⟩
/-- R562, bits 23:16, RWL, reset 0. Own feature level (R556) -/
abbrev DOM_VER_LEVEL : Fld := ⟨0x85, 16, 8⟩
/-- R562, bits 15:8, RO, reset 1. Protocol major -/
abbrev DOM_VER_MAJOR : Fld := ⟨0x85, 8, 8⟩
/-- R562, bits 7:0, RO, reset 0. Protocol minor -/
abbrev DOM_VER_MINOR : Fld := ⟨0x85, 0, 8⟩
/-- R562, bits 15:0, RW, reset 2. Least target distance at send; below 2 acts as 2 -/
abbrev DOM_KMIN_K : Fld := ⟨0x86, 0, 16⟩
/-- R562, bits 29:0, RW, reset 1,000,000. Farthest target accepted; 0 acts as 1 -/
abbrev DOM_HORIZON_TICKS : Fld := ⟨0x87, 0, 30⟩
/-- R562, bits 39:32, RW, banked, reset 0. Command level -/
abbrev DOM_CTX_A_LEVEL : Fld := ⟨0x88, 32, 8⟩
/-- R562, bits 31:16, RW, banked, reset 0. Command tag -/
abbrev DOM_CTX_A_CMD_ID : Fld := ⟨0x88, 16, 16⟩
/-- R562, bits 15:15, RW, banked, reset 0. Request an APPLIED report -/
abbrev DOM_CTX_A_ACK : Fld := ⟨0x88, 15, 1⟩
/-- R562, bits 13:0, RW, banked, reset 0. Destination node; 16,383 broadcast -/
abbrev DOM_CTX_A_DST : Fld := ⟨0x88, 0, 14⟩
/-- R562, bits 39:0, RW, banked, reset 0. Target tick -/
abbrev DOM_CTX_TN_TN : Fld := ⟨0x89, 0, 40⟩
/-- R562, bits 39:39, WO, reset 0. 1 sends (R544) -/
abbrev DOM_CTX_B_GO : Fld := ⟨0x8a, 39, 1⟩
/-- R562, bits 38:32, RW, banked, reset 0. Writes, 1 to 49 -/
abbrev DOM_CTX_B_NW : Fld := ⟨0x8a, 32, 7⟩
/-- R562, bits 31:0, RW, banked, reset 0. Device SRAM address of the write list -/
abbrev DOM_CTX_B_BUF : Fld := ⟨0x8a, 0, 32⟩
/-- R562, bits 23:8, RO, banked, reset 0. ESEQ of the last command sent -/
abbrev DOM_CTX_STAT_ESEQ : Fld := ⟨0x8b, 8, 16⟩
/-- R562, bits 3:0, RO, banked, reset 0. Last send result (R544) -/
abbrev DOM_CTX_STAT_CAUSE : Fld := ⟨0x8b, 0, 4⟩
/-- R562, bits 18:18, RW, banked, reset 0. 0 receive state, 1 send state -/
abbrev DOM_STREAM_SEL_SEND : Fld := ⟨0x8c, 18, 1⟩
/-- R562, bits 17:17, RW, banked, reset 0. Broadcast stream -/
abbrev DOM_STREAM_SEL_BCAST : Fld := ⟨0x8c, 17, 1⟩
/-- R562, bits 15:14, RW, banked, reset 0. Class -/
abbrev DOM_STREAM_SEL_TC : Fld := ⟨0x8c, 14, 2⟩
/-- R562, bits 13:0, RW, banked, reset 0. Peer node -/
abbrev DOM_STREAM_SEL_NODE : Fld := ⟨0x8c, 0, 14⟩
/-- R562, bits 39:39, RO, reset 0. The selected stream is fenced -/
abbrev DOM_STREAM_STAT_FENCED : Fld := ⟨0x8d, 39, 1⟩
/-- R562, bits 38:32, RO, reset 0. Frames held, 0 to 64 -/
abbrev DOM_STREAM_STAT_HELD : Fld := ⟨0x8d, 32, 7⟩
/-- R562, bits 31:16, RO, reset 0. FIRST of a send stream; 0 otherwise -/
abbrev DOM_STREAM_STAT_FIRST : Fld := ⟨0x8d, 16, 16⟩
/-- R562, bits 15:0, RO, reset 0. EXPECT or NEXT -/
abbrev DOM_STREAM_STAT_SEQ : Fld := ⟨0x8d, 0, 16⟩
/-- R562, bits 39:32, RO, reset 0. Report head (R548); a read captures RPT_H and removes the entry -/
abbrev DOM_RPT_L_RESULT : Fld := ⟨0x8e, 32, 8⟩
/-- R562, bits 31:0, RO, reset 0. Target tick bits 31:0 -/
abbrev DOM_RPT_L_TN : Fld := ⟨0x8e, 0, 32⟩
/-- R562, bits 39:26, RO, reset 0. Reporting node -/
abbrev DOM_RPT_H_NODE : Fld := ⟨0x8f, 26, 14⟩
/-- R562, bits 25:10, RO, reset 0. Command tag -/
abbrev DOM_RPT_H_CMD_ID : Fld := ⟨0x8f, 10, 16⟩
/-- R562, bits 9:3, RO, reset 0. Write index -/
abbrev DOM_RPT_H_IDX : Fld := ⟨0x8f, 3, 7⟩
/-- R562, bits 2:2, RO, reset 0. Filled from the send log -/
abbrev DOM_RPT_H_LOGGED : Fld := ⟨0x8f, 2, 1⟩
/-- R562, bits 0:0, RO, reset 0. The entry holds a report -/
abbrev DOM_RPT_H_VALID : Fld := ⟨0x8f, 0, 1⟩
/-- R562, bits 39:0, RO, reset 0. Commands applied, wrapping -/
abbrev DOM_APPLY_CNT_COUNT : Fld := ⟨0x90, 0, 40⟩
/-- R562, bits 39:0, RO, reset 0. Commands not applied, wrapping -/
abbrev DOM_FAIL_CNT_COUNT : Fld := ⟨0x91, 0, 40⟩
/-- R562, bits 39:0, RO, reset 0. Fences, wrapping -/
abbrev DOM_FENCE_CNT_COUNT : Fld := ⟨0x92, 0, 40⟩
/-- R562, bits 39:0, RO, reset 0. Ticks skipped, wrapping -/
abbrev DOM_SKIP_CNT_COUNT : Fld := ⟨0x93, 0, 40⟩
/-- R562, bits 39:0, RO, reset 0. Frames of unknown KIND, wrapping -/
abbrev DOM_UNK_CNT_COUNT : Fld := ⟨0x94, 0, 40⟩
/-- R563, bits 1:1, RW, reset 0. Root: 1 assembles the snapshot -/
abbrev SNAP_CTRL_ASM : Fld := ⟨0x02, 1, 1⟩
/-- R563, bits 0:0, RW, reset 0. 1 captures and publishes at each tick -/
abbrev SNAP_CTRL_CAP_EN : Fld := ⟨0x02, 0, 1⟩
/-- R563, bits 9:9, RO, reset 0. A generation is pinned -/
abbrev SNAP_STATUS_PINNED : Fld := ⟨0x03, 9, 1⟩
/-- R563, bits 8:7, RO, reset 0. Pinned buffer -/
abbrev SNAP_STATUS_PIN_BUF : Fld := ⟨0x03, 7, 2⟩
/-- R563, bits 6:6, RO, reset 0. A generation is complete -/
abbrev SNAP_STATUS_LATEST_VALID : Fld := ⟨0x03, 6, 1⟩
/-- R563, bits 5:4, RO, reset 0. Buffer of the latest complete generation -/
abbrev SNAP_STATUS_LATEST_BUF : Fld := ⟨0x03, 4, 2⟩
/-- R563, bits 3:2, RO, reset 0. Buffer being assembled -/
abbrev SNAP_STATUS_ASM_BUF : Fld := ⟨0x03, 2, 2⟩
/-- R563, bits 1:1, RO, reset 0. A generation is open -/
abbrev SNAP_STATUS_ASSEMBLING : Fld := ⟨0x03, 1, 1⟩
/-- R563, bits 0:0, RO, reset 0. A capture runs -/
abbrev SNAP_STATUS_CAPTURING : Fld := ⟨0x03, 0, 1⟩
/-- R563, bits 3:3, RW / W1C, reset 0. A pin expired while held -/
abbrev SNAP_IRQ_LEASE_EXP : Fld := ⟨0x05, 3, 1⟩
/-- R563, bits 2:2, RW / W1C, reset 0. A generation completed with stale blocks -/
abbrev SNAP_IRQ_ASM_MISS : Fld := ⟨0x05, 2, 1⟩
/-- R563, bits 1:1, RW / W1C, reset 0. A generation completed -/
abbrev SNAP_IRQ_GEN_DONE : Fld := ⟨0x05, 1, 1⟩
/-- R563, bits 0:0, RW / W1C, reset 0. A capture read failed, or an ASM write was refused -/
abbrev SNAP_IRQ_CAP_ERR : Fld := ⟨0x05, 0, 1⟩
/-- R563, bits 39:0, RO, reset 0. Latest complete generation -/
abbrev SNAP_LATEST_TN : Fld := ⟨0x80, 0, 40⟩
/-- R563, bits 25:0, RW, reset 0. First line of buffer 0 -/
abbrev SNAP_ABASE_LINE : Fld := ⟨0x81, 0, 26⟩
/-- R563, bits 3:0, RW, reset 9. Lines per node block -/
abbrev SNAP_STRIDE_S : Fld := ⟨0x82, 0, 4⟩
/-- R563, bits 19:0, RW, reset 0. Assembly deadline in 10 ns; 0 acts as PERIOD -/
abbrev SNAP_ASM_DL_T : Fld := ⟨0x83, 0, 20⟩
/-- R563, bits 39:39, RO, reset 0. A lease is held -/
abbrev SNAP_LEASE_VALID : Fld := ⟨0x84, 39, 1⟩
/-- R563, bits 38:38, RO, reset 0. The held lease has expired -/
abbrev SNAP_LEASE_EXPIRED : Fld := ⟨0x84, 38, 1⟩
/-- R563, bits 37:36, RO, reset 0. Leased buffer -/
abbrev SNAP_LEASE_BUF : Fld := ⟨0x84, 36, 2⟩
/-- R563, bits 11:2, RO, reset 0. Lease time left, in µs -/
abbrev SNAP_LEASE_REMAIN : Fld := ⟨0x84, 2, 10⟩
/-- R563, bits 1:1, WO, reset 0. 1 releases -/
abbrev SNAP_LEASE_REL : Fld := ⟨0x84, 1, 1⟩
/-- R563, bits 0:0, WO, reset 0. 1 requests (R541) -/
abbrev SNAP_LEASE_REQ : Fld := ⟨0x84, 0, 1⟩
/-- R563, bits 39:0, RO, reset 0. Leased generation -/
abbrev SNAP_LEASE_TN_TN : Fld := ⟨0x85, 0, 40⟩
/-- R563, bits 9:0, RW, reset 1,000. Lease length, 1 to 1,000; 0 acts as 1 -/
abbrev SNAP_LEASE_US_US : Fld := ⟨0x86, 0, 10⟩
/-- R563, bits 15:0, RO, reset 0. Last capture in FAB_CLK cycles -/
abbrev SNAP_CAPTIME_CYC : Fld := ⟨0x87, 0, 16⟩
/-- R563, bits 15:0, RO, reset 0. Longest capture since reset -/
abbrev SNAP_CAP_MAX_CYC : Fld := ⟨0x88, 0, 16⟩
/-- R563, bits 39:0, RO, reset 0. Publications discarded, wrapping -/
abbrev SNAP_LATE_PUB_COUNT : Fld := ⟨0x89, 0, 40⟩
/-- R563, bits 39:0, RO, reset 0. Publications truncated, wrapping -/
abbrev SNAP_TRUNC_CNT_COUNT : Fld := ⟨0x8a, 0, 40⟩
/-- R563, bits 39:0, RO, reset 0. Blocks completed STALE or FENCED, wrapping -/
abbrev SNAP_MISS_CNT_COUNT : Fld := ⟨0x8b, 0, 40⟩
/-- R564, bits 0:0, RW, reset 0. 1 enables the actions (R557) -/
abbrev FRAY_CTRL_EN : Fld := ⟨0x02, 0, 1⟩
/-- R564, bits 4:4, RO, reset 0. Copy of LWF.FRAY_EN bit k -/
abbrev FRAY_STATUS_PERMIT : Fld := ⟨0x03, 4, 1⟩
/-- R564, bits 3:0, RO, reset 0. Bit a: action a has EN = 1 -/
abbrev FRAY_STATUS_ARMED : Fld := ⟨0x03, 0, 4⟩
/-- R564, bits 3:0, RW / W1C, reset 0. Bit a: action a acted; a = 0 DROP, 1 REORDER, 2 CORRUPT, 3 DELAY -/
abbrev FRAY_IRQ_ACTED : Fld := ⟨0x05, 0, 4⟩
/-- R564, bits 27:27, RW, reset 0. 1 arms the action -/
abbrev FRAY_DROP_EN : Fld := ⟨0x80, 27, 1⟩
/-- R564, bits 26:26, RW, reset 0. 1 also selects LOCAL frames -/
abbrev FRAY_DROP_LOCAL : Fld := ⟨0x80, 26, 1⟩
/-- R564, bits 25:22, RW, reset 0. Bit 22 + t selects class t -/
abbrev FRAY_DROP_TC : Fld := ⟨0x80, 22, 4⟩
/-- R564, bits 21:21, RW, reset 0. 0 LINK, 1 NET -/
abbrev FRAY_DROP_LAYER : Fld := ⟨0x80, 21, 1⟩
/-- R564, bits 20:20, RW, reset 0. 0 count, 1 probability -/
abbrev FRAY_DROP_MODE : Fld := ⟨0x80, 20, 1⟩
/-- R564, bits 19:0, RW, reset 1. Count, or K in bits 4:0 (R558) -/
abbrev FRAY_DROP_N : Fld := ⟨0x80, 0, 20⟩
/-- R564, bits 27:27, RW, reset 0. 1 arms the action -/
abbrev FRAY_REORDER_EN : Fld := ⟨0x81, 27, 1⟩
/-- R564, bits 26:26, RW, reset 0. 1 also selects LOCAL frames -/
abbrev FRAY_REORDER_LOCAL : Fld := ⟨0x81, 26, 1⟩
/-- R564, bits 25:22, RW, reset 0. Bit 22 + t selects class t -/
abbrev FRAY_REORDER_TC : Fld := ⟨0x81, 22, 4⟩
/-- R564, bits 21:21, RW, reset 0. 0 LINK, 1 NET -/
abbrev FRAY_REORDER_LAYER : Fld := ⟨0x81, 21, 1⟩
/-- R564, bits 20:20, RW, reset 0. 0 count, 1 probability -/
abbrev FRAY_REORDER_MODE : Fld := ⟨0x81, 20, 1⟩
/-- R564, bits 19:0, RW, reset 1. Count, or K in bits 4:0 (R558) -/
abbrev FRAY_REORDER_N : Fld := ⟨0x81, 0, 20⟩
/-- R564, bits 27:27, RW, reset 0. 1 arms the action -/
abbrev FRAY_CORRUPT_EN : Fld := ⟨0x82, 27, 1⟩
/-- R564, bits 26:26, RW, reset 0. 1 also selects LOCAL frames -/
abbrev FRAY_CORRUPT_LOCAL : Fld := ⟨0x82, 26, 1⟩
/-- R564, bits 25:22, RW, reset 0. Bit 22 + t selects class t -/
abbrev FRAY_CORRUPT_TC : Fld := ⟨0x82, 22, 4⟩
/-- R564, bits 21:21, RW, reset 0. 0 LINK, 1 NET -/
abbrev FRAY_CORRUPT_LAYER : Fld := ⟨0x82, 21, 1⟩
/-- R564, bits 20:20, RW, reset 0. 0 count, 1 probability -/
abbrev FRAY_CORRUPT_MODE : Fld := ⟨0x82, 20, 1⟩
/-- R564, bits 19:0, RW, reset 1. Count, or K in bits 4:0 (R558) -/
abbrev FRAY_CORRUPT_N : Fld := ⟨0x82, 0, 20⟩
/-- R564, bits 27:27, RW, reset 0. 1 arms the action -/
abbrev FRAY_DELAY_EN : Fld := ⟨0x83, 27, 1⟩
/-- R564, bits 26:26, RW, reset 0. 1 also selects LOCAL frames -/
abbrev FRAY_DELAY_LOCAL : Fld := ⟨0x83, 26, 1⟩
/-- R564, bits 25:22, RW, reset 0. Bit 22 + t selects class t -/
abbrev FRAY_DELAY_TC : Fld := ⟨0x83, 22, 4⟩
/-- R564, bits 21:21, RW, reset 0. 0 LINK, 1 NET -/
abbrev FRAY_DELAY_LAYER : Fld := ⟨0x83, 21, 1⟩
/-- R564, bits 20:20, RW, reset 0. 0 count, 1 probability -/
abbrev FRAY_DELAY_MODE : Fld := ⟨0x83, 20, 1⟩
/-- R564, bits 19:0, RW, reset 1. Count, or K in bits 4:0 (R558) -/
abbrev FRAY_DELAY_N : Fld := ⟨0x83, 0, 20⟩
/-- R564, bits 15:0, RW, reset 100. Hold time in 10 ns -/
abbrev FRAY_DELAY_T_T : Fld := ⟨0x84, 0, 16⟩
/-- R564, bits 31:0, RW, reset 1. Generator seed; 0 acts as 1 -/
abbrev FRAY_SEED_SEED : Fld := ⟨0x85, 0, 32⟩
/-- R564, bits 39:0, RO, reset 0. Frames acted on by action a, wrapping -/
abbrev FRAY_ACT_CNT_COUNT (n : Nat) : Fld := ⟨0x88 + n, 0, 40⟩
/-- R599, bits 1:1, RWL, reset 1. Permit flit mode at 32 GT/s -/
abbrev PCIE_CTRL_FLIT32 : Fld := ⟨0x02, 1, 1⟩
/-- R599, bits 0:0, RW, reset 0. Set EP on completions of poisoned slots (R571) -/
abbrev PCIE_CTRL_POISON_EP : Fld := ⟨0x02, 0, 1⟩
/-- R599, bits 7:7, RO, reset 0. The function is in D3hot -/
abbrev PCIE_STATUS_D3 : Fld := ⟨0x03, 7, 1⟩
/-- R599, bits 6:6, RO, reset 0. The link runs in flit mode -/
abbrev PCIE_STATUS_FLIT : Fld := ⟨0x03, 6, 1⟩
/-- R599, bits 5:4, RO, reset 0. 0 × 1, 1 × 2, 2 × 4, 3 × 8 -/
abbrev PCIE_STATUS_WIDTH : Fld := ⟨0x03, 4, 2⟩
/-- R599, bits 3:1, RO, reset 0. 0 2.5, 1 5, 2 8, 3 16, 4 32, 5 64 GT/s -/
abbrev PCIE_STATUS_RATE : Fld := ⟨0x03, 1, 3⟩
/-- R599, bits 0:0, RO, reset 0. The data link layer is up -/
abbrev PCIE_STATUS_LINK_UP : Fld := ⟨0x03, 0, 1⟩
/-- R599, bits 5:5, RW / W1C, reset 0. An FLR or PERST# occurred -/
abbrev PCIE_IRQ_FLR : Fld := ⟨0x05, 5, 1⟩
/-- R599, bits 4:4, RW / W1C, reset 0. The link went down -/
abbrev PCIE_IRQ_LINK_DOWN : Fld := ⟨0x05, 4, 1⟩
/-- R599, bits 3:3, RW / W1C, reset 0. R572 -/
abbrev PCIE_IRQ_DRAM_NR : Fld := ⟨0x05, 3, 1⟩
/-- R599, bits 2:2, RW / W1C, reset 0. R571 -/
abbrev PCIE_IRQ_POISON : Fld := ⟨0x05, 2, 1⟩
/-- R599, bits 1:1, RW / W1C, reset 0. R570 -/
abbrev PCIE_IRQ_REFUSED : Fld := ⟨0x05, 1, 1⟩
/-- R599, bits 0:0, RW / W1C, reset 0. R570 -/
abbrev PCIE_IRQ_PARTIAL : Fld := ⟨0x05, 0, 1⟩
/-- R599, bits 7:0, WO, reset 0. Resend check for vector VEC (R580) -/
abbrev PCIE_VACK_VEC : Fld := ⟨0x80, 0, 8⟩
/-- R599, bits 31:0, WO, reset 0. Bit v fires vector 0xC0 + v; bits 39:32 reserved -/
abbrev PCIE_VFIRE0_FIRE : Fld := ⟨0x81, 0, 32⟩
/-- R599, bits 31:0, WO, reset 0. Bit v fires vector 0xE0 + v; bits 39:32 reserved -/
abbrev PCIE_VFIRE1_FIRE : Fld := ⟨0x82, 0, 32⟩
/-- R599, bits 31:16, RWL, reset 0x4080. Subsystem ID; bits 39:32 reserved -/
abbrev PCIE_SUBSYS_SSID : Fld := ⟨0x83, 16, 16⟩
/-- R599, bits 15:0, RWL, reset 0x1F4C. Subsystem Vendor ID -/
abbrev PCIE_SUBSYS_SSVID : Fld := ⟨0x83, 0, 16⟩
/-- R599, bits 33:32, RO, reset 0. 0 BAR0, 1 BAR2, 2 BAR4 -/
abbrev PCIE_HERR_BAR : Fld := ⟨0x84, 32, 2⟩
/-- R599, bits 31:0, RO, reset 0. Byte offset of the first byte of the slot of the last partial or refused write (R570) -/
abbrev PCIE_HERR_OFFSET : Fld := ⟨0x84, 0, 32⟩
/-- R599, bits 39:0, RO, reset 0. Partial writes, wrapping -/
abbrev PCIE_PARTIAL_CNT_COUNT : Fld := ⟨0x85, 0, 40⟩
/-- R599, bits 39:0, RO, reset 0. Refused writes, wrapping -/
abbrev PCIE_REFUSED_CNT_COUNT : Fld := ⟨0x86, 0, 40⟩
/-- R599, bits 39:0, RO, reset 0. Poisoned slots read, wrapping -/
abbrev PCIE_POISON_CNT_COUNT : Fld := ⟨0x87, 0, 40⟩
/-- R599, bits 29:0, RO, reset 0. Bit p: page p of cluster n requests and is routed to the host; bits 39:30 reserved -/
abbrev PCIE_CREQ_PAGES (n : Nat) : Fld := ⟨0x88 + n, 0, 30⟩
/-- R599, bits 28:0, RW, FLR, reset 0. Ring line offset of window line 0 (R578); bits 39:29 reserved -/
abbrev PCIE_HWIN_LINE : Fld := ⟨0x90, 0, 29⟩
/-- R599, bits 39:0, RO, reset 0. Departures from FROZEN, wrapping -/
abbrev PCIE_HWIN_STAT_EPOCH : Fld := ⟨0x91, 0, 40⟩
/-- R600, bits 2:2, RW / W1C, reset 0. A mailbox received a NAK -/
abbrev MBOX_IRQ_NAK : Fld := ⟨0x05, 2, 1⟩
/-- R600, bits 1:1, RW / W1C, reset 0. A message left -/
abbrev MBOX_IRQ_TXDONE : Fld := ⟨0x05, 1, 1⟩
/-- R600, bits 0:0, RW / W1C, reset 0. A message arrived -/
abbrev MBOX_IRQ_RX : Fld := ⟨0x05, 0, 1⟩
/-- R600, bits 1:1, RW, reset 0. 1 requests MSI-X vector 0x80 + m while RXCNT > 0 -/
abbrev MBOX_MCFG_VEC : Fld := ⟨0x10, 1, 1⟩
/-- R600, bits 0:0, RW, reset 0. 1 accepts messages -/
abbrev MBOX_MCFG_EN : Fld := ⟨0x10, 0, 1⟩
/-- R600, bits 39:39, WO, reset 0. 1 sends (R586) -/
abbrev MBOX_MTX_GO : Fld := ⟨0x11, 39, 1⟩
/-- R600, bits 26:20, RW, reset 0. Words, 1 to 99 -/
abbrev MBOX_MTX_LEN : Fld := ⟨0x11, 20, 7⟩
/-- R600, bits 19:14, RW, reset 0. Destination mailbox -/
abbrev MBOX_MTX_DMB : Fld := ⟨0x11, 14, 6⟩
/-- R600, bits 13:0, RW, reset 0. Destination node -/
abbrev MBOX_MTX_DST : Fld := ⟨0x11, 0, 14⟩
/-- R600, bits 12:11, RO, reset 0. Last send failure: 0 none, 1 BUSY, 2 LEN, 3 NOTJOINED -/
abbrev MBOX_MSTAT_TXERR : Fld := ⟨0x12, 11, 2⟩
/-- R600, bits 10:9, RO, reset 0. Cause of the last NAK -/
abbrev MBOX_MSTAT_NAK_CAUSE : Fld := ⟨0x12, 9, 2⟩
/-- R600, bits 8:8, W1C, reset 0. A NAK arrived -/
abbrev MBOX_MSTAT_NAKED : Fld := ⟨0x12, 8, 1⟩
/-- R600, bits 7:7, W1C, reset 0. The last message left -/
abbrev MBOX_MSTAT_TXDONE : Fld := ⟨0x12, 7, 1⟩
/-- R600, bits 6:6, RO, reset 0. A send runs -/
abbrev MBOX_MSTAT_TXBUSY : Fld := ⟨0x12, 6, 1⟩
/-- R600, bits 5:4, RO, reset 0. Next slot to fill -/
abbrev MBOX_MSTAT_WR : Fld := ⟨0x12, 4, 2⟩
/-- R600, bits 3:2, RO, reset 0. Next slot to read -/
abbrev MBOX_MSTAT_RD : Fld := ⟨0x12, 2, 2⟩
/-- R600, bits 3:3, WO, reset 0. A write of 1 frees slot RD (R587); reads as 0 -/
abbrev MBOX_MRXDONE_DONE : Fld := ⟨0x13, 3, 1⟩
/-- R600, bits 2:0, RO, reset 0. Slots full, 0 to 4 -/
abbrev MBOX_MRXDONE_RXCNT : Fld := ⟨0x13, 0, 3⟩
/-- R600, bits 25:0, RWL, reset 0. First DRAM line of the mailboxes; bits 39:26 reserved -/
abbrev MBOX_MBASE_LINE : Fld := ⟨0x80, 0, 26⟩
/-- R600, bits 31:0, RO, reset 0. Bit m: RXCNT of mailbox m > 0; bits 39:32 reserved -/
abbrev MBOX_RXMB0_MB : Fld := ⟨0x81, 0, 32⟩
/-- R600, bits 31:0, RO, reset 0. Bit m: mailbox 32 + m; bits 39:32 reserved -/
abbrev MBOX_RXMB1_MB : Fld := ⟨0x82, 0, 32⟩
/-- R601, bits 1:1, RW, reset 0. Accept every destination address -/
abbrev ETH_CTRL_PROMISC : Fld := ⟨0x02, 1, 1⟩
/-- R601, bits 0:0, RW, reset 0. 1 enables the port -/
abbrev ETH_CTRL_EN : Fld := ⟨0x02, 0, 1⟩
/-- R601, bits 2:2, RO, reset 0. Clause 49 high bit error rate -/
abbrev ETH_STATUS_HI_BER : Fld := ⟨0x03, 2, 1⟩
/-- R601, bits 1:1, RO, reset 0. Clause 49 block lock -/
abbrev ETH_STATUS_BLOCK_LOCK : Fld := ⟨0x03, 1, 1⟩
/-- R601, bits 0:0, RO, reset 0. BLOCK_LOCK = 1 and HI_BER = 0 -/
abbrev ETH_STATUS_LINK : Fld := ⟨0x03, 0, 1⟩
/-- R601, bits 4:4, RW / W1C, reset 0. A timestamp was lost -/
abbrev ETH_IRQ_TXTS_OVF : Fld := ⟨0x05, 4, 1⟩
/-- R601, bits 3:3, RW / W1C, reset 0. A timestamp was pushed -/
abbrev ETH_IRQ_TXTS : Fld := ⟨0x05, 3, 1⟩
/-- R601, bits 2:2, RW / W1C, reset 0. A frame was dropped -/
abbrev ETH_IRQ_DROP : Fld := ⟨0x05, 2, 1⟩
/-- R601, bits 1:1, RW / W1C, reset 0. A receive record was written -/
abbrev ETH_IRQ_RX : Fld := ⟨0x05, 1, 1⟩
/-- R601, bits 0:0, RW / W1C, reset 0. LINK changed -/
abbrev ETH_IRQ_LINK_CHG : Fld := ⟨0x05, 0, 1⟩
/-- R601, bits 39:0, RW, reset 0. Address bits 39:0; low word of a pair (R43) -/
abbrev ETH_MCAST_L_MAC : Fld := ⟨0x10, 0, 40⟩
/-- R601, bits 8:8, RW, reset 0. 1 enables the entry -/
abbrev ETH_MCAST_H_EN : Fld := ⟨0x11, 8, 1⟩
/-- R601, bits 7:0, RW, reset 0. Address bits 47:40 -/
abbrev ETH_MCAST_H_MAC : Fld := ⟨0x11, 0, 8⟩
/-- R601, bits 39:0, RW, reset 0. Station address, as a pair -/
abbrev ETH_MAC_L_MAC : Fld := ⟨0x80, 0, 40⟩
/-- R601, bits 7:0, RW, reset 0. Station address, as a pair -/
abbrev ETH_MAC_H_MAC : Fld := ⟨0x81, 0, 8⟩
/-- R601, bits 12:12, RW, reset 0. VID filter (R589); bits 39:13 reserved -/
abbrev ETH_VLAN_EN : Fld := ⟨0x82, 12, 1⟩
/-- R601, bits 11:0, RW, reset 0. Accepted VID -/
abbrev ETH_VLAN_VID : Fld := ⟨0x82, 0, 12⟩
/-- R601, bits 31:0, RW, reset 0. Service address; bits 39:32 reserved -/
abbrev ETH_IPV4_ADDR : Fld := ⟨0x83, 0, 32⟩
/-- R601, bits 31:0, RW, reset 0. Register k: address bits 32k + 31 to 32k -/
abbrev ETH_IPV6_ADDR (n : Nat) : Fld := ⟨0x84 + n, 0, 32⟩
/-- R601, bits 31:0, RW, reset 0. Ring base in device SRAM -/
abbrev ETH_RXBASE_ADDR : Fld := ⟨0x88, 0, 32⟩
/-- R601, bits 31:0, RW, reset 0. Ring base in device SRAM -/
abbrev ETH_TXBASE_ADDR : Fld := ⟨0x8c, 0, 32⟩
/-- R601, bits 15:0, RW, reset 0. Ring size; 0 disables the ring -/
abbrev ETH_RXSIZE_WORDS : Fld := ⟨0x89, 0, 16⟩
/-- R601, bits 15:0, RW, reset 0. Ring size; 0 disables the ring -/
abbrev ETH_TXSIZE_WORDS : Fld := ⟨0x8d, 0, 16⟩
/-- R601, bits 15:0, RO, reset 0. Written by the device -/
abbrev ETH_RXWR_PTR : Fld := ⟨0x8a, 0, 16⟩
/-- R601, bits 15:0, RW, reset 0. Written by software -/
abbrev ETH_RXRD_PTR : Fld := ⟨0x8b, 0, 16⟩
/-- R601, bits 15:0, RW, reset 0. Written by software -/
abbrev ETH_TXWR_PTR : Fld := ⟨0x8e, 0, 16⟩
/-- R601, bits 15:0, RO, reset 0. Written by the device -/
abbrev ETH_TXRD_PTR : Fld := ⟨0x8f, 0, 16⟩
/-- R601, bits 39:0, RO, reset 0. Timestamp bits 39:0; a read removes the entry -/
abbrev ETH_TXTS_L_TIME : Fld := ⟨0x90, 0, 40⟩
/-- R601, bits 32:32, RO, reset 0. The captured entry is valid; bits 39:33 reserved -/
abbrev ETH_TXTS_H_VALID : Fld := ⟨0x91, 32, 1⟩
/-- R601, bits 31:24, RO, reset 0. TAG of the record -/
abbrev ETH_TXTS_H_TAG : Fld := ⟨0x91, 24, 8⟩
/-- R601, bits 23:0, RO, reset 0. Timestamp bits 63:40 -/
abbrev ETH_TXTS_H_TIME : Fld := ⟨0x91, 0, 24⟩
/-- R601, bits 39:0, RW, reset 0. Signed 64-bit offset in ns (R592), as a pair -/
abbrev ETH_PTPOFS_L_NS : Fld := ⟨0x92, 0, 40⟩
/-- R601, bits 23:0, RW, reset 0. Signed 64-bit offset in ns (R592), as a pair -/
abbrev ETH_PTPOFS_H_NS : Fld := ⟨0x93, 0, 24⟩
/-- R601, bits 39:0, RO, reset 0. Frames accepted, dropped and sent, wrapping -/
abbrev ETH_RX_CNT_COUNT : Fld := ⟨0x94, 0, 40⟩
/-- R601, bits 39:0, RO, reset 0. Frames accepted, dropped and sent, wrapping -/
abbrev ETH_DROP_CNT_COUNT : Fld := ⟨0x95, 0, 40⟩
/-- R601, bits 39:0, RO, reset 0. Frames accepted, dropped and sent, wrapping -/
abbrev ETH_TX_CNT_COUNT : Fld := ⟨0x96, 0, 40⟩
/-- R601, bits 39:38, WO, reset 0. 0 address, 1 write, 2 read, 3 read with increment; a write starts the frame -/
abbrev ETH_MDIO_OP : Fld := ⟨0x98, 38, 2⟩
/-- R601, bits 37:37, WO, reset 0. 1 clause 45, 0 clause 22 -/
abbrev ETH_MDIO_C45 : Fld := ⟨0x98, 37, 1⟩
/-- R601, bits 36:32, WO, reset 0. Port or PHY address -/
abbrev ETH_MDIO_PRTAD : Fld := ⟨0x98, 32, 5⟩
/-- R601, bits 31:27, WO, reset 0. Device or register address -/
abbrev ETH_MDIO_DEVAD : Fld := ⟨0x98, 27, 5⟩
/-- R601, bits 15:0, WO, reset 0. Write data or address -/
abbrev ETH_MDIO_DATA : Fld := ⟨0x98, 0, 16⟩
/-- R601, bits 16:16, RO, reset 0. A frame runs; bits 39:17 reserved -/
abbrev ETH_MDIO_STAT_BUSY : Fld := ⟨0x99, 16, 1⟩
/-- R601, bits 15:0, RO, reset 0. Last read data -/
abbrev ETH_MDIO_STAT_DATA : Fld := ⟨0x99, 0, 16⟩
/-- R602, bits 1:1, RW, reset 1. Check ACCESS in OPEN -/
abbrev SVC_CTRL_AUTH : Fld := ⟨0x02, 1, 1⟩
/-- R602, bits 0:0, RW, reset 0. 1 runs the engine; 0 closes every session with ADMIN -/
abbrev SVC_CTRL_EN : Fld := ⟨0x02, 0, 1⟩
/-- R602, bits 12:0, RO, reset 0. Sessions open -/
abbrev SVC_STATUS_OPEN : Fld := ⟨0x03, 0, 13⟩
/-- R602, bits 2:2, RW / W1C, reset 0. A DATA was discarded (R598) -/
abbrev SVC_IRQ_SKIP : Fld := ⟨0x05, 2, 1⟩
/-- R602, bits 1:1, RW / W1C, reset 0. A session closed -/
abbrev SVC_IRQ_CLOSED : Fld := ⟨0x05, 1, 1⟩
/-- R602, bits 0:0, RW / W1C, reset 0. An OPEN was refused -/
abbrev SVC_IRQ_OPEN_REF : Fld := ⟨0x05, 0, 1⟩
/-- R602, bits 39:39, RO, reset 0. The session is open -/
abbrev SVC_SSTAT_OPEN : Fld := ⟨0x10, 39, 1⟩
/-- R602, bits 38:38, RO, reset 0. Port: 0 ETH0, 1 ETH1 -/
abbrev SVC_SSTAT_PORT : Fld := ⟨0x10, 38, 1⟩
/-- R602, bits 37:37, RO, reset 0. The client uses IPv6 -/
abbrev SVC_SSTAT_IPV6 : Fld := ⟨0x10, 37, 1⟩
/-- R602, bits 36:36, RO, reset 0. The subscription holds snapshot references -/
abbrev SVC_SSTAT_SNAP : Fld := ⟨0x10, 36, 1⟩
/-- R602, bits 35:28, RO, reset 0. References subscribed -/
abbrev SVC_SSTAT_COUNT : Fld := ⟨0x10, 28, 8⟩
/-- R602, bits 27:12, RO, reset 0. Decimation -/
abbrev SVC_SSTAT_DEC : Fld := ⟨0x10, 12, 16⟩
/-- R602, bits 39:0, RO, reset 0. DATA sent, wrapping -/
abbrev SVC_SCNT_COUNT : Fld := ⟨0x11, 0, 40⟩
/-- R602, bits 0:0, WO, reset 0. 1 closes the session and sends CLOSE with ADMIN; bits 39:1 reserved -/
abbrev SVC_SCLOSE_CLOSE : Fld := ⟨0x12, 0, 1⟩
/-- R602, bits 15:0, RWL, reset 40,480. Service UDP port; bits 39:16 reserved -/
abbrev SVC_PORT_UDP : Fld := ⟨0x80, 0, 16⟩
/-- R602, bits 31:0, WO, reset 0. Access code compared under AUTH; bits 39:32 reserved -/
abbrev SVC_ACCESS_CODE : Fld := ⟨0x81, 0, 32⟩
/-- R602, bits 12:0, RWL, reset 4,096. Session limit; above 4,096 acts as 4,096 -/
abbrev SVC_MAXSESS_N : Fld := ⟨0x82, 0, 13⟩
/-- R602, bits 39:0, RO, reset 0. DATA discarded, wrapping -/
abbrev SVC_SKIP_CNT_COUNT : Fld := ⟨0x83, 0, 40⟩
/-- R602, bits 39:0, RO, reset 0. Datagrams answered with ERROR, wrapping -/
abbrev SVC_BAD_CNT_COUNT : Fld := ⟨0x84, 0, 40⟩
/-- R631, bits 1:1, RWL, reset 1. Cluster watchdog expiry resets the cluster (R611) -/
abbrev CLU_CTRL_CWDT_RST : Fld := ⟨0x02, 1, 1⟩
/-- R631, bits 0:0, RW, reset 0. 1 requests SAFE (R628) -/
abbrev CLU_CTRL_SAFE : Fld := ⟨0x02, 0, 1⟩
/-- R631, bits 11:8, RO, reset 0xF; 0xE in CC0 after a device or power-on reset. Bit 8 + k: core k is held -/
abbrev CLU_STATUS_HELD : Fld := ⟨0x03, 8, 4⟩
/-- R631, bits 7:4, RO, reset 0. Bit 4 + k: core k waits in sys.wait -/
abbrev CLU_STATUS_WAITING : Fld := ⟨0x03, 4, 4⟩
/-- R631, bits 2:0, RO, reset 0. 0 RUN, 1 SAFE, 2 LBIST, 3 GATED -/
abbrev CLU_STATUS_STATE : Fld := ⟨0x03, 0, 3⟩
/-- R632, bits 0:0, RW, reset 0. Software device-wide forced safe state -/
abbrev DEV_CTRL_SAFE_SW : Fld := ⟨0x02, 0, 1⟩
/-- R632, bits 6:2, RO, reset 0. Bit 2 clock, 3 reset request, 4 SAFE_N, 5 monitor, 6 software -/
abbrev DEV_STATUS_SAFE_SRC : Fld := ⟨0x03, 2, 5⟩
/-- R632, bits 1:1, RO, reset 0. R617 -/
abbrev DEV_STATUS_RECOVERY : Fld := ⟨0x03, 1, 1⟩
/-- R632, bits 0:0, RO, reset 0. A device-wide forced safe state holds -/
abbrev DEV_STATUS_SAFE_ACT : Fld := ⟨0x03, 0, 1⟩
/-- R632, bits 1:1, RW / W1C, reset 0. A cause of a device-wide forced safe state began, whether or not another already held (R618) -/
abbrev DEV_IRQ_SAFE : Fld := ⟨0x05, 1, 1⟩
/-- R632, bits 0:0, RW / W1C, reset 0. ACC_LOG was written (R36) -/
abbrev DEV_IRQ_ACC : Fld := ⟨0x05, 0, 1⟩
/-- R632, bits 39:36, RO, reset 0. 0–7, or 0xF for a device page -/
abbrev DEV_ACC_LOG_CLUSTER : Fld := ⟨0x80, 36, 4⟩
/-- R632, bits 35:24, RO, reset 0. Page index -/
abbrev DEV_ACC_LOG_PAGE : Fld := ⟨0x80, 24, 12⟩
/-- R632, bits 23:16, RO, reset 0. Word offset -/
abbrev DEV_ACC_LOG_OFFSET : Fld := ⟨0x80, 16, 8⟩
/-- R632, bits 9:8, RO, reset 0. Ring presented -/
abbrev DEV_ACC_LOG_RING : Fld := ⟨0x80, 8, 2⟩
/-- R632, bits 7:0, RO, reset 0. Requester ID -/
abbrev DEV_ACC_LOG_REQ : Fld := ⟨0x80, 0, 8⟩
/-- R632, bits 30:16, RO, reset 0. Deferral of the last reset in µs (R608) -/
abbrev DEV_RCAUSE_DEFER_US : Fld := ⟨0x81, 16, 15⟩
/-- R632, bits 7:0, RO, reset 0x01. Bit 0 POR, 1 PIN, 2 DWDT, 3 CLOCK, 4 SW, 5 DOMAIN, 6 WAKE, 7 MON (R609, R610) -/
abbrev DEV_RCAUSE_CAUSE : Fld := ⟨0x81, 0, 8⟩
/-- R632, bits 31:0, RW, reset 0. Start address of cluster n; bits 39:32 reserved -/
abbrev DEV_CVEC_ADDR (n : Nat) : Fld := ⟨0x88 + n, 0, 32⟩
/-- R632, bits 7:0, RW, reset 0. Bit n: start CCn after a cluster reset; bits 39:8 reserved -/
abbrev DEV_CAUTO_AUTO : Fld := ⟨0x90, 0, 8⟩
/-- R632, bits 31:0, WO, reset 0. Bit 4n + k releases core k of CCn (R612); bits 39:32 reserved -/
abbrev DEV_CGO_GO : Fld := ⟨0x91, 0, 32⟩
/-- R632, bits 31:0, RO, reset 0xFFFF_FFFE. Bit 4n + k: core k of CCn is held; bits 39:32 reserved -/
abbrev DEV_CHELD_HELD : Fld := ⟨0x92, 0, 32⟩
/-- R633, bits 0:0, RO, reset 0. A device reset waits (R608) -/
abbrev RST_STATUS_PENDING : Fld := ⟨0x03, 0, 1⟩
/-- R633, bits 39:24, WO, reset 0. 0x5253 (R606) -/
abbrev RST_CMD_KEY : Fld := ⟨0x80, 24, 16⟩
/-- R633, bits 8:8, WO, reset 0. Device reset -/
abbrev RST_CMD_DEVICE : Fld := ⟨0x80, 8, 1⟩
/-- R633, bits 7:0, WO, reset 0. Bit n: reset CCn -/
abbrev RST_CMD_CLUSTER : Fld := ⟨0x80, 0, 8⟩
/-- R633, bits 2:0, RO, reset 0. Last cluster reset: 0 none, 1 CWDT, 2 SW, 3 DOMAIN, 4 LBIST; bits 39:3 reserved -/
abbrev RST_CRCAUSE_CAUSE (n : Nat) : Fld := ⟨0x88 + n, 0, 3⟩
/-- R633, bits 39:0, RO, reset 0. Cluster resets of CCn, wrapping -/
abbrev RST_CRCNT_COUNT (n : Nat) : Fld := ⟨0x90 + n, 0, 40⟩
/-- R634, bits 7:0, RW, reset 0. Bit n: gate CCn (R621) -/
abbrev PWR_CTRL_HALT_MASK : Fld := ⟨0x02, 0, 8⟩
/-- R634, bits 17:10, RO, reset 0. Bit 10 + n: gating of CCn waits -/
abbrev PWR_STATUS_PENDING : Fld := ⟨0x03, 10, 8⟩
/-- R634, bits 9:2, RO, reset 0. Bit 2 + n: CCn is gated -/
abbrev PWR_STATUS_GATED : Fld := ⟨0x03, 2, 8⟩
/-- R634, bits 1:0, RO, reset 0. 0 RUN, 1 IDLE, 2 HALT -/
abbrev PWR_STATUS_STATE : Fld := ⟨0x03, 0, 2⟩
/-- R634, bits 1:1, RW / W1C, reset 0. A DEEP command was refused -/
abbrev PWR_IRQ_DEEP_REF : Fld := ⟨0x05, 1, 1⟩
/-- R634, bits 0:0, RW / W1C, reset 0. An AOW wake cleared HALT_MASK -/
abbrev PWR_IRQ_WAKE : Fld := ⟨0x05, 0, 1⟩
/-- R634, bits 39:24, WO, reset 0. 0x4450 -/
abbrev PWR_CMD_KEY : Fld := ⟨0x80, 24, 16⟩
/-- R634, bits 0:0, WO, reset 0. 1 enters DEEP (R622) -/
abbrev PWR_CMD_DEEP : Fld := ⟨0x80, 0, 1⟩
/-- R635, bits 15:0, RO, reset 0. Bit q: queue q runs an activity -/
abbrev MAINT_STATUS_BUSY : Fld := ⟨0x03, 0, 16⟩
/-- R635, bits 11:8, RO, reset 0. 0 none, 1 read-back, 2 calibration, 3 logic BIST, 4 memory BIST, 5 dump, 6 scrub, 7 erase, 8 verification -/
abbrev MAINT_QSTAT_RUN_KIND : Fld := ⟨0x10, 8, 4⟩
/-- R635, bits 4:0, RO, reset 0. Requests waiting -/
abbrev MAINT_QSTAT_DEPTH : Fld := ⟨0x10, 0, 5⟩
/-- R635, bits 39:0, RO, reset 0. Longest wait since reset, in µs, saturating -/
abbrev MAINT_QWAIT_US : Fld := ⟨0x11, 0, 40⟩
/-- R636, bits 15:0, RW / W1C, reset 0. Bit s: sensor s left LO to HI (R630) -/
abbrev MON_IRQ_ALARM : Fld := ⟨0x05, 0, 16⟩
/-- R636, bits 15:0, RO, reset 0. Last sample, signed for temperatures -/
abbrev MON_VALUE_V : Fld := ⟨0x10, 0, 16⟩
/-- R636, bits 15:0, RWL, reset 0x7FFF. Upper limit; bits 39:16 reserved -/
abbrev MON_HI_V : Fld := ⟨0x11, 0, 16⟩
/-- R636, bits 15:0, RWL, reset 0x8000 for temperatures, 0 for supplies. Lower limit; bits 39:16 reserved -/
abbrev MON_LO_V : Fld := ⟨0x12, 0, 16⟩
/-- R636, bits 1:0, RWL, reset 0. Alarm action (R630); bits 39:2 reserved -/
abbrev MON_MCFG_ACT : Fld := ⟨0x13, 0, 2⟩
/-- R637, bits 6:6, RO, reset 0. A BIST runs -/
abbrev BIST_STATUS_BUSY : Fld := ⟨0x03, 6, 1⟩
/-- R637, bits 5:0, RO, reset 0. Target of the running BIST -/
abbrev BIST_STATUS_TARGET : Fld := ⟨0x03, 0, 6⟩
/-- R637, bits 2:2, RW / W1C, reset 0. A request was refused (R627) -/
abbrev BIST_IRQ_REFUSED : Fld := ⟨0x05, 2, 1⟩
/-- R637, bits 1:1, RW / W1C, reset 0. A BIST failed -/
abbrev BIST_IRQ_FAIL : Fld := ⟨0x05, 1, 1⟩
/-- R637, bits 0:0, RW / W1C, reset 0. A BIST completed -/
abbrev BIST_IRQ_DONE : Fld := ⟨0x05, 0, 1⟩
/-- R637, bits 1:1, RW, reset 0. Memory targets: 1 marks the target idle (R629); reserved for targets 0–7 -/
abbrev BIST_TCFG_IDLE : Fld := ⟨0x10, 1, 1⟩
/-- R637, bits 0:0, WO, reset 0. 1 requests BIST of the target -/
abbrev BIST_TCFG_REQ : Fld := ⟨0x10, 0, 1⟩
/-- R637, bits 7:4, RO, reset 0. Refusal: 0 none, 1 BUSY, 2 NOT_IDLE -/
abbrev BIST_TSTAT_CAUSE : Fld := ⟨0x11, 4, 4⟩
/-- R637, bits 3:2, RO, reset 0. 0 none, 1 PASS, 2 FAIL, 3 REFUSED -/
abbrev BIST_TSTAT_RESULT : Fld := ⟨0x11, 2, 2⟩
/-- R637, bits 1:1, RO, reset 0. Waits in the scheduler -/
abbrev BIST_TSTAT_QUEUED : Fld := ⟨0x11, 1, 1⟩
/-- R637, bits 0:0, RO, reset 0. Runs -/
abbrev BIST_TSTAT_RUNNING : Fld := ⟨0x11, 0, 1⟩
/-- R637, bits 31:0, RO, reset 0. First failing word address; 0 for logic BIST; bits 39:32 reserved -/
abbrev BIST_TFAIL_ADDR : Fld := ⟨0x12, 0, 32⟩
/-- R638, bits 0:0, RO, reset 0. BOOT_KEY_HASH is not all zero -/
abbrev SEC_STATUS_SECURE : Fld := ⟨0x03, 0, 1⟩
/-- R638, bits 0:0, RW / W1C, reset 0. A verification completed -/
abbrev SEC_IRQ_VDONE : Fld := ⟨0x05, 0, 1⟩
/-- R638, bits 1:1, WO, reset 0. 0 A, 1 B -/
abbrev SEC_VCMD_SLOT : Fld := ⟨0x80, 1, 1⟩
/-- R638, bits 0:0, WO, reset 0. 1 requests verification of SLOT; no effect while QUEUED or BUSY -/
abbrev SEC_VCMD_GO : Fld := ⟨0x80, 0, 1⟩
/-- R638, bits 17:11, RO, reset 0. RIDX of the image checked -/
abbrev SEC_VSTAT_RIDX : Fld := ⟨0x81, 11, 7⟩
/-- R638, bits 10:10, RO, reset 0. Slot checked -/
abbrev SEC_VSTAT_SLOT : Fld := ⟨0x81, 10, 1⟩
/-- R638, bits 9:6, RO, reset 0. 0 accepted, else R615 -/
abbrev SEC_VSTAT_CAUSE : Fld := ⟨0x81, 6, 4⟩
/-- R638, bits 2:2, RO, reset 0. The last request completed -/
abbrev SEC_VSTAT_DONE : Fld := ⟨0x81, 2, 1⟩
/-- R638, bits 1:1, RO, reset 0. Verification runs -/
abbrev SEC_VSTAT_BUSY : Fld := ⟨0x81, 1, 1⟩
/-- R638, bits 0:0, RO, reset 0. Waits in the scheduler -/
abbrev SEC_VSTAT_QUEUED : Fld := ⟨0x81, 0, 1⟩
/-- R638, bits 9:6, RO, reset 0. Boot rejection cause of slot B; 0 none -/
abbrev SEC_BOOTSTAT_CAUSE_B : Fld := ⟨0x82, 6, 4⟩
/-- R638, bits 5:2, RO, reset 0. Boot rejection cause of slot A -/
abbrev SEC_BOOTSTAT_CAUSE_A : Fld := ⟨0x82, 2, 4⟩
/-- R638, bits 1:1, RO, reset 0. Slot started -/
abbrev SEC_BOOTSTAT_SLOT : Fld := ⟨0x82, 1, 1⟩
/-- R638, bits 0:0, RO, reset 0. The boot flow started an image -/
abbrev SEC_BOOTSTAT_STARTED : Fld := ⟨0x82, 0, 1⟩
/-- R662, bits 2:2, RO, reset 0. The TAP holds DAPACC -/
abbrev DBG_STATUS_ATTACHED : Fld := ⟨0x03, 2, 1⟩
/-- R662, bits 1:0, RO, reset 0. Copy of LWF.DEBUG_POLICY -/
abbrev DBG_STATUS_POLICY : Fld := ⟨0x03, 0, 2⟩
/-- R662, bits 31:0, W1S, reset 0. Bit 4n + k halts core k of CCn at its next boundary when POLICY is OPEN; bits 39:32 reserved -/
abbrev DBG_HALT_REQ : Fld := ⟨0x80, 0, 32⟩
/-- R662, bits 31:0, WO, reset 0. Bit 4n + k resumes that core and clears its HALT bit; bits 39:32 reserved -/
abbrev DBG_RESUME_GO : Fld := ⟨0x81, 0, 32⟩
/-- R662, bits 31:0, RO, reset 0. Bit 4n + k: the core is halted by the debugger; bits 39:32 reserved -/
abbrev DBG_HALTED_CORES : Fld := ⟨0x82, 0, 32⟩
/-- R662, bits 2:0, RO, reset Sampled. BOOT2–BOOT0 (R660); bits 39:3 reserved -/
abbrev DBG_BOOTPINS_PINS : Fld := ⟨0x83, 0, 3⟩
/-- R662, bits 2:0, RW, reset 0. 0 low, 1 PERI_CLK / 16, 2 DTIME / 64, 3 AON clock, 4 STATUS.SAFE_ACT of DEV, 5–7 act as 0; bits 39:3 reserved -/
abbrev DBG_MONSEL_SEL : Fld := ⟨0x84, 0, 3⟩
/-- R663, bits 5:1, RW, reset 0. Requester ID of the traced core -/
abbrev TRACE_CTRL_CORE : Fld := ⟨0x02, 1, 5⟩
/-- R663, bits 0:0, RW, reset 0. 1 enables the trace port -/
abbrev TRACE_CTRL_EN : Fld := ⟨0x02, 0, 1⟩
/-- R663, bits 6:0, RO, reset 0. Messages in the FIFO -/
abbrev TRACE_STATUS_FILL : Fld := ⟨0x03, 0, 7⟩
/-- R663, bits 0:0, RW / W1C, reset 0. A message was dropped (R661) -/
abbrev TRACE_IRQ_OVF : Fld := ⟨0x05, 0, 1⟩
/-- R37, bits 0:0, W1S, reset 0. page lock -/
abbrev LOCK_BIT : Fld := ⟨0x07, 0, 1⟩
/-- R98, bits 39:0, RO, reset 0. completed conversions -/
abbrev ADC_CONV_CNT_COUNT : Fld := ⟨0x80, 0, 40⟩
/-- R101, bits 0:0, RW / W1C, reset 0.  -/
abbrev ADC_S_IRQ_CAL_FAIL : Fld := ⟨0x05, 0, 1⟩
/-- R101, bits 1:1, RW / W1C, reset 0.  -/
abbrev ADC_S_IRQ_NO_SPARE : Fld := ⟨0x05, 1, 1⟩
/-- R101, bits 2:2, RW / W1C, reset 0.  -/
abbrev ADC_S_IRQ_RB_DONE : Fld := ⟨0x05, 2, 1⟩
/-- R101, bits 3:3, RW / W1C, reset 0.  -/
abbrev ADC_S_IRQ_RB_FAIL : Fld := ⟨0x05, 3, 1⟩
/-- R100, bits 39:0, RO, reset 0. Q8.31 result -/
abbrev ADC_SEQ_RESULT_VALUE : Fld := ⟨0x12, 0, 40⟩
/-- R176, bits 35:35, RW / W1C, reset 0.  -/
abbrev SEAM_IRQ_DROP : Fld := ⟨0x05, 35, 1⟩
/-- R176, bits 34:34, RW / W1C, reset 0.  -/
abbrev SEAM_IRQ_COINC : Fld := ⟨0x05, 34, 1⟩
/-- R176, bits 33:33, RW / W1C, reset 0.  -/
abbrev SEAM_IRQ_GLOBAL : Fld := ⟨0x05, 33, 1⟩
/-- R176, bits 32:32, RW / W1C, reset 0.  -/
abbrev SEAM_IRQ_ROUTE_ERR : Fld := ⟨0x05, 32, 1⟩
/-- R176, bits 31:0, RW / W1C, reset 0.  -/
abbrev SEAM_IRQ_FLAG : Fld := ⟨0x05, 0, 32⟩
/-- R100, bits 39:0, RW, reset 0x00_8000_0000.  -/
abbrev ADC_SEQ_GAIN_VALUE : Fld := ⟨0x14, 0, 40⟩
/-- R100, bits 39:0, RW, reset 0.  -/
abbrev ADC_SEQ_OFFSET_VALUE : Fld := ⟨0x15, 0, 40⟩
/-- R103, bits 39:0, RW, reset 0x00_8000_0000.  -/
abbrev SDF_GAIN_VALUE : Fld := ⟨0x11, 0, 40⟩
/-- R103, bits 39:0, RW, reset 0.  -/
abbrev SDF_OFFSET_VALUE : Fld := ⟨0x14, 0, 40⟩
/-- R103, bits 39:0, RW, reset 0x00_8000_0000.  -/
abbrev SDF_SC_HI_VALUE : Fld := ⟨0x16, 0, 40⟩
/-- R103, bits 39:0, RW, reset 0xFF_8000_0000.  -/
abbrev SDF_SC_LO_VALUE : Fld := ⟨0x17, 0, 40⟩

end Sys2Proof.Machine
end

