-- ==== Sys2Proof/Machine/Operands.lean ====
section
/-! DEFINITION. Operand forms: bit fields of words, sign extension, byte order, saturation and rounding, shared by every
unit (R4, R10, R11 and the rounding rules of the unit that uses them). -/

namespace Sys2Proof.Machine

open Sys2Proof

/-- The word that holds `n` modulo 2^40. -/
def w40 (n : Nat) : Word := BitVec.ofNat 40 n

/-- The word that holds `z` modulo 2^40 in two's complement. -/
def w40i (z : Int) : Word := BitVec.ofInt 40 z

/-- Bits lo + w − 1 down to lo of a number. -/
def bitsOf (n lo w : Nat) : Nat := (n >>> lo) % 2 ^ w

/-- Bit `i` of a number. -/
def bitOf (n i : Nat) : Bool := n.testBit i

/-- A Boolean as a bit. -/
def b2n (b : Bool) : Nat := if b then 1 else 0

/-- The number with bits lo + w − 1 down to lo replaced by `v`. -/
def withBits (n lo w v : Nat) : Nat :=
  n - bitsOf n lo w * 2 ^ lo + (v % 2 ^ w) * 2 ^ lo

/-- The two's-complement value of the low `w` bits of `n`. -/
def sx (w n : Nat) : Int :=
  let m := n % 2 ^ w
  if w = 0 then 0 else if m < 2 ^ (w - 1) then (m : Int) else (m : Int) - 2 ^ w

/-- The low `w` bits of the two's complement of `z`. -/
def unsx (w : Nat) (z : Int) : Nat := (z % (2 ^ w : Int)).toNat

/-- Limits of an n-bit two's-complement number. -/
def smax (n : Nat) : Int := 2 ^ (n - 1) - 1
def smin (n : Nat) : Int := -(2 ^ (n - 1))

/-- `z` limited to the n-bit signed range. -/
def satS (n : Nat) (z : Int) : Int := if z > smax n then smax n else if z < smin n then smin n else z

/-- Whether `z` lies outside the n-bit signed range. -/
def ovfS (n : Nat) (z : Int) : Bool := z > smax n || z < smin n

/-- Division by a power of two rounding to nearest, a tie toward plus infinity. -/
def roundShr (z : Int) (n : Nat) : Int := if n = 0 then z else (z + 2 ^ (n - 1)) / (2 ^ n : Int)

/-- A counter of `w` bits that stops at its largest value. -/
def satInc (w n : Nat) : Nat := if n + 1 < 2 ^ w then n + 1 else 2 ^ w - 1

/-- R4. The five bytes of a word, least significant first. -/
def wordBytes (w : Word) : List Nat :=
  [w.toNat % 256, w.toNat / 256 % 256, w.toNat / 65536 % 256, w.toNat / 16777216 % 256, w.toNat / 4294967296 % 256]

/-- R4. The word carried by five bytes, least significant first. -/
def wordOfBytes (bs : List Nat) : Word := w40 (bs.take 5 |>.foldr (fun b n => n * 256 + b % 256) 0)

/-- The number of ones among the low `w` bits. -/
def popCount (w n : Nat) : Nat := (List.range w).foldl (fun k i => if n.testBit i then k + 1 else k) 0

/-- One reflected CRC-32C step over a byte (R169). -/
def crcByte (crc b : Nat) : Nat :=
  (List.range 8).foldl (fun c _ => if c % 2 = 1 then (c / 2) ^^^ 0x82F63B78 else c / 2) (crc ^^^ b)

/-- The CRC-32C register after a list of bytes (R169). -/
def crcBytes (crc : Nat) (bs : List Nat) : Nat := bs.foldl crcByte crc

/-- The first `n` items of a list, item `k` replaced; `d` stands for an item the list lacks. -/
def setN {α : Type} (n : Nat) (d : α) (l : List α) (k : Nat) (v : α) : List α :=
  (List.range n).map (fun i => if i = k then v else l.getD i d)

end Sys2Proof.Machine
end

