-- ==== Sys2Proof/Machine/RegTable.lean ====
section
/-! DEFINITION. The register map: for each kind of page, every register's offset, and for each of its fields the
lowest bit, the width, the access code of R13 and the reset value of its table (R14). -/

namespace Sys2Proof.Machine

/-- Registers of the COMMON page layout. -/
def regsCommon : List RegDef :=
  [⟨0x06, 1, [⟨0, 8, .rwl, 0xff⟩, ⟨8, 2, .rwl, 3⟩]⟩,
   ⟨0x07, 1, [⟨0, 1, .w1s, 0⟩]⟩]

/-- Registers of the CLK page layout. -/
def regsClk : List RegDef :=
  [⟨0x10, 1, [⟨0, 1, .rwl, 0⟩, ⟨1, 1, .ro, 0⟩]⟩,
   ⟨0x80, 1, [⟨0, 1, .ro, 0⟩, ⟨1, 1, .ro, 0⟩, ⟨2, 1, .w1c, 0⟩, ⟨3, 1, .w1c, 0⟩]⟩]

/-- Registers of the ADC page layout. -/
def regsAdc : List RegDef :=
  [⟨0x02, 1, [⟨0, 1, .rw, 0⟩]⟩,
   ⟨0x03, 1, [⟨0, 2, .ro, 0⟩, ⟨2, 1, .ro, 0⟩, ⟨3, 4, .ro, 0⟩, ⟨7, 2, .ro, 0⟩, ⟨9, 1, .ro, 0⟩]⟩,
   ⟨0x80, 1, [⟨0, 40, .ro, 0⟩]⟩]

/-- Registers of the ADC_SEQ page layout. -/
def regsAdcSeq : List RegDef :=
  [⟨0x02, 1, [⟨0, 1, .rw, 0⟩]⟩,
   ⟨0x03, 1, [⟨0, 16, .ro, 0⟩]⟩,
   ⟨0x04, 1, [⟨0, 16, .rw, 0⟩, ⟨16, 16, .rw, 0⟩]⟩,
   ⟨0x05, 1, [⟨0, 16, .w1c, 0⟩, ⟨16, 16, .w1c, 0⟩]⟩,
   ⟨0x10, 1, [⟨0, 1, .rw, 0⟩, ⟨1, 1, .rw, 0⟩, ⟨2, 1, .rw, 0⟩, ⟨3, 1, .rw, 0⟩, ⟨4, 2, .rw, 0⟩, ⟨6, 5, .rw, 0⟩, ⟨11, 8, .rw, 8⟩, ⟨19, 1, .rw, 0⟩, ⟨20, 4, .rw, 0⟩]⟩,
   ⟨0x12, 1, [⟨0, 40, .ro, 0⟩]⟩,
   ⟨0x13, 1, [⟨0, 16, .ro, 0⟩, ⟨16, 8, .ro, 0⟩, ⟨26, 2, .ro, 0⟩, ⟨28, 1, .ro, 0⟩, ⟨29, 1, .ro, 0⟩, ⟨30, 1, .ro, 0⟩]⟩,
   ⟨0x14, 1, [⟨0, 40, .rw, 0x80000000⟩]⟩,
   ⟨0x15, 1, [⟨0, 40, .rw, 0⟩]⟩,
   ⟨0x80, 1, [⟨0, 16, .wo, 0⟩]⟩]

/-- Registers of the ADC_S page layout. -/
def regsAdcS : List RegDef :=
  [⟨0x02, 1, [⟨0, 1, .rw, 1⟩, ⟨1, 1, .wo, 0⟩, ⟨4, 10, .rw, 0x64⟩]⟩,
   ⟨0x03, 1, [⟨0, 2, .ro, 0⟩, ⟨2, 2, .ro, 1⟩, ⟨4, 2, .ro, 2⟩, ⟨6, 2, .ro, 0⟩, ⟨9, 3, .ro, 5⟩, ⟨12, 1, .ro, 0⟩, ⟨13, 3, .ro, 0⟩]⟩,
   ⟨0x04, 1, [⟨0, 1, .rw, 0⟩, ⟨1, 1, .rw, 0⟩, ⟨2, 1, .rw, 0⟩, ⟨3, 1, .rw, 0⟩]⟩,
   ⟨0x05, 1, [⟨0, 1, .w1c, 0⟩, ⟨1, 1, .w1c, 0⟩, ⟨2, 1, .w1c, 0⟩, ⟨3, 1, .w1c, 0⟩]⟩,
   ⟨0x80, 1, [⟨0, 40, .ro, 0⟩]⟩,
   ⟨0x81, 1, [⟨0, 8, .rw, 0x10⟩]⟩,
   ⟨0x82, 1, [⟨0, 16, .ro, 0⟩, ⟨16, 2, .ro, 0⟩]⟩,
   ⟨0x83, 1, [⟨0, 3, .wo, 0⟩]⟩,
   ⟨0x84, 1, [⟨0, 3, .rw, 0⟩, ⟨3, 1, .wo, 0⟩, ⟨8, 8, .rw, 0x60⟩]⟩,
   ⟨0x85, 1, [⟨0, 16, .ro, 0⟩, ⟨17, 1, .ro, 0⟩, ⟨18, 1, .ro, 0⟩, ⟨19, 1, .ro, 0⟩, ⟨20, 1, .ro, 0⟩]⟩]

/-- Registers of the SDF page layout. -/
def regsSdf : List RegDef :=
  [⟨0x03, 1, [⟨0, 8, .ro, 0⟩, ⟨8, 8, .ro, 0⟩, ⟨16, 8, .ro, 0⟩]⟩,
   ⟨0x04, 1, [⟨0, 8, .rw, 0⟩, ⟨8, 8, .rw, 0⟩, ⟨16, 8, .rw, 0⟩]⟩,
   ⟨0x05, 1, [⟨0, 8, .w1c, 0⟩, ⟨8, 8, .w1c, 0⟩, ⟨16, 8, .w1c, 0⟩]⟩,
   ⟨0x10, 1, [⟨0, 1, .rw, 0⟩, ⟨12, 1, .rw, 0⟩, ⟨13, 1, .rw, 0⟩, ⟨14, 2, .rw, 2⟩, ⟨16, 1, .rw, 0⟩, ⟨17, 11, .rw, 0x40⟩]⟩,
   ⟨0x11, 1, [⟨0, 40, .rw, 0x80000000⟩]⟩,
   ⟨0x12, 1, [⟨0, 40, .ro, 0⟩]⟩,
   ⟨0x13, 1, [⟨0, 8, .ro, 0⟩, ⟨9, 1, .ro, 0⟩, ⟨10, 1, .ro, 0⟩, ⟨11, 1, .ro, 0⟩]⟩,
   ⟨0x14, 1, [⟨0, 40, .rw, 0⟩]⟩,
   ⟨0x15, 1, [⟨0, 1, .rw, 0⟩, ⟨1, 2, .rw, 2⟩, ⟨5, 6, .rw, 0x10⟩]⟩,
   ⟨0x16, 1, [⟨0, 40, .rw, 0x80000000⟩]⟩,
   ⟨0x17, 1, [⟨0, 40, .rw, 0xff80000000⟩]⟩,
   ⟨0x80, 1, [⟨0, 2, .rw, 0⟩, ⟨2, 1, .rw, 0⟩, ⟨3, 13, .rw, 0xf0⟩]⟩]

/-- Registers of the CMP page layout. -/
def regsCmp : List RegDef :=
  [⟨0x03, 1, [⟨0, 8, .ro, 0⟩, ⟨8, 8, .ro, 0⟩]⟩,
   ⟨0x04, 1, [⟨0, 8, .rw, 0⟩, ⟨8, 8, .rw, 0⟩]⟩,
   ⟨0x05, 1, [⟨0, 8, .w1c, 0⟩, ⟨8, 8, .w1c, 0⟩]⟩,
   ⟨0x10, 1, [⟨0, 10, .rwl, 0x3ff⟩]⟩,
   ⟨0x11, 1, [⟨0, 1, .rwl, 0⟩, ⟨1, 1, .rwl, 0⟩, ⟨2, 1, .rwl, 0⟩, ⟨3, 2, .rwl, 0⟩, ⟨5, 2, .rw, 0⟩, ⟨7, 2, .rw, 0⟩, ⟨9, 1, .rwl, 0⟩]⟩,
   ⟨0x12, 1, [⟨0, 4, .rwl, 0⟩, ⟨4, 4, .rwl, 0⟩, ⟨8, 8, .rwl, 0⟩]⟩,
   ⟨0x13, 1, [⟨0, 24, .ro, 0⟩, ⟨24, 1, .w1c, 0⟩, ⟨25, 1, .ro, 0⟩, ⟨26, 1, .w1c, 0⟩]⟩]

/-- Registers of the TRK page layout. -/
def regsTrk : List RegDef :=
  [⟨0x03, 1, [⟨0, 4, .ro, 0⟩, ⟨4, 4, .ro, 0⟩]⟩,
   ⟨0x04, 1, [⟨0, 32, .rw, 0⟩]⟩,
   ⟨0x05, 1, [⟨0, 32, .w1c, 0⟩]⟩,
   ⟨0x10, 1, [⟨0, 1, .rw, 0⟩, ⟨7, 2, .rw, 0⟩, ⟨9, 2, .rw, 0⟩, ⟨11, 3, .rw, 0⟩, ⟨14, 1, .rw, 0⟩, ⟨15, 4, .rw, 0⟩, ⟨19, 1, .rw, 0⟩, ⟨20, 2, .rw, 0⟩, ⟨22, 2, .rw, 0⟩, ⟨24, 2, .rw, 0⟩, ⟨26, 2, .rw, 0⟩, ⟨28, 2, .rw, 0⟩]⟩,
   ⟨0x11, 1, [⟨0, 13, .rw, 0x13⟩, ⟨13, 6, .rw, 0x19⟩, ⟨19, 1, .rw, 0⟩, ⟨20, 1, .rw, 0⟩, ⟨21, 1, .rw, 0⟩, ⟨22, 10, .rw, 0⟩, ⟨32, 6, .rw, 0x14⟩]⟩,
   ⟨0x12, 1, [⟨0, 40, .rw, 0⟩]⟩,
   ⟨0x13, 1, [⟨0, 24, .rw, 0⟩]⟩,
   ⟨0x14, 1, [⟨0, 40, .rw, 0⟩]⟩,
   ⟨0x15, 1, [⟨0, 40, .ro, 0⟩]⟩,
   ⟨0x16, 1, [⟨0, 40, .rw, 0⟩]⟩,
   ⟨0x17, 1, [⟨0, 40, .rw, 0⟩]⟩,
   ⟨0x18, 1, [⟨0, 40, .rw, 0⟩]⟩,
   ⟨0x19, 1, [⟨0, 40, .ro, 0⟩]⟩,
   ⟨0x1a, 1, [⟨0, 40, .ro, 0⟩]⟩,
   ⟨0x1b, 1, [⟨0, 1, .ro, 0⟩, ⟨1, 1, .ro, 0⟩, ⟨2, 1, .w1c, 0⟩, ⟨3, 1, .w1c, 0⟩, ⟨4, 1, .w1c, 0⟩, ⟨5, 1, .w1c, 0⟩, ⟨6, 1, .w1c, 0⟩, ⟨7, 1, .w1c, 0⟩, ⟨8, 1, .ro, 0⟩, ⟨9, 1, .ro, 0⟩, ⟨10, 1, .ro, 0⟩, ⟨11, 1, .ro, 0⟩, ⟨12, 3, .ro, 0⟩, ⟨16, 8, .ro, 0⟩]⟩,
   ⟨0x1c, 1, [⟨0, 22, .rw, 0x9c40⟩]⟩,
   ⟨0x1d, 1, [⟨0, 40, .rw, 0x80000000⟩]⟩,
   ⟨0x1e, 1, [⟨0, 40, .ro, 0⟩]⟩,
   ⟨0x1f, 1, [⟨0, 32, .ro, 0⟩]⟩,
   ⟨0x20, 1, [⟨0, 40, .rw, 0⟩]⟩,
   ⟨0x21, 1, [⟨0, 40, .ro, 0⟩]⟩,
   ⟨0x22, 1, [⟨0, 16, .rw, 0⟩]⟩,
   ⟨0x23, 1, [⟨0, 10, .ro, 0⟩]⟩,
   ⟨0x24, 1, [⟨0, 24, .rw, 0⟩]⟩] ++
  [⟨0x25, 1, [⟨0, 1, .wo, 0⟩, ⟨1, 1, .wo, 0⟩]⟩,
   ⟨0x26, 1, [⟨0, 40, .ro, 0⟩]⟩]

/-- Registers of the SEAM page layout. -/
def regsSeam : List RegDef :=
  [⟨0x03, 1, [⟨0, 2, .ro, 0⟩, ⟨4, 6, .ro, 0⟩]⟩,
   ⟨0x04, 1, [⟨0, 32, .rw, 0⟩, ⟨32, 1, .rw, 0⟩, ⟨33, 1, .rw, 0⟩, ⟨34, 1, .rw, 0⟩, ⟨35, 1, .rw, 0⟩]⟩,
   ⟨0x05, 1, [⟨0, 32, .w1c, 0⟩, ⟨32, 1, .w1c, 0⟩, ⟨33, 1, .w1c, 0⟩, ⟨34, 1, .w1c, 0⟩, ⟨35, 1, .w1c, 0⟩]⟩,
   ⟨0x10, 1, [⟨0, 16, .rw, 0⟩, ⟨16, 16, .rw, 0⟩, ⟨32, 1, .rw, 0⟩]⟩,
   ⟨0x11, 1, [⟨0, 1, .w1c, 0⟩, ⟨1, 1, .w1c, 0⟩, ⟨8, 8, .ro, 0⟩, ⟨16, 8, .ro, 0⟩]⟩,
   ⟨0x12, 1, [⟨0, 40, .ro, 0⟩]⟩]

/-- Registers of the LSEAM page layout. -/
def regsLseam : List RegDef :=
  [⟨0x80, 1, [⟨0, 32, .w1c, 0⟩]⟩,
   ⟨0x81, 1, [⟨0, 32, .w1c, 0⟩]⟩,
   ⟨0x82, 1, [⟨0, 32, .rw, 0⟩]⟩,
   ⟨0x83, 1, [⟨0, 32, .rw, 0⟩]⟩,
   ⟨0x84, 1, [⟨0, 8, .rw, 0⟩]⟩]

/-- Registers of the GSEAM page layout. -/
def regsGseam : List RegDef :=
  [⟨0x80, 1, [⟨0, 32, .wo, 0⟩]⟩,
   ⟨0x81, 1, [⟨0, 32, .wo, 0⟩]⟩,
   ⟨0x84, 1, [⟨0, 8, .rw, 0⟩]⟩]

/-- Registers of the MANGLE page layout. -/
def regsMangle : List RegDef :=
  [⟨0x02, 1, [⟨0, 1, .rw, 0⟩]⟩,
   ⟨0x03, 1, [⟨0, 16, .ro, 0⟩]⟩,
   ⟨0x04, 1, [⟨0, 16, .rw, 0⟩, ⟨16, 16, .rw, 0⟩]⟩,
   ⟨0x05, 1, [⟨0, 16, .w1c, 0⟩, ⟨16, 16, .w1c, 0⟩]⟩,
   ⟨0x10, 1, [⟨0, 1, .wo, 0⟩, ⟨1, 1, .wo, 0⟩, ⟨2, 1, .wo, 0⟩, ⟨3, 1, .wo, 0⟩, ⟨4, 1, .rw, 0⟩, ⟨5, 1, .rw, 0⟩]⟩,
   ⟨0x11, 1, [⟨0, 32, .rw, 0⟩]⟩,
   ⟨0x12, 1, [⟨0, 32, .ro, 0⟩]⟩,
   ⟨0x13, 1, [⟨0, 3, .ro, 0⟩, ⟨6, 2, .ro, 3⟩, ⟨8, 1, .ro, 0⟩, ⟨9, 1, .ro, 0⟩, ⟨12, 4, .ro, 0⟩, ⟨16, 24, .ro, 0⟩]⟩,
   ⟨0x14, 1, [⟨0, 24, .rw, 0⟩]⟩,
   ⟨0x15, 1, [⟨0, 40, .ro, 0⟩]⟩]

/-- Registers of the LOOP page layout. -/
def regsLoop : List RegDef :=
  [⟨0x02, 1, [⟨0, 1, .rw, 0⟩]⟩,
   ⟨0x03, 1, [⟨0, 12, .ro, 0⟩, ⟨24, 4, .ro, 0xf⟩, ⟨28, 1, .ro, 0⟩]⟩,
   ⟨0x04, 1, [⟨0, 12, .rw, 0⟩, ⟨12, 12, .rw, 0⟩, ⟨24, 12, .rw, 0⟩]⟩,
   ⟨0x05, 1, [⟨0, 12, .w1c, 0⟩, ⟨12, 12, .w1c, 0⟩, ⟨24, 12, .w1c, 0⟩]⟩,
   ⟨0x10, 1, [⟨0, 1, .rw, 0⟩, ⟨8, 6, .rw, 0⟩, ⟨14, 3, .rw, 0⟩, ⟨17, 1, .rw, 0⟩, ⟨18, 1, .rw, 0⟩, ⟨19, 1, .rw, 0⟩, ⟨20, 1, .rw, 0⟩, ⟨21, 1, .rw, 0⟩, ⟨22, 2, .rw, 0⟩, ⟨24, 1, .rw, 0⟩, ⟨25, 1, .rw, 0⟩, ⟨26, 1, .rw, 0⟩, ⟨27, 4, .rw, 0⟩]⟩,
   ⟨0x11, 1, [⟨0, 14, .rw, 0⟩, ⟨16, 3, .rw, 0⟩]⟩,
   ⟨0x12, 1, [⟨0, 14, .rw, 0⟩, ⟨15, 1, .rw, 0⟩, ⟨16, 1, .rw, 0⟩, ⟨17, 1, .rw, 0⟩, ⟨18, 2, .rw, 0⟩]⟩,
   ⟨0x13, 1, [⟨0, 16, .rw, 0⟩]⟩,
   ⟨0x14, 1, [⟨0, 40, .rw, 0⟩]⟩,
   ⟨0x15, 1, [⟨0, 40, .rw, 0⟩]⟩,
   ⟨0x16, 1, [⟨0, 40, .ro, 0⟩]⟩,
   ⟨0x18, 6, [⟨0, 40, .rw, 0⟩]⟩,
   ⟨0x1e, 1, [⟨0, 1, .w1c, 0⟩, ⟨1, 1, .w1c, 0⟩, ⟨2, 1, .ro, 0⟩, ⟨3, 1, .ro, 0⟩, ⟨4, 1, .ro, 0⟩, ⟨5, 1, .ro, 0⟩, ⟨6, 1, .ro, 1⟩, ⟨7, 1, .ro, 0⟩, ⟨8, 1, .ro, 0⟩, ⟨9, 1, .ro, 0⟩, ⟨16, 8, .ro, 0⟩]⟩,
   ⟨0x1f, 1, [⟨0, 40, .ro, 0⟩]⟩,
   ⟨0x20, 1, [⟨0, 13, .rw, 0x1800⟩]⟩,
   ⟨0x21, 1, [⟨0, 13, .ro, 0⟩, ⟨16, 4, .ro, 0⟩]⟩,
   ⟨0x22, 1, [⟨0, 16, .ro, 0⟩, ⟨16, 16, .ro, 0⟩]⟩,
   ⟨0x80, 1, [⟨0, 12, .wo, 0⟩]⟩,
   ⟨0x81, 1, [⟨0, 12, .wo, 0⟩]⟩,
   ⟨0x82, 1, [⟨0, 12, .wo, 0⟩]⟩]

/-- Registers of the LOOP_UC page layout. -/
def regsLoopUc : List RegDef :=
  [⟨0x02, 1, [⟨0, 1, .rwl, 0⟩]⟩,
   ⟨0x03, 1, [⟨0, 16, .ro, 0x100⟩]⟩,
   ⟨0x04, 1, [⟨0, 1, .rw, 0⟩, ⟨1, 1, .rw, 0⟩]⟩,
   ⟨0x05, 1, [⟨0, 1, .w1c, 0⟩, ⟨1, 1, .w1c, 0⟩]⟩,
   ⟨0x80, 1, [⟨0, 13, .bk, 0x1800⟩]⟩,
   ⟨0x81, 1, [⟨0, 32, .rw, 0⟩]⟩]

/-- Registers of the PWM_TB page layout. -/
def regsPwmTb : List RegDef :=
  [⟨0x02, 1, [⟨0, 4, .wo, 0⟩, ⟨4, 4, .wo, 0⟩]⟩,
   ⟨0x03, 1, [⟨0, 4, .ro, 0⟩, ⟨4, 4, .ro, 0⟩]⟩,
   ⟨0x04, 1, [⟨0, 32, .rw, 0⟩]⟩,
   ⟨0x05, 1, [⟨0, 32, .w1c, 0⟩]⟩,
   ⟨0x10, 1, [⟨0, 1, .rw, 0⟩, ⟨7, 2, .rw, 1⟩, ⟨9, 1, .rw, 0⟩, ⟨10, 1, .rw, 0⟩, ⟨11, 1, .rw, 0⟩]⟩,
   ⟨0x11, 1, [⟨0, 24, .rw, 0x1388⟩]⟩,
   ⟨0x12, 1, [⟨0, 24, .ro, 0x1388⟩]⟩,
   ⟨0x13, 1, [⟨0, 24, .ro, 0⟩, ⟨24, 1, .w1c, 0⟩, ⟨25, 1, .w1c, 0⟩, ⟨26, 1, .ro, 0⟩, ⟨28, 1, .ro, 0⟩, ⟨29, 1, .ro, 0⟩, ⟨30, 1, .ro, 0⟩, ⟨31, 1, .ro, 0⟩]⟩,
   ⟨0x14, 1, [⟨0, 24, .rw, 0⟩, ⟨24, 1, .rw, 0⟩]⟩,
   ⟨0x15, 1, [⟨0, 30, .rw, 0⟩]⟩,
   ⟨0x16, 1, [⟨0, 8, .rw, 0x20⟩, ⟨8, 24, .rw, 0x100⟩]⟩,
   ⟨0x17, 1, [⟨0, 32, .ro, 0⟩, ⟨32, 6, .ro, 0⟩]⟩,
   ⟨0x18, 8, [⟨0, 4, .rw, 0⟩, ⟨4, 2, .rw, 0⟩, ⟨8, 4, .rw, 0⟩]⟩,
   ⟨0x20, 1, [⟨0, 1, .wo, 0⟩, ⟨1, 1, .wo, 0⟩]⟩]

/-- Registers of the PWM_CH page layout. -/
def regsPwmCh : List RegDef :=
  [⟨0x03, 1, [⟨0, 12, .ro, 0⟩, ⟨12, 12, .ro, 0⟩]⟩,
   ⟨0x04, 1, [⟨0, 12, .rw, 0⟩, ⟨12, 12, .rw, 0⟩]⟩,
   ⟨0x05, 1, [⟨0, 12, .w1c, 0⟩, ⟨12, 12, .w1c, 0⟩]⟩,
   ⟨0x10, 1, [⟨2, 1, .rw, 0⟩, ⟨3, 1, .rw, 0⟩]⟩,
   ⟨0x11, 1, [⟨10, 6, .rw, 0⟩, ⟨16, 24, .rw, 0⟩]⟩,
   ⟨0x12, 1, [⟨10, 6, .rw, 0⟩, ⟨16, 24, .rw, 0⟩]⟩,
   ⟨0x13, 1, [⟨10, 30, .ro, 0⟩]⟩,
   ⟨0x14, 1, [⟨10, 30, .ro, 0⟩]⟩,
   ⟨0x15, 1, [⟨0, 16, .rw, 0⟩]⟩,
   ⟨0x16, 1, [⟨0, 16, .rw, 0⟩]⟩,
   ⟨0x17, 1, [⟨0, 16, .rw, 0x40⟩]⟩,
   ⟨0x18, 1, [⟨0, 2, .rwl, 2⟩, ⟨2, 1, .rwl, 0⟩, ⟨3, 1, .rwl, 0⟩, ⟨4, 2, .rwl, 2⟩, ⟨6, 1, .rwl, 0⟩, ⟨7, 1, .rwl, 0⟩]⟩,
   ⟨0x19, 1, [⟨0, 1, .w1c, 0⟩, ⟨1, 1, .w1c, 0⟩, ⟨3, 1, .ro, 0⟩, ⟨4, 1, .ro, 0⟩, ⟨5, 1, .ro, 0⟩, ⟨6, 1, .ro, 0⟩, ⟨7, 1, .ro, 0⟩, ⟨8, 1, .ro, 0⟩, ⟨9, 1, .ro, 0⟩]⟩,
   ⟨0x1a, 1, [⟨0, 16, .ro, 0⟩, ⟨16, 16, .ro, 0⟩]⟩]

/-- Registers of the SCORCH page layout. -/
def regsScorch : List RegDef :=
  [⟨0x03, 1, [⟨0, 4, .ro, 0⟩]⟩,
   ⟨0x04, 1, [⟨0, 4, .rw, 0⟩, ⟨4, 4, .rw, 0⟩]⟩,
   ⟨0x05, 1, [⟨0, 4, .w1c, 0⟩, ⟨4, 4, .w1c, 0⟩]⟩,
   ⟨0x10, 8, [⟨0, 8, .rwl, 0⟩, ⟨8, 1, .rwl, 0⟩]⟩,
   ⟨0x18, 1, [⟨0, 1, .rwl, 0⟩, ⟨1, 1, .rwl, 0⟩]⟩,
   ⟨0x19, 1, [⟨0, 1, .ro, 0⟩, ⟨1, 1, .ro, 0⟩, ⟨2, 1, .ro, 0⟩, ⟨3, 1, .w1c, 0⟩, ⟨4, 1, .ro, 0⟩, ⟨8, 8, .ro, 0⟩, ⟨16, 8, .ro, 0⟩]⟩,
   ⟨0x1a, 1, [⟨0, 40, .ro, 0⟩]⟩,
   ⟨0x1b, 1, [⟨0, 1, .wo, 0⟩, ⟨1, 1, .wo, 0⟩]⟩]

/-- Registers of the CORE page layout. -/
def regsCore : List RegDef :=
  [⟨0x02, 1, [⟨0, 1, .rw, 1⟩, ⟨1, 1, .rw, 1⟩, ⟨2, 1, .rw, 1⟩, ⟨3, 1, .rw, 1⟩, ⟨4, 1, .rw, 1⟩]⟩,
   ⟨0x03, 1, [⟨0, 1, .ro, 0⟩, ⟨1, 1, .ro, 0⟩, ⟨2, 1, .ro, 0⟩, ⟨3, 1, .ro, 0⟩, ⟨4, 1, .ro, 0⟩, ⟨5, 3, .ro, 0⟩]⟩,
   ⟨0x04, 1, [⟨0, 1, .rw, 0⟩]⟩,
   ⟨0x05, 1, [⟨0, 1, .w1c, 0⟩]⟩,
   ⟨0x80, 1, [⟨0, 1, .wo, 0⟩, ⟨1, 1, .wo, 0⟩]⟩,
   ⟨0x81, 1, [⟨0, 32, .rw, 0⟩]⟩,
   ⟨0x82, 1, [⟨0, 1, .rw, 1⟩, ⟨1, 1, .wo, 0⟩]⟩,
   ⟨0x83, 1, [⟨0, 40, .ro, 0⟩]⟩,
   ⟨0x84, 1, [⟨0, 40, .ro, 0⟩]⟩,
   ⟨0x85, 1, [⟨0, 40, .ro, 0⟩]⟩,
   ⟨0x86, 1, [⟨0, 40, .ro, 0⟩]⟩,
   ⟨0x87, 1, [⟨0, 40, .ro, 0⟩]⟩,
   ⟨0x88, 1, [⟨0, 40, .ro, 0⟩]⟩,
   ⟨0x89, 1, [⟨0, 40, .ro, 0⟩]⟩,
   ⟨0x8a, 1, [⟨0, 40, .ro, 0⟩]⟩]

/-- Registers of the DIC page layout. -/
def regsDic : List RegDef :=
  [⟨0x02, 1, [⟨0, 1, .rw, 0⟩, ⟨1, 1, .rwl, 0⟩]⟩,
   ⟨0x03, 1, [⟨4, 4, .ro, 0⟩, ⟨12, 4, .ro, 0⟩]⟩,
   ⟨0x04, 1, [⟨0, 4, .rw, 0⟩, ⟨4, 4, .rw, 0⟩]⟩,
   ⟨0x05, 1, [⟨0, 4, .w1c, 0⟩, ⟨4, 4, .w1c, 0⟩]⟩,
   ⟨0x10, 1, [⟨0, 1, .rw, 0⟩, ⟨1, 1, .rw, 0⟩, ⟨2, 2, .rw, 0⟩, ⟨4, 8, .rw, 0xff⟩, ⟨12, 3, .rw, 7⟩]⟩,
   ⟨0x11, 1, [⟨0, 1, .w1c, 0⟩, ⟨1, 1, .ro, 0⟩, ⟨2, 1, .ro, 0⟩, ⟨3, 1, .ro, 0⟩]⟩,
   ⟨0x80, 1, [⟨0, 8, .wo, 0⟩]⟩,
   ⟨0x81, 1, [⟨0, 40, .ro, 0⟩]⟩,
   ⟨0x88, 8, [⟨0, 30, .ro, 0⟩]⟩]

/-- Registers of the DICCORE page layout. -/
def regsDiccore : List RegDef :=
  [⟨0x90, 1, [⟨0, 8, .ro, 0⟩, ⟨8, 1, .ro, 0⟩, ⟨9, 3, .ro, 0⟩, ⟨16, 8, .ro, 0⟩]⟩,
   ⟨0x91, 1, [⟨0, 8, .wo, 0⟩]⟩,
   ⟨0x92, 1, [⟨0, 8, .ro, 0xff⟩, ⟨8, 5, .ro, 0⟩, ⟨16, 4, .ro, 8⟩]⟩,
   ⟨0x93, 1, [⟨0, 4, .rw, 8⟩, ⟨8, 1, .rw, 0⟩]⟩,
   ⟨0x94, 1, [⟨0, 32, .rwl, 0⟩]⟩,
   ⟨0x95, 1, [⟨0, 32, .rwl, 0⟩]⟩,
   ⟨0x96, 1, [⟨0, 2, .rwl, 1⟩]⟩,
   ⟨0x97, 1, [⟨8, 24, .rwl, 0x17f⟩]⟩,
   ⟨0x98, 1, [⟨0, 24, .rwl, 0xffffff⟩]⟩,
   ⟨0x99, 1, [⟨0, 24, .rwl, 0xffffff⟩]⟩,
   ⟨0x9a, 1, [⟨2, 30, .rw, 0x5fc0⟩]⟩,
   ⟨0x9b, 1, [⟨2, 30, .rw, 0x4000⟩]⟩,
   ⟨0x9c, 1, [⟨0, 4, .ro, 0⟩, ⟨4, 8, .ro, 0⟩, ⟨12, 8, .ro, 0⟩]⟩,
   ⟨0x9d, 1, [⟨0, 32, .ro, 0⟩]⟩,
   ⟨0xa0, 1, [⟨0, 8, .ro, 0⟩, ⟨8, 1, .ro, 0⟩, ⟨9, 3, .ro, 0⟩, ⟨16, 8, .ro, 0⟩]⟩,
   ⟨0xa1, 1, [⟨0, 8, .wo, 0⟩]⟩,
   ⟨0xa2, 1, [⟨0, 8, .ro, 0xff⟩, ⟨8, 5, .ro, 0⟩, ⟨16, 4, .ro, 8⟩]⟩,
   ⟨0xa3, 1, [⟨0, 4, .rw, 8⟩, ⟨8, 1, .rw, 0⟩]⟩,
   ⟨0xa4, 1, [⟨0, 32, .rwl, 0⟩]⟩,
   ⟨0xa5, 1, [⟨0, 32, .rwl, 0⟩]⟩,
   ⟨0xa6, 1, [⟨0, 2, .rwl, 1⟩]⟩,
   ⟨0xa7, 1, [⟨8, 24, .rwl, 0x17f⟩]⟩,
   ⟨0xa8, 1, [⟨0, 24, .rwl, 0xffffff⟩]⟩,
   ⟨0xa9, 1, [⟨0, 24, .rwl, 0xffffff⟩]⟩] ++
  [⟨0xaa, 1, [⟨2, 30, .rw, 0x5fc0⟩]⟩,
   ⟨0xab, 1, [⟨2, 30, .rw, 0x4000⟩]⟩,
   ⟨0xac, 1, [⟨0, 4, .ro, 0⟩, ⟨4, 8, .ro, 0⟩, ⟨12, 8, .ro, 0⟩]⟩,
   ⟨0xad, 1, [⟨0, 32, .ro, 0⟩]⟩,
   ⟨0xb0, 1, [⟨0, 8, .ro, 0⟩, ⟨8, 1, .ro, 0⟩, ⟨9, 3, .ro, 0⟩, ⟨16, 8, .ro, 0⟩]⟩,
   ⟨0xb1, 1, [⟨0, 8, .wo, 0⟩]⟩,
   ⟨0xb2, 1, [⟨0, 8, .ro, 0xff⟩, ⟨8, 5, .ro, 0⟩, ⟨16, 4, .ro, 8⟩]⟩,
   ⟨0xb3, 1, [⟨0, 4, .rw, 8⟩, ⟨8, 1, .rw, 0⟩]⟩,
   ⟨0xb4, 1, [⟨0, 32, .rwl, 0⟩]⟩,
   ⟨0xb5, 1, [⟨0, 32, .rwl, 0⟩]⟩,
   ⟨0xb6, 1, [⟨0, 2, .rwl, 1⟩]⟩,
   ⟨0xb7, 1, [⟨8, 24, .rwl, 0x17f⟩]⟩,
   ⟨0xb8, 1, [⟨0, 24, .rwl, 0xffffff⟩]⟩,
   ⟨0xb9, 1, [⟨0, 24, .rwl, 0xffffff⟩]⟩,
   ⟨0xba, 1, [⟨2, 30, .rw, 0x5fc0⟩]⟩,
   ⟨0xbb, 1, [⟨2, 30, .rw, 0x4000⟩]⟩,
   ⟨0xbc, 1, [⟨0, 4, .ro, 0⟩, ⟨4, 8, .ro, 0⟩, ⟨12, 8, .ro, 0⟩]⟩,
   ⟨0xbd, 1, [⟨0, 32, .ro, 0⟩]⟩,
   ⟨0xc0, 1, [⟨0, 8, .ro, 0⟩, ⟨8, 1, .ro, 0⟩, ⟨9, 3, .ro, 0⟩, ⟨16, 8, .ro, 0⟩]⟩,
   ⟨0xc1, 1, [⟨0, 8, .wo, 0⟩]⟩,
   ⟨0xc2, 1, [⟨0, 8, .ro, 0xff⟩, ⟨8, 5, .ro, 0⟩, ⟨16, 4, .ro, 8⟩]⟩,
   ⟨0xc3, 1, [⟨0, 4, .rw, 8⟩, ⟨8, 1, .rw, 0⟩]⟩,
   ⟨0xc4, 1, [⟨0, 32, .rwl, 0⟩]⟩,
   ⟨0xc5, 1, [⟨0, 32, .rwl, 0⟩]⟩] ++
  [⟨0xc6, 1, [⟨0, 2, .rwl, 1⟩]⟩,
   ⟨0xc7, 1, [⟨8, 24, .rwl, 0x17f⟩]⟩,
   ⟨0xc8, 1, [⟨0, 24, .rwl, 0xffffff⟩]⟩,
   ⟨0xc9, 1, [⟨0, 24, .rwl, 0xffffff⟩]⟩,
   ⟨0xca, 1, [⟨2, 30, .rw, 0x5fc0⟩]⟩,
   ⟨0xcb, 1, [⟨2, 30, .rw, 0x4000⟩]⟩,
   ⟨0xcc, 1, [⟨0, 4, .ro, 0⟩, ⟨4, 8, .ro, 0⟩, ⟨12, 8, .ro, 0⟩]⟩,
   ⟨0xcd, 1, [⟨0, 32, .ro, 0⟩]⟩]

/-- Registers of the WDT page layout. -/
def regsWdt : List RegDef :=
  [⟨0x02, 1, [⟨0, 1, .w1s, 0⟩, ⟨1, 1, .rwl, 1⟩]⟩,
   ⟨0x03, 1, [⟨0, 1, .ro, 0⟩, ⟨1, 1, .ro, 0⟩, ⟨2, 1, .ro, 0⟩]⟩,
   ⟨0x04, 1, [⟨0, 1, .rw, 0⟩]⟩,
   ⟨0x05, 1, [⟨0, 1, .w1c, 0⟩]⟩,
   ⟨0x80, 1, [⟨0, 16, .rwl, 0⟩, ⟨16, 16, .rwl, 0xffff⟩]⟩,
   ⟨0x81, 1, [⟨0, 4, .rwl, 0⟩, ⟨4, 16, .rwl, 0⟩]⟩,
   ⟨0x82, 1, [⟨0, 8, .wo, 0⟩]⟩,
   ⟨0x83, 1, [⟨0, 16, .ro, 0⟩]⟩]

/-- Registers of the AOW page layout. -/
def regsAow : List RegDef :=
  [⟨0x02, 1, [⟨0, 1, .rwl, 0⟩]⟩,
   ⟨0x03, 1, [⟨0, 5, .ro, 0⟩, ⟨5, 1, .w1c, 0⟩]⟩,
   ⟨0x04, 1, [⟨0, 32, .rw, 0⟩]⟩,
   ⟨0x05, 1, [⟨0, 32, .w1c, 0⟩]⟩,
   ⟨0x10, 1, [⟨0, 16, .rwl, 0⟩, ⟨17, 1, .rwl, 0⟩, ⟨18, 1, .rwl, 0⟩, ⟨19, 1, .rwl, 0⟩]⟩,
   ⟨0x80, 1, [⟨0, 32, .rw, 0⟩]⟩,
   ⟨0x81, 1, [⟨0, 32, .ro, 0⟩]⟩]

/-- Registers of the PIN page layout. -/
def regsPin : List RegDef :=
  [⟨0x03, 1, [⟨0, 9, .ro, 0⟩, ⟨9, 2, .ro, 0⟩]⟩,
   ⟨0x04, 1, [⟨0, 32, .rw, 0⟩, ⟨32, 1, .rw, 0⟩, ⟨33, 1, .rw, 0⟩]⟩,
   ⟨0x05, 1, [⟨0, 32, .w1c, 0⟩, ⟨32, 1, .w1c, 0⟩, ⟨33, 1, .w1c, 0⟩]⟩,
   ⟨0x10, 1, [⟨6, 2, .rwl, 1⟩, ⟨8, 1, .rwl, 0⟩, ⟨9, 1, .rwl, 0⟩, ⟨10, 2, .rwl, 0⟩, ⟨12, 1, .rwl, 1⟩, ⟨13, 1, .rwl, 0⟩, ⟨14, 2, .rwl, 2⟩]⟩,
   ⟨0x11, 1, [⟨0, 12, .rwl, 0⟩, ⟨12, 12, .rwl, 0⟩, ⟨24, 12, .rwl, 0⟩]⟩,
   ⟨0x12, 1, [⟨0, 8, .rwl, 0xff⟩, ⟨8, 2, .rwl, 3⟩, ⟨10, 1, .w1s, 0⟩]⟩,
   ⟨0x13, 1, [⟨0, 1, .ro, 0⟩, ⟨1, 1, .ro, 0⟩, ⟨2, 1, .ro, 0⟩, ⟨3, 1, .ro, 0⟩, ⟨4, 1, .ro, 0⟩, ⟨5, 1, .ro, 0⟩, ⟨6, 1, .ro, 0⟩]⟩,
   ⟨0x80, 9, [⟨0, 36, .rw, 0⟩]⟩,
   ⟨0x90, 9, [⟨0, 36, .ro, 0⟩]⟩,
   ⟨0xa0, 32, [⟨0, 9, .rwl, 0⟩, ⟨12, 4, .rwl, 0⟩, ⟨16, 1, .rwl, 0⟩, ⟨17, 2, .rwl, 0⟩, ⟨19, 1, .rwl, 0⟩]⟩,
   ⟨0xc0, 1, [⟨0, 32, .ro, 0⟩]⟩,
   ⟨0xd0, 9, [⟨0, 2, .ro, 0⟩, ⟨2, 1, .ro, 0⟩]⟩]

/-- Registers of the DRAM page layout. -/
def regsDram : List RegDef :=
  [⟨0x02, 1, [⟨0, 1, .rw, 1⟩]⟩,
   ⟨0x03, 1, [⟨0, 1, .ro, 0⟩, ⟨1, 1, .ro, 1⟩]⟩,
   ⟨0x04, 1, [⟨0, 1, .rw, 0⟩, ⟨1, 1, .rw, 0⟩, ⟨2, 1, .rw, 0⟩, ⟨3, 1, .rw, 0⟩]⟩,
   ⟨0x05, 1, [⟨0, 1, .w1c, 0⟩, ⟨1, 1, .w1c, 0⟩, ⟨2, 1, .w1c, 0⟩, ⟨3, 1, .w1c, 0⟩]⟩,
   ⟨0x80, 1, [⟨0, 26, .ro, 0⟩]⟩,
   ⟨0x81, 1, [⟨8, 2, .ro, 0⟩, ⟨10, 1, .ro, 0⟩, ⟨11, 3, .ro, 0⟩, ⟨14, 2, .ro, 0⟩, ⟨16, 8, .ro, 0⟩]⟩,
   ⟨0x82, 1, [⟨0, 40, .ro, 0⟩]⟩,
   ⟨0x83, 1, [⟨0, 40, .ro, 0⟩]⟩,
   ⟨0x84, 1, [⟨0, 40, .ro, 0⟩]⟩,
   ⟨0x85, 1, [⟨0, 16, .rw, 0x1000⟩]⟩,
   ⟨0x86, 1, [⟨0, 26, .wo, 0⟩]⟩,
   ⟨0x88, 4, [⟨0, 40, .ro, 0⟩]⟩]

/-- Registers of the DARNER page layout. -/
def regsDarner : List RegDef :=
  [⟨0x02, 1, [⟨0, 1, .rw, 1⟩, ⟨1, 1, .wo, 0⟩]⟩,
   ⟨0x03, 1, [⟨0, 1, .ro, 0⟩, ⟨1, 1, .ro, 0⟩, ⟨2, 1, .w1c, 0⟩]⟩,
   ⟨0x04, 1, [⟨0, 1, .rw, 0⟩]⟩,
   ⟨0x05, 1, [⟨0, 1, .w1c, 0⟩]⟩,
   ⟨0x80, 1, [⟨0, 20, .rw, 0x15180⟩]⟩,
   ⟨0x81, 1, [⟨0, 8, .rw, 0x40⟩]⟩,
   ⟨0x82, 1, [⟨0, 26, .ro, 0⟩]⟩,
   ⟨0x83, 1, [⟨0, 40, .ro, 0⟩]⟩]

/-- Registers of the HAMPER page layout. -/
def regsHamper : List RegDef :=
  [⟨0x02, 1, [⟨0, 1, .rw, 0⟩]⟩,
   ⟨0x03, 1, [⟨0, 3, .ro, 0⟩, ⟨3, 1, .ro, 0⟩, ⟨4, 1, .ro, 0⟩, ⟨5, 1, .w1c, 0⟩]⟩,
   ⟨0x04, 1, [⟨0, 1, .rw, 0⟩, ⟨1, 1, .rw, 0⟩, ⟨2, 1, .rw, 0⟩, ⟨3, 1, .rw, 0⟩, ⟨4, 1, .rw, 0⟩]⟩,
   ⟨0x05, 1, [⟨0, 1, .w1c, 0⟩, ⟨1, 1, .w1c, 0⟩, ⟨2, 1, .w1c, 0⟩, ⟨3, 1, .w1c, 0⟩, ⟨4, 1, .w1c, 0⟩]⟩,
   ⟨0x10, 1, [⟨0, 32, .rw, 0⟩]⟩,
   ⟨0x80, 1, [⟨0, 13, .rw, 0⟩]⟩,
   ⟨0x81, 1, [⟨0, 26, .rw, 0⟩]⟩,
   ⟨0x82, 1, [⟨0, 26, .rw, 0⟩]⟩,
   ⟨0x83, 1, [⟨0, 16, .rw, 0⟩, ⟨16, 1, .rw, 0⟩]⟩,
   ⟨0x84, 1, [⟨0, 4, .rwl, 7⟩, ⟨4, 5, .rwl, 0⟩]⟩,
   ⟨0x85, 1, [⟨0, 26, .rw, 0⟩]⟩,
   ⟨0x86, 1, [⟨0, 26, .rw, 0⟩]⟩,
   ⟨0x87, 1, [⟨0, 1, .wo, 0⟩, ⟨1, 1, .wo, 0⟩, ⟨2, 1, .wo, 0⟩]⟩,
   ⟨0x88, 1, [⟨0, 5, .ro, 0⟩, ⟨5, 1, .ro, 0⟩, ⟨6, 8, .ro, 0⟩]⟩,
   ⟨0x89, 1, [⟨0, 26, .ro, 0⟩]⟩,
   ⟨0x8a, 1, [⟨0, 26, .ro, 0⟩]⟩,
   ⟨0x8b, 1, [⟨0, 26, .ro, 0⟩]⟩,
   ⟨0x8c, 1, [⟨0, 32, .ro, 0⟩]⟩,
   ⟨0x8d, 1, [⟨0, 26, .ro, 0⟩]⟩,
   ⟨0x8e, 1, [⟨0, 40, .ro, 0⟩]⟩,
   ⟨0x8f, 1, [⟨0, 26, .rw, 0⟩]⟩]

/-- Registers of the FLASH page layout. -/
def regsFlash : List RegDef :=
  [⟨0x02, 1, [⟨0, 1, .rw, 1⟩]⟩,
   ⟨0x03, 1, [⟨0, 1, .ro, 0⟩, ⟨1, 4, .ro, 0⟩, ⟨5, 1, .ro, 0⟩, ⟨6, 1, .ro, 0⟩, ⟨7, 1, .ro, 0⟩, ⟨8, 1, .ro, 0⟩, ⟨9, 1, .ro, 0⟩]⟩,
   ⟨0x04, 1, [⟨0, 1, .rw, 0⟩, ⟨1, 1, .rw, 0⟩, ⟨2, 1, .rw, 0⟩, ⟨3, 1, .rw, 0⟩, ⟨4, 1, .rw, 0⟩, ⟨5, 1, .rw, 0⟩]⟩,
   ⟨0x05, 1, [⟨0, 1, .w1c, 0⟩, ⟨1, 1, .w1c, 0⟩, ⟨2, 1, .w1c, 0⟩, ⟨3, 1, .w1c, 0⟩, ⟨4, 1, .w1c, 0⟩, ⟨5, 1, .w1c, 0⟩]⟩,
   ⟨0x10, 1, [⟨0, 2, .ro, 0⟩, ⟨2, 2, .ro, 0⟩]⟩,
   ⟨0x80, 1, [⟨0, 23, .rw, 0⟩]⟩,
   ⟨0x81, 1, [⟨0, 4, .rw, 0xf⟩]⟩,
   ⟨0x82, 4, [⟨0, 40, .rw, 0xffffffffff⟩]⟩,
   ⟨0x86, 1, [⟨0, 4, .wo, 0⟩, ⟨16, 11, .wo, 0⟩]⟩,
   ⟨0x87, 1, [⟨0, 11, .ro, 0⟩, ⟨12, 4, .ro, 0⟩, ⟨16, 4, .ro, 0⟩]⟩,
   ⟨0x88, 1, [⟨0, 2, .rw, 2⟩]⟩,
   ⟨0x89, 1, [⟨0, 23, .ro, 0⟩]⟩,
   ⟨0x8a, 1, [⟨0, 2, .ro, 0⟩, ⟨2, 1, .ro, 0⟩, ⟨8, 8, .ro, 0⟩]⟩,
   ⟨0x8b, 1, [⟨0, 40, .ro, 0⟩]⟩,
   ⟨0x8c, 1, [⟨0, 40, .ro, 0⟩]⟩,
   ⟨0x8d, 1, [⟨0, 23, .ro, 0⟩, ⟨23, 13, .ro, 0⟩]⟩,
   ⟨0x8e, 1, [⟨0, 15, .ro, 0⟩]⟩,
   ⟨0x8f, 1, [⟨0, 1, .ro, 0⟩, ⟨1, 1, .ro, 0⟩, ⟨2, 1, .ro, 0⟩, ⟨3, 1, .ro, 0⟩, ⟨6, 3, .ro, 0⟩, ⟨9, 3, .ro, 0⟩]⟩,
   ⟨0x90, 1, [⟨0, 3, .wo, 0⟩, ⟨3, 1, .wo, 0⟩]⟩,
   ⟨0x91, 1, [⟨0, 3, .ro, 0⟩]⟩]

/-- Registers of the LEDGER page layout. -/
def regsLedger : List RegDef :=
  [⟨0x03, 1, [⟨0, 10, .ro, 0⟩, ⟨10, 1, .ro, 0⟩, ⟨11, 1, .ro, 0⟩, ⟨12, 1, .ro, 0⟩]⟩,
   ⟨0x04, 1, [⟨0, 1, .rw, 0⟩, ⟨1, 1, .rw, 0⟩]⟩,
   ⟨0x05, 1, [⟨0, 1, .w1c, 0⟩, ⟨1, 1, .w1c, 0⟩]⟩,
   ⟨0x80, 1, [⟨0, 40, .ro, 0⟩]⟩,
   ⟨0x81, 1, [⟨0, 32, .ro, 0x8000008⟩]⟩,
   ⟨0x82, 1, [⟨0, 32, .ro, 0⟩]⟩,
   ⟨0x83, 3, [⟨0, 40, .rw, 0⟩]⟩,
   ⟨0x86, 1, [⟨0, 1, .wo, 0⟩]⟩]

/-- Registers of the LWF page layout. -/
def regsLwf : List RegDef :=
  [⟨0x03, 1, [⟨0, 1, .ro, 0⟩, ⟨1, 1, .ro, 0⟩]⟩,
   ⟨0x04, 1, [⟨0, 1, .rw, 0⟩, ⟨1, 1, .rw, 0⟩, ⟨2, 1, .rw, 0⟩]⟩,
   ⟨0x05, 1, [⟨0, 1, .w1c, 0⟩, ⟨1, 1, .w1c, 0⟩, ⟨2, 1, .w1c, 0⟩]⟩,
   ⟨0x10, 1, [⟨0, 8, .ro, 0⟩, ⟨8, 4, .ro, 0⟩, ⟨12, 4, .ro, 0⟩, ⟨16, 4, .ro, 0⟩, ⟨20, 9, .ro, 0⟩]⟩,
   ⟨0x11, 7, [⟨0, 40, .ro, 0⟩]⟩,
   ⟨0x80, 7, [⟨0, 40, .rw, 0⟩]⟩,
   ⟨0x87, 1, [⟨0, 4, .wo, 0⟩, ⟨8, 16, .wo, 0⟩]⟩,
   ⟨0x88, 1, [⟨0, 8, .ro, 0⟩, ⟨8, 4, .ro, 0⟩, ⟨12, 4, .ro, 0⟩]⟩]

/-- Registers of the DL page layout. -/
def regsDl : List RegDef :=
  [⟨0x02, 1, [⟨0, 1, .rw, 1⟩, ⟨1, 1, .wo, 0⟩, ⟨2, 2, .rw, 0⟩]⟩,
   ⟨0x03, 1, [⟨0, 3, .ro, 0⟩, ⟨11, 2, .ro, 3⟩, ⟨13, 3, .ro, 0⟩, ⟨16, 14, .ro, 0x3fff⟩]⟩,
   ⟨0x04, 1, [⟨0, 1, .rw, 0⟩, ⟨1, 1, .rw, 0⟩, ⟨2, 1, .rw, 0⟩, ⟨3, 1, .rw, 0⟩, ⟨4, 1, .rw, 0⟩, ⟨5, 1, .rw, 0⟩, ⟨6, 1, .rw, 0⟩, ⟨7, 1, .rw, 0⟩, ⟨8, 1, .rw, 0⟩, ⟨9, 1, .rw, 0⟩]⟩,
   ⟨0x05, 1, [⟨0, 1, .w1c, 0⟩, ⟨1, 1, .w1c, 0⟩, ⟨2, 1, .w1c, 0⟩, ⟨3, 1, .w1c, 0⟩, ⟨4, 1, .w1c, 0⟩, ⟨5, 1, .w1c, 0⟩, ⟨6, 1, .w1c, 0⟩, ⟨7, 1, .w1c, 0⟩, ⟨8, 1, .w1c, 0⟩, ⟨9, 1, .w1c, 0⟩]⟩,
   ⟨0x10, 1, [⟨0, 1, .ro, 0⟩, ⟨1, 1, .ro, 0⟩, ⟨2, 1, .ro, 0⟩, ⟨8, 8, .ro, 0⟩]⟩,
   ⟨0x11, 1, [⟨0, 40, .ro, 0⟩]⟩,
   ⟨0x12, 1, [⟨0, 4, .rw, 0xc⟩, ⟨4, 4, .rw, 6⟩, ⟨8, 4, .rw, 2⟩]⟩,
   ⟨0x13, 1, [⟨0, 8, .rw, 0⟩, ⟨8, 1, .rw, 1⟩]⟩,
   ⟨0x80, 1, [⟨0, 12, .ro, 0xfff⟩, ⟨12, 12, .ro, 0⟩, ⟨24, 12, .ro, 0⟩]⟩,
   ⟨0x81, 1, [⟨0, 40, .ro, 0⟩]⟩,
   ⟨0x82, 1, [⟨0, 40, .ro, 0⟩]⟩,
   ⟨0x83, 1, [⟨0, 40, .ro, 0⟩]⟩,
   ⟨0x84, 1, [⟨0, 40, .ro, 0⟩]⟩,
   ⟨0x85, 1, [⟨0, 40, .ro, 0⟩]⟩,
   ⟨0x86, 1, [⟨0, 40, .ro, 0⟩]⟩,
   ⟨0x87, 1, [⟨0, 24, .ro, 0⟩]⟩,
   ⟨0x88, 1, [⟨0, 40, .ro, 0⟩]⟩,
   ⟨0x89, 1, [⟨0, 40, .ro, 0⟩]⟩,
   ⟨0x8a, 1, [⟨0, 16, .ro, 0⟩]⟩,
   ⟨0xc0, 1, [⟨0, 14, .ro, 0x3fff⟩, ⟨20, 8, .ro, 0xff⟩, ⟨28, 2, .ro, 0⟩, ⟨30, 2, .ro, 0⟩]⟩,
   ⟨0xc1, 1, [⟨0, 1, .rwl, 0⟩, ⟨1, 1, .rwl, 1⟩, ⟨8, 16, .rwl, 0xc8⟩]⟩,
   ⟨0xc2, 1, [⟨0, 1, .wo, 0⟩]⟩,
   ⟨0xc3, 1, [⟨0, 4, .ro, 0⟩, ⟨4, 14, .ro, 0x3fff⟩]⟩,
   ⟨0xc4, 1, [⟨0, 14, .ro, 0⟩]⟩] ++
  [⟨0xc5, 1, [⟨0, 16, .rw, 0x3e8⟩]⟩,
   ⟨0xc6, 1, [⟨0, 14, .bk, 0⟩]⟩,
   ⟨0xc7, 1, [⟨0, 2, .ro, 0⟩, ⟨2, 1, .ro, 0⟩]⟩,
   ⟨0xc8, 1, [⟨0, 40, .ro, 0⟩]⟩,
   ⟨0xc9, 1, [⟨0, 24, .ro, 0⟩]⟩,
   ⟨0xca, 1, [⟨0, 40, .ro, 0⟩]⟩]

/-- Registers of the DTIME page layout. -/
def regsDtime : List RegDef :=
  [⟨0x02, 1, [⟨0, 1, .rw, 1⟩, ⟨1, 1, .rw, 0⟩]⟩,
   ⟨0x03, 1, [⟨0, 3, .ro, 0⟩, ⟨3, 1, .ro, 0⟩]⟩,
   ⟨0x04, 1, [⟨0, 1, .rw, 0⟩, ⟨1, 1, .rw, 0⟩, ⟨2, 1, .rw, 0⟩]⟩,
   ⟨0x05, 1, [⟨0, 1, .w1c, 0⟩, ⟨1, 1, .w1c, 0⟩, ⟨2, 1, .w1c, 0⟩]⟩,
   ⟨0x80, 1, [⟨0, 40, .ro, 0⟩]⟩,
   ⟨0x81, 1, [⟨0, 24, .ro, 0⟩]⟩,
   ⟨0x82, 1, [⟨0, 40, .rw, 0⟩]⟩,
   ⟨0x83, 1, [⟨0, 24, .rw, 0⟩]⟩,
   ⟨0x84, 1, [⟨0, 40, .rate, 0⟩]⟩,
   ⟨0x85, 1, [⟨0, 40, .ro, 0⟩]⟩,
   ⟨0x86, 1, [⟨0, 4, .rw, 2⟩, ⟨4, 4, .rw, 6⟩]⟩,
   ⟨0x87, 1, [⟨0, 10, .rw, 0xa⟩]⟩,
   ⟨0x88, 1, [⟨0, 24, .rw, 0x6400⟩]⟩,
   ⟨0x89, 1, [⟨0, 16, .rw, 0xd⟩]⟩,
   ⟨0x8a, 1, [⟨0, 20, .rw, 0x3e8⟩]⟩,
   ⟨0x8b, 1, [⟨0, 40, .ro, 0⟩]⟩]

/-- Registers of the DOM page layout. -/
def regsDom : List RegDef :=
  [⟨0x03, 1, [⟨0, 1, .ro, 0⟩, ⟨1, 1, .ro, 0⟩, ⟨2, 1, .ro, 0⟩, ⟨9, 9, .ro, 0⟩]⟩,
   ⟨0x04, 1, [⟨0, 1, .rw, 0⟩, ⟨1, 1, .rw, 0⟩, ⟨2, 1, .rw, 0⟩, ⟨3, 1, .rw, 0⟩, ⟨4, 1, .rw, 0⟩, ⟨5, 1, .rw, 0⟩, ⟨6, 1, .rw, 0⟩]⟩,
   ⟨0x05, 1, [⟨0, 1, .w1c, 0⟩, ⟨1, 1, .w1c, 0⟩, ⟨2, 1, .w1c, 0⟩, ⟨3, 1, .w1c, 0⟩, ⟨4, 1, .w1c, 0⟩, ⟨5, 1, .w1c, 0⟩, ⟨6, 1, .w1c, 0⟩]⟩,
   ⟨0x10, 1, [⟨0, 32, .rw, 0⟩, ⟨32, 1, .rw, 0⟩]⟩,
   ⟨0x11, 1, [⟨0, 40, .ro, 0⟩]⟩,
   ⟨0x80, 1, [⟨0, 20, .root, 0x2710⟩]⟩,
   ⟨0x81, 1, [⟨0, 40, .root, 0⟩]⟩,
   ⟨0x82, 1, [⟨0, 40, .root, 0⟩]⟩,
   ⟨0x83, 1, [⟨0, 24, .root, 0⟩]⟩,
   ⟨0x84, 1, [⟨0, 40, .ro, 0⟩]⟩,
   ⟨0x85, 1, [⟨0, 8, .ro, 0⟩, ⟨8, 8, .ro, 1⟩, ⟨16, 8, .rwl, 0⟩, ⟨24, 8, .ro, 0⟩]⟩,
   ⟨0x86, 1, [⟨0, 16, .rw, 2⟩]⟩,
   ⟨0x87, 1, [⟨0, 30, .rw, 0xf4240⟩]⟩,
   ⟨0x88, 1, [⟨0, 14, .bk, 0⟩, ⟨15, 1, .bk, 0⟩, ⟨16, 16, .bk, 0⟩, ⟨32, 8, .bk, 0⟩]⟩,
   ⟨0x89, 1, [⟨0, 40, .bk, 0⟩]⟩,
   ⟨0x8a, 1, [⟨0, 32, .bk, 0⟩, ⟨32, 7, .bk, 0⟩, ⟨39, 1, .wo, 0⟩]⟩,
   ⟨0x8b, 1, [⟨0, 4, .bkro, 0⟩, ⟨8, 16, .bkro, 0⟩]⟩,
   ⟨0x8c, 1, [⟨0, 14, .bk, 0⟩, ⟨14, 2, .bk, 0⟩, ⟨17, 1, .bk, 0⟩, ⟨18, 1, .bk, 0⟩]⟩,
   ⟨0x8d, 1, [⟨0, 16, .ro, 0⟩, ⟨16, 16, .ro, 0⟩, ⟨32, 7, .ro, 0⟩, ⟨39, 1, .ro, 0⟩]⟩,
   ⟨0x8e, 1, [⟨0, 32, .ro, 0⟩, ⟨32, 8, .ro, 0⟩]⟩,
   ⟨0x8f, 1, [⟨0, 1, .ro, 0⟩, ⟨2, 1, .ro, 0⟩, ⟨3, 7, .ro, 0⟩, ⟨10, 16, .ro, 0⟩, ⟨26, 14, .ro, 0⟩]⟩,
   ⟨0x90, 1, [⟨0, 40, .ro, 0⟩]⟩,
   ⟨0x91, 1, [⟨0, 40, .ro, 0⟩]⟩,
   ⟨0x92, 1, [⟨0, 40, .ro, 0⟩]⟩] ++
  [⟨0x93, 1, [⟨0, 40, .ro, 0⟩]⟩,
   ⟨0x94, 1, [⟨0, 40, .ro, 0⟩]⟩]

/-- Registers of the SNAP page layout. -/
def regsSnap : List RegDef :=
  [⟨0x02, 1, [⟨0, 1, .rw, 0⟩, ⟨1, 1, .rw, 0⟩]⟩,
   ⟨0x03, 1, [⟨0, 1, .ro, 0⟩, ⟨1, 1, .ro, 0⟩, ⟨2, 2, .ro, 0⟩, ⟨4, 2, .ro, 0⟩, ⟨6, 1, .ro, 0⟩, ⟨7, 2, .ro, 0⟩, ⟨9, 1, .ro, 0⟩]⟩,
   ⟨0x04, 1, [⟨0, 1, .rw, 0⟩, ⟨1, 1, .rw, 0⟩, ⟨2, 1, .rw, 0⟩, ⟨3, 1, .rw, 0⟩]⟩,
   ⟨0x05, 1, [⟨0, 1, .w1c, 0⟩, ⟨1, 1, .w1c, 0⟩, ⟨2, 1, .w1c, 0⟩, ⟨3, 1, .w1c, 0⟩]⟩,
   ⟨0x80, 1, [⟨0, 40, .ro, 0⟩]⟩,
   ⟨0x81, 1, [⟨0, 26, .rw, 0⟩]⟩,
   ⟨0x82, 1, [⟨0, 4, .rw, 9⟩]⟩,
   ⟨0x83, 1, [⟨0, 20, .rw, 0⟩]⟩,
   ⟨0x84, 1, [⟨0, 1, .wo, 0⟩, ⟨1, 1, .wo, 0⟩, ⟨2, 10, .ro, 0⟩, ⟨36, 2, .ro, 0⟩, ⟨38, 1, .ro, 0⟩, ⟨39, 1, .ro, 0⟩]⟩,
   ⟨0x85, 1, [⟨0, 40, .ro, 0⟩]⟩,
   ⟨0x86, 1, [⟨0, 10, .rw, 0x3e8⟩]⟩,
   ⟨0x87, 1, [⟨0, 16, .ro, 0⟩]⟩,
   ⟨0x88, 1, [⟨0, 16, .ro, 0⟩]⟩,
   ⟨0x89, 1, [⟨0, 40, .ro, 0⟩]⟩,
   ⟨0x8a, 1, [⟨0, 40, .ro, 0⟩]⟩,
   ⟨0x8b, 1, [⟨0, 40, .ro, 0⟩]⟩]

/-- Registers of the FRAY page layout. -/
def regsFray : List RegDef :=
  [⟨0x02, 1, [⟨0, 1, .rw, 0⟩]⟩,
   ⟨0x03, 1, [⟨0, 4, .ro, 0⟩, ⟨4, 1, .ro, 0⟩]⟩,
   ⟨0x04, 1, [⟨0, 4, .rw, 0⟩]⟩,
   ⟨0x05, 1, [⟨0, 4, .w1c, 0⟩]⟩,
   ⟨0x80, 1, [⟨0, 20, .rw, 1⟩, ⟨20, 1, .rw, 0⟩, ⟨21, 1, .rw, 0⟩, ⟨22, 4, .rw, 0⟩, ⟨26, 1, .rw, 0⟩, ⟨27, 1, .rw, 0⟩]⟩,
   ⟨0x81, 1, [⟨0, 20, .rw, 1⟩, ⟨20, 1, .rw, 0⟩, ⟨21, 1, .rw, 0⟩, ⟨22, 4, .rw, 0⟩, ⟨26, 1, .rw, 0⟩, ⟨27, 1, .rw, 0⟩]⟩,
   ⟨0x82, 1, [⟨0, 20, .rw, 1⟩, ⟨20, 1, .rw, 0⟩, ⟨21, 1, .rw, 0⟩, ⟨22, 4, .rw, 0⟩, ⟨26, 1, .rw, 0⟩, ⟨27, 1, .rw, 0⟩]⟩,
   ⟨0x83, 1, [⟨0, 20, .rw, 1⟩, ⟨20, 1, .rw, 0⟩, ⟨21, 1, .rw, 0⟩, ⟨22, 4, .rw, 0⟩, ⟨26, 1, .rw, 0⟩, ⟨27, 1, .rw, 0⟩]⟩,
   ⟨0x84, 1, [⟨0, 16, .rw, 0x64⟩]⟩,
   ⟨0x85, 1, [⟨0, 32, .rw, 1⟩]⟩,
   ⟨0x88, 4, [⟨0, 40, .ro, 0⟩]⟩]

/-- Registers of the PCIE page layout. -/
def regsPcie : List RegDef :=
  [⟨0x02, 1, [⟨0, 1, .rw, 0⟩, ⟨1, 1, .rwl, 1⟩]⟩,
   ⟨0x03, 1, [⟨0, 1, .ro, 0⟩, ⟨1, 3, .ro, 0⟩, ⟨4, 2, .ro, 0⟩, ⟨6, 1, .ro, 0⟩, ⟨7, 1, .ro, 0⟩]⟩,
   ⟨0x04, 1, [⟨0, 1, .rw, 0⟩, ⟨1, 1, .rw, 0⟩, ⟨2, 1, .rw, 0⟩, ⟨3, 1, .rw, 0⟩, ⟨4, 1, .rw, 0⟩, ⟨5, 1, .rw, 0⟩]⟩,
   ⟨0x05, 1, [⟨0, 1, .w1c, 0⟩, ⟨1, 1, .w1c, 0⟩, ⟨2, 1, .w1c, 0⟩, ⟨3, 1, .w1c, 0⟩, ⟨4, 1, .w1c, 0⟩, ⟨5, 1, .w1c, 0⟩]⟩,
   ⟨0x80, 1, [⟨0, 8, .wo, 0⟩]⟩,
   ⟨0x81, 1, [⟨0, 32, .wo, 0⟩]⟩,
   ⟨0x82, 1, [⟨0, 32, .wo, 0⟩]⟩,
   ⟨0x83, 1, [⟨0, 16, .rwl, 0x1f4c⟩, ⟨16, 16, .rwl, 0x4080⟩]⟩,
   ⟨0x84, 1, [⟨0, 32, .ro, 0⟩, ⟨32, 2, .ro, 0⟩]⟩,
   ⟨0x85, 1, [⟨0, 40, .ro, 0⟩]⟩,
   ⟨0x86, 1, [⟨0, 40, .ro, 0⟩]⟩,
   ⟨0x87, 1, [⟨0, 40, .ro, 0⟩]⟩,
   ⟨0x88, 8, [⟨0, 30, .ro, 0⟩]⟩,
   ⟨0x90, 1, [⟨0, 29, .rw, 0⟩]⟩,
   ⟨0x91, 1, [⟨0, 40, .ro, 0⟩]⟩]

/-- Registers of the MBOX page layout. -/
def regsMbox : List RegDef :=
  [⟨0x04, 1, [⟨0, 1, .rw, 0⟩, ⟨1, 1, .rw, 0⟩, ⟨2, 1, .rw, 0⟩]⟩,
   ⟨0x05, 1, [⟨0, 1, .w1c, 0⟩, ⟨1, 1, .w1c, 0⟩, ⟨2, 1, .w1c, 0⟩]⟩,
   ⟨0x10, 1, [⟨0, 1, .rw, 0⟩, ⟨1, 1, .rw, 0⟩]⟩,
   ⟨0x11, 1, [⟨0, 14, .rw, 0⟩, ⟨14, 6, .rw, 0⟩, ⟨20, 7, .rw, 0⟩, ⟨39, 1, .wo, 0⟩]⟩,
   ⟨0x12, 1, [⟨2, 2, .ro, 0⟩, ⟨4, 2, .ro, 0⟩, ⟨6, 1, .ro, 0⟩, ⟨7, 1, .w1c, 0⟩, ⟨8, 1, .w1c, 0⟩, ⟨9, 2, .ro, 0⟩, ⟨11, 2, .ro, 0⟩]⟩,
   ⟨0x13, 1, [⟨0, 3, .ro, 0⟩, ⟨3, 1, .wo, 0⟩]⟩,
   ⟨0x80, 1, [⟨0, 26, .rwl, 0⟩]⟩,
   ⟨0x81, 1, [⟨0, 32, .ro, 0⟩]⟩,
   ⟨0x82, 1, [⟨0, 32, .ro, 0⟩]⟩]

/-- Registers of the ETH page layout. -/
def regsEth : List RegDef :=
  [⟨0x02, 1, [⟨0, 1, .rw, 0⟩, ⟨1, 1, .rw, 0⟩]⟩,
   ⟨0x03, 1, [⟨0, 1, .ro, 0⟩, ⟨1, 1, .ro, 0⟩, ⟨2, 1, .ro, 0⟩]⟩,
   ⟨0x04, 1, [⟨0, 1, .rw, 0⟩, ⟨1, 1, .rw, 0⟩, ⟨2, 1, .rw, 0⟩, ⟨3, 1, .rw, 0⟩, ⟨4, 1, .rw, 0⟩]⟩,
   ⟨0x05, 1, [⟨0, 1, .w1c, 0⟩, ⟨1, 1, .w1c, 0⟩, ⟨2, 1, .w1c, 0⟩, ⟨3, 1, .w1c, 0⟩, ⟨4, 1, .w1c, 0⟩]⟩,
   ⟨0x10, 1, [⟨0, 40, .rw, 0⟩]⟩,
   ⟨0x11, 1, [⟨0, 8, .rw, 0⟩, ⟨8, 1, .rw, 0⟩]⟩,
   ⟨0x80, 1, [⟨0, 40, .rw, 0⟩]⟩,
   ⟨0x81, 1, [⟨0, 8, .rw, 0⟩]⟩,
   ⟨0x82, 1, [⟨0, 12, .rw, 0⟩, ⟨12, 1, .rw, 0⟩]⟩,
   ⟨0x83, 1, [⟨0, 32, .rw, 0⟩]⟩,
   ⟨0x84, 4, [⟨0, 32, .rw, 0⟩]⟩,
   ⟨0x88, 1, [⟨0, 32, .rw, 0⟩]⟩,
   ⟨0x89, 1, [⟨0, 16, .rw, 0⟩]⟩,
   ⟨0x8a, 1, [⟨0, 16, .ro, 0⟩]⟩,
   ⟨0x8b, 1, [⟨0, 16, .rw, 0⟩]⟩,
   ⟨0x8c, 1, [⟨0, 32, .rw, 0⟩]⟩,
   ⟨0x8d, 1, [⟨0, 16, .rw, 0⟩]⟩,
   ⟨0x8e, 1, [⟨0, 16, .rw, 0⟩]⟩,
   ⟨0x8f, 1, [⟨0, 16, .ro, 0⟩]⟩,
   ⟨0x90, 1, [⟨0, 40, .ro, 0⟩]⟩,
   ⟨0x91, 1, [⟨0, 24, .ro, 0⟩, ⟨24, 8, .ro, 0⟩, ⟨32, 1, .ro, 0⟩]⟩,
   ⟨0x92, 1, [⟨0, 40, .rw, 0⟩]⟩,
   ⟨0x93, 1, [⟨0, 24, .rw, 0⟩]⟩,
   ⟨0x94, 1, [⟨0, 40, .ro, 0⟩]⟩] ++
  [⟨0x95, 1, [⟨0, 40, .ro, 0⟩]⟩,
   ⟨0x96, 1, [⟨0, 40, .ro, 0⟩]⟩,
   ⟨0x98, 1, [⟨0, 16, .wo, 0⟩, ⟨27, 5, .wo, 0⟩, ⟨32, 5, .wo, 0⟩, ⟨37, 1, .wo, 0⟩, ⟨38, 2, .wo, 0⟩]⟩,
   ⟨0x99, 1, [⟨0, 16, .ro, 0⟩, ⟨16, 1, .ro, 0⟩]⟩]

/-- Registers of the SVC page layout. -/
def regsSvc : List RegDef :=
  [⟨0x02, 1, [⟨0, 1, .rw, 0⟩, ⟨1, 1, .rw, 1⟩]⟩,
   ⟨0x03, 1, [⟨0, 13, .ro, 0⟩]⟩,
   ⟨0x04, 1, [⟨0, 1, .rw, 0⟩, ⟨1, 1, .rw, 0⟩, ⟨2, 1, .rw, 0⟩]⟩,
   ⟨0x05, 1, [⟨0, 1, .w1c, 0⟩, ⟨1, 1, .w1c, 0⟩, ⟨2, 1, .w1c, 0⟩]⟩,
   ⟨0x10, 1, [⟨12, 16, .ro, 0⟩, ⟨28, 8, .ro, 0⟩, ⟨36, 1, .ro, 0⟩, ⟨37, 1, .ro, 0⟩, ⟨38, 1, .ro, 0⟩, ⟨39, 1, .ro, 0⟩]⟩,
   ⟨0x11, 1, [⟨0, 40, .ro, 0⟩]⟩,
   ⟨0x12, 1, [⟨0, 1, .wo, 0⟩]⟩,
   ⟨0x80, 1, [⟨0, 16, .rwl, 0x9e20⟩]⟩,
   ⟨0x81, 1, [⟨0, 32, .wo, 0⟩]⟩,
   ⟨0x82, 1, [⟨0, 13, .rwl, 0x1000⟩]⟩,
   ⟨0x83, 1, [⟨0, 40, .ro, 0⟩]⟩,
   ⟨0x84, 1, [⟨0, 40, .ro, 0⟩]⟩]

/-- Registers of the CLU page layout. -/
def regsClu : List RegDef :=
  [⟨0x02, 1, [⟨0, 1, .rw, 0⟩, ⟨1, 1, .rwl, 1⟩]⟩,
   ⟨0x03, 1, [⟨0, 3, .ro, 0⟩, ⟨4, 4, .ro, 0⟩, ⟨8, 4, .ro, 0xf⟩]⟩]

/-- Registers of the DEV page layout. -/
def regsDev : List RegDef :=
  [⟨0x02, 1, [⟨0, 1, .rw, 0⟩]⟩,
   ⟨0x03, 1, [⟨0, 1, .ro, 0⟩, ⟨1, 1, .ro, 0⟩, ⟨2, 5, .ro, 0⟩]⟩,
   ⟨0x04, 1, [⟨0, 1, .rw, 0⟩, ⟨1, 1, .rw, 0⟩]⟩,
   ⟨0x05, 1, [⟨0, 1, .w1c, 0⟩, ⟨1, 1, .w1c, 0⟩]⟩,
   ⟨0x80, 1, [⟨0, 8, .ro, 0⟩, ⟨8, 2, .ro, 0⟩, ⟨16, 8, .ro, 0⟩, ⟨24, 12, .ro, 0⟩, ⟨36, 4, .ro, 0⟩]⟩,
   ⟨0x81, 1, [⟨0, 8, .ro, 1⟩, ⟨16, 15, .ro, 0⟩]⟩,
   ⟨0x88, 8, [⟨0, 32, .rw, 0⟩]⟩,
   ⟨0x90, 1, [⟨0, 8, .rw, 0⟩]⟩,
   ⟨0x91, 1, [⟨0, 32, .wo, 0⟩]⟩,
   ⟨0x92, 1, [⟨0, 32, .ro, 0xfffffffe⟩]⟩]

/-- Registers of the RST page layout. -/
def regsRst : List RegDef :=
  [⟨0x03, 1, [⟨0, 1, .ro, 0⟩]⟩,
   ⟨0x80, 1, [⟨0, 8, .wo, 0⟩, ⟨8, 1, .wo, 0⟩, ⟨24, 16, .wo, 0⟩]⟩,
   ⟨0x88, 8, [⟨0, 3, .ro, 0⟩]⟩,
   ⟨0x90, 8, [⟨0, 40, .ro, 0⟩]⟩]

/-- Registers of the PWR page layout. -/
def regsPwr : List RegDef :=
  [⟨0x02, 1, [⟨0, 8, .rw, 0⟩]⟩,
   ⟨0x03, 1, [⟨0, 2, .ro, 0⟩, ⟨2, 8, .ro, 0⟩, ⟨10, 8, .ro, 0⟩]⟩,
   ⟨0x04, 1, [⟨0, 1, .rw, 0⟩, ⟨1, 1, .rw, 0⟩]⟩,
   ⟨0x05, 1, [⟨0, 1, .w1c, 0⟩, ⟨1, 1, .w1c, 0⟩]⟩,
   ⟨0x80, 1, [⟨0, 1, .wo, 0⟩, ⟨24, 16, .wo, 0⟩]⟩]

/-- Registers of the MAINT page layout. -/
def regsMaint : List RegDef :=
  [⟨0x03, 1, [⟨0, 16, .ro, 0⟩]⟩,
   ⟨0x10, 1, [⟨0, 5, .ro, 0⟩, ⟨8, 4, .ro, 0⟩]⟩,
   ⟨0x11, 1, [⟨0, 40, .ro, 0⟩]⟩]

/-- Registers of the MON page layout. -/
def regsMon : List RegDef :=
  [⟨0x04, 1, [⟨0, 16, .rw, 0⟩]⟩,
   ⟨0x05, 1, [⟨0, 16, .w1c, 0⟩]⟩,
   ⟨0x10, 1, [⟨0, 16, .ro, 0⟩]⟩,
   ⟨0x11, 1, [⟨0, 16, .rwl, 0x7fff⟩]⟩,
   ⟨0x12, 1, [⟨0, 16, .rwl, 0⟩]⟩,
   ⟨0x13, 1, [⟨0, 2, .rwl, 0⟩]⟩]

/-- Registers of the BIST page layout. -/
def regsBist : List RegDef :=
  [⟨0x03, 1, [⟨0, 6, .ro, 0⟩, ⟨6, 1, .ro, 0⟩]⟩,
   ⟨0x04, 1, [⟨0, 1, .rw, 0⟩, ⟨1, 1, .rw, 0⟩, ⟨2, 1, .rw, 0⟩]⟩,
   ⟨0x05, 1, [⟨0, 1, .w1c, 0⟩, ⟨1, 1, .w1c, 0⟩, ⟨2, 1, .w1c, 0⟩]⟩,
   ⟨0x10, 1, [⟨0, 1, .wo, 0⟩, ⟨1, 1, .rw, 0⟩]⟩,
   ⟨0x11, 1, [⟨0, 1, .ro, 0⟩, ⟨1, 1, .ro, 0⟩, ⟨2, 2, .ro, 0⟩, ⟨4, 4, .ro, 0⟩]⟩,
   ⟨0x12, 1, [⟨0, 32, .ro, 0⟩]⟩]

/-- Registers of the SEC page layout. -/
def regsSec : List RegDef :=
  [⟨0x03, 1, [⟨0, 1, .ro, 0⟩]⟩,
   ⟨0x04, 1, [⟨0, 1, .rw, 0⟩]⟩,
   ⟨0x05, 1, [⟨0, 1, .w1c, 0⟩]⟩,
   ⟨0x80, 1, [⟨0, 1, .wo, 0⟩, ⟨1, 1, .wo, 0⟩]⟩,
   ⟨0x81, 1, [⟨0, 1, .ro, 0⟩, ⟨1, 1, .ro, 0⟩, ⟨2, 1, .ro, 0⟩, ⟨6, 4, .ro, 0⟩, ⟨10, 1, .ro, 0⟩, ⟨11, 7, .ro, 0⟩]⟩,
   ⟨0x82, 1, [⟨0, 1, .ro, 0⟩, ⟨1, 1, .ro, 0⟩, ⟨2, 4, .ro, 0⟩, ⟨6, 4, .ro, 0⟩]⟩]

/-- Registers of the DBG page layout. -/
def regsDbg : List RegDef :=
  [⟨0x03, 1, [⟨0, 2, .ro, 0⟩, ⟨2, 1, .ro, 0⟩]⟩,
   ⟨0x80, 1, [⟨0, 32, .w1s, 0⟩]⟩,
   ⟨0x81, 1, [⟨0, 32, .wo, 0⟩]⟩,
   ⟨0x82, 1, [⟨0, 32, .ro, 0⟩]⟩,
   ⟨0x83, 1, [⟨0, 3, .ro, 0⟩]⟩,
   ⟨0x84, 1, [⟨0, 3, .rw, 0⟩]⟩]

/-- Registers of the TRACE page layout. -/
def regsTrace : List RegDef :=
  [⟨0x02, 1, [⟨0, 1, .rw, 0⟩, ⟨1, 5, .rw, 0⟩]⟩,
   ⟨0x03, 1, [⟨0, 7, .ro, 0⟩]⟩,
   ⟨0x04, 1, [⟨0, 1, .rw, 0⟩]⟩,
   ⟨0x05, 1, [⟨0, 1, .w1c, 0⟩]⟩]

end Sys2Proof.Machine
end

