-- ==== Sys2Proof/Machine/Sparse.lean ====
section
/-! DEFINITION. Sparse tables: a list of (key, value) pairs in one canonical form, in rising rank of the key and with
no entry equal to what an unlisted key reads as. Memory, the register file and every per-instance table are held so. -/

namespace Sys2Proof.Machine

/-- A sparse table. -/
abbrev Sparse (κ α : Type) := List (κ × α)

variable {κ α : Type}

/-- The value at key `k`; `d k` where the table lists none. -/
def Sparse.get [DecidableEq κ] (d : κ → α) (m : Sparse κ α) (k : κ) : α :=
  match m with
  | [] => d k
  | (k', v) :: rest => if k' = k then v else Sparse.get d rest k

/-- The table without an entry for `k`. -/
def Sparse.erase [DecidableEq κ] (m : Sparse κ α) (k : κ) : Sparse κ α :=
  match m with
  | [] => []
  | (k', v) :: rest => if k' = k then Sparse.erase rest k else (k', v) :: Sparse.erase rest k

/-- The table with an entry added before the first key of greater rank. -/
def Sparse.insert (rank : κ → Nat) (m : Sparse κ α) (k : κ) (v : α) : Sparse κ α :=
  match m with
  | [] => [(k, v)]
  | (k', v') :: rest =>
    if rank k' < rank k then (k', v') :: Sparse.insert rank rest k v else (k, v) :: (k', v') :: rest

/-- The table with the value at `k` set to `v`; the entry goes when `v` is what an unlisted key reads as. -/
def Sparse.put [DecidableEq κ] [DecidableEq α] (rank : κ → Nat) (d : κ → α) (m : Sparse κ α) (k : κ) (v : α) :
    Sparse κ α :=
  if v = d k then Sparse.erase m k else Sparse.insert rank (Sparse.erase m k) k v

/-- The canonical form: ranks strictly rising and no entry equal to the default. -/
def Sparse.wf [DecidableEq α] (rank : κ → Nat) (d : κ → α) (m : Sparse κ α) : Bool :=
  match m with
  | [] => true
  | (k, v) :: rest => v ≠ d k && rest.all (fun e => rank k < rank e.1) && Sparse.wf rank d rest

/-- A table keyed by an instance number. -/
abbrev Bank (α : Type) := Sparse Nat α

/-- Instance `k` of a bank whose instances start as `d`. -/
def Bank.at (d : α) (m : Bank α) (k : Nat) : α := Sparse.get (fun _ => d) m k

/-- The bank with instance `k` set. -/
def Bank.set [DecidableEq α] (d : α) (m : Bank α) (k : Nat) (v : α) : Bank α := Sparse.put id (fun _ => d) m k v

end Sys2Proof.Machine
end

