-- ==== Sys2Proof/Machine/State.lean ====
section
/-! DEFINITION. The state of the block: the queue of waiting commands, the register file, the memories, and the state the
spec gives each unit beside its registers. Plain data; a register field the spec names is held in the register file. -/

namespace Sys2Proof.Machine

open Sys2Proof

/-! ## Register pages (chapter 01) -/

/-- R43. One requester's bank for one register pair: the low word's key and the requester's bank.
DEDUCED, unsafe: log entry 18. -/
structure PairKey where
  reg : RegKey
  bank : Nat
deriving DecidableEq, Repr

/-- R43. What a requester's bank holds for a pair: a captured high word, and a held low word. -/
structure PairBank where
  cap : Option Word := none
  held : Option Word := none
deriving DecidableEq, Repr

/-! ## Cores (chapters 07 to 09) -/

/-- R358, R360. An imprecise exception that waits for a boundary: its code and its INFO. -/
structure Imprecise where
  code : Nat
  info : Nat
deriving DecidableEq, Repr

/-- R374. A claimed source on a core's active stack, with the tier and PRIO it held at the claim. -/
structure Claimed where
  src : Nat
  tier : Nat
  prio : Nat
deriving DecidableEq, Repr

/-- R380. A source disabled in COMPAT mode that may still be presented until `until'`, or claimed once. -/
structure LateOff where
  cl : Nat
  src : Nat
  until' : Nat
deriving DecidableEq, Repr

/-- R358. A precise exception that waits for its entry: what the frame will say of it.
DEDUCED, unsafe: log entry 65. -/
structure Precise where
  code : Nat
  info : Nat := 0
  faddr : Nat := 0
  retPc : Nat
  half : Bool := false
deriving DecidableEq, Repr

/-- R291, R340. A load on its way, with the words it took at issue from plain memory or by forwarding. -/
structure Load where
  words : List Word
deriving DecidableEq, Repr

/-- How a move stands in its packets: a half, a whole packet, or straddling two (R270). -/
inductive MoveKind
  | short | whole | straddle
deriving DecidableEq, Repr

/-- R318, R328, R337. A load of a register page, of flash or of DRAM that has issued: its words are read when it returns, and
no later move issues before. It keeps the address lsu.ldi leaves in lsu.a, the ring, and where its move stands (PC, half and
repeat), for a failure that R346 and R358 report there.
DEDUCED, unsafe: log entry 60. -/
structure OpenLoad where
  addr : Nat
  dbl : Bool
  next : Option Word
  ring : Nat := 0
  pc : Nat := 0
  half : Bool := false
  rpt : Option Nat := none
  rptInt : Bool := false
  rptCnt : Nat := 0
deriving DecidableEq, Repr

/-- R321 to R323. A fill under way: its line, and whether the line goes to the cache too (R326, R348). -/
structure Fill where
  line : Nat
  caching : Bool
deriving DecidableEq, Repr

/-- R338. A store-buffer entry: the words stored from an address on, the ring at issue, whether it is the upper half of a
split store, and whether SNAP has marked it (R342). -/
structure Store where
  addr : Nat
  words : List Word
  ring : Nat
  upper : Bool := false
  marked : Bool := false
deriving DecidableEq, Repr

/-- R287. A division in progress: 0 div.t, 1 div.q, 2 div.u; its dividend and divisor, the steps it had done when a return
restored it, and its results where words that a handler has changed give them.
DESIGN CHOICE, safe: log entry 62. -/
structure DivOp where
  kind : Nat
  t : Word
  a : Word
  steps : Nat := 0
  out : Option (Word × Word) := none
deriving DecidableEq, Repr

/-- R308, R368. What words 4 to 8 of a frame stand for: the division that an entry stopped, wherever the words are moved. -/
structure DivSaved where
  words : List Word
  op : DivOp
deriving DecidableEq, Repr

/-- R289, R308. The ring of a copy that an entry stopped, by its frame and by words 12 to 14.
DEDUCED, unsafe: log entry 144. -/
structure CpySaved where
  frame : Nat
  words : List Word
  ring : Nat
deriving DecidableEq, Repr

/-- R289. A copy in progress. -/
structure CopyOp where
  src : Nat
  dst : Nat
  count : Nat
  ring : Nat
deriving DecidableEq, Repr

/-- R329. A branch-target-table entry. -/
structure Btt where
  tag : Nat
  target : Option Nat := none
  ctr : Nat := 1
deriving DecidableEq, Repr

/-- R321. A line of 8 packets, by its global address; `none` for a packet that came poisoned or uncorrectable. -/
structure FLine where
  addr : Nat
  words : List (Option Word)
deriving DecidableEq, Repr

/-- One core. -/
structure CoreSt where
  /-- R310. RING, FLAGS.SAT, p1 to p7 (bit j: pj), RPT_CNT, RS_CFG. -/
  ring : Nat := 0
  sat : Bool := false
  preds : Nat := 1
  rptCnt : Nat := 0
  rsCfg : Nat := 0xF
  rsWrapped : Bool := false
  /-- R304. The return stack, top first. -/
  rs : List Nat := []
  /-- v1 to v31. -/
  v : Bank Word := []
  /-- Next packet, and whether its H0 is done. -/
  pc : Nat := 0
  half : Bool := false
  /-- R300. A repeat of the body packet, and its INT. -/
  rpt : Option Nat := none
  rptInt : Bool := false
  /-- Operand ports (R279, R281). -/
  aluA : Word := 0
  shfA : Word := 0
  cmpA : Word := 0
  mulA : Word := 0
  macA : Word := 0
  divA : Word := 0
  cpyS : Word := 0
  cpyD : Word := 0
  lsuA : Word := 0
  lsuB : Word := 0
  lsuH : Word := 0
  cnsA : Word := 0
  /-- Result ports, and the accumulators. -/
  aluR : Word := 0
  shfR : Word := 0
  cmpR : Word := 0
  mulR : Word := 0
  divR : Word := 0
  divM : Word := 0
  lsuR : Word := 0
  lsuRh : Word := 0
  cnsR : Word := 0
  cpyR : Word := 0
  acc : List DWord := [0, 0, 0, 0]
  /-- R298. OUT, and the EVP latches (R297). -/
  gio : Nat := 0
  evp : Nat := 0
  /-- R287, R289, R308. DIV and CPY in progress. -/
  div : Option DivOp := none
  cpy : Option CopyOp := none
  /-- Loads on their way, oldest first; the load that holds the core; the store buffer, oldest first. -/
  loads : List Load := []
  openLoad : Option OpenLoad := none
  sb : List Store := []
  /-- R312. A precise exception raised and not yet entered; pending imprecise exceptions, oldest first (R360). -/
  exc : Option Precise := none
  faults : List Imprecise := []
  /-- R370. The entry whose first packet has not yet been fetched: its code and the RET_PC saved. -/
  entered : Option (Nat × Nat) := none
  /-- R377. The source presented at the last interrupt entry, until the handler's first CLAIM. -/
  presented : Option Nat := none
  /-- R662. Halted by the debugger, or asked to halt at the next boundary. -/
  halted : Bool := false
  haltReq : Bool := false
  /-- R329, R330. The predictor: BTT entries by index, RAP top first. -/
  btt : Bank (Option Btt) := []
  rap : List Nat := []
  /-- R321. The line buffer, youngest first, and the cache, each set most recently used first. -/
  lines : List FLine := []
  cache : Bank (List FLine) := []
  /-- R325. The packet fetched for the half that comes next, by its address. -/
  pkt : Option (Nat × Word) := none
  /-- R329, R330. The packet at hand has been decoded: the target the BTT predicts for it, and what its returns popped. -/
  decoded : Bool := false
  predB : Option Nat := none
  predR : List (Option Nat) := []
  /-- R332. Moves into sys.pred of the packet at hand, in order; they act from the next packet. -/
  predOps : List Nat := []
  /-- R322, R323. The fill under way, the lines whose requests wait for it, the line now issuing, and a next line whose
  request waits for a control move under BAR (R333). -/
  fill : Option Fill := none
  wants : List Nat := []
  curLine : Option Nat := none
  later : Option Nat := none
  /-- R326. When INV_ALL is done. R327. The packet at hand has waited on a busy flash. -/
  invUntil : Nat := 0
  busyWait : Bool := false
deriving DecidableEq, Repr

/-! ## Seam (chapter 04) -/

/-- R146, R147. An event on its way: the channel that carries it, the consumer code it was launched to, and its arrival time.
DEDUCED, unsafe: log entry 36. -/
structure Flight where
  chan : Chan
  cons : Nat
  due : Nat := 0
deriving DecidableEq, Repr

/-- R149, R150. A consumer input: when it last accepted a trigger, and its last arrival with the channel that brought it. -/
structure SeamIn where
  accept : Option Nat := none
  last : Option (Nat × Chan) := none
deriving DecidableEq, Repr

/-! ## Maintenance scheduler (chapter 16) -/

/-- R625. A request of the maintenance scheduler: its kind as QSTAT.RUN_KIND codes it, and what it names. -/
structure MaintReq where
  kind : Nat
  arg : Nat
deriving DecidableEq, Repr

/-! ## Measurement (chapter 02) -/

/-- R664. The settings a conversion takes at the edge at which its converter accepts the start. -/
structure ConvCfg where
  entry : Nat := 0
  mux : Nat := 0
  res : Nat := 0
  signed : Bool := false
  gain : Int := 0
  offset : Int := 0
  unit : Nat := 0
deriving DecidableEq, Repr

/-- R60, R62, R63. One logical converter: the conversion in hand, the pending start, alone or as half of a pair, and the code
of the threshold DAC its mux selects, as it stood when the sample was held. -/
structure LogConv where
  cfg : ConvCfg := {}
  pend : Option Nat := none
  pendPair : Bool := false
  held : Nat := 0
deriving DecidableEq, Repr

/-- The converters of one cluster: both logical converters, start-up calibration, rotation and read-back. -/
structure AdcSt where
  convA : LogConv := {}
  convB : LogConv := {}
  /-- R71. Start-up calibration has begun and has ended since the last cluster reset. -/
  startBegun : Bool := false
  startDone : Bool := false
  /-- R74. Calibration attempts made on the spare. -/
  tries : Nat := 0
  /-- R73. ROT_INT has passed, or ROT_NOW has been written, since the previous handover. -/
  intervalUp : Bool := false
  /-- R73. When the interval of ROT_INT began. -/
  intervalAt : Nat := 0
  rotNow : Bool := false
  /-- R95. DAC index of the waiting, the running and the next read-back. -/
  rbWait : Option Nat := none
  rbRun : Option Nat := none
  rbNext : Option Nat := none
deriving DecidableEq, Repr

/-- R408, R409. The switch of a pin by a write of PFUNC or ANA: the edge at which the page accepted it, the ball as it then
stood, and whether the input function is a new one. -/
structure PinSw where
  at' : Nat
  ball : Option Bool
  input : Bool
deriving DecidableEq, Repr

/-- R79 to R85. One sigma-delta channel: bits captured, newest first, and the counters over them.
DESIGN CHOICE, unsafe: log entry 26. -/
structure SdfSt where
  bits : List Bool := []
  /-- Bits captured since the last output or sync (R82). -/
  phase : Nat := 0
  /-- Bits captured since enable or clock loss (R83). -/
  settled : Nat := 0
  /-- R78. Consecutive Manchester periods without a transition. -/
  mdRun : Nat := 0
  /-- R83. Outputs formed and not yet written, oldest first: y and R^K. -/
  outs : List (Int × Nat) := []
deriving DecidableEq, Repr

/-- R87, R89. One comparator: its state before POL and the lint history, newest first. -/
structure CmpSt where
  raw : Bool := false
  hist : List Bool := []
deriving DecidableEq, Repr

/-! ## Trackers (chapter 03) -/

/-- One position tracker. -/
structure TrkSt where
  lines : Lines := {}
  /-- R119. The index condition as it last stood. -/
  index : Bool := false
  /-- R126. A count step has been made; cycles since the last one. -/
  stepped : Bool := false
  e : Nat := 0
  /-- R124. Sum of the count steps of the running window. -/
  delta : Int := 0
  /-- R120. 0 no frame, 1 a frame runs, 2 its monoflop time runs. -/
  ssi : Nat := 0
  /-- R122. Consecutive rejections. -/
  rejects : Nat := 0
  /-- R120. The edge that sampled the frame's start; its start bit has been seen. -/
  start : Nat := 0
  startSeen : Bool := false
  /-- R121. The edge of the last error. -/
  errAt : Option Nat := none
  /-- R118. The edge of the last count step, index or committed write, with POS as item 1 of that edge left it; the edges of
  the last committed write and of the last probe latches. -/
  item1 : Option (Nat × Nat) := none
  commitAt : Option Nat := none
  prb0At : Option Nat := none
  prb1At : Option Nat := none
  /-- R123, R125. Edges of the running window, and its length; closed windows, oldest first: Δ and the edge of the report. -/
  win : Nat := 0
  winLen : Nat := 400
  reports : List (Int × Nat) := []
  /-- R127. Edges until PSPEED is computed after each of the last count steps. -/
  pspIn : List Nat := []
deriving DecidableEq, Repr

/-! ## PWM (chapter 06) -/

/-- R237 to R240. One output: its state, when it last turned on and off, and its standing requests, in fine steps on its
timebase's own time. A requested turn-on carries the dead time in force when it was computed (R242).
DESIGN CHOICE, unsafe: log entry 51. -/
structure PwmOut where
  on : Bool := false
  onAt : Int := 0
  offAt : Int := 0
  wantOn : Option (Int × Int) := none
  wantOff : Option Int := none
deriving DecidableEq, Repr

/-- One PWM channel: CHCFG and MINP as in effect (R242), the crossings of this slope (R250), the last change of REF. -/
structure PwmCh where
  asym : Bool := false
  stretch : Bool := false
  minp : Nat := 64
  crossA : Bool := false
  crossB : Bool := false
  refAt : Int := 0
  hi : PwmOut := {}
  lo : PwmOut := {}
deriving DecidableEq, Repr

/-- One timebase: the time of its last point, the alignment's change of the next zero point (R254), whether its
outputs wait to resume (R260), the occurrence counts of its event outputs (R251), while a trip is active the last edge
at which an enabled source was seen active (R259), and the commit edge (R244). -/
structure PwmTb where
  slope : Int := 0
  adj : Int := 0
  held : Bool := false
  counts : List Nat := [0, 0, 0, 0, 0, 0, 0, 0]
  srcAt : Option Nat := none
  commitAt : Option Nat := none
deriving DecidableEq, Repr

/-- What waits for a PWM_CLK edge of cluster `c`: a SYNC sampled (R252), a snap (R255), a trip begun (R257); a change of LMODE
(R246), of an OCFG (R240) or of a scorch register (R256), each with what stays in force until the edge; a compare word on its
way from the Loop Engine (R204), and one that has landed at this edge (R205). -/
inductive EdgeDue
  | sync (c t : Nat)
  | snap (c t : Nat)
  | trip (c t : Nat) (sw : Bool)
  | lmode (c t : Nat) (was : Bool)
  | ocfg (c k : Nat) (was : Word)
  | scorch (c off t : Nat) (was : Word)
  | landing (c k off : Nat) (d : Word) (immediate : Bool)
  | landed (c k off : Nat)
  | timeSet (t : Nat)
  | timeShift (o : Int)
deriving DecidableEq, Repr

/-! ## Loop Engine (chapter 05) -/

/-- R184, R187. A trigger held by a slot: its sampling edge, the deadline taken there, and the input latch, empty until the
edge after the sampling edge. -/
structure HeldTrig where
  edge : Nat := 0
  dl : Nat := 0
  latch : Option Word := none
deriving DecidableEq, Repr

/-- Where a run stands: in the vendor frame before a customer routine (or without one), in the routine, or back in the
frame after it (R220). -/
inductive RunPhase
  | frame | routine | back
deriving DecidableEq, Repr

/-- R186 to R221. The run in progress. Registers hold signed numbers. -/
structure LoopRun where
  slot : Nat
  edge : Nat
  dl : Nat
  start : Nat
  phase : RunPhase := .frame
  /-- Microwords executed from the frame's call to the routine's return. -/
  n : Nat := 0
  upc : Nat := 0
  /-- R187. Values taken at the start edge. -/
  meas : Int
  setp : Int
  ff : Int
  yprev : Int
  scfg : Nat
  stgt : Nat
  uentry : Nat
  first : Bool
  /-- R187, R196. The committed state words and the words of the parameter bank, as they stood at the start edge. -/
  st0 : List Int := []
  par : List Word := []
  /-- R210. Registers w1 to w15 (index 0 unused), a0 to a3, OUTV, flags, micro-stack and store queue, youngest first. -/
  w : List Int := List.replicate 16 0
  acc : List Int := List.replicate 4 0
  outv : Int
  z : Bool := false
  neg : Bool := false
  sat : Bool := false
  stack : List Nat := []
  queue : List (Nat × Word) := []
  /-- R191. State words staged by the run. -/
  st : List (Option Int) := List.replicate 6 none
  /-- R194. The stages' values: reference, measurement, error, law output, the integrating states before the law. -/
  ref : Int := 0
  y : Int := 0
  e : Int := 0
  v : Int := 0
  keep : List Int := []
  rampDone : Bool := false
deriving DecidableEq, Repr

/-! ## DRAM and the Hamper (chapter 11) -/

/-- R438, R439. A record being gathered: its position, SEQ, time and GEN at its cadence edge, and its TRIG and GAP marks. -/
structure HamperRec where
  pos : Nat
  seq : Nat
  time : Nat
  gen : Nat
  trig : Bool
  gap : Bool
deriving DecidableEq, Repr

/-- R427. A line found uncorrectable by a request of class `cls`, with its words as read, those not given as stored. -/
structure BadLine where
  line : Nat
  cls : Nat
  words : List Word := []
deriving DecidableEq, Repr

/-- R447. The copy a dump makes, as it was granted: first line, positions and lines of a record of the ring, the oldest
position, and the destination. -/
structure DumpJob where
  base : Nat
  k : Nat
  r : Nat
  first : Nat
  dst : Nat
deriving DecidableEq, Repr

/-- The Hamper's own state: the geometry latched at EN (R437), the cadence count, the marks of the next record, the record
in hand, the record count, the records left after a trigger, a dump's destination and the dump that runs, and the edge of the
last trigger with whether it began the freeze (R444). -/
structure HamperSt where
  n : Nat := 0
  r : Nat := 1
  k : Nat := 0
  base : Nat := 0
  size : Nat := 0
  tick : Bool := false
  div : Nat := 0
  cad : Nat := 0
  gap : Bool := false
  trig : Bool := false
  rec' : Option HamperRec := none
  count : Nat := 0
  left : Nat := 0
  stopping : Bool := false
  dumpTo : Nat := 0
  dump : Option DumpJob := none
  trigAt : Option (Nat × Bool) := none
deriving DecidableEq, Repr

/-! ## Flash, ledger and limited-write fields (chapter 12) -/

/-- Who asked for a flash operation or a record: requester ID (0xFF for the controller) and ring. -/
structure Asker where
  id : Nat
  ring : Nat
deriving DecidableEq, Repr

/-- What the completion of a ledger record lets go on. -/
inductive After
  /-- A record of an erase; `last` for ERASE_END. -/
  | erase (last : Bool)
  /-- An image slot's new state. -/
  | img (slot state : Nat) (run : Bool)
  | lwf
  | user
  /-- A record of a ledger switch. -/
  | switch
deriving DecidableEq, Repr

/-- R467. A ledger record that waits or is being written: its kind, arguments, time and asker. -/
structure LedgerRec where
  kind : Nat
  a0 : Word
  a1 : Word
  a2 : Word
  time : Nat
  tvalid : Bool
  who : Asker
  after' : After
deriving DecidableEq, Repr

/-- The flash operation that runs beside a suspended erase, or alone. -/
inductive FlashOp
  | program (off mask : Nat) (data : List Word)
  | margin (ev : Bool) (sector : Nat)
  | record (r : LedgerRec)
  /-- R471, R472. The erase of a ledger sector within a switch. -/
  | switchErase (sector : Nat)
deriving DecidableEq, Repr

/-- R459, R461. An erase that was granted: 0 its first records are being written, 1 it runs, 2 its last record is being
written; suspended, and by an automatic request; a suspend awaited (automatic or not); a resume awaited; the PWM_CLK edges it
has run. -/
structure EraseSt where
  sector : Nat
  who : Asker
  phase : Nat := 0
  failed : Bool := false
  suspended : Bool := false
  auto : Bool := false
  pend : Option Bool := none
  resume : Bool := false
  ran : Nat := 0
deriving DecidableEq, Repr

/-- R482. An LWF write in progress: its field, slot or new floor, value, and whether its record has been written. -/
structure LwfWrite where
  field : Nat
  slot : Nat
  value : Nat
  recorded : Bool := false
deriving DecidableEq, Repr

/-- The flash controller's, the ledger's and the LWF array's own state. The array itself is not volatile. -/
structure FlashSt where
  op : Option FlashOp := none
  erase : Option EraseSt := none
  asked : Option (Nat × Asker) := none
  recs : List LedgerRec := []
  /-- R471. A switch is due. -/
  switch : Bool := false
  /-- R474, R476. The slots' recorded states, and the slot with the later CONFIRMED record. -/
  imgA : Nat := 0
  imgB : Nat := 0
  pref : Nat := 0
  /-- R460, R455. Groups, by word offset, whose last read was uncorrectable. -/
  bad : List Nat := []
  lwf : Option LwfWrite := none
  array : Nat := 0
deriving DecidableEq, Repr

/-! ## Links and the domain (chapters 13 and 14) -/

/-- R494, R495. A ROUTED frame: its network header and the words of its payload.
DESIGN CHOICE, unsafe: log entry 93. -/
structure Frame where
  dst : Nat
  src : Nat
  tc : Nat
  hops : Nat := 0
  kind : Nat
  eseq : Nat := 0
  words : List Word
deriving DecidableEq, Repr

/-- R507. A frame in this device, with the port whose receive buffer it holds (4: none) and its number there. -/
structure Held where
  port : Nat
  tag : Nat
  frame : Frame
deriving DecidableEq, Repr

/-- R510. A LOCAL frame that waits for its port. -/
structure LocalTx where
  kind : Nat
  words : List Word
deriving DecidableEq, Repr

/-- R500, R502. A frame of the retry buffer: its LSEQ and how often it has been sent. -/
structure Retry where
  lseq : Nat
  sends : Nat
  frame : Frame
deriving DecidableEq, Repr

/-- R558, R559. What Fray does to a frame: DROP and REORDER with their LAYER, CORRUPT, DELAY. -/
structure FrayAct where
  drop : Option Nat := none
  reorder : Option Nat := none
  corrupt : Bool := false
  delay : Bool := false
deriving DecidableEq, Repr

/-- A frame that a port is about to start. -/
inductive TxItem
  | loc (x : LocalTx)
  | routed (x : Held)
deriving DecidableEq, Repr

/-- R559. A frame held by REORDER: already numbered, or to be numbered after the frame it waits for; `due`: that frame has
left, and this one waits only until it may start (R500, R507). -/
structure Reordered where
  item : TxItem
  lseq : Option Nat
  corrupt : Bool
  due : Bool := false
deriving DecidableEq, Repr

/-- R504, R505. A frame a port sends cut-through: its number in the ingress buffer, its LSEQ if it has one yet, and
Fray's part in it. -/
structure CutTx where
  port : Nat
  tag : Nat
  lseq : Option Nat
  act : FrayAct
deriving DecidableEq, Repr

/-- R501 to R505. A ROUTED frame that is arriving: its header, whether it is discarded at its SOF, whether it is delivered
here, the ports it goes out by, and those that send it cut-through. -/
structure Incoming where
  tag : Nat
  hdr : Hdr
  skip : Bool
  bad : Bool
  here : Bool
  ports : List Nat
  cut : List Nat
deriving DecidableEq, Repr

/-- R510. What a neighbour's last HELLO says. -/
structure Neighbour where
  id : Nat
  h : Nat
  joined : Bool
  root : Bool
  tag : Nat
  uid : Nat
deriving DecidableEq, Repr

/-- R518. An exchange of time on a port: EID, t1, t2 and t3. -/
structure Xchg where
  eid : Nat
  t1 : Nat
  t2 : Nat
  t3 : Option Nat
deriving DecidableEq, Repr

/-- One DeinoLink port: its transmit queues and retry buffer, its receiver, its neighbour, its time exchange and Fray. -/
structure PortSt where
  loc : List LocalTx := []
  txq : List Held := []
  retry : List Retry := []
  /-- R502. The LSEQ from which frames are to be sent again. -/
  resend : Option Nat := none
  /-- R506. The ingress last served, by class. -/
  rr : List Nat := [4, 4, 4, 4]
  /-- R507. LOCAL credits held for sending. -/
  credL : Nat := 0
  rx : Option Incoming := none
  cut : Option CutTx := none
  /-- R501. NAK(EXP) has been sent and EXP not accepted since. -/
  nak : Bool := false
  torn : Bool := false
  aligned : Bool := false
  /-- R524. RXEQ.AUTO of each lane as the last RETRAIN or bring-up took it. -/
  eqAuto : List Bool := [true, true, true, true]
  nbr : Option Neighbour := none
  /-- R511. A HELLO with JOINED or ROOT has come since this device became UNJOINED; when the neighbour last refused it. -/
  seen : Bool := false
  refusedAt : Option Nat := none
  xchg : Option Xchg := none
  /-- R518. The last values of 2 × c_i, newest first. -/
  delays : List Int := []
  /-- R558, R559. Selected frames counted for each action, the generator, a frame under DELAY and its end, a held frame. -/
  frayCnt : List Nat := [0, 0, 0, 0]
  lfsr : Nat := 1
  delayed : Option (TxItem × FrayAct) := none
  holdUntil : Nat := 0
  reordered : Option Reordered := none
deriving DecidableEq, Repr

/-- R512. A joined device, as the root knows it. -/
structure Member where
  id : Nat
  uid : Nat
  level : Nat
deriving DecidableEq, Repr

/-- R529. A tick configuration: BASE_TN, BASE_TIME and PERIOD. -/
structure TickCfg where
  tn : Nat
  time : Nat
  period : Nat
deriving DecidableEq, Repr

/-- R551. A stream this device sends: NEXT, and how many frames it has sent, up to 32,768. -/
structure SendSt where
  next : Nat := 0
  sent : Nat := 0
deriving DecidableEq, Repr

/-- R551, R552. A stream this device receives: EXPECT, its fence, the frames held and the ESEQs dropped under it.
DEDUCED, unsafe: log entry 110. -/
structure RecvSt where
  expect : Nat := 0
  fenced : Bool := false
  held : List Frame := []
  dropped : List Nat := []
deriving DecidableEq, Repr

/-- R546, R547. A command queued for a tick. -/
structure QCmd where
  tick : Nat
  src : Nat
  bcast : Bool
  eseq : Nat
  id : Nat
  ack : Bool
  writes : List (Nat × Word)
deriving DecidableEq, Repr

/-- R544. An entry of the send log.
DEDUCED, unsafe: log entry 109. -/
structure SendLog where
  dst : Nat
  eseq : Nat
  id : Nat
  tn : Nat
deriving DecidableEq, Repr

/-- R562. An entry of the report queue. -/
structure Report where
  result : Nat
  tn : Nat
  node : Nat
  id : Nat
  idx : Nat
  logged : Bool
deriving DecidableEq, Repr

/-- R532, R547. A tick that has fired and is not yet done with: whether it is captured, whether its capture is over, and the
PWM_CLK edge at which it fired. -/
structure SnapTick where
  tn : Nat
  cap : Bool
  done : Bool
  since : Nat := 0
deriving DecidableEq, Repr

/-- R536, R539. A snapshot buffer: the generation it holds and the nodes with a block that holds values. -/
structure SnapBuf where
  gen : Option Nat := none
  nodes : List Nat := []
deriving DecidableEq, Repr

/-- R539. The open generation: its number, its buffer, and the nodes with a FRESH block. -/
structure OpenGen where
  tn : Nat
  buf : Nat
  fresh : List Nat
deriving DecidableEq, Repr

/-- R541. The pin: the buffer and the generation it holds, when it expires, and the requesters' banks that hold it. -/
structure Pin where
  buf : Nat
  tn : Nat
  until' : Nat
  holders : List Nat
deriving DecidableEq, Repr

/-- R515. An ID the root holds after a leave: for which UID, and until when. -/
structure HeldId where
  id : Nat
  uid : Nat
  until' : Nat
deriving DecidableEq, Repr

/-- The device's part in its domain. -/
structure DomSt where
  /-- R508. The domain tag of the domain this device belongs to. -/
  tag : Nat := 0
  /-- R511. The port of the join in progress. -/
  reqPort : Option Nat := none
  /-- R511. When the hold of JHOLD µs began; `none`: it does not apply. -/
  holdFrom : Option Nat := some 0
  /-- R503. The route table, by node ID. -/
  routes : Bank (Option Nat) := []
  /-- R512, R515. The root's members, the IDs it holds and for which UID, and its own level as counted (R556). -/
  members : List Member := []
  heldIds : List HeldId := []
  rootLevel : Nat := 0
  /-- R507. Frames delivered here that wait for their consumer, oldest first; the last number given to a frame. -/
  rxq : List Held := []
  tags : Nat := 0
  /-- R516, R519, R520. Fraction of a DTIME cycle, I, runs of exchanges within and beyond the thresholds, the last t2. -/
  frac : Nat := 0
  servoI : Int := 0
  lockRun : Nat := 0
  badRun : Nat := 0
  lastT2 : Option Nat := none
  eid : Nat := 0
  /-- R518, R520, R528. When the next SYNC is due and the SYNC_INT in force, in µs; when the last exchange completed, when
  HOLDOVER began, and the HOLD_MAX in force, in µs. -/
  syncDue : Nat := 0
  syncUs : Nat := 10
  exchAt : Nat := 0
  holdAt : Nat := 0
  holdUs : Nat := 1000
  /-- R529, R531. Configurations in the order of their times; domain time since which ticks can fire; one has fired. -/
  configs : List TickCfg := []
  tickFrom : Option Nat := none
  fired : Bool := false
  /-- R551. Streams, by their class, broadcast bit and node. -/
  send : Bank SendSt := []
  recv : Bank RecvSt := []
  /-- R544, R546, R548. Queued commands, the send log and the report queue, each oldest first. -/
  cmdQ : List QCmd := []
  sendLog : List SendLog := []
  reports : List Report := []
  ticks : List SnapTick := []
  /-- R536. The geometry latched (ABASE, STRIDE), the buffers, the latest complete generation, the open one, the pin. -/
  abase : Nat := 0
  stride : Nat := 0
  bufs : List SnapBuf := [{}, {}, {}]
  latest : Option (Nat × Nat) := none
  asm : Option OpenGen := none
  pin : Option Pin := none
  /-- R538, R539. The expected set beside the root, and the nodes that left it with the generations still to mark. -/
  expected : List Nat := []
  left : List (Nat × Nat) := []
deriving DecidableEq, Repr

/-! ## Host vectors (chapter 15) -/

/-- R580. One MSI-X vector: its request level, its pending bit and its mask, and its table entry. -/
structure Vector where
  req : Bool := false
  pend : Bool := false
  masked : Bool := true
  addr : Nat := 0
  data : Nat := 0
deriving DecidableEq, Repr

/-- R566. What the host has set in Device Control: Enable Relaxed Ordering, Enable No Snoop, and the encoded Max Payload and
Max Read Request sizes. The PCI Express specification gives their reset values.
PRESUMED, unsafe: log entry 113. -/
structure DevCtl where
  ro : Bool := true
  ns : Bool := true
  mps : Nat := 0
  mrrs : Nat := 2
deriving DecidableEq, Repr

/-! ## Service sessions (chapter 15) -/

/-- R594. A reference of a subscription: a local word, or word `w` of a node's block. -/
inductive SvcRef
  | loc (addr : Nat)
  | snap (node w : Nat)
deriving DecidableEq, Repr

/-- R593. A datagram to the service port, from a port and a source address and UDP port; its UDP payload. -/
structure Dgram where
  port : Nat
  v6 : Bool
  addr : Nat
  udp : Nat
  bytes : List Nat
deriving DecidableEq, Repr

/-- R595, R597. An open session: its client, its keepalive in ms, the SEQ of the last applied SUBSCRIBE, the
subscription, the device's message count, the tick of the DATA that is due, and whether one was skipped. -/
structure Session where
  port : Nat
  v6 : Bool
  addr : Nat
  udp : Nat
  keep : Nat
  /-- R595. When its client was last heard. -/
  heard : Nat := 0
  subSeq : Option Nat := none
  dec : Nat := 0
  phase : Nat := 0
  refs : List SvcRef := []
  seq : Nat := 0
  due : Option Nat := none
  skip : Bool := false
deriving DecidableEq, Repr

/-- R591. A transmit timestamp: the record's TAG and the time. -/
structure TxStamp where
  tag : Nat
  time : Nat
deriving DecidableEq, Repr

/-! ## Mangle (chapter 04) -/

/-- R164. The burst of a Mangle: the channel that issues and the units it may still issue; the first of the round-robin
order. -/
structure MArb where
  cur : Option Nat := none
  left : Nat := 0
  next : Nat := 0
deriving DecidableEq, Repr

/-- R156, R573. A beat whose host read is outstanding: its index, its destination, its descriptor's address, whether the
descriptor was aborted since, and whether the read has failed. -/
structure HostBeat where
  beat : Nat
  dst : Nat
  cur : Nat
  aborted : Bool := false
  lost : Bool := false
deriving DecidableEq, Repr

/-- R156 to R174. A Mangle channel's own state beside its registers: the eight descriptor words as fetched, the checksum
register where a descriptor with CRC_EN has run since ARM, and host address bits 63:40 as latched at ARM (R182). -/
structure MchSt where
  desc : List Word := []
  crc : Option Nat := none
  hi : Nat := 0
  /-- R573. The beat whose host read is outstanding. -/
  wait : Option HostBeat := none
  /-- R157. The edge of the last trigger, and whether GO made it. -/
  trigAt : Option (Nat × Bool) := none
deriving DecidableEq, Repr

/-- R658. The instructions of the TAP. -/
inductive TapInstr
  | bypass | idcode | sample | extest | clamp | highz | dapacc
deriving DecidableEq, Repr

/-- What leaves the device and no register holds. -/
inductive Out
  /-- R580. An MSI-X message of a vector. -/
  | msix (vec : Nat) (addr data : Nat)
  /-- R661. A message of the trace port. -/
  | trace (msg : Word)
  /-- R493. A ROUTED frame on a port: LSEQ, LACK, and whether its CRC is corrupted (R559). -/
  | routed (port lseq lack : Nat) (f : Frame) (bad : Bool)
  /-- R493, R510. A LOCAL frame on a port. -/
  | loc (port lack kind : Nat) (words : List Word) (bad : Bool)
  /-- R505. A frame sent cut-through ends with ABORT. -/
  | abort (port lseq : Nat)
  /-- R497. A link-control block of a port: SUB and body. -/
  | lctl (port sub body : Nat)
  /-- R590. An Ethernet frame, without its FCS. -/
  | eth (port : Nat) (bytes : List Nat)
  /-- R593. A datagram of the service engine: its port, the client's address and UDP port, and its payload. -/
  | dgram (port : Nat) (v6 : Bool) (addr udp : Nat) (bytes : List Nat)
  /-- R601. An MDIO frame. -/
  | mdio (frame : Word)
  /-- R566, R581. A device-initiated write of host memory: byte address, bytes, Relaxed Ordering, No Snoop. -/
  | hostWrite (addr : Nat) (bytes : List Nat) (ro ns : Bool)
  /-- R566. A device-initiated read of host memory. -/
  | hostRead (addr len : Nat) (ro ns : Bool)
  /-- R566, R569, R571. The completion of a host read: its bytes, EP, and the request's attributes. -/
  | hostData (bytes : List Nat) (ep ro ns : Bool)
deriving DecidableEq, Repr

/-- The hardware: everything but the command queue and the addressed memories. -/
structure Hw where
  /-- Idle steps taken, one PWM_CLK period each (the model's own clock). -/
  now : Nat := 0
  /-- The next free value's number (the model's own field; no statement rests on its value). -/
  freeNo : Nat := 0
  /-- R13 to R17. The register file: every register of every page. -/
  regs : Sparse RegKey Word := []
  /-- R43. Register-pair banks. -/
  pairs : Sparse PairKey PairBank := []
  /-- R41. Next requester ID in each page's round-robin order. -/
  rr : Sparse Page Nat := []
  /-- R42. Registers that software has written since the last edge and hardware updates too, and words of Loop Engine data
  memory so written (R228). -/
  swAt : List RegKey := []
  swMem : List Nat := []
  /-- What waits for a PWM_CLK edge, in order, with the first edge at which it may fall. -/
  due : List (Nat × EdgeDue) := []
  /-- R45. The root PLL has locked and the root-derived domains have been released. -/
  released : Bool := false
  /-- R622. The device is in DEEP. -/
  deep : Bool := false
  /-- The cores, by requester ID. -/
  cores : Bank CoreSt := []
  /-- R146. Events launched and not yet arrived.
  DESIGN CHOICE, unsafe: log entry 35. -/
  flights : List Flight := []
  /-- R149, R150. Consumer inputs, by code. R155. The last edge at which each global channel carried an event, and whether a
  fire launched it. -/
  seamIn : Bank SeamIn := []
  carried : Bank (Option (Nat × Bool)) := []
  /-- R625, R626. Waiting requests of each maintenance queue, oldest first, and the activity that runs.
  DESIGN CHOICE, unsafe: log entry 25. -/
  maintQ : Bank (List MaintReq) := []
  maintRun : Bank (Option MaintReq) := []
  /-- R635. The PWM_CLK edge at which each waiting request entered its queue.
  DESIGN CHOICE, unsafe: log entry 171. -/
  maintAt : List (Nat × MaintReq × Nat) := []
  /-- Converters, by cluster. -/
  adc : Bank AdcSt := []
  /-- Sigma-delta channels, 8 × cluster + channel. -/
  sdf : Bank SdfSt := []
  /-- Comparators, 8 × cluster + comparator. -/
  cmp : Bank CmpSt := []
  /-- Trackers, 4 × cluster + tracker. -/
  trk : Bank TrkSt := []
  /-- Timebases, 4 × cluster + timebase, and PWM channels, 12 × cluster + CHSEL value. -/
  pwmTb : Bank PwmTb := []
  pwmCh : Bank PwmCh := []
  /-- R375, R378. Active stacks of the DICs, by requester ID of the core, top first; lines as last sampled, 256 × cluster +
  source; sources disabled late (R380). -/
  dicStack : Bank (List Claimed) := []
  dicLine : Bank Bool := []
  dicLate : List LateOff := []
  /-- R308, R368. Stopped divisions and copies, by the words their frames hold. -/
  divSaved : List DivSaved := []
  cpySaved : List CpySaved := []
  /-- R390. XFP of cores, by requester ID, as it stood before a software write since the last edge; cores whose XFP an
  entry, gate or return has changed since then. -/
  xfpSw : List (Nat × Nat) := []
  xfpHw : List Nat := []
  /-- R385. Watchdog prescalers: cluster n, 8 for the device watchdog. -/
  wdtPre : Bank Nat := []
  /-- R383. A wake has been requested in DEEP. -/
  wakeReq : Bool := false
  /-- R608, R609. Causes of the device reset that waits. -/
  rstCause : Nat := 0
  /-- R400, R411. By pin: what the outside puts on the pad, the level its input last had, its last switch, and the level it
  holds in a safe state. -/
  pads : Bank PadV := []
  padLast : Bank Bool := []
  pinSw : Bank (Option PinSw) := []
  holds : Bank (Option Bool) := []
  /-- R618, R619. The SAFE_N ball is low. -/
  safeNLow : Bool := false
  /-- R618. When the forced safe state of SAFE_N's last fall begins. -/
  safeNAt : Option Nat := none
  /-- Loop Engines: held triggers, 12 × cluster + slot; the run of each engine; customer microwords (R208), 8,192 ×
  cluster + address. -/
  held : Bank HeldTrig := []
  loopRun : Bank (Option LoopRun) := []
  uc : Bank Nat := []
  /-- R661. The trace port's FIFO, oldest first, the time of the last message and a message dropped since. -/
  traceQ : List Word := []
  traceAt : Nat := 0
  traceLost : Bool := false
  /-- R427, R426, R430. Lines found uncorrectable and not yet rewritten, with the class that rewrites them; lines that wait
  for their write-back; outer corrections since CE_WARN was last cleared. -/
  dramBad : List BadLine := []
  dramWb : List Nat := []
  ceCount : Nat := 0
  /-- R434, R436. Bursts due and not yet run, CTRL.NOW in force, and when the pass began. -/
  darnerDue : Nat := 0
  darnerNow : Bool := false
  passAt : Option Nat := none
  /-- R432. Requests that wait for line slots, oldest first; the slots of the running group of 16 that are used, and whether
  class REC, and class BULK or SCRUB, has had one; the requester ID after the last BULK requester served.
  DESIGN CHOICE, unsafe: log entry 168. -/
  dramQ : List DramReq := []
  dramPos : Nat := 0
  dramRec : Bool := false
  dramBulk : Bool := false
  dramTurn : Nat := 0
  hamper : HamperSt := {}
  flash : FlashSt := {}
  /-- DeinoLink ports, and the device's part in its domain. -/
  ports : Bank PortSt := []
  dom : DomSt := {}
  /-- R467. The model's time of the last power-on reset. -/
  porAt : Nat := 0
  /-- The words the last read among the commands returned to its requester. -/
  resp : List Word := []
  /-- R580. The MSI-X vectors. -/
  vectors : Bank Vector := []
  /-- MSI-X Enable and Function Mask of the configuration space (R580). -/
  msixEn : Bool := false
  fmask : Bool := false
  /-- R566. Device Control. R583. PERST# is low.
  DESIGN CHOICE, unsafe: log entry 112. -/
  devCtl : DevCtl := {}
  perstLow : Bool := false
  /-- R602. The access code (ACCESS reads as 0), the sessions, and datagrams that wait for the engine, oldest first. -/
  svcAccess : Nat := 0
  sess : Bank (Option Session) := []
  svcq : List Dgram := []
  /-- R591. Transmit timestamps of each Ethernet port, oldest first. -/
  txts : Bank (List TxStamp) := []
  /-- R601. The MDIO frame that runs reads. -/
  mdioRead : Bool := false
  /-- Mangle channels: 8 × cluster + channel, 64 + channel for the device Mangle; the arbiters, by cluster, 8 for the device. -/
  mch : Bank MchSt := []
  mArb : Bank MArb := []
  /-- R607, R660. RESET_N is low; the levels of BOOT2 to BOOT0. R604, R608. PORST_N is low. -/
  resetLow : Bool := false
  porstLow : Bool := false
  bootPins : Nat := 0
  /-- R606. Cluster resets that wait for the cluster's clock, with their causes. R630. Sensors whose alarm holds the
  device-wide forced safe state. -/
  crWait : List (Nat × Nat) := []
  monHold : List Nat := []
  /-- R609. When the device reset that waits was requested. -/
  rstAt : Nat := 0
  /-- R613. The boot flow waits for the root PLL and the LWF array. -/
  bootDue : Bool := false
  /-- R658. The TAP's current instruction, and the boundary-scan cells of the pins' outputs: a level, or undriven.
  PRESUMED, unsafe: log entry 133. -/
  tap : TapInstr := .idcode
  scan : Bank (Option Bool) := []
  /-- R24. Sticky error bit of the debug access port. -/
  dapSticky : Bool := false
  /-- What has left the device, oldest first.
  DESIGN CHOICE, safe: log entry 12. -/
  out : List Out := []
deriving DecidableEq, Repr

/-- Why the machine stops with a fault.
DESIGN CHOICE, safe: log entry 141. -/
inductive Fault
  /-- No meaning raises it: every exception of the device is state of the device. Safe. -/
  | none
deriving DecidableEq, Repr

/-- Why a command has no meaning. -/
inductive Refusal
  /-- A command this model has not reached. Raised by exec's own arms only. Safe: nothing is claimed of it. -/
  | notModelled (mnemonic : String)
deriving DecidableEq, Repr

/-- The machine: the queue of waiting commands, the hardware, and the addressed memories. -/
structure State where
  /-- The commands that wait, first in, first out.
  DESIGN CHOICE, safe: log entry 1. -/
  pending : List Instr
  /-- Registers and the units' own state. -/
  hw : Hw
  /-- R20 to R22. Every word of memory, by its global address.
  DESIGN CHOICE, safe: log entry 7. -/
  mem : Sparse Nat Word
  /-- R5. The DRAM tag bytes, by word address. -/
  tags : List Host.Cell
deriving DecidableEq, Repr

/-- R604, R605, R613. The machine right after a power-on reset: every register at its table's reset value, RCAUSE.POR set,
the boot flow due, no command waiting and no memory listed. -/
def State.reset : State :=
  { pending := [], hw := { regs := [(⟨15, 0x000, 0x81, 0⟩, 1)], bootDue := true }, mem := [], tags := [] }

end Sys2Proof.Machine
end

