-- ==== Sys2Proof/Machine/Ops.lean ====
section
/-! DEFINITION. The named operations over the register file: fields, access codes, controlled writes, register pairs, page
interrupts and host vectors (chapter 01 and R579, R580). -/

namespace Sys2Proof.Machine

open Sys2Proof

/-! ## The register file -/

/-- The order in which the register file lists its registers. -/
def RegKey.rank (k : RegKey) : Nat := ((k.cl * 4096 + k.idx) * 256 + k.off) * 1048576 + k.ch

/-- The layout of a kind of page. -/
def regsOf (k : PageKind) : List RegDef :=
  match k with
  | .clu => regsClu | .core => regsCore | .dic => regsDic ++ regsDiccore | .cwdt => regsWdt | .loop => regsLoop
  | .loopUc => regsLoopUc | .pwmTb => regsPwmTb | .pwmCh => regsPwmCh | .scorch => regsScorch | .adcA => regsAdc
  | .adcB => regsAdc | .adcS => regsAdcS | .adcSeq => regsAdcSeq | .sdf => regsSdf | .cmp => regsCmp | .trk => regsTrk
  | .lseam => regsSeam ++ regsLseam | .cmangle => regsMangle | .dev => regsDev | .clk => regsClk | .rst => regsRst
  | .pwr => regsPwr | .dwdt => regsWdt | .aow => regsAow | .maint => regsMaint | .mon => regsMon | .bist => regsBist
  | .gseam => regsSeam ++ regsGseam | .dmangle => regsMangle | .dram => regsDram | .darner => regsDarner
  | .hamper => regsHamper | .flash => regsFlash | .ledger => regsLedger | .lwf => regsLwf | .dom => regsDom
  | .snap => regsSnap | .dtime => regsDtime | .dl => regsDl | .fray => regsFray | .pcie => regsPcie | .mbox => regsMbox
  | .eth => regsEth | .svc => regsSvc | .pin => regsPin | .sec => regsSec | .dbg => regsDbg | .trace => regsTrace

/-- The field definitions of the register at an offset; empty for a reserved offset. -/
def fieldsAt (k : PageKind) (off : Nat) : List FieldDef :=
  ((regsCommon ++ regsOf k).filter (fun r => r.off ≤ off && off < r.off + r.cnt)).flatMap (·.fields)

/-- The value a register has when every field holds its table's reset value. -/
def tableReset (k : PageKind) (off : Nat) : Nat :=
  (fieldsAt k off).foldl (fun n f => n + f.rst * 2 ^ f.lo) 0

/-- Reset values the tables give per instance: UNIT of ADC_B (R98), HELD of CC0 (R631), LO of the temperatures (R636), WIDTH
and SLOTS of the limited-write fields (R477, R488). -/
def instanceReset (k : RegKey) (i : PageInfo) : Nat :=
  match i.kind, k.off with
  | .adcB, 0x03 => 1 * 2 ^ 7
  | .clu, 0x03 => if k.cl = 0 then 0xE00 else 0xF00
  | .mon, 0x12 => if k.ch < 9 then 0x8000 else 0
  | .lwf, 0x10 =>
    [32, 256, 16, 4, 4, 4, 4, 64, 40].getD k.ch 0 * 2 ^ 20 + [8, 4, 8, 8, 8, 8, 8, 0, 8].getD k.ch 0 * 2 ^ 16
  | kind, off => tableReset kind off

/-- Restrictions the tables put on one instance of a layout, as (offset, lowest bit, width): bits 33 and 31:0 of GSEAM's
IRQ_EN and IRQ_FLAG (R176), channels beyond the eight of a cluster Mangle and its MCH_HOSTHI (R180, R181), the domain
interrupts and registers of the ports other than L0 (R523, R526), MDIO and MDIO_STAT of ETH1 (R601), bits 8t + 7 of PWM_TB's
IRQ_EN and IRQ_FLAG (R262).
DEDUCED, unsafe: log entry 19. -/
def reservedParts (k : PageKind) (inst : Nat) : List (Nat × Nat × Nat) :=
  match k with
  | .gseam => [(4, 0, 32), (4, 33, 1), (5, 0, 32), (5, 33, 1)]
  | .pwmTb => [7, 15, 23, 31].flatMap (fun n => [(4, n, 1), (5, n, 1)])
  | .cmangle => [(4, 8, 8), (4, 24, 8), (5, 8, 8), (5, 24, 8), (0x14, 0, 40)]
  | .dl => if inst = 0 then []
      else [(4, 6, 4), (5, 6, 4)] ++ (List.range 11).map (fun n => (0xC0 + n, 0, 40))
  | .eth => if inst = 0 then [] else [(0x98, 0, 40), (0x99, 0, 40)]
  | _ => []

/-- R15. A word with the reserved bits of its register's instance at 0. -/
def withoutReserved (k : PageKind) (inst off n : Nat) : Nat :=
  ((reservedParts k inst).filter (fun r => r.1 == off)).foldl (fun n r => withBits n r.2.1 r.2.2 0) n

/-- R14, R15. What a register reads as before anything has written it. -/
def resetWord (k : RegKey) : Word :=
  match pageInfo ⟨k.cl, k.idx⟩ with
  | none => 0
  | some i => w40 (withoutReserved i.kind i.inst k.off (instanceReset k i))

/-- The stored value of a register. -/
def Hw.reg (h : Hw) (p : Page) (off ch : Nat) : Word := Sparse.get resetWord h.regs ⟨p.cl, p.idx, off, ch⟩

/-- The hardware with one register replaced. -/
def Hw.setReg (h : Hw) (p : Page) (off ch : Nat) (v : Word) : Hw :=
  { h with regs := Sparse.put RegKey.rank resetWord h.regs ⟨p.cl, p.idx, off, ch⟩ v }

/-- A field of channel `ch` of a page (`ch` = 0 for a block-wide register). -/
def Hw.f (h : Hw) (p : Page) (ch : Nat) (fl : Fld) : Nat := bitsOf (h.reg p fl.off ch).toNat fl.lo fl.w

/-- A one-bit field. -/
def Hw.b (h : Hw) (p : Page) (ch : Nat) (fl : Fld) : Bool := h.f p ch fl != 0

/-- A field as a two's-complement number. -/
def Hw.fs (h : Hw) (p : Page) (ch : Nat) (fl : Fld) : Int := sx fl.w (h.f p ch fl)

/-- The hardware with one field replaced. -/
def Hw.setF (h : Hw) (p : Page) (ch : Nat) (fl : Fld) (v : Nat) : Hw :=
  h.setReg p fl.off ch (w40 (withBits (h.reg p fl.off ch).toNat fl.lo fl.w v))

/-- The hardware with one field set to a two's-complement number. -/
def Hw.setFS (h : Hw) (p : Page) (ch : Nat) (fl : Fld) (z : Int) : Hw := h.setF p ch fl (unsx fl.w z)

/-- The hardware with a one-bit field set to a Boolean. -/
def Hw.setB (h : Hw) (p : Page) (ch : Nat) (fl : Fld) (v : Bool) : Hw := h.setF p ch fl (b2n v)

/-- A field that counts up and wraps. -/
def Hw.incF (h : Hw) (p : Page) (ch : Nat) (fl : Fld) : Hw := h.setF p ch fl (h.f p ch fl + 1)

/-- A field that counts up and stops at its largest value. -/
def Hw.satF (h : Hw) (p : Page) (ch : Nat) (fl : Fld) : Hw := h.setF p ch fl (satInc fl.w (h.f p ch fl))

/-- Field update chosen by a condition. -/
def Hw.when (h : Hw) (c : Bool) (g : Hw → Hw) : Hw := if c then g h else h

/-- A fresh free value's number: the state's counter, read and advanced. -/
def Hw.fresh (h : Hw) : Hw := { h with freeNo := h.freeNo + 1 }

/-- Something leaves the device. -/
def Hw.emit (h : Hw) (o : Out) : Hw := { h with out := h.out ++ [o] }

/-! ## The pages -/

abbrev pCLU (c : Nat) : Page := ⟨c, 0x00⟩
abbrev pCORE (c k : Nat) : Page := ⟨c, 0x01 + k⟩
abbrev pDIC (c : Nat) : Page := ⟨c, 0x05⟩
abbrev pCWDT (c : Nat) : Page := ⟨c, 0x06⟩
abbrev pLOOP (c : Nat) : Page := ⟨c, 0x08⟩
abbrev pLOOPUC (c : Nat) : Page := ⟨c, 0x09⟩
abbrev pPWMTB (c : Nat) : Page := ⟨c, 0x0C⟩
abbrev pPWMCH (c : Nat) : Page := ⟨c, 0x0D⟩
abbrev pSCORCH (c : Nat) : Page := ⟨c, 0x0E⟩
abbrev pADC (c j : Nat) : Page := ⟨c, 0x10 + j⟩
abbrev pADCS (c : Nat) : Page := ⟨c, 0x12⟩
abbrev pADCSEQ (c : Nat) : Page := ⟨c, 0x13⟩
abbrev pSDF (c : Nat) : Page := ⟨c, 0x14⟩
abbrev pCMP (c : Nat) : Page := ⟨c, 0x15⟩
abbrev pTRK (c : Nat) : Page := ⟨c, 0x18⟩
abbrev pLSEAM (c : Nat) : Page := ⟨c, 0x1C⟩
abbrev pCMANGLE (c : Nat) : Page := ⟨c, 0x1D⟩
abbrev pDEV : Page := ⟨devCl, 0x000⟩
abbrev pCLK : Page := ⟨devCl, 0x001⟩
abbrev pRST : Page := ⟨devCl, 0x002⟩
abbrev pPWR : Page := ⟨devCl, 0x003⟩
abbrev pDWDT : Page := ⟨devCl, 0x004⟩
abbrev pAOW : Page := ⟨devCl, 0x005⟩
abbrev pMAINT : Page := ⟨devCl, 0x006⟩
abbrev pMON : Page := ⟨devCl, 0x007⟩
abbrev pBIST : Page := ⟨devCl, 0x008⟩
abbrev pGSEAM : Page := ⟨devCl, 0x010⟩
abbrev pDMANGLE : Page := ⟨devCl, 0x011⟩
abbrev pDRAM : Page := ⟨devCl, 0x018⟩
abbrev pDARNER : Page := ⟨devCl, 0x019⟩
abbrev pHAMPER : Page := ⟨devCl, 0x01A⟩
abbrev pFLASH : Page := ⟨devCl, 0x020⟩
abbrev pLEDGER : Page := ⟨devCl, 0x021⟩
abbrev pLWF : Page := ⟨devCl, 0x022⟩
abbrev pDOM : Page := ⟨devCl, 0x028⟩
abbrev pSNAP : Page := ⟨devCl, 0x029⟩
abbrev pDTIME : Page := ⟨devCl, 0x02A⟩
abbrev pDL (k : Nat) : Page := ⟨devCl, 0x02C + k⟩
abbrev pFRAY (k : Nat) : Page := ⟨devCl, 0x030 + k⟩
abbrev pPCIE : Page := ⟨devCl, 0x038⟩
abbrev pMBOX : Page := ⟨devCl, 0x039⟩
abbrev pETH (k : Nat) : Page := ⟨devCl, 0x03C + k⟩
abbrev pSVC : Page := ⟨devCl, 0x03E⟩
abbrev pPIN : Page := ⟨devCl, 0x040⟩
abbrev pSEC : Page := ⟨devCl, 0x048⟩
abbrev pDBG : Page := ⟨devCl, 0x050⟩
abbrev pTRACE : Page := ⟨devCl, 0x051⟩

/-! ## Clocks -/

/-- R517. Domain time as the TIME pair holds it. -/
def Hw.domTime (h : Hw) : Nat := h.f pDTIME 0 DTIME_TIME_H_TIME * 2 ^ 40 + h.f pDTIME 0 DTIME_TIME_L_TIME

/-- R604, R607. The device is held in reset: PORST_N is low, or RESET_N is low and the reset has been carried out. -/
def Hw.heldInReset (h : Hw) : Bool :=
  h.porstLow || (h.resetLow && !h.deep && !h.b ⟨devCl, 0x002⟩ 0 RST_STATUS_PENDING)

/-- R53. The clock of domain `d` is derived from the root PLL; that of a modulator group is unless it comes from its pin. -/
def Hw.rootDomain (h : Hw) (d : Nat) : Bool :=
  d < 38 || d == 49 || (decide (50 ≤ d ∧ d ≤ 53) && h.f (pSDF (2 * (d - 50))) 0 SDF_SDMCLK_SRC != 2) ||
    decide (55 ≤ d ∧ d ≤ 57)

/-- R45, R53. Whether the clock of domain `d` runs: the root PLL has locked where it comes from there, not gated, its cluster
neither gated nor under logic BIST, and the device neither held in reset nor in DEEP. Only AON (48) runs in DEEP.
DEDUCED, unsafe: log entry 123. -/
def Hw.domainRuns (h : Hw) (d : Nat) : Bool :=
  if d = 48 then !h.porstLow
  else (h.released || !h.rootDomain d) && !h.deep && !h.heldInReset &&
    (if d < 32 then decide (h.f (pCLU (d / 4)) 0 CLU_STATUS_STATE < 2)
     else !h.b pCLK d CLK_DOMAIN_GATE)

/-- R53. RUNNING of domain `d`: a domain derived from the root reads 0 until the boot flow releases the domains. -/
def Hw.domainShown (h : Hw) (d : Nat) : Bool := h.domainRuns d && !(h.bootDue && h.rootDomain d)

/-- The clocks of cluster `c` run (all four stop together, R621). -/
def Hw.clusterRuns (h : Hw) (c : Nat) : Bool := h.domainRuns (4 * c + 3)

/-- R25. A page whose page clock is stopped: CCn_PERI for a cluster page, FAB for a device page (R41). The DEV, CLK, RST
and PWR pages stay reachable; in DEEP nothing is (R622).
DEDUCED, unsafe: log entry 17. -/
def Hw.stopped (h : Hw) (p : Page) : Bool :=
  if h.deep || h.heldInReset then true
  else if p.cl < 8 then !h.clusterRuns p.cl
  else if p.idx < 4 then false
  else !h.domainRuns 32

/-! ## Requesters -/

/-- R30. The requester ID. -/
def Requester.id (r : Requester) : Nat :=
  match r with
  | .core i => i.val
  | .cmangle n _ => 0x20 + n.val
  | .dmangle _ => 0x28
  | .host => 0x30
  | .debugger => 0x31
  | .applier => 0x32
  | .service => 0x33
  | .snap => 0x34
  | .hamper => 0x35

/-- R39. The bank a requester's banked registers stand in; a Mangle has one for each of its channels. -/
def Requester.bank (r : Requester) : Nat :=
  match r with
  | .cmangle n ch => 0x20 + n.val + 256 * ch.val
  | .dmangle ch => 0x28 + 256 * ch.val
  | r => r.id

/-- R480. A limited-write field's value, bits 39:0, as loaded (R483). -/
def Hw.lwf (h : Hw) (fld : Nat) : Nat := (h.reg pLWF 0x11 fld).toNat

/-- R480. DEBUG_POLICY is OPEN. -/
def Hw.debugOpen (h : Hw) : Bool := h.lwf 6 % 4 == 0

/-- An access as it reaches a page or a memory: who makes it and the ring presented (R30). -/
structure Acc where
  who : Requester
  ring : Nat
deriving DecidableEq, Repr

/-- What became of an access. -/
inductive Res
  | ok | unmapped | stopped | refused
deriving DecidableEq, Repr

/-! ## Page interrupts and host vectors -/

/-- R44. A page requests an interrupt while any bit is 1 in both IRQ_FLAG and IRQ_EN. -/
def Hw.pageReq (h : Hw) (p : Page) : Bool := (h.reg p 5 0 &&& h.reg p 4 0) != 0

/-- R44. The page's request, when OWNER.REQ routes it to the host. -/
def Hw.pageReqHost (h : Hw) (p : Page) : Bool := h.f p 0 OWNER_REQ == 0x30 && h.pageReq p

/-- R579. The vector a page's host-routed request belongs to. -/
def vectorOf (p : Page) : Nat := if p.cl < 8 then 0x60 + 4 * p.cl + p.idx / 8 else p.idx

/-- R579. The request level of a page vector. -/
def Hw.vectorReq (h : Hw) (p : Page) : Bool :=
  if p.cl < 8 then (List.range 8).any (fun j => h.pageReqHost ⟨p.cl, p.idx / 8 * 8 + j⟩)
  else p.idx < 0x60 && h.pageReqHost p

/-- R583. The endpoint is out of reset: its link is up. -/
def Hw.linked (h : Hw) : Bool := h.b pPCIE 0 PCIE_STATUS_LINK_UP

/-- R580. Whether vector `v` may send now.
DEDUCED, unsafe: log entry 114. -/
def Hw.vectorOpen (h : Hw) (v : Nat) : Bool := h.linked && h.msixEn && !h.fmask && !(h.vectors.at {} v).masked

/-- R580. A vector's request takes a new level: a rise sends the message, or sets the pending bit while a mask is set; a
fall clears the pending bit. While the endpoint is held in reset the pending bits stay 0 (R583). -/
def Hw.vectorLevel (h : Hw) (v : Nat) (level : Bool) : Hw :=
  let x := h.vectors.at {} v
  if level && !x.req then
    if h.vectorOpen v then
      { h with vectors := h.vectors.set {} v { x with req := true, pend := false }, out := h.out ++ [.msix v x.addr x.data] }
    else { h with vectors := h.vectors.set {} v { x with req := true, pend := h.linked } }
  else if !level && x.req then { h with vectors := h.vectors.set {} v { x with req := false, pend := false } }
  else h

/-- The host vector of a page follows the page's request. -/
def Hw.irqUpdate (h : Hw) (p : Page) : Hw :=
  if h.vectorReq p = (h.vectors.at {} (vectorOf p)).req then h else h.vectorLevel (vectorOf p) (h.vectorReq p)

/-- A hardware event sets IRQ_FLAG bits of a page (R16, R44). -/
def Hw.irq (h : Hw) (p : Page) (bits : Nat) : Hw :=
  (h.setReg p 5 0 (h.reg p 5 0 ||| w40 bits)).irqUpdate p

/-- A hardware event sets bit `i` of an IRQ_FLAG field. -/
def Hw.irqBit (h : Hw) (p : Page) (fl : Fld) (i : Nat) : Hw := h.irq p (2 ^ (fl.lo + i))

/-! ## Field writes (R13) -/

/-- R509, R562, R527. The device is the root of its domain. -/
def Hw.isRoot (h : Hw) : Bool := h.f (pDL 0) 0 DL_NODE_JSTATE == 3

/-- What a write leaves in one field. -/
def fieldWrite (h : Hw) (p : Page) (f : FieldDef) (old d : Nat) : Nat :=
  let o := bitsOf old f.lo f.w
  let n := bitsOf d f.lo f.w
  match f.acc with
  | .rw => n
  | .bk => n
  | .ro => o
  | .bkro => o
  | .wo => 0
  | .w1c => o - (o &&& n)
  | .w1s => o ||| n
  | .rwl => if h.b p 0 LOCK_BIT then o else n
  | .root => if h.isRoot then n else o
  | .rate => if h.isRoot && h.b pDTIME 0 DTIME_CTRL_ROOT_SRC then n else o

/-- R13, R15, R17. The word a register holds after a write of `d`, field by field under the access codes. -/
def writtenWord (h : Hw) (p : Page) (off : Nat) (old d : Word) : Word :=
  match pageInfo p with
  | none => old
  | some i =>
    w40 (withoutReserved i.kind i.inst off
      ((fieldsAt i.kind off).foldl (fun n f => withBits n f.lo f.w (fieldWrite h p f old.toNat d.toNat)) old.toNat))

/-- A register whose fields are banked per requester (R39, R230, R541, R562). -/
def bankedAt (i : PageInfo) (off : Nat) : Bool :=
  off == 8 || (i.kind == .snap && (off == 0x84 || off == 0x85)) || (fieldsAt i.kind off).any (fun f => f.acc == .bk || f.acc == .bkro)

/-- R38. The requester's own channel selection on a page. -/
def Hw.chsel (h : Hw) (p : Page) (r : Requester) : Nat := (h.reg p 8 r.bank).toNat

/-- The channel index under which an access reaches a register: CHSEL in the channel window, the requester's bank for a
banked register, 0 otherwise. -/
def Hw.chanFor (h : Hw) (p : Page) (r : Requester) (off : Nat) : Nat :=
  match pageInfo p with
  | none => 0
  | some i =>
    if 0x10 ≤ off && off < 0x80 then (if i.chans = 0 then 0 else h.chsel p r)
    else if bankedAt i off then r.bank
    else 0

/-- A plain register write: every field by its access code, the host vector following the page's request. -/
def Hw.plainWrite (h : Hw) (p : Page) (off ch : Nat) (d : Word) : Hw :=
  (h.setReg p off ch (writtenWord h p off (h.reg p off ch) d)).irqUpdate p

/-! ## Register pairs (R43) -/

/-- R43. The high word's key of a pair, by its low word's offset. -/
def pairLow (k : PageKind) (off : Nat) : Bool :=
  match k with
  | .adcSeq => off == 0x12
  | .sdf => off == 0x12
  | .trk => off == 0x12
  | .dl => off == 0xC8
  | .dtime => off == 0x80 || off == 0x82
  | .dom => off == 0x82 || off == 0x8E
  | .eth => off == 0x10 || off == 0x80 || off == 0x90 || off == 0x92
  | _ => false

/-- The order in which pair banks are listed. -/
def PairKey.rank (k : PairKey) : Nat := k.reg.rank * 8192 + k.bank

/-- The bank of a requester for the pair whose low word stands at `off`. -/
def Hw.pair (h : Hw) (p : Page) (off ch : Nat) (r : Requester) : PairBank :=
  Sparse.get (fun _ => {}) h.pairs ⟨⟨p.cl, p.idx, off, ch⟩, r.bank⟩

/-- That bank replaced. -/
def Hw.setPair (h : Hw) (p : Page) (off ch : Nat) (r : Requester) (v : PairBank) : Hw :=
  { h with pairs := Sparse.put PairKey.rank (fun _ => {}) h.pairs ⟨⟨p.cl, p.idx, off, ch⟩, r.bank⟩ v }

/-- R43. A write of a pair's low word is held in the requester's bank. -/
def Hw.pairHold (h : Hw) (p : Page) (off ch : Nat) (r : Requester) (d : Word) : Hw :=
  h.setPair p off ch r { h.pair p off ch r with held := some d }

/-- R43. The low word that a write of the high word commits: the one the requester last wrote, else the current one. -/
def Hw.pairLowWord (h : Hw) (p : Page) (off ch : Nat) (r : Requester) : Word :=
  (h.pair p off ch r).held.getD (h.reg p off ch)

/-! ## Controlled writes (R32 to R37) -/

/-- Where a page is reached at all (R24, R25). -/
def Hw.reach (h : Hw) (p : Page) : Res :=
  match pageInfo p with
  | none => .unmapped
  | some _ => if h.stopped p then .stopped else .ok

/-- R30. The requester may write at all: the snapshot engine and the Hamper only read, and the debugger's every access is
refused while DEBUG_POLICY is closed. -/
def Hw.mayWrite (h : Hw) (r : Requester) : Bool :=
  match r with
  | .snap => false
  | .hamper => false
  | .debugger => h.debugOpen
  | _ => true

/-- R406, R419. A register of the PIN page that belongs to one pin: the pin's own ownership governs it, not the page's. -/
def pinOwned (k : PageKind) (off : Nat) : Bool := k == .pin && decide (0x10 ≤ off ∧ off ≤ 0x12)

/-- R33. The page's OWNER accepts a controlled write. -/
def Hw.ownerPasses (h : Hw) (a : Acc) (p : Page) : Bool :=
  a.ring ≤ h.f p 0 OWNER_RING && (h.f p 0 OWNER_REQ == 0xFF || h.f p 0 OWNER_REQ == a.who.id || a.ring == 0)

/-- R33, R406. Whether a controlled write at `off` by this requester passes the page; a pin's OWN (0x12) has its own rules.
DESIGN CHOICE, unsafe: log entry 20. -/
def Hw.passes (h : Hw) (a : Acc) (p : Page) (i : PageInfo) (off : Nat) : Bool :=
  h.mayWrite a.who && (a.ring ≤ i.wfloor || (i.kind == .pin && off == 0x12)) && (pinOwned i.kind off || h.ownerPasses a p)

/-- R24, R25, R30, R35. Whether a read of a page by this access is answered. -/
def Hw.mayRead (h : Hw) (a : Acc) (p : Page) : Bool :=
  match pageInfo p with
  | none => false
  | some i => !h.stopped p && (a.who != .debugger || h.debugOpen) && decide (a.ring ≤ i.rfloor)

/-- R36. The device records a refused write in DEV.ACC_LOG. -/
def Hw.logRefused (h : Hw) (a : Acc) (p : Page) (off : Nat) : Hw :=
  (h.setReg pDEV 0x80 0
      (w40 (p.cl * 2 ^ 36 + p.idx % 4096 * 2 ^ 24 + off % 256 * 2 ^ 16 + a.ring % 4 * 2 ^ 8 + a.who.id % 256))).irqBit
    pDEV DEV_IRQ_ACC 0

/-- R41. The ID a page grants next of those with an access waiting: the first of its order, which starts where the last
grant left it. -/
def Hw.grantNext (h : Hw) (p : Page) (waiting : List Nat) : Option Nat :=
  let first := Sparse.get (fun _ => 0) h.rr p
  ((List.range 256).map (fun n => (first + n) % 256)).find? waiting.contains

/-- R41. After a grant the page's order starts at the ID that follows.
DESIGN CHOICE, unsafe: log entry 15. -/
def Hw.granted (h : Hw) (a : Acc) (p : Page) : Hw :=
  { h with rr := Sparse.put (fun q : Page => q.cl * 4096 + q.idx) (fun _ => 0) h.rr p ((a.who.id + 1) % 256) }

/-- R42. The registers with RW fields that hardware updates too, and whose rules state no other order: SCFG, SETP and the
state words of the Loop Engine, TCFG of a tracker, CTRL of PWR, RXEQ of a lane, IMASK of a core. -/
def sharedReg (k : PageKind) (off : Nat) : Bool :=
  match k with
  | .loop => off == 0x10 || off == 0x14 || decide (0x18 ≤ off ∧ off ≤ 0x1D)
  | .trk => off == 0x10
  | .pwr => off == 2
  | .dl => off == 0x13
  | .dic => decide (0x90 ≤ off) && off % 16 == 3
  | _ => false

/-- R42. A software write of a register that hardware updates too is noted until the next edge. -/
def Hw.noteSw (h : Hw) (a : Acc) (p : Page) (i : PageInfo) (off : Nat) : Hw :=
  if sharedReg i.kind off then { h with swAt := ⟨p.cl, p.idx, off, h.chanFor p a.who off⟩ :: h.swAt } else h

/-- R42. A hardware update of an RW field: the software value of the same cycle stands.
DESIGN CHOICE, unsafe: log entry 142. -/
def Hw.hwF (h : Hw) (p : Page) (ch : Nat) (fl : Fld) (v : Nat) : Hw :=
  if h.swAt.contains ⟨p.cl, p.idx, fl.off, ch⟩ then h else h.setF p ch fl v

/-- R33, R36. A controlled write at `off`: reached, checked, then `eff`; or refused and logged. -/
def Hw.controlled (h : Hw) (a : Acc) (p : Page) (off : Nat) (eff : Hw → Hw) : Hw × Res :=
  match pageInfo p with
  | none => (h, .unmapped)
  | some i =>
    if h.stopped p then (h, .stopped)
    else if h.passes a p i off then ((eff (h.granted a p)).noteSw a p i off, .ok)
    else ((h.granted a p).logRefused a p off, .refused)

/-- R33, R36. A controlled write whose effect may itself refuse the write (R379, R390, R406, R407). -/
def Hw.controlledR (h : Hw) (a : Acc) (p : Page) (off : Nat) (eff : Hw → Hw × Bool) : Hw × Res :=
  match pageInfo p with
  | none => (h, .unmapped)
  | some i =>
    if h.stopped p then (h, .stopped)
    else if h.passes a p i off then
      let x := eff (h.granted a p)
      if x.2 then (x.1.noteSw a p i off, .ok) else (x.1.logRefused a p off, .refused)
    else ((h.granted a p).logRefused a p off, .refused)

/-- R32. A write of OWNER takes effect only while LOCK is 0 and the requester is privileged or the owner. -/
def Hw.ownerWrite (h : Hw) (a : Acc) (p : Page) (d : Word) : Hw × Res :=
  match pageInfo p with
  | none => (h, .unmapped)
  | some _ =>
    if h.stopped p then (h, .stopped)
    else if !h.b p 0 LOCK_BIT && h.mayWrite a.who && (a.ring ≤ 1 || a.who.id == h.f p 0 OWNER_REQ) then
      ((h.granted a p).plainWrite p 6 0 d, .ok)
    else ((h.granted a p).logRefused a p 6, .refused)

/-- R30, R34, R39, R40. A write of CHSEL changes the requester's own copy, and only to an existing channel; R30 refuses it
to the snapshot engine, the Hamper and a debugger that the policy shuts out.
DEDUCED, unsafe: log entry 16. -/
def Hw.chselWrite (h : Hw) (a : Acc) (p : Page) (d : Word) : Hw × Res :=
  match pageInfo p with
  | none => (h, .unmapped)
  | some i =>
    if h.stopped p then (h, .stopped)
    else if !h.mayWrite a.who then ((h.granted a p).logRefused a p 8, .refused)
    else if d.toNat % 4096 < i.chans then ((h.granted a p).setReg p 8 a.who.bank (w40 (d.toNat % 4096)), .ok)
    else (h.granted a p, .ok)

/-! ## Requesters' rings and reports (R30, R24, R36) -/

/-- Core `i`. -/
def Hw.core (h : Hw) (i : Nat) : CoreSt := h.cores.at {} i

/-- Core `i` replaced. -/
def Hw.setCore (h : Hw) (i : Nat) (c : CoreSt) : Hw := { h with cores := h.cores.set {} i c }

/-- R30. The ring a requester presents. -/
def Hw.ringOf (h : Hw) (r : Requester) : Nat :=
  match r with
  | .core i => (h.core i.val).ring
  | .cmangle n ch => h.f (pCMANGLE n.val) ch.val MANGLE_MCH_STAT_RING
  | .dmangle ch => h.f pDMANGLE ch.val MANGLE_MCH_STAT_RING
  | .host => 1
  | .debugger => 0
  | .applier => 1
  | .service => 2
  | .snap => 0
  | .hamper => 0

/-- The access a requester makes now. -/
def Hw.acc (h : Hw) (r : Requester) : Acc := ⟨r, h.ringOf r⟩

/-- R360. An imprecise exception joins a core's queue of up to 5. -/
def Hw.coreFault (h : Hw) (i code info : Nat) : Hw :=
  let c := h.core i
  if c.faults.length < 5 then h.setCore i { c with faults := c.faults ++ [⟨code, info⟩] } else h

/-- R26, R570. The BAR0 byte offset of a page register. -/
def bar0Offset (p : Page) (off : Nat) : Nat :=
  if p.cl < 8 then 0x800000 + p.cl * 0x100000 + (p.idx * 0x100 + off) * 8 else (p.idx * 0x100 + off) * 8

/-- R570. A refused host write is counted and located. -/
def Hw.hostRefused (h : Hw) (bar off : Nat) : Hw :=
  (((h.incF pPCIE 0 PCIE_REFUSED_CNT_COUNT).setF pPCIE 0 PCIE_HERR_BAR bar).setF pPCIE 0 PCIE_HERR_OFFSET off).irqBit
    pPCIE PCIE_IRQ_REFUSED 0

/-- R24, R25, R36. The report of a page write that did not land, to the requesters that have one outside the operation
that issued it: a core's imprecise store fault, the host's counters, the debugger's sticky bit. A Mangle's descriptor, the
command applier and the service engine report it in their own operation. -/
def Hw.report (h : Hw) (r : Requester) (p : Page) (off : Nat) (res : Res) : Hw :=
  match r, res with
  | _, .ok => h
  | .core i, .refused => h.coreFault i.val 0x04 3
  | .core i, _ => h.coreFault i.val 0x04 1
  | .host, .unmapped => h
  | .host, _ => h.hostRefused 0 (bar0Offset p off)
  | .debugger, _ => { h with dapSticky := true }
  | _, _ => h

/-- A write to a page by a requester, made directly: checked, applied or refused, and reported. -/
def Hw.direct (h : Hw) (r : Requester) (p : Page) (off : Nat) (eff : Hw → Hw) : Hw :=
  let x := h.controlled (h.acc r) p off eff
  x.1.report r p off x.2

/-- A direct write whose effect may refuse it. -/
def Hw.directR (h : Hw) (r : Requester) (p : Page) (off : Nat) (eff : Hw → Hw × Bool) : Hw :=
  let x := h.controlledR (h.acc r) p off eff
  x.1.report r p off x.2

/-- A direct write of a register of the channel window: the effect receives the channel the requester selected. -/
def Hw.directCh (h : Hw) (r : Requester) (p : Page) (off : Nat) (eff : Nat → Hw → Hw) : Hw :=
  h.direct r p off (eff (h.chanFor p r off))

/-- A command whose effect lies in the hardware alone; an event whose condition does not hold leaves it as it stands.
DESIGN CHOICE, safe: log entry 5. -/
def onHw (s : State) (g : Hw → Hw) : Host.Outcome State Fault Refusal := .next { s with hw := g s.hw }

end Sys2Proof.Machine
end

