-- ==== Sys2Proof/Machine/Maint.lean ====
section
/-! DEFINITION. The maintenance scheduler: requests, their queues, priorities and grants (R625, R626, R635). -/

namespace Sys2Proof.Machine

open Sys2Proof

/-- R625. The priority number of an activity; a lower one is served first. -/
def maintPrio (kind : Nat) : Nat :=
  match kind with
  | 1 => 0 | 2 => 1 | 3 => 2 | 4 => 2 | 5 => 1 | 6 => 3 | 7 => 1 | 8 => 2 | _ => 9

/-- The waiting requests of queue `q`. -/
def Hw.queue (h : Hw) (q : Nat) : List MaintReq := h.maintQ.at [] q

/-- The activity that runs in queue `q`. -/
def Hw.running (h : Hw) (q : Nat) : Option MaintReq := h.maintRun.at none q

/-- The queue replaced, its DEPTH with it; the times at which its requests came are kept for those that stay. -/
def Hw.setQueue (h : Hw) (q : Nat) (l : List MaintReq) : Hw :=
  { h with maintQ := h.maintQ.set [] q l,
           maintAt := h.maintAt.filter (fun e => e.1 != q || l.contains e.2.1) }.setF pMAINT q MAINT_QSTAT_DEPTH l.length

/-- The running activity replaced, BUSY and RUN_KIND with it. -/
def Hw.setRunning (h : Hw) (q : Nat) (r : Option MaintReq) : Hw :=
  let h := { h with maintRun := h.maintRun.set none q r }
  let h := h.setF pMAINT 0 ⟨3, q, 1⟩ (b2n r.isSome)
  h.setF pMAINT q MAINT_QSTAT_RUN_KIND (match r with | some x => x.kind | none => 0)

/-- R626. A request enters its queue; it is never refused for a conflict. -/
def Hw.enqueue (h : Hw) (q kind arg : Nat) : Hw :=
  let h : Hw := { h with maintAt := h.maintAt ++ [(q, ⟨kind, arg⟩, h.now)] }
  h.setQueue q (h.queue q ++ [⟨kind, arg⟩])

/-- R635. How long a request has waited, in whole µs of the model's clock. -/
def Hw.waited (h : Hw) (q : Nat) (r : MaintReq) : Nat :=
  match h.maintAt.find? (fun e => e.1 == q && e.2.1 == r) with
  | some e => (h.now - e.2.2) / 400
  | none => 0

/-- R626. The request a free queue grants: the oldest of the lowest priority number among those that may run. -/
def nextReq (l : List MaintReq) (may : MaintReq → Bool) : Option MaintReq :=
  (l.filter may).foldl (fun best r =>
    match best with
    | none => some r
    | some b => if maintPrio r.kind < maintPrio b.kind then some r else some b) none

/-- R626. Whether queue `q` is free and would grant request `r` next. -/
def Hw.grantable (h : Hw) (q : Nat) (r : MaintReq) (may : MaintReq → Bool) : Bool :=
  (h.running q).isNone && nextReq (h.queue q) may == some r

/-- R626, R635. The grant: the request leaves its queue and runs; QWAIT keeps the longest wait, in µs. -/
def Hw.grant (h : Hw) (q : Nat) (r : MaintReq) : Hw :=
  let us := h.waited q r
  let h := (h.setQueue q ((h.queue q).erase r)).setRunning q (some r)
  h.setF pMAINT q MAINT_QWAIT_US (min (2 ^ 40 - 1) (max (h.f pMAINT q MAINT_QWAIT_US) us))

/-- The running activity ends and its resource becomes free. -/
def Hw.finish (h : Hw) (q : Nat) : Hw := h.setRunning q none

/-- A waiting request is withdrawn. -/
def Hw.withdraw (h : Hw) (q : Nat) (r : MaintReq) : Hw := h.setQueue q ((h.queue q).erase r)

end Sys2Proof.Machine
end

