-- ==== Sys2Proof/Machine/Seam.lean ====
section
/-! DEFINITION. The Seam event fabric: producer and consumer codes, launching and carrying events, arrivals at consumer
inputs, merge cells, routing writes and firing (R138 to R155, R175 to R179). -/

namespace Sys2Proof.Machine

open Sys2Proof

/-- R140. A valid producer code; index 0x000 means "none".
DEDUCED, unsafe: log entry 37. -/
def validProd (code : Nat) : Bool :=
  let loc := code / 4096
  let i := code % 4096
  i == 0 ||
  (loc < 8 && ((0x010 ≤ i && i < 0x030) || (0x040 ≤ i && i < 0x070) || (0x080 ≤ i && i < 0x0A0) ||
    (0x0A0 ≤ i && i < 0x0AC) || (0x0B0 ≤ i && i < 0x0BC) || (0x0C0 ≤ i && i < 0x0E0) || (0x0E0 ≤ i && i < 0x0E8))) ||
  (loc == 15 && (i == 0x010 || i == 0x011 || i == 0x012 || (0x020 ≤ i && i < 0x060) || (0x0E0 ≤ i && i < 0x0E8)))

/-- R141. A valid consumer code; index 0x000 means "none". -/
def validCons (code : Nat) : Bool :=
  let loc := code / 4096
  let i := code % 4096
  i == 0 ||
  (loc < 8 && ((0x010 ≤ i && i < 0x030) || (0x030 ≤ i && i < 0x03C) || (0x040 ≤ i && i < 0x048) ||
    (0x050 ≤ i && i < 0x058) || (0x060 ≤ i && i < 0x068) || (0x0E0 ≤ i && i < 0x0E8))) ||
  (loc == 15 && ((0x040 ≤ i && i < 0x050) || i == 0x060 || i == 0x061 || (0x070 ≤ i && i < 0x074) ||
    (0x0E0 ≤ i && i < 0x0E8)))

/-- R142. A merge cell's code; it names both its consumer input and its producer output. -/
def isMerge (code : Nat) : Bool :=
  let loc := code / 4096
  let i := code % 4096
  (loc < 8 || loc == 15) && 0x0E0 ≤ i && i < 0x0E8

/-- The page that holds a channel's registers. -/
def chanPage (c : Chan) : Page := if c.loc < 8 then pLSEAM c.loc else pGSEAM

/-- An enabled channel with its producer and consumer codes. -/
structure Route where
  chan : Chan
  prod : Nat
  cons : Nat
deriving DecidableEq, Repr

/-- The route a CH_ROUTE word makes, when the word enables the channel. -/
def routeOf (c : Chan) (w : Word) : Option Route :=
  if bitOf w.toNat 32 then some ⟨c, bitsOf w.toNat 0 16, bitsOf w.toNat 16 16⟩ else none

/-- The enabled channels. CH_ROUTE resets to a disabled channel, so an enabled one is listed in the register file. -/
def Hw.routes (h : Hw) : List Route :=
  h.regs.filterMap fun e =>
    if e.1.off = 0x10 ∧ e.1.cl < 8 ∧ e.1.idx = 0x1C then routeOf ⟨e.1.cl, e.1.ch⟩ e.2
    else if e.1.off = 0x10 ∧ e.1.cl = devCl ∧ e.1.idx = 0x010 then routeOf ⟨15, e.1.ch⟩ e.2
    else none

/-! ## Flags and counters of a channel -/

/-- R150. A dropped arrival is noted in the channel that carried it. -/
def Hw.seamDrop (h : Hw) (c : Chan) : Hw :=
  let p := chanPage c
  (((h.setF p c.ch SEAM_CH_STAT_DROP 1).satF p c.ch SEAM_CH_STAT_DROP_CNT)).irqBit p SEAM_IRQ_DROP 0

/-- R149. A coincidence is noted in the channel. -/
def Hw.seamCoincide (h : Hw) (c : Chan) : Hw :=
  let p := chanPage c
  (((h.setF p c.ch SEAM_CH_STAT_COINCIDE 1).satF p c.ch SEAM_CH_STAT_COINC_CNT)).irqBit p SEAM_IRQ_COINC 0

/-- R153, R154. Global channel `c` sets its flag copy in cluster `n`; GLOBAL when a watched flag becomes set. -/
def Hw.globalFlag (h : Hw) (c n : Nat) : Hw :=
  let p := pLSEAM n
  let fl : Fld := ⟨0x80 + c / 32, c % 32, 1⟩
  let watched : Bool := h.b p 0 ⟨0x82 + c / 32, c % 32, 1⟩
  let was : Bool := h.b p 0 fl
  let h := h.setF p 0 fl 1
  if watched && !was then h.irqBit p SEAM_IRQ_GLOBAL 0 else h

/-- R153. What a channel's carrying an event leaves in its counter and flags. -/
def Hw.seamFlags (h : Hw) (c : Chan) : Hw :=
  let h := h.incF (chanPage c) c.ch SEAM_EV_CNT_COUNT
  if c.loc < 8 then h.irqBit (pLSEAM c.loc) SEAM_IRQ_FLAG c.ch
  else (List.range 8).foldl (fun h n => h.globalFlag c.ch n) h

/-- R142. Whether a merge cell's MRG_EN bit is 1. -/
def Hw.mergeOn (h : Hw) (code : Nat) : Bool :=
  let p := if code / 4096 < 8 then pLSEAM (code / 4096) else pGSEAM
  h.b p 0 ⟨0x84, code % 4096 - 0x0E0, 1⟩

/-! ## Consumer inputs -/

/-- The consumer input with this code. -/
def Hw.consIn (h : Hw) (code : Nat) : SeamIn := h.seamIn.at {} code

/-- The consumer input replaced. -/
def Hw.setConsIn (h : Hw) (code : Nat) (v : SeamIn) : Hw := { h with seamIn := h.seamIn.set {} code v }

/-- R149. The other channel whose arrival came at time `t` too. -/
def SeamIn.joint (x : SeamIn) (t : Nat) (via : Chan) : Option Chan :=
  match x.last with
  | some l => if l.1 = t ∧ l.2 ≠ via then some l.2 else none
  | none => none

/-- R150. Time `t` lies within the re-arm time of 6.67 ns, fewer than 3 periods of the model's clock. Events launched at one
edge are taken in the order of their commands. -/
def SeamIn.soon (x : SeamIn) (t : Nat) : Bool :=
  match x.accept with
  | some a => decide (t < a + 3) && decide (a < t + 3)
  | none => false

/-- What an event meets at a merge cell's input: discarded, one trigger with the other channel's arrival (R149), dropped within
the re-arm time (R150), or accepted. -/
inductive MergeFate
  | discard | coincide (other : Chan) | drop | accept
deriving DecidableEq, Repr

/-- R142, R149, R150. An arrival by a channel at time `t` at a merge cell. -/
def Hw.mergeFate (h : Hw) (code t : Nat) (via : Chan) : MergeFate :=
  let x := h.consIn code
  if !h.mergeOn code then .discard
  else match x.joint t via with
    | some o => .coincide o
    | none => if x.soon t then .drop else .accept

/-! ## Launching -/

/-- R147. How long an event stands on a channel, in periods of PWM_CLK: 2.5 ns on a local one, 5 ns on a global one. -/
def Chan.delay (c : Chan) : Nat := if c.loc < 8 then 1 else 2

/-- R140, R148. A producer whose clock is divided from the root: not a pin event unit, nor a comparator whose cluster's clock
has stopped (HALT and DEEP). -/
def Hw.rootProducer (h : Hw) (code : Nat) : Bool :=
  !(decide (0xF020 ≤ code) && decide (code < 0xF040)) &&
    !(decide (code / 4096 < 8) && decide (0x060 ≤ code % 4096) && decide (code % 4096 < 0x070) && !h.clusterRuns (code / 4096))

/-- The carrying of an event by a list of channels, after `passed` merge cells; `root`: R147 gives its times, else they are
upper bounds (R148). `fuel` bounds the merge cells passed (R143 permits no closed path).
DEDUCED, unsafe: log entry 161. -/
def Hw.carryAll (fuel : Nat) (h : Hw) (passed : Nat) (root : Bool) (rs : List Route) : Hw :=
  match fuel with
  | 0 => h
  | fuel + 1 =>
    rs.foldl (fun h r =>
      let h := h.seamFlags r.chan
      let t := h.now + r.chan.delay + passed
      if r.cons % 4096 = 0 then h
      else if isMerge r.cons then
        let x := h.consIn r.cons
        match h.mergeFate r.cons t r.chan with
        | .discard => h
        | .coincide o =>
          let h := (h.seamCoincide o).seamCoincide r.chan
          if x.accept = some t then h else h.seamDrop r.chan
        | .drop => (h.setConsIn r.cons { x with last := some (t, r.chan) }).seamDrop r.chan
        | .accept =>
          Hw.carryAll fuel (h.setConsIn r.cons ⟨some t, some (t, r.chan)⟩) (passed + 1) root
            (h.routes.filter (fun q => q.prod = r.cons))
      else { h with flights := h.flights ++ [⟨r.chan, r.cons, if root then t else h.now⟩] }) h

/-- R155. At one edge a global channel carries one event for its producer's and a fire's: `fire` tells which comes now. Answers
whether the channel carries it. -/
def Hw.carriesEvent (h : Hw) (r : Route) (fire : Bool) : Hw × Bool :=
  if r.chan.loc ≠ 15 then (h, true)
  else if h.carried.at none r.chan.ch = some (h.now, !fire) then
    ({ h with carried := h.carried.set none r.chan.ch none }, false)
  else ({ h with carried := h.carried.set none r.chan.ch (some (h.now, fire)) }, true)

/-- The channels of a list that carry an event launched now carry it. -/
def Hw.carryOn (h : Hw) (root fire : Bool) (rs : List Route) : Hw :=
  rs.foldl (fun h r =>
    let x := h.carriesEvent r fire
    if x.2 then Hw.carryAll 80 x.1 0 root [r] else x.1) h

/-- R147, R153. A producer launches an event: every enabled channel that names it carries the event. -/
def Hw.launch (h : Hw) (code : Nat) : Hw := h.carryOn (h.rootProducer code) false (h.routes.filter (fun q => q.prod = code))

/-- A cluster's producer code. -/
abbrev clCode (c i : Nat) : Nat := c * 4096 + i

/-- A device producer or consumer code. -/
abbrev devCode (i : Nat) : Nat := 0xF000 + i

/-- R155. A write of GSEAM.FIRE launches an event on each chosen enabled global channel from `base` on. -/
def Hw.seamFire (h : Hw) (base : Nat) (d : Word) : Hw :=
  (List.range 32).foldl (fun h c =>
    if bitOf d.toNat c then h.carryOn true true (h.routes.filter (fun q => q.chan = ⟨15, base + c⟩)) else h) h

/-! ## Arrivals -/

/-- R147. The event on channel `via` for an input, once it has arrived there. -/
def Hw.flightAt (h : Hw) (via : Chan) (cons : Nat) : Option Flight :=
  h.flights.find? (fun f => f.chan = via && f.cons = cons && decide (f.due ≤ h.now))

/-- An arrival is sampled at consumer input `cons`: it happens when the event has arrived there; a second channel's at the same
edge counts as one trigger with it (R149); it is dropped within the re-arm time (R150) or when the input's clock is stopped
(R151). Answers whether the consumer takes a trigger. -/
def Hw.arrive (h : Hw) (a : Arrival) (cons : Nat) (clock : Bool) : Hw × Bool :=
  match h.flightAt a.via cons with
  | none => (h, false)
  | some f =>
    let h := { h with flights := h.flights.erase f }
    let both : Option Flight := (a.also.filter (· != a.via)).bind (fun c => h.flightAt c cons)
    let x := h.consIn cons
    let joint := x.joint h.now a.via
    let h := match both with
      | some g => ({ h with flights := h.flights.erase g }.seamCoincide a.via).seamCoincide g.chan
      | none => h
    let h := match both, joint with
      | none, some c => (h.seamCoincide c).seamCoincide a.via
      | _, _ => h
    if joint.isSome && x.accept == some h.now then (h, false)
    else if x.soon h.now || !clock then
      let h := (h.setConsIn cons { x with last := some (h.now, a.via) }).seamDrop a.via
      (match both with | some g => h.seamDrop g.chan | none => h, false)
    else (h.setConsIn cons ⟨some h.now, some (h.now, a.via)⟩, true)

/-! ## Routing writes -/

/-- Whether a path of merge cells leads from producer code `a` to consumer code `b` over routes `rs`. -/
def mergeReach (fuel : Nat) (rs : List Route) (front : List Nat) (b : Nat) : Bool :=
  match fuel with
  | 0 => front.contains b
  | fuel + 1 =>
    front.contains b ||
      mergeReach fuel rs ((front ++ (rs.filter (fun r => front.contains r.prod && isMerge r.cons)).map (·.cons)).eraseDups) b

/-- R143. The cause that refuses a routing write of word `w` to channel `c`, in the order CODE, CYCLE, FANIN; 0 when
none does. -/
def Hw.routeCause (h : Hw) (c : Chan) (w : Word) : Nat :=
  let prod := bitsOf w.toNat 0 16
  let cons := bitsOf w.toNat 16 16
  let foreign (code : Nat) : Bool := c.loc < 8 && code % 4096 != 0 && code / 4096 != c.loc
  if !validProd prod || !validCons cons || foreign prod || foreign cons then 3
  else if !bitOf w.toNat 32 then 0
  else
    let rs := h.routes.filter (fun r => r.chan != c)
    if isMerge prod && isMerge cons && mergeReach 80 rs [cons] prod then 1
    else if cons % 4096 != 0 && (rs.filter (fun r => r.cons = cons)).length ≥ 2 then 2
    else 0

/-- R143, R146. A routing write: refused with its cause, or in effect for events launched from now on. -/
def Hw.routingWrite (h : Hw) (c : Chan) (w : Word) : Hw :=
  let p := chanPage c
  let cause := h.routeCause c w
  if cause = 0 then h.plainWrite p 0x10 c.ch w
  else ((h.setF p 0 SEAM_STATUS_CH c.ch).setF p 0 SEAM_STATUS_CAUSE cause).irqBit p SEAM_IRQ_ROUTE_ERR 0

/-- R177. A write of CH_STAT: clearing DROP or COINCIDE clears its counter too. -/
def Hw.chStatWrite (h : Hw) (c : Chan) (d : Word) : Hw :=
  let p := chanPage c
  let h := h.plainWrite p 0x11 c.ch d
  let h := h.when (bitOf d.toNat 1) (fun h => h.setF p c.ch SEAM_CH_STAT_DROP_CNT 0)
  h.when (bitOf d.toNat 0) (fun h => h.setF p c.ch SEAM_CH_STAT_COINC_CNT 0)

/-- Effect of an accepted write to LSEAM of a cluster (`loc` < 8) or to GSEAM (`loc` = 15). -/
def Hw.seamWrite (h : Hw) (loc off ch : Nat) (d : Word) : Hw :=
  let c : Chan := ⟨loc, ch⟩
  if off = 0x10 then h.routingWrite c d
  else if off = 0x11 then h.chStatWrite c d
  else if loc = 15 ∧ off = 0x80 then h.seamFire 0 d
  else if loc = 15 ∧ off = 0x81 then h.seamFire 32 d
  else h.plainWrite (chanPage c) off ch d

end Sys2Proof.Machine
end

