-- ==== Sys2Proof/Machine/Hamper.lean ====
section
/-! DEFINITION. The Hamper's states: arming, cadence, triggers, freezing and dumps (R437, R442 to R447), as far as they lie
outside memory. -/

namespace Sys2Proof.Machine

open Sys2Proof

/-- R443. The Hamper's state: 0 IDLE, 1 FILL, 2 ARMED, 3 POST, 4 FROZEN. -/
def Hw.hState (h : Hw) : Nat := h.f pHAMPER 0 HAMPER_STATUS_STATE

/-- R578. The Hamper takes a state; a departure from FROZEN is counted. -/
def Hw.setHState (h : Hw) (n : Nat) : Hw :=
  let h := if h.hState = 4 ∧ n ≠ 4 then h.incF pPCIE 0 PCIE_HWIN_STAT_EPOCH else h
  h.setF pHAMPER 0 HAMPER_STATUS_STATE n

/-- R443. POST′. -/
def Hw.postOf (h : Hw) : Nat := min (h.f pHAMPER 0 HAMPER_POST_COUNT) (h.hamper.k - 1)

/-- R443. FILL ends when the record count reaches min(PRE, K − POST′). -/
def Hw.hamperArm (h : Hw) : Hw :=
  if h.hState = 1 ∧ min (h.f pHAMPER 0 HAMPER_PRE_COUNT) (h.hamper.k - h.postOf) ≤ h.hamper.count then h.setHState 2 else h

/-- R443. The Hamper freezes. -/
def Hw.enterFrozen (h : Hw) : Hw := ((h.setHState 4).irqBit pHAMPER HAMPER_IRQ_FROZEN 0).launch (devCode 0x012)

/-- R437, R443, R446. EN has become 1 in IDLE: the geometry is latched, or arming is refused. -/
def Hw.hamperLatch (h : Hw) : Hw :=
  let n := min (h.f pHAMPER 0 HAMPER_NSIG_N) 4096
  let r := (n + 2 + 7) / 8
  let base := h.f pHAMPER 0 HAMPER_BASE_LINE
  let size := h.f pHAMPER 0 HAMPER_SIZE_LINES
  let k := size / r
  if k < 2 ∨ 2 ^ 26 < base + size ∨ 50331648 < size then
    (h.setF pHAMPER 0 HAMPER_CTRL_EN 0).irqBit pHAMPER HAMPER_IRQ_CFG_ERR 0
  else
    let h := { h with hamper :=
      { n := n, r := r, k := k, base := base, size := size, tick := h.b pHAMPER 0 HAMPER_CAD_SRC,
        div := h.f pHAMPER 0 HAMPER_CAD_DIV, dumpTo := h.hamper.dumpTo } }
    let h := ((h.setF pHAMPER 0 HAMPER_WR_IDX_POS 0).setF pHAMPER 0 HAMPER_SEQ_SEQ 0).setF pHAMPER 0 HAMPER_K_COUNT k
    (h.setHState 1).hamperArm

/-- R443. The Hamper comes to IDLE, and is armed anew when EN stands at 1 again. -/
def Hw.hamperIdle (h : Hw) : Hw :=
  let h := { h with hamper := { h.hamper with stopping := false, rec' := none } }.setHState 0
  if h.b pHAMPER 0 HAMPER_CTRL_EN then h.hamperLatch else h

/-- R443. A write of CTRL. -/
def Hw.hamperCtrl (h : Hw) (d : Word) : Hw :=
  let h := h.plainWrite pHAMPER 2 0 d
  let en := h.b pHAMPER 0 HAMPER_CTRL_EN
  if h.hState = 0 then (if en then h.hamperLatch else h)
  else if en then h
  else if h.hamper.rec'.isSome then { h with hamper := { h.hamper with stopping := true } }
  else h.hamperIdle

/-- R443. The position the next record takes. -/
def Hw.nextPos (h : Hw) : Nat :=
  (h.f pHAMPER 0 HAMPER_WR_IDX_POS + b2n h.hamper.rec'.isSome) % max 1 h.hamper.k

/-- R443, R444. Freeze sources fire at this edge; `bits` names them as CAUSE does. Those of one edge form one trigger. A record
in progress goes on to its end.
DEDUCED, unsafe: log entry 81. -/
def Hw.hamperTrigger (h : Hw) (bits : Nat) : Hw :=
  let on := bits &&& (h.f pHAMPER 0 HAMPER_FRZ_CFG_EN ||| 0x10)
  let mark (h : Hw) (begins : Bool) : Hw := { h with hamper := { h.hamper with trigAt := some (h.now, begins) } }
  if on = 0 ∨ h.hState = 0 then h
  else if 3 ≤ h.hState then
    if h.hamper.trigAt = some (h.now, true) then
      h.setF pHAMPER 0 HAMPER_FRZSTAT_CAUSE (h.f pHAMPER 0 HAMPER_FRZSTAT_CAUSE ||| on)
    else if h.hamper.trigAt = some (h.now, false) then h
    else mark (h.setF pHAMPER 0 HAMPER_FRZSTAT_EXTRA (min 255 (h.f pHAMPER 0 HAMPER_FRZSTAT_EXTRA + 1))) false
  else
    let fill := h.hState == 1
    let h := ((h.setReg pHAMPER 0x88 0 0).setF pHAMPER 0 HAMPER_FRZSTAT_CAUSE on).setB pHAMPER 0 HAMPER_FRZSTAT_SHORT_PRE fill
    let h := mark h true
    if h.postOf = 0 then (h.setF pHAMPER 0 HAMPER_TRIG_IDX_POS h.nextPos).enterFrozen
    else { h with hamper := { h.hamper with trig := true, left := h.postOf } }.setHState 3

/-- R445. A reset whose scope includes the device-level blocks freezes the Hamper without further records, and abandons the one
in progress; a Hamper that EN = 0 had left to end that record comes to IDLE. -/
def Hw.hamperReset (h : Hw) : Hw :=
  if h.hState = 0 ∨ h.hState = 4 then h
  else
    let h := if h.hState = 3 then h else h.setReg pHAMPER 0x88 0 0
    let h := h.setF pHAMPER 0 HAMPER_FRZSTAT_CAUSE (h.f pHAMPER 0 HAMPER_FRZSTAT_CAUSE ||| 0x10)
    let stop := h.hamper.stopping
    { h with hamper := { h.hamper with rec' := none, trig := false, stopping := false } }.enterFrozen.when stop Hw.hamperIdle

/-- R442. A cadence event that would start a record is dropped. -/
def Hw.hamperMiss (h : Hw) : Hw :=
  { h with hamper := { h.hamper with gap := true } }.incF pHAMPER 0 HAMPER_MISS_CNT_COUNT |>.irqBit pHAMPER HAMPER_IRQ_MISS 0

/-- R438, R443. A record starts at this cadence edge. -/
def Hw.hamperStart (h : Hw) : Hw :=
  let x : HamperRec :=
    { pos := h.f pHAMPER 0 HAMPER_WR_IDX_POS, seq := h.f pHAMPER 0 HAMPER_SEQ_SEQ, time := h.domTime % 2 ^ 40,
      gen := h.f pDOM 0 DOM_TICK_TN % 16, trig := h.hamper.trig, gap := h.hamper.gap }
  let h := if x.trig then h.setF pHAMPER 0 HAMPER_TRIG_IDX_POS x.pos else h
  { h with hamper := { h.hamper with rec' := some x, trig := false, gap := false } }

/-- R442, R608. A cadence event, counted from the latch; every (DIV + 1)-th starts a record unless one is in hand, and none
does while DRAM is not ready. -/
def Hw.hamperCadence (h : Hw) : Hw :=
  if h.hState = 0 then h
  else
    let full : Bool := decide (h.hamper.div ≤ h.hamper.cad)
    let h := { h with hamper := { h.hamper with cad := if full then 0 else h.hamper.cad + 1 } }
    if h.hState = 4 ∨ h.hamper.stopping ∨ h.b pRST 0 RST_STATUS_PENDING then h
    else if !h.b pDRAM 0 DRAM_STATUS_READY then h.hamperMiss
    else if !full then h
    else if h.hamper.rec'.isSome then h.hamperMiss
    else h.hamperStart

/-- R443. Record `x` is complete: its header has been written. -/
def Hw.hamperEnd (h : Hw) (x : HamperRec) : Hw :=
  let post : Bool := h.hState == 3 && !h.hamper.trig
  let h := (h.setF pHAMPER 0 HAMPER_LAST_IDX_POS x.pos).setF pHAMPER 0 HAMPER_WR_IDX_POS ((x.pos + 1) % max 1 h.hamper.k)
  let h := h.setF pHAMPER 0 HAMPER_SEQ_SEQ (x.seq + 1)
  let h := { h with hamper := { h.hamper with rec' := none, count := h.hamper.count + 1, left := h.hamper.left - b2n post } }
  if h.hamper.stopping then h.hamperIdle
  else if post && h.hamper.left == 0 then h.enterFrozen
  else h.hamperArm

/-- R443. A REARM. -/
def Hw.hamperRearm (h : Hw) : Hw :=
  if h.hState ≠ 4 then h
  else if h.b pHAMPER 0 HAMPER_STATUS_DUMP_QUEUED || h.b pHAMPER 0 HAMPER_STATUS_DUMPING then
    h.setF pHAMPER 0 HAMPER_STATUS_REARM_BUSY 1
  else ({ h with hamper := { h.hamper with count := 0 } }.setHState 1).hamperArm

/-- R447. A DUMP request, refused out of FROZEN or with a bad destination; a good one that finds another waiting or running adds
nothing (R626).
DEDUCED, unsafe: log entry 83. -/
def Hw.hamperDump (h : Hw) : Hw :=
  let dst := h.f pHAMPER 0 HAMPER_DUMP_BASE_LINE
  let n := h.hamper.k * h.hamper.r
  if h.hState ≠ 4 ∨ 2 ^ 26 < dst + n ∨ (dst < h.hamper.base + h.hamper.size ∧ h.hamper.base < dst + n) then
    h.irqBit pHAMPER HAMPER_IRQ_DUMP_ERR 0
  else if h.b pHAMPER 0 HAMPER_STATUS_DUMP_QUEUED || h.b pHAMPER 0 HAMPER_STATUS_DUMPING then h
  else
    ({ h with hamper := { h.hamper with dumpTo := dst } }.setF pHAMPER 0 HAMPER_STATUS_DUMP_QUEUED 1).enqueue 8 5 0

/-- A write of CMD. -/
def Hw.hamperCmd (h : Hw) (d : Word) : Hw :=
  let h := if bitOf d.toNat 0 then h.hamperTrigger 0x1 else h
  let h := if bitOf d.toNat 1 then h.hamperRearm else h
  if bitOf d.toNat 2 then h.hamperDump else h

/-- Effect of an accepted page write to HAMPER. -/
def Hw.hamperWrite (h : Hw) (off ch : Nat) (d : Word) : Hw :=
  if off = 2 then h.hamperCtrl d
  else if off = 0x87 then h.hamperCmd d
  else h.plainWrite pHAMPER off ch d

/-- R447. The scheduler grants a dump: it copies the ring as it stands now, from its oldest position. -/
def Hw.dumpGrant (h : Hw) : Hw :=
  if h.grantable 8 ⟨5, 0⟩ (fun _ => true) then
    let x := h.hamper
    let job : DumpJob := ⟨x.base, x.k, x.r, (h.f pHAMPER 0 HAMPER_LAST_IDX_POS + 1) % max 1 x.k, x.dumpTo⟩
    let h := { h with hamper := { x with dump := some job } }
    ((h.grant 8 ⟨5, 0⟩).setF pHAMPER 0 HAMPER_STATUS_DUMP_QUEUED 0).setF pHAMPER 0 HAMPER_STATUS_DUMPING 1
  else h

end Sys2Proof.Machine
end

