-- ==== Sys2Proof/Machine/FlashCtl.lean ====
section
/-! DEFINITION. The flash controller, the image slots and the limited-write fields, as far as they lie outside the flash
array (R456 to R463, R467, R473 to R483). -/

namespace Sys2Proof.Machine

open Sys2Proof

/-! ## The controller's state -/

/-- R471. A ledger switch runs. -/
def FlashSt.switching (f : FlashSt) : Bool :=
  (match f.op with
   | some (.switchErase _) => true
   | some (.record r) => r.after' == .switch
   | _ => false) || f.recs.any (fun r => r.after' == .switch)

/-- R484. The code of the running operation. -/
def FlashSt.opCode (f : FlashSt) : Nat :=
  if f.switching then 5
  else match f.op with
    | some (.program _ _ _) => 1
    | some (.margin _ _) => 3
    | some (.record _) => 4
    | some (.switchErase _) => 5
    | none => if f.erase.isSome then 2 else 0

/-- R460. The flash is free for a read: idle, or an erase is suspended and nothing else runs. -/
def FlashSt.readable (f : FlashSt) : Bool :=
  f.op.isNone && (match f.erase with | some e => e.suspended | none => true)

/-- The controller's state replaced, STATUS with it. -/
def Hw.setFlash (h : Hw) (f : FlashSt) : Hw :=
  let h := { h with flash := f }
  let h := (h.setB pFLASH 0 FLASH_STATUS_BUSY (f.op.isSome || f.erase.isSome)).setF pFLASH 0 FLASH_STATUS_OP f.opCode
  let h := (h.setB pFLASH 0 FLASH_STATUS_LEDGER_SW f.switching).setB pFLASH 0 FLASH_STATUS_QUEUED f.asked.isSome
  match f.erase with
  | some e => (h.setB pFLASH 0 FLASH_STATUS_SUSPENDED e.suspended).setB pFLASH 0 FLASH_STATUS_SUS_PEND e.pend.isSome
  | none => (h.setF pFLASH 0 FLASH_STATUS_SUSPENDED 0).setF pFLASH 0 FLASH_STATUS_SUS_PEND 0

/-- R463, R483, R484. A reset waits on the flash, or on a limited write.
DEDUCED, unsafe: log entry 87. -/
def Hw.rstWait (h : Hw) : Bool :=
  h.b pRST 0 RST_STATUS_PENDING && (h.flash.op.isSome || h.flash.erase.isSome || h.flash.lwf.isSome)

/-- R461. A suspended erase restarts, after the operation at hand. -/
def Hw.resumeErase (h : Hw) (e : EraseSt) : Hw :=
  if h.flash.op.isSome then h.setFlash { h.flash with erase := some { e with resume := true } }
  else h.setFlash { h.flash with erase := some { e with suspended := false, auto := false, resume := false } }

/-- R463. A device reset has been requested: a suspended erase resumes at once, an operation at hand apart, and no suspend is
accepted. -/
def Hw.flashReset (h : Hw) : Hw :=
  match h.flash.erase.filter (fun e => e.suspended) with
  | some e => h.resumeErase { e with auto := false }
  | none => h

/-! ## Records -/

/-- R467. The time a record carries: domain time, or microseconds since the last power-on reset. -/
def Hw.recordTime (h : Hw) : Nat :=
  if h.b pDTIME 0 DTIME_STATUS_VALID then h.domTime else (h.now - h.porAt) / 400

/-- A record of a kind, made now. -/
def Hw.record (h : Hw) (kind : Nat) (a0 a1 a2 : Word) (who : Asker) (after : After) : LedgerRec :=
  { kind := kind, a0 := a0, a1 := a1, a2 := a2, time := h.recordTime, tvalid := h.b pDTIME 0 DTIME_STATUS_VALID,
    who := who, after' := after }

/-- R471. Free places that make a switch due. -/
def switchAt : Nat := 64

/-- R459, R470, R471. The controller takes its next operation by itself, unless an erase runs: a switch that is due and that no
reset holds back, else the oldest record, unless the ledger has no free place. -/
def Hw.flashNext (h : Hw) : Hw :=
  let f := h.flash
  let runs : Bool := f.erase.any (fun e => e.phase == 1 && !e.suspended)
  if f.op.isSome || runs then h
  else if f.switch && !h.b pRST 0 RST_STATUS_PENDING then
    h.setFlash { f with op := some (.switchErase (1 - h.f pLEDGER 0 LEDGER_STATUS_ACTIVE)), switch := false }
  else match f.recs with
    | r :: rest => if h.f pLEDGER 0 LEDGER_STATUS_FREE ≠ 0 then h.setFlash { f with op := some (.record r), recs := rest } else h
    | [] => h

/-- R470. A record waits its turn. -/
def Hw.append (h : Hw) (r : LedgerRec) : Hw := (h.setFlash { h.flash with recs := h.flash.recs ++ [r] }).flashNext

/-! ## Command results -/

/-- The asker behind an access. -/
def Acc.asker (a : Acc) : Asker := ⟨a.who.id, a.ring⟩
def controller : Asker := ⟨0xFF, 0⟩

/-- R456. A command has failed. -/
def Hw.opFail (h : Hw) (cause op sector : Nat) : Hw :=
  (((h.setF pFLASH 0 FLASH_OPSTAT_CAUSE cause).setF pFLASH 0 FLASH_OPSTAT_LAST_OP op).setF pFLASH 0
    FLASH_OPSTAT_SECTOR sector).irqBit pFLASH FLASH_IRQ_OP_ERR 0

/-- R456. A command has completed successfully. -/
def Hw.opDone (h : Hw) (op sector : Nat) : Hw :=
  ((h.setF pFLASH 0 FLASH_OPSTAT_LAST_OP op).setF pFLASH 0 FLASH_OPSTAT_SECTOR sector).irqBit pFLASH FLASH_IRQ_OP_DONE 0

/-- The operation at hand ends; a resume that waited for it takes effect (R461), once a ledger switch is through. -/
def Hw.flashFree (h : Hw) : Hw :=
  let f := h.flash
  let free : Bool := !f.recs.any (fun r => r.after' == .switch)
  let erase := f.erase.map (fun e =>
    if e.resume && free then { e with suspended := false, auto := false, resume := false } else e)
  let resumed := (f.erase.filter (fun e => e.resume && free && !e.auto)).map (·.sector)
  let h := h.setFlash { f with op := none, erase := erase }
  (match resumed with
   | some sector => h.opDone 4 sector
   | none => h).flashNext

/-! ## Sectors and slots -/

/-- R453. The image slot of a sector. -/
def slotOf (sector : Nat) : Option Nat :=
  if 8 ≤ sector ∧ sector < 520 then some 0 else if 520 ≤ sector ∧ sector < 1032 then some 1 else none

/-- R485. CLASS of a sector. -/
def classOfSector (sector : Nat) : Nat :=
  match slotOf sector with
  | some s => 2 + s
  | none => if sector < 2 then 1 else 0

/-- STATE of a sector: 0 NORMAL, 1 HALF, 2 BAD. -/
def Hw.sectorState (h : Hw) (sector : Nat) : Nat := h.f pFLASH sector FLASH_SECTOR_STATE_STATE
def Hw.setSector (h : Hw) (sector state : Nat) : Hw := h.setF pFLASH sector FLASH_SECTOR_STATE_STATE state

/-- The sectors in a state. -/
def Hw.sectorsIn (h : Hw) (state : Nat) : List Nat :=
  (h.regs.filter (fun e => e.1.cl == devCl && e.1.idx == 0x020 && e.1.off == 0x10 && bitsOf e.2.toNat 0 2 == state)).map (·.1.ch)

/-- R475. A slot has a HALF or BAD sector. -/
def Hw.damaged (h : Hw) (slot : Nat) : Bool := (h.sectorsIn 1 ++ h.sectorsIn 2).any (fun x => slotOf x == some slot)

/-- The recorded state of a slot, and the state it reads as (R476). -/
def Hw.imgRec (h : Hw) (slot : Nat) : Nat := if slot = 0 then h.flash.imgA else h.flash.imgB
def Hw.imgState (h : Hw) (slot : Nat) : Nat := if h.damaged slot then 0 else h.imgRec slot

/-- R474. A slot's recorded state; the later CONFIRMED record makes the preferred slot. -/
def Hw.setImg (h : Hw) (slot state : Nat) : Hw :=
  let f := h.flash
  let f := if slot = 0 then { f with imgA := state } else { f with imgB := state }
  { h with flash := if state = 3 then { f with pref := slot } else f }

/-- R476. The preferred slot, when some slot is CONFIRMED. -/
def Hw.prefSlot (h : Hw) : Option Nat :=
  if h.imgState h.flash.pref = 3 then some h.flash.pref
  else if h.imgState (1 - h.flash.pref) = 3 then some (1 - h.flash.pref)
  else none

/-- R474. The running slot, once START has been accepted. -/
def Hw.runSlot (h : Hw) : Option Nat :=
  if h.b pFLASH 0 FLASH_IMG_RUN_VALID then some (h.f pFLASH 0 FLASH_IMG_RUN) else none

/-- R474. RUN := slot. -/
def Hw.setRunSlot (h : Hw) (slot : Nat) : Hw := (h.setF pFLASH 0 FLASH_IMG_RUN slot).setF pFLASH 0 FLASH_IMG_RUN_VALID 1

/-- R475. The cause that refuses an image command; 0 when the table permits it. -/
def Hw.imgCause (h : Hw) (op slot ring : Nat) : Nat :=
  let st := h.imgState slot
  let noneConfirmed : Bool := h.imgState 0 != 3 && h.imgState 1 != 3
  match op with
  | 1 =>
    if h.runSlot = some slot then 1
    else if h.imgState (1 - slot) ≠ 3 ∧ !h.b pDEV 0 DEV_STATUS_RECOVERY then 2
    else if h.damaged slot then 3
    else if st = 0 ∨ st = 3 ∨ st = 4 then 0
    else 4
  | 2 =>
    if h.damaged slot then 3
    else if st = 2 ∧ h.runSlot = some slot then 0
    else if noneConfirmed ∧ st ≠ 3 then (if ring = 0 then 0 else 5)
    else 4
  | 3 =>
    if h.damaged slot then 3
    else if (st = 1 ∨ st = 3) ∧ h.runSlot.isNone then (if ring = 0 then 0 else 5)
    else 4
  | _ => if h.imgRec slot = 1 ∨ h.imgRec slot = 2 then (if ring = 0 then 0 else 5) else 4

/-- R474. An IMG_STATE record of a slot's new state. -/
def Hw.imgRecord (h : Hw) (who : Asker) (slot state : Nat) (run : Bool) : Hw :=
  h.append (h.record 4 (w40 slot) (w40 state) 0 who (.img slot state run))

/-- R474, R475. A write of IMG_CMD. -/
def Hw.imgCmd (h : Hw) (a : Acc) (d : Word) : Hw :=
  let op := bitsOf d.toNat 0 3
  let slot := bitsOf d.toNat 3 1
  if op = 0 ∨ 4 < op then h
  else match h.imgCause op slot a.ring with
    | 0 =>
      match op with
      | 1 => h.imgRecord a.asker slot 1 false
      | 2 => h.imgRecord a.asker slot 3 false
      | 3 => if h.imgState slot = 3 then h.setRunSlot slot else h.imgRecord a.asker slot 2 true
      | _ => h.imgRecord a.asker slot 4 false
    | cause => (h.setF pFLASH 0 FLASH_IMG_STAT_CAUSE cause).irqBit pFLASH FLASH_IRQ_IMG_ERR 0

/-! ## Limited-write fields -/

/-- R477. A field's width, slots and first array bit; a thermometer has none of the slots.
DESIGN CHOICE, unsafe: log entry 92. -/
def lwfWidth (n : Nat) : Nat := match n with | 0 => 32 | 1 => 256 | 2 => 16 | 7 => 64 | 8 => 40 | _ => 4
def lwfSlots (n : Nat) : Nat := match n with | 1 => 4 | 7 => 0 | _ => 8
def lwfBase (n : Nat) : Nat :=
  match n with
  | 0 => 0 | 1 => 272 | 2 => 1304 | 3 => 1448 | 4 => 1496 | 5 => 1544 | 6 => 1592 | 7 => 1640 | _ => 1704

/-- Bits of a slot of the array. -/
def lwfSlot (array n k : Nat) : Nat := bitsOf array (lwfBase n + k * (lwfWidth n + 2)) (lwfWidth n + 2)

/-- R478. A slot is free; a slot is valid. -/
def lwfFree (array n k : Nat) : Bool := lwfSlot array n k == 0
def lwfValid (array n k : Nat) : Bool :=
  let w := lwfWidth n
  let x := lwfSlot array n k
  bitOf x (w + 1) && popCount (w + 1) x % 2 == 1

/-- R479. The floor the thermometer reads as. -/
def lwfFloor (array : Nat) : Nat := (List.range 64).foldl (fun m i => if array.testBit (1640 + i) then i + 1 else m) 0

/-- R478, R479. A field's value as the array holds it. -/
def lwfValue (array n : Nat) : Nat :=
  if n = 7 then lwfFloor array
  else (List.range (lwfSlots n)).foldl (fun v k => if lwfValid array n k then lwfSlot array n k % 2 ^ lwfWidth n else v) 0

/-- The slots of a field of each sort. -/
def lwfCount (n : Nat) (p : Nat → Bool) : Nat := ((List.range (lwfSlots n)).filter p).length
def lwfSpoilt (array n : Nat) : Nat := lwfCount n (fun k => !lwfFree array n k && !lwfValid array n k)

/-- R488. FINFO of a field follows the array. -/
def Hw.lwfInfo (h : Hw) (n : Nat) : Hw :=
  let a := h.flash.array
  let h := (h.setF pLWF n LWF_FINFO_USED (lwfCount n (lwfValid a n))).setF pLWF n LWF_FINFO_SPOILT (lwfSpoilt a n)
  let h := (h.setF pLWF n LWF_FINFO_WIDTH (lwfWidth n)).setF pLWF n LWF_FINFO_SLOTS (lwfSlots n)
  h.setF pLWF n LWF_FINFO_FREE (if n = 7 then 64 - lwfFloor a else lwfCount n (lwfFree a n))

/-- A field's value is put into VALUE0 to VALUE6. -/
def Hw.lwfPut (h : Hw) (n v : Nat) : Hw :=
  (List.range 7).foldl (fun h k => h.setReg pLWF (0x11 + k) n (w40 (v >>> (40 * k)))) h

/-- A field loaded from the array. -/
def Hw.lwfLoadField (h : Hw) (n : Nat) : Hw := (h.lwfPut n (lwfValue h.flash.array n)).lwfInfo n

/-- R483. The array is read into the page. -/
def Hw.lwfLoadAll (h : Hw) : Hw :=
  let h := (List.range 9).foldl (fun h n => h.lwfLoadField n) h
  let h := h.setF pLWF 0 LWF_STATUS_LOADED 1
  if (List.range 9).any (fun n => lwfSpoilt h.flash.array n != 0) then h.irqBit pLWF LWF_IRQ_SPOILED 0 else h

/-- R481. The staged value. -/
def Hw.lwfStaged (h : Hw) (n : Nat) : Nat :=
  let v := (List.range 7).foldl (fun v k => v + h.f pLWF 0 (LWF_STAGE_VALUE k) * 2 ^ (40 * k)) 0
  v % 2 ^ (if n = 7 then 7 else lwfWidth n)

/-- R478. The lowest free slot of a field. -/
def lwfNextFree (array n : Nat) : Option Nat := (List.range (lwfSlots n)).find? (lwfFree array n)

/-- R481. The cause that refuses a write; 0 when it is accepted. -/
def Hw.lwfCause (h : Hw) (n key : Nat) : Nat :=
  let a := h.flash.array
  let v := h.lwfStaged n
  if 8 < n then 1
  else if key ≠ 0x4C57 then 2
  else if h.flash.lwf.isSome then 3
  else if (if n = 7 then decide (64 ≤ lwfFloor a) else (lwfNextFree a n).isNone) then 4
  else if (n = 6 ∧ v < h.lwf 6) ∨ (n = 7 ∧ v ≤ lwfFloor a) then 5
  else 0

/-- R468. CRC-32C of words. -/
def crcWords (ws : List Word) : Nat := (crcBytes 0xFFFFFFFF (ws.flatMap wordBytes)) ^^^ 0xFFFFFFFF

/-- The words of a value of `w` bits, lowest first. -/
def valueWords (w v : Nat) : List Word := (List.range ((w + 39) / 40)).map (fun k => w40 (v >>> (40 * k)))

/-- R481, R482. A write of WCMD.
DEDUCED, unsafe: log entry 91. -/
def Hw.lwfCmd (h : Hw) (a : Acc) (d : Word) : Hw :=
  let n := bitsOf d.toNat 0 4
  match h.lwfCause n (bitsOf d.toNat 8 16) with
  | 0 =>
    let v := h.lwfStaged n
    let slot := if n = 7 then v else (lwfNextFree h.flash.array n).getD 0
    let h := h.setF pLWF 0 LWF_STATUS_BUSY 1
    let h := { h with flash := { h.flash with lwf := some { field := n, slot := slot, value := v } } }
    h.append (h.record 3 (w40 (n * 256 + slot)) (w40 v) (w40 (crcWords (valueWords (if n = 7 then 7 else lwfWidth n) v)))
      a.asker .lwf)
  | cause => ((h.setF pLWF 0 LWF_WSTAT_CAUSE cause).setF pLWF 0 LWF_WSTAT_FIELD n).irqBit pLWF LWF_IRQ_WR_ERR 0

/-- R482. The array bits a write programs. -/
def lwfBits (w : LwfWrite) : Nat :=
  if w.field = 7 then (2 ^ min w.value 64 - 1) <<< 1640
  else
    let width := lwfWidth w.field
    let par := if popCount width w.value % 2 = 0 then 1 else 0
    (w.value + par * 2 ^ width + 2 ^ (width + 1)) <<< (lwfBase w.field + w.slot * (width + 2))

/-- R482. The bits a write programs first: the value and PAR, or the thermometer bits; USED follows. -/
def lwfFirst (w : LwfWrite) : Nat :=
  if w.field = 7 then lwfBits w else lwfBits w - 2 ^ (lwfBase w.field + w.slot * (lwfWidth w.field + 2) + lwfWidth w.field + 1)

/-- The lowest bit set in a number. -/
def lowestBit (n : Nat) : Nat := (List.range 2048).foldl (fun b i => if b = 0 && n.testBit i then 2 ^ i else b) 0

/-- R482. The array after a write of which the bits `got` took: a slot that the read-back does not show valid with the value is
spoiled. A write cut short (`cut`) has not come to USED.
DESIGN CHOICE, unsafe: log entry 169. -/
def lwfArray (array : Nat) (w : LwfWrite) (got : Nat) (cut : Bool) : Nat :=
  let all := array ||| (lwfBits w &&& got)
  let first := lwfFirst w &&& got
  if w.field = 7 then all
  else if cut then array ||| first
  else if lwfValid all w.field w.slot && lwfSlot all w.field w.slot % 2 ^ lwfWidth w.field == w.value then all
  else if lwfValid all w.field w.slot || lwfFree all w.field w.slot then
    array ||| (if first = 0 then lowestBit (lwfFirst w) else first)
  else all

/-- R482. The programming and the read-back end; `got` are the bits that took. -/
def Hw.lwfDone (h : Hw) (got : Nat) : Hw :=
  match h.flash.lwf with
  | none => h
  | some w =>
    if !w.recorded then h
    else
      let array := lwfArray h.flash.array w got false
      let h := { h with flash := { h.flash with array := array, lwf := none } }
      let h := (h.setF pLWF 0 LWF_STATUS_BUSY 0).lwfInfo w.field
      let h := (h.setF pLWF 0 LWF_WSTAT_FIELD w.field).setF pLWF 0 LWF_WSTAT_SLOT w.slot
      let good : Bool := if w.field = 7 then lwfFloor array == w.value
        else lwfValid array w.field w.slot && lwfSlot array w.field w.slot % 2 ^ lwfWidth w.field == w.value
      if good then ((h.setF pLWF 0 LWF_WSTAT_CAUSE 0).lwfPut w.field w.value).irqBit pLWF LWF_IRQ_WR_DONE 0
      else
        let h := (h.setF pLWF 0 LWF_WSTAT_CAUSE 6).irqBit pLWF LWF_IRQ_WR_ERR 0
        if w.field = 7 then h else h.irqBit pLWF LWF_IRQ_SPOILED 0

/-- R488. Effect of an accepted page write to LWF. -/
def Hw.lwfWrite (h : Hw) (a : Acc) (off ch : Nat) (d : Word) : Hw :=
  if off = 0x87 then h.lwfCmd a d else h.plainWrite pLWF off ch d

/-- R487. A write of APPEND. -/
def Hw.ledgerAppend (h : Hw) (a : Acc) (d : Word) : Hw :=
  if bitOf d.toNat 0 && !h.b pLEDGER 0 LEDGER_STATUS_APP_BUSY then
    let arg (n : Nat) : Word := w40 (h.f pLEDGER 0 (LEDGER_UARG_ARG n))
    (h.setF pLEDGER 0 LEDGER_STATUS_APP_BUSY 1).append (h.record 0xE (arg 0) (arg 1) (arg 2) a.asker .user)
  else h

/-- R487. Effect of an accepted page write to LEDGER. -/
def Hw.ledgerWrite (h : Hw) (a : Acc) (off : Nat) (d : Word) : Hw :=
  if off = 0x86 then h.ledgerAppend a d else h.plainWrite pLEDGER off 0 d

/-! ## Suspending -/

/-- An erase that runs and is not suspended. -/
def FlashSt.erasing (f : FlashSt) : Option EraseSt := f.erase.filter (fun e => e.phase == 1 && !e.suspended)

/-- R461. SUSPEND.
DEDUCED, unsafe: log entry 86. -/
def Hw.suspend (h : Hw) (sector : Nat) : Hw :=
  match h.flash.erasing with
  | none => h.opFail 9 3 sector
  | some e => h.setFlash { h.flash with erase := some { e with pend := some false } }

/-- R462. A read that waits on a running erase requests a suspend. -/
def Hw.autoSuspend (h : Hw) : Hw :=
  match h.flash.erasing with
  | some e =>
    if h.b pFLASH 0 FLASH_CTRL_AUTO_SUS && e.pend.isNone && h.flash.op.isNone then
      h.setFlash { h.flash with erase := some { e with pend := some true } }
    else h
  | none => h

/-- R486. The running time of an erase in µs. -/
def EraseSt.us (e : EraseSt) : Nat := e.ran / 400

/-- R486. A PWM_CLK edge of an erase that runs: RUNTIME counts. -/
def Hw.eraseEdge (h : Hw) : Hw :=
  match h.flash.erasing, h.flash.op with
  | some e, none =>
    let e := { e with ran := e.ran + 1 }
    { h with flash := { h.flash with erase := some e } }.setF pFLASH 0 FLASH_RUNTIME_US (min e.us (2 ^ 15 - 1))
  | _, _ => h

/-- R459, R486. The sector's erase starts. -/
def Hw.eraseStart (h : Hw) : Hw :=
  match h.flash.erase with
  | some e => (h.setFlash { h.flash with erase := some { e with phase := 1, ran := 0 } }).setF pFLASH 0 FLASH_RUNTIME_US 0
  | none => h

/-- R461, R463. The suspend is accepted and the erase stops; not while a reset waits. -/
def Hw.suspendAccept (h : Hw) : Hw :=
  match h.flash.erasing with
  | none => h
  | some e =>
    match e.pend with
    | none => h
    | some auto =>
      if h.rstWait then h else
      let h := h.setFlash { h.flash with erase := some { e with suspended := true, auto := auto, pend := none } }
      (if auto then h else h.opDone 3 e.sector).flashNext

/-- R461. RESUME. -/
def Hw.resumeCmd (h : Hw) (sector : Nat) : Hw :=
  match h.flash.erase.filter (fun e => e.suspended) with
  | none => h.opFail 9 4 sector
  | some e =>
    let g := h.resumeErase { e with auto := false }
    if h.flash.op.isSome then g else g.opDone 4 e.sector

/-- R462. An erase suspended automatically resumes. -/
def Hw.autoResume (h : Hw) : Hw :=
  match h.flash.erase.filter (fun e => e.suspended && e.auto) with
  | none => h
  | some e => h.resumeErase e

/-! ## Erasing -/

/-- R459. An ERASE that passed its checks waits in the scheduler. -/
def Hw.eraseAsk (h : Hw) (a : Acc) (sector : Nat) : Hw :=
  (h.setFlash { h.flash with asked := some (sector, a.asker) }).enqueue 9 7 sector

/-- R459. The records that precede an erase. -/
def Hw.eraseBegin (h : Hw) (sector : Nat) (who : Asker) : Hw :=
  let h := h.setFlash { h.flash with asked := none, erase := some { sector := sector, who := who } }
  let h := match slotOf sector with
    | some slot => if h.imgRec slot = 0 then h else h.imgRecord who slot 0 false
    | none => h
  h.append (h.record 1 (w40 sector) 0 0 who (.erase false))

/-- R459, R463. The scheduler grants the erase, while the flash is idle and no reset waits. -/
def Hw.eraseGrant (h : Hw) : Hw :=
  match h.flash.asked with
  | none => h
  | some (sector, who) =>
    if h.grantable 9 ⟨7, sector⟩ (fun _ => true) && h.flash.op.isNone && h.flash.erase.isNone &&
        !h.b pRST 0 RST_STATUS_PENDING then
      (h.grant 9 ⟨7, sector⟩).eraseBegin sector who
    else h

/-- R459. The erase of a sector has ended its running: the last record follows. -/
def Hw.eraseRan (h : Hw) (e : EraseSt) (ok : Bool) (us : Nat) : Hw :=
  let us := min us (2 ^ 15 - 1)
  let h := h.setF pFLASH 0 FLASH_RUNTIME_US us
  let h := h.setFlash { h.flash with erase := some { e with phase := 2, failed := !ok, pend := none } }
  h.append (h.record 2 (w40 e.sector) (w40 (b2n !ok)) (w40 us) e.who (.erase true))

/-- R459. The ERASE_END record is written: the sector's STATE, and the end of the operation. -/
def Hw.eraseEnd (h : Hw) (e : EraseSt) : Hw :=
  let h := h.setFlash { h.flash with erase := none }
  let h := h.setSector e.sector (if e.failed then 2 else 0)
  let h := if e.failed then h.opFail 11 2 e.sector else h.opDone 2 e.sector
  if h.running 9 = some ⟨7, e.sector⟩ then h.finish 9 else h

end Sys2Proof.Machine
end

