-- ==== Sys2Proof/Config.lean ====
section
/-! DEFINITION. What an implementation fixes and the spec leaves open: free values, constants without a body. Nothing can be
proved of what they hold, so a statement that holds, holds for every value. -/

namespace Sys2Proof

/-- A free value: the spec states no value where it is used. Its argument is the state's counter of free values.
DESIGN CHOICE, safe: log entry 10. -/
opaque Config.freeWord : Nat → Word

/-- SHA-256 of a byte string, as a number of 256 bits (R615, R638). -/
opaque Config.sha256 : List Nat → Nat

/-- ECDSA over P-256 with SHA-256 (R615): public key, signature and message digest as numbers. -/
opaque Config.ecdsaOk : List Nat → List Nat → Nat → Bool

/-- R613. The words of the boot ROM. -/
opaque Config.bootRom : Nat → Word

/-- R510. The 64-bit device identifier fixed at manufacture. -/
opaque Config.uid : BitVec 64

/-- R338, R348. How many store-buffer entries the copy of a core fills at a time of the model; the cycle in which each of its
writes drains is not modelled.
DESIGN CHOICE, safe: log entry 148. -/
opaque Config.copyEntries : Nat → Nat → Nat

/-- R76. Where in its period the generated clock of group SDMk stands when the model's time is 0, in periods of 4.8 GHz. -/
opaque Config.sdmPhase : Nat → Nat

/-- R397. What an input without hysteresis reads, by pin and time, while its pad lies where the two thresholds of an input with
hysteresis would be. -/
opaque Config.padBand : Nat → Nat → Bool

/-- R558. The feedback register of Fray: its next value, and whether a value makes an action act with probability 2^−K. -/
opaque Config.frayNext : Nat → Nat
opaque Config.frayHit : Nat → Nat → Bool

end Sys2Proof
end

