-- ==== Sys2Proof/Machine/Mem.lean ====
section
/-! DEFINITION. The address space: where a word address leads, and the words of memory (R20 to R26). Every word of memory
is held under its global address. -/

namespace Sys2Proof.Machine

open Sys2Proof

/-- What an address reaches. -/
inductive Place
  | unmapped
  | page (p : Page) (off : Nat)
  | word (g : Nat)
deriving DecidableEq, Repr

/-- Base of cluster `n`'s global window. -/
def winBase (n : Nat) : Nat := 0x01000000 + n * 0x00200000

/-- R21. An offset in a global cluster window. -/
def windowPlace (n off : Nat) : Place :=
  if off < 0x080000 then (if off % 0x10000 < 0x8000 then .word (winBase n + off) else .unmapped)
  else if 0x100000 ≤ off ∧ off < 0x140000 then .word (winBase n + off)
  else if 0x180000 ≤ off ∧ off < 0x190000 then .page ⟨n, off % 0x10000 / 0x100⟩ (off % 0x100)
  else if 0x1C0000 ≤ off ∧ off < 0x1C4000 then .word (winBase n + off)
  else .unmapped

/-- R20. The global and device ranges. -/
def globalPlace (a : Nat) : Place :=
  if 0x01000000 ≤ a ∧ a < 0x02000000 then windowPlace ((a - 0x01000000) / 0x200000) ((a - 0x01000000) % 0x200000)
  else if 0x04000000 ≤ a ∧ a < 0x04200000 then .word a
  else if 0x04800000 ≤ a ∧ a < 0x04900000 then .page ⟨devCl, (a - 0x04800000) / 0x100⟩ (a % 0x100)
  else if 0x08000000 ≤ a ∧ a < 0x08800000 then .word a
  else if 0x10000000 ≤ a ∧ a < 0x30000000 then .word a
  else .unmapped

/-- R20, R22. An own-cluster range of a requester in cluster `n`; the TCM ranges belong to core `k` (`none`: no core). -/
def ownPlace (n : Nat) (k : Option Nat) (a : Nat) : Option Place :=
  if a < 0x8000 ∨ (0x10000 ≤ a ∧ a < 0x18000) then
    match k with
    | some k => some (.word (winBase n + k * 0x20000 + a))
    | none => none
  else if 0x100000 ≤ a ∧ a < 0x140000 then some (.word (winBase n + a))
  else if 0x200000 ≤ a ∧ a < 0x210000 then some (.page ⟨n, a % 0x10000 / 0x100⟩ (a % 0x100))
  else if 0x280000 ≤ a ∧ a < 0x284000 then some (.word (winBase n + 0x1C0000 + (a - 0x280000)))
  else none

/-- The cluster a requester belongs to, and its core there. -/
def Requester.home (r : Requester) : Option (Nat × Option Nat) :=
  match r with
  | .core i => some (i.val / 4, some (i.val % 4))
  | .cmangle n _ => some (n.val, none)
  | _ => none

/-- R20 to R24. Where address `a` leads for a requester. A page index without a row is unmapped (R50, R51). -/
def placeOf (r : Requester) (a : Nat) : Place :=
  let x : Place := match r.home with
    | some (n, k) => (ownPlace n k a).getD (globalPlace a)
    | none => globalPlace a
  match x with
  | .page p off => if (pageInfo p).isSome then .page p off else .unmapped
  | x => x

/-- Kinds of memory. -/
inductive MemKind
  | itcm | dtcm | csram | loopMem | dsram | flash | dram
deriving DecidableEq, Repr

/-- The kind of memory at a global word address, and its cluster where it has one. -/
def memKind (g : Nat) : MemKind :=
  if g < 0x02000000 then
    let off := (g - 0x01000000) % 0x200000
    if off < 0x80000 then (if off % 0x20000 < 0x10000 then .itcm else .dtcm)
    else if off < 0x180000 then .csram else .loopMem
  else if g < 0x08000000 then .dsram
  else if g < 0x10000000 then .flash
  else .dram

/-- R637. The memory BIST target that holds a global address. -/
def bistTarget (g : Nat) : Option Nat :=
  let n := (g - 0x01000000) / 0x200000
  match memKind g with
  | .itcm => some (8 + 3 * n)
  | .dtcm => some (8 + 3 * n)
  | .csram => some (9 + 3 * n)
  | .loopMem => some (10 + 3 * n)
  | .dsram => some (32 + (g - 0x04000000) / 0x40000)
  | _ => none

/-- R25, R423, R629. The memory at a global address answers as unmapped: its clock domain is stopped, its BIST target is
marked idle, or the DRAM is not ready. -/
def Hw.memStopped (h : Hw) (g : Nat) : Bool :=
  (memKind g == .dram && !h.b pDRAM 0 DRAM_STATUS_READY) ||
  (if g < 0x02000000 then !h.clusterRuns ((g - 0x01000000) / 0x200000) else !h.domainRuns 32) ||
    (match bistTarget g with
     | some t => h.b pBIST t BIST_TCFG_IDLE
     | none => false)

/-- What a word of memory that nothing has written reads as: an erased flash word (R456) is all ones, any other word 0.
DESIGN CHOICE, unsafe: log entry 3. -/
def memDefault (g : Nat) : Word := if 0x08000000 ≤ g ∧ g < 0x08800000 then -1 else 0

/-- The word at a global address. -/
def State.rd (s : State) (g : Nat) : Word := Sparse.get memDefault s.mem g

/-- The machine with the word at a global address set. -/
def State.wr (s : State) (g : Nat) (v : Word) : State := { s with mem := Sparse.put id memDefault s.mem g v }

/-- The machine with its hardware changed. -/
def State.on (s : State) (g : Hw → Hw) : State := { s with hw := g s.hw }

/-- Loop Engine data memory word `a` of cluster `c`, by global address. -/
def loopAddr (c a : Nat) : Nat := winBase c + 0x1C0000 + a % 16384

/-- Whether a global address lies in a Loop Engine's data memory. -/
def inLoopMem (g : Nat) : Bool := (List.range 8).any (fun c => decide (loopAddr c 0 ≤ g) && decide (g < loopAddr c 0 + 16384))

/-- A word stored by software; one of Loop Engine data memory is noted until the next edge (R42, R228). -/
def State.softWr (s : State) (g : Nat) (v : Word) : State :=
  (s.wr g v).on (fun h => if inLoopMem g then { h with swMem := g :: h.swMem } else h)

/-- R228, R42. A word of data memory that a commit writes: the value software has stored since the last edge stands. -/
def State.commitWr (s : State) (g : Nat) (v : Word) : State := if s.hw.swMem.contains g then s else s.wr g v

/-- A list of words written from `g` on. -/
def State.wrList (s : State) (g : Nat) (vs : List Word) : State :=
  match vs with
  | [] => s
  | v :: rest => (s.wr g v).wrList (g + 1) rest

/-- A run of words read. -/
def State.rdList (s : State) (g n : Nat) : List Word := (List.range n).map (fun i => s.rd (g + i))

/-- Memory stands in its canonical form. -/
abbrev Memory.wf (m : Sparse Nat Word) : Bool := Sparse.wf id memDefault m

/-- The tag byte of a DRAM word (R5). -/
def State.tag (s : State) (g : Nat) : BitVec 8 := Sparse.get (fun _ => 0) s.tags g

/-- The machine with the tag byte of a DRAM word set. -/
def State.setTag (s : State) (g : Nat) (v : BitVec 8) : State :=
  { s with tags := Sparse.put id (fun _ => 0) s.tags g v }

/-- A write to a page by a requester, made directly, whose effect reaches memory. -/
def State.direct (s : State) (r : Requester) (p : Page) (off : Nat) (eff : State → State) : State :=
  let x := s.hw.controlled (s.hw.acc r) p off id
  let s' : State := { s with hw := x.1.report r p off x.2 }
  if x.2 = .ok then eff s' else s'

/-- The machine with the words of [lo, lo + n) as nothing has written them. -/
def State.forget (s : State) (lo n : Nat) : State :=
  { s with mem := s.mem.filter (fun e => !(lo ≤ e.1 && e.1 < lo + n)) }

/-- Words and tags stand in their canonical forms. -/
abbrev State.memWf (s : State) : Prop := Memory.wf s.mem = true ∧ Sparse.wf id (fun _ => (0 : BitVec 8)) s.tags = true

end Sys2Proof.Machine
end

