-- ==== Sys2Proof/Machine/Ball.lean ====
section
/-! DEFINITION. The balls of the pins: what the sources of clusters and device present to them, their drive, their pads and
the levels that their inputs read (R394 to R404, R408, R409, R411 to R413, R120's and R76's clocks, R240, R261). -/

namespace Sys2Proof.Machine

open Sys2Proof

/-! ## What waits for a PWM_CLK edge -/

/-- The cluster whose PWM_CLK brings it; 8: DTIME's clock (R517, R519). -/
def EdgeDue.cluster : EdgeDue → Nat
  | .sync c _ | .snap c _ | .trip c _ _ | .lmode c _ _ | .ocfg c _ _ | .scorch c _ _ _ | .landing c _ _ _ _ | .landed c _ _ => c
  | .timeSet _ | .timeShift _ => 8

/-- `e` waits for the `n`-th edge from now; what waits already is not doubled. -/
def Hw.dueIn (h : Hw) (n : Nat) (e : EdgeDue) : Hw :=
  if h.due.any (fun x => x.2 == e) then h else { h with due := h.due ++ [(h.now + n, e)] }

/-- The first thing that waits and that `q` answers. -/
def Hw.dueFind (h : Hw) (q : EdgeDue → Option α) : Option α := h.due.findSome? (fun e => q e.2)

/-! ## PWM outputs -/

/-- Timebase `t` and PWM channel `k` (CHSEL value) of cluster `c`, read and replaced. -/
def Hw.tb (h : Hw) (c t : Nat) : PwmTb := h.pwmTb.at {} (4 * c + t)
def Hw.setTb (h : Hw) (c t : Nat) (v : PwmTb) : Hw := { h with pwmTb := h.pwmTb.set {} (4 * c + t) v }
def Hw.pch (h : Hw) (c k : Nat) : PwmCh := h.pwmCh.at {} (12 * c + k)
def Hw.setPch (h : Hw) (c k : Nat) (v : PwmCh) : Hw := { h with pwmCh := h.pwmCh.set {} (12 * c + k) v }

/-- R261, R371, R387, R617, R618, R628. The PWM outputs of cluster `c` are under a forced safe state. -/
def Hw.clusterSafe (h : Hw) (c : Nat) : Bool :=
  h.f pDEV 0 DEV_STATUS_SAFE_SRC != 0 || h.b pDEV 0 DEV_STATUS_RECOVERY || h.f (pDIC c) 0 DIC_STATUS_LOCKED != 0 ||
    h.b (pCWDT c) 0 WDT_STATUS_EXPIRED || h.b (pCLU c) 0 CLU_CTRL_SAFE

/-- R231. The timebase runs: its clock runs and EN is 1. -/
def Hw.tbRuns (h : Hw) (c t : Nat) : Bool := h.clusterRuns c && h.b (pPWMTB c) t PWM_TB_TBCFG_EN

/-- R240, R258, R412. The outputs of the timebase are held at their safe state. -/
def Hw.tbSafe (h : Hw) (c t : Nat) : Bool :=
  !h.b (pPWMTB c) t PWM_TB_TBCFG_EN || (h.tb c t).held || h.clusterSafe c || !h.clusterRuns c

/-- R240. OCFG of a channel as in force: a write acts from the next edge on. -/
def Hw.ocfg (h : Hw) (c k : Nat) : Word :=
  (h.dueFind (fun e => match e with | .ocfg c' k' w => if c' = c ∧ k' = k then some w else none | _ => none)).getD
    (h.reg (pPWMCH c) 0x18 k)

/-- A field of OCFG in force. -/
def Hw.ocfgF (h : Hw) (c k : Nat) (fl : Fld) : Nat := bitsOf (h.ocfg c k).toNat fl.lo fl.w

/-- OCFG enables H, or L. -/
def Hw.outEn (h : Hw) (c k : Nat) (low : Bool) : Bool :=
  h.ocfgF c k (if low then PWM_CH_OCFG_L_EN else PWM_CH_OCFG_H_EN) != 0

/-- R240. The level at the ball of an output: `none` is high-Z. -/
def Hw.outBall (h : Hw) (c k : Nat) (low : Bool) : Option Bool :=
  let pol : Bool := h.ocfgF c k (if low then PWM_CH_OCFG_L_POL else PWM_CH_OCFG_H_POL) != 0
  let safe := h.ocfgF c k (if low then PWM_CH_OCFG_L_SAFE else PWM_CH_OCFG_H_SAFE)
  let on := if low then (h.pch c k).lo.on else (h.pch c k).hi.on
  if h.tbSafe c (k / 3) || !h.outEn c k low then (if safe = 0 then some false else if safe = 1 then some true else none)
  else some (on != pol)

/-! ## Tracker clocks -/

/-- Tracker `t` of cluster `c`. -/
def Hw.trkSt (h : Hw) (c t : Nat) : TrkSt := h.trk.at {} (4 * c + t)

/-- Tracker `t` replaced. -/
def Hw.setTrk (h : Hw) (c t : Nat) (v : TrkSt) : Hw := { h with trk := h.trk.set {} (4 * c + t) v }

/-- R107. The mode in effect: 7 behaves as 0, and EN = 0 as off. -/
def Hw.trkMode (h : Hw) (c t : Nat) : Nat :=
  let m := h.f (pTRK c) t TRK_TCFG_MODE
  if h.clusterRuns c && h.b (pTRK c) t TRK_TCFG_EN && m < 7 then m else 0

/-- R120. The number of data bits in effect. -/
def Hw.nbits (h : Hw) (c t : Nat) : Nat :=
  let n := h.f (pTRK c) t TRK_SCFG_NBITS
  if n = 0 || n > 40 then 25 else n

/-- R120. Half the clock period, in cycles. -/
def Hw.ssiHalf (h : Hw) (c t : Nat) : Nat := max 19 (h.f (pTRK c) t TRK_SCFG_SDIV) + 1

/-- R120. The edge that drives the first rising clock edge of the frame: half a period after the latching edge. -/
def Hw.ssiRise (h : Hw) (c t : Nat) : Nat := (h.trkSt c t).start + 1 + h.ssiHalf c t

/-- R120. The SSI clock: high but for the low halves of a frame's periods. -/
def Hw.ssiClock (h : Hw) (c t : Nat) : Bool :=
  let st := h.trkSt c t
  let nb := h.nbits c t + b2n (h.b (pTRK c) t TRK_SCFG_START)
  let n := (h.now - (st.start + 1)) / h.ssiHalf c t
  !(st.ssi == 1 && decide (st.start < h.now) && n % 2 == 0 && decide (n < 2 * nb))

/-! ## Modulator clocks -/

/-- R82. The modulator clock group of cluster `c`: SDMCLK of the even cluster.
DESIGN CHOICE, safe: log entry 29. -/
def sdmSrc (h : Hw) (c : Nat) : Nat :=
  let s := h.f (pSDF (c / 2 * 2)) 0 SDF_SDMCLK_SRC
  if s = 3 then 0 else s

/-- R76, R102. The divider of group `k` in effect. -/
def Hw.sdmDiv (h : Hw) (k : Nat) : Nat :=
  let d := h.f (pSDF (2 * k)) 0 SDF_SDMCLK_DIV
  if d < 192 || d > 4800 then 240 else d

/-- R76. The generated clock of group `k`: 12 periods of 4.8 GHz in a PWM_CLK period; low while its clock is stopped. -/
def Hw.sdmLevel (h : Hw) (k : Nat) : Bool :=
  h.domainRuns (50 + k) && decide ((12 * h.now + Config.sdmPhase k) % h.sdmDiv k * 2 < h.sdmDiv k)

/-! ## Sources and drive -/

/-- R394. The bank of a pin. -/
def bankOf (pin : Nat) : Nat := pin / 36

/-- R395. The bank's supply is valid. -/
def Hw.bankOk (h : Hw) (pin : Nat) : Bool := h.b pPIN 0 (PIN_BANK_VOK (bankOf pin))

/-- What the outside puts on the pad. -/
def Hw.pad (h : Hw) (pin : Nat) : PadV := h.pads.at .released pin

/-- R412. A source of cluster `n` other than a PWM output can drive. -/
def Hw.srcLive (h : Hw) (n : Nat) : Bool := h.clusterRuns n && !h.clusterSafe n

/-- R402, R412. What an output source presents: `none` while it does not drive. -/
def Hw.outSource (h : Hw) (pin code : Nat) : Option Bool :=
  let loc := code / 256
  let i := code % 256
  if code = 0 then none
  else if loc < 8 then
    if 0x20 ≤ i ∧ i < 0x38 then h.outBall loc ((i - 0x20) / 2) ((i - 0x20) % 2 == 1)
    else if 0x40 ≤ i ∧ i < 0x80 then
      if h.srcLive loc then some (bitOf (h.core (4 * loc + (i - 0x40) / 16)).gio (i % 16)) else none
    else if 0x80 ≤ i ∧ i < 0x84 then
      (if h.srcLive loc && h.trkMode loc (i - 0x80) == 6 then some (h.ssiClock loc (i - 0x80)) else none)
    else none
  else if i = 0x01 then some (bitOf (h.f pPIN 0 (PIN_DOUT_LEVEL (bankOf pin))) (pin % 36))
  else if 0x10 ≤ i ∧ i < 0x14 then
    let p := pSDF (2 * (i - 0x10))
    if h.f p 0 SDF_SDMCLK_SRC = 1 && h.b p 0 SDF_SDMCLK_OUT_EN then some (h.sdmLevel (i - 0x10)) else none
  else none

/-- R404. The OR of a pin's output sources. -/
def Hw.pinDrive (h : Hw) (pin : Nat) : Option Bool :=
  let a := h.outSource pin (h.f pPIN pin PIN_PFUNC_OSEL0)
  let b := h.outSource pin (h.f pPIN pin PIN_PFUNC_OSEL1)
  let v : Option Bool := match a, b with
    | some x, some y => some (x || y)
    | some x, none => some x
    | none, y => y
  if h.b pPIN pin PIN_PCFG_OD && v == some true then none else v

/-- R618. A device-wide forced safe state holds. -/
def Hw.deviceSafe (h : Hw) : Bool := h.f pDEV 0 DEV_STATUS_SAFE_SRC != 0 || h.deep

/-- R411. The pin is in its safe state. -/
def Hw.pinSafe (h : Hw) (pin : Nat) : Bool := h.deviceSafe && h.bankOk pin && !h.b pPIN pin PIN_PCFG_ANA

/-- R408. The level that the keeper holds, from the write that switches the pin until the edge after the first that follows
it. -/
def Hw.kept (h : Hw) (pin : Nat) : Option (Option Bool) :=
  match h.pinSw.at none pin with
  | some x => if h.now ≤ x.at' + 1 then some x.ball else none
  | none => none

/-- R409. The pin's input function is not armed yet: its first acting edge is the fourth after the write. -/
def Hw.unarmed (h : Hw) (pin : Nat) : Bool :=
  match h.pinSw.at none pin with
  | some x => x.input && decide (h.now < x.at' + 4)
  | none => false

/-- R408, R418. KEEP: the keeper cycle runs, from the first edge after the write to the next. -/
def Hw.keeping (h : Hw) (pin : Nat) : Bool :=
  match h.pinSw.at none pin with
  | some x => h.now == x.at' + 1
  | none => false

/-- R409, R418. DISARM: the second and third edge after the write. -/
def Hw.disarmed (h : Hw) (pin : Nat) : Bool :=
  match h.pinSw.at none pin with
  | some x => x.input && (h.now == x.at' + 2 || h.now == x.at' + 3)
  | none => false

/-- R413, R408, R603, R658. The state of the ball: a driven level, or `none`. While RESET_N is low the TAP may drive it. -/
def Hw.pinBall (h : Hw) (pin : Nat) : Option Bool :=
  if h.porstLow then none
  else if h.bankOk pin && h.resetLow && (h.tap == .extest || h.tap == .clamp) then h.scan.at none pin
  else if !h.bankOk pin || (h.resetLow && h.tap == .highz) then none
  else
    let ana := h.b pPIN pin PIN_PCFG_ANA
    match (if ana || !h.deviceSafe then h.kept pin else none) with
    | some v => v
    | none =>
      if ana then none
      else if h.deviceSafe then
        match h.f pPIN pin PIN_PCFG_SAFE with
        | 0 => some false
        | 1 => some true
        | 2 => none
        | _ => h.holds.at none pin
      else h.pinDrive pin

/-! ## Inputs -/

/-- R396, R397, R399, R400, R412. The level of the pad: its own ball's, what the outside drives, or what its pull gives an
undriven pad. Inside the hysteresis band an input with HYST = 1 keeps its value and one with HYST = 0 may read either; a pad
that nothing drives or pulls keeps its level.
DESIGN CHOICE, unsafe: log entry 74. -/
def Hw.padLevel (h : Hw) (pin : Nat) : Bool :=
  match h.pinBall pin, h.pad pin with
  | some v, _ => v
  | none, .low => false
  | none, .high => true
  | none, .band => if h.b pPIN pin PIN_PCFG_HYST then h.padLast.at false pin else Config.padBand pin h.now
  | none, .released =>
    match h.f pPIN pin PIN_PCFG_PULL with
    | 1 => true
    | 2 => false
    | _ => h.padLast.at false pin

/-- R395, R398, R400, R401. The synchronised input level of a pin. A pin that reads 0 with UNRESOLVED does so because its
latch was preset to 0. -/
def Hw.pinIn (h : Hw) (pin : Nat) : Bool := h.bankOk pin && !h.b pPIN pin PIN_PCFG_ANA && h.padLevel pin

/-- R401. The input latch takes the pin's level; a level of 1 resolves the pin. -/
def Hw.latchPin (h : Hw) (pin : Nat) : Hw :=
  let v := h.pinIn pin
  let h := { h with padLast := h.padLast.set false pin v }
  if v then h.setF pPIN pin PIN_PSTAT_UNRESOLVED 0 else h

/-- R401. A pin starts as at power-up: its latch at 0, and UNRESOLVED while its pad lies inside the hysteresis band. -/
def Hw.startPin (h : Hw) (pin : Nat) : Hw :=
  let h := { h with padLast := h.padLast.set false pin false }
  (h.setB pPIN pin PIN_PSTAT_UNRESOLVED
    (h.pad pin == .band && h.b pPIN pin PIN_PCFG_HYST && !h.b pPIN pin PIN_PCFG_ANA)).latchPin pin

/-- Pins whose registers differ from reset at channel-window offset `off`. -/
def Hw.pinsListed (h : Hw) (off : Nat) : List Nat :=
  (h.regs.filter (fun e => e.1.cl == devCl && e.1.idx == 0x040 && e.1.off == off)).map (fun e => e.1.ch)

/-- R405. The pins whose ISEL names an input function. -/
def Hw.pinsFeeding (h : Hw) (isel : Nat) : List Nat :=
  if isel = 0 then [] else (h.pinsListed 0x11).filter (fun pin => h.f pPIN pin PIN_PFUNC_ISEL == isel)

/-- The outside drives the pins that feed input function `isel`. -/
def Hw.drivePads (h : Hw) (isel : Nat) (v : Bool) : Hw :=
  (h.pinsFeeding isel).foldl (fun h pin =>
    { h with pads := h.pads.set .released pin (if v then .high else .low) }.latchPin pin) h

/-- R403. What input function `isel` reads; 0 where no pin feeds it. -/
def Hw.funcIn (h : Hw) (isel : Nat) : Bool := (h.pinsFeeding isel).any (fun pin => h.pinIn pin)

/-- R409. Input function `isel` has been switched and is not armed yet. -/
def Hw.funcUnarmed (h : Hw) (isel : Nat) : Bool := (h.pinsFeeding isel).any (fun pin => h.unarmed pin)

/-- R395, R398, R403. A pin whose input works feeds input function `isel`. -/
def Hw.funcFed (h : Hw) (isel : Nat) : Bool :=
  (h.pinsFeeding isel).any (fun pin => h.bankOk pin && !h.b pPIN pin PIN_PCFG_ANA)

end Sys2Proof.Machine
end

