-- ==== Sys2Proof/Machine/Adc.lean ====
section
/-! DEFINITION. SAR converters: sequence entries, triggers, pairs and chains, conversion timing, rotation, calibration and
DAC read-back (R54 to R75, R94 to R101, R664). -/

namespace Sys2Proof.Machine

open Sys2Proof

/-- The converters of cluster `c`. -/
def Hw.adcSt (h : Hw) (c : Nat) : AdcSt := h.adc.at {} c

/-- The converters of cluster `c` replaced. -/
def Hw.setAdc (h : Hw) (c : Nat) (v : AdcSt) : Hw := { h with adc := h.adc.set {} c v }

/-- Logical converter `j` (0 ADC_A, 1 ADC_B). -/
def Hw.conv (h : Hw) (c j : Nat) : LogConv := if j = 0 then (h.adcSt c).convA else (h.adcSt c).convB

/-- Logical converter `j` replaced, PEND and PEND_E with it. -/
def Hw.setConv (h : Hw) (c j : Nat) (v : LogConv) : Hw :=
  let a := h.adcSt c
  let h := h.setAdc c (if j = 0 then { a with convA := v } else { a with convB := v })
  let h := h.setB (pADC c j) 0 ADC_STATUS_PEND v.pend.isSome
  h.setF (pADC c j) 0 ADC_STATUS_PEND_E (v.pend.getD 0)

/-! ## Codes and scaling -/

/-- R57. The ideal 16-bit code of an input voltage, with the unit's error, limited to 0 to 65,535. -/
def Analog.code (x : Analog) : Nat :=
  let ideal := if x.span ≤ 0 then 0 else min 65535 (max 0 (65536 * (x.vin - x.refn) / x.span))
  (min 65535 (max 0 (ideal + x.err))).toNat

/-- R56. The voltage a unit's mux selects: the pin or the temperature sensor as given, a threshold DAC at code `dac`, a
reference or the mid-scale check. In units of 1/2048 of the given one. -/
def muxVolts (dac mux : Nat) (x : Analog) : Analog :=
  let y : Analog := ⟨x.vin * 2048, x.refn * 2048, x.span * 2048, x.err⟩
  if 8 ≤ mux && mux < 16 then { y with vin := y.refn + (2 * (dac : Int) + 1) * x.span }
  else if mux = 17 then { y with vin := y.refn + y.span }
  else if mux = 18 then { y with vin := y.refn }
  else if mux = 19 then { y with vin := y.refn + 1024 * x.span }
  else y

/-- The code of the threshold DAC that a mux code selects.
DEDUCED, unsafe: log entry 22. -/
def Hw.muxDac (h : Hw) (c mux : Nat) : Nat := h.f (pCMP c) (mux - 8) CMP_THRESH_DAC

/-- R56. The voltage a mux selects, with the threshold DACs as they stand. -/
def muxInput (h : Hw) (c mux : Nat) (x : Analog) : Analog := muxVolts (h.muxDac c mux) mux x

/-- R57. A code at a resolution (0: 16 bits, 1: 14, 2: 12). -/
def codeAt (res code : Nat) : Nat := code / 2 ^ (2 * res) * 2 ^ (2 * res)

/-- R58. The largest code of a resolution. -/
def maxCode (res : Nat) : Nat := codeAt res 65535

/-- R59. F + floor(c × G / 2^15 + 1/2), before the limits. -/
def adcScale (cfg : ConvCfg) (code : Nat) : Int :=
  let c : Int := if cfg.signed then (code : Int) - 32768 else code
  cfg.offset + (c * cfg.gain + 16384) / 32768

/-! ## Configuration of an entry -/

/-- R64. PAIR is ignored when entry e + 1 names the same converter, or e is 15. -/
def Hw.pairBad (h : Hw) (c e : Nat) : Bool :=
  h.b (pADCSEQ c) e ADC_SEQ_ECFG_PAIR &&
    (e == 15 || h.f (pADCSEQ c) (e + 1) ADC_SEQ_ECFG_CONV == h.f (pADCSEQ c) e ADC_SEQ_ECFG_CONV)

/-- R67. A reserved mux code or resolution. -/
def Hw.inputBad (h : Hw) (c e : Nat) : Bool :=
  h.f (pADCSEQ c) e ADC_SEQ_ECFG_MUX ≥ 20 || h.f (pADCSEQ c) e ADC_SEQ_ECFG_RES == 3

/-- R64, R67. CFG_ERR of entry e follows its configuration. -/
def Hw.entryCheck (h : Hw) (c e : Nat) : Hw :=
  h.setB (pADCSEQ c) e ADC_SEQ_ESTAT_CFG_ERR (h.pairBad c e || h.inputBad c e)

/-- R61. Entry e takes triggers: its EN, its converter's and the page's CTRL.EN are 1. -/
def Hw.entryOn (h : Hw) (c e : Nat) : Bool :=
  h.b (pADCSEQ c) e ADC_SEQ_ECFG_EN && h.b (pADC c (h.f (pADCSEQ c) e ADC_SEQ_ECFG_CONV)) 0 ADC_CTRL_EN &&
    h.b (pADCSEQ c) 0 ADC_SEQ_CTRL_EN

/-- R63, R64. Starting entry e starts entry e + 1 with it. -/
def Hw.pairOn (h : Hw) (c e : Nat) : Bool :=
  h.b (pADCSEQ c) e ADC_SEQ_ECFG_PAIR && !h.pairBad c e && h.entryOn c (e + 1)

/-! ## Starts (R60 to R63) -/

/-- R60. The converter can accept an acquisition: neither acquiring, converting nor recovering. -/
def Hw.canAccept (h : Hw) (c j : Nat) : Bool := h.f (pADC c j) 0 ADC_STATUS_PHASE == 0

/-- The unit that serves converter `j`. -/
def Hw.unitOf (h : Hw) (c j : Nat) : Nat :=
  if j = 0 then h.f (pADCS c) 0 ADC_S_STATUS_UNIT_A else h.f (pADCS c) 0 ADC_S_STATUS_UNIT_B

/-- R664. The settings entry e gives a conversion accepted now. -/
def Hw.takeCfg (h : Hw) (c j e : Nat) : ConvCfg :=
  let p := pADCSEQ c
  let bad := h.inputBad c e
  ⟨e, if bad then 18 else h.f p e ADC_SEQ_ECFG_MUX, if bad then 0 else h.f p e ADC_SEQ_ECFG_RES, h.b p e ADC_SEQ_ECFG_SIGNED,
    h.fs p e ADC_SEQ_GAIN_VALUE, h.fs p e ADC_SEQ_OFFSET_VALUE, h.unitOf c j⟩

/-- R60. Converter `j` accepts entry e: acquisition begins. -/
def Hw.acquire (h : Hw) (c j e : Nat) : Hw :=
  let h := h.setConv c j { h.conv c j with cfg := h.takeCfg c j e }
  let h := h.setF (pADC c j) 0 ADC_STATUS_PHASE 1
  h.setF (pADCSEQ c) 0 ⟨3, e, 1⟩ 1

/-- Entry e becomes the pending start of converter `j`. -/
def Hw.pendStart (h : Hw) (c j e : Nat) (pair : Bool) : Hw :=
  h.setConv c j { h.conv c j with pend := some e, pendPair := pair }

/-- Converter `j` has no pending start. -/
def Hw.freeSlot (h : Hw) (c j : Nat) : Hw := h.setConv c j { h.conv c j with pend := none, pendPair := false }

/-- R664. The converter that an entry names now. -/
def Hw.convOf (h : Hw) (c e : Nat) : Nat := h.f (pADCSEQ c) e ADC_SEQ_ECFG_CONV

/-- R62, R664. The start pending in slot `j` begins on converter `x`, when its entry names that converter and it can accept. -/
def Hw.startSlot (h : Hw) (c j x : Nat) : Hw :=
  match (h.conv c j).pend with
  | some e => if h.convOf c e = x ∧ h.canAccept c x then (h.freeSlot c j).acquire c x e else h
  | none => h

/-- R62, R63, R664. The pending starts that can begin at this edge begin, each on the converter that its entry names now; a
converter serves its own slot first. The entries of a pair that now name one converter keep the converters they wait for.
DESIGN CHOICE, unsafe: log entry 23. -/
def Hw.startPending (h : Hw) (c : Nat) : Hw :=
  let a := h.conv c 0
  let b := h.conv c 1
  if a.pendPair || b.pendPair then
    match a.pend, b.pend with
    | some ea, some eb =>
      if h.canAccept c 0 && h.canAccept c 1 then
        let h := (h.freeSlot c 0).freeSlot c 1
        if h.convOf c ea = 1 ∧ h.convOf c eb = 0 then (h.acquire c 1 ea).acquire c 0 eb else (h.acquire c 0 ea).acquire c 1 eb
      else h
    | _, _ => h
  else (((h.startSlot c 0 0).startSlot c 1 1).startSlot c 0 1).startSlot c 1 0

/-- R62, R63. One start sampled at an edge begins, becomes pending, or is dropped with OVR. Whether the start is that of a
pair is settled here.
DESIGN CHOICE, unsafe: log entry 154. -/
def Hw.sampleStart (h : Hw) (c e : Nat) : Hw :=
  let j := h.f (pADCSEQ c) e ADC_SEQ_ECFG_CONV
  let o := 1 - j
  let drop := h.irqBit (pADCSEQ c) ADC_SEQ_IRQ_OVR e
  if !h.entryOn c e then h
  else if h.b (pADC c j) 0 ADC_STATUS_STARTUP then drop
  else if h.pairOn c e then
    if (h.conv c 0).pend.isSome || (h.conv c 1).pend.isSome then drop
    else if h.canAccept c 0 && h.canAccept c 1 then (h.acquire c j e).acquire c o (e + 1)
    else (h.pendStart c j e true).pendStart c o (e + 1) true
  else if (h.conv c j).pend.isSome then drop
  else if h.canAccept c j then h.acquire c j e
  else h.pendStart c j e false

/-- R74. PHASE codes of the spare. -/
abbrev phCAL : Nat := 0
abbrev phREADY : Nat := 1
abbrev phRB : Nat := 2
abbrev phHANDOVER : Nat := 3
abbrev phNONE : Nat := 4
abbrev phSTARTUP : Nat := 5

/-- The spare's state. -/
def Hw.phase (h : Hw) (c : Nat) : Nat := h.f (pADCS c) 0 ADC_S_STATUS_PHASE

/-- The spare's state replaced; NO_SPARE reads 1 in NONE. -/
def Hw.setPhase (h : Hw) (c ph : Nat) : Hw :=
  (h.setF (pADCS c) 0 ADC_S_STATUS_PHASE ph).setB (pADCS c) 0 ADC_S_STATUS_NO_SPARE (ph == phNONE)

/-- The roles replaced, with the copies in ADC_A and ADC_B. -/
def Hw.setRoles (h : Hw) (c ua ub us : Nat) : Hw :=
  let p := pADCS c
  let h := ((h.setF p 0 ADC_S_STATUS_UNIT_A ua).setF p 0 ADC_S_STATUS_UNIT_B ub).setF p 0 ADC_S_STATUS_UNIT_S us
  (h.setF (pADC c 0) 0 ADC_STATUS_UNIT ua).setF (pADC c 1) 0 ADC_STATUS_UNIT ub

/-- R73, R74. The first edge at which the outgoing unit is free: the roles swap and the released unit queues for
calibration. -/
def Hw.handover (h : Hw) (c : Nat) : Hw :=
  let p := pADCS c
  let out := h.f p 0 ADC_S_STATUS_NEXT_OUT
  if h.clusterRuns c && h.phase c == phHANDOVER && h.canAccept c out then
    let ua := h.f p 0 ADC_S_STATUS_UNIT_A
    let ub := h.f p 0 ADC_S_STATUS_UNIT_B
    let us := h.f p 0 ADC_S_STATUS_UNIT_S
    let h := if out = 0 then h.setRoles c us ub ua else h.setRoles c ua us ub
    let h := (h.incF p 0 ADC_S_ROT_CNT_COUNT).setF p 0 ADC_S_STATUS_NEXT_OUT (1 - out)
    let h := h.setAdc c { h.adcSt c with tries := 0, intervalUp := false, intervalAt := h.now, rotNow := false }
    ((h.setPhase c phCAL).enqueue c 2 0).startPending c
  else h

/-- R62, R73. One PWM_CLK edge: an armed handover whose outgoing unit is free, then pending starts, then the starts sampled
at it, the lowest entry first.
DEDUCED, unsafe: log entry 24. -/
def Hw.adcEdge (h : Hw) (c : Nat) (starts : List Nat) : Hw :=
  let h := (h.handover c).startPending c
  ((List.range 16).filter starts.contains).foldl (fun h e => h.sampleStart c e) h

/-- R62. The triggers that arrive at sequence entries and are sampled at one edge. -/
def Hw.adcTrigger (h : Hw) (c : Nat) (ts : List (Nat × Arrival)) : Hw :=
  let r := ts.foldl (fun (acc : Hw × List Nat) t =>
    let x := acc.1.arrive t.2 (clCode c (0x010 + t.1)) (acc.1.clusterRuns c)
    (x.1, if x.2 then t.1 :: acc.2 else acc.2)) (h, [])
  if r.1.clusterRuns c then r.1.adcEdge c r.2 else r.1

/-- R66. Entries started by a write of SWTRIG. -/
def Hw.adcSwtrig (h : Hw) (c : Nat) (d : Word) : Hw :=
  h.adcEdge c ((List.range 16).filter (fun e => bitOf d.toNat e))

/-! ## Phases of a conversion -/

/-- R60. The sample is held and the conversion phase begins. -/
def Hw.acqEnd (h : Hw) (c j : Nat) : Hw :=
  if h.clusterRuns c && h.f (pADC c j) 0 ADC_STATUS_PHASE == 1 then
    let v := h.conv c j
    (h.setConv c j { v with held := h.muxDac c v.cfg.mux }).setF (pADC c j) 0 ADC_STATUS_PHASE 2
  else h

/-- R57 to R59. RESULT and ESTAT of a conversion that delivered `code`. -/
def Hw.writeResult (h : Hw) (c : Nat) (cfg : ConvCfg) (code : Nat) : Hw :=
  let p := pADCSEQ c
  let e := cfg.entry
  let z := adcScale cfg code
  let h := h.setFS p e ADC_SEQ_RESULT_VALUE (satS 40 z)
  let h := h.setB p e ADC_SEQ_ESTAT_SAT (ovfS 40 z)
  let h := h.setB p e ADC_SEQ_ESTAT_CLIP (code == 0 || code == maxCode cfg.res)
  let h := h.setF p e ADC_SEQ_ESTAT_UNIT cfg.unit
  let h := h.incF p e ADC_SEQ_ESTAT_SEQ
  h.setF p e ADC_SEQ_ESTAT_RAW code

/-- R56, R60, R65. The last edge of a conversion, whose sample was held at the end of acquisition: the result is written, DONE fires, recovery begins, a chain starts NEXT. -/
def Hw.convDone (h : Hw) (c j : Nat) (x : Analog) : Hw :=
  if h.clusterRuns c && h.f (pADC c j) 0 ADC_STATUS_PHASE == 2 then
    let cfg := (h.conv c j).cfg
    let e := cfg.entry
    let h := h.writeResult c cfg (codeAt cfg.res (muxVolts (h.conv c j).held cfg.mux x).code)
    let h := h.setF (pADC c j) 0 ADC_STATUS_PHASE 3
    let h := h.incF (pADC c j) 0 ADC_CONV_CNT_COUNT
    let o := 1 - j
    let ph := h.f (pADC c o) 0 ADC_STATUS_PHASE
    let busy : Bool := (ph == 1 || ph == 2) && (h.conv c o).cfg.entry == e
    let h := h.when (!busy) (fun h => h.setF (pADCSEQ c) 0 ⟨3, e, 1⟩ 0)
    let h := (h.irqBit (pADCSEQ c) ADC_SEQ_IRQ_DONE e).launch (clCode c (0x040 + e))
    if h.b (pADCSEQ c) e ADC_SEQ_ECFG_CHAIN then h.adcEdge c [h.f (pADCSEQ c) e ADC_SEQ_ECFG_NEXT] else h
  else h

/-- R60. Recovery ends and the unit can accept its next acquisition. -/
def Hw.recoveryEnd (h : Hw) (c j : Nat) : Hw :=
  if h.clusterRuns c && h.f (pADC c j) 0 ADC_STATUS_PHASE == 3 then h.setF (pADC c j) 0 ADC_STATUS_PHASE 0 else h

/-! ## Enables (R68, R71) -/

/-- R68. The pending start of converter `j` is discarded, without OVR, when its entry takes no triggers now; a waiting
pair is discarded whole. -/
def Hw.dropPending (h : Hw) (c : Nat) : Hw :=
  let gone (l : LogConv) : Bool := match l.pend with | some e => !h.entryOn c e | none => false
  let ga := gone (h.conv c 0)
  let gb := gone (h.conv c 1)
  let pair := (h.conv c 0).pendPair || (h.conv c 1).pendPair
  let h := h.when (ga || (pair && gb)) (fun h => h.setConv c 0 { h.conv c 0 with pend := none, pendPair := false })
  h.when (gb || (pair && ga)) (fun h => h.setConv c 1 { h.conv c 1 with pend := none, pendPair := false })

/-- R71. The first enable of a logical converter after a cluster reset starts calibration of all three units. -/
def Hw.startupCheck (h : Hw) (c : Nat) : Hw :=
  if (h.b (pADC c 0) 0 ADC_CTRL_EN || h.b (pADC c 1) 0 ADC_CTRL_EN) && !(h.adcSt c).startBegun then
    let h := h.setAdc c { h.adcSt c with startBegun := true }
    let h := (h.setF (pADC c 0) 0 ADC_STATUS_STARTUP 1).setF (pADC c 1) 0 ADC_STATUS_STARTUP 1
    h.enqueue c 2 0
  else h

/-- A write of CTRL of converter `j`.
DEDUCED, unsafe: log entry 6. -/
def Hw.adcCtrlWrite (h : Hw) (c j : Nat) (d : Word) : Hw :=
  ((h.plainWrite (pADC c j) 2 0 d).dropPending c).startupCheck c

/-- A write of ADC_SEQ.CTRL. -/
def Hw.adcSeqCtrlWrite (h : Hw) (c : Nat) (d : Word) : Hw := (h.plainWrite (pADCSEQ c) 2 0 d).dropPending c

/-- A write of ECFG of entry e: CFG_ERR of e and of the entry paired with it follow, pending starts of disabled entries go. -/
def Hw.ecfgWrite (h : Hw) (c e : Nat) (d : Word) : Hw :=
  let h := (h.plainWrite (pADCSEQ c) 0x10 e d).entryCheck c e
  (if e = 0 then h else h.entryCheck c (e - 1)).dropPending c

/-- R68. A write that may change an enable. -/
def Hw.adcEnableWrite (h : Hw) (w : Requester) (c : Nat) (r : AdcEnReg) (d : Word) : Hw :=
  match r with
  | .convA => h.direct w (pADC c 0) 2 (fun h => h.adcCtrlWrite c 0 d)
  | .convB => h.direct w (pADC c 1) 2 (fun h => h.adcCtrlWrite c 1 d)
  | .seq => h.direct w (pADCSEQ c) 2 (fun h => h.adcSeqCtrlWrite c d)
  | .entry => h.directCh w (pADCSEQ c) 0x10 (fun e h => h.ecfgWrite c e d)

/-! ## Rotation, calibration and read-back (R69 to R75, R94, R95) -/

/-- R95. A read-back request ends: at once with NOSPARE, or with its code. -/
def Hw.rbResult (h : Hw) (c : Nat) (code : Option Nat) (fail : Bool) : Hw :=
  let p := pADCS c
  let h := h.setF p 0 ADC_S_RB_RESULT_QUEUED 0
  let h := match code with | some v => h.setF p 0 ADC_S_RB_RESULT_CODE v | none => h
  let h := (h.setF p 0 ADC_S_RB_RESULT_DONE 1).setB p 0 ADC_S_RB_RESULT_FAIL fail
  let h := h.setB p 0 ADC_S_RB_RESULT_NOSPARE code.isNone
  h.irq p (4 + 8 * b2n fail)

/-- R75, R95. The spare enters NONE: a request still waiting completes at that edge. -/
def Hw.enterNone (h : Hw) (c : Nat) : Hw :=
  let h := (h.setPhase c phNONE).irq (pADCS c) (1 + 2)
  if (h.adcSt c).rbWait.isSome then
    ((h.withdraw c ⟨1, 0⟩).setAdc c { h.adcSt c with rbWait := none }).rbResult c none false
  else h

/-- R73, R95. A handover is armed when the spare is READY, ROT_EN is 1 and the interval has passed or ROT_NOW was written;
a read-back that can be granted goes first. -/
def Hw.armCheck (h : Hw) (c : Nat) : Hw :=
  let a := h.adcSt c
  if h.phase c == phREADY && h.b (pADCS c) 0 ADC_S_CTRL_ROT_EN && (a.intervalUp || a.rotNow) &&
      !(a.rbWait.isSome && (h.running c).isNone) then h.setPhase c phHANDOVER
  else h

/-- R72. Whether a verify code passes. -/
def Hw.verifyOk (h : Hw) (c code : Nat) : Bool :=
  decide (((code : Int) - 32768).natAbs ≤ h.f (pADCS c) 0 ADC_S_CAL_TOL_TOL)

/-- R72. The verify conversion of the mid-scale check. -/
def verifyCode (h : Hw) (c : Nat) (x : Analog) : Nat := (muxInput h c 19 x).code

/-- R72. CAL_MID records a verify. -/
def Hw.setCalMid (h : Hw) (c u code : Nat) : Hw :=
  (h.setF (pADCS c) 0 ADC_S_CAL_MID_UNIT u).setF (pADCS c) 0 ADC_S_CAL_MID_CODE code

/-- R72, R74. Start-up calibration ends with three verifies and assigns the roles. -/
def Hw.startupDone (h : Hw) (c : Nat) (x0 x1 x2 : Analog) : Hw :=
  if h.clusterRuns c && h.running c == some ⟨2, 0⟩ && h.phase c == phSTARTUP then
    let k0 := verifyCode h c x0
    let k1 := verifyCode h c x1
    let k2 := verifyCode h c x2
    let f0 := !h.verifyOk c k0
    let f1 := !h.verifyOk c k1
    let f2 := !h.verifyOk c k2
    let h := (h.finish c).setAdc c { h.adcSt c with startDone := true, intervalUp := false, intervalAt := h.now }
    let h := (h.setF (pADC c 0) 0 ADC_STATUS_STARTUP 0).setF (pADC c 1) 0 ADC_STATUS_STARTUP 0
    let h := if f2 || (!f0 && !f1) then h.setCalMid c 2 k2 else if f1 then h.setCalMid c 1 k1 else h.setCalMid c 0 k0
    if !f0 && !f1 && !f2 then (h.setPhase c phREADY).armCheck c
    else
      let h := h.setF (pADCS c) 0 ADC_S_STATUS_FAILED (b2n f0 + 2 * b2n f1 + 4 * b2n f2)
      let h := if f2 then h else if f0 then h.setRoles c 2 1 0 else h.setRoles c 0 2 1
      h.enterNone c
  else h

/-- R69, R626. The scheduler grants a calibration: start-up, or of the spare in CAL. -/
def Hw.calGrant (h : Hw) (c : Nat) : Hw :=
  let may (r : MaintReq) : Bool := if r.kind = 1 then h.phase c == phREADY else true
  if h.clusterRuns c && h.grantable c ⟨2, 0⟩ may && (h.phase c == phCAL || h.phase c == phSTARTUP) then
    h.grant c ⟨2, 0⟩
  else h

/-- R72, R74. A calibration of the spare ends with its verify: it passes, repeats, or marks the unit FAILED. -/
def Hw.calDone (h : Hw) (c : Nat) (x : Analog) : Hw :=
  if h.clusterRuns c && h.running c == some ⟨2, 0⟩ && h.phase c == phCAL then
    let u := h.f (pADCS c) 0 ADC_S_STATUS_UNIT_S
    let k := verifyCode h c x
    let h := (h.finish c).setCalMid c u k
    if h.verifyOk c k then ((h.setAdc c { h.adcSt c with tries := 0 }).setPhase c phREADY).armCheck c
    else
      let h := h.setAdc c { h.adcSt c with tries := (h.adcSt c).tries + 1 }
      if (h.adcSt c).tries < 3 then h.enqueue c 2 0
      else (h.setF (pADCS c) 0 ⟨3, 13 + u, 1⟩ 1).enterNone c
  else h

/-- R73. ROT_INT × 100 µs has passed since the previous handover, or, before the first, since start-up calibration ended.
DESIGN CHOICE, unsafe: log entry 155. -/
def Hw.rotExpiry (h : Hw) (c : Nat) : Hw :=
  let us := 100 * max 1 (h.f (pADCS c) 0 ADC_S_CTRL_ROT_INT)
  if h.clusterRuns c && (h.adcSt c).startDone && decide ((h.adcSt c).intervalAt + 400 * us ≤ h.now) then (h.setAdc c { h.adcSt c with intervalUp := true }).armCheck c else h

/-- A write of ADC_S.CTRL; ROT_NOW arms a handover without waiting for ROT_INT (R73). -/
def Hw.adcsCtrlWrite (h : Hw) (c : Nat) (d : Word) : Hw :=
  let h := h.plainWrite (pADCS c) 2 0 d
  (h.when (bitOf d.toNat 1) (fun h => h.setAdc c { h.adcSt c with rotNow := true })).armCheck c

/-- R74. A write of UNIT_CLR. -/
def Hw.unitClr (h : Hw) (c : Nat) (d : Word) : Hw :=
  let p := pADCS c
  let old := h.f p 0 ADC_S_STATUS_FAILED
  let clr := d.toNat % 8 &&& old
  let us := h.f p 0 ADC_S_STATUS_UNIT_S
  let h := h.setF p 0 ADC_S_STATUS_FAILED (old - clr)
  if bitOf clr us && h.phase c == phNONE then
    ((h.setAdc c { h.adcSt c with tries := 0 }).setPhase c phCAL).enqueue c 2 0
  else h

/-- R95. A request enters the scheduler, replaces the waiting one's DAC index, or completes at once in NONE. -/
def Hw.rbEnter (h : Hw) (c dac : Nat) : Hw :=
  let p := pADCS c
  let h := ((h.setF p 0 ADC_S_RB_RESULT_DONE 0).setF p 0 ADC_S_RB_RESULT_FAIL 0).setF p 0 ADC_S_RB_RESULT_NOSPARE 0
  if h.phase c == phNONE then h.rbResult c none false
  else
    let waiting := (h.adcSt c).rbWait.isSome
    let h := h.setAdc c { h.adcSt c with rbWait := some dac }
    if waiting then h else (h.setF p 0 ADC_S_RB_RESULT_QUEUED 1).enqueue c 1 0

/-- R95. A write of RB_CTRL; with REQ = 1 it requests a read-back of DAC. -/
def Hw.rbCtrlWrite (h : Hw) (c : Nat) (d : Word) : Hw :=
  let h := h.plainWrite (pADCS c) 0x84 0 d
  if bitOf d.toNat 3 then
    let dac := d.toNat % 8
    if (h.adcSt c).rbRun.isSome then h.setAdc c { h.adcSt c with rbNext := some dac } else h.rbEnter c dac
  else h

/-- R74, R95. The scheduler grants a read-back while the spare is READY. -/
def Hw.rbGrant (h : Hw) (c : Nat) : Hw :=
  if h.clusterRuns c && h.phase c == phREADY && h.grantable c ⟨1, 0⟩ (fun _ => true) then
    let a := h.adcSt c
    ((h.grant c ⟨1, 0⟩).setAdc c { a with rbRun := a.rbWait, rbWait := none }).setPhase c phRB
  else h

/-- R94, R95. The read-back conversion completes; the DAC and the expected code are THRESH as it stands at its end.
DESIGN CHOICE, unsafe: log entry 156. -/
def Hw.rbDone (h : Hw) (c : Nat) (x : Analog) : Hw :=
  match (h.adcSt c).rbRun with
  | some dac =>
    if h.clusterRuns c && h.phase c == phRB then
      let code := (muxInput h c (8 + dac) x).code
      let want := 64 * h.f (pCMP c) dac CMP_THRESH_DAC + 32
      let fail := decide (((code : Int) - want).natAbs > h.f (pADCS c) 0 ADC_S_RB_CTRL_TOL)
      let next := (h.adcSt c).rbNext
      let h := (h.finish c).setAdc c { h.adcSt c with rbRun := none, rbNext := none }
      let h := (h.setPhase c phREADY).rbResult c (some code) fail
      (match next with | some d => h.rbEnter c d | none => h).armCheck c
    else h
  | none => h

/-- Effect of an accepted write to ADC_A or ADC_B. -/
def Hw.adcWrite (h : Hw) (c j off : Nat) (d : Word) : Hw :=
  if off = 2 then h.adcCtrlWrite c j d else h.plainWrite (pADC c j) off 0 d

/-- Effect of an accepted write to ADC_SEQ. -/
def Hw.adcSeqWrite (h : Hw) (c off ch : Nat) (d : Word) : Hw :=
  if off = 2 then h.adcSeqCtrlWrite c d
  else if off = 0x10 then h.ecfgWrite c ch d
  else if off = 0x80 then h.adcSwtrig c d
  else h.plainWrite (pADCSEQ c) off ch d

/-- Effect of an accepted write to ADC_S. -/
def Hw.adcSWrite (h : Hw) (c off : Nat) (d : Word) : Hw :=
  if off = 2 then h.adcsCtrlWrite c d
  else if off = 0x83 then h.unitClr c d
  else if off = 0x84 then h.rbCtrlWrite c d
  else h.plainWrite (pADCS c) off 0 d

/-! ## The commands -/

/-- ADC_SEQ_TRIGGER. -/
def execAdcSeqTrigger (c : Fin 8) (ts : List (Fin 16 × Arrival)) (s : State) : Host.Outcome State Fault Refusal :=
  onHw s (fun h => h.adcTrigger c (ts.map (fun t => (t.1.val, t.2))))

/-- ADC_SWTRIG.
DESIGN CHOICE, safe: log entry 14. -/
def execAdcSwtrig (w : Requester) (c : Fin 8) (d : Word) (s : State) : Host.Outcome State Fault Refusal :=
  onHw s (fun h => h.direct w (pADCSEQ c) 0x80 (fun h => h.adcSwtrig c d))

/-- CONVERSION_START.
DESIGN CHOICE, unsafe: log entry 21. -/
def execConversionStart (c : Fin 8) (s : State) : Host.Outcome State Fault Refusal :=
  onHw s (fun h => if h.clusterRuns c then h.adcEdge c [] else h)

/-- ACQUISITION_END. -/
def execAcquisitionEnd (c : Fin 8) (j : Fin 2) (s : State) : Host.Outcome State Fault Refusal :=
  onHw s (fun h => h.acqEnd c j)

/-- CONVERSION_DONE.
DESIGN CHOICE, unsafe: log entry 4. -/
def execConversionDone (c : Fin 8) (j : Fin 2) (x : Analog) (s : State) : Host.Outcome State Fault Refusal :=
  onHw s (fun h => h.convDone c j x)

/-- ADC_RECOVERY_END. -/
def execAdcRecoveryEnd (c : Fin 8) (j : Fin 2) (s : State) : Host.Outcome State Fault Refusal :=
  onHw s (fun h => h.recoveryEnd c j)

/-- ADC_ENABLE_CHANGE. -/
def execAdcEnableChange (w : Requester) (c : Fin 8) (r : AdcEnReg) (d : Word) (s : State) :
    Host.Outcome State Fault Refusal :=
  onHw s (fun h => h.adcEnableWrite w c r d)

/-- STARTUP_CALIBRATION_DONE. -/
def execStartupCalibrationDone (c : Fin 8) (x0 x1 x2 : Analog) (s : State) : Host.Outcome State Fault Refusal :=
  onHw s (fun h => h.startupDone c x0 x1 x2)

/-- CALIBRATION_GRANT. -/
def execCalibrationGrant (c : Fin 8) (_ : Unit) (s : State) : Host.Outcome State Fault Refusal :=
  onHw s (fun h => h.calGrant c)

/-- CALIBRATION_DONE. -/
def execCalibrationDone (c : Fin 8) (x : Analog) (s : State) : Host.Outcome State Fault Refusal :=
  onHw s (fun h => h.calDone c x)

/-- ROTATION_INTERVAL_EXPIRY. -/
def execRotationIntervalExpiry (c : Fin 8) (s : State) : Host.Outcome State Fault Refusal := onHw s (fun h => h.rotExpiry c)

/-- ROT_NOW. -/
def execRotNow (w : Requester) (c : Fin 8) (d : Word) (s : State) : Host.Outcome State Fault Refusal :=
  onHw s (fun h => h.direct w (pADCS c) 2 (fun h => h.adcsCtrlWrite c d))

/-- HANDOVER. -/
def execHandover (c : Fin 8) (s : State) : Host.Outcome State Fault Refusal :=
  onHw s (fun h => h.handover c)

/-- UNIT_CLR. -/
def execUnitClr (w : Requester) (c : Fin 8) (d : Word) (s : State) : Host.Outcome State Fault Refusal :=
  onHw s (fun h => h.direct w (pADCS c) 0x83 (fun h => h.unitClr c d))

/-- READBACK_REQUEST. -/
def execReadbackRequest (w : Requester) (c : Fin 8) (d : Word) (s : State) : Host.Outcome State Fault Refusal :=
  onHw s (fun h => h.direct w (pADCS c) 0x84 (fun h => h.rbCtrlWrite c d))

/-- READBACK_GRANT. -/
def execReadbackGrant (c : Fin 8) (_ : Unit) (s : State) : Host.Outcome State Fault Refusal :=
  onHw s (fun h => h.rbGrant c)

/-- READBACK_DONE. -/
def execReadbackDone (c : Fin 8) (x : Analog) (s : State) : Host.Outcome State Fault Refusal := onHw s (fun h => h.rbDone c x)

end Sys2Proof.Machine
end

