-- ==== Sys2Proof/Machine/Cmp.lean ====
section
/-! DEFINITION. Sigma-delta filter channels with their short-circuit detectors, comparators and lint filters
(R76 to R93, R102 to R106). -/

namespace Sys2Proof.Machine

open Sys2Proof

/-! ## Comparators -/

/-- Comparator `i` of cluster `c`. -/
def Hw.cmpSt (h : Hw) (c i : Nat) : CmpSt := h.cmp.at {} (8 * c + i)

/-- Comparator `i` replaced. -/
def Hw.setCmp (h : Hw) (c i : Nat) (v : CmpSt) : Hw := { h with cmp := h.cmp.set {} (8 * c + i) v }

/-- The lint output of comparator `i`. -/
def Hw.lintOut (h : Hw) (c i : Nat) : Bool := h.b (pCMP c) 0 ⟨3, 8 + i, 1⟩

/-- The short-circuit detector output of channel `i`. -/
def Hw.scOut (h : Hw) (c i : Nat) : Bool := h.b (pSDF c) 0 ⟨3, 8 + i, 1⟩

/-- R87, R88, R106. The comparator's state after POL: the analog state, or the detector with SRC = 1; 0 while EN is 0. -/
def Hw.cmpRaw (h : Hw) (c i : Nat) : Bool :=
  let p := pCMP c
  h.b p i CMP_CCFG_EN &&
    ((if h.b p i CMP_CCFG_SRC then h.scOut c i else (h.cmpSt c i).raw) != h.b p i CMP_CCFG_POL)

/-- STATUS.RAW follows the raw state. -/
def Hw.showRaw (h : Hw) (c i : Nat) : Hw := h.setB (pCMP c) 0 ⟨3, i, 1⟩ (h.cmpRaw c i)

/-- R92. A selected edge latches the timebase counter into CAPV. -/
def Hw.capture (h : Hw) (c i : Nat) (rise : Bool) : Hw :=
  let p := pCMP c
  if (if rise then bitOf (h.f p i CMP_CCFG_CAP_EDGE) 0 else bitOf (h.f p i CMP_CCFG_CAP_EDGE) 1) then
    let cnt := h.f (pPWMTB c) (h.f p i CMP_CCFG_CAP_TB) PWM_TB_TSTAT_CNT
    let h := h.when (h.b p i CMP_CAPV_VALID) (fun h => h.setF p i CMP_CAPV_OVW 1)
    ((h.setF p i CMP_CAPV_VALID 1).setB p i CMP_CAPV_EDGE rise).setF p i CMP_CAPV_COUNT cnt
  else h

/-- R91. An edge of the lint output: the level, the flag, the Seam event and the capture; in HALT and DEEP too.
DESIGN CHOICE, unsafe: log entry 157. -/
def Hw.lintEdge (h : Hw) (c i : Nat) (rise : Bool) : Hw :=
  let h := h.setB (pCMP c) 0 ⟨3, 8 + i, 1⟩ rise
  let h := if rise then h.irqBit (pCMP c) CMP_IRQ_RISE i else h.irqBit (pCMP c) CMP_IRQ_FALL i
  (h.launch (clCode c (if rise then 0x060 + i else 0x068 + i))).capture c i rise

/-- R634. Every cluster is gated: STATE reads HALT. -/
def Hw.halted (h : Hw) : Bool := h.f pPWR 0 PWR_STATUS_GATED == 0xFF

/-- R93. The comparator works: its cluster's clock runs, or it is powered in HALT or DEEP. -/
def Hw.cmpLive (h : Hw) (c i : Nat) : Bool :=
  h.b (pCMP c) i CMP_CCFG_EN && (h.clusterRuns c || ((h.halted || h.deep) && h.b (pCMP c) i CMP_CCFG_WAKE))

/-- R93. On entry to HALT or DEEP the comparators with WAKE = 0 lose their power: their outputs are 0, as of a disabled one
(R106). -/
def Hw.cmpUnpower (h : Hw) : Hw :=
  (List.range 64).foldl (fun h n =>
    let c := n / 8
    let i := n % 8
    if h.b (pCMP c) i CMP_CCFG_EN && !h.b (pCMP c) i CMP_CCFG_WAKE then
      (((h.setCmp c i {}).setB (pCMP c) 0 ⟨3, 8 + i, 1⟩ false)).setB (pCMP c) 0 ⟨3, i, 1⟩ false
    else h) h

/-- R89. The majority rule over a history of `m` samples, newest first, with count `n`: the next output. -/
def lintRule (m n : Nat) (hist : List Bool) (out : Bool) : Bool :=
  let ones := (hist.take m).countP id
  let n := min n m
  if out then !(decide (m - ones ≥ n)) else decide (ones ≥ n)

/-- R87. The analog state follows the pin voltage, the DAC output and the hysteresis. -/
def Hw.crossing (h : Hw) (c i : Nat) (x : Analog) : Hw :=
  let p := pCMP c
  if h.cmpLive c i && !h.b p i CMP_CCFG_SRC then
    let v : Int := (x.vin - x.refn) * 2048
    let dac : Int := (2 * (h.f p i CMP_THRESH_DAC : Int) + 1) * x.span
    let step : Int := match h.f p i CMP_CCFG_HYST with | 0 => 0 | 1 => 2 | 2 => 4 | _ => 8
    let st := h.cmpSt c i
    let raw := if st.raw then !(decide (v < dac - 2 * step * x.span)) else decide (v > dac)
    (h.setCmp c i { st with raw := raw }).showRaw c i
  else h

/-- R89, R93. The lint filter takes one sample. -/
def Hw.lintSample (h : Hw) (c i : Nat) : Hw :=
  let p := pCMP c
  if h.cmpLive c i then
    let st := h.cmpSt c i
    let m := h.f p i CMP_LINT_M + 1
    let n := h.f p i CMP_LINT_N + 1
    -- the history is cleared to zeros at enable and at every write of LINT (R90): a missing sample is a 0
    let hist := (h.cmpRaw c i :: st.hist).take 16
    let was := h.lintOut c i
    let now := lintRule m n hist was
    let h := h.setCmp c i { st with hist := hist }
    if now != was then h.lintEdge c i now else h
  else h

/-- R90. A write of LINT clears the history and the output; an output of 1 makes a falling edge.
DEDUCED, unsafe: log entry 28. -/
def Hw.lintWrite (h : Hw) (c i : Nat) (d : Word) : Hw :=
  let was := h.lintOut c i
  let h := (h.plainWrite (pCMP c) 0x12 i d).setCmp c i { h.cmpSt c i with hist := [] }
  if was then h.lintEdge c i false else h

/-- R87, R90, R106. A write of CCFG: an enable starts the state and the history at 0; a disable drops the output silently. -/
def Hw.ccfgWrite (h : Hw) (c i : Nat) (d : Word) : Hw :=
  let was := h.b (pCMP c) i CMP_CCFG_EN
  let h := h.plainWrite (pCMP c) 0x11 i d
  let h := if was && h.b (pCMP c) i CMP_CCFG_EN then h else (h.setCmp c i {}).setB (pCMP c) 0 ⟨3, 8 + i, 1⟩ false
  h.showRaw c i

/-- Effect of an accepted write to CMP. -/
def Hw.cmpWrite (h : Hw) (c off ch : Nat) (d : Word) : Hw :=
  if off = 0x11 then h.ccfgWrite c ch d
  else if off = 0x12 then h.lintWrite c ch d
  else h.plainWrite (pCMP c) off ch d

/-! ## Sigma-delta channels -/

/-- Channel `i` of cluster `c`. -/
def Hw.sdfSt (h : Hw) (c i : Nat) : SdfSt := h.sdf.at {} (8 * c + i)

/-- Channel `i` replaced. -/
def Hw.setSdf (h : Hw) (c i : Nat) (v : SdfSt) : Hw := { h with sdf := h.sdf.set {} (8 * c + i) v }

/-- R79. Moving sums of `r` samples, newest first. -/
def windowSums (r : Nat) (xs : List Int) : List Int :=
  match xs with
  | [] => []
  | x :: rest => ((x :: rest).take r).foldl (· + ·) 0 :: windowSums r rest

/-- R79. The sinc filter of order `k` over windows of `r`. -/
def sincs (r k : Nat) (xs : List Int) : List Int :=
  match k with
  | 0 => xs
  | k + 1 => sincs r k (windowSums r xs)

/-- R79. The filter's integer output over the bits captured, newest first. -/
def sincOut (r k : Nat) (bits : List Bool) : Int :=
  (sincs r k ((bits.take (k * (r - 1) + 1)).map (fun b => if b then 1 else -1))).headD 0

/-- R403. The input functions of a channel's data and of its group's received clock. -/
abbrev sdData (c i : Nat) : Nat := c * 256 + 0x30 + i
abbrev sdClock (c : Nat) : Nat := 0xF10 + c / 2

/-- R77, R403, R409. Whether channel `i` can capture a bit: enabled, its clock group on unless it decodes Manchester, its
cluster's and its group's clocks running, a received clock fed by a pin, and neither function just switched. -/
def Hw.sdfOn (h : Hw) (c i : Nat) : Bool :=
  h.clusterRuns c && h.b (pSDF c) i SDF_FCFG_EN && !h.funcUnarmed (sdData c i) &&
    (h.b (pSDF c) i SDF_FCFG_CODING || (sdmSrc h c != 0 && h.domainRuns (50 + c / 2) &&
      (sdmSrc h c == 1 || (h.funcFed (sdClock c) && !h.funcUnarmed (sdClock c)))))

/-- R81, R84. A setting out of range. -/
def Hw.decBad (h : Hw) (c i : Nat) : Bool :=
  let r := h.f (pSDF c) i SDF_FCFG_DEC
  r < 4 || r > 1024
def Hw.scBad (h : Hw) (c i : Nat) : Bool :=
  let w := h.f (pSDF c) i SDF_SC_CFG_WIN
  h.f (pSDF c) i SDF_SC_CFG_SC_ORD == 0 || w < 4 || w > 32

/-- R84. The short-circuit detector's output over the bits captured. -/
def Hw.scEval (h : Hw) (c i : Nat) (bits : List Bool) : Bool :=
  let p := pSDF c
  if h.b p i SDF_SC_CFG_SC_EN && !h.scBad c i then
    let w := h.f p i SDF_SC_CFG_WIN
    let k := h.f p i SDF_SC_CFG_SC_ORD
    let y := sincOut w k bits * 2 ^ 31
    let n : Int := (w : Int) ^ k
    decide (y ≥ h.fs p i SDF_SC_HI_VALUE * n) || decide (y ≤ h.fs p i SDF_SC_LO_VALUE * n)
  else false

/-- R85. The detector output takes a value: STATUS, the flag and the event on a rise, the comparator it feeds. -/
def Hw.scSet (h : Hw) (c i : Nat) (v : Bool) : Hw :=
  let was := h.scOut c i
  let h := (h.setB (pSDF c) 0 ⟨3, 8 + i, 1⟩ v).showRaw c i
  if v && !was then (h.irqBit (pSDF c) SDF_IRQ_SC i).launch (clCode c (0x058 + i)) else h

/-- R83, R102. VALID and its copy in STATUS. -/
def Hw.setValid (h : Hw) (c i : Nat) (v : Bool) : Hw :=
  (h.setB (pSDF c) i SDF_FSTAT_VALID v).setB (pSDF c) 0 ⟨3, i, 1⟩ v

/-- R79, R82, R83. One captured bit: the history, VALID after K × R bits, an output after every R-th bit, the detector. A
DEC lowered below the bits already counted makes the next bit the last of its output.
DESIGN CHOICE, unsafe: log entry 27. -/
def Hw.sdfBit (h : Hw) (c i : Nat) (b : Bool) : Hw :=
  let p := pSDF c
  let st := h.sdfSt c i
  let r := h.f p i SDF_FCFG_DEC
  let k := h.f p i SDF_FCFG_ORDER + 1
  let bits := (b :: st.bits).take 4096
  let full : Bool := decide (r ≤ st.phase + 1) && !h.decBad c i
  let h := h.setSdf c i { st with
    bits := bits, phase := if full then 0 else st.phase + 1, settled := st.settled + 1, mdRun := 0,
    outs := if full then st.outs ++ [(sincOut r k bits, r ^ k)] else st.outs }
  let h := h.setF p 0 ⟨3, 16 + i, 1⟩ 0
  let h := if st.settled + 1 ≥ k * r then h.setValid c i true else h
  h.scSet c i (h.scEval c i bits)

/-- R78, R83. A Manchester bit period without a transition: MDERR, one more in the run, and the previous bit again, unless the
channel has lost its clock.
DESIGN CHOICE, unsafe: log entry 158. -/
def Hw.mdMissing (h : Hw) (c i : Nat) : Hw :=
  let run := (h.sdfSt c i).mdRun
  let h := if h.b (pSDF c) 0 ⟨3, 16 + i, 1⟩ then h else h.sdfBit c i ((h.sdfSt c i).bits.headD false)
  (h.setSdf c i { h.sdfSt c i with mdRun := run + 1 }).irqBit (pSDF c) SDF_IRQ_MDERR i

/-- R77, R78. One bit period of the data line, which reads 0 where no working pin feeds it: NRZ captures at the edge FCFG.EDGE
selects, Manchester decodes the transition between the halves. -/
def Hw.sdfPeriod (h : Hw) (c i : Nat) (x : SdBit) : Hw :=
  let x : SdBit := if h.funcFed (sdData c i) then x else (false, false)
  if h.b (pSDF c) i SDF_FCFG_CODING then
    if x.1 = x.2 then h.mdMissing c i else h.sdfBit c i x.2
  else h.sdfBit c i (if h.b (pSDF c) i SDF_FCFG_EDGE then x.2 else x.1)

/-- The bit periods since the channel's last command, oldest first. -/
def Hw.sdfBits (h : Hw) (c i : Nat) (xs : List SdBit) : Hw := xs.foldl (fun h x => h.sdfPeriod c i x) h

/-- R80. RESULT before its limits. -/
def sdfScale (offset gain y : Int) (n : Nat) : Int := offset + (2 * y * gain + n) / (2 * n)

/-- R80, R83. The oldest output formed is written: RESULT, FSTAT and, once settled, DATA. -/
def Hw.sdfOutput (h : Hw) (c i : Nat) (xs : List SdBit) : Hw :=
  let p := pSDF c
  if h.sdfOn c i then
    let h := h.sdfBits c i xs
    match (h.sdfSt c i).outs with
    | [] => h
    | o :: rest =>
      let z := sdfScale (h.fs p i SDF_OFFSET_VALUE) (h.fs p i SDF_GAIN_VALUE) o.1 o.2
      let h := h.setSdf c i { h.sdfSt c i with outs := rest }
      let h := (h.setFS p i SDF_RESULT_VALUE (satS 40 z)).setB p i SDF_FSTAT_SAT (ovfS 40 z)
      let h := h.incF p i SDF_FSTAT_SEQ
      if h.b p i SDF_FSTAT_VALID then h.launch (clCode c (0x050 + i)) else h
  else h

/-- R82. An arrival at the sync input re-phases the decimation without clearing the filter. -/
def Hw.sdfSync (h : Hw) (c i : Nat) (a : Arrival) (xs : List SdBit) : Hw :=
  let h := if h.sdfOn c i then h.sdfBits c i xs else h
  let x := h.arrive a (clCode c (0x020 + i)) (h.clusterRuns c)
  if x.2 && x.1.b (pSDF c) i SDF_FCFG_SYNC_EN && x.1.b (pSDF c) i SDF_FCFG_EN then
    x.1.setSdf c i { x.1.sdfSt c i with phase := 0 }
  else x.1

/-- R78. A Manchester bit period without a mid-bit transition, after the bit periods before it. -/
def Hw.mdError (h : Hw) (c i : Nat) (xs : List SdBit) : Hw :=
  if h.sdfOn c i && h.b (pSDF c) i SDF_FCFG_CODING then (h.sdfBits c i xs).mdMissing c i else h

/-- R78, R83. Clock loss: no edge of a received clock for 4 bit periods, or 8 Manchester errors in a row. -/
def Hw.sdfClockLoss (h : Hw) (c i : Nat) : Hw :=
  let st := h.sdfSt c i
  let manchester := h.b (pSDF c) i SDF_FCFG_CODING
  if h.clusterRuns c && h.b (pSDF c) i SDF_FCFG_EN && (if manchester then st.mdRun ≥ 8 else sdmSrc h c == 2) then
    let h := (h.setSdf c i { st with settled := 0 }).setValid c i false
    (h.setF (pSDF c) 0 ⟨3, 16 + i, 1⟩ 1).irqBit (pSDF c) SDF_IRQ_CLK_LOST i
  else h

/-- R81, R84. CFG_ERR of channel `i` follows its configuration. -/
def Hw.sdfCheck (h : Hw) (c i : Nat) : Hw :=
  h.setB (pSDF c) i SDF_FSTAT_CFG_ERR (h.decBad c i || h.scBad c i)

/-- A write of FCFG: an enable starts the filter anew and VALID at 0 (R83). -/
def Hw.fcfgWrite (h : Hw) (c i : Nat) (d : Word) : Hw :=
  let was := h.b (pSDF c) i SDF_FCFG_EN
  let h := (h.plainWrite (pSDF c) 0x10 i d).sdfCheck c i
  if was && h.b (pSDF c) i SDF_FCFG_EN then h
  else (((h.setSdf c i {}).setValid c i false).setF (pSDF c) 0 ⟨3, 16 + i, 1⟩ 0).scSet c i false

/-- A write of SC_CFG; a detector disabled or out of range holds its output at 0 (R84). -/
def Hw.scCfgWrite (h : Hw) (c i : Nat) (d : Word) : Hw :=
  let h := (h.plainWrite (pSDF c) 0x15 i d).sdfCheck c i
  if h.b (pSDF c) i SDF_SC_CFG_SC_EN && !h.scBad c i then h else h.scSet c i false

/-- R76. A write of SDMCLK: in the odd cluster of the group the register is a read-only copy. -/
def Hw.sdmWrite (h : Hw) (c : Nat) (d : Word) : Hw := if c % 2 = 0 then h.plainWrite (pSDF c) 0x80 0 d else h

/-- Effect of an accepted write to SDF. -/
def Hw.sdfWrite (h : Hw) (c off ch : Nat) (d : Word) : Hw :=
  if off = 0x10 then h.fcfgWrite c ch d
  else if off = 0x15 then h.scCfgWrite c ch d
  else if off = 0x80 then h.sdmWrite c d
  else h.plainWrite (pSDF c) off ch d

/-! ## The commands -/

/-- SDF_OUTPUT. -/
def execSdfOutput (c i : Fin 8) (xs : List SdBit) (s : State) : Host.Outcome State Fault Refusal :=
  onHw s (fun h => h.sdfOutput c i xs)

/-- SDF_SYNC. -/
def execSdfSync (c i : Fin 8) (a : Arrival) (xs : List SdBit) (s : State) : Host.Outcome State Fault Refusal :=
  onHw s (fun h => h.sdfSync c i a xs)

/-- MANCHESTER_BIT_ERROR. -/
def execManchesterBitError (c i : Fin 8) (xs : List SdBit) (s : State) : Host.Outcome State Fault Refusal :=
  onHw s (fun h => h.mdError c i xs)

/-- SDF_CLOCK_LOSS. -/
def execSdfClockLoss (c i : Fin 8) (s : State) : Host.Outcome State Fault Refusal := onHw s (fun h => h.sdfClockLoss c i)

/-- SC_DETECT: the bit periods up to the one that makes the detector's output rise. -/
def execScDetect (c i : Fin 8) (xs : List SdBit) (s : State) : Host.Outcome State Fault Refusal :=
  onHw s (fun h => if h.sdfOn c i then h.sdfBits c i xs else h)

/-- COMPARATOR_CROSSING. -/
def execComparatorCrossing (c i : Fin 8) (x : Analog) (s : State) : Host.Outcome State Fault Refusal :=
  onHw s (fun h => h.crossing c i x)

/-- LINT_SAMPLE. -/
def execLintSample (c i : Fin 8) (s : State) : Host.Outcome State Fault Refusal := onHw s (fun h => h.lintSample c i)

/-- LINT_WRITE. -/
def execLintWrite (w : Requester) (c : Fin 8) (d : Word) (s : State) : Host.Outcome State Fault Refusal :=
  onHw s (fun h => h.directCh w (pCMP c) 0x12 (fun i h => h.lintWrite c i d))

/-- COMPARATOR_DISABLE. -/
def execComparatorDisable (w : Requester) (c : Fin 8) (d : Word) (s : State) : Host.Outcome State Fault Refusal :=
  onHw s (fun h => h.directCh w (pCMP c) 0x11 (fun i h => h.ccfgWrite c i d))

end Sys2Proof.Machine
end

