-- ==== Sys2Proof/Machine/Trk.lean ====
section
/-! DEFINITION. Position and speed trackers: decoding, position, index, SSI, errors, windows, periods, probes and compares
(R107 to R137). -/

namespace Sys2Proof.Machine

open Sys2Proof

/-- R132. Event k of a tracker fires: 0 IDX, 1 PRB0, 2 PRB1, 3 CMP0, 4 CMP1, 5 SPD, 6 POSUPD, 7 ERR. -/
def Hw.trkEvent (h : Hw) (c t k : Nat) : Hw :=
  if h.trkMode c t = 0 then h else h.launch (clCode c (0x080 + 8 * t + k))

/-- R134. IRQ_FLAG bit 8t + k: 0 ERR, 1 IDX, 2 PRB0, 3 PRB1, 4 CMP0, 5 CMP1, 6 STILL, 7 WRAP. -/
def Hw.trkFlag (h : Hw) (c t k : Nat) : Hw := h.irqBit (pTRK c) TRK_IRQ_FLAGS (8 * t + k)

/-- R121. The common effect of an error; of two errors at one edge ERR_CODE takes the larger code. -/
def Hw.trkErr (h : Hw) (c t code : Nat) : Hw :=
  let st := h.trkSt c t
  let code := if st.errAt = some h.now then max code (h.f (pTRK c) t TRK_PSTAT_ERR_CODE) else code
  let h := h.setTrk c t { st with errAt := some h.now }
  let h := (h.setF (pTRK c) t TRK_PSTAT_ERR_CODE code).satF (pTRK c) t TRK_PSTAT_ERR_CNT
  (h.trkFlag c t 0).trkEvent c t 7

/-! ## Modulus -/

/-- R116, R120. The modulus in effect; a value with bit 39 set acts as 0, and SSI mode ignores it. -/
def Hw.modulus (h : Hw) (c t : Nat) : Nat :=
  let m := h.f (pTRK c) t TRK_MODULUS_M
  if m ≥ 2 ^ 39 || h.f (pTRK c) t TRK_TCFG_MODE == 6 then 0 else m

/-- R115, R116. A position reduced: the stored 40-bit value, and by how many wraps it left the range.
DEDUCED, unsafe: log entry 33. -/
def reduce (m : Nat) (z : Int) : Nat × Int :=
  if m = 0 then (unsx 40 z, (z + 2 ^ 39) / 2 ^ 40) else ((z % m).toNat, z / m)

/-- The position as a number: signed without a modulus, 0 to M − 1 with one. -/
def Hw.posVal (h : Hw) (c t : Nat) : Int :=
  if h.modulus c t = 0 then h.fs (pTRK c) t TRK_POS_VALUE else h.f (pTRK c) t TRK_POS_VALUE

/-- R117, R118. POS set to `z` reduced; wraps add to TURNS `turns` under a modulus, and set WRAP. -/
def Hw.setPos (h : Hw) (c t : Nat) (z turns : Int) : Hw :=
  let r := reduce (h.modulus c t) z
  let h := h.setF (pTRK c) t TRK_POS_VALUE r.1
  let h := h.setFS (pTRK c) t TRK_TURNS_COUNT (if h.modulus c t = 0 then turns else turns + r.2)
  if r.2 = 0 then h else h.trkFlag c t 7

/-! ## Steps -/

/-- R131. Whether a step of `d` from `p` carries the position across compare `x`, modulo `n`. -/
def crosses (n : Nat) (p d x : Int) : Bool :=
  if d > 0 then decide ((x - (p + 1)) % n < d) else if d < 0 then decide ((p - x) % n < -d) else false

/-- R131. Compare `k` on a step. -/
def Hw.trkCompare (h : Hw) (c t k n : Nat) (p d : Int) : Hw :=
  let dir := if k = 0 then h.f (pTRK c) t TRK_TCFG_CMP0_DIR else h.f (pTRK c) t TRK_TCFG_CMP1_DIR
  let x := if k = 0 then h.fs (pTRK c) t TRK_CMP0_VALUE else h.fs (pTRK c) t TRK_CMP1_VALUE
  if crosses n p d x && (if d > 0 then bitOf dir 0 else bitOf dir 1) then (h.trkFlag c t (4 + k)).trkEvent c t (3 + k) else h

/-- R118 item 3. POS as item 1 of this edge leaves it. -/
def Hw.posItem1 (h : Hw) (c t : Nat) : Nat :=
  match (h.trkSt c t).item1 with
  | some x => if x.1 = h.now then x.2 else h.f (pTRK c) t TRK_POS_VALUE
  | none => h.f (pTRK c) t TRK_POS_VALUE

/-- R118. What item 1 of this edge leaves is noted as `pos`: a later action of the edge may change POS itself. -/
def Hw.noteItem1 (h : Hw) (c t pos : Nat) : Hw :=
  h.setTrk c t { h.trkSt c t with item1 := some (h.now, pos) }

/-- R118 item 3. A probe latched earlier at this edge takes POS as the count step of the edge leaves it. -/
def Hw.relatch (h : Hw) (c t : Nat) : Hw :=
  let st := h.trkSt c t
  let pos := h.posItem1 c t
  (h.when (st.prb0At == some h.now) (fun h => h.setF (pTRK c) t TRK_PRB0_VALUE pos)).when (st.prb1At == some h.now)
    (fun h => h.setF (pTRK c) t TRK_PRB1_VALUE pos)

/-- R127. PSPEED of a full tracker from PER, E and KPER. -/
def Hw.pspeed (h : Hw) (c t : Nat) : Hw :=
  let p := pTRK c
  if t = 0 && h.b p t TRK_PSTAT_PER_VALID then
    let d := max (h.f p t TRK_PER_CYC) (h.trkSt c t).e
    let q : Int := (h.f p t TRK_KPER_K * 65536 / d : Nat)
    h.setFS p t TRK_PSPEED_VALUE (satS 40 (if h.b p t TRK_PSTAT_DIR then -q else q))
  else h

/-- R124, R126 to R128. What a count step `d` does beside the position: Δ, DIR, the period of a full tracker, whose PSPEED is
computed 8 edges later, STILL. -/
def Hw.stepTimes (h : Hw) (c t : Nat) (d : Int) : Hw :=
  let p := pTRK c
  let st := h.trkSt c t
  let rev := decide (d < 0)
  let same := st.stepped && h.b p t TRK_PSTAT_DIR == rev
  let h := h.setTrk c t { st with
    delta := sx 40 (unsx 40 (st.delta + d)), stepped := true, e := 0,
    pspIn := if t = 0 then st.pspIn ++ [8] else st.pspIn }
  let h := h.setB p t TRK_PSTAT_DIR rev
  if t = 0 then
    let h := if same then (h.setF p t TRK_PER_CYC st.e).setF p t TRK_PSTAT_PER_VALID 1
      else (h.setF p t TRK_PSTAT_PER_VALID 0).when st.stepped (fun h => h.setF p t TRK_PSPEED_VALUE 0)
    (h.setF p t TRK_PSTAT_STILL 0).setF p 0 ⟨3, t, 1⟩ 0
  else h

/-- R118, items 1 and 2. A count step of an incremental mode. After a write committed at this edge, POS is the written value
plus the step, and the compares and latches take what the step makes of the position before the write.
DEDUCED, unsafe: log entry 32. -/
def Hw.countStep (h : Hw) (c t : Nat) (d : Int) : Hw :=
  if d = 0 then h
  else
    let m := h.modulus c t
    let q := h.posItem1 c t
    let p : Int := if m = 0 then sx 40 q else q
    let h := h.noteItem1 c t (reduce m (p + d)).1
    let h := h.setPos c t (h.posVal c t + d) (h.fs (pTRK c) t TRK_TURNS_COUNT)
    let h := (h.relatch c t).stepTimes c t d
    let n := if m = 0 then 2 ^ 40 else m
    (h.trkCompare c t 0 n p d).trkCompare c t 1 n p d

/-- R111. The place of (A, B) in the forward sequence 00, 10, 11, 01. -/
def quadPlace (l : Lines) : Nat :=
  match l.a, l.b with
  | false, false => 0 | true, false => 1 | true, true => 2 | false, true => 3

/-- R111. The step of a quadrature mode; `none` for QERR. -/
def quadStep (mode : Nat) (old new : Lines) : Option Int :=
  let p := quadPlace old
  let q := quadPlace new
  match (q + 4 - p) % 4 with
  | 0 => some 0
  | 1 => some (if mode = 5 || (mode = 4 && p % 2 = 0) || (mode = 3 && p = 0) then 1 else 0)
  | 3 => some (if mode = 5 || (mode = 4 && q % 2 = 0) || (mode = 3 && q = 0 && p = 1) then -1 else 0)
  | _ => none

/-- R111, R113. The decoder's step from the filtered lines; `none` for QERR. -/
def lineStep (mode : Nat) (old new : Lines) : Option Int :=
  let upA := new.a && !old.a
  let upB := new.b && !old.b
  match mode with
  | 1 => some (if upA then (if new.b then -1 else 1) else 0)
  | 2 => some ((if upA then 1 else 0) - (if upB then 1 else 0))
  | 3 => quadStep 3 old new
  | 4 => quadStep 4 old new
  | 5 => quadStep 5 old new
  | _ => some 0

/-- R119. The index condition. -/
def indexCond (mode zgate : Nat) (l : Lines) : Bool :=
  match mode with
  | 1 => l.z
  | 2 => l.z
  | 3 => l.z && 2 * b2n l.a + b2n l.b == zgate
  | 4 => l.z && 2 * b2n l.a + b2n l.b == zgate
  | 5 => l.z && 2 * b2n l.a + b2n l.b == zgate
  | _ => false

/-- R118 items 3 and 4, R119. An index: latch, and the reset ZMODE calls for; a write committed at this edge stands. -/
def Hw.indexAct (h : Hw) (c t : Nat) : Hw :=
  let p := pTRK c
  let zm := h.f p t TRK_TCFG_ZMODE
  if zm = 0 then h
  else
    let h := (h.setF p t TRK_IDX_VALUE (h.posItem1 c t)).setF p t TRK_PSTAT_IDX_VALID 1
    let h := ((h.trkFlag c t 1).trkEvent c t 0).noteItem1 c t (h.posItem1 c t)
    let h := if zm ≥ 2 ∧ (h.trkSt c t).commitAt ≠ some h.now then
        h.setF p t TRK_POS_VALUE (reduce (h.modulus c t) (h.fs p t TRK_ZVAL_VALUE)).1
      else h
    if zm = 3 then h.hwF p t TRK_TCFG_ZMODE 1 else h

/-- R120 item 3. Once a frame with a start bit has driven its first rising edge, the edge at which the data line first reads
0 ends the delay measurement. -/
def Hw.ssiSense (h : Hw) (c t : Nat) : Hw :=
  let st := h.trkSt c t
  if h.trkMode c t = 6 && st.ssi == 1 && h.b (pTRK c) t TRK_SCFG_START && !st.startSeen && !st.lines.b &&
      decide (h.ssiRise c t ≤ h.now) then
    (h.setTrk c t { st with startSeen := true }).setF (pTRK c) t TRK_SSI_DLY_CYC (min 1023 (h.now - h.ssiRise c t))
  else h

/-- R109, R111 to R119. The filtered lines take new values: the count step, its compares, the index. Answers the step. -/
def Hw.encoder (h : Hw) (c t : Nat) (l : Lines) : Hw × Int :=
  let mode := h.trkMode c t
  let st := h.trkSt c t
  let cond := indexCond mode (h.f (pTRK c) t TRK_TCFG_ZGATE) l
  let h := (h.setTrk c t { st with lines := l, index := cond }).ssiSense c t
  match lineStep mode st.lines l with
  | none =>
    let h := h.trkErr c t 1
    (if cond && !st.index then h.indexAct c t else h, 0)
  | some d =>
    let d := if h.b (pTRK c) t TRK_TCFG_DIRINV then -d else d
    let h := h.countStep c t d
    (if cond && !st.index then h.indexAct c t else h, d)

/-- R118 item 5. A committed software write of POS and TURNS, with the step of the same edge. -/
def Hw.posCommit (h : Hw) (c t : Nat) (lo hi : Word) (step : Int) : Hw :=
  let h := h.noteItem1 c t (h.posItem1 c t)
  let h := h.setTrk c t { h.trkSt c t with commitAt := some h.now }
  let z : Int := lo.toInt
  let turns := sx 24 hi.toNat
  let r := reduce (h.modulus c t) z
  let base : Int := if h.modulus c t = 0 then sx 40 r.1 else r.1
  h.setPos c t (base + step) turns

/-- R403. The input function of line `j` of tracker `t`: 0 IN_A, 1 IN_B, 2 IN_Z, 3 PRB0, 4 PRB1. -/
abbrev trkLine (c t j : Nat) : Nat := c * 256 + 0x10 + 8 * t + j

/-- R409. Line `j` of tracker `t` is loaded with a level: no step, index, probe latch or error. -/
def Hw.lineLoad (h : Hw) (c t j : Nat) (v : Bool) : Hw :=
  let st := h.trkSt c t
  let l : Lines := if j = 0 then { st.lines with a := v } else if j = 1 then { st.lines with b := v }
    else if j = 2 then { st.lines with z := v } else st.lines
  h.setTrk c t { st with lines := l, index := indexCond (h.trkMode c t) (h.f (pTRK c) t TRK_TCFG_ZGATE) l }

/-- The levels that the pins feeding the tracker give its lines. -/
def Hw.linesIn (h : Hw) (c t : Nat) : Lines :=
  ⟨h.funcIn (trkLine c t 0), h.funcIn (trkLine c t 1), h.funcIn (trkLine c t 2)⟩

/-- R409. The lines whose function was just switched are loaded with what they read. -/
def Hw.loadUnarmed (h : Hw) (c t : Nat) : Hw :=
  [0, 1, 2].foldl (fun h j =>
    if h.funcUnarmed (trkLine c t j) then h.lineLoad c t j (h.funcIn (trkLine c t j)) else h) h

/-- R108, R109, R409. The outside drives the tracker's lines to `l`, which have been so for `n` edges: the decoder takes them
when the glitch filter of FILT + 1 edges has passed them. Answers the count step.
DEDUCED, unsafe: log entry 30. -/
def Hw.lineChange (h : Hw) (c t : Nat) (l : Lines) (n : Nat) : Hw × Int :=
  let h := ((h.drivePads (trkLine c t 0) l.a).drivePads (trkLine c t 1) l.b).drivePads (trkLine c t 2) l.z
  if h.clusterRuns c && decide (h.f (pTRK c) t TRK_TCFG_FILT + 1 ≤ n) then
    let h := h.loadUnarmed c t
    h.encoder c t (h.linesIn c t)
  else (h, 0)

/-- R117, R118. The page accepts a write of TURNS: the pair commits at the next edge, at which the lines may also change. -/
def Hw.posWrite (h : Hw) (c t : Nat) (r : Requester) (d : Word) (l : Option (Lines × Nat)) : Hw :=
  let lo := h.pairLowWord (pTRK c) 0x12 t r
  match l with
  | none => h.posCommit c t lo d 0
  | some l =>
    let x := h.lineChange c t l.1 l.2
    x.1.posCommit c t lo d x.2

/-- R116. A write of MODULUS: POS is then reduced, TURNS unchanged. -/
def Hw.modulusWrite (h : Hw) (c t : Nat) (d : Word) : Hw :=
  let h := h.plainWrite (pTRK c) 0x14 t d
  let m := h.modulus c t
  if m = 0 then h else h.setF (pTRK c) t TRK_POS_VALUE (h.fs (pTRK c) t TRK_POS_VALUE % m).toNat

/-! ## SSI -/

/-- SSI_BUSY and its copy follow the frame's phase. -/
def Hw.setSsi (h : Hw) (c t ph : Nat) : Hw :=
  let h := h.setTrk c t { h.trkSt c t with ssi := ph }
  (h.setB (pTRK c) t TRK_PSTAT_SSI_BUSY (ph != 0)).setB (pTRK c) 0 ⟨3, 4 + t, 1⟩ (ph != 0)

/-- R120 item 1. A trigger: dropped with SSI_OVR while a frame or its monoflop time runs, refused with SSI_LINE while the
data line reads 0, otherwise a frame starts. -/
def Hw.ssiStart (h : Hw) (c t : Nat) : Hw :=
  if h.trkMode c t = 6 then
    if (h.trkSt c t).ssi ≠ 0 then h.trkErr c t 5
    else if !(h.trkSt c t).lines.b then h.trkErr c t 2
    else (h.setTrk c t { h.trkSt c t with start := h.now, startSeen := false }).setSsi c t 1
  else h

/-- R120 item 4. Gray to binary over n bits. -/
def grayToBin (n g : Nat) : Nat := (List.range n).foldl (fun b i => b ^^^ (g >>> i)) 0 % 2 ^ n

/-- R120 item 5, R122. The last bit is sampled: the code is decoded, checked and, when accepted, written to POS. A data line
that no pin feeds reads 0; a frame with a start bit needs it.
DEDUCED, unsafe: log entry 34. -/
def Hw.ssiDone (h : Hw) (c t : Nat) (raw : Nat) : Hw :=
  let p := pTRK c
  let st := h.trkSt c t
  if h.trkMode c t = 6 && st.ssi = 1 && (st.startSeen || !h.b p t TRK_SCFG_START) then
    let n := h.nbits c t
    let g := if h.funcFed (trkLine c t 1) then raw % 2 ^ n else 0
    let code := if h.b p t TRK_SCFG_GRAY then grayToBin n g else g
    let h := h.setSsi c t 2
    let old := h.f p t TRK_POS_VALUE
    let d := sx n (unsx n ((code : Int) - old))
    let lim := h.f p t TRK_JUMP_LIM
    let jump := lim ≠ 0 ∧ d.natAbs > lim
    if jump ∧ st.rejects < 4 then (h.setTrk c t { h.trkSt c t with rejects := st.rejects + 1 }).trkErr c t 4
    else
      let h := h.when (decide (lim ≠ 0 ∧ 4 ≤ st.rejects)) (fun h => h.setF p t TRK_PSTAT_REACQ 1)
      let h := (h.setTrk c t { h.trkSt c t with rejects := 0 }).setF p t TRK_POS_VALUE code
      let h := if d = 0 then h
        else ((((h.noteItem1 c t code).relatch c t).stepTimes c t d).trkCompare c t 0 (2 ^ n) old d).trkCompare c t 1 (2 ^ n) old d
      h.trkEvent c t 6
  else h

/-- R121. No start bit within 1,023 cycles: no monoflop time follows the abandoned frame.
DESIGN CHOICE, unsafe: log entry 159. -/
def Hw.ssiTimeout (h : Hw) (c t : Nat) : Hw :=
  if h.trkMode c t = 6 && (h.trkSt c t).ssi = 1 && h.b (pTRK c) t TRK_SCFG_START && !(h.trkSt c t).startSeen then
    (h.setSsi c t 0).trkErr c t 3
  else h

/-- R120 item 6. The monoflop time ends; the data line must read 1. -/
def Hw.ssiMonoEnd (h : Hw) (c t : Nat) : Hw :=
  if h.trkMode c t = 6 && (h.trkSt c t).ssi = 2 then
    let h := h.setSsi c t 0
    if (h.trkSt c t).lines.b then h else h.trkErr c t 2
  else h

/-! ## Configuration writes -/

/-- The CFG_ERR conditions of the chapter (R107, R120, R129). -/
def Hw.trkCfgBad (h : Hw) (c t : Nat) : Bool :=
  let p := pTRK c
  h.f p t TRK_TCFG_MODE == 7 || (t != 0 && h.f p t TRK_TCFG_SPD_SRC == 1) ||
    (h.b p t TRK_SCFG_AUTO && !h.b p t TRK_SCFG_START) || h.f p t TRK_SCFG_NBITS == 0 || h.f p t TRK_SCFG_NBITS > 40

/-- CFG_ERR follows the configuration; a condition that arises is the error CFG (R121), once while CFG_ERR stands.
DESIGN CHOICE, unsafe: log entry 160. -/
def Hw.trkCheck (h : Hw) (c t : Nat) : Hw :=
  let was := h.b (pTRK c) t TRK_PSTAT_CFG_ERR
  let bad := h.trkCfgBad c t
  let h := h.setB (pTRK c) t TRK_PSTAT_CFG_ERR bad
  if bad && !was then h.trkErr c t 6 else h

/-- R123, R137. The length of the window that starts now. -/
def Hw.winCycles (h : Hw) (c t : Nat) : Nat := min 4000000 (max 400 (h.f (pTRK c) t TRK_WIN_CYC))

/-- R123. A new window starts at this edge. -/
def Hw.winStart (h : Hw) (c t : Nat) : Hw :=
  h.setTrk c t { h.trkSt c t with delta := 0, win := 0, winLen := h.winCycles c t }

/-- R119. The index condition is formed anew; where a write has made it true an index occurs. -/
def Hw.reindex (h : Hw) (c t : Nat) : Hw :=
  let st := h.trkSt c t
  let cond := indexCond (h.trkMode c t) (h.f (pTRK c) t TRK_TCFG_ZGATE) st.lines
  let h := h.setTrk c t { st with index := cond }
  if cond && !st.index then h.indexAct c t else h

/-- R119, R136. A write of TCFG: a change of MODE or FILT abandons a running frame, a mode other than SSI ends a monoflop time;
EN becoming 1 starts the windows (R123) and clears PER_VALID (R126).
DEDUCED, unsafe: log entry 31. -/
def Hw.tcfgWrite (h : Hw) (c t : Nat) (d : Word) : Hw :=
  let p := pTRK c
  let en := h.b p t TRK_TCFG_EN
  let key := (h.f p t TRK_TCFG_MODE, h.f p t TRK_TCFG_FILT)
  let h := h.plainWrite p 0x10 t d
  let changed := key != (h.f p t TRK_TCFG_MODE, h.f p t TRK_TCFG_FILT)
  let h := if (changed && (h.trkSt c t).ssi == 1) || (h.trkMode c t != 6 && (h.trkSt c t).ssi != 0) then h.setSsi c t 0 else h
  let h := if h.b p t TRK_TCFG_EN && !en then
      ((h.winStart c t).setTrk c t { (h.winStart c t).trkSt c t with reports := [] }).setF p t TRK_PSTAT_PER_VALID 0
    else h
  (h.reindex c t).trkCheck c t

/-- R136. A write of SCFG abandons a running frame. -/
def Hw.scfgWrite (h : Hw) (c t : Nat) (d : Word) : Hw :=
  let h := h.plainWrite (pTRK c) 0x11 t d
  (if (h.trkSt c t).ssi = 1 then h.setSsi c t 0 else h).trkCheck c t

/-- R120, R121. A write of CMD. -/
def Hw.trkCmdWrite (h : Hw) (c t : Nat) (d : Word) : Hw :=
  let p := pTRK c
  let h := h.when (bitOf d.toNat 1) (fun h =>
    ((h.setF p t TRK_PSTAT_ERR_CNT 0).setF p t TRK_PSTAT_ERR_CODE 0).setTrk c t { h.trkSt c t with errAt := none })
  h.when (bitOf d.toNat 0) (fun h => h.ssiStart c t)

/-- Effect of an accepted write to TRK. In a basic tracker KPER and STILL ignore writes (R129). -/
def Hw.trkWrite (h : Hw) (c off t : Nat) (r : Requester) (d : Word) : Hw :=
  if off = 0x10 then h.tcfgWrite c t d
  else if off = 0x11 then h.scfgWrite c t d
  else if off = 0x12 then h.pairHold (pTRK c) 0x12 t r d
  else if off = 0x13 then h.posWrite c t r d none
  else if off = 0x14 then h.modulusWrite c t d
  else if off = 0x25 then h.trkCmdWrite c t d
  else if (off = 0x20 ∨ off = 0x22) ∧ t ≠ 0 then h
  else h.plainWrite (pTRK c) off t d

/-! ## Speed and standstill -/

/-- R107, R123, R125. One edge of the windows: where the last one was the window's last, its report falls due 4 edges after it
and the next window starts. A tracker that is off reports nothing. -/
def Hw.winCount (h : Hw) (c t : Nat) : Hw :=
  let st := h.trkSt c t
  if !h.clusterRuns c || !h.b (pTRK c) t TRK_TCFG_EN then h
  else if st.win < st.winLen then h.setTrk c t { st with win := st.win + 1 }
  else h.setTrk c t { st with
    reports := if h.trkMode c t = 0 then st.reports else st.reports ++ [(st.delta, h.now + 3)],
    delta := 0, win := 1, winLen := h.winCycles c t }

/-- R126. One edge of E: the cycles since the last count step. -/
def Hw.eCount (h : Hw) (c : Nat) : Hw :=
  if h.clusterRuns c then h.setTrk c 0 { h.trkSt c 0 with e := min (2 ^ 32 - 1) ((h.trkSt c 0).e + 1) } else h

/-- R127. PSPEED is computed at the 8th edge after a count step. -/
def Hw.pspDue (h : Hw) (c : Nat) : Hw :=
  let st := h.trkSt c 0
  if st.pspIn = [] ∨ !h.clusterRuns c then h
  else
    let h := h.setTrk c 0 { st with pspIn := (st.pspIn.map (· - 1)).filter (· != 0) }
    if st.pspIn.contains 1 && h.trkMode c 0 != 0 then h.pspeed c 0 else h

/-- One PWM_CLK edge of the trackers of cluster `c`. -/
def Hw.trkEdge (h : Hw) (c : Nat) : Hw :=
  [0, 1, 2, 3].foldl (fun h t => (h.winCount c t).ssiSense c t) ((h.eCount c).pspDue c)

/-- R125. The oldest window whose report is due reports. -/
def Hw.windowEnd (h : Hw) (c t : Nat) : Hw :=
  match (h.trkSt c t).reports with
  | [] => h
  | r :: rest =>
    if h.trkMode c t = 0 ∨ h.now < r.2 then h
    else
    let p := pTRK c
    let st := h.trkSt c t
    let z := r.1 * h.fs p t TRK_KSPD_K
    let h := h.setTrk c t { st with reports := rest }
    let h := h.setFS p t TRK_DELTA_VALUE r.1
    let h := h.setFS p t TRK_SPEED_VALUE (if h.b p t TRK_PSTAT_STILL then 0 else satS 40 z)
    (h.setB p t TRK_PSTAT_SAT (ovfS 40 z)).trkEvent c t 5

/-- R123. A WSYNC arrival discards the running window. -/
def Hw.windowSync (h : Hw) (c t : Nat) (a : Arrival) : Hw :=
  let x := h.arrive a (clCode c (0x02C + t)) (h.clusterRuns c)
  if x.2 && x.1.b (pTRK c) t TRK_TCFG_WSYNC && x.1.trkMode c t != 0 then
    x.1.winStart c t
  else x.1

/-- R128. Standstill of a full tracker. -/
def Hw.standstill (h : Hw) (c t : Nat) : Hw :=
  let p := pTRK c
  let lim := h.f p t TRK_STILL_T
  if h.trkMode c t ≠ 0 ∧ t = 0 ∧ lim ≠ 0 ∧ (h.trkSt c t).e ≥ lim * 4000 ∧ !h.b p t TRK_PSTAT_STILL then
    let h := ((h.setF p t TRK_SPEED_VALUE 0).setF p t TRK_PSPEED_VALUE 0).setF p t TRK_PSTAT_PER_VALID 0
    ((h.setF p t TRK_PSTAT_STILL 1).setF p 0 ⟨3, t, 1⟩ 1).trkFlag c t 6
  else h

/-- R118 item 3, R130, R403, R409. A probe edge that the line's pin shows: POS as item 1 of the edge leaves it is latched. -/
def Hw.probe (h : Hw) (c t n : Nat) (rise : Bool) : Hw :=
  let p := pTRK c
  let isel := trkLine c t (3 + n)
  let h := h.drivePads isel rise
  let edge := if n = 0 then h.f p t TRK_TCFG_PRB0_EDGE else h.f p t TRK_TCFG_PRB1_EDGE
  if h.trkMode c t ≠ 0 ∧ (if rise then bitOf edge 0 else bitOf edge 1) ∧ h.funcFed isel ∧ !h.funcUnarmed isel then
    let reg : Fld := if n = 0 then TRK_PRB0_VALUE else TRK_PRB1_VALUE
    let val : Fld := if n = 0 then TRK_PSTAT_PRB0_VALID else TRK_PSTAT_PRB1_VALID
    let ovw : Fld := if n = 0 then TRK_PSTAT_PRB0_OVW else TRK_PSTAT_PRB1_OVW
    let h := h.setF p t reg (h.posItem1 c t)
    let h := h.setTrk c t (if n = 0 then { h.trkSt c t with prb0At := some h.now } else { h.trkSt c t with prb1At := some h.now })
    let h := h.when (h.b p t val) (fun h => h.setF p t ovw 1)
    ((h.setF p t val 1).trkFlag c t (2 + n)).trkEvent c t (1 + n)
  else h

/-! ## The commands -/

/-- ENCODER_INPUT_CHANGE: the outside drives the lines to `l.1`, which have been so for `l.2` edges. -/
def execEncoderInputChange (c : Fin 8) (t : Fin 4) (l : Lines × Nat) (s : State) : Host.Outcome State Fault Refusal :=
  onHw s (fun h => (h.lineChange c t l.1 l.2).1)

/-- PROBE_LATCH. -/
def execProbeLatch (c : Fin 8) (t : Fin 4) (n : Fin 2) (rise : Bool) (s : State) : Host.Outcome State Fault Refusal :=
  onHw s (fun h => h.probe c t n rise)

/-- SSI_TRIGGER. -/
def execSsiTrigger (c : Fin 8) (t : Fin 4) (a : Arrival) (s : State) : Host.Outcome State Fault Refusal :=
  onHw s (fun h =>
    let x := h.arrive a (clCode c (0x028 + t)) (h.clusterRuns c)
    if x.2 then x.1.ssiStart c t else x.1)

/-- SSI_GO. -/
def execSsiGo (w : Requester) (c : Fin 8) (d : Word) (s : State) : Host.Outcome State Fault Refusal :=
  onHw s (fun h => h.directCh w (pTRK c) 0x25 (fun t h => h.trkCmdWrite c t d))

/-- SSI_FRAME_DONE. -/
def execSsiFrameDone (c : Fin 8) (t : Fin 4) (raw : Nat) (_ : Unit) (s : State) : Host.Outcome State Fault Refusal :=
  onHw s (fun h => h.ssiDone c t raw)

/-- SSI_TIMEOUT. -/
def execSsiTimeout (c : Fin 8) (t : Fin 4) (s : State) : Host.Outcome State Fault Refusal :=
  onHw s (fun h => h.ssiTimeout c t)

/-- SSI_MONOFLOP_END. -/
def execSsiMonoflopEnd (c : Fin 8) (t : Fin 4) (s : State) : Host.Outcome State Fault Refusal :=
  onHw s (fun h => h.ssiMonoEnd c t)

/-- TRACKER_ERR_CLR. -/
def execTrackerErrClr (w : Requester) (c : Fin 8) (d : Word) (s : State) : Host.Outcome State Fault Refusal :=
  onHw s (fun h => h.directCh w (pTRK c) 0x25 (fun t h => h.trkCmdWrite c t d))

/-- TRACKER_CFG_WRITE: TCFG, or SCFG. -/
def execTrackerCfgWrite (w : Requester) (c : Fin 8) (scfg : Bool) (d : Word) (s : State) :
    Host.Outcome State Fault Refusal :=
  onHw s (fun h =>
    if scfg then h.directCh w (pTRK c) 0x11 (fun t h => h.scfgWrite c t d)
    else h.directCh w (pTRK c) 0x10 (fun t h => h.tcfgWrite c t d))

/-- MODULUS_WRITE. -/
def execModulusWrite (w : Requester) (c : Fin 8) (d : Word) (s : State) : Host.Outcome State Fault Refusal :=
  onHw s (fun h => h.directCh w (pTRK c) 0x14 (fun t h => h.modulusWrite c t d))

/-- TRACKER_POS_WRITE: the write of TURNS, and the lines when they change at the committing edge. -/
def execTrackerPosWrite (w : Requester) (c : Fin 8) (d : Word) (l : Option (Lines × Nat)) (s : State) :
    Host.Outcome State Fault Refusal :=
  onHw s (fun h => h.directCh w (pTRK c) 0x13 (fun t h => h.posWrite c t w d l))

/-- SPEED_WINDOW_END. -/
def execSpeedWindowEnd (c : Fin 8) (t : Fin 4) (s : State) : Host.Outcome State Fault Refusal :=
  onHw s (fun h => h.windowEnd c t)

/-- WINDOW_SYNC. -/
def execWindowSync (c : Fin 8) (t : Fin 4) (a : Arrival) (s : State) : Host.Outcome State Fault Refusal :=
  onHw s (fun h => h.windowSync c t a)

/-- R127. Every 256 cycles between count steps. -/
def Hw.pspeedUpdate (h : Hw) (c t : Nat) : Hw :=
  let e := (h.trkSt c t).e
  if h.trkMode c t = 0 ∨ e = 0 ∨ e % 256 ≠ 0 then h else h.pspeed c t

/-- PSPEED_UPDATE. -/
def execPspeedUpdate (c : Fin 8) (t : Fin 4) (s : State) : Host.Outcome State Fault Refusal :=
  onHw s (fun h => h.pspeedUpdate c t)

/-- STANDSTILL. -/
def execStandstill (c : Fin 8) (t : Fin 4) (s : State) : Host.Outcome State Fault Refusal :=
  onHw s (fun h => h.standstill c t)

end Sys2Proof.Machine
end

