-- ==== Sys2Proof/Machine/Pwm.lean ====
section
/-! DEFINITION. PWM timebases, outputs and scorch inputs (R231 to R267). Times are fine steps on the timebase's own time:
a slope begins at its point and each point follows its predecessor by the counts of the slope. -/

namespace Sys2Proof.Machine

open Sys2Proof

/-- The three channels of timebase `t`. -/
def tbChans (t : Nat) : List Nat := [3 * t, 3 * t + 1, 3 * t + 2]

/-- A change made to each channel of a timebase. -/
def Hw.eachCh (h : Hw) (t : Nat) (g : Nat → Hw → Hw) : Hw := (tbChans t).foldl (fun h k => g k h) h

/-! ## Outputs shown -/

/-- An output switched off at time `at'`, with nothing standing for it. -/
def PwmOut.quiet (at' : Int) : PwmOut := { offAt := at' }

/-- CHSTAT and STATUS show the outputs of channel `k`. -/
def Hw.showOutputs (h : Hw) (c k : Nat) : Hw :=
  let p := pPWMCH c
  let st := h.pch c k
  let h := (h.setB p k PWM_CH_CHSTAT_H_ON st.hi.on).setB p k PWM_CH_CHSTAT_L_ON st.lo.on
  (h.setB p 0 ⟨3, k, 1⟩ st.hi.on).setB p 0 ⟨3, 12 + k, 1⟩ st.lo.on

/-- Channel `k` replaced, its copies following. -/
def Hw.putPch (h : Hw) (c k : Nat) (v : PwmCh) : Hw := (h.setPch c k v).showOutputs c k

/-! ## Counter and time -/

/-- The active period P. -/
def Hw.period (h : Hw) (c t : Nat) : Nat := h.f (pPWMTB c) t PWM_TB_PRD_ACT_COUNT

/-- The counter, and its direction (true: down). -/
def Hw.cnt (h : Hw) (c t : Nat) : Nat := h.f (pPWMTB c) t PWM_TB_TSTAT_CNT
def Hw.down (h : Hw) (c t : Nat) : Bool := h.b (pPWMTB c) t PWM_TB_TSTAT_DIR

/-- Counts since the last point. -/
def Hw.sincePoint (h : Hw) (c t : Nat) : Nat := if h.down c t then h.period c t - h.cnt c t else h.cnt c t

/-- The time of the present PWM_CLK edge. -/
def Hw.tbTime (h : Hw) (c t : Nat) : Int := (h.tb c t).slope + 64 * (h.sincePoint c t : Int)

/-- R254. The fine phase that delays every REF edge. -/
def Hw.fph (h : Hw) (c t : Nat) : Int := h.f (pPWMTB c) t PWM_TB_DASTAT_FPH

/-- IRQ_FLAG bit 8t + k of PWM_TB: 0 LOADED, 1 PAIR_SKEW, 2 LATE_WR, 3 PRD_LIM, 4 DA_SNAP, 5 DA_LOST, 6 SYNCED. -/
def Hw.tbFlag (h : Hw) (c t k : Nat) : Hw := h.irqBit (pPWMTB c) PWM_TB_IRQ_FLAGS (8 * t + k)

/-- R232. The period floor set by LWF.PWM_FMAX. -/
def Hw.prdFloor (h : Hw) : Nat :=
  let f := h.lwf 2 % 65536
  if f = 0 then 4 else max 4 ((200000 + f - 1) / f)

/-- R232. The nearest permitted period. -/
def Hw.clampPrd (h : Hw) (n : Nat) : Nat := min 8388607 (max h.prdFloor n)

/-! ## Event outputs -/

/-- R249, R251. An occurrence: `m src ch` tells whether it is what an EVSEL names; every (PRESC + 1)-th one fires.
DEDUCED, unsafe: log entry 56. -/
def Hw.tbOccur (h : Hw) (c t : Nat) (m : Nat → Nat → Bool) : Hw :=
  (List.range 8).foldl (fun h j =>
    let p := pPWMTB c
    let ch := h.f p t (PWM_TB_EVSEL_CH j) % 3
    if m (h.f p t (PWM_TB_EVSEL_SRC j)) ch then
      let st := h.tb c t
      let n := st.counts.getD j 0
      let h := h.setTb c t { st with counts := st.counts.set j (n + 1) }
      if n % (h.f p t (PWM_TB_EVSEL_PRESC j) + 1) = 0 then h.launch (clCode c (0x010 + 8 * t + j)) else h
    else h) h

/-- R251. Every occurrence count returns to 0. -/
def Hw.zeroCounts (h : Hw) (c t : Nat) : Hw := h.setTb c t { h.tb c t with counts := [0, 0, 0, 0, 0, 0, 0, 0] }

/-! ## Compares and REF -/

/-- R233. An active compare in fine steps: B for `b`, else A. -/
def Hw.cmpVal (h : Hw) (c k : Nat) (b : Bool) : Int :=
  if b then h.fs (pPWMCH c) k PWM_CH_CMPB_ACT_VALUE else h.fs (pPWMCH c) k PWM_CH_CMPA_ACT_VALUE

/-- R234. The compare of the up slope and of the down slope. -/
def Hw.upCmp (h : Hw) (c k : Nat) : Int := h.cmpVal c k false
def Hw.downCmp (h : Hw) (c k : Nat) : Int := h.cmpVal c k (h.pch c k).asym

/-- The reference level. -/
def Hw.ref (h : Hw) (c k : Nat) : Bool := h.b (pPWMCH c) k PWM_CH_CHSTAT_REF

/-- Active dead times. -/
def Hw.dtr (h : Hw) (c k : Nat) : Int := h.f (pPWMCH c) k PWM_CH_DT_ACT_DTR
def Hw.dtf (h : Hw) (c k : Nat) : Int := h.f (pPWMCH c) k PWM_CH_DT_ACT_DTF

/-- R239. A turn-on was cancelled; a turn-off was delayed. -/
def Hw.dropped (h : Hw) (c k : Nat) : Hw := (h.setF (pPWMCH c) k PWM_CH_CHSTAT_DROP 1).irqBit (pPWMCH c) PWM_CH_IRQ_DROP k
def Hw.stretched (h : Hw) (c k : Nat) : Hw :=
  (h.setF (pPWMCH c) k PWM_CH_CHSTAT_STRETCH 1).irqBit (pPWMCH c) PWM_CH_IRQ_STRETCH k

/-- R237. What a REF edge at `τ` leaves of an output that it requests off: a turn-on still due at `τ` or later is no pulse
and leaves no flag. -/
def PwmOut.requestOff (o : PwmOut) (τ : Int) : PwmOut :=
  { o with wantOn := none, wantOff := if o.on then some (o.wantOff.getD τ) else none }

/-- R239 step 2. Whether a REF edge at `τ` finds a turn-on requested before it that has not taken place. -/
def PwmOut.cutBy (o : PwmOut) (τ : Int) : Bool :=
  match o.wantOn with
  | some r => decide (r.1 < τ)
  | none => false

/-- R237. REF takes level `v` at time `τ`; unless the outputs are held, each output gets its request. -/
def Hw.setRef (h : Hw) (c t k : Nat) (v : Bool) (τ : Int) : Hw :=
  if h.ref c k = v then h
  else
    let h := h.setB (pPWMCH c) k PWM_CH_CHSTAT_REF v
    let st := { h.pch c k with refAt := τ }
    if h.tbSafe c t then h.setPch c k st
    else if v then
      let h := h.when (st.lo.cutBy τ && h.outEn c k true) (fun h => h.dropped c k)
      h.setPch c k { st with hi := { st.hi with wantOn := some (τ + h.dtr c k, h.dtr c k) }, lo := st.lo.requestOff τ }
    else
      let h := h.when (st.hi.cutBy τ && h.outEn c k false) (fun h => h.dropped c k)
      h.setPch c k { st with lo := { st.lo with wantOn := some (τ + h.dtf c k, h.dtf c k) }, hi := st.hi.requestOff τ }

/-- R260. Both outputs of a channel are taken as having turned off at `τ`, and REF calls one of them on. -/
def Hw.resumeCh (h : Hw) (c k : Nat) (τ : Int) : Hw :=
  let st := h.pch c k
  let hi := PwmOut.quiet τ
  let lo := PwmOut.quiet τ
  if h.ref c k then
    h.putPch c k { st with refAt := τ, hi := { hi with wantOn := some (τ + h.dtr c k, h.dtr c k) }, lo := lo }
  else h.putPch c k { st with refAt := τ, hi := hi, lo := { lo with wantOn := some (τ + h.dtf c k, h.dtf c k) } }

/-- R258. Everything in progress is abandoned and the outputs are safe. -/
def Hw.silence (h : Hw) (c t : Nat) : Hw :=
  h.eachCh t (fun k h =>
    h.putPch c k { h.pch c k with hi := PwmOut.quiet (h.tbTime c t), lo := PwmOut.quiet (h.tbTime c t) })

/-- R261. A forced safe state begins in cluster `c`. -/
def Hw.forceCluster (h : Hw) (c : Nat) : Hw :=
  [0, 1, 2, 3].foldl (fun h t =>
    if h.b (pPWMTB c) t PWM_TB_TBCFG_EN then (h.silence c t).setTb c t { h.tb c t with held := true } else h) h

/-! ## Scorch -/

/-- R256. The level of a scorch source; `none` for a code that selects none. -/
def Hw.scorchLevel (h : Hw) (c code : Nat) : Option Bool :=
  if 1 ≤ code ∧ code ≤ 8 then some (h.lintOut c (code - 1))
  else if 0x10 ≤ code ∧ code ≤ 0x2F then some (bitOf (h.f pPIN 0 PIN_PEV_LVL_LEVEL) (code - 0x10))
  else if code = 0x30 then some h.safeNLow
  else if code = 0x31 then some (h.f (pDIC c) 0 DIC_STATUS_LOCKED != 0)
  else if code = 0x32 then some (h.b (pCWDT c) 0 WDT_STATUS_EXPIRED)
  else if code = 0x33 then some (h.b pDWDT 0 WDT_STATUS_EXPIRED)
  else if 0x34 ≤ code ∧ code ≤ 0x37 then some (h.b (pSCORCH c) (code - 0x34) SCORCH_TRSTAT_TRIP_ACTIVE)
  else none

/-- R256. A field of SSELk or TRCFG as in force: a write acts from the next edge on. -/
def Hw.scorchF (h : Hw) (c t : Nat) (fl : Fld) : Nat :=
  bitsOf ((h.dueFind (fun e =>
    match e with
    | .scorch c' off t' w => if c' = c ∧ off = fl.off ∧ t' = t then some w else none
    | _ => none)).getD (h.reg (pSCORCH c) fl.off t)).toNat fl.lo fl.w

/-- R256. Whether input `k` of timebase `t` is active. -/
def Hw.scorchActive (h : Hw) (c t k : Nat) : Bool :=
  match h.scorchLevel c (h.scorchF c t (SCORCH_SSEL_CODE k)) with
  | some v => v != (h.scorchF c t (SCORCH_SSEL_INV k) != 0)
  | none => false

/-- TRSTAT.ACTIVE: bit k for input k. -/
def Hw.scorchMask (h : Hw) (c t : Nat) : Nat :=
  (List.range 8).foldl (fun n k => if h.scorchActive c t k then n + 2 ^ k else n) 0

/-- R257. The scorch inputs are enabled. -/
def Hw.scorchOn (h : Hw) (c t : Nat) : Bool := h.scorchF c t SCORCH_TRCFG_EN != 0

/-- R257. An enabled source is active. -/
def Hw.scorchAny (h : Hw) (c t : Nat) : Bool := h.scorchOn c t && h.scorchMask c t != 0

/-- R256. An SSEL holds an invalid code. -/
def Hw.scorchBad (h : Hw) (c t : Nat) : Bool :=
  (List.range 8).any (fun k =>
    let code := h.scorchF c t (SCORCH_SSEL_CODE k)
    code != 0 && (h.scorchLevel c code).isNone)

/-- R259. While a trip is active, an edge at which an enabled source is active is noted.
DEDUCED, unsafe: log entry 55. -/
def Hw.scorchSeen (h : Hw) (c t : Nat) : Hw :=
  if h.b (pSCORCH c) t SCORCH_TRSTAT_TRIP_ACTIVE && h.scorchAny c t then h.setTb c t { h.tb c t with srcAt := some h.now } else h

/-- R259. Every enabled source is inactive at this edge and was at the edge before. -/
def Hw.scorchGone (h : Hw) (c t : Nat) : Bool := !h.scorchAny c t && (h.tb c t).srcAt.all (fun n => decide (n + 1 < h.now))

/-- TRIP_ACTIVE and its copy. -/
def Hw.setTrip (h : Hw) (c t : Nat) (v : Bool) : Hw :=
  (h.setB (pSCORCH c) t SCORCH_TRSTAT_TRIP_ACTIVE v).setB (pSCORCH c) 0 ⟨3, t, 1⟩ v

/-- R257. A trip of timebase `t` that has begun and waits to be registered: whether a SWTRIP is among its beginnings. -/
def Hw.tripDue (h : Hw) (c t : Nat) : Option Bool :=
  h.dueFind (fun e => match e with | .trip c' t' sw => if c' = c ∧ t' = t then some sw else none | _ => none)

/-- R257, R258. A trip of timebase `t` begins: outputs safe and everything abandoned at once, registered at the next edge. A
further beginning before that edge joins it. -/
def Hw.trip (h : Hw) (c t : Nat) (sw : Bool) : Hw :=
  let h := h.when (sw || h.scorchAny c t) (fun h => h.setTb c t { h.tb c t with srcAt := some h.now })
  match h.tripDue c t with
  | some was =>
    { h with due := h.due.map (fun e => if e.2 = .trip c t was then (e.1, .trip c t (was || sw)) else e) }
  | none =>
    let h := (h.silence c t).setTb c t { h.tb c t with held := true }
    (h.setF (pSCORCH c) t SCORCH_TRSTAT_OUT_SAFE 1).dueIn 1 (.trip c t sw)

/-- R257. The first edge after a trip began: it is registered with the sources active now. -/
def Hw.tripRegister (h : Hw) (c t : Nat) (sw : Bool) : Hw :=
  let p := pSCORCH c
  let h := (h.setTrip c t true).setF p t SCORCH_TRSTAT_FIRST (h.scorchMask c t)
  let h := (h.setB p t SCORCH_TRSTAT_SW sw).incF p t SCORCH_TRIP_CNT_COUNT
  (h.irqBit p SCORCH_IRQ_TRIP t).tbOccur c t (fun src _ => src == 11)

/-- R257. Whether a trip may begin: TBCFG.EN is 1 and TRIP_ACTIVE is 0. -/
def Hw.mayTrip (h : Hw) (c t : Nat) : Bool :=
  h.tbRuns c t && !h.b (pSCORCH c) t SCORCH_TRSTAT_TRIP_ACTIVE

/-- R257. An enabled source becomes active. -/
def Hw.scorchSource (h : Hw) (c t k : Nat) : Hw :=
  if h.mayTrip c t && h.scorchOn c t && h.scorchActive c t k then h.trip c t false else h

/-- R257, R259. A write of TRCMD: TRIP_CLR meets the sources, SWTRIP among them, as they are at the edge. A SWTRIP is a source
active at this edge, one that joins a trip in force too. -/
def Hw.trcmdWrite (h : Hw) (c t : Nat) (d : Word) : Hw :=
  let p := pSCORCH c
  let sw : Bool := bitOf d.toNat 1 && h.tbRuns c t
  let h := if bitOf d.toNat 0 && h.b p t SCORCH_TRSTAT_TRIP_ACTIVE then
      if h.scorchAny c t || sw then (h.setF p t SCORCH_TRSTAT_CLR_REFUSED 1).irqBit p SCORCH_IRQ_CLR_REF t
      else h.setTrip c t false
    else h
  let h := h.when sw (fun h => h.setTb c t { h.tb c t with srcAt := some h.now })
  if sw && h.mayTrip c t then h.trip c t true else h

/-- R256. A write of SSELk or TRCFG; what stands in force stays so until the next edge. -/
def Hw.scorchCfgWrite (h : Hw) (c off t : Nat) (d : Word) : Hw :=
  let was := h.reg (pSCORCH c) off t
  let waits := (h.dueFind (fun e =>
    match e with | .scorch c' off' t' _ => if c' = c ∧ off' = off ∧ t' = t then some () else none | _ => none)).isSome
  (h.plainWrite (pSCORCH c) off t d).when (!waits) (fun h => h.dueIn 1 (.scorch c off t was))

/-- R256, R257. The edge at which a write of SSELk or TRCFG takes effect. -/
def Hw.scorchApply (h : Hw) (c t : Nat) : Hw :=
  let h := h.setB (pSCORCH c) t SCORCH_TRSTAT_CFG_ERR (h.scorchBad c t)
  if h.mayTrip c t && h.scorchAny c t then h.trip c t false else h

/-- Effect of an accepted write to SCORCH. -/
def Hw.scorchWrite (h : Hw) (c off t : Nat) (d : Word) : Hw :=
  if 0x10 ≤ off ∧ off ≤ 0x18 then h.scorchCfgWrite c off t d
  else if off = 0x1B then h.trcmdWrite c t d
  else h.plainWrite (pSCORCH c) off t d

/-! ## Loading -/

/-- R232. The period shadow transfers. -/
def Hw.loadPrd (h : Hw) (c t : Nat) : Hw :=
  let n := h.f (pPWMTB c) t PWM_TB_PRD_COUNT
  let h := (h.setF (pPWMTB c) t PWM_TB_PRD_ACT_COUNT (h.clampPrd n)).setF (pPWMTB c) t PWM_TB_TSTAT_PEND_PRD 0
  if h.clampPrd n = n then h else h.tbFlag c t 3

/-- R241. The shadow at one offset of channel `k` transfers: CMPA, CMPB, DTR or DTF. -/
def Hw.loadCh (h : Hw) (c k off : Nat) : Hw :=
  let p := pPWMCH c
  match off with
  | 0x11 => (h.setF p k PWM_CH_CMPA_ACT_VALUE (bitsOf (h.reg p 0x11 k).toNat 10 30)).setF p k PWM_CH_CHSTAT_PEND_A 0
  | 0x12 => (h.setF p k PWM_CH_CMPB_ACT_VALUE (bitsOf (h.reg p 0x12 k).toNat 10 30)).setF p k PWM_CH_CHSTAT_PEND_B 0
  | 0x15 => (h.setF p k PWM_CH_DT_ACT_DTR (h.f p k PWM_CH_DTR_FINE)).setF p k PWM_CH_CHSTAT_PEND_DTR 0
  | 0x16 => (h.setF p k PWM_CH_DT_ACT_DTF (h.f p k PWM_CH_DTF_FINE)).setF p k PWM_CH_CHSTAT_PEND_DTF 0
  | _ => h

/-- R245. The pending bit of a shadow of channel `k`. -/
def pendFld (off : Nat) : Fld :=
  match off with
  | 0x11 => PWM_CH_CHSTAT_PEND_A
  | 0x12 => PWM_CH_CHSTAT_PEND_B
  | 0x15 => PWM_CH_CHSTAT_PEND_DTR
  | _ => PWM_CH_CHSTAT_PEND_DTF

/-- The shadowed registers of a channel. -/
def shadowOffs : List Nat := [0x11, 0x12, 0x15, 0x16]

/-- R241. Every shadow of the timebase transfers. -/
def Hw.loadAll (h : Hw) (c t : Nat) : Hw :=
  (h.loadPrd c t).eachCh t (fun k h => shadowOffs.foldl (fun h off => h.loadCh c k off) h)

/-- R245. Whether any shadow is pending. -/
def Hw.anyPending (h : Hw) (c t : Nat) : Bool :=
  h.b (pPWMTB c) t PWM_TB_TSTAT_PEND_PRD ||
    (tbChans t).any (fun k => shadowOffs.any (fun off => h.b (pPWMCH c) k (pendFld off)))

/-- R245. Every pending shadow transfers. -/
def Hw.loadPending (h : Hw) (c t : Nat) : Hw :=
  (h.when (h.b (pPWMTB c) t PWM_TB_TSTAT_PEND_PRD) (fun h => h.loadPrd c t)).eachCh t (fun k h =>
    shadowOffs.foldl (fun h off => if h.b (pPWMCH c) k (pendFld off) then h.loadCh c k off else h) h)

/-- R246. Every pending bit of the timebase set or cleared. -/
def Hw.pendAll (h : Hw) (c t : Nat) (v : Bool) : Hw :=
  (h.setB (pPWMTB c) t PWM_TB_TSTAT_PEND_PRD v).eachCh t (fun k h =>
    shadowOffs.foldl (fun h off => h.setB (pPWMCH c) k (pendFld off) v) h)

/-- CSTATE and its copy. -/
def Hw.setCommitted (h : Hw) (c t : Nat) (v : Bool) : Hw :=
  (h.setB (pPWMTB c) t PWM_TB_TSTAT_CSTATE v).setB (pPWMTB c) 0 ⟨3, 4 + t, 1⟩ v

/-- R242. CHCFG and MINP take effect. -/
def Hw.applyCfg (h : Hw) (c t : Nat) : Hw :=
  h.eachCh t (fun k h =>
    let p := pPWMCH c
    h.setPch c k { h.pch c k with
      asym := h.b p k PWM_CH_CHCFG_ASYM, stretch := h.b p k PWM_CH_CHCFG_MPMODE, minp := h.f p k PWM_CH_MINP_FINE })

/-- R247. An active compare exceeds the active period. -/
def Hw.pairSkew (h : Hw) (c t : Nat) : Bool :=
  (tbChans t).any (fun k =>
    decide (h.cmpVal c k false > 64 * (h.period c t : Int)) || decide (h.cmpVal c k true > 64 * (h.period c t : Int)))

/-- R244, R245. LOADED and its event source. -/
def Hw.loaded (h : Hw) (c t : Nat) : Hw := (h.tbFlag c t 0).tbOccur c t (fun src _ => src == 10)

/-- R246. LMODE as in force: a change acts from the next edge on. -/
def Hw.lmode (h : Hw) (c t : Nat) : Bool :=
  (h.dueFind (fun e => match e with | .lmode c' t' w => if c' = c ∧ t' = t then some w else none | _ => none)).getD
    (h.b (pPWMTB c) t PWM_TB_TBCFG_LMODE)

/-- R244. A COMMIT sampled at an edge before this one stands. -/
def Hw.committed (h : Hw) (c t : Nat) : Bool :=
  h.b (pPWMTB c) t PWM_TB_TSTAT_CSTATE && (h.tb c t).commitAt != some h.now

/-- R242 to R247, R259. A load event: what transfers, PAIR_SKEW, and an AUTO trip's clearing.
DEDUCED, unsafe: log entry 52. -/
def Hw.loadEvent (h : Hw) (c t : Nat) : Hw :=
  let p := pPWMTB c
  let h := h.applyCfg c t
  let h := if h.lmode c t then (if h.anyPending c t then (h.loadPending c t).loaded c t else h)
    else if h.committed c t then ((h.loadAll c t).setCommitted c t false).loaded c t
    else h
  let h := if h.pairSkew c t then (h.setF p t PWM_TB_TSTAT_PAIR_SKEW 1).tbFlag c t 1 else h
  if h.scorchF c t SCORCH_TRCFG_MODE != 0 && h.b (pSCORCH c) t SCORCH_TRSTAT_TRIP_ACTIVE && h.scorchGone c t then
    h.setTrip c t false
  else h

/-- R260, R261. Outputs resume at a load event once neither a trip nor a forced safe state holds them. -/
def Hw.resume (h : Hw) (c t : Nat) (τ : Int) : Hw :=
  if (h.tb c t).held && !h.b (pSCORCH c) t SCORCH_TRSTAT_TRIP_ACTIVE && (h.tripDue c t).isNone && !h.clusterSafe c then
    let h := (h.setTb c t { h.tb c t with held := false }).setF (pSCORCH c) t SCORCH_TRSTAT_OUT_SAFE 0
    h.eachCh t (fun k h => h.resumeCh c k τ)
  else h

/-- Whether a zero point, or a period point, is a load event (R241; LOAD_AT 0 acts as 1). -/
def Hw.loadsAt (h : Hw) (c t : Nat) (period : Bool) : Bool :=
  let l := h.f (pPWMTB c) t PWM_TB_TBCFG_LOAD_AT
  if period then l ≥ 2 else l != 2

/-! ## Points -/

/-- R250. A new slope: no crossing has occurred on it. -/
def Hw.newSlope (h : Hw) (c t : Nat) : Hw :=
  h.eachCh t (fun k h => h.setPch c k { h.pch c k with crossA := false, crossB := false })

/-- R231, R234, R241. A point at time `at'`: counter and direction, the load event, REF, the occurrence, resumption. At a
shortened zero point the counter reads 1, and the slope began one count before (R254). -/
def Hw.point (h : Hw) (c t : Nat) (period : Bool) (at' : Int) : Hw :=
  let p := pPWMTB c
  let low := if (h.tb c t).adj < 0 then 1 else 0
  let h := h.setTb c t { h.tb c t with slope := at', adj := if period then (h.tb c t).adj else 0 }
  let h := if h.loadsAt c t period then h.loadEvent c t else h
  let h := (h.setF p t PWM_TB_TSTAT_CNT (if period then h.period c t else low)).setB p t PWM_TB_TSTAT_DIR period
  let h := h.newSlope c t
  let τ := at' + h.fph c t
  let h := h.eachCh t (fun k h =>
    h.setRef c t k (if period then decide (h.downCmp c k ≥ 64 * (h.period c t : Int)) else decide (h.upCmp c k > 0)) τ)
  let h := if h.loadsAt c t period then h.resume c t (h.tbTime c t) else h
  h.tbOccur c t (fun src _ => src == 3 || src == (if period then 2 else 1))

/-- The time of the point that ends the running slope; R254 moves a zero point by a count. -/
def Hw.slopeEnd (h : Hw) (c t : Nat) : Int :=
  (h.tb c t).slope + 64 * (h.period c t : Int) + (if h.down c t then (h.tb c t).adj else 0)

/-! ## Placing the counter: SYNC and snap -/

/-- R234. The REF level an undisturbed timebase has at position `x` counts.
DEDUCED, unsafe: log entry 53. -/
def Hw.refAtPos (h : Hw) (c k : Nat) (down : Bool) (x : Nat) : Bool :=
  if down then decide (64 * (x : Int) ≤ h.downCmp c k) else decide (64 * (x : Int) < h.upCmp c k)

/-- R252. The counter is set to `x`, counting down for `down`, at time `at'`; REF is re-formed there, and the compares
already passed have no crossing left on this slope. -/
def Hw.place (h : Hw) (c t x : Nat) (down : Bool) (at' : Int) : Hw :=
  let p := pPWMTB c
  let since : Nat := if down then h.period c t - x else x
  let h := h.setTb c t { h.tb c t with slope := at' - 64 * (since : Int), adj := 0 }
  let h := (h.setF p t PWM_TB_TSTAT_CNT x).setB p t PWM_TB_TSTAT_DIR down
  h.eachCh t (fun k h =>
    let gone (v : Int) : Bool := if down then decide (v ≥ 64 * (x : Int)) else decide (v ≤ 64 * (x : Int))
    let h := h.setPch c k { h.pch c k with crossA := gone (h.cmpVal c k false), crossB := gone (h.cmpVal c k true) }
    h.setRef c t k (h.refAtPos c k down x) (at' + h.fph c t))

/-- R252. A SYNC is sampled; the next edge applies it. -/
def Hw.syncSample (h : Hw) (c t : Nat) : Hw :=
  let p := pPWMTB c
  if h.tbRuns c t && h.b p t PWM_TB_TBCFG_SYNC_EN && !h.b p t PWM_TB_TBCFG_DALIGN then h.dueIn 1 (.sync c t) else h

/-- R252. The edge after the sampling edge: the counter takes SYNCVAL. -/
def Hw.syncApply (h : Hw) (c t : Nat) : Hw :=
  let p := pPWMTB c
  let x := min (h.f p t PWM_TB_SYNCVAL_CNT) (h.period c t)
  let at' := h.tbTime c t + 64
  let h := (h.zeroCounts c t).setTb c t { (h.zeroCounts c t).tb c t with adj := 0 }
  let h := if x = 0 then h.point c t false at'
    else if x = h.period c t then h.point c t true at'
    else h.place c t x (h.b p t PWM_TB_SYNCVAL_DIR) at'
  (h.tbFlag c t 6).tbOccur c t (fun src _ => src == 12)

/-- R253. The signed difference of a zero point at domain time `d` fine steps from the nearest intended one. -/
def Hw.alignErr (h : Hw) (c t d : Nat) : Int :=
  let tc : Int := 128 * (h.period c t : Int)
  let e := ((d : Int) + h.fph c t - h.f (pPWMTB c) t PWM_TB_DPHASE_PH) % tc
  if 2 * e > tc then e - tc else e

/-- R255. The snap, at the edge after the zero point: CNT, DIR and FPH an aligned timebase has at this edge. -/
def Hw.snap (h : Hw) (c t : Nat) : Hw :=
  let p := pPWMTB c
  let n := h.period c t
  let φ : Nat := (((h.domTime : Int) - h.f p t PWM_TB_DPHASE_PH) % (128 * (n : Int))).toNat
  let k := (φ + 63) / 64
  let at' := h.tbTime c t + 64
  let h := h.setF p t PWM_TB_DASTAT_FPH (64 * k - φ)
  let h := h.zeroCounts c t
  let h := if k < n then h.place c t k false at' else if k < 2 * n then h.place c t (2 * n - k) true at'
    else h.place c t 0 false at'
  (h.tbFlag c t 4).tbOccur c t (fun src _ => src == 12)

/-- R254. One slew step; the next zero point comes one count later or earlier when the fine phase wraps.
DEDUCED, unsafe: log entry 163. -/
def Hw.slew (h : Hw) (c t : Nat) (err : Int) : Hw :=
  let p := pPWMTB c
  let step : Int := max 1 (h.f p t PWM_TB_DACFG_STEP : Int)
  let f := h.fph c t - max (-step) (min step err)
  if f ≥ 64 then (h.setFS p t PWM_TB_DASTAT_FPH (f - 64)).setTb c t { h.tb c t with adj := 64 }
  else if f < 0 then (h.setFS p t PWM_TB_DASTAT_FPH (f + 64)).setTb c t { h.tb c t with adj := -64 }
  else h.setFS p t PWM_TB_DASTAT_FPH f

/-- R255. DA_LOST shows that domain time is not valid while the timebase is aligned. -/
def Hw.showLost (h : Hw) (c t : Nat) : Hw :=
  let p := pPWMTB c
  let lost : Bool := h.b p t PWM_TB_TBCFG_DALIGN && !h.b pDTIME 0 DTIME_STATUS_VALID
  if h.b p t PWM_TB_TSTAT_DA_LOST = lost then h
  else (h.setB p t PWM_TB_TSTAT_DA_LOST lost).when lost (fun h => h.tbFlag c t 5)

/-- R255. Domain time has become valid, or not valid: every timebase shows it. -/
def Hw.showValid (h : Hw) : Hw :=
  (List.range 8).foldl (fun h c => (List.range 4).foldl (fun h t => h.showLost c t) h) h

/-- R253 to R255. The measurement of an aligned timebase at a zero point: the edge's domain time and FPH. -/
def Hw.align (h : Hw) (c t : Nat) : Hw :=
  let p := pPWMTB c
  if !h.b p t PWM_TB_TBCFG_DALIGN || !h.b pDTIME 0 DTIME_STATUS_VALID then h
  else
    let err := h.alignErr c t h.domTime
    let h := h.setFS p t PWM_TB_DASTAT_ERR err
    let h := h.setB p t PWM_TB_TSTAT_DA_ALIGNED (err.natAbs ≤ 2)
    if err.natAbs ≤ h.f p t PWM_TB_DACFG_SNAPLIM then h.slew c t err else h.dueIn 1 (.snap c t)

/-- R231. The counter reaches 0 counting down. -/
def Hw.zeroPoint (h : Hw) (c t : Nat) : Hw :=
  if h.tbRuns c t && h.down c t then (h.point c t false (h.slopeEnd c t)).align c t else h

/-- R231. The counter reaches P counting up. -/
def Hw.periodPoint (h : Hw) (c t : Nat) : Hw :=
  if h.tbRuns c t && !h.down c t then h.point c t true (h.slopeEnd c t) else h

/-! ## Crossings -/

/-- R235, R250. Compare A or B of channel `k` is crossed at time `τ` of REF. -/
def Hw.cross (h : Hw) (c t k : Nat) (b : Bool) (τ : Int) : Hw :=
  let down := h.down c t
  let st := h.pch c k
  let h := h.setPch c k (if b then { st with crossB := true } else { st with crossA := true })
  let own : Bool := if down then st.asym == b else !b
  let h := if own then h.setRef c t k down τ else h
  let base := if b then 7 else 4
  h.tbOccur c t (fun src ch => ch == k % 3 && (src == base + 2 || src == (if down then base + 1 else base)))

/-- R250. Whether a compare can still be crossed on this slope. -/
def Hw.uncrossed (h : Hw) (c t k : Nat) (b : Bool) : Bool :=
  let v := h.cmpVal c k b
  decide (0 < v) && decide (v < 64 * (h.period c t : Int)) &&
    !(if b then (h.pch c k).crossB else (h.pch c k).crossA)

/-- COMPARE_CROSSING: the position reaches the compare; the counter stands at the first edge at or after it. -/
def Hw.compareCrossing (h : Hw) (c t k : Nat) (b : Bool) : Hw :=
  let p := pPWMTB c
  if h.tbRuns c t && h.uncrossed c t k b then
    let v := h.cmpVal c k b
    let dist : Int := if h.down c t then 64 * (h.period c t : Int) - v else v
    let τ := (h.tb c t).slope + dist + h.fph c t
    let h := if h.down c t then h.setF p t PWM_TB_TSTAT_CNT (min (h.cnt c t) (v / 64).toNat)
      else h.setF p t PWM_TB_TSTAT_CNT (max (h.cnt c t) ((v + 63) / 64).toNat)
    h.cross c t k b τ
  else h

/-- R236, R250, R254. After a change of an active compare at the present edge: a crossing that has moved to or before it
happens here, and REF changes, FPH later, when the slope still permits. -/
def Hw.recross (h : Hw) (c t k : Nat) (b : Bool) : Hw :=
  if !h.tbRuns c t then h
  else
    let v := h.cmpVal c k b
    let down := h.down c t
    let x : Int := 64 * (h.cnt c t : Int)
    let reached : Bool := if down then decide (v ≥ x) else decide (v ≤ x)
    let own : Bool := if down then (h.pch c k).asym == b else !b
    if !reached then h
    else if h.uncrossed c t k b then h.cross c t k b (h.tbTime c t + h.fph c t)
    else if own then h.setRef c t k down (h.tbTime c t + h.fph c t)
    else h

/-! ## Outputs -/

/-- R239. M in fine steps. -/
def PwmCh.m (st : PwmCh) : Int := max 64 (st.minp : Int)

/-- R237, R239. When REF next ends the level it has now, from the active compares as if none changed; `none` when it
never does. -/
def Hw.refEnds (h : Hw) (c t k : Nat) : Option Int :=
  let n : Int := 64 * (h.period c t : Int)
  let s := (h.tb c t).slope + h.fph c t
  let z := (h.tb c t).adj
  let up := h.upCmp c k
  let dn := h.downCmp c k
  match h.down c t, h.ref c k with
  | false, true => if up < n then some (s + max 0 up) else if dn < n then some (s + n) else none
  | false, false => if dn ≥ n then some (s + n) else if dn > 0 then some (s + 2 * n - dn)
      else if up > 0 then some (s + 2 * n + z) else none
  | true, false => if dn > 0 then some (s + n - dn) else if up > 0 then some (s + n + z) else none
  | true, true => if up ≤ 0 then some (s + n + z) else if up < n then some (s + n + z + up)
      else if dn < n then some (s + 2 * n + z) else none

/-- R238, R239. An output turns on, at the earliest time the dead time and the minimum off-time permit, or its turn-on is
cancelled. -/
def Hw.turnOn (h : Hw) (c t k : Nat) (low : Bool) : Hw :=
  let st := h.pch c k
  let own := if low then st.lo else st.hi
  let other := if low then st.hi else st.lo
  let put (o : PwmOut) (h : Hw) : Hw := h.putPch c k (if low then { st with lo := o } else { st with hi := o })
  match own.wantOn with
  | none => h
  | some r =>
    if !h.tbRuns c t || h.tbSafe c t || !h.outEn c k low || own.on || other.on then h
    else
      let at' := max r.1 (max (other.offAt + r.2) (own.offAt + st.m))
      let cancel : Bool := match h.refEnds c t k with
        | none => false
        | some e => decide (e ≤ at') || (decide (e - at' < st.m) && !st.stretch)
      if cancel then (put { own with wantOn := none } h).dropped c k
      else put { own with on := true, onAt := at', wantOn := none, wantOff := none } h

/-- R239 step 3. An output turns off at the later of its requested turn-off and its minimum on-time. -/
def Hw.turnOff (h : Hw) (c t k : Nat) (low : Bool) : Hw :=
  let st := h.pch c k
  let own := if low then st.lo else st.hi
  match own.wantOff with
  | none => h
  | some r =>
    if !h.tbRuns c t || !own.on then h
    else
      let at' := max r (own.onAt + st.m)
      let o : PwmOut := { own with on := false, offAt := at', wantOff := none }
      let h := h.putPch c k (if low then { st with lo := o } else { st with hi := o })
      if at' > r then h.stretched c k else h

/-- R240. What a write of OCFG leaves of an output: an enabled one counts as just turned off, its standing request kept. -/
def PwmOut.enableChange (o : PwmOut) (was now : Bool) (calls : Bool) (τ refAt dt : Int) : PwmOut :=
  if now && !was then { offAt := τ, wantOn := if calls then some (refAt + dt, dt) else none }
  else if !now && was then PwmOut.quiet τ
  else o

/-- R240. A write of OCFG; what stands in force stays so until the next edge. -/
def Hw.ocfgWrite (h : Hw) (c k : Nat) (d : Word) : Hw :=
  let was := h.reg (pPWMCH c) 0x18 k
  let waits := (h.dueFind (fun e =>
    match e with | .ocfg c' k' _ => if c' = c ∧ k' = k then some () else none | _ => none)).isSome
  (h.plainWrite (pPWMCH c) 0x18 k d).when (!waits) (fun h => h.dueIn 1 (.ocfg c k was))

/-- R240. The edge at which a write of OCFG takes effect, in place of `was`. -/
def Hw.ocfgApply (h : Hw) (c k : Nat) (was : Word) : Hw :=
  let t := k / 3
  let wasH : Bool := bitsOf was.toNat PWM_CH_OCFG_H_EN.lo 1 != 0
  let wasL : Bool := bitsOf was.toNat PWM_CH_OCFG_L_EN.lo 1 != 0
  let st := h.pch c k
  let live : Bool := h.tbRuns c t && !h.tbSafe c t
  let τ := h.tbTime c t
  h.putPch c k { st with
    hi := st.hi.enableChange wasH (h.outEn c k false) (live && h.ref c k) τ st.refAt (h.dtr c k)
    lo := st.lo.enableChange wasL (h.outEn c k true) (live && !h.ref c k) τ st.refAt (h.dtf c k) }

/-! ## Starting and stopping -/

/-- R231, R241, R257. EN becomes 1.
DEDUCED, unsafe: log entry 54.
DEDUCED, unsafe: log entry 164. -/
def Hw.tbStart (h : Hw) (c t : Nat) : Hw :=
  let p := pPWMTB c
  let τ := h.tbTime c t
  let h := (h.setF p t PWM_TB_TBCFG_EN 1).setF p 0 ⟨3, t, 1⟩ 1
  let h := ((h.zeroCounts c t).loadAll c t).setCommitted c t false
  let h := h.setTb c t { h.tb c t with slope := τ, adj := 0 }
  let h := (h.setF p t PWM_TB_TSTAT_CNT 0).setF p t PWM_TB_TSTAT_DIR 0
  let h := h.eachCh t (fun k h => h.setB (pPWMCH c) k PWM_CH_CHSTAT_REF (decide (h.upCmp c k > 0)))
  let h := h.when (h.clusterSafe c) (fun h => h.setTb c t { h.tb c t with held := true })
  let h := if h.mayTrip c t && h.scorchAny c t then h.trip c t false else h
  let h := if (h.tb c t).held then h else h.eachCh t (fun k h => h.resumeCh c k τ)
  (h.point c t false τ).align c t

/-- R231. EN becomes 0: counter, direction and REF hold, the outputs are safe. -/
def Hw.tbStop (h : Hw) (c t : Nat) : Hw :=
  let p := pPWMTB c
  ((h.setF p t PWM_TB_TBCFG_EN 0).setF p 0 ⟨3, t, 1⟩ 0).silence c t

/-- R231. EN of a timebase takes a value. -/
def Hw.tbSetEn (h : Hw) (c t : Nat) (v : Bool) : Hw :=
  if h.b (pPWMTB c) t PWM_TB_TBCFG_EN = v then h else if v then h.tbStart c t else h.tbStop c t

/-- R262. A write of CTRL: STOP acts where one write sets both bits. -/
def Hw.tbCtrlWrite (h : Hw) (c : Nat) (d : Word) : Hw :=
  [0, 1, 2, 3].foldl (fun h t =>
    if bitOf d.toNat (4 + t) then h.tbSetEn c t false
    else if bitOf d.toNat t then h.tbSetEn c t true
    else h) h

/-- R246. A write of TBCFG: a change of LMODE waits for the next edge, EN starts or stops the timebase. -/
def Hw.tbcfgWrite (h : Hw) (c t : Nat) (d : Word) : Hw :=
  let p := pPWMTB c
  let en := h.b p t PWM_TB_TBCFG_EN
  let mode := h.lmode c t
  let h := (h.plainWrite p 0x10 t d).setB p t PWM_TB_TBCFG_EN en
  let h := h.when (h.lmode c t != mode) (fun h => h.dueIn 1 (.lmode c t mode))
  (h.showLost c t).tbSetEn c t (bitOf d.toNat 0)

/-- R246. The edge at which a write of LMODE takes effect, in place of `was`. -/
def Hw.lmodeApply (h : Hw) (c t : Nat) (was : Bool) : Hw :=
  if h.lmode c t = was then h else (h.setCommitted c t false).pendAll c t (h.lmode c t)

/-- R244. A COMMIT is sampled at this edge; it joins one that is pending. -/
def Hw.commit (h : Hw) (c t : Nat) : Hw :=
  if !h.clusterRuns c || h.lmode c t || h.b (pPWMTB c) t PWM_TB_TSTAT_CSTATE then h
  else (h.setTb c t { h.tb c t with commitAt := some h.now }).setCommitted c t true

/-- A write of CMD. -/
def Hw.tbCmdWrite (h : Hw) (c t : Nat) (d : Word) : Hw :=
  (h.when (bitOf d.toNat 0) (fun h => h.commit c t)).when (bitOf d.toNat 1) (fun h => h.syncSample c t)

/-- R244, R245. What a landing shadow write of timebase `t` marks: its pending bit in INDEPENDENT mode; LATE_WR for a
page write while COMMITTED. -/
def Hw.shadowLands (h : Hw) (c t : Nat) (pend : Hw → Hw) (page : Bool) : Hw :=
  let p := pPWMTB c
  if h.lmode c t then pend h
  else if page && h.b p t PWM_TB_TSTAT_CSTATE then (h.setF p t PWM_TB_TSTAT_LATE_WR 1).tbFlag c t 2
  else h

/-- Effect of an accepted write to PWM_TB. -/
def Hw.pwmTbWrite (h : Hw) (c off t : Nat) (d : Word) : Hw :=
  let p := pPWMTB c
  if off = 2 then h.tbCtrlWrite c d
  else if off = 0x10 then h.tbcfgWrite c t d
  else if off = 0x11 then (h.plainWrite p off t d).shadowLands c t (fun h => h.setF p t PWM_TB_TSTAT_PEND_PRD 1) true
  else if 0x18 ≤ off ∧ off ≤ 0x1F then
    let h := h.plainWrite p off t d
    h.setTb c t { h.tb c t with counts := (h.tb c t).counts.set (off - 0x18) 0 }
  else if off = 0x20 then h.tbCmdWrite c t d
  else h.plainWrite p off t d

/-- R205. A slot's word has landed in the compare at `off` of channel `k` at this edge. -/
def Hw.slotLanded (h : Hw) (c k off : Nat) : Bool := h.due.any (fun e => e.2 == .landed c k off)

/-- Effect of an accepted write to PWM_CH. A slot's word that lands at the same edge stands (R205). -/
def Hw.pwmChWrite (h : Hw) (c off k : Nat) (d : Word) : Hw :=
  let p := pPWMCH c
  if shadowOffs.contains off then
    (if h.slotLanded c k off then h else h.plainWrite p off k d).shadowLands c (k / 3) (fun h => h.setF p k (pendFld off) 1) true
  else if off = 0x18 then h.ocfgWrite c k d
  else h.plainWrite p off k d

/-- R204, R205, R248. A Loop Engine write of CMPA (0x11) or CMPB (0x12) lands: IMMEDIATE writes the active and the shadow
compare together and acts under R236; SYNC is a shadow write that never sets LATE_WR. -/
def Hw.loopCompare (h : Hw) (c k off : Nat) (d : Word) (immediate : Bool) : Hw :=
  let p := pPWMCH c
  let t := k / 3
  let v := bitsOf d.toNat 10 30
  let h := (h.setReg p off k (w40 (v * 1024))).dueIn 1 (.landed c k off)
  if immediate then
    (h.setF p k (if off = 0x11 then PWM_CH_CMPA_ACT_VALUE else PWM_CH_CMPB_ACT_VALUE) v).recross c t k (off != 0x11)
  else h.shadowLands c t (fun h => h.setF p k (pendFld off) 1) false

/-! ## The edge -/

/-- R231, R250. A counter moves on by one, unless the edge is a point of its own command, a turn or a compare crossed, or a
SYNC or a snap places it. A lengthened zero point reads 0 an edge before (R254). -/
def Hw.pwmCount (h : Hw) (c t : Nat) : Hw :=
  if !h.tbRuns c t || h.due.any (fun e => e.2 == .sync c t || e.2 == .snap c t) then h
  else
    let x := h.cnt c t
    let down := h.down c t
    let next := if down then x - 1 else x + 1
    let turn : Bool := if down then (if (h.tb c t).adj > 0 then x = 0 else decide (x ≤ 1)) else decide (h.period c t ≤ x + 1)
    let crossing : Bool := [0, 1, 2].any (fun j => [false, true].any (fun b =>
      let k := 3 * t + j
      h.uncrossed c t k b &&
        (if down then decide (64 * (next : Int) ≤ h.cmpVal c k b) else decide (h.cmpVal c k b ≤ 64 * (next : Int)))))
    if turn || crossing then h else h.setF (pPWMTB c) t PWM_TB_TSTAT_CNT next

/-- Domain time replaced, modulo 2^64. -/
def Hw.setDomTime (h : Hw) (t : Nat) : Hw :=
  (h.setF pDTIME 0 DTIME_TIME_L_TIME t).setF pDTIME 0 DTIME_TIME_H_TIME (t / 2 ^ 40)

/-- What waited falls at this edge. -/
def Hw.atEdge (h : Hw) (e : EdgeDue) : Hw :=
  match e with
  | .sync c t => h.when (h.tbRuns c t) (fun h => h.syncApply c t)
  | .snap c t => h.when (h.tbRuns c t) (fun h => h.snap c t)
  | .trip c t sw => h.tripRegister c t sw
  | .lmode c t was => h.lmodeApply c t was
  | .ocfg c k was => h.ocfgApply c k was
  | .scorch c _ t _ => h.scorchApply c t
  | .landing c k off d immediate => h.loopCompare c k off d immediate
  | .landed _ _ _ => h
  | .timeSet t => h.setDomTime t
  | .timeShift o => h.setDomTime (unsx 64 ((h.domTime : Int) - o))

/-- Everything that waited for this edge, in order; what waits for a stopped clock goes on waiting. -/
def Hw.runDue (h : Hw) : Hw :=
  let ripe (e : Nat × EdgeDue) : Bool := decide (e.1 ≤ h.now) &&
    (if e.2.cluster = 8 then h.domainRuns 49 else h.clusterRuns e.2.cluster)
  (h.due.filter ripe).foldl (fun h e => h.atEdge e.2) { h with due := h.due.filter (fun e => !ripe e) }

/-! ## The commands -/

/-- TIMEBASE_START: a write of PWM_TB.CTRL. -/
def execTimebaseStart (w : Requester) (c : Fin 8) (d : Word) (s : State) : Host.Outcome State Fault Refusal :=
  onHw s (fun h => h.direct w (pPWMTB c) 2 (fun h => h.tbCtrlWrite c d))

/-- TIMEBASE_STOP: a write of PWM_TB.CTRL. -/
def execTimebaseStop (w : Requester) (c : Fin 8) (d : Word) (s : State) : Host.Outcome State Fault Refusal :=
  onHw s (fun h => h.direct w (pPWMTB c) 2 (fun h => h.tbCtrlWrite c d))

/-- ZERO_POINT. -/
def execZeroPoint (c : Fin 8) (t : Fin 4) (_ : Unit) (s : State) : Host.Outcome State Fault Refusal :=
  onHw s (fun h => h.zeroPoint c t)

/-- PERIOD_POINT. -/
def execPeriodPoint (c : Fin 8) (t : Fin 4) (s : State) : Host.Outcome State Fault Refusal :=
  onHw s (fun h => h.periodPoint c t)

/-- COMPARE_CROSSING: of CMPB for `b`, else of CMPA. -/
def execCompareCrossing (c : Fin 8) (k : Fin 12) (b : Bool) (s : State) : Host.Outcome State Fault Refusal :=
  onHw s (fun h => h.compareCrossing c (k.val / 3) k b)

/-- OUTPUT_TURN_ON: of L for `low`, else of H. -/
def execOutputTurnOn (c : Fin 8) (k : Fin 12) (low : Bool) (s : State) : Host.Outcome State Fault Refusal :=
  onHw s (fun h => h.turnOn c (k.val / 3) k low)

/-- OUTPUT_TURN_OFF. -/
def execOutputTurnOff (c : Fin 8) (k : Fin 12) (low : Bool) (s : State) : Host.Outcome State Fault Refusal :=
  onHw s (fun h => h.turnOff c (k.val / 3) k low)

/-- PWM_COMMIT: an arrival at the COMMIT input, or a write of CMD. -/
def execPwmCommit (c : Fin 8) (x : PwmCmd) (s : State) : Host.Outcome State Fault Refusal :=
  onHw s (fun h =>
    match x with
    | .seam t a =>
      let y := h.arrive a (clCode c (0x041 + 2 * t.val)) (h.clusterRuns c)
      if y.2 then y.1.commit c t else y.1
    | .cmd w d => h.directCh w (pPWMTB c) 0x20 (fun t h => h.tbCmdWrite c t d))

/-- PWM_SYNC: an arrival at the SYNC input, or a write of CMD. -/
def execPwmSync (c : Fin 8) (x : PwmCmd) (s : State) : Host.Outcome State Fault Refusal :=
  onHw s (fun h =>
    match x with
    | .seam t a =>
      let y := h.arrive a (clCode c (0x040 + 2 * t.val)) (h.clusterRuns c)
      if y.2 then y.1.syncSample c t else y.1
    | .cmd w d => h.directCh w (pPWMTB c) 0x20 (fun t h => h.tbCmdWrite c t d))

/-- TIMEBASE_CFG_WRITE. -/
def execTimebaseCfgWrite (w : Requester) (c : Fin 8) (d : Word) (s : State) : Host.Outcome State Fault Refusal :=
  onHw s (fun h => h.directCh w (pPWMTB c) 0x10 (fun t h => h.tbcfgWrite c t d))

/-- OCFG_WRITE. -/
def execOcfgWrite (w : Requester) (c : Fin 8) (d : Word) (s : State) : Host.Outcome State Fault Refusal :=
  onHw s (fun h => h.directCh w (pPWMCH c) 0x18 (fun k h => h.ocfgWrite c k d))

/-- SCORCH_SOURCE_ACTIVE: input `k` of timebase `t`. -/
def execScorchSourceActive (c : Fin 8) (t : Fin 4) (k : Fin 8) (s : State) : Host.Outcome State Fault Refusal :=
  onHw s (fun h => h.scorchSource c t k)

/-- SWTRIP. -/
def execSwtrip (w : Requester) (c : Fin 8) (d : Word) (s : State) : Host.Outcome State Fault Refusal :=
  onHw s (fun h => h.directCh w (pSCORCH c) 0x1B (fun t h => h.trcmdWrite c t d))

/-- TRIP_CLR. -/
def execTripClr (w : Requester) (c : Fin 8) (d : Word) (s : State) : Host.Outcome State Fault Refusal :=
  onHw s (fun h => h.directCh w (pSCORCH c) 0x1B (fun t h => h.trcmdWrite c t d))

end Sys2Proof.Machine
end

