-- ==== Sys2Proof/Machine/Loop.lean ====
section
/-! DEFINITION. The Loop Engine: slots, runs, deadlines, laws, output and commit, configuration, microcode store (R183 to
R207, R220 to R230). -/

namespace Sys2Proof.Machine

open Sys2Proof

/-- The trigger a slot holds, and the run of an engine. -/
def Hw.heldOf (h : Hw) (c s : Nat) : HeldTrig := h.held.at {} (12 * c + s)
def Hw.runOf (h : Hw) (c : Nat) : Option LoopRun := h.loopRun.at none c
def Hw.setRun (h : Hw) (c : Nat) (r : Option LoopRun) : Hw := { h with loopRun := h.loopRun.set none c r }

/-- PEND of a slot and its bit in STATUS. -/
def Hw.setPend (h : Hw) (c s : Nat) (v : Bool) : Hw :=
  (h.setB (pLOOP c) s LOOP_SSTAT_PEND v).setB (pLOOP c) 0 ⟨3, s, 1⟩ v

/-- RUN of slot `s`, BUSY and RUN_SLOT. -/
def Hw.showRun (h : Hw) (c s : Nat) (v : Bool) : Hw :=
  ((h.setB (pLOOP c) s LOOP_SSTAT_RUN v).setB (pLOOP c) 0 LOOP_STATUS_BUSY v).setF (pLOOP c) 0 LOOP_STATUS_RUN_SLOT
    (if v then s else 0xF)

/-- R183. Whether a slot takes triggers. -/
def Hw.slotOn (h : Hw) (c s : Nat) : Bool :=
  h.clusterRuns c && h.b (pLOOP c) 0 LOOP_CTRL_EN && h.b (pLOOP c) s LOOP_SCFG_EN && !h.b (pLOOP c) s LOOP_SSTAT_CFG_ERR

/-- R192. The source of a slot.
DEDUCED, unsafe: log entry 44. -/
def State.loopSource (s : State) (c sl : Nat) : Word :=
  let h := s.hw
  let i := h.f (pLOOP c) sl LOOP_SSRC_IDX
  match h.f (pLOOP c) sl LOOP_SSRC_TYPE with
  | 1 => w40 (h.f (pADCSEQ c) i ADC_SEQ_RESULT_VALUE)
  | 2 => w40 (h.f (pSDF c) i SDF_RESULT_VALUE)
  | 3 => w40 (h.f (pTRK c) i TRK_POS_VALUE)
  | 4 => if h.f (pTRK c) i TRK_TCFG_SPD_SRC = 1 ∧ i = 0 then w40 (h.f (pTRK c) i TRK_PSPEED_VALUE)
    else w40 (h.f (pTRK c) i TRK_SPEED_VALUE)
  | 5 => s.rd (loopAddr c i)
  | 6 => w40 (h.f (pLOOP c) i LOOP_YOUT_VALUE)
  | _ => 0

/-- R184. Slot `sl` takes its source into its input latch, unless it holds it already. -/
def State.latchSource (s : State) (c sl : Nat) : State :=
  let t := s.hw.heldOf c sl
  if s.hw.b (pLOOP c) sl LOOP_SSTAT_PEND && t.latch.isNone then
    s.on (fun h => { h with held := h.held.set {} (12 * c + sl) { t with latch := some (s.loopSource c sl) } })
  else s

/-- R184, R187. What a command at LOOP_CLK edge `edge` finds: every slot whose trigger was sampled at an earlier edge has
taken its source. -/
def State.latchBefore (s : State) (c edge : Nat) : State :=
  (List.range 12).foldl (fun s sl => if (s.hw.heldOf c sl).edge < edge then s.latchSource c sl else s) s

/-- R184. A PWM_CLK edge: no input latch waits any longer. -/
def State.latchAll (s : State) : State :=
  (s.hw.held.filter (fun e => e.2.latch.isNone)).foldl (fun s e => s.latchSource (e.1 / 12) (e.1 % 12)) s

/-- R183, R184. A trigger of slot `sl` sampled at edge `e`. -/
def State.loopTrigger (s : State) (c sl e : Nat) : State :=
  let h := s.hw
  if !h.slotOn c sl then s
  else if h.b (pLOOP c) sl LOOP_SSTAT_PEND then
    if (h.heldOf c sl).edge = e then s else s.on (fun h => h.irqBit (pLOOP c) LOOP_IRQ_OVR sl)
  else
    let t : HeldTrig := ⟨e, h.f (pLOOP c) sl LOOP_SDL_DL, none⟩
    s.on (fun h => { h with held := h.held.set {} (12 * c + sl) t }.setPend c sl true)

/-- R185. The lowest-numbered slot whose held trigger has a sampling edge earlier than `edge`. -/
def Hw.nextSlot (h : Hw) (c edge : Nat) : Option Nat :=
  (List.range 12).find? (fun s => h.b (pLOOP c) s LOOP_SSTAT_PEND && decide ((h.heldOf c s).edge < edge))

/-- R185, R187, R210. A run starts at `edge`; none starts while a device reset waits (R608). -/
def Hw.runStart (h : Hw) (c edge : Nat) : Hw :=
  match h.runOf c, h.nextSlot c edge with
  | none, some s =>
    if !h.clusterRuns c || h.b pRST 0 RST_STATUS_PENDING then h
    else
      let p := pLOOP c
      let t := h.heldOf c s
      let y := h.fs p s LOOP_YOUT_VALUE
      let r : LoopRun :=
        { slot := s, edge := t.edge, dl := t.dl, start := edge, meas := (t.latch.getD 0).toInt, setp := h.fs p s LOOP_SETP_VALUE,
          ff := h.fs p s LOOP_FF_VALUE, yprev := y, scfg := (h.reg p 0x10 s).toNat, stgt := (h.reg p 0x12 s).toNat,
          uentry := h.f p s LOOP_UENTRY_ADDR, first := h.b p s LOOP_SSTAT_FIRST, outv := y,
          st0 := (List.range 6).map (fun i => h.fs p s (LOOP_ST_VALUE i)) }
      ((h.setRun c (some r)).setPend c s false).showRun c s true
  | _, _ => h

/-! ## Deadlines and abandonment -/

/-- R189. The run is abandoned: nothing it staged takes effect. -/
def Hw.abandon (h : Hw) (c s : Nat) : Hw := (h.setRun c none).showRun c s false

/-- R189. What a miss notes; the MISS event is fired apart. -/
def Hw.noteMiss (h : Hw) (c s : Nat) : Hw :=
  ((h.setF (pLOOP c) s LOOP_SSTAT_MISS 1).satF (pLOOP c) s LOOP_SSTAT_MISS_CNT).irqBit (pLOOP c) LOOP_IRQ_MISS s

/-- R189. The MISS event of slot `s`. -/
def Hw.missEvent (h : Hw) (c s : Nat) : Hw := h.launch (clCode c (0x0B0 + s))

/-- R188, R189. A trigger of slot `s` reaches its deadline edge: the held one, or the running one. -/
def Hw.deadline (h : Hw) (c s : Nat) (held : Bool) : Hw :=
  if held then
    if h.clusterRuns c && h.b (pLOOP c) s LOOP_SSTAT_PEND && (h.heldOf c s).dl != 0 then
      ((h.setPend c s false).noteMiss c s).missEvent c s
    else h
  else
    match h.runOf c with
    | some r => if h.clusterRuns c && r.slot == s && r.dl != 0 then ((h.abandon c s).noteMiss c s).missEvent c s else h
    | none => h

/-! ## Configuration -/

/-- R190. The held trigger of a slot is discarded without a flag. -/
def Hw.discard (h : Hw) (c s : Nat) : Hw := if h.b (pLOOP c) s LOOP_SSTAT_PEND then h.setPend c s false else h

/-- R207. A configuration error.
DEDUCED, unsafe: log entry 47. -/
def Hw.loopBad (h : Hw) (c s : Nat) : Bool :=
  let p := pLOOP c
  let i := h.f p s LOOP_SSRC_IDX
  let ty := h.f p s LOOP_SSRC_TYPE
  let law := h.f p s LOOP_SCFG_LAW
  let hook := h.f p s LOOP_SCFG_HOOK % 3
  let dest := h.f p s LOOP_STGT_DEST
  law ≥ 6 || ty == 7 || (ty == 1 && i > 15) || (ty == 2 && i > 7) || ((ty == 3 || ty == 4) && i > 3) ||
    (ty == 6 && i > 11) || h.f p s LOOP_STGT_TYPE == 3 ||
    (h.f p s LOOP_STGT_TYPE == 1 && (dest % 4 == 3 || dest / 16 != 0)) || h.f p s LOOP_SCFG_CASC_SLOT ≥ 12 ||
    (h.b p s LOOP_SCFG_CASC_TRIG && h.f p s LOOP_SCFG_CASC_SLOT == s) ||
    ((law == 5 || hook != 0) && h.f p s LOOP_UENTRY_ADDR < 0x1800)

/-- R190, R207. A write of SCFG, SSRC, STGT or UENTRY. -/
def Hw.slotCfgWrite (h : Hw) (c off s : Nat) (d : Word) : Hw :=
  let p := pLOOP c
  let was := h.b p s LOOP_SCFG_EN
  let h := h.plainWrite p off s d
  let now := h.b p s LOOP_SCFG_EN
  let h := if was && !now then h.discard c s else if now && !was then h.setF p s LOOP_SSTAT_FIRST 1 else h
  let bad := h.loopBad c s
  let h := h.setB p s LOOP_SSTAT_CFG_ERR bad
  if bad then h.discard c s else h

/-- R190. A write of LOOP.CTRL. -/
def Hw.loopCtrlWrite (h : Hw) (c : Nat) (d : Word) : Hw :=
  let h := h.plainWrite (pLOOP c) 2 0 d
  if h.b (pLOOP c) 0 LOOP_CTRL_EN then h else (List.range 12).foldl (fun h s => h.discard c s) h

/-- R226. A write of RESEED, and of LATCLR. -/
def Hw.reseed (h : Hw) (c : Nat) (d : Word) : Hw :=
  (List.range 12).foldl (fun h s => if bitOf d.toNat s then h.setF (pLOOP c) s LOOP_SSTAT_FIRST 1 else h) h
def Hw.latClr (h : Hw) (c : Nat) (d : Word) : Hw :=
  (List.range 12).foldl (fun h s => if bitOf d.toNat s then h.setF (pLOOP c) s LOOP_LAT_MAX 0 else h) h

/-- R226. A write of SWTRIG, sampled at edge `e`. -/
def State.loopSwtrig (s : State) (c e : Nat) (d : Word) : State :=
  (List.range 12).foldl (fun s sl => if bitOf d.toNat sl then s.loopTrigger c sl e else s) s

/-- Effect on the hardware of an accepted write to LOOP other than SWTRIG. A write of SSTAT.MISS clears MISS_CNT. -/
def Hw.loopWrite (h : Hw) (c off s : Nat) (d : Word) : Hw :=
  if off = 2 then h.loopCtrlWrite c d
  else if off = 0x10 ∨ off = 0x11 ∨ off = 0x12 ∨ off = 0x20 then h.slotCfgWrite c off s d
  else if off = 0x1E then (h.plainWrite (pLOOP c) off s d).when (bitOf d.toNat 0) (fun h => h.setF (pLOOP c) s LOOP_SSTAT_MISS_CNT 0)
  else if off = 0x81 then h.reseed c d
  else if off = 0x82 then h.latClr c d
  else h.plainWrite (pLOOP c) off s d

/-! ## Microcode store -/

/-- The customer microword at an address. -/
def Hw.ucWord (h : Hw) (c a : Nat) : Nat := h.uc.at 0 (8192 * c + a)

/-- R230. The address after a UC_DATA access by a requester. -/
def Hw.ucNext (h : Hw) (c : Nat) (r : Requester) : Hw :=
  let a := h.f (pLOOPUC c) r.bank LOOP_UC_UC_ADDR_ADDR
  h.setF (pLOOPUC c) r.bank LOOP_UC_UC_ADDR_ADDR (if a = 0x1FFF then 0x1800 else a + 1)

/-- R230. A write of UC_DATA. -/
def Hw.ucWrite (h : Hw) (c : Nat) (r : Requester) (d : Word) : Hw :=
  let p := pLOOPUC c
  let a := h.f p r.bank LOOP_UC_UC_ADDR_ADDR
  let h := if h.b p 0 LOOP_UC_CTRL_UC_WEN && a ≥ 0x1800 then
      { h with uc := h.uc.set 0 (8192 * c + a) (d.toNat % 2 ^ 32) }
    else h.irqBit p LOOP_UC_IRQ_UC_ERR 0
  h.ucNext c r

/-- R230. A read of UC_DATA: the word, and the requester's address moved on. -/
def Hw.ucRead (h : Hw) (c : Nat) (r : Requester) : Hw × Word :=
  let a := h.f (pLOOPUC c) r.bank LOOP_UC_UC_ADDR_ADDR
  (h.ucNext c r, if a < 0x1800 then 0 else w40 (h.ucWord c a))

/-- Effect of an accepted write to LOOP_UC. -/
def Hw.loopUcWrite (h : Hw) (c off ch : Nat) (r : Requester) (d : Word) : Hw :=
  if off = 0x81 then h.ucWrite c r d else h.plainWrite (pLOOPUC c) off ch d

/-! ## Stages and laws -/

/-- R195. The exact rounded product before limiting, and ρ. -/
def rhoX (a b : Int) : Int := (a * b + 2 ^ 30) / 2 ^ 31
def rho (a b : Int) : Int := satS 40 (rhoX a b)

/-- R195. limit(x, lo, hi); hi when lo > hi. -/
def limit (x lo hi : Int) : Int := min (max x lo) hi

/-- SCFG as the run took it. -/
def LoopRun.cfg (r : LoopRun) (f : Fld) : Nat := bitsOf r.scfg f.lo f.w

/-- The customer routine's place: 0 none, 1 PRE, 2 POST, 3 USER (R220). -/
def LoopRun.hook (r : LoopRun) : Nat :=
  if r.cfg LOOP_SCFG_LAW = 5 then 3 else if r.cfg LOOP_SCFG_HOOK = 3 then 0 else r.cfg LOOP_SCFG_HOOK

/-- R193. The first word of the run's parameter bank, in data memory. -/
def LoopRun.bank (r : LoopRun) : Nat := 256 * r.cfg LOOP_SCFG_SBASE + 128 * r.cfg LOOP_SCFG_PBANK

/-- R187. A parameter of the run, as the bank held it at the start edge. -/
def LoopRun.param (r : LoopRun) (off : Nat) : Int := (r.par.getD off 0).toInt

/-- R187. The run just started takes the words of its parameter bank.
DEDUCED, unsafe: log entry 43. -/
def State.takeBank (s : State) (c : Nat) : State :=
  match s.hw.runOf c with
  | none => s
  | some r => s.on (fun h => h.setRun c (some { r with par := (List.range 128).map (fun i => s.rd (loopAddr c (r.bank + i))) }))

/-- R196, R209. A state word as the run reads it: written in this run, else committed at the start edge. -/
def LoopRun.stWord (r : LoopRun) (i : Nat) : Int :=
  match r.st.getD i none with
  | some z => z
  | none => r.st0.getD i 0

/-- A state word staged. -/
def LoopRun.stage (r : LoopRun) (i : Nat) (z : Int) : LoopRun := { r with st := setN 6 none r.st i (some z) }

/-- SAT set when any of the exact values leaves the 40-bit range. -/
def LoopRun.note (r : LoopRun) (xs : List Int) : LoopRun := { r with sat := r.sat || xs.any (ovfS 40) }

/-- R194 stages 1 and 2, R198. Reference and ramp. -/
def LoopRun.stageRef (r : LoopRun) : LoopRun :=
  if r.cfg LOOP_SCFG_RAMP = 0 then { r with ref := r.setp, y := r.meas }
  else
    let rp := if r.first then r.meas else r.stWord 3
    let step := max 0 (r.param 9)
    let d := satS 40 (r.setp - rp)
    let x := rp + limit d (-step) step
    let ref := satS 40 x
    { (r.note [r.setp - rp, x]).stage 3 ref with ref := ref, y := r.meas, rampDone := decide (ref = r.setp) }

/-- R199. The gain table's factor for an error. -/
def LoopRun.gainFactor (r : LoopRun) (e : Int) : Int :=
  let j := sx 4 (r.par.getD 12 0).toNat
  let sz : Int := 2 ^ (26 + j).toNat
  let x := limit (e + 32 * sz) 0 (64 * sz)
  let k := x / sz
  let g (i : Int) : Int := r.param (16 + i.toNat)
  if k = 64 then g 64 else g k + (2 * (g (k + 1) - g k) * (x - k * sz) + sz) / (2 * sz)

/-- R194 stage 4. The error, then the gain table. -/
def LoopRun.stageErr (r : LoopRun) : LoopRun :=
  let e0 := satS 40 (r.ref - r.y)
  let r := r.note [r.ref - r.y]
  if r.cfg LOOP_SCFG_GTAB = 0 then { r with e := e0 }
  else
    let g := r.gainFactor e0
    { r.note [rhoX g e0] with e := rho g e0 }

/-- R196, PI: the new integral, and the exact values formed. -/
def LoopRun.lawPi (r : LoopRun) : LoopRun × Int × Int :=
  let p := rho (r.param 0) r.e
  let di := rho (r.param 1) r.e
  let i0 := r.stWord 0
  let i := satS 40 (i0 + di)
  ({ (r.note [rhoX (r.param 0) r.e, rhoX (r.param 1) r.e, i0 + di]).stage 0 i with keep := [i0] }, p, i)

/-- R196, R197. The law. -/
def LoopRun.stageLaw (r : LoopRun) : LoopRun :=
  let k (i : Nat) : Int := r.param i
  let out (r : LoopRun) (z : Int) : LoopRun := { r.note [z] with v := satS 40 z }
  match r.cfg LOOP_SCFG_LAW with
  | 0 => out r (rhoX (k 0) r.e)
  | 1 => let x := r.lawPi; out x.1 (x.2.1 + x.2.2)
  | 2 => let x := r.lawPi; out x.1 (x.2.1 + x.2.2 + r.ff)
  | 3 =>
    let t := r.lawPi
    let x := if r.cfg LOOP_SCFG_DSRC = 0 then r.e else satS 40 (-r.y)
    let xp := if r.first then x else r.stWord 1
    let d0 := r.stWord 2
    let dx := satS 40 (x - xp)
    let kd := rho (k 2) dx
    let u := satS 40 (kd - d0)
    let kf := rho (k 3) u
    let d := satS 40 (d0 + kf)
    let r1 := t.1.note ([x - xp, rhoX (k 2) dx, kd - d0, rhoX (k 3) u, d0 + kf] ++
      (if r.cfg LOOP_SCFG_DSRC = 0 then [] else [-r.y]))
    out ((r1.stage 1 x).stage 2 d) (t.2.1 + t.2.2 + d)
  | 4 =>
    let p := rho (k 0) r.e
    let s1 := r.stWord 4
    let s2 := r.stWord 5
    let x1 := s1 + rho (k 4) r.e - rho (k 5) s2 - rho (k 6) s1
    let n1 := satS 40 x1
    let x2 := s2 + rho (k 5) n1
    let r1 := r.note [rhoX (k 0) r.e, rhoX (k 4) r.e, rhoX (k 5) s2, rhoX (k 6) s1, x1, rhoX (k 5) n1, x2]
    out { (r1.stage 4 n1).stage 5 (satS 40 x2) with keep := [s1, s2] } (p + n1)
  | _ => { r with v := r.outv }

/-- R200. The integrating states held, then limited, by the clamp. -/
def LoopRun.clampStates (r : LoopRun) (hold : Bool) (lo hi : Int) : LoopRun :=
  let law := r.cfg LOOP_SCFG_LAW
  if law = 1 ∨ law = 2 ∨ law = 3 then
    let i := if hold then r.keep.getD 0 0 else r.stWord 0
    r.stage 0 (limit i lo hi)
  else if law = 4 ∧ hold then (r.stage 4 (r.keep.getD 0 0)).stage 5 (r.keep.getD 1 0)
  else r

/-- What the stages after the law leave. -/
structure RunOut where
  run : LoopRun
  o : Int
  hi : Bool
  lo : Bool

/-- R194 stages 7 and 8, R200, R201. Clamp, anti-windup and output scaling. -/
def LoopRun.stageOut (r : LoopRun) : RunOut :=
  let k (i : Nat) : Int := r.param i
  let clamp := r.cfg LOOP_SCFG_CLAMP = 1
  let hi : Bool := clamp && decide (r.v > k 8)
  let lo : Bool := clamp && decide (r.v < k 7)
  let u := if clamp then limit r.v (k 7) (k 8) else r.v
  let r := if clamp then
      r.clampStates ((hi && decide (r.e > 0)) || (lo && decide (r.e < 0))) (k 7) (k 8)
    else r
  if r.cfg LOOP_SCFG_OSCALE = 0 then ⟨r, u, hi, lo⟩
  else
    let z := rho (k 10) u + k 11
    ⟨r.note [rhoX (k 10) u, z], satS 40 z, hi, lo⟩

/-- R194. The microwords of the frame: the base and the present stages, the customer routine's not counted. -/
def LoopRun.frameCost (r : LoopRun) : Nat :=
  let base := match r.cfg LOOP_SCFG_LAW with | 0 => 14 | 1 => 22 | 2 => 26 | 3 => 34 | 4 => 46 | _ => 4
  base + 6 * r.cfg LOOP_SCFG_RAMP + 8 * r.cfg LOOP_SCFG_GTAB + 4 * r.cfg LOOP_SCFG_CLAMP +
    3 * r.cfg LOOP_SCFG_OSCALE + 2 * r.cfg LOOP_SCFG_CASC

/-! ## Commit -/

/-- R203. The compare word of an output. -/
def Hw.compareWord (h : Hw) (c : Nat) (r : LoopRun) (o : Int) : Word :=
  let tb := bitsOf r.stgt 2 2
  if bitOf r.stgt 16 then w40i o
  else
    let p : Int := if bitOf r.stgt 17 then h.f (pPWMTB c) tb PWM_TB_PRD_COUNT else h.period c tb
    w40i (limit ((o * p + 2 ^ 24) / 2 ^ 25) 0 (64 * p) * 1024)

/-- R191 items 1, 3 and 4. The slot's own registers at the END edge `edge`.
DESIGN CHOICE, unsafe: log entry 165. -/
def Hw.commitRegs (h : Hw) (c edge : Nat) (x : RunOut) : Hw :=
  let r := x.run
  let p := pLOOP c
  let s := r.slot
  let h := (List.range 6).foldl (fun h i =>
    match r.st.getD i none with
    | some z => h.hwF p s (LOOP_ST_VALUE i) (unsx 40 z)
    | none => h) h
  let h := (h.setFS p s LOOP_YOUT_VALUE x.o).incF p s LOOP_SCNT_COUNT
  let lat := min 65535 (edge - r.edge)
  let h := (h.setF p s LOOP_LAT_LAST lat).setF p s LOOP_LAT_MAX (max lat (h.f p s LOOP_LAT_MAX))
  let h := (h.setF p s LOOP_SSTAT_FIRST 0).setB p s LOOP_SSTAT_SAT r.sat
  ((h.setB p s LOOP_SSTAT_CLAMP_HI x.hi).setB p s LOOP_SSTAT_CLAMP_LO x.lo).setB p s LOOP_SSTAT_RAMP_DONE r.rampDone

/-- R204, R243. The PWM_CLK edges from the one at or before END edge `edge` to the first at or after END + 5.00 ns.
DEDUCED, unsafe: log entry 166. -/
def landIn (edge : Nat) : Nat := 2 + edge % 2

/-- R191, R202, R206. The commit at END edge `edge`; `frame` tells whether the frame's own END hands the output on in
cascade. A deadline already passed leaves nothing to commit (R188).
DEDUCED, unsafe: log entry 46. -/
def State.loopCommit (s : State) (c edge : Nat) (x : RunOut) (frame : Bool) : State :=
  let r := x.run
  let sl := r.slot
  if r.dl ≠ 0 ∧ edge > r.edge + r.dl then s
  else
    let s := s.latchBefore c edge
    let s := s.on (fun h => ((h.setRun c none).showRun c sl false).commitRegs c edge x)
    let s := r.queue.foldr (fun e s => s.commitWr (loopAddr c e.1) e.2) s
    let s := match bitsOf r.stgt 18 2 with
      | 1 => s.on (fun h => h.dueIn (landIn edge) (.landing c (3 * bitsOf r.stgt 2 2 + bitsOf r.stgt 0 2)
          (if bitOf r.stgt 15 then 0x12 else 0x11) (h.compareWord c r x.o) (!bitOf r.stgt 17)))
      | 2 => s.commitWr (loopAddr c (bitsOf r.stgt 0 14)) (w40i x.o)
      | _ => s
    let s := s.on (fun h => h.launch (clCode c (0x0A0 + sl)))
    if frame && r.cfg LOOP_SCFG_CASC == 1 then
      let t := r.cfg LOOP_SCFG_CASC_SLOT
      let s := s.on (fun h => h.hwF (pLOOP c) t LOOP_SETP_VALUE (unsx 40 x.o))
      if r.cfg LOOP_SCFG_CASC_TRIG = 1 then s.loopTrigger c t edge else s
    else s

/-- R220. The frame's stages from where it stands to its output. -/
def LoopRun.frameOut (r : LoopRun) : RunOut :=
  match r.hook, r.phase with
  | 1, _ => LoopRun.stageOut (LoopRun.stageLaw (LoopRun.stageErr { r with ref := r.w.getD 1 0, y := r.w.getD 2 0 }))
  | 2, _ => LoopRun.stageOut { r with v := r.outv }
  | 3, _ => LoopRun.stageOut { r with v := r.outv }
  | _, _ => r.stageRef.stageErr.stageLaw.stageOut

/-- END in the frame: at start + N microwords (R186, R223).
DESIGN CHOICE, safe: log entry 50. -/
def State.frameEnd (s : State) (c : Nat) (r : LoopRun) : State :=
  if r.hook = 0 ∨ r.phase = .back then s.loopCommit c (r.start + r.frameCost + r.n) r.frameOut true else s

/-- R221. Free values for what R221 does not give at the routine's entry. -/
def freeInts (no k : Nat) : List Int := (List.range k).map (fun i => (Config.freeWord (no + i)).toInt)

/-- R220, R221. The frame's call of the customer routine.
DESIGN CHOICE, safe: log entry 48. -/
def State.frameCall (s : State) (c : Nat) (r : LoopRun) : State :=
  if r.hook = 0 ∨ r.phase ≠ .frame then s
  else
    let r := r.stageRef
    let r := if r.hook = 1 then r else r.stageErr
    let r := if r.hook = 2 then r.stageLaw else r
    let no := s.hw.freeNo
    let known := if r.hook = 1 then [0, r.ref, r.y] else if r.hook = 3 then [0, r.ref, r.y, r.e] else [0, r.ref, r.y, r.e, r.v]
    let r : LoopRun := { r with
      w := known ++ freeInts no (16 - known.length)
      acc := freeInts (no + 16) 4
      z := bitOf (Config.freeWord (no + 20)).toNat 0
      neg := bitOf (Config.freeWord (no + 21)).toNat 0
      outv := if r.hook = 2 then r.v else r.yprev
      stack := [0], phase := .routine, upc := r.uentry, n := 1 }
    s.on (fun h => { h with freeNo := h.freeNo + 22 }.setRun c (some r))

/-! ## The commands -/

/-- SLOT_TRIGGER: an arrival at slot `sl`'s input, sampled at LOOP_CLK edge `e`.
DESIGN CHOICE, unsafe: log entry 45. -/
def execSlotTrigger (c : Fin 8) (sl : Fin 12) (a : Arrival) (e : Nat) (s : State) : Host.Outcome State Fault Refusal :=
  let x := s.hw.arrive a (clCode c (0x030 + sl)) (s.hw.clusterRuns c)
  let s := { s with hw := x.1 }
  .next (if x.2 then s.loopTrigger c sl e else s)

/-- LOOP_SWTRIG: a write of LOOP.SWTRIG, sampled at LOOP_CLK edge `e`. -/
def execLoopSwtrig (w : Requester) (c : Fin 8) (d : Word) (e : Nat) (s : State) : Host.Outcome State Fault Refusal :=
  let x := s.hw.controlled (s.hw.acc w) (pLOOP c) 0x80 id
  let s := { s with hw := x.1.report w (pLOOP c) 0x80 x.2 }
  .next (if x.2 = .ok then s.loopSwtrig c e d else s)

/-- RUN_START at LOOP_CLK edge `edge`. -/
def execRunStart (c : Fin 8) (edge : Nat) (s : State) : Host.Outcome State Fault Refusal :=
  .next (if (s.hw.runOf c).isSome then s else ((s.latchBefore c edge).on (fun h => h.runStart c edge)).takeBank c)

/-- DEADLINE_MISS of slot `sl`: of its held trigger, or of its run. -/
def execDeadlineMiss (c : Fin 8) (sl : Fin 12) (held : Bool) (s : State) : Host.Outcome State Fault Refusal :=
  onHw s (fun h => h.deadline c sl held)

/-- SLOT_CONFIG_WRITE: SCFG, SSRC, STGT (0 to 2), or UENTRY (3). -/
def execSlotConfigWrite (w : Requester) (c : Fin 8) (r : Fin 4) (d : Word) (s : State) :
    Host.Outcome State Fault Refusal :=
  let off := if r = 3 then 0x20 else 0x10 + r.val
  onHw s (fun h => h.directCh w (pLOOP c) off (fun sl h => h.slotCfgWrite c off sl d))

/-- LOOP_RESEED. -/
def execLoopReseed (w : Requester) (c : Fin 8) (d : Word) (s : State) : Host.Outcome State Fault Refusal :=
  onHw s (fun h => h.direct w (pLOOP c) 0x81 (fun h => h.reseed c d))

/-- LAT_CLEAR. -/
def execLatClear (w : Requester) (c : Fin 8) (d : Word) (s : State) : Host.Outcome State Fault Refusal :=
  onHw s (fun h => h.direct w (pLOOP c) 0x82 (fun h => h.latClr c d))

/-- UC_DATA_WRITE. -/
def execUcDataWrite (w : Requester) (c : Fin 8) (d : Word) (s : State) : Host.Outcome State Fault Refusal :=
  onHw s (fun h => h.direct w (pLOOPUC c) 0x81 (fun h => h.ucWrite c w d))

/-- UC_DATA_READ: an access to a stopped page has no effect and returns 0. -/
def execUcDataRead (w : Requester) (c : Fin 8) (s : State) : Host.Outcome State Fault Refusal :=
  onHw s (fun h =>
    if h.mayRead (h.acc w) (pLOOPUC c) then
      let x := (h.granted (h.acc w) (pLOOPUC c)).ucRead c w
      { x.1 with resp := [x.2] }
    else { h with resp := [0] })

end Sys2Proof.Machine
end

