-- ==== Sys2Proof/Machine/Micro.lean ====
section
/-! DEFINITION. The Loop Engine's microwords (R209 to R219). A command names the operation; its operands are those of the
customer microword at the run's address. -/

namespace Sys2Proof.Machine

open Sys2Proof

/-- R211. The fields of a microword. -/
structure UcWord where
  op : Nat
  d : Nat
  a : Nat
  b : Nat
  raw : Nat

/-- R211. The fields of a stored microword. -/
def ucFields (n : Nat) : UcWord := ⟨bitsOf n 27 5, bitsOf n 22 5, bitsOf n 17 5, bitsOf n 12 5, n⟩

/-- R212. The reserved operation codes. -/
def ucReserved (op : Nat) : Bool := op == 0x0F || op == 0x16 || op == 0x17 || op ≥ 0x1D

/-- R212. Operations of format R, those that shift by the B field, and those that write D. -/
def ucFormR (op : Nat) : Bool := (1 ≤ op && op ≤ 0x0E) || op == 0x13 || op == 0x14 || op == 0x15
def ucShift (op : Nat) : Bool := op == 0x09 || op == 0x0A || op == 0x15
def ucWrites (op : Nat) : Bool := (ucFormR op && op != 0x0E) || op == 0x10 || op == 0x12

/-- R218. A field that names an operand with code 31 or, in customer code, w8 to w15. -/
def ucBadCode (k : Nat) : Bool := k == 31 || (8 ≤ k && k ≤ 15)

/-- R218. The microword is ILLEGAL as a customer microword.
DEDUCED, unsafe: log entry 49. -/
def ucIllegal (w : UcWord) : Bool :=
  let r := ucFormR w.op
  let m := w.op == 0x10 || w.op == 0x11
  let j := w.op == 0x18 || w.op == 0x19 || w.op == 0x1A
  ((r || m || w.op == 0x12) && ucBadCode w.d) || ((r || m) && ucBadCode w.a) ||
    (r && !ucShift w.op && ucBadCode w.b) || (ucWrites w.op && 20 ≤ w.d && w.d ≤ 23) ||
    ((w.op == 0x0C || w.op == 0x0D) && !(16 ≤ w.d && w.d ≤ 19)) || (w.op == 0x0E && w.d != 0) ||
    (j && w.d ≥ 9) || (w.op == 0x1A && bitsOf w.raw 0 13 != 0)

/-! ## Operands -/

/-- R209. The exact value an operand code reads as, before limiting. -/
def LoopRun.ucRdX (r : LoopRun) (k : Nat) : Int :=
  if k = 0 then 0
  else if k < 16 then r.w.getD k 0
  else if k < 20 then (r.acc.getD (k - 16) 0 + 2 ^ 31) / 2 ^ 32
  else if k = 20 then r.meas
  else if k = 21 then r.setp
  else if k = 22 then r.ff
  else if k = 23 then r.yprev
  else if k < 30 then r.stWord (k - 24)
  else r.outv

/-- R209. An operand. -/
def LoopRun.ucRd (r : LoopRun) (k : Nat) : Int := satS 40 (r.ucRdX k)

/-- R213. The flags of a value. -/
def LoopRun.flags (r : LoopRun) (z : Int) : LoopRun := { r with z := decide (z = 0), neg := decide (z < 0) }

/-- R209, R213. Register `k` takes the 40-bit value `z`; the flags follow it. -/
def LoopRun.put (r : LoopRun) (k : Nat) (z : Int) : LoopRun :=
  let r := r.flags z
  if k = 0 then r
  else if k < 16 then { r with w := setN 16 0 r.w k z }
  else if k < 20 then { r with acc := setN 4 0 r.acc (k - 16) (z * 2 ^ 32) }
  else if 24 ≤ k ∧ k < 30 then r.stage (k - 24) z
  else if k = 30 then { r with outv := z }
  else r

/-- An operation on D := ⟨z⟩, with the exact values its operands and result come from. -/
def LoopRun.putSat (r : LoopRun) (k : Nat) (xs : List Int) (z : Int) : LoopRun := (r.note (z :: xs)).put k (satS 40 z)

/-- R212. An accumulator takes `z` limited to 80 bits. -/
def LoopRun.putAcc (r : LoopRun) (k : Nat) (z : Int) : LoopRun :=
  let v := satS 80 z
  { { r with sat := r.sat || ovfS 80 z }.flags v with acc := setN 4 0 r.acc (k - 16) v }

/-! ## Execution -/

/-- R219. A micro-fault; `late` when the run's trigger misses at the same edge. -/
def Hw.microFault (h : Hw) (c : Nat) (r : LoopRun) (code : Nat) (late : Bool) : Hw :=
  let p := pLOOP c
  let s := r.slot
  let h := h.abandon c s
  let h := (h.setF p s LOOP_UFSTAT_CODE code).setF p s LOOP_UFSTAT_UPC r.upc
  let h := (h.setF p s LOOP_SSTAT_UFAULT 1).irqBit p LOOP_IRQ_UFAULT s
  let h := h.when (code == 7) (fun h => h.irqBit (pLOOPUC c) LOOP_UC_IRQ_PARITY 0)
  let h := h.when late (fun h => h.noteMiss c s)
  let h := h.missEvent c s
  if code = 8 then h else (h.hwF p s LOOP_SCFG_EN 0).discard c s

/-- What a microword does to its run: a fault, or the run with its next address. -/
abbrev UcRes := Except Nat (LoopRun × Nat)

/-- R186, R211, R218. The microword of operation `op` in the cycle `x`: fetched and checked, then `f`. -/
def State.micro (s : State) (c op : Nat) (x : UcCycle) (f : State → LoopRun → UcWord → UcRes) : State :=
  match s.hw.runOf c with
  | none => s
  | some r =>
    if r.phase ≠ .routine || !s.hw.clusterRuns c then s
    else
      let late : Bool := x.late && r.dl != 0
      let w := ucFields (s.hw.ucWord c r.upc)
      if s.hw.b (pLOOPUC c) 0 LOOP_UC_CTRL_UC_WEN then s.on (fun h => h.microFault c r 6 late)
      else if x.parity then s.on (fun h => h.microFault c r 7 late)
      else if ucReserved w.op then s.on (fun h => h.microFault c r 3 late)
      else if w.op ≠ op then s
      else if ucIllegal w then s.on (fun h => h.microFault c r 3 late)
      else
        match f s r w with
        | .error code => s.on (fun h => h.microFault c r code late)
        | .ok y =>
          if late then s.on (fun h => ((h.abandon c r.slot).noteMiss c r.slot).missEvent c r.slot)
          else s.on (fun h => h.setRun c (some { y.1 with upc := y.2, n := y.1.n + 1 }))

/-- R216, R218. The run at the next address; execution may not pass 0x1FFF. -/
def ucSeq (r : LoopRun) : UcRes := if r.upc = 0x1FFF then .error 4 else .ok (r, r.upc + 1)

/-- A microword that changes the run and goes on. -/
def State.microSeq (s : State) (c op : Nat) (x : UcCycle) (f : State → LoopRun → UcWord → LoopRun) : State :=
  s.micro c op x (fun s r w => ucSeq (f s r w))

/-- A microword D := ⟨g A B⟩ of two operands. -/
def State.microBin (s : State) (c op : Nat) (x : UcCycle) (g : Int → Int → Int) : State :=
  s.microSeq c op x (fun _ r w =>
    r.putSat w.d [r.ucRdX w.a, r.ucRdX w.b] (g (r.ucRd w.a) (r.ucRd w.b)))

/-- A microword D := ⟨g A b⟩ of operand A and the B field's number. -/
def State.microUn (s : State) (c op : Nat) (x : UcCycle) (g : Int → Nat → Int) : State :=
  s.microSeq c op x (fun _ r w => r.putSat w.d [r.ucRdX w.a] (g (r.ucRd w.a) w.b))

/-- A product on an accumulator: `g acc product`. -/
def State.microAcc (s : State) (c op : Nat) (x : UcCycle) (g : Int → Int → Int) : State :=
  s.microSeq c op x (fun _ r w =>
    let xs := [r.ucRdX w.a, r.ucRdX w.b]
    let q := r.ucRd w.a * r.ucRd w.b
    if 16 ≤ w.d ∧ w.d ≤ 19 then (r.note xs).putAcc w.d (g (r.acc.getD (w.d - 16) 0) (2 * q))
    else r.putSat w.d xs ((q + 2 ^ 30) / 2 ^ 31))

/-- R214. Whether a condition holds. -/
def ucCond (r : LoopRun) (k : Nat) : Bool :=
  match k with
  | 0 => true
  | 1 => r.z
  | 2 => !r.z
  | 3 => r.neg
  | 4 => !r.neg
  | 5 => r.z || r.neg
  | 6 => !r.z && !r.neg
  | 7 => r.sat
  | 8 => !r.sat
  | _ => false

/-- R215. The address of a format M microword. -/
def LoopRun.ucAddr (r : LoopRun) (w : UcWord) : Nat :=
  ((if bitOf w.raw 16 then 0 else r.bank) + bitsOf w.raw 0 14 + unsx 14 (r.ucRd w.a)) % 16384

/-- R215. What a load reads: the youngest queued store to the address, else data memory. -/
def State.ucLoad (s : State) (c : Nat) (r : LoopRun) (a : Nat) : Int :=
  match r.queue.find? (fun e => e.1 = a) with
  | some e => e.2.toInt
  | none => (s.rd (loopAddr c a)).toInt

/-! ## The commands -/

/-- NOP. -/
def execUcNop (c : Fin 8) (x : UcCycle) (s : State) : Host.Outcome State Fault Refusal :=
  .next (s.microSeq c 0x00 x (fun _ r _ => r))

/-- MOV. -/
def execUcMov (c : Fin 8) (x : UcCycle) (s : State) : Host.Outcome State Fault Refusal :=
  .next (s.microUn c 0x01 x (fun a _ => a))

/-- ADD. -/
def execUcAdd (c : Fin 8) (x : UcCycle) (s : State) : Host.Outcome State Fault Refusal :=
  .next (s.microBin c 0x02 x (fun a b => a + b))

/-- SUB. -/
def execUcSub (c : Fin 8) (x : UcCycle) (s : State) : Host.Outcome State Fault Refusal :=
  .next (s.microBin c 0x03 x (fun a b => a - b))

/-- NEG. -/
def execUcNeg (c : Fin 8) (x : UcCycle) (s : State) : Host.Outcome State Fault Refusal :=
  .next (s.microUn c 0x04 x (fun a _ => -a))

/-- ABS. -/
def execUcAbs (c : Fin 8) (x : UcCycle) (s : State) : Host.Outcome State Fault Refusal :=
  .next (s.microUn c 0x05 x (fun a _ => a.natAbs))

/-- MIN. -/
def execUcMin (c : Fin 8) (x : UcCycle) (s : State) : Host.Outcome State Fault Refusal :=
  .next (s.microBin c 0x06 x (fun a b => min a b))

/-- MAX. -/
def execUcMax (c : Fin 8) (x : UcCycle) (s : State) : Host.Outcome State Fault Refusal :=
  .next (s.microBin c 0x07 x (fun a b => max a b))

/-- LIM: D limited between A and B. -/
def execUcLim (c : Fin 8) (x : UcCycle) (s : State) : Host.Outcome State Fault Refusal :=
  .next (s.microSeq c 0x08 x (fun _ r w =>
    r.putSat w.d [r.ucRdX w.d, r.ucRdX w.a, r.ucRdX w.b]
      (limit (r.ucRd w.d) (r.ucRd w.a) (r.ucRd w.b))))

/-- SHL by the B field. -/
def execUcShl (c : Fin 8) (x : UcCycle) (s : State) : Host.Outcome State Fault Refusal :=
  .next (s.microUn c 0x09 x (fun a n => a * 2 ^ n))

/-- SHR by the B field, rounding. -/
def execUcShr (c : Fin 8) (x : UcCycle) (s : State) : Host.Outcome State Fault Refusal :=
  .next (s.microUn c 0x0A x (fun a n => roundShr a n))

/-- MUL. -/
def execUcMul (c : Fin 8) (x : UcCycle) (s : State) : Host.Outcome State Fault Refusal :=
  .next (s.microAcc c 0x0B x (fun _ q => q))

/-- MAC. -/
def execUcMac (c : Fin 8) (x : UcCycle) (s : State) : Host.Outcome State Fault Refusal :=
  .next (s.microAcc c 0x0C x (fun a q => a + q))

/-- MSU. -/
def execUcMsu (c : Fin 8) (x : UcCycle) (s : State) : Host.Outcome State Fault Refusal :=
  .next (s.microAcc c 0x0D x (fun a q => a - q))

/-- CMP: Z and N from the exact difference. -/
def execUcCmp (c : Fin 8) (x : UcCycle) (s : State) : Host.Outcome State Fault Refusal :=
  .next (s.microSeq c 0x0E x (fun _ r w =>
    (r.note [r.ucRdX w.a, r.ucRdX w.b]).flags (r.ucRd w.a - r.ucRd w.b)))

/-- LD. -/
def execUcLd (c : Fin 8) (x : UcCycle) (s : State) : Host.Outcome State Fault Refusal :=
  .next (s.microSeq c 0x10 x (fun s r w =>
    (r.note [r.ucRdX w.a]).put w.d (s.ucLoad c r (r.ucAddr w))))

/-- ST: QFULL with four stores queued.
DESIGN CHOICE, unsafe: log entry 167. -/
def execUcSt (c : Fin 8) (x : UcCycle) (s : State) : Host.Outcome State Fault Refusal :=
  .next (s.micro c 0x11 x (fun _ r w =>
    if r.queue.length ≥ 4 then .error 5
    else
      let v := w40i (r.ucRd w.d)
      ucSeq { r.note [r.ucRdX w.d, r.ucRdX w.a] with queue := (r.ucAddr w, v) :: r.queue }))

/-- LDI. -/
def execUcLdi (c : Fin 8) (x : UcCycle) (s : State) : Host.Outcome State Fault Refusal :=
  .next (s.microSeq c 0x12 x (fun _ r w => r.putSat w.d [] (sx 17 w.raw * 2 ^ w.a)))

/-- AND. -/
def execUcAnd (c : Fin 8) (x : UcCycle) (s : State) : Host.Outcome State Fault Refusal :=
  .next (s.microBin c 0x13 x (fun a b => (w40i a &&& w40i b).toInt))

/-- OR. -/
def execUcOr (c : Fin 8) (x : UcCycle) (s : State) : Host.Outcome State Fault Refusal :=
  .next (s.microBin c 0x14 x (fun a b => (w40i a ||| w40i b).toInt))

/-- SHRT by the B field, truncating. -/
def execUcShrt (c : Fin 8) (x : UcCycle) (s : State) : Host.Outcome State Fault Refusal :=
  .next (s.microUn c 0x15 x (fun a n => a / 2 ^ n))

/-- JMP: a customer microword may not jump into the vendor partition. -/
def execUcJmp (c : Fin 8) (x : UcCycle) (s : State) : Host.Outcome State Fault Refusal :=
  .next (s.micro c 0x18 x (fun _ r w =>
    let t := bitsOf w.raw 0 13
    if ucCond r w.d then (if t < 0x1800 then .error 4 else .ok (r, t)) else ucSeq r))

/-- CALL: the frame's call of the routine where the run stands before it, else a customer microword's. -/
def execUcCall (c : Fin 8) (x : UcCycle) (s : State) : Host.Outcome State Fault Refusal :=
  .next (match s.hw.runOf c with
    | none => s
    | some r =>
      if r.phase = .frame ∧ s.hw.clusterRuns c then s.frameCall c r
      else s.micro c 0x19 x (fun _ r w =>
        let t := bitsOf w.raw 0 13
        if r.upc = 0x1FFF then .error 4
        else if ucCond r w.d then
          if t < 0x1800 then .error 4
          else if r.stack.length ≥ 4 then .error 1
          else .ok ({ r with stack := (r.upc + 1) :: r.stack }, t)
        else ucSeq r))

/-- RET: a return to an address the frame pushed goes back to the frame. -/
def execUcRet (c : Fin 8) (x : UcCycle) (s : State) : Host.Outcome State Fault Refusal :=
  .next (s.micro c 0x1A x (fun _ r w =>
    if ucCond r w.d then
      match r.stack with
      | [] => .error 2
      | t :: rest => .ok ({ r with stack := rest, phase := if t < 0x1800 then .back else .routine }, t)
    else ucSeq r))

/-- END: the frame's, or a customer microword's at END edge `edge`, which commits OUTV and hands nothing on (R220). A
micro-fault may fall at the very edge of the deadline (R219). -/
def execUcEnd (c : Fin 8) (edge : Nat) (parity : Bool) (s : State) : Host.Outcome State Fault Refusal :=
  .next (match s.hw.runOf c with
    | none => s
    | some r =>
      if !s.hw.clusterRuns c then s
      else if r.phase ≠ .routine then s.frameEnd c r
      else
        let w := ucFields (s.hw.ucWord c r.upc)
        let late : Bool := r.dl != 0 && edge == r.edge + r.dl
        if s.hw.b (pLOOPUC c) 0 LOOP_UC_CTRL_UC_WEN then s.on (fun h => h.microFault c r 6 late)
        else if parity then s.on (fun h => h.microFault c r 7 late)
        else if ucReserved w.op then s.on (fun h => h.microFault c r 3 late)
        else if w.op ≠ 0x1B then s
        else s.loopCommit c edge ⟨r, r.outv, false, false⟩ false)

/-- ABORT: micro-fault 8. -/
def execUcAbort (c : Fin 8) (x : UcCycle) (s : State) : Host.Outcome State Fault Refusal :=
  .next (s.micro c 0x1C x (fun _ _ _ => .error 8))

end Sys2Proof.Machine
end

