-- ==== Sys2Proof/Machine/Pin.lean ====
section
/-! DEFINITION. Pins and pin functions (R394 to R419), and the device-wide forced safe states (R411, R618). -/

namespace Sys2Proof.Machine

open Sys2Proof

/-! ## Forced safe states -/

/-- R411. The levels of the pins whose safe state is HOLD are kept. -/
def Hw.captureHolds (h : Hw) : Hw :=
  let pins := (h.pinsListed 0x10).filter (fun pin => h.f pPIN pin PIN_PCFG_SAFE == 3)
  { h with holds := pins.foldl (fun b pin => b.set none pin (h.pinBall pin)) h.holds }

/-- R618. A cause of the device-wide forced safe state begins: bit `i` of SAFE_SRC (0 clock, 1 reset request, 2 SAFE_N,
3 monitor, 4 software).
DEDUCED, unsafe: log entry 77. -/
def Hw.safeBegin (h : Hw) (i : Nat) : Hw :=
  if h.b pDEV 0 ⟨3, 2 + i, 1⟩ then h
  else
    let h := if h.deviceSafe then h else h.captureHolds
    let h := ((h.setF pDEV 0 ⟨3, 2 + i, 1⟩ 1).setF pDEV 0 DEV_STATUS_SAFE_ACT 1).irqBit pDEV DEV_IRQ_SAFE 0
    [0, 1, 2, 3, 4, 5, 6, 7].foldl (fun h c => h.forceCluster c) h

/-- R618. A cause ends. -/
def Hw.safeEnd (h : Hw) (i : Nat) : Hw :=
  let h := h.setF pDEV 0 ⟨3, 2 + i, 1⟩ 0
  h.setB pDEV 0 DEV_STATUS_SAFE_ACT (h.f pDEV 0 DEV_STATUS_SAFE_SRC != 0)

/-- R445, R605, R608, R609. A device reset is requested, with its RCAUSE bit; a request during a deferral joins it. The
Hamper freezes at once and the flash finishes what it does.
DESIGN CHOICE, unsafe: log entry 125. -/
def Hw.resetRequest (h : Hw) (cause : Nat) : Hw :=
  let h := { h with rstCause := h.rstCause ||| 2 ^ cause, rstAt := if h.b pRST 0 RST_STATUS_PENDING then h.rstAt else h.now }
  ((h.safeBegin 1).setF pRST 0 RST_STATUS_PENDING 1).hamperReset.flashReset

/-! ## Pin event units -/

/-- R414, R415. Whether unit `p` works.
DEDUCED, unsafe: log entry 76. -/
def Hw.pevOn (h : Hw) (p : Nat) : Bool :=
  h.b pPIN 0 (PIN_PEV_EN p) && h.f pPIN 0 (PIN_PEV_PIN p) ≤ 323

/-- R414, R415. The level unit `p` forms from its pin. -/
def Hw.pevForm (h : Hw) (p : Nat) : Bool :=
  let pin := h.f pPIN 0 (PIN_PEV_PIN p)
  h.pevOn p && (h.pinIn pin != h.b pPIN 0 (PIN_PEV_INV p))

/-- R414. The level output of unit `p` takes a level; a selected edge fires the producer and the flag. -/
def Hw.pevSet (h : Hw) (p : Nat) (v : Bool) : Hw :=
  if h.b pPIN 0 ⟨0xC0, p, 1⟩ = v then h
  else
    let h := h.setB pPIN 0 ⟨0xC0, p, 1⟩ v
    if h.pevOn p && bitOf (h.f pPIN 0 (PIN_PEV_EDGE p)) (if v then 0 else 1) then
      (h.irqBit pPIN PIN_IRQ_PEV p).launch (devCode (0x020 + p))
    else h

/-- The units watching a pin follow its level. -/
def Hw.pevFollow (h : Hw) (pin : Nat) : Hw :=
  (List.range 32).foldl (fun h p =>
    if h.pevOn p && h.f pPIN 0 (PIN_PEV_PIN p) == pin then h.pevSet p (h.pevForm p) else h) h

/-- R401, R414. What the outside puts on a pad changes and has been so for `ns` ns: the pin's input follows, and the units
watching it whose filter has passed the change. -/
def Hw.pinEvent (h : Hw) (pin : Nat) (v : PadV) (ns : Nat) : Hw :=
  let h := { h with pads := h.pads.set .released pin v }.latchPin pin
  (List.range 32).foldl (fun h p =>
    if h.pevOn p && h.f pPIN 0 (PIN_PEV_PIN p) == pin && decide (h.f pPIN 0 (PIN_PEV_FILT p) * 5 ≤ ns) then
      h.pevSet p (h.pevForm p)
    else h) h

/-- A write of PEVp: the unit forms its level anew; a disabled one is at 0 and fires nothing. -/
def Hw.pevWrite (h : Hw) (p : Nat) (d : Word) : Hw :=
  let h := h.plainWrite pPIN (0xA0 + p) 0 d
  h.pevSet p (h.pevForm p)

/-! ## Ownership of pins -/

/-- R406. The three conditions of R33 applied to a pin's OWN.
DEDUCED, unsafe: log entry 72. -/
def Hw.pinPasses (h : Hw) (a : Acc) (pin : Nat) : Bool :=
  let req := h.f pPIN pin PIN_OWN_REQ
  decide (a.ring ≤ h.f pPIN pin PIN_OWN_RING) && (req == 0xFF || req == a.who.id || a.ring == 0)

/-- R32, R33, R406. A write of OWN: REQ and RING under the rule of OWNER, PLOCK as a controlled write. A write that sets PLOCK
needs the check of OWNER only when it also changes REQ or RING. -/
def Hw.pinOwnWrite (h : Hw) (a : Acc) (pin : Nat) (d : Word) : Hw × Bool :=
  let lock := h.b pPIN pin PIN_OWN_PLOCK
  let sets : Bool := bitOf d.toNat 10 && !lock
  let moves : Bool := d.toNat % 1024 != (h.reg pPIN 0x12 pin).toNat % 1024
  let mayMove : Bool := !lock && (decide (a.ring ≤ 1) || a.who.id == h.f pPIN pin PIN_OWN_REQ)
  let maySet : Bool := decide (a.ring ≤ 2) && h.pinPasses a pin
  if if sets then maySet && (mayMove || !moves) else mayMove then
    (h.setReg pPIN 0x12 pin (w40 (d.toNat % 1024 + b2n sets * 1024)), true)
  else (h, false)

/-! ## Functions -/

/-- R403. A valid input function. -/
def validIsel (code : Nat) : Bool :=
  let loc := code / 256
  let i := code % 256
  code == 0 ||
  (loc < 8 && ((0x10 ≤ i && i < 0x30 && i % 8 < 5) || (0x30 ≤ i && i < 0x38) || (0x40 ≤ i && i < 0x80))) ||
  (loc == 15 && 0x10 ≤ i && i < 0x14)

/-- R402. A valid output source. -/
def validOsel (code : Nat) : Bool :=
  let loc := code / 256
  let i := code % 256
  code == 0 || (loc < 8 && ((0x20 ≤ i && i < 0x38) || (0x40 ≤ i && i < 0x80) || (0x80 ≤ i && i < 0x84))) ||
  (loc == 15 && (i == 0x01 || (0x10 ≤ i && i < 0x14)))

/-- R394. A code names a cluster its pin's bank does not permit. -/
def badLocation (pin code : Nat) : Bool := code != 0 && code / 256 < 8 && bankOf pin != 8 && code / 256 != bankOf pin

/-- R405. The cause that refuses a PFUNC word; 0 when none does.
DEDUCED, unsafe: log entry 75. -/
def Hw.pfuncCause (h : Hw) (pin : Nat) (d : Word) : Nat :=
  let o0 := bitsOf d.toNat 0 12
  let o1 := bitsOf d.toNat 12 12
  let i := bitsOf d.toNat 24 12
  if (h.pinsFeeding i).any (fun q => q != pin) then 1
  else if badLocation pin o0 || badLocation pin o1 || badLocation pin i then 2
  else if !validOsel o0 || !validOsel o1 || !validIsel i then 3
  else 0

/-- R409. A ΣΔ channel's input moves: its filter restarts its settling. -/
def Hw.sdfUnsettle (h : Hw) (c i : Nat) : Hw :=
  (h.setSdf c i { h.sdfSt c i with settled := 0 }).setValid c i false

/-- R409, R410. Input function `code` gets a new source at level `v`, or is released to read 0 (`fresh` false). No line makes a
step, index, probe latch or error by it; a running SSI frame of the tracker is abandoned. -/
def Hw.inputMoved (h : Hw) (code : Nat) (v fresh : Bool) : Hw :=
  let n := code / 256
  let i := code % 256
  if code = 0 then h
  else if n < 8 then
    if 0x10 ≤ i ∧ i < 0x30 then
      let t := (i - 0x10) / 8
      let h := h.lineLoad n t (i % 8) v
      if (h.trkSt n t).ssi = 1 then h.setSsi n t 0 else h
    else if 0x30 ≤ i ∧ i < 0x38 ∧ fresh then h.sdfUnsettle n (i - 0x30)
    else h
  else if !fresh then h
  else
    let k := i - 0x10
    (List.range 16).foldl (fun h j =>
      let c := 2 * k + j / 8
      if sdmSrc h c = 2 && !h.b (pSDF c) (j % 8) SDF_FCFG_CODING then h.sdfUnsettle c (j % 8) else h) h

/-- R408, R409. A switch of the pin, accepted now with its ball as it stands. -/
def Hw.switchPin (h : Hw) (pin : Nat) (ball : Option Bool) (input : Bool) : Hw :=
  { h with pinSw := h.pinSw.set none pin (some ⟨h.now, ball, input || h.unarmed pin⟩) }

/-- R405, R408, R409. A write of PFUNC that passed the ownership checks.
DEDUCED, unsafe: log entry 73. -/
def Hw.pfuncWrite (h : Hw) (pin : Nat) (d : Word) : Hw :=
  let cause := h.pfuncCause pin d
  if cause ≠ 0 then
    ((h.setF pPIN 0 PIN_STATUS_CAUSE cause).setF pPIN 0 PIN_STATUS_PIN pin).irqBit pPIN PIN_IRQ_FUNC_ERR 0
  else
    let w := w40 (d.toNat % 2 ^ 36)
    if h.reg pPIN 0x11 pin = w then h
    else
      let old := h.f pPIN pin PIN_PFUNC_ISEL
      let ball := h.pinBall pin
      let h := (h.latchPin pin).setReg pPIN 0x11 pin w
      let new := h.f pPIN pin PIN_PFUNC_ISEL
      let h := h.switchPin pin ball (old != new)
      if old = new then h else (h.inputMoved old false false).inputMoved new (h.pinIn pin) true

/-- R396, R398, R401, R408, R411. A write of PCFG. A change of ANA is a switch of the pin; a pin leaving analog mode starts as
at power-up. A change to HOLD during a safe state keeps the ball's level. -/
def Hw.pcfgWrite (h : Hw) (pin : Nat) (d : Word) : Hw :=
  let ana := h.b pPIN pin PIN_PCFG_ANA
  let ball := h.pinBall pin
  let h := (h.latchPin pin).setReg pPIN 0x10 pin (w40 (d.toNat / 64 % 1024 * 64))
  let h := if h.f pPIN pin PIN_PCFG_SAFE == 3 && h.deviceSafe then
      { h with holds := h.holds.set none pin ball } else h
  let now := h.b pPIN pin PIN_PCFG_ANA
  let h :=
    if now = ana then h.latchPin pin
    else
      let h := (h.switchPin pin ball true).startPin pin
      h.inputMoved (h.f pPIN pin PIN_PFUNC_ISEL) (h.pinIn pin) true
  h.pevFollow pin

/-- R406, R419. A write to PCFG or PFUNC of a pin: its OWN must accept it, and PLOCK freezes the fields; the page's OWNER and
LOCK do not govern it. -/
def Hw.pinCfgWrite (h : Hw) (a : Acc) (pin off : Nat) (d : Word) : Hw × Bool :=
  if !h.pinPasses a pin then (h, false)
  else if h.b pPIN pin PIN_OWN_PLOCK then (h, true)
  else if off = 0x10 then (h.pcfgWrite pin d, true)
  else (h.pfuncWrite pin d, true)

/-- R407. A write of DOUTn: the bits of the pins that accept the requester; refused when any pin of the bank does not. -/
def Hw.doutWrite (h : Hw) (a : Acc) (n : Nat) (d : Word) : Hw × Bool :=
  (List.range 36).foldl (fun x j =>
    if x.1.pinPasses a (36 * n + j) then (x.1.setB pPIN 0 ⟨0x80 + n, j, 1⟩ (bitOf d.toNat j), x.2)
    else (x.1, false)) (h, true)

/-- Effect of an accepted page write to PIN by `a`; the flag tells whether the pin's own checks accept it. -/
def Hw.pinWrite (h : Hw) (a : Acc) (off pin : Nat) (d : Word) : Hw × Bool :=
  if off = 0x10 ∨ off = 0x11 then h.pinCfgWrite a pin off d
  else if off = 0x12 then h.pinOwnWrite a pin d
  else if 0x80 ≤ off ∧ off ≤ 0x88 then h.doutWrite a (off - 0x80) d
  else if 0xA0 ≤ off ∧ off ≤ 0xBF then (h.pevWrite (off - 0xA0) d, true)
  else (h.plainWrite pPIN off pin d, true)

/-! ## Bank supplies -/

/-- The pins of bank `n`. -/
def bankPins (n : Nat) : List Nat := (List.range 36).map (fun j => 36 * n + j)

/-- R395. The lines of tracker `t` that pins of bank `n` feed become 0, which the tracker takes as any change of its lines. -/
def Hw.bankLines (h : Hw) (n c t : Nat) : Hw :=
  let gone (j : Nat) : Bool := (h.pinsFeeding (trkLine c t j)).any (fun pin => bankOf pin == n)
  let old := (h.trkSt c t).lines
  let l : Lines := ⟨old.a && !gone 0, old.b && !gone 1, old.z && !gone 2⟩
  if h.clusterRuns c && l != old then (h.encoder c t l).1 else h

/-- R395. A bank supply leaves its range. -/
def Hw.bankLoss (h : Hw) (n : Nat) : Hw :=
  if h.b pPIN 0 (PIN_BANK_VOK n) then
    let h := ((h.setF pPIN 0 (PIN_BANK_VOK n) 0).setF pPIN 0 (PIN_BANK_VLVL n) 3).irqBit pPIN PIN_IRQ_BANK_FAULT 0
    let h := (bankPins n).foldl (fun h pin => h.pevFollow pin) h
    (List.range 32).foldl (fun h x => h.bankLines n (x / 4) (x % 4)) h
  else h

/-- R395, R401. A bank supply becomes valid at level `lvl`, with what the outside puts on pads: every pin starts as at
power-up. -/
def Hw.bankValid (h : Hw) (n lvl : Nat) (pads : List (Nat × PadV)) : Hw :=
  if h.b pPIN 0 (PIN_BANK_VOK n) then h
  else
    let h := (h.setF pPIN 0 (PIN_BANK_VOK n) 1).setF pPIN 0 (PIN_BANK_VLVL n) lvl
    let h := pads.foldl (fun h x => { h with pads := h.pads.set .released (36 * n + x.1) x.2 }) h
    (bankPins n).foldl (fun h pin => (h.startPin pin).pevFollow pin) h

/-! ## The commands -/

/-- PCFG_WRITE. -/
def execPcfgWrite (w : Requester) (d : Word) (_ : Unit) (s : State) : Host.Outcome State Fault Refusal :=
  onHw s (fun h => h.directR w pPIN 0x10 (fun g => g.pinCfgWrite (h.acc w) (h.chsel pPIN w) 0x10 d))

/-- PFUNC_WRITE. -/
def execPfuncWrite (w : Requester) (d : Word) (s : State) : Host.Outcome State Fault Refusal :=
  onHw s (fun h => h.directR w pPIN 0x11 (fun g => g.pinCfgWrite (h.acc w) (h.chsel pPIN w) 0x11 d))

/-- PIN_OWN_WRITE. -/
def execPinOwnWrite (w : Requester) (d : Word) (s : State) : Host.Outcome State Fault Refusal :=
  onHw s (fun h => h.directR w pPIN 0x12 (fun g => g.pinOwnWrite (h.acc w) (h.chsel pPIN w) d))

/-- DOUT_WRITE of DOUTn. -/
def execDoutWrite (w : Requester) (n : Fin 9) (d : Word) (s : State) : Host.Outcome State Fault Refusal :=
  onHw s (fun h => h.directR w pPIN (0x80 + n) (fun g => g.doutWrite (h.acc w) n d))

/-- BANK_SUPPLY_LOSS. -/
def execBankSupplyLoss (n : Fin 9) (s : State) : Host.Outcome State Fault Refusal := onHw s (fun h => h.bankLoss n)

/-- BANK_SUPPLY_VALID. -/
def execBankSupplyValid (n : Fin 9) (lvl : Fin 4) (pads : List (Fin 36 × PadV)) (s : State) :
    Host.Outcome State Fault Refusal :=
  onHw s (fun h => h.bankValid n lvl (pads.map (fun x => (x.1.val, x.2))))

/-- PIN_EVENT: the outside puts `v.1` on the pad of `pin` and has done so for `v.2` ns. -/
def execPinEvent (pin : Fin 324) (v : PadV × Nat) (s : State) : Host.Outcome State Fault Refusal :=
  onHw s (fun h => h.pinEvent pin v.1 v.2)

end Sys2Proof.Machine
end

