-- ==== Sys2Proof/Machine/Code.lean ====
section
/-! DEFINITION. The encodings of the Myide move set (R268 to R282): halves, moves, prefixes and code spaces. -/

namespace Sys2Proof.Machine

open Sys2Proof

/-- What a move carries: an immediate, or the value of a source code. -/
inductive MoveSrc
  | imm (v : Word)
  | code (e : Nat)
deriving DecidableEq, Repr

/-- A decoded move. Codes are of the extended space, which holds the short codes unchanged (R281). -/
structure Move where
  guard : Nat
  inv : Bool
  src : MoveSrc
  dst : Nat
  kind : MoveKind
deriving DecidableEq, Repr

/-- R276, R300. A repeat prefix. -/
structure Rpt where
  guard : Nat
  inv : Bool
  int : Bool
  csrc : Bool
  count : Nat
deriving DecidableEq, Repr

/-- What stands next in program order. -/
inductive Code
  | illegal
  | move (m : Move)
  | rpt (r : Rpt)
deriving DecidableEq, Repr

/-- R279, R281. A code that may be a source. -/
def validSrc (e : Nat) : Bool :=
  e < 0x34 || (0x40 ≤ e && e < 0x88) || (0xA0 ≤ e && e < 0xAA) || (0x110 ≤ e && e < 0x118) || (0x200 ≤ e && e < 0x208)

/-- R280, R281, R311. A code that may be a destination; CORE_ID, RING and RPT_CNT may not. -/
def validDst (e : Nat) : Bool :=
  e < 0x76 || (0xC0 ≤ e && e < 0xC4) || (0xC8 ≤ e && e < 0xCD) || (0x100 ≤ e && e < 0x104) ||
    (0x110 ≤ e && e < 0x118) || e == 0x202 || e == 0x203 || e == 0x205 || e == 0x206 || e == 0x207

/-- R282. A move whose codes are both good. -/
def checked (m : Move) : Code :=
  match m.src with
  | .imm _ => if validDst m.dst then .move m else .illegal
  | .code e => if validSrc e && validDst m.dst then .move m else .illegal

/-- R274. A short move, from the half's 20 bits. -/
def shortMove (x : Nat) : Code :=
  checked ⟨bitsOf x 14 3, bitOf x 17, .code (bitsOf x 7 7), bitsOf x 0 7, .short⟩

/-- R275. A long move, from its head's and its tail's 20 bits. -/
def longMove (kind : MoveKind) (hd tl : Nat) : Code :=
  let p := bitsOf hd 0 18 * 2 ^ 18 + bitsOf tl 0 18
  let g := bitsOf p 32 3
  let inv := bitOf p 35
  match bitsOf p 30 2 with
  | 0 => checked ⟨g, inv, .imm (w40i (sx 23 p)), bitsOf p 23 7, kind⟩
  | 1 => checked ⟨g, inv, .imm (w40i (sx 18 p * 2 ^ bitsOf p 18 5)), bitsOf p 23 7, kind⟩
  | 2 => if bitsOf p 0 10 = 0 then checked ⟨g, inv, .code (bitsOf p 10 10), bitsOf p 20 10, kind⟩ else .illegal
  | _ => .illegal

/-- R276. A prefix, from the half's 20 bits.
DEDUCED, unsafe: log entry 149. -/
def prefixOf (x : Nat) : Code :=
  if bitsOf x 6 3 ≠ 0 ∨ bitsOf x 11 3 ≠ 0 ∨ (bitOf x 9 && bitOf x 5) then .illegal
  else .rpt ⟨bitsOf x 14 3, bitOf x 17, bitOf x 10, bitOf x 9, bitsOf x 0 6⟩

/-- The two halves of a packet (R268), and a half's tag (R269). -/
def h0 (w : Word) : Nat := bitsOf w.toNat 20 20
def h1 (w : Word) : Nat := bitsOf w.toNat 0 20
def tagOf (x : Nat) : Nat := bitsOf x 18 2

/-- R270. What stands at H0 of a packet. -/
def codeH0 (w : Word) : Code :=
  match tagOf (h0 w) with
  | 0 => shortMove (h0 w)
  | 2 => if tagOf (h1 w) = 3 then longMove .whole (h0 w) (h1 w) else .illegal
  | _ => .illegal

/-- R270. What stands at H1 of a packet; `next` is the packet that follows, which a straddling long move needs. -/
def codeH1 (w next : Word) : Code :=
  match tagOf (h1 w) with
  | 0 => shortMove (h1 w)
  | 1 => prefixOf (h1 w)
  | 2 => if tagOf (h0 next) = 3 then longMove .straddle (h1 w) (h0 next) else .illegal
  | _ => .illegal

/-- R294. A destination that makes a control move. -/
def isControl (dst : Nat) : Bool := (0x63 ≤ dst && dst ≤ 0x67) || dst == 0x70 || dst == 0x71 || dst == 0x74 || dst == 0x75

/-- R301. A half that a body must not hold.
DEDUCED, unsafe: log entry 58. -/
def badBody (c : Code) : Bool :=
  match c with
  | .move m => isControl m.dst || m.dst == 0x73
  | _ => false

/-- R301. A packet that cannot be the body of a repeat. -/
def badPacket (w : Word) : Bool :=
  tagOf (h0 w) == 3 || tagOf (h0 w) == 1 || tagOf (h1 w) == 1 || tagOf (h1 w) == 2 || badBody (codeH0 w) ||
    (tagOf (h0 w) != 2 && badBody (codeH1 w 0))

end Sys2Proof.Machine
end

