-- ==== Sys2Proof/Machine/Flags.lean ====
section
/-! DEFINITION. The flags of a core: the limits that set FLAGS.SAT, and the results of a test (R280, R286). -/

namespace Sys2Proof.Machine

open Sys2Proof

/-- R280. The 40-bit limit, which sets FLAGS.SAT where it changes the number. -/
def CoreSt.limit (c : CoreSt) (z : Int) : CoreSt × Word := ({ c with sat := c.sat || ovfS 40 z }, w40i (satS 40 z))

/-- R280. An accumulator takes a number under the 80-bit limit. -/
def CoreSt.setAcc (c : CoreSt) (n : Nat) (z : Int) : CoreSt :=
  { c with sat := c.sat || ovfS 80 z, acc := setN 4 0 c.acc n (BitVec.ofInt 80 (satS 80 z)) }

/-- Accumulator `n`. -/
def CoreSt.accN (c : CoreSt) (n : Nat) : DWord := c.acc.getD n 0

/-- Results of the ALU, SHF, CMP and MUL under the limit. -/
def CoreSt.aluLim (c : CoreSt) (z : Int) : CoreSt :=
  let x := c.limit z
  { x.1 with aluR := x.2 }
def CoreSt.shfLim (c : CoreSt) (z : Int) : CoreSt :=
  let x := c.limit z
  { x.1 with shfR := x.2 }
def CoreSt.mulLim (c : CoreSt) (z : Int) : CoreSt :=
  let x := c.limit z
  { x.1 with mulR := x.2 }

/-- A test's result. -/
def CoreSt.test (c : CoreSt) (b : Bool) : CoreSt := { c with cmpR := w40 (b2n b) }

end Sys2Proof.Machine
end

