-- ==== Sys2Proof/Machine/Units.lean ====
section
/-! DEFINITION. The functional units of a Myide core: what each port does to the core alone (R280, R283 to R291, R295,
R298, R304 to R310). -/

namespace Sys2Proof.Machine

open Sys2Proof

/-! ## Triggers -/

/-- R280. The ALU triggers 0x29 to 0x34. -/
def CoreSt.alu (c : CoreSt) (e : Nat) (t : Word) : CoreSt :=
  let a := c.aluA
  match e with
  | 0x29 => { c with aluR := t + a }
  | 0x2A => c.aluLim (t.toInt + a.toInt)
  | 0x2B => { c with aluR := t - a }
  | 0x2C => c.aluLim (t.toInt - a.toInt)
  | 0x2D => { c with aluR := t &&& a }
  | 0x2E => { c with aluR := t ||| a }
  | 0x2F => { c with aluR := t ^^^ a }
  | 0x30 => { c with aluR := t &&& ~~~a }
  | 0x31 => { c with aluR := if t.toInt ≤ a.toInt then t else a }
  | 0x32 => { c with aluR := if t.toInt ≤ a.toInt then a else t }
  | 0x33 => c.aluLim (if t.toInt < 0 then -t.toInt else t.toInt)
  | _ => c.aluLim (-t.toInt)

/-- R280. The SHF triggers 0x36 to 0x3A. -/
def CoreSt.shf (c : CoreSt) (e : Nat) (t : Word) : CoreSt :=
  let n := c.shfA.toNat % 64
  match e with
  | 0x36 => { c with shfR := if 40 ≤ n then 0 else t <<< n }
  | 0x37 => { c with shfR := if 40 ≤ n then 0 else t >>> n }
  | 0x38 => { c with shfR := w40i (t.toInt / 2 ^ n) }
  | 0x39 => { c with shfR := if 40 ≤ n then 0 else w40i (roundShr t.toInt n) }
  | _ => c.shfLim (t.toInt * 2 ^ n)

/-- R280. The CMP triggers 0x3C to 0x41. -/
def CoreSt.cmpT (c : CoreSt) (e : Nat) (t : Word) : CoreSt :=
  let a := c.cmpA
  match e with
  | 0x3C => c.test (decide (t = a))
  | 0x3D => c.test (decide (t ≠ a))
  | 0x3E => c.test (decide (t.toInt < a.toInt))
  | 0x3F => c.test (decide (a.toInt ≤ t.toInt))
  | 0x40 => c.test (decide (t.toNat < a.toNat))
  | _ => c.test (decide (a.toNat ≤ t.toNat))

/-- R195, R280. The MUL triggers 0x43 to 0x45. -/
def CoreSt.mulT (c : CoreSt) (e : Nat) (t : Word) : CoreSt :=
  let p := t.toInt * c.mulA.toInt
  match e with
  | 0x43 => c.mulLim (roundShr p 31)
  | 0x44 => { c with mulR := w40i p }
  | _ => { c with mulR := w40i (p / 2 ^ 40) }

/-- R280. The MAC triggers 0x47 to 0x52. -/
def CoreSt.macT (c : CoreSt) (e : Nat) (t : Word) : CoreSt :=
  let p := 2 * t.toInt * c.macA.toInt
  if e < 0x4B then c.setAcc (e - 0x47) ((c.accN (e - 0x47)).toInt + p)
  else if e < 0x4F then c.setAcc (e - 0x4B) ((c.accN (e - 0x4B)).toInt - p)
  else c.setAcc (e - 0x4F) p

/-- R280, R287. The quotient and the remainder of a division, exact: 0 div.t, 1 div.q, 2 div.u. -/
def divExact (kind : Nat) (t a : Word) : Int × Int :=
  match kind with
  | 0 => (t.toInt.tdiv a.toInt, t.toInt - t.toInt.tdiv a.toInt * a.toInt)
  | 1 =>
    let q := satS 40 ((t.toInt * 2 ^ 31).tdiv a.toInt)
    (q, if ovfS 40 ((t.toInt * 2 ^ 31).tdiv a.toInt) then 0 else t.toInt * 2 ^ 31 - q * a.toInt)
  | _ => ((t.toNat / a.toNat : Nat), (t.toNat % a.toNat : Nat))

/-- R280. A division sets SAT: the quotient was limited. -/
def divLimited (kind : Nat) (t a : Word) : Bool :=
  match kind with
  | 0 => ovfS 40 (t.toInt.tdiv a.toInt)
  | 1 => ovfS 40 ((t.toInt * 2 ^ 31).tdiv a.toInt)
  | _ => false

/-- R285. The division in progress finishes. -/
def CoreSt.divFinish (c : CoreSt) : CoreSt :=
  match c.div with
  | none => c
  | some d =>
    match d.out with
    | some x => { c with div := none, divR := x.1, divM := x.2 }
    | none =>
      let x := divExact d.kind d.t d.a
      { c with div := none, divR := w40i (if 2 ≤ d.kind then x.1 else satS 40 x.1), divM := w40i x.2 }

/-- The oldest load on its way returns. -/
def CoreSt.loadFinish (c : CoreSt) : CoreSt :=
  match c.loads with
  | [] => c
  | l :: rest =>
    match l.words with
    | [x] => { c with loads := rest, lsuR := x }
    | [x, y] => { c with loads := rest, lsuR := x, lsuRh := y }
    | _ => { c with loads := rest }

/-- Every load on its way returns. -/
def CoreSt.loadsFinish (c : CoreSt) : CoreSt := c.loads.foldl (fun c _ => c.loadFinish) c

/-! ## Return stack -/

/-- R305. A push; `none` when it raises RS_OVF. -/
def CoreSt.push (c : CoreSt) (a : Nat) : Option CoreSt :=
  if c.rs.length < 16 then some { c with rs := a :: c.rs }
  else if bitOf c.rsCfg c.ring then none
  else some { c with rs := (a :: c.rs).take 16, rsWrapped := true }

/-! ## Sources -/

/-- What reading a source gives. -/
inductive Got
  | val (c : CoreSt) (v : Word)
  | wait
  | exc (code info : Nat)
deriving DecidableEq, Repr

/-- R310. The system registers as sources. -/
def CoreSt.readSys (c : CoreSt) (id e : Nat) : Got :=
  match e with
  | 0x200 => .val c (w40 id)
  | 0x201 => .val c (w40 c.ring)
  | 0x202 => .val c (w40 (b2n c.sat))
  | 0x203 => .val c (w40 c.preds)
  | 0x204 => .val c (w40 c.rptCnt)
  | 0x205 => .val c (w40 (b2n c.rsWrapped * 32 + c.rs.length))
  | 0x206 =>
    match c.rs with
    | [] => .exc 0x07 0
    | a :: rest => .val { c with rs := rest } (w40 a)
  | _ => .val c (w40 c.rsCfg)

/-- R281. Operand ports read back, 0x0A0 to 0x0A9. -/
def CoreSt.readBack (c : CoreSt) (e : Nat) : Word :=
  match e with
  | 0xA0 => c.aluA | 0xA1 => c.shfA | 0xA2 => c.cmpA | 0xA3 => c.mulA | 0xA4 => c.macA | 0xA5 => c.divA
  | 0xA6 => c.cpyS | 0xA7 => c.cpyD | 0xA8 => c.lsuH | _ => c.cnsA

/-- R284. mac.rN. -/
def CoreSt.readMac (c : CoreSt) (n : Nat) : Got :=
  let x := c.limit (roundShr (c.accN n).toInt 32)
  .val x.1 x.2

/-- R279, R281. Source code `e` of core `id`; `pins` is what gio.r returns. A result not yet ready waits (R284). -/
def CoreSt.read (c : CoreSt) (id : Nat) (pins : Word) (e : Nat) : Got :=
  if e < 0x20 then .val c (if e = 0 then 0 else c.v.at 0 e)
  else if 0x24 ≤ e ∧ e < 0x28 then c.readMac (e - 0x24)
  else if 0x40 ≤ e ∧ e < 0x80 then .val c (w40i (sx 6 e))
  else if 0x80 ≤ e ∧ e < 0x88 then .val c (w40 (b2n (bitOf c.preds (e - 0x80))))
  else if 0xA0 ≤ e ∧ e < 0xAA then .val c (c.readBack e)
  else if 0x110 ≤ e ∧ e < 0x118 then
    .val c (if e % 2 = 0 then (c.accN ((e - 0x110) / 2)).lo else (c.accN ((e - 0x110) / 2)).hi)
  else if 0x200 ≤ e then c.readSys id e
  else match e with
    | 0x20 => .val c c.aluR
    | 0x21 => .val c c.shfR
    | 0x22 => .val c c.cmpR
    | 0x23 => .val c c.mulR
    | 0x28 => if c.div.isSome then .wait else .val c c.divR
    | 0x29 => if c.div.isSome then .wait else .val c c.divM
    | 0x2A => if c.loads.isEmpty then .val c c.lsuR else .wait
    | 0x2B => if c.loads.any (fun l => l.words.length == 2) then .wait else .val c c.lsuRh
    | 0x2C => .val c c.cnsR
    | 0x2D => if c.evp = 0 then .wait else .val { c with evp := 0 } (w40 c.evp)
    | 0x2E => .val { c with evp := 0 } (w40 c.evp)
    | 0x2F => .val c pins
    | 0x30 => .val c (w40 c.rptCnt)
    | 0x31 => if c.cpy.isSome then .wait else .val c c.cpyR
    | 0x32 => .val c c.lsuA
    | _ => .val c c.lsuB

/-! ## Destinations whose effect lies in the core -/

/-- What a move into a port does. -/
inductive Put
  | val (c : CoreSt)
  | wait
  | exc (code info : Nat)
deriving DecidableEq, Repr

/-- R280, R283. Operand ports. -/
def CoreSt.operand (c : CoreSt) (e : Nat) (t : Word) : CoreSt :=
  match e with
  | 0x28 => { c with aluA := t }
  | 0x35 => { c with shfA := t }
  | 0x3B => { c with cmpA := t }
  | 0x42 => { c with mulA := t }
  | 0x46 => { c with macA := t }
  | 0x53 => { c with divA := t }
  | 0x57 => { c with cpyS := t }
  | 0x58 => { c with cpyD := t }
  | 0x5A => { c with lsuA := t }
  | 0x5B => { c with lsuB := t }
  | 0x5C => { c with lsuH := t }
  | _ => { c with cnsA := t }

/-- An operand port's code. -/
def isOperand (e : Nat) : Bool := [0x28, 0x35, 0x3B, 0x42, 0x46, 0x53, 0x57, 0x58, 0x5A, 0x5B, 0x5C, 0x68].contains e

/-- R281. Result ports written directly; an operation in progress on the port has then been overtaken (R284). -/
def CoreSt.putResult (c : CoreSt) (e : Nat) (t : Word) : CoreSt :=
  match e with
  | 0xC0 => { c with aluR := t }
  | 0xC1 => { c with shfR := t }
  | 0xC2 => { c with cmpR := t }
  | 0xC3 => { c with mulR := t }
  | 0xC8 => { c.divFinish with divR := t }
  | 0xC9 => { c.divFinish with divM := t }
  | 0xCA => { c.loadsFinish with lsuR := t }
  | 0xCB => { c.loadsFinish with lsuRh := t }
  | _ => { c with cnsR := t }

/-- R310, R311. A move into a system register. -/
def CoreSt.putSys (c : CoreSt) (e : Nat) (t : Word) : Put :=
  match e with
  | 0x202 => .val { c with sat := bitOf t.toNat 0 }
  | 0x203 => .val { c with preds := bitsOf t.toNat 1 7 * 2 + 1 }
  | 0x205 => .val { c with rsWrapped := c.rsWrapped && !bitOf t.toNat 5 }
  | 0x206 =>
    match c.push (t.toNat % 2 ^ 32) with
    | some c => .val c
    | none => .exc 0x06 0
  | _ => if 2 ≤ c.ring then .exc 0x02 0x10 else .val { c with rsCfg := t.toNat % 16 }

/-- R278. A move into a predicate. -/
def CoreSt.putPred (c : CoreSt) (j : Nat) (t : Word) : CoreSt :=
  if j = 0 then c else { c with preds := withBits c.preds j 1 (b2n (t != 0)) }

/-- R271, R287, R288. A move into a DIV trigger: 0 div.t, 1 div.q, 2 div.u. Later moves see its limit's SAT at once. -/
def CoreSt.divTrig (c : CoreSt) (kind : Nat) (t : Word) : Put :=
  if c.div.isSome then .wait
  else if c.divA = 0 then .exc 0x05 0
  else .val { c with div := some { kind := kind, t := t, a := c.divA }, sat := c.sat || divLimited kind t c.divA }

/-- R289. A move into cpy.t. -/
def CoreSt.cpyTrig (c : CoreSt) (t : Word) : Put :=
  if c.cpy.isSome then .wait
  else if t.toNat % 2 ^ 24 = 0 then .val { c with cpyR := 0 }
  else .val { c with cpy := some ⟨c.cpyS.toNat % 2 ^ 32, c.cpyD.toNat % 2 ^ 32, t.toNat % 2 ^ 24, c.ring⟩ }

/-- R295. A move into cns.t. -/
def CoreSt.cns (c : CoreSt) (t : Word) : CoreSt :=
  { c with cnsR := w40 (c.cnsA.toNat % 2 ^ 17 * 2 ^ 23 + t.toNat % 2 ^ 23) }

/-- R298. The private port's triggers 0x6B to 0x6E. -/
def CoreSt.gioTrig (c : CoreSt) (e : Nat) (t : Word) : CoreSt :=
  let x := t.toNat % 65536
  match e with
  | 0x6B => { c with gio := x }
  | 0x6C => { c with gio := c.gio ||| x }
  | 0x6D => { c with gio := c.gio - (c.gio &&& x) }
  | _ => { c with gio := c.gio ^^^ x }

/-- R280, R281. A move of `t` into a destination whose whole effect lies in the core. -/
def CoreSt.put (c : CoreSt) (e : Nat) (t : Word) : Put :=
  if e < 0x20 then .val (if e = 0 then c else { c with v := c.v.set 0 e t })
  else if e < 0x28 then .val (c.putPred (e - 0x20) t)
  else if isOperand e then .val (c.operand e t)
  else if e < 0x35 then .val (c.alu e t)
  else if e < 0x3B then .val (c.shf e t)
  else if e < 0x42 then .val (c.cmpT e t)
  else if e < 0x46 then .val (c.mulT e t)
  else if e < 0x53 then .val (c.macT e t)
  else if e < 0x57 then c.divTrig (e - 0x54) t
  else if e = 0x59 then c.cpyTrig t
  else if e = 0x69 then .val (c.cns t)
  else if 0x6B ≤ e ∧ e ≤ 0x6E then .val (c.gioTrig e t)
  else if 0xC0 ≤ e ∧ e < 0xD0 then .val (c.putResult e t)
  else if 0x100 ≤ e ∧ e < 0x104 then
    .val { c with acc := setN 4 0 c.acc (e - 0x100) (BitVec.ofInt 80 (t.toInt * 2 ^ 32)) }
  else if 0x110 ≤ e ∧ e < 0x118 then
    let n := (e - 0x110) / 2
    .val { c with acc := setN 4 0 c.acc n (if e % 2 = 0 then dword t (c.accN n).hi else dword (c.accN n).lo t) }
  else if 0x200 ≤ e then c.putSys e t
  else .val c

/-! ## Position -/

/-- R300, R302. The packet at hand ends: the next repetition, or the packet after. -/
def CoreSt.endPacket (c : CoreSt) : CoreSt :=
  let on : CoreSt := { c with pc := (c.pc + 1) % 2 ^ 32, half := false }
  match c.rpt with
  | none => on
  | some b =>
    if b ≠ c.pc then on
    else if 1 < c.rptCnt then { c with half := false, rptCnt := c.rptCnt - 1 }
    else { on with rpt := none, rptCnt := 0, rptInt := false }

/-- R270, R271. The position after a move of a kind. -/
def CoreSt.advance (c : CoreSt) (kind : MoveKind) : CoreSt :=
  match kind with
  | .short => if c.half then c.endPacket else { c with half := true }
  | .whole => c.endPacket
  | .straddle => { c with pc := (c.pc + 1) % 2 ^ 32, half := true }

/-- The packet after the one that holds the move's last half. -/
def CoreSt.after (c : CoreSt) (kind : MoveKind) : Nat :=
  match kind with
  | .straddle => (c.pc + 2) % 2 ^ 32
  | _ => (c.pc + 1) % 2 ^ 32

/-- R294. Execution continues at H0 of a target. -/
def CoreSt.goto (c : CoreSt) (a : Nat) : CoreSt := { c with pc := a % 2 ^ 32, half := false }

/-- R277. A guard holds. -/
def CoreSt.holds (c : CoreSt) (guard : Nat) (inv : Bool) : Bool := bitOf c.preds guard != inv

/-- R318, R360. A boundary: between packets, and not within a repeat with INT = 0. -/
def CoreSt.atBoundary (c : CoreSt) : Bool := !c.half && (c.rpt.isNone || c.rptInt)

/-- R662. The debugger has halted the core, or has asked and the core stands at a boundary. -/
def CoreSt.isHalted (c : CoreSt) : Bool := c.halted || (c.haltReq && c.atBoundary)

end Sys2Proof.Machine
end

