-- ==== Sys2Proof/Machine/Dic.lean ====
section
/-! DEFINITION. The Doorbell Interrupt Controller, the watchdogs and the always-on watcher (R372 to R393). -/

namespace Sys2Proof.Machine

open Sys2Proof

/-! ## Sources -/

/-- R44. The cluster whose DIC receives the page's request; `none` when the request goes to the host. -/
def Hw.dicOf (h : Hw) (p : Page) : Option Nat :=
  let req := h.f p 0 OWNER_REQ
  if req < 0x20 then some (req / 4)
  else if req = 0x30 then none
  else if p.cl < 8 then some p.cl
  else some 0

/-- R44. The page requests an interrupt and the request is routed to the DIC of cluster `c`. -/
def Hw.requests (h : Hw) (c : Nat) (p : Page) : Bool := h.pageReq p && h.dicOf p == some c

/-- R388. REMOTEm of cluster `c`: bit p, page p of cluster m requests and is routed here. -/
def Hw.remotePages (h : Hw) (c m : Nat) : Nat :=
  (List.range 30).foldl (fun n p => n + b2n (h.requests c ⟨m, p⟩) * 2 ^ p) 0

/-- R372. The hardware line of source `src` of cluster `c`. -/
def Hw.srcLine (h : Hw) (c src : Nat) : Bool :=
  if src < 0x1E then h.requests c (⟨c, src⟩ : Page)
  else if 0x40 ≤ src ∧ src ≤ 0x91 then h.requests c (⟨devCl, src - 0x40⟩ : Page)
  else if 0xA0 ≤ src ∧ src ≤ 0xA7 then h.remotePages c (src - 0xA0) != 0
  else false

/-- R373. The source is pending. -/
def Hw.srcPend (h : Hw) (c src : Nat) : Bool :=
  let p := pDIC c
  if h.b p src DIC_SRCCFG_TYPE then h.b p src DIC_SRCSTAT_LATCH
  else !h.b p src DIC_SRCSTAT_ACTIVE && (h.srcLine c src || h.b p src DIC_SRCSTAT_LATCH)

/-- R374. The active stack of core `k` of cluster `c`, top first. -/
def Hw.stack (h : Hw) (c k : Nat) : List Claimed := h.dicStack.at [] (4 * c + k)

/-- The active stack replaced, RUNSTAT and FULL with it. -/
def Hw.setStack (h : Hw) (c k : Nat) (l : List Claimed) : Hw :=
  let p := pDIC c
  let h := { h with dicStack := h.dicStack.set [] (4 * c + k) l }
  let h := (h.setF p 0 (DIC_CORE_RUNSTAT_DEPTH k) l.length).setB p 0 ⟨0x03, 12 + k, 1⟩ (decide (16 ≤ l.length))
  match l with
  | [] => (h.setF p 0 (DIC_CORE_RUNSTAT_RUNTIER k) 8).setF p 0 (DIC_CORE_RUNSTAT_RUNPRIO k) 0xFF
  | x :: _ => (h.setF p 0 (DIC_CORE_RUNSTAT_RUNTIER k) x.tier).setF p 0 (DIC_CORE_RUNSTAT_RUNPRIO k) x.prio

/-- R380. The sources of cluster `c` disabled late and still open to one claim. -/
def Hw.lateSources (h : Hw) (c : Nat) : List Nat :=
  (h.dicLate.filter (fun x => x.cl == c && decide (h.now < x.until'))).map (·.src)

/-- The enabled sources of cluster `c`. SRCCFG resets to a disabled source, so an enabled one is listed. -/
def Hw.enabledSources (h : Hw) (c : Nat) : List Nat :=
  h.lateSources c ++
    (h.regs.filter (fun e => e.1.cl == c && e.1.idx == 0x05 && e.1.off == 0x10 && bitOf e.2.toNat 0)).map (·.1.ch)

/-- R374. The source, enabled, is deliverable to core `k` of cluster `c`. -/
def Hw.deliverable (h : Hw) (c k src : Nat) : Bool :=
  let p := pDIC c
  h.b p 0 DIC_CTRL_EN && h.srcPend c src && h.f p src DIC_SRCCFG_TGT == k && !h.b p src DIC_SRCSTAT_ACTIVE &&
    decide ((h.stack c k).length < 16) &&
    (match h.stack c k with
     | [] => true
     | x :: _ => decide (h.f p src DIC_SRCCFG_TIER < x.tier))

/-- R374. Where a source stands among the deliverable ones: tier, then PRIO, then number. -/
def Hw.srcRank (h : Hw) (c src : Nat) : Nat :=
  (h.f (pDIC c) src DIC_SRCCFG_TIER * 256 + h.f (pDIC c) src DIC_SRCCFG_PRIO) * 256 + src

/-- R374. The winner among the deliverable sources of core `k`. -/
def Hw.winner (h : Hw) (c k : Nat) : Option Nat :=
  ((h.enabledSources c).filter (h.deliverable c k)).foldl (fun best src =>
    match best with
    | none => some src
    | some b => if h.srcRank c src < h.srcRank c b then some src else some b) none

/-- R375. The source the DIC presents to core `k`. -/
def Hw.presentedSrc (h : Hw) (c k : Nat) : Option Nat :=
  (h.winner c k).filter (fun src => decide (h.f (pDIC c) src DIC_SRCCFG_TIER < h.f (pDIC c) 0 (DIC_CORE_IMASK_FLOOR k)))

/-! ## Claims, completions and writes -/

/-- R373. The line is sampled at a page-clock edge; a rising one sets the latch of an EDGE source.
DEDUCED, unsafe: log entry 69. -/
def Hw.lineSample (h : Hw) (c src : Nat) : Hw :=
  let level := h.srcLine c src
  let was := h.dicLine.at false (256 * c + src)
  let h := { h with dicLine := h.dicLine.set false (256 * c + src) level }
  if level && !was && h.b (pDIC c) src DIC_SRCCFG_TYPE then h.setF (pDIC c) src DIC_SRCSTAT_LATCH 1 else h

/-- R373. A DOORBELL write sets the latch of the source it names. -/
def Hw.doorbell (h : Hw) (c : Nat) (d : Word) : Hw := h.setF (pDIC c) (d.toNat % 256) DIC_SRCSTAT_LATCH 1

/-- R377. The handler of core `k` claims `got`: a takeover counts when it differs from the source presented at entry. -/
def Hw.takeover (h : Hw) (who : Requester) (c k : Nat) (got : Option Nat) : Hw :=
  let x := h.core (4 * c + k)
  if who.id ≠ 4 * c + k then h
  else
    let h := h.setCore (4 * c + k) { x with presented := none }
    match x.presented, got with
    | some was, some src => if was = src then h else h.incF (pDIC c) 0 DIC_TAKE_CNT_COUNT
    | _, _ => h

/-- R376. A read of CLAIM of core `k` by `who`, and the word it returns. -/
def Hw.dicClaim (h : Hw) (who : Requester) (c k : Nat) : Hw × Word :=
  let p := pDIC c
  match h.winner c k with
  | none => (h.takeover who c k none, 0)
  | some src =>
    let tier := h.f p src DIC_SRCCFG_TIER
    let prio := h.f p src DIC_SRCCFG_PRIO
    let h := h.takeover who c k (some src)
    let h := (h.setF p src DIC_SRCSTAT_ACTIVE 1).setF p src DIC_SRCSTAT_LATCH 0
    let h := { h with dicLate := h.dicLate.filter (fun x => !(x.cl == c && x.src == src)) }
    (h.setStack c k (⟨src, tier, prio⟩ :: h.stack c k), w40 (prio * 2 ^ 16 + tier * 2 ^ 9 + 2 ^ 8 + src))

/-- R378, R379. A write of DONE of core `k`: it pops the top entry it names, or it is refused. -/
def Hw.dicDone (h : Hw) (c k : Nat) (d : Word) : Hw × Bool :=
  match h.stack c k with
  | x :: rest =>
    if x.src = d.toNat % 256 then ((h.setF (pDIC c) x.src DIC_SRCSTAT_ACTIVE 0).setStack c k rest, true)
    else (h.irqBit (pDIC c) DIC_IRQ_PSF k, false)
  | [] => (h.irqBit (pDIC c) DIC_IRQ_PSF k, false)

/-- R380. A write of SRCCFG: in COMPAT mode a source disabled now stays open for 4 CCn_PERI cycles (8 of the model's). -/
def Hw.srccfgWrite (h : Hw) (c src : Nat) (d : Word) : Hw :=
  let was := h.b (pDIC c) src DIC_SRCCFG_EN
  let h := h.plainWrite (pDIC c) 0x10 src d
  let h := { h with dicLate := h.dicLate.filter (fun x =>
    decide (h.now < x.until') && !(x.cl == c && x.src == src && bitOf d.toNat 0)) }
  if was && !bitOf d.toNat 0 && h.b (pDIC c) 0 DIC_CTRL_COMPAT then
    { h with dicLate := h.dicLate ++ [⟨c, src, h.now + 8⟩] }
  else h

/-- R390. The registers of a core group that only ring 0 writes. -/
def ringZeroOnly (off : Nat) : Bool := 0x90 ≤ off && off < 0xD0 && 4 ≤ off % 16 && off % 16 ≤ 9

/-- R390. A software write of XFP of core `k`; an entry, gate or return of the same cycle leaves its own value. -/
def Hw.xfpWrite (h : Hw) (c k : Nat) (d : Word) : Hw :=
  let i := 4 * c + k
  if h.xfpHw.contains i then h
  else
    let was := h.f (pDIC c) 0 (DIC_CORE_XFP_ADDR k)
    let h := if h.xfpSw.any (fun x => x.1 == i) then h else { h with xfpSw := (i, was) :: h.xfpSw }
    h.plainWrite (pDIC c) (0x9A + 16 * k) 0 d

/-- Effect of a page write to DIC of cluster `c` that passed R33. -/
def Hw.dicWrite (h : Hw) (a : Acc) (c off ch : Nat) (d : Word) : Hw × Bool :=
  if off = 0x80 then (h.doorbell c d, true)
  else if off = 0x10 then (h.srccfgWrite c ch d, true)
  else if 0x90 ≤ off ∧ off < 0xD0 ∧ off % 16 = 1 then h.dicDone c ((off - 0x90) / 16) d
  else if ringZeroOnly off && a.ring != 0 then (h, false)
  else if 0x90 ≤ off ∧ off < 0xD0 ∧ off % 16 = 0xA then (h.xfpWrite c ((off - 0x90) / 16) d, true)
  else (h.plainWrite (pDIC c) off ch d, true)

/-! ## Watchdogs -/

/-- The page of a watchdog: cluster n's, or the device watchdog (`none`). -/
def wdtPage (x : Option (Fin 8)) : Page :=
  match x with
  | some c => pCWDT c
  | none => pDWDT

/-- R385. A debugger halts a core of the watchdog's scope. -/
def Hw.wdtHalted (h : Hw) (x : Option (Fin 8)) : Bool :=
  h.cores.any (fun e => e.2.isHalted && (match x with | some c => e.1 / 4 == c.val | none => true))

/-- R385. The watchdog counts; after an expiry COUNT goes on, and wraps.
DEDUCED, unsafe: log entry 143. -/
def Hw.wdtCounts (h : Hw) (x : Option (Fin 8)) : Bool :=
  let p := wdtPage x
  h.b p 0 WDT_CTRL_EN &&
    (match x with | some c => h.clusterRuns c | none => !h.deep) &&
    !(h.b p 0 WDT_CTRL_DBG_STOP && h.wdtHalted x)

/-- R387, R608, R611. Expiry: the cluster's forced safe state, or a device reset request. -/
def Hw.wdtExpire (h : Hw) (x : Option (Fin 8)) : Hw :=
  let h := h.setF (wdtPage x) 0 WDT_STATUS_EXPIRED 1
  match x with
  | some c => h.forceCluster c
  | none => h.resetRequest 2

/-- R386. COUNT goes up to `n`; a WARN on the way sets its flag. The prescaler restarts.
DEDUCED, unsafe: log entry 70. -/
def Hw.wdtReach (h : Hw) (x : Option (Fin 8)) (n : Nat) : Hw :=
  let p := wdtPage x
  let warn := h.f p 0 WDT_WCFG_WARN
  let was := h.f p 0 WDT_COUNT_COUNT
  let h := { h with wdtPre := h.wdtPre.set 0 (match x with | some c => c.val | none => 8) 0 }.setF p 0 WDT_COUNT_COUNT n
  if was < warn ∧ warn ≤ n then h.irqBit p WDT_IRQ_WARN 0 else h

/-- R386. A write of KICK. -/
def Hw.wdtKick (h : Hw) (x : Option (Fin 8)) (d : Word) : Hw :=
  let p := wdtPage x
  if !h.b p 0 WDT_CTRL_EN then h
  else if d.toNat % 256 = 0x5A ∧ h.f p 0 WDT_WTIME_OPEN ≤ h.f p 0 WDT_COUNT_COUNT then
    { h.setF p 0 WDT_COUNT_COUNT 0 with wdtPre := h.wdtPre.set 0 (match x with | some c => c.val | none => 8) 0 }
  else h.wdtExpire x

/-- Effect of an accepted page write to a watchdog. -/
def Hw.wdtWrite (h : Hw) (x : Option (Fin 8)) (off : Nat) (d : Word) : Hw :=
  if off = 0x82 then h.wdtKick x d else h.plainWrite (wdtPage x) off 0 d

/-! ## Power of a cluster -/

/-- R621, R631. Cluster `n` leaves or never enters the gated state. -/
def Hw.ungate (h : Hw) (n : Nat) : Hw :=
  let h := h.setF pPWR 0 ⟨0x03, 10 + n, 1⟩ 0
  if h.b pPWR 0 ⟨0x03, 2 + n, 1⟩ then
    (h.setF pPWR 0 ⟨0x03, 2 + n, 1⟩ 0).setF (pCLU n) 0 CLU_STATUS_STATE (h.f (pCLU n) 0 CLU_CTRL_SAFE)
  else h

/-! ## Always-on watcher -/

/-- R381. The level of a watch source; a Seam wake input has none. -/
def Hw.watchLevel (h : Hw) (code : Nat) : Bool :=
  let loc := code / 4096
  let i := code % 4096
  if loc < 8 ∧ 0x060 ≤ i ∧ i < 0x068 then
    h.lintOut loc (i - 0x060) && (!(h.halted || h.deep) || h.b (pCMP loc) (i - 0x060) CMP_CCFG_WAKE)
  else if 0xF020 ≤ code ∧ code < 0xF040 then bitOf (h.f pPIN 0 PIN_PEV_LVL_LEVEL) (code - 0xF020)
  else if code = 0xF080 then
    h.f pAOW 0 AOW_TMR_COMPARE != 0 && decide (h.f pAOW 0 AOW_TMR_COMPARE ≤ h.f pAOW 0 AOW_TMR_CNT_COUNT)
  else if code = 0xF081 then h.safeNLow
  else false

/-- R381. The Seam wake input a source code names. -/
def wakeInput (code : Nat) : Bool := 0xF070 ≤ code && code < 0xF074

/-- R383, R621. A wake request: recorded once; it ends HALT, or waits for DEEP_WAKE. -/
def Hw.wake (h : Hw) (w : Nat) : Hw :=
  let h := if h.b pAOW 0 AOW_STATUS_CAUSE_VALID then h
    else (h.setF pAOW 0 AOW_STATUS_CAUSE w).setF pAOW 0 AOW_STATUS_CAUSE_VALID 1
  if h.deep then { h with wakeReq := true }
  else
    [0, 1, 2, 3, 4, 5, 6, 7].foldl (fun h n => if bitOf (h.f pPWR 0 PWR_CTRL_HALT_MASK) n then h else h.ungate n)
      ((h.hwF pPWR 0 PWR_CTRL_HALT_MASK 0).irqBit pPWR PWR_IRQ_WAKE 0)

/-- R382, R383. Channel `w` sets HIT. -/
def Hw.aowHit (h : Hw) (w : Nat) : Hw :=
  let asleep := h.halted || h.deep
  let h := h.irqBit pAOW AOW_IRQ_HIT w
  if asleep && h.b pAOW w AOW_WSRC_WAKE then h.wake w else h

/-- The watcher and channel `w` are enabled. -/
def Hw.aowOn (h : Hw) (w : Nat) : Bool := h.b pAOW 0 AOW_CTRL_EN && h.b pAOW w AOW_WSRC_EN

/-- R382. The source of channel `w` has risen; `a` is the arrival at a Seam wake input. -/
def Hw.aowEdge (h : Hw) (w : Nat) (a : Option Arrival) : Hw :=
  let code := h.f pAOW w AOW_WSRC_CODE
  if !h.aowOn w then h
  else if wakeInput code then
    match a with
    | some a =>
      let x := h.arrive a code true
      if x.2 then x.1.aowHit w else x.1
    | none => h
  else if h.watchLevel code then h.aowHit w
  else h

/-- R382. With ACT = 0 a source that is high at an AON edge sets HIT. -/
def Hw.aowLevel (h : Hw) (w : Nat) : Hw :=
  if h.aowOn w && !h.b pAOW w AOW_WSRC_ACT && h.watchLevel (h.f pAOW w AOW_WSRC_CODE) then h.aowHit w else h

/-- Effect of an accepted page write to AOW; one of TMR restarts the timer (R384). -/
def Hw.aowWrite (h : Hw) (off ch : Nat) (d : Word) : Hw :=
  let h := h.plainWrite pAOW off ch d
  if off = 0x80 then h.setF pAOW 0 AOW_TMR_CNT_COUNT 0 else h

/-- R384. The wake timer reaches COMPARE and stops. -/
def Hw.wakeTimer (h : Hw) : Hw :=
  if h.f pAOW 0 AOW_TMR_CNT_COUNT < h.f pAOW 0 AOW_TMR_COMPARE then
    h.setF pAOW 0 AOW_TMR_CNT_COUNT (h.f pAOW 0 AOW_TMR_COMPARE)
  else h

/-! ## The commands -/

/-- DIC_LINE_CHANGE: the line of source `src` is sampled. -/
def execDicLineChange (c : Fin 8) (src : Fin 256) (s : State) : Host.Outcome State Fault Refusal :=
  onHw s (fun h => if h.clusterRuns c then h.lineSample c src else h)

/-- DOORBELL. -/
def execDicDoorbell (w : Requester) (c : Fin 8) (d : Word) (s : State) : Host.Outcome State Fault Refusal :=
  onHw s (fun h => h.direct w (pDIC c) 0x80 (fun g => g.doorbell c d))

/-- CLAIM of core `k` by a read of requester `w`; a page that cannot be reached returns 0. -/
def execDicClaim (w : Requester) (c : Fin 8) (k : Fin 4) (s : State) : Host.Outcome State Fault Refusal :=
  onHw s (fun h =>
    if h.mayRead (h.acc w) (pDIC c) then
      let x := (h.granted (h.acc w) (pDIC c)).dicClaim w c k
      { x.1 with resp := [x.2] }
    else { h with resp := [0] })

/-- DONE of core `k`. -/
def execDicDone (w : Requester) (c : Fin 8) (k : Fin 4) (d : Word) (s : State) : Host.Outcome State Fault Refusal :=
  onHw s (fun h => h.directR w (pDIC c) (0x91 + 0x10 * k) (fun g => g.dicDone c k d))

/-- SRCCFG_DISABLE: a write of SRCCFG of the requester's channel. -/
def execSrccfgDisable (w : Requester) (c : Fin 8) (d : Word) (s : State) : Host.Outcome State Fault Refusal :=
  onHw s (fun h => h.directCh w (pDIC c) 0x10 (fun src g => g.srccfgWrite c src d))

/-- AOW_SOURCE_EDGE. -/
def execAowSourceEdge (w : Fin 32) (a : Option Arrival) (s : State) : Host.Outcome State Fault Refusal :=
  onHw s (fun h => h.aowEdge w a)

/-- AOW_LEVEL_HIT. -/
def execAowLevelHit (w : Fin 32) (s : State) : Host.Outcome State Fault Refusal := onHw s (fun h => h.aowLevel w)

/-- WAKE_TIMER_WRITE. -/
def execWakeTimerWrite (w : Requester) (d : Word) (s : State) : Host.Outcome State Fault Refusal :=
  onHw s (fun h => h.direct w pAOW 0x80 (fun g => g.aowWrite 0x80 0 d))

/-- WAKE_TIMER_EXPIRY. -/
def execWakeTimerExpiry (s : State) : Host.Outcome State Fault Refusal := onHw s (fun h => h.wakeTimer)

/-- WATCHDOG_ENABLE: a write of CTRL. -/
def execWatchdogEnable (w : Requester) (x : Option (Fin 8)) (d : Word) (s : State) : Host.Outcome State Fault Refusal :=
  onHw s (fun h => h.direct w (wdtPage x) 0x02 (fun g => g.wdtWrite x 0x02 d))

/-- WATCHDOG_KICK: a write of KICK. -/
def execWatchdogKick (w : Requester) (x : Option (Fin 8)) (d : Word) (s : State) : Host.Outcome State Fault Refusal :=
  onHw s (fun h => h.direct w (wdtPage x) 0x82 (fun g => g.wdtKick x d))

/-- WATCHDOG_WARN: COUNT reaches a nonzero WARN. -/
def execWatchdogWarn (x : Option (Fin 8)) (s : State) : Host.Outcome State Fault Refusal :=
  onHw s (fun h =>
    if h.wdtCounts x && decide (h.f (wdtPage x) 0 WDT_COUNT_COUNT < h.f (wdtPage x) 0 WDT_WCFG_WARN) then
      h.wdtReach x (h.f (wdtPage x) 0 WDT_WCFG_WARN) else h)

/-- WATCHDOG_EXPIRY: COUNT reaches CLOSE. -/
def execWatchdogExpiry (x : Option (Fin 8)) (s : State) : Host.Outcome State Fault Refusal :=
  onHw s (fun h =>
    if h.wdtCounts x && !h.b (wdtPage x) 0 WDT_STATUS_EXPIRED then (h.wdtReach x (h.f (wdtPage x) 0 WDT_WTIME_CLOSE)).wdtExpire x else h)

end Sys2Proof.Machine
end

