-- ==== Sys2Proof/Machine/Dram.lean ====
section
/-! DEFINITION. The DRAM controller, the Darner and the commands of the Hamper (R420 to R447). A line's decoder outcome comes
with the command that reads it; the words a requester receives come with the requester's own command. -/

namespace Sys2Proof.Machine

open Sys2Proof

/-- First word of DRAM line `l` (its 8 words follow). -/
def lineBase (l : Nat) : Nat := 0x10000000 + 8 * l

/-- The line of a DRAM word. -/
def lineOf (g : Nat) : Nat := (g - 0x10000000) / 8

/-- The DRAM range is usable. -/
def Hw.dramReady (h : Hw) : Bool := h.b pDRAM 0 DRAM_STATUS_READY

/-- R428. A slot reads as poisoned: its POISON bit is 1, or its line was found uncorrectable and awaits its rewrite. -/
def State.poisoned (s : State) (g : Nat) : Bool :=
  (s.tag g).getLsbD 3 || s.hw.dramBad.any (fun x => x.line == lineOf g)

/-- Every tag byte of a line set. -/
def State.setTags (s : State) (l : Nat) (v : BitVec 8) : State :=
  (List.range 8).foldl (fun s i => s.setTag (lineBase l + i) v) s

/-- R432. One line slot used by a class: its count, and its place in the running group of 16. -/
def Hw.slot (h : Hw) (cls : Nat) : Hw :=
  let h := h.setF pDRAM 0 (DRAM_CLS_CNT_COUNT cls) (h.f pDRAM 0 (DRAM_CLS_CNT_COUNT cls) + 1)
  if h.dramPos = 15 then { h with dramPos := 0, dramRec := false, dramBulk := false }
  else { h with dramPos := h.dramPos + 1, dramRec := h.dramRec || cls == 1, dramBulk := h.dramBulk || decide (2 ≤ cls) }

/-- R432. Line slots used by a class.
DEDUCED, unsafe: log entry 80. -/
def Hw.slots (h : Hw) (cls : Nat) : Nat → Hw
  | 0 => h
  | n + 1 => (h.slot cls).slots cls n

/-- R426, R427. A line has been written: nothing of it waits for a rewrite or a write-back any more.
DEDUCED, unsafe: log entry 79. -/
def Hw.lineWritten (h : Hw) (line : Nat) : Hw :=
  { h with dramBad := h.dramBad.filter (fun b => b.line != line), dramWb := h.dramWb.filter (· != line) }

/-- R422. A line is written whole in one slot of class REC, with one tag byte for its slots. -/
def State.writeLine (s : State) (l : Nat) (ws : List Word) (tag : BitVec 8) : State :=
  ((s.wrList (lineBase l) (ws.take 8)).setTags l tag).on (fun h => (h.slots 1 1).lineWritten l)

/-- R422, R539. A line is read and written whole elsewhere, with its tag bytes, in two slots of class REC; `head` replaces its
first word. -/
def State.copyLine (s : State) (src dst : Nat) (head : Option Word) : State :=
  let ws := s.rdList (lineBase src) 8
  let s' := s.wrList (lineBase dst) (match head with | some w => w :: ws.drop 1 | none => ws)
  ((List.range 8).foldl (fun t i => t.setTag (lineBase dst + i) (s.tag (lineBase src + i))) s').on
    (fun h => (h.slots 1 2).lineWritten dst)

/-- R430. One log entry for a line read. -/
def Hw.dramLog (h : Hw) (line : Nat) (x : DieRep) (origin req : Nat) : Hw :=
  let kind := if 4 < x.syms then 3 else if x.syms ≠ 0 then 2 else 1
  let h := h.setF pDRAM 0 DRAM_ERR_ADDR_LINE line
  let h := (h.setF pDRAM 0 DRAM_ERR_INFO_REQ req).setF pDRAM 0 DRAM_ERR_INFO_ORIGIN origin
  let h := (h.setF pDRAM 0 DRAM_ERR_INFO_SYMS (if 4 < x.syms then 0 else x.syms)).setB pDRAM 0 DRAM_ERR_INFO_INNER (x.inner != 0)
  h.setF pDRAM 0 DRAM_ERR_INFO_KIND kind

/-- R430. An outer correction counts toward CE_WARN. -/
def Hw.ceStep (h : Hw) : Hw :=
  let n := h.ceCount + 1
  let h := { h with ceCount := n }
  if max 1 (h.f pDRAM 0 DRAM_CE_THR_THR) ≤ n then h.irqBit pDRAM DRAM_IRQ_CE_WARN 0 else h

/-- R424, R425, R430. A line read passes the decoders. -/
def Hw.lineRead (h : Hw) (line : Nat) (x : DieRep) (origin req : Nat) : Hw :=
  let h := if x.inner = 1 then (h.satF pDRAM 0 DRAM_CNT_INNER_COUNT).irqBit pDRAM DRAM_IRQ_INNER_CE 0 else h
  let h := if x.syms = 0 then h
    else if 4 < x.syms then (h.satF pDRAM 0 DRAM_CNT_UE_COUNT).irqBit pDRAM DRAM_IRQ_UE 0
    else ((h.satF pDRAM 0 DRAM_CNT_OUTER_COUNT).irqBit pDRAM DRAM_IRQ_OUTER_CE 0).ceStep
  if x.inner = 0 ∧ x.syms = 0 then h else h.dramLog line x origin req

/-! ## Arbitration (R431, R432) -/

/-- R431. The class of a requester. -/
def Requester.dramClass (r : Requester) : Nat :=
  match r with
  | .core _ => 0
  | .snap => 1
  | .hamper => 1
  | _ => 2

/-- R431. The class, the requester ID and the log's ORIGIN of a request; a Hamper dump's is BULK. -/
def DramReq.cls (q : DramReq) : Nat := match q.r with | some r => r.dramClass | none => 2
def DramReq.id (q : DramReq) : Nat := match q.r with | some r => r.id | none => 0x35
def DramReq.origin (q : DramReq) : Nat := match q.r with | some _ => 0 | none => 3

/-- R426, R427, R432. Whether anything of a class waits for a line slot. -/
def Hw.classWaits (h : Hw) (cls : Nat) : Bool :=
  h.dramBad.any (fun b => b.cls == cls) || h.dramQ.any (fun q => q.cls == cls) || (cls == 3 && !h.dramWb.isEmpty)

/-- R432. The class that the next line slot goes to: the lowest one waiting, but for the last slots of a group where they are
what REC, or BULK or SCRUB, still has to have of it. -/
def Hw.slotClass (h : Hw) : Option Nat :=
  let bulk := if h.classWaits 2 then 2 else 3
  let needRec : Bool := !h.dramRec && h.classWaits 1
  let needBulk : Bool := !h.dramBulk && h.classWaits bulk
  if needRec && decide (16 ≤ h.dramPos + 1 + b2n needBulk) then some 1
  else if needBulk && decide (16 ≤ h.dramPos + 1) then some bulk
  else [0, 1, 2, 3].find? (fun c => h.classWaits c)

/-- R427. The class that the next line slot goes to has a rewrite waiting, which goes ahead: its line. -/
def Hw.rewriteNext (h : Hw) : Option BadLine :=
  match h.slotClass with
  | some c => h.dramBad.find? (fun b => b.cls == c)
  | none => none

/-- R431, R432. The request that the next line slot goes to: the oldest of its class; in BULK, the oldest of the requester
whose turn it is. -/
def Hw.nextReq (h : Hw) : Option DramReq :=
  match h.slotClass, h.rewriteNext with
  | some c, none =>
    let qs := h.dramQ.filter (fun q => q.cls == c)
    if c ≠ 2 then qs.head?
    else
      let rank (q : DramReq) : Nat := (q.id + 256 - h.dramTurn) % 256
      let best := qs.foldl (fun n q => min n (rank q)) 256
      qs.find? (fun q => rank q == best)
  | _, _ => none

/-! ## Serving a line -/

/-- R427. The words of an uncorrectable line as read, but for the slots a write replaces. -/
def State.putErroneous (s : State) (line : Nat) (ws : List Word) (but : List (Fin 8)) : State :=
  (List.range (min 8 ws.length)).foldl (fun s i =>
    if but.any (fun j => j.val == i) then s else s.wr (lineBase line + i) (ws.getD i 0)) s

/-- R422, R425, R427. A read-modify-write of a line by class `cls`, in two line slots: an uncorrectable line is rewritten by it,
every slot poisoned. -/
def State.modifyLine (s : State) (cls origin req line : Nat) (slots : List (Fin 8)) (x : DieRep) : State :=
  let bad := s.hw.dramBad.find? (fun b => b.line == line)
  let s := s.on (fun h => ((h.slots cls 2).lineRead line x origin req).lineWritten line)
  if 4 < x.syms then (s.putErroneous line x.words slots).setTags line 0x08
  else match bad with
    | some b => (s.putErroneous line b.words slots).setTags line 0x08
    | none => s

/-- R422, R425 to R427. A request is served: a corrected line's write-back, or an uncorrectable line's rewrite, then waits. -/
def State.dramServe (s : State) (q : DramReq) (x : DieRep) : State :=
  let line := q.line.val
  match q.how with
  | .modify slots => s.modifyLine q.cls q.origin (if q.origin = 0 then q.id else 0) line slots x
  | .read =>
    let s := s.on (fun h => (h.slots q.cls 1).lineRead line x q.origin (if q.origin = 0 then q.id else 0))
    if x.syms = 0 then s
    else if 4 < x.syms then
      s.on (fun h => { h with dramBad := h.dramBad.filter (fun b => b.line != line) ++ [⟨line, q.cls, x.words⟩] })
    else if s.hw.b pDRAM 0 DRAM_CTRL_WB_EN then
      s.on (fun h => { h with dramWb := h.dramWb.filter (· != line) ++ [line] })
    else s

/-- R432. Requests reach the controller, and it gives the next line slot to a request. Until the array is ready none is held. -/
def State.dramSlot (s : State) (came : List DramReq) (x : DieRep) : State :=
  if !s.hw.dramReady then s
  else
    let s := s.on (fun h => { h with dramQ := h.dramQ ++ came })
    match s.hw.nextReq with
    | none => s
    | some q =>
      let s := s.on (fun h =>
        { h with dramQ := h.dramQ.erase q, dramTurn := if q.cls = 2 then (q.id + 1) % 256 else h.dramTurn })
      s.dramServe q x

/-- R427. An uncorrectable line is rewritten, ahead of every other request of its class: its words as read, every slot
poisoned. -/
def State.rewrite (s : State) (line : Nat) : State :=
  match s.hw.rewriteNext with
  | none => s
  | some b =>
    if b.line ≠ line ∨ !s.hw.dramReady then s
    else ((s.putErroneous line b.words []).on (fun h => (h.slots b.cls 1).lineWritten line)).setTags line 0x08

/-- R426, R432. The oldest write-back is served, when the next line slot goes to class SCRUB. -/
def Hw.writeback (h : Hw) (line : Nat) : Hw :=
  if h.dramReady && h.dramWb.head? == some line && h.slotClass == some 3 && h.rewriteNext.isNone then
    (h.slots 3 1).lineWritten line
  else h

/-- R429. A write of PCLR by `r`, an atomic read-modify-write of the line. -/
def State.pclr (s : State) (r : Requester) (d : Word) (x : DieRep) : State :=
  if !s.hw.dramReady then s
  else
    let line := d.toNat % 2 ^ 26
    let poisons : Bool := decide (4 < x.syms) || s.hw.dramBad.any (fun b => b.line == line)
    let s := s.modifyLine r.dramClass 0 r.id line [] x
    if poisons then s
    else (List.range 8).foldl (fun s i => s.setTag (lineBase line + i) (s.tag (lineBase line + i) &&& 0xF7)) s

/-- R448. Effect of an accepted page write to DRAM by `r`. A W1C of CE_WARN restarts its count (R430). -/
def State.dramWrite (s : State) (r : Requester) (off : Nat) (d : Word) : State :=
  if off = 0x86 then s.pclr r d {}
  else s.on (fun h =>
    let h := h.plainWrite pDRAM off 0 d
    if off = 5 ∧ bitOf d.toNat 3 then { h with ceCount := 0 } else h)

/-! ## Darner -/

/-- R436. A burst that is due waits in the scheduler. -/
def Hw.darnerQueue (h : Hw) : Hw :=
  if h.darnerDue = 0 || h.b pDARNER 0 DARNER_STATUS_QUEUED then h
  else (h.setF pDARNER 0 DARNER_STATUS_QUEUED 1).enqueue 8 6 0

/-- R434. A burst is due. -/
def Hw.darnerBurst (h : Hw) : Hw :=
  if h.b pDARNER 0 DARNER_CTRL_EN && h.dramReady then { h with darnerDue := h.darnerDue + 1 }.darnerQueue else h

/-- R434. While NOW is in force, a burst is due as soon as none is. -/
def Hw.darnerNext (h : Hw) : Hw := if h.darnerNow && h.darnerDue == 0 then h.darnerBurst else h.darnerQueue

/-- R434, R449. Effect of an accepted page write to DARNER. NOW makes the next burst due at once. -/
def Hw.darnerWrite (h : Hw) (off : Nat) (d : Word) : Hw :=
  let h := h.plainWrite pDARNER off 0 d
  if off = 2 ∧ bitOf d.toNat 1 then { h with darnerNow := true }.darnerNext else h

/-- R436. The cursor passes line 2^26 − 1: the pass ends; the next begins with its first step. -/
def Hw.passEnd (h : Hw) : Hw :=
  let period := max 60 (h.f pDARNER 0 DARNER_PERIOD_SEC)
  let late : Bool := match h.passAt with | some n => decide (period * 400000000 < h.now - n) | none => false
  let h := if late then h.setF pDARNER 0 DARNER_STATUS_LATE 1 else h
  { (h.incF pDARNER 0 DARNER_PASS_CNT_COUNT).irqBit pDARNER DARNER_IRQ_PASS_DONE 0 with passAt := none, darnerNow := false }

/-- R435. One step: a line is read, and written back when it was corrected or uncorrectable. The first step of a pass begins it
(R436). -/
def State.darnerStep (s : State) (x : DieRep) : State :=
  let line := s.hw.f pDARNER 0 DARNER_CURSOR_LINE
  let s := s.on (fun h => { h with passAt := some (h.passAt.getD h.now) })
  let s := if x.syms = 0 then s.on (fun h => (h.slots 3 1).lineRead line x 1 0) else s.modifyLine 3 1 0 line [] x
  s.on (fun h =>
    let h := h.setF pDARNER 0 DARNER_CURSOR_LINE (line + 1)
    if line + 1 = 2 ^ 26 then h.passEnd else h)

/-- R436. A burst is granted and runs; `reps` are the lines' outcomes, in order (clean where none is given). A burst whose
Darner has been disabled steps nothing. -/
def State.darnerGrant (s : State) (reps : List DieRep) : State :=
  if !s.hw.grantable 8 ⟨6, 0⟩ (fun _ => true) then s
  else
    let s := s.on (fun h => { (h.grant 8 ⟨6, 0⟩).setF pDARNER 0 DARNER_STATUS_QUEUED 0 with darnerDue := h.darnerDue - 1 })
    let n := max 1 (s.hw.f pDARNER 0 DARNER_BURST_LINES)
    let s := if s.hw.b pDARNER 0 DARNER_CTRL_EN && s.hw.dramReady then
        (List.range n).foldl (fun s i => s.darnerStep (reps.getD i {})) s else s
    s.on (fun h => (h.finish 8).darnerNext)

/-! ## Dump -/

/-- R447. Words and tags of `n` lines from line `src` on, copied to lines from `dst` on. The two do not overlap. -/
def State.copyLines (s : State) (src dst n : Nat) : State :=
  let lo := lineBase src
  let base := lineBase dst
  let inside (a : Nat) : Bool := lo ≤ a && a < lo + 8 * n
  let fresh (l : Nat) : Bool := dst ≤ l && l < dst + n
  let s' : State := { s.forget base (8 * n) with
    tags := s.tags.filter (fun e => !(base ≤ e.1 && e.1 < base + 8 * n)),
    hw := { s.hw with dramBad := s.hw.dramBad.filter (fun b => !fresh b.line), dramWb := s.hw.dramWb.filter (fun l => !fresh l) } }
  let s' := (s.mem.filter (fun e => inside e.1)).foldl (fun t e => t.wr (e.1 - lo + base) e.2) s'
  (s.tags.filter (fun e => inside e.1)).foldl (fun t e => t.setTag (e.1 - lo + base) e.2) s'

/-- R447. The dump copies the ring, oldest record first, and ends. -/
def State.dumpDone (s : State) : State :=
  match s.hw.running 8, s.hw.hamper.dump with
  | some ⟨5, 0⟩, some x =>
    let s := s.copyLines (x.base + x.first * x.r) x.dst ((x.k - x.first) * x.r)
    let s := s.copyLines x.base (x.dst + (x.k - x.first) * x.r) (x.first * x.r)
    s.on (fun h => (({ h with hamper := { h.hamper with dump := none } }.setF pHAMPER 0 HAMPER_STATUS_DUMPING 0).irqBit pHAMPER HAMPER_IRQ_DUMP_DONE 0).finish 8)
  | _, _ => s

/-! ## The commands -/

/-- DRAM_INIT_DONE. -/
def execDramInitDone (s : State) : Host.Outcome State Fault Refusal :=
  onHw s (fun h =>
    if h.b pDRAM 0 DRAM_STATUS_INIT_BUSY && !h.deep then
      (h.setF pDRAM 0 DRAM_STATUS_INIT_BUSY 0).setF pDRAM 0 DRAM_STATUS_READY 1
    else h)

/-- DRAM_REQUEST_SERVE: the requests that have reached the controller since the last line slot, and what the line read of the
request that gets this slot brings.
DESIGN CHOICE, unsafe: log entry 78. -/
def execDramRequestServe (came : List DramReq) (inner : Fin 3) (syms : Nat) (words : List Word) (s : State) :
    Host.Outcome State Fault Refusal :=
  .next (s.dramSlot came ⟨inner, syms, words⟩)

/-- CORRECTED_WRITEBACK. -/
def execCorrectedWriteback (line : Fin 67108864) (s : State) : Host.Outcome State Fault Refusal :=
  onHw s (fun h => h.writeback line)

/-- UNCORRECTABLE_REWRITE. -/
def execUncorrectableRewrite (line : Fin 67108864) (s : State) : Host.Outcome State Fault Refusal := .next (s.rewrite line)

/-- PCLR. -/
def execDramPclr (w : Requester) (d : Word × DieRep) (s : State) : Host.Outcome State Fault Refusal :=
  .next (s.direct w pDRAM 0x86 (fun s => s.pclr w d.1 d.2))

/-- DARNER_BURST_DUE. -/
def execDarnerBurstDue (s : State) : Host.Outcome State Fault Refusal := onHw s (fun h => h.darnerBurst)

/-- DARNER_NOW: a write of CTRL. -/
def execDarnerNow (w : Requester) (d : Word) (s : State) : Host.Outcome State Fault Refusal :=
  onHw s (fun h => h.direct w pDARNER 2 (fun g => g.darnerWrite 2 d))

/-- DARNER_BURST_GRANT. -/
def execDarnerBurstGrant (_ : Unit) (reps : List DieRep) (s : State) : Host.Outcome State Fault Refusal :=
  .next (s.darnerGrant reps)

/-- HAMPER_ENABLE: a write of CTRL. -/
def execHamperEnable (w : Requester) (d : Word) (s : State) : Host.Outcome State Fault Refusal :=
  onHw s (fun h => h.direct w pHAMPER 2 (fun g => g.hamperCtrl (d ||| 1)))

/-- HAMPER_DISABLE: a write of CTRL with EN = 0. -/
def execHamperDisable (w : Requester) (d : Word) (s : State) : Host.Outcome State Fault Refusal :=
  onHw s (fun h => h.direct w pHAMPER 2 (fun g => g.hamperCtrl (d &&& ~~~1)))

/-- HAMPER_CADENCE: an arrival at consumer 0xF060; it counts when CAD.SRC was latched as 0. -/
def execHamperCadence (a : Arrival) (s : State) : Host.Outcome State Fault Refusal :=
  onHw s (fun h =>
    let x := h.arrive a (devCode 0x060) (h.domainRuns 32)
    if x.2 && !x.1.hamper.tick then x.1.hamperCadence else x.1)

/-- HAMPER_TRIGGER: an arrival at consumer 0xF061, a rise of the level of the pin event unit FRZ_CFG.PEV, or both. -/
def execHamperTrigger (a : Option Arrival) (pin : Bool) (s : State) : Host.Outcome State Fault Refusal :=
  onHw s (fun h =>
    let x := match a with
      | some a => h.arrive a (devCode 0x061) (h.domainRuns 32)
      | none => (h, false)
    let level := bitOf (h.f pPIN 0 PIN_PEV_LVL_LEVEL) (h.f pHAMPER 0 HAMPER_FRZ_CFG_PEV)
    x.1.hamperTrigger (b2n x.2 * 2 + b2n (pin && level) * 8))

/-- HAMPER_FREEZE: a write of CMD. -/
def execHamperFreeze (w : Requester) (d : Word) (s : State) : Host.Outcome State Fault Refusal :=
  onHw s (fun h => h.direct w pHAMPER 0x87 (fun g => g.hamperCmd (d ||| 1)))

/-- REARM: a write of CMD. -/
def execHamperRearm (w : Requester) (d : Word) (s : State) : Host.Outcome State Fault Refusal :=
  onHw s (fun h => h.direct w pHAMPER 0x87 (fun g => g.hamperCmd (d ||| 2)))

/-- DUMP: a write of CMD. -/
def execHamperDump (w : Requester) (d : Word) (s : State) : Host.Outcome State Fault Refusal :=
  onHw s (fun h => h.direct w pHAMPER 0x87 (fun g => g.hamperCmd (d ||| 4)))

/-- DUMP_GRANT. -/
def execDumpGrant (_ : Unit) (s : State) : Host.Outcome State Fault Refusal := onHw s (fun h => h.dumpGrant)

/-- DUMP_DONE. -/
def execDumpDone (s : State) : Host.Outcome State Fault Refusal := .next s.dumpDone

end Sys2Proof.Machine
end

