-- ==== Sys2Proof/Machine/Flash.lean ====
section
/-! DEFINITION. The flash array, the ledger and the commands of the FLASH, LEDGER and LWF pages (R453 to R488). -/

namespace Sys2Proof.Machine

open Sys2Proof

/-- The global address of flash word offset `w`. -/
def flashAddr (w : Nat) : Nat := 0x08000000 + w % 0x800000

/-- The flash word at an offset, and the erased word (R454). -/
def State.fword (s : State) (w : Nat) : Word := s.rd (flashAddr w)
abbrev erasedWord : Word := -1

/-- R455, R460. A read of a group fails as an uncorrectable data error. -/
def FlashSt.badAt (f : FlashSt) (w : Nat) : Bool :=
  f.bad.contains (w / 4 * 4) || (match f.erase with | some e => e.suspended && e.sector == w / 4096 | none => false)

/-! ## Reads -/

/-- R455, R460, R462. A group read by a requester (`none`: the controller): it waits, or its outcome is noted. `corr` is
the number of wrong bits the decoder finds. -/
def Hw.flashRead (h : Hw) (req : Nat) (w corr : Nat) : Hw :=
  let g := w / 4 * 4
  if !h.flash.readable then h.autoSuspend
  else
    let ue : Bool := decide (3 < corr) || (match h.flash.erase with | some e => e.sector == w / 4096 | none => false)
    let thr := h.f pFLASH 0 FLASH_ERR_WARN_THR
    let h := { h with flash := { h.flash with bad := h.flash.bad.filter (· != g) ++ (if 3 < corr then [g] else []) } }
    let log (h : Hw) (n : Nat) : Hw :=
      let h := (h.setF pFLASH 0 FLASH_ERR_ADDR_OFFSET g).setF pFLASH 0 FLASH_ERR_INFO_REQ req
      (h.setF pFLASH 0 FLASH_ERR_INFO_CORR n).setB pFLASH 0 FLASH_ERR_INFO_UE ue
    if ue then (log h 0).satF pFLASH 0 FLASH_CNT_UE_COUNT |>.irqBit pFLASH FLASH_IRQ_UE 0
    else if thr ≠ 0 ∧ thr ≤ corr then (log h corr).satF pFLASH 0 FLASH_CNT_CORR_COUNT |>.irqBit pFLASH FLASH_IRQ_WARN 0
    else h

/-! ## Commands -/

/-- The sector a CMD word names, by its OP. -/
def cmdSector (h : Hw) (op : Nat) (d : Word) : Nat :=
  if op = 1 then h.f pFLASH 0 FLASH_PADDR_OFFSET / 4096 else bitsOf d.toNat 16 11

/-- R457. The cause that refuses a command; 0 when it passes.
DEDUCED, unsafe: log entry 85. -/
def State.cmdCause (s : State) (ring op sector : Nat) : Nat :=
  let h := s.hw
  let f := h.flash
  let w := h.f pFLASH 0 FLASH_PADDR_OFFSET
  let writes : Bool := op == 1 || op == 2
  let busy : Bool := f.op.isSome || f.erase.any (fun e => !e.suspended)
  if op = 0 ∨ 6 < op ∨ w % 4 ≠ 0 then 1
  else if h.rstWait && op != 3 && op != 4 then 2
  else if writes && decide (sector < 2) then 3
  else if writes && ring != 0 && h.runSlot.isSome && slotOf sector == h.runSlot then 4
  else if (op != 3 && op != 4 && busy) || (op == 2 && (f.asked.isSome || f.erase.isSome)) ||
      (decide (5 ≤ op) && f.erase.isSome) then 5
  else if op == 1 && f.erase.any (fun e => e.sector == sector) then 6
  else if op == 1 && h.sectorState sector == 1 then 7
  else if op == 1 && (List.range 4).any (fun i => s.fword (w + i) != erasedWord) then 8
  else 0

/-- R456 to R464. A write of CMD. -/
def State.flashCmd (s : State) (a : Acc) (d : Word) : State :=
  let op := bitsOf d.toNat 0 4
  let sector := cmdSector s.hw op d
  match s.cmdCause a.ring op sector with
  | 0 =>
    s.on (fun h =>
      let f := h.flash
      match op with
      | 1 =>
        let data := (List.range 4).map (fun i => w40 (h.f pFLASH 0 (FLASH_PDATA_WORD i)))
        h.setFlash { f with op := some (.program (h.f pFLASH 0 FLASH_PADDR_OFFSET) (h.f pFLASH 0 FLASH_PMASK_WEN) data) }
      | 2 => h.eraseAsk a sector
      | 3 => h.suspend sector
      | 4 => h.resumeCmd sector
      | 5 => h.setFlash { f with op := some (.margin false sector) }
      | _ => h.setFlash { f with op := some (.margin true sector) })
  | cause => s.on (fun h => h.opFail cause op sector)

/-- R455. A group that has been programmed and verified reads without error.
DEDUCED, unsafe: log entry 89. -/
def Hw.clearBad (h : Hw) (w : Nat) : Hw :=
  { h with flash := { h.flash with bad := h.flash.bad.filter (fun g => g / 4 != w / 4) } }

/-- R454, R458. The program at hand ends. When it did not verify, `left` are the words the pulses left in the group.
DESIGN CHOICE, unsafe: log entry 84. -/
def State.programDone (s : State) (ok : Bool) (left : List Word) : State :=
  match s.hw.flash.op with
  | some (.program w mask data) =>
    let words := (List.range 4).map (fun i =>
      if bitOf mask i then (if ok then data.getD i erasedWord else left.getD i erasedWord) else erasedWord)
    let s := s.wrList (flashAddr w) words
    s.on (fun h =>
      let h := if ok then h.clearBad w else h
      (if ok then h.opDone 1 (w / 4096) else h.opFail 10 1 (w / 4096)).flashFree)
  | _ => s

/-- R464. The margin read at hand ends. -/
def Hw.marginDone (h : Hw) (count first : Nat) : Hw :=
  match h.flash.op with
  | some (.margin ev sector) =>
    let h := (h.setF pFLASH 0 FLASH_MARGIN_COUNT count).setF pFLASH 0 FLASH_MARGIN_FIRST first
    let h := if ev && count != 0 && h.sectorState sector != 2 then
        (h.setSector sector 1).irqBit pFLASH FLASH_IRQ_HALF 0 else h
    (h.opDone (if ev then 6 else 5) sector).flashFree
  | _ => h

/-! ## The ledger -/

/-- R466. The offset of the next free place.
DEDUCED, unsafe: log entry 88. -/
def Hw.nextPlace (h : Hw) : Nat := (h.f pLEDGER 0 LEDGER_NEXT_ADDR - 0x08000000) % 0x800000

/-- R467, R468. The 8 words of a record with a SEQ. -/
def LedgerRec.words (r : LedgerRec) (seq : Nat) : List Word :=
  let head := w40 (r.kind % 16 * 2 ^ 36 + seq % 2 ^ 32)
  let tl := w40 r.time
  let th := w40 (r.time / 2 ^ 40)
  let who := w40 (b2n r.tvalid * 2 ^ 39 + r.who.ring % 4 * 2 ^ 8 + r.who.id % 256)
  [head, r.a0, r.a1, w40 (crcWords [head, r.a0, r.a1, tl, th, who, r.a2]), tl, th, who, r.a2]

/-- R466. The next place has been taken. -/
def Hw.takePlace (h : Hw) : Hw :=
  let h := h.setF pLEDGER 0 LEDGER_NEXT_ADDR (h.f pLEDGER 0 LEDGER_NEXT_ADDR + 8)
  h.setF pLEDGER 0 LEDGER_STATUS_FREE (h.f pLEDGER 0 LEDGER_STATUS_FREE - 1)

/-- R471. The CARRY records of a switch: sectors HALF and BAD, in runs of 80. -/
def Hw.carryRecords (h : Hw) : List LedgerRec :=
  [1, 2].flatMap (fun state =>
    let l := h.sectorsIn state
    (List.range 26).filterMap (fun b =>
      let bits (o : Nat) : Nat := (List.range 40).foldl (fun n i => n + b2n (l.contains (80 * b + o + i)) * 2 ^ i) 0
      if bits 0 = 0 ∧ bits 40 = 0 then none
      else some (h.record 7 (w40 (state * 2 ^ 38 + 80 * b)) (w40 (bits 0)) (w40 (bits 40)) controller .switch)))

/-- R471. The records of a switch to a sector. -/
def Hw.switchRecords (h : Hw) (sector : Nat) : List LedgerRec :=
  let last := h.prefSlot.getD 1
  let img (slot : Nat) : LedgerRec := h.record 4 (w40 slot) (w40 (h.imgRec slot)) 0 controller .switch
  [h.record 6 (w40 (h.f pLEDGER 0 LEDGER_GEN_GEN + 1)) (w40 sector) 0 controller .switch] ++ h.carryRecords ++
    [img (1 - last), img last]

/-- R470. What goes on once a record is written. -/
def Hw.afterRecord (h : Hw) (r : LedgerRec) : Hw :=
  match r.after' with
  | .erase false => h.eraseStart
  | .erase true =>
    match h.flash.erase with
    | some e => h.eraseEnd e
    | none => h
  | .img slot state run => if run then (h.setImg slot state).setRunSlot slot else h.setImg slot state
  | .lwf => { h with flash := { h.flash with lwf := h.flash.lwf.map (fun w => { w with recorded := true }) } }
  | .user => h.setF pLEDGER 0 LEDGER_STATUS_APP_BUSY 0
  | .switch =>
    let h := if r.kind = 6 then
        (h.setF pLEDGER 0 LEDGER_GEN_GEN r.a0.toNat).setF pLEDGER 0 LEDGER_STATUS_ACTIVE r.a1.toNat else h
    if h.flash.switching then h else h.irqBit pLEDGER LEDGER_IRQ_SWITCHED 0

/-- R470. What a record that failed, or was cut short, leaves in its place: words 0 to 3 stay erased until words 4 to 7 have been
programmed. -/
def recordLeft (intended left : List Word) : List Word :=
  let hi := (List.range 4).map (fun i => left.getD (4 + i) erasedWord)
  (if hi = intended.drop 4 then (List.range 4).map (fun i => left.getD i erasedWord) else List.replicate 4 erasedWord) ++ hi

/-- R470, R471. The record at hand is written, or has failed to verify, leaves `left` in its place and is written again. -/
def State.recordDone (s : State) (ok : Bool) (left : List Word) : State :=
  match s.hw.flash.op with
  | some (.record r) =>
    let place := s.hw.nextPlace
    if !ok then
      let s := s.wrList (flashAddr place) (recordLeft (r.words (s.hw.f pLEDGER 0 LEDGER_SEQ_SEQ)) left)
      s.on (fun h =>
        let h := h.takePlace
        let due : Bool := decide (h.f pLEDGER 0 LEDGER_STATUS_FREE ≤ switchAt) && !h.flash.switching
        (h.setFlash { h.flash with op := none, recs := r :: h.flash.recs, switch := h.flash.switch || due }).flashFree)
    else
      let s := s.wrList (flashAddr place) (r.words (s.hw.f pLEDGER 0 LEDGER_SEQ_SEQ))
      s.on (fun h =>
        let h := ((h.clearBad place).clearBad (place + 4)).takePlace.setF pLEDGER 0 LEDGER_SEQ_SEQ (h.f pLEDGER 0 LEDGER_SEQ_SEQ + 1)
        let h := h.setFlash { h.flash with op := none }
        let h := h.afterRecord r
        let due : Bool := decide (h.f pLEDGER 0 LEDGER_STATUS_FREE ≤ switchAt) && !h.flash.switching
        ({ h with flash := { h.flash with switch := h.flash.switch || due } }).flashFree)
  | _ => s

/-- R459, R471. An erase ends its running: the granted one, or the one of a ledger switch. `left` are the words, by offset,
that a failed erase leaves in the sector; every other word reads erased. -/
def State.eraseDone (s : State) (ok : Bool) (us : Nat) (left : List (Nat × Word)) : State :=
  let clear (s : State) (sector : Nat) : State :=
    let s := (s.forget (flashAddr (4096 * sector)) 4096).on (fun h =>
      { h with flash := { h.flash with bad := h.flash.bad.filter (fun g => g / 4096 != sector) } })
    if ok then s else left.foldl (fun s e => s.wr (flashAddr (4096 * sector + e.1 % 4096)) e.2) s
  match s.hw.flash.op, s.hw.flash.erasing with
  | some (.switchErase sector), _ =>
    let s := clear s sector
    if !ok then s
    else s.on (fun h =>
      let h := (h.setF pLEDGER 0 LEDGER_NEXT_ADDR (0x08000000 + 4096 * sector)).setF pLEDGER 0 LEDGER_STATUS_FREE 512
      (h.setFlash { h.flash with op := none, recs := h.switchRecords sector ++ h.flash.recs }).flashNext)
  | none, some e => (clear s e.sector).on (fun h => h.eraseRan e ok us)
  | _, _ => s

/-- R484 to R486. Effect of an accepted page write to FLASH by `a`. -/
def State.flashWrite (s : State) (a : Acc) (off ch : Nat) (d : Word) : State :=
  if off = 0x86 then s.flashCmd a d
  else if off = 0x90 then s.on (fun h => h.imgCmd a d)
  else s.on (fun h => h.plainWrite pFLASH off ch d)

/-! ## The commands -/

/-- A write of FLASH.CMD with an operation. -/
def State.flashOp (s : State) (w : Requester) (op sector : Nat) : State :=
  s.direct w pFLASH 0x86 (fun t => t.flashCmd (s.hw.acc w) (w40 (sector * 2 ^ 16 + op)))

/-- FLASH_READ of the group at an offset by a requester, or by the controller. -/
def execFlashRead (r : Option Requester) (w : Fin 8388608) (corr : Nat) (s : State) : Host.Outcome State Fault Refusal :=
  onHw s (fun h => h.flashRead (match r with | some r => r.id | none => 0xFF) w corr)

/-- PROGRAM. -/
def execFlashProgram (w : Requester) (s : State) : Host.Outcome State Fault Refusal := .next (s.flashOp w 1 0)

/-- PROGRAM_DONE. -/
def execProgramDone (ok : Bool) (left : List Word) (s : State) : Host.Outcome State Fault Refusal :=
  .next (s.programDone ok left)

/-- ERASE of a sector. -/
def execFlashErase (w : Requester) (sector : Fin 2048) (s : State) : Host.Outcome State Fault Refusal :=
  .next (s.flashOp w 2 sector)

/-- ERASE_GRANT. -/
def execEraseGrant (_ : Unit) (s : State) : Host.Outcome State Fault Refusal := onHw s (fun h => h.eraseGrant)

/-- LEDGER_RECORD_DONE. -/
def execLedgerRecordDone (ok : Bool) (left : List Word) (s : State) : Host.Outcome State Fault Refusal :=
  .next (s.recordDone ok left)

/-- ERASE_DONE. -/
def execEraseDone (ok : Bool) (left : List (Nat × Word)) (_ : Unit) (s : State) : Host.Outcome State Fault Refusal :=
  .next (s.eraseDone ok (match s.hw.flash.erase with | some e => e.us | none => 0) left)

/-- SUSPEND. -/
def execFlashSuspend (w : Requester) (s : State) : Host.Outcome State Fault Refusal := .next (s.flashOp w 3 0)

/-- RESUME. -/
def execFlashResume (w : Requester) (s : State) : Host.Outcome State Fault Refusal := .next (s.flashOp w 4 0)

/-- SUSPEND_ACCEPT. -/
def execSuspendAccept (_ : Unit) (s : State) : Host.Outcome State Fault Refusal := onHw s (fun h => h.suspendAccept)

/-- AUTO_RESUME. -/
def execAutoResume (s : State) : Host.Outcome State Fault Refusal := onHw s (fun h => h.autoResume)

/-- MARGIN_PV of a sector. -/
def execMarginPv (w : Requester) (sector : Fin 2048) (s : State) : Host.Outcome State Fault Refusal :=
  .next (s.flashOp w 5 sector)

/-- MARGIN_EV of a sector. -/
def execMarginEv (w : Requester) (sector : Fin 2048) (s : State) : Host.Outcome State Fault Refusal :=
  .next (s.flashOp w 6 sector)

/-- MARGIN_DONE: `count` words differ, the first at offset `first`. -/
def execMarginDone (count first : Nat) (s : State) : Host.Outcome State Fault Refusal :=
  onHw s (fun h => h.marginDone count first)

/-- LEDGER_APPEND: a write of APPEND. -/
def execLedgerAppend (w : Requester) (d : Word) (s : State) : Host.Outcome State Fault Refusal :=
  onHw s (fun h => h.direct w pLEDGER 0x86 (fun g => g.ledgerAppend (h.acc w) d))

/-- A write of FLASH.IMG_CMD with an operation. -/
def Hw.imgOp (h : Hw) (w : Requester) (op slot : Nat) : Hw :=
  h.direct w pFLASH 0x90 (fun g => g.imgCmd (h.acc w) (w40 (slot * 8 + op)))

/-- MARK_TRIAL. -/
def execImgMarkTrial (w : Requester) (slot : Fin 2) (s : State) : Host.Outcome State Fault Refusal :=
  onHw s (fun h => h.imgOp w 1 slot)

/-- CONFIRM. -/
def execImgConfirm (w : Requester) (slot : Fin 2) (s : State) : Host.Outcome State Fault Refusal :=
  onHw s (fun h => h.imgOp w 2 slot)

/-- START. -/
def execImgStart (w : Requester) (slot : Fin 2) (s : State) : Host.Outcome State Fault Refusal :=
  onHw s (fun h => h.imgOp w 3 slot)

/-- REJECT. -/
def execImgReject (w : Requester) (slot : Fin 2) (s : State) : Host.Outcome State Fault Refusal :=
  onHw s (fun h => h.imgOp w 4 slot)

/-- LWF_WRITE: a write of WCMD. -/
def execLwfWrite (w : Requester) (d : Word) (s : State) : Host.Outcome State Fault Refusal :=
  onHw s (fun h => h.direct w pLWF 0x87 (fun g => g.lwfCmd (h.acc w) d))

end Sys2Proof.Machine
end

