-- ==== Sys2Proof/Machine/Fetch.lean ====
section
/-! DEFINITION. Regions as a core sees them, and fetching packets (R319 to R326, R351 to R353). -/

namespace Sys2Proof.Machine

open Sys2Proof

/-- Cluster of core `k`, its number there, and its page. -/
def clOf (k : Fin 32) : Nat := k.val / 4
def noOf (k : Fin 32) : Nat := k.val % 4
abbrev corePage (k : Fin 32) : Page := pCORE (clOf k) (noOf k)

/-- The global address of core `k`'s own TCM word `a`. -/
def tcm (k : Fin 32) (a : Nat) : Nat := winBase (clOf k) + noOf k * 0x20000 + a

/-- A global address lies in core `k`'s own ITCM, or in its own DTCM. -/
def ownItcm (k : Fin 32) (g : Nat) : Bool := tcm k 0 ≤ g && g < tcm k 0x8000
def ownDtcm (k : Fin 32) (g : Nat) : Bool := tcm k 0x10000 ≤ g && g < tcm k 0x18000

/-- R351, R352. The region class of a global address for core `k`. -/
def classOf (k : Fin 32) (g : Nat) : Nat :=
  let own : Bool := g < 0x02000000 && (g - 0x01000000) / 0x200000 == clOf k
  match memKind g with
  | .itcm => if ownItcm k g then 0 else 4
  | .dtcm => if ownDtcm k g then 1 else 4
  | .csram => if own then 2 else 4
  | .loopMem => if own then 3 else 4
  | .dsram => 5
  | .flash => 6
  | .dram => 7

/-- R351. Core `k` at a ring may access the class of `g`: `how` 0 loads, 1 stores, 2 fetches. -/
def Hw.permits (h : Hw) (k : Fin 32) (ring g how : Nat) : Bool :=
  match ring with
  | 0 => true
  | 1 => true
  | 2 => bitOf (h.f (pDIC (clOf k)) 0 (DIC_CORE_RPERM2_PERM (noOf k))) (3 * classOf k g + how)
  | _ => bitOf (h.f (pDIC (clOf k)) 0 (DIC_CORE_RPERM3_PERM (noOf k))) (3 * classOf k g + how)

/-! ## Lines -/

/-- R321. The set of the cache that a line falls in. -/
def setOf (line : Nat) : Nat := line / 8 % 128

/-- The packet `g` in a list of lines. -/
def lineFind (ls : List FLine) (g : Nat) : Option (Option Word) :=
  (ls.find? (fun l => l.addr == g / 8 * 8)).map (fun l => (l.words.getD (g % 8) none))

/-- R321. Packet `g` in the line buffer, else in the cache. -/
def CoreSt.lineWord (c : CoreSt) (g : Nat) : Option (Option Word) :=
  match lineFind c.lines g with
  | some x => some x
  | none => lineFind (c.cache.at [] (setOf (g / 8 * 8))) g

/-- R321. A packet served by the cache makes its line the set's most recently used. -/
def CoreSt.touch (c : CoreSt) (g : Nat) : CoreSt :=
  let a := g / 8 * 8
  let set := c.cache.at [] (setOf a)
  if (lineFind c.lines g).isSome then c
  else { c with cache := c.cache.set [] (setOf a) (set.filter (fun l => l.addr == a) ++ set.filter (fun l => l.addr != a)) }

/-- R321. A line leaves the line buffer and the cache (R326). -/
def CoreSt.dropLine (c : CoreSt) (g : Nat) : CoreSt :=
  let a := g / 8 * 8
  { c with lines := c.lines.filter (fun l => l.addr != a),
           cache := c.cache.set [] (setOf a) ((c.cache.at [] (setOf a)).filter (fun l => l.addr != a)) }

/-- R321. A filled line takes the line-buffer entry that does not hold the line now issuing, and goes to the cache where
caching is on. -/
def CoreSt.takeLine (c : CoreSt) (l : FLine) (issuing : Option Nat) (caching : Bool) : CoreSt :=
  let rest := c.lines.filter (fun x => x.addr != l.addr)
  let keep := match rest.filter (fun x => issuing == some x.addr) with
    | x :: _ => [x]
    | [] => rest.take 1
  let set := (c.cache.at [] (setOf l.addr)).filter (fun x => x.addr != l.addr)
  let c := { c with lines := l :: keep }
  if caching then { c with cache := c.cache.set [] (setOf l.addr) ((l :: set).take 4) } else c

/-! ## Fetching -/

/-- What the fetch of a packet gives: the packet, a wait for its line, or a failure with its BUS_ERR reason. -/
inductive Fetched
  | word (w : Word)
  | wait
  | fail (reason : Nat)
deriving DecidableEq, Repr

/-- R319. A region that packets are fetched from through the line buffer. -/
def lineRegion (k : Fin 32) (g : Nat) : Bool :=
  match memKind g with
  | .csram => (g - 0x01000000) / 0x200000 == clOf k
  | .dsram => true
  | .flash => true
  | .dram => true
  | _ => false

/-- R319 to R321, R326, R353. The fetch of packet `a` by core `k`. -/
def State.fetch (s : State) (k : Fin 32) (a : Nat) : Fetched :=
  let c := s.hw.core k
  match placeOf (.core k) (a % 2 ^ 32) with
  | .unmapped => .fail 1
  | .page p _ => if s.hw.stopped p then .fail 1 else .fail 4
  | .word g =>
    if s.hw.memStopped g then .fail 1
    else if !ownItcm k g && !lineRegion k g then .fail 4
    else if !s.hw.permits k c.ring g 2 then .fail 2
    else if ownItcm k g then .word (s.rd g)
    else if s.hw.now < c.invUntil then .wait
    else match c.lineWord g with
      | none => .wait
      | some none => .fail 3
      | some (some w) => .word w

/-- What stands next in a core's program order. -/
inductive Next
  | code (x : Code)
  | wait
  | fail (a reason : Nat)
deriving DecidableEq, Repr

/-- R325. The packet at hand: at its H1, the one that was fetched for its H0. -/
def State.atHand (s : State) (k : Fin 32) : Fetched :=
  let c := s.hw.core k
  match c.half, c.pkt with
  | true, some (a, w) => if a = c.pc then .word w else s.fetch k c.pc
  | _, _ => s.fetch k c.pc

/-- R268 to R270. The next half, or long move, of core `k`. -/
def State.next (s : State) (k : Fin 32) : Next :=
  let c := s.hw.core k
  match s.atHand k with
  | .wait => .wait
  | .fail r => .fail c.pc r
  | .word w =>
    if !c.half then .code (codeH0 w)
    else if tagOf (h1 w) = 2 then
      match s.fetch k ((c.pc + 1) % 2 ^ 32) with
      | .wait => .wait
      | .fail r => .fail ((c.pc + 1) % 2 ^ 32) r
      | .word w' => .code (codeH1 w w')
    else .code (codeH1 w 0)

/-! ## Fills -/

/-- R301, R322. The line that the core's next half, its tail or its body waits for, where a fill must bring it. -/
def State.missing (s : State) (k : Fin 32) : Option Nat :=
  let c := s.hw.core k
  let next := (c.pc + 1) % 2 ^ 32
  let waits : Option Nat := match s.atHand k, s.next k, s.fetch k next with
    | .wait, _, _ => some c.pc
    | _, .wait, _ => some next
    | _, .code (.rpt _), .wait => some next
    | _, _, _ => none
  match waits.map (placeOf (.core k)) with
  | some (.word g) => if s.hw.now < c.invUntil then none else some (g / 8 * 8)
  | _ => none

/-- R321. CORE.CTRL enables caching for the region of `g`. -/
def Hw.caches (h : Hw) (k : Fin 32) (g : Nat) : Bool :=
  match memKind g with
  | .csram => h.b (corePage k) 0 CORE_CTRL_CACHE_CSRAM
  | .dsram => h.b (corePage k) 0 CORE_CTRL_CACHE_DSRAM
  | .flash => h.b (corePage k) 0 CORE_CTRL_CACHE_FLASH
  | .dram => h.b (corePage k) 0 CORE_CTRL_CACHE_DRAM
  | _ => false

/-! ## Counters and the page -/

/-- R349. A performance counter counts; a wrap sets CNT_OVF. -/
def Hw.coreCount (h : Hw) (k : Fin 32) (fl : Fld) (n : Nat) : Hw :=
  let p := corePage k
  if !h.b p 0 CORE_CNT_CTRL_RUN then h
  else
    let was := h.f p 0 fl
    let h := h.setF p 0 fl (was + n)
    if 2 ^ 40 ≤ was + n then h.irqBit p CORE_IRQ_CNT_OVF 0 else h

/-- R326. INV_LINE: the line that holds ICADDR. -/
def Hw.invLine (h : Hw) (k : Fin 32) : Hw :=
  match placeOf (.core k) (h.f (corePage k) 0 CORE_ICADDR_ADDR) with
  | .word g => h.setCore k ((h.core k).dropLine g)
  | _ => h

/-- R326. INV_ALL: 128 CORE_CLK cycles, 43 of the model's. A fill under way no longer goes to the cache.
DESIGN CHOICE, unsafe: log entry 145. -/
def Hw.invAll (h : Hw) (k : Fin 32) : Hw :=
  let c := h.core k
  h.setCore k { c with lines := [], cache := [], fill := c.fill.map (fun f => { f with caching := false }), invUntil := h.now + 43 }

/-- R326. A write of ICMD. -/
def Hw.icmdWrite (h : Hw) (k : Fin 32) (d : Word) : Hw :=
  let h := if bitOf d.toNat 0 then h.invAll k else h
  if bitOf d.toNat 1 then h.invLine k else h

/-- R349. A write of CNT_CTRL. -/
def Hw.cntWrite (h : Hw) (k : Fin 32) (d : Word) : Hw :=
  let h := h.plainWrite (corePage k) 0x82 0 d
  if bitOf d.toNat 1 then
    [0x83, 0x84, 0x85, 0x86, 0x87, 0x88, 0x89, 0x8A].foldl (fun h off => h.setReg (corePage k) off 0 0) h
  else h

/-- Effect of an accepted page write to CORE of core `k`. -/
def Hw.coreWrite (h : Hw) (k : Fin 32) (off : Nat) (d : Word) : Hw :=
  if off = 0x80 then h.icmdWrite k d
  else if off = 0x82 then h.cntWrite k d
  else h.plainWrite (corePage k) off 0 d

end Sys2Proof.Machine
end

