-- ==== Sys2Proof/Machine/Front.lean ====
section
/-! DEFINITION. The front end of a core: requests of fills, decoding of packets into the branch target table and the
return-address predictor, and what fetch does along a path that proves wrong (R321 to R334). -/

namespace Sys2Proof.Machine

open Sys2Proof

/-- R371. The core is locked up. -/
def Hw.locked (h : Hw) (k : Fin 32) : Bool := h.b (pDIC (clOf k)) 0 ⟨0x03, 4 + noOf k, 1⟩

/-- R612. The core is held. -/
def Hw.isHeld (h : Hw) (k : Fin 32) : Bool :=
  h.b (pCLU (clOf k)) 0 ⟨0x03, 8 + noOf k, 1⟩ || (k.val == 0 && h.bootDue)

/-- R332. Prediction is barred. -/
def Hw.barred (h : Hw) (k : Fin 32) : Bool := h.b (corePage k) 0 CORE_STATUS_BAR

/-- The machine with a core replaced. -/
def State.setCore (s : State) (k : Fin 32) (c : CoreSt) : State := s.on (fun h => h.setCore k c)

/-! ## Requests of fills (R321 to R323, R326, R327) -/

/-- R323. A line is requested; a request that finds a fill outstanding waits for its end. A fill started counts in ICMISS.
DESIGN CHOICE, unsafe: log entry 153. -/
def Hw.wantLine (h : Hw) (k : Fin 32) (line : Nat) : Hw :=
  let c := h.core k
  match c.fill with
  | none => (h.setCore k { c with fill := some ⟨line, h.caches k line⟩ }).coreCount k CORE_ICMISS_COUNT 1
  | some f =>
    if f.line = line ∨ c.wants.contains line then h else h.setCore k { c with wants := c.wants ++ [line] }

/-- R322. The core asks for the line that its next half lacks; R327 notes that it waits on a busy flash.
DEDUCED, unsafe: log entry 152. -/
def State.demand (s : State) (k : Fin 32) : State :=
  if !s.hw.clusterRuns (clOf k) || s.hw.isHeld k || s.hw.locked k || (s.hw.core k).isHalted then s
  else match s.missing k with
    | none => s
    | some line =>
      s.on (fun h =>
        let h := h.wantLine k line
        if memKind line == .flash && !h.flash.readable then h.setCore k { h.core k with busyWait := true } else h)

/-- R323. The next sequential line after packet `a`, when it lies in the same region and is in neither the line buffer nor
the cache. -/
def State.nextLine (s : State) (k : Fin 32) (a : Nat) : Option Nat :=
  match placeOf (.core k) a, placeOf (.core k) ((a / 8 * 8 + 8) % 2 ^ 32) with
  | .word g, .word g' =>
    if lineRegion k g && lineRegion k g' && memKind g == memKind g' && ((s.hw.core k).lineWord g').isNone then some g' else none
  | _, _ => none

/-- The line of packet `a`, where it is fetched through the line buffer. -/
def fetchLine (k : Fin 32) (a : Nat) : Option Nat :=
  match placeOf (.core k) a with
  | .word g => if lineRegion k g then some (g / 8 * 8) else none
  | _ => none

/-! ## Decoding (R329, R330) -/

/-- R330. The address after the packet that holds the last half of a move of the packet at `a`. -/
def returnOf (a : Nat) (kind : MoveKind) : Nat :=
  match kind with
  | .straddle => (a + 2) % 2 ^ 32
  | _ => (a + 1) % 2 ^ 32

/-- R329. The BTT entry of a packet, where one matches. -/
def CoreSt.bttOf (c : CoreSt) (a : Nat) : Option Btt := (c.btt.at none (a % 64)).filter (fun e => e.tag == a / 64)

/-- R329. What the BTT predicts for the packet at `a`: a target, or sequential continuation. -/
def CoreSt.bttTarget (c : CoreSt) (a : Nat) : Option Nat :=
  match c.bttOf a with
  | some e => if 2 ≤ e.ctr then e.target else none
  | none => none

/-- R329. A destination that the BTT predicts. -/
def isBtt (dst : Nat) : Bool := 0x63 ≤ dst && dst ≤ 0x66

/-- R329, R330. Decoding a move of the packet at `a`; the popped address of a bru.ret joins the list. -/
def CoreSt.decodeMove (c : CoreSt) (a : Nat) (m : Move) : CoreSt :=
  let c := if isBtt m.dst && (c.bttOf a).isNone then { c with btt := c.btt.set none (a % 64) (some { tag := a / 64 }) } else c
  if m.dst = 0x65 ∨ m.dst = 0x66 then { c with rap := (returnOf a m.kind :: c.rap).take 8 }
  else if m.dst = 0x67 then { c with rap := c.rap.tail, predR := c.predR ++ [c.rap.head?] }
  else c

/-- R268 to R270. The moves of the packet `w` at `a`; a long move that straddles only where its tail is at hand (`tail`). -/
def movesOf (w : Word) (tail : Option Word) : List Move :=
  let move (x : Code) : List Move := match x with | .move m => [m] | _ => []
  move (codeH0 w) ++
    (if tagOf (h0 w) = 2 then []
     else if tagOf (h1 w) = 2 then (match tail with | some t => move (codeH1 w t) | none => [])
     else move (codeH1 w 0))

/-- R329, R330. Decoding the moves of the packet at `a`: the BTT is read before it changes. -/
def CoreSt.decodeAll (c : CoreSt) (a : Nat) (ms : List Move) : CoreSt :=
  ms.foldl (fun c m => c.decodeMove a m) { c with predB := c.bttTarget a, predR := [] }

/-- R329, R330. Where the decoded packet at `a` is predicted to continue. -/
def CoreSt.predictedNext (c : CoreSt) (a : Nat) : Nat :=
  match c.predB with
  | some t => t
  | none => (c.predR.filterMap id).headD ((a + 1) % 2 ^ 32)

/-- R321. The line of packet `a`, where the cache serves it, becomes the most recently used. -/
def State.touchAt (s : State) (k : Fin 32) (a : Nat) : State :=
  match placeOf (.core k) a with
  | .word g => if ownItcm k g then s else s.on (fun h => h.setCore k ((h.core k).touch g))
  | _ => s

/-- R329, R330, R332. The packet at hand is decoded once; under BAR neither table is used or changed. A straddling move is
decoded where it issues, with its tail.
DEDUCED, unsafe: log entry 68. -/
def State.decode (s : State) (k : Fin 32) (m : Move) : State :=
  let c := s.hw.core k
  if s.hw.barred k then s
  else
    let c := match c.decoded, s.atHand k with
      | false, .word w => { c.decodeAll c.pc (movesOf w none) with decoded := true }
      | _, _ => c
    s.setCore k (if m.kind = .straddle then c.decodeMove c.pc m else c)

/-! ## The wrong path (R325, R331) -/

/-- R331. Up to `n` packets fetched and decoded from `a` on: what they leave in the line buffer, the cache, the BTT and the
RAP, and the fill that the first one not at hand starts. -/
def State.wrongPath (s : State) (k : Fin 32) (n a : Nat) : State :=
  match n with
  | 0 => s
  | n + 1 =>
    match s.fetch k a with
    | .word w =>
      let tail : Option Word := match s.fetch k ((a + 1) % 2 ^ 32) with | .word t => some t | _ => none
      let s := s.touchAt k a
      let c := s.hw.core k
      let d := c.decodeAll a (movesOf w tail)
      (s.setCore k { c with btt := d.btt, rap := d.rap }).wrongPath k n (d.predictedNext a)
    | .wait =>
      match fetchLine k a, (s.hw.core k).fill with
      | some line, none => if s.hw.now < (s.hw.core k).invUntil then s else s.on (fun h => h.wantLine k line)
      | _, _ => s
    | .fail _ => s

/-- R325, R331. Fetch has run ahead from `a` by up to four packets, a free number, on a path that is not taken.
DESIGN CHOICE, safe: log entry 146. -/
def State.ranAhead (s : State) (k : Fin 32) (a : Nat) : State :=
  if s.hw.barred k then s
  else
    let n := (Config.freeWord s.hw.freeNo).toNat % 5
    (s.on (fun h => h.fresh)).wrongPath k n a

/-! ## Resolving (R329, R330, R333, R334) -/

/-- R329. A branch of the packet at `a` has issued; `target` is where it goes when its guard holds. -/
def CoreSt.train (c : CoreSt) (a : Nat) (target : Option Nat) : CoreSt :=
  let e := (c.bttOf a).getD { tag := a / 64 }
  let e := match target with
    | some t => { e with target := some t, ctr := min 3 (e.ctr + 1) }
    | none => { e with ctr := e.ctr - 1 }
  { c with btt := c.btt.set none (a % 64) (some e) }

/-- R329, R330. What was predicted for a move into `dst` of the packet at hand. -/
def CoreSt.predicted (c : CoreSt) (dst : Nat) : Option Nat :=
  if dst = 0x67 then (c.predR.head?).join else if isBtt dst then c.predB else none

/-- R329, R334. A control move of the packet at hand has issued: the BTT learns, and a misprediction counts, with what fetch
did along the wrong path. -/
def State.resolve (s : State) (k : Fin 32) (m : Move) (target : Option Nat) : State :=
  if !isControl m.dst || s.hw.barred k then s
  else
    let c := s.hw.core k
    let guess := c.predicted m.dst
    let s := s.setCore k (if m.dst = 0x67 then { c with predR := c.predR.tail }
      else if isBtt m.dst then c.train c.pc target else c)
    if guess = target then s
    else (s.on (fun h => h.coreCount k CORE_MISPRED_COUNT 1)).ranAhead k (guess.getD (returnOf c.pc m.kind))

/-- R323, R333, R349. The first half of packet `a` issues: it counts, and the next line is requested where R323 says so; under
BAR that request waits for a control move of the packet. -/
def State.packetIssue (s : State) (k : Fin 32) (a : Nat) (w : Word) : State :=
  let c := s.hw.core k
  let line := fetchLine k a
  let due : Bool := line.isSome && (if s.hw.b (corePage k) 0 CORE_CTRL_PREFETCH then c.curLine != line else a % 8 == 7)
  let tail : Option Word := match s.fetch k ((a + 1) % 2 ^ 32) with | .word t => some t | _ => none
  let s := (s.setCore k { c with curLine := line }).on (fun h => h.coreCount k CORE_PACKETS_COUNT 1)
  match due, s.nextLine k a with
  | true, some l =>
    if s.hw.barred k && (movesOf w tail).any (fun m => isControl m.dst) then s.setCore k { s.hw.core k with later := some l }
    else s.on (fun h => h.wantLine k l)
  | _, _ => s

/-- R332. A move into sys.pred acts, from the packet after its own.
DEDUCED, unsafe: log entry 151. -/
def Hw.predAct (h : Hw) (k : Fin 32) (op : Nat) : Hw :=
  match op with
  | 0 => h.setCore k { h.core k with btt := [], rap := [] }
  | 1 => h.setF (corePage k) 0 CORE_STATUS_BAR 1
  | 2 => h.setCore k { h.core k with rap := (h.core k).rs.take 8 }
  | _ => h.setF (corePage k) 0 CORE_STATUS_BAR 0

/-- The core leaves the packet at hand, in sequence or not: moves into sys.pred act (R332), and a request that waited for a
control move is made where it is needed (R333). -/
def Hw.leavePacket (h : Hw) (k : Fin 32) (inSequence : Bool) : Hw :=
  let c := h.core k
  let h := c.predOps.foldl (fun h op => h.predAct k op) h
  let h := h.setCore k { h.core k with
    pkt := none, decoded := false, predB := none, predR := [], predOps := [], later := none, busyWait := false }
  match inSequence, c.later with
  | true, some l => if (c.lineWord l).isSome then h else h.wantLine k l
  | _, _ => h

end Sys2Proof.Machine
end

