-- ==== Sys2Proof/Machine/Myide.lean ====
section
/-! DEFINITION. The moves of a Myide core (R268 to R313) with gates and returns (R355 to
R357, R364 to R369), lockup (R370, R371), and one command for each kind of move. -/

namespace Sys2Proof.Machine

open Sys2Proof

/-! ## Issue -/

/-- R620. The core waits in sys.wait. -/
def Hw.isWaiting (h : Hw) (k : Fin 32) : Bool := h.b (pCLU (clOf k)) 0 ⟨0x03, 4 + noOf k, 1⟩

/-- R299, R620. The core enters or leaves the wait. -/
def Hw.setWaiting (h : Hw) (k : Fin 32) (v : Bool) : Hw :=
  (h.setB (pCLU (clOf k)) 0 ⟨0x03, 4 + noOf k, 1⟩ v).setB (corePage k) 0 CORE_STATUS_WAITING v

/-- The core issues: its clock runs, it is not held, waiting, locked up or halted, no exception waits for its entry, no
load holds it, no device reset has stopped it at a boundary (R608), and it does not stand at a boundary with an imprecise
exception queued, which R360 takes first (R341).
DEDUCED, unsafe: log entry 150. -/
def Hw.canIssue (h : Hw) (k : Fin 32) : Bool :=
  let c := h.core k
  h.clusterRuns (clOf k) && !h.isHeld k && !h.isWaiting k && !h.locked k && !c.isHalted && c.exc.isNone &&
    c.openLoad.isNone && (c.half || !h.b pRST 0 RST_STATUS_PENDING) && !(c.atBoundary && !c.faults.isEmpty)

/-- R312, R358. A precise exception of the move at hand: the packet that holds its first half is the faulting packet. -/
def Hw.raise (h : Hw) (k : Fin 32) (code info faddr : Nat) : Hw :=
  let c := h.core k
  h.setCore k { c with exc := some { code := code, info := info, faddr := faddr, retPc := c.pc, half := c.half }, entered := none }

/-- R358. TRAP and BRK name the packet after the faulting packet. -/
def Hw.raiseNext (h : Hw) (k : Fin 32) (code info : Nat) : Hw :=
  let c := h.core k
  h.setCore k { c with exc := some { code := code, info := info, retPc := (c.pc + 1) % 2 ^ 32 }, entered := none }

/-- R370, R371. Lockup: the core stops, its queued imprecise exceptions go, and the cluster is forced safe.
DEDUCED, unsafe: log entry 66. -/
def Hw.lockup (h : Hw) (k : Fin 32) (cause code1 code2 retPc : Nat) : Hw :=
  let p := pDIC (clOf k)
  let j := noOf k
  let h := h.setCore k { h.core k with exc := none, faults := [], entered := none }
  let h := ((h.setF p 0 (DIC_CORE_LOCKINFO_CAUSE j) cause).setF p 0 (DIC_CORE_LOCKINFO_CODE1 j) code1).setF p 0
    (DIC_CORE_LOCKINFO_CODE2 j) code2
  let h := (h.setF p 0 (DIC_CORE_LOCKPC_ADDR j) retPc).setF p 0 ⟨0x03, 4 + j, 1⟩ 1
  ((h.irqBit p DIC_IRQ_LOCKUP j).forceCluster (clOf k)).hamperTrigger 0x4

/-- R319, R358, R370. The fetch of packet `a` has failed: BUS_ERR, or lockup when it was a handler's first packet. -/
def Hw.fetchFail (h : Hw) (k : Fin 32) (a reason : Nat) : Hw :=
  let c := h.core k
  match c.entered with
  | some (code, retPc) => h.lockup k 2 code 0x03 retPc
  | none =>
    let c := match placeOf (.core k) a with
      | .word g => c.dropLine g
      | _ => c
    h.setCore k { c with exc := some { code := 0x03, info := 0x80 + reason, faddr := a, retPc := a } }

/-! ## Trace -/

/-- R661. A message of the trace port for core `k`.
DESIGN CHOICE, unsafe: log entry 136. -/
def Hw.traceMsg (h : Hw) (k : Fin 32) (kind target : Nat) : Hw :=
  if !(h.b pTRACE 0 TRACE_CTRL_EN && h.f pTRACE 0 TRACE_CTRL_CORE == k.val) then h
  else if 64 ≤ h.traceQ.length then { h with traceLost := true }.irqBit pTRACE TRACE_IRQ_OVF 0
  else
    let kind := if h.traceLost then 3 else kind
    let dt := min 63 ((h.now - h.traceAt) * 3 / 16)
    let h := { h with traceQ := h.traceQ ++ [w40 (kind * 2 ^ 38 + dt * 2 ^ 32 + target % 2 ^ 32)], traceAt := h.now,
                      traceLost := false }
    h.setF pTRACE 0 TRACE_STATUS_FILL h.traceQ.length

/-! ## Finishing a move -/

/-- R323, R349. The packet whose first half the move at hand holds issues; a straddling move holds that of the next one too. -/
def State.issued (s : State) (k : Fin 32) (kind : MoveKind) : State :=
  let c := s.hw.core k
  let first (s : State) (a : Nat) (f : Fetched) : State := match f with | .word w => s.packetIssue k a w | _ => s
  let s := if c.half then s else first s c.pc (s.atHand k)
  match kind with
  | .straddle => first s ((c.pc + 1) % 2 ^ 32) (s.fetch k ((c.pc + 1) % 2 ^ 32))
  | _ => s

/-- R321, R329 to R334, R349. What the front end does as the move at hand issues; `target` is where it goes, if anywhere. -/
def State.frontEnd (s : State) (k : Fin 32) (m : Move) (target : Option Nat) : State :=
  (((s.touchAt k (s.hw.core k).pc).decode k m).issued k m.kind).resolve k m target

/-- R325. The packet that is at hand for H1 after a move of a kind. -/
def State.keptPacket (s : State) (k : Fin 32) (kind : MoveKind) : Option (Nat × Word) :=
  let c := s.hw.core k
  match kind with
  | .short => if c.half then none else (match s.atHand k with | .word w => some (c.pc, w) | _ => none)
  | .whole => none
  | .straddle =>
    match s.fetch k ((c.pc + 1) % 2 ^ 32) with
    | .word w => some ((c.pc + 1) % 2 ^ 32, w)
    | _ => none

/-- The move at hand is done, and the core goes on after it. -/
def State.moved (s : State) (k : Fin 32) (m : Move) : State :=
  let kept := s.keptPacket k m.kind
  let stays : Bool := m.kind == .short && !(s.hw.core k).half
  let s := (s.frontEnd k m none).on (fun h =>
    let h := h.setCore k { (h.core k).advance m.kind with entered := none }
    let h := if stays then h else h.leavePacket k true
    h.setCore k { h.core k with pkt := kept })
  s.demand k

/-- R294. The control move at hand is done, and the core stands at `target`. -/
def State.landed (s : State) (k : Fin 32) (m : Move) (target : Nat) : State :=
  (s.frontEnd k m (some (target % 2 ^ 32))).on (fun h =>
    let h := h.traceMsg k 0 target
    (h.setCore k { (h.core k).goto target with entered := none }).leavePacket k false)

/-- R294. The control move at hand is done, and the core goes on at `target`. -/
def State.jumped (s : State) (k : Fin 32) (m : Move) (target : Nat) : State := (s.landed k m target).demand k

/-! ## Loads and stores at issue (R291, R336 to R346) -/

/-- The words of an access: their addresses. -/
def spanOf (a : Nat) (dbl : Bool) : List Nat := if dbl then [a % 2 ^ 32, (a + 1) % 2 ^ 32] else [a % 2 ^ 32]

/-- R24, R25, R353. Why a core's access to a place fails at once: `how` is 0 for a load and 1 for a store; 0 when it does
not. A store to flash is unmapped (R335). -/
def Hw.accessFault (h : Hw) (k : Fin 32) (ring how : Nat) (p : Place) : Nat :=
  match p with
  | .unmapped => 1
  | .page p _ => if h.stopped p then 1 else 0
  | .word g =>
    if h.memStopped g || (how == 1 && memKind g == .flash) then 1
    else if !h.permits k ring g how then 2
    else 0

/-- R340. A buffered entry stores into a place. -/
def Store.hits (k : Fin 32) (e : Store) (p : Place) : Bool :=
  (List.range e.words.length).any (fun i => placeOf (.core k) ((e.addr + i) % 2 ^ 32) == p)

/-- R340. The value a buffered entry holds for a load that it covers exactly. -/
def Store.covers (k : Fin 32) (e : Store) (a : Nat) (dbl : Bool) : Bool :=
  placeOf (.core k) e.addr == placeOf (.core k) a && e.words.length == (if dbl then 2 else 1) && (!dbl || a % 2 == 0)

/-- What becomes of a move into a port that may act outside the core. -/
inductive Done
  | moved (s : State)
  | jumped (s : State) (target : Nat)
  | wait
  | exc (code info faddr : Nat)
  | excNext (code info : Nat)

/-- R291, R335 to R340. A load of one or two words from `a`; `next` is what lsu.ldi leaves in lsu.a. -/
def State.load (s : State) (k : Fin 32) (a : Nat) (dbl : Bool) (next : Option Word) : Done :=
  let c := s.hw.core k
  let c' := match next with | some x => { c with lsuA := x } | none => c
  let places := (spanOf a dbl).map (placeOf (.core k))
  let faults := (spanOf a dbl).filterMap (fun x =>
    match s.hw.accessFault k c.ring 0 (placeOf (.core k) x) with | 0 => none | r => some (x, r))
  let held := c.sb.reverse.find? (fun e => places.any (e.hits k))
  if c.cpy.isSome then .wait
  else match faults, held with
    | (x, r) :: _, _ => .exc 0x03 r x
    | [], some e =>
      if e.covers k a dbl then .moved (s.setCore k { c' with loads := c'.loads ++ [⟨e.words⟩] }) else .wait
    | [], none =>
      let page : Bool := places.any (fun p => match p with | .page _ _ => true | _ => false)
      let slow : Bool := places.any (fun p => match p with
        | .word g => memKind g == .dram || memKind g == .flash
        | _ => false)
      if page && !c.sb.isEmpty then .wait
      else if page || slow then
        .moved (s.setCore k { c with openLoad := some { addr := a % 2 ^ 32, dbl := dbl, next := next, ring := c.ring, pc := c.pc, half := c.half,
                                                        rpt := c.rpt, rptInt := c.rptInt, rptCnt := c.rptCnt } })
      else
        let words := places.map (fun p => match p with | .word g => s.rd g | _ => 0)
        .moved (s.setCore k { c' with loads := c'.loads ++ [⟨words⟩] })

/-- R338, R345. A store of one or two words at `a`, as it enters the buffer. -/
def State.store (s : State) (k : Fin 32) (a : Nat) (words : List Word) (next : Option Word) : Done :=
  let c := s.hw.core k
  let c' := match next with | some x => { c with lsuB := x } | none => c
  let split : Bool := words.length == 2 && a % 2 == 1
  if c.cpy.isSome || 4 < c.sb.length + (if split then 2 else 1) then .wait
  else if split then
    let r := ((spanOf a true).map (fun x => s.hw.accessFault k c.ring 1 (placeOf (.core k) x))).filter (· != 0)
    match r with
    | x :: _ => .moved ((s.setCore k c').on (fun h => h.coreFault k 0x04 x))
    | [] =>
      .moved (s.setCore k { c' with sb := c'.sb ++ [{ addr := a % 2 ^ 32, words := words.take 1, ring := c.ring },
        { addr := (a + 1) % 2 ^ 32, words := words.drop 1, ring := c.ring, upper := true }] })
  else .moved (s.setCore k { c' with sb := c'.sb ++ [{ addr := a % 2 ^ 32, words := words, ring := c.ring }] })

/-- R291. A move into the LSU's triggers 0x5D to 0x62. -/
def State.lsu (s : State) (k : Fin 32) (e : Nat) (t : Word) : Done :=
  let c := s.hw.core k
  let a := c.lsuA.toNat
  let b := c.lsuB.toNat
  let next (x : Nat) : Option Word := some (w40 (x % 2 ^ 32))
  match e with
  | 0x5D => s.load k (a + t.toNat) false none
  | 0x5E => s.load k a false (next (a + t.toNat))
  | 0x5F => s.load k (a + t.toNat) true none
  | 0x60 => s.store k b [t] none
  | 0x61 => s.store k b [t] (next (b + 1))
  | _ => s.store k b [t, c.lsuH] none

/-! ## Frames, gates and returns -/

/-- R390. XFP, XLIM and GBASE of core `k`. Hardware does not see a software write of XFP of its own cycle. -/
def Hw.xfp (h : Hw) (k : Fin 32) : Nat :=
  (match h.xfpSw.find? (fun x => x.1 == k.val) with
   | some x => x.2
   | none => h.f (pDIC (clOf k)) 0 (DIC_CORE_XFP_ADDR (noOf k))) * 4
def Hw.xlim (h : Hw) (k : Fin 32) : Nat := h.f (pDIC (clOf k)) 0 (DIC_CORE_XLIM_ADDR (noOf k)) * 4
def Hw.gbase (h : Hw) (k : Fin 32) : Nat := h.f (pDIC (clOf k)) 0 (DIC_CORE_GBASE_BASE (noOf k)) * 256
def Hw.setXfp (h : Hw) (k : Fin 32) (a : Nat) : Hw :=
  { h.setF (pDIC (clOf k)) 0 (DIC_CORE_XFP_ADDR (noOf k)) (a / 4) with
    xfpSw := h.xfpSw.filter (fun x => x.1 != k.val), xfpHw := k.val :: h.xfpHw }
def Hw.ien (h : Hw) (k : Fin 32) : Bool := h.b (pDIC (clOf k)) 0 (DIC_CORE_IMASK_IEN (noOf k))
def Hw.setIen (h : Hw) (k : Fin 32) (v : Bool) : Hw :=
  h.hwF (pDIC (clOf k)) 0 (DIC_CORE_IMASK_IEN (noOf k)) (b2n v)

/-- R364. A new frame of `n` words below XFP lies in the own DTCM and not below XLIM. -/
def Hw.frameFits (h : Hw) (k : Fin 32) (n : Nat) : Bool :=
  n ≤ h.xfp k && 0x10000 ≤ h.xfp k - n && h.xfp k ≤ 0x18000 && h.xlim k ≤ h.xfp k - n

/-- R366. The FRAME word. -/
structure SavedFrame where
  kind : Nat
  old : Nat
  new : Nat
  code : Nat := 0
  info : Nat := 0
  rptAct : Bool := false
  rptInt : Bool := false
  half : Bool := false
  divAct : Bool := false
  cpyAct : Bool := false
  sat : Bool
  ien : Bool
  rptCnt : Nat := 0
deriving DecidableEq, Repr

/-- R366. The fields packed. -/
def SavedFrame.word (f : SavedFrame) : Word :=
  w40 (f.kind % 16 * 2 ^ 36 + f.old % 4 * 2 ^ 34 + f.new % 4 * 2 ^ 32 + f.code % 256 * 2 ^ 24 + f.info % 256 * 2 ^ 16 +
    b2n f.rptAct * 2 ^ 15 + b2n f.rptInt * 2 ^ 14 + b2n f.half * 2 ^ 13 + b2n f.divAct * 2 ^ 12 + b2n f.cpyAct * 2 ^ 11 +
    b2n f.sat * 2 ^ 10 + b2n f.ien * 2 ^ 9 + f.rptCnt % 128)

/-- R366. The fields of a FRAME word. -/
def SavedFrame.ofWord (w : Word) : SavedFrame :=
  let n := w.toNat
  { kind := bitsOf n 36 4, old := bitsOf n 34 2, new := bitsOf n 32 2, code := bitsOf n 24 8, info := bitsOf n 16 8,
    rptAct := bitOf n 15, rptInt := bitOf n 14, half := bitOf n 13, divAct := bitOf n 12, cpyAct := bitOf n 11,
    sat := bitOf n 10, ien := bitOf n 9, rptCnt := bitsOf n 0 7 }

/-- R356. The check a gate fails first; 0 when it passes. -/
def State.gateCheck (s : State) (k : Fin 32) (entry : Word) : Nat :=
  let e := entry.toNat
  let c := s.hw.core k
  let inOwn : Bool := match placeOf (.core k) (s.hw.gbase k) with
    | .word g => ownItcm k g || ownDtcm k g
    | _ => false
  if !inOwn then 5
  else if !bitOf e 39 then 1
  else if !bitOf e (34 + c.ring) then 2
  else if c.ring < bitsOf e 32 2 then 3
  else if !s.hw.frameFits k 4 then 4
  else 0

/-- R355. Entry `g` of the gate table. -/
def State.gateEntry (s : State) (k : Fin 32) (g : Nat) : Word :=
  match placeOf (.core k) (s.hw.gbase k + g) with
  | .word a => s.rd a
  | _ => 0

/-- R355 to R357. A move into sys.gate. -/
def State.gate (s : State) (k : Fin 32) (kind : MoveKind) (g : Nat) : Done :=
  let entry := s.gateEntry k g
  let c := s.hw.core k
  match s.gateCheck k entry with
  | 0 =>
    let ring := bitsOf entry.toNat 32 2
    let f : SavedFrame := { kind := 3, old := c.ring, new := ring, info := g, sat := c.sat, ien := s.hw.ien k }
    let xfp := s.hw.xfp k - 4
    let s := s.wrList (tcm k xfp) [f.word, w40 (c.after kind), 0, w40 (c.preds - c.preds % 2)]
    let s := s.on (fun h => (h.setXfp k xfp).setCore k { c with ring := ring })
    .jumped s (bitsOf entry.toNat 0 32)
  | r => .exc 0x02 r 0

/-- R367. The check a return fails first; 0 when it passes. -/
def State.gretCheck (s : State) (k : Fin 32) : Nat :=
  let a := s.hw.xfp k
  let f := SavedFrame.ofWord (s.rd (tcm k a))
  if a < 0x10000 ∨ 0x18000 < a + 4 then 8
  else if f.kind = 0 ∨ 3 < f.kind ∨ (f.kind ≠ 3 ∧ 0x18000 < a + 16) then 9
  else if f.new ≠ (s.hw.core k).ring then 10
  else if f.old < f.new then 11
  else 0

/-- R308, R367, R368. DIV as words 4 to 10 of the frame say: the division that an entry left in those words, in this frame or
another; the results of words no entry has left are free. -/
def State.restoreDiv (s : State) (k : Fin 32) (a : Nat) : State :=
  let words := s.rdList (tcm k (a + 4)) 5
  let ctl := (s.rd (tcm k (a + 4))).toNat
  let c := { s.hw.core k with divR := s.rd (tcm k (a + 9)), divM := s.rd (tcm k (a + 10)) }
  match s.hw.divSaved.find? (fun x => x.words == words) with
  | some x => s.setCore k { c with div := some x.op }
  | none =>
    let n := s.hw.freeNo
    (s.on (fun h => h.fresh.fresh)).setCore k { c with
      div := some { kind := bitsOf ctl 6 2, t := 0, a := s.rd (tcm k (a + 5)), steps := bitsOf ctl 0 6,
                    out := some (Config.freeWord n, Config.freeWord (n + 1)) } }

/-- R289, R308, R367, R368. A copy as words 12 to 15 of the frame say, in the ring of its cpy.t. -/
def State.restoreCpy (s : State) (k : Fin 32) (a : Nat) : State :=
  let n := (s.rd (tcm k (a + 14))).toNat % 2 ^ 24
  let words := s.rdList (tcm k (a + 12)) 3
  let c := { s.hw.core k with cpyR := s.rd (tcm k (a + 15)) }
  let saved := (s.hw.cpySaved.filter (fun x => x.words == words) ++ s.hw.cpySaved.filter (fun x => x.frame == tcm k a)).head?
  let ring := match saved with | some x => x.ring | none => c.ring
  if n = 0 then s.setCore k { c with cpyR := 0 }
  else s.setCore k { c with cpy := some ⟨(s.rd (tcm k (a + 12))).toNat % 2 ^ 32, (s.rd (tcm k (a + 13))).toNat % 2 ^ 32, n, ring⟩ }

/-- R367 to R369. A return through the frame at `a`, once its checks have passed; where it goes on is set after. -/
def State.unframe (s : State) (k : Fin 32) (a : Nat) : State :=
  let f := SavedFrame.ofWord (s.rd (tcm k a))
  let c := s.hw.core k
  let c := { c with ring := f.old, sat := f.sat, preds := bitsOf (s.rd (tcm k (a + 3))).toNat 1 7 * 2 + 1 }
  let s := (s.setCore k c).on (fun h => (h.setIen k f.ien).setXfp k (if f.kind = 3 then a + 4 else a + 16))
  if f.kind = 3 then s
  else
    let s := if f.divAct then s.restoreDiv k a else s
    if f.cpyAct then s.restoreCpy k a else s

/-- R368, R369. The place a return goes on at: RET_PC, or its H1, within the repeat the frame holds. -/
def CoreSt.resume (c : CoreSt) (f : SavedFrame) (retPc : Nat) : CoreSt :=
  let n := min 64 f.rptCnt
  let c := { c with pc := retPc % 2 ^ 32, half := f.half, rpt := none, rptInt := false, rptCnt := 0 }
  if f.kind = 3 then c
  else if !f.rptAct then c
  else if n = 0 ∧ !f.half then { c with pc := (retPc + 1) % 2 ^ 32 }
  else { c with rpt := some (retPc % 2 ^ 32), rptInt := f.rptInt, rptCnt := n }

/-- R367. A move into sys.gret, once its wait has ended. -/
def State.gret (s : State) (k : Fin 32) (m : Move) : State :=
  let a := s.hw.xfp k
  let f := SavedFrame.ofWord (s.rd (tcm k a))
  let retPc := (s.rd (tcm k (a + 1))).toNat % 2 ^ 32
  let s := (s.unframe k a).landed k m retPc
  (s.on (fun h => h.setCore k ((h.core k).resume f retPc))).demand k

/-! ## SYS and the other ports that reach outside the core -/

/-- R298. What gio.r returns: the levels of the pins assigned to the core's private port. -/
def Hw.gioPins (h : Hw) (k : Fin 32) : Word :=
  w40 ((List.range 16).foldl (fun n b =>
    let pins := h.pinsFeeding (clOf k * 256 + 0x40 + 16 * noOf k + b)
    n + b2n (pins.any (fun pin => h.pinIn pin && !h.unarmed pin)) * 2 ^ b) 0)

/-- R296. A move into evp.t launches the chosen outputs. -/
def Hw.evpFire (h : Hw) (k : Fin 32) (t : Word) : Hw :=
  [0, 1, 2, 3].foldl (fun h j =>
    if bitOf t.toNat j then h.launch (clCode (clOf k) (0x0D0 + 4 * noOf k + j)) else h) h

/-- R332. A move into sys.pred: it acts from the next packet. -/
def State.pred (s : State) (k : Fin 32) (t : Word) : Done :=
  let c := s.hw.core k
  let op := t.toNat
  if 3 < op then .exc 0x01 0 0
  else if op % 2 = 1 ∧ 2 ≤ c.ring then .exc 0x02 0x10 0
  else .moved (s.setCore k { c with predOps := c.predOps ++ [op] })

/-- R341. Every store has drained and no copy runs. -/
def CoreSt.fenced (c : CoreSt) : Bool := c.sb.isEmpty && c.cpy.isNone

/-- R299. A move into sys.brk: the debugger halts the core, or BRK is raised. -/
def State.brk (s : State) (k : Fin 32) (kind : MoveKind) : Done :=
  let c := s.hw.core k
  if s.hw.debugOpen && s.hw.b pDBG 0 DBG_STATUS_ATTACHED then
    .jumped (s.setCore k { c with halted := true }) (c.after kind)
  else .excNext 0x0A 0

/-- R293, R304. A call to `target`. -/
def State.call (s : State) (k : Fin 32) (kind : MoveKind) (target : Nat) : Done :=
  let c := s.hw.core k
  match c.push (c.after kind) with
  | some c => .jumped (s.setCore k c) target
  | none => .exc 0x06 0 0

/-- R293, R306. A return through the return stack. -/
def State.ret (s : State) (k : Fin 32) : Done :=
  let c := s.hw.core k
  match c.rs with
  | [] => .exc 0x07 0 0
  | a :: rest => .jumped (s.setCore k { c with rs := rest }) a

/-- R293, R296, R299, R332. A move of `t` into a port that reaches outside the core, sys.gret apart. -/
def State.putOut (s : State) (k : Fin 32) (kind : MoveKind) (e : Nat) (t : Word) : Done :=
  let c := s.hw.core k
  let rel := (c.pc + t.toNat) % 2 ^ 32
  match e with
  | 0x63 => .jumped s (t.toNat % 2 ^ 32)
  | 0x64 => .jumped s rel
  | 0x65 => s.call k kind (t.toNat % 2 ^ 32)
  | 0x66 => s.call k kind rel
  | 0x67 => s.ret k
  | 0x6A => .moved (s.on (fun h => h.evpFire k t))
  | 0x6F => if c.fenced then .moved s else .wait
  | 0x70 => s.gate k kind (t.toNat % 256)
  | 0x72 => s.pred k t
  | 0x73 => .moved (s.on (fun h => h.setWaiting k true))
  | 0x74 => .excNext 0x09 (t.toNat % 256)
  | 0x75 => s.brk k kind
  | _ => s.lsu k e t

/-- A port whose effect reaches outside the core. -/
def reachesOut (e : Nat) : Bool := (0x5D ≤ e && e ≤ 0x67) || e == 0x6A || (0x6F ≤ e && e ≤ 0x75)

/-! ## A move -/

/-- R280, R281. A move of `t` into destination `e` of core `k`, sys.gret apart. -/
def State.putInto (s : State) (k : Fin 32) (kind : MoveKind) (e : Nat) (t : Word) : Done :=
  if reachesOut e then s.putOut k kind e t
  else match (s.hw.core k).put e t with
    | .val c => .moved (s.setCore k c)
    | .wait => .wait
    | .exc code info => .exc code info 0

/-- R279, R281. The value a move carries. -/
def State.getFrom (s : State) (k : Fin 32) (src : MoveSrc) : Got :=
  match src with
  | .imm v => .val (s.hw.core k) v
  | .code e => (s.hw.core k).read k (s.hw.gioPins k) e

/-- R271, R277, R284, R294, R312. The move at hand of core `k` issues, waits or raises its exception. A move that waits or
raises has had no effect. -/
def State.issue (s : State) (k : Fin 32) (m : Move) : State :=
  if !(s.hw.core k).holds m.guard m.inv then s.moved k m
  else match s.getFrom k m.src with
    | .wait => s
    | .exc code info => (s.decode k m).on (fun h => h.raise k code info 0)
    | .val c t =>
      let s' := s.setCore k c
      if m.dst = 0x71 then
        if !c.fenced then s
        else match s'.gretCheck k with
          | 0 => s'.gret k m
          | r => (s.decode k m).on (fun h => h.raise k 0x02 r 0)
      else match s'.putInto k m.kind m.dst t with
        | .moved s'' => s''.moved k m
        | .jumped s'' target => s''.jumped k m target
        | .wait => s
        | .exc code info faddr => (s.decode k m).on (fun h => h.raise k code info faddr)
        | .excNext code info =>
          (s'.frontEnd k m (some (s'.hw.f (pDIC (clOf k)) 0 (DIC_CORE_XVEC_ADDR (noOf k))))).on (fun h => h.raiseNext k code info)

/-- R316, R337 to R342. What the half at hand waits for: 1 its packet, 2 the store buffer, 3 a result port; 0 nothing of these.
A load on its way makes its result ports wait. -/
def State.stall (s : State) (k : Fin 32) : Nat :=
  let c := s.hw.core k
  let s := match c.openLoad with
    | some l => s.setCore k { c with openLoad := none, loads := c.loads ++ [Load.mk (List.replicate (if l.dbl then 2 else 1) 0)] }
    | none => s
  if !s.hw.canIssue k then 0
  else match s.next k with
    | .wait => 1
    | .code (.rpt _) => if (s.missing k).isSome then 1 else 0
    | .code (.move m) =>
      if !c.holds m.guard m.inv then 0
      else match s.getFrom k m.src with
        | .wait => if m.src == MoveSrc.code 0x2D then 0 else 3
        | .exc _ _ => 0
        | .val _ t =>
          if m.dst = 0x6F ∨ m.dst = 0x71 then (if c.fenced then 0 else 2)
          else if 0x5D ≤ m.dst ∧ m.dst ≤ 0x62 then
            (match s.lsu k m.dst t with | .wait => if c.cpy.isSome then 0 else 2 | _ => 0)
          else 0
    | _ => 0

/-- R348. FENCE_WAIT: a fence or a store waits on the buffer. -/
def State.fenceWait (s : State) (k : Fin 32) : Bool :=
  s.stall k == 2 && (match s.next k with
    | .code (.move m) => m.dst == 0x6F || m.dst == 0x71 || (0x60 ≤ m.dst && m.dst ≤ 0x62)
    | _ => false)

/-- R268 to R273. The core's next move, when it is one the command stands for (`sel`). A fault of encoding or of the fetch
is raised whichever command finds it.
DEDUCED, unsafe: log entry 57. -/
def State.coreMove (s : State) (k : Fin 32) (sel : Move → Bool) : State :=
  if !s.hw.canIssue k then s
  else match s.next k with
    | .wait => s.demand k
    | .fail a r => s.on (fun h => h.fetchFail k a r)
    | .code .illegal => s.on (fun h => h.raise k 0x01 0 0)
    | .code (.rpt _) => s
    | .code (.move m) => if sel m then s.issue k m else s

/-- R300, R302. The number of repetitions a prefix asks for. -/
def CoreSt.rptCount (c : CoreSt) (r : Rpt) : Nat :=
  if !r.csrc then r.count + 1
  else
    let z := (if r.count = 0 then (0 : Word) else c.v.at 0 r.count).toInt
    if z < 0 then 0 else min 64 z.toNat

/-- R300 to R303. The prefix at hand, once its body is known to be a good one. -/
def CoreSt.prefixed (c : CoreSt) (r : Rpt) : CoreSt :=
  let body := (c.pc + 1) % 2 ^ 32
  if !c.holds r.guard r.inv then { c with pc := body, half := false }
  else if c.rptCount r = 0 then { c with pc := (c.pc + 2) % 2 ^ 32, half := false, rptCnt := 0 }
  else { c with pc := body, half := false, rpt := some body, rptInt := r.int, rptCnt := c.rptCount r }

/-- R300, R301. The prefix of core `k` issues.
DEDUCED, unsafe: log entry 59. -/
def State.corePrefix (s : State) (k : Fin 32) : State :=
  let c := s.hw.core k
  if !s.hw.canIssue k then s
  else match s.next k with
    | .wait => s.demand k
    | .fail a r => s.on (fun h => h.fetchFail k a r)
    | .code .illegal => s.on (fun h => h.raise k 0x01 0 0)
    | .code (.move _) => s
    | .code (.rpt r) =>
      let go : State :=
        ((s.setCore k { c.prefixed r with entered := none }).on (fun h => h.leavePacket k true)).demand k
      match s.fetch k ((c.pc + 1) % 2 ^ 32) with
      | .wait => s.demand k
      | .fail _ => go
      | .word w => if badPacket w then s.on (fun h => h.raise k 0x01 0 0) else go

/-- The command stands for a move into destination `e`. -/
def into (e : Nat) (m : Move) : Bool := m.dst == e

/-- The command stands for a move out of source `e`. -/
def outOf (e : Nat) (m : Move) : Bool := m.src == .code e

end Sys2Proof.Machine
end

