-- ==== Sys2Proof/Machine/Moves.lean ====
section
/-! DEFINITION. The commands of a core's moves: each issues the move at hand of core `k` when it is the move the command
stands for, and leaves the core as it is otherwise. -/

namespace Sys2Proof.Machine

open Sys2Proof

/-- R332. The value that the move at hand brings to sys.pred is `v`; a reserved value goes with any of the four commands. -/
def predMove (s : State) (k : Fin 32) (v : Nat) (m : Move) : Bool :=
  m.dst == 0x72 && (match s.getFrom k m.src with
    | .val _ t => t.toNat == v || decide (3 < t.toNat) || !(s.hw.core k).holds m.guard m.inv
    | _ => true)

/-- OPERAND_MOVE: a move into an operand port. -/
def execOperandMove (k : Fin 32) (s : State) : Host.Outcome State Fault Refusal :=
  .next (s.coreMove k (fun m => isOperand m.dst))

/-- REGISTER_MOVE: a move into a register, or into an extended destination other than RS_DATA. -/
def execRegisterMove (k : Fin 32) (s : State) : Host.Outcome State Fault Refusal :=
  .next (s.coreMove k (fun m => (m.dst < 0x20 || (0xC0 ≤ m.dst && m.dst != 0x206))))

/-- PREDICATE_MOVE: a move into a predicate. -/
def execPredicateMove (k : Fin 32) (s : State) : Host.Outcome State Fault Refusal :=
  .next (s.coreMove k (fun m => (0x20 ≤ m.dst && m.dst < 0x28)))

/-- ALU_T: a move into alu.t. -/
def execAluT (k : Fin 32) (s : State) : Host.Outcome State Fault Refusal :=
  .next (s.coreMove k (fun m => into 0x29 m))

/-- ALU_ADDS: a move into alu.adds. -/
def execAluAdds (k : Fin 32) (s : State) : Host.Outcome State Fault Refusal :=
  .next (s.coreMove k (fun m => into 0x2A m))

/-- ALU_SUB: a move into alu.sub. -/
def execAluSub (k : Fin 32) (s : State) : Host.Outcome State Fault Refusal :=
  .next (s.coreMove k (fun m => into 0x2B m))

/-- ALU_SUBS: a move into alu.subs. -/
def execAluSubs (k : Fin 32) (s : State) : Host.Outcome State Fault Refusal :=
  .next (s.coreMove k (fun m => into 0x2C m))

/-- ALU_AND: a move into alu.and. -/
def execAluAnd (k : Fin 32) (s : State) : Host.Outcome State Fault Refusal :=
  .next (s.coreMove k (fun m => into 0x2D m))

/-- ALU_OR: a move into alu.or. -/
def execAluOr (k : Fin 32) (s : State) : Host.Outcome State Fault Refusal :=
  .next (s.coreMove k (fun m => into 0x2E m))

/-- ALU_XOR: a move into alu.xor. -/
def execAluXor (k : Fin 32) (s : State) : Host.Outcome State Fault Refusal :=
  .next (s.coreMove k (fun m => into 0x2F m))

/-- ALU_ANDN: a move into alu.andn. -/
def execAluAndn (k : Fin 32) (s : State) : Host.Outcome State Fault Refusal :=
  .next (s.coreMove k (fun m => into 0x30 m))

/-- ALU_MIN: a move into alu.min. -/
def execAluMin (k : Fin 32) (s : State) : Host.Outcome State Fault Refusal :=
  .next (s.coreMove k (fun m => into 0x31 m))

/-- ALU_MAX: a move into alu.max. -/
def execAluMax (k : Fin 32) (s : State) : Host.Outcome State Fault Refusal :=
  .next (s.coreMove k (fun m => into 0x32 m))

/-- ALU_ABSS: a move into alu.abss. -/
def execAluAbss (k : Fin 32) (s : State) : Host.Outcome State Fault Refusal :=
  .next (s.coreMove k (fun m => into 0x33 m))

/-- ALU_NEGS: a move into alu.negs. -/
def execAluNegs (k : Fin 32) (s : State) : Host.Outcome State Fault Refusal :=
  .next (s.coreMove k (fun m => into 0x34 m))

/-- SHF_T: a move into shf.t. -/
def execShfT (k : Fin 32) (s : State) : Host.Outcome State Fault Refusal :=
  .next (s.coreMove k (fun m => into 0x36 m))

/-- SHF_SHR: a move into shf.shr. -/
def execShfShr (k : Fin 32) (s : State) : Host.Outcome State Fault Refusal :=
  .next (s.coreMove k (fun m => into 0x37 m))

/-- SHF_SAR: a move into shf.sar. -/
def execShfSar (k : Fin 32) (s : State) : Host.Outcome State Fault Refusal :=
  .next (s.coreMove k (fun m => into 0x38 m))

/-- SHF_SARR: a move into shf.sarr. -/
def execShfSarr (k : Fin 32) (s : State) : Host.Outcome State Fault Refusal :=
  .next (s.coreMove k (fun m => into 0x39 m))

/-- SHF_SHLS: a move into shf.shls. -/
def execShfShls (k : Fin 32) (s : State) : Host.Outcome State Fault Refusal :=
  .next (s.coreMove k (fun m => into 0x3A m))

/-- CMP_T: a move into cmp.t. -/
def execCmpT (k : Fin 32) (s : State) : Host.Outcome State Fault Refusal :=
  .next (s.coreMove k (fun m => into 0x3C m))

/-- CMP_NE: a move into cmp.ne. -/
def execCmpNe (k : Fin 32) (s : State) : Host.Outcome State Fault Refusal :=
  .next (s.coreMove k (fun m => into 0x3D m))

/-- CMP_LT: a move into cmp.lt. -/
def execCmpLt (k : Fin 32) (s : State) : Host.Outcome State Fault Refusal :=
  .next (s.coreMove k (fun m => into 0x3E m))

/-- CMP_GE: a move into cmp.ge. -/
def execCmpGe (k : Fin 32) (s : State) : Host.Outcome State Fault Refusal :=
  .next (s.coreMove k (fun m => into 0x3F m))

/-- CMP_LTU: a move into cmp.ltu. -/
def execCmpLtu (k : Fin 32) (s : State) : Host.Outcome State Fault Refusal :=
  .next (s.coreMove k (fun m => into 0x40 m))

/-- CMP_GEU: a move into cmp.geu. -/
def execCmpGeu (k : Fin 32) (s : State) : Host.Outcome State Fault Refusal :=
  .next (s.coreMove k (fun m => into 0x41 m))

/-- MUL_T: a move into mul.t. -/
def execMulT (k : Fin 32) (s : State) : Host.Outcome State Fault Refusal :=
  .next (s.coreMove k (fun m => into 0x43 m))

/-- MUL_L: a move into mul.l. -/
def execMulL (k : Fin 32) (s : State) : Host.Outcome State Fault Refusal :=
  .next (s.coreMove k (fun m => into 0x44 m))

/-- MUL_H: a move into mul.h. -/
def execMulH (k : Fin 32) (s : State) : Host.Outcome State Fault Refusal :=
  .next (s.coreMove k (fun m => into 0x45 m))

/-- MAC_T: a move into mac.t0 to 3. -/
def execMacT (k : Fin 32) (s : State) : Host.Outcome State Fault Refusal :=
  .next (s.coreMove k (fun m => (0x47 ≤ m.dst && m.dst ≤ 0x4A)))

/-- MAC_S: a move into mac.s0 to 3. -/
def execMacS (k : Fin 32) (s : State) : Host.Outcome State Fault Refusal :=
  .next (s.coreMove k (fun m => (0x4B ≤ m.dst && m.dst ≤ 0x4E)))

/-- MAC_Z: a move into mac.z0 to 3. -/
def execMacZ (k : Fin 32) (s : State) : Host.Outcome State Fault Refusal :=
  .next (s.coreMove k (fun m => (0x4F ≤ m.dst && m.dst ≤ 0x52)))

/-- DIV_T: a move into div.t. -/
def execDivT (k : Fin 32) (s : State) : Host.Outcome State Fault Refusal :=
  .next (s.coreMove k (fun m => into 0x54 m))

/-- DIV_Q: a move into div.q. -/
def execDivQ (k : Fin 32) (s : State) : Host.Outcome State Fault Refusal :=
  .next (s.coreMove k (fun m => into 0x55 m))

/-- DIV_U: a move into div.u. -/
def execDivU (k : Fin 32) (s : State) : Host.Outcome State Fault Refusal :=
  .next (s.coreMove k (fun m => into 0x56 m))

/-- CPY_T: a move into cpy.t. -/
def execCpyT (k : Fin 32) (s : State) : Host.Outcome State Fault Refusal :=
  .next (s.coreMove k (fun m => into 0x59 m))

/-- LSU_T: a move into lsu.t. -/
def execLsuT (k : Fin 32) (s : State) : Host.Outcome State Fault Refusal :=
  .next (s.coreMove k (fun m => into 0x5D m))

/-- LSU_LDI: a move into lsu.ldi. -/
def execLsuLdi (k : Fin 32) (s : State) : Host.Outcome State Fault Refusal :=
  .next (s.coreMove k (fun m => into 0x5E m))

/-- LSU_LDD: a move into lsu.ldd. -/
def execLsuLdd (k : Fin 32) (s : State) : Host.Outcome State Fault Refusal :=
  .next (s.coreMove k (fun m => into 0x5F m))

/-- LSU_ST: a move into lsu.st. -/
def execLsuSt (k : Fin 32) (s : State) : Host.Outcome State Fault Refusal :=
  .next (s.coreMove k (fun m => into 0x60 m))

/-- LSU_STI: a move into lsu.sti. -/
def execLsuSti (k : Fin 32) (s : State) : Host.Outcome State Fault Refusal :=
  .next (s.coreMove k (fun m => into 0x61 m))

/-- LSU_STD: a move into lsu.std. -/
def execLsuStd (k : Fin 32) (s : State) : Host.Outcome State Fault Refusal :=
  .next (s.coreMove k (fun m => into 0x62 m))

/-- BRU_T: a move into bru.t. -/
def execBruT (k : Fin 32) (s : State) : Host.Outcome State Fault Refusal :=
  .next (s.coreMove k (fun m => into 0x63 m))

/-- BRU_JR: a move into bru.jr. -/
def execBruJr (k : Fin 32) (s : State) : Host.Outcome State Fault Refusal :=
  .next (s.coreMove k (fun m => into 0x64 m))

/-- BRU_CALL: a move into bru.call. -/
def execBruCall (k : Fin 32) (s : State) : Host.Outcome State Fault Refusal :=
  .next (s.coreMove k (fun m => into 0x65 m))

/-- BRU_CALLR: a move into bru.callr. -/
def execBruCallr (k : Fin 32) (s : State) : Host.Outcome State Fault Refusal :=
  .next (s.coreMove k (fun m => into 0x66 m))

/-- BRU_RET: a move into bru.ret. -/
def execBruRet (k : Fin 32) (s : State) : Host.Outcome State Fault Refusal :=
  .next (s.coreMove k (fun m => into 0x67 m))

/-- CNS_T: a move into cns.t. -/
def execCnsT (k : Fin 32) (s : State) : Host.Outcome State Fault Refusal :=
  .next (s.coreMove k (fun m => into 0x69 m))

/-- EVP_T: a move into evp.t. -/
def execEvpT (k : Fin 32) (s : State) : Host.Outcome State Fault Refusal :=
  .next (s.coreMove k (fun m => into 0x6A m))

/-- EVP_R: a move out of evp.r. -/
def execEvpR (k : Fin 32) (s : State) : Host.Outcome State Fault Refusal :=
  .next (s.coreMove k (fun m => outOf 0x2D m))

/-- EVP_P: a move out of evp.p. -/
def execEvpP (k : Fin 32) (s : State) : Host.Outcome State Fault Refusal :=
  .next (s.coreMove k (fun m => outOf 0x2E m))

/-- GIO_T: a move into gio.t. -/
def execGioT (k : Fin 32) (s : State) : Host.Outcome State Fault Refusal :=
  .next (s.coreMove k (fun m => into 0x6B m))

/-- GIO_SET: a move into gio.set. -/
def execGioSet (k : Fin 32) (s : State) : Host.Outcome State Fault Refusal :=
  .next (s.coreMove k (fun m => into 0x6C m))

/-- GIO_CLR: a move into gio.clr. -/
def execGioClr (k : Fin 32) (s : State) : Host.Outcome State Fault Refusal :=
  .next (s.coreMove k (fun m => into 0x6D m))

/-- GIO_TGL: a move into gio.tgl. -/
def execGioTgl (k : Fin 32) (s : State) : Host.Outcome State Fault Refusal :=
  .next (s.coreMove k (fun m => into 0x6E m))

/-- SYS_FENCE: a move into sys.fence. -/
def execSysFence (k : Fin 32) (s : State) : Host.Outcome State Fault Refusal :=
  .next (s.coreMove k (fun m => into 0x6F m))

/-- SYS_GATE: a move into sys.gate. -/
def execSysGate (k : Fin 32) (s : State) : Host.Outcome State Fault Refusal :=
  .next (s.coreMove k (fun m => into 0x70 m))

/-- SYS_GRET: a move into sys.gret. -/
def execSysGret (k : Fin 32) (s : State) : Host.Outcome State Fault Refusal :=
  .next (s.coreMove k (fun m => into 0x71 m))

/-- PRED_FLUSH: a move of 0 into sys.pred. -/
def execPredFlush (k : Fin 32) (s : State) : Host.Outcome State Fault Refusal :=
  .next (s.coreMove k (fun m => predMove s k 0 m))

/-- PRED_BAR: a move of 1 into sys.pred. -/
def execPredBar (k : Fin 32) (s : State) : Host.Outcome State Fault Refusal :=
  .next (s.coreMove k (fun m => predMove s k 1 m))

/-- PRED_SYNC: a move of 2 into sys.pred. -/
def execPredSync (k : Fin 32) (s : State) : Host.Outcome State Fault Refusal :=
  .next (s.coreMove k (fun m => predMove s k 2 m))

/-- PRED_RELEASE: a move of 3 into sys.pred. -/
def execPredRelease (k : Fin 32) (s : State) : Host.Outcome State Fault Refusal :=
  .next (s.coreMove k (fun m => predMove s k 3 m))

/-- SYS_WAIT: a move into sys.wait. -/
def execSysWait (k : Fin 32) (s : State) : Host.Outcome State Fault Refusal :=
  .next (s.coreMove k (fun m => into 0x73 m))

/-- SYS_TRAP: a move into sys.trap. -/
def execSysTrap (k : Fin 32) (s : State) : Host.Outcome State Fault Refusal :=
  .next (s.coreMove k (fun m => into 0x74 m))

/-- SYS_BRK: a move into sys.brk. -/
def execSysBrk (k : Fin 32) (s : State) : Host.Outcome State Fault Refusal :=
  .next (s.coreMove k (fun m => into 0x75 m))

/-- RS_DATA_READ: a move out of RS_DATA. -/
def execRsDataRead (k : Fin 32) (s : State) : Host.Outcome State Fault Refusal :=
  .next (s.coreMove k (fun m => outOf 0x206 m))

/-- RS_DATA_WRITE: a move into RS_DATA. -/
def execRsDataWrite (k : Fin 32) (s : State) : Host.Outcome State Fault Refusal :=
  .next (s.coreMove k (fun m => into 0x206 m))

/-- RPT: the prefix at hand. -/
def execRptPrefix (k : Fin 32) (s : State) : Host.Outcome State Fault Refusal := .next (s.corePrefix k)

/-- DIV_COMPLETE: the division of core `k` finishes. -/
def execDivComplete (k : Fin 32) (s : State) : Host.Outcome State Fault Refusal :=
  .next (if s.hw.clusterRuns (clOf k) && !s.hw.locked k then s.setCore k (s.hw.core k).divFinish else s)

/-- EVP_INPUT_ARRIVAL: an arrival at EVP input `j` of core `k`. -/
def execEvpInputArrival (k : Fin 32) (j : Fin 2) (a : Arrival) (s : State) : Host.Outcome State Fault Refusal :=
  onHw s (fun h =>
    let x := h.arrive a (clOf k * 4096 + 0x060 + 2 * noOf k + j) (h.clusterRuns (clOf k))
    if x.2 then x.1.setCore k { x.1.core k with evp := (x.1.core k).evp ||| 2 ^ j.val } else x.1)

/-- CORE_WAKE: a condition of R299 ends the wait of core `k`. -/
def execCoreWake (k : Fin 32) (s : State) : Host.Outcome State Fault Refusal :=
  onHw s (fun h =>
    if h.clusterRuns (clOf k) && h.isWaiting k &&
        ((h.presentedSrc (clOf k) (noOf k)).isSome || (h.core k).evp != 0 || (h.core k).haltReq) then
      h.setWaiting k false
    else h)

/-- INV_ALL: a write of ICMD of core `k` with INV_ALL. -/
def execInvAll (w : Requester) (k : Fin 32) (d : Word) (s : State) : Host.Outcome State Fault Refusal :=
  onHw s (fun h => h.direct w (corePage k) 0x80 (fun g => g.icmdWrite k (d ||| 1)))

/-- INV_LINE: a write of ICMD of core `k` with INV_LINE. -/
def execInvLine (w : Requester) (k : Fin 32) (d : Word) (s : State) : Host.Outcome State Fault Refusal :=
  onHw s (fun h => h.direct w (corePage k) 0x80 (fun g => g.icmdWrite k (d ||| 2)))

end Sys2Proof.Machine
end

