-- ==== Sys2Proof/Machine/Link.lean ====
section
/-! DEFINITION. DeinoLink from the frame up (R493 to R507): credits, Mend, Fray, routing, streams and their fences
(R551 to R554), and the frames this device makes. -/

namespace Sys2Proof.Machine

open Sys2Proof

/-! ## Ports -/

/-- Port `k`. -/
def Hw.port (h : Hw) (k : Nat) : PortSt := h.ports.at {} k

/-- Port `k` replaced. -/
def Hw.setPort (h : Hw) (k : Nat) (v : PortSt) : Hw := { h with ports := h.ports.set {} k v }

/-- Port `k` changed. -/
def Hw.onPort (h : Hw) (k : Nat) (g : PortSt → PortSt) : Hw := h.setPort k (g (h.port k))

/-- The device's part in its domain changed. -/
def Hw.onDom (h : Hw) (g : DomSt → DomSt) : Hw := { h with dom := g h.dom }

/-- R498. The port's state: 0 DISABLED, 1 DETECT, 2 TRAIN, 3 DESKEW, 4 INIT, 5 ACTIVE, 6 RETRAIN. -/
def Hw.pstate (h : Hw) (k : Nat) : Nat := h.f (pDL k) 0 DL_STATUS_PSTATE

/-- The role the port holds, kept through a RETRAIN: 0 NONE, 1 UP, 2 CHILD, 3 STANDBY, 4 CONFLICT. -/
def Hw.role (h : Hw) (k : Nat) : Nat := h.f (pDL k) 0 DL_STATUS_ROLE

/-- The port is ACTIVE and its transmitter's clock runs. -/
def Hw.txUp (h : Hw) (k : Nat) : Bool := h.pstate k == 5 && h.domainRuns 40

/-- The port is ACTIVE and its receiver's clock runs. -/
def Hw.rxUp (h : Hw) (k : Nat) : Bool := h.pstate k == 5 && h.domainRuns (41 + k)

/-- R526. JSTATE: 0 UNJOINED, 1 REQUESTING, 2 JOINED, 3 ROOT. -/
def Hw.jstate (h : Hw) : Nat := h.f (pDL 0) 0 DL_NODE_JSTATE

/-- This device's node ID. -/
def Hw.nodeId (h : Hw) : Nat := h.f (pDL 0) 0 DL_NODE_ID

/-- The device is JOINED or ROOT. -/
def Hw.inDomain (h : Hw) : Bool := 2 ≤ h.jstate

/-- R503, R543. The broadcast address. -/
abbrev everyNode : Nat := 16383

/-- R492, R495. Blocks of a frame with `n` payload words. -/
def blocksOf (n : Nat) : Nat := 3 + (5 * n + 7) / 8

/-- R501. The LSEQ last received in order. -/
def Hw.lack (h : Hw) (k : Nat) : Nat := (h.f (pDL k) 0 DL_MEND_EXP + 4095) % 4096

/-! ## Buffers and credits (R507) -/

/-- Whether a transmit item holds frame `tag` of port `p`'s receive buffer. -/
def TxItem.holds (i : TxItem) (p tag : Nat) : Bool :=
  match i with
  | .loc _ => false
  | .routed x => x.port == p && x.tag == tag

/-- Whether anything in this device still holds frame `tag` of port `p`'s receive buffer. -/
def Hw.bufferHeld (h : Hw) (p tag : Nat) : Bool :=
  h.dom.rxq.any (fun x => x.port == p && x.tag == tag) ||
    (List.range 4).any (fun k =>
      let q := h.port k
      q.txq.any (fun x => x.port == p && x.tag == tag) ||
        (match q.delayed with | some d => d.1.holds p tag | none => false) ||
        (match q.reordered with | some d => d.item.holds p tag | none => false))

/-- R507. The blocks of a frame that has left port `p`'s buffer are returned. -/
def Hw.release (h : Hw) (p tag words : Nat) : Hw :=
  if p < 4 && !h.bufferHeld p tag then h.emit (.lctl p 3 (blocksOf words)) else h

/-! ## Fray (R557 to R559) -/

/-- R558. Action `a` of FRAYk considers a frame.
DEDUCED, unsafe: log entry 111. -/
def Hw.frayAction (h : Hw) (k a : Nat) (loc : Bool) (tc : Nat) : Hw × Bool :=
  let p := pFRAY k
  let sel : Bool := if loc then h.b p 0 ⟨0x80 + a, 26, 1⟩ else h.b p 0 ⟨0x80 + a, 22 + tc, 1⟩
  if !h.b p 0 FRAY_CTRL_EN || !h.b p 0 ⟨0x80 + a, 27, 1⟩ || !sel then (h, false)
  else
    let n := h.f p 0 ⟨0x80 + a, 0, 20⟩
    let x := h.port k
    let acted (h : Hw) : Hw := (h.incF p 0 (FRAY_ACT_CNT_COUNT a)).irqBit p FRAY_IRQ_ACTED a
    if h.b p 0 ⟨0x80 + a, 20, 1⟩ then
      let v := Config.frayNext x.lfsr
      let h := h.setPort k { x with lfsr := v }
      if Config.frayHit v (max 1 (n % 32)) then (acted h, true) else (h, false)
    else
      let c := x.frayCnt.getD a 0 + 1
      let h := h.setPort k { x with frayCnt := x.frayCnt.set a c }
      if c = n then (acted (h.setF p 0 ⟨0x80 + a, 27, 1⟩ 0), true) else (h, false)

/-- R559. All four actions of FRAYk on a frame. -/
def Hw.fray (h : Hw) (k : Nat) (loc : Bool) (tc : Nat) : Hw × FrayAct :=
  let layer (h : Hw) (a : Nat) : Nat := h.f (pFRAY k) 0 ⟨0x80 + a, 21, 1⟩
  let d := h.frayAction k 0 loc tc
  let r := d.1.frayAction k 1 loc tc
  let c := r.1.frayAction k 2 loc tc
  let y := c.1.frayAction k 3 loc tc
  (y.1, { drop := if d.2 then some (layer h 0) else none, reorder := if r.2 then some (layer h 1) else none,
          corrupt := c.2, delay := y.2 })

/-! ## Transmission -/

/-- R510, R518. The two words of a timestamp; the flags stand in the second. -/
def stamped (t : Nat) (flags : Nat) : List Word := [w40 (t % 2 ^ 40), w40 (flags / 2 ^ 24 * 2 ^ 24 + t / 2 ^ 40 % 2 ^ 24)]

/-- The timestamp two words carry.
DESIGN CHOICE, unsafe: log entry 102. -/
def stampOf (ws : List Word) : Nat := (ws.getD 0 0).toNat + (ws.getD 1 0).toNat % 2 ^ 24 * 2 ^ 40

/-- R518. A LOCAL frame leaves: SYNC and DREQ are stamped with the domain time of their SOF, `fine` steps into the cycle. -/
def Hw.transmitLoc (h : Hw) (k : Nat) (x : LocalTx) (bad : Bool) (fine : Nat) : Hw :=
  let t := h.domTime + fine
  let ws := if x.kind = 0x20 ∨ x.kind = 0x21 then stamped t (x.words.getD 1 0).toNat else x.words
  let h := if x.kind = 0x21 then
      h.onPort k (fun p => { p with xchg := p.xchg.map (fun e => { e with t3 := some t }) })
    else h
  ((h.onPort k (fun p => { p with credL := p.credL - blocksOf ws.length })).incF (pDL k) 0 DL_TX_CNT_COUNT).emit
    (.loc k (h.lack k) x.kind ws bad)

/-- R500. A ROUTED frame takes the next LSEQ and a place in the retry buffer. -/
def Hw.number (h : Hw) (k : Nat) (f : Frame) : Hw × Nat :=
  let l := h.f (pDL k) 0 DL_MEND_NEXT
  ((h.setF (pDL k) 0 DL_MEND_NEXT (l + 1)).onPort k (fun p => { p with retry := p.retry ++ [⟨l, 1, f⟩] }), l)

/-- R507. A ROUTED frame leaves with LSEQ `l`; its blocks are taken from the credits. -/
def Hw.transmitRouted (h : Hw) (k l : Nat) (f : Frame) (bad : Bool) : Hw :=
  let h := h.setF (pDL k) 0 DL_CREDIT_ROUTED (h.f (pDL k) 0 DL_CREDIT_ROUTED - blocksOf f.words.length)
  (h.incF (pDL k) 0 DL_TX_CNT_COUNT).emit (.routed k l (h.lack k) f bad)

/-- R500, R507. The frame that REORDER holds has credit for all its blocks and, where it is not numbered yet, a place in the
retry buffer. -/
def Hw.heldFits (h : Hw) (k : Nat) (r : Reordered) : Bool :=
  match r.item with
  | .loc x => blocksOf x.words.length ≤ (h.port k).credL
  | .routed x => decide (blocksOf x.frame.words.length ≤ h.f (pDL k) 0 DL_CREDIT_ROUTED) &&
      (r.lseq.isSome || decide ((h.port k).retry.length < 128))

/-- R559. The turn of the frame that REORDER holds has come. -/
def Hw.heldDue (h : Hw) (k : Nat) : Hw :=
  h.onPort k (fun p => { p with reordered := p.reordered.map (fun r => { r with due := true }) })

/-- R559. The frame that REORDER holds is sent, or is due until it may start. -/
def Hw.flushReordered (h : Hw) (k fine : Nat) : Hw :=
  match (h.port k).reordered with
  | none => h
  | some r =>
    if !h.heldFits k r then h.heldDue k
    else
    let h := h.onPort k (fun p => { p with reordered := none })
    match r.item, r.lseq with
    | .loc x, _ => h.transmitLoc k x r.corrupt fine
    | .routed x, some l => (h.transmitRouted k l x.frame r.corrupt).release x.port x.tag x.frame.words.length
    | .routed x, none =>
      let n := h.number k x.frame
      (n.1.transmitRouted k n.2 x.frame r.corrupt).release x.port x.tag x.frame.words.length

/-- R559. An item that a port starts, with what Fray does to it. A frame that REORDER selects while another is held is
sent at once. -/
def Hw.sendItem (h : Hw) (k : Nat) (i : TxItem) (act : FrayAct) (fine : Nat) : Hw :=
  let swap : Option Nat := if (h.port k).reordered.isSome then none else act.reorder
  match i with
  | .loc x =>
    if act.drop.isSome then h
    else if swap.isSome then h.onPort k (fun p => { p with reordered := some { item := i, lseq := none, corrupt := act.corrupt } })
    else (h.transmitLoc k x act.corrupt fine).flushReordered k fine
  | .routed x =>
    match act.drop with
    | some 0 => ((h.number k x.frame).1.release x.port x.tag x.frame.words.length).flushReordered k fine
    | some _ => h.release x.port x.tag x.frame.words.length
    | none =>
      match swap with
      | some 0 =>
        let n := h.number k x.frame
        n.1.onPort k (fun p => { p with reordered := some { item := i, lseq := some n.2, corrupt := act.corrupt } })
      | some _ => h.onPort k (fun p => { p with reordered := some { item := i, lseq := none, corrupt := act.corrupt } })
      | none =>
        let n := h.number k x.frame
        ((n.1.transmitRouted k n.2 x.frame act.corrupt).release x.port x.tag x.frame.words.length).flushReordered k fine

/-- R558, R559. A port starts an item: Fray considers it, and DELAY holds the port.
DEDUCED, unsafe: log entry 97. -/
def Hw.startItem (h : Hw) (k : Nat) (i : TxItem) (fine : Nat) : Hw :=
  let y := match i with
    | .loc _ => h.fray k true 0
    | .routed x => h.fray k false x.frame.tc
  if y.2.delay then
    y.1.onPort k (fun p => { p with delayed := some (i, { y.2 with delay := false }),
                                    holdUntil := h.now + 4 * y.1.f (pFRAY k) 0 FRAY_DELAY_T_T })
  else y.1.sendItem k i y.2 fine

/-- R506. Class priority: COMMAND, PUBLISH, MGMT, MAILBOX. -/
def classOrder : List Nat := [0, 1, 3, 2]

/-- R506. Of the frames of class `c` that wait, the oldest of each ingress in round-robin order after the ingress last
served, first one with credit. -/
def PortSt.pick (p : PortSt) (credit c : Nat) : Option Held :=
  let last := p.rr.getD c 4
  ((List.range 5).map (fun j => (last + 1 + j) % 5)).findSome? (fun g =>
    match p.txq.find? (fun x => x.frame.tc == c && x.port == g) with
    | some x => if blocksOf x.frame.words.length ≤ credit then some x else none
    | none => none)

/-- A port may start a frame: ACTIVE, sending none, not held by DELAY (R559). -/
def Hw.mayStart (h : Hw) (k : Nat) : Bool :=
  h.txUp k && (h.port k).cut.isNone && (h.port k).holdUntil ≤ h.now

/-- ROUTED frames may cross the port: it is neither STANDBY nor CONFLICT. -/
def Hw.carries (h : Hw) (k : Nat) : Bool := h.role k != 3 && h.role k != 4

/-! ## Roles of the links, short of joining -/

/-- R505. Every copy of frame `tag` of port `p` that leaves cut-through ends with ABORT. -/
def Hw.abortCuts (h : Hw) (p tag : Nat) : Hw :=
  (List.range 4).foldl (fun h k =>
    match (h.port k).cut with
    | some c =>
      if c.port = p ∧ c.tag = tag then
        let h := h.onPort k (fun q => { q with cut := none })
        match c.lseq with
        | some l =>
          let h := h.setF (pDL k) 0 DL_MEND_NEXT l
          if c.act.drop.isSome || c.act.reorder.isSome then h else h.emit (.abort k l)
        | none => h
      else h
    | none => h) h

/-- R524. The equaliser settings written take effect. -/
def Hw.takeEq (h : Hw) (k : Nat) : Hw :=
  h.onPort k (fun p => { p with eqAuto := (List.range 4).map (fun l => h.b (pDL k) l DL_RXEQ_AUTO) })

/-- R498. The port leaves ACTIVE for RETRAIN; copies of a frame arriving on it end with ABORT. `ask`: the partner is asked
to enter RETRAIN too (R497).
DEDUCED, unsafe: log entry 95. -/
def Hw.enterRetrain (h : Hw) (k : Nat) (ask : Bool) : Hw :=
  if h.pstate k ≠ 5 then h
  else
    let h := match (h.port k).rx with
      | some x => (h.abortCuts k x.tag).onPort k (fun p => { p with rx := none })
      | none => h
    let h := ((h.setF (pDL k) 0 DL_STATUS_PSTATE 6).irqBit (pDL k) DL_IRQ_DOWN 0).onPort k (fun p => { p with aligned := false })
    let h := h.takeEq k
    if ask then h.emit (.lctl k 5 0) else h

/-! ## Mend (R500 to R502) -/

/-- R501. An acknowledgement of every frame up to LSEQ `l`.
DEDUCED, unsafe: log entry 94. -/
def Hw.acknowledge (h : Hw) (k l : Nat) : Hw :=
  let p := h.port k
  let n := (l + 4096 - h.f (pDL k) 0 DL_MEND_ACKED) % 4096
  if n = 0 ∨ p.retry.length < n then h
  else
    let gone := (p.retry.take n).map (·.lseq)
    let rest := p.retry.drop n
    let resend := match p.resend with
      | some r => if gone.contains r then rest.head?.map (·.lseq) else some r
      | none => none
    (h.setPort k { p with retry := rest, resend := resend }).setF (pDL k) 0 DL_MEND_ACKED l

/-- R502. Frames from LSEQ `l` on are to be sent again. -/
def Hw.resendFrom (h : Hw) (k l : Nat) : Hw :=
  if (h.port k).retry.any (fun r => r.lseq == l) then
    (h.onPort k (fun p => { p with resend := some l })).irqBit (pDL k) DL_IRQ_RETRY 0
  else h

/-- R502. The next frame that is to be sent again, or the RETRAIN where it has been sent 16 times. -/
def Hw.resendOne (h : Hw) (k l : Nat) : Hw :=
  let p := h.port k
  match p.retry.find? (fun r => r.lseq == l) with
  | none => h.setPort k { p with resend := none }
  | some r =>
    if 16 ≤ r.sends then h.enterRetrain k true
    else if h.f (pDL k) 0 DL_CREDIT_ROUTED < blocksOf r.frame.words.length then h
    else
      let after := (p.retry.dropWhile (fun x => x.lseq != l)).drop 1
      let h := h.setPort k { p with
        retry := p.retry.map (fun x => if x.lseq = l then { x with sends := x.sends + 1 } else x),
        resend := after.head?.map (·.lseq) }
      (h.incF (pDL k) 0 DL_RETRY_CNT_COUNT).transmitRouted k l r.frame false

/-- R559. A frame that REORDER held is due and waits until it may start; no new ROUTED frame passes it. -/
def Hw.heldWaits (h : Hw) (k : Nat) : Bool := (h.port k).reordered.any (fun r => r.due)

/-- R502, R506, R507. The next ROUTED frame: one to be sent again, else a new one by class. -/
def Hw.routedStart (h : Hw) (k fine : Nat) : Hw :=
  let p := h.port k
  if !h.carries k then h
  else match p.resend with
    | some l => h.resendOne k l
    | none =>
      if 128 ≤ p.retry.length || h.heldWaits k then h
      else
        match classOrder.findSome? (fun c => p.pick (h.f (pDL k) 0 DL_CREDIT_ROUTED) c) with
        | none => h
        | some x =>
          (h.setPort k { p with txq := p.txq.erase x, rr := p.rr.set x.frame.tc x.port }).startItem k (.routed x) fine

/-- R500, R502, R506, R507. The port starts its next frame: one that REORDER held and that is due, one that DELAY has held,
a LOCAL frame, a frame to be sent again, or a new ROUTED frame by class, each only with credit. -/
def Hw.frameStart (h : Hw) (k fine : Nat) : Hw :=
  if !h.mayStart k then h
  else if (h.port k).reordered.any (fun r => r.due && h.heldFits k r) then h.flushReordered k fine
  else
    let p := h.port k
    match p.delayed with
    | some d => (h.setPort k { p with delayed := none }).sendItem k d.1 d.2 fine
    | none =>
      match p.loc with
      | x :: rest =>
        if blocksOf x.words.length ≤ p.credL then (h.setPort k { p with loc := rest }).startItem k (.loc x) fine
        else h.routedStart k fine
      | [] => h.routedStart k fine

/-! ## Routing (R503) -/

/-- Ports that are UP or CHILD. -/
def Hw.treePorts (h : Hw) : List Nat := (List.range 4).filter (fun k => h.role k == 1 || h.role k == 2)

/-- R503. Where a frame that came by `ingress` (4: made here) goes: delivered here, the ports it leaves by, and whether it
is discarded and counted for want of a route or of hops.
DEDUCED, unsafe: log entry 172. -/
def Hw.routeFor (h : Hw) (ingress dst hops : Nat) : Bool × List Nat × Bool :=
  if !h.inDomain || (ingress < 4 && !h.carries ingress) then (false, [], false)
  else if dst = h.nodeId then (true, [], false)
  else if dst = everyNode then
    let ports := h.treePorts.filter (· != ingress)
    if hops = 255 && !ports.isEmpty then (false, [], true) else (true, ports, false)
  else if hops = 255 then (false, [], true)
  else match h.dom.routes.at none dst with
    | some p => (false, [p], false)
    | none => if h.jstate = 2 then (false, [h.f (pDL 0) 0 DL_NODE_UPPORT], false) else (false, [], true)

/-- R503. A frame is discarded and counted. -/
def Hw.noRoute (h : Hw) : Hw := (h.incF (pDL 0) 0 DL_NOROUTE_CNT_COUNT).irqBit (pDL 0) DL_IRQ_NOROUTE 0

/-- R513, R515. What a device that forwards a JOIN_GRANT or a LEAVE does to its route table; `p` is the egress port. -/
def Hw.routesPassing (h : Hw) (f : Frame) (p : Nat) : Hw :=
  if f.tc = 3 ∧ f.kind = 2 then
    h.onDom (fun d => { d with routes := d.routes.set none (bitsOf (f.words.getD 0 0).toNat 26 14) (some p) })
  else if f.tc = 3 ∧ f.kind = 4 then
    h.onDom (fun d => { d with routes := f.words.foldl (fun r w => r.set none (w.toNat % 16384) none) d.routes })
  else h

/-- A frame is queued at an egress port. -/
def Hw.queueTx (h : Hw) (k : Nat) (x : Held) : Hw := (h.routesPassing x.frame k).onPort k (fun p => { p with txq := p.txq ++ [x] })

/-! ## Streams (R551, R552) -/

/-- The number under which a stream's state is kept. -/
def StreamId.key (s : StreamId) : Nat := (s.tc * 2 + b2n s.bcast) * 16384 + s.node

/-- R551. The frame belongs to a stream. -/
def Frame.sequenced (f : Frame) : Bool := f.tc < 3 && f.kind != 0x3E && f.kind != 0x3F

/-- The stream a received frame belongs to. -/
def Frame.stream (f : Frame) : StreamId := ⟨f.tc, f.dst == everyNode, f.src⟩

/-- The receive state of a stream. -/
def Hw.recvOf (h : Hw) (s : StreamId) : RecvSt := h.dom.recv.at {} s.key
def Hw.setRecv (h : Hw) (s : StreamId) (v : RecvSt) : Hw := h.onDom (fun d => { d with recv := d.recv.set {} s.key v })

/-- The send state of a stream. -/
def Hw.sendOf (h : Hw) (s : StreamId) : SendSt := h.dom.send.at {} s.key

/-- R551. FIRST. -/
def SendSt.first (s : SendSt) : Nat := if s.sent < 32768 then 0 else (s.next + 32768) % 65536

/-- R551. The next ESEQ of a stream is given out. -/
def Hw.takeEseq (h : Hw) (s : StreamId) : Hw × Nat :=
  let x := h.sendOf s
  (h.onDom (fun d => { d with send := d.send.set {} s.key ⟨(x.next + 1) % 65536, min 32768 (x.sent + 1)⟩ }), x.next)

/-- R555. The kinds this device knows, by class. -/
def knownKind (tc kind : Nat) : Bool :=
  match tc with
  | 0 => [1, 2, 0x3E, 0x3F].contains kind
  | 1 => [1, 0x3E, 0x3F].contains kind
  | 2 => [1, 2, 0x3E, 0x3F].contains kind
  | _ => [1, 2, 3, 4, 0x10].contains kind

/-- A frame delivered here waits for its consumer, or is discarded for its KIND (R555). -/
def Hw.acceptHere (h : Hw) (x : Held) : Hw :=
  if knownKind x.frame.tc x.frame.kind then h.onDom (fun d => { d with rxq := d.rxq ++ [x] })
  else h.incF pDOM 0 DOM_UNK_CNT_COUNT

/-- R551, R553. A frame outside the streams is made here and routed. -/
def Hw.sendPlain (h : Hw) (tc dst kind : Nat) (ws : List Word) : Hw :=
  let f : Frame := { dst := dst, src := h.nodeId, tc := tc, kind := kind, words := ws }
  let r := h.routeFor 4 dst 0
  let h := r.2.1.foldl (fun h k => h.queueTx k ⟨4, 0, f⟩) h
  let h := if r.2.2 then h.noRoute else h
  if r.1 then h.acceptHere ⟨4, 0, f⟩ else h

/-- R552, R553. RESUME_REQ for a stream. -/
def Hw.resumeReq (h : Hw) (s : StreamId) : Hw :=
  h.sendPlain s.tc s.node 0x3E [w40 (b2n s.bcast * 65536 + (h.recvOf s).expect)]

/-- R548. The words of a REPORT. -/
def reportWords (result tn id eseq idx : Nat) : List Word :=
  [w40 (result * 2 ^ 32 + tn % 2 ^ 32), w40 (id % 65536 * 2 ^ 24 + eseq % 65536 * 2 ^ 8 + idx % 128)]

/-- R548. The report on a command frame. -/
def Frame.report (f : Frame) (result idx : Nat) : List Word :=
  reportWords result (f.words.getD 0 0).toNat (bitsOf (f.words.getD 1 0).toNat 24 16) f.eseq idx

/-- R552. A frame delivered here passes the stream rules; `rep` sends a report to a node. -/
def Hw.deliverWith (rep : Hw → Nat → List Word → Hw) (h : Hw) (x : Held) : Hw :=
  let f := x.frame
  if !f.sequenced then h.acceptHere x
  else
    let s := f.stream
    let r := h.recvOf s
    if r.fenced then
      if r.held.length < 64 then h.setRecv s { r with held := r.held ++ [f] }
      else
        let h := h.setRecv s { r with dropped := r.dropped ++ [f.eseq] }
        if f.tc = 0 ∧ f.kind = 1 then rep (h.incF pDOM 0 DOM_FAIL_CNT_COUNT) f.src (f.report 10 0) else h
    else if f.eseq = r.expect then (h.setRecv s { r with expect := (r.expect + 1) % 65536 }).acceptHere x
    else
      let h := h.setRecv s { r with fenced := true, held := [f], dropped := [] }
      ((h.irqBit pDOM DOM_IRQ_FENCE 0).incF pDOM 0 DOM_FENCE_CNT_COUNT).resumeReq s

/-- R551. A frame of a stream is made here, numbered and routed; `fuel` bounds the reports a delivery here may cause. -/
def Hw.post (fuel : Nat) (h : Hw) (tc dst kind : Nat) (ws : List Word) : Hw :=
  match fuel with
  | 0 => h
  | fuel + 1 =>
    let e := h.takeEseq ⟨tc, dst == everyNode, dst⟩
    let h := e.1
    let f : Frame := { dst := dst, src := h.nodeId, tc := tc, kind := kind, eseq := e.2, words := ws }
    let r := h.routeFor 4 dst 0
    let h := r.2.1.foldl (fun h k => h.queueTx k ⟨4, 0, f⟩) h
    let h := if r.2.2 then h.noRoute else h
    if r.1 then h.deliverWith (fun h node ws => Hw.post fuel h 0 node 2 ws) ⟨4, 0, f⟩ else h

/-- A frame of a stream made here. -/
def Hw.sendSeq (h : Hw) (tc dst kind : Nat) (ws : List Word) : Hw := Hw.post 4 h tc dst kind ws

/-- R548. A REPORT to a node. -/
def Hw.sendReport (h : Hw) (node : Nat) (ws : List Word) : Hw := h.sendSeq 0 node 2 ws

/-- A frame delivered here. -/
def Hw.deliver (h : Hw) (x : Held) : Hw := h.deliverWith Hw.sendReport x

/-- R548. A report on a command that was not applied. -/
def Hw.failReport (h : Hw) (node : Nat) (ws : List Word) : Hw := (h.incF pDOM 0 DOM_FAIL_CNT_COUNT).sendReport node ws

/-- The oldest frame of a class that waits here, if it is of this kind; it leaves its buffer. -/
def Hw.takeRx (h : Hw) (tc kind : Nat) : Option (Frame × Hw) :=
  match h.dom.rxq.find? (fun x => x.frame.tc == tc) with
  | none => none
  | some x =>
    if x.frame.kind = kind then
      some (x.frame, (h.onDom (fun d => { d with rxq := d.rxq.erase x })).release x.port x.tag x.frame.words.length)
    else none

/-! ## Arrival (R501, R503 to R505) -/

/-- R504. Whether a frame may be forwarded cut-through by port `k`: the port sends none, no frame of a higher class
waits and none of its own class from the same ingress, and credits and width suffice.
DEDUCED, unsafe: log entry 96. -/
def Hw.cutThrough (h : Hw) (ingress k tc blocks : Nat) : Bool :=
  let p := h.port k
  let ahead := classOrder.takeWhile (· != tc)
  h.mayStart k && h.carries k && p.delayed.isNone && !h.heldWaits k && p.loc.isEmpty && p.resend.isNone && p.retry.length < 128 &&
    !p.txq.any (fun x => ahead.contains x.frame.tc || (x.frame.tc == tc && x.port == ingress)) && blocks ≤ h.f (pDL k) 0 DL_CREDIT_ROUTED &&
    h.f (pDL k) 0 DL_STATUS_WIDTH ≤ h.f (pDL ingress) 0 DL_STATUS_WIDTH

/-- R504, R558. Port `k` begins to send frame `tag` of the ingress cut-through. -/
def Hw.cutStart (h : Hw) (ingress k tag tc : Nat) : Hw :=
  let y := h.fray k false tc
  let h := y.1
  let later : Bool := y.2.delay || y.2.drop == some 1 || (y.2.reorder == some 1 && (h.port k).reordered.isNone)
  let hold := if y.2.delay then h.now + 4 * h.f (pFRAY k) 0 FRAY_DELAY_T_T else (h.port k).holdUntil
  let l := h.f (pDL k) 0 DL_MEND_NEXT
  let h := h.onPort k (fun p =>
    { p with cut := some ⟨ingress, tag, if later then none else some l, y.2⟩, holdUntil := hold })
  if later then h else h.setF (pDL k) 0 DL_MEND_NEXT (l + 1)

/-- R504. Port `k` ends a frame it has sent cut-through, with its EOF. The copy it sends needs the ingress buffer no
longer; one it must queue holds it on. -/
def Hw.cutEnd (h : Hw) (k : Nat) (c : CutTx) (x : Held) : Hw :=
  let h := (h.onPort k (fun p => { p with cut := none })).routesPassing x.frame k
  let i : TxItem := .routed { x with port := 4 }
  if h.pstate k ≠ 5 then
    match c.lseq with
    | some l => h.onPort k (fun p => { p with retry := p.retry ++ [⟨l, 1, x.frame⟩] })
    | none => h.onPort k (fun p => { p with txq := p.txq ++ [x] })
  else if c.act.delay then h.onPort k (fun p => { p with delayed := some (i, { c.act with delay := false }) })
  else match c.lseq with
    | some l => (h.setF (pDL k) 0 DL_MEND_NEXT l).sendItem k i c.act 0
    | none => h.sendItem k i c.act 0

/-- R501. NAK(EXP), once until EXP is accepted. -/
def Hw.sendNak (h : Hw) (k : Nat) : Hw :=
  if (h.port k).nak then h
  else (h.onPort k (fun p => { p with nak := true })).emit (.lctl k 2 (h.f (pDL k) 0 DL_MEND_EXP))

/-- R501, R503, R504. The SOF and the network header of a frame arrive on port `k`. -/
def Hw.frameRoute (h : Hw) (k lseq : Nat) (lack : Option Nat) (x : Hdr) : Hw :=
  if !h.rxUp k || (h.port k).rx.isSome then h
  else
    let h := match lack with | some l => h.acknowledge k l | none => h
    let tag := h.dom.tags + 1
    let h := h.onDom (fun d => { d with tags := tag })
    let bad : Bool := 2 ≤ x.ftype || 504 < x.pbytes
    if x.ftype = 1 then h.onPort k (fun p => { p with rx := some ⟨tag, x, false, bad, false, [], []⟩ })
    else if lseq ≠ h.f (pDL k) 0 DL_MEND_EXP then
      (h.sendNak k).onPort k (fun p => { p with rx := some ⟨tag, x, true, bad, false, [], []⟩ })
    else
      let r := if bad then (false, [], false) else h.routeFor k x.dst x.hops
      let h := if r.2.2 then h.noRoute else h
      let blocks := 3 + (x.pbytes + 7) / 8
      let cut := r.2.1.filter (fun e => h.cutThrough k e x.tc blocks)
      let h := cut.foldl (fun h e => h.cutStart k e tag x.tc) h
      h.onPort k (fun p => { p with rx := some ⟨tag, x, false, bad, r.1, r.2.1, cut⟩ })

/-- R491, R501, R503, R505. The frame on port `k` ends; outside a frame a bad block is counted and discarded. -/
def Hw.frameReceive (h : Hw) (k : Nat) (ws : List Word) (fe : FrameEnd) : Hw :=
  match (h.port k).rx with
  | none =>
    match fe with
    | .block lane => if h.pstate k ≠ 0 && h.domainRuns (41 + k) then h.satF (pDL k) lane.val DL_LERR_COUNT else h
    | _ => h
  | some x =>
    let h := h.onPort k (fun p => { p with rx := none })
    let blocks := 3 + (x.hdr.pbytes + 7) / 8
    let h := match fe with
      | .block lane => h.satF (pDL k) lane.val DL_LERR_COUNT
      | _ => h
    let whole : Bool := fe == .ok && !x.bad && 5 * ws.length == x.hdr.pbytes
    let failed : Bool := fe == .crc || (fe == .ok && !whole)
    if x.hdr.ftype = 1 then
      (h.when failed (fun h => h.incF (pDL k) 0 DL_CRC_CNT_COUNT)).emit (.lctl k 3 (blocks * 65536))
    else if x.skip then h.emit (.lctl k 3 blocks)
    else if whole then
      let e := h.f (pDL k) 0 DL_MEND_EXP
      let h := ((h.setF (pDL k) 0 DL_MEND_EXP (e + 1)).incF (pDL k) 0 DL_RX_CNT_COUNT).onPort k (fun p => { p with nak := false })
      let h := h.emit (.lctl k 1 e)
      let f : Frame := { dst := x.hdr.dst, src := x.hdr.src, tc := x.hdr.tc % 4, hops := x.hdr.hops, kind := x.hdr.kind,
                         eseq := x.hdr.eseq, words := ws }
      let out : Held := ⟨k, x.tag, { f with hops := f.hops + 1 }⟩
      let h := x.ports.foldl (fun h e =>
        match (h.port e).cut with
        | some c => if c.port = k ∧ c.tag = x.tag then h.cutEnd e c out else if x.cut.contains e then h else h.queueTx e out
        | none => if x.cut.contains e then h else h.queueTx e out) h
      let h := if x.here then h.deliver ⟨k, x.tag, f⟩ else h
      h.release k x.tag ws.length
    else
      let h := h.abortCuts k x.tag
      let h := if failed then (h.incF (pDL k) 0 DL_CRC_CNT_COUNT).sendNak k else h
      h.emit (.lctl k 3 blocks)

end Sys2Proof.Machine
end

