-- ==== Sys2Proof/Machine/Join.lean ====
section
/-! DEFINITION. Port bring-up and retrain (R498, R499), roles, joining and leaving (R508 to R515), domain time on the links
(R516 to R520) and the tick configuration (R529, R530). -/

namespace Sys2Proof.Machine

open Sys2Proof

/-! ## Domain time and its validity -/

/-- R531. Ticks can fire: a configuration is held, domain time is valid, and the device is JOINED or ROOT. -/
def Hw.tickRuns (h : Hw) : Bool := !h.dom.configs.isEmpty && h.b pDTIME 0 DTIME_STATUS_VALID && h.inDomain

/-- R531. Ticks whose times pass while they cannot fire are neither fired nor skipped: the time from which they can is kept. -/
def Hw.tickGate (h : Hw) : Hw :=
  if h.tickRuns then
    (if h.dom.tickFrom.isNone then h.onDom (fun d => { d with tickFrom := some h.domTime }) else h)
  else h.onDom (fun d => { d with tickFrom := none })

/-- R527. VALID takes a value; LOCK and UNLOCK tell its rise and its fall. -/
def Hw.setTimeValid (h : Hw) (v : Bool) : Hw :=
  let was := h.b pDTIME 0 DTIME_STATUS_VALID
  let h := (h.setB pDTIME 0 DTIME_STATUS_VALID v).showValid
  let h := if v && !was then h.irqBit pDTIME DTIME_IRQ_LOCK 0 else if was && !v then h.irqBit pDTIME DTIME_IRQ_UNLOCK 0 else h
  h.tickGate

/-- R520. The servo's state: 0 FREE, 1 ACQUIRE, 2 LOCKED, 3 HOLDOVER, 4 ROOT. -/
def Hw.timeState (h : Hw) : Nat := h.f pDTIME 0 DTIME_STATUS_STATE
def Hw.setTimeState (h : Hw) (n : Nat) : Hw := h.setF pDTIME 0 DTIME_STATUS_STATE n

/-! ## HELLO and roles (R509, R510) -/

/-- R508. NODE_SEAT. -/
def Hw.seat (h : Hw) : Nat := h.lwf 0 % 2 ^ 32

/-- R509, R510. The words of this device's HELLO. The root shows JOINED and ROOT; a device in no domain shows tag 0.
DEDUCED, unsafe: log entry 98. -/
def Hw.helloWords (h : Hw) : List Word :=
  let id := h.nodeId
  let hops := h.f (pDL 0) 0 DL_NODE_H
  let ver := h.f pDOM 0 DOM_VER_MAJOR * 256 + h.f pDOM 0 DOM_VER_MINOR
  [w40 (id * 2 ^ 26 + hops * 2 ^ 18 + b2n h.inDomain * 2 ^ 17 + b2n (h.jstate == 3) * 2 ^ 16 + ver),
   w40 (h.dom.tag * 2 ^ 24 + h.f pDOM 0 DOM_VER_LEVEL * 2 ^ 16),
   Config.uid.setWidth 40, (Config.uid >>> 40).setWidth 40]

/-- A LOCAL frame is queued at a port. -/
def Hw.sendLoc (h : Hw) (k kind : Nat) (ws : List Word) : Hw := h.onPort k (fun p => { p with loc := p.loc ++ [⟨kind, ws⟩] })

/-- R509. HELLO on every ACTIVE port. -/
def Hw.helloAll (h : Hw) : Hw :=
  (List.range 4).foldl (fun h k => if h.pstate k = 5 then h.sendLoc k 0x10 h.helloWords else h) h

/-- R509. The role of a port from its neighbour's HELLO; UP and CHILD stay until the tree changes. -/
def Hw.updateRole (h : Hw) (k : Nat) : Hw :=
  let r := match (h.port k).nbr with
    | none => 0
    | some n =>
      if (h.jstate == 3 && n.root) || (h.inDomain && (n.joined || n.root) && h.dom.tag != n.tag) then 4
      else if h.inDomain && (h.role k == 1 || h.role k == 2) then h.role k
      else if n.joined || n.root then 3 else 0
  let was := h.role k
  let h := h.setF (pDL k) 0 DL_STATUS_ROLE r
  if r = 4 ∧ was ≠ 4 then h.irqBit (pDL k) DL_IRQ_CONFLICT 0 else h

def Hw.updateRoles (h : Hw) : Hw := (List.range 4).foldl (fun h k => h.updateRole k) h

/-! ## The root's table (R512, R556) -/

/-- R529. The words of TICK_CFG for the configuration last committed. -/
def Hw.tickCfgWords (h : Hw) (c : TickCfg) : List Word :=
  [w40 (h.f pDOM 0 DOM_VER_DLEVEL * 2 ^ 20 + c.period), w40 c.tn, w40 (c.time % 2 ^ 40), w40 (c.time / 2 ^ 40 % 2 ^ 24)]

/-- R529. The root announces its configuration. -/
def Hw.sendTickCfg (h : Hw) : Hw :=
  if h.jstate ≠ 3 then h
  else match h.dom.configs.getLast? with
    | none => h
    | some c =>
      let f : Frame := { dst := everyNode, src := h.nodeId, tc := 3, kind := 0x10, words := h.tickCfgWords c }
      h.treePorts.foldl (fun h k => h.queueTx k ⟨4, 0, f⟩) h

/-- R512, R556. The members have changed: JOINED_CNT and the domain level follow; a new level is announced. -/
def Hw.membersChanged (h : Hw) (announce : Bool) : Hw :=
  let level := h.dom.members.foldl (fun n m => min n m.level) h.dom.rootLevel
  let changed : Bool := level != h.f pDOM 0 DOM_VER_DLEVEL
  let h := (h.setF (pDL 0) 0 DL_JOINED_CNT_COUNT (h.dom.members.length + 1)).setF pDOM 0 DOM_VER_DLEVEL level
  if announce || changed then h.sendTickCfg else h

/-- R515, R538, R539. The root processes the IDs a LEAVE names. -/
def Hw.rootLeave (h : Hw) (ids : List Nat) : Hw :=
  let gone := h.dom.members.filter (fun m => ids.contains m.id)
  let h := h.onDom (fun d => { d with
    members := d.members.filter (fun m => !ids.contains m.id),
    heldIds := d.heldIds ++ gone.map (fun m => ⟨m.id, m.uid, h.now + 400000 * h.f (pDL 0) 0 DL_ID_HOLD_MS⟩),
    routes := ids.foldl (fun r i => r.set none i none) d.routes,
    left := d.left ++ ((d.expected.filter (fun i => ids.contains i)).map (fun i => (i, 3))),
    expected := d.expected.filter (fun i => !ids.contains i) })
  h.membersChanged false

/-! ## Becoming UNJOINED (R514) and losing a child (R515) -/

/-- R514. The device becomes UNJOINED.
DEDUCED, unsafe: log entry 100. -/
def Hw.becomeUnjoined (h : Hw) : Hw :=
  let j := h.jstate
  if j = 0 then h
  else
    let h := if j = 2 then h.setF (pDL 0) 0 DL_DSTAT_PREV_ID h.nodeId else h
    let h := (h.setF (pDL 0) 0 DL_NODE_JSTATE 0).setF (pDL 0) 0 DL_NODE_ID everyNode
    let h := (h.setF (pDL 0) 0 DL_NODE_H 255).setF (pDL 0) 0 DL_JOINED_CNT_COUNT 0
    let h := h.onDom (fun d => { d with tag := 0, reqPort := none, holdFrom := some h.now, routes := [], members := [], heldIds := [] })
    let h := (List.range 4).foldl (fun h k => h.onPort k (fun p => { p with seen := false })) h
    let h := if 2 ≤ j then h.irqBit (pDL 0) DL_IRQ_LEFT 0 else h
    h.updateRoles.helloAll.tickGate

/-- Lists of at most 100 IDs, one for each LEAVE frame. -/
def chunks (fuel : Nat) (l : List Nat) : List (List Nat) :=
  match fuel with
  | 0 => []
  | fuel + 1 => if l.isEmpty then [] else l.take 100 :: chunks fuel (l.drop 100)

/-- R515. The child on port `k` is lost: LEAVE for every ID routed through it, and the entries are cleared. -/
def Hw.childLoss (h : Hw) (k : Nat) : Hw :=
  let ids := (h.dom.routes.filter (fun e => e.2 == some k)).map (·.1)
  let h := h.setF (pDL k) 0 DL_STATUS_ROLE 0
  if h.jstate = 3 then h.rootLeave ids
  else
    let h := (chunks 164 ids).foldl (fun h l => h.sendPlain 3 0 4 (l.map w40)) h
    h.onDom (fun d => { d with routes := ids.foldl (fun r i => r.set none i none) d.routes })

/-! ## Tears, and the states of a port (R498, R499, R502) -/

/-- R500. The frames that Fray holds at a port and that it has not started: REORDER's unless numbered, then DELAY's. -/
def PortSt.unstarted (p : PortSt) : List Held :=
  (match p.reordered with
   | some r => (match r.item, r.lseq with | .routed x, none => [x] | _, _ => [])
   | none => []) ++
  (match p.delayed with | some (.routed x, _) => [x] | _ => [])

/-- R500, R502. The link is torn: the frames started are discarded and counted, the frames in the retry buffer and one that
leaves cut-through, and the tear acts on the tree. -/
def Hw.tear (h : Hw) (k : Nat) : Hw :=
  let p := h.port k
  let n := p.retry.length + (match p.cut with | some c => b2n c.lseq.isSome | none => 0)
  let role := h.role k
  let h := match p.rx with | some x => h.abortCuts k x.tag | none => h
  let h := h.setF (pDL k) 0 DL_LOST_CNT_COUNT (h.f (pDL k) 0 DL_LOST_CNT_COUNT + n)
  let h := (h.incF (pDL k) 0 DL_TORN_CNT_COUNT).irqBit (pDL k) DL_IRQ_TORN 0
  let h := (h.setF (pDL k) 0 DL_STATUS_WIDTH 3).setF (pDL k) 0 DL_STATUS_ROLE 0
  let free (x : Held) : Held := if x.port = k then { x with port := 4 } else x
  let h := (List.range 4).foldl (fun h e => h.onPort e (fun q => { q with txq := q.txq.map free })) h
  let h := h.onDom (fun d => { d with rxq := d.rxq.map free })
  let h := h.onPort k (fun q => { q with
    txq := p.unstarted.map free ++ q.txq, retry := [], resend := none, rx := none, cut := none, nak := false, torn := true, nbr := none, loc := [],
    xchg := none, delays := [], delayed := none, reordered := none, seen := false })
  let h := match p.reordered with
    | some r => (match r.item, r.lseq with
      | .routed x, some _ => h.release x.port x.tag x.frame.words.length
      | _, _ => h)
    | none => h
  if role = 1 then h.becomeUnjoined else if role = 2 then h.childLoss k else h

/-- The lanes of a mask. -/
def lanesOf (m : Nat) : List Nat := (List.range 4).filter (fun l => bitOf m l)

/-- The lanes with block lock, and those USED. -/
def Hw.lockMask (h : Hw) (k : Nat) : Nat := (List.range 4).foldl (fun n l => n + h.f (pDL k) l DL_LSTAT_BLOCK_LOCK * 2 ^ l) 0
def Hw.usedMask (h : Hw) (k : Nat) : Nat := (List.range 4).foldl (fun n l => n + h.f (pDL k) l DL_LSTAT_USED * 2 ^ l) 0

/-- The USED marks of a port's lanes. -/
def Hw.setUsed (h : Hw) (k mask : Nat) : Hw :=
  (List.range 4).foldl (fun h l => h.setB (pDL k) l DL_LSTAT_USED (bitOf mask l)) h

/-- R497, R498. The port sends INIT: its lanes with block lock, EXP, and whether it follows a tear. -/
def Hw.sendInit (h : Hw) (k : Nat) : Hw :=
  let exp := if (h.port k).torn then 0 else h.f (pDL k) 0 DL_MEND_EXP
  h.emit (.lctl k 4 (h.lockMask k + exp * 16 + b2n (h.port k).torn * 65536))

def Hw.setPstate (h : Hw) (k n : Nat) : Hw := h.setF (pDL k) 0 DL_STATUS_PSTATE n

/-- R498. A port starts to look for a partner; its lanes have no lock. -/
def Hw.detect (h : Hw) (k : Nat) : Hw :=
  let h := (List.range 4).foldl (fun h l => h.setReg (pDL k) 0x10 l 0) h
  h.setPstate k 1

/-- R498. An enabled port leaves DISABLED. -/
def Hw.portCheck (h : Hw) (k : Nat) : Hw :=
  if h.b (pDL k) 0 DL_CTRL_EN && h.pstate k == 0 && h.domainRuns 40 then h.detect k else h

/-- R498, R523. A write of CTRL. -/
def Hw.dlCtrlWrite (h : Hw) (k : Nat) (d : Word) : Hw :=
  let h := h.plainWrite (pDL k) 2 0 d
  if !h.b (pDL k) 0 DL_CTRL_EN then
    if h.pstate k = 0 then h
    else if h.pstate k = 5 then (((h.setPstate k 0).irqBit (pDL k) DL_IRQ_DOWN 0)).tear k
    else if h.pstate k = 6 then (h.setPstate k 0).tear k
    else h.setPstate k 0
  else
    let h := h.portCheck k
    if bitOf d.toNat 1 then h.enterRetrain k true else h

/-- R498. The locked lanes are marked USED and the port goes to DESKEW. -/
def Hw.toDeskew (h : Hw) (k : Nat) : Hw := (h.setUsed k (h.lockMask k)).setPstate k 3

/-- R498. The port enters TRAIN; with all four lanes locked it goes on at once. -/
def Hw.enterTrain (h : Hw) (k : Nat) : Hw :=
  let h := (h.setPstate k 2).takeEq k
  if h.lockMask k = 15 then h.toDeskew k else h

/-- R492, R498. Lanes gain block lock, in TRAIN and RETRAIN with their equalisers adapted (R524). -/
def Hw.blockLock (h : Hw) (k mask : Nat) (eq : List Nat) : Hw :=
  if h.pstate k = 0 then h
  else
    let adapts : Bool := h.pstate k == 2 || h.pstate k == 6
    let h := (lanesOf mask).foldl (fun h l =>
      let h := (h.setF (pDL k) l DL_LSTAT_BLOCK_LOCK 1).setF (pDL k) l DL_LSTAT_CDR_LOCK 1
      if adapts && (h.port k).eqAuto.getD l true then h.hwF (pDL k) l DL_RXEQ_CTLE (eq.getD l 0) else h) h
    if h.pstate k = 2 ∧ h.lockMask k = 15 then h.toDeskew k else h

/-- R498. 1 ms has passed in TRAIN. -/
def Hw.trainTimeout (h : Hw) (k : Nat) : Hw :=
  if h.pstate k ≠ 2 then h
  else if h.b (pDL k) 0 DL_LSTAT_BLOCK_LOCK then h.toDeskew k
  else h.setPstate k 1

/-- R498, R524. Every USED lane is aligned; the lags behind the earliest lane are those given. -/
def Hw.deskewDone (h : Hw) (k : Nat) (skew : List Nat) : Hw :=
  if (lanesOf (h.usedMask k)).any (fun l => 32 < skew.getD l 0) then h
  else
    let h := (lanesOf (h.usedMask k)).foldl (fun h l => h.setF (pDL k) l DL_LSTAT_SKEW (skew.getD l 0)) h
    if h.pstate k = 3 then (h.setPstate k 4).sendInit k
    else if h.pstate k = 6 ∧ h.usedMask k &&& h.lockMask k = h.usedMask k then
      (h.onPort k (fun p => { p with aligned := true })).sendInit k
    else h

/-- R498. Deskew fails. -/
def Hw.deskewFail (h : Hw) (k : Nat) : Hw :=
  if h.pstate k = 3 then (h.irqBit (pDL k) DL_IRQ_DESKEW_ERR 0).enterTrain k else h

/-- R499. The agreed width, as STATUS.WIDTH codes it. -/
def Hw.widthOf (h : Hw) (k mine theirs : Nat) : Nat :=
  let wmax := h.f (pDL k) 0 DL_CTRL_WMAX % 3
  let both := mine &&& theirs
  if both % 16 = 15 ∧ wmax = 0 then 0 else if both % 4 = 3 ∧ wmax ≤ 1 then 1 else 2

/-- R498. The port enters ACTIVE. -/
def Hw.enterActive (h : Hw) (k : Nat) : Hw :=
  let h := (h.setPstate k 5).irqBit (pDL k) DL_IRQ_UP 0
  h.sendLoc k 0x10 h.helloWords

/-- R498, R499, R502, R507. An INIT block is received: the width is agreed, or Mend resumes from the partner's EXP. -/
def Hw.initReceived (h : Hw) (k lanes exp : Nat) (torn : Bool) : Hw :=
  if h.pstate k = 4 then
    let w := h.widthOf k (h.usedMask k) lanes
    let h := (h.setF (pDL k) 0 DL_STATUS_WIDTH w).setUsed k (if w = 0 then 15 else if w = 1 then 3 else 1)
    let h := h.setReg (pDL k) 0x80 0 0xFFF
    let h := (h.setF (pDL k) 0 DL_CREDIT_ROUTED 4096).onPort k (fun p =>
      { p with credL := 256, torn := false, retry := [], resend := none, nak := false })
    h.enterActive k
  else if h.pstate k = 6 ∧ (h.port k).aligned ∧ !torn then
    let h := h.acknowledge k ((exp + 4095) % 4096)
    let h := h.onPort k (fun p => { p with retry := p.retry.map (fun r => { r with sends := 1 }), aligned := false })
    let h := h.onPort k (fun p => { p with resend := p.retry.head?.map (·.lseq) })
    h.enterActive k
  else h

/-- R498. A USED lane has lost block lock, or the port its alignment: an ACTIVE port leaves for RETRAIN, and one in RETRAIN
must align anew. -/
def Hw.loseLink (h : Hw) (k : Nat) : Hw :=
  if h.pstate k = 6 then h.onPort k (fun p => { p with aligned := false }) else h.enterRetrain k true

/-- R492, R498. A lane loses block lock, or (`none`) alignment is lost; `errs` invalid sync headers are counted. -/
def Hw.lockLoss (h : Hw) (k : Nat) (lane : Option (Fin 4)) (errs : Nat) : Hw :=
  match lane with
  | none => h.loseLink k
  | some l =>
    let n := h.f (pDL k) l.val DL_LERR_COUNT + errs
    let h := h.setF (pDL k) l.val DL_LERR_COUNT (min n (2 ^ 40 - 1))
    let h := h.setF (pDL k) l.val DL_LSTAT_BLOCK_LOCK 0
    if h.b (pDL k) l.val DL_LSTAT_USED then h.loseLink k else h

/-- R498, R502. 10 µs have passed since the port left ACTIVE. -/
def Hw.retrainTimeout (h : Hw) (k : Nat) : Hw := if h.pstate k = 6 then (h.tear k).enterTrain k else h

/-! ## The root (R509) -/

/-- R509, R517. A device with ROOT = 1 and its domain time enabled is the root. -/
def Hw.rootCheck (h : Hw) : Hw :=
  if h.b (pDL 0) 0 DL_DCTRL_ROOT && h.b pDTIME 0 DTIME_CTRL_EN && h.jstate != 3 then
    let h := (h.setF (pDL 0) 0 DL_NODE_JSTATE 3).setF (pDL 0) 0 DL_NODE_ID 0
    let h := h.setF (pDL 0) 0 DL_NODE_H 0
    let h := h.onDom (fun d => { d with tag := bitsOf h.seat 14 16, members := [], heldIds := [],
                                        rootLevel := h.f pDOM 0 DOM_VER_LEVEL })
    let h := (h.setTimeState 4).setTimeValid true
    let h := if h.b pDTIME 0 DTIME_CTRL_ROOT_SRC then h else h.setReg pDTIME 0x84 0 0
    ((h.membersChanged false).updateRoles).helloAll
  else h

/-- R509. A write of DCTRL: one that changes ROOT first makes the device UNJOINED. -/
def Hw.dctrlWrite (h : Hw) (d : Word) : Hw :=
  let was := h.b (pDL 0) 0 DL_DCTRL_ROOT
  let h := h.plainWrite (pDL 0) 0xC1 0 d
  if h.b (pDL 0) 0 DL_DCTRL_ROOT = was then h
  else
    let h := h.becomeUnjoined
    let h := if was then (h.setTimeState 0).setTimeValid false else h
    h.rootCheck

/-- R514, R526. A write of DCMD. -/
def Hw.dcmdWrite (h : Hw) (d : Word) : Hw :=
  if bitOf d.toNat 0 && (h.jstate == 1 || h.jstate == 2) then h.becomeUnjoined else h

/-- R509, R517, R520. A write of DTIME.CTRL. -/
def Hw.dtimeCtrlWrite (h : Hw) (d : Word) : Hw :=
  let was := h.b pDTIME 0 DTIME_CTRL_EN
  let h := h.plainWrite pDTIME 2 0 d
  let en := h.b pDTIME 0 DTIME_CTRL_EN
  let h := if h.jstate = 3 ∧ !h.b pDTIME 0 DTIME_CTRL_ROOT_SRC then h.setReg pDTIME 0x84 0 0 else h
  if en = was then h
  else if !en then
    let h := (h.setTimeState 0).setTimeValid false
    if h.jstate = 3 then h.becomeUnjoined else h
  else if h.b (pDL 0) 0 DL_DCTRL_ROOT then (h.setDomTime 0).rootCheck
  else h

/-! ## Neighbours (R509, R511, R514, R515) -/

/-- The 64-bit UID two words carry. -/
def uidOf (lo hi : Word) : Nat := lo.toNat + hi.toNat % 2 ^ 24 * 2 ^ 40

/-- R509, R511, R514, R515. A HELLO arrives on port `k`. -/
def Hw.hello (h : Hw) (k : Nat) (ws : List Word) : Hw :=
  if !h.rxUp k then h
  else
    let w0 := (ws.getD 0 0).toNat
    let w1 := (ws.getD 1 0).toNat
    let n : Neighbour := { id := bitsOf w0 26 14, h := bitsOf w0 18 8, joined := bitOf w0 17, root := bitOf w0 16,
                           tag := bitsOf w1 24 16, uid := uidOf (ws.getD 2 0) (ws.getD 3 0) }
    let on := n.joined || n.root
    let h := h.onPort k (fun p => { p with nbr := some n, seen := p.seen || on })
    let h := ((h.setReg (pDL k) 0x88 0 (ws.getD 0 0)).setReg (pDL k) 0x89 0 (ws.getD 1 0)).setF (pDL k) 0 DL_STATUS_NBR_ID n.id
    let h := (h.incF (pDL k) 0 DL_RX_CNT_COUNT).emit (.lctl k 3 (blocksOf ws.length * 65536))
    let h := if !on && h.role k == 1 then h.becomeUnjoined else if !on && h.role k == 2 then h.childLoss k else h
    h.updateRole k

/-! ## Joining (R511 to R513) -/

/-- R511. The port this device would join through: the neighbour of smallest H, then the lowest port.
DEDUCED, unsafe: log entry 99. -/
def Hw.parentPort (h : Hw) : Option Nat :=
  let may (k : Nat) : Bool :=
    let p := h.port k
    h.pstate k == 5 && p.seen &&
      (match p.nbr with | some n => n.joined || n.root | none => false) &&
      (match p.refusedAt with | some t => t + 400000 ≤ h.now | none => true)
  let hops (k : Nat) : Nat := match (h.port k).nbr with | some n => n.h | none => 255
  ((List.range 4).filter may).foldl (fun b k =>
    match b with
    | none => some k
    | some j => if hops k < hops j then some k else some j) none

/-- R510. The words of CHILD_REQ. -/
def Hw.childReqWords (h : Hw) : List Word :=
  [w40 (h.seat * 256),
   w40 (h.f (pDL 0) 0 DL_DSTAT_PREV_ID * 2 ^ 26 + h.f pDOM 0 DOM_VER_LEVEL * 2 ^ 18 + h.f pDOM 0 DOM_VER_MAJOR * 2 ^ 10 +
     h.f pDOM 0 DOM_VER_MINOR * 4),
   Config.uid.setWidth 40, (Config.uid >>> 40).setWidth 40]

/-- R511. The hold of JHOLD µs is over, or does not apply. -/
def Hw.holdOver (h : Hw) : Bool :=
  match h.dom.holdFrom with
  | some t => t + 400 * h.f (pDL 0) 0 DL_DCTRL_JHOLD ≤ h.now
  | none => true

/-- R511. The device chooses a parent. -/
def Hw.parentChoice (h : Hw) : Hw :=
  if h.jstate ≠ 0 || !h.holdOver then h
  else match h.parentPort with
    | none => h
    | some k =>
      let h := (h.setF (pDL 0) 0 DL_NODE_JSTATE 1).onDom (fun d => { d with reqPort := some k })
      (h.sendLoc k 0x11 h.childReqWords).helloAll

/-- R511. A join in progress ends without a grant. -/
def Hw.unrequest (h : Hw) : Hw :=
  if h.jstate ≠ 1 then h
  else ((h.setF (pDL 0) 0 DL_NODE_JSTATE 0).onDom (fun d => { d with reqPort := none })).helloAll

/-- R511. 1 ms without an answer: the device returns to UNJOINED, and the hold does not apply again. -/
def Hw.requestTimeout (h : Hw) : Hw :=
  if h.jstate = 1 then h.unrequest.onDom (fun d => { d with holdFrom := none }) else h

/-- R512. A request as the root sees it. -/
structure JoinReq where
  mode : Nat
  tag : Nat
  seat : Nat
  prev : Nat
  level : Nat
  major : Nat
  uid : Nat
  hops : Nat
deriving DecidableEq, Repr

/-- R508, R510. The request that four words and the child's H spell. A SEAT_ID of 0 or 16,383 makes a bound mode unbound. -/
def joinReqOf (ws : List Word) (hops : Nat) : JoinReq :=
  let w0 := (ws.getD 0 0).toNat
  let w1 := (ws.getD 1 0).toNat
  let seat := bitsOf w0 8 14
  let mode := bitsOf w0 38 2
  { mode := if mode = 3 ∨ seat = 0 ∨ seat = 16383 then 0 else mode, tag := bitsOf w0 22 16, seat := seat,
    prev := bitsOf w1 26 14, level := bitsOf w1 18 8, major := bitsOf w1 10 8, uid := uidOf (ws.getD 2 0) (ws.getD 3 0),
    hops := hops }

/-- R512. The lowest ID from `i` on that is not in use. -/
def lowestFree (fuel : Nat) (used : List Nat) (i : Nat) : Option Nat :=
  match fuel with
  | 0 => none
  | fuel + 1 => if used.contains i then lowestFree fuel used (i + 1) else some i

/-- R512. The IDs joined or held, the IDs held for a UID, and whether an ID is free or held for it. -/
def Hw.idsUsed (h : Hw) : List Nat := h.dom.members.map (·.id) ++ h.dom.heldIds.map (·.id)
def Hw.heldFor (h : Hw) (id uid : Nat) : Bool :=
  h.dom.heldIds.any (fun e => e.id == id && e.uid == uid) && !h.dom.members.any (fun m => m.id == id)
def Hw.idOpen (h : Hw) (id uid : Nat) : Bool := !h.idsUsed.contains id || h.heldFor id uid

/-- R512. The ID a request receives. -/
def Hw.idFor (h : Hw) (r : JoinReq) : Option Nat :=
  if r.mode ≠ 0 ∧ h.idOpen r.seat r.uid then some r.seat
  else if h.heldFor r.prev r.uid then some r.prev
  else lowestFree 16382 h.idsUsed 1

/-- R512. The first cause that refuses a request; 0 when it passes. -/
def Hw.joinCause (h : Hw) (r : JoinReq) : Nat :=
  if !h.b (pDL 0) 0 DL_DCTRL_ADMIT then 1
  else if r.major ≠ h.f pDOM 0 DOM_VER_MAJOR then 2
  else if r.mode ≠ 0 ∧ r.tag ≠ h.dom.tag then 3
  else if r.uid = Config.uid.toNat ∨ h.dom.members.any (fun m => m.uid == r.uid) then 4
  else if 255 < r.hops then 5
  else if 10000 ≤ h.dom.members.length + 1 then 6
  else if r.mode = 1 ∧ !h.idOpen r.seat r.uid then 7
  else if (h.idFor r).isNone then 8 else 0

/-- R512, R556. A request that passes takes its place among the members. -/
def Hw.takeMember (h : Hw) (r : JoinReq) (id : Nat) : Hw :=
  (h.onDom (fun d => { d with members := d.members ++ [⟨id, r.uid, r.level⟩],
                              heldIds := d.heldIds.filter (fun e => e.id != id) }))

/-- R510. The UID as two words. -/
def uidWords (uid : Nat) : List Word := [w40 (uid % 2 ^ 40), w40 (uid / 2 ^ 40 % 2 ^ 24)]

/-- R513. The parent takes the child on port `k`. -/
def Hw.parentGrant (h : Hw) (k id hops : Nat) : Hw :=
  let h := h.onDom (fun d => { d with routes := d.routes.set none id (some k) })
  let h := h.sendLoc k 0x12 [w40 (id * 2 ^ 26 + hops * 2 ^ 18)]
  if h.pstate k = 5 ∨ h.pstate k = 6 then h.setF (pDL k) 0 DL_STATUS_ROLE 2 else h

/-- R513. The child on port `k` is refused. -/
def Hw.parentRefuse (h : Hw) (k cause : Nat) : Hw := h.sendLoc k 0x13 [w40 (cause * 2 ^ 36)]

/-- R512, R513. CHILD_REQ arrives on port `k`: the root handles it, any other joined device forwards it. -/
def Hw.childReq (h : Hw) (k : Nat) (ws : List Word) : Hw :=
  if !h.rxUp k || !h.inDomain then h
  else
    let hops := h.f (pDL 0) 0 DL_NODE_H + 1
    let h := (h.incF (pDL k) 0 DL_RX_CNT_COUNT).emit (.lctl k 3 (blocksOf ws.length * 65536))
    if h.jstate = 3 then
      let r := joinReqOf ws hops
      match h.joinCause r, h.idFor r with
      | 0, some id => ((h.takeMember r id).parentGrant k id hops).membersChanged true
      | c, _ => h.parentRefuse k c
    else h.sendPlain 3 0 1 (ws.take 4 ++ [w40 (k * 2 ^ 38 + hops % 256 * 2 ^ 30)])

/-- R512, R513. The root handles the oldest JOIN_REQ. An H of 0 stands for 256. -/
def Hw.joinReq (h : Hw) : Hw :=
  if h.jstate ≠ 3 then h
  else match h.takeRx 3 1 with
    | none => h
    | some (f, h) =>
      let w4 := (f.words.getD 4 0).toNat
      let port := bitsOf w4 38 2
      let hf := bitsOf w4 30 8
      let r := joinReqOf f.words (if hf = 0 then 256 else hf)
      match h.joinCause r, h.idFor r with
      | 0, some id =>
        let h := h.takeMember r id
        let h := h.sendPlain 3 f.src 2 (w40 (id * 2 ^ 26 + hf * 2 ^ 18 + port * 2 ^ 16) :: uidWords r.uid)
        h.membersChanged true
      | c, _ => h.sendPlain 3 f.src 3 (w40 (c * 2 ^ 36 + port * 2 ^ 16) :: uidWords r.uid)

/-- R513. The parent receives the oldest JOIN_GRANT. -/
def Hw.joinGrant (h : Hw) : Hw :=
  match h.takeRx 3 2 with
  | none => h
  | some (f, h) =>
    let w0 := (f.words.getD 0 0).toNat
    h.parentGrant (bitsOf w0 16 2) (bitsOf w0 26 14) (bitsOf w0 18 8)

/-- R513. The parent receives the oldest JOIN_REFUSE. -/
def Hw.joinRefuse (h : Hw) : Hw :=
  match h.takeRx 3 3 with
  | none => h
  | some (f, h) =>
    let w0 := (f.words.getD 0 0).toNat
    h.parentRefuse (bitsOf w0 16 2) (bitsOf w0 36 4)

/-- R513, R520. The child receives CHILD_GRANT on the port of its request. -/
def Hw.childGrant (h : Hw) (k : Nat) (ws : List Word) : Hw :=
  if !h.rxUp k then h
  else
    let h := (h.incF (pDL k) 0 DL_RX_CNT_COUNT).emit (.lctl k 3 (blocksOf ws.length * 65536))
    if h.jstate ≠ 1 || h.dom.reqPort != some k then h
    else
      let w0 := (ws.getD 0 0).toNat
      let h := (h.setF (pDL 0) 0 DL_NODE_JSTATE 2).setF (pDL 0) 0 DL_NODE_ID (bitsOf w0 26 14)
      let h := (h.setF (pDL 0) 0 DL_NODE_H (bitsOf w0 18 8)).setF (pDL 0) 0 DL_NODE_UPPORT k
      let tag := match (h.port k).nbr with | some n => n.tag | none => 0
      let h := h.onDom (fun d => { d with tag := tag, reqPort := none, lastT2 := none })
      let h := (h.setF (pDL k) 0 DL_STATUS_ROLE 1).irqBit (pDL 0) DL_IRQ_JOINED 0
      let h := if h.timeState = 0 && h.b pDTIME 0 DTIME_CTRL_EN then
          (h.setTimeState 1).onDom (fun d => { d with lockRun := 0, badRun := 0 })
        else h
      h.updateRoles.helloAll.tickGate

/-- R511, R513. The child receives CHILD_REFUSE. -/
def Hw.childRefuse (h : Hw) (k : Nat) (ws : List Word) : Hw :=
  if !h.rxUp k then h
  else
    let h := (h.incF (pDL k) 0 DL_RX_CNT_COUNT).emit (.lctl k 3 (blocksOf ws.length * 65536))
    if h.jstate ≠ 1 || h.dom.reqPort != some k then h
    else
      let h := (h.setF (pDL 0) 0 DL_DSTAT_JCAUSE (bitsOf (ws.getD 0 0).toNat 36 4)).irqBit (pDL 0) DL_IRQ_JREFUSED 0
      (h.onPort k (fun p => { p with refusedAt := some h.now })).unrequest

/-- R515. The root receives the oldest LEAVE. -/
def Hw.leave (h : Hw) : Hw :=
  match h.takeRx 3 4 with
  | none => h
  | some (f, h) => if h.jstate = 3 then h.rootLeave (f.words.map (fun w => w.toNat % 16384)) else h

/-- R515. The hold of an ID ends, ID_HOLD ms after the leave. -/
def Hw.idHoldExpiry (h : Hw) (id : Nat) : Hw :=
  h.onDom (fun d => { d with heldIds := d.heldIds.filter (fun e => e.id != id || decide (h.now < e.until')) })

/-! ## Time on the links (R518 to R520) -/

/-- R518, R528. SYNC is due: it is queued on each CHILD and STANDBY port, and SYNC_INT is taken for the next. -/
def Hw.syncTimer (h : Hw) : Hw :=
  if !h.b pDTIME 0 DTIME_STATUS_VALID || decide (h.now < h.dom.syncDue) then h
  else
    let eid := (h.dom.eid + 1) % 256
    let us := max 1 (h.f pDTIME 0 DTIME_SYNC_INT_US)
    let h := h.onDom (fun d => { d with eid := eid, syncUs := us, syncDue := h.now + 400 * us })
    (List.range 4).foldl (fun h k =>
      if h.pstate k = 5 && (h.role k == 2 || h.role k == 3) then h.sendLoc k 0x20 [0, w40 (2 ^ 32 + eid * 2 ^ 24)] else h) h

/-- R518. SYNC arrives: t2 is taken and DREQ answers. -/
def Hw.sync (h : Hw) (k : Nat) (ws : List Word) (fine : Nat) : Hw :=
  if !h.rxUp k then h
  else
    let eid := bitsOf (ws.getD 1 0).toNat 24 8
    let h := (h.incF (pDL k) 0 DL_RX_CNT_COUNT).emit (.lctl k 3 (blocksOf ws.length * 65536))
    let h := h.onPort k (fun p => { p with xchg := some ⟨eid, stampOf ws, h.domTime + fine, none⟩ })
    h.sendLoc k 0x21 [0, w40 (b2n (h.b pDTIME 0 DTIME_STATUS_VALID) * 2 ^ 32 + eid * 2 ^ 24)]

/-- R518. DREQ arrives: t4 is taken and returned. -/
def Hw.dreq (h : Hw) (k : Nat) (ws : List Word) (fine : Nat) : Hw :=
  if !h.rxUp k then h
  else
    let eid := bitsOf (ws.getD 1 0).toNat 24 8
    let h := (h.incF (pDL k) 0 DL_RX_CNT_COUNT).emit (.lctl k 3 (blocksOf ws.length * 65536))
    h.sendLoc k 0x22 (stamped (h.domTime + fine) (b2n (h.b pDTIME 0 DTIME_STATUS_VALID) * 2 ^ 32 + eid * 2 ^ 24))

/-- A quotient whose rounding the spec leaves open: the integer below or above it.
DESIGN CHOICE, safe: log entry 103. -/
def roundOpen (num : Int) (den : Nat) (free : Nat) : Int := num / den + (if num % den = 0 then 0 else (free % 2 : Nat))

/-- R519. A rate limited to ±200 ppm, in units of 2^−40. -/
def ppmLimit (z : Int) : Int := max (-219902325) (min 219902325 z)

/-- R519, R520. Domain time steps by −o at the next DTIME edge.
DEDUCED, unsafe: log entry 101. -/
def Hw.timeStep (h : Hw) (o : Int) : Hw :=
  let h := h.dueIn 1 (.timeShift o)
  let h := ((h.incF pDTIME 0 DTIME_STEP_CNT_COUNT).irqBit pDTIME DTIME_IRQ_STEP 0).setTimeState 1
  (h.setTimeValid false).onDom (fun d => { d with lastT2 := none, lockRun := 0, badRun := 0 })

/-- R519. The servo's answer to an offset. -/
def Hw.servo (h : Hw) (o : Int) (t : Nat) : Hw :=
  let ki := h.f pDTIME 0 DTIME_SERVO_KI_SH
  let kp := h.f pDTIME 0 DTIME_SERVO_KP_SH
  let f1 := (Config.freeWord h.freeNo).toNat
  let f2 := (Config.freeWord (h.freeNo + 1)).toNat
  let h := h.fresh.fresh
  let i := ppmLimit (h.dom.servoI - roundOpen (o * 2 ^ 40) (2 ^ ki * max 1 t) f1)
  let h := h.onDom (fun d => { d with servoI := i })
  h.setFS pDTIME 0 DTIME_RATE_Y (ppmLimit (i - roundOpen (o * 2 ^ 40) (2 ^ kp * max 1 t) f2))

/-- R520. What an exchange within STEP_LIM does to the servo's state. -/
def Hw.lockStep (h : Hw) (o : Int) : Hw :=
  let thr : Nat := max 1 (h.f pDTIME 0 DTIME_LOCK_THR_FINE)
  let good := if o.natAbs ≤ thr then h.dom.lockRun + 1 else 0
  let bad := if 16 * thr < o.natAbs then h.dom.badRun + 1 else 0
  let h := h.onDom (fun d => { d with lockRun := good, badRun := bad })
  match h.timeState with
  | 1 => if 16 ≤ good then ((h.setTimeState 2).setTimeValid true).onDom (fun d => { d with badRun := 0 }) else h
  | 2 => if 4 ≤ bad then ((h.setTimeState 1).setTimeValid false).onDom (fun d => { d with lockRun := 0 }) else h
  | 3 => h.setTimeState 2
  | _ => h

/-- R518 to R520. DRESP completes the exchange on port `k`. -/
def Hw.dresp (h : Hw) (k : Nat) (ws : List Word) : Hw :=
  if !h.rxUp k then h
  else
    let eid := bitsOf (ws.getD 1 0).toNat 24 8
    let t4 := stampOf ws
    let h := (h.incF (pDL k) 0 DL_RX_CNT_COUNT).emit (.lctl k 3 (blocksOf ws.length * 65536))
    match (h.port k).xchg with
    | none => h
    | some x =>
      match x.t3 with
      | none => h
      | some t3 =>
        if x.eid ≠ eid then h
        else
          let c2 : Int := sx 64 (unsx 64 ((x.t2 : Int) - x.t1)) + sx 64 (unsx 64 ((t4 : Int) - t3))
          let ds := (c2 :: (h.port k).delays).take 16
          let free := (Config.freeWord h.freeNo).toNat
          let c := roundOpen (ds.foldl (· + ·) 0) (2 * ds.length) free
          let h := h.fresh.onPort k (fun p => { p with delays := ds, xchg := none })
          let h := h.setFS (pDL k) 0 DL_CDELAY_FINE c
          let o : Int := sx 64 (unsx 64 ((x.t2 : Int) - x.t1)) - c
          if h.role k ≠ 1 ∨ h.timeState = 0 ∨ h.timeState = 4 then h
          else
            let h := h.onDom (fun d => { d with exchAt := h.now, holdUs := h.f pDTIME 0 DTIME_HOLD_MAX_US })
            let h := h.setFS pDTIME 0 DTIME_OFFSET_O o
            if (h.f pDTIME 0 DTIME_STEP_LIM_FINE : Int) < o.natAbs then h.timeStep o
            else
              let h := match h.dom.lastT2 with
                | none => h
                | some t => h.servo o ((x.t2 + 2 ^ 64 - t) % 2 ^ 64)
              (h.onDom (fun d => { d with lastT2 := some x.t2 })).lockStep o

/-- R520. No exchange has completed for 8 × SYNC_INT. -/
def Hw.holdoverEntry (h : Hw) : Hw :=
  if h.timeState = 2 ∧ h.dom.exchAt + 3200 * h.dom.syncUs ≤ h.now then
    ((h.setTimeState 3).setFS pDTIME 0 DTIME_RATE_Y h.dom.servoI).onDom (fun d => { d with holdAt := h.now })
  else h

/-- R520. HOLD_MAX has passed in HOLDOVER. -/
def Hw.holdoverExpiry (h : Hw) : Hw :=
  if h.timeState = 3 ∧ h.dom.holdAt + 400 * h.dom.holdUs ≤ h.now then
    ((h.setTimeState 1).setTimeValid false).onDom (fun d => { d with lockRun := 0, badRun := 0 })
  else h

/-- R517, R527. A write of TSET_H on the root commits the pair, which domain time takes at the next DTIME edge. -/
def Hw.tsetWrite (h : Hw) (r : Requester) (d : Word) : Hw :=
  if h.jstate ≠ 3 then h
  else
    let lo := h.pairLowWord pDTIME 0x82 0 r
    let h := (h.setReg pDTIME 0x82 0 lo).plainWrite pDTIME 0x83 0 d
    let h := h.dueIn 1 (.timeSet (lo.toNat + h.f pDTIME 0 DTIME_TSET_H_TIME * 2 ^ 40))
    (h.incF pDTIME 0 DTIME_STEP_CNT_COUNT).irqBit pDTIME DTIME_IRQ_STEP 0

/-- R527, R528. Effect of an accepted page write to DTIME. RATE takes the limit beyond ±200 ppm. -/
def Hw.dtimeWrite (h : Hw) (off : Nat) (r : Requester) (d : Word) : Hw :=
  if off = 2 then h.dtimeCtrlWrite d
  else if off = 0x82 then h.pairHold pDTIME 0x82 0 r d
  else if off = 0x83 then h.tsetWrite r d
  else if off = 0x84 then h.plainWrite pDTIME 0x84 0 (w40i (ppmLimit (sx 40 d.toNat)))
  else h.plainWrite pDTIME off 0 d

/-- R523 to R526. Effect of an accepted page write to DLk. -/
def Hw.dlWrite (h : Hw) (k off ch : Nat) (d : Word) : Hw :=
  if off = 2 then h.dlCtrlWrite k d
  else if k = 0 ∧ off = 0xC1 then h.dctrlWrite d
  else if k = 0 ∧ off = 0xC2 then h.dcmdWrite d
  else if k ≠ 0 ∧ 0xC0 ≤ off then h
  else if off = 0x13 ∧ h.b (pDL k) ch DL_RXEQ_AUTO && bitOf d.toNat 8 then
    h.plainWrite (pDL k) off ch (w40 (withBits d.toNat 0 8 (h.f (pDL k) ch DL_RXEQ_CTLE)))
  else h.plainWrite (pDL k) off ch d

/-! ## Tick configurations (R529, R530) -/

/-- R529. A configuration joins those held, in the order of their times; a repeated one changes nothing. -/
def Hw.addConfig (h : Hw) (c : TickCfg) : Hw :=
  let cs := h.dom.configs.filter (fun x => x.time != c.time)
  (h.onDom (fun d => { d with configs := cs.filter (fun x => x.time < c.time) ++ c :: cs.filter (fun x => c.time < x.time) })).tickGate

/-- R529. The ticks a configuration governs with their times in [from', upto): the first number beyond those before, and
how many. `stop` is the next configuration's BASE_TIME. -/
def TickCfg.count (c : TickCfg) (stop : Option Nat) (upto : Nat) : Nat :=
  let top := match stop with | some t => min upto t | none => upto
  if top ≤ c.time then 0 else (top - 1 - c.time) / (c.period * 256) + 1

/-- R529, R530. The number of the last tick whose time is before `upto`, under the configurations held. -/
def lastTickBefore (cs : List TickCfg) (upto : Nat) : Option Nat :=
  match cs with
  | [] => none
  | c :: rest =>
    match lastTickBefore rest upto with
    | some n => some n
    | none =>
      let k := c.count (rest.head?.map (·.time)) upto
      if k = 0 then none else some ((c.tn + k - 1) % 2 ^ 40)

/-- R530. A write of BASE_H on the root commits PERIOD, BASE_TN and BASE_TIME. -/
def Hw.baseCommit (h : Hw) (r : Requester) (d : Word) : Hw :=
  if h.jstate ≠ 3 then h
  else
    let lo := h.pairLowWord pDOM 0x82 0 r
    let h := (h.setReg pDOM 0x82 0 lo).plainWrite pDOM 0x83 0 d
    let c : TickCfg := { tn := h.f pDOM 0 DOM_BASE_TN_TN, time := lo.toNat + h.f pDOM 0 DOM_BASE_H_TIME * 2 ^ 40,
                         period := h.f pDOM 0 DOM_PERIOD_P }
    let bad : Bool := c.period < 100 || 1000000 < c.period || c.time < h.domTime + 51200000 ||
      (!h.dom.configs.isEmpty &&
        (match lastTickBefore h.dom.configs c.time with
         | some n => c.tn != (n + 1) % 2 ^ 40
         | none => true))
    if bad then h.irqBit pDOM DOM_IRQ_CFG_ERR 0
    else ((h.addConfig c).setB pDOM 0 DOM_STATUS_CFG_VALID true).sendTickCfg

/-- R529, R530. TICK_CFG is received. -/
def Hw.tickCfg (h : Hw) : Hw :=
  match h.takeRx 3 0x10 with
  | none => h
  | some (f, h) =>
    if h.jstate = 3 then h
    else
      let w0 := (f.words.getD 0 0).toNat
      let c : TickCfg := { tn := (f.words.getD 1 0).toNat, time := stampOf [f.words.getD 2 0, f.words.getD 3 0], period := w0 % 2 ^ 20 }
      let h := (h.setF pDOM 0 DOM_VER_DLEVEL (bitsOf w0 20 8)).setF pDOM 0 DOM_PERIOD_P c.period
      let h := (h.setReg pDOM 0x81 0 (f.words.getD 1 0)).setReg pDOM 0x82 0 (f.words.getD 2 0)
      let h := h.setF pDOM 0 DOM_BASE_H_TIME (f.words.getD 3 0).toNat
      if c.period = 0 then h else (h.addConfig c).setB pDOM 0 DOM_STATUS_CFG_VALID true

end Sys2Proof.Machine
end

