-- ==== Sys2Proof/Machine/Domain.lean ====
section
/-! DEFINITION. Ticks, snapshot generations and leases, commands and reports, resumes, and the page writes of DOM, SNAP and
FRAY (R529 to R564), short of the capture and of the applier. -/

namespace Sys2Proof.Machine

open Sys2Proof

/-! ## Tick numbers -/

/-- R535. How far the tick whose low 32 bits are given lies from DOM.TICK, taking the nearest. -/
def tickAhead (now low : Nat) : Int := sx 32 (low + 2 ^ 32 - now % 2 ^ 32)

/-- The tick at that distance.
DEDUCED, unsafe: log entry 104. -/
def tickAt (now : Nat) (d : Int) : Nat := unsx 40 ((now : Int) + d)

/-- The last tick fired. -/
def Hw.tick (h : Hw) : Nat := h.f pDOM 0 DOM_TICK_TN

/-- R529. How many ticks of the configurations held have their times before `upto`. -/
def ticksBefore (cs : List TickCfg) (upto : Nat) : Nat :=
  match cs with
  | [] => 0
  | c :: rest => c.count (rest.head?.map (·.time)) upto + ticksBefore rest upto

/-- R529. The newest configuration whose BASE_TIME has come. -/
def governing (cs : List TickCfg) (now : Nat) : Option TickCfg := (cs.filter (fun c => c.time ≤ now)).getLast?

/-! ## Commands (R543 to R548) -/

/-- R543. The writes a command carries. -/
def commandWrites (n : Nat) (ws : List Word) : List (Nat × Word) :=
  (List.range n).map (fun j => ((ws.getD (2 + 2 * j) 0).toNat % 2 ^ 32, ws.getD (3 + 2 * j) 0))

/-- R546. A target accepts a command: it is rejected and reported, or queued for its tick. -/
def Hw.acceptCommand (h : Hw) (f : Frame) : Hw :=
  let w0 := (f.words.getD 0 0).toNat
  let w1 := (f.words.getD 1 0).toNat
  let d := tickAhead h.tick (w0 % 2 ^ 32)
  let reject (result : Nat) : Hw := h.failReport f.src (f.report result 0)
  if h.f pDOM 0 DOM_VER_LEVEL < w0 / 2 ^ 32 then reject 1
  else if d ≤ 0 then reject 2
  else if ((max 1 (h.f pDOM 0 DOM_HORIZON_TICKS) : Nat) : Int) < d then reject 3
  else if 256 ≤ h.dom.cmdQ.length then reject 4
  else
    h.onDom (fun x => { x with cmdQ := x.cmdQ ++
      [⟨tickAt h.tick d, f.src, f.dst == everyNode, f.eseq, bitsOf w1 24 16, bitOf w1 7, commandWrites (w1 % 128) f.words⟩] })

/-- R546. The oldest COMMAND frame is handled. -/
def Hw.command (h : Hw) : Hw :=
  match h.takeRx 0 1 with
  | none => h
  | some (f, h) => h.acceptCommand f

/-- R548. A report is put in the report queue. -/
def Hw.queueReport (h : Hw) (r : Report) : Hw :=
  if 64 ≤ h.dom.reports.length then h.irqBit pDOM DOM_IRQ_RPT_OVF 0
  else (h.onDom (fun d => { d with reports := d.reports ++ [r] })).irqBit pDOM DOM_IRQ_REPORT 0

/-- R548. The oldest REPORT frame reaches its command's sender. -/
def Hw.reportFrame (h : Hw) : Hw :=
  match h.takeRx 0 2 with
  | none => h
  | some (f, h) =>
    let w0 := (f.words.getD 0 0).toNat
    let w1 := (f.words.getD 1 0).toNat
    let r : Report := { result := w0 / 2 ^ 32, tn := w0 % 2 ^ 32, node := f.src, id := bitsOf w1 24 16, idx := w1 % 128, logged := false }
    if r.result = 8 ∨ r.result = 10 then
      match h.dom.sendLog.reverse.find? (fun e => e.dst == f.src && e.eseq == bitsOf w1 8 16) with
      | some e => h.queueReport { r with tn := e.tn % 2 ^ 32, id := e.id, logged := true }
      | none => h.queueReport r
    else h.queueReport r

/-- R562. The words of the report queue's head. -/
def Hw.reportHead (h : Hw) : Word × Word :=
  match h.dom.reports with
  | [] => (0, 0)
  | r :: _ => (w40 (r.result * 2 ^ 32 + r.tn), w40 (r.node * 2 ^ 26 + r.id * 2 ^ 10 + r.idx * 8 + b2n r.logged * 4 + 1))

/-- R562. A read of RPT_L removes the head. -/
def Hw.reportPop (h : Hw) : Hw := h.onDom (fun d => { d with reports := d.reports.drop 1 })

/-- R544. The cause that refuses a send; 0 when it passes. `b` is the sender's bank. -/
def Hw.sendCause (h : Hw) (b : Nat) : Nat :=
  let ahead := (h.f pDOM b DOM_CTX_TN_TN + 2 ^ 40 - h.tick) % 2 ^ 40
  let nw := h.f pDOM b DOM_CTX_B_NW
  let buf := h.f pDOM b DOM_CTX_B_BUF
  if !h.tickRuns then 1
  else if ahead < max 2 (h.f pDOM 0 DOM_KMIN_K) ∨ 2 ^ 39 ≤ ahead then 2
  else if h.f pDOM 0 DOM_VER_DLEVEL < h.f pDOM b DOM_CTX_A_LEVEL then 3
  else if nw = 0 ∨ 49 < nw ∨ buf < 0x04000000 ∨ 0x04200000 < buf + 2 * nw then 4
  else 0

/-- R544. A write of CTX_B, which sends where GO is 1. The list is copied at that edge.
DEDUCED, unsafe: log entry 108. -/
def State.ctxbWrite (s : State) (r : Requester) (d : Word) : State :=
  let b := r.bank
  let s := s.on (fun h => h.plainWrite pDOM 0x8A b d)
  if !bitOf d.toNat 39 then s
  else
    let h := s.hw
    let cause := h.sendCause b
    if cause ≠ 0 then s.on (fun h => h.setF pDOM b DOM_CTX_STAT_CAUSE cause)
    else
      let nw := h.f pDOM b DOM_CTX_B_NW
      let buf := h.f pDOM b DOM_CTX_B_BUF
      let tn := h.f pDOM b DOM_CTX_TN_TN
      let id := h.f pDOM b DOM_CTX_A_CMD_ID
      let dst := h.f pDOM b DOM_CTX_A_DST
      let list := (List.range nw).flatMap (fun j => [w40 ((s.rd (buf + 2 * j)).toNat % 2 ^ 32), s.rd (buf + 2 * j + 1)])
      let ws := w40 (h.f pDOM b DOM_CTX_A_LEVEL * 2 ^ 32 + tn % 2 ^ 32) ::
        w40 (id * 2 ^ 24 + h.f pDOM b DOM_CTX_A_ACK * 2 ^ 7 + nw) :: list
      let eseq := (h.sendOf ⟨0, dst == everyNode, dst⟩).next
      s.on (fun h =>
        let h := (h.setF pDOM b DOM_CTX_STAT_CAUSE 0).setF pDOM b DOM_CTX_STAT_ESEQ eseq
        let log := h.dom.sendLog ++ [⟨dst, eseq, id, tn⟩]
        (h.onDom (fun x => { x with sendLog := log.drop (log.length - 256) })).sendSeq 0 dst 1 ws)

/-! ## Resumes (R553, R554) -/

/-- R553. The oldest RESUME_REQ of a class is answered. -/
def Hw.resumeAnswer (h : Hw) (tc : Nat) : Hw :=
  match h.takeRx tc 0x3E with
  | none => h
  | some (f, h) =>
    let bcast := bitOf (f.words.getD 0 0).toNat 16
    let x := h.sendOf ⟨tc, bcast, if bcast then everyNode else f.src⟩
    h.sendPlain tc f.src 0x3F [w40 (b2n bcast * 2 ^ 32 + x.first * 2 ^ 16 + x.next)]

/-- R554. A held frame is released. -/
def Hw.releaseHeld (h : Hw) (f : Frame) : Hw :=
  if f.tc = 0 ∧ f.kind = 1 then
    if tickAhead h.tick ((f.words.getD 0 0).toNat % 2 ^ 32) ≤ 0 then h.failReport f.src (f.report 9 0) else h.acceptCommand f
  else h.acceptHere ⟨4, 0, f⟩

/-- R554. A RESUME_ACK reaches a stream. -/
def Hw.resumeStream (h : Hw) (s : StreamId) (first next : Nat) : Hw :=
  let r := h.recvOf s
  if !r.fenced then h
  else
    let back (a b : Nat) : Nat := (a + 65536 - b) % 65536
    let start := if back r.expect first ≤ back next first then r.expect else first
    let n := back next start
    let h := h.setRecv s { expect := next }
    let h := (List.range n).foldl (fun h i =>
      let e := (start + i) % 65536
      let fs := r.held.filter (fun f => f.eseq == e)
      if !fs.isEmpty then fs.foldl (fun h f => h.releaseHeld f) h
      else if r.dropped.contains e ∨ s.tc ≠ 0 then h
      else h.sendReport s.node (reportWords 8 0 0 e 0)) h
    let h := (r.held.filter (fun f => !(back f.eseq start < n))).foldl (fun h f =>
      if f.tc = 0 ∧ f.kind = 1 then h.failReport f.src (f.report 10 0) else h) h
    h.irqBit pDOM DOM_IRQ_RESUMED 0

/-- R554. The oldest RESUME_ACK of a class. -/
def Hw.resumeAck (h : Hw) (tc : Nat) : Hw :=
  match h.takeRx tc 0x3F with
  | none => h
  | some (f, h) =>
    let w0 := (f.words.getD 0 0).toNat
    h.resumeStream ⟨tc, bitOf w0 32, f.src⟩ (bitsOf w0 16 16) (w0 % 65536)

/-- R552. A fenced receiver repeats RESUME_REQ. -/
def Hw.resumeRepeat (h : Hw) (s : StreamId) : Hw := if (h.recvOf s).fenced then h.resumeReq s else h

/-! ## Leases (R541) -/

/-- R541. A requester's lease ends. -/
def Hw.leaseEnd (h : Hw) (b : Nat) : Hw :=
  let h := (h.setReg pSNAP 0x84 b 0).setReg pSNAP 0x85 b 0
  match h.dom.pin with
  | none => h
  | some p =>
    let rest := p.holders.filter (· != b)
    if rest.isEmpty && !p.holders.isEmpty then
      (h.onDom (fun d => { d with pin := none })).setF pSNAP 0 SNAP_STATUS_PINNED 0
    else h.onDom (fun d => { d with pin := some { p with holders := rest } })

/-- R541. A requester holds the pin. -/
def Hw.leaseTake (h : Hw) (b : Nat) (p : Pin) : Hw :=
  let h := h.onDom (fun d => { d with pin := some { p with holders := p.holders ++ [b] } })
  let h := (h.setReg pSNAP 0x84 b (w40 (2 ^ 39 + p.buf * 2 ^ 36))).setReg pSNAP 0x85 b (w40 p.tn)
  (h.setF pSNAP 0 SNAP_STATUS_PINNED 1).setF pSNAP 0 SNAP_STATUS_PIN_BUF p.buf

/-- R541. The pin expires, LEASE_US µs after its grant. -/
def Hw.leaseExpiry (h : Hw) : Hw :=
  match h.dom.pin with
  | none => h
  | some p =>
    if h.now < p.until' then h
    else
      let h := p.holders.foldl (fun h b => h.setF pSNAP b SNAP_LEASE_EXPIRED 1) h
      ((h.onDom (fun d => { d with pin := none })).setF pSNAP 0 SNAP_STATUS_PINNED 0).irqBit pSNAP SNAP_IRQ_LEASE_EXP 0

/-- R541. A requester asks for a lease; a pin whose time is over expires first. -/
def Hw.leaseReq (h : Hw) (b : Nat) : Hw :=
  let h := h.leaseExpiry.leaseEnd b
  match h.dom.pin with
  | some p => h.leaseTake b p
  | none =>
    match h.dom.latest with
    | none => h
    | some (tn, buf) => h.leaseTake b ⟨buf, tn, h.now + 400 * max 1 (h.f pSNAP 0 SNAP_LEASE_US_US), []⟩

/-- R541, R563. A write of LEASE. -/
def Hw.leaseWrite (h : Hw) (b : Nat) (d : Word) : Hw :=
  let h := if bitOf d.toNat 1 then h.leaseEnd b else h
  if bitOf d.toNat 0 then h.leaseReq b else h

/-! ## The assembler (R536 to R540) -/

/-- R536. The root assembles.
DEDUCED, unsafe: log entry 106. -/
def Hw.assembles (h : Hw) : Bool := h.b pSNAP 0 SNAP_CTRL_ASM && h.isRoot

/-- R536, R563. A write of SNAP.CTRL: the geometry is latched when ASM becomes 1, or the write is refused. -/
def Hw.snapCtrlWrite (h : Hw) (d : Word) : Hw :=
  let was := h.b pSNAP 0 SNAP_CTRL_ASM
  let on := bitOf d.toNat 1
  let s := h.f pSNAP 0 SNAP_STRIDE_S
  let base := h.f pSNAP 0 SNAP_ABASE_LINE
  if on && !was then
    if s = 0 ∨ 9 < s ∨ 2 ^ 26 < base + 49152 * s then h.irqBit pSNAP SNAP_IRQ_CAP_ERR 0
    else
      let h := h.plainWrite pSNAP 2 0 d
      let h := h.onDom (fun x => { x with abase := base, stride := s, bufs := [{}, {}, {}], latest := none, asm := none })
      (h.setF pSNAP 0 SNAP_STATUS_LATEST_VALID 0).setF pSNAP 0 SNAP_STATUS_ASSEMBLING 0
  else
    let h := h.plainWrite pSNAP 2 0 d
    if on then h else (h.onDom (fun x => { x with asm := none })).setF pSNAP 0 SNAP_STATUS_ASSEMBLING 0

/-- First line of node `i`'s block in buffer `b`. -/
def DomSt.block (d : DomSt) (b i : Nat) : Nat := d.abase + b * 16384 * d.stride + i * d.stride

/-- R537. A header word. -/
def blockHeader (state : Nat) (err : Bool) (count age gen node : Nat) : Word :=
  w40 (state * 2 ^ 38 + b2n err * 2 ^ 37 + count % 128 * 2 ^ 30 + age % 64 * 2 ^ 24 + gen % 1024 * 2 ^ 14 + node)

/-- Words written as lines from line `l` on. -/
def State.writeLines (s : State) (n l : Nat) (ws : List Word) (tag : BitVec 8) : State :=
  (List.range n).foldl (fun s i => s.writeLine (l + i) ((List.range 8).map (fun j => ws.getD (8 * i + j) 0)) tag) s

/-- R538. Node `i`'s publication is written as a FRESH block. -/
def State.freshBlock (s : State) (g : OpenGen) (i : Nat) (f : Frame) : State :=
  let d := s.hw.dom
  let w0 := (f.words.getD 0 0).toNat
  let count := bitsOf w0 32 7
  let keep := min count (8 * d.stride - 1)
  let ws := blockHeader 1 (bitOf w0 39) keep 0 g.tn i :: (f.words.drop 1).take keep
  let s := if s.hw.dramReady then s.writeLines d.stride (d.block g.buf i) ws (BitVec.ofNat 8 (g.tn % 16 * 16)) else s
  s.on (fun h =>
    let h := if keep < count then h.incF pSNAP 0 SNAP_TRUNC_CNT_COUNT else h
    h.onDom (fun x => { x with
      asm := some { g with fresh := if g.fresh.contains i then g.fresh else g.fresh ++ [i] },
      bufs := x.bufs.set g.buf { x.bufs.getD g.buf {} with nodes := (x.bufs.getD g.buf {}).nodes.filter (· != i) ++ [i] } }))

/-- R538. The oldest publication is handled at the root. -/
def State.publication (s : State) : State :=
  match s.hw.takeRx 1 1 with
  | none => s
  | some (f, h) =>
    let s := { s with hw := h }
    if h.jstate ≠ 3 then s
    else
      let n := tickAt h.tick (tickAhead h.tick ((f.words.getD 0 0).toNat % 2 ^ 32))
      let s := s.on (fun h => h.onDom (fun d => { d with
        expected := if f.src = 0 ∨ d.expected.contains f.src then d.expected else d.expected ++ [f.src],
        left := d.left.filter (fun e => e.1 != f.src) }))
      match s.hw.dom.asm with
      | some g => if g.tn = n && h.assembles then s.freshBlock g f.src f else s.on (fun h => h.incF pSNAP 0 SNAP_LATE_PUB_COUNT)
      | none => s.on (fun h => h.incF pSNAP 0 SNAP_LATE_PUB_COUNT)

/-- R539, R422. An ABSENT header, in its line written whole. -/
def State.absentBlock (s : State) (g : OpenGen) (i : Nat) : State :=
  if s.hw.dramReady then
    s.writeLines 1 (s.hw.dom.block g.buf i) [blockHeader 0 false 0 0 g.tn i] (BitVec.ofNat 8 (g.tn % 16 * 16))
  else s

/-- R539. A node without a FRESH block receives a copy of its block from the latest complete generation. -/
def State.staleBlock (s : State) (g : OpenGen) (i : Nat) : State :=
  let d := s.hw.dom
  match d.latest with
  | none => s.absentBlock g i
  | some (_, b) =>
    if !(d.bufs.getD b {}).nodes.contains i then s.absentBlock g i
    else
      let src := d.block b i
      let dst := d.block g.buf i
      let w := (s.rd (lineBase src)).toNat
      let fenced := (s.hw.recvOf ⟨1, false, i⟩).fenced
      let head := blockHeader (if fenced then 3 else 2) (bitOf w 37) (bitsOf w 30 7) (min 63 (bitsOf w 24 6 + 1)) g.tn i
      let s := if !s.hw.dramReady then s
        else (List.range d.stride).foldl (fun s j => s.copyLine (src + j) (dst + j) (if j = 0 then some head else none)) s
      s.on (fun h =>
        let h := (h.incF pSNAP 0 SNAP_MISS_CNT_COUNT).irqBit pSNAP SNAP_IRQ_ASM_MISS 0
        h.onDom (fun x => { x with bufs := x.bufs.set g.buf { x.bufs.getD g.buf {} with nodes := (x.bufs.getD g.buf {}).nodes ++ [i] } }))

/-- R539. The open generation completes. -/
def State.completeGen (s : State) (g : OpenGen) : State :=
  let d := s.hw.dom
  let s := ((0 :: d.expected).filter (fun i => !g.fresh.contains i)).foldl (fun s i => s.staleBlock g i) s
  let s := d.left.foldl (fun s e => s.absentBlock g e.1) s
  s.on (fun h =>
    let h := h.onDom (fun x => { x with
      asm := none, latest := some (g.tn, g.buf),
      bufs := x.bufs.set g.buf { x.bufs.getD g.buf {} with gen := some g.tn },
      left := (x.left.map (fun e => (e.1, e.2 - 1))).filter (fun e => e.2 != 0) })
    let h := (h.setF pSNAP 0 SNAP_LATEST_TN g.tn).setF pSNAP 0 SNAP_STATUS_LATEST_BUF g.buf
    ((h.setF pSNAP 0 SNAP_STATUS_LATEST_VALID 1).setF pSNAP 0 SNAP_STATUS_ASSEMBLING 0).irqBit pSNAP SNAP_IRQ_GEN_DONE 0)

/-- R539. The open generation completes when every block is FRESH, or when its deadline has passed. -/
def State.generationComplete (s : State) : State :=
  match s.hw.dom.asm with
  | none => s
  | some g =>
    let d := s.hw.dom
    let all := (0 :: d.expected).all (fun i => g.fresh.contains i)
    let due := match governing (d.configs.filter (fun c => (g.tn + 2 ^ 40 - c.tn) % 2 ^ 40 < 2 ^ 39)) s.hw.domTime with
      | none => false
      | some c =>
        let dl := s.hw.f pSNAP 0 SNAP_ASM_DL_T
        let dl := if dl = 0 ∨ c.period < dl then c.period else dl
        let n := (g.tn + 2 ^ 40 - c.tn) % 2 ^ 40
        decide (c.time + n * c.period * 256 + dl * 256 ≤ s.hw.domTime)
    if all || due then s.completeGen g else s

/-- R540. The buffer a generation opens in. -/
def DomSt.freeBuf (d : DomSt) (n : Nat) : Option Nat :=
  let free := (List.range 3).filter (fun b =>
    (match d.latest with | some (_, l) => l != b | none => true) && (match d.pin with | some p => p.buf != b | none => true))
  let age (b : Nat) : Nat := match (d.bufs.getD b {}).gen with | some g => (n + 2 ^ 40 - g) % 2 ^ 40 | none => 2 ^ 40
  free.foldl (fun x b =>
    match x with
    | none => some b
    | some y => if age y < age b then some b else some y) none

/-- R539, R540. Generation `n` opens at the root's tick edge; one still open completes first. -/
def State.openGen (s : State) (n : Nat) : State :=
  if !s.hw.assembles then s
  else
    let s := match s.hw.dom.asm with | some g => s.completeGen g | none => s
    match s.hw.dom.freeBuf n with
    | none => s
    | some b => s.on (fun h =>
      let h := h.onDom (fun d => { d with asm := some ⟨n, b, []⟩, bufs := d.bufs.set b {} })
      (h.setF pSNAP 0 SNAP_STATUS_ASSEMBLING 1).setF pSNAP 0 SNAP_STATUS_ASM_BUF b)

/-! ## The tick (R531, R532, R342) -/

/-- R342. SNAP requests a drain: every core marks the store-buffer entries it holds. -/
def Hw.drainRequest (h : Hw) : Hw :=
  (List.range 32).foldl (fun h k =>
    let c := h.core k
    if c.sb.isEmpty then h else h.setCore k { c with sb := c.sb.map (fun e => { e with marked := true }) }) h

/-- R532, R547. Ticks that are done with are dropped; the capture of the next one begins. -/
def Hw.snapNext (fuel : Nat) (h : Hw) : Hw :=
  match fuel with
  | 0 => h
  | fuel + 1 =>
    match h.dom.ticks with
    | [] => h
    | t :: rest =>
      if t.done then
        if h.dom.cmdQ.any (fun q => q.tick == t.tn) then h
        else Hw.snapNext fuel (h.onDom (fun d => { d with ticks := rest }))
      else if h.b pSNAP 0 SNAP_STATUS_CAPTURING then h
      else (h.setF pSNAP 0 SNAP_STATUS_CAPTURING 1).drainRequest

/-- R531, R546. Tick `n` fires on this device; `skipped` ticks before it do not. -/
def Hw.fireTick (h : Hw) (n skipped : Nat) : Hw :=
  let h := if skipped = 0 then h
    else (h.setF pDOM 0 DOM_SKIP_CNT_COUNT (h.f pDOM 0 DOM_SKIP_CNT_COUNT + skipped)).irqBit pDOM DOM_IRQ_TICK_SKIP 0
  let h := h.setF pDOM 0 DOM_TICK_TN n
  let h := h.onDom (fun d => { d with fired := true, tickFrom := some (h.domTime + 1) })
  let past := h.dom.cmdQ.filter (fun q =>
    tickAhead n (q.tick % 2 ^ 32) < 0 && !h.dom.ticks.any (fun t => t.tn == q.tick))
  let h := h.onDom (fun d => { d with cmdQ := d.cmdQ.filter (fun q => !past.contains q) })
  let h := past.foldl (fun h q => h.failReport q.src (reportWords 5 q.tick q.id q.eseq 0)) h
  let h := h.launch (devCode 0x010)
  let h := if h.hamper.tick then h.hamperCadence else h
  let cap := h.b pSNAP 0 SNAP_CTRL_CAP_EN
  let h := if cap && !h.dom.ticks.isEmpty then h.irqBit pDOM DOM_IRQ_CAP_LATE 0 else h
  let h := h.onDom (fun d => { d with ticks := d.ticks ++ [⟨n, cap, !cap, h.now⟩] })
  Hw.snapNext (h.dom.ticks.length + 1) h

/-- R531. Domain time has reached the time of an unfired tick. -/
def State.domTick (s : State) : State :=
  let h := s.hw
  match h.tickRuns && h.domainRuns 49, h.dom.tickFrom, lastTickBefore h.dom.configs (h.domTime + 1) with
  | true, some t0, some n =>
    let reached := ticksBefore h.dom.configs (h.domTime + 1) - ticksBefore h.dom.configs t0
    let ahead := (n + 2 ^ 40 - h.tick) % 2 ^ 40
    if reached = 0 || (h.dom.fired && (ahead == 0 || 2 ^ 39 ≤ ahead)) then s
    else
      let reached := if h.dom.fired then min reached ahead else reached
      (s.on (fun h => h.fireTick n (reached - 1))).openGen n
  | _, _, _ => s

/-! ## Page writes -/

/-- R562. Effect of an accepted page write to DOM. -/
def State.domWrite (s : State) (off ch : Nat) (r : Requester) (d : Word) : State :=
  if off = 0x8A then s.ctxbWrite r d
  else s.on (fun h =>
    if off = 0x82 then (if h.isRoot then h.pairHold pDOM 0x82 0 r d else h)
    else if off = 0x83 then h.baseCommit r d
    else h.plainWrite pDOM off ch d)

/-- R563. Effect of an accepted page write to SNAP. -/
def Hw.snapWrite (h : Hw) (off : Nat) (r : Requester) (d : Word) : Hw :=
  if off = 2 then h.snapCtrlWrite d
  else if off = 0x84 then h.leaseWrite r.bank d
  else h.plainWrite pSNAP off 0 d

/-- R557, R558, R564. Effect of a page write to FRAYk, and whether it stands: a write that would set an EN bit is refused
while LWF.FRAY_EN does not permit the port. -/
def Hw.frayWrite (h : Hw) (k off : Nat) (d : Word) : Hw × Bool :=
  let permit := bitOf (h.lwf 5) k
  let sets : Bool := (off == 2 && bitOf d.toNat 0) || (0x80 ≤ off && off < 0x84 && bitOf d.toNat 27)
  if sets && !permit then (h, false)
  else
    let h := h.plainWrite (pFRAY k) off 0 d
    if 0x80 ≤ off ∧ off < 0x84 then (h.onPort k (fun p => { p with frayCnt := p.frayCnt.set (off - 0x80) 0 }), true)
    else if off = 0x85 then (h.onPort k (fun p => { p with lfsr := max 1 (h.f (pFRAY k) 0 FRAY_SEED_SEED) }), true)
    else (h, true)

/-! ## The commands -/

/-- PORT_ENABLE: a write of DLn.CTRL. -/
def execPortEnable (w : Requester) (k : Fin 4) (d : Word) (s : State) : Host.Outcome State Fault Refusal :=
  onHw s (fun h => h.direct w (pDL k.val) 2 (fun h => h.dlCtrlWrite k.val d))

/-- SIGNAL_DETECT: signal on lane 0 for 1 µs. -/
def execSignalDetect (k : Fin 4) (s : State) : Host.Outcome State Fault Refusal :=
  onHw s (fun h => if h.pstate k.val = 1 then h.enterTrain k.val else h)

/-- BLOCK_LOCK_ACQUIRED: the lanes of a mask gain block lock, with their adapted equaliser settings. -/
def execBlockLockAcquired (k : Fin 4) (mask : BitVec 4) (eq : List Nat) (s : State) : Host.Outcome State Fault Refusal :=
  onHw s (fun h => h.blockLock k.val mask.toNat eq)

/-- TRAIN_TIMEOUT: 1 ms has passed in TRAIN. -/
def execTrainTimeout (k : Fin 4) (s : State) : Host.Outcome State Fault Refusal := onHw s (fun h => h.trainTimeout k.val)

/-- DESKEW_DONE: two ALIGN blocks on every USED lane, with the lanes' lags in blocks. -/
def execDeskewDone (k : Fin 4) (skew : List Nat) (s : State) : Host.Outcome State Fault Refusal :=
  onHw s (fun h => h.deskewDone k.val skew)

/-- DESKEW_FAIL. -/
def execDeskewFail (k : Fin 4) (s : State) : Host.Outcome State Fault Refusal := onHw s (fun h => h.deskewFail k.val)

/-- LCTL_INIT: the partner's lanes, its EXP and its mark of a tear. -/
def execLctlInit (k : Fin 4) (lanes : BitVec 4) (exp : BitVec 12) (torn : Bool) (s : State) :
    Host.Outcome State Fault Refusal := onHw s (fun h => h.initReceived k.val lanes.toNat exp.toNat torn)

/-- BLOCK_LOCK_LOSS: a lane loses block lock, or the port its alignment. -/
def execBlockLockLoss (k : Fin 4) (lane : Option (Fin 4)) (errs : Nat) (s : State) : Host.Outcome State Fault Refusal :=
  onHw s (fun h => h.lockLoss k.val lane errs)

/-- RETRAIN_WRITE: a write of DLn.CTRL with RETRAIN = 1. -/
def execRetrainWrite (w : Requester) (k : Fin 4) (d : Word) (s : State) : Host.Outcome State Fault Refusal :=
  onHw s (fun h => h.direct w (pDL k.val) 2 (fun h => h.dlCtrlWrite k.val (d ||| 2)))

/-- LCTL_RETRAIN: the partner asks for RETRAIN. -/
def execLctlRetrain (k : Fin 4) (s : State) : Host.Outcome State Fault Refusal := onHw s (fun h => h.enterRetrain k.val false)

/-- RETRAIN_TIMEOUT: 10 µs since the port left ACTIVE. -/
def execRetrainTimeout (k : Fin 4) (s : State) : Host.Outcome State Fault Refusal := onHw s (fun h => h.retrainTimeout k.val)

/-- FRAME_START: the port starts its next frame; a LOCAL frame's stamp falls `fine` steps into the DTIME cycle. -/
def execFrameStart (k : Fin 4) (fine : Fin 64) (s : State) : Host.Outcome State Fault Refusal :=
  onHw s (fun h => h.frameStart k.val fine.val)

/-- FRAY_REORDER_TIMEOUT: 10 µs without a next frame. -/
def execFrayReorderTimeout (k : Fin 4) (fine : Fin 64) (s : State) : Host.Outcome State Fault Refusal :=
  onHw s (fun h => if h.mayStart k.val then h.flushReordered k.val fine.val else h.heldDue k.val)

/-- FRAME_RECEIVE: the frame arriving on the port ends, with its payload. -/
def execFrameReceive (k : Fin 4) (ws : List Word) (fe : FrameEnd) (s : State) : Host.Outcome State Fault Refusal :=
  onHw s (fun h => h.frameReceive k.val ws fe)

/-- FRAME_ROUTE: a SOF and a network header arrive on the port. -/
def execFrameRoute (k : Fin 4) (lseq : BitVec 12) (lack : Option (BitVec 12)) (x : Hdr) (s : State) :
    Host.Outcome State Fault Refusal := onHw s (fun h => h.frameRoute k.val lseq.toNat (lack.map (·.toNat)) x)

/-- LCTL_ACK. -/
def execLctlAck (k : Fin 4) (l : BitVec 12) (s : State) : Host.Outcome State Fault Refusal :=
  onHw s (fun h => if h.rxUp k.val then h.acknowledge k.val l.toNat else h)

/-- LCTL_NAK. -/
def execLctlNak (k : Fin 4) (l : BitVec 12) (s : State) : Host.Outcome State Fault Refusal :=
  onHw s (fun h => if h.rxUp k.val then h.resendFrom k.val l.toNat else h)

/-- LCTL_CREDIT: LOCAL and ROUTED blocks returned. -/
def execLctlCredit (k : Fin 4) (loc routed : BitVec 16) (s : State) : Host.Outcome State Fault Refusal :=
  onHw s (fun h =>
    if h.rxUp k.val then
      (h.setF (pDL k.val) 0 DL_CREDIT_ROUTED (min 65535 (h.f (pDL k.val) 0 DL_CREDIT_ROUTED + routed.toNat))).onPort k.val
        (fun p => { p with credL := p.credL + loc.toNat })
    else h)

/-- NAK_REPEAT: 1 µs since the last NAK. -/
def execNakRepeat (k : Fin 4) (s : State) : Host.Outcome State Fault Refusal :=
  onHw s (fun h => if h.txUp k.val && (h.port k.val).nak then h.emit (.lctl k.val 2 (h.f (pDL k.val) 0 DL_MEND_EXP)) else h)

/-- ACK_TIMEOUT: the oldest unacknowledged frame has waited 2 µs. -/
def execAckTimeout (k : Fin 4) (s : State) : Host.Outcome State Fault Refusal :=
  onHw s (fun h =>
    if !h.txUp k.val then h
    else match (h.port k.val).retry with
      | [] => h
      | r :: _ => if 16 ≤ r.sends then h.enterRetrain k.val true else h.resendFrom k.val r.lseq)

/-- HELLO: a neighbour's HELLO arrives. -/
def execDlHello (k : Fin 4) (ws : List Word) (s : State) : Host.Outcome State Fault Refusal := onHw s (fun h => h.hello k.val ws)

/-- HELLO_TIMER: 100 µs. -/
def execHelloTimer (s : State) : Host.Outcome State Fault Refusal := onHw s (fun h => h.helloAll)

/-- PARENT_CHOICE: JHOLD has passed. -/
def execParentChoice (s : State) : Host.Outcome State Fault Refusal := onHw s (fun h => h.parentChoice)

/-- CHILD_REQ_TIMEOUT: 1 ms without an answer. -/
def execChildReqTimeout (s : State) : Host.Outcome State Fault Refusal := onHw s (fun h => h.requestTimeout)

/-- CHILD_REQ: a neighbour asks to join. -/
def execChildReq (k : Fin 4) (ws : List Word) (s : State) : Host.Outcome State Fault Refusal := onHw s (fun h => h.childReq k.val ws)

/-- JOIN_REQ: the root handles the oldest request. -/
def execJoinReq (s : State) : Host.Outcome State Fault Refusal := onHw s (fun h => h.joinReq)

/-- JOIN_GRANT: the parent receives the oldest grant. -/
def execJoinGrant (s : State) : Host.Outcome State Fault Refusal := onHw s (fun h => h.joinGrant)

/-- JOIN_REFUSE: the parent receives the oldest refusal. -/
def execJoinRefuse (s : State) : Host.Outcome State Fault Refusal := onHw s (fun h => h.joinRefuse)

/-- CHILD_GRANT: the child is granted. -/
def execChildGrant (k : Fin 4) (ws : List Word) (s : State) : Host.Outcome State Fault Refusal :=
  onHw s (fun h => h.childGrant k.val ws)

/-- CHILD_REFUSE: the child is refused. -/
def execChildRefuse (k : Fin 4) (ws : List Word) (s : State) : Host.Outcome State Fault Refusal :=
  onHw s (fun h => h.childRefuse k.val ws)

/-- LEAVE: the oldest LEAVE frame is processed. -/
def execDlLeave (s : State) : Host.Outcome State Fault Refusal := onHw s (fun h => h.leave)

/-- DCMD_LEAVE: a write of DL0.DCMD. -/
def execDcmdLeave (w : Requester) (d : Word) (s : State) : Host.Outcome State Fault Refusal :=
  onHw s (fun h => h.direct w (pDL 0) 0xC2 (fun h => h.dcmdWrite d))

/-- ID_HOLD_EXPIRY: the hold of an ID ends. -/
def execIdHoldExpiry (id : BitVec 14) (s : State) : Host.Outcome State Fault Refusal := onHw s (fun h => h.idHoldExpiry id.toNat)

/-- SYNC_TIMER: SYNC_INT has passed. -/
def execSyncTimer (s : State) : Host.Outcome State Fault Refusal := onHw s (fun h => h.syncTimer)

/-- SYNC: a SYNC arrives, `fine` steps into the DTIME cycle. -/
def execDlSync (k : Fin 4) (ws : List Word) (fine : Fin 64) (s : State) : Host.Outcome State Fault Refusal :=
  onHw s (fun h => h.sync k.val ws fine.val)

/-- DREQ: a DREQ arrives, `fine` steps into the DTIME cycle. -/
def execDlDreq (k : Fin 4) (ws : List Word) (fine : Fin 64) (s : State) : Host.Outcome State Fault Refusal :=
  onHw s (fun h => h.dreq k.val ws fine.val)

/-- DRESP: a DRESP arrives. -/
def execDlDresp (k : Fin 4) (ws : List Word) (s : State) : Host.Outcome State Fault Refusal := onHw s (fun h => h.dresp k.val ws)

/-- HOLDOVER_ENTRY: no exchange for 8 × SYNC_INT. -/
def execHoldoverEntry (s : State) : Host.Outcome State Fault Refusal := onHw s (fun h => h.holdoverEntry)

/-- HOLDOVER_EXPIRY: HOLD_MAX has passed. -/
def execHoldoverExpiry (s : State) : Host.Outcome State Fault Refusal := onHw s (fun h => h.holdoverExpiry)

/-- TSET_H_WRITE: a write of DTIME.TSET_H. -/
def execTsetHWrite (w : Requester) (d : Word) (s : State) : Host.Outcome State Fault Refusal :=
  onHw s (fun h => h.direct w pDTIME 0x83 (fun h => h.tsetWrite w d))

/-- TICK_CFG: the oldest TICK_CFG frame is kept. -/
def execTickCfg (s : State) : Host.Outcome State Fault Refusal := onHw s (fun h => h.tickCfg)

/-- TICK_CFG_TIMER: 1 ms. -/
def execTickCfgTimer (s : State) : Host.Outcome State Fault Refusal := onHw s (fun h => h.sendTickCfg)

/-- BASE_H_COMMIT: a write of DOM.BASE_H. -/
def execBaseHCommit (w : Requester) (d : Word) (s : State) : Host.Outcome State Fault Refusal :=
  onHw s (fun h => h.direct w pDOM 0x83 (fun h => h.baseCommit w d))

/-- PUBLICATION: the oldest publication is handled. -/
def execDomPublication (s : State) : Host.Outcome State Fault Refusal := .next s.publication

/-- GENERATION_COMPLETE. -/
def execGenerationComplete (s : State) : Host.Outcome State Fault Refusal := .next s.generationComplete

/-- ASM_ENABLE: a write of SNAP.CTRL. -/
def execAsmEnable (w : Requester) (d : Word) (s : State) : Host.Outcome State Fault Refusal :=
  onHw s (fun h => h.direct w pSNAP 2 (fun h => h.snapCtrlWrite d))

/-- LEASE_REQ: a write of SNAP.LEASE with REQ = 1. -/
def execLeaseReq (w : Requester) (s : State) : Host.Outcome State Fault Refusal :=
  onHw s (fun h => h.direct w pSNAP 0x84 (fun h => h.leaseWrite w.bank 1))

/-- LEASE_REL: a write of SNAP.LEASE with REL = 1. -/
def execLeaseRel (w : Requester) (s : State) : Host.Outcome State Fault Refusal :=
  onHw s (fun h => h.direct w pSNAP 0x84 (fun h => h.leaseWrite w.bank 2))

/-- LEASE_EXPIRY: the pin's time ends. -/
def execLeaseExpiry (s : State) : Host.Outcome State Fault Refusal := onHw s (fun h => h.leaseExpiry)

/-- COMMAND_SEND: a write of DOM.CTX_B with GO = 1. -/
def execCommandSend (w : Requester) (d : Word) (s : State) : Host.Outcome State Fault Refusal :=
  .next (s.direct w pDOM 0x8A (fun s => s.ctxbWrite w (d ||| 0x8000000000)))

/-- COMMAND: the oldest command frame is accepted or rejected. -/
def execDomCommand (s : State) : Host.Outcome State Fault Refusal := onHw s (fun h => h.command)

/-- REPORT: the oldest report frame is queued. -/
def execDomReport (s : State) : Host.Outcome State Fault Refusal := onHw s (fun h => h.reportFrame)

/-- RESUME_REQ_REPEAT: 100 µs for a fenced stream. -/
def execResumeReqRepeat (x : StreamId) (s : State) : Host.Outcome State Fault Refusal := onHw s (fun h => h.resumeRepeat x)

/-- RESUME_REQ: the oldest RESUME_REQ of a class is answered. -/
def execResumeReq (tc : Fin 3) (s : State) : Host.Outcome State Fault Refusal := onHw s (fun h => h.resumeAnswer tc.val)

/-- RESUME_ACK: the oldest RESUME_ACK of a class. -/
def execResumeAck (tc : Fin 3) (s : State) : Host.Outcome State Fault Refusal := onHw s (fun h => h.resumeAck tc.val)

/-- FRAY_CONFIG_WRITE: a write of FRAYk's CTRL or of one of its actions. -/
def execFrayConfigWrite (w : Requester) (k : Fin 4) (act : Option (Fin 4)) (d : Word) (s : State) :
    Host.Outcome State Fault Refusal :=
  let off := match act with | some a => 0x80 + a.val | none => 2
  onHw s (fun h => h.directR w (pFRAY k.val) off (fun h => h.frayWrite k.val off d))

end Sys2Proof.Machine
end

