-- ==== Sys2Proof/Machine/Host.lean ====
section
/-! DEFINITION. The PCI Express endpoint's own state, the MSI-X vectors and the domain mailboxes (R565 to R587, R599,
R600), as far as they need no access to pages on behalf of the host. -/

namespace Sys2Proof.Machine

open Sys2Proof

/-! ## MSI-X (R579, R580) -/

/-- A vector sends its message. -/
def Hw.vectorSend (h : Hw) (v : Nat) : Hw :=
  let x := h.vectors.at {} v
  { h with vectors := h.vectors.set {} v { x with pend := false }, out := h.out ++ [.msix v x.addr x.data] }

/-- A vector is to send: it does, or a mask leaves it pending. -/
def Hw.vectorAsk (h : Hw) (v : Nat) : Hw :=
  if h.vectorOpen v then h.vectorSend v
  else { h with vectors := h.vectors.set {} v { h.vectors.at {} v with pend := h.linked } }

/-- Masks have changed: a pending vector that neither masks any more sends. -/
def Hw.vectorsFlush (h : Hw) : Hw :=
  ((h.vectors.filter (fun e => e.2.pend)).map (·.1)).foldl (fun h v => if h.vectorOpen v then h.vectorSend v else h) h

/-- R580. A write of VACK by the host. -/
def Hw.vack (h : Hw) (v : Nat) : Hw := if (h.vectors.at {} v).req then h.vectorAsk v else h

/-- R580. A write of VFIRE: each software vector's request is a pulse. -/
def Hw.vfire (h : Hw) (base : Nat) (d : Word) : Hw :=
  (List.range 32).foldl (fun h i => if bitOf d.toNat i then h.vectorAsk (base + i) else h) h

/-- R575. A table entry as the PCI Express specification lays out its 16 bytes: address, data, vector control. -/
def Vector.entry (x : Vector) : Nat := x.addr + x.data * 2 ^ 64 + b2n x.masked * 2 ^ 96

/-- R575. A byte of the MSI-X table read. -/
def Hw.msixByte (h : Hw) (o : Nat) : Nat := bitsOf (h.vectors.at {} (o / 16)).entry (8 * (o % 16)) 8

/-- R575. A byte of the MSI-X table written. -/
def Hw.msixSet (h : Hw) (o b : Nat) : Hw :=
  let x := h.vectors.at {} (o / 16)
  let n := withBits x.entry (8 * (o % 16)) 8 b
  let y := { x with addr := n % 2 ^ 64, data := bitsOf n 64 32, masked := bitOf n 96 }
  { h with vectors := h.vectors.set {} (o / 16) y }

/-- R575. A byte of the pending bit array. -/
def Hw.pbaByte (h : Hw) (o : Nat) : Nat :=
  (List.range 8).foldl (fun n i => n + b2n (h.vectors.at {} (8 * o + i)).pend * 2 ^ i) 0

/-! ## Effects of page writes -/

/-- R599. Effect of an accepted page write to PCIE. -/
def Hw.pcieWrite (h : Hw) (off : Nat) (r : Requester) (d : Word) : Hw :=
  if off = 0x80 then (if r = .host then h.vack (d.toNat % 256) else h)
  else if off = 0x81 then h.vfire 0xC0 d
  else if off = 0x82 then h.vfire 0xE0 d
  else h.plainWrite pPCIE off 0 d

/-- R599. PCIE.CREQn: the pages of cluster n that request and are routed to the host. -/
def Hw.creq (h : Hw) (n : Nat) : Nat := (List.range 30).foldl (fun x p => x + b2n (h.pageReqHost ⟨n, p⟩) * 2 ^ p) 0

/-! ## Configuration and resets of the host interface (R582, R583) -/

/-- R580. A configuration request of the host. -/
def Hw.cfgWrite (h : Hw) (c : CfgWrite) : Hw :=
  match c with
  | .msix en fmask => { h with msixEn := en, fmask := fmask }.vectorsFlush
  | .devCtl ro ns mps mrrs => { h with devCtl := ⟨ro, ns, mps.val, mrrs.val⟩ }
  | .power d3 => h.setB pPCIE 0 PCIE_STATUS_D3 d3

/-- R582. Every register bank of a requester returns to its reset value. -/
def Hw.resetBanks (h : Hw) (b : Nat) : Hw :=
  let banked (k : RegKey) : Bool :=
    k.ch == b && !(decide (0x10 ≤ k.off) && decide (k.off < 0x80)) &&
      (match pageInfo ⟨k.cl, k.idx⟩ with | some i => bankedAt i k.off | none => false)
  { h with regs := h.regs.filter (fun e => !banked e.1), pairs := h.pairs.filter (fun e => e.1.bank != b) }

/-- R582. The reset of the host interface, but for the beats it ends. -/
def Hw.hostReset (h : Hw) : Hw :=
  let h : Hw := { h with
    msixEn := false, fmask := false, devCtl := {},
    vectors := (h.vectors.filter (fun e => e.2.req)).map (fun e => (e.1, { e.2 with pend := false, masked := true, addr := 0, data := 0 })) }
  let h := (h.leaseEnd 0x30).resetBanks 0x30
  (h.setF pPCIE 0 PCIE_HWIN_LINE 0).setF pPCIE 0 PCIE_STATUS_D3 0

/-- R582. A Function Level Reset, but for the beats it ends.
DEDUCED, unsafe: log entry 116. -/
def Hw.flr (h : Hw) : Hw := h.hostReset.irqBit pPCIE PCIE_IRQ_FLR 0

/-- R583. PERST# falls (`pin`), or the link goes down for another reason. -/
def Hw.linkDown (h : Hw) (pin : Bool) : Hw :=
  let was := h.b pPCIE 0 PCIE_STATUS_LINK_UP
  let h := { h.hostReset with perstLow := h.perstLow || pin }
  let h := h.setReg pPCIE 3 0 0
  let h := if pin then h.irqBit pPCIE PCIE_IRQ_FLR 0 else h
  if was then h.irqBit pPCIE PCIE_IRQ_LINK_DOWN 0 else h

/-- R565, R583. The link trains at a rate and a width; `partner` tells whether the partner supports flit mode at 32 GT/s. -/
def Hw.linkUp (h : Hw) (rate width : Nat) (partner : Bool) : Hw :=
  if h.b pPCIE 0 PCIE_STATUS_LINK_UP || !h.domainRuns 38 then h
  else
    let flit : Bool := rate == 5 || (rate == 4 && partner && h.b pPCIE 0 PCIE_CTRL_FLIT32)
    let h := { h with perstLow := false }
    let h := (h.setB pPCIE 0 PCIE_STATUS_FLIT flit).setF pPCIE 0 PCIE_STATUS_WIDTH width
    (h.setF pPCIE 0 PCIE_STATUS_RATE rate).setF pPCIE 0 PCIE_STATUS_LINK_UP 1

/-- Host requests arrive: the link is up and the function is in D0. -/
def Hw.hostOn (h : Hw) : Bool := h.b pPCIE 0 PCIE_STATUS_LINK_UP && !h.b pPCIE 0 PCIE_STATUS_D3 && h.domainRuns 39

/-! ## Mailboxes (R584 to R587) -/

/-- First word of mailbox `m`. -/
def Hw.mboxBase (h : Hw) (m : Nat) : Nat := 0x10000000 + (8 * h.f pMBOX 0 MBOX_MBASE_LINE + 1024 * m) % 2 ^ 29

/-- R579. The vector of mailbox `m` follows VEC and RXCNT. -/
def Hw.mboxVector (h : Hw) (m : Nat) : Hw :=
  h.vectorLevel (0x80 + m) (h.b pMBOX m MBOX_MCFG_VEC && h.f pMBOX m MBOX_MRXDONE_RXCNT != 0)

/-- R586. Why a send fails; 0 when it does not. -/
def Hw.mtxCause (h : Hw) (m : Nat) : Nat :=
  let len := h.f pMBOX m MBOX_MTX_LEN
  if h.b pMBOX m MBOX_MSTAT_TXBUSY then 1
  else if len = 0 ∨ 99 < len then 2
  else if !h.inDomain then 3
  else 0

/-- R586. The words of the transmit buffer; while the DRAM is not ready the spec states none of them. -/
def State.txWords (s : State) (m len : Nat) : List Word :=
  if s.hw.dramReady then s.rdList (s.hw.mboxBase m) len
  else (List.range len).map (fun i => Config.freeWord (s.hw.freeNo + i))

/-- R586. A write of MTX with GO = 1 on mailbox `m`.
DEDUCED, unsafe: log entry 117. -/
def State.mboxSend (s : State) (m : Nat) : State :=
  match s.hw.mtxCause m with
  | 0 =>
    let len := s.hw.f pMBOX m MBOX_MTX_LEN
    let w0 := w40 (s.hw.f pMBOX m MBOX_MTX_DMB * 2 ^ 32 + m * 2 ^ 26 + len)
    let ws := s.txWords m len
    s.on (fun h =>
      let h := { h with freeNo := if h.dramReady then h.freeNo else h.freeNo + len }
      (h.setF pMBOX m MBOX_MSTAT_TXBUSY 1).sendSeq 2 (h.f pMBOX m MBOX_MTX_DST) 1 (w0 :: ws))
  | cause => s.on (fun h => h.setF pMBOX m MBOX_MSTAT_TXERR cause)

/-- R586. The message of mailbox `m` has not left: it waits at a port, or Fray holds it. -/
def Hw.mboxQueued (h : Hw) (m : Nat) : Bool :=
  let own (x : Held) : Bool := x.port == 4 && x.frame.tc == 2 && x.frame.kind == 1 && x.frame.src == h.nodeId &&
    bitsOf (x.frame.words.getD 0 0).toNat 26 6 == m
  (List.range 4).any (fun k =>
    let p := h.port k
    p.txq.any own ||
      (match p.delayed with | some (.routed x, _) => own x | _ => false) ||
      (match p.reordered with | some r => (match r.item with | .routed x => own x | .loc _ => false) | none => false))

/-- R586. The frame has left. -/
def Hw.mboxSent (h : Hw) (m : Nat) : Hw :=
  if h.b pMBOX m MBOX_MSTAT_TXBUSY && !h.mboxQueued m then
    ((h.setF pMBOX m MBOX_MSTAT_TXBUSY 0).setF pMBOX m MBOX_MSTAT_TXDONE 1).irqBit pMBOX MBOX_IRQ_TXDONE 0
  else h

/-- R587. A write of MRXDONE with DONE = 1. -/
def Hw.mrxDone (h : Hw) (m : Nat) : Hw :=
  let n := h.f pMBOX m MBOX_MRXDONE_RXCNT
  if n = 0 then h
  else
    ((h.setF pMBOX m MBOX_MRXDONE_RXCNT (n - 1)).setF pMBOX m MBOX_MSTAT_RD (h.f pMBOX m MBOX_MSTAT_RD + 1)).mboxVector m

/-- R587. A NAK for a message that mailbox `smb` of a node sent to mailbox `dmb`. -/
def Hw.mboxNak (h : Hw) (node dmb smb cause : Nat) : Hw :=
  h.sendSeq 2 node 2 [w40 (dmb * 2 ^ 32 + smb * 2 ^ 26 + cause)]

/-- R587. The oldest mailbox frame, when it is a MSG, is received. -/
def State.mboxMsg (s : State) : State :=
  match s.hw.takeRx 2 1 with
  | none => s
  | some (f, h) =>
    let w0 := (f.words.getD 0 0).toNat
    let m := bitsOf w0 32 6
    let smb := bitsOf w0 26 6
    let len := min (w0 % 128) (f.words.length - 1)
    if !h.b pMBOX m MBOX_MCFG_EN then { s with hw := h.mboxNak f.src m smb 2 }
    else if h.f pMBOX m MBOX_MRXDONE_RXCNT = 4 then { s with hw := h.mboxNak f.src m smb 1 }
    else if !h.dramReady then s
    else
      let wr := h.f pMBOX m MBOX_MSTAT_WR
      let base := h.mboxBase m + 128 + 128 * wr
      let s : State := { s with hw := h }
      let s := (s.wrList (base + 1) ((f.words.drop 1).take len)).wr base (w40 (f.src * 2 ^ 26 + smb * 2 ^ 20 + len))
      s.on (fun h =>
        let h := h.setF pMBOX m MBOX_MRXDONE_RXCNT (h.f pMBOX m MBOX_MRXDONE_RXCNT + 1)
        ((h.setF pMBOX m MBOX_MSTAT_WR (wr + 1)).irqBit pMBOX MBOX_IRQ_RX 0).mboxVector m)

/-- R587. The oldest mailbox frame, when it is a NAK, is received. -/
def Hw.mboxNaked (h : Hw) : Hw :=
  match h.takeRx 2 2 with
  | none => h
  | some (f, h) =>
    let w0 := (f.words.getD 0 0).toNat
    let m := bitsOf w0 26 6
    ((h.setF pMBOX m MBOX_MSTAT_NAKED 1).setF pMBOX m MBOX_MSTAT_NAK_CAUSE (w0 % 16)).irqBit pMBOX MBOX_IRQ_NAK 0

/-- R600. Effect of an accepted page write to MBOX. -/
def State.mboxWrite (s : State) (off m : Nat) (d : Word) : State :=
  let s := s.on (fun h => h.plainWrite pMBOX off m d)
  if off = 0x11 ∧ bitOf d.toNat 39 then s.mboxSend m
  else if off = 0x13 ∧ bitOf d.toNat 3 then s.on (fun h => h.mrxDone m)
  else if off = 0x10 then s.on (fun h => h.mboxVector m)
  else s

/-- R600. RXMB0 and RXMB1: the mailboxes from `base` on that hold messages. -/
def Hw.rxMb (h : Hw) (base : Nat) : Nat :=
  (List.range 32).foldl (fun n i => n + b2n (h.f pMBOX (base + i) MBOX_MRXDONE_RXCNT != 0) * 2 ^ i) 0

/-! ## The commands -/

/-- VACK: a write of PCIE.VACK. -/
def execPcieVack (w : Requester) (v : Fin 256) (s : State) : Host.Outcome State Fault Refusal :=
  onHw s (fun h => h.direct w pPCIE 0x80 (fun h => h.pcieWrite 0x80 w (w40 v.val)))

/-- VFIRE: a write of PCIE.VFIRE0 or VFIRE1. -/
def execPcieVfire (w : Requester) (n : Fin 2) (d : Word) (s : State) : Host.Outcome State Fault Refusal :=
  onHw s (fun h => h.direct w pPCIE (0x81 + n.val) (fun h => h.pcieWrite (0x81 + n.val) w d))

/-- PCIE_LINK_UP. -/
def execPcieLinkUp (rate : Fin 6) (width : Fin 4) (partner : Bool) (s : State) : Host.Outcome State Fault Refusal :=
  onHw s (fun h => h.linkUp rate.val width.val partner)

/-- CONFIGURATION_WRITE: a configuration request of the host, which reaches the function while the link is up. -/
def execConfigurationWrite (c : CfgWrite) (s : State) : Host.Outcome State Fault Refusal :=
  onHw s (fun h => if h.b pPCIE 0 PCIE_STATUS_LINK_UP then h.cfgWrite c else h)

/-- MAILBOX_SEND: a write of MTX of the requester's mailbox, with GO. -/
def execMailboxSend (w : Requester) (d : Word) (s : State) : Host.Outcome State Fault Refusal :=
  .next (s.direct w pMBOX 0x11 (fun t => t.mboxWrite 0x11 (s.hw.chsel pMBOX w) (d ||| w40 (2 ^ 39))))

/-- MAILBOX_SENT. -/
def execMailboxSent (m : Fin 64) (s : State) : Host.Outcome State Fault Refusal := onHw s (fun h => h.mboxSent m.val)

/-- MSG. -/
def execMboxMsg (s : State) : Host.Outcome State Fault Refusal := .next s.mboxMsg

/-- NAK. -/
def execMboxNak (s : State) : Host.Outcome State Fault Refusal := onHw s (fun h => h.mboxNaked)

/-- MRXDONE: a write of MRXDONE of the requester's mailbox, with DONE. -/
def execMboxRxdone (w : Requester) (s : State) : Host.Outcome State Fault Refusal :=
  .next (s.direct w pMBOX 0x13 (fun t => t.mboxWrite 0x13 (s.hw.chsel pMBOX w) (w40 8)))

end Sys2Proof.Machine
end

