-- ==== Sys2Proof/Machine/Eth.lean ====
section
/-! DEFINITION. The Ethernet ports: filters, the firmware rings, timestamps, one-step messages and MDIO (R588 to R592,
R601). Frames are lists of bytes from the destination address on, without their FCS. -/

namespace Sys2Proof.Machine

open Sys2Proof

/-! ## Bytes of a frame -/

/-- A number in `n` bytes, big-endian, and the bytes of a number. -/
def beNat (bs : List Nat) : Nat := bs.foldl (fun a b => a * 256 + b % 256) 0
def beBytes (n v : Nat) : List Nat := (List.range n).map (fun i => v / 256 ^ (n - 1 - i) % 256)

/-- The big-endian number in `n` bytes at an offset of a frame. -/
def beAt (bs : List Nat) (o n : Nat) : Nat := beNat ((bs.drop o).take n)

/-- The little-endian number in `n` bytes at an offset, and the bytes of a number. -/
def leAt (bs : List Nat) (o n : Nat) : Nat := beNat ((bs.drop o).take n).reverse
def leBytes (n v : Nat) : List Nat := (List.range n).map (fun i => v / 256 ^ i % 256)

/-- The frame with bytes replaced from an offset on. -/
def putBytes (bs : List Nat) (o : Nat) (x : List Nat) : List Nat := bs.take o ++ x ++ bs.drop (o + x.length)

/-- R4, R590. Bytes packed 5 per word. -/
def packWords (bs : List Nat) : List Word :=
  (List.range ((bs.length + 4) / 5)).map (fun i => wordOfBytes ((bs.drop (5 * i)).take 5))

/-- The internet checksum's sum over bytes, and the value that makes a sum good. -/
def sum16 (bs : List Nat) : Nat :=
  (List.range ((bs.length + 1) / 2)).foldl (fun a i => a + bs.getD (2 * i) 0 * 256 + bs.getD (2 * i + 1) 0) 0
def oneSum (n : Nat) : Nat := if n = 0 then 0 else (n - 1) % 65535 + 1

/-- The EtherType and the offset of what follows it, past one VLAN tag. -/
def etherType (bs : List Nat) : Nat × Nat := if beAt bs 12 2 = 0x8100 then (beAt bs 16 2, 18) else (beAt bs 12 2, 14)

/-- A UDP datagram in a frame: IPv6 or not, the offsets of its IP and UDP headers, and its UDP length. -/
structure UdpAt where
  v6 : Bool
  l3 : Nat
  l4 : Nat
  len : Nat
deriving DecidableEq, Repr

/-- The whole UDP datagram a frame carries over IPv4 (not a fragment) or IPv6. -/
def udpAt (bs : List Nat) : Option UdpAt :=
  let (t, o) := etherType bs
  let ver := bs.getD o 0 / 16
  let fits (u : UdpAt) : Option UdpAt := if 8 ≤ u.len ∧ u.l4 + u.len ≤ bs.length then some u else none
  if t = 0x0800 ∧ ver = 4 ∧ bs.getD (o + 9) 0 = 17 ∧ beAt bs (o + 6) 2 % 0x4000 = 0 ∧ 5 ≤ bs.getD o 0 % 16 then
    let l4 := o + bs.getD o 0 % 16 * 4
    fits ⟨false, o, l4, beAt bs (l4 + 4) 2⟩
  else if t = 0x86DD ∧ ver = 6 ∧ bs.getD (o + 6) 0 = 17 then fits ⟨true, o, o + 40, beAt bs (o + 44) 2⟩
  else none

/-- The sum a UDP checksum covers: the pseudo-header and the datagram. -/
def udpSum (bs : List Nat) (u : UdpAt) : Nat :=
  let addrs := if u.v6 then (bs.drop (u.l3 + 8)).take 32 else (bs.drop (u.l3 + 12)).take 8
  sum16 addrs + 17 + u.len + sum16 ((bs.drop u.l4).take u.len)

/-- A UDP checksum is good; over IPv4 one of 0 stands for none. -/
def udpGood (bs : List Nat) (u : UdpAt) : Bool :=
  (!u.v6 && beAt bs (u.l4 + 6) 2 == 0) || (beAt bs (u.l4 + 6) 2 != 0 && oneSum (udpSum bs u) == 65535)

/-- The frame with its UDP checksum computed. -/
def udpInsert (bs : List Nat) (u : UdpAt) : List Nat :=
  let z := putBytes bs (u.l4 + 6) [0, 0]
  let c := 65535 - oneSum (udpSum z u)
  putBytes z (u.l4 + 6) (beBytes 2 (if c = 0 then 65535 else c))

/-- The frame with its IPv4 header checksum computed. -/
def ipInsert (bs : List Nat) : List Nat :=
  let (t, o) := etherType bs
  if t = 0x0800 ∧ bs.getD o 0 / 16 = 4 then
    let z := putBytes bs (o + 10) [0, 0]
    putBytes z (o + 10) (beBytes 2 (65535 - oneSum (sum16 ((z.drop o).take (bs.getD o 0 % 16 * 4)))))
  else bs

/-! ## Receiving (R589, R590) -/

/-- R589. The destination address is accepted.
DEDUCED, unsafe: log entry 118.
DEDUCED, unsafe: log entry 119. -/
def Hw.macAccept (h : Hw) (k dst : Nat) : Bool :=
  h.b (pETH k) 0 ETH_CTRL_PROMISC || dst == 2 ^ 48 - 1 ||
    dst == h.f (pETH k) 0 ETH_MAC_H_MAC * 2 ^ 40 + h.f (pETH k) 0 ETH_MAC_L_MAC ||
    h.regs.any (fun e => e.1.cl == devCl && e.1.idx == 0x03C + k && e.1.off == 0x11 && bitOf e.2.toNat 8 &&
      dst == e.2.toNat % 256 * 2 ^ 40 + h.f (pETH k) e.1.ch ETH_MCAST_L_MAC)

/-- R589. The VLAN filter accepts the frame. -/
def Hw.vlanAccept (h : Hw) (k : Nat) (bs : List Nat) : Bool :=
  !h.b (pETH k) 0 ETH_VLAN_EN || beAt bs 12 2 != 0x8100 || beAt bs 14 2 % 4096 == h.f (pETH k) 0 ETH_VLAN_VID

/-- R593, R594. A client's session message: a good header, and a type that a client sends. Anything else is not one. -/
def svcMessage (bs : List Nat) : Bool :=
  leAt bs 0 2 == 0x5347 && leAt bs 2 1 == 1 && leAt bs 6 2 + 16 == bs.length && [1, 3, 6, 7].contains (leAt bs 3 1)

/-- R601. The service addresses of a port. -/
def Hw.ipv6 (h : Hw) (k : Nat) : Nat := (List.range 4).foldl (fun n i => n + h.f (pETH k) 0 (ETH_IPV6_ADDR i) * 2 ^ (32 * i)) 0

/-- R589. The datagram a frame brings to the service engine. -/
def Hw.toService (h : Hw) (k : Nat) (bs : List Nat) : Option Dgram :=
  match udpAt bs with
  | none => none
  | some u =>
    let dst := if u.v6 then beAt bs (u.l3 + 24) 16 else beAt bs (u.l3 + 16) 4
    let mine := if u.v6 then h.ipv6 k else h.f (pETH k) 0 ETH_IPV4_ADDR
    if beAt bs (u.l4 + 2) 2 = h.f pSVC 0 SVC_PORT_UDP ∧ dst = mine ∧ udpGood bs u then
      some ⟨k, u.v6, if u.v6 then beAt bs (u.l3 + 8) 16 else beAt bs (u.l3 + 12) 4, beAt bs u.l4 2,
        (bs.drop (u.l4 + 8)).take (u.len - 8)⟩
    else none

/-- A word of device SRAM, as the rings address it. -/
def Hw.sramOk (h : Hw) (a : Nat) : Bool := decide (0x04000000 ≤ a) && decide (a < 0x04200000) && !h.memStopped a
def State.sramRd (s : State) (a : Nat) : Word := if s.hw.sramOk a then s.rd a else 0
def State.sramWr (s : State) (a : Nat) (v : Word) : State := if s.hw.sramOk a then s.wr a v else s
def State.sramList (s : State) (a : Nat) (vs : List Word) : State :=
  match vs with
  | [] => s
  | v :: rest => (s.sramWr a v).sramList (a + 1) rest

/-- A frame is dropped and counted. -/
def Hw.ethDrop (h : Hw) (k : Nat) : Hw := (h.incF (pETH k) 0 ETH_DROP_CNT_COUNT).irqBit (pETH k) ETH_IRQ_DROP 0

/-- R590. A frame goes to the receive ring with its timestamp, or is dropped for want of room. -/
def State.ethStore (s : State) (k : Nat) (bs : List Nat) (t : Nat) : State :=
  let p := pETH k
  let h := s.hw
  let size := h.f p 0 ETH_RXSIZE_WORDS
  let base := h.f p 0 ETH_RXBASE_ADDR
  let wr := h.f p 0 ETH_RXWR_PTR
  let need := 3 + (bs.length + 4) / 5
  let used := if size = 0 then 0 else ((wr : Int) - h.f p 0 ETH_RXRD_PTR) % (size : Int) |>.toNat
  let skip := if wr + need ≤ size then 0 else size - wr
  if size = 0 ∨ size < need ∨ size - used - 1 < skip + need then s.on (fun h => h.ethDrop k)
  else
    let ok := match udpAt bs with | some u => udpGood bs u | none => false
    let at' := if skip = 0 then wr else 0
    let s := if skip = 0 then s else s.sramWr (base + wr) (w40 (2 ^ 39))
    let s := s.sramList (base + at' + 1) (w40 t :: w40 (t / 2 ^ 40 % 2 ^ 24) :: packWords bs)
    let s := s.sramWr (base + at') (w40 (b2n ok * 2 ^ 38 + 2 ^ 16 + bs.length))
    s.on (fun h =>
      let h := (h.setF p 0 ETH_RXWR_PTR ((at' + need) % size)).incF p 0 ETH_RX_CNT_COUNT
      h.irqBit p ETH_IRQ_RX 0)

/-- R589. A frame has arrived on an enabled port. A filtered frame is dropped but not counted. -/
def State.ethReceive (s : State) (k : Nat) (bs : List Nat) (fcs : Bool) (fine : Nat) : State :=
  let h := s.hw
  if !h.b (pETH k) 0 ETH_CTRL_EN || !h.domainRuns (46 + k) then s
  else if !fcs || bs.length < 60 || 1518 < bs.length then s.on (fun h => h.ethDrop k)
  else if !h.macAccept k (beAt bs 0 6) || !h.vlanAccept k bs then s.on (fun h => h.irqBit (pETH k) ETH_IRQ_DROP 0)
  else match h.toService k bs with
    | some g => s.on (fun h =>
      let h := h.incF (pETH k) 0 ETH_RX_CNT_COUNT
      if h.b pSVC 0 SVC_CTRL_EN && h.domainRuns 33 && svcMessage g.bytes then { h with svcq := h.svcq ++ [g] } else h)
    | none => s.ethStore k bs (h.domTime + fine)

/-! ## Sending (R590 to R592) -/

/-- R592. The one-step update of a PTP message at `o`, with its egress time. -/
def ptpUpdate (bs : List Nat) (o d : Nat) (ofs : Int) : List Nat :=
  let ns : Int := ofs + (5 * d / 128 : Nat)
  let sec := unsx 48 (ns / 1000000000)
  let bs := putBytes bs (o + 34) (beBytes 6 sec ++ beBytes 4 (ns % 1000000000).toNat)
  putBytes bs (o + 8) (beBytes 8 ((beAt bs (o + 8) 8 + 5 * d % 128 * 512) % 2 ^ 64))

/-- R591. A timestamp is pushed; a full FIFO loses its oldest. -/
def Hw.txtsPush (h : Hw) (k tag t : Nat) : Hw :=
  let q := h.txts.at [] k
  let h := if 16 ≤ q.length then h.irqBit (pETH k) ETH_IRQ_TXTS_OVF 0 else h
  { h with txts := h.txts.set [] k (q.drop (q.length - 15) ++ [({ tag := tag, time := t } : TxStamp)]) }.irqBit (pETH k) ETH_IRQ_TXTS 0

/-- R590 to R592. The frame of a transmit record, as it leaves at time `d`. -/
def Hw.txFrame (h : Hw) (k : Nat) (w0 d : Nat) (bs : List Nat) : List Nat :=
  let bs := if bitOf w0 38 then
      let bs := ipInsert bs
      match udpAt bs with | some u => udpInsert bs u | none => bs
    else bs
  if bitOf w0 17 then
    let ofs := sx 64 (h.f (pETH k) 0 ETH_PTPOFS_L_NS + h.f (pETH k) 0 ETH_PTPOFS_H_NS * 2 ^ 40)
    let bs := ptpUpdate bs (bitsOf w0 18 10) d ofs
    match udpAt bs with | some u => udpInsert bs u | none => bs
  else bs

/-- R590. The record at TXRD, past a word 0 with WRAP, and its offset. -/
def State.txRecord (s : State) (k : Nat) : Option (Nat × Nat) :=
  let p := pETH k
  let rd := s.hw.f p 0 ETH_TXRD_PTR
  let wr := s.hw.f p 0 ETH_TXWR_PTR
  let word (o : Nat) : Nat := (s.sramRd (s.hw.f p 0 ETH_TXBASE_ADDR + o)).toNat
  if s.hw.f p 0 ETH_TXSIZE_WORDS = 0 ∨ rd = wr then none
  else if bitOf (word rd) 39 then (if wr = 0 then none else some (0, word 0))
  else some (rd, word rd)

/-- R590. The port sends its next transmit record; the stamp falls `fine` steps into the DTIME cycle. -/
def State.ethTransmit (s : State) (k fine : Nat) : State :=
  let p := pETH k
  if !s.hw.b p 0 ETH_CTRL_EN || !s.hw.domainRuns 45 then s
  else match s.txRecord k with
    | none => s
    | some (o, w0) =>
      let len := w0 % 65536
      let size := s.hw.f p 0 ETH_TXSIZE_WORDS
      let n := (len + 4) / 5
      let d := s.hw.domTime + fine
      let bs := (((List.range n).map (fun i => s.sramRd (s.hw.f p 0 ETH_TXBASE_ADDR + o + 1 + i))).flatMap wordBytes).take len
      s.on (fun h =>
        let h := if len < 60 ∨ 1518 < len then h
          else
            let h := (h.emit (.eth k (h.txFrame k w0 d bs))).incF p 0 ETH_TX_CNT_COUNT
            if bitOf w0 16 then h.txtsPush k (bitsOf w0 28 8) d else h
        h.setF p 0 ETH_TXRD_PTR ((o + 1 + n) % size))

/-! ## Registers -/

/-- R591. TXTS_L and TXTS_H as the oldest entry makes them. -/
def Hw.txtsHead (h : Hw) (k : Nat) : Word × Word :=
  match h.txts.at [] k with
  | [] => (0, 0)
  | x :: _ => (w40 x.time, w40 (2 ^ 32 + x.tag % 256 * 2 ^ 24 + x.time / 2 ^ 40 % 2 ^ 24))

/-- R591. A read of TXTS_L by a requester. -/
def Hw.txtsRead (h : Hw) (k : Nat) (r : Requester) : Hw × Word :=
  let x := h.txtsHead k
  let h := h.setPair (pETH k) 0x90 0 r { h.pair (pETH k) 0x90 0 r with cap := some x.2 }
  ({ h with txts := h.txts.set [] k ((h.txts.at [] k).drop 1) }, x.1)

/-- R601. A write of MDIO. -/
def Hw.mdioWrite (h : Hw) (d : Word) : Hw :=
  if h.b (pETH 0) 0 ETH_MDIO_STAT_BUSY then h
  else { h.setF (pETH 0) 0 ETH_MDIO_STAT_BUSY 1 with mdioRead := bitOf d.toNat 39 }.emit (.mdio d)

/-- R601. The MDIO frame ends. -/
def Hw.mdioDone (h : Hw) (data : Nat) : Hw :=
  if !h.b (pETH 0) 0 ETH_MDIO_STAT_BUSY then h
  else
    let h := h.setF (pETH 0) 0 ETH_MDIO_STAT_BUSY 0
    if h.mdioRead then h.setF (pETH 0) 0 ETH_MDIO_STAT_DATA data else h

/-- R601. A port gains or loses block lock or a high bit error rate. -/
def Hw.ethLink (h : Hw) (k : Nat) (lock hiBer : Bool) : Hw :=
  let p := pETH k
  let was := h.b p 0 ETH_STATUS_LINK
  let h := (h.setB p 0 ETH_STATUS_HI_BER hiBer).setB p 0 ETH_STATUS_BLOCK_LOCK lock
  let h := h.setB p 0 ETH_STATUS_LINK (lock && !hiBer)
  if was = (lock && !hiBer) then h else h.irqBit p ETH_IRQ_LINK_CHG 0

/-- R601. The pairs of an ETH page (R43), whose high word commits both. -/
def ethPairHigh (off : Nat) : Bool := off == 0x11 || off == 0x81 || off == 0x93

/-- R601. Effect of an accepted page write to ETHk. MDIO exists in ETH0 only. -/
def Hw.ethWrite (h : Hw) (k off ch : Nat) (r : Requester) (d : Word) : Hw :=
  let p := pETH k
  if off = 0x10 ∨ off = 0x80 ∨ off = 0x92 then h.pairHold p off ch r d
  else if ethPairHigh off then (h.plainWrite p (off - 1) ch (h.pairLowWord p (off - 1) ch r)).plainWrite p off ch d
  else if off = 0x98 then (if k = 0 then h.mdioWrite d else h)
  else h.plainWrite p off ch d

/-! ## The commands -/

/-- ETH_FRAME_RECEIVE: a frame's bytes without the FCS, whether the FCS checks, and where its stamp falls in the cycle. -/
def execEthFrameReceive (k : Fin 2) (bytes : List (BitVec 8)) (fcs : Bool) (fine : Fin 64) (s : State) :
    Host.Outcome State Fault Refusal := .next (s.ethReceive k.val (bytes.map (·.toNat)) fcs fine.val)

/-- ETH_FRAME_TRANSMIT: port `k` sends its next record. -/
def execEthFrameTransmit (k : Fin 2) (fine : Fin 64) (s : State) : Host.Outcome State Fault Refusal :=
  .next (s.ethTransmit k.val fine.val)

/-- TXTS_READ: a read of TXTS_L; a page that cannot be reached returns 0. -/
def execTxtsRead (w : Requester) (k : Fin 2) (s : State) : Host.Outcome State Fault Refusal :=
  onHw s (fun h =>
    if h.mayRead (h.acc w) (pETH k.val) then
      let x := (h.granted (h.acc w) (pETH k.val)).txtsRead k.val w
      { x.1 with resp := [x.2] }
    else { h with resp := [0] })

/-- MDIO_WRITE: a write of MDIO. -/
def execMdioWrite (w : Requester) (d : Word) (s : State) : Host.Outcome State Fault Refusal :=
  onHw s (fun h => h.direct w (pETH 0) 0x98 (fun h => h.mdioWrite d))

/-- MDIO_DONE, with the data a read brought. -/
def execMdioDone (data : BitVec 16) (s : State) : Host.Outcome State Fault Refusal := onHw s (fun h => h.mdioDone data.toNat)

/-- ETH_LINK_CHG. -/
def execEthLinkChg (k : Fin 2) (lock hiBer : Bool) (s : State) : Host.Outcome State Fault Refusal :=
  onHw s (fun h => h.ethLink k.val lock hiBer)

end Sys2Proof.Machine
end

