-- ==== Sys2Proof/Machine/Svc.lean ====
section
/-! DEFINITION. Service sessions, but for reading their signals (R593 to R598, R602). -/

namespace Sys2Proof.Machine

open Sys2Proof

/-! ## Messages -/

/-- R593. A message's header and payload. -/
def svcBytes (type session seq status : Nat) (payload : List Nat) : List Nat :=
  leBytes 2 0x5347 ++ [1, type] ++ leBytes 2 session ++ leBytes 2 payload.length ++ leBytes 4 seq ++ leBytes 2 status ++
    [0, 0] ++ payload

/-- Session `i`. -/
def Hw.session (h : Hw) (i : Nat) : Option Session := h.sess.at none i
def Hw.setSession (h : Hw) (i : Nat) (x : Option Session) : Hw := { h with sess := h.sess.set none i x }

/-- The numbers of the open sessions. -/
def Hw.openSessions (h : Hw) : List Nat := h.sess.map (·.1)

/-- The session a datagram comes from. -/
def Session.from (x : Session) (g : Dgram) : Bool := x.port == g.port && x.v6 == g.v6 && x.addr == g.addr && x.udp == g.udp

/-- A message of session `i` to its client; it takes a SEQ. -/
def Hw.svcSend (h : Hw) (i : Nat) (type status : Nat) (payload : List Nat) : Hw :=
  match h.session i with
  | none => h
  | some x =>
    (h.setSession i (some { x with seq := (x.seq + 1) % 2 ^ 32 })).emit
      (.dgram x.port x.v6 x.addr x.udp (svcBytes type i x.seq status payload))

/-- R595, R602. A datagram is answered with ERROR, outside any session's count. -/
def Hw.svcError (h : Hw) (g : Dgram) (status : Nat) : Hw :=
  (h.incF pSVC 0 SVC_BAD_CNT_COUNT).emit (.dgram g.port g.v6 g.addr g.udp (svcBytes 8 (leAt g.bytes 4 2) 0 status []))

/-- A session ends. -/
def Hw.svcEnd (h : Hw) (i : Nat) : Hw :=
  if (h.session i).isSome then ((h.setSession i none).setReg pSVC 0x10 i 0).irqBit pSVC SVC_IRQ_CLOSED 0 else h

/-- R595, R602. The device closes a session and says why. -/
def Hw.svcShut (h : Hw) (i status : Nat) : Hw := (h.svcSend i 7 status []).svcEnd i

/-- The oldest datagram that waits, when it is of a type. -/
def Hw.svcTake (h : Hw) (type : Nat) : Option (Dgram × Hw) :=
  match h.svcq with
  | [] => none
  | g :: rest => if leAt g.bytes 3 1 = type && h.domainRuns 33 then some (g, { h with svcq := rest }) else none

/-- R595. A datagram that names a session goes to it, or is answered with ERROR. -/
def Hw.svcNamed (h : Hw) (g : Dgram) (eff : Nat → Session → Hw → Hw) : Hw :=
  let i := leAt g.bytes 4 2
  match h.session i with
  | none => h.svcError g 8
  | some x =>
    if x.from g then
      let x := { x with heard := h.now }
      eff i x (h.setSession i (some x))
    else h.svcError g 9

/-! ## OPEN -/

/-- R594. PERIOD, in units of 10 ns, of the tick configuration that governs now. -/
def Hw.tickPeriod (h : Hw) : Nat := match governing h.dom.configs h.domTime with | some c => c.period | none => 0

/-- R602. MAXSESS as it acts. -/
def Hw.maxSess (h : Hw) : Nat := min 4096 (h.f pSVC 0 SVC_MAXSESS_N)

/-- R595. An OPEN is refused.
DEDUCED, unsafe: log entry 120. -/
def Hw.openRefuse (h : Hw) (g : Dgram) (status : Nat) : Hw := (h.svcError g status).irqBit pSVC SVC_IRQ_OPEN_REF 0

/-- R595. The oldest datagram, when it is an OPEN, is handled. -/
def Hw.svcOpen (h : Hw) : Hw :=
  match h.svcTake 1 with
  | none => h
  | some (g, h) =>
    let keep := leAt g.bytes 20 2
    let free := (List.range 4096).find? (fun i => (h.session i).isNone)
    if g.bytes.length ≠ 24 then h.openRefuse g 5
    else if h.b pSVC 0 SVC_CTRL_AUTH && leAt g.bytes 16 4 != h.svcAccess then h.openRefuse g 6
    else if h.maxSess ≤ h.openSessions.length then h.openRefuse g 7
    else if keep < 10 ∨ 60000 < keep ∨ leAt g.bytes 22 2 ≠ 0 then h.openRefuse g 5
    else match free with
      | none => h.openRefuse g 7
      | some i =>
        let h := h.setSession i (some { port := g.port, v6 := g.v6, addr := g.addr, udp := g.udp, keep := keep, heard := h.now })
        let h := h.setReg pSVC 0x10 i (w40 (2 ^ 39 + g.port * 2 ^ 38 + b2n g.v6 * 2 ^ 37))
        h.svcSend i 2 0 (leBytes 4 h.tickPeriod ++ leBytes 5 h.tick ++ [h.f pDOM 0 DOM_VER_DLEVEL] ++ leBytes 2 h.nodeId ++
          leBytes 2 200 ++ [0, 0])

/-! ## SUBSCRIBE -/

/-- R354, R594. The service engine may read the word at an address. -/
def svcReadable (a : Nat) : Bool :=
  match placeOf .service a with
  | .unmapped => false
  | .page p _ => match pageInfo p with | some i => 2 ≤ i.rfloor | none => false
  | .word g => match memKind g with
    | .csram => true | .loopMem => true | .dsram => true | .dram => true | _ => false

/-- R594. The reference in 8 bytes, or the status it fails with. -/
def Hw.svcRef (h : Hw) (bs : List Nat) : SvcRef × Nat :=
  let a := leAt bs 4 4
  match leAt bs 0 1 with
  | 0 => (.loc a, if leAt bs 1 3 = 0 ∧ svcReadable a then 0 else 1)
  | 1 =>
    let n := leAt bs 2 2
    (.snap n a,
      if !h.assembles then 3 else if leAt bs 1 1 = 0 ∧ n < 16383 ∧ 1 ≤ a ∧ a < 8 * h.dom.stride then 0 else 1)
  | _ => (.loc 0, 1)

/-- R602. SSTAT of an open session. -/
def Session.stat (x : Session) : Word :=
  w40 (2 ^ 39 + x.port * 2 ^ 38 + b2n x.v6 * 2 ^ 37 +
    b2n (x.refs.any (fun r => match r with | .snap _ _ => true | .loc _ => false)) * 2 ^ 36 + x.refs.length * 2 ^ 28 +
    x.dec * 2 ^ 12)

/-- R594, R595. What a SUBSCRIBE asks for, or its failing status and the index of the first failing reference. -/
def Hw.svcParse (h : Hw) (bs : List Nat) : Except (Nat × Nat) (Nat × Nat × List SvcRef) :=
  let dec := leAt bs 16 2
  let phase := leAt bs 18 2
  let count := leAt bs 20 2
  if bs.length < 24 ∨ leAt bs 22 2 ≠ 0 ∨ bs.length ≠ 24 + 8 * count then .error (5, 0xFFFF)
  else if 200 < count then .error (2, 0xFFFF)
  else if dec = 0 ∨ dec ≤ phase then .error (4, 0xFFFF)
  else
    let rs := (List.range count).map (fun i => h.svcRef ((bs.drop (24 + 8 * i)).take 8))
    match (List.range count).find? (fun i => (rs.getD i (.loc 0, 0)).2 != 0) with
    | some i => .error ((rs.getD i (.loc 0, 0)).2, i)
    | none => .ok (dec, phase, rs.map (·.1))

/-- R594. A SUB_ACK. -/
def Hw.subAck (h : Hw) (i status index : Nat) : Hw := h.svcSend i 4 status (leBytes 2 index ++ [0, 0])

/-- R595. A SUBSCRIBE of session `i`. -/
def Hw.svcApply (h : Hw) (g : Dgram) (i : Nat) (x : Session) : Hw :=
  let seq := leAt g.bytes 8 4
  let newer : Bool := match x.subSeq with
    | none => true
    | some l => decide (1 ≤ (seq + 2 ^ 32 - l) % 2 ^ 32) && decide ((seq + 2 ^ 32 - l) % 2 ^ 32 < 2 ^ 31)
  if !newer then h.subAck i 0 0xFFFF
  else match h.svcParse g.bytes with
    | .error (status, index) => h.subAck i status index
    | .ok (dec, phase, refs) =>
      let x := { x with subSeq := some seq, dec := dec, phase := phase, refs := refs, due := none }
      ((h.setSession i (some x)).setReg pSVC 0x10 i x.stat).subAck i 0 0xFFFF

/-- R595. The oldest datagram, when it is a SUBSCRIBE, is handled. -/
def Hw.svcSubscribe (h : Hw) : Hw :=
  match h.svcTake 3 with
  | none => h
  | some (g, h) => h.svcNamed g (fun i x h => h.svcApply g i x)

/-- R595. The oldest datagram, when it is a KEEPALIVE: a valid message of its session. -/
def Hw.svcKeep (h : Hw) : Hw :=
  match h.svcTake 6 with
  | none => h
  | some (g, h) => h.svcNamed g (fun _ _ h => h)

/-- R595. Three keepalive periods without a valid message: the session closes. -/
def Hw.svcTimeout (h : Hw) (i : Nat) : Hw :=
  match h.session i with
  | none => h
  | some x => if h.domainRuns 33 && decide (x.heard + 1200000 * x.keep ≤ h.now) then h.svcShut i 10 else h

/-- R594. The oldest datagram, when it is a CLOSE, is handled. -/
def Hw.svcClosed (h : Hw) : Hw :=
  match h.svcTake 7 with
  | none => h
  | some (g, h) => h.svcNamed g (fun i _ h => h.svcEnd i)

/-! ## Ticks and registers -/

/-- R597, R598. Tick `n` fires: the sessions it is a tick of owe a DATA; one still owed from before is discarded. -/
def Hw.svcTick (h : Hw) (n : Nat) : Hw :=
  h.openSessions.foldl (fun h i =>
    match h.session i with
    | none => h
    | some x =>
      if x.refs.isEmpty || n % x.dec != x.phase then h
      else
        let h := if x.due.isNone then h
          else (h.incF pSVC 0 SVC_SKIP_CNT_COUNT).irqBit pSVC SVC_IRQ_SKIP 0
        h.setSession i (some { x with due := some n, skip := x.skip || x.due.isSome })) h

/-- R531, R597. Domain time has reached the time of an unfired tick; the service engine takes the tick too. -/
def State.tick (s : State) : State :=
  let s' := s.domTick
  if s'.hw.tick != s.hw.tick || s'.hw.dom.fired != s.hw.dom.fired then s'.on (fun h => h.svcTick h.tick) else s'

/-- R602. Effect of an accepted page write to SVC. -/
def Hw.svcWrite (h : Hw) (off ch : Nat) (d : Word) : Hw :=
  let h := h.plainWrite pSVC off ch d
  if off = 2 ∧ !h.b pSVC 0 SVC_CTRL_EN then
    { h.openSessions.foldl (fun h i => h.svcShut i 11) h with svcq := [] }
  else if off = 0x12 ∧ bitOf d.toNat 0 then h.svcShut ch 11
  else if off = 0x81 then { h with svcAccess := d.toNat % 2 ^ 32 }
  else h

/-! ## The commands -/

/-- TICK. -/
def execDomTick (s : State) : Host.Outcome State Fault Refusal := .next s.tick

/-- OPEN. -/
def execSvcOpen (s : State) : Host.Outcome State Fault Refusal := onHw s (fun h => h.svcOpen)

/-- SUBSCRIBE. -/
def execSvcSubscribe (s : State) : Host.Outcome State Fault Refusal := onHw s (fun h => h.svcSubscribe)

/-- KEEPALIVE. -/
def execSvcKeepalive (s : State) : Host.Outcome State Fault Refusal := onHw s (fun h => h.svcKeep)

/-- CLOSE. -/
def execSvcClose (s : State) : Host.Outcome State Fault Refusal := onHw s (fun h => h.svcClosed)

/-- KEEPALIVE_TIMEOUT of a session: three keepalive periods without a valid message. -/
def execSvcKeepaliveTimeout (i : Fin 4096) (s : State) : Host.Outcome State Fault Refusal :=
  onHw s (fun h => h.svcTimeout i.val)

/-- SCLOSE: a write of SCLOSE of the requester's session, with CLOSE. -/
def execSvcSclose (w : Requester) (s : State) : Host.Outcome State Fault Refusal :=
  onHw s (fun h => h.directCh w pSVC 0x12 (fun ch h => h.svcWrite 0x12 ch 1))

end Sys2Proof.Machine
end

