-- ==== Sys2Proof/Machine/Reset.lean ====
section
/-! DEFINITION. The resets: a cluster's, the device's and the power-on reset, and what each of them leaves (R605 to R612,
R314, R423, R622). -/

namespace Sys2Proof.Machine

open Sys2Proof

/-! ## Cluster reset -/

/-- A bank without the instances lo to lo + n − 1. -/
def Bank.drop (b : Bank α) (lo n : Nat) : Bank α := b.filter (fun e => !(decide (lo ≤ e.1) && decide (e.1 < lo + n)))

/-- R612, R314. Core `i` after a reset of its cluster: at ring 0 at CVEC; a debugger's HALT bit asks again (R662). -/
def Hw.startCore (h : Hw) (i : Nat) : Hw :=
  h.setCore i { pc := h.f pDEV 0 (DEV_CVEC_ADDR (i / 4)), haltReq := h.debugOpen && bitOf (h.f pDBG 0 DBG_HALT_REQ) i }

/-- R605, R611. What a reset of cluster `n` clears: its cores, pages, Loop Engine, Mangle and units. Requests of its own
queue for read-backs and calibrations go with it; BIST requests are the BIST page's. -/
def Hw.clearCluster (h : Hw) (n : Nat) : Hw :=
  let own (r : MaintReq) : Bool := r.kind == 1 || r.kind == 2
  let h := h.setQueue n ((h.queue n).filter (fun r => !own r))
  let h := if (h.running n).any own then h.finish n else h
  { h with
    regs := h.regs.filter (fun e => e.1.cl != n), pairs := h.pairs.filter (fun e => e.1.reg.cl != n),
    rr := h.rr.filter (fun e => e.1.cl != n), cores := h.cores.drop (4 * n) 4,
    flights := h.flights.filter (fun f => f.chan.loc != n && f.cons / 4096 != n),
    seamIn := h.seamIn.drop (4096 * n) 4096,
    adc := h.adc.drop n 1, sdf := h.sdf.drop (8 * n) 8, cmp := h.cmp.drop (8 * n) 8, trk := h.trk.drop (4 * n) 4,
    pwmTb := h.pwmTb.drop (4 * n) 4, pwmCh := h.pwmCh.drop (12 * n) 12, held := h.held.drop (12 * n) 12,
    loopRun := h.loopRun.drop n 1, uc := h.uc.drop (8192 * n) 8192, dicStack := h.dicStack.drop (4 * n) 4,
    dicLine := h.dicLine.drop (256 * n) 256, dicLate := h.dicLate.filter (fun x => x.cl != n),
    wdtPre := h.wdtPre.drop n 1, mch := h.mch.drop (8 * n) 8, mArb := h.mArb.drop n 1,
    due := h.due.filter (fun e => e.2.cluster != n), crWait := h.crWait.filter (fun x => x.1 != n) }

/-- R605, R612. A reset of cluster `n` with its cause as CRCAUSE codes it.
DEDUCED, unsafe: log entry 127. -/
def Hw.clusterReset (h : Hw) (n cause : Nat) : Hw :=
  let h := h.clearCluster n
  let h := (h.setF pRST 0 (RST_CRCAUSE_CAUSE n) cause).incF pRST 0 (RST_CRCNT_COUNT n)
  let auto := bitOf (h.f pDEV 0 DEV_CAUTO_AUTO) n
  let h := h.setF (pCLU n) 0 CLU_STATUS_HELD (if auto then 0 else 0xF)
  let h := (List.range 4).foldl (fun h k => h.startCore (4 * n + k)) h
  [0x00, 0x08, 0x10, 0x18].foldl (fun h p => h.irqUpdate ⟨n, p⟩) h

/-- R606. A command resets cluster `n` at its next page-clock edge; with its clocks stopped the reset waits. -/
def Hw.askCluster (h : Hw) (n cause : Nat) : Hw :=
  if h.clusterRuns n then h.clusterReset n cause
  else { h with crWait := h.crWait.filter (fun x => x.1 != n) ++ [(n, cause)] }

/-- R606. A write of RST.CMD by `r`. -/
def Hw.rstCmd (h : Hw) (r : Requester) (d : Word) : Hw :=
  if bitsOf d.toNat 24 16 ≠ 0x5253 then h
  else if bitOf d.toNat 8 then h.resetRequest (if r = .applier then 5 else 4)
  else (List.range 8).foldl (fun h n => if bitOf d.toNat n then h.askCluster n (if r = .applier then 3 else 2) else h) h

/-- R611. A cluster reset that is due: one that waited for the clock, or the watchdog's. -/
def Hw.clusterResetDue (h : Hw) (n : Nat) : Hw :=
  if !h.clusterRuns n then h
  else match h.crWait.find? (fun x => x.1 == n) with
    | some x => h.clusterReset n x.2
    | none =>
      if h.b (pCWDT n) 0 WDT_STATUS_EXPIRED && h.b (pCLU n) 0 CLU_CTRL_CWDT_RST then h.clusterReset n 1 else h

/-- R612. A write of CGO releases held cores. -/
def Hw.cgo (h : Hw) (d : Word) : Hw :=
  (List.range 32).foldl (fun h i =>
    let bit : Fld := ⟨0x03, 8 + i % 4, 1⟩
    if bitOf d.toNat i && h.b (pCLU (i / 4)) 0 bit then
      (h.setF (pCLU (i / 4)) 0 bit 0).startCore i else h) h

/-! ## Device and power-on reset -/

/-- R605, R423. The pages that a device reset leaves as they are. -/
def survives (k : RegKey) : Bool := k.cl == devCl && (k.idx == 0x005 || k.idx == 0x018 || k.idx == 0x019 || k.idx == 0x01A)

/-- What no reset changes: the model's clock and free values, what has left the device, the flash and LWF arrays, the
pads' levels and supplies, and the levels of the reset and debug balls. Every pin starts as at power-up (R401).
DEDUCED, unsafe: log entry 126. -/
def Hw.physical (h : Hw) : Hw :=
  let bank (g : Hw) (n : Nat) : Hw :=
    (g.setB pPIN 0 (PIN_BANK_VOK n) (h.b pPIN 0 (PIN_BANK_VOK n))).setF pPIN 0 (PIN_BANK_VLVL n) (h.f pPIN 0 (PIN_BANK_VLVL n))
  let g : Hw :=
    { now := h.now, freeNo := h.freeNo, out := h.out, porAt := h.porAt, dom := { holdFrom := some h.now }, pads := h.pads, safeNLow := h.safeNLow,
      resetLow := h.resetLow, porstLow := h.porstLow, perstLow := h.perstLow, tap := h.tap, scan := h.scan,
      dapSticky := h.dapSticky, divSaved := h.divSaved, cpySaved := h.cpySaved, bootPins := h.bootPins, flash := { bad := h.flash.bad, array := h.flash.array } }
  let g := (List.range 9).foldl bank g
  h.pads.foldl (fun g x => g.startPin x.1) g

/-- R605, R423, R610. The hardware after a device reset with these RCAUSE bits, `us` µs after its request. The root PLL
locks anew, the LWF array loads and the boot flow is due. -/
def Hw.deviceReset (h : Hw) (cause us : Nat) : Hw :=
  let g := { h.physical with
    dramBad := h.dramBad, dramWb := h.dramWb, ceCount := h.ceCount, darnerDue := h.darnerDue, darnerNow := h.darnerNow,
    passAt := h.passAt, dramPos := h.dramPos, dramRec := h.dramRec, dramBulk := h.dramBulk, dramTurn := h.dramTurn,
    hamper := h.hamper, maintAt := h.maintAt.filter (fun e => e.1 == 8), rr := h.rr.filter (fun e => survives ⟨e.1.cl, e.1.idx, 0, 0⟩) }
  let kept := h.regs.filter (fun e => survives e.1)
  let g := { g with regs := kept.foldl (fun (m : Sparse RegKey Word) (e : RegKey × Word) => Sparse.put RegKey.rank resetWord m e.1 e.2) g.regs }
  let g := (g.setQueue 8 (h.queue 8)).setRunning 8 (h.running 8)
  let g := (g.setF pDEV 0 DEV_RCAUSE_CAUSE cause).setF pDEV 0 DEV_RCAUSE_DEFER_US (min us (2 ^ 15 - 1))
  { g with bootDue := true }

/-- R604, R610. The hardware after a power-on reset. -/
def Hw.powerOnReset (h : Hw) : Hw :=
  { h.physical.setF pDEV 0 DEV_RCAUSE_CAUSE 1 with porAt := h.now, bootDue := true }

/-- R660. The boot pins are sampled. -/
def Hw.sampleBoot (h : Hw) (pins : Nat) : Hw := { h with bootPins := pins }.setF pDBG 0 DBG_BOOTPINS_PINS pins

/-- Only the flash array is kept: every other memory is as nothing has written it. -/
def State.keepFlash (s : State) (dram : Bool) : State :=
  { s with mem := s.mem.filter (fun e => (decide (0x08000000 ≤ e.1) && decide (e.1 < 0x08800000)) ||
      (dram && decide (0x10000000 ≤ e.1))), tags := if dram then s.tags else [] }

/-- R608. The reset is carried out; SRAM and TCM then read as nothing has written them, and DRAM keeps its words.
DESIGN CHOICE, unsafe: log entry 8. -/
def State.resetDevice (s : State) (cause us pins : Nat) : State :=
  (s.keepFlash true).on (fun h => (h.deviceReset cause us).sampleBoot pins)

/-- R608, R609. The deferral ends: the flash controller and the LWF array are idle. -/
def State.resetDue (s : State) (pins : Nat) : State :=
  let h := s.hw
  if h.b pRST 0 RST_STATUS_PENDING && h.flash.op.isNone && h.flash.erase.isNone && h.flash.lwf.isNone && !h.deep then
    s.resetDevice h.rstCause ((h.now - h.rstAt) / 400) pins
  else s

/-! ## Flash interrupted by a power-on reset -/

/-- R470, R454, R472. What an operation cut short leaves: the words of its group, place or sector as given, by flash
offset, and the LWF array bits that took (R482). -/
def State.cutFlash (s : State) (left : List (Nat × Word)) (got : Nat) : State :=
  let f := s.hw.flash
  let place := s.hw.nextPlace
  let within (o : Nat) : Bool :=
    (match f.op with
     | some (.program w _ _) => w / 4 == o / 4
     | some (.switchErase x) => o / 4096 == x
     | _ => false) ||
    (match f.erase with
     | some e => e.phase == 1 && o / 4096 == e.sector
     | none => false)
  let at' (i : Nat) : Word := match left.find? (fun e => e.1 % 0x800000 == place + i) with | some e => e.2 | none => erasedWord
  let s := (left.filter (fun e => within (e.1 % 0x800000))).foldl (fun s e => s.wr (flashAddr e.1) e.2) s
  let s := match f.op with
    | some (.record r) =>
      s.wrList (flashAddr place) (recordLeft (r.words (s.hw.f pLEDGER 0 LEDGER_SEQ_SEQ)) ((List.range 8).map at'))
    | _ => s
  match f.lwf with
  | some w =>
    if w.recorded then s.on (fun h => { h with flash := { h.flash with array := lwfArray f.array w got true } }) else s
  | none => s

/-- R604. PORST_N falls, or VDD_AON or VDD_CORE browns out (`low`): everything is reset and held; and the reset's end, at
which the boot pins are sampled. -/
def State.powerOn (s : State) (low : Bool) (pins : Nat) (left : List (Nat × Word)) (got : Nat) : State :=
  if low then
    if s.hw.porstLow then s
    else ((s.cutFlash left got).keepFlash false).on (fun h => { h.powerOnReset with porstLow := true })
  else if s.hw.porstLow then s.on (fun h => { h with porstLow := false, porAt := h.now }.sampleBoot pins)
  else s

end Sys2Proof.Machine
end

