-- ==== Sys2Proof/Machine/Boot.lean ====
section
/-! DEFINITION. The boot flow: recovery of the flash state from the ledger, verification of an image slot, and the choice of
the image to start (R472, R613 to R617). -/

namespace Sys2Proof.Machine

open Sys2Proof

/-! ## Ledger recovery (R472) -/

/-- Offset of place `p` of ledger sector `x`. -/
def placeOff (x p : Nat) : Nat := 4096 * x + 8 * p

/-- The 8 words of a place. -/
def State.placeWords (s : State) (x p : Nat) : List Word := (List.range 8).map (fun i => s.fword (placeOff x p + i))

/-- R470. What a place holds. -/
inductive PlaceKind
  | free | torn | valid | invalid
deriving DecidableEq, Repr

/-- R470, R468. A place read by the boot flow; a group that reads uncorrectable makes it invalid. -/
def State.placeKind (s : State) (x p : Nat) : PlaceKind :=
  let ws := s.placeWords x p
  let w (i : Nat) : Word := ws.getD i 0
  if s.hw.flash.badAt (placeOff x p) || s.hw.flash.badAt (placeOff x p + 4) then .invalid
  else if ws.all (fun v => v == erasedWord) then .free
  else if w 0 == erasedWord then .torn
  else if (w 3).toNat == crcWords [w 0, w 1, w 2, w 4, w 5, w 6, w 7] then .valid
  else .invalid

/-- KIND of a record's words. -/
def recKind (ws : List Word) : Nat := bitsOf (ws.getD 0 0).toNat 36 4

/-- R466. The generation of a ledger sector with a valid OPEN record. -/
def State.openGen? (s : State) (x : Nat) : Option Nat :=
  if s.placeKind x 0 = .valid ∧ recKind (s.placeWords x 0) = 6 then some ((s.placeWords x 0).getD 1 0).toNat else none

/-- R466. The active ledger sector: the valid one, or the one of the larger generation. -/
def State.activeLedger (s : State) : Option Nat :=
  match s.openGen? 0, s.openGen? 1 with
  | some a, some b => some (if a < b then 1 else 0)
  | some _, none => some 0
  | none, some _ => some 1
  | none, none => none

/-- R472. With no valid sector, both are erased and OPEN generation 0 is written in sector 0. -/
def State.newLedger (s : State) : State :=
  let s := (s.forget (flashAddr 0) 8192).on (fun h =>
    { h with flash := { h.flash with bad := h.flash.bad.filter (fun g => 8192 ≤ g) } })
  let r := s.hw.record 6 0 0 0 controller .switch
  (s.wrList (flashAddr 0) (r.words 0)).on (fun h => h.setF pLEDGER 0 LEDGER_STATUS_LOST 1)

/-- What the scan of the active sector has found: the sectors of each sort and the last record's SEQ. -/
structure Scan where
  half : List Nat := []
  bad : List Nat := []
  seq : Nat := 0
deriving DecidableEq, Repr

/-- R469. The sectors of a CARRY record. -/
def carried (ws : List Word) : List Nat :=
  let base := (ws.getD 1 0).toNat % 2048
  ((List.range 80).filter (fun i => bitOf (ws.getD (if i < 40 then 2 else 7) 0).toNat (i % 40))).map (fun i => base + i)

/-- R472. One record of the scan, for the sector sets. -/
def Scan.take (x : Scan) (ws : List Word) : Scan :=
  let a0 := (ws.getD 1 0).toNat
  let x := { x with seq := ((ws.getD 0 0).toNat + 1) % 2 ^ 32 }
  match recKind ws with
  | 1 => { x with half := x.half.filter (· != a0) ++ [a0] }
  | 2 =>
    let bad := x.bad.filter (· != a0)
    { x with half := x.half.filter (· != a0), bad := if (ws.getD 2 0).toNat = 1 then bad ++ [a0] else bad }
  | 7 =>
    match a0 / 2 ^ 38 with
    | 1 => { x with half := x.half ++ (carried ws).filter (fun n => !x.half.contains n) }
    | 2 => { x with bad := x.bad ++ (carried ws).filter (fun n => !x.bad.contains n) }
    | _ => x
  | _ => x

/-- R472. The scan of the active sector from place `p` on, until a free place. -/
def State.scanLedger (fuel : Nat) (s : State) (active p : Nat) (x : Scan) : State × Scan :=
  let stop (s : State) : State × Scan :=
    (s.on (fun h => (h.setF pLEDGER 0 LEDGER_NEXT_ADDR (0x08000000 + placeOff active p)).setF pLEDGER 0 LEDGER_STATUS_FREE
      (512 - p)), x)
  match fuel with
  | 0 => stop s
  | fuel + 1 =>
    let ws := s.placeWords active p
    match s.placeKind active p with
    | .free => stop s
    | .valid =>
      let s := if recKind ws = 4 then s.on (fun h => h.setImg ((ws.getD 1 0).toNat % 2) ((ws.getD 2 0).toNat % 8)) else s
      s.scanLedger fuel active (p + 1) (x.take ws)
    | _ => (s.on (fun h => h.irqBit pLEDGER LEDGER_IRQ_TORN 0)).scanLedger fuel active (p + 1) x

/-- The flash controller's records and the erase at hand run to their end, as `e` tells. -/
def State.drain (fuel : Nat) (s : State) (e : BootErase) : State :=
  match fuel with
  | 0 => s
  | fuel + 1 =>
    match s.hw.flash.op, s.hw.flash.erasing with
    | some (.record _), _ => (s.recordDone true []).drain fuel e
    | some (.switchErase _), _ => (s.eraseDone true 0 []).drain fuel e
    | none, some _ => (s.eraseDone e.ok e.us e.left).drain fuel e
    | _, _ => s

/-- R472. REERASE: the sectors are erased one after another. -/
def State.reErase (s : State) (sectors : List Nat) (es : List BootErase) : State :=
  match sectors with
  | [] => s
  | x :: rest => ((s.on (fun h => h.eraseBegin x controller)).drain 100 (es.headD {})).reErase rest (es.drop 1)

/-- R472. The flash state is rebuilt from the ledger. -/
def State.recover (s : State) (rep : BootRep) : State :=
  let s := if s.activeLedger.isNone then s.newLedger else s
  let active := s.activeLedger.getD 0
  let gen := (s.openGen? active).getD 0
  let seq := (((s.placeWords active 0).getD 0 0).toNat + 1) % 2 ^ 32
  let x := s.scanLedger 511 active 1 { seq := seq }
  let policy := s.hw.lwf 4
  let half := if bitOf policy 1 then
      x.2.half ++ rep.weak.filter (fun n => 2 ≤ n && n < 2048 && !x.2.bad.contains n && !x.2.half.contains n)
    else x.2.half
  let s := x.1.on (fun h =>
    let h := ((h.setF pLEDGER 0 LEDGER_STATUS_ACTIVE active).setF pLEDGER 0 LEDGER_GEN_GEN gen).setF pLEDGER 0
      LEDGER_SEQ_SEQ x.2.seq
    let h := half.foldl (fun h n => h.setSector n 1) h
    let h := x.2.bad.foldl (fun h n => h.setSector n 2) h
    let h := if half.all (fun n => x.2.bad.contains n) then h else h.irqBit pFLASH FLASH_IRQ_HALF 0
    let due : Bool := decide (h.f pLEDGER 0 LEDGER_STATUS_FREE ≤ switchAt)
    (h.setFlash { h.flash with switch := due }).flashNext)
  let s := s.drain 100 {}
  if bitOf policy 0 then s.reErase ((List.range 2048).filter (fun n => half.contains n)) rep.erases else s

/-! ## Verification (R614, R615) -/

/-- The first word of a slot, by flash offset. -/
def slotBase (slot : Nat) : Nat := if slot = 0 then 0x8000 else 0x208000

/-- Word `i` of a slot. -/
def State.imgWord (s : State) (slot i : Nat) : Word := s.fword (slotBase slot + i)

/-- R614. A segment of an image. -/
structure Segment where
  src : Nat
  dst : Nat
  count : Nat
deriving DecidableEq, Repr

/-- R614. The segments of a slot's header. -/
def State.segments (s : State) (slot : Nat) : List Segment :=
  (List.range ((s.imgWord slot 4).toNat % 32)).map (fun j =>
    ⟨(s.imgWord slot (5 + 3 * j)).toNat % 2 ^ 23, (s.imgWord slot (6 + 3 * j)).toNat % 2 ^ 32,
      (s.imgWord slot (7 + 3 * j)).toNat % 2 ^ 23⟩)

/-- LEN and RIDX of a slot's header. -/
def State.imgLen (s : State) (slot : Nat) : Nat := (s.imgWord slot 1).toNat % 2 ^ 32
def State.imgRidx (s : State) (slot : Nat) : Nat := (s.imgWord slot 2).toNat % 128

/-- R615. The segments lie from word `lo` on, within LEN, ascending and apart.
DEDUCED, unsafe: log entry 129. -/
def segmentsFit (lo len : Nat) (l : List Segment) : Bool :=
  match l with
  | [] => true
  | x :: rest => decide (lo ≤ x.src) && decide (x.src + x.count ≤ len) && segmentsFit (x.src + x.count) len rest

/-- R615. The ranges a destination may lie in, as core 0 of CC0 sees them. -/
def imageRanges : List (Nat × Nat) :=
  [(0, 0x8000), (0x10000, 0x18000), (0x100000, 0x140000), (0x01000000, 0x02000000), (0x04000000, 0x04200000)]

/-- R613. A word of the boot ROM's copy, by global address. -/
def bootWord (g : Nat) : Bool := 0x01006000 ≤ g && g < 0x01008000

/-- Where address `a` leads for core 0 of CC0, when it leads to memory. -/
def bootTarget (a : Nat) : Option Nat :=
  match placeOf (.core 0) a with
  | .word g => some g
  | _ => none

/-- R615. A segment's destination is permitted. -/
def Segment.lands (x : Segment) : Bool :=
  imageRanges.any (fun r => decide (r.1 ≤ x.dst) && decide (x.dst + x.count ≤ r.2)) &&
    (List.range x.count).all (fun i => !(bootTarget (x.dst + i)).any bootWord)

/-- R615, check 3. -/
def State.layoutOk (s : State) (slot : Nat) : Bool :=
  let len := s.imgLen slot
  let n := (s.imgWord slot 4).toNat % 32
  let l := s.segments slot
  decide (128 ≤ len) && decide (len ≤ 2097152) && decide ((s.imgWord slot 3).toNat % 2 ^ 32 < 0x6000) && decide (1 ≤ n) &&
    decide (n ≤ 16) && segmentsFit 128 len l && l.all Segment.lands

/-- R614. Byte `i` of a header field laid out from word `w` on. -/
def State.fieldBytes (s : State) (slot w : Nat) : List Nat :=
  (List.range 64).map (fun i => bitsOf (s.imgWord slot (w + i / 5)).toNat (8 * (i % 5)) 8)

/-- R615. The bytes that are hashed. -/
def State.hashStream (s : State) (slot : Nat) : List Nat :=
  (List.range (s.imgLen slot)).flatMap (fun i => wordBytes (if 0x50 ≤ i ∧ i ≤ 0x5C then 0 else s.imgWord slot i))

/-- R480. BOOT_KEY_HASH as loaded. -/
def Hw.bootKey (h : Hw) : Nat := (List.range 7).foldl (fun n k => n + (h.reg pLWF (0x11 + k) 1).toNat * 2 ^ (40 * k)) 0

/-- R615. The first failing check of a slot; 0 when it is accepted.
DESIGN CHOICE, safe: log entry 11. -/
def State.verify (s : State) (slot : Nat) : Nat :=
  let h := s.hw
  if h.damaged slot then 1
  else if (s.imgWord slot 0).toNat ≠ 0x4158343038 ∨ bitsOf (s.imgWord slot 1).toNat 32 8 ≠ 1 then 2
  else if !s.layoutOk slot then 3
  else if (List.range (s.imgLen slot)).any (fun i => h.flash.badAt (slotBase slot + i)) then 4
  else if s.imgRidx slot < h.lwf 7 then 5
  else if h.bootKey = 0 then 0
  else if Config.sha256 (s.fieldBytes slot 0x40) ≠ h.bootKey then 6
  else if !Config.ecdsaOk (s.fieldBytes slot 0x40) (s.fieldBytes slot 0x50) (Config.sha256 (s.hashStream slot)) then 7
  else 0

/-- R615. The destination words of a slot's segments take the image, or 0 after a rejection. -/
def State.loadImage (s : State) (slot : Nat) (accepted : Bool) : State :=
  (s.segments slot).foldl (fun s x =>
    (List.range x.count).foldl (fun s i =>
      match bootTarget (x.dst + i) with
      | some g => s.wr g (if accepted then s.imgWord slot (x.src + i) else 0)
      | none => s) s) s

/-! ## The boot flow (R613, R616, R617) -/

/-- The boot flow's access: core 0 of CC0 at ring 0. -/
def bootAcc : Acc := ⟨.core 0, 0⟩

/-- R613. The boot ROM is copied into the ITCM of core 0 of CC0. -/
def State.copyRom (s : State) : State := s.wrList 0x01006000 ((List.range 8192).map Config.bootRom)

/-- R616. The spec does not say what the boot flow leaves in the registers of core 0: free values. -/
def CoreSt.afterBoot (c : CoreSt) (no : Nat) : CoreSt :=
  let w (i : Nat) : Word := Config.freeWord (no + i)
  { c with
    v := (List.range 31).foldl (fun v i => v.set 0 (i + 1) (w i)) c.v
    preds := (w 31).toNat % 128 * 2 + 1
    sat := bitOf (w 32).toNat 0
    aluA := w 33, shfA := w 34, cmpA := w 35, mulA := w 36, macA := w 37, divA := w 38, cpyS := w 39, cpyD := w 40,
    lsuA := w 41, lsuB := w 42, lsuH := w 43, cnsA := w 44, aluR := w 45, shfR := w 46, cmpR := w 47, mulR := w 48,
    divR := w 49, divM := w 50, lsuR := w 51, lsuRh := w 52, cnsR := w 53, cpyR := w 54,
    acc := (List.range 4).map (fun i => dword (w (55 + 2 * i)) (w (56 + 2 * i))) }

/-- R616. Core 0 of CC0 goes on at `pc` at ring 0. -/
def Hw.bootJump (h : Hw) (pc : Nat) : Hw :=
  { h.setCore 0 { (h.core 0).afterBoot h.freeNo with pc := pc, half := false, ring := 0 } with
    freeNo := h.freeNo + 64, bootDue := false }

/-- R617. RECOVERY: core 0 of CC0 waits in sys.wait, somewhere in the boot ROM. -/
def Hw.enterRecovery (h : Hw) : Hw :=
  let pc := 0x6000 + (Config.freeWord (h.freeNo + 63)).toNat % 0x2000
  ((h.bootJump pc).setF pDEV 0 DEV_STATUS_RECOVERY 1).setWaiting 0 true

/-- SEC.BOOTSTAT notes a slot rejected, or the slot started. -/
def Hw.bootReject (h : Hw) (slot cause : Nat) : Hw :=
  h.setF pSEC 0 (if slot = 0 then SEC_BOOTSTAT_CAUSE_A else SEC_BOOTSTAT_CAUSE_B) cause
def Hw.bootStarted (h : Hw) (slot : Nat) : Hw :=
  (h.setF pSEC 0 SEC_BOOTSTAT_SLOT slot).setF pSEC 0 SEC_BOOTSTAT_STARTED 1

/-- R616. The slots are tried in order. -/
def State.tryBoot (s : State) (slots : List Nat) : State :=
  match slots with
  | [] => s.on (fun h => h.enterRecovery)
  | slot :: rest =>
    let cause := s.verify slot
    if cause = 0 then
      (s.loadImage slot true).on (fun h =>
        (((h.imgCmd bootAcc (w40 (slot * 8 + 3))).bootStarted slot).bootJump ((s.imgWord slot 3).toNat % 2 ^ 32)))
    else
      let trial := s.hw.imgRec slot == 1
      let s := if 4 ≤ cause then s.loadImage slot false else s
      let s := s.on (fun h => h.bootReject slot cause)
      (if trial then s.on (fun h => h.imgCmd bootAcc (w40 (slot * 8 + 4))) else s).tryBoot rest

/-- R616. The order in which slots are tried: the slot in TRIAL, PREF, then the other slot if CONFIRMED.
DEDUCED, unsafe: log entry 90. -/
def Hw.bootOrder (h : Hw) : List Nat :=
  let trial := [0, 1].filter (fun x => h.imgRec x == 1)
  let pref := h.prefSlot.toList
  trial ++ pref ++ [0, 1].filter (fun x => h.imgRec x == 3 && !pref.contains x)

/-- R613, R616. The boot flow, once the root PLL is locked and the LWF array is loaded.
DESIGN CHOICE, safe: log entry 9.
DESIGN CHOICE, unsafe: log entry 128. -/
def State.boot (s : State) (rep : BootRep) : State :=
  let h := s.hw
  if h.bootDue && h.released && h.b pCLK 0 CLK_PLL_LOCKED && h.b pLWF 0 LWF_STATUS_LOADED && !h.heldInReset && !h.deep then
    let s := s.copyRom.recover rep
    let s := s.on (fun h =>
      let h := h.setB pSEC 0 SEC_STATUS_SECURE (h.bootKey != 0)
      [0, 1].foldl (fun h x => if h.imgRec x = 2 then h.imgCmd bootAcc (w40 (x * 8 + 4)) else h) h)
    s.tryBoot s.hw.bootOrder
  else s

end Sys2Proof.Machine
end

