-- ==== Sys2Proof/Machine/Power.lean ====
section
/-! DEFINITION. Clocks, resets, safe states, power states, monitors, BIST, image verification, the debugger's halts and the
TAP (R45 to R53, R603 to R638, R658 to R663). -/

namespace Sys2Proof.Machine

open Sys2Proof

/-! ## Clocks -/

/-- R45. The root PLL reports lock: the domains are released.
DEDUCED, unsafe: log entry 122. -/
def Hw.pllLock (h : Hw) : Hw :=
  if h.heldInReset || h.deep || h.b pCLK 0 CLK_PLL_LOCKED || h.b pCLK 0 CLK_PLL_FALLBACK then h
  else (List.range 4).foldl (fun h k => h.portCheck k) { h.setF pCLK 0 CLK_PLL_LOCKED 1 with released := true }

/-- R49. The clock monitor finds the crystal missing (`xtal`) or root lock lost. -/
def Hw.clockFailure (h : Hw) (xtal : Bool) : Hw :=
  if h.heldInReset || h.deep || !(xtal || h.b pCLK 0 CLK_PLL_LOCKED) then h
  else
    let h := if h.b pCLK 0 CLK_PLL_LOCKED then h.setF pCLK 0 CLK_PLL_LOCK_LOST 1 else h
    let h := if xtal then h.setF pCLK 0 CLK_PLL_XTAL_LOST 1 else h
    let h := (h.setF pCLK 0 CLK_PLL_LOCKED 0).setF pCLK 0 CLK_PLL_FALLBACK 1
    (h.safeBegin 0).resetRequest 3

/-- R624. The condition under which domain `d` may be stopped. -/
def Hw.mayGate (h : Hw) (d : Nat) : Bool :=
  let off (k : Nat) : Bool := !h.b (pDL k) 0 DL_CTRL_EN
  let quiet : Bool := !h.b pSEC 0 SEC_VSTAT_BUSY && !h.b pBIST 0 BIST_STATUS_BUSY
  if d = 33 ∨ (45 ≤ d ∧ d ≤ 47) then
    !h.b pSVC 0 SVC_CTRL_EN && !h.b (pETH 0) 0 ETH_CTRL_EN && !h.b (pETH 1) 0 ETH_CTRL_EN
  else if d = 40 then off 0 && off 1 && off 2 && off 3
  else if 41 ≤ d ∧ d ≤ 44 then off (d - 41)
  else if d = 38 ∨ d = 39 then h.perstLow
  else if 50 ≤ d ∧ d ≤ 53 then h.f (pSDF (2 * (d - 50))) 0 SDF_SDMCLK_SRC == 0
  else if d = 54 ∨ d = 55 then true
  else if d = 56 ∨ d = 57 then quiet
  else false

/-- R53, R624. A write of CLK.DOMAIN of domain `d`: GATE = 1 is refused unless the domain may stop.
DEDUCED, unsafe: log entry 124. -/
def Hw.domainWrite (h : Hw) (d : Nat) (w : Word) : Hw × Bool :=
  if bitOf w.toNat 0 && !h.b pCLK 0 LOCK_BIT && !h.mayGate d then (h, false)
  else
    let h := h.plainWrite pCLK 0x10 d w
    (if d = 40 then (List.range 4).foldl (fun h k => h.portCheck k) h else h, true)

/-- Effect of an accepted page write to CLK. -/
def Hw.clkWrite (h : Hw) (off ch : Nat) (d : Word) : Hw × Bool :=
  if off = 0x10 then h.domainWrite ch d else (h.plainWrite pCLK off ch d, true)

/-! ## Safe states -/

/-- R618. SAFE_N's cause follows the ball and TRIP_POLICY. -/
def Hw.safeNFollow (h : Hw) : Hw :=
  let on := h.safeNLow && bitOf (h.lwf 3) 0
  if on then h.safeBegin 2 else if h.b pDEV 0 ⟨3, 4, 1⟩ then h.safeEnd 2 else h

/-- R618. SAFE_N falls: the cause begins 15 ns later, six edges, however short the low pulse. -/
def Hw.safeNFall (h : Hw) : Hw :=
  if h.safeNLow then h else { h with safeNLow := true, safeNAt := some (h.safeNAt.getD (h.now + 6)) }

/-- R618. SAFE_N has been high for 15 ns: the cause ends, no earlier than it begins. -/
def Hw.safeNRise (h : Hw) : Hw :=
  let h := { h with safeNLow := false }
  if h.safeNAt.isSome then h else h.safeNFollow

/-- R618. The edge at which the cause of a fall begins; with the ball high again it ends there.
DEDUCED, unsafe: log entry 170. -/
def Hw.safeNEdge (h : Hw) : Hw :=
  match h.safeNAt with
  | none => h
  | some t =>
    if h.now < t then h
    else
      let h := { h with safeNAt := none }
      (if bitOf (h.lwf 3) 0 then h.safeBegin 2 else h).safeNFollow

/-- R618. A write of DEV.CTRL. -/
def Hw.devCtrl (h : Hw) (d : Word) : Hw :=
  let h := h.plainWrite pDEV 2 0 d
  if h.b pDEV 0 DEV_CTRL_SAFE_SW then h.safeBegin 4 else h.safeEnd 4

/-- R632. Effect of an accepted page write to DEV. -/
def Hw.devWrite (h : Hw) (off : Nat) (d : Word) : Hw :=
  if off = 2 then h.devCtrl d else if off = 0x91 then h.cgo d else h.plainWrite pDEV off 0 d

/-- R633. Effect of an accepted page write to RST by `r`. -/
def Hw.rstWrite (h : Hw) (off : Nat) (r : Requester) (d : Word) : Hw :=
  if off = 0x80 then h.rstCmd r d else h.plainWrite pRST off 0 d

/-- R628, R631. Effect of an accepted page write to CLU of cluster `n`. -/
def Hw.cluWrite (h : Hw) (n off : Nat) (d : Word) : Hw :=
  let was := h.b (pCLU n) 0 CLU_CTRL_SAFE
  let h := h.plainWrite (pCLU n) off 0 d
  if off ≠ 2 then h
  else
    let now := h.b (pCLU n) 0 CLU_CTRL_SAFE
    let h := h.setB (pCLU n) 0 CLU_STATUS_STATE now
    if now && !was then h.forceCluster n else h

/-! ## HALT and DEEP -/

/-- R621. A write of HALT_MASK. -/
def Hw.haltMask (h : Hw) (d : Word) : Hw :=
  (List.range 8).foldl (fun h n =>
    if !bitOf d.toNat n then h.ungate n
    else if h.b pPWR 0 ⟨3, 2 + n, 1⟩ then h else h.setF pPWR 0 ⟨3, 10 + n, 1⟩ 1) (h.plainWrite pPWR 2 0 d)

/-- R620. Every core of cluster `n` that is not held waits. -/
def Hw.allWait (h : Hw) (n : Nat) : Bool :=
  (List.finRange 32).all (fun k => clOf k != n || h.isHeld k || h.isWaiting k)

/-- R621. The conditions of a gating that waits. -/
def Hw.mayHalt (h : Hw) (n : Nat) : Bool :=
  let busy (ch : Nat) : Bool :=
    h.f (pCMANGLE n) ch MANGLE_MCH_STAT_STATE == 2 || h.f (pCMANGLE n) ch MANGLE_MCH_STAT_STATE == 3
  h.b pPWR 0 ⟨3, 10 + n, 1⟩ && h.clusterRuns n && h.allWait n && !(List.range 8).any busy && (h.runOf n).isNone

/-- R621. Cluster `n` is gated at the first edge at which the conditions hold. -/
def Hw.gateCluster (h : Hw) (n : Nat) : Hw :=
  if h.mayHalt n then
    let h := ((h.setF pPWR 0 ⟨3, 10 + n, 1⟩ 0).setF pPWR 0 ⟨3, 2 + n, 1⟩ 1).setF (pCLU n) 0 CLU_STATUS_STATE 3
    h.when h.halted (fun h => h.cmpUnpower)
  else h

/-- R622. What refuses DEEP. -/
def Hw.deepRefused (h : Hw) : Bool :=
  h.flash.op.isSome || h.flash.erase.isSome || h.flash.asked.isSome || h.flash.lwf.isSome ||
    !(List.range 32).any (fun w => h.b pAOW w AOW_WSRC_EN && h.b pAOW w AOW_WSRC_WAKE)

/-- R622. The device enters DEEP: the safe state begins, and all but the flash and the always-on partition is lost. -/
def State.enterDeep (s : State) : State :=
  (s.keepFlash false).on (fun h =>
    let h := if h.deviceSafe then h else h.captureHolds
    let h := (h.setF pDEV 0 DEV_STATUS_SAFE_ACT 1).irqBit pDEV DEV_IRQ_SAFE 0
    let h := ((List.range 8).foldl (fun h c => h.forceCluster c) h).cmpUnpower
    { h with
      deep := true, wakeReq := false, dramBad := [], dramWb := [], ceCount := 0, darnerDue := 0,
      darnerNow := false, passAt := none, dramQ := [], dramPos := 0, dramRec := false, dramBulk := false, dramTurn := 0,
      hamper := {},
      regs := h.regs.filter (fun e => !(survives e.1 && e.1.idx != 0x005)),
      maintQ := h.maintQ.drop 8 1,
      maintRun := h.maintRun.drop 8 1,
      maintAt := h.maintAt.filter (fun e => e.1 != 8) })

/-- R622. A write of PWR.CMD. -/
def State.pwrCmd (s : State) (d : Word) : State :=
  if bitsOf d.toNat 24 16 ≠ 0x4450 ∨ !bitOf d.toNat 0 then s
  else if s.hw.deepRefused then s.on (fun h => h.irqBit pPWR PWR_IRQ_DEEP_REF 0)
  else s.enterDeep

/-- R634. Effect of an accepted page write to PWR. -/
def State.pwrWrite (s : State) (off : Nat) (d : Word) : State :=
  if off = 0x80 then s.pwrCmd d
  else s.on (fun h => if off = 2 then h.haltMask d else h.plainWrite pPWR off 0 d)

/-- R623. A wake request in DEEP, or RESET_N low: a device reset with cause WAKE or PIN. -/
def State.deepWake (s : State) (pins : Nat) : State :=
  let h := s.hw
  if h.deep && (h.wakeReq || h.resetLow) then
    (s.on (fun h => { h with deep := false })).resetDevice (b2n h.resetLow * 2 + b2n h.wakeReq * 64) 0 pins
  else s

/-- R607. RESET_N falls and stays low long enough to be taken, or rises. -/
def State.resetPin (s : State) (low : Bool) (pins : Nat) : State :=
  if low = s.hw.resetLow then s
  else if low then
    s.on (fun h => if h.deep || h.heldInReset then { h with resetLow := true } else { h.resetRequest 1 with resetLow := true })
  else
    s.on (fun h =>
      let held := h.heldInReset
      let h := { h with resetLow := false }
      if held then h.sampleBoot pins else h)

/-! ## Monitors (R630) -/

/-- R630. The value of sensor `s` as its limits compare it: signed for temperatures. -/
def monValue (s n : Nat) : Int := if s < 9 then sx 16 n else (n % 65536 : Nat)

/-- R630. The value of a sensor lies within LO to HI. -/
def Hw.monInside (h : Hw) (s : Nat) : Bool :=
  let v := monValue s (h.f pMON s MON_VALUE_V)
  decide (monValue s (h.f pMON s MON_LO_V) ≤ v) && decide (v ≤ monValue s (h.f pMON s MON_HI_V))

/-- R630. A sample of sensor `s`. Sensor 15 reads 0.
DEDUCED, unsafe: log entry 130. -/
def Hw.monSample (h : Hw) (s v : Nat) : Hw :=
  if !h.domainRuns 59 then h
  else
    let h := h.setF pMON s MON_VALUE_V (if s = 15 then 0 else v)
    if h.monInside s then h
    else
      let h := h.irqBit pMON MON_IRQ_ALARM s
      match h.f pMON s MON_MCFG_ACT with
      | 0 => h
      | 2 => h.resetRequest 7
      | _ => { h.safeBegin 3 with monHold := h.monHold.filter (· != s) ++ [s] }

/-- R618, R636. Effect of an accepted page write to MON: clearing an alarm whose value is back in range ends its cause. -/
def Hw.monWrite (h : Hw) (off ch : Nat) (d : Word) : Hw :=
  let h := h.plainWrite pMON off ch d
  if off ≠ 5 ∨ h.monHold.isEmpty then h
  else
    let l := h.monHold.filter (fun s => !(bitOf d.toNat s && h.monInside s))
    let h := { h with monHold := l }
    if l.isEmpty then h.safeEnd 3 else h

/-! ## BIST (R627 to R629, R637) -/

/-- R625. The queue and the kind of the BIST of target `t`. -/
def bistReq (t : Nat) : Nat × MaintReq :=
  if t < 8 then (t, ⟨3, t⟩) else if t < 32 then ((t - 8) / 3, ⟨4, t⟩) else (10, ⟨4, t⟩)

/-- R637. The words of a memory target: first global address and count. -/
def bistWords (t : Nat) : Nat × Nat :=
  if t < 8 then (0, 0)
  else if t < 32 then
    let b := winBase ((t - 8) / 3)
    match (t - 8) % 3 with
    | 0 => (b, 0x80000)
    | 1 => (b + 0x100000, 0x40000)
    | _ => (b + 0x1C0000, 0x4000)
  else (0x04000000 + (t - 32) * 0x40000, 0x40000)

/-- R627. A request for BIST of target `t`: refused, or queued.
DEDUCED, unsafe: log entry 131. -/
def Hw.bistAsk (h : Hw) (t : Nat) : Hw :=
  let p := pBIST
  let cause := if t < 8 then (if h.f (pCLU t) 0 CLU_STATUS_STATE = 1 then 0 else 1) else (if h.b p t BIST_TCFG_IDLE then 0 else 2)
  if h.b p t BIST_TSTAT_QUEUED || h.b p t BIST_TSTAT_RUNNING then h
  else if cause ≠ 0 then
    ((h.setF p t BIST_TSTAT_CAUSE cause).setF p t BIST_TSTAT_RESULT 3).irqBit p BIST_IRQ_REFUSED 0
  else
    let x := bistReq t
    (h.setF p t BIST_TSTAT_QUEUED 1).enqueue x.1 x.2.kind t

/-- R637. A write of TCFG of target `t`; IDLE is reserved for logic targets. -/
def Hw.bistCfg (h : Hw) (t : Nat) (d : Word) : Hw :=
  let h := if t < 8 then h else h.plainWrite pBIST 0x10 t d
  if bitOf d.toNat 0 then h.bistAsk t else h

/-- R628. The scheduler grants the BIST of target `t`. -/
def Hw.bistGrant (h : Hw) (t : Nat) : Hw :=
  let x := bistReq t
  if h.domainRuns 57 && h.grantable x.1 x.2 (fun _ => true) && (8 ≤ t || h.clusterRuns t) then
    let h := h.grant x.1 x.2
    let h := (h.setF pBIST t BIST_TSTAT_QUEUED 0).setF pBIST t BIST_TSTAT_RUNNING 1
    let h := (h.setF pBIST 0 BIST_STATUS_BUSY 1).setF pBIST 0 BIST_STATUS_TARGET t
    if t < 8 then h.setF (pCLU t) 0 CLU_STATUS_STATE 2 else h
  else h

/-- R628, R629. The BIST of target `t` ends; `fail` is the first failing word address, if any. -/
def State.bistDone (s : State) (t : Nat) (fail : Option Nat) : State :=
  let x := bistReq t
  if s.hw.running x.1 ≠ some x.2 then s
  else
    let s := if t < 8 then s else s.forget (bistWords t).1 (bistWords t).2
    s.on (fun h =>
      let h := (h.finish x.1).setF pBIST t BIST_TSTAT_RUNNING 0
      let h := (h.setF pBIST t BIST_TSTAT_CAUSE 0).setF pBIST t BIST_TSTAT_RESULT (if fail.isSome then 2 else 1)
      let h := h.setF pBIST t BIST_TFAIL_ADDR (if t < 8 then 0 else fail.getD 0)
      let h := match (List.range 40).find? (fun u => h.b pBIST u BIST_TSTAT_RUNNING) with
        | some u => h.setF pBIST 0 BIST_STATUS_TARGET u
        | none => h.setReg pBIST 3 0 0
      let h := (if fail.isSome then h.irqBit pBIST BIST_IRQ_FAIL 0 else h).irqBit pBIST BIST_IRQ_DONE 0
      if t < 8 then h.clusterReset t 4 else h)

/-! ## Verification (R638) -/

/-- R638. A write of VCMD. -/
def Hw.verifyAsk (h : Hw) (d : Word) : Hw :=
  let slot := bitsOf d.toNat 1 1
  if !bitOf d.toNat 0 || h.b pSEC 0 SEC_VSTAT_QUEUED || h.b pSEC 0 SEC_VSTAT_BUSY then h
  else (((h.setF pSEC 0 SEC_VSTAT_SLOT slot).setF pSEC 0 SEC_VSTAT_DONE 0).setF pSEC 0 SEC_VSTAT_QUEUED 1).enqueue 9 8 slot

/-- R638. Effect of an accepted page write to SEC. -/
def Hw.secWrite (h : Hw) (off : Nat) (d : Word) : Hw := if off = 0x80 then h.verifyAsk d else h.plainWrite pSEC off 0 d

/-- R625. The scheduler grants a verification. -/
def Hw.verifyGrant (h : Hw) : Hw :=
  let r : MaintReq := ⟨8, h.f pSEC 0 SEC_VSTAT_SLOT⟩
  if h.domainRuns 56 && h.b pSEC 0 SEC_VSTAT_QUEUED && h.grantable 9 r (fun _ => true) then
    ((h.grant 9 r).setF pSEC 0 SEC_VSTAT_QUEUED 0).setF pSEC 0 SEC_VSTAT_BUSY 1
  else h

/-- R638. The verification ends with its cause. -/
def State.verifyDone (s : State) : State :=
  if !s.hw.b pSEC 0 SEC_VSTAT_BUSY then s
  else
    let slot := s.hw.f pSEC 0 SEC_VSTAT_SLOT
    s.on (fun h =>
      let h := ((h.finish 9).setF pSEC 0 SEC_VSTAT_BUSY 0).setF pSEC 0 SEC_VSTAT_DONE 1
      ((h.setF pSEC 0 SEC_VSTAT_CAUSE (s.verify slot)).setF pSEC 0 SEC_VSTAT_RIDX (s.imgRidx slot)).irqBit pSEC
        SEC_IRQ_VDONE 0)

/-! ## Debugger and TAP (R658 to R662) -/

/-- R662. A write of HALT.
DEDUCED, unsafe: log entry 71. -/
def Hw.dbgHalt (h : Hw) (d : Word) : Hw :=
  let h := h.plainWrite pDBG 0x80 0 d
  if !h.debugOpen then h
  else (List.range 32).foldl (fun h i => if bitOf d.toNat i then h.setCore i { h.core i with haltReq := true } else h) h

/-- R662. A write of RESUME. -/
def Hw.dbgResume (h : Hw) (d : Word) : Hw :=
  (List.range 32).foldl (fun h i =>
    if bitOf d.toNat i then
      (h.setCore i { h.core i with halted := false, haltReq := false }).setF pDBG 0 ⟨0x80, i, 1⟩ 0 else h) h

/-- R662. Effect of an accepted page write to DBG. -/
def Hw.dbgWrite (h : Hw) (off : Nat) (d : Word) : Hw :=
  if off = 0x80 then h.dbgHalt d else if off = 0x81 then h.dbgResume d else h.plainWrite pDBG off 0 d

/-- R624, R658, R659. The TAP takes an instruction: BYPASS in place of one that RESET_N or DEBUG_POLICY bars. -/
def Hw.tapTake (h : Hw) (i : TapInstr) : Hw :=
  let driving : Bool := i == .extest || i == .clamp || i == .highz
  let sealed : Bool := decide (2 ≤ h.lwf 6 % 4) && i != .bypass && i != .idcode
  let i := if sealed || (driving && !h.resetLow) then .bypass else i
  if h.porstLow || h.deep || h.b pCLK 54 CLK_DOMAIN_GATE then h
  else { h.setB pDBG 0 DBG_STATUS_ATTACHED (i == .dapacc) with tap := i }

/-- R662. The level of MON_OUT; `none` for a clock's waveform. -/
def Hw.monOut (h : Hw) : Option Bool :=
  match h.f pDBG 0 DBG_MONSEL_SEL with
  | 1 => none
  | 2 => none
  | 3 => none
  | 4 => some (h.b pDEV 0 DEV_STATUS_SAFE_ACT)
  | _ => some false

/-- R371. LOCKUP_N is low while a core is locked up. -/
def Hw.lockupN (h : Hw) : Bool := !(List.finRange 32).any h.locked

/-- R657, R658. What the boundary-scan cells sample: the GPIO levels, 36 a word, then PORST_N, RESET_N, SAFE_N, LOCKUP_N,
BOOT0 to BOOT2 and MON_OUT (0 for a clock's waveform).
DESIGN CHOICE, unsafe: log entry 134. -/
def Hw.scanSample (h : Hw) : List Word :=
  let bank (n : Nat) : Word := w40 ((List.range 36).foldl (fun w j =>
    w + b2n (h.padLevel (36 * n + j)) * 2 ^ j) 0)
  let sys := b2n (!h.porstLow) + b2n (!h.resetLow) * 2 + b2n (!h.safeNLow) * 4 + b2n h.lockupN * 8 + h.bootPins % 8 * 16 +
    b2n (h.monOut.getD false) * 128
  (List.range 9).map bank ++ [w40 sys]

/-! ## The commands -/

/-- PLL_LOCK; `rep` is what a boot flow that starts with it meets. -/
def execPllLock (rep : BootRep) (s : State) : Host.Outcome State Fault Refusal := .next ((s.on (fun h => h.pllLock)).boot rep)

/-- CLOCK_FAILURE: the crystal is missing (`xtal`), or root lock is lost. -/
def execClockFailure (xtal : Bool) (s : State) : Host.Outcome State Fault Refusal := onHw s (fun h => h.clockFailure xtal)

/-- DOMAIN_GATE: a write of CLK.DOMAIN of the requester's channel. -/
def execDomainGate (w : Requester) (d : Word) (s : State) : Host.Outcome State Fault Refusal :=
  onHw s (fun h => h.directR w pCLK 0x10 (fun g => g.domainWrite (h.chanFor pCLK w 0x10) d))

/-- LWF_LOAD. -/
def execLwfLoad (rep : BootRep) (s : State) : Host.Outcome State Fault Refusal :=
  let load (h : Hw) : Hw :=
    if h.b pLWF 0 LWF_STATUS_LOADED || h.heldInReset || h.deep then h else h.lwfLoadAll.safeNFollow
  .next ((s.on load).boot rep)

/-- LWF_WRITE_DONE: `got` are the array bits that took. TRIP_POLICY then governs SAFE_N. -/
def execLwfWriteDone (got : Nat) (s : State) : Host.Outcome State Fault Refusal := onHw s (fun h => (h.lwfDone got).safeNFollow)

/-- POWER_ON_RESET: it begins (`low`) or ends. `left` and `got` are what it leaves of a flash operation.
DESIGN CHOICE, unsafe: log entry 135. -/
def execPowerOnReset (low : Bool) (pins : Fin 8) (left : List (Nat × Word)) (got : Nat) (s : State) :
    Host.Outcome State Fault Refusal := .next (s.powerOn low pins left got)

/-- RESET_N falls or rises.
DEDUCED, unsafe: log entry 132. -/
def execResetN (low : Bool) (pins : Fin 8) (rep : BootRep) (s : State) : Host.Outcome State Fault Refusal :=
  .next ((s.resetPin low pins).boot rep)

/-- RCAUSE bit of a request (R632). -/
def ResetAsk.bit (c : ResetAsk) : Nat :=
  match c with | .pin => 1 | .watchdog => 2 | .clock => 3 | .sw => 4 | .domain => 5 | .monitor => 7

/-- DEVICE_RESET_REQUEST. -/
def execDeviceResetRequest (c : ResetAsk) (s : State) : Host.Outcome State Fault Refusal :=
  onHw s (fun h => if h.heldInReset || h.deep then h else h.resetRequest c.bit)

/-- DEVICE_RESET: the deferral ends. -/
def execDeviceReset (pins : Fin 8) (s : State) : Host.Outcome State Fault Refusal := .next (s.resetDue pins)

/-- RESET_DEVICE_CMD: a write of RST.CMD with DEVICE. -/
def execResetDeviceCmd (w : Requester) (d : Word) (s : State) : Host.Outcome State Fault Refusal :=
  onHw s (fun h => h.direct w pRST 0x80 (fun g => g.rstWrite 0x80 w (d ||| 0x100)))

/-- RESET_CLUSTER_CMD: a write of RST.CMD without DEVICE. -/
def execResetClusterCmd (w : Requester) (d : Word) (s : State) : Host.Outcome State Fault Refusal :=
  onHw s (fun h => h.direct w pRST 0x80 (fun g => g.rstWrite 0x80 w (d &&& ~~~0x100)))

/-- CLUSTER_RESET of cluster `n`. -/
def execClusterReset (n : Fin 8) (s : State) : Host.Outcome State Fault Refusal := onHw s (fun h => h.clusterResetDue n)

/-- CGO: a write of DEV.CGO. -/
def execDevCgo (w : Requester) (d : Word) (s : State) : Host.Outcome State Fault Refusal :=
  onHw s (fun h => h.direct w pDEV 0x91 (fun g => g.cgo d))

/-- VCMD: a write of SEC.VCMD. -/
def execSecVcmd (w : Requester) (d : Word) (s : State) : Host.Outcome State Fault Refusal :=
  onHw s (fun h => h.direct w pSEC 0x80 (fun g => g.verifyAsk d))

/-- VERIFY_GRANT. -/
def execVerifyGrant (_ : Unit) (s : State) : Host.Outcome State Fault Refusal := onHw s (fun h => h.verifyGrant)

/-- VERIFY_DONE. -/
def execVerifyDone (s : State) : Host.Outcome State Fault Refusal := .next s.verifyDone

/-- SAFE_N_FALL. -/
def execSafeNFall (s : State) : Host.Outcome State Fault Refusal :=
  onHw s (fun h => h.safeNFall)

/-- SAFE_N_RISE: it has been high for 15 ns. -/
def execSafeNRise (s : State) : Host.Outcome State Fault Refusal :=
  onHw s (fun h => h.safeNRise)

/-- SAFE_SW: a write of DEV.CTRL. -/
def execSafeSw (w : Requester) (d : Word) (s : State) : Host.Outcome State Fault Refusal :=
  onHw s (fun h => h.direct w pDEV 2 (fun g => g.devCtrl d))

/-- MONITOR_SAMPLE of a sensor. -/
def execMonitorSample (x : Fin 16) (v : BitVec 16) (s : State) : Host.Outcome State Fault Refusal :=
  onHw s (fun h => h.monSample x v.toNat)

/-- HALT_MASK_WRITE: a write of PWR.CTRL. -/
def execHaltMaskWrite (w : Requester) (d : Word) (s : State) : Host.Outcome State Fault Refusal :=
  onHw s (fun h => h.direct w pPWR 2 (fun g => g.haltMask d))

/-- CLUSTER_GATE of cluster `n`. -/
def execClusterGate (n : Fin 8) (s : State) : Host.Outcome State Fault Refusal := onHw s (fun h => h.gateCluster n)

/-- DEEP: a write of PWR.CMD. -/
def execPwrDeep (w : Requester) (d : Word) (s : State) : Host.Outcome State Fault Refusal :=
  .next (s.direct w pPWR 0x80 (fun t => t.pwrCmd d))

/-- DEEP_WAKE. -/
def execDeepWake (pins : Fin 8) (s : State) : Host.Outcome State Fault Refusal := .next (s.deepWake pins)

/-- CLUSTER_SAFE_WRITE: a write of CLU.CTRL of cluster `n`. -/
def execClusterSafeWrite (w : Requester) (n : Fin 8) (d : Word) (s : State) : Host.Outcome State Fault Refusal :=
  onHw s (fun h => h.direct w (pCLU n) 2 (fun g => g.cluWrite n 2 d))

/-- BIST_REQUEST: a write of TCFG of the requester's channel with REQ. -/
def execBistRequest (w : Requester) (d : Word) (s : State) : Host.Outcome State Fault Refusal :=
  onHw s (fun h => h.directCh w pBIST 0x10 (fun t g => g.bistCfg t (d ||| 1)))

/-- BIST_GRANT of target `t`. -/
def execBistGrant (t : Fin 40) (_ : Unit) (s : State) : Host.Outcome State Fault Refusal :=
  onHw s (fun h => h.bistGrant t)

/-- BIST_DONE of target `t`. -/
def execBistDone (t : Fin 40) (fail : Option Nat) (s : State) : Host.Outcome State Fault Refusal := .next (s.bistDone t fail)

/-- DEBUG_HALT: a write of DBG.HALT. -/
def execDebugHalt (w : Requester) (d : Word) (s : State) : Host.Outcome State Fault Refusal :=
  onHw s (fun h => h.direct w pDBG 0x80 (fun g => g.dbgHalt d))

/-- DEBUG_RESUME: a write of DBG.RESUME. -/
def execDebugResume (w : Requester) (d : Word) (s : State) : Host.Outcome State Fault Refusal :=
  onHw s (fun h => h.direct w pDBG 0x81 (fun g => g.dbgResume d))

/-- BYPASS. The bypass register captures 0. -/
def execTapBypass (s : State) : Host.Outcome State Fault Refusal :=
  onHw s (fun h => { h.tapTake .bypass with resp := [0] })

/-- IDCODE. -/
def execTapIdcode (s : State) : Host.Outcome State Fault Refusal :=
  onHw s (fun h => { h.tapTake .idcode with resp := [0x14080A7B] })

/-- SAMPLE/PRELOAD: the cells are sampled and new levels shifted in. -/
def execTapSamplePreload (cells : ScanCells) (s : State) : Host.Outcome State Fault Refusal :=
  onHw s (fun h =>
    let g := h.tapTake .sample
    if g.tap = .sample then
      { g with resp := h.scanSample, scan := cells.foldl (fun b e => b.set none e.1.val e.2) h.scan }
    else { g with resp := [0] })

/-- EXTEST. -/
def execTapExtest (s : State) : Host.Outcome State Fault Refusal :=
  onHw s (fun h =>
    let g := h.tapTake .extest
    { g with resp := if g.tap = .extest then h.scanSample else [0] })

/-- CLAMP. The bypass register is selected. -/
def execTapClamp (s : State) : Host.Outcome State Fault Refusal :=
  onHw s (fun h => { h.tapTake .clamp with resp := [0] })

/-- HIGHZ. The bypass register is selected. -/
def execTapHighz (s : State) : Host.Outcome State Fault Refusal :=
  onHw s (fun h => { h.tapTake .highz with resp := [0] })

end Sys2Proof.Machine
end

