-- ==== Sys2Proof/Machine/Regs.lean ====
section
/-! DEFINITION. Reading register pages: what each register shows, the fields that are another unit's state seen through the
page, and the reads that change state (R28, R29, R35, R39, R43 and the pages' own tables). -/

namespace Sys2Proof.Machine

open Sys2Proof

/-! ## What a register shows -/

/-- A word with a field replaced. -/
def fput (fl : Fld) (v : Nat) (w : Word) : Word := w40 (withBits w.toNat fl.lo fl.w v)

/-- A number with bit `i` for each `i` below `n` that satisfies `p`. -/
def bitSet (n : Nat) (p : Nat → Bool) : Nat := (List.range n).foldl (fun m i => m + b2n (p i) * 2 ^ i) 0

/-- R631, R632. The cores that are held. -/
def Hw.heldCores (h : Hw) : Nat := bitSet 32 (fun i => h.b (pCLU (i / 4)) 0 ⟨3, 8 + i % 4, 1⟩)

/-- R620, R634. PWR.STATUS.STATE. -/
def Hw.powerState (h : Hw) : Nat :=
  if h.halted then 2
  else if (List.finRange 32).all (fun k => h.isHeld k || h.isWaiting k) then 1
  else 0

/-- R551, R562. STREAM_STAT of the stream a bank selects. -/
def Hw.streamStat (h : Hw) (bank : Nat) : Word :=
  let id : StreamId :=
    ⟨h.f pDOM bank DOM_STREAM_SEL_TC, h.b pDOM bank DOM_STREAM_SEL_BCAST, h.f pDOM bank DOM_STREAM_SEL_NODE⟩
  if h.b pDOM bank DOM_STREAM_SEL_SEND then w40 ((h.sendOf id).first * 2 ^ 16 + (h.sendOf id).next)
  else
    let x := h.recvOf id
    w40 (b2n x.fenced * 2 ^ 39 + x.held.length * 2 ^ 32 + x.expect)

/-- R512, R562. ROUTE of the node that ROUTE_IDX names. -/
def Hw.routeView (h : Hw) : Word :=
  match h.dom.routes.at none (h.f (pDL 0) 0 DL_ROUTE_IDX_ID) with
  | some k => w40 (4 + k)
  | none => 0

/-- R541, R563. LEASE of a bank: its remaining time in µs.
DEDUCED, unsafe: log entry 107. -/
def Hw.leaseView (h : Hw) (bank : Nat) : Word :=
  let w := h.reg pSNAP 0x84 bank
  match h.dom.pin with
  | some p => if p.holders.contains bank then fput SNAP_LEASE_REMAIN ((p.until' - h.now) / 400) w else w
  | none => w

/-- R485. FLASH.IMG. -/
def Hw.imgView (h : Hw) (w : Word) : Word :=
  fput FLASH_IMG_PREF_VALID (b2n h.prefSlot.isSome) (fput FLASH_IMG_PREF (h.prefSlot.getD 0)
    (fput FLASH_IMG_STATE_B (h.imgState 1) (fput FLASH_IMG_STATE_A (h.imgState 0) w)))

/-- R416. PSTAT of a pin. -/
def Hw.pstatView (h : Hw) (pin : Nat) (w : Word) : Word :=
  fput PIN_PSTAT_BANK_OK (b2n (h.bankOk pin)) (fput PIN_PSTAT_SAFE_ACT (b2n (h.pinSafe pin))
    (fput PIN_PSTAT_DRIVING (b2n (h.pinBall pin).isSome) (fput PIN_PSTAT_IN (b2n (h.pinIn pin))
      (fput PIN_PSTAT_KEEP (b2n (h.keeping pin)) (fput PIN_PSTAT_DISARM (b2n (h.disarmed pin))
        (if h.pinIn pin then fput PIN_PSTAT_UNRESOLVED 0 w else w))))))

/-- R315. STATUS of a core: its store buffer, and what it waits on. -/
def State.coreView (s : State) (k : Fin 32) (w : Word) : Word :=
  let h := s.hw
  let c := h.core k
  let busy (g : Nat) : Bool := decide (memKind g = .flash) && !h.flash.readable
  let loadBusy : Bool := match c.openLoad with
    | some l => (match placeOf (.core k) l.addr with | .word g => busy g | _ => false)
    | none => false
  let fetchBusy : Bool := match s.missing k with
    | some line => busy line
    | none => false
  let used := if c.cpy.isSome then c.sb.length + Config.copyEntries k h.now % (5 - c.sb.length) else c.sb.length
  fput CORE_STATUS_INV_BUSY (b2n (decide (h.now < c.invUntil)))
    (fput CORE_STATUS_FENCE_WAIT (b2n (s.fenceWait k))
      (fput CORE_STATUS_FBUSY_WAIT (b2n (h.canIssue k && fetchBusy || loadBusy)) (fput CORE_STATUS_SB_USED used w)))

/-- The core a page CORE0 to CORE3 belongs to. -/
def coreOf (p : Page) : Fin 32 := Fin.ofNat 32 (4 * p.cl + (p.idx - 1))

/-- What the register at `off` of a page shows to channel or bank `ch` (R43 apart). -/
def State.view (s : State) (p : Page) (off ch : Nat) : Word :=
  let h := s.hw
  let w := h.reg p off ch
  match pageInfo p with
  | none => 0
  | some i =>
    if off = 0 then w40 (i.type * 2 ^ 24 + i.inst * 2 ^ 16 + p.cl % 16 * 2 ^ 12 + p.idx)
    else if off = 1 then w40 (1 * 2 ^ 32 + 0xB0 * 2 ^ 16)
    else match i.kind, off with
      | .clk, 0x10 => fput CLK_DOMAIN_RUNNING (b2n (h.domainShown ch)) w
      | .sdf, 0x80 => h.reg (pSDF (p.cl / 2 * 2)) 0x80 0
      | .scorch, 0x19 => fput SCORCH_TRSTAT_ACTIVE (h.scorchMask p.cl ch) w
      | .cmangle, 0x03 => w40 (bitSet 8 (fun c => let x := h.f p c MANGLE_MCH_STAT_STATE; x == 2 || x == 3))
      | .dmangle, 0x03 => w40 (bitSet 16 (fun c => let x := h.f p c MANGLE_MCH_STAT_STATE; x == 2 || x == 3))
      | .core, 0x03 => s.coreView (coreOf p) w
      | .dic, 0x11 => fput DIC_SRCSTAT_PEND (b2n (h.srcPend p.cl ch)) (fput DIC_SRCSTAT_LINE (b2n (h.srcLine p.cl ch)) w)
      | .dic, _ => if 0x88 ≤ off ∧ off ≤ 0x8F then w40 (h.remotePages p.cl (off - 0x88)) else w
      | .cwdt, 0x03 =>
        let x : Option (Fin 8) := some (Fin.ofNat 8 p.cl)
        fput WDT_STATUS_OPEN (b2n (h.b p 0 WDT_CTRL_EN && decide (h.f p 0 WDT_WTIME_OPEN ≤ h.f p 0 WDT_COUNT_COUNT)))
          (fput WDT_STATUS_RUNNING (b2n (h.wdtCounts x)) w)
      | .dwdt, 0x03 =>
        fput WDT_STATUS_OPEN (b2n (h.b p 0 WDT_CTRL_EN && decide (h.f p 0 WDT_WTIME_OPEN ≤ h.f p 0 WDT_COUNT_COUNT)))
          (fput WDT_STATUS_RUNNING (b2n (h.wdtCounts none)) w)
      | .dev, 0x92 => w40 h.heldCores
      | .pwr, 0x03 => fput PWR_STATUS_STATE h.powerState w
      | .pin, 0x13 => h.pstatView ch w
      | .pin, _ =>
        if 0x90 ≤ off ∧ off ≤ 0x98 then w40 (bitSet 36 (fun j => h.pinIn (36 * (off - 0x90) + j))) else w
      | .flash, 0x03 => fput FLASH_STATUS_RST_WAIT (b2n h.rstWait) w
      | .flash, 0x10 => fput FLASH_SECTOR_STATE_CLASS (classOfSector ch) w
      | .flash, 0x8F => h.imgView w
      | .dl, 0x03 => if h.pstate (p.idx - 0x02C) = 5 then w else fput DL_STATUS_ROLE 0 w
      | .dl, 0xC7 => if p.idx = 0x02C then h.routeView else w
      | .dl, 0xC8 => if p.idx = 0x02C then w40 Config.uid.toNat else w
      | .dl, 0xC9 => if p.idx = 0x02C then w40 (Config.uid.toNat / 2 ^ 40) else w
      | .dom, 0x03 =>
        fput DOM_STATUS_TICK_RUN (b2n h.tickRuns)
          (fput DOM_STATUS_FENCED (b2n (h.dom.recv.any (fun e => e.2.fenced))) (fput DOM_STATUS_CQ_USED h.dom.cmdQ.length w))
      | .dom, 0x8D => h.streamStat ch
      | .dom, 0x8E => h.reportHead.1
      | .dom, 0x8F => h.reportHead.2
      | .snap, 0x84 => h.leaseView ch
      | .fray, 0x03 =>
        let k := p.idx - 0x030
        fput FRAY_STATUS_ARMED (bitSet 4 (fun a => h.b p 0 ⟨0x80 + a, 27, 1⟩))
          (fput FRAY_STATUS_PERMIT (b2n (bitOf (h.lwf 5) k)) w)
      | .pcie, _ => if 0x88 ≤ off ∧ off ≤ 0x8F then w40 (h.creq (off - 0x88)) else w
      | .mbox, 0x81 => w40 (h.rxMb 0)
      | .mbox, 0x82 => w40 (h.rxMb 32)
      | .eth, 0x90 => (h.txtsHead (p.idx - 0x03C)).1
      | .eth, 0x91 => (h.txtsHead (p.idx - 0x03C)).2
      | .svc, 0x03 => w40 h.sess.length
      | .sec, 0x03 => w40 (b2n (h.bootKey != 0))
      | .dbg, 0x03 => fput DBG_STATUS_POLICY (h.lwf 6) w
      | .dbg, 0x82 => w40 (bitSet 32 (fun i => (h.core i).isHalted))
      | _, _ => w

/-! ## Reading -/

/-- The registers whose read changes state: CLAIM, UC_DATA, RPT_L and TXTS_L. -/
def readChanges (k : PageKind) (off : Nat) : Bool :=
  match k with
  | .dic => [0x90, 0xA0, 0xB0, 0xC0].contains off
  | .loopUc => off == 0x81
  | .dom => off == 0x8E
  | .eth => off == 0x90
  | _ => false

/-- R562. A read of RPT_L by a requester: the head is removed and RPT_H captured. -/
def Hw.reportRead (h : Hw) (r : Requester) : Hw × Word :=
  let x := h.reportHead
  let h := h.setPair pDOM 0x8E 0 r { h.pair pDOM 0x8E 0 r with cap := some x.2 }
  (h.reportPop, x.1)

/-- A read that changes state. -/
def Hw.changingRead (h : Hw) (r : Requester) (p : Page) (k : PageKind) (off : Nat) : Hw × Word :=
  match k with
  | .dic => h.dicClaim r p.cl ((off - 0x90) / 16)
  | .loopUc => h.ucRead p.cl r
  | .dom => h.reportRead r
  | _ => h.txtsRead (p.idx - 0x03C) r

/-- The channel or bank of a pair's bank. RPT_L and TXTS_L are block-wide. -/
def Hw.pairChan (h : Hw) (p : Page) (r : Requester) (off : Nat) : Nat := if 0x80 ≤ off then 0 else h.chanFor p r off

/-- R39, R43. A read of the register at `off` by an access that is permitted: the word it returns. -/
def State.pageGet (s : State) (a : Acc) (p : Page) (i : PageInfo) (off : Nat) : State × Word :=
  let r := a.who
  let s := s.on (fun h => h.granted a p)
  let ch := s.hw.chanFor p r off
  let pc := s.hw.pairChan p r off
  if readChanges i.kind off then
    match r with
    | .hamper => (s, 0)
    | .snap => (s, 0)
    | _ =>
      let x := s.hw.changingRead r p i.kind off
      ({ s with hw := x.1 }, x.2)
  else if pairLow i.kind off then
    let hi := s.view p (off + 1) ch
    (s.on (fun h => h.setPair p off pc r { h.pair p off pc r with cap := some hi }), s.view p off ch)
  else if 0 < off && pairLow i.kind (off - 1) then
    (s, (s.hw.pair p (off - 1) pc r).cap.getD (s.view p off ch))
  else (s, s.view p off ch)

/-- R24, R25, R30, R35. A read of a page: what became of it, and the word. A refused read returns 0. -/
def State.pageRead (s : State) (a : Acc) (p : Page) (off : Nat) : State × Res × Word :=
  match pageInfo p with
  | none => (s, .unmapped, 0)
  | some i =>
    if s.hw.stopped p then (s, .stopped, 0)
    else if (a.who = .debugger ∧ !s.hw.debugOpen) ∨ i.rfloor < a.ring then
      (s.on (fun h => h.granted a p), .refused, 0)
    else
      let x := s.pageGet a p i off
      (x.1, .ok, x.2)

end Sys2Proof.Machine
end

