-- ==== Sys2Proof/Machine/Bus.lean ====
section
/-! DEFINITION. Accesses to register pages and memory by any requester: controlled writes and their effects, reads, and what
becomes of each (R20 to R44, R354, R428). -/

namespace Sys2Proof.Machine

open Sys2Proof

/-! ## Effects of page writes -/

/-- A hardware effect, as one that is always accepted. -/
def State.eff (s : State) (g : Hw → Hw) : State × Bool := (s.on g, true)

/-- A hardware effect that may refuse the write. -/
def State.effR (s : State) (g : Hw → Hw × Bool) : State × Bool :=
  let x := g s.hw
  ({ s with hw := x.1 }, x.2)

/-- A Mangle page's plain registers. MCH_HOSTHI is reserved in a cluster Mangle (R181). -/
def Hw.manglePlain (h : Hw) (p : Page) (off ch : Nat) (d : Word) : Hw :=
  if off = 0x14 ∧ p.cl < 8 then h else h.plainWrite p off ch d

/-- The effect of a controlled write that passed R33 on a cluster page of kind `k`, but for MCH_CTRL, and whether the page's
own rules accept it. -/
def State.clusterEffect (s : State) (a : Acc) (p : Page) (k : PageKind) (off ch : Nat) (d : Word) : State × Bool :=
  let c := p.cl
  match k with
  | .clu => s.eff (fun h => h.cluWrite c off d)
  | .core => s.eff (fun h => h.coreWrite (coreOf p) off d)
  | .dic => s.effR (fun h => h.dicWrite a c off ch d)
  | .cwdt => s.eff (fun h => h.wdtWrite (some (Fin.ofNat 8 c)) off d)
  | .loop => if off = 0x80 then (s.loopSwtrig c (2 * s.hw.now) d, true) else s.eff (fun h => h.loopWrite c off ch d)
  | .loopUc => s.eff (fun h => h.loopUcWrite c off ch a.who d)
  | .pwmTb => s.eff (fun h => h.pwmTbWrite c off ch d)
  | .pwmCh => s.eff (fun h => h.pwmChWrite c off ch d)
  | .scorch => s.eff (fun h => h.scorchWrite c off ch d)
  | .adcA => s.eff (fun h => h.adcWrite c 0 off d)
  | .adcB => s.eff (fun h => h.adcWrite c 1 off d)
  | .adcS => s.eff (fun h => h.adcSWrite c off d)
  | .adcSeq => s.eff (fun h => h.adcSeqWrite c off ch d)
  | .sdf => s.eff (fun h => h.sdfWrite c off ch d)
  | .cmp => s.eff (fun h => h.cmpWrite c off ch d)
  | .trk => s.eff (fun h => h.trkWrite c off ch a.who d)
  | .lseam => s.eff (fun h => h.seamWrite c off ch d)
  | _ => s.eff (fun h => h.manglePlain p off ch d)

/-- The same on a device page. -/
def State.deviceEffect (s : State) (a : Acc) (p : Page) (k : PageKind) (off ch : Nat) (d : Word) : State × Bool :=
  match k with
  | .dev => s.eff (fun h => h.devWrite off d)
  | .clk => s.effR (fun h => h.clkWrite off ch d)
  | .rst => s.eff (fun h => h.rstWrite off a.who d)
  | .pwr => (s.pwrWrite off d, true)
  | .dwdt => s.eff (fun h => h.wdtWrite none off d)
  | .aow => s.eff (fun h => h.aowWrite off ch d)
  | .mon => s.eff (fun h => h.monWrite off ch d)
  | .bist => s.eff (fun h => if off = 0x10 then h.bistCfg ch d else h.plainWrite pBIST off ch d)
  | .gseam => s.eff (fun h => h.seamWrite 15 off ch d)
  | .dmangle => s.eff (fun h => h.manglePlain p off ch d)
  | .dram => (s.dramWrite a.who off d, true)
  | .darner => s.eff (fun h => h.darnerWrite off d)
  | .hamper => s.eff (fun h => h.hamperWrite off ch d)
  | .flash => (s.flashWrite a off ch d, true)
  | .ledger => s.eff (fun h => h.ledgerWrite a off d)
  | .lwf => s.eff (fun h => h.lwfWrite a off ch d)
  | .dom => (s.domWrite off ch a.who d, true)
  | .snap => s.eff (fun h => h.snapWrite off a.who d)
  | .dtime => s.eff (fun h => h.dtimeWrite off a.who d)
  | .dl => s.eff (fun h => h.dlWrite (p.idx - 0x02C) off ch d)
  | .fray => s.effR (fun h => h.frayWrite (p.idx - 0x030) off d)
  | .pcie => s.eff (fun h => h.pcieWrite off a.who d)
  | .mbox => (s.mboxWrite off ch d, true)
  | .eth => s.eff (fun h => h.ethWrite (p.idx - 0x03C) off ch a.who d)
  | .svc => s.eff (fun h => h.svcWrite off ch d)
  | .pin => s.effR (fun h => h.pinWrite a off ch d)
  | .sec => s.eff (fun h => h.secWrite off d)
  | .dbg => s.eff (fun h => h.dbgWrite off d)
  | _ => s.eff (fun h => h.plainWrite p off ch d)

/-- The effect of a controlled write on any page, but for MCH_CTRL. -/
def State.plainEffect (s : State) (a : Acc) (p : Page) (i : PageInfo) (off ch : Nat) (d : Word) : State × Bool :=
  if p.cl < 8 then s.clusterEffect a p i.kind off ch d else s.deviceEffect a p i.kind off ch d

/-! ## Page writes -/

/-- R32 to R36. A write of a page at `off`: OWNER and CHSEL under their own rules, any other register as a controlled write
with the effect `eff`. -/
def State.pageWriteWith (eff : State → Acc → Page → PageInfo → Nat → Nat → Word → State × Bool) (s : State) (a : Acc)
    (p : Page) (off : Nat) (d : Word) : State × Res :=
  match pageInfo p with
  | none => (s, .unmapped)
  | some i =>
    if off = 6 then
      let x := s.hw.ownerWrite a p d
      ({ s with hw := x.1 }, x.2)
    else if off = 8 then
      let x := s.hw.chselWrite a p d
      ({ s with hw := x.1 }, x.2)
    else if s.hw.stopped p then (s, .stopped)
    else
      let s := s.on (fun h => h.granted a p)
      if s.hw.passes a p i off then
        let x := eff s a p i off (s.hw.chanFor p a.who off) d
        if x.2 then (x.1.on (fun h => h.noteSw a p i off), .ok) else (x.1.on (fun h => h.logRefused a p off), .refused)
      else (s.on (fun h => h.logRefused a p off), .refused)

/-! ## Memory and pages together -/

/-- What a read brings: a word, a word that is poisoned or uncorrectable, or why it failed. -/
inductive Seen
  | data (w : Word)
  | bad (w : Word)
  | unmapped
  | refused
deriving DecidableEq, Repr

/-- R354. A requester other than a core may reach this memory at its ring.
DEDUCED, unsafe: log entry 41. -/
def Acc.mayReach (a : Acc) (g : Nat) : Bool :=
  match memKind g with
  | .itcm => a.ring < 2
  | .dtcm => a.ring < 2
  | .flash => a.ring < 2
  | _ => true

/-- R428, R455. The word at a global address, as a reader meets it. -/
def State.seenWord (s : State) (g : Nat) : Seen :=
  let bad : Bool := match memKind g with
    | .dram => s.poisoned g
    | .flash => s.hw.flash.badAt (g - 0x08000000)
    | _ => false
  if bad then .bad (s.rd g) else .data (s.rd g)

/-- R24, R25, R354, R428. A read of one word by a requester that is not a core. -/
def State.busRead (s : State) (a : Acc) (addr : Nat) : State × Seen :=
  match placeOf a.who (addr % 2 ^ 32) with
  | .unmapped => (s, .unmapped)
  | .page p off =>
    let x := s.pageRead a p off
    (x.1, match x.2.1 with
      | .ok => .data x.2.2
      | .refused => .refused
      | _ => .unmapped)
  | .word g =>
    if s.hw.memStopped g then (s, .unmapped)
    else if !a.mayReach g then (s, .refused)
    else (s, s.seenWord g)

/-- R24, R25, R168, R354. A write of one word by a requester that is not a core; the page effects are `eff`. -/
def State.busWriteWith (eff : State → Acc → Page → PageInfo → Nat → Nat → Word → State × Bool) (s : State) (a : Acc)
    (addr : Nat) (d : Word) : State × Res :=
  match placeOf a.who (addr % 2 ^ 32) with
  | .unmapped => (s, .unmapped)
  | .page p off => s.pageWriteWith eff a p off d
  | .word g =>
    if memKind g = .flash then (s, .unmapped)
    else if s.hw.memStopped g then (s, .stopped)
    else if !a.mayReach g then (s, .refused)
    else (s.softWr g d, .ok)

/-- A write that reaches no MCH_CTRL. -/
def State.busWrite0 (s : State) (a : Acc) (addr : Nat) (d : Word) : State × Res :=
  s.busWriteWith State.plainEffect a addr d

end Sys2Proof.Machine
end

