-- ==== Sys2Proof/Machine/Mangle.lean ====
section
/-! DEFINITION. The Mangle channels: their transitions, descriptors, beats, checksums and writebacks (R156 to R174, R180 to
R182, R573). -/

namespace Sys2Proof.Machine

open Sys2Proof

/-! ## Channels -/

/-- A Mangle channel: of a cluster's Mangle, or of the device's. -/
structure Mch where
  cl : Option (Fin 8)
  ch : Nat
deriving DecidableEq, Repr

/-- The page of its Mangle. -/
def Mch.page (m : Mch) : Page := match m.cl with | some n => pCMANGLE n | none => pDMANGLE

/-- The channel as a requester (R158). -/
def Mch.who (m : Mch) : Requester :=
  match m.cl with
  | some n => .cmangle n (Fin.ofNat 8 m.ch)
  | none => .dmangle (Fin.ofNat 16 m.ch)

/-- Its own state beside the registers. -/
def Mch.arbKey (m : Mch) : Nat := match m.cl with | some n => n | none => 8
def Mch.key (m : Mch) : Nat := match m.cl with | some n => 8 * n + m.ch | none => 64 + m.ch
def Hw.mchOf (h : Hw) (m : Mch) : MchSt := h.mch.at {} m.key
def Hw.setMch (h : Hw) (m : Mch) (v : MchSt) : Hw := { h with mch := h.mch.set {} m.key v }

/-- A field of the channel. -/
def Hw.mf (h : Hw) (m : Mch) (fl : Fld) : Nat := h.f m.page m.ch fl
def Hw.mset (h : Hw) (m : Mch) (fl : Fld) (v : Nat) : Hw := h.setF m.page m.ch fl v

/-- MCH_STAT.STATE: 0 IDLE, 1 ARMED, 2 FETCH, 3 RUN, 4 ERROR. -/
def Hw.mstate (h : Hw) (m : Mch) : Nat := h.mf m MANGLE_MCH_STAT_STATE

/-- R180, R608. The Mangle's clock runs, it is enabled, and no device reset has stopped it.
DEDUCED, unsafe: log entry 38. -/
def Hw.mangleOn (h : Hw) (m : Mch) : Bool :=
  (match m.cl with | some n => h.clusterRuns n | none => h.domainRuns 32) && h.b m.page 0 MANGLE_CTRL_EN &&
    !h.b pRST 0 RST_STATUS_PENDING

/-- R140. Producer codes of the channel's DONE and ERR events. -/
def Mch.doneCode (m : Mch) : Nat := match m.cl with | some n => clCode n (0x0C0 + m.ch) | none => devCode (0x040 + m.ch)
def Mch.errCode (m : Mch) : Nat := match m.cl with | some n => clCode n (0x0C8 + m.ch) | none => devCode (0x050 + m.ch)

/-- R141. Consumer code of the channel's start input. -/
def Mch.startCode (m : Mch) : Nat := match m.cl with | some n => clCode n (0x050 + m.ch) | none => devCode (0x040 + m.ch)

/-- R156. The channel enters a state; R157: entering IDLE or ERROR discards a pending trigger, with OVR. -/
def Hw.menter (h : Hw) (m : Mch) (st : Nat) : Hw :=
  let h := h.mset m MANGLE_MCH_STAT_STATE st
  if (st = 0 ∨ st = 4) ∧ h.mf m MANGLE_MCH_STAT_PEND ≠ 0 then
    (h.mset m MANGLE_MCH_STAT_PEND 0).irqBit m.page MANGLE_IRQ_OVR m.ch
  else if st = 1 ∧ h.mf m MANGLE_MCH_STAT_PEND ≠ 0 then
    (h.mset m MANGLE_MCH_STAT_PEND 0).mset m MANGLE_MCH_STAT_STATE 2
  else h

/-- R157. A trigger, by GO or by an arrival; one of each at the same edge count as one. -/
def Hw.mtrigger (h : Hw) (m : Mch) (go : Bool) : Hw :=
  if (h.mchOf m).trigAt = some (h.now, !go) then h
  else
  let h := if h.mstate m = 0 ∨ h.mstate m = 4 then h else h.setMch m { h.mchOf m with trigAt := some (h.now, go) }
  match h.mstate m with
  | 1 => h.menter m 2
  | 2 => if h.mf m MANGLE_MCH_STAT_PEND = 0 then h.mset m MANGLE_MCH_STAT_PEND 1 else h.irqBit m.page MANGLE_IRQ_OVR m.ch
  | 3 => if h.mf m MANGLE_MCH_STAT_PEND = 0 then h.mset m MANGLE_MCH_STAT_PEND 1 else h.irqBit m.page MANGLE_IRQ_OVR m.ch
  | _ => h

/-- R156, R174, R182. ARM in IDLE: HEAD, the ring of the write and MCH_HOSTHI are taken. -/
def Hw.marm (h : Hw) (m : Mch) (ring : Nat) : Hw :=
  if h.mstate m ≠ 0 then h
  else
    let h := (h.mset m MANGLE_MCH_CUR_ADDR (h.mf m MANGLE_MCH_HEAD_ADDR)).mset m MANGLE_MCH_STAT_RING ring
    let h := (h.mset m MANGLE_MCH_STAT_PEND 0).mset m MANGLE_MCH_STAT_WBF 0
    (h.setMch m { hi := h.mf m MANGLE_MCH_HOSTHI_HI, wait := (h.mchOf m).wait }).mset m MANGLE_MCH_STAT_STATE 1

/-! ## Descriptors (R160 to R162) -/

/-- Word `i` of the descriptor in hand, its CTRL fields, and the beats done. -/
def Hw.dword (h : Hw) (m : Mch) (i : Nat) : Nat := ((h.mchOf m).desc.getD i 0).toNat
def Hw.dctl (h : Hw) (m : Mch) (bit : Nat) : Bool := bitOf (h.dword m 4) bit
def Hw.dbeat (h : Hw) (m : Mch) : Nat := h.dword m 3 - h.mf m MANGLE_MCH_STAT_REMAIN

/-- R162. A descriptor's words are invalid. -/
def badDescriptor (cluster : Bool) (ws : List Word) : Bool :=
  let w (i : Nat) : Nat := (ws.getD i 0).toNat
  let sh := bitOf (w 4) 8
  let dh := bitOf (w 4) 7
  let slots := !bitOf (w 4) 6
  w 0 ≥ 2 ^ 32 || (!sh && w 1 ≥ 2 ^ 32) || (!dh && w 2 ≥ 2 ^ 32) || w 3 ≥ 2 ^ 24 || w 4 ≥ 2 ^ 16 || w 4 % 16 != 0 ||
    w 5 ≥ 2 ^ 32 || w 6 ≥ 2 ^ 32 || (sh && dh) || (cluster && (sh || dh)) ||
    (slots && ((sh && w 1 % 8 != 0) || (dh && w 2 % 8 != 0)))

/-! ## Writebacks and endings -/

/-- R163. The STATUS word. -/
def statusWord (done err abort : Bool) (ecode beat : Nat) : Word :=
  w40 (b2n done * 2 ^ 39 + b2n err * 2 ^ 38 + b2n abort * 2 ^ 37 + ecode * 2 ^ 32 + beat)

/-- The access the channel makes. -/
def Hw.macc (h : Hw) (m : Mch) : Acc := h.acc m.who

/-- R163. STATUS is written at word 7 of the descriptor at `cur`; answers whether the write succeeded. -/
def State.writeStatusAt (s : State) (m : Mch) (cur : Nat) (w : Word) : State × Bool :=
  let x := s.busWrite0 (s.hw.macc m) (cur + 7) w
  (x.1, x.2 == .ok)

/-- R163. STATUS is written at CUR + 7. -/
def State.writeStatus (s : State) (m : Mch) (w : Word) : State × Bool :=
  s.writeStatusAt m (s.hw.mf m MANGLE_MCH_CUR_ADDR) w

/-- R156, R174. ABORT. STATUS is written once no beat is in flight.
DEDUCED, unsafe: log entry 40. -/
def State.mabort (s : State) (m : Mch) : State :=
  match s.hw.mstate m with
  | 1 => s.on (fun h => h.menter m 0)
  | 2 => s.on (fun h => h.menter m 0)
  | 3 =>
    match (s.hw.mchOf m).wait with
    | some b => s.on (fun h => (h.setMch m { h.mchOf m with wait := some { b with aborted := true } }).menter m 0)
    | none =>
      let x := s.writeStatus m (statusWord false false true 0 (s.hw.dbeat m))
      x.1.on (fun h => (if x.2 then h else h.mset m MANGLE_MCH_STAT_WBF 1).menter m 0)
  | _ => s

/-- R156. A write of MCH_CTRL by an access: TRIG_SEAM and PRIO, then ABORT, CLR, ARM and GO. While the Mangle is disabled
every channel stays in its state (R180). -/
def State.mchCtrl (s : State) (m : Mch) (a : Acc) (d : Word) : State :=
  let s := s.on (fun h => h.plainWrite m.page 0x10 m.ch d)
  let bit (i : Nat) : Bool := bitOf d.toNat i
  if !s.hw.b m.page 0 MANGLE_CTRL_EN then s
  else
    let s := if bit 2 then s.mabort m else s
    s.on (fun h =>
      let h := if bit 3 && h.mstate m == 4 then (h.mset m MANGLE_MCH_STAT_ECODE 0).menter m 0 else h
      let h := if bit 0 then h.marm m a.ring else h
      if bit 1 then h.mtrigger m true else h)

/-- The Mangle channel of a page. -/
def mchOf (p : Page) (ch : Nat) : Mch := ⟨if p.cl < 8 then some (Fin.ofNat 8 p.cl) else none, ch⟩

/-- The effect of a controlled write on any page. -/
def State.pageEffect (s : State) (a : Acc) (p : Page) (i : PageInfo) (off ch : Nat) (d : Word) : State × Bool :=
  if (i.kind = .cmangle ∨ i.kind = .dmangle) ∧ off = 0x10 then (s.mchCtrl (mchOf p ch) a d, true)
  else s.plainEffect a p i off ch d

/-- A write of a page by an access. -/
def State.pageWrite (s : State) (a : Acc) (p : Page) (off : Nat) (d : Word) : State × Res :=
  s.pageWriteWith State.pageEffect a p off d

/-- A write of one word by a requester that is not a core. -/
def State.busWrite (s : State) (a : Acc) (addr : Nat) (d : Word) : State × Res :=
  s.busWriteWith State.pageEffect a addr d

/-- R170. The CRC result word. -/
def Hw.crcWord (h : Hw) (m : Mch) (valid : Bool) : Word :=
  w40 (b2n valid * 2 ^ 32 + (((h.mchOf m).crc.getD 0) ^^^ 0xFFFFFFFF) % 2 ^ 32)

/-- R170, R174. The CRC result word is written where CRC_EN asks for it; answers whether nothing failed. -/
def State.writeCrc (s : State) (m : Mch) (valid : Bool) : State × Bool :=
  if s.hw.dctl m 12 then
    let x := s.busWrite (s.hw.macc m) (s.hw.dword m 6) (s.hw.crcWord m valid)
    (x.1, x.2 == .ok)
  else (s, true)

/-- R173. The channel enters ERROR: the code, the ERR event and flag. -/
def Hw.merror (h : Hw) (m : Mch) (ecode : Nat) (wbf : Bool) : Hw :=
  let h := (h.mset m MANGLE_MCH_STAT_ECODE ecode).menter m 4
  let h := if wbf then h.mset m MANGLE_MCH_STAT_WBF 1 else h
  (h.launch m.errCode).irqBit m.page MANGLE_IRQ_ERR m.ch

/-- R173, R174. Beat `beat` of the descriptor fails with a code. -/
def State.mfail (s : State) (m : Mch) (beat ecode : Nat) : State :=
  let x := s.writeCrc m false
  let y := x.1.writeStatus m (statusWord false true false ecode beat)
  y.1.on (fun h => h.merror m ecode (!(x.2 && y.2)))

/-! ## Fetch, beats and completion -/

/-- R456. A read at an address waits for a busy flash. -/
def Hw.readWaits (h : Hw) (m : Mch) (a : Nat) : Bool :=
  match placeOf m.who a with
  | .word g => memKind g == .flash && !h.flash.readable
  | _ => false

/-- R156. The channel issues a beat. -/
def Hw.mbeats (h : Hw) (m : Mch) : Bool :=
  h.mangleOn m && h.mstate m == 3 && h.mf m MANGLE_MCH_STAT_REMAIN != 0 && (h.mchOf m).wait.isNone &&
    (!(h.dctl m 8 || h.dctl m 7) || h.b pPCIE 0 PCIE_STATUS_LINK_UP)

/-- The device address that beat `i` reads. -/
def Hw.msource (h : Hw) (m : Mch) (i : Nat) : Nat := (h.dword m 1 + (if h.dctl m 10 then i else 0)) % 2 ^ 32

/-- R164. The units the channel issues next: the eight reads of a fetch, a beat, or the writebacks; `none` without work. -/
def Hw.mneed (h : Hw) (m : Mch) : Option Nat :=
  if !h.mangleOn m then none
  else if h.mstate m = 2 then
    (if h.readWaits m (h.mf m MANGLE_MCH_CUR_ADDR) || (h.mchOf m).wait.isSome then none else some 8)
  else if h.mbeats m then (if !h.dctl m 8 && h.readWaits m (h.msource m (h.dbeat m)) then none else some 1)
  else if h.mstate m = 3 ∧ h.mf m MANGLE_MCH_STAT_REMAIN = 0 ∧ (h.mchOf m).wait.isNone then some (1 + b2n (h.dctl m 12))
  else none

/-- R164. The channel of the Mangle that starts the next burst: among those with work the ones with PRIO = 1, then the others,
each in round-robin order. -/
def Hw.mnext (h : Hw) (m : Mch) : Option Nat :=
  let n := if m.cl.isSome then 8 else 16
  let arb := h.mArb.at {} m.arbKey
  let order := ((List.range n).map (fun i => (arb.next + i) % n)).filter (fun c => (h.mneed ⟨m.cl, c⟩).isSome)
  match order.find? (fun c => h.b m.page c MANGLE_MCH_CTRL_PRIO) with
  | some c => some c
  | none => order.head?

/-- R164. A burst goes on while it has units left for what its channel issues next. -/
def Hw.mgoes (h : Hw) (m : Mch) : Bool :=
  let arb := h.mArb.at {} m.arbKey
  match arb.cur with
  | none => false
  | some c =>
    match h.mneed ⟨m.cl, c⟩ with
    | some n => decide (n ≤ arb.left)
    | none => false

/-- R164. Whether the channel may issue now: it has work, and the burst is its own or falls to it. -/
def Hw.mturn (h : Hw) (m : Mch) : Bool :=
  (h.mneed m).isSome &&
    (if h.mgoes m then (h.mArb.at {} m.arbKey).cur == some m.ch else h.mnext m == some m.ch)

/-- R164. The channel issues the units of its turn.
DEDUCED, unsafe: log entry 162. -/
def Hw.mtake (h : Hw) (m : Mch) : Hw :=
  let n := (h.mneed m).getD 0
  let arb := h.mArb.at {} m.arbKey
  let arb : MArb := if h.mgoes m then { arb with left := arb.left - n }
    else ⟨some m.ch, 8 - n, (m.ch + 1) % (if m.cl.isSome then 8 else 16)⟩
  { h with mArb := h.mArb.set {} m.arbKey arb }

/-- R156, R160, R162, R169. The eight descriptor words have been read. -/
def State.mfetch (s : State) (m : Mch) : State :=
  if s.hw.mstate m ≠ 2 || !s.hw.mturn m then s
  else
    let cur := s.hw.mf m MANGLE_MCH_CUR_ADDR
    let s := s.on (fun h => h.mtake m)
    let a := s.hw.macc m
    let x := (List.range 8).foldl (fun (x : State × Option (List Word)) i =>
      match x.2 with
      | none => x
      | some ws =>
        let r := x.1.busRead a (cur + i)
        match r.2 with
        | .data w => (r.1, some (ws ++ [w]))
        | _ => (r.1, none)) (s, if cur % 8 = 0 then some [] else none)
    match x.2 with
    | none => x.1.on (fun h => h.merror m 6 false)
    | some ws =>
      if badDescriptor m.cl.isSome ws then
        let y := x.1.writeStatus m (statusWord false true false 7 0)
        y.1.on (fun h => h.merror m 7 (!y.2))
      else
        x.1.on (fun h =>
          let st := h.mchOf m
          let w (i : Nat) : Nat := (ws.getD i 0).toNat
          let crc := if !bitOf (w 4) 12 then st.crc
            else if bitOf (w 4) 11 && st.crc.isSome then st.crc
            else some (w 5)
          ((h.setMch m { st with desc := ws, crc := crc }).mset m MANGLE_MCH_STAT_REMAIN (w 3)).menter m 3)

/-- R24, R172. The code of a failed source read. -/
def Seen.ecode (x : Seen) : Nat :=
  match x with | .bad _ => 4 | .refused => 3 | _ => 1

/-- R172. The code of a failed destination write. -/
def Res.ecode (x : Res) : Nat :=
  match x with | .refused => 3 | _ => 2

/-- R167, R182. The host byte address of beat `beat`, from descriptor word `i`.
DEDUCED, unsafe: log entry 42. -/
def Hw.hostAddr (h : Hw) (m : Mch) (i : Nat) (inc : Bool) (beat : Nat) : Nat :=
  let size := if h.dctl m 6 then 5 else 8
  (h.mchOf m).hi * 2 ^ 40 + (h.dword m i + (if inc then size * beat else 0)) % 2 ^ 40

/-- R167. A transfer's bytes as requests that cross no 4 KiB boundary: address and bytes. -/
def hostParts (addr : Nat) (bs : List Nat) : List (Nat × List Nat) :=
  let n := 4096 - addr % 4096
  if bs.length ≤ n then [(addr, bs)] else [(addr, bs.take n), (addr + n, bs.drop n)]

/-- R167. The bytes of a word in host memory: packed, or in a slot. -/
def hostBytes (packed : Bool) (w : Word) : List Nat := wordBytes w ++ (if packed then [] else [0, 0, 0])

/-- R566. The attributes of a host request of the channel. -/
def Hw.hostAttr (h : Hw) (m : Mch) : Bool × Bool := (h.dctl m 5 && h.devCtl.ro, h.dctl m 4 && h.devCtl.ns)

/-- R167. The word of a beat is written to host memory. -/
def Hw.hostStore (h : Hw) (m : Mch) (beat : Nat) (w : Word) : Hw :=
  let at' := h.hostAttr m
  (hostParts (h.hostAddr m 2 (h.dctl m 9) beat) (hostBytes (h.dctl m 6) w)).foldl (fun h e =>
    h.emit (.hostWrite e.1 e.2 at'.1 at'.2)) h

/-- R167. The host read of a beat leaves the device. -/
def Hw.hostAsk (h : Hw) (m : Mch) (beat : Nat) : Hw :=
  let at' := h.hostAttr m
  (hostParts (h.hostAddr m 1 (h.dctl m 10) beat) (hostBytes (h.dctl m 6) 0)).foldl (fun h e =>
    h.emit (.hostRead e.1 e.2.length at'.1 at'.2)) h

/-- The device address that beat `i` writes. -/
def Hw.mdest (h : Hw) (m : Mch) (i : Nat) : Nat := (h.dword m 2 + (if h.dctl m 9 then i else 0)) % 2 ^ 32

/-- R164, R169. Beat `i` has read a word: it is written, and the checksum takes it in once the write has taken effect. -/
def State.mput (s : State) (m : Mch) (i : Nat) (w : Word) : State :=
  let h := s.hw
  let x : State × Res :=
    if h.dctl m 7 then (s.on (fun h => h.hostStore m i w), .ok)
    else s.busWrite (h.macc m) (h.mdest m i) w
  if x.2 = .ok then
    x.1.on (fun h =>
      let st := h.mchOf m
      if h.dctl m 12 then h.setMch m { st with crc := st.crc.map (fun c => crcBytes c (wordBytes w)) } else h)
  else x.1.mfail m i x.2.ecode

/-- R156. The last beat in flight of an aborted descriptor ends, its word written when it came: STATUS follows. -/
def State.abortEnd (s : State) (m : Mch) (b : HostBeat) (w : Option Word) : State :=
  let s := s.on (fun h => h.setMch m { h.mchOf m with wait := none })
  let x : State × Bool := match w with
    | some w => let y := s.busWrite (s.hw.macc m) b.dst w; (y.1, y.2 == .ok)
    | none => (s, false)
  let y := x.1.writeStatusAt m b.cur (statusWord false false true 0 (b.beat + b2n x.2))
  y.1.on (fun h => if y.2 then h else h.mset m MANGLE_MCH_STAT_WBF 1)

/-- R164, R173, R573. The host read of a beat ends: with a word, or with an error. A disabled Mangle goes on with it once it is
enabled (R180). -/
def State.hostEnd (s : State) (m : Mch) (b : HostBeat) (w : Option Word) : State :=
  if b.aborted then s.abortEnd m b w
  else if !s.hw.mangleOn m then
    s.on (fun h => h.setMch m { h.mchOf m with wait := some { b with lost := b.lost || w.isNone } })
  else
    let s := s.on (fun h => h.setMch m { h.mchOf m with wait := none })
    match (if b.lost then none else w) with
    | some w => s.mput m b.beat w
    | none => s.mfail m b.beat 5

/-- R181. The beat in hand issues: REMAIN counts it. -/
def Hw.mcount (h : Hw) (m : Mch) : Hw := h.mset m MANGLE_MCH_STAT_REMAIN (h.mf m MANGLE_MCH_STAT_REMAIN - 1)

/-- R164, R168, R173, R573. A beat, with what becomes of its host read. -/
def State.mbeat (s : State) (m : Mch) (host : HostAns) : State :=
  match (s.hw.mchOf m).wait, host with
  | some _, .later => s
  | some b, .word w => s.hostEnd m b (some w)
  | some b, .error => s.hostEnd m b none
  | none, host =>
    if !s.hw.mbeats m || !s.hw.mturn m then s
    else
      let i := s.hw.dbeat m
      let a := s.hw.msource m i
      let s := s.on (fun h => (h.mtake m).mcount m)
      if s.hw.dctl m 8 then
        let s := s.on (fun h => h.hostAsk m i)
        match host with
        | .word w => s.mput m i w
        | .error => s.mfail m i 5
        | .later =>
          s.on (fun h => h.setMch m { h.mchOf m with wait := some ⟨i, h.mdest m i, h.mf m MANGLE_MCH_CUR_ADDR, false, false⟩ })
      else
        let x := s.busRead (s.hw.macc m) a
        match x.2 with
        | .data w => x.1.mput m i w
        | e => x.1.mfail m i e.ecode

/-- R156, R171. The descriptor is complete: the event, the count, and the next state. -/
def Hw.mcomplete (h : Hw) (m : Mch) : Hw :=
  let done := h.dctl m 13
  let h := h.mset m MANGLE_MCH_CNT_COUNT (h.mf m MANGLE_MCH_CNT_COUNT + 1)
  let h :=
    if h.dctl m 14 then
      (h.mset m MANGLE_MCH_CUR_ADDR (h.dword m 0)).menter m (if h.dctl m 15 then 1 else 2)
    else h.menter m 0
  if done then h.launch m.doneCode else h

/-- R170, R171, R174. Every beat is done: the writebacks, and the end of the descriptor. -/
def State.mfinish (s : State) (m : Mch) : State :=
  if s.hw.mstate m ≠ 3 || s.hw.mf m MANGLE_MCH_STAT_REMAIN ≠ 0 || !s.hw.mturn m then s
  else
    let s := s.on (fun h => h.mtake m)
    let n := s.hw.dword m 3
    let x := s.writeCrc m true
    let y := x.1.writeStatus m (if x.2 then statusWord true false false 0 n else statusWord false true false 8 n)
    y.1.on (fun h => if x.2 && y.2 then h.mcomplete m else h.merror m 8 true)

/-- R573, R582. A device channel's outstanding host read gets no completion. -/
def State.hostTimeout (s : State) (ch : Nat) : State :=
  let m : Mch := ⟨none, ch⟩
  match (s.hw.mchOf m).wait with
  | some b => s.hostEnd m b none
  | none => s

/-- R582. Each beat that waits on a host completion ends. -/
def State.hostCut (s : State) : State := (List.range 16).foldl (fun s ch => s.hostTimeout ch) s

/-! ## The commands -/

/-- A write of MCH_CTRL of the requester's channel. -/
def State.mchWrite (s : State) (w : Requester) (n : Option (Fin 8)) (d : Word) : State :=
  let p : Page := (⟨n, 0⟩ : Mch).page
  s.direct w p 0x10 (fun t => t.mchCtrl ⟨n, s.hw.chanFor p w 0x10⟩ (s.hw.acc w) d)

/-- MANGLE_ARM: a write of MCH_CTRL with ARM, in cluster `n`'s Mangle or the device's. -/
def execMangleArm (w : Requester) (n : Option (Fin 8)) (d : Word) (s : State) : Host.Outcome State Fault Refusal :=
  .next (s.mchWrite w n (d ||| 1))

/-- MANGLE_GO: a write of MCH_CTRL with GO. -/
def execMangleGo (w : Requester) (n : Option (Fin 8)) (d : Word) (s : State) : Host.Outcome State Fault Refusal :=
  .next (s.mchWrite w n (d ||| 2))

/-- MANGLE_ABORT: a write of MCH_CTRL with ABORT. -/
def execMangleAbort (w : Requester) (n : Option (Fin 8)) (d : Word) (s : State) : Host.Outcome State Fault Refusal :=
  .next (s.mchWrite w n (d ||| 4))

/-- MANGLE_CLR: a write of MCH_CTRL with CLR. -/
def execMangleClr (w : Requester) (n : Option (Fin 8)) (d : Word) (s : State) : Host.Outcome State Fault Refusal :=
  .next (s.mchWrite w n (d ||| 8))

/-- MANGLE_START_TRIGGER: an arrival at the start input of channel `ch`. -/
def execMangleStartTrigger (n : Option (Fin 8)) (ch : Fin 16) (a : Arrival) (s : State) : Host.Outcome State Fault Refusal :=
  let m : Mch := ⟨n, if n.isSome then ch.val % 8 else ch.val⟩
  onHw s (fun h =>
    let x := h.arrive a m.startCode (match n with | some c => h.clusterRuns c | none => h.domainRuns 32)
    if x.2 && x.1.b m.page 0 MANGLE_CTRL_EN && x.1.b m.page m.ch MANGLE_MCH_CTRL_TRIG_SEAM then x.1.mtrigger m false else x.1)

/-- DESCRIPTOR_FETCH_DONE. -/
def execDescriptorFetchDone (n : Option (Fin 8)) (ch : Fin 16) (s : State) : Host.Outcome State Fault Refusal :=
  .next (s.mfetch ⟨n, if n.isSome then ch.val % 8 else ch.val⟩)

/-- MANGLE_BEAT; `host` is what becomes of a host read.
DESIGN CHOICE, unsafe: log entry 39. -/
def execMangleBeat (n : Option (Fin 8)) (ch : Fin 16) (host : HostAns) (s : State) : Host.Outcome State Fault Refusal :=
  .next (s.mbeat ⟨n, if n.isSome then ch.val % 8 else ch.val⟩ host)

/-- DESCRIPTOR_COMPLETE. -/
def execDescriptorComplete (n : Option (Fin 8)) (ch : Fin 16) (s : State) : Host.Outcome State Fault Refusal :=
  .next (s.mfinish ⟨n, if n.isSome then ch.val % 8 else ch.val⟩)

/-- HOST_COMPLETION_TIMEOUT of a device channel. -/
def execHostCompletionTimeout (ch : Fin 16) (s : State) : Host.Outcome State Fault Refusal := .next (s.hostTimeout ch)

end Sys2Proof.Machine
end

