-- ==== Sys2Proof/Machine/PageRows.lean ====
section
/-! DEFINITION. The commands that read and write register pages without a row of their own, register pairs, and the Seam's
routing and fire writes (R32 to R43, R143, R155, R562). -/

namespace Sys2Proof.Machine

open Sys2Proof

/-- A write of a page by a requester, made now, with its report. -/
def State.requestWrite (s : State) (w : Requester) (p : Page) (off : Nat) (d : Word) : State :=
  let x := s.pageWrite (s.hw.acc w) p off d
  x.1.on (fun h => h.report w p off x.2)

/-- A read of a page by a requester, made now: the word returned; a core's failed load is its own command's concern.
DESIGN CHOICE, safe: log entry 13. -/
def State.requestRead (s : State) (w : Requester) (p : Page) (off : Nat) : State :=
  let x := s.pageRead (s.hw.acc w) p off
  x.1.on (fun h => { h with resp := [x.2.2] })

/-- The offset is the low word of a register pair of the page. -/
def pairAt (p : Page) (off : Nat) : Bool :=
  match pageInfo p with
  | some i => pairLow i.kind off
  | none => false

/-- The Seam page of a cluster, or GSEAM. -/
def seamPage (n : Option (Fin 8)) : Page :=
  match n with
  | some c => pLSEAM c.val
  | none => pGSEAM

/-- REGISTER_WRITE at an offset of page `idx` of cluster `cl` (15: a device page). -/
def execRegisterWrite (w : Requester) (cl : Fin 16) (idx : BitVec 12) (off : BitVec 8) (d : Word) (s : State) :
    Host.Outcome State Fault Refusal := .next (s.requestWrite w ⟨cl.val, idx.toNat⟩ off.toNat d)

/-- OWNER_WRITE. -/
def execOwnerWrite (w : Requester) (cl : Fin 16) (idx : BitVec 12) (d : Word) (s : State) :
    Host.Outcome State Fault Refusal := .next (s.requestWrite w ⟨cl.val, idx.toNat⟩ 6 d)

/-- LOCK_SET: a write of 1 to LOCK. -/
def execLockSet (w : Requester) (cl : Fin 16) (idx : BitVec 12) (s : State) : Host.Outcome State Fault Refusal :=
  .next (s.requestWrite w ⟨cl.val, idx.toNat⟩ 7 1)

/-- CHSEL_WRITE. -/
def execChselWrite (w : Requester) (cl : Fin 16) (idx : BitVec 12) (d : Word) (s : State) :
    Host.Outcome State Fault Refusal := .next (s.requestWrite w ⟨cl.val, idx.toNat⟩ 8 d)

/-- PAIR_LOW_READ of the pair whose low word stands at `off`; nothing where there is no pair. -/
def execPairLowRead (w : Requester) (cl : Fin 16) (idx : BitVec 12) (off : BitVec 8) (s : State) :
    Host.Outcome State Fault Refusal :=
  .next (if pairAt ⟨cl.val, idx.toNat⟩ off.toNat then s.requestRead w ⟨cl.val, idx.toNat⟩ off.toNat else s)

/-- PAIR_LOW_WRITE. -/
def execPairLowWrite (w : Requester) (cl : Fin 16) (idx : BitVec 12) (off : BitVec 8) (d : Word) (s : State) :
    Host.Outcome State Fault Refusal :=
  .next (if pairAt ⟨cl.val, idx.toNat⟩ off.toNat then s.requestWrite w ⟨cl.val, idx.toNat⟩ off.toNat d else s)

/-- PAIR_HIGH_WRITE of the pair whose low word stands at `off`. -/
def execPairHighWrite (w : Requester) (cl : Fin 16) (idx : BitVec 12) (off : BitVec 8) (d : Word) (s : State) :
    Host.Outcome State Fault Refusal :=
  .next (if pairAt ⟨cl.val, idx.toNat⟩ off.toNat then s.requestWrite w ⟨cl.val, idx.toNat⟩ (off.toNat + 1) d else s)

/-- ROUTING_WRITE of the requester's channel of a cluster's LSEAM, or of GSEAM. -/
def execRoutingWrite (w : Requester) (n : Option (Fin 8)) (d : Word) (s : State) : Host.Outcome State Fault Refusal :=
  .next (s.requestWrite w (seamPage n) 0x10 d)

/-- SEAM_FIRE: a write of GSEAM.FIRE0 or FIRE1. -/
def execSeamFire (w : Requester) (n : Fin 2) (d : Word) (s : State) : Host.Outcome State Fault Refusal :=
  .next (s.requestWrite w pGSEAM (0x80 + n.val) d)

/-- REPORT_READ: a read of DOM.RPT_L. -/
def execReportRead (w : Requester) (s : State) : Host.Outcome State Fault Refusal := .next (s.requestRead w pDOM 0x8E)

end Sys2Proof.Machine
end

