-- ==== Sys2Proof/Machine/CoreBus.lean ====
section
/-! DEFINITION. What a core's bus and its entries do beside the moves: loads that return, stores that drain, copies, fills,
and the entries to exceptions and interrupts (R289, R290, R308, R319 to R328, R335 to R346, R358 to R371). -/

namespace Sys2Proof.Machine

open Sys2Proof

/-! ## Words read and written for a core -/

/-- R328. The place lies in the flash range and the flash is busy. -/
def Hw.flashBusyAt (h : Hw) (p : Place) : Bool :=
  match p with
  | .word g => memKind g == .flash && !h.flash.readable
  | _ => false

/-- R24, R25, R319, R353, R428, R455. One word read for core `k` at a ring: the word, or the reason it failed. A page read
that is refused returns 0 (R35). -/
def State.coreRead (s : State) (k : Fin 32) (ring a : Nat) : State × Except Nat Word :=
  let p := placeOf (.core k) a
  match s.hw.accessFault k ring 0 p with
  | 0 =>
    match p with
    | .unmapped => (s, .error 1)
    | .page p off =>
      let x := s.pageRead ⟨.core k, ring⟩ p off
      (x.1, .ok x.2.2)
    | .word g =>
      match s.seenWord g with
      | .data w => (s, .ok w)
      | _ => (s, .error 3)
  | r => (s, .error r)

/-- R24, R25, R36, R353. One word written for core `k` at a ring: 0, or the INFO of the fault. -/
def State.coreWrite (s : State) (k : Fin 32) (ring a : Nat) (d : Word) : State × Nat :=
  let p := placeOf (.core k) a
  match s.hw.accessFault k ring 1 p with
  | 0 =>
    match p with
    | .unmapped => (s, 1)
    | .page p off =>
      let x := s.pageWrite ⟨.core k, ring⟩ p off d
      (x.1, match x.2 with | .ok => 0 | .refused => 3 | _ => 1)
    | .word g => (s.softWr g d, 0)
  | r => (s, r)

/-! ## Loads (R328, R335, R337, R346) -/

/-- R328, R346. The open load returns: both halves read, lower first; a failing half discards both, and is reported at the
load's own move. -/
def State.openReturn (s : State) (k : Fin 32) (l : OpenLoad) : State :=
  let x := (spanOf l.addr l.dbl).foldl (fun (x : State × List Word × Option (Nat × Nat)) a =>
    match x.2.2 with
    | some _ => x
    | none =>
      let y := x.1.coreRead k l.ring a
      match y.2 with
      | .ok w => (y.1, x.2.1 ++ [w], none)
      | .error r => (y.1, x.2.1, some (a, r))) (s, [], none)
  let s := x.1.on (fun h => h.setCore k { h.core k with openLoad := none })
  match x.2.2 with
  | some (a, r) =>
    s.on (fun h => (h.setCore k { h.core k with
      pc := l.pc, half := l.half, rpt := l.rpt, rptInt := l.rptInt, rptCnt := l.rptCnt, pkt := none }).raise k 0x03 r a)
  | none =>
    s.on (fun h =>
      let c := h.core k
      h.setCore k { c with lsuA := l.next.getD c.lsuA, loads := c.loads ++ [Load.mk x.2.1] }.loadsFinish)

/-- LOAD_RETURN of core `k`: the load that holds the core, else the oldest load on its way. -/
def State.loadReturn (s : State) (k : Fin 32) : State :=
  let c := s.hw.core k
  if !s.hw.clusterRuns (clOf k) then s
  else match c.openLoad with
    | some l =>
      if (spanOf l.addr l.dbl).any (fun a => s.hw.flashBusyAt (placeOf (.core k) a)) then s else s.openReturn k l
    | none => s.setCore k c.loadFinish

/-! ## The store buffer (R338, R342, R345) -/

/-- R338, R345, R358. An entry drains: its words are written in order, and the first that fails raises STORE_FAULT. -/
def State.drainEntry (s : State) (k : Fin 32) (e : Store) : State :=
  let x := (List.range e.words.length).foldl (fun (x : State × Nat) i =>
    if x.2 ≠ 0 then x else x.1.coreWrite k e.ring ((e.addr + i) % 2 ^ 32) (e.words.getD i 0)) (s, 0)
  if x.2 = 0 then x.1 else x.1.on (fun h => h.coreFault k 0x04 (if e.upper then 4 else x.2))

/-- STORE_DRAIN: the oldest entry of core `k`. While SNAP captures, only marked entries drain (R342).
DEDUCED, unsafe: log entry 61. -/
def State.storeDrain (s : State) (k : Fin 32) : State :=
  let c := s.hw.core k
  match c.sb with
  | [] => s
  | e :: rest =>
    if !s.hw.clusterRuns (clOf k) || (s.hw.b pSNAP 0 SNAP_STATUS_CAPTURING && !e.marked) then s
    else (s.setCore k { c with sb := rest }).drainEntry k e

/-! ## Copies (R289, R290) -/

/-- R290. The copy stops at a word that failed. -/
def Hw.copyStop (h : Hw) (k : Fin 32) (left info : Nat) : Hw :=
  (h.setCore k { h.core k with cpy := none, cpyR := w40 left }).coreFault k 0x08 info

/-- R289. One word of the copy in progress. -/
def State.copyWord (s : State) (k : Fin 32) : State :=
  match (s.hw.core k).cpy with
  | none => s
  | some x =>
    if s.hw.flashBusyAt (placeOf (.core k) x.src) then s
    else
      let r := s.coreRead k x.ring x.src
      match r.2 with
      | .error _ => r.1.on (fun h => h.copyStop k x.count 5)
      | .ok w =>
        let y := r.1.coreWrite k x.ring x.dst w
        if y.2 ≠ 0 then y.1.on (fun h => h.copyStop k x.count y.2)
        else
          let next : Option CopyOp :=
            if x.count ≤ 1 then none else some ⟨(x.src + 1) % 2 ^ 32, (x.dst + 1) % 2 ^ 32, x.count - 1, x.ring⟩
          y.1.on (fun h => h.setCore k { h.core k with cpy := next, cpyR := if next.isNone then 0 else (h.core k).cpyR })

/-- R289. `n` words of the copy in progress. Its writes follow the older stores through the buffer, and wait with them while
SNAP captures. -/
def State.copyWords (s : State) (k : Fin 32) (n : Nat) : State :=
  if !(s.hw.core k).sb.isEmpty || s.hw.b pSNAP 0 SNAP_STATUS_CAPTURING || !s.hw.clusterRuns (clOf k) || s.hw.locked k then s
  else (List.range (min n (match (s.hw.core k).cpy with | some x => x.count | none => 0))).foldl (fun s _ => s.copyWord k) s

/-! ## Fills (R319 to R323) -/

/-- R319, R321. The line of packet `g` as it comes from its region. -/
def State.lineAt (s : State) (g : Nat) : FLine :=
  let a := g / 8 * 8
  { addr := a, words := (List.range 8).map (fun i => match s.seenWord (a + i) with | .data w => some w | _ => none) }

/-- R323. A fill has ended: the first line that waited for it and is still wanting is requested. -/
def Hw.nextFill (h : Hw) (k : Fin 32) : Hw :=
  let c := h.core k
  match c.wants.filter (fun l => (c.lineWord l).isNone) with
  | [] => h.setCore k { c with wants := [] }
  | l :: rest => (h.setCore k { c with wants := rest }).wantLine k l

/-- R321, R322, R326. The fill of the line that holds packet address `a` completes, where it is the one under way.
DEDUCED, unsafe: log entry 67. -/
def State.fillDone (s : State) (k : Fin 32) (a : Nat) : State :=
  match placeOf (.core k) (a % 2 ^ 32) with
  | .word g =>
    if !s.hw.clusterRuns (clOf k) || !lineRegion k g || s.hw.memStopped g || s.hw.flashBusyAt (.word g) then s
    else
      let s := s.demand k
      let c := s.hw.core k
      match c.fill with
      | none => s
      | some f =>
        if f.line ≠ g / 8 * 8 then s
        else s.on (fun h =>
          (h.setCore k { c.takeLine (s.lineAt g) (fetchLine k c.pc) f.caching with fill := none }).nextFill k)
  | _ => s

/-! ## Entries (R358 to R366) -/

/-- What an entry is for. -/
structure Entry where
  code : Nat
  info : Nat
  faddr : Nat
  retPc : Nat
  half : Bool
  source : Option Nat
deriving DecidableEq, Repr

/-- R361. The ring and the address an entry goes to. -/
def Hw.entryRing (h : Hw) (k : Fin 32) (e : Entry) : Nat :=
  let x := h.f (pDIC (clOf k)) 0 (DIC_CORE_XCFG_XRING (noOf k))
  min (h.core k).ring (if e.source.isSome then 1 else if 2 ≤ x then 1 else x)
def Hw.entryAddr (h : Hw) (k : Fin 32) (intr : Bool) : Nat :=
  let p := pDIC (clOf k)
  if intr then h.f p 0 (DIC_CORE_IVEC_ADDR (noOf k)) else h.f p 0 (DIC_CORE_XVEC_ADDR (noOf k))

/-- R308, R365. Words 4 to 10 of the frame for a division stopped where it stands: its steps, partial remainder and partial
quotient are free; `n` numbers the free values. -/
def DivOp.words (d : DivOp) (c : CoreSt) (n : Nat) : List Word :=
  let steps := d.steps + (Config.freeWord n).toNat % max 1 (22 - d.steps)
  [w40 (d.kind * 64 + steps), d.a, Config.freeWord (n + 1), Config.freeWord (n + 2), Config.freeWord (n + 3), c.divR, c.divM]

/-- R365, R366. The sixteen words of the frame; `divWords` are words 4 to 10. -/
def Hw.frameWords (h : Hw) (k : Fin 32) (e : Entry) (divWords : List Word) : List Word :=
  let c := h.core k
  let f : SavedFrame :=
    { kind := if e.source.isSome then 2 else 1, old := c.ring, new := h.entryRing k e, code := e.code, info := e.info,
      rptAct := c.rpt == some e.retPc, rptInt := c.rpt == some e.retPc && c.rptInt, half := e.half,
      divAct := c.div.isSome, cpyAct := c.cpy.isSome, sat := c.sat, ien := h.ien k, rptCnt := c.rptCnt }
  let cpy : List Word := match c.cpy with
    | some x => [w40 x.src, w40 x.dst, w40 x.count, c.cpyR]
    | none => [0, 0, 0, 0]
  [f.word, w40 e.retPc, w40 e.faddr, w40 (c.preds - c.preds % 2)] ++ divWords ++ [0] ++ cpy

/-- R308, R362. The core as the handler finds it. -/
def CoreSt.enterHandler (c : CoreSt) (ring addr : Nat) (e : Entry) : CoreSt :=
  { c with
    ring := ring, pc := addr, half := false, rpt := none, rptInt := false, rptCnt := 0, exc := none,
    divR := if c.div.isSome then 0 else c.divR, divM := if c.div.isSome then 0 else c.divM,
    cpyR := if c.cpy.isSome then 0 else c.cpyR, div := none, cpy := none,
    entered := some (e.code, e.retPc), presented := if e.source.isSome then e.source else c.presented }

/-- R362 to R366, R370. Core `k` enters a handler, or locks up when its frame does not fit. -/
def State.enter (s : State) (k : Fin 32) (e : Entry) : State :=
  if !s.hw.frameFits k 16 then s.on (fun h => (h.setWaiting k false).lockup k 1 e.code 0 e.retPc)
  else
    let s := if (s.hw.core k).exc.isNone then s.ranAhead k (s.hw.core k).pc else s
    let h := s.hw
    let c := h.core k
    let xfp := h.xfp k - 16
    let dw : List Word := match c.div with
      | some d => d.words c h.freeNo
      | none => [0, 0, 0, 0, 0, 0, 0]
    let s := s.wrList (tcm k xfp) (h.frameWords k e dw)
    let s := s.on (fun h =>
      let h := match c.div with
        | some d => { h with freeNo := h.freeNo + 4, divSaved := ⟨dw.take 5, { d with steps := (dw.getD 0 0).toNat % 64 }⟩ :: h.divSaved }
        | none => h
      let h := match c.cpy with
        | some x => { h with cpySaved := ⟨tcm k xfp, [w40 x.src, w40 x.dst, w40 x.count], x.ring⟩ :: h.cpySaved }
        | none => h
      let addr := h.entryAddr k e.source.isSome
      let h := (h.setWaiting k false).setCore k (c.enterHandler (h.entryRing k e) addr e)
      let h := (h.leavePacket k false).setXfp k xfp
      (if e.source.isSome then h.setIen k false else h).traceMsg k 1 addr)
    s.demand k

/-- Entries are possible: the core's clock runs and it is neither held, locked up nor halted.
DEDUCED, unsafe: log entry 64. -/
def Hw.canEnter (h : Hw) (k : Fin 32) : Bool :=
  h.clusterRuns (clOf k) && !h.isHeld k && !h.locked k && !(h.core k).isHalted

/-- R327. A fetch of core `k` waits on a busy flash. -/
def State.fetchBusy (s : State) (k : Fin 32) : Bool :=
  match s.missing k with
  | some line => memKind line == .flash && !s.hw.flash.readable
  | none => false

/-- R328. A load of core `k` on its way waits on a busy flash. -/
def State.loadBusy (s : State) (k : Fin 32) : Bool :=
  match (s.hw.core k).openLoad with
  | some l => (spanOf l.addr l.dbl).any (fun a => s.hw.flashBusyAt (placeOf (.core k) a))
  | none => false

/-- R318, R346. The load on its way, if any, returns words that are good. -/
def State.openGood (s : State) (k : Fin 32) : Bool :=
  match (s.hw.core k).openLoad with
  | some l =>
    (spanOf l.addr l.dbl).all (fun a =>
      match placeOf (.core k) a with
      | .word g => (match s.seenWord g with | .data _ => true | _ => false)
      | p => s.hw.accessFault k l.ring 0 p == 0)
  | none => true

/-- R318, R327, R328, R360. The core stands at a boundary at which an entry may be taken: none while a load waits on a busy
flash or is about to fail; one whose address lies in the flash range not while the packet at hand waits, or has waited, on a
busy flash.
DEDUCED, unsafe: log entry 147. -/
def State.boundary (s : State) (k : Fin 32) (intr : Bool) : Bool :=
  let c := s.hw.core k
  c.atBoundary && c.exc.isNone && !s.hw.b pRST 0 RST_STATUS_PENDING && !s.loadBusy k && s.openGood k &&
    !((s.fetchBusy k || c.busyWait) && (match placeOf (.core k) (s.hw.entryAddr k intr) with
      | .word g => memKind g == .flash
      | _ => false))

/-- R327. A fetch that waits on a busy flash is abandoned, its fill and its line-buffer entry with it. -/
def State.abandon (s : State) (k : Fin 32) : State :=
  if s.fetchBusy k then
    let line := s.missing k
    s.on (fun h =>
      let h := h.setCore k { h.core k with
        fill := (h.core k).fill.filter (fun f => some f.line != line), wants := (h.core k).wants.filter (fun l => some l != line) }
      let h := if (h.core k).fill.isNone then h.nextFill k else h
      h.coreCount k CORE_FBUSY_ABANDON_COUNT 1)
  else s

/-- EXCEPTION_ENTRY of core `k`: the precise exception raised, else the oldest imprecise one at a boundary; `copied` words of
a copy in progress have been done. -/
def State.exceptionEntry (s : State) (k : Fin 32) (copied : Nat) : State :=
  if !s.hw.canEnter k then s
  else match (s.hw.core k).exc with
    | some x =>
      (s.copyWords k copied).enter k ⟨x.code, x.info, x.faddr, x.retPc, x.half, none⟩
    | none =>
      match (s.hw.core k).faults with
      | [] => s
      | x :: _ =>
        if !s.boundary k false then s
        else
          let s := (s.abandon k).copyWords k copied
          let c := s.hw.core k
          (s.setCore k { c with faults := c.faults.drop 1 }).enter k ⟨x.code, x.info, 0, c.pc, false, none⟩

/-- INTERRUPT_ENTRY of core `k`, at a boundary at which no imprecise exception waits (R360). -/
def State.interruptEntry (s : State) (k : Fin 32) (copied : Nat) : State :=
  let c := s.hw.core k
  if !s.hw.canEnter k || !s.hw.ien k || !c.faults.isEmpty || !s.boundary k true then s
  else match s.hw.presentedSrc (clOf k) (noOf k) with
    | none => s
    | some src => ((s.abandon k).copyWords k copied).enter k ⟨0, src, 0, c.pc, false, some src⟩

/-! ## The commands -/

/-- CPY_COMPLETE: the copy of core `k` finishes, or stops at a failing word. -/
def execCpyComplete (k : Fin 32) (s : State) : Host.Outcome State Fault Refusal :=
  .next (s.copyWords k (2 ^ 24))

/-- LOAD_RETURN. -/
def execLoadReturn (k : Fin 32) (s : State) : Host.Outcome State Fault Refusal := .next (s.loadReturn k)

/-- STORE_DRAIN. -/
def execStoreDrain (k : Fin 32) (s : State) : Host.Outcome State Fault Refusal := .next (s.storeDrain k)

/-- FETCH_FILL_DONE: the fill of core `k` for the line that holds packet address `a`. -/
def execFetchFillDone (k : Fin 32) (a : BitVec 32) (s : State) : Host.Outcome State Fault Refusal :=
  .next (s.fillDone k a.toNat)

/-- EXCEPTION_ENTRY.
DEDUCED, unsafe: log entry 63. -/
def execExceptionEntry (k : Fin 32) (copied : Nat) (s : State) : Host.Outcome State Fault Refusal :=
  .next (s.exceptionEntry k copied)

/-- INTERRUPT_ENTRY. -/
def execInterruptEntry (k : Fin 32) (copied : Nat) (s : State) : Host.Outcome State Fault Refusal :=
  .next (s.interruptEntry k copied)

end Sys2Proof.Machine
end

