-- ==== Sys2Proof/Machine/Recorder.lean ====
section
/-! DEFINITION. What the Hamper, SNAP and the command applier read and write: records, captures and applied commands (R438 to
R441, R532, R533, R547, R548). -/

namespace Sys2Proof.Machine

open Sys2Proof

/-- R441, R532. An address the Hamper and SNAP may read: a global cluster window, the device SRAM or a device page. -/
def recordable (p : Place) : Bool :=
  match p with
  | .unmapped => false
  | .page _ _ => true
  | .word g => memKind g != .flash && memKind g != .dram

/-- R25, R441, R532. One read by the Hamper or SNAP: the word, or 0 and a failure.
DEDUCED, unsafe: log entry 82. -/
def State.recordRead (s : State) (r : Requester) (addr : Nat) : State × Word × Bool :=
  if !recordable (placeOf r addr) then (s, 0, true)
  else
    let x := s.busRead ⟨r, 0⟩ addr
    match x.2 with
    | .data w => (x.1, w, false)
    | _ => (x.1, 0, true)

/-- Reads in order: the words, each with its failure. -/
def State.recordReads (s : State) (r : Requester) (addrs : List Nat) : State × List (Word × Bool) :=
  addrs.foldl (fun x a =>
    let y := x.1.recordRead r a
    (y.1, x.2 ++ [y.2])) (s, [])

/-! ## Hamper records -/

/-- R439, R422. One line of a record, in one line slot: its words, and in each slot its generation and its POISON bit. -/
def State.recordLine (s : State) (l gen : Nat) (ws : List (Word × Bool)) : State :=
  let s := s.writeLine l ((List.range 8).map (fun i => (ws.getD i (0, false)).1)) (BitVec.ofNat 8 (gen * 16))
  (List.range 8).foldl (fun s i =>
    if (ws.getD i (0, false)).2 then s.setTag (lineBase l + i) (BitVec.ofNat 8 (gen * 16 + 8)) else s) s

/-- R438. The header of a record. -/
def HamperRec.header (x : HamperRec) (err : Bool) : Word :=
  w40 (b2n err * 2 ^ 39 + b2n x.gap * 2 ^ 38 + b2n x.trig * 2 ^ 37 + x.seq % 2 ^ 32)

/-- R438 to R441. The record in hand: its signals are read in order, its lines written, the first one last. -/
def State.hamperRecord (s : State) : State :=
  let hm := s.hw.hamper
  match hm.rec' with
  | none => s
  | some x =>
    if !s.hw.dramReady || !s.hw.domainRuns 32 then s
    else
      let r := s.recordReads .hamper ((List.range hm.n).map (fun i => s.hw.f pHAMPER i HAMPER_SIG_ADDR))
      let ws := (x.header (r.2.any (·.2)), false) :: (w40 x.time, false) :: r.2
      let line (s : State) (j : Nat) : State := s.recordLine (hm.base + x.pos * hm.r + j) x.gen (ws.drop (8 * j))
      let s := (List.range (hm.r - 1)).foldl (fun s j => line s (j + 1)) r.1
      (line s 0).on (fun h => h.hamperEnd x)

/-! ## Captures -/

/-- R342, R532. A store-buffer entry marked by SNAP has not drained yet. The buffers of a stopped cluster do not count. -/
def Hw.drainWaits (h : Hw) : Bool :=
  (List.range 32).any (fun k => h.clusterRuns (k / 4) && (h.core k).sb.any (·.marked))

/-- R532. The publication entries enabled, ascending. -/
def Hw.pubs (h : Hw) : List Nat := (List.range 64).filter (fun i => h.b pDOM i DOM_PUB_EN)

/-- R532, R535. The capture of tick `t` is complete with these values: CAPV, the event, and the publication. -/
def Hw.publish (h : Hw) (t : SnapTick) (vals : List (Nat × Word × Bool)) : Hw :=
  let h := vals.foldl (fun h v => h.setReg pDOM 0x11 v.1 v.2.1) h
  let h := (h.setF pSNAP 0 SNAP_STATUS_CAPTURING 0).launch (devCode 0x011)
  let h := if vals.any (fun v => v.2.2) then h.irqBit pSNAP SNAP_IRQ_CAP_ERR 0 else h
  let w0 := w40 (b2n (vals.any (fun v => v.2.2)) * 2 ^ 39 + vals.length * 2 ^ 32 + t.tn % 2 ^ 32)
  let h := h.onDom (fun d => { d with ticks := d.ticks.map (fun x => if x = t then { x with done := true } else x) })
  let h := h.sendSeq 1 0 1 (w0 :: vals.map (fun v => v.2.1))
  Hw.snapNext (h.dom.ticks.length + 1) h

/-- R46, R533, R563. The FAB_CLK edges after the tick edge: three in every two PWM_CLK cycles, one of each three at an even
PWM_CLK edge. -/
def Hw.fabSince (h : Hw) (at' : Nat) : Nat := 3 * h.now / 2 - 3 * at' / 2

/-- R533, R563. The duration of the capture of tick `t`. -/
def Hw.capTime (h : Hw) (t : SnapTick) : Hw :=
  let cyc := min 0xFFFF (h.fabSince t.since)
  (h.setF pSNAP 0 SNAP_CAPTIME_CYC cyc).setF pSNAP 0 SNAP_CAP_MAX_CYC (max cyc (h.f pSNAP 0 SNAP_CAP_MAX_CYC))

/-- R532, R533. The capture in hand completes: the first `n` enabled entries have been read, any other failed.
DEDUCED, unsafe: log entry 105. -/
def State.capture (s : State) (n : Nat) : State :=
  match s.hw.dom.ticks with
  | [] => s
  | t :: _ =>
    let ids := s.hw.pubs
    let r := s.recordReads .snap ((ids.take n).map (fun i => s.hw.f pDOM i DOM_PUB_ADDR))
    let vals := (ids.take n).zip r.2 ++ (ids.drop n).map (fun i => (i, (0 : Word), true))
    r.1.on (fun h => (h.capTime t).publish t vals)

/-- A capture is in hand. -/
def Hw.capturing (h : Hw) : Bool :=
  h.b pSNAP 0 SNAP_STATUS_CAPTURING && h.domainRuns 34 && (match h.dom.ticks with | t :: _ => !t.done | [] => false)

/-- R533. 10 µs have passed since the edge of the tick in hand. -/
def Hw.captureOver (h : Hw) : Bool := match h.dom.ticks with | t :: _ => decide (t.since + 4000 ≤ h.now) | [] => false

/-! ## Applied commands -/

/-- R547. The applier's check of one write: where it lies, and R33 of a page. A page or memory whose clock is stopped passes,
and its write then fails as it is issued. -/
def Hw.applyCheck (h : Hw) (w : Nat × Word) : Bool :=
  let a : Acc := ⟨.applier, 1⟩
  match placeOf .applier w.1 with
  | .unmapped => false
  | .word g => memKind g != .flash
  | .page p off =>
    match pageInfo p with
    | none => false
    | some i => if off = 8 then true else if off = 6 then !h.b p 0 LOCK_BIT else h.passes a p i off

/-- R547. The command of a tick that the applier takes next. -/
def nextCommand (q : List QCmd) (tn : Nat) : Option QCmd :=
  (q.filter (fun c => c.tick == tn)).foldl (fun best c =>
    match best with
    | none => some c
    | some b => if 2 * c.src + b2n c.bcast < 2 * b.src + b2n b.bcast then some c else some b) none

/-- R547. The writes in order; the number of the first one refused, where one is. -/
def State.applyWrites (s : State) (ws : List (Nat × Word)) : State × Option Nat :=
  (List.range ws.length).foldl (fun (x : State × Option Nat) i =>
    match x.2 with
    | some _ => x
    | none =>
      let w := ws.getD i (0, 0)
      let y := x.1.busWrite ⟨.applier, 1⟩ w.1 w.2
      (y.1, if y.2 = .ok then none else some i)) (s, none)

/-- R36. A page write that the check refuses is logged as any refused write is. -/
def Hw.logCheck (h : Hw) (w : Nat × Word) : Hw :=
  match placeOf .applier w.1 with
  | .page p off => if (pageInfo p).isSome then h.logRefused ⟨.applier, 1⟩ p off else h
  | _ => h

/-- R547, R548. A command is applied: its result and its report. -/
def State.applyCommand (s : State) (q : QCmd) : State :=
  match q.writes.findIdx? (fun w => !s.hw.applyCheck w) with
  | some i => s.on (fun h => (h.logCheck (q.writes.getD i (0, 0))).failReport q.src (reportWords 6 q.tick q.id q.eseq i))
  | none =>
    let x := s.applyWrites q.writes
    match x.2 with
    | some i => x.1.on (fun h => h.failReport q.src (reportWords 7 q.tick q.id q.eseq i))
    | none =>
      let s := x.1.on (fun h => h.incF pDOM 0 DOM_APPLY_CNT_COUNT)
      if q.ack then s.on (fun h => h.sendReport q.src (reportWords 0 q.tick q.id q.eseq 0)) else s

/-- R547. The applier takes the next command of the oldest tick whose capture is over. -/
def State.commandApply (s : State) : State :=
  match s.hw.dom.ticks with
  | [] => s
  | t :: _ =>
    if !t.done || !s.hw.domainRuns 32 || s.hw.b pRST 0 RST_STATUS_PENDING then s
    else match nextCommand s.hw.dom.cmdQ t.tn with
      | none => s
      | some q =>
        let s := s.on (fun h => h.onDom (fun d => { d with cmdQ := d.cmdQ.erase q }))
        (s.applyCommand q).on (fun h => Hw.snapNext (h.dom.ticks.length + 1) h)

/-! ## The commands -/

/-- HAMPER_RECORD_COMPLETE. -/
def execHamperRecordComplete (s : State) : Host.Outcome State Fault Refusal := .next s.hamperRecord

/-- CAPTURE_COMPLETE: every read has returned. -/
def execCaptureComplete (_ : Unit) (s : State) : Host.Outcome State Fault Refusal :=
  .next (if s.hw.capturing && !s.hw.drainWaits then s.capture 64 else s)

/-- CAPTURE_TIMEOUT: 10 µs after the tick edge the reads of the first `n` enabled entries have returned. -/
def execCaptureTimeout (n : Fin 64) (_ : Unit) (s : State) : Host.Outcome State Fault Refusal :=
  .next (if s.hw.capturing && s.hw.captureOver then
      (s.capture (if s.hw.drainWaits then 0 else n.val)).on (fun h => h.irqBit pSNAP SNAP_IRQ_CAP_ERR 0)
    else s)

/-- COMMAND_APPLY. -/
def execCommandApply (s : State) : Host.Outcome State Fault Refusal := .next s.commandApply

end Sys2Proof.Machine
end

