-- ==== Sys2Proof/Machine/HostBus.lean ====
section
/-! DEFINITION. Accesses that come from outside the device: host requests to the BARs, the windows of BAR4, the resets of the
host interface, the values of session DATA, and the debug access port (R5 to R8, R26, R568 to R583, R597, R598, R659). -/

namespace Sys2Proof.Machine

open Sys2Proof

/-! ## Host slots (R26, R574) -/

/-- What an 8-byte slot of a BAR holds. -/
inductive Slot
  | none
  /-- A page register or a word of Loop Engine data memory, by its address. -/
  | plain (addr : Nat)
  /-- A DRAM word of BAR2 or of the mailbox area. -/
  | dram (g : Nat)
  /-- Word `w` of the snapshot window, and of the Hamper window. -/
  | snap (w : Nat)
  | hamper (w : Nat)
  /-- Bytes of the MSI-X table, and of the pending bit array, from an offset on. -/
  | msix (o : Nat)
  | pba (o : Nat)
deriving DecidableEq, Repr

/-- R26. BAR0. -/
def bar0Slot (o : Nat) : Slot :=
  if o < 0x800000 then .plain (0x04800000 + o / 8)
  else if o < 0x1000000 then
    let n := (o - 0x800000) / 0x100000
    let r := (o - 0x800000) % 0x100000
    if r < 0x80000 then .plain (winBase n + 0x180000 + r / 8)
    else if r < 0xA0000 then .plain (winBase n + 0x1C0000 + (r - 0x80000) / 8)
    else .none
  else .none

/-- R574, R577. BAR4. -/
def Hw.bar4Slot (h : Hw) (o : Nat) : Slot :=
  if o < 0x1000000 then .snap (o / 8)
  else if o < 0x1080000 then .dram (0x10000000 + (8 * h.f pMBOX 0 MBOX_MBASE_LINE + (o - 0x1000000) / 8) % 2 ^ 29)
  else if o < 0x1081000 then .msix (o - 0x1080000)
  else if o < 0x1081020 then .pba (o - 0x1081000)
  else if 0x2000000 ≤ o ∧ o < 0x4000000 then .hamper ((o - 0x2000000) / 8)
  else .none

/-- The slot at a byte offset of a BAR: 0 for BAR0, 1 for BAR2, 2 for BAR4. -/
def Hw.slotAt (h : Hw) (bar : Fin 3) (o : Nat) : Slot :=
  match bar.val with
  | 0 => bar0Slot o
  | 1 => if o < 2 ^ 32 then .dram (0x10000000 + o / 8) else .none
  | _ => h.bar4Slot o

/-- R576. The DRAM word behind word `w` of the snapshot window, where the host's lease shows one. -/
def Hw.snapSlot (h : Hw) (w : Nat) : Option Nat :=
  let d := h.dom
  if h.b pSNAP 0x30 SNAP_LEASE_VALID && decide (w < 16384 * 8 * d.stride) then
    some (lineBase (d.block (h.f pSNAP 0x30 SNAP_LEASE_BUF) 0) + w)
  else none

/-- R578. The DRAM word behind word `w` of the Hamper window, while the Hamper is frozen. -/
def Hw.hamperSlot (h : Hw) (w : Nat) : Option Nat :=
  let x := h.hamper
  if h.hState = 4 then
    let j := ((h.f pHAMPER 0 HAMPER_LAST_IDX_POS + 1) * x.r + h.f pPCIE 0 PCIE_HWIN_LINE + w / 8) % max 1 (x.k * x.r)
    some (lineBase (x.base + j) + w % 8)
  else none

/-! ## Host reads -/

/-- R5. A slot image: the word, and the tag byte of a DRAM slot. -/
def slotImage (w : Word) (tag : Nat) : Nat := w.toNat + tag % 256 * 2 ^ 40

/-- R5, R428, R571. A DRAM word read by the host: its image and whether it is poisoned. -/
def State.hostDram (s : State) (g : Nat) : State × Nat × Bool :=
  if s.hw.memStopped g then (s, 0, false)
  else
    let bad := s.poisoned g
    let s := if bad then s.on (fun h => (h.incF pPCIE 0 PCIE_POISON_CNT_COUNT).irqBit pPCIE PCIE_IRQ_POISON 0) else s
    let tag := s.tag g
    (s, slotImage (s.rd g) (if bad then (tag ||| 8).toNat else tag.toNat), bad)

/-- R572. An access meets a DRAM that is not ready. -/
def State.dramMissed (s : State) : State := s.on (fun h => h.irqBit pPCIE PCIE_IRQ_DRAM_NR 0)

/-- R24, R569. A slot is read once: its image and whether it is poisoned. -/
def State.slotRead (s : State) (x : Slot) : State × Nat × Bool :=
  match x with
  | .none => (s, 0, false)
  | .plain a =>
    let y := s.busRead ⟨.host, 1⟩ a
    (y.1, match y.2 with | .data w => slotImage w 0 | _ => 0, false)
  | .dram g => if s.hw.dramReady then s.hostDram g else (s.dramMissed, 0, false)
  | .snap w =>
    match s.hw.snapSlot w with
    | some g => s.hostDram g
    | none => (s, 0, false)
  | .hamper w =>
    if !s.hw.dramReady then (s.dramMissed, 0, false)
    else match s.hw.hamperSlot w with
      | some g => s.hostDram g
      | none => (s, 0, false)
  | .msix o => (s, (List.range 8).foldl (fun n i => n + s.hw.msixByte (o + i) * 2 ^ (8 * i)) 0, false)
  | .pba o => (s, (List.range 8).foldl (fun n i => n + s.hw.pbaByte (o + i) * 2 ^ (8 * i)) 0, false)

/-- The bytes of a slot image that a request [off, off + len) takes from slot number `n`. -/
def slotPart (image n off len : Nat) : List Nat :=
  ((List.range 8).filter (fun i => decide (off ≤ 8 * n + i ∧ 8 * n + i < off + len))).map (fun i => bitsOf image (8 * i) 8)

/-- R8, R566, R568, R569, R571. A host read of `len` bytes: one read of each slot touched, ascending, and the completion.
DEDUCED, unsafe: log entry 115. -/
def State.hostReq (s : State) (bar : Fin 3) (off len : Nat) (ro ns : Bool) : State :=
  if !s.hw.hostOn || len = 0 then s
  else
    let first := off / 8
    let x := (List.range ((off + len - 1) / 8 - first + 1)).foldl (fun (x : State × List Nat × Bool) i =>
      let y := x.1.slotRead (x.1.hw.slotAt bar (8 * (first + i)))
      (y.1, x.2.1 ++ slotPart y.2.1 (first + i) off len, x.2.2 || y.2.2)) (s, [], false)
    x.1.on (fun h => h.emit (.hostData x.2.1 (x.2.2 && h.b pPCIE 0 PCIE_CTRL_POISON_EP) ro ns))

/-! ## Host writes -/

/-- R36, R570. A host write of a slot's word; a refused or stopped one is counted. -/
def State.slotWrite (s : State) (bar : Fin 3) (o : Nat) (x : Slot) (d : Word) : State :=
  match x with
  | .plain a =>
    let y := s.busWrite ⟨.host, 1⟩ a d
    match y.2 with
    | .ok => y.1
    | .unmapped => y.1
    | _ => y.1.on (fun h => h.hostRefused bar.val o)
  | .dram g =>
    if !s.hw.dramReady then s.dramMissed
    else if s.hw.memStopped g then s.on (fun h => h.hostRefused bar.val o)
    else s.softWr g d
  | _ => s

/-- R570. A partial write of a slot is discarded and counted; only the first of a request is located. -/
def Hw.partialWrite (h : Hw) (bar o : Nat) (first : Bool) : Hw :=
  let h := (h.incF pPCIE 0 PCIE_PARTIAL_CNT_COUNT).irqBit pPCIE PCIE_IRQ_PARTIAL 0
  if first then (h.setF pPCIE 0 PCIE_HERR_BAR bar).setF pPCIE 0 PCIE_HERR_OFFSET o else h

/-- A slot that host writes can reach as a slot (R574, R575). -/
def Slot.writable (x : Slot) : Bool :=
  match x with
  | .plain _ => true
  | .dram _ => true
  | _ => false

/-- R575. The bytes of the MSI-X table that a write covers. -/
def Hw.msixWrite (h : Hw) (o : Nat) (bytes : List (Option (BitVec 8))) : Hw :=
  (List.range 8).foldl (fun h i => match bytes.getD i none with | some b => h.msixSet (o + i) b.toNat | none => h) h

/-- R572. A slot of BAR2, of the mailbox area or of the Hamper window. -/
def Slot.inDram (x : Slot) : Bool :=
  match x with
  | .dram _ => true
  | .hamper _ => true
  | _ => false

/-- R6, R7, R568, R570, R572. The bytes a request brings to slot `o / 8`, where it brings any. `seen`: a slot of the request has
been discarded before. -/
def State.hostSlot (s : State) (bar : Fin 3) (o : Nat) (bytes : List (Option (BitVec 8))) (seen : Bool) : State × Bool :=
  let x := s.hw.slotAt bar o
  if bytes.all (·.isNone) then (s, seen)
  else match x with
    | .msix t => (s.on (fun h => (h.msixWrite t bytes).vectorsFlush), seen)
    | _ =>
      let s := if x.inDram && !s.hw.dramReady then s.dramMissed else s
      if !x.writable then (s, seen)
      else if (bytes.take 5).all (·.isSome) then
        (s.slotWrite bar o x (wordOfBytes ((bytes.take 5).map (fun b => (b.getD 0).toNat))), seen)
      else (s.on (fun h => h.partialWrite bar.val o (!seen)), true)

/-- R568. A host write: byte `i` of the list goes to byte offset off + i where it is enabled. -/
def State.hostStoreReq (s : State) (bar : Fin 3) (off : Nat) (bytes : List (Option (BitVec 8))) : State :=
  if !s.hw.hostOn || bytes.isEmpty then s
  else
    let padded := List.replicate (off % 8) none ++ bytes ++ List.replicate 7 none
    ((List.range ((off % 8 + bytes.length + 7) / 8)).foldl (fun (x : State × Bool) i =>
      x.1.hostSlot bar (8 * (off / 8 + i)) ((padded.drop (8 * i)).take 8) x.2) (s, false)).1

/-! ## Session DATA (R597, R598) -/

/-- R597. The value and status of a local reference. -/
def State.svcLocal (s : State) (a : Nat) : State × Word × Nat :=
  if !svcReadable a then (s, 0, 4)
  else
    let x := s.busRead ⟨.service, 2⟩ a
    match x.2 with
    | .data w => (x.1, w, 0)
    | .bad _ => (x.1, 0, 5)
    | _ => (x.1, 0, 4)

/-- R537, R597. The value and status of word `w` of a node's block in buffer `b`. -/
def State.svcSnap (s : State) (b node w : Nat) : Word × Nat :=
  let base := lineBase (s.hw.dom.block b node)
  if s.hw.memStopped base then (0, 4)
  else match s.seenWord base with
    | .data hd =>
      let st := bitsOf hd.toNat 38 2
      if st = 0 ∨ bitsOf hd.toNat 30 7 < w then (0, 3)
      else match s.seenWord (base + w) with
        | .data v => (v, if st = 1 then 0 else st - 1)
        | _ => (0, 5)
    | _ => (0, 5)

/-- R597. The values of a session's references, in order; `b` is the buffer that holds the tick's generation. -/
def State.svcValues (s : State) (refs : List SvcRef) (b : Nat) : State × List (Word × Nat) :=
  refs.foldl (fun x r =>
    match r with
    | .loc a =>
      let y := x.1.svcLocal a
      (y.1, x.2 ++ [y.2])
    | .snap n w => (x.1, x.2 ++ [x.1.svcSnap b n w])) (s, [])

/-- R594. The payload of a DATA message. -/
def dataPayload (n : Nat) (skip snap : Bool) (vs : List (Word × Nat)) : List Nat :=
  leBytes 5 n ++ [b2n skip + 2 * b2n snap] ++ leBytes 2 vs.length ++ vs.flatMap (fun v => wordBytes v.1 ++ [v.2])

/-- R597, R598. The session sends the DATA it owes: its tick has been applied and, for snapshot references, its generation is
complete.
DEDUCED, unsafe: log entry 121. -/
def State.svcData (s : State) (i : Nat) : State :=
  match s.hw.session i with
  | none => s
  | some x =>
    match x.due with
    | none => s
    | some n =>
      let snap := x.refs.any (fun r => match r with | .snap _ _ => true | .loc _ => false)
      let buf := (List.range 3).find? (fun b => (s.hw.dom.bufs.getD b {}).gen == some n)
      if !s.hw.domainRuns 33 || s.hw.dom.ticks.any (fun t => t.tn == n) || (snap && buf.isNone) then s
      else
        let v := s.svcValues x.refs (buf.getD 0)
        v.1.on (fun h =>
          let h := (h.svcSend i 5 0 (dataPayload n x.skip snap v.2)).incF pSVC i SVC_SCNT_COUNT
          match h.session i with
          | some y => h.setSession i (some { y with due := none, skip := false })
          | none => h)

/-! ## The debug access port (R24, R30, R36, R658, R659) -/

/-- R24. The access failed: the sticky bit is set and a read returns zero. -/
def Hw.dapFail (h : Hw) : Hw := { h with dapSticky := true, resp := [0] }

/-- R659. The address is that of a CHSEL register, which R34 alone would let a closed debugger write. -/
def chselAt (addr : Nat) : Bool := match placeOf .debugger addr with | .page _ off => off == 8 | _ => false

/-- R658, R659. An access of the debugger: a read, or a write of a word. While DEBUG_POLICY does not permit it, it is refused. -/
def State.dapAccess (s : State) (addr : Nat) (d : Option Word) : State :=
  let a : Acc := ⟨.debugger, 0⟩
  let memory : Bool := match placeOf .debugger addr with | .word _ => true | _ => false
  if memory && !s.hw.debugOpen then s.on (fun h => h.dapFail)
  else if !s.hw.debugOpen && d.isSome && chselAt addr then s.on (fun h => h.dapFail)
  else if s.hw.flashBusyAt (placeOf .debugger addr) then s
  else match d with
    | none =>
      let x := s.busRead a addr
      match x.2 with
      | .data w => x.1.on (fun h => { h with resp := [w] })
      | _ => x.1.on (fun h => h.dapFail)
    | some w =>
      let x := s.busWrite a addr w
      if x.2 = .ok then x.1.on (fun h => { h with resp := [0] }) else x.1.on (fun h => h.dapFail)

/-! ## The commands -/

/-- HOST_READ of `len` bytes (at most 4,096) from byte `off` of BAR0, BAR2 or BAR4, with its attributes. -/
def execHostRead (bar : Fin 3) (off : BitVec 32) (len : Fin 4097) (ro ns : Bool) (s : State) :
    Host.Outcome State Fault Refusal := .next (s.hostReq bar off.toNat len.val ro ns)

/-- HOST_WRITE of the enabled bytes of a list to byte `off` of a BAR and on. -/
def execHostWrite (bar : Fin 3) (off : BitVec 32) (bytes : List (Option (BitVec 8))) (s : State) :
    Host.Outcome State Fault Refusal := .next (s.hostStoreReq bar off.toNat bytes)

/-- SNAPSHOT_WINDOW_READ of `len` bytes from byte `off` of the window. -/
def execSnapshotWindowRead (off : BitVec 24) (len : Fin 4097) (s : State) : Host.Outcome State Fault Refusal :=
  .next (s.hostReq 2 off.toNat len.val false false)

/-- HAMPER_WINDOW_READ of `len` bytes from byte `off` of the window. -/
def execHamperWindowRead (off : BitVec 25) (len : Fin 4097) (s : State) : Host.Outcome State Fault Refusal :=
  .next (s.hostReq 2 (0x2000000 + off.toNat) len.val false false)

/-- FUNCTION_LEVEL_RESET, which the host asks for over the link. -/
def execFunctionLevelReset (s : State) : Host.Outcome State Fault Refusal :=
  .next (if s.hw.b pPCIE 0 PCIE_STATUS_LINK_UP then (s.on (fun h => h.flr)).hostCut else s)

/-- PERST: PERST# falls (`pin`), or the link goes down for another reason. -/
def execPciePerst (pin : Bool) (s : State) : Host.Outcome State Fault Refusal :=
  .next (s.on (fun h => h.linkDown pin)).hostCut

/-- DATA of session `i`. -/
def execSvcData (i : Fin 4096) (s : State) : Host.Outcome State Fault Refusal := .next (s.svcData i.val)

/-- DAPACC: the instruction, with a read of a word address (`d` = none) or a write. -/
def execDapacc (addr : BitVec 32) (d : Option Word) (s : State) : Host.Outcome State Fault Refusal :=
  let s := s.on (fun h => h.tapTake .dapacc)
  let off : Bool := s.hw.porstLow || s.hw.deep || s.hw.b pCLK 54 CLK_DOMAIN_GATE
  .next (if off then s else if s.hw.tap = .dapacc then s.dapAccess addr.toNat d else s.on (fun h => { h with resp := [0] }))

end Sys2Proof.Machine
end

