-- ==== Sys2Proof/Machine/Dispatch.lean ====
section
/-! DEFINITION. The meaning of each command, one arm per constructor of Instr (form fixed by the host). -/

namespace Sys2Proof.Machine

open Sys2Proof

def exec (i : Instr) (s : State) : Host.Outcome State Fault Refusal :=
  match i with
  | .registerWrite w cl idx off d => Sys2Proof.Machine.execRegisterWrite w cl idx off d s
  | .ownerWrite w cl idx d => Sys2Proof.Machine.execOwnerWrite w cl idx d s
  | .lockSet w cl idx => Sys2Proof.Machine.execLockSet w cl idx s
  | .chselWrite w cl idx d => Sys2Proof.Machine.execChselWrite w cl idx d s
  | .pairLowRead w cl idx off => Sys2Proof.Machine.execPairLowRead w cl idx off s
  | .pairLowWrite w cl idx off d => Sys2Proof.Machine.execPairLowWrite w cl idx off d s
  | .pairHighWrite w cl idx off d => Sys2Proof.Machine.execPairHighWrite w cl idx off d s
  | .pllLock rep => Sys2Proof.Machine.execPllLock rep s
  | .clockFailure xtal => Sys2Proof.Machine.execClockFailure xtal s
  | .domainGate w d => Sys2Proof.Machine.execDomainGate w d s
  | .adcSeqTrigger c ts => Sys2Proof.Machine.execAdcSeqTrigger c ts s
  | .adcSwtrig w c d => Sys2Proof.Machine.execAdcSwtrig w c d s
  | .conversionStart c => Sys2Proof.Machine.execConversionStart c s
  | .acquisitionEnd c j => Sys2Proof.Machine.execAcquisitionEnd c j s
  | .conversionDone c j x => Sys2Proof.Machine.execConversionDone c j x s
  | .adcRecoveryEnd c j => Sys2Proof.Machine.execAdcRecoveryEnd c j s
  | .adcEnableChange w c r d => Sys2Proof.Machine.execAdcEnableChange w c r d s
  | .startupCalibrationDone c x0 x1 x2 => Sys2Proof.Machine.execStartupCalibrationDone c x0 x1 x2 s
  | .calibrationGrant c u => Sys2Proof.Machine.execCalibrationGrant c u s
  | .calibrationDone c x => Sys2Proof.Machine.execCalibrationDone c x s
  | .rotationIntervalExpiry c => Sys2Proof.Machine.execRotationIntervalExpiry c s
  | .rotNow w c d => Sys2Proof.Machine.execRotNow w c d s
  | .handover c => Sys2Proof.Machine.execHandover c s
  | .unitClr w c d => Sys2Proof.Machine.execUnitClr w c d s
  | .readbackRequest w c d => Sys2Proof.Machine.execReadbackRequest w c d s
  | .readbackGrant c u => Sys2Proof.Machine.execReadbackGrant c u s
  | .readbackDone c x => Sys2Proof.Machine.execReadbackDone c x s
  | .sdfOutput c inst xs => Sys2Proof.Machine.execSdfOutput c inst xs s
  | .sdfSync c inst a xs => Sys2Proof.Machine.execSdfSync c inst a xs s
  | .manchesterBitError c inst xs => Sys2Proof.Machine.execManchesterBitError c inst xs s
  | .sdfClockLoss c inst => Sys2Proof.Machine.execSdfClockLoss c inst s
  | .scDetect c inst xs => Sys2Proof.Machine.execScDetect c inst xs s
  | .comparatorCrossing c inst x => Sys2Proof.Machine.execComparatorCrossing c inst x s
  | .lintSample c inst => Sys2Proof.Machine.execLintSample c inst s
  | .lintWrite w c d => Sys2Proof.Machine.execLintWrite w c d s
  | .comparatorDisable w c d => Sys2Proof.Machine.execComparatorDisable w c d s
  | .encoderInputChange c t l => Sys2Proof.Machine.execEncoderInputChange c t l s
  | .probeLatch c t n rise => Sys2Proof.Machine.execProbeLatch c t n rise s
  | .ssiTrigger c t a => Sys2Proof.Machine.execSsiTrigger c t a s
  | .ssiGo w c d => Sys2Proof.Machine.execSsiGo w c d s
  | .ssiFrameDone c t raw u => Sys2Proof.Machine.execSsiFrameDone c t raw u s
  | .ssiTimeout c t => Sys2Proof.Machine.execSsiTimeout c t s
  | .ssiMonoflopEnd c t => Sys2Proof.Machine.execSsiMonoflopEnd c t s
  | .trackerErrClr w c d => Sys2Proof.Machine.execTrackerErrClr w c d s
  | .trackerCfgWrite w c scfg d => Sys2Proof.Machine.execTrackerCfgWrite w c scfg d s
  | .modulusWrite w c d => Sys2Proof.Machine.execModulusWrite w c d s
  | .trackerPosWrite w c d l => Sys2Proof.Machine.execTrackerPosWrite w c d l s
  | .speedWindowEnd c t => Sys2Proof.Machine.execSpeedWindowEnd c t s
  | .windowSync c t a => Sys2Proof.Machine.execWindowSync c t a s
  | .pspeedUpdate c t => Sys2Proof.Machine.execPspeedUpdate c t s
  | .standstill c t => Sys2Proof.Machine.execStandstill c t s
  | .routingWrite w n d => Sys2Proof.Machine.execRoutingWrite w n d s
  | .seamFire w n d => Sys2Proof.Machine.execSeamFire w n d s
  | .mangleArm w n d => Sys2Proof.Machine.execMangleArm w n d s
  | .mangleGo w n d => Sys2Proof.Machine.execMangleGo w n d s
  | .mangleAbort w n d => Sys2Proof.Machine.execMangleAbort w n d s
  | .mangleClr w n d => Sys2Proof.Machine.execMangleClr w n d s
  | .mangleStartTrigger n ch a => Sys2Proof.Machine.execMangleStartTrigger n ch a s
  | .descriptorFetchDone n ch => Sys2Proof.Machine.execDescriptorFetchDone n ch s
  | .mangleBeat n ch host => Sys2Proof.Machine.execMangleBeat n ch host s
  | .descriptorComplete n ch => Sys2Proof.Machine.execDescriptorComplete n ch s
  | .hostCompletionTimeout ch => Sys2Proof.Machine.execHostCompletionTimeout ch s
  | .slotTrigger c sl a e => Sys2Proof.Machine.execSlotTrigger c sl a e s
  | .loopSwtrig w c d e => Sys2Proof.Machine.execLoopSwtrig w c d e s
  | .runStart c edge => Sys2Proof.Machine.execRunStart c edge s
  | .deadlineMiss c sl held => Sys2Proof.Machine.execDeadlineMiss c sl held s
  | .slotConfigWrite w c r d => Sys2Proof.Machine.execSlotConfigWrite w c r d s
  | .loopReseed w c d => Sys2Proof.Machine.execLoopReseed w c d s
  | .latClear w c d => Sys2Proof.Machine.execLatClear w c d s
  | .ucDataWrite w c d => Sys2Proof.Machine.execUcDataWrite w c d s
  | .ucDataRead w c => Sys2Proof.Machine.execUcDataRead w c s
  | .ucNop c x => Sys2Proof.Machine.execUcNop c x s
  | .ucMov c x => Sys2Proof.Machine.execUcMov c x s
  | .ucAdd c x => Sys2Proof.Machine.execUcAdd c x s
  | .ucSub c x => Sys2Proof.Machine.execUcSub c x s
  | .ucNeg c x => Sys2Proof.Machine.execUcNeg c x s
  | .ucAbs c x => Sys2Proof.Machine.execUcAbs c x s
  | .ucMin c x => Sys2Proof.Machine.execUcMin c x s
  | .ucMax c x => Sys2Proof.Machine.execUcMax c x s
  | .ucLim c x => Sys2Proof.Machine.execUcLim c x s
  | .ucShl c x => Sys2Proof.Machine.execUcShl c x s
  | .ucShr c x => Sys2Proof.Machine.execUcShr c x s
  | .ucMul c x => Sys2Proof.Machine.execUcMul c x s
  | .ucMac c x => Sys2Proof.Machine.execUcMac c x s
  | .ucMsu c x => Sys2Proof.Machine.execUcMsu c x s
  | .ucCmp c x => Sys2Proof.Machine.execUcCmp c x s
  | .ucLd c x => Sys2Proof.Machine.execUcLd c x s
  | .ucSt c x => Sys2Proof.Machine.execUcSt c x s
  | .ucLdi c x => Sys2Proof.Machine.execUcLdi c x s
  | .ucAnd c x => Sys2Proof.Machine.execUcAnd c x s
  | .ucOr c x => Sys2Proof.Machine.execUcOr c x s
  | .ucShrt c x => Sys2Proof.Machine.execUcShrt c x s
  | .ucJmp c x => Sys2Proof.Machine.execUcJmp c x s
  | .ucCall c x => Sys2Proof.Machine.execUcCall c x s
  | .ucRet c x => Sys2Proof.Machine.execUcRet c x s
  | .ucEnd c edge parity => Sys2Proof.Machine.execUcEnd c edge parity s
  | .ucAbort c x => Sys2Proof.Machine.execUcAbort c x s
  | .timebaseStart w c d => Sys2Proof.Machine.execTimebaseStart w c d s
  | .timebaseStop w c d => Sys2Proof.Machine.execTimebaseStop w c d s
  | .zeroPoint c t u => Sys2Proof.Machine.execZeroPoint c t u s
  | .periodPoint c t => Sys2Proof.Machine.execPeriodPoint c t s
  | .compareCrossing c k b => Sys2Proof.Machine.execCompareCrossing c k b s
  | .outputTurnOn c k low => Sys2Proof.Machine.execOutputTurnOn c k low s
  | .outputTurnOff c k low => Sys2Proof.Machine.execOutputTurnOff c k low s
  | .pwmCommit c x => Sys2Proof.Machine.execPwmCommit c x s
  | .pwmSync c x => Sys2Proof.Machine.execPwmSync c x s
  | .timebaseCfgWrite w c d => Sys2Proof.Machine.execTimebaseCfgWrite w c d s
  | .ocfgWrite w c d => Sys2Proof.Machine.execOcfgWrite w c d s
  | .scorchSourceActive c t k => Sys2Proof.Machine.execScorchSourceActive c t k s
  | .swtrip w c d => Sys2Proof.Machine.execSwtrip w c d s
  | .tripClr w c d => Sys2Proof.Machine.execTripClr w c d s
  | .operandMove k => Sys2Proof.Machine.execOperandMove k s
  | .registerMove k => Sys2Proof.Machine.execRegisterMove k s
  | .predicateMove k => Sys2Proof.Machine.execPredicateMove k s
  | .aluT k => Sys2Proof.Machine.execAluT k s
  | .aluAdds k => Sys2Proof.Machine.execAluAdds k s
  | .aluSub k => Sys2Proof.Machine.execAluSub k s
  | .aluSubs k => Sys2Proof.Machine.execAluSubs k s
  | .aluAnd k => Sys2Proof.Machine.execAluAnd k s
  | .aluOr k => Sys2Proof.Machine.execAluOr k s
  | .aluXor k => Sys2Proof.Machine.execAluXor k s
  | .aluAndn k => Sys2Proof.Machine.execAluAndn k s
  | .aluMin k => Sys2Proof.Machine.execAluMin k s
  | .aluMax k => Sys2Proof.Machine.execAluMax k s
  | .aluAbss k => Sys2Proof.Machine.execAluAbss k s
  | .aluNegs k => Sys2Proof.Machine.execAluNegs k s
  | .shfT k => Sys2Proof.Machine.execShfT k s
  | .shfShr k => Sys2Proof.Machine.execShfShr k s
  | .shfSar k => Sys2Proof.Machine.execShfSar k s
  | .shfSarr k => Sys2Proof.Machine.execShfSarr k s
  | .shfShls k => Sys2Proof.Machine.execShfShls k s
  | .cmpT k => Sys2Proof.Machine.execCmpT k s
  | .cmpNe k => Sys2Proof.Machine.execCmpNe k s
  | .cmpLt k => Sys2Proof.Machine.execCmpLt k s
  | .cmpGe k => Sys2Proof.Machine.execCmpGe k s
  | .cmpLtu k => Sys2Proof.Machine.execCmpLtu k s
  | .cmpGeu k => Sys2Proof.Machine.execCmpGeu k s
  | .mulT k => Sys2Proof.Machine.execMulT k s
  | .mulL k => Sys2Proof.Machine.execMulL k s
  | .mulH k => Sys2Proof.Machine.execMulH k s
  | .macT k => Sys2Proof.Machine.execMacT k s
  | .macS k => Sys2Proof.Machine.execMacS k s
  | .macZ k => Sys2Proof.Machine.execMacZ k s
  | .divT k => Sys2Proof.Machine.execDivT k s
  | .divQ k => Sys2Proof.Machine.execDivQ k s
  | .divU k => Sys2Proof.Machine.execDivU k s
  | .divComplete k => Sys2Proof.Machine.execDivComplete k s
  | .cpyT k => Sys2Proof.Machine.execCpyT k s
  | .cpyComplete k => Sys2Proof.Machine.execCpyComplete k s
  | .lsuT k => Sys2Proof.Machine.execLsuT k s
  | .lsuLdi k => Sys2Proof.Machine.execLsuLdi k s
  | .lsuLdd k => Sys2Proof.Machine.execLsuLdd k s
  | .lsuSt k => Sys2Proof.Machine.execLsuSt k s
  | .lsuSti k => Sys2Proof.Machine.execLsuSti k s
  | .lsuStd k => Sys2Proof.Machine.execLsuStd k s
  | .loadReturn k => Sys2Proof.Machine.execLoadReturn k s
  | .storeDrain k => Sys2Proof.Machine.execStoreDrain k s
  | .bruT k => Sys2Proof.Machine.execBruT k s
  | .bruJr k => Sys2Proof.Machine.execBruJr k s
  | .bruCall k => Sys2Proof.Machine.execBruCall k s
  | .bruCallr k => Sys2Proof.Machine.execBruCallr k s
  | .bruRet k => Sys2Proof.Machine.execBruRet k s
  | .cnsT k => Sys2Proof.Machine.execCnsT k s
  | .evpT k => Sys2Proof.Machine.execEvpT k s
  | .evpR k => Sys2Proof.Machine.execEvpR k s
  | .evpP k => Sys2Proof.Machine.execEvpP k s
  | .evpInputArrival k j a => Sys2Proof.Machine.execEvpInputArrival k j a s
  | .gioT k => Sys2Proof.Machine.execGioT k s
  | .gioSet k => Sys2Proof.Machine.execGioSet k s
  | .gioClr k => Sys2Proof.Machine.execGioClr k s
  | .gioTgl k => Sys2Proof.Machine.execGioTgl k s
  | .sysFence k => Sys2Proof.Machine.execSysFence k s
  | .sysGate k => Sys2Proof.Machine.execSysGate k s
  | .sysGret k => Sys2Proof.Machine.execSysGret k s
  | .predFlush k => Sys2Proof.Machine.execPredFlush k s
  | .predBar k => Sys2Proof.Machine.execPredBar k s
  | .predSync k => Sys2Proof.Machine.execPredSync k s
  | .predRelease k => Sys2Proof.Machine.execPredRelease k s
  | .sysWait k => Sys2Proof.Machine.execSysWait k s
  | .coreWake k => Sys2Proof.Machine.execCoreWake k s
  | .sysTrap k => Sys2Proof.Machine.execSysTrap k s
  | .sysBrk k => Sys2Proof.Machine.execSysBrk k s
  | .rptPrefix k => Sys2Proof.Machine.execRptPrefix k s
  | .rsDataRead k => Sys2Proof.Machine.execRsDataRead k s
  | .rsDataWrite k => Sys2Proof.Machine.execRsDataWrite k s
  | .fetchFillDone k a => Sys2Proof.Machine.execFetchFillDone k a s
  | .invAll w k d => Sys2Proof.Machine.execInvAll w k d s
  | .invLine w k d => Sys2Proof.Machine.execInvLine w k d s
  | .exceptionEntry k copied => Sys2Proof.Machine.execExceptionEntry k copied s
  | .interruptEntry k copied => Sys2Proof.Machine.execInterruptEntry k copied s
  | .dicLineChange c src => Sys2Proof.Machine.execDicLineChange c src s
  | .dicDoorbell w c d => Sys2Proof.Machine.execDicDoorbell w c d s
  | .dicClaim w c k => Sys2Proof.Machine.execDicClaim w c k s
  | .dicDone w c k d => Sys2Proof.Machine.execDicDone w c k d s
  | .srccfgDisable w c d => Sys2Proof.Machine.execSrccfgDisable w c d s
  | .aowSourceEdge w a => Sys2Proof.Machine.execAowSourceEdge w a s
  | .wakeTimerWrite w d => Sys2Proof.Machine.execWakeTimerWrite w d s
  | .wakeTimerExpiry => Sys2Proof.Machine.execWakeTimerExpiry s
  | .watchdogEnable w x d => Sys2Proof.Machine.execWatchdogEnable w x d s
  | .watchdogKick w x d => Sys2Proof.Machine.execWatchdogKick w x d s
  | .watchdogWarn x => Sys2Proof.Machine.execWatchdogWarn x s
  | .watchdogExpiry x => Sys2Proof.Machine.execWatchdogExpiry x s
  | .pcfgWrite w d u => Sys2Proof.Machine.execPcfgWrite w d u s
  | .pfuncWrite w d => Sys2Proof.Machine.execPfuncWrite w d s
  | .pinOwnWrite w d => Sys2Proof.Machine.execPinOwnWrite w d s
  | .doutWrite w n d => Sys2Proof.Machine.execDoutWrite w n d s
  | .bankSupplyLoss n => Sys2Proof.Machine.execBankSupplyLoss n s
  | .bankSupplyValid n lvl pads => Sys2Proof.Machine.execBankSupplyValid n lvl pads s
  | .pinEvent pin v => Sys2Proof.Machine.execPinEvent pin v s
  | .dramInitDone => Sys2Proof.Machine.execDramInitDone s
  | .dramRequestServe came inner syms words => Sys2Proof.Machine.execDramRequestServe came inner syms words s
  | .correctedWriteback line => Sys2Proof.Machine.execCorrectedWriteback line s
  | .uncorrectableRewrite line => Sys2Proof.Machine.execUncorrectableRewrite line s
  | .dramPclr w d => Sys2Proof.Machine.execDramPclr w d s
  | .darnerBurstDue => Sys2Proof.Machine.execDarnerBurstDue s
  | .darnerNow w d => Sys2Proof.Machine.execDarnerNow w d s
  | .darnerBurstGrant u reps => Sys2Proof.Machine.execDarnerBurstGrant u reps s
  | .hamperEnable w d => Sys2Proof.Machine.execHamperEnable w d s
  | .hamperDisable w d => Sys2Proof.Machine.execHamperDisable w d s
  | .hamperCadence a => Sys2Proof.Machine.execHamperCadence a s
  | .hamperRecordComplete => Sys2Proof.Machine.execHamperRecordComplete s
  | .hamperTrigger a pin => Sys2Proof.Machine.execHamperTrigger a pin s
  | .hamperFreeze w d => Sys2Proof.Machine.execHamperFreeze w d s
  | .hamperRearm w d => Sys2Proof.Machine.execHamperRearm w d s
  | .hamperDump w d => Sys2Proof.Machine.execHamperDump w d s
  | .dumpGrant u => Sys2Proof.Machine.execDumpGrant u s
  | .dumpDone => Sys2Proof.Machine.execDumpDone s
  | .flashRead r w corr => Sys2Proof.Machine.execFlashRead r w corr s
  | .flashProgram w => Sys2Proof.Machine.execFlashProgram w s
  | .programDone ok left => Sys2Proof.Machine.execProgramDone ok left s
  | .flashErase w sector => Sys2Proof.Machine.execFlashErase w sector s
  | .eraseGrant u => Sys2Proof.Machine.execEraseGrant u s
  | .ledgerRecordDone ok left => Sys2Proof.Machine.execLedgerRecordDone ok left s
  | .eraseDone ok left u => Sys2Proof.Machine.execEraseDone ok left u s
  | .flashSuspend w => Sys2Proof.Machine.execFlashSuspend w s
  | .flashResume w => Sys2Proof.Machine.execFlashResume w s
  | .suspendAccept u => Sys2Proof.Machine.execSuspendAccept u s
  | .autoResume => Sys2Proof.Machine.execAutoResume s
  | .marginPv w sector => Sys2Proof.Machine.execMarginPv w sector s
  | .marginEv w sector => Sys2Proof.Machine.execMarginEv w sector s
  | .marginDone count first => Sys2Proof.Machine.execMarginDone count first s
  | .ledgerAppend w d => Sys2Proof.Machine.execLedgerAppend w d s
  | .imgMarkTrial w slot => Sys2Proof.Machine.execImgMarkTrial w slot s
  | .imgConfirm w slot => Sys2Proof.Machine.execImgConfirm w slot s
  | .imgStart w slot => Sys2Proof.Machine.execImgStart w slot s
  | .imgReject w slot => Sys2Proof.Machine.execImgReject w slot s
  | .lwfWrite w d => Sys2Proof.Machine.execLwfWrite w d s
  | .lwfWriteDone got => Sys2Proof.Machine.execLwfWriteDone got s
  | .lwfLoad rep => Sys2Proof.Machine.execLwfLoad rep s
  | .portEnable w k d => Sys2Proof.Machine.execPortEnable w k d s
  | .signalDetect k => Sys2Proof.Machine.execSignalDetect k s
  | .blockLockAcquired k mask eq => Sys2Proof.Machine.execBlockLockAcquired k mask eq s
  | .trainTimeout k => Sys2Proof.Machine.execTrainTimeout k s
  | .deskewDone k skew => Sys2Proof.Machine.execDeskewDone k skew s
  | .deskewFail k => Sys2Proof.Machine.execDeskewFail k s
  | .lctlInit k lanes exp torn => Sys2Proof.Machine.execLctlInit k lanes exp torn s
  | .blockLockLoss k lane errs => Sys2Proof.Machine.execBlockLockLoss k lane errs s
  | .retrainWrite w k d => Sys2Proof.Machine.execRetrainWrite w k d s
  | .lctlRetrain k => Sys2Proof.Machine.execLctlRetrain k s
  | .retrainTimeout k => Sys2Proof.Machine.execRetrainTimeout k s
  | .frameStart k fine => Sys2Proof.Machine.execFrameStart k fine s
  | .frayReorderTimeout k fine => Sys2Proof.Machine.execFrayReorderTimeout k fine s
  | .frameReceive k ws fe => Sys2Proof.Machine.execFrameReceive k ws fe s
  | .frameRoute k lseq lack x => Sys2Proof.Machine.execFrameRoute k lseq lack x s
  | .lctlAck k l => Sys2Proof.Machine.execLctlAck k l s
  | .lctlNak k l => Sys2Proof.Machine.execLctlNak k l s
  | .lctlCredit k loc routed => Sys2Proof.Machine.execLctlCredit k loc routed s
  | .nakRepeat k => Sys2Proof.Machine.execNakRepeat k s
  | .ackTimeout k => Sys2Proof.Machine.execAckTimeout k s
  | .dlHello k ws => Sys2Proof.Machine.execDlHello k ws s
  | .helloTimer => Sys2Proof.Machine.execHelloTimer s
  | .parentChoice => Sys2Proof.Machine.execParentChoice s
  | .childReqTimeout => Sys2Proof.Machine.execChildReqTimeout s
  | .childReq k ws => Sys2Proof.Machine.execChildReq k ws s
  | .joinReq => Sys2Proof.Machine.execJoinReq s
  | .joinGrant => Sys2Proof.Machine.execJoinGrant s
  | .joinRefuse => Sys2Proof.Machine.execJoinRefuse s
  | .childGrant k ws => Sys2Proof.Machine.execChildGrant k ws s
  | .childRefuse k ws => Sys2Proof.Machine.execChildRefuse k ws s
  | .dlLeave => Sys2Proof.Machine.execDlLeave s
  | .dcmdLeave w d => Sys2Proof.Machine.execDcmdLeave w d s
  | .idHoldExpiry id => Sys2Proof.Machine.execIdHoldExpiry id s
  | .syncTimer => Sys2Proof.Machine.execSyncTimer s
  | .dlSync k ws fine => Sys2Proof.Machine.execDlSync k ws fine s
  | .dlDreq k ws fine => Sys2Proof.Machine.execDlDreq k ws fine s
  | .dlDresp k ws => Sys2Proof.Machine.execDlDresp k ws s
  | .holdoverEntry => Sys2Proof.Machine.execHoldoverEntry s
  | .holdoverExpiry => Sys2Proof.Machine.execHoldoverExpiry s
  | .tsetHWrite w d => Sys2Proof.Machine.execTsetHWrite w d s
  | .tickCfg => Sys2Proof.Machine.execTickCfg s
  | .tickCfgTimer => Sys2Proof.Machine.execTickCfgTimer s
  | .baseHCommit w d => Sys2Proof.Machine.execBaseHCommit w d s
  | .domTick => Sys2Proof.Machine.execDomTick s
  | .captureComplete u => Sys2Proof.Machine.execCaptureComplete u s
  | .captureTimeout n u => Sys2Proof.Machine.execCaptureTimeout n u s
  | .domPublication => Sys2Proof.Machine.execDomPublication s
  | .generationComplete => Sys2Proof.Machine.execGenerationComplete s
  | .asmEnable w d => Sys2Proof.Machine.execAsmEnable w d s
  | .leaseReq w => Sys2Proof.Machine.execLeaseReq w s
  | .leaseRel w => Sys2Proof.Machine.execLeaseRel w s
  | .leaseExpiry => Sys2Proof.Machine.execLeaseExpiry s
  | .commandSend w d => Sys2Proof.Machine.execCommandSend w d s
  | .domCommand => Sys2Proof.Machine.execDomCommand s
  | .commandApply => Sys2Proof.Machine.execCommandApply s
  | .domReport => Sys2Proof.Machine.execDomReport s
  | .reportRead w => Sys2Proof.Machine.execReportRead w s
  | .resumeReqRepeat x => Sys2Proof.Machine.execResumeReqRepeat x s
  | .resumeReq tc => Sys2Proof.Machine.execResumeReq tc s
  | .resumeAck tc => Sys2Proof.Machine.execResumeAck tc s
  | .frayConfigWrite w k act d => Sys2Proof.Machine.execFrayConfigWrite w k act d s
  | .hostRead bar off len ro ns => Sys2Proof.Machine.execHostRead bar off len ro ns s
  | .hostWrite bar off bytes => Sys2Proof.Machine.execHostWrite bar off bytes s
  | .snapshotWindowRead off len => Sys2Proof.Machine.execSnapshotWindowRead off len s
  | .hamperWindowRead off len => Sys2Proof.Machine.execHamperWindowRead off len s
  | .pcieVack w v => Sys2Proof.Machine.execPcieVack w v s
  | .pcieVfire w n d => Sys2Proof.Machine.execPcieVfire w n d s
  | .functionLevelReset => Sys2Proof.Machine.execFunctionLevelReset s
  | .pciePerst pin => Sys2Proof.Machine.execPciePerst pin s
  | .mailboxSend w d => Sys2Proof.Machine.execMailboxSend w d s
  | .mailboxSent m => Sys2Proof.Machine.execMailboxSent m s
  | .mboxMsg => Sys2Proof.Machine.execMboxMsg s
  | .mboxNak => Sys2Proof.Machine.execMboxNak s
  | .mboxRxdone w => Sys2Proof.Machine.execMboxRxdone w s
  | .ethFrameReceive k bytes fcs fine => Sys2Proof.Machine.execEthFrameReceive k bytes fcs fine s
  | .ethFrameTransmit k fine => Sys2Proof.Machine.execEthFrameTransmit k fine s
  | .txtsRead w k => Sys2Proof.Machine.execTxtsRead w k s
  | .mdioWrite w d => Sys2Proof.Machine.execMdioWrite w d s
  | .mdioDone data => Sys2Proof.Machine.execMdioDone data s
  | .svcOpen => Sys2Proof.Machine.execSvcOpen s
  | .svcSubscribe => Sys2Proof.Machine.execSvcSubscribe s
  | .svcKeepalive => Sys2Proof.Machine.execSvcKeepalive s
  | .svcClose => Sys2Proof.Machine.execSvcClose s
  | .svcKeepaliveTimeout inst => Sys2Proof.Machine.execSvcKeepaliveTimeout inst s
  | .svcData inst => Sys2Proof.Machine.execSvcData inst s
  | .svcSclose w => Sys2Proof.Machine.execSvcSclose w s
  | .powerOnReset low pins left got => Sys2Proof.Machine.execPowerOnReset low pins left got s
  | .resetN low pins rep => Sys2Proof.Machine.execResetN low pins rep s
  | .deviceResetRequest c => Sys2Proof.Machine.execDeviceResetRequest c s
  | .deviceReset pins => Sys2Proof.Machine.execDeviceReset pins s
  | .resetDeviceCmd w d => Sys2Proof.Machine.execResetDeviceCmd w d s
  | .resetClusterCmd w d => Sys2Proof.Machine.execResetClusterCmd w d s
  | .clusterReset n => Sys2Proof.Machine.execClusterReset n s
  | .devCgo w d => Sys2Proof.Machine.execDevCgo w d s
  | .secVcmd w d => Sys2Proof.Machine.execSecVcmd w d s
  | .verifyGrant u => Sys2Proof.Machine.execVerifyGrant u s
  | .verifyDone => Sys2Proof.Machine.execVerifyDone s
  | .safeNFall => Sys2Proof.Machine.execSafeNFall s
  | .safeNRise => Sys2Proof.Machine.execSafeNRise s
  | .safeSw w d => Sys2Proof.Machine.execSafeSw w d s
  | .monitorSample x v => Sys2Proof.Machine.execMonitorSample x v s
  | .haltMaskWrite w d => Sys2Proof.Machine.execHaltMaskWrite w d s
  | .clusterGate n => Sys2Proof.Machine.execClusterGate n s
  | .pwrDeep w d => Sys2Proof.Machine.execPwrDeep w d s
  | .deepWake pins => Sys2Proof.Machine.execDeepWake pins s
  | .clusterSafeWrite w n d => Sys2Proof.Machine.execClusterSafeWrite w n d s
  | .bistRequest w d => Sys2Proof.Machine.execBistRequest w d s
  | .bistGrant t u => Sys2Proof.Machine.execBistGrant t u s
  | .bistDone t fail => Sys2Proof.Machine.execBistDone t fail s
  | .debugHalt w d => Sys2Proof.Machine.execDebugHalt w d s
  | .debugResume w d => Sys2Proof.Machine.execDebugResume w d s
  | .tapBypass => Sys2Proof.Machine.execTapBypass s
  | .tapIdcode => Sys2Proof.Machine.execTapIdcode s
  | .tapSamplePreload cells => Sys2Proof.Machine.execTapSamplePreload cells s
  | .tapExtest => Sys2Proof.Machine.execTapExtest s
  | .tapClamp => Sys2Proof.Machine.execTapClamp s
  | .tapHighz => Sys2Proof.Machine.execTapHighz s
  | .dapacc addr d => Sys2Proof.Machine.execDapacc addr d s
  | .pcieLinkUp rate width partner => Sys2Proof.Machine.execPcieLinkUp rate width partner s
  | .configurationWrite c => Sys2Proof.Machine.execConfigurationWrite c s
  | .ethLinkChg k lock hiBer => Sys2Proof.Machine.execEthLinkChg k lock hiBer s
  | .aowLevelHit w => Sys2Proof.Machine.execAowLevelHit w s

end Sys2Proof.Machine
end

