-- ==== Sys2Proof/Machine/Tick.lean ====
section
/-! DEFINITION. What happens at a PWM_CLK edge whatever is commanded: counters count. The block takes this step when no
command waits (the model's choice; the log names what time brings by command instead). -/

namespace Sys2Proof.Machine

open Sys2Proof

/-! ## Pins -/

/-- R397, R401. The latches of the pins that anything is known of follow their levels. -/
def Hw.latchPins (h : Hw) : Hw :=
  (h.pads.map (·.1) ++ h.padLast.map (·.1) ++ h.pinsListed 0x10 ++ h.pinsListed 0x11).foldl (fun h pin => h.latchPin pin) h

/-! ## Domain time -/

/-- R531. A tick is due and has not fired. -/
def Hw.tickDue (h : Hw) : Bool :=
  match h.tickRuns, h.dom.tickFrom, lastTickBefore h.dom.configs (h.domTime + 1) with
  | true, some t0, some n =>
    let reached := ticksBefore h.dom.configs (h.domTime + 1) - ticksBefore h.dom.configs t0
    let ahead := (n + 2 ^ 40 - h.tick) % 2 ^ 40
    reached != 0 && !(h.dom.fired && (ahead == 0 || decide (2 ^ 39 ≤ ahead)))
  | _, _, _ => false

/-- R516. Domain time over one edge: 1 + RATE cycles of 64 fine steps. It waits for a tick that is due. -/
def Hw.timeCount (h : Hw) : Hw :=
  if !h.b pDTIME 0 DTIME_CTRL_EN || !h.domainRuns 49 || h.tickDue then h
  else
    let f := h.dom.frac + ((2 ^ 40 : Int) + h.fs pDTIME 0 DTIME_RATE_Y).toNat
    (h.onDom (fun d => { d with frac := f % 2 ^ 40 })).setDomTime (h.domTime + 64 * (f / 2 ^ 40))

/-! ## Watchdogs, counters of the cores, the wake timer and the trace port -/

/-- R385. A watchdog's prescaler, and COUNT; the edges that reach WARN and CLOSE are commands of their own. -/
def Hw.wdtCount (h : Hw) (x : Option (Fin 8)) (unit : Nat) : Hw :=
  if !h.wdtCounts x then h
  else
    let p := wdtPage x
    let key := match x with | some c => c.val | none => 8
    let pre := h.wdtPre.at 0 key + 1
    let n := h.f p 0 WDT_COUNT_COUNT + 1
    if pre < unit * 2 ^ h.f p 0 WDT_WCFG_PRE then { h with wdtPre := h.wdtPre.set 0 key pre }
    else if n = h.f p 0 WDT_WCFG_WARN ∨ (h.f p 0 WDT_WTIME_CLOSE ≤ n ∧ !h.b p 0 WDT_STATUS_EXPIRED) then h
    else { h with wdtPre := h.wdtPre.set 0 key 0 }.setF p 0 WDT_COUNT_COUNT n

/-- R349, R620. CYCLES of core `k`: three CORE_CLK cycles; its clock stops in sys.wait once its store buffer has drained.
DESIGN CHOICE, unsafe: log entry 138. -/
def Hw.coreCycles (h : Hw) (k : Fin 32) : Hw :=
  if h.clusterRuns (clOf k) && !(h.isWaiting k && (h.core k).sb.isEmpty) then h.coreCount k CORE_CYCLES_COUNT 3 else h

/-- R384. The wake timer at an AON edge; the edge that reaches COMPARE is a command of its own. -/
def Hw.wakeCount (h : Hw) : Hw :=
  let n := h.f pAOW 0 AOW_TMR_CNT_COUNT + 1
  if h.now % 12500 = 0 && decide (n < h.f pAOW 0 AOW_TMR_COMPARE) && h.domainRuns 48 then h.setF pAOW 0 AOW_TMR_CNT_COUNT n
  else h

/-- R661. A message leaves the trace port in 50 ns. -/
def Hw.traceOut (h : Hw) : Hw :=
  match h.traceQ with
  | [] => h
  | m :: rest =>
    if h.now % 20 = 0 && h.domainRuns 55 then
      ({ h with traceQ := rest }.emit (.trace m)).setF pTRACE 0 TRACE_STATUS_FILL rest.length
    else h

/-- One PWM_CLK edge. -/
def Hw.edge (h : Hw) : Hw :=
  let h := { h.latchPins with now := h.now + 1, swAt := [], swMem := [], xfpSw := [], xfpHw := [] }
  let h := (List.range 8).foldl (fun h c => ((List.range 4).foldl (fun h t => h.pwmCount c t) h).trkEdge c) h
  let h := (List.finRange 8).foldl (fun h c => h.wdtCount (some c) 512) h
  let h := (h.wdtCount none 4096).timeCount.runDue
  let h := (List.range 8).foldl (fun h c => (List.range 4).foldl (fun h t => h.scorchSeen c t) h) h
  ((List.finRange 32).foldl (fun h k => h.coreCycles k) h).wakeCount.traceOut.eraseEdge.safeNEdge

/-- R349. One edge of core `k`, three CORE_CLK cycles: a half that waits counts in the counter of what it waits for. -/
def State.coreStall (s : State) (k : Fin 32) : State :=
  match s.stall k with
  | 1 => (s.demand k).on (fun h => h.coreCount k CORE_STALL_FETCH_COUNT 3)
  | 2 => s.on (fun h => h.coreCount k CORE_STALL_SB_COUNT 3)
  | 3 => s.on (fun h => h.coreCount k CORE_STALL_DATA_COUNT 3)
  | _ => s

/-- The step of a machine with no command waiting.
DESIGN CHOICE, unsafe: log entry 2.
DESIGN CHOICE, unsafe: log entry 140. -/
def State.idle (s : State) : State := (List.finRange 32).foldl (fun s k => s.coreStall k) (s.latchAll.on Hw.edge)

end Sys2Proof.Machine
end

