-- ==== Sys2Proof/Safety.lean ====
section
/-! DEFINITION. What counts as a safe answer and a safe state, in the terms the statements use. -/

namespace Sys2Proof.Machine

open Sys2Proof

/-- `exec` or `step` answers a next state, and `P` holds of it. A command that faults or is refused answers none. -/
def Answers (o : Host.Outcome State Fault Refusal) (P : State → Prop) : Prop := ∃ t, o = .next t ∧ P t

/-- Words and tags of memory stand as they stood. -/
def sameMemory (s t : State) : Prop := (∀ g, t.rd g = s.rd g) ∧ (∀ g, t.tag g = s.tag g)

/-- R238, R239. No channel of any cluster has both of its outputs on. -/
def neverBothOn (h : Hw) : Prop := ∀ c k : Nat, ¬((h.pch c k).hi.on = true ∧ (h.pch c k).lo.on = true)

/-- A state that is safe to go on from: its memory stands in the canonical form, and no PWM channel has both outputs on. -/
structure Safe (s : State) : Prop where
  memory : s.memWf
  outputs : neverBothOn s.hw

end Sys2Proof.Machine
end

