-- ==== Sys2Proof/Certificates/Slice0/Obligations.lean ====
section
/-! DEFINITION. What is stated of the model, from the rules of spec/. -/

open Sys2Proof Sys2Proof.Machine

/-- R33. A controlled write to page `p` by requester `w` at offset `off` passes now: the page exists, its clock runs, the
requester may write, and the write floor, OWNER.RING and OWNER.REQ allow it. Only on the PIN page does the offset matter. -/
def accepts (h : Hw) (w : Requester) (p : Page) (off : Nat := 0) : Bool :=
  match pageInfo p with
  | some i => !h.stopped p && h.passes (h.acc w) p i off
  | none => false

/-- Page `p` stands in the page index and its clock runs. -/
def reachable (h : Hw) (p : Page) : Bool := (pageInfo p).isSome && !h.stopped p

/-- R147 to R150. The one event in flight stands on channel `v` for consumer input `code` and has arrived there, and the input
has taken no trigger within its re-arm time. -/
def arrives (h : Hw) (v : Chan) (code : Nat) : Bool :=
  match h.flights with
  | [f] => f.chan == v && f.cons == code && decide (f.due ≤ h.now) && !(h.consIn code).soon h.now &&
      ((h.consIn code).joint h.now v).isNone
  | _ => false

/-- No handover waits in cluster `c`, and neither converter holds a pending start. -/
def adcQuiet (h : Hw) (c : Nat) : Bool :=
  h.phase c != phHANDOVER && (h.conv c 0).pend.isNone && (h.conv c 1).pend.isNone
/-- R77. NRZ channel `i` captures bits, and a working pin feeds its data line. -/
def takesNrz (h : Hw) (c i : Nat) : Bool :=
  h.sdfOn c i && h.funcFed (sdData c i) && !h.b (pSDF c) i SDF_FCFG_CODING

/-- R77. The bit captured of a bit period: at the edge FCFG.EDGE selects. -/
def nrzBit (h : Hw) (c i : Nat) (x : SdBit) : Bool := if h.b (pSDF c) i SDF_FCFG_EDGE then x.2 else x.1
/-- Lines A and B as a place of the forward sequence 00, 10, 11, 01. -/
def linesAt (q : Fin 4) (z : Bool) : Lines := ⟨q.val == 1 || q.val == 2, q.val == 2 || q.val == 3, z⟩

/-- R108, R403, R409. Pads driven to `l` for `n` edges give the tracker's lines these levels: FILT passes them, working pins
feed the lines that are 1, and no line's function was just switched. -/
def linesGiven (h : Hw) (c t : Nat) (l : Lines) (n : Nat) : Bool :=
  let g := ((h.drivePads (trkLine c t 0) l.a).drivePads (trkLine c t 1) l.b).drivePads (trkLine c t 2) l.z
  decide (h.f (pTRK c) t TRK_TCFG_FILT + 1 ≤ n) && g.linesIn c t == l &&
    !([0, 1, 2].any (fun j => g.funcUnarmed (trkLine c t j)))
/-- Address `addr` is, for the access, the word of memory `g`, which answers it now and is no flash word. -/
def plainAt (s : State) (a : Acc) (addr g : Nat) : Bool :=
  addr % 2 ^ 32 == addr && placeOf a.who addr == .word g && memKind g != .flash && !s.hw.memStopped g && a.mayReach g
/-- A number limited to 40 signed bits, and whether the limit changes it. -/
def lim40 (z : Int) : Int := max (-(2 ^ 39)) (min (2 ^ 39 - 1) z)
def over40 (z : Int) : Bool := decide (z < -(2 ^ 39) ∨ 2 ^ 39 - 1 < z)

/-- Operand codes a customer microword may read, and may write. -/
def readable (k : Nat) : Bool := k < 8 || (16 ≤ k && k < 31)
def writable (k : Nat) : Bool := k < 8 || (16 ≤ k && k < 20) || (24 ≤ k && k < 31)

/-- Engine `c` is about to execute, within the customer routine of run `r`, the microword with these fields: D, A and bits 16:0. -/
abbrev ucAt (s : State) (c : Nat) (r : LoopRun) (op d a low : Nat) : Prop :=
  s.hw.runOf c = some r ∧ r.phase = .routine ∧ s.hw.clusterRuns c = true ∧
    s.hw.b (pLOOPUC c) 0 LOOP_UC_CTRL_UC_WEN = false ∧ r.upc < 0x1FFF ∧ d < 32 ∧ a < 32 ∧ low < 2 ^ 17 ∧
    s.hw.ucWord c r.upc = op * 2 ^ 27 + d * 2 ^ 22 + a * 2 ^ 17 + low

/-- The run goes on at the next address with value `v` in operand `d`, Z and N of `v`, SAT also where `ovf`, every other
operand, the micro-stack and the store queue as they were. -/
def ucGives (t : State) (c : Nat) (r : LoopRun) (d : Nat) (v : Int) (ovf : Bool) : Bool :=
  match t.hw.runOf c with
  | none => false
  | some q =>
    q.upc == r.upc + 1 && q.n == r.n + 1 && q.phase == .routine && q.z == decide (v = 0) && q.neg == decide (v < 0) &&
      q.sat == (r.sat || ovf) && q.stack == r.stack && q.queue == r.queue && (d == 0 || q.ucRd d == v) &&
      (List.range 31).all (fun k => k == d || q.ucRdX k == r.ucRdX k)

/-- The run has taken micro-fault `code`: abandoned, noted, its slot disabled unless it aborted itself or
software writes its SCFG at the same edge, memory as it was. -/
def microFaulted (s t : State) (c : Nat) (r : LoopRun) (code : Nat) : Prop :=
  t.hw.runOf c = none ∧ t.hw.f (pLOOP c) r.slot LOOP_UFSTAT_CODE = code ∧
    t.hw.f (pLOOP c) r.slot LOOP_UFSTAT_UPC = r.upc % 2 ^ 13 ∧ t.hw.f (pLOOP c) r.slot LOOP_SSTAT_UFAULT = 1 ∧
    (s.hw.swAt = [] → t.hw.f (pLOOP c) r.slot LOOP_SCFG_EN = if code = 8 then s.hw.f (pLOOP c) r.slot LOOP_SCFG_EN else 0) ∧
    t.hw.reg (pLOOP c) 0x16 r.slot = s.hw.reg (pLOOP c) 0x16 r.slot ∧ sameMemory s t
/-- R240. The level of SAFE: low, high or high-Z. -/
def safeLevel (n : Nat) : Option Bool := if n = 0 then some false else if n = 1 then some true else none

/-- The machine's registers once what waits for the next PWM_CLK edge has fallen there. -/
def nextEdge (h : Hw) : Hw := { h with now := h.now + 1 }.runDue

/-- Every ball of timebase `tb` is at the safe state that the OCFG in force gives it. -/
def ballsSafe (h : Hw) (c tb : Nat) : Bool :=
  [0, 1, 2].all (fun j =>
    h.outBall c (3 * tb + j) false == safeLevel (h.ocfgF c (3 * tb + j) PWM_CH_OCFG_H_SAFE) &&
      h.outBall c (3 * tb + j) true == safeLevel (h.ocfgF c (3 * tb + j) PWM_CH_OCFG_L_SAFE))

/-- L of a channel for `low`, else H. -/
def outOf (st : PwmCh) (low : Bool) : PwmOut := if low then st.lo else st.hi

/-- The commands of the PWM family. -/
def pwmRow (i : Instr) : Bool :=
  match i with
  | .timebaseStart .. | .timebaseStop .. | .zeroPoint .. | .periodPoint .. | .compareCrossing .. | .outputTurnOn ..
  | .outputTurnOff .. | .pwmCommit .. | .pwmSync .. | .timebaseCfgWrite .. | .ocfgWrite .. | .scorchSourceActive ..
  | .swtrip .. | .tripClr .. => true
  | _ => false

/-- Core `k` issues now the move `m`, whose guard holds and which brings `v`; `c` is the core once the source is read. -/
abbrev issues (s : State) (k : Fin 32) (m : Move) (c : CoreSt) (v : Word) : Prop :=
  s.hw.canIssue k = true ∧ s.next k = .code (.move m) ∧ (s.hw.core k).holds m.guard m.inv = true ∧
    s.getFrom k m.src = .val c v

/-- `c` with the predictor, the order of use of cached lines, the packet at hand and the requests of fills that `f` has. -/
def frontOf (f c : CoreSt) : CoreSt :=
  { c with
    btt := f.btt, rap := f.rap, cache := f.cache, pkt := f.pkt, decoded := f.decoded, predB := f.predB, predR := f.predR,
    predOps := f.predOps, fill := f.fill, wants := f.wants, curLine := f.curLine, later := f.later, busyWait := f.busyWait }

/-- Core `k` stands after a move of kind `m.kind`, and is `c` otherwise, but for its front end. -/
abbrev wentOn (t : State) (k : Fin 32) (m : Move) (c : CoreSt) : Prop :=
  t.hw.core k = frontOf (t.hw.core k) { c.advance m.kind with entered := none }

/-- A move ends the packet that holds its first half. -/
abbrev leaves (m : Move) (c : CoreSt) : Prop := m.kind ≠ .short ∨ c.half = true

/-- Core `k` stands at H0 of packet `a`, and is `c` otherwise, but for its front end. -/
abbrev jumpedTo (t : State) (k : Fin 32) (c : CoreSt) (a : Nat) : Prop :=
  t.hw.core k = frontOf (t.hw.core k) { c with pc := a % 2 ^ 32, half := false, entered := none }

/-- Core `k` stands where it stood, with the precise exception `code` at the move at hand; its front end has decoded it. -/
abbrev raised (s t : State) (k : Fin 32) (code info faddr : Nat) : Prop :=
  t.hw.core k = frontOf (t.hw.core k) { s.hw.core k with
    exc := some ⟨code, info, faddr, (s.hw.core k).pc, (s.hw.core k).half⟩, entered := none }

/-- The limit of an accumulator. -/
def lim80 (z : Int) : Int := max (-(2 ^ 79)) (min (2 ^ 79 - 1) z)
def over80 (z : Int) : Bool := decide (z < -(2 ^ 79) ∨ 2 ^ 79 - 1 < z)

/-- A core reads address `a` as the plain word of memory `g`: permitted, its clock running, neither DRAM nor flash, and no
store it holds there. -/
abbrev plainLoad (s : State) (k : Fin 32) (c : CoreSt) (a g : Nat) : Prop :=
  placeOf (.core k) (a % 2 ^ 32) = .word g ∧ s.hw.accessFault k c.ring 0 (.word g) = 0 ∧ memKind g ≠ .dram ∧
    memKind g ≠ .flash ∧ c.sb.all (fun e => !e.hits k (.word g)) = true

/-- The operand ports' codes, and the codes that read them back. -/
def portCodes : List Nat := [0x28, 0x35, 0x3B, 0x42, 0x46, 0x53, 0x57, 0x58, 0x5C, 0x68, 0x5A, 0x5B]
def backCodes : List Nat := [0xA0, 0xA1, 0xA2, 0xA3, 0xA4, 0xA5, 0xA6, 0xA7, 0xA8, 0xA9, 0x32, 0x33]

/-- Bits `lo + w − 1` to `lo` of word `i` of the frame at XFP of core `k`. -/
abbrev frameBits (s : State) (k : Fin 32) (xfp i lo w : Nat) : Nat := bitsOf (s.rd (tcm k (xfp + i))).toNat lo w

/-- Every tag byte outside line `l`, and every word, stand as they stood. -/
abbrev tagsOutside (s t : State) (l : Nat) : Prop :=
  (∀ g, t.rd g = s.rd g) ∧ ∀ g, g < lineBase l ∨ lineBase l + 8 ≤ g → t.tag g = s.tag g

/-- Every word and tag outside line `l` stands as it stood. -/
abbrev outsideLine (s t : State) (l : Nat) : Prop :=
  ∀ g, g < lineBase l ∨ lineBase l + 8 ≤ g → t.rd g = s.rd g ∧ t.tag g = s.tag g

/-- The array is ready and nothing waits for a line slot. -/
def quietDram (h : Hw) : Bool := h.dramReady && h.dramQ.isEmpty && h.dramBad.isEmpty && h.dramWb.isEmpty

/-- The Hamper's ring geometry as its registers give it: lines of a record, and record positions. -/
def hamperR (h : Hw) : Nat := (min (h.f pHAMPER 0 HAMPER_NSIG_N) 4096 + 9) / 8
def hamperK (h : Hw) : Nat := h.f pHAMPER 0 HAMPER_SIZE_LINES / hamperR h
/-- R446. A condition that refuses arming. -/
def hamperBad (h : Hw) : Bool :=
  decide (hamperK h < 2 ∨ 2 ^ 26 < h.f pHAMPER 0 HAMPER_BASE_LINE + h.f pHAMPER 0 HAMPER_SIZE_LINES ∨
    50331648 < h.f pHAMPER 0 HAMPER_SIZE_LINES)

/-- A cause table read in order: the first cause whose condition holds, 0 when none does. -/
def firstCause : List (Bool × Nat) → Nat
  | [] => 0
  | (c, n) :: rest => if c then n else firstCause rest

/-- No flash operation, erase, record or ledger switch runs or waits, and no reset waits. -/
abbrev flashIdle (h : Hw) : Prop :=
  h.flash.op = none ∧ h.flash.erase = none ∧ h.flash.recs = [] ∧ h.flash.switch = false ∧ h.b pRST 0 RST_STATUS_PENDING = false

/-- Every word of memory outside the `n` words from `a` on, and every tag, stand as they stood. -/
abbrev onlyWords (s t : State) (a n : Nat) : Prop :=
  (∀ g, g < a ∨ a + n ≤ g → t.rd g = s.rd g) ∧ ∀ g, t.tag g = s.tag g

/-- The first word of the next free ledger place, by memory address. -/
abbrev ledgerPlace (h : Hw) : Nat := flashAddr h.nextPlace

/-- The record at `a` carries a KIND, SEQ and arguments, and its CHECK matches. -/
abbrev recordAt (t : State) (a kind seq : Nat) (a0 a1 a2 : Word) : Prop :=
  bitsOf (t.rd a).toNat 36 4 = kind % 16 ∧ bitsOf (t.rd a).toNat 0 32 = seq % 2 ^ 32 ∧ t.rd (a + 1) = a0 ∧ t.rd (a + 2) = a1 ∧
  t.rd (a + 7) = a2 ∧
  (t.rd (a + 3)).toNat = crcWords [t.rd a, t.rd (a + 1), t.rd (a + 2), t.rd (a + 4), t.rd (a + 5), t.rd (a + 6), t.rd (a + 7)]

/-- R481. The causes of LWF_WRITE of field `n` with a value, in order. -/
def lwfCauses (h : Hw) (n key v : Nat) : List (Bool × Nat) :=
  [(decide (8 < n), 1), (key != 0x4C57, 2), (h.flash.lwf.isSome, 3),
    (if n = 7 then decide (64 ≤ lwfFloor h.flash.array) else (lwfNextFree h.flash.array n).isNone, 4),
    ((n == 6 && decide (v < h.lwf 6)) || (n == 7 && decide (v ≤ lwfFloor h.flash.array)), 5)]

/-- The lanes of port `k` are marked locked, aligned or otherwise as mask `m` says, in field `fl`. -/
abbrev lanesAre (h : Hw) (k : Nat) (fl : Fld) (m : Nat) : Prop := ∀ l : Fin 4, h.f (pDL k) l fl = bitsOf m l 1

/-- R500, R502. How many frames port `k` has started that are not acknowledged: those of the retry buffer, and one that leaves
cut-through with an LSEQ. -/
def unacked (h : Hw) (k : Nat) : Nat :=
  (h.port k).retry.length + (match (h.port k).cut with | some c => if c.lseq.isSome then 1 else 0 | none => 0)

/-- Port `k` may start a frame, with nothing held by Fray, which is off on it. -/
abbrev freePort (h : Hw) (k : Nat) : Prop :=
  h.pstate k = 5 ∧ h.domainRuns 40 = true ∧ (h.port k).cut = none ∧ (h.port k).holdUntil ≤ h.now ∧ (h.port k).delayed = none ∧
  (h.port k).reordered = none ∧ h.b (pFRAY k) 0 FRAY_CTRL_EN = false

/-- R511. Port `k` may be chosen for a parent: ACTIVE, its neighbour in a domain and heard so, not refused within 1 ms. -/
def mayJoin (h : Hw) (k : Nat) : Bool :=
  h.pstate k == 5 && (h.port k).seen &&
    (match (h.port k).nbr with | some n => n.joined || n.root | none => false) &&
    (match (h.port k).refusedAt with | some t => decide (t + 400000 ≤ h.now) | none => true)

/-- R511. No hold of JHOLD µs is running. -/
def holdPast (h : Hw) : Bool :=
  match h.dom.holdFrom with | some t => decide (t + 400 * h.f (pDL 0) 0 DL_DCTRL_JHOLD ≤ h.now) | none => true
def nbrHops (h : Hw) (k : Nat) : Nat := match (h.port k).nbr with | some n => n.h | none => 255

/-- R512. The causes that refuse a request at the root, in order. -/
def joinCauses (h : Hw) (r : JoinReq) : List (Bool × Nat) :=
  [(!h.b (pDL 0) 0 DL_DCTRL_ADMIT, 1), (r.major != h.f pDOM 0 DOM_VER_MAJOR, 2), (r.mode != 0 && r.tag != h.dom.tag, 3),
    (r.uid == Config.uid.toNat || h.dom.members.any (fun m => m.uid == r.uid), 4), (decide (255 < r.hops), 5),
    (decide (10000 ≤ h.dom.members.length + 1), 6), (r.mode == 1 && !h.idOpen r.seat r.uid, 7), ((h.idFor r).isNone, 8)]

/-- R519. `q` is the quotient of `num` by `den` to within one unit: its rounding is open (log entry 103). -/
abbrev nearQuot (q num : Int) (den : Nat) : Prop := (q * den - num).natAbs < den

/-- R518. The exchange `x` on port `k` completes with t4 in `ws`: its one-way delay is `c` whole steps and its offset `o`. -/
abbrev completes (h : Hw) (k : Nat) (ws : List Word) (x : Xchg) (t3 : Nat) (c o : Int) : Prop :=
  h.rxUp k = true ∧ (h.port k).xchg = some x ∧ x.t3 = some t3 ∧ x.eid = bitsOf (ws.getD 1 0).toNat 24 8 ∧ (h.port k).delays = [] ∧
  sx 64 (unsx 64 ((x.t2 : Int) - x.t1)) + sx 64 (unsx 64 ((stampOf ws : Int) - t3)) = 2 * c ∧
  o = sx 64 (unsx 64 ((x.t2 : Int) - x.t1)) - c ∧ h.role k = 1 ∧ (h.timeState = 1 ∨ h.timeState = 2 ∨ h.timeState = 3)

/-- R544. The causes that refuse a send from bank `b` with CTX_B = `d`, in order. -/
def sendCauses (h : Hw) (b : Nat) (d : Word) : List (Bool × Nat) :=
  [(!h.tickRuns, 1),
    (decide ((h.f pDOM b DOM_CTX_TN_TN + 2 ^ 40 - h.tick) % 2 ^ 40 < max 2 (h.f pDOM 0 DOM_KMIN_K)) ||
      decide (2 ^ 39 ≤ (h.f pDOM b DOM_CTX_TN_TN + 2 ^ 40 - h.tick) % 2 ^ 40), 2),
    (decide (h.f pDOM 0 DOM_VER_DLEVEL < h.f pDOM b DOM_CTX_A_LEVEL), 3),
    (decide (bitsOf d.toNat 32 7 = 0 ∨ 49 < bitsOf d.toNat 32 7 ∨ d.toNat % 2 ^ 32 < 0x04000000 ∨
      0x04200000 < d.toNat % 2 ^ 32 + 2 * bitsOf d.toNat 32 7), 4)]

/-- R503. A frame made here for node `n` leaves by port `p`. -/
abbrev goesBy (h : Hw) (n p : Nat) : Prop :=
  h.inDomain = true ∧ n ≠ h.nodeId ∧ n ≠ 16383 ∧ h.dom.routes.at none n = some p

/-- R537. The fields of a block's header word. -/
abbrev blockIs (w : Word) (state err count age gen node : Nat) : Prop :=
  bitsOf w.toNat 38 2 = state ∧ bitsOf w.toNat 37 1 = err ∧ bitsOf w.toNat 30 7 = count ∧ bitsOf w.toNat 24 6 = age ∧
  bitsOf w.toNat 14 10 = gen % 1024 ∧ bitsOf w.toNat 0 14 = node

/-- R546. The results with which a target rejects a command frame, in order. -/
def commandResults (h : Hw) (f : Frame) : List (Bool × Nat) :=
  [(decide (h.f pDOM 0 DOM_VER_LEVEL < (f.words.getD 0 0).toNat / 2 ^ 32), 1),
    (decide (tickAhead h.tick ((f.words.getD 0 0).toNat % 2 ^ 32) ≤ 0), 2),
    (decide (((max 1 (h.f pDOM 0 DOM_HORIZON_TICKS) : Nat) : Int) < tickAhead h.tick ((f.words.getD 0 0).toNat % 2 ^ 32)), 3),
    (decide (256 ≤ h.dom.cmdQ.length), 4)]

/-- R565, R582. Host requests arrive: the link is up, the function is in D0 and PCIE_TL runs. -/
def hostUp (h : Hw) : Bool := h.b pPCIE 0 PCIE_STATUS_LINK_UP && !h.b pPCIE 0 PCIE_STATUS_D3 && h.domainRuns 39

/-- R5. The eight bytes of a DRAM slot: the word, the tag byte, zeros. -/
def slotBytes (w : Word) (tag : Nat) : List Nat := wordBytes w ++ [tag % 256, 0, 0]

/-- R580. The state of vector `v`. -/
abbrev vec (h : Hw) (v : Nat) : Vector := h.vectors.at {} v

/-- R586. The causes that refuse a send of mailbox `m` with MTX = `d`, in order. -/
def mtxCauses (h : Hw) (m : Nat) (d : Word) : List (Bool × Nat) :=
  [(h.b pMBOX m MBOX_MSTAT_TXBUSY, 1), (decide (bitsOf d.toNat 20 7 = 0 ∨ 99 < bitsOf d.toNat 20 7), 2), (!h.inDomain, 3)]

/-- R585. The frame of a mailbox message from mailbox `m` here, and that of a NAK. -/
def mboxFrame (dst src kind e : Nat) (w0 : Nat) (ws : List Word) : Frame := ⟨dst, src, 2, 0, kind, e, w40 w0 :: ws⟩

/-- R589. A frame that an enabled port accepts: good FCS and length, destination and VLAN. -/
def frameGood (h : Hw) (k : Nat) (bs : List Nat) : Bool :=
  h.b (pETH k) 0 ETH_CTRL_EN && h.domainRuns (46 + k) && decide (60 ≤ bs.length ∧ bs.length ≤ 1518) &&
    h.macAccept k (beAt bs 0 6) && h.vlanAccept k bs

/-- R590. The free words of a ring whose writer and reader stand at `wr` and `rd`. -/
def ringFree (size wr rd : Nat) : Nat := size - ((wr : Int) - rd).toNat - (if wr < rd then size + wr - rd else 0) - 1

/-- R590. Transmit record of port `k` at TXRD: its word 0 is `w0`, without WRAP, and its frame is `bs`. -/
def txRecordIs (s : State) (k w0 : Nat) (bs : List Nat) : Bool :=
  let h := s.hw
  let at' := h.f (pETH k) 0 ETH_TXBASE_ADDR + h.f (pETH k) 0 ETH_TXRD_PTR
  h.b (pETH k) 0 ETH_CTRL_EN && h.domainRuns 45 && h.f (pETH k) 0 ETH_TXSIZE_WORDS != 0 &&
    h.f (pETH k) 0 ETH_TXRD_PTR != h.f (pETH k) 0 ETH_TXWR_PTR && (s.rd at').toNat == w0 && !bitOf w0 39 &&
    decide (60 ≤ w0 % 65536 ∧ w0 % 65536 ≤ 1518) && (List.range (1 + (w0 % 65536 + 4) / 5)).all (fun i => h.sramOk (at' + i)) &&
    bs == ((s.rdList (at' + 1) ((w0 % 65536 + 4) / 5)).flatMap wordBytes).take (w0 % 65536)

/-- R593. The datagram `g` waits alone for the service engine, whose clock runs, and its TYPE is `n`. -/
abbrev arrived (s : State) (g : Dgram) (n : Nat) : Prop := s.hw.svcq = [g] ∧ leAt g.bytes 3 1 = n ∧ s.hw.domainRuns 33 = true

/-- R595. The causes that refuse an OPEN, in order. -/
def openCauses (h : Hw) (g : Dgram) : List (Bool × Nat) :=
  [(g.bytes.length != 24, 5), (h.b pSVC 0 SVC_CTRL_AUTH && leAt g.bytes 16 4 != h.svcAccess, 6),
    (decide (min 4096 (h.f pSVC 0 SVC_MAXSESS_N) ≤ h.sess.length), 7),
    (decide (leAt g.bytes 20 2 < 10 ∨ 60000 < leAt g.bytes 20 2 ∨ leAt g.bytes 22 2 ≠ 0), 5)]

/-- R604, R607, R622. The device is neither held in reset nor in DEEP. -/
def awake (h : Hw) : Bool := !h.heldInReset && !h.deep

/-- R608. A device reset waits, and the source of its request holds the outputs safe. -/
abbrev resetWaits (t : State) (cause : Nat) : Prop :=
  t.hw.f pRST 0 RST_STATUS_PENDING = 1 ∧ bitOf t.hw.rstCause cause = true ∧ t.hw.b pDEV 0 ⟨3, 3, 1⟩ = true

/-- R630. Sensor `x` with the value `v` lies within its limits. -/
def inLimits (h : Hw) (x v : Nat) : Bool :=
  decide (monValue x (h.f pMON x MON_LO_V) ≤ monValue x v ∧ monValue x v ≤ monValue x (h.f pMON x MON_HI_V))

/-- R621. A cluster whose gating waits may be gated. -/
abbrev canGate (h : Hw) (n : Fin 8) : Prop :=
  h.b pPWR 0 ⟨3, 10 + n.val, 1⟩ = true ∧ h.clusterRuns n = true ∧ (∀ k : Fin 4, h.isHeld (Fin.ofNat 32 (4 * n + k)) = true ∨ h.isWaiting (Fin.ofNat 32 (4 * n + k)) = true) ∧
    (∀ ch : Fin 8, h.f (pCMANGLE n) ch MANGLE_MCH_STAT_STATE ≠ 2 ∧ h.f (pCMANGLE n) ch MANGLE_MCH_STAT_STATE ≠ 3) ∧ h.runOf n = none

/-- R618. The state six PWM_CLK edges, 15 ns, after `h`, as far as SAFE_N goes. -/
def sixEdgesOn (h : Hw) : Hw := { h with now := h.now + 6 }.safeNEdge

/-- R615. The checks of a slot, in order. -/
def slotChecks (s : State) (slot : Nat) : List (Bool × Nat) :=
  [(s.hw.damaged slot, 1), ((s.imgWord slot 0).toNat != 0x4158343038 || bitsOf (s.imgWord slot 1).toNat 32 8 != 1, 2), (!s.layoutOk slot, 3),
    ((List.range (s.imgLen slot)).any (fun i => s.hw.flash.badAt (slotBase slot + i)), 4), (decide (s.imgRidx slot < s.hw.lwf 7), 5),
    (s.hw.bootKey != 0 && Config.sha256 (s.fieldBytes slot 0x40) != s.hw.bootKey, 6),
    (s.hw.bootKey != 0 && !Config.ecdsaOk (s.fieldBytes slot 0x40) (s.fieldBytes slot 0x50) (Config.sha256 (s.hashStream slot)), 7)]

/-- R624. The TAP has its supply and its clock. -/
def tapOn (h : Hw) : Bool := !h.porstLow && !h.deep && !h.b pCLK 54 CLK_DOMAIN_GATE

/-- R659. DEBUG_POLICY is SEALED. -/
def tapSealed (h : Hw) : Bool := decide (2 ≤ h.lwf 6 % 4)

/-- The commands that touch no word or tag of memory. -/
def keepsMemory (i : Instr) : Bool :=
  match i with
  | .pairLowRead .. | .clockFailure .. | .domainGate .. | .adcSeqTrigger .. | .adcSwtrig .. | .conversionStart ..
  | .acquisitionEnd .. | .conversionDone .. | .adcRecoveryEnd .. | .adcEnableChange .. | .startupCalibrationDone ..
  | .calibrationGrant .. | .calibrationDone .. | .rotationIntervalExpiry .. | .rotNow .. | .handover .. | .unitClr ..
  | .readbackRequest .. | .readbackGrant .. | .readbackDone .. | .sdfOutput .. | .sdfSync .. | .manchesterBitError ..
  | .sdfClockLoss .. | .scDetect .. | .comparatorCrossing .. | .lintSample .. | .lintWrite .. | .comparatorDisable ..
  | .encoderInputChange .. | .probeLatch .. | .ssiTrigger .. | .ssiGo .. | .ssiFrameDone .. | .ssiTimeout ..
  | .ssiMonoflopEnd .. | .trackerErrClr .. | .trackerCfgWrite .. | .modulusWrite .. | .trackerPosWrite ..
  | .speedWindowEnd .. | .windowSync .. | .pspeedUpdate .. | .standstill .. | .mangleStartTrigger ..
  | .slotTrigger .. | .loopSwtrig .. | .runStart .. | .deadlineMiss .. | .slotConfigWrite .. | .loopReseed ..
  | .latClear .. | .ucDataWrite .. | .ucDataRead .. | .ucNop .. | .ucMov .. | .ucAdd .. | .ucSub .. | .ucNeg ..
  | .ucAbs .. | .ucMin .. | .ucMax .. | .ucLim .. | .ucShl .. | .ucShr .. | .ucMul .. | .ucMac .. | .ucMsu ..
  | .ucCmp .. | .ucLd .. | .ucSt .. | .ucLdi .. | .ucAnd .. | .ucOr .. | .ucShrt .. | .ucJmp .. | .ucCall ..
  | .ucRet .. | .ucAbort .. | .timebaseStart .. | .timebaseStop .. | .zeroPoint .. | .periodPoint ..
  | .compareCrossing .. | .outputTurnOn .. | .outputTurnOff .. | .pwmCommit .. | .pwmSync .. | .timebaseCfgWrite ..
  | .ocfgWrite .. | .scorchSourceActive .. | .swtrip .. | .tripClr .. | .divComplete .. | .loadReturn ..
  | .evpInputArrival .. | .coreWake .. | .rptPrefix .. | .fetchFillDone .. | .invAll .. | .invLine ..
  | .dicLineChange .. | .dicDoorbell .. | .dicClaim .. | .dicDone .. | .srccfgDisable .. | .aowSourceEdge ..
  | .wakeTimerWrite .. | .wakeTimerExpiry .. | .watchdogEnable .. | .watchdogKick .. | .watchdogWarn ..
  | .watchdogExpiry .. | .pcfgWrite .. | .pfuncWrite .. | .pinOwnWrite .. | .doutWrite .. | .bankSupplyLoss ..
  | .bankSupplyValid .. | .pinEvent .. | .dramInitDone .. | .correctedWriteback .. | .darnerBurstDue ..
  | .darnerNow .. | .hamperEnable .. | .hamperDisable .. | .hamperCadence .. | .hamperTrigger .. | .hamperFreeze ..
  | .hamperRearm .. | .hamperDump .. | .dumpGrant .. | .flashRead .. | .flashProgram .. | .flashErase ..
  | .eraseGrant .. | .flashSuspend .. | .flashResume .. | .suspendAccept .. | .autoResume .. | .marginPv ..
  | .marginEv .. | .marginDone .. | .ledgerAppend .. | .imgMarkTrial .. | .imgConfirm .. | .imgStart ..
  | .imgReject .. | .lwfWrite .. | .lwfWriteDone .. | .portEnable .. | .signalDetect .. | .blockLockAcquired ..
  | .trainTimeout .. | .deskewDone .. | .deskewFail .. | .lctlInit .. | .blockLockLoss .. | .retrainWrite ..
  | .lctlRetrain .. | .retrainTimeout .. | .frameStart .. | .frayReorderTimeout .. | .frameReceive ..
  | .frameRoute .. | .lctlAck .. | .lctlNak .. | .lctlCredit .. | .nakRepeat .. | .ackTimeout .. | .dlHello ..
  | .helloTimer .. | .parentChoice .. | .childReqTimeout .. | .childReq .. | .joinReq .. | .joinGrant ..
  | .joinRefuse .. | .childGrant .. | .childRefuse .. | .dlLeave .. | .dcmdLeave .. | .idHoldExpiry ..
  | .syncTimer .. | .dlSync .. | .dlDreq .. | .dlDresp .. | .holdoverEntry .. | .holdoverExpiry .. | .tsetHWrite ..
  | .tickCfg .. | .tickCfgTimer .. | .baseHCommit .. | .captureComplete .. | .captureTimeout .. | .asmEnable ..
  | .leaseReq .. | .leaseRel .. | .leaseExpiry .. | .commandSend .. | .domCommand .. | .domReport .. | .reportRead ..
  | .resumeReqRepeat .. | .resumeReq .. | .resumeAck .. | .frayConfigWrite .. | .hostRead .. | .snapshotWindowRead ..
  | .hamperWindowRead .. | .pcieVack .. | .pcieVfire .. | .mailboxSend .. | .mailboxSent .. | .mboxNak ..
  | .mboxRxdone .. | .ethFrameTransmit .. | .txtsRead .. | .mdioWrite .. | .mdioDone .. | .svcOpen ..
  | .svcSubscribe .. | .svcKeepalive .. | .svcClose .. | .svcKeepaliveTimeout .. | .svcData .. | .svcSclose ..
  | .deviceResetRequest .. | .resetDeviceCmd .. | .resetClusterCmd .. | .clusterReset .. | .devCgo .. | .secVcmd ..
  | .verifyGrant .. | .verifyDone .. | .safeNFall .. | .safeNRise .. | .safeSw .. | .monitorSample ..
  | .haltMaskWrite .. | .clusterGate .. | .clusterSafeWrite .. | .bistRequest .. | .bistGrant .. | .debugHalt ..
  | .debugResume .. | .tapBypass .. | .tapIdcode .. | .tapSamplePreload .. | .tapExtest .. | .tapClamp ..
  | .tapHighz .. | .pcieLinkUp .. | .configurationWrite .. | .ethLinkChg .. | .aowLevelHit .. => true
  | _ => false

/-- The commands that touch no core. -/
def keepsCores (i : Instr) : Bool :=
  match i with
  | .clockFailure .. | .adcSeqTrigger .. | .conversionStart .. | .acquisitionEnd .. | .conversionDone ..
  | .adcRecoveryEnd .. | .startupCalibrationDone .. | .calibrationGrant .. | .calibrationDone ..
  | .rotationIntervalExpiry .. | .handover .. | .readbackGrant .. | .readbackDone .. | .sdfOutput .. | .sdfSync ..
  | .manchesterBitError .. | .sdfClockLoss .. | .scDetect .. | .comparatorCrossing .. | .encoderInputChange ..
  | .probeLatch .. | .ssiTrigger .. | .ssiFrameDone .. | .ssiTimeout .. | .ssiMonoflopEnd .. | .speedWindowEnd ..
  | .windowSync .. | .pspeedUpdate .. | .standstill .. | .mangleStartTrigger .. | .slotTrigger .. | .runStart ..
  | .deadlineMiss .. | .ucDataRead .. | .ucNop .. | .ucMov .. | .ucAdd .. | .ucSub .. | .ucNeg .. | .ucAbs ..
  | .ucMin .. | .ucMax .. | .ucLim .. | .ucShl .. | .ucShr .. | .ucMul .. | .ucMac .. | .ucMsu .. | .ucCmp ..
  | .ucLd .. | .ucSt .. | .ucLdi .. | .ucAnd .. | .ucOr .. | .ucShrt .. | .ucJmp .. | .ucCall .. | .ucRet ..
  | .ucEnd .. | .ucAbort .. | .zeroPoint .. | .periodPoint .. | .compareCrossing .. | .outputTurnOn ..
  | .outputTurnOff .. | .scorchSourceActive .. | .coreWake .. | .dicLineChange .. | .aowSourceEdge ..
  | .wakeTimerExpiry .. | .watchdogWarn .. | .watchdogExpiry .. | .bankSupplyLoss .. | .bankSupplyValid ..
  | .pinEvent .. | .dramInitDone .. | .dramRequestServe .. | .correctedWriteback .. | .uncorrectableRewrite ..
  | .darnerBurstDue .. | .darnerBurstGrant .. | .hamperCadence .. | .hamperTrigger .. | .dumpGrant .. | .dumpDone ..
  | .flashRead .. | .programDone .. | .eraseGrant .. | .ledgerRecordDone .. | .eraseDone .. | .suspendAccept ..
  | .autoResume .. | .marginDone .. | .lwfWriteDone .. | .signalDetect .. | .blockLockAcquired .. | .trainTimeout ..
  | .deskewDone .. | .deskewFail .. | .lctlInit .. | .blockLockLoss .. | .lctlRetrain .. | .retrainTimeout ..
  | .frameStart .. | .frayReorderTimeout .. | .frameRoute .. | .lctlAck .. | .lctlNak .. | .lctlCredit ..
  | .nakRepeat .. | .ackTimeout .. | .dlHello .. | .helloTimer .. | .parentChoice .. | .childReqTimeout ..
  | .childReq .. | .joinReq .. | .joinGrant .. | .joinRefuse .. | .childGrant .. | .childRefuse .. | .dlLeave ..
  | .idHoldExpiry .. | .syncTimer .. | .dlSync .. | .dlDreq .. | .dlDresp .. | .holdoverEntry .. | .holdoverExpiry ..
  | .tickCfg .. | .tickCfgTimer .. | .domPublication .. | .generationComplete .. | .leaseExpiry .. | .domReport ..
  | .resumeReqRepeat .. | .resumeReq .. | .mailboxSent .. | .mboxNak .. | .ethFrameReceive .. | .ethFrameTransmit ..
  | .txtsRead .. | .mdioDone .. | .svcOpen .. | .svcSubscribe .. | .svcKeepalive .. | .svcClose ..
  | .svcKeepaliveTimeout .. | .deviceResetRequest .. | .verifyGrant .. | .verifyDone .. | .safeNFall ..
  | .safeNRise .. | .monitorSample .. | .clusterGate .. | .bistGrant .. | .tapBypass .. | .tapIdcode ..
  | .tapSamplePreload .. | .tapExtest .. | .tapClamp .. | .tapHighz .. | .pcieLinkUp .. | .configurationWrite ..
  | .ethLinkChg .. | .aowLevelHit .. => true
  | _ => false

/-- The core of a row by which a core issues a move, or that concerns one core alone. -/
def rowCore (i : Instr) : Option (Fin 32) :=
  match i with
  | .operandMove k => some k
  | .registerMove k => some k
  | .predicateMove k => some k
  | .aluT k => some k
  | .aluAdds k => some k
  | .aluSub k => some k
  | .aluSubs k => some k
  | .aluAnd k => some k
  | .aluOr k => some k
  | .aluXor k => some k
  | .aluAndn k => some k
  | .aluMin k => some k
  | .aluMax k => some k
  | .aluAbss k => some k
  | .aluNegs k => some k
  | .shfT k => some k
  | .shfShr k => some k
  | .shfSar k => some k
  | .shfSarr k => some k
  | .shfShls k => some k
  | .cmpT k => some k
  | .cmpNe k => some k
  | .cmpLt k => some k
  | .cmpGe k => some k
  | .cmpLtu k => some k
  | .cmpGeu k => some k
  | .mulT k => some k
  | .mulL k => some k
  | .mulH k => some k
  | .macT k => some k
  | .macS k => some k
  | .macZ k => some k
  | .divT k => some k
  | .divQ k => some k
  | .divU k => some k
  | .divComplete k => some k
  | .cpyT k => some k
  | .lsuT k => some k
  | .lsuLdi k => some k
  | .lsuLdd k => some k
  | .lsuSt k => some k
  | .lsuSti k => some k
  | .lsuStd k => some k
  | .bruT k => some k
  | .bruJr k => some k
  | .bruCall k => some k
  | .bruCallr k => some k
  | .bruRet k => some k
  | .cnsT k => some k
  | .evpT k => some k
  | .evpR k => some k
  | .evpP k => some k
  | .evpInputArrival k _ _ => some k
  | .gioT k => some k
  | .gioSet k => some k
  | .gioClr k => some k
  | .gioTgl k => some k
  | .sysFence k => some k
  | .sysGate k => some k
  | .sysGret k => some k
  | .predFlush k => some k
  | .predBar k => some k
  | .predSync k => some k
  | .predRelease k => some k
  | .sysWait k => some k
  | .coreWake k => some k
  | .sysTrap k => some k
  | .sysBrk k => some k
  | .rptPrefix k => some k
  | .rsDataRead k => some k
  | .rsDataWrite k => some k
  | .fetchFillDone k _ => some k
  | _ => none

/-- The cluster whose converters, filters, comparators, trackers, Loop Engine or outputs a row concerns. -/
def rowCluster (i : Instr) : Option (Fin 8) :=
  match i with
  | .adcSeqTrigger c _ => some c
  | .adcSwtrig _ c _ => some c
  | .conversionStart c => some c
  | .acquisitionEnd c _ => some c
  | .conversionDone c _ _ => some c
  | .adcRecoveryEnd c _ => some c
  | .adcEnableChange _ c _ _ => some c
  | .startupCalibrationDone c _ _ _ => some c
  | .calibrationGrant c _ => some c
  | .calibrationDone c _ => some c
  | .rotationIntervalExpiry c => some c
  | .rotNow _ c _ => some c
  | .handover c => some c
  | .unitClr _ c _ => some c
  | .readbackRequest _ c _ => some c
  | .readbackGrant c _ => some c
  | .readbackDone c _ => some c
  | .sdfOutput c _ _ => some c
  | .sdfSync c _ _ _ => some c
  | .manchesterBitError c _ _ => some c
  | .sdfClockLoss c _ => some c
  | .scDetect c _ _ => some c
  | .comparatorCrossing c _ _ => some c
  | .comparatorDisable _ c _ => some c
  | .encoderInputChange c _ _ => some c
  | .probeLatch c _ _ _ => some c
  | .ssiTrigger c _ _ => some c
  | .ssiGo _ c _ => some c
  | .ssiFrameDone c _ _ _ => some c
  | .ssiTimeout c _ => some c
  | .ssiMonoflopEnd c _ => some c
  | .trackerErrClr _ c _ => some c
  | .trackerCfgWrite _ c _ _ => some c
  | .modulusWrite _ c _ => some c
  | .trackerPosWrite _ c _ _ => some c
  | .speedWindowEnd c _ => some c
  | .windowSync c _ _ => some c
  | .pspeedUpdate c _ => some c
  | .standstill c _ => some c
  | .slotTrigger c _ _ _ => some c
  | .loopSwtrig _ c _ _ => some c
  | .runStart c _ => some c
  | .slotConfigWrite _ c _ _ => some c
  | .loopReseed _ c _ => some c
  | .latClear _ c _ => some c
  | .ucDataWrite _ c _ => some c
  | .ucDataRead _ c => some c
  | .ucNop c _ => some c
  | .ucMov c _ => some c
  | .ucAdd c _ => some c
  | .ucSub c _ => some c
  | .ucNeg c _ => some c
  | .ucAbs c _ => some c
  | .ucMin c _ => some c
  | .ucMax c _ => some c
  | .ucLim c _ => some c
  | .ucShl c _ => some c
  | .ucShr c _ => some c
  | .ucMul c _ => some c
  | .ucMac c _ => some c
  | .ucMsu c _ => some c
  | .ucCmp c _ => some c
  | .ucLd c _ => some c
  | .ucSt c _ => some c
  | .ucLdi c _ => some c
  | .ucAnd c _ => some c
  | .ucOr c _ => some c
  | .ucShrt c _ => some c
  | .ucJmp c _ => some c
  | .ucCall c _ => some c
  | .ucRet c _ => some c
  | .ucEnd c _ _ => some c
  | .ucAbort c _ => some c
  | .timebaseStart _ c _ => some c
  | .timebaseStop _ c _ => some c
  | .zeroPoint c _ _ => some c
  | .periodPoint c _ => some c
  | .compareCrossing c _ _ => some c
  | .outputTurnOn c _ _ => some c
  | .outputTurnOff c _ _ => some c
  | .pwmCommit c _ => some c
  | .pwmSync c _ => some c
  | .timebaseCfgWrite _ c _ => some c
  | .ocfgWrite _ c _ => some c
  | .scorchSourceActive c _ _ => some c
  | .swtrip _ c _ => some c
  | .tripClr _ c _ => some c
  | _ => none

/-- O1. For every requester and page whose controlled write passes: REGISTER_WRITE of IRQ_EN leaves there the word that the
fields' access codes make of the written one; of a reserved offset it changes no register; LOCK_SET leaves LOCK at 1.
A write of OWNER by a requester that may write at all (not SNAP, the Hamper or a debugger shut out), at ring 0 or 1 or
as the owner, while LOCK is 0 leaves the RING and REQ written. A REGISTER_WRITE to an offset other than OWNER and
CHSEL that the requester, the page's floor or the owner does not allow leaves every register as it was but DEV.ACC_LOG
and DEV.IRQ_FLAG, and for the host its refusal counter and flag; ACC_LOG names the page, the offset, the ring and the
requester, and memory is unchanged. Where a clause lies on a reading or a choice of the model's own: log entries 6,
15, 17. -/
def Obligations.PageWritesUnderTheAccessCodes : Prop :=
  (∀ (w : Requester) (cl : Fin 16) (idx : BitVec 12) (d : Word) (s : State),
    accepts s.hw w ⟨cl.val, idx.toNat⟩ = true →
    Answers (exec (.registerWrite w cl idx 4 d) s) (fun t =>
      t.hw.reg ⟨cl.val, idx.toNat⟩ 4 0 = writtenWord s.hw ⟨cl.val, idx.toNat⟩ 4 (s.hw.reg ⟨cl.val, idx.toNat⟩ 4 0) d)) ∧
  (∀ (w : Requester) (cl : Fin 16) (idx : BitVec 12) (off : BitVec 8) (d : Word) (s : State),
    accepts s.hw w ⟨cl.val, idx.toNat⟩ = true →
    9 ≤ off.toNat ∧ off.toNat ≤ 15 →
    Answers (exec (.registerWrite w cl idx off d) s) (fun t =>
      (∀ (q : Page) (o ch : Nat), t.hw.reg q o ch = s.hw.reg q o ch))) ∧
  (∀ (w : Requester) (cl : Fin 16) (idx : BitVec 12) (s : State),
    accepts s.hw w ⟨cl.val, idx.toNat⟩ = true →
    Answers (exec (.lockSet w cl idx) s) (fun t =>
      t.hw.f ⟨cl.val, idx.toNat⟩ 0 LOCK_BIT = 1)) ∧
  (∀ (w : Requester) (cl : Fin 16) (idx : BitVec 12) (d : Word) (s : State),
    reachable s.hw ⟨cl.val, idx.toNat⟩ = true →
    s.hw.f ⟨cl.val, idx.toNat⟩ 0 LOCK_BIT = 0 →
    s.hw.ringOf w ≤ 1 ∨ w.id = s.hw.f ⟨cl.val, idx.toNat⟩ 0 OWNER_REQ →
    s.hw.mayWrite w = true →
    Answers (exec (.ownerWrite w cl idx d) s) (fun t =>
      t.hw.f ⟨cl.val, idx.toNat⟩ 0 OWNER_RING = bitsOf d.toNat 8 2 ∧
      t.hw.f ⟨cl.val, idx.toNat⟩ 0 OWNER_REQ = bitsOf d.toNat 0 8)) ∧
  (∀ (w : Requester) (cl : Fin 16) (idx : BitVec 12) (off : BitVec 8) (d : Word) (s : State),
    reachable s.hw ⟨cl.val, idx.toNat⟩ = true →
    accepts s.hw w ⟨cl.val, idx.toNat⟩ off.toNat = false →
    off ≠ 6 ∧ off ≠ 8 →
    Answers (exec (.registerWrite w cl idx off d) s) (fun t =>
      (∀ (q : Page) (o ch : Nat), (q, o) ≠ (pDEV, 0x80) → (q, o) ≠ (pDEV, 5) → (w = .host → q ≠ pPCIE) → t.hw.reg q
        o ch = s.hw.reg q o ch) ∧
      t.hw.reg pDEV 0x80 0 = w40 (cl.val * 2 ^ 36 + idx.toNat * 2 ^ 24 + off.toNat * 2 ^ 16 + s.hw.ringOf w % 4 * 2
        ^ 8 + w.id) ∧
      sameMemory s t))

/-- O2. By a requester that may write, to a page whose clock runs, CHSEL_WRITE with an existing channel leaves that channel in
the requester's own copy and every other copy as it was; with a channel number at or above the page's channel count it
changes no register at all. -/
def Obligations.ChannelSelectionPerRequester : Prop :=
  (∀ (w : Requester) (cl : Fin 16) (idx : BitVec 12) (d : Word) (i : PageInfo) (s : State),
    pageInfo ⟨cl.val, idx.toNat⟩ = some i →
    s.hw.stopped ⟨cl.val, idx.toNat⟩ = false →
    s.hw.mayWrite w = true →
    d.toNat % 4096 < i.chans →
    Answers (exec (.chselWrite w cl idx d) s) (fun t =>
      t.hw.chsel ⟨cl.val, idx.toNat⟩ w = d.toNat % 4096 ∧
      (∀ v : Requester, v.bank ≠ w.bank → t.hw.chsel ⟨cl.val, idx.toNat⟩ v = s.hw.chsel ⟨cl.val, idx.toNat⟩ v))) ∧
  (∀ (w : Requester) (cl : Fin 16) (idx : BitVec 12) (d : Word) (i : PageInfo) (s : State),
    pageInfo ⟨cl.val, idx.toNat⟩ = some i →
    s.hw.stopped ⟨cl.val, idx.toNat⟩ = false →
    s.hw.mayWrite w = true →
    i.chans ≤ d.toNat % 4096 →
    Answers (exec (.chselWrite w cl idx d) s) (fun t =>
      (∀ (q : Page) (o ch : Nat), t.hw.reg q o ch = s.hw.reg q o ch)))

/-- O3. PAIR_LOW_READ of a readable pair whose read changes nothing else returns the low word as it stands and captures the
high word in the requester's bank. PAIR_LOW_WRITE of a writable pair holds the word in the requester's bank and
changes no register. PAIR_HIGH_WRITE of an Ethernet port's 0x80 pair commits the held low word, or the register's own
where none is held, with the written high word. Where a clause lies on a reading or a choice of the model's own: log
entries 18. -/
def Obligations.RegisterPairHalves : Prop :=
  (∀ (w : Requester) (cl : Fin 16) (idx : BitVec 12) (off : BitVec 8) (i : PageInfo) (s : State),
    pageInfo ⟨cl.val, idx.toNat⟩ = some i →
    pairLow i.kind off.toNat = true →
    readChanges i.kind off.toNat = false →
    s.hw.mayRead (s.hw.acc w) ⟨cl.val, idx.toNat⟩ = true →
    Answers (exec (.pairLowRead w cl idx off) s) (fun t =>
      t.hw.resp = [s.view ⟨cl.val, idx.toNat⟩ off.toNat (s.hw.chanFor ⟨cl.val, idx.toNat⟩ w off.toNat)] ∧
      (t.hw.pair ⟨cl.val, idx.toNat⟩ off.toNat (s.hw.pairChan ⟨cl.val, idx.toNat⟩ w off.toNat) w).cap = some (s.view
        ⟨cl.val, idx.toNat⟩ (off.toNat + 1) (s.hw.chanFor ⟨cl.val, idx.toNat⟩ w off.toNat)))) ∧
  (∀ (w : Requester) (k : Fin 2) (d : Word) (s : State),
    accepts s.hw w (pETH k.val) = true →
    Answers (exec (.pairLowWrite w 15 (BitVec.ofNat 12 (0x03C + k.val)) 0x80 d) s) (fun t =>
      (t.hw.pair (pETH k.val) 0x80 0 w).held = some d ∧
      (∀ (q : Page) (o ch : Nat), t.hw.reg q o ch = s.hw.reg q o ch))) ∧
  (∀ (w : Requester) (k : Fin 2) (d lo : Word) (s : State),
    accepts s.hw w (pETH k.val) = true →
    s.hw.pairLowWord (pETH k.val) 0x80 0 w = lo →
    Answers (exec (.pairHighWrite w 15 (BitVec.ofNat 12 (0x03C + k.val)) 0x80 d) s) (fun t =>
      t.hw.reg (pETH k.val) 0x80 0 = writtenWord s.hw (pETH k.val) 0x80 (s.hw.reg (pETH k.val) 0x80 0) lo ∧
      t.hw.reg (pETH k.val) 0x81 0 = writtenWord s.hw (pETH k.val) 0x81 (s.hw.reg (pETH k.val) 0x81 0) d))

/-- O4. For an enabled entry that starts no pair, outside start-up calibration and with no handover waiting: ADC_SWTRIG or
ADC_SEQ_TRIGGER at a converter that can accept begins the acquisition of that entry with its settings of that edge; at
a busy converter whose pending position is free the entry becomes the pending start; at a busy converter that holds
one the start is dropped and the entry's OVR bit set. CONVERSION_START begins the one pending start, whose entry names
the converter that holds it, when that converter can accept. Where a clause lies on a reading or a choice of the
model's own: log entries 6, 21, 23, 24, 154. -/
def Obligations.ConverterTakesOneStartAndHoldsOne : Prop :=
  (∀ (w : Requester) (c : Fin 8) (e : Fin 16) (j : Fin 2) (d : Word) (s : State),
    accepts s.hw w (pADCSEQ c) = true →
    d.toNat % 65536 = 2 ^ e.val →
    s.hw.entryOn c e = true →
    s.hw.pairOn c e = false →
    s.hw.f (pADCSEQ c) e ADC_SEQ_ECFG_CONV = j.val →
    s.hw.b (pADC c j) 0 ADC_STATUS_STARTUP = false →
    adcQuiet s.hw c = true →
    s.hw.canAccept c j = true →
    Answers (exec (.adcSwtrig w c d) s) (fun t =>
      t.hw.f (pADC c j) 0 ADC_STATUS_PHASE = 1 ∧
      t.hw.f (pADCSEQ c) 0 ⟨3, e, 1⟩ = 1 ∧
      (t.hw.conv c j).cfg = s.hw.takeCfg c j e)) ∧
  (∀ (c : Fin 8) (e : Fin 16) (j : Fin 2) (v : Chan) (s : State),
    s.hw.clusterRuns c = true →
    arrives s.hw v (clCode c (0x010 + e.val)) = true →
    s.hw.entryOn c e = true →
    s.hw.pairOn c e = false →
    s.hw.f (pADCSEQ c) e ADC_SEQ_ECFG_CONV = j.val →
    s.hw.b (pADC c j) 0 ADC_STATUS_STARTUP = false →
    adcQuiet s.hw c = true →
    s.hw.canAccept c j = true →
    Answers (exec (.adcSeqTrigger c [(e, ⟨v, none⟩)]) s) (fun t =>
      t.hw.f (pADC c j) 0 ADC_STATUS_PHASE = 1 ∧
      t.hw.f (pADCSEQ c) 0 ⟨3, e, 1⟩ = 1 ∧
      (t.hw.conv c j).cfg = s.hw.takeCfg c j e ∧
      t.hw.flights = [])) ∧
  (∀ (w : Requester) (c : Fin 8) (e : Fin 16) (j : Fin 2) (d : Word) (s : State),
    accepts s.hw w (pADCSEQ c) = true →
    d.toNat % 65536 = 2 ^ e.val →
    s.hw.entryOn c e = true →
    s.hw.pairOn c e = false →
    s.hw.f (pADCSEQ c) e ADC_SEQ_ECFG_CONV = j.val →
    s.hw.b (pADC c j) 0 ADC_STATUS_STARTUP = false →
    adcQuiet s.hw c = true →
    s.hw.canAccept c j = false →
    Answers (exec (.adcSwtrig w c d) s) (fun t =>
      t.hw.f (pADC c j) 0 ADC_STATUS_PEND = 1 ∧
      t.hw.f (pADC c j) 0 ADC_STATUS_PEND_E = e.val ∧
      t.hw.f (pADC c j) 0 ADC_STATUS_PHASE = s.hw.f (pADC c j) 0 ADC_STATUS_PHASE)) ∧
  (∀ (w : Requester) (c : Fin 8) (e : Fin 16) (j : Fin 2) (d : Word) (s : State),
    accepts s.hw w (pADCSEQ c) = true →
    d.toNat % 65536 = 2 ^ e.val →
    s.hw.entryOn c e = true →
    s.hw.pairOn c e = false →
    s.hw.f (pADCSEQ c) e ADC_SEQ_ECFG_CONV = j.val →
    s.hw.b (pADC c j) 0 ADC_STATUS_STARTUP = false →
    s.hw.phase c ≠ phHANDOVER →
    s.hw.canAccept c 0 = false ∧ s.hw.canAccept c 1 = false →
    (s.hw.conv c j).pend.isSome = true →
    Answers (exec (.adcSwtrig w c d) s) (fun t =>
      t.hw.f (pADCSEQ c) 0 ⟨5, 16 + e.val, 1⟩ = 1 ∧
      t.hw.conv c j = s.hw.conv c j)) ∧
  (∀ (c : Fin 8) (e : Nat) (j : Fin 2) (s : State),
    s.hw.clusterRuns c = true →
    s.hw.phase c ≠ phHANDOVER →
    (s.hw.conv c j).pend = some e →
    (s.hw.conv c (1 - j.val)).pend = none →
    (s.hw.conv c 0).pendPair = false ∧ (s.hw.conv c 1).pendPair = false →
    s.hw.f (pADCSEQ c) e ADC_SEQ_ECFG_CONV = j.val →
    s.hw.canAccept c j = true →
    Answers (exec (.conversionStart c) s) (fun t =>
      t.hw.f (pADC c j) 0 ADC_STATUS_PHASE = 1 ∧
      t.hw.f (pADC c j) 0 ADC_STATUS_PEND = 0 ∧
      (t.hw.conv c j).cfg = s.hw.takeCfg c j e))

/-- O5. ACQUISITION_END takes an acquiring converter to converting, with the threshold DAC code that its mux selects held, and
ADC_RECOVERY_END a recovering one to idle. CONVERSION_DONE of an entry without CHAIN writes RESULT as F plus the floor
of c times G over 2 to the 15 plus one half, limited to 40 signed bits, with SAT where the limit acted; RAW as the
code, its SEQ one higher, DONE of the entry set, and the converter recovering with CONV_CNT one higher. The code of a
pin input without unit error is the floor of 65536 times its height over the span, limited to 16 bits, with the low
bits of its resolution at 0. Where a clause lies on a reading or a choice of the model's own: log entries 21, 22, 155,
156. -/
def Obligations.ConversionPhasesAndResult : Prop :=
  (∀ (c : Fin 8) (j : Fin 2) (s : State),
    s.hw.clusterRuns c = true →
    s.hw.f (pADC c j) 0 ADC_STATUS_PHASE = 1 →
    Answers (exec (.acquisitionEnd c j) s) (fun t =>
      t.hw.f (pADC c j) 0 ADC_STATUS_PHASE = 2 ∧
      (t.hw.conv c j).held = s.hw.muxDac c (s.hw.conv c j).cfg.mux)) ∧
  (∀ (c : Fin 8) (j : Fin 2) (s : State),
    s.hw.clusterRuns c = true →
    s.hw.f (pADC c j) 0 ADC_STATUS_PHASE = 3 →
    Answers (exec (.adcRecoveryEnd c j) s) (fun t =>
      t.hw.f (pADC c j) 0 ADC_STATUS_PHASE = 0)) ∧
  (∀ (c : Fin 8) (j : Fin 2) (e : Fin 16) (cfg : ConvCfg) (v refn span k : Int) (n : Nat) (s : State),
    s.hw.clusterRuns c = true →
    s.hw.f (pADC c j) 0 ADC_STATUS_PHASE = 2 →
    (s.hw.conv c j).cfg = cfg →
    cfg.entry = e.val ∧ cfg.mux < 8 ∧ cfg.res < 3 →
    s.hw.b (pADCSEQ c) e ADC_SEQ_ECFG_CHAIN = false →
    0 < span →
    n = (min 65535 (max 0 (65536 * (v - refn) / span))).toNat / 2 ^ (2 * cfg.res) * 2 ^ (2 * cfg.res) →
    k = (if cfg.signed then (n : Int) - 32768 else n) →
    Answers (exec (.conversionDone c j ⟨v, refn, span, 0⟩) s) (fun t =>
      t.hw.fs (pADCSEQ c) e ADC_SEQ_RESULT_VALUE = max (-(2 ^ 39)) (min (2 ^ 39 - 1) (cfg.offset + (2 * k * cfg.gain
        + 2 ^ 15) / 2 ^ 16)) ∧
      (t.hw.b (pADCSEQ c) e ADC_SEQ_ESTAT_SAT = decide (cfg.offset + (2 * k * cfg.gain + 2 ^ 15) / 2 ^ 16 < -(2 ^
        39) ∨ 2 ^ 39 - 1 < cfg.offset + (2 * k * cfg.gain + 2 ^ 15) / 2 ^ 16)) ∧
      t.hw.f (pADCSEQ c) e ADC_SEQ_ESTAT_RAW = n ∧
      t.hw.f (pADCSEQ c) e ADC_SEQ_ESTAT_SEQ = (s.hw.f (pADCSEQ c) e ADC_SEQ_ESTAT_SEQ + 1) % 256 ∧
      t.hw.f (pADCSEQ c) 0 ⟨5, e, 1⟩ = 1 ∧
      t.hw.f (pADC c j) 0 ADC_STATUS_PHASE = 3 ∧
      t.hw.f (pADC c j) 0 ADC_CONV_CNT_COUNT = (s.hw.f (pADC c j) 0 ADC_CONV_CNT_COUNT + 1) % 2 ^ 40))

/-- O6. ADC_ENABLE_CHANGE that sets CTRL.EN of a logical converter for the first time since a cluster reset starts start-up
calibration: STARTUP reads 1 on both converters and a calibration waits in the cluster's queue. One that clears EN
discards the converter's own pending start, leaving OVR as it was. STARTUP_CALIBRATION_DONE with three passing
verifies leaves STARTUP at 0, CAL_MID at the verify of U2 and the spare READY. Where a clause lies on a reading or a
choice of the model's own: log entries 6, 25. -/
def Obligations.ConverterEnablesAndStartUp : Prop :=
  (∀ (w : Requester) (c : Fin 8) (d : Word) (s : State),
    accepts s.hw w (pADC c 0) = true →
    bitOf d.toNat 0 = true →
    (s.hw.adcSt c).startBegun = false →
    Answers (exec (.adcEnableChange w c .convA d) s) (fun t =>
      t.hw.f (pADC c 0) 0 ADC_CTRL_EN = 1 ∧
      t.hw.f (pADC c 0) 0 ADC_STATUS_STARTUP = 1 ∧ t.hw.f (pADC c 1) 0 ADC_STATUS_STARTUP = 1 ∧
      t.hw.queue c = s.hw.queue c ++ [⟨2, 0⟩])) ∧
  (∀ (w : Requester) (c : Fin 8) (e : Nat) (d : Word) (s : State),
    accepts s.hw w (pADC c 1) = true →
    bitOf d.toNat 0 = false →
    (s.hw.conv c 1).pend = some e →
    s.hw.f (pADCSEQ c) e ADC_SEQ_ECFG_CONV = 1 →
    Answers (exec (.adcEnableChange w c .convB d) s) (fun t =>
      t.hw.f (pADC c 1) 0 ADC_CTRL_EN = 0 ∧
      (t.hw.conv c 1).pend = none ∧
      t.hw.reg (pADCSEQ c) 5 0 = s.hw.reg (pADCSEQ c) 5 0)) ∧
  (∀ (c : Fin 8) (x0 x1 x2 : Analog) (s : State),
    s.hw.clusterRuns c = true →
    s.hw.running c = some ⟨2, 0⟩ →
    s.hw.phase c = phSTARTUP →
    (s.hw.adcSt c).rotNow = false →
    s.hw.verifyOk c (verifyCode s.hw c x0) = true ∧ s.hw.verifyOk c (verifyCode s.hw c x1) = true ∧ s.hw.verifyOk c
      (verifyCode s.hw c x2) = true →
    Answers (exec (.startupCalibrationDone c x0 x1 x2) s) (fun t =>
      t.hw.f (pADC c 0) 0 ADC_STATUS_STARTUP = 0 ∧ t.hw.f (pADC c 1) 0 ADC_STATUS_STARTUP = 0 ∧
      t.hw.phase c = phREADY ∧
      t.hw.f (pADCS c) 0 ADC_S_CAL_MID_UNIT = 2 ∧
      t.hw.f (pADCS c) 0 ADC_S_CAL_MID_CODE = verifyCode s.hw c x2 ∧
      t.hw.running c = none))

/-- O7. CALIBRATION_GRANT runs a waiting calibration of the spare; CALIBRATION_DONE takes it to READY on a passing verify and,
on a third failure, marks the unit FAILED with PHASE NONE and NO_SPARE. ROTATION_INTERVAL_EXPIRY, once ROT_INT times
100 µs have passed, and ROT_NOW arm a handover while the spare is READY; HANDOVER swaps the spare with the outgoing
unit, counts in ROT_CNT and queues the released unit. UNIT_CLR of the failed spare returns it to CAL. READBACK_REQUEST
queues a read-back, or completes with NOSPARE in NONE; READBACK_GRANT starts it; READBACK_DONE writes CODE and FAIL by
the tolerance. Where a clause lies on a reading or a choice of the model's own: log entries 24, 25. -/
def Obligations.SpareRotationAndCalibration : Prop :=
  (∀ (c : Fin 8) (s : State),
    s.hw.clusterRuns c = true →
    s.hw.queue c = [⟨2, 0⟩] →
    s.hw.running c = none →
    s.hw.phase c = phCAL →
    Answers (exec (.calibrationGrant c ()) s) (fun t =>
      t.hw.running c = some ⟨2, 0⟩ ∧
      t.hw.queue c = [])) ∧
  (∀ (c : Fin 8) (x : Analog) (s : State),
    s.hw.clusterRuns c = true →
    s.hw.running c = some ⟨2, 0⟩ →
    s.hw.phase c = phCAL →
    (s.hw.adcSt c).intervalUp = false ∧ (s.hw.adcSt c).rotNow = false →
    s.hw.verifyOk c (verifyCode s.hw c x) = true →
    Answers (exec (.calibrationDone c x) s) (fun t =>
      t.hw.phase c = phREADY ∧
      t.hw.running c = none ∧
      t.hw.f (pADCS c) 0 ADC_S_CAL_MID_CODE = verifyCode s.hw c x)) ∧
  (∀ (c : Fin 8) (u : Fin 3) (x : Analog) (s : State),
    s.hw.clusterRuns c = true →
    s.hw.running c = some ⟨2, 0⟩ →
    s.hw.phase c = phCAL →
    s.hw.f (pADCS c) 0 ADC_S_STATUS_UNIT_S = u.val →
    (s.hw.adcSt c).tries = 2 →
    s.hw.verifyOk c (verifyCode s.hw c x) = false →
    Answers (exec (.calibrationDone c x) s) (fun t =>
      t.hw.phase c = phNONE ∧
      t.hw.f (pADCS c) 0 ADC_S_STATUS_NO_SPARE = 1 ∧
      t.hw.f (pADCS c) 0 ⟨3, 13 + u.val, 1⟩ = 1 ∧
      t.hw.f (pADCS c) 0 ADC_S_IRQ_NO_SPARE = 1 ∧ t.hw.f (pADCS c) 0 ADC_S_IRQ_CAL_FAIL = 1)) ∧
  (∀ (c : Fin 8) (s : State),
    s.hw.clusterRuns c = true →
    (s.hw.adcSt c).startDone = true →
    (s.hw.adcSt c).rbWait = none →
    s.hw.phase c = phREADY →
    s.hw.b (pADCS c) 0 ADC_S_CTRL_ROT_EN = true →
    (s.hw.adcSt c).intervalAt + 40000 * max 1 (s.hw.f (pADCS c) 0 ADC_S_CTRL_ROT_INT) ≤ s.hw.now →
    Answers (exec (.rotationIntervalExpiry c) s) (fun t =>
      t.hw.phase c = phHANDOVER)) ∧
  (∀ (w : Requester) (c : Fin 8) (d : Word) (s : State),
    accepts s.hw w (pADCS c) = true →
    bitOf d.toNat 0 = true ∧ bitOf d.toNat 1 = true →
    (s.hw.adcSt c).rbWait = none →
    s.hw.phase c = phREADY →
    Answers (exec (.rotNow w c d) s) (fun t =>
      t.hw.phase c = phHANDOVER ∧
      t.hw.f (pADCS c) 0 ADC_S_CTRL_ROT_NOW = 0)) ∧
  (∀ (c : Fin 8) (s : State),
    s.hw.clusterRuns c = true →
    s.hw.phase c = phHANDOVER →
    s.hw.f (pADCS c) 0 ADC_S_STATUS_NEXT_OUT = 0 →
    s.hw.canAccept c 0 = true →
    Answers (exec (.handover c) s) (fun t =>
      t.hw.f (pADCS c) 0 ADC_S_STATUS_UNIT_A = s.hw.f (pADCS c) 0 ADC_S_STATUS_UNIT_S ∧
      t.hw.f (pADCS c) 0 ADC_S_STATUS_UNIT_S = s.hw.f (pADCS c) 0 ADC_S_STATUS_UNIT_A ∧
      t.hw.f (pADCS c) 0 ADC_S_STATUS_UNIT_B = s.hw.f (pADCS c) 0 ADC_S_STATUS_UNIT_B ∧
      t.hw.f (pADCS c) 0 ADC_S_STATUS_NEXT_OUT = 1 ∧
      t.hw.f (pADCS c) 0 ADC_S_ROT_CNT_COUNT = (s.hw.f (pADCS c) 0 ADC_S_ROT_CNT_COUNT + 1) % 2 ^ 40 ∧
      t.hw.phase c = phCAL ∧
      t.hw.queue c = s.hw.queue c ++ [⟨2, 0⟩])) ∧
  (∀ (w : Requester) (c : Fin 8) (u : Fin 3) (d : Word) (s : State),
    accepts s.hw w (pADCS c) = true →
    s.hw.phase c = phNONE →
    s.hw.f (pADCS c) 0 ADC_S_STATUS_UNIT_S = u.val →
    s.hw.f (pADCS c) 0 ⟨3, 13 + u.val, 1⟩ = 1 →
    d.toNat % 8 = 2 ^ u.val →
    Answers (exec (.unitClr w c d) s) (fun t =>
      t.hw.phase c = phCAL ∧
      t.hw.f (pADCS c) 0 ⟨3, 13 + u.val, 1⟩ = 0 ∧
      t.hw.queue c = s.hw.queue c ++ [⟨2, 0⟩])) ∧
  (∀ (w : Requester) (c : Fin 8) (d : Word) (s : State),
    accepts s.hw w (pADCS c) = true →
    bitOf d.toNat 3 = true →
    s.hw.phase c ≠ phNONE →
    (s.hw.adcSt c).rbRun = none ∧ (s.hw.adcSt c).rbWait = none →
    Answers (exec (.readbackRequest w c d) s) (fun t =>
      t.hw.f (pADCS c) 0 ADC_S_RB_RESULT_QUEUED = 1 ∧
      t.hw.f (pADCS c) 0 ADC_S_RB_RESULT_DONE = 0 ∧
      (t.hw.adcSt c).rbWait = some (d.toNat % 8) ∧
      t.hw.queue c = s.hw.queue c ++ [⟨1, 0⟩])) ∧
  (∀ (w : Requester) (c : Fin 8) (d : Word) (s : State),
    accepts s.hw w (pADCS c) = true →
    bitOf d.toNat 3 = true →
    s.hw.phase c = phNONE →
    (s.hw.adcSt c).rbRun = none →
    Answers (exec (.readbackRequest w c d) s) (fun t =>
      t.hw.f (pADCS c) 0 ADC_S_RB_RESULT_NOSPARE = 1 ∧ t.hw.f (pADCS c) 0 ADC_S_RB_RESULT_DONE = 1 ∧
      t.hw.f (pADCS c) 0 ADC_S_RB_RESULT_QUEUED = 0 ∧
      t.hw.f (pADCS c) 0 ADC_S_RB_RESULT_CODE = s.hw.f (pADCS c) 0 ADC_S_RB_RESULT_CODE ∧
      t.hw.f (pADCS c) 0 ADC_S_IRQ_RB_DONE = 1)) ∧
  (∀ (c : Fin 8) (dac : Nat) (s : State),
    s.hw.clusterRuns c = true →
    s.hw.phase c = phREADY →
    s.hw.queue c = [⟨1, 0⟩] →
    s.hw.running c = none →
    (s.hw.adcSt c).rbWait = some dac →
    Answers (exec (.readbackGrant c ()) s) (fun t =>
      t.hw.phase c = phRB ∧
      (t.hw.adcSt c).rbRun = some dac ∧
      t.hw.running c = some ⟨1, 0⟩)) ∧
  (∀ (c : Fin 8) (dac : Fin 8) (x : Analog) (code : Nat) (s : State),
    s.hw.clusterRuns c = true →
    s.hw.phase c = phRB →
    (s.hw.adcSt c).rbRun = some dac.val →
    (s.hw.adcSt c).rbNext = none →
    (muxInput s.hw c (8 + dac.val) x).code = code →
    Answers (exec (.readbackDone c x) s) (fun t =>
      t.hw.f (pADCS c) 0 ADC_S_RB_RESULT_CODE = code ∧
      t.hw.f (pADCS c) 0 ADC_S_RB_RESULT_DONE = 1 ∧
      t.hw.f (pADCS c) 0 ADC_S_RB_RESULT_QUEUED = 0 ∧
      t.hw.b (pADCS c) 0 ADC_S_RB_RESULT_FAIL = decide (s.hw.f (pADCS c) 0 ADC_S_RB_CTRL_TOL < ((code : Int) - (64 *
        s.hw.f (pCMP c) dac CMP_THRESH_DAC + 32 : Nat)).natAbs)))

/-- O8. For an NRZ channel that captures and whose data line a working pin feeds, SDF_OUTPUT whose bit, taken at the clock
edge FCFG.EDGE selects, is the R-th since the last output writes RESULT as F plus the floor of y times G over R to the
K plus one half, limited, and counts SEQ; SDF_SYNC restarts the count of bits at the next one; MANCHESTER_BIT_ERROR
sets MDERR, counts in the run of errors and repeats the previous bit, unless the clock is lost; SDF_CLOCK_LOSS clears
VALID, sets CLK_LOST in STATUS and IRQ_FLAG and holds RESULT; SC_DETECT of a bit that takes the detector beyond a
threshold sets its SC bit in STATUS and IRQ_FLAG. Where a clause lies on a reading or a choice of the model's own: log
entries 26, 27, 158. -/
def Obligations.SigmaDeltaOutputs : Prop :=
  (∀ (c i : Fin 8) (x : SdBit) (r k : Nat) (y z : Int) (s : State),
    takesNrz s.hw c i = true →
    (s.hw.sdfSt c i).outs = [] →
    s.hw.f (pSDF c) i SDF_FCFG_DEC = r ∧ 4 ≤ r ∧ r ≤ 1024 →
    s.hw.f (pSDF c) i SDF_FCFG_ORDER + 1 = k →
    (s.hw.sdfSt c i).phase + 1 = r →
    y = sincOut r k ((nrzBit s.hw c i x :: (s.hw.sdfSt c i).bits).take 4096) →
    z = s.hw.fs (pSDF c) i SDF_OFFSET_VALUE + (2 * y * s.hw.fs (pSDF c) i SDF_GAIN_VALUE + (r : Int) ^ k) / (2 * (r
      : Int) ^ k) →
    Answers (exec (.sdfOutput c i [x]) s) (fun t =>
      t.hw.fs (pSDF c) i SDF_RESULT_VALUE = max (-(2 ^ 39)) (min (2 ^ 39 - 1) z) ∧
      (t.hw.b (pSDF c) i SDF_FSTAT_SAT = decide (z < -(2 ^ 39) ∨ 2 ^ 39 - 1 < z)) ∧
      t.hw.f (pSDF c) i SDF_FSTAT_SEQ = (s.hw.f (pSDF c) i SDF_FSTAT_SEQ + 1) % 256 ∧
      (t.hw.sdfSt c i).phase = 0 ∧ (t.hw.sdfSt c i).outs = [])) ∧
  (∀ (c i : Fin 8) (v : Chan) (s : State),
    s.hw.clusterRuns c = true →
    arrives s.hw v (clCode c (0x020 + i.val)) = true →
    s.hw.b (pSDF c) i SDF_FCFG_EN = true ∧ s.hw.b (pSDF c) i SDF_FCFG_SYNC_EN = true →
    Answers (exec (.sdfSync c i ⟨v, none⟩ []) s) (fun t =>
      (t.hw.sdfSt c i).phase = 0 ∧
      (t.hw.sdfSt c i).bits = (s.hw.sdfSt c i).bits ∧
      t.hw.flights = [])) ∧
  (∀ (c i : Fin 8) (s : State),
    s.hw.sdfOn c i = true →
    s.hw.b (pSDF c) i SDF_FCFG_CODING = true →
    Answers (exec (.manchesterBitError c i []) s) (fun t =>
      t.hw.f (pSDF c) 0 ⟨5, 8 + i.val, 1⟩ = 1 ∧
      (s.hw.f (pSDF c) 0 ⟨3, 16 + i.val, 1⟩ = 0 → (t.hw.sdfSt c i).bits.head? = some ((s.hw.sdfSt c i).bits.headD
        false)) ∧
      (s.hw.f (pSDF c) 0 ⟨3, 16 + i.val, 1⟩ = 1 → (t.hw.sdfSt c i).bits = (s.hw.sdfSt c i).bits) ∧
      (t.hw.sdfSt c i).mdRun = (s.hw.sdfSt c i).mdRun + 1)) ∧
  (∀ (c i : Fin 8) (s : State),
    s.hw.clusterRuns c = true →
    s.hw.b (pSDF c) i SDF_FCFG_EN = true →
    s.hw.b (pSDF c) i SDF_FCFG_CODING = false →
    sdmSrc s.hw c = 2 →
    Answers (exec (.sdfClockLoss c i) s) (fun t =>
      t.hw.f (pSDF c) i SDF_FSTAT_VALID = 0 ∧
      t.hw.f (pSDF c) 0 ⟨3, 16 + i.val, 1⟩ = 1 ∧ t.hw.f (pSDF c) 0 ⟨5, 16 + i.val, 1⟩ = 1 ∧
      t.hw.reg (pSDF c) 0x12 i = s.hw.reg (pSDF c) 0x12 i)) ∧
  (∀ (c i : Fin 8) (x : SdBit) (s : State),
    takesNrz s.hw c i = true →
    s.hw.scOut c i = false →
    s.hw.scEval c i ((nrzBit s.hw c i x :: (s.hw.sdfSt c i).bits).take 4096) = true →
    Answers (exec (.scDetect c i [x]) s) (fun t =>
      t.hw.scOut c i = true ∧
      t.hw.f (pSDF c) 0 ⟨5, i, 1⟩ = 1))

/-- O9. COMPARATOR_CROSSING above the threshold DAC's output raises the state of an enabled analog comparator, shown in
STATUS.RAW after POL. LINT_SAMPLE takes an output of 0 to 1 when at least N of the last M samples are 1 and an output
of 1 to 0 when at least N of them are 0, N limited to M. LINT_WRITE clears the history and an output of 1, with FALL
set. COMPARATOR_DISABLE takes the output to 0 without a flag. Where a clause lies on a reading or a choice of the
model's own: log entries 6, 28, 157. -/
def Obligations.LintFilterMajority : Prop :=
  (∀ (c i : Fin 8) (v refn span : Int) (s : State),
    s.hw.clusterRuns c = true →
    s.hw.b (pCMP c) i CMP_CCFG_EN = true ∧ s.hw.b (pCMP c) i CMP_CCFG_SRC = false →
    (s.hw.cmpSt c i).raw = false →
    (2 * (s.hw.f (pCMP c) i CMP_THRESH_DAC : Int) + 1) * span < 2048 * (v - refn) →
    Answers (exec (.comparatorCrossing c i ⟨v, refn, span, 0⟩) s) (fun t =>
      (t.hw.cmpSt c i).raw = true ∧
      t.hw.b (pCMP c) 0 ⟨3, i, 1⟩ = !(s.hw.b (pCMP c) i CMP_CCFG_POL))) ∧
  (∀ (c i : Fin 8) (m n ones : Nat) (s : State),
    s.hw.clusterRuns c = true →
    s.hw.b (pCMP c) i CMP_CCFG_EN = true →
    m = s.hw.f (pCMP c) i CMP_LINT_M + 1 →
    n = min (s.hw.f (pCMP c) i CMP_LINT_N + 1) m →
    ones = ((s.hw.cmpRaw c i :: (s.hw.cmpSt c i).hist).take m).countP id →
    Answers (exec (.lintSample c i) s) (fun t =>
      t.hw.lintOut c i = if s.hw.lintOut c i then !(decide (n ≤ m - ones)) else decide (n ≤ ones))) ∧
  (∀ (w : Requester) (c i : Fin 8) (d : Word) (s : State),
    accepts s.hw w (pCMP c) = true →
    s.hw.chsel (pCMP c) w = i.val →
    s.hw.lintOut c i = true →
    Answers (exec (.lintWrite w c d) s) (fun t =>
      t.hw.lintOut c i = false ∧
      t.hw.f (pCMP c) 0 ⟨5, 8 + i.val, 1⟩ = 1 ∧
      (t.hw.cmpSt c i).hist = [])) ∧
  (∀ (w : Requester) (c i : Fin 8) (d : Word) (s : State),
    accepts s.hw w (pCMP c) = true →
    s.hw.chsel (pCMP c) w = i.val →
    s.hw.b (pCMP c) 0 LOCK_BIT = false →
    bitOf d.toNat 0 = false →
    Answers (exec (.comparatorDisable w c d) s) (fun t =>
      t.hw.f (pCMP c) i CMP_CCFG_EN = 0 ∧
      t.hw.lintOut c i = false ∧
      t.hw.reg (pCMP c) 5 0 = s.hw.reg (pCMP c) 5 0))

/-- O10. With the lines driven through their pins for longer than the glitch filter, ENCODER_INPUT_CHANGE in quadrature x4
moves POS one count forward or back along the sequence 00, 10, 11, 01, an invalid transition leaving POS and raising
QERR; with a modulus M a forward step from M minus 1 sets POS to 0, adds 1 to TURNS and sets WRAP. PROBE_LATCH of a
selected edge on a line that a working pin feeds writes POS, as the count step of that edge leaves it, to its probe
register and sets its VALID and flag. MODULUS_WRITE outside SSI mode reduces POS modulo M. TRACKER_POS_WRITE commits
the held POS reduced modulo M and the written TURNS. Where a clause lies on a reading or a choice of the model's own:
log entries 30, 32, 33. -/
def Obligations.TrackerCountsEncoderSteps : Prop :=
  (∀ (c : Fin 8) (tk q : Fin 4) (l : Lines) (n : Nat) (s : State),
    s.hw.trkMode c tk = 5 →
    s.hw.b (pTRK c) tk TRK_TCFG_DIRINV = false →
    s.hw.modulus c tk = 0 →
    s.hw.f (pTRK c) tk TRK_TCFG_ZMODE = 0 →
    (s.hw.trkSt c tk).lines = linesAt q false →
    l = linesAt (q + 1) false →
    linesGiven s.hw c tk l n = true →
    Answers (exec (.encoderInputChange c tk (l, n)) s) (fun t =>
      t.hw.reg (pTRK c) 0x12 tk = s.hw.reg (pTRK c) 0x12 tk + 1 ∧
      t.hw.f (pTRK c) tk TRK_PSTAT_DIR = 0 ∧
      (t.hw.trkSt c tk).lines = l)) ∧
  (∀ (c : Fin 8) (tk q : Fin 4) (l : Lines) (n : Nat) (s : State),
    s.hw.trkMode c tk = 5 →
    s.hw.b (pTRK c) tk TRK_TCFG_DIRINV = false →
    s.hw.modulus c tk = 0 →
    s.hw.f (pTRK c) tk TRK_TCFG_ZMODE = 0 →
    (s.hw.trkSt c tk).lines = linesAt (q + 1) false →
    l = linesAt q false →
    linesGiven s.hw c tk l n = true →
    Answers (exec (.encoderInputChange c tk (l, n)) s) (fun t =>
      t.hw.reg (pTRK c) 0x12 tk = s.hw.reg (pTRK c) 0x12 tk - 1 ∧
      t.hw.f (pTRK c) tk TRK_PSTAT_DIR = 1)) ∧
  (∀ (c : Fin 8) (tk q : Fin 4) (l : Lines) (n : Nat) (s : State),
    s.hw.trkMode c tk = 5 →
    s.hw.f (pTRK c) tk TRK_TCFG_ZMODE = 0 →
    (s.hw.trkSt c tk).lines = linesAt q false →
    l = linesAt (q + 2) false →
    (s.hw.trkSt c tk).errAt ≠ some s.hw.now →
    linesGiven s.hw c tk l n = true →
    Answers (exec (.encoderInputChange c tk (l, n)) s) (fun t =>
      t.hw.reg (pTRK c) 0x12 tk = s.hw.reg (pTRK c) 0x12 tk ∧
      t.hw.f (pTRK c) tk TRK_PSTAT_ERR_CODE = 1 ∧
      t.hw.f (pTRK c) tk TRK_PSTAT_ERR_CNT = min 255 (s.hw.f (pTRK c) tk TRK_PSTAT_ERR_CNT + 1) ∧
      t.hw.f (pTRK c) 0 ⟨5, 8 * tk.val, 1⟩ = 1)) ∧
  (∀ (c : Fin 8) (tk q : Fin 4) (m : Nat) (l : Lines) (n : Nat) (s : State),
    s.hw.trkMode c tk = 5 →
    s.hw.b (pTRK c) tk TRK_TCFG_DIRINV = false →
    s.hw.modulus c tk = m ∧ 0 < m →
    s.hw.f (pTRK c) tk TRK_POS_VALUE + 1 = m →
    s.hw.f (pTRK c) tk TRK_TCFG_ZMODE = 0 →
    (s.hw.trkSt c tk).lines = linesAt q false →
    l = linesAt (q + 1) false →
    linesGiven s.hw c tk l n = true →
    Answers (exec (.encoderInputChange c tk (l, n)) s) (fun t =>
      t.hw.f (pTRK c) tk TRK_POS_VALUE = 0 ∧
      t.hw.f (pTRK c) tk TRK_TURNS_COUNT = (s.hw.f (pTRK c) tk TRK_TURNS_COUNT + 1) % 2 ^ 24 ∧
      t.hw.f (pTRK c) 0 ⟨5, 8 * tk.val + 7, 1⟩ = 1)) ∧
  (∀ (c : Fin 8) (tk : Fin 4) (s : State),
    s.hw.trkMode c tk ≠ 0 →
    bitOf (s.hw.f (pTRK c) tk TRK_TCFG_PRB0_EDGE) 0 = true →
    s.hw.funcFed (trkLine c tk 3) = true ∧ s.hw.funcUnarmed (trkLine c tk 3) = false →
    Answers (exec (.probeLatch c tk 0 true) s) (fun t =>
      t.hw.f (pTRK c) tk TRK_PRB0_VALUE = s.hw.posItem1 c tk ∧
      t.hw.f (pTRK c) tk TRK_PSTAT_PRB0_VALID = 1 ∧
      t.hw.f (pTRK c) 0 ⟨5, 8 * tk.val + 2, 1⟩ = 1)) ∧
  (∀ (w : Requester) (c : Fin 8) (tk : Fin 4) (d : Word) (s : State),
    accepts s.hw w (pTRK c) = true →
    s.hw.chsel (pTRK c) w = tk.val →
    0 < d.toNat ∧ d.toNat < 2 ^ 39 →
    s.hw.f (pTRK c) tk TRK_TCFG_MODE ≠ 6 →
    Answers (exec (.modulusWrite w c d) s) (fun t =>
      t.hw.reg (pTRK c) 0x14 tk = d ∧
      (t.hw.f (pTRK c) tk TRK_POS_VALUE : Int) = s.hw.fs (pTRK c) tk TRK_POS_VALUE % d.toNat ∧
      t.hw.reg (pTRK c) 0x13 tk = s.hw.reg (pTRK c) 0x13 tk)) ∧
  (∀ (w : Requester) (c : Fin 8) (tk : Fin 4) (d lo : Word) (m : Nat) (s : State),
    accepts s.hw w (pTRK c) = true →
    s.hw.chsel (pTRK c) w = tk.val →
    s.hw.modulus c tk = m ∧ 0 < m →
    s.hw.pairLowWord (pTRK c) 0x12 tk w = lo →
    Answers (exec (.trackerPosWrite w c d none) s) (fun t =>
      (t.hw.f (pTRK c) tk TRK_POS_VALUE : Int) = lo.toInt % m ∧
      t.hw.f (pTRK c) tk TRK_TURNS_COUNT = d.toNat % 2 ^ 24))

/-- O11. In SSI mode with the data line high and no frame running, SSI_TRIGGER and SSI_GO start a frame; while one runs a
trigger raises SSI_OVR. SSI_FRAME_DONE of a frame without start bit, with no jump limit and a binary code on a line
that a working pin feeds, writes the code to POS. SSI_TIMEOUT abandons a frame whose start bit has not been seen with
SSI_TO, POS kept; SSI_MONOFLOP_END ends the busy time. TRACKER_ERR_CLR clears ERR_CODE and ERR_CNT. TRACKER_CFG_WRITE
of SCFG takes SDIV and NBITS and abandons a running frame, POS kept; of TCFG it takes MODE and EN, and EN becoming 1
clears PER_VALID and starts a window. Where a clause lies on a reading or a choice of the model's own: log entries 30,
31, 34, 159, 160. -/
def Obligations.AbsoluteEncoderFrames : Prop :=
  (∀ (c : Fin 8) (tk : Fin 4) (v : Chan) (s : State),
    s.hw.trkMode c tk = 6 →
    arrives s.hw v (clCode c (0x028 + tk.val)) = true →
    (s.hw.trkSt c tk).ssi = 0 ∧ (s.hw.trkSt c tk).lines.b = true →
    Answers (exec (.ssiTrigger c tk ⟨v, none⟩) s) (fun t =>
      (t.hw.trkSt c tk).ssi = 1 ∧
      t.hw.f (pTRK c) tk TRK_PSTAT_SSI_BUSY = 1)) ∧
  (∀ (w : Requester) (c : Fin 8) (tk : Fin 4) (d : Word) (s : State),
    accepts s.hw w (pTRK c) = true →
    s.hw.chsel (pTRK c) w = tk.val →
    bitOf d.toNat 0 = true →
    s.hw.trkMode c tk = 6 →
    (s.hw.trkSt c tk).ssi = 0 ∧ (s.hw.trkSt c tk).lines.b = true →
    Answers (exec (.ssiGo w c d) s) (fun t =>
      (t.hw.trkSt c tk).ssi = 1 ∧
      t.hw.f (pTRK c) tk TRK_PSTAT_SSI_BUSY = 1)) ∧
  (∀ (c : Fin 8) (tk : Fin 4) (v : Chan) (s : State),
    s.hw.trkMode c tk = 6 →
    arrives s.hw v (clCode c (0x028 + tk.val)) = true →
    (s.hw.trkSt c tk).ssi ≠ 0 →
    (s.hw.trkSt c tk).errAt ≠ some s.hw.now →
    Answers (exec (.ssiTrigger c tk ⟨v, none⟩) s) (fun t =>
      (t.hw.trkSt c tk).ssi = (s.hw.trkSt c tk).ssi ∧
      t.hw.f (pTRK c) tk TRK_PSTAT_ERR_CODE = 5)) ∧
  (∀ (c : Fin 8) (tk : Fin 4) (raw n : Nat) (s : State),
    s.hw.trkMode c tk = 6 →
    (s.hw.trkSt c tk).ssi = 1 →
    s.hw.b (pTRK c) tk TRK_SCFG_START = false ∧ s.hw.b (pTRK c) tk TRK_SCFG_GRAY = false →
    s.hw.f (pTRK c) tk TRK_SCFG_NBITS = n ∧ 0 < n ∧ n ≤ 40 →
    s.hw.f (pTRK c) tk TRK_JUMP_LIM = 0 →
    s.hw.funcFed (trkLine c tk 1) = true →
    Answers (exec (.ssiFrameDone c tk raw ()) s) (fun t =>
      t.hw.f (pTRK c) tk TRK_POS_VALUE = raw % 2 ^ n ∧
      (t.hw.trkSt c tk).ssi = 2)) ∧
  (∀ (c : Fin 8) (tk : Fin 4) (s : State),
    s.hw.trkMode c tk = 6 →
    (s.hw.trkSt c tk).ssi = 1 →
    s.hw.b (pTRK c) tk TRK_SCFG_START = true →
    (s.hw.trkSt c tk).startSeen = false ∧ (s.hw.trkSt c tk).errAt ≠ some s.hw.now →
    Answers (exec (.ssiTimeout c tk) s) (fun t =>
      (t.hw.trkSt c tk).ssi = 0 ∧
      t.hw.f (pTRK c) tk TRK_PSTAT_ERR_CODE = 3 ∧
      t.hw.reg (pTRK c) 0x12 tk = s.hw.reg (pTRK c) 0x12 tk)) ∧
  (∀ (c : Fin 8) (tk : Fin 4) (s : State),
    s.hw.trkMode c tk = 6 →
    (s.hw.trkSt c tk).ssi = 2 ∧ (s.hw.trkSt c tk).lines.b = true →
    Answers (exec (.ssiMonoflopEnd c tk) s) (fun t =>
      (t.hw.trkSt c tk).ssi = 0 ∧
      t.hw.f (pTRK c) tk TRK_PSTAT_SSI_BUSY = 0 ∧
      t.hw.f (pTRK c) tk TRK_PSTAT_ERR_CODE = s.hw.f (pTRK c) tk TRK_PSTAT_ERR_CODE)) ∧
  (∀ (w : Requester) (c : Fin 8) (tk : Fin 4) (d : Word) (s : State),
    accepts s.hw w (pTRK c) = true →
    s.hw.chsel (pTRK c) w = tk.val →
    bitOf d.toNat 0 = false ∧ bitOf d.toNat 1 = true →
    Answers (exec (.trackerErrClr w c d) s) (fun t =>
      t.hw.f (pTRK c) tk TRK_PSTAT_ERR_CODE = 0 ∧
      t.hw.f (pTRK c) tk TRK_PSTAT_ERR_CNT = 0)) ∧
  (∀ (w : Requester) (c : Fin 8) (tk : Fin 4) (d : Word) (s : State),
    accepts s.hw w (pTRK c) = true →
    s.hw.chsel (pTRK c) w = tk.val →
    (s.hw.trkSt c tk).ssi = 1 →
    Answers (exec (.trackerCfgWrite w c true d) s) (fun t =>
      t.hw.f (pTRK c) tk TRK_SCFG_NBITS = bitsOf d.toNat 13 6 ∧ t.hw.f (pTRK c) tk TRK_SCFG_SDIV = bitsOf d.toNat 0
        13 ∧
      (t.hw.trkSt c tk).ssi = 0 ∧
      t.hw.reg (pTRK c) 0x12 tk = s.hw.reg (pTRK c) 0x12 tk)) ∧
  (∀ (w : Requester) (c : Fin 8) (tk : Fin 4) (d : Word) (s : State),
    accepts s.hw w (pTRK c) = true →
    s.hw.chsel (pTRK c) w = tk.val →
    Answers (exec (.trackerCfgWrite w c false d) s) (fun t =>
      t.hw.f (pTRK c) tk TRK_TCFG_MODE = bitsOf d.toNat TRK_TCFG_MODE.lo TRK_TCFG_MODE.w ∧ t.hw.f (pTRK c) tk
        TRK_TCFG_EN = bitsOf d.toNat TRK_TCFG_EN.lo 1 ∧
      (s.hw.b (pTRK c) tk TRK_TCFG_EN = false ∧ bitOf d.toNat TRK_TCFG_EN.lo = true → t.hw.f (pTRK c) tk
        TRK_PSTAT_PER_VALID = 0 ∧ (t.hw.trkSt c tk).delta = 0)))

/-- O12. SPEED_WINDOW_END, of the oldest closed window whose report is due, writes DELTA as the window's sum of steps and,
unless STILL is 1, SPEED as that sum times K limited to 40 signed bits with SAT where the limit acted. WINDOW_SYNC
with WSYNC discards the running window. PSPEED_UPDATE, at a multiple of 256 cycles since the last step, writes the
floor of KPER times 2 to the 16 over the larger of PER and E, with the last step's sign. STANDSTILL sets SPEED and
PSPEED to 0, clears PER_VALID and sets STILL. Where a clause lies on a reading or a choice of the model's own: log
entries 32. -/
def Obligations.SpeedByWindowAndPeriod : Prop :=
  (∀ (c : Fin 8) (tk : Fin 4) (dl z : Int) (at' : Nat) (rest : List (Int × Nat)) (s : State),
    s.hw.trkMode c tk ≠ 0 →
    (s.hw.trkSt c tk).reports = (dl, at') :: rest ∧ at' ≤ s.hw.now →
    -(2 ^ 39) ≤ dl ∧ dl < 2 ^ 39 →
    z = dl * s.hw.fs (pTRK c) tk TRK_KSPD_K →
    s.hw.b (pTRK c) tk TRK_PSTAT_STILL = false →
    Answers (exec (.speedWindowEnd c tk) s) (fun t =>
      t.hw.fs (pTRK c) tk TRK_DELTA_VALUE = dl ∧
      t.hw.fs (pTRK c) tk TRK_SPEED_VALUE = max (-(2 ^ 39)) (min (2 ^ 39 - 1) z) ∧
      (t.hw.b (pTRK c) tk TRK_PSTAT_SAT = decide (z < -(2 ^ 39) ∨ 2 ^ 39 - 1 < z)) ∧
      (t.hw.trkSt c tk).reports = rest)) ∧
  (∀ (c : Fin 8) (tk : Fin 4) (v : Chan) (s : State),
    s.hw.trkMode c tk ≠ 0 →
    arrives s.hw v (clCode c (0x02C + tk.val)) = true →
    s.hw.b (pTRK c) tk TRK_TCFG_WSYNC = true →
    Answers (exec (.windowSync c tk ⟨v, none⟩) s) (fun t =>
      (t.hw.trkSt c tk).delta = 0 ∧
      t.hw.reg (pTRK c) 0x1E tk = s.hw.reg (pTRK c) 0x1E tk)) ∧
  (∀ (c : Fin 8) (e p k : Nat) (s : State),
    s.hw.trkMode c 0 ≠ 0 →
    s.hw.b (pTRK c) 0 TRK_PSTAT_PER_VALID = true →
    (s.hw.trkSt c 0).e = e ∧ 0 < e ∧ e % 256 = 0 →
    s.hw.f (pTRK c) 0 TRK_PER_CYC = p →
    s.hw.f (pTRK c) 0 TRK_KPER_K = k →
    Answers (exec (.pspeedUpdate c 0) s) (fun t =>
      t.hw.fs (pTRK c) 0 TRK_PSPEED_VALUE = (if s.hw.b (pTRK c) 0 TRK_PSTAT_DIR then max (-(2 ^ 39)) (-((k * 65536 /
        max p e : Nat) : Int)) else min (2 ^ 39 - 1) ((k * 65536 / max p e : Nat) : Int)))) ∧
  (∀ (c : Fin 8) (s : State),
    s.hw.trkMode c 0 ≠ 0 →
    0 < s.hw.f (pTRK c) 0 TRK_STILL_T →
    s.hw.f (pTRK c) 0 TRK_STILL_T * 4000 ≤ (s.hw.trkSt c 0).e →
    s.hw.b (pTRK c) 0 TRK_PSTAT_STILL = false →
    Answers (exec (.standstill c 0) s) (fun t =>
      t.hw.f (pTRK c) 0 TRK_SPEED_VALUE = 0 ∧ t.hw.f (pTRK c) 0 TRK_PSPEED_VALUE = 0 ∧
      t.hw.f (pTRK c) 0 TRK_PSTAT_PER_VALID = 0 ∧ t.hw.f (pTRK c) 0 TRK_PSTAT_STILL = 1 ∧
      t.hw.f (pTRK c) 0 ⟨5, 6, 1⟩ = 1))

/-- O13. ROUTING_WRITE of a word that no cause refuses leaves EN, CONS and PROD of the requester's channel as written. One that
a cause refuses leaves CH_ROUTE, sets ROUTE_ERR and records the cause and the channel; an invalid producer code is
cause 3 whatever EN the word leaves. SEAM_FIRE of an enabled global channel with a consumer that is no merge cell,
whose producer has fired no event of the same edge, puts one event on its way that arrives 5 ns later, counts it and
sets its flag in every cluster; of a disabled channel it launches nothing. Where a clause lies on a reading or a
choice of the model's own: log entries 35, 36, 37, 161. -/
def Obligations.RoutingWritesCheckedThenInForce : Prop :=
  (∀ (w : Requester) (n : Option (Fin 8)) (ch : Nat) (d : Word) (s : State),
    accepts s.hw w (seamPage n) = true →
    s.hw.chsel (seamPage n) w = ch →
    s.hw.routeCause ⟨(match n with | some c => c.val | none => 15), ch⟩ d = 0 →
    Answers (exec (.routingWrite w n d) s) (fun t =>
      t.hw.f (seamPage n) ch SEAM_CH_ROUTE_EN = bitsOf d.toNat 32 1 ∧
      t.hw.f (seamPage n) ch SEAM_CH_ROUTE_CONS = bitsOf d.toNat 16 16 ∧
      t.hw.f (seamPage n) ch SEAM_CH_ROUTE_PROD = bitsOf d.toNat 0 16)) ∧
  (∀ (w : Requester) (n : Option (Fin 8)) (ch k : Nat) (d : Word) (s : State),
    accepts s.hw w (seamPage n) = true →
    s.hw.chsel (seamPage n) w = ch →
    s.hw.routeCause ⟨(match n with | some c => c.val | none => 15), ch⟩ d = k ∧ k ≠ 0 →
    Answers (exec (.routingWrite w n d) s) (fun t =>
      t.hw.reg (seamPage n) 0x10 ch = s.hw.reg (seamPage n) 0x10 ch ∧
      t.hw.f (seamPage n) 0 SEAM_STATUS_CAUSE = k ∧
      t.hw.f (seamPage n) 0 SEAM_STATUS_CH = ch % 64 ∧
      t.hw.f (seamPage n) 0 SEAM_IRQ_ROUTE_ERR = 1)) ∧
  (∀ (w : Requester) (n : Option (Fin 8)) (ch : Nat) (d : Word) (s : State),
    accepts s.hw w (seamPage n) = true →
    s.hw.chsel (seamPage n) w = ch →
    validProd (bitsOf d.toNat 0 16) = false →
    Answers (exec (.routingWrite w n d) s) (fun t =>
      t.hw.reg (seamPage n) 0x10 ch = s.hw.reg (seamPage n) 0x10 ch ∧
      t.hw.f (seamPage n) 0 SEAM_STATUS_CAUSE = 3 ∧
      t.hw.f (seamPage n) 0 SEAM_IRQ_ROUTE_ERR = 1)) ∧
  (∀ (w : Requester) (n : Fin 2) (k : Fin 32) (prod cons : Nat) (d : Word) (s : State),
    accepts s.hw w pGSEAM = true →
    d.toNat % 2 ^ 32 = 2 ^ k.val →
    s.hw.routes.filter (fun q => q.chan = ⟨15, 32 * n.val + k.val⟩) = [⟨⟨15, 32 * n.val + k.val⟩, prod, cons⟩] →
    cons % 4096 ≠ 0 ∧ isMerge cons = false →
    s.hw.carried.at none (32 * n.val + k.val) ≠ some (s.hw.now, false) →
    Answers (exec (.seamFire w n d) s) (fun t =>
      t.hw.flights = s.hw.flights ++ [⟨⟨15, 32 * n.val + k.val⟩, cons, s.hw.now + 2⟩] ∧
      t.hw.f pGSEAM (32 * n.val + k.val) SEAM_EV_CNT_COUNT = (s.hw.f pGSEAM (32 * n.val + k.val) SEAM_EV_CNT_COUNT +
        1) % 2 ^ 40 ∧
      (∀ c : Fin 8, t.hw.f (pLSEAM c) 0 ⟨0x80 + n.val, k.val, 1⟩ = 1))) ∧
  (∀ (w : Requester) (n : Fin 2) (k : Fin 32) (d : Word) (s : State),
    accepts s.hw w pGSEAM = true →
    d.toNat % 2 ^ 32 = 2 ^ k.val →
    s.hw.routes.filter (fun q => q.chan = ⟨15, 32 * n.val + k.val⟩) = [] →
    Answers (exec (.seamFire w n d) s) (fun t =>
      t.hw.flights = s.hw.flights ∧
      t.hw.f pGSEAM (32 * n.val + k.val) SEAM_EV_CNT_COUNT = s.hw.f pGSEAM (32 * n.val + k.val) SEAM_EV_CNT_COUNT))

/-- O14. While the Mangle is enabled: ARM in IDLE takes CUR from HEAD and the writer's ring and enters ARMED; GO and an arrival
at the start input under TRIG_SEAM, each without the other at its edge, take ARMED to FETCH; GO in FETCH or RUN
becomes the pending trigger, or sets OVR where one is held; ABORT takes ARMED and FETCH to IDLE with no word of memory
written, and from RUN with no beat in flight writes STATUS with ABORT and BEAT at CUR plus 7; CLR takes ERROR to IDLE
with ECODE 0. HOST_COMPLETION_TIMEOUT ends the channel's outstanding host read, not aborted, with ECODE 5 in ERROR.
Where a clause lies on a reading or a choice of the model's own: log entries 38, 40, 42. -/
def Obligations.MangleChannelTransitions : Prop :=
  (∀ (w : Requester) (m : Mch) (d : Word) (s : State),
    accepts s.hw w m.page = true →
    s.hw.chsel m.page w = m.ch →
    s.hw.b m.page 0 MANGLE_CTRL_EN = true →
    s.hw.mstate m = 0 →
    bitsOf d.toNat 1 3 = 0 →
    Answers (exec (.mangleArm w m.cl d) s) (fun t =>
      t.hw.mstate m = 1 ∧
      t.hw.mf m MANGLE_MCH_CUR_ADDR = s.hw.mf m MANGLE_MCH_HEAD_ADDR ∧
      t.hw.mf m MANGLE_MCH_STAT_RING = s.hw.ringOf w % 4 ∧
      t.hw.mf m MANGLE_MCH_STAT_PEND = 0 ∧
      t.hw.mf m MANGLE_MCH_CTRL_TRIG_SEAM = bitsOf d.toNat 5 1)) ∧
  (∀ (w : Requester) (m : Mch) (d : Word) (s : State),
    accepts s.hw w m.page = true →
    s.hw.chsel m.page w = m.ch →
    s.hw.b m.page 0 MANGLE_CTRL_EN = true →
    s.hw.mstate m = 1 →
    (s.hw.mchOf m).trigAt ≠ some (s.hw.now, false) →
    bitOf d.toNat 2 = false →
    Answers (exec (.mangleGo w m.cl d) s) (fun t =>
      t.hw.mstate m = 2 ∧
      sameMemory s t)) ∧
  (∀ (w : Requester) (m : Mch) (d : Word) (s : State),
    accepts s.hw w m.page = true →
    s.hw.chsel m.page w = m.ch ∧ m.ch < 16 →
    s.hw.b m.page 0 MANGLE_CTRL_EN = true →
    s.hw.mstate m = 2 ∨ s.hw.mstate m = 3 →
    (s.hw.mchOf m).trigAt ≠ some (s.hw.now, false) →
    bitOf d.toNat 2 = false →
    Answers (exec (.mangleGo w m.cl d) s) (fun t =>
      t.hw.mstate m = s.hw.mstate m ∧
      t.hw.mf m MANGLE_MCH_STAT_PEND = 1 ∧
      (s.hw.mf m MANGLE_MCH_STAT_PEND = 1 → t.hw.f m.page 0 ⟨5, 16 + m.ch, 1⟩ = 1))) ∧
  (∀ (w : Requester) (m : Mch) (d : Word) (s : State),
    accepts s.hw w m.page = true →
    s.hw.chsel m.page w = m.ch →
    s.hw.b m.page 0 MANGLE_CTRL_EN = true →
    s.hw.mstate m = 1 ∨ s.hw.mstate m = 2 →
    bitsOf d.toNat 0 1 = 0 →
    Answers (exec (.mangleAbort w m.cl d) s) (fun t =>
      t.hw.mstate m = 0 ∧
      t.hw.mf m MANGLE_MCH_STAT_PEND = 0 ∧
      sameMemory s t)) ∧
  (∀ (w : Requester) (m : Mch) (g beat : Nat) (d : Word) (s : State),
    accepts s.hw w m.page = true →
    s.hw.chsel m.page w = m.ch →
    s.hw.b m.page 0 MANGLE_CTRL_EN = true →
    s.hw.mstate m = 3 →
    plainAt s (s.hw.macc m) (s.hw.mf m MANGLE_MCH_CUR_ADDR + 7) g = true →
    (s.hw.mchOf m).wait = none →
    s.hw.dbeat m = beat ∧ beat < 2 ^ 24 →
    bitsOf d.toNat 0 1 = 0 →
    Answers (exec (.mangleAbort w m.cl d) s) (fun t =>
      t.hw.mstate m = 0 ∧
      t.rd g = w40 (2 ^ 37 + beat) ∧
      (∀ a, a ≠ g → t.rd a = s.rd a))) ∧
  (∀ (w : Requester) (m : Mch) (d : Word) (s : State),
    accepts s.hw w m.page = true →
    s.hw.chsel m.page w = m.ch →
    s.hw.b m.page 0 MANGLE_CTRL_EN = true →
    s.hw.mstate m = 4 →
    bitsOf d.toNat 0 1 = 0 →
    Answers (exec (.mangleClr w m.cl d) s) (fun t =>
      t.hw.mstate m = 0 ∧
      t.hw.mf m MANGLE_MCH_STAT_ECODE = 0 ∧
      sameMemory s t)) ∧
  (∀ (n : Option (Fin 8)) (ch : Fin 16) (m : Mch) (v : Chan) (s : State),
    m = ⟨n, if n.isSome then ch.val % 8 else ch.val⟩ →
    arrives s.hw v (m.startCode) = true →
    s.hw.mangleOn m = true →
    s.hw.mf m MANGLE_MCH_CTRL_TRIG_SEAM = 1 →
    s.hw.mstate m = 1 →
    (s.hw.mchOf m).trigAt ≠ some (s.hw.now, true) →
    Answers (exec (.mangleStartTrigger n ch ⟨v, none⟩) s) (fun t =>
      t.hw.mstate m = 2 ∧
      t.hw.flights = [])) ∧
  (∀ (ch : Fin 16) (b : HostBeat) (s : State),
    s.hw.mangleOn ⟨none, ch⟩ = true →
    (s.hw.mchOf ⟨none, ch⟩).wait = some b ∧ b.aborted = false →
    Answers (exec (.hostCompletionTimeout ch) s) (fun t =>
      t.hw.mstate ⟨none, ch⟩ = 4 ∧
      t.hw.mf ⟨none, ch⟩ MANGLE_MCH_STAT_ECODE = 5 ∧
      t.hw.f pDMANGLE 0 ⟨5, ch, 1⟩ = 1))

/-- O15. On the channel's turn: DESCRIPTOR_FETCH_DONE at an aligned descriptor in readable memory enters RUN with COUNT beats
to go when the descriptor is valid, and ERROR with ECODE 7 when it is not. MANGLE_BEAT without host sides copies the
source word to the destination word, alters no other word, and leaves one beat less. DESCRIPTOR_COMPLETE without CRC
and CHAIN writes STATUS with DONE and BEAT equal to COUNT at CUR plus 7, increments MCH_CNT and enters IDLE. Where a
clause lies on a reading or a choice of the model's own: log entries 39, 40, 41, 162. -/
def Obligations.MangleDescriptorMovesWords : Prop :=
  (∀ (n : Option (Fin 8)) (ch : Fin 16) (m : Mch) (cur g : Nat) (s : State),
    m = ⟨n, if n.isSome then ch.val % 8 else ch.val⟩ →
    s.hw.mangleOn m = true →
    s.hw.mstate m = 2 →
    s.hw.mturn m = true →
    s.hw.mf m MANGLE_MCH_CUR_ADDR = cur ∧ cur % 8 = 0 →
    (∀ i : Fin 8, plainAt s (s.hw.macc m) (cur + i) (g + i) = true ∧ s.seenWord (g + i) = .data (s.rd (g + i))) →
    badDescriptor n.isSome (s.rdList g 8) = false →
    Answers (exec (.descriptorFetchDone n ch) s) (fun t =>
      t.hw.mstate m = 3 ∧
      (t.hw.mchOf m).desc = s.rdList g 8 ∧
      t.hw.mf m MANGLE_MCH_STAT_REMAIN = (s.rd (g + 3)).toNat)) ∧
  (∀ (n : Option (Fin 8)) (ch : Fin 16) (m : Mch) (cur g : Nat) (s : State),
    m = ⟨n, if n.isSome then ch.val % 8 else ch.val⟩ →
    s.hw.mangleOn m = true →
    s.hw.mstate m = 2 →
    s.hw.mturn m = true →
    s.hw.mf m MANGLE_MCH_CUR_ADDR = cur ∧ cur % 8 = 0 →
    (∀ i : Fin 8, plainAt s (s.hw.macc m) (cur + i) (g + i) = true ∧ s.seenWord (g + i) = .data (s.rd (g + i))) →
    badDescriptor n.isSome (s.rdList g 8) = true →
    Answers (exec (.descriptorFetchDone n ch) s) (fun t =>
      t.hw.mstate m = 4 ∧
      t.hw.mf m MANGLE_MCH_STAT_ECODE = 7 ∧
      t.rd (g + 7) = w40 (2 ^ 38 + 7 * 2 ^ 32) ∧
      (∀ a, a ≠ g + 7 → t.rd a = s.rd a))) ∧
  (∀ (n : Option (Fin 8)) (ch : Fin 16) (m : Mch) (src dst gs gd r : Nat) (x : HostAns) (s : State),
    m = ⟨n, if n.isSome then ch.val % 8 else ch.val⟩ →
    s.hw.mangleOn m = true →
    s.hw.mstate m = 3 →
    s.hw.mturn m = true ∧ (s.hw.mchOf m).wait = none →
    s.hw.dctl m 8 = false ∧ s.hw.dctl m 7 = false →
    s.hw.mf m MANGLE_MCH_STAT_REMAIN = r + 1 →
    src = s.hw.dword m 1 + (if s.hw.dctl m 10 then s.hw.dbeat m else 0) →
    dst = s.hw.dword m 2 + (if s.hw.dctl m 9 then s.hw.dbeat m else 0) →
    plainAt s (s.hw.macc m) src gs = true ∧ s.seenWord gs = .data (s.rd gs) →
    plainAt s (s.hw.macc m) dst gd = true →
    Answers (exec (.mangleBeat n ch x) s) (fun t =>
      t.rd gd = s.rd gs ∧
      (∀ a, a ≠ gd → t.rd a = s.rd a) ∧
      (∀ a, t.tag a = s.tag a) ∧
      t.hw.mf m MANGLE_MCH_STAT_REMAIN = r ∧
      t.hw.mstate m = 3)) ∧
  (∀ (n : Option (Fin 8)) (ch : Fin 16) (m : Mch) (g : Nat) (s : State),
    m = ⟨n, if n.isSome then ch.val % 8 else ch.val⟩ →
    s.hw.mangleOn m = true →
    s.hw.mstate m = 3 →
    s.hw.mturn m = true →
    s.hw.mf m MANGLE_MCH_STAT_REMAIN = 0 →
    s.hw.dctl m 12 = false ∧ s.hw.dctl m 14 = false →
    plainAt s (s.hw.macc m) (s.hw.mf m MANGLE_MCH_CUR_ADDR + 7) g = true →
    s.hw.dword m 3 < 2 ^ 24 →
    Answers (exec (.descriptorComplete n ch) s) (fun t =>
      t.hw.mstate m = 0 ∧
      t.rd g = w40 (2 ^ 39 + s.hw.dword m 3) ∧
      (∀ a, a ≠ g → t.rd a = s.rd a) ∧
      t.hw.mf m MANGLE_MCH_CNT_COUNT = (s.hw.mf m MANGLE_MCH_CNT_COUNT + 1) % 2 ^ 40))

/-- O16. Within a customer routine, each of MOV, ADD, SUB, NEG, ABS, MIN, MAX, LIM, SHL, SHR, SHRT, MUL to a 40-bit
destination, AND, OR, LDI and LD with any readable and writable operand codes leaves in D the value of its table row
limited to 40 bits, sets Z and N from it, sets the sticky SAT where a limit acted, leaves every other operand as it
was and steps to the next address. NOP changes nothing but the address; CMP sets Z and N from the exact difference.
Where a clause lies on a reading or a choice of the model's own: log entries 49, 50. -/
def Obligations.MicrowordsComputeSaturated : Prop :=
  (∀ (c : Fin 8) (r : LoopRun) (d a b : Nat) (s : State),
    ucAt s c r 0x01 d a (b * 4096) ∧ b < 32 →
    writable d = true ∧ readable a = true ∧ readable b = true →
    Answers (exec (.ucMov c ⟨false, false⟩) s) (fun t =>
      ucGives t c r d (lim40 (r.ucRd a)) (over40 (r.ucRd a) || over40 (r.ucRdX a)) = true)) ∧
  (∀ (c : Fin 8) (r : LoopRun) (d a b : Nat) (s : State),
    ucAt s c r 0x02 d a (b * 4096) ∧ b < 32 →
    writable d = true ∧ readable a = true ∧ readable b = true →
    Answers (exec (.ucAdd c ⟨false, false⟩) s) (fun t =>
      ucGives t c r d (lim40 (r.ucRd a + r.ucRd b)) (over40 (r.ucRd a + r.ucRd b) || over40 (r.ucRdX a) || over40
        (r.ucRdX b)) = true)) ∧
  (∀ (c : Fin 8) (r : LoopRun) (d a b : Nat) (s : State),
    ucAt s c r 0x03 d a (b * 4096) ∧ b < 32 →
    writable d = true ∧ readable a = true ∧ readable b = true →
    Answers (exec (.ucSub c ⟨false, false⟩) s) (fun t =>
      ucGives t c r d (lim40 (r.ucRd a - r.ucRd b)) (over40 (r.ucRd a - r.ucRd b) || over40 (r.ucRdX a) || over40
        (r.ucRdX b)) = true)) ∧
  (∀ (c : Fin 8) (r : LoopRun) (d a b : Nat) (s : State),
    ucAt s c r 0x04 d a (b * 4096) ∧ b < 32 →
    writable d = true ∧ readable a = true ∧ readable b = true →
    Answers (exec (.ucNeg c ⟨false, false⟩) s) (fun t =>
      ucGives t c r d (lim40 (-(r.ucRd a))) (over40 (-(r.ucRd a)) || over40 (r.ucRdX a)) = true)) ∧
  (∀ (c : Fin 8) (r : LoopRun) (d a b : Nat) (s : State),
    ucAt s c r 0x05 d a (b * 4096) ∧ b < 32 →
    writable d = true ∧ readable a = true ∧ readable b = true →
    Answers (exec (.ucAbs c ⟨false, false⟩) s) (fun t =>
      ucGives t c r d (lim40 (((r.ucRd a).natAbs : Int))) (over40 (((r.ucRd a).natAbs : Int)) || over40 (r.ucRdX a))
        = true)) ∧
  (∀ (c : Fin 8) (r : LoopRun) (d a b : Nat) (s : State),
    ucAt s c r 0x06 d a (b * 4096) ∧ b < 32 →
    writable d = true ∧ readable a = true ∧ readable b = true →
    Answers (exec (.ucMin c ⟨false, false⟩) s) (fun t =>
      ucGives t c r d (lim40 (min (r.ucRd a) (r.ucRd b))) (over40 (min (r.ucRd a) (r.ucRd b)) || over40 (r.ucRdX a)
        || over40 (r.ucRdX b)) = true)) ∧
  (∀ (c : Fin 8) (r : LoopRun) (d a b : Nat) (s : State),
    ucAt s c r 0x07 d a (b * 4096) ∧ b < 32 →
    writable d = true ∧ readable a = true ∧ readable b = true →
    Answers (exec (.ucMax c ⟨false, false⟩) s) (fun t =>
      ucGives t c r d (lim40 (max (r.ucRd a) (r.ucRd b))) (over40 (max (r.ucRd a) (r.ucRd b)) || over40 (r.ucRdX a)
        || over40 (r.ucRdX b)) = true)) ∧
  (∀ (c : Fin 8) (r : LoopRun) (d a b : Nat) (s : State),
    ucAt s c r 0x08 d a (b * 4096) ∧ b < 32 →
    writable d = true ∧ readable a = true ∧ readable b = true →
    Answers (exec (.ucLim c ⟨false, false⟩) s) (fun t =>
      ucGives t c r d (lim40 (min (max (r.ucRd d) (r.ucRd a)) (r.ucRd b))) (over40 (min (max (r.ucRd d) (r.ucRd a))
        (r.ucRd b)) || over40 (r.ucRdX d) || over40 (r.ucRdX a) || over40 (r.ucRdX b)) = true)) ∧
  (∀ (c : Fin 8) (r : LoopRun) (d a b : Nat) (s : State),
    ucAt s c r 0x09 d a (b * 4096) ∧ b < 32 →
    writable d = true ∧ readable a = true →
    Answers (exec (.ucShl c ⟨false, false⟩) s) (fun t =>
      ucGives t c r d (lim40 (r.ucRd a * 2 ^ b)) (over40 (r.ucRd a * 2 ^ b) || over40 (r.ucRdX a)) = true)) ∧
  (∀ (c : Fin 8) (r : LoopRun) (d a b : Nat) (s : State),
    ucAt s c r 0x0A d a (b * 4096) ∧ b < 32 →
    writable d = true ∧ readable a = true →
    Answers (exec (.ucShr c ⟨false, false⟩) s) (fun t =>
      ucGives t c r d (lim40 ((if b = 0 then r.ucRd a else (r.ucRd a + 2 ^ (b - 1)) / 2 ^ b))) (over40 ((if b = 0
        then r.ucRd a else (r.ucRd a + 2 ^ (b - 1)) / 2 ^ b)) || over40 (r.ucRdX a)) = true)) ∧
  (∀ (c : Fin 8) (r : LoopRun) (d a b : Nat) (s : State),
    ucAt s c r 0x0B d a (b * 4096) ∧ b < 32 →
    writable d = true ∧ readable a = true ∧ readable b = true →
    d < 16 ∨ 20 ≤ d →
    Answers (exec (.ucMul c ⟨false, false⟩) s) (fun t =>
      ucGives t c r d (lim40 ((r.ucRd a * r.ucRd b + 2 ^ 30) / 2 ^ 31)) (over40 ((r.ucRd a * r.ucRd b + 2 ^ 30) / 2
        ^ 31) || over40 (r.ucRdX a) || over40 (r.ucRdX b)) = true)) ∧
  (∀ (c : Fin 8) (r : LoopRun) (d a b : Nat) (s : State),
    ucAt s c r 0x13 d a (b * 4096) ∧ b < 32 →
    writable d = true ∧ readable a = true ∧ readable b = true →
    Answers (exec (.ucAnd c ⟨false, false⟩) s) (fun t =>
      ucGives t c r d (lim40 ((w40i (r.ucRd a) &&& w40i (r.ucRd b)).toInt)) (over40 ((w40i (r.ucRd a) &&& w40i
        (r.ucRd b)).toInt) || over40 (r.ucRdX a) || over40 (r.ucRdX b)) = true)) ∧
  (∀ (c : Fin 8) (r : LoopRun) (d a b : Nat) (s : State),
    ucAt s c r 0x14 d a (b * 4096) ∧ b < 32 →
    writable d = true ∧ readable a = true ∧ readable b = true →
    Answers (exec (.ucOr c ⟨false, false⟩) s) (fun t =>
      ucGives t c r d (lim40 ((w40i (r.ucRd a) ||| w40i (r.ucRd b)).toInt)) (over40 ((w40i (r.ucRd a) ||| w40i
        (r.ucRd b)).toInt) || over40 (r.ucRdX a) || over40 (r.ucRdX b)) = true)) ∧
  (∀ (c : Fin 8) (r : LoopRun) (d a b : Nat) (s : State),
    ucAt s c r 0x15 d a (b * 4096) ∧ b < 32 →
    writable d = true ∧ readable a = true →
    Answers (exec (.ucShrt c ⟨false, false⟩) s) (fun t =>
      ucGives t c r d (lim40 (r.ucRd a / 2 ^ b)) (over40 (r.ucRd a / 2 ^ b) || over40 (r.ucRdX a)) = true)) ∧
  (∀ (c : Fin 8) (r : LoopRun) (d sh imm : Nat) (s : State),
    ucAt s c r 0x12 d sh imm →
    writable d = true →
    Answers (exec (.ucLdi c ⟨false, false⟩) s) (fun t =>
      ucGives t c r d (lim40 (sx 17 imm * 2 ^ sh)) (over40 (sx 17 imm * 2 ^ sh)) = true)) ∧
  (∀ (c : Fin 8) (r : LoopRun) (d a ab off m : Nat) (s : State),
    ucAt s c r 0x10 d a (ab * 2 ^ 16 + off) ∧ ab < 2 ∧ off < 2 ^ 14 →
    writable d = true ∧ readable a = true →
    m = ((if ab = 1 then 0 else r.bank) + off + (r.ucRd a % 2 ^ 14).toNat) % 2 ^ 14 →
    r.queue.find? (fun e => e.1 = m) = none →
    Answers (exec (.ucLd c ⟨false, false⟩) s) (fun t =>
      ucGives t c r d (s.rd (winBase c + 0x1C0000 + m)).toInt (over40 (r.ucRdX a)) = true)) ∧
  (∀ (c : Fin 8) (r : LoopRun) (d a low : Nat) (s : State),
    ucAt s c r 0x00 d a low →
    Answers (exec (.ucNop c ⟨false, false⟩) s) (fun t =>
      t.hw.runOf c = some { r with upc := r.upc + 1, n := r.n + 1 })) ∧
  (∀ (c : Fin 8) (r : LoopRun) (a b : Nat) (s : State),
    ucAt s c r 0x0E 0 a (b * 4096) ∧ b < 32 →
    readable a = true ∧ readable b = true →
    Answers (exec (.ucCmp c ⟨false, false⟩) s) (fun t =>
      ucGives t c r 0 (r.ucRd a - r.ucRd b) (over40 (r.ucRdX a) || over40 (r.ucRdX b)) = true))

/-- O17. MUL, MAC and MSU with an accumulator use its 80 bits and saturate there. ST queues D for its address and no memory
changes; a fifth is QFULL. JMP, CALL and RET go to TARGET or the popped address where their condition holds and on
where it fails; a jump into the vendor partition is PART. The frame's CALL enters the routine at UENTRY. A routine's
END writes the store queue's words and YOUT and ends the run with no cascade hand-off. A micro-fault such as ABORT
(code 8) abandons the run with YOUT and memory unchanged. Where a clause lies on a reading or a choice of the model's
own: log entries 45, 46, 48, 49, 167. -/
def Obligations.MicrowordsBranchStoreAndEnd : Prop :=
  (∀ (c : Fin 8) (r : LoopRun) (j : Fin 4) (a b : Nat) (z : Int) (s : State),
    ucAt s c r 0x0B (16 + j.val) a (b * 4096) ∧ b < 32 →
    readable a = true ∧ readable b = true →
    z = r.ucRd a * r.ucRd b * 2 →
    Answers (exec (.ucMul c ⟨false, false⟩) s) (fun t =>
      (t.hw.runOf c).map (fun q => (q.acc.getD j.val 0, q.z, q.upc)) = some (max (-(2 ^ 79)) (min (2 ^ 79 - 1) z),
        decide (z = 0), r.upc + 1))) ∧
  (∀ (c : Fin 8) (r : LoopRun) (j : Fin 4) (a b : Nat) (z : Int) (s : State),
    ucAt s c r 0x0C (16 + j.val) a (b * 4096) ∧ b < 32 →
    readable a = true ∧ readable b = true →
    z = r.acc.getD j.val 0 + r.ucRd a * r.ucRd b * 2 →
    Answers (exec (.ucMac c ⟨false, false⟩) s) (fun t =>
      (t.hw.runOf c).map (fun q => (q.acc.getD j.val 0, q.z, q.upc)) = some (max (-(2 ^ 79)) (min (2 ^ 79 - 1) z),
        decide (z = 0), r.upc + 1))) ∧
  (∀ (c : Fin 8) (r : LoopRun) (j : Fin 4) (a b : Nat) (z : Int) (s : State),
    ucAt s c r 0x0D (16 + j.val) a (b * 4096) ∧ b < 32 →
    readable a = true ∧ readable b = true →
    z = r.acc.getD j.val 0 - r.ucRd a * r.ucRd b * 2 →
    Answers (exec (.ucMsu c ⟨false, false⟩) s) (fun t =>
      (t.hw.runOf c).map (fun q => (q.acc.getD j.val 0, q.z, q.upc)) = some (max (-(2 ^ 79)) (min (2 ^ 79 - 1) z),
        decide (z = 0), r.upc + 1))) ∧
  (∀ (c : Fin 8) (r : LoopRun) (d a ab off m : Nat) (s : State),
    ucAt s c r 0x11 d a (ab * 2 ^ 16 + off) ∧ ab < 2 ∧ off < 2 ^ 14 →
    readable d = true ∧ readable a = true →
    m = ((if ab = 1 then 0 else r.bank) + off + (r.ucRd a % 2 ^ 14).toNat) % 2 ^ 14 →
    Answers (exec (.ucSt c ⟨false, false⟩) s) (fun t =>
      (r.queue.length < 4 → (t.hw.runOf c).map (fun q => (q.queue, q.upc)) = some ((m, w40i (r.ucRd d)) :: r.queue,
        r.upc + 1)) ∧
      (4 ≤ r.queue.length → microFaulted s t c r 5) ∧
      sameMemory s t)) ∧
  (∀ (c : Fin 8) (r : LoopRun) (k tg : Nat) (s : State),
    ucAt s c r 0x18 k 0 tg ∧ tg < 2 ^ 13 →
    k < 9 →
    Answers (exec (.ucJmp c ⟨false, false⟩) s) (fun t =>
      (ucCond r k = false → t.hw.runOf c = some { r with upc := r.upc + 1, n := r.n + 1 }) ∧
      (ucCond r k = true ∧ 0x1800 ≤ tg → t.hw.runOf c = some { r with upc := tg, n := r.n + 1 }) ∧
      (ucCond r k = true ∧ tg < 0x1800 → microFaulted s t c r 4))) ∧
  (∀ (c : Fin 8) (r : LoopRun) (k tg : Nat) (s : State),
    ucAt s c r 0x19 k 0 tg ∧ tg < 2 ^ 13 →
    k < 9 →
    Answers (exec (.ucCall c ⟨false, false⟩) s) (fun t =>
      (ucCond r k = false → t.hw.runOf c = some { r with upc := r.upc + 1, n := r.n + 1 }) ∧
      (ucCond r k = true ∧ 0x1800 ≤ tg ∧ r.stack.length < 4 → t.hw.runOf c = some
        { r with upc := tg, n := r.n + 1, stack := (r.upc + 1) :: r.stack }) ∧
      (ucCond r k = true ∧ 0x1800 ≤ tg ∧ 4 ≤ r.stack.length → microFaulted s t c r 1))) ∧
  (∀ (c : Fin 8) (r : LoopRun) (x : UcCycle) (s : State),
    s.hw.runOf c = some r →
    r.phase = .frame ∧ r.hook = 3 ∧ r.cfg LOOP_SCFG_RAMP = 0 ∧ r.cfg LOOP_SCFG_GTAB = 0 →
    s.hw.clusterRuns c = true →
    Answers (exec (.ucCall c x) s) (fun t =>
      (t.hw.runOf c).map (fun q => (q.upc, q.stack.length, q.n, q.outv)) = some (r.uentry, 1, 1, r.yprev) ∧
      (t.hw.runOf c).map (fun q => (q.w.getD 1 0, q.w.getD 2 0, q.w.getD 3 0)) = some (r.setp, r.meas, lim40 (r.setp
        - r.meas)))) ∧
  (∀ (c : Fin 8) (r : LoopRun) (k tg : Nat) (rest : List Nat) (s : State),
    ucAt s c r 0x1A k 0 0 →
    k < 9 →
    Answers (exec (.ucRet c ⟨false, false⟩) s) (fun t =>
      (ucCond r k = false → t.hw.runOf c = some { r with upc := r.upc + 1, n := r.n + 1 }) ∧
      (ucCond r k = true ∧ r.stack = tg :: rest → (t.hw.runOf c).map (fun q => (q.upc, q.stack)) = some (tg, rest)) ∧
      (ucCond r k = true ∧ r.stack = [] → microFaulted s t c r 2))) ∧
  (∀ (c : Fin 8) (r : LoopRun) (edge a : Nat) (v : Word) (s : State),
    ucAt s c r 0x1B 0 0 0 →
    r.dl = 0 ∧ bitsOf r.stgt 18 2 = 0 ∧ lim40 r.outv = r.outv →
    r.queue = [(a, v)] ∧ a < 16384 ∧ s.hw.swMem = [] →
    Answers (exec (.ucEnd c edge false) s) (fun t =>
      t.hw.runOf c = none ∧
      t.hw.fs (pLOOP c) r.slot LOOP_YOUT_VALUE = r.outv ∧
      t.hw.f (pLOOP c) r.slot LOOP_SCNT_COUNT = (s.hw.f (pLOOP c) r.slot LOOP_SCNT_COUNT + 1) % 2 ^ 40 ∧
      t.rd (winBase c + 0x1C0000 + a) = v ∧
      (∀ g, g ≠ winBase c + 0x1C0000 + a → t.rd g = s.rd g))) ∧
  (∀ (c : Fin 8) (r : LoopRun) (s : State),
    ucAt s c r 0x1C 0 0 0 →
    Answers (exec (.ucAbort c ⟨false, false⟩) s) (fun t =>
      microFaulted s t c r 8))

/-- O18. SLOT_TRIGGER and LOOP_SWTRIG of an enabled slot without a held trigger hold it with its edge and the deadline, its
input latch empty; with one held they set OVR. RUN_START starts the lowest pending slot on what its latch took at the
edge after the trigger's, or takes now, and on the values at the start edge. DEADLINE_MISS of a held trigger or of a
run notes the miss and leaves YOUT and the state words. END of a P or PI run in the frame writes the law's output to
YOUT and to the target word, and under CLAMP holds the integral. SLOT_CONFIG_WRITE that clears EN discards the held
trigger; a reserved LAW sets CFG_ERR. LOOP_RESEED sets FIRST and LAT_CLEAR clears LAT.MAX of the chosen slots. UC_DATA
moves through the requester's own address. Where a clause lies on a reading or a choice of the model's own: log
entries 43, 44, 45, 47, 165, 166. -/
def Obligations.LoopSlotsRunAndCommit : Prop :=
  (∀ (c : Fin 8) (sl : Fin 12) (v : Chan) (e : Nat) (s : State),
    s.hw.slotOn c sl = true →
    arrives s.hw v (clCode c (0x030 + sl.val)) = true →
    Answers (exec (.slotTrigger c sl ⟨v, none⟩ e) s) (fun t =>
      (s.hw.b (pLOOP c) sl LOOP_SSTAT_PEND = false → t.hw.f (pLOOP c) sl LOOP_SSTAT_PEND = 1 ∧ t.hw.heldOf c sl =
        ⟨e, s.hw.f (pLOOP c) sl LOOP_SDL_DL, none⟩) ∧
      (s.hw.b (pLOOP c) sl LOOP_SSTAT_PEND = true ∧ (s.hw.heldOf c sl).edge ≠ e → t.hw.f (pLOOP c) 0 ⟨5, 12 +
        sl.val, 1⟩ = 1 ∧ t.hw.heldOf c sl = s.hw.heldOf c sl))) ∧
  (∀ (w : Requester) (c : Fin 8) (sl : Fin 12) (d : Word) (e : Nat) (s : State),
    accepts s.hw w (pLOOP c) = true →
    d.toNat % 4096 = 2 ^ sl.val →
    s.hw.slotOn c sl = true →
    s.hw.b (pLOOP c) sl LOOP_SSTAT_PEND = false →
    Answers (exec (.loopSwtrig w c d e) s) (fun t =>
      t.hw.f (pLOOP c) sl LOOP_SSTAT_PEND = 1 ∧
      t.hw.heldOf c sl = ⟨e, s.hw.f (pLOOP c) sl LOOP_SDL_DL, none⟩)) ∧
  (∀ (c : Fin 8) (sl : Fin 12) (edge : Nat) (s : State),
    s.hw.clusterRuns c = true ∧ s.hw.b pRST 0 RST_STATUS_PENDING = false →
    s.hw.runOf c = none →
    s.hw.nextSlot c edge = some sl →
    Answers (exec (.runStart c edge) s) (fun t =>
      (t.hw.runOf c).map (fun q => (q.slot, q.edge, q.dl, q.start)) = some (sl.val, (s.hw.heldOf c sl).edge,
        (s.hw.heldOf c sl).dl, edge) ∧
      (t.hw.runOf c).map (fun q => (q.meas, q.setp, q.yprev)) = some (((s.hw.heldOf c sl).latch.getD (s.loopSource c
        sl)).toInt, s.hw.fs (pLOOP c) sl LOOP_SETP_VALUE, s.hw.fs (pLOOP c) sl LOOP_YOUT_VALUE) ∧
      (∀ q, t.hw.runOf c = some q → (∀ i : Fin 6, q.st0.getD i 0 = s.hw.fs (pLOOP c) sl (LOOP_ST_VALUE i)) ∧ ∀ i :
        Fin 128, q.param i = (s.rd (winBase c + 0x1C0000 + (q.bank + i) % 16384)).toInt) ∧
      t.hw.f (pLOOP c) sl LOOP_SSTAT_PEND = 0 ∧ t.hw.f (pLOOP c) sl LOOP_SSTAT_RUN = 1 ∧
      t.hw.f (pLOOP c) 0 LOOP_STATUS_RUN_SLOT = sl.val)) ∧
  (∀ (c : Fin 8) (sl : Fin 12) (s : State),
    s.hw.clusterRuns c = true →
    s.hw.b (pLOOP c) sl LOOP_SSTAT_PEND = true →
    (s.hw.heldOf c sl).dl ≠ 0 →
    Answers (exec (.deadlineMiss c sl true) s) (fun t =>
      t.hw.f (pLOOP c) sl LOOP_SSTAT_PEND = 0 ∧ t.hw.f (pLOOP c) sl LOOP_SSTAT_MISS = 1 ∧
      t.hw.f (pLOOP c) sl LOOP_SSTAT_MISS_CNT = min 255 (s.hw.f (pLOOP c) sl LOOP_SSTAT_MISS_CNT + 1) ∧
      t.hw.f (pLOOP c) 0 ⟨5, sl, 1⟩ = 1 ∧
      t.hw.runOf c = s.hw.runOf c)) ∧
  (∀ (c : Fin 8) (sl : Fin 12) (r : LoopRun) (s : State),
    s.hw.clusterRuns c = true →
    s.hw.runOf c = some r →
    r.slot = sl.val ∧ r.dl ≠ 0 →
    Answers (exec (.deadlineMiss c sl false) s) (fun t =>
      t.hw.runOf c = none ∧
      t.hw.f (pLOOP c) sl LOOP_SSTAT_MISS = 1 ∧ t.hw.f (pLOOP c) 0 ⟨5, sl, 1⟩ = 1 ∧
      t.hw.reg (pLOOP c) 0x16 sl = s.hw.reg (pLOOP c) 0x16 sl ∧ ∀ i : Fin 6, t.hw.reg (pLOOP c) (0x18 + i) sl =
        s.hw.reg (pLOOP c) (0x18 + i) sl ∧
      sameMemory s t)) ∧
  (∀ (c : Fin 8) (r : LoopRun) (e o : Int) (g edge : Nat) (p : Bool) (s : State),
    s.hw.runOf c = some r →
    s.hw.clusterRuns c = true →
    r.phase = .frame ∧ r.hook = 0 ∧ r.dl = 0 ∧ r.queue = [] ∧ r.st.getD 0 none = none →
    r.cfg LOOP_SCFG_LAW = 1 ∧ r.cfg LOOP_SCFG_RAMP = 0 ∧ r.cfg LOOP_SCFG_GTAB = 0 ∧ r.cfg LOOP_SCFG_CLAMP = 0 ∧
      r.cfg LOOP_SCFG_OSCALE = 0 ∧ r.cfg LOOP_SCFG_CASC = 0 →
    bitsOf r.stgt 18 2 = 2 ∧ s.hw.swAt = [] ∧ s.hw.swMem = [] →
    g = winBase c + 0x1C0000 + bitsOf r.stgt 0 14 →
    e = lim40 (r.setp - r.meas) →
    o = lim40 (lim40 ((r.param 0 * e + 2 ^ 30) / 2 ^ 31) + lim40 (r.st0.getD 0 0 + lim40 ((r.param 1 * e + 2 ^ 30) /
      2 ^ 31))) →
    Answers (exec (.ucEnd c edge p) s) (fun t =>
      t.hw.runOf c = none ∧
      t.hw.fs (pLOOP c) r.slot LOOP_YOUT_VALUE = o ∧
      t.hw.fs (pLOOP c) r.slot (LOOP_ST_VALUE 0) = lim40 (r.st0.getD 0 0 + lim40 ((r.param 1 * e + 2 ^ 30) / 2 ^
        31)) ∧
      (t.rd g = w40i o ∧ ∀ a, a ≠ g → t.rd a = s.rd a))) ∧
  (∀ (c : Fin 8) (r : LoopRun) (e : Int) (edge : Nat) (p : Bool) (s : State),
    s.hw.runOf c = some r →
    s.hw.clusterRuns c = true →
    r.phase = .frame ∧ r.hook = 0 ∧ r.dl = 0 ∧ r.queue = [] ∧ r.st.getD 0 none = none →
    r.cfg LOOP_SCFG_LAW = 1 ∧ r.cfg LOOP_SCFG_RAMP = 0 ∧ r.cfg LOOP_SCFG_GTAB = 0 ∧ r.cfg LOOP_SCFG_CLAMP = 1 ∧
      r.cfg LOOP_SCFG_OSCALE = 0 ∧ r.cfg LOOP_SCFG_CASC = 0 →
    bitsOf r.stgt 18 2 = 0 ∧ s.hw.swAt = [] →
    e = lim40 (r.setp - r.meas) ∧ 0 < e →
    r.param 7 ≤ r.param 8 ∧ r.param 8 < lim40 (lim40 ((r.param 0 * e + 2 ^ 30) / 2 ^ 31) + lim40 (r.st0.getD 0 0 +
      lim40 ((r.param 1 * e + 2 ^ 30) / 2 ^ 31))) →
    Answers (exec (.ucEnd c edge p) s) (fun t =>
      t.hw.fs (pLOOP c) r.slot LOOP_YOUT_VALUE = r.param 8 ∧
      t.hw.fs (pLOOP c) r.slot (LOOP_ST_VALUE 0) = min (max (r.st0.getD 0 0) (r.param 7)) (r.param 8) ∧
      t.hw.f (pLOOP c) r.slot LOOP_SSTAT_CLAMP_HI = 1)) ∧
  (∀ (w : Requester) (c : Fin 8) (sl : Fin 12) (d : Word) (s : State),
    accepts s.hw w (pLOOP c) = true →
    s.hw.chsel (pLOOP c) w = sl.val →
    Answers (exec (.slotConfigWrite w c 0 d) s) (fun t =>
      t.hw.f (pLOOP c) sl LOOP_SCFG_EN = bitsOf d.toNat 0 1 ∧ t.hw.f (pLOOP c) sl LOOP_SCFG_LAW = bitsOf d.toNat 14
        3 ∧
      (6 ≤ bitsOf d.toNat 14 3 → t.hw.f (pLOOP c) sl LOOP_SSTAT_CFG_ERR = 1 ∧ t.hw.f (pLOOP c) sl LOOP_SSTAT_PEND =
        0) ∧
      (s.hw.b (pLOOP c) sl LOOP_SCFG_EN = true ∧ bitOf d.toNat 0 = false → t.hw.f (pLOOP c) sl LOOP_SSTAT_PEND = 0 ∧
        t.hw.f (pLOOP c) sl LOOP_SSTAT_MISS = s.hw.f (pLOOP c) sl LOOP_SSTAT_MISS) ∧
      (s.hw.b (pLOOP c) sl LOOP_SCFG_EN = false ∧ bitOf d.toNat 0 = true → t.hw.f (pLOOP c) sl LOOP_SSTAT_FIRST = 1))) ∧
  (∀ (w : Requester) (c : Fin 8) (sl : Fin 12) (d : Word) (s : State),
    accepts s.hw w (pLOOP c) = true →
    Answers (exec (.loopReseed w c d) s) (fun t =>
      t.hw.f (pLOOP c) sl LOOP_SSTAT_FIRST = (if bitOf d.toNat sl then 1 else s.hw.f (pLOOP c) sl LOOP_SSTAT_FIRST))) ∧
  (∀ (w : Requester) (c : Fin 8) (sl : Fin 12) (d : Word) (s : State),
    accepts s.hw w (pLOOP c) = true →
    Answers (exec (.latClear w c d) s) (fun t =>
      t.hw.f (pLOOP c) sl LOOP_LAT_MAX = (if bitOf d.toNat sl then 0 else s.hw.f (pLOOP c) sl LOOP_LAT_MAX) ∧
      t.hw.f (pLOOP c) sl LOOP_LAT_LAST = s.hw.f (pLOOP c) sl LOOP_LAT_LAST)) ∧
  (∀ (w : Requester) (c : Fin 8) (a : Nat) (d : Word) (s : State),
    accepts s.hw w (pLOOPUC c) = true →
    s.hw.b (pLOOPUC c) 0 LOOP_UC_CTRL_UC_WEN = true →
    s.hw.f (pLOOPUC c) w.bank LOOP_UC_UC_ADDR_ADDR = a ∧ 0x1800 ≤ a →
    Answers (exec (.ucDataWrite w c d) s) (fun t =>
      t.hw.ucWord c a = d.toNat % 2 ^ 32 ∧
      t.hw.f (pLOOPUC c) w.bank LOOP_UC_UC_ADDR_ADDR = (if a = 0x1FFF then 0x1800 else a + 1))) ∧
  (∀ (w : Requester) (c : Fin 8) (a : Nat) (s : State),
    s.hw.mayRead (s.hw.acc w) (pLOOPUC c) = true →
    s.hw.f (pLOOPUC c) w.bank LOOP_UC_UC_ADDR_ADDR = a →
    Answers (exec (.ucDataRead w c) s) (fun t =>
      t.hw.resp = [if a < 0x1800 then 0 else w40 (s.hw.ucWord c a)] ∧
      t.hw.f (pLOOPUC c) w.bank LOOP_UC_UC_ADDR_ADDR = (if a = 0x1FFF then 0x1800 else a + 1)))

/-- O19. TIMEBASE_START of a stopped unaligned timebase sets CNT to 0 counting up, transfers every shadow (the period limited
to its permitted range) and forms REF; TIMEBASE_STOP holds CNT, DIR and REF with every ball at its safe state.
ZERO_POINT sets CNT to 0 upward and REF to whether the up compare is above 0, and when committed at a load event
transfers PRD and CMPA with LOADED; PERIOD_POINT sets CNT to P downward and REF to whether the down compare is at
least P. COMPARE_CROSSING of CMPA on the up slope ends REF. PWM_COMMIT in LINKED mode sets COMMITTED, for load events
of later edges. PWM_SYNC places CNT and DIR at the next edge with SYNCED. TIMEBASE_CFG_WRITE to INDEPENDENT opens
CSTATE and sets every pending bit at the next edge. A Loop END with an IMMEDIATE DUTY target sends the compare word,
which lands in shadow and active CMPA at the first edge 5 ns after END. Where a clause lies on a reading or a choice
of the model's own: log entries 51, 52, 54, 163, 164. -/
def Obligations.TimebasesCountLoadAndSync : Prop :=
  (∀ (w : Requester) (c : Fin 8) (tb : Fin 4) (d : Word) (s : State),
    accepts s.hw w (pPWMTB c) = true →
    d.toNat % 256 = 2 ^ tb.val →
    s.hw.b (pPWMTB c) tb PWM_TB_TBCFG_EN = false ∧ s.hw.b (pPWMTB c) tb PWM_TB_TBCFG_DALIGN = false →
    Answers (exec (.timebaseStart w c d) s) (fun t =>
      t.hw.f (pPWMTB c) tb PWM_TB_TBCFG_EN = 1 ∧
      t.hw.cnt c tb = 0 ∧ t.hw.down c tb = false ∧
      t.hw.period c tb = min 8388607 (max s.hw.prdFloor (s.hw.f (pPWMTB c) tb PWM_TB_PRD_COUNT)) ∧
      (∀ j : Fin 3, t.hw.f (pPWMCH c) (3 * tb + j) PWM_CH_CMPA_ACT_VALUE = bitsOf (s.hw.reg (pPWMCH c) 0x11 (3 * tb
        + j)).toNat 10 30) ∧
      (∀ j : Fin 3, t.hw.ref c (3 * tb + j) = decide (0 < sx 30 (bitsOf (s.hw.reg (pPWMCH c) 0x11 (3 * tb +
        j)).toNat 10 30))))) ∧
  (∀ (w : Requester) (c : Fin 8) (tb : Fin 4) (d : Word) (s : State),
    accepts s.hw w (pPWMTB c) = true →
    d.toNat % 256 = 16 * 2 ^ tb.val →
    s.hw.b (pPWMTB c) tb PWM_TB_TBCFG_EN = true →
    Answers (exec (.timebaseStop w c d) s) (fun t =>
      t.hw.f (pPWMTB c) tb PWM_TB_TBCFG_EN = 0 ∧
      t.hw.cnt c tb = s.hw.cnt c tb ∧ t.hw.down c tb = s.hw.down c tb ∧
      (∀ j : Fin 3, t.hw.ref c (3 * tb + j) = s.hw.ref c (3 * tb + j)) ∧
      ballsSafe t.hw c tb = true)) ∧
  (∀ (c : Fin 8) (tb : Fin 4) (s : State),
    s.hw.tbRuns c tb = true ∧ s.hw.down c tb = true →
    s.hw.b (pPWMTB c) tb PWM_TB_TBCFG_DALIGN = false →
    s.hw.f (pPWMTB c) tb PWM_TB_TBCFG_LOAD_AT = 2 →
    Answers (exec (.zeroPoint c tb ()) s) (fun t =>
      t.hw.cnt c tb = (if (s.hw.tb c tb).adj < 0 then 1 else 0) ∧ t.hw.down c tb = false ∧
      (∀ j : Fin 3, t.hw.ref c (3 * tb + j) = decide (0 < s.hw.cmpVal c (3 * tb + j) false)) ∧
      t.hw.period c tb = s.hw.period c tb)) ∧
  (∀ (c : Fin 8) (tb : Fin 4) (s : State),
    s.hw.tbRuns c tb = true ∧ s.hw.down c tb = true →
    s.hw.b (pPWMTB c) tb PWM_TB_TBCFG_DALIGN = false →
    s.hw.f (pPWMTB c) tb PWM_TB_TBCFG_LOAD_AT ≠ 2 →
    s.hw.lmode c tb = false ∧ s.hw.committed c tb = true →
    Answers (exec (.zeroPoint c tb ()) s) (fun t =>
      t.hw.f (pPWMTB c) tb PWM_TB_TSTAT_CSTATE = 0 ∧
      t.hw.period c tb = min 8388607 (max s.hw.prdFloor (s.hw.f (pPWMTB c) tb PWM_TB_PRD_COUNT)) ∧
      (∀ j : Fin 3, t.hw.f (pPWMCH c) (3 * tb + j) PWM_CH_CMPA_ACT_VALUE = bitsOf (s.hw.reg (pPWMCH c) 0x11 (3 * tb
        + j)).toNat 10 30) ∧
      t.hw.f (pPWMTB c) 0 ⟨5, 8 * tb, 1⟩ = 1)) ∧
  (∀ (c : Fin 8) (tb : Fin 4) (s : State),
    s.hw.tbRuns c tb = true ∧ s.hw.down c tb = false →
    s.hw.f (pPWMTB c) tb PWM_TB_TBCFG_LOAD_AT < 2 →
    Answers (exec (.periodPoint c tb) s) (fun t =>
      t.hw.cnt c tb = s.hw.period c tb ∧ t.hw.down c tb = true ∧
      (∀ j : Fin 3, t.hw.ref c (3 * tb + j) = decide (64 * (s.hw.period c tb : Int) ≤ s.hw.downCmp c (3 * tb + j))))) ∧
  (∀ (c : Fin 8) (k : Fin 12) (v : Nat) (s : State),
    s.hw.tbRuns c (k.val / 3) = true ∧ s.hw.down c (k.val / 3) = false →
    s.hw.cmpVal c k false = v ∧ 0 < v ∧ v < 64 * s.hw.period c (k.val / 3) →
    (s.hw.pch c k).crossA = false →
    Answers (exec (.compareCrossing c k false) s) (fun t =>
      t.hw.ref c k = false ∧
      t.hw.cnt c (k.val / 3) = max (s.hw.cnt c (k.val / 3)) ((v + 63) / 64) ∧
      (t.hw.pch c k).crossA = true)) ∧
  (∀ (w : Requester) (c : Fin 8) (tb : Fin 4) (d : Word) (s : State),
    accepts s.hw w (pPWMTB c) = true →
    s.hw.chsel (pPWMTB c) w = tb.val →
    bitsOf d.toNat 0 2 = 1 →
    s.hw.lmode c tb = false →
    Answers (exec (.pwmCommit c (.cmd w d)) s) (fun t =>
      t.hw.f (pPWMTB c) tb PWM_TB_TSTAT_CSTATE = 1 ∧
      (s.hw.b (pPWMTB c) tb PWM_TB_TSTAT_CSTATE = false → t.hw.committed c tb = false ∧
        { t.hw with now := t.hw.now + 1 }.committed c tb = true) ∧
      t.hw.f (pPWMTB c) tb PWM_TB_PRD_ACT_COUNT = s.hw.f (pPWMTB c) tb PWM_TB_PRD_ACT_COUNT)) ∧
  (∀ (w : Requester) (c : Fin 8) (tb : Fin 4) (x : Nat) (d : Word) (s : State),
    accepts s.hw w (pPWMTB c) = true →
    s.hw.chsel (pPWMTB c) w = tb.val →
    bitsOf d.toNat 0 2 = 2 →
    s.hw.b (pPWMTB c) tb PWM_TB_TBCFG_EN = true ∧ s.hw.b (pPWMTB c) tb PWM_TB_TBCFG_SYNC_EN = true ∧ s.hw.b (pPWMTB
      c) tb PWM_TB_TBCFG_DALIGN = false →
    s.hw.f (pPWMTB c) tb PWM_TB_SYNCVAL_CNT = x ∧ 0 < x ∧ x < s.hw.period c tb ∧ s.hw.due = [] →
    Answers (exec (.pwmSync c (.cmd w d)) s) (fun t =>
      t.hw.cnt c tb = s.hw.cnt c tb ∧
      (nextEdge t.hw).cnt c tb = x ∧ (nextEdge t.hw).down c tb = s.hw.b (pPWMTB c) tb PWM_TB_SYNCVAL_DIR ∧
      (nextEdge t.hw).f (pPWMTB c) 0 ⟨5, 8 * tb + 6, 1⟩ = 1)) ∧
  (∀ (c : Fin 8) (tb : Fin 4) (v : Chan) (s : State),
    s.hw.tbRuns c tb = true →
    arrives s.hw v (clCode c (0x040 + 2 * tb.val)) = true →
    s.hw.b (pPWMTB c) tb PWM_TB_TBCFG_SYNC_EN = true ∧ s.hw.b (pPWMTB c) tb PWM_TB_TBCFG_DALIGN = false →
    s.hw.f (pPWMTB c) tb PWM_TB_SYNCVAL_CNT = 0 ∧ s.hw.due = [] →
    Answers (exec (.pwmSync c (.seam tb ⟨v, none⟩)) s) (fun t =>
      (nextEdge t.hw).cnt c tb = 0 ∧ (nextEdge t.hw).down c tb = false ∧
      (nextEdge t.hw).f (pPWMTB c) 0 ⟨5, 8 * tb + 6, 1⟩ = 1)) ∧
  (∀ (w : Requester) (c : Fin 8) (tb : Fin 4) (d : Word) (s : State),
    accepts s.hw w (pPWMTB c) = true →
    s.hw.chsel (pPWMTB c) w = tb.val →
    s.hw.b (pPWMTB c) tb PWM_TB_TBCFG_LMODE = false ∧ bitOf d.toNat 9 = true ∧ s.hw.due = [] →
    s.hw.f (pPWMTB c) tb PWM_TB_TBCFG_EN = bitsOf d.toNat 0 1 →
    Answers (exec (.timebaseCfgWrite w c d) s) (fun t =>
      t.hw.f (pPWMTB c) tb PWM_TB_TBCFG_LMODE = 1 ∧ t.hw.f (pPWMTB c) tb PWM_TB_TBCFG_LOAD_AT = bitsOf d.toNat 7 2 ∧
      (nextEdge t.hw).f (pPWMTB c) tb PWM_TB_TSTAT_CSTATE = 0 ∧ (nextEdge t.hw).f (pPWMTB c) tb
        PWM_TB_TSTAT_PEND_PRD = 1 ∧
      (∀ j : Fin 3, bitsOf ((nextEdge t.hw).reg (pPWMCH c) 0x19 (3 * tb + j)).toNat 6 4 = 15))) ∧
  (∀ (c : Fin 8) (k : Fin 12) (r : LoopRun) (q n : Int) (v : Word) (edge : Nat) (s : State),
    ucAt s c r 0x1B 0 0 0 →
    n = s.hw.period c (k.val / 3) →
    r.dl = 0 ∧ r.queue = [] ∧ r.outv = q ∧ lim40 q = q →
    bitsOf r.stgt 16 4 = 4 ∧ bitOf r.stgt 15 = false ∧ bitsOf r.stgt 0 2 = k.val % 3 ∧ bitsOf r.stgt 2 2 = k.val / 3
      →
    v = w40i (1024 * min (max ((q * n + 2 ^ 24) / 2 ^ 25) 0) (64 * n)) ∧ s.hw.due = [] →
    Answers (exec (.ucEnd c edge false) s) (fun t =>
      t.hw.due = [(s.hw.now + 2 + edge % 2, .landing c k 0x11 v true)] ∧ t.hw.reg (pPWMCH c) 0x11 k = s.hw.reg
        (pPWMCH c) 0x11 k ∧
      (t.hw.atEdge (.landing c k 0x11 v true)).reg (pPWMCH c) 0x11 k = v ∧
      (t.hw.atEdge (.landing c k 0x11 v true)).f (pPWMCH c) k PWM_CH_CMPA_ACT_VALUE = bitsOf v.toNat 10 30))

/-- O20. OUTPUT_TURN_ON of a requested output turns it on no earlier than its request, its dead time after the other turned off
and M after it turned off, when M is left before the requested turn-off; with nothing left it is cancelled with DROP.
OUTPUT_TURN_OFF takes place at the later of its request and M after the turn-on, with STRETCH when later. OCFG_WRITE
while LOCK is 0 takes the enables at the next edge, and an enabled output counts as turned off there.
SCORCH_SOURCE_ACTIVE and SWTRIP trip a running timebase: every ball safe at once, TRIP_ACTIVE, FIRST or SW and
TRIP_CNT at the next edge. TRIP_CLR clears the trip unless an enabled source is active, which sets CLR_REFUSED. Where
a clause lies on a reading or a choice of the model's own: log entries 51, 53, 55, 56. -/
def Obligations.OutputsDeadTimeAndTrips : Prop :=
  (∀ (c : Fin 8) (k : Fin 12) (low : Bool) (q dt e at' : Int) (s : State),
    s.hw.tbRuns c (k.val / 3) = true ∧ s.hw.tbSafe c (k.val / 3) = false ∧ s.hw.outEn c k low = true →
    (s.hw.pch c k).hi.on = false ∧ (s.hw.pch c k).lo.on = false →
    (outOf (s.hw.pch c k) low).wantOn = some (q, dt) →
    s.hw.refEnds c (k.val / 3) k = some e →
    at' = max q (max ((outOf (s.hw.pch c k) (!low)).offAt + dt) ((outOf (s.hw.pch c k) low).offAt + max 64
      ((s.hw.pch c k).minp : Int))) →
    Answers (exec (.outputTurnOn c k low) s) (fun t =>
      (at' + max 64 ((s.hw.pch c k).minp : Int) ≤ e → (outOf (t.hw.pch c k) low).on = true ∧ (outOf (t.hw.pch c k)
        low).onAt = at') ∧
      (e ≤ at' → (outOf (t.hw.pch c k) low).on = false ∧ t.hw.f (pPWMCH c) k PWM_CH_CHSTAT_DROP = 1) ∧
      (outOf (t.hw.pch c k) (!low)).on = false)) ∧
  (∀ (c : Fin 8) (k : Fin 12) (low : Bool) (r : Int) (s : State),
    s.hw.tbRuns c (k.val / 3) = true →
    (outOf (s.hw.pch c k) low).on = true →
    (outOf (s.hw.pch c k) low).wantOff = some r →
    Answers (exec (.outputTurnOff c k low) s) (fun t =>
      (outOf (t.hw.pch c k) low).on = false ∧
      (outOf (t.hw.pch c k) low).offAt = max r ((outOf (s.hw.pch c k) low).onAt + max 64 ((s.hw.pch c k).minp :
        Int)) ∧
      (r < (outOf (s.hw.pch c k) low).onAt + max 64 ((s.hw.pch c k).minp : Int) → t.hw.f (pPWMCH c) k
        PWM_CH_CHSTAT_STRETCH = 1))) ∧
  (∀ (w : Requester) (c : Fin 8) (k : Fin 12) (d : Word) (s : State),
    accepts s.hw w (pPWMCH c) = true →
    s.hw.chsel (pPWMCH c) w = k.val →
    s.hw.b (pPWMCH c) 0 LOCK_BIT = false ∧ s.hw.due = [] →
    Answers (exec (.ocfgWrite w c d) s) (fun t =>
      t.hw.f (pPWMCH c) k PWM_CH_OCFG_H_EN = bitsOf d.toNat 3 1 ∧ t.hw.f (pPWMCH c) k PWM_CH_OCFG_L_EN = bitsOf
        d.toNat 7 1 ∧
      t.hw.f (pPWMCH c) k PWM_CH_OCFG_H_SAFE = bitsOf d.toNat 0 2 ∧ t.hw.f (pPWMCH c) k PWM_CH_OCFG_L_POL = bitsOf
        d.toNat 6 1 ∧
      (∀ low : Bool, t.hw.outEn c k low = s.hw.outEn c k low ∧ (nextEdge t.hw).outEn c k low = bitOf d.toNat (if low
        then 7 else 3)) ∧
      (s.hw.outEn c k false = false ∧ bitOf d.toNat 3 = true → ((nextEdge t.hw).pch c k).hi.on = false ∧ ((nextEdge
        t.hw).pch c k).hi.offAt = s.hw.tbTime c (k.val / 3)))) ∧
  (∀ (c : Fin 8) (tb : Fin 4) (k : Fin 8) (s : State),
    s.hw.tbRuns c tb = true ∧ s.hw.b (pSCORCH c) tb SCORCH_TRSTAT_TRIP_ACTIVE = false →
    s.hw.scorchOn c tb = true ∧ s.hw.scorchActive c tb k = true ∧ s.hw.due = [] →
    Answers (exec (.scorchSourceActive c tb k) s) (fun t =>
      (nextEdge t.hw).f (pSCORCH c) tb SCORCH_TRSTAT_TRIP_ACTIVE = 1 ∧
      (nextEdge t.hw).f (pSCORCH c) tb SCORCH_TRSTAT_FIRST = t.hw.scorchMask c tb ∧ (nextEdge t.hw).f (pSCORCH c) tb
        SCORCH_TRSTAT_SW = 0 ∧
      (nextEdge t.hw).f (pSCORCH c) tb SCORCH_TRIP_CNT_COUNT = (s.hw.f (pSCORCH c) tb SCORCH_TRIP_CNT_COUNT + 1) % 2
        ^ 40 ∧
      (nextEdge t.hw).f (pSCORCH c) 0 ⟨5, tb, 1⟩ = 1 ∧
      ballsSafe t.hw c tb = true ∧
      t.hw.cnt c tb = s.hw.cnt c tb)) ∧
  (∀ (w : Requester) (c : Fin 8) (tb : Fin 4) (d : Word) (s : State),
    accepts s.hw w (pSCORCH c) = true →
    s.hw.chsel (pSCORCH c) w = tb.val →
    s.hw.b (pPWMTB c) tb PWM_TB_TBCFG_EN = true ∧ s.hw.b (pSCORCH c) tb SCORCH_TRSTAT_TRIP_ACTIVE = false ∧ s.hw.due
      = [] →
    bitOf d.toNat 1 = true →
    Answers (exec (.swtrip w c d) s) (fun t =>
      (nextEdge t.hw).f (pSCORCH c) tb SCORCH_TRSTAT_TRIP_ACTIVE = 1 ∧ (nextEdge t.hw).f (pSCORCH c) tb
        SCORCH_TRSTAT_SW = 1 ∧
      (nextEdge t.hw).f (pSCORCH c) tb SCORCH_TRIP_CNT_COUNT = (s.hw.f (pSCORCH c) tb SCORCH_TRIP_CNT_COUNT + 1) % 2
        ^ 40 ∧
      ballsSafe t.hw c tb = true)) ∧
  (∀ (w : Requester) (c : Fin 8) (tb : Fin 4) (d : Word) (s : State),
    accepts s.hw w (pSCORCH c) = true →
    s.hw.chsel (pSCORCH c) w = tb.val →
    s.hw.b (pSCORCH c) tb SCORCH_TRSTAT_TRIP_ACTIVE = true →
    bitsOf d.toNat 0 2 = 1 →
    Answers (exec (.tripClr w c d) s) (fun t =>
      (s.hw.scorchAny c tb = false → t.hw.f (pSCORCH c) tb SCORCH_TRSTAT_TRIP_ACTIVE = 0) ∧
      (s.hw.scorchAny c tb = true → t.hw.f (pSCORCH c) tb SCORCH_TRSTAT_TRIP_ACTIVE = 1 ∧ t.hw.f (pSCORCH c) tb
        SCORCH_TRSTAT_CLR_REFUSED = 1) ∧
      t.hw.f (pSCORCH c) tb SCORCH_TRSTAT_FIRST = s.hw.f (pSCORCH c) tb SCORCH_TRSTAT_FIRST))

/-- O21. From every state in which no channel has H and L both on, each command of the PWM family (start, stop, zero point,
period point, compare crossing, turn-on, turn-off, commit, sync, configuration and OCFG writes, scorch source, SWTRIP,
TRIP_CLR) answers a state in which no channel has H and L both on. Where a clause lies on a reading or a choice of the
model's own: log entries 51. -/
def Obligations.OutputsOfAChannelNeverBothOn : Prop :=
  ∀ (i : Instr) (s : State), pwmRow i = true → neverBothOn s.hw → Answers (exec i s) (fun t => neverBothOn t.hw)

/-- O22. A move that issues with its guard holding into v1 to v31 writes the register (into v0 nothing), into p1 to p7 sets the
predicate to whether the value is nonzero (into p0 nothing), into an operand port the port; into a result port, an
accumulator part or RS_CFG of the extended space that register; cns.t forms the 40-bit constant; gio.t, set, clr and
tgl write, OR, clear and invert OUT; evp.p and evp.r bring the latches and clear them; RS_DATA read pops and its write
pushes. Each leaves every other part of the core as it was and steps to the next move. A move whose guard fails only
steps on. Where a clause lies on a reading or a choice of the model's own: log entries 57, 58. -/
def Obligations.MovesIntoRegistersAndPorts : Prop :=
  (∀ (k : Fin 32) (m : Move) (c : CoreSt) (v : Word) (s : State),
    issues s k m c v →
    0 < m.dst ∧ m.dst < 32 →
    Answers (exec (.registerMove k) s) (fun t =>
      wentOn t k m { c with v := (t.hw.core k).v } ∧
      (t.hw.core k).v.at 0 m.dst = v ∧
      (∀ j : Fin 32, j.val ≠ m.dst → (t.hw.core k).v.at 0 j = c.v.at 0 j))) ∧
  (∀ (k : Fin 32) (m : Move) (c : CoreSt) (v : Word) (s : State),
    issues s k m c v →
    m.dst = 0 →
    Answers (exec (.registerMove k) s) (fun t =>
      wentOn t k m c)) ∧
  (∀ (k : Fin 32) (m : Move) (c : CoreSt) (v : Word) (s : State),
    issues s k m c v →
    m.dst = 0xC0 →
    Answers (exec (.registerMove k) s) (fun t =>
      wentOn t k m { c with aluR := v })) ∧
  (∀ (k : Fin 32) (m : Move) (c : CoreSt) (v : Word) (n : Fin 4) (s : State),
    issues s k m c v →
    m.dst = 0x100 + n.val →
    Answers (exec (.registerMove k) s) (fun t =>
      wentOn t k m { c with acc := (t.hw.core k).acc } ∧
      ((t.hw.core k).accN n).toInt = v.toInt * 2 ^ 32 ∧
      (∀ j : Fin 4, j ≠ n → (t.hw.core k).accN j = c.accN j))) ∧
  (∀ (k : Fin 32) (m : Move) (c : CoreSt) (v : Word) (s : State),
    issues s k m c v →
    m.dst = 0x207 →
    c.ring < 2 →
    Answers (exec (.registerMove k) s) (fun t =>
      wentOn t k m { c with rsCfg := v.toNat % 16 })) ∧
  (∀ (k : Fin 32) (m : Move) (c : CoreSt) (v : Word) (s : State),
    issues s k m c v →
    m.dst = 0x207 →
    2 ≤ c.ring →
    Answers (exec (.registerMove k) s) (fun t =>
      raised s t k 0x02 0x10 0)) ∧
  (∀ (k : Fin 32) (m : Move) (s : State),
    s.hw.canIssue k = true ∧ s.next k = .code (.move m) ∧ (s.hw.core k).holds m.guard m.inv = false →
    m.dst < 32 →
    Answers (exec (.registerMove k) s) (fun t =>
      wentOn t k m (s.hw.core k))) ∧
  (∀ (k : Fin 32) (m : Move) (c : CoreSt) (v : Word) (j : Fin 8) (s : State),
    issues s k m c v →
    m.dst = 0x20 + j.val →
    Answers (exec (.predicateMove k) s) (fun t =>
      wentOn t k m { c with preds := (t.hw.core k).preds } ∧
      bitOf (t.hw.core k).preds j = if j.val = 0 then bitOf c.preds 0 else decide (v ≠ 0) ∧
      (∀ i : Fin 8, i ≠ j → bitOf (t.hw.core k).preds i = bitOf c.preds i))) ∧
  (∀ (k : Fin 32) (m : Move) (c : CoreSt) (v : Word) (p : Fin 12) (s : State),
    issues s k m c v →
    m.dst = portCodes.getD p 0 →
    Answers (exec (.operandMove k) s) (fun t =>
      (t.hw.core k).read k 0 (backCodes.getD p 0) = .val (t.hw.core k) v ∧
      (∀ q : Fin 12, q ≠ p → ∃ w, (t.hw.core k).read k 0 (backCodes.getD q 0) = .val (t.hw.core k) w ∧ c.read k 0
        (backCodes.getD q 0) = .val c w) ∧
      wentOn t k m
        { c with aluA := (t.hw.core k).aluA, shfA := (t.hw.core k).shfA, cmpA := (t.hw.core k).cmpA, mulA := (t.hw.core k).mulA, macA := (t.hw.core k).macA, divA := (t.hw.core k).divA, cpyS := (t.hw.core k).cpyS, cpyD := (t.hw.core k).cpyD, lsuA := (t.hw.core k).lsuA, lsuB := (t.hw.core k).lsuB, lsuH := (t.hw.core k).lsuH, cnsA := (t.hw.core k).cnsA })) ∧
  (∀ (k : Fin 32) (m : Move) (c : CoreSt) (v : Word) (s : State),
    issues s k m c v →
    m.dst = 0x69 →
    Answers (exec (.cnsT k) s) (fun t =>
      wentOn t k m { c with cnsR := w40 (c.cnsA.toNat % 2 ^ 17 * 2 ^ 23 + v.toNat % 2 ^ 23) })) ∧
  (∀ (k : Fin 32) (m : Move) (c : CoreSt) (v : Word) (s : State),
    issues s k m c v →
    m.dst = 0x6B →
    Answers (exec (.gioT k) s) (fun t =>
      wentOn t k m { c with gio := v.toNat % 65536 })) ∧
  (∀ (k : Fin 32) (m : Move) (c : CoreSt) (v : Word) (s : State),
    issues s k m c v →
    m.dst = 0x6C →
    Answers (exec (.gioSet k) s) (fun t =>
      wentOn t k m { c with gio := (t.hw.core k).gio } ∧
      (∀ b : Fin 16, bitOf (t.hw.core k).gio b = (bitOf c.gio b || bitOf v.toNat b)))) ∧
  (∀ (k : Fin 32) (m : Move) (c : CoreSt) (v : Word) (s : State),
    issues s k m c v →
    m.dst = 0x6D →
    Answers (exec (.gioClr k) s) (fun t =>
      wentOn t k m { c with gio := (t.hw.core k).gio } ∧
      (∀ b : Fin 16, bitOf (t.hw.core k).gio b = (bitOf c.gio b && !bitOf v.toNat b)))) ∧
  (∀ (k : Fin 32) (m : Move) (c : CoreSt) (v : Word) (s : State),
    issues s k m c v →
    m.dst = 0x6E →
    Answers (exec (.gioTgl k) s) (fun t =>
      wentOn t k m { c with gio := (t.hw.core k).gio } ∧
      (∀ b : Fin 16, bitOf (t.hw.core k).gio b = (bitOf c.gio b != bitOf v.toNat b)))) ∧
  (∀ (k : Fin 32) (m : Move) (s : State),
    s.hw.canIssue k = true ∧ s.next k = .code (.move m) ∧ (s.hw.core k).holds m.guard m.inv = true →
    m.src = .code 0x2D ∧ 0 < m.dst ∧ m.dst < 32 ∧ (s.hw.core k).evp ≠ 0 →
    Answers (exec (.evpR k) s) (fun t =>
      wentOn t k m { s.hw.core k with evp := 0, v := (t.hw.core k).v } ∧
      (t.hw.core k).v.at 0 m.dst = w40 (s.hw.core k).evp)) ∧
  (∀ (k : Fin 32) (m : Move) (s : State),
    s.hw.canIssue k = true ∧ s.next k = .code (.move m) ∧ (s.hw.core k).holds m.guard m.inv = true →
    m.src = .code 0x2E ∧ 0 < m.dst ∧ m.dst < 32 →
    Answers (exec (.evpP k) s) (fun t =>
      wentOn t k m { s.hw.core k with evp := 0, v := (t.hw.core k).v } ∧
      (t.hw.core k).v.at 0 m.dst = w40 (s.hw.core k).evp)) ∧
  (∀ (k : Fin 32) (m : Move) (s : State),
    s.hw.canIssue k = true ∧ s.next k = .code (.move m) ∧ (s.hw.core k).holds m.guard m.inv = true →
    m.src = .code 0x2D ∧ (s.hw.core k).evp = 0 →
    Answers (exec (.evpR k) s) (fun t =>
      t = s)) ∧
  (∀ (k : Fin 32) (m : Move) (a : Nat) (rest : List Nat) (s : State),
    s.hw.canIssue k = true ∧ s.next k = .code (.move m) ∧ (s.hw.core k).holds m.guard m.inv = true →
    m.src = .code 0x206 ∧ 0 < m.dst ∧ m.dst < 32 ∧ (s.hw.core k).rs = a :: rest →
    Answers (exec (.rsDataRead k) s) (fun t =>
      wentOn t k m { s.hw.core k with rs := rest, v := (t.hw.core k).v } ∧
      (t.hw.core k).v.at 0 m.dst = w40 a)) ∧
  (∀ (k : Fin 32) (m : Move) (c : CoreSt) (v : Word) (s : State),
    issues s k m c v →
    m.dst = 0x206 →
    c.rs.length < 16 →
    Answers (exec (.rsDataWrite k) s) (fun t =>
      wentOn t k m { c with rs := v.toNat % 2 ^ 32 :: c.rs })) ∧
  (∀ (k : Fin 32) (m : Move) (c : CoreSt) (v : Word) (s : State),
    issues s k m c v →
    m.dst = 0x206 →
    c.rs.length = 16 ∧ bitOf c.rsCfg c.ring = false →
    Answers (exec (.rsDataWrite k) s) (fun t =>
      wentOn t k m { c with rs := (v.toNat % 2 ^ 32 :: c.rs).take 16, rsWrapped := true })) ∧
  (∀ (k : Fin 32) (m : Move) (c : CoreSt) (v : Word) (s : State),
    issues s k m c v →
    m.dst = 0x206 →
    16 ≤ c.rs.length ∧ bitOf c.rsCfg c.ring = true →
    Answers (exec (.rsDataWrite k) s) (fun t =>
      raised s t k 0x06 0 0))

/-- O23. A trigger move that issues with its guard holding leaves in its unit's result port the value of its row of the
destination table for every value moved and every operand: sums and differences modulo 2^40 or limited, the logical
operations, minimum and maximum, absolute value, negation, the five shifts, the six comparisons, the three products,
the accumulators under the 80-bit limit; SAT is set where a limit acted; nothing else of the core changes and it steps
on. A DIV trigger with a nonzero divisor on an idle unit starts the division, which DIV_COMPLETE ends with quotient
and remainder. Where a clause lies on a reading or a choice of the model's own: log entries 57, 62. -/
def Obligations.TriggersComputeTheirResults : Prop :=
  (∀ (k : Fin 32) (m : Move) (c : CoreSt) (v : Word) (s : State),
    issues s k m c v →
    m.dst = 0x29 →
    Answers (exec (.aluT k) s) (fun t =>
      wentOn t k m { c with aluR := w40i (v.toInt + c.aluA.toInt) })) ∧
  (∀ (k : Fin 32) (m : Move) (c : CoreSt) (v : Word) (s : State),
    issues s k m c v →
    m.dst = 0x2A →
    Answers (exec (.aluAdds k) s) (fun t =>
      wentOn t k m
        { c with aluR := w40i (lim40 (v.toInt + c.aluA.toInt)), sat := c.sat || over40 (v.toInt + c.aluA.toInt) })) ∧
  (∀ (k : Fin 32) (m : Move) (c : CoreSt) (v : Word) (s : State),
    issues s k m c v →
    m.dst = 0x2B →
    Answers (exec (.aluSub k) s) (fun t =>
      wentOn t k m { c with aluR := w40i (v.toInt - c.aluA.toInt) })) ∧
  (∀ (k : Fin 32) (m : Move) (c : CoreSt) (v : Word) (s : State),
    issues s k m c v →
    m.dst = 0x2C →
    Answers (exec (.aluSubs k) s) (fun t =>
      wentOn t k m
        { c with aluR := w40i (lim40 (v.toInt - c.aluA.toInt)), sat := c.sat || over40 (v.toInt - c.aluA.toInt) })) ∧
  (∀ (k : Fin 32) (m : Move) (c : CoreSt) (v : Word) (s : State),
    issues s k m c v →
    m.dst = 0x2D →
    Answers (exec (.aluAnd k) s) (fun t =>
      wentOn t k m { c with aluR := (t.hw.core k).aluR } ∧
      (∀ b : Fin 40, bitOf (t.hw.core k).aluR.toNat b = (bitOf v.toNat b && bitOf c.aluA.toNat b)))) ∧
  (∀ (k : Fin 32) (m : Move) (c : CoreSt) (v : Word) (s : State),
    issues s k m c v →
    m.dst = 0x2E →
    Answers (exec (.aluOr k) s) (fun t =>
      wentOn t k m { c with aluR := (t.hw.core k).aluR } ∧
      (∀ b : Fin 40, bitOf (t.hw.core k).aluR.toNat b = (bitOf v.toNat b || bitOf c.aluA.toNat b)))) ∧
  (∀ (k : Fin 32) (m : Move) (c : CoreSt) (v : Word) (s : State),
    issues s k m c v →
    m.dst = 0x2F →
    Answers (exec (.aluXor k) s) (fun t =>
      wentOn t k m { c with aluR := (t.hw.core k).aluR } ∧
      (∀ b : Fin 40, bitOf (t.hw.core k).aluR.toNat b = (bitOf v.toNat b != bitOf c.aluA.toNat b)))) ∧
  (∀ (k : Fin 32) (m : Move) (c : CoreSt) (v : Word) (s : State),
    issues s k m c v →
    m.dst = 0x30 →
    Answers (exec (.aluAndn k) s) (fun t =>
      wentOn t k m { c with aluR := (t.hw.core k).aluR } ∧
      (∀ b : Fin 40, bitOf (t.hw.core k).aluR.toNat b = (bitOf v.toNat b && !bitOf c.aluA.toNat b)))) ∧
  (∀ (k : Fin 32) (m : Move) (c : CoreSt) (v : Word) (s : State),
    issues s k m c v →
    m.dst = 0x31 →
    Answers (exec (.aluMin k) s) (fun t =>
      wentOn t k m { c with aluR := w40i (min v.toInt c.aluA.toInt) })) ∧
  (∀ (k : Fin 32) (m : Move) (c : CoreSt) (v : Word) (s : State),
    issues s k m c v →
    m.dst = 0x32 →
    Answers (exec (.aluMax k) s) (fun t =>
      wentOn t k m { c with aluR := w40i (max v.toInt c.aluA.toInt) })) ∧
  (∀ (k : Fin 32) (m : Move) (c : CoreSt) (v : Word) (s : State),
    issues s k m c v →
    m.dst = 0x33 →
    Answers (exec (.aluAbss k) s) (fun t =>
      wentOn t k m
        { c with aluR := w40i (lim40 (max v.toInt (-v.toInt))), sat := c.sat || over40 (max v.toInt (-v.toInt)) })) ∧
  (∀ (k : Fin 32) (m : Move) (c : CoreSt) (v : Word) (s : State),
    issues s k m c v →
    m.dst = 0x34 →
    Answers (exec (.aluNegs k) s) (fun t =>
      wentOn t k m { c with aluR := w40i (lim40 (-v.toInt)), sat := c.sat || over40 (-v.toInt) })) ∧
  (∀ (k : Fin 32) (m : Move) (c : CoreSt) (v : Word) (s : State),
    issues s k m c v →
    m.dst = 0x36 →
    Answers (exec (.shfT k) s) (fun t =>
      wentOn t k m { c with shfR := w40 (v.toNat * 2 ^ (c.shfA.toNat % 64)) })) ∧
  (∀ (k : Fin 32) (m : Move) (c : CoreSt) (v : Word) (s : State),
    issues s k m c v →
    m.dst = 0x37 →
    Answers (exec (.shfShr k) s) (fun t =>
      wentOn t k m { c with shfR := w40 (v.toNat / 2 ^ (c.shfA.toNat % 64)) })) ∧
  (∀ (k : Fin 32) (m : Move) (c : CoreSt) (v : Word) (s : State),
    issues s k m c v →
    m.dst = 0x38 →
    Answers (exec (.shfSar k) s) (fun t =>
      wentOn t k m { c with shfR := w40i (v.toInt / 2 ^ (c.shfA.toNat % 64)) })) ∧
  (∀ (k : Fin 32) (m : Move) (c : CoreSt) (v : Word) (s : State),
    issues s k m c v →
    m.dst = 0x39 →
    Answers (exec (.shfSarr k) s) (fun t =>
      wentOn t k m { c with shfR := w40i ((2 * v.toInt + 2 ^ (c.shfA.toNat % 64)) / 2 ^ ((c.shfA.toNat % 64) + 1)) })) ∧
  (∀ (k : Fin 32) (m : Move) (c : CoreSt) (v : Word) (s : State),
    issues s k m c v →
    m.dst = 0x3A →
    Answers (exec (.shfShls k) s) (fun t =>
      wentOn t k m
        { c with shfR := w40i (lim40 (v.toInt * 2 ^ (c.shfA.toNat % 64))), sat := c.sat || over40 (v.toInt * 2 ^ (c.shfA.toNat % 64)) })) ∧
  (∀ (k : Fin 32) (m : Move) (c : CoreSt) (v : Word) (s : State),
    issues s k m c v →
    m.dst = 0x3C →
    Answers (exec (.cmpT k) s) (fun t =>
      wentOn t k m { c with cmpR := if v = c.cmpA then 1 else 0 })) ∧
  (∀ (k : Fin 32) (m : Move) (c : CoreSt) (v : Word) (s : State),
    issues s k m c v →
    m.dst = 0x3D →
    Answers (exec (.cmpNe k) s) (fun t =>
      wentOn t k m { c with cmpR := if v ≠ c.cmpA then 1 else 0 })) ∧
  (∀ (k : Fin 32) (m : Move) (c : CoreSt) (v : Word) (s : State),
    issues s k m c v →
    m.dst = 0x3E →
    Answers (exec (.cmpLt k) s) (fun t =>
      wentOn t k m { c with cmpR := if v.toInt < c.cmpA.toInt then 1 else 0 })) ∧
  (∀ (k : Fin 32) (m : Move) (c : CoreSt) (v : Word) (s : State),
    issues s k m c v →
    m.dst = 0x3F →
    Answers (exec (.cmpGe k) s) (fun t =>
      wentOn t k m { c with cmpR := if c.cmpA.toInt ≤ v.toInt then 1 else 0 })) ∧
  (∀ (k : Fin 32) (m : Move) (c : CoreSt) (v : Word) (s : State),
    issues s k m c v →
    m.dst = 0x40 →
    Answers (exec (.cmpLtu k) s) (fun t =>
      wentOn t k m { c with cmpR := if v.toNat < c.cmpA.toNat then 1 else 0 })) ∧
  (∀ (k : Fin 32) (m : Move) (c : CoreSt) (v : Word) (s : State),
    issues s k m c v →
    m.dst = 0x41 →
    Answers (exec (.cmpGeu k) s) (fun t =>
      wentOn t k m { c with cmpR := if c.cmpA.toNat ≤ v.toNat then 1 else 0 })) ∧
  (∀ (k : Fin 32) (m : Move) (c : CoreSt) (v : Word) (s : State),
    issues s k m c v →
    m.dst = 0x43 →
    Answers (exec (.mulT k) s) (fun t =>
      wentOn t k m
        { c with mulR := w40i (lim40 ((v.toInt * c.mulA.toInt + 2 ^ 30) / 2 ^ 31)), sat := c.sat || over40 ((v.toInt * c.mulA.toInt + 2 ^ 30) / 2 ^ 31) })) ∧
  (∀ (k : Fin 32) (m : Move) (c : CoreSt) (v : Word) (s : State),
    issues s k m c v →
    m.dst = 0x44 →
    Answers (exec (.mulL k) s) (fun t =>
      wentOn t k m { c with mulR := w40i (v.toInt * c.mulA.toInt) })) ∧
  (∀ (k : Fin 32) (m : Move) (c : CoreSt) (v : Word) (s : State),
    issues s k m c v →
    m.dst = 0x45 →
    Answers (exec (.mulH k) s) (fun t =>
      wentOn t k m { c with mulR := w40i (v.toInt * c.mulA.toInt / 2 ^ 40) })) ∧
  (∀ (k : Fin 32) (m : Move) (c : CoreSt) (v : Word) (n : Fin 4) (s : State),
    issues s k m c v →
    m.dst = 0x47 + n.val →
    Answers (exec (.macT k) s) (fun t =>
      wentOn t k m
        { c with sat := c.sat || over80 ((c.accN n).toInt + 2 * v.toInt * c.macA.toInt), acc := (t.hw.core k).acc } ∧
      ((t.hw.core k).accN n).toInt = lim80 ((c.accN n).toInt + 2 * v.toInt * c.macA.toInt) ∧
      (∀ j : Fin 4, j ≠ n → (t.hw.core k).accN j = c.accN j))) ∧
  (∀ (k : Fin 32) (m : Move) (c : CoreSt) (v : Word) (n : Fin 4) (s : State),
    issues s k m c v →
    m.dst = 0x4B + n.val →
    Answers (exec (.macS k) s) (fun t =>
      wentOn t k m
        { c with sat := c.sat || over80 ((c.accN n).toInt - 2 * v.toInt * c.macA.toInt), acc := (t.hw.core k).acc } ∧
      ((t.hw.core k).accN n).toInt = lim80 ((c.accN n).toInt - 2 * v.toInt * c.macA.toInt) ∧
      (∀ j : Fin 4, j ≠ n → (t.hw.core k).accN j = c.accN j))) ∧
  (∀ (k : Fin 32) (m : Move) (c : CoreSt) (v : Word) (n : Fin 4) (s : State),
    issues s k m c v →
    m.dst = 0x4F + n.val →
    Answers (exec (.macZ k) s) (fun t =>
      wentOn t k m { c with sat := c.sat || over80 (2 * v.toInt * c.macA.toInt), acc := (t.hw.core k).acc } ∧
      ((t.hw.core k).accN n).toInt = lim80 (2 * v.toInt * c.macA.toInt) ∧
      (∀ j : Fin 4, j ≠ n → (t.hw.core k).accN j = c.accN j))) ∧
  (∀ (k : Fin 32) (m : Move) (c : CoreSt) (v : Word) (s : State),
    issues s k m c v →
    m.dst = 0x54 →
    c.div = none ∧ c.divA ≠ 0 →
    Answers (exec (.divT k) s) (fun t =>
      wentOn t k m
        { c with div := some { kind := 0, t := v, a := c.divA }, sat := c.sat || decide (v.toInt = -(2 ^ 39) ∧ c.divA.toInt = -1) })) ∧
  (∀ (k : Fin 32) (m : Move) (c : CoreSt) (v : Word) (s : State),
    issues s k m c v →
    m.dst = 0x55 →
    c.div = none ∧ c.divA ≠ 0 →
    Answers (exec (.divQ k) s) (fun t =>
      wentOn t k m
        { c with div := some { kind := 1, t := v, a := c.divA }, sat := c.sat || over40 ((v.toInt * 2 ^ 31).tdiv c.divA.toInt) })) ∧
  (∀ (k : Fin 32) (m : Move) (c : CoreSt) (v : Word) (s : State),
    issues s k m c v →
    m.dst = 0x56 →
    c.div = none ∧ c.divA ≠ 0 →
    Answers (exec (.divU k) s) (fun t =>
      wentOn t k m { c with div := some { kind := 2, t := v, a := c.divA } })) ∧
  (∀ (k : Fin 32) (d : DivOp) (s : State),
    s.hw.clusterRuns (clOf k) = true ∧ s.hw.locked k = false →
    (s.hw.core k).div = some d ∧ d.kind = 0 ∧ d.a ≠ 0 ∧ d.out = none →
    Answers (exec (.divComplete k) s) (fun t =>
      t.hw.core k =
        { s.hw.core k with div := none, divR := w40i (lim40 (d.t.toInt.tdiv d.a.toInt)), divM := w40i (d.t.toInt.tmod d.a.toInt) })) ∧
  (∀ (k : Fin 32) (d : DivOp) (s : State),
    s.hw.clusterRuns (clOf k) = true ∧ s.hw.locked k = false →
    (s.hw.core k).div = some d ∧ d.kind = 1 ∧ d.a ≠ 0 ∧ d.out = none →
    Answers (exec (.divComplete k) s) (fun t =>
      t.hw.core k =
        { s.hw.core k with div := none, divR := w40i (lim40 ((d.t.toInt * 2 ^ 31).tdiv d.a.toInt)), divM := if over40 ((d.t.toInt * 2 ^ 31).tdiv d.a.toInt) then 0 else w40i ((d.t.toInt * 2 ^ 31).tmod d.a.toInt) })) ∧
  (∀ (k : Fin 32) (d : DivOp) (s : State),
    s.hw.clusterRuns (clOf k) = true ∧ s.hw.locked k = false →
    (s.hw.core k).div = some d ∧ d.kind = 2 ∧ d.a ≠ 0 ∧ d.out = none →
    Answers (exec (.divComplete k) s) (fun t =>
      t.hw.core k =
        { s.hw.core k with div := none, divR := w40 (d.t.toNat / d.a.toNat), divM := w40 (d.t.toNat % d.a.toNat) }))

/-- O24. When no division runs, a move into div.t, div.q or div.u with div.a = 0 raises the precise exception DIV_ZERO at that
move; no division starts and div.r, div.m and every other part of the core keep their values. -/
def Obligations.DivisionByZeroRaises : Prop :=
  (∀ (k : Fin 32) (m : Move) (c : CoreSt) (v : Word) (s : State),
    issues s k m c v →
    m.dst = 0x54 →
    c.div = none ∧ c.divA = 0 →
    Answers (exec (.divT k) s) (fun t =>
      raised s t k 0x05 0 0 ∧
      (t.hw.core k).div = none ∧ (t.hw.core k).divR = (s.hw.core k).divR ∧ (t.hw.core k).divM = (s.hw.core k).divM)) ∧
  (∀ (k : Fin 32) (m : Move) (c : CoreSt) (v : Word) (s : State),
    issues s k m c v →
    m.dst = 0x55 →
    c.div = none ∧ c.divA = 0 →
    Answers (exec (.divQ k) s) (fun t =>
      raised s t k 0x05 0 0 ∧
      (t.hw.core k).div = none ∧ (t.hw.core k).divR = (s.hw.core k).divR ∧ (t.hw.core k).divM = (s.hw.core k).divM)) ∧
  (∀ (k : Fin 32) (m : Move) (c : CoreSt) (v : Word) (s : State),
    issues s k m c v →
    m.dst = 0x56 →
    c.div = none ∧ c.divA = 0 →
    Answers (exec (.divU k) s) (fun t =>
      raised s t k 0x05 0 0 ∧
      (t.hw.core k).div = none ∧ (t.hw.core k).divR = (s.hw.core k).divR ∧ (t.hw.core k).divM = (s.hw.core k).divM))

/-- O25. bru.t continues at the value's bits 31:0 and bru.jr relative to the branch address; the calls push the return address,
discarding the oldest entry at depth 16 where RS_CFG permits and raising RS_OVF otherwise; bru.ret pops and continues
there. sys.gate through a good entry stores the four frame words in the own DTCM, takes the entry's ring and continues
at its target; sys.gret through a frame of kind 3 restores ring, predicates, SAT and IEN, releases it and continues at
RET_PC. sys.trap and an unattended sys.brk raise TRAP and BRK at the next packet, an attended sys.brk halts. sys.fence
with nothing buffered steps on; sys.pred acts on BTT, RAP and BAR once its packet ends; sys.wait waits and CORE_WAKE
ends the wait; evp.t launches. A repeat prefix sets RPT_CNT and the body. Where a clause lies on a reading or a choice
of the model's own: log entries 57, 59, 65, 68. -/
def Obligations.ControlMovesTransfer : Prop :=
  (∀ (k : Fin 32) (m : Move) (c : CoreSt) (v : Word) (s : State),
    issues s k m c v →
    m.dst = 0x63 →
    Answers (exec (.bruT k) s) (fun t =>
      jumpedTo t k c (v.toNat))) ∧
  (∀ (k : Fin 32) (m : Move) (c : CoreSt) (v : Word) (s : State),
    issues s k m c v →
    m.dst = 0x64 →
    Answers (exec (.bruJr k) s) (fun t =>
      jumpedTo t k c (c.pc + v.toNat))) ∧
  (∀ (k : Fin 32) (m : Move) (c : CoreSt) (v : Word) (s : State),
    issues s k m c v →
    m.dst = 0x65 →
    c.rs.length < 16 →
    Answers (exec (.bruCall k) s) (fun t =>
      jumpedTo t k { c with rs := c.after m.kind :: c.rs } (v.toNat))) ∧
  (∀ (k : Fin 32) (m : Move) (c : CoreSt) (v : Word) (s : State),
    issues s k m c v →
    m.dst = 0x65 →
    c.rs.length = 16 ∧ bitOf c.rsCfg c.ring = false →
    Answers (exec (.bruCall k) s) (fun t =>
      jumpedTo t k { c with rs := (c.after m.kind :: c.rs).take 16, rsWrapped := true } (v.toNat))) ∧
  (∀ (k : Fin 32) (m : Move) (c : CoreSt) (v : Word) (s : State),
    issues s k m c v →
    m.dst = 0x66 →
    c.rs.length < 16 →
    Answers (exec (.bruCallr k) s) (fun t =>
      jumpedTo t k { c with rs := c.after m.kind :: c.rs } (c.pc + v.toNat))) ∧
  (∀ (k : Fin 32) (m : Move) (c : CoreSt) (v : Word) (s : State),
    issues s k m c v →
    m.dst = 0x66 →
    16 ≤ c.rs.length ∧ bitOf c.rsCfg c.ring = true →
    Answers (exec (.bruCallr k) s) (fun t =>
      raised s t k 0x06 0 0)) ∧
  (∀ (k : Fin 32) (m : Move) (c : CoreSt) (v : Word) (a : Nat) (rest : List Nat) (s : State),
    issues s k m c v →
    m.dst = 0x67 →
    c.rs = a :: rest →
    Answers (exec (.bruRet k) s) (fun t =>
      jumpedTo t k { c with rs := rest } a)) ∧
  (∀ (k : Fin 32) (m : Move) (c : CoreSt) (v : Word) (s : State),
    issues s k m c v →
    m.dst = 0x70 →
    s.gateCheck k (s.gateEntry k (v.toNat % 256)) = 0 ∧ c = s.hw.core k ∧ c.ring < 4 ∧ s.hw.xfp k % 4 = 0 →
    Answers (exec (.sysGate k) s) (fun t =>
      jumpedTo t k { c with ring := bitsOf (s.gateEntry k (v.toNat % 256)).toNat 32 2 } (bitsOf (s.gateEntry k
        (v.toNat % 256)).toNat 0 32) ∧
      t.hw.xfp k = s.hw.xfp k - 4 ∧
      t.rd (tcm k (s.hw.xfp k - 3)) = w40 (c.after m.kind) ∧ t.rd (tcm k (s.hw.xfp k - 1)) = w40 (c.preds - c.preds
        % 2) ∧
      bitsOf (t.rd (tcm k (s.hw.xfp k - 4))).toNat 36 4 = 3 ∧ bitsOf (t.rd (tcm k (s.hw.xfp k - 4))).toNat 34 2 =
        c.ring)) ∧
  (∀ (k : Fin 32) (m : Move) (c : CoreSt) (v : Word) (s : State),
    issues s k m c v →
    m.dst = 0x71 ∧ c.fenced = true ∧ c = s.hw.core k →
    s.gretCheck k = 0 ∧ bitsOf (s.rd (tcm k (s.hw.xfp k))).toNat 36 4 = 3 ∧ s.hw.swAt = [] →
    Answers (exec (.sysGret k) s) (fun t =>
      (t.hw.core k).ring = bitsOf (s.rd (tcm k (s.hw.xfp k))).toNat 34 2 ∧
      (t.hw.core k).pc = (s.rd (tcm k (s.hw.xfp k + 1))).toNat % 2 ^ 32 ∧ (t.hw.core k).half = bitOf (s.rd (tcm k
        (s.hw.xfp k))).toNat 13 ∧
      (t.hw.core k).preds = bitsOf (s.rd (tcm k (s.hw.xfp k + 3))).toNat 1 7 * 2 + 1 ∧
      (t.hw.core k).sat = bitOf (s.rd (tcm k (s.hw.xfp k))).toNat 10 ∧ t.hw.ien k = bitOf (s.rd (tcm k (s.hw.xfp
        k))).toNat 9 ∧
      t.hw.xfp k = (s.hw.xfp k + 4) % 2 ^ 32 ∧
      (t.hw.core k).v = c.v ∧ (t.hw.core k).acc = c.acc ∧ (t.hw.core k).rs = c.rs)) ∧
  (∀ (k : Fin 32) (m : Move) (c : CoreSt) (v : Word) (s : State),
    issues s k m c v →
    m.dst = 0x74 →
    Answers (exec (.sysTrap k) s) (fun t =>
      t.hw.core k = frontOf (t.hw.core k)
        { c with exc := some ⟨0x09, v.toNat % 256, 0, (c.pc + 1) % 2 ^ 32, false⟩, entered := none })) ∧
  (∀ (k : Fin 32) (m : Move) (c : CoreSt) (v : Word) (s : State),
    issues s k m c v →
    m.dst = 0x75 →
    s.hw.debugOpen = false ∨ s.hw.b pDBG 0 DBG_STATUS_ATTACHED = false →
    Answers (exec (.sysBrk k) s) (fun t =>
      t.hw.core k = frontOf (t.hw.core k)
        { c with exc := some ⟨0x0A, 0, 0, (c.pc + 1) % 2 ^ 32, false⟩, entered := none })) ∧
  (∀ (k : Fin 32) (m : Move) (c : CoreSt) (v : Word) (s : State),
    issues s k m c v →
    m.dst = 0x75 →
    s.hw.debugOpen = true ∧ s.hw.b pDBG 0 DBG_STATUS_ATTACHED = true →
    Answers (exec (.sysBrk k) s) (fun t =>
      jumpedTo t k { c with halted := true } (c.after m.kind))) ∧
  (∀ (k : Fin 32) (m : Move) (c : CoreSt) (v : Word) (s : State),
    issues s k m c v →
    m.dst = 0x6F →
    c.sb = [] ∧ c.cpy = none →
    Answers (exec (.sysFence k) s) (fun t =>
      wentOn t k m c)) ∧
  (∀ (k : Fin 32) (m : Move) (c : CoreSt) (v : Word) (s : State),
    issues s k m c v →
    m.dst = 0x6F →
    c.sb ≠ [] ∨ c.cpy.isSome = true →
    Answers (exec (.sysFence k) s) (fun t =>
      t = s)) ∧
  (∀ (k : Fin 32) (m : Move) (c : CoreSt) (v : Word) (s : State),
    issues s k m c v →
    m.dst = 0x72 →
    v = 0 →
    Answers (exec (.predFlush k) s) (fun t =>
      wentOn t k m c ∧
      (leaves m c ∧ c.predOps = [] → (t.hw.core k).btt = [] ∧ (t.hw.core k).rap = []) ∧
      (¬leaves m c → (t.hw.core k).predOps = c.predOps ++ [0]))) ∧
  (∀ (k : Fin 32) (m : Move) (c : CoreSt) (v : Word) (s : State),
    issues s k m c v →
    m.dst = 0x72 →
    v = 1 ∧ c.ring < 2 →
    Answers (exec (.predBar k) s) (fun t =>
      wentOn t k m c ∧
      (leaves m c ∧ c.predOps = [] → t.hw.f (corePage k) 0 CORE_STATUS_BAR = 1) ∧
      (¬leaves m c → (t.hw.core k).predOps = c.predOps ++ [1] ∧ t.hw.f (corePage k) 0 CORE_STATUS_BAR = s.hw.f
        (corePage k) 0 CORE_STATUS_BAR))) ∧
  (∀ (k : Fin 32) (m : Move) (c : CoreSt) (v : Word) (s : State),
    issues s k m c v →
    m.dst = 0x72 →
    v = 1 ∧ 2 ≤ c.ring →
    Answers (exec (.predBar k) s) (fun t =>
      raised s t k 0x02 0x10 0)) ∧
  (∀ (k : Fin 32) (m : Move) (c : CoreSt) (v : Word) (s : State),
    issues s k m c v →
    m.dst = 0x72 →
    v = 2 →
    Answers (exec (.predSync k) s) (fun t =>
      wentOn t k m c ∧
      (leaves m c ∧ c.predOps = [] → (t.hw.core k).rap = c.rs.take 8) ∧
      (¬leaves m c → (t.hw.core k).predOps = c.predOps ++ [2]))) ∧
  (∀ (k : Fin 32) (m : Move) (c : CoreSt) (v : Word) (s : State),
    issues s k m c v →
    m.dst = 0x72 →
    v = 3 ∧ c.ring < 2 →
    Answers (exec (.predRelease k) s) (fun t =>
      wentOn t k m c ∧
      (leaves m c ∧ c.predOps = [] → t.hw.f (corePage k) 0 CORE_STATUS_BAR = 0) ∧
      (¬leaves m c → (t.hw.core k).predOps = c.predOps ++ [3]))) ∧
  (∀ (k : Fin 32) (m : Move) (c : CoreSt) (v : Word) (s : State),
    issues s k m c v →
    m.dst = 0x73 →
    Answers (exec (.sysWait k) s) (fun t =>
      wentOn t k m c ∧
      t.hw.isWaiting k = true ∧
      t.hw.f (corePage k) 0 CORE_STATUS_WAITING = 1)) ∧
  (∀ (k : Fin 32) (s : State),
    s.hw.clusterRuns (clOf k) = true ∧ s.hw.isWaiting k = true →
    (s.hw.presentedSrc (clOf k) (noOf k)).isSome = true ∨ (s.hw.core k).evp ≠ 0 ∨ (s.hw.core k).haltReq = true →
    Answers (exec (.coreWake k) s) (fun t =>
      t.hw.isWaiting k = false ∧ t.hw.f (corePage k) 0 CORE_STATUS_WAITING = 0 ∧
      t.hw.core k = s.hw.core k)) ∧
  (∀ (k : Fin 32) (m : Move) (c : CoreSt) (v : Word) (j : Fin 4) (s : State),
    issues s k m c v →
    m.dst = 0x6A →
    v.toNat % 16 = 2 ^ j.val →
    Answers (exec (.evpT k) s) (fun t =>
      wentOn t k m c ∧
      t.hw.flights = (s.hw.launch (clCode (clOf k) (0x0D0 + 4 * noOf k + j))).flights)) ∧
  (∀ (k : Fin 32) (r : Rpt) (w : Word) (s : State),
    s.hw.canIssue k = true ∧ s.next k = .code (.rpt r) ∧ (s.hw.core k).holds r.guard r.inv = true →
    s.fetch k (((s.hw.core k).pc + 1) % 2 ^ 32) = .word w ∧ badPacket w = false ∧ r.csrc = false →
    Answers (exec (.rptPrefix k) s) (fun t =>
      t.hw.core k = frontOf (t.hw.core k)
        { s.hw.core k with pc := ((s.hw.core k).pc + 1) % 2 ^ 32, half := false, rpt := some (((s.hw.core k).pc + 1) % 2 ^ 32), rptInt := r.int, rptCnt := r.count + 1, entered := none })) ∧
  (∀ (k : Fin 32) (r : Rpt) (w : Word) (s : State),
    s.hw.canIssue k = true ∧ s.next k = .code (.rpt r) ∧ badPacket w = true →
    s.fetch k (((s.hw.core k).pc + 1) % 2 ^ 32) = .word w →
    Answers (exec (.rptPrefix k) s) (fun t =>
      raised s t k 0x01 0 0))

/-- O26. In every ring, bru.ret with the return stack empty raises the precise exception RS_EMPTY at the move; nothing is
popped and the core stands where it stood. A read of RS_DATA then does the same. -/
def Obligations.PopOfAnEmptyReturnStack : Prop :=
  (∀ (k : Fin 32) (m : Move) (c : CoreSt) (v : Word) (s : State),
    issues s k m c v →
    m.dst = 0x67 →
    c.rs = [] ∧ c = s.hw.core k →
    Answers (exec (.bruRet k) s) (fun t =>
      raised s t k 0x07 0 0 ∧
      (t.hw.core k).rs = [] ∧ (t.hw.core k).pc = (s.hw.core k).pc)) ∧
  (∀ (k : Fin 32) (m : Move) (s : State),
    s.hw.canIssue k = true ∧ s.next k = .code (.move m) ∧ (s.hw.core k).holds m.guard m.inv = true →
    m.src = .code 0x206 ∧ (s.hw.core k).rs = [] →
    Answers (exec (.rsDataRead k) s) (fun t =>
      raised s t k 0x07 0 0))

/-- O27. lsu.t, lsu.ldi and an aligned lsu.ldd from plain memory take the addressed words (ldi adding T to A); LOAD_RETURN
delivers them in order. A load covered exactly by a buffered store takes its words; one of a page, with the buffer
empty, holds the core, which has moved on, until LOAD_RETURN reads the page; a failing one raises BUS_ERR. lsu.st, sti
and std put one entry (an odd std two) into the store buffer, sti incrementing B; STORE_DRAIN writes the oldest
entry's words and nothing else, or queues STORE_FAULT. cpy.t starts a copy, CPY_COMPLETE of its last word writes that
word and reads 0, of a failing word leaves the count and queues CPY_FAULT. FETCH_FILL_DONE of the fill under way takes
the line; INV_ALL and INV_LINE drop lines. Where a clause lies on a reading or a choice of the model's own: log
entries 60, 61, 63, 67. -/
def Obligations.LoadsStoresAndCopies : Prop :=
  (∀ (k : Fin 32) (m : Move) (c : CoreSt) (v : Word) (g : Nat) (s : State),
    issues s k m c v →
    m.dst = 0x5D →
    c.cpy = none →
    plainLoad s k c (c.lsuA.toNat + v.toNat) g →
    Answers (exec (.lsuT k) s) (fun t =>
      wentOn t k m { c with loads := c.loads ++ [⟨[s.rd g]⟩] })) ∧
  (∀ (k : Fin 32) (m : Move) (c : CoreSt) (v : Word) (g : Nat) (s : State),
    issues s k m c v →
    m.dst = 0x5E →
    c.cpy = none →
    plainLoad s k c (c.lsuA.toNat) g →
    Answers (exec (.lsuLdi k) s) (fun t =>
      wentOn t k m { c with lsuA := w40 ((c.lsuA.toNat + v.toNat) % 2 ^ 32), loads := c.loads ++ [⟨[s.rd g]⟩] })) ∧
  (∀ (k : Fin 32) (m : Move) (c : CoreSt) (v : Word) (g g2 : Nat) (s : State),
    issues s k m c v →
    m.dst = 0x5F →
    c.cpy = none →
    plainLoad s k c (c.lsuA.toNat + v.toNat) g ∧ plainLoad s k c (c.lsuA.toNat + v.toNat + 1) g2 →
    Answers (exec (.lsuLdd k) s) (fun t =>
      wentOn t k m { c with loads := c.loads ++ [⟨[s.rd g, s.rd g2]⟩] })) ∧
  (∀ (k : Fin 32) (m : Move) (c : CoreSt) (v : Word) (older : List Store) (e : Store) (g : Nat) (s : State),
    issues s k m c v →
    m.dst = 0x5D →
    c.cpy = none ∧ c.sb = older ++ [e] ∧ e.words.length = 1 →
    e.addr % 2 ^ 32 = e.addr ∧ placeOf (.core k) e.addr = placeOf (.core k) ((c.lsuA.toNat + v.toNat) % 2 ^ 32) →
    placeOf (.core k) e.addr = .word g ∧ s.hw.accessFault k c.ring 0 (.word g) = 0 →
    Answers (exec (.lsuT k) s) (fun t =>
      wentOn t k m { c with loads := c.loads ++ [⟨e.words⟩] })) ∧
  (∀ (k : Fin 32) (m : Move) (c : CoreSt) (v : Word) (p : Page) (off : Nat) (s : State),
    issues s k m c v →
    m.dst = 0x5D →
    c.cpy = none ∧ c.sb = [] →
    placeOf (.core k) ((c.lsuA.toNat + v.toNat) % 2 ^ 32) = .page p off ∧ s.hw.stopped p = false →
    Answers (exec (.lsuT k) s) (fun t =>
      wentOn t k m
        { c with openLoad := some { addr := (c.lsuA.toNat + v.toNat) % 2 ^ 32, dbl := false, next := none, ring := c.ring, pc := c.pc, half := c.half, rpt := c.rpt, rptInt := c.rptInt, rptCnt := c.rptCnt } })) ∧
  (∀ (k : Fin 32) (m : Move) (c : CoreSt) (v : Word) (r : Nat) (s : State),
    issues s k m c v →
    m.dst = 0x5D →
    c.cpy = none ∧ s.hw.accessFault k c.ring 0 (placeOf (.core k) ((c.lsuA.toNat + v.toNat) % 2 ^ 32)) = r ∧ r ≠ 0 →
    Answers (exec (.lsuT k) s) (fun t =>
      raised s t k 0x03 r ((c.lsuA.toNat + v.toNat) % 2 ^ 32))) ∧
  (∀ (k : Fin 32) (x : Word) (rest : List Load) (s : State),
    s.hw.clusterRuns (clOf k) = true ∧ (s.hw.core k).openLoad = none ∧ (s.hw.core k).loads = ⟨[x]⟩ :: rest →
    Answers (exec (.loadReturn k) s) (fun t =>
      t.hw.core k = { s.hw.core k with loads := rest, lsuR := x })) ∧
  (∀ (k : Fin 32) (x y : Word) (rest : List Load) (s : State),
    s.hw.clusterRuns (clOf k) = true ∧ (s.hw.core k).openLoad = none ∧ (s.hw.core k).loads = ⟨[x, y]⟩ :: rest →
    Answers (exec (.loadReturn k) s) (fun t =>
      t.hw.core k = { s.hw.core k with loads := rest, lsuR := x, lsuRh := y })) ∧
  (∀ (k : Fin 32) (l : OpenLoad) (p : Page) (off : Nat) (s : State),
    s.hw.clusterRuns (clOf k) = true ∧ (s.hw.core k).openLoad = some l ∧ l.dbl = false ∧ l.addr < 2 ^ 32 →
    placeOf (.core k) l.addr = .page p off ∧ s.hw.stopped p = false ∧ (s.hw.core k).loads = [] →
    Answers (exec (.loadReturn k) s) (fun t =>
      (t.hw.core k).lsuR = (s.pageRead ⟨.core k, l.ring⟩ p off).2.2 ∧
      (t.hw.core k).openLoad = none ∧ (t.hw.core k).lsuRh = (s.hw.core k).lsuRh)) ∧
  (∀ (k : Fin 32) (m : Move) (c : CoreSt) (v : Word) (s : State),
    issues s k m c v →
    m.dst = 0x60 →
    c.cpy = none ∧ c.sb.length < 4 →
    Answers (exec (.lsuSt k) s) (fun t =>
      wentOn t k m { c with sb := c.sb ++ [{ addr := c.lsuB.toNat % 2 ^ 32, words := [v], ring := c.ring }] })) ∧
  (∀ (k : Fin 32) (m : Move) (c : CoreSt) (v : Word) (s : State),
    issues s k m c v →
    m.dst = 0x61 →
    c.cpy = none ∧ c.sb.length < 4 →
    Answers (exec (.lsuSti k) s) (fun t =>
      wentOn t k m
        { c with sb := c.sb ++ [{ addr := c.lsuB.toNat % 2 ^ 32, words := [v], ring := c.ring }], lsuB := w40 ((c.lsuB.toNat + 1) % 2 ^ 32) })) ∧
  (∀ (k : Fin 32) (m : Move) (c : CoreSt) (v : Word) (s : State),
    issues s k m c v →
    m.dst = 0x62 →
    c.cpy = none ∧ c.sb.length < 4 →
    c.lsuB.toNat % 2 = 0 →
    Answers (exec (.lsuStd k) s) (fun t =>
      wentOn t k m
        { c with sb := c.sb ++ [{ addr := c.lsuB.toNat % 2 ^ 32, words := [v, c.lsuH], ring := c.ring }] })) ∧
  (∀ (k : Fin 32) (m : Move) (c : CoreSt) (v : Word) (s : State),
    issues s k m c v →
    m.dst = 0x62 →
    c.cpy = none ∧ c.sb.length < 3 →
    c.lsuB.toNat % 2 = 1 →
    s.hw.accessFault k c.ring 1 (placeOf (.core k) (c.lsuB.toNat % 2 ^ 32)) = 0 ∧ s.hw.accessFault k c.ring 1
      (placeOf (.core k) ((c.lsuB.toNat + 1) % 2 ^ 32)) = 0 →
    Answers (exec (.lsuStd k) s) (fun t =>
      wentOn t k m
        { c with sb := c.sb ++ [{ addr := c.lsuB.toNat % 2 ^ 32, words := [v], ring := c.ring }, { addr := (c.lsuB.toNat + 1) % 2 ^ 32, words := [c.lsuH], ring := c.ring, upper := true }] })) ∧
  (∀ (k : Fin 32) (m : Move) (c : CoreSt) (v : Word) (r : Nat) (s : State),
    issues s k m c v →
    m.dst = 0x62 →
    c.cpy = none ∧ c.sb.length < 3 ∧ c.lsuB.toNat % 2 = 1 ∧ c.faults.length < 5 →
    s.hw.accessFault k c.ring 1 (placeOf (.core k) (c.lsuB.toNat % 2 ^ 32)) = r ∧ r ≠ 0 →
    Answers (exec (.lsuStd k) s) (fun t =>
      wentOn t k m { c with faults := c.faults ++ [⟨0x04, r⟩] })) ∧
  (∀ (k : Fin 32) (e : Store) (rest : List Store) (d : Word) (g : Nat) (s : State),
    s.hw.clusterRuns (clOf k) = true ∧ (s.hw.core k).sb = e :: rest ∧ e.words = [d] →
    s.hw.b pSNAP 0 SNAP_STATUS_CAPTURING = false ∨ e.marked = true →
    placeOf (.core k) (e.addr % 2 ^ 32) = .word g ∧ s.hw.accessFault k e.ring 1 (.word g) = 0 →
    Answers (exec (.storeDrain k) s) (fun t =>
      (t.rd g = d ∧ ∀ a, a ≠ g → t.rd a = s.rd a) ∧
      t.hw.core k = { s.hw.core k with sb := rest })) ∧
  (∀ (k : Fin 32) (e : Store) (rest : List Store) (d : Word) (r : Nat) (s : State),
    s.hw.clusterRuns (clOf k) = true ∧ (s.hw.core k).sb = e :: rest ∧ e.words = [d] ∧ e.upper = false →
    s.hw.b pSNAP 0 SNAP_STATUS_CAPTURING = false ∨ e.marked = true →
    s.hw.accessFault k e.ring 1 (placeOf (.core k) (e.addr % 2 ^ 32)) = r ∧ r ≠ 0 ∧ (s.hw.core k).faults.length < 5
      →
    Answers (exec (.storeDrain k) s) (fun t =>
      (∀ a, t.rd a = s.rd a) ∧
      t.hw.core k = { s.hw.core k with sb := rest, faults := (s.hw.core k).faults ++ [⟨0x04, r⟩] })) ∧
  (∀ (k : Fin 32) (e : Store) (rest : List Store) (s : State),
    (s.hw.core k).sb = e :: rest ∧ e.marked = false ∧ s.hw.b pSNAP 0 SNAP_STATUS_CAPTURING = true →
    Answers (exec (.storeDrain k) s) (fun t =>
      t = s)) ∧
  (∀ (k : Fin 32) (m : Move) (c : CoreSt) (v : Word) (s : State),
    issues s k m c v →
    m.dst = 0x59 →
    c.cpy = none ∧ v.toNat % 2 ^ 24 ≠ 0 →
    Answers (exec (.cpyT k) s) (fun t =>
      wentOn t k m { c with cpy := some ⟨c.cpyS.toNat % 2 ^ 32, c.cpyD.toNat % 2 ^ 32, v.toNat % 2 ^ 24, c.ring⟩ })) ∧
  (∀ (k : Fin 32) (m : Move) (c : CoreSt) (v : Word) (s : State),
    issues s k m c v →
    m.dst = 0x59 →
    c.cpy = none ∧ v.toNat % 2 ^ 24 = 0 →
    Answers (exec (.cpyT k) s) (fun t =>
      wentOn t k m { c with cpyR := 0 })) ∧
  (∀ (k : Fin 32) (x : CopyOp) (g g2 : Nat) (w : Word) (s : State),
    s.hw.clusterRuns (clOf k) = true ∧ (s.hw.core k).sb = [] ∧ s.hw.b pSNAP 0 SNAP_STATUS_CAPTURING = false →
    s.hw.locked k = false ∧ (s.hw.core k).cpy = some x ∧ x.count = 1 ∧ placeOf (.core k) x.src = .word g ∧ placeOf
      (.core k) x.dst = .word g2 →
    s.hw.accessFault k x.ring 0 (.word g) = 0 ∧ s.hw.accessFault k x.ring 1 (.word g2) = 0 →
    memKind g ≠ .flash ∧ s.seenWord g = .data w →
    Answers (exec (.cpyComplete k) s) (fun t =>
      (t.rd g2 = w ∧ ∀ a, a ≠ g2 → t.rd a = s.rd a) ∧
      t.hw.core k = { s.hw.core k with cpy := none, cpyR := 0 })) ∧
  (∀ (k : Fin 32) (x : CopyOp) (s : State),
    s.hw.clusterRuns (clOf k) = true ∧ (s.hw.core k).sb = [] ∧ s.hw.b pSNAP 0 SNAP_STATUS_CAPTURING = false →
    s.hw.locked k = false ∧ (s.hw.core k).cpy = some x ∧ 0 < x.count ∧ x.count < 2 ^ 24 ∧ placeOf (.core k) x.src =
      .unmapped ∧ (s.hw.core k).faults.length < 5 →
    Answers (exec (.cpyComplete k) s) (fun t =>
      (∀ a, t.rd a = s.rd a) ∧
      t.hw.core k =
        { s.hw.core k with cpy := none, cpyR := w40 x.count, faults := (s.hw.core k).faults ++ [⟨0x08, 5⟩] })) ∧
  (∀ (k : Fin 32) (a : BitVec 32) (g : Nat) (caching : Bool) (s : State),
    s.hw.clusterRuns (clOf k) = true ∧ placeOf (.core k) a.toNat = .word g ∧ lineRegion k g = true ∧ s.hw.memStopped
      g = false →
    s.hw.flashBusyAt (.word g) = false ∧ (s.hw.core k).fill = some ⟨g / 8 * 8, caching⟩ →
    Answers (exec (.fetchFillDone k a) s) (fun t =>
      (t.hw.core k).lines.head? = some (s.lineAt g) ∧ (t.hw.core k).lines.length ≤ 2 ∧
      (caching = true → ((t.hw.core k).cache.at [] (g / 8 * 8 / 8 % 128)).head? = some (s.lineAt g)) ∧
      (t.hw.core k).pc = (s.hw.core k).pc ∧ (t.hw.core k).half = (s.hw.core k).half)) ∧
  (∀ (w : Requester) (k : Fin 32) (d : Word) (s : State),
    accepts s.hw w (corePage k) = true →
    Answers (exec (.invAll w k d) s) (fun t =>
      (t.hw.core k).lines = [] ∧ (t.hw.core k).cache = [] ∧ (t.hw.core k).invUntil = s.hw.now + 43)) ∧
  (∀ (w : Requester) (k : Fin 32) (d : Word) (g : Nat) (s : State),
    accepts s.hw w (corePage k) = true ∧ bitOf d.toNat 0 = false →
    placeOf (.core k) (s.hw.f (corePage k) 0 CORE_ICADDR_ADDR) = .word g →
    Answers (exec (.invLine w k d) s) (fun t =>
      (t.hw.core k).lines = (s.hw.core k).lines.filter (fun l => l.addr != g / 8 * 8) ∧
      ((t.hw.core k).cache.at [] (g / 8 % 128)) = ((s.hw.core k).cache.at [] (g / 8 % 128)).filter (fun l => l.addr
        != g / 8 * 8))) ∧
  (∀ (k : Fin 32) (j : Fin 2) (s : State) (a : Arrival),
    s.hw.clusterRuns (clOf k) = true ∧ (s.hw.arrive a (clOf k * 4096 + 0x060 + 2 * noOf k + j) true).2 = true →
    Answers (exec (.evpInputArrival k j a) s) (fun t =>
      bitOf (t.hw.core k).evp j = true))

/-- O28. EXCEPTION_ENTRY with a precise exception raised, or with the oldest imprecise one at a boundary, and INTERRUPT_ENTRY
with IEN = 1 and a source presented: XFP falls by 16, FRAME holds kind, old ring, code, INFO, HALF, SAT and IEN, words
1 to 3 hold RET_PC, FADDR and the predicates, the core goes on at XVEC or IVEC in the entry ring with RPT_CNT 0, an
interrupt clearing IEN; a division or copy in progress is saved and both units are idle reading 0; general registers,
accumulators and the return stack stay. With IEN = 0 no interrupt enters. A frame that does not fit locks the core up
with cause 1 and drops its queued faults. Where a clause lies on a reading or a choice of the model's own: log entries
63, 64, 66. -/
def Obligations.EntriesSaveAndEnter : Prop :=
  (∀ (k : Fin 32) (copied : Nat) (x : Precise) (s : State),
    s.hw.canEnter k = true ∧ (s.hw.core k).exc = some x ∧ s.hw.frameFits k 16 = true →
    (s.hw.core k).cpy = none ∧ (s.hw.core k).div = none →
    Answers (exec (.exceptionEntry k copied) s) (fun t =>
      (t.hw.core k).ring = min (s.hw.core k).ring (min 1 (s.hw.f (pDIC (clOf k)) 0 (DIC_CORE_XCFG_XRING (noOf k)))) ∧
      (t.hw.core k).pc = s.hw.f (pDIC (clOf k)) 0 (DIC_CORE_XVEC_ADDR (noOf k)) ∧ (t.hw.core k).half = false ∧
        (t.hw.core k).rptCnt = 0 ∧
      (t.hw.core k).exc = none ∧ t.hw.ien k = s.hw.ien k ∧
      t.hw.xfp k = s.hw.xfp k - 16 ∧
      frameBits t k (s.hw.xfp k - 16) 0 36 4 = 1 ∧ frameBits t k (s.hw.xfp k - 16) 0 24 8 = x.code % 256 ∧ frameBits
        t k (s.hw.xfp k - 16) 0 16 8 = x.info % 256 ∧
      frameBits t k (s.hw.xfp k - 16) 0 34 2 = (s.hw.core k).ring % 4 ∧ frameBits t k (s.hw.xfp k - 16) 0 13 1 = b2n
        x.half ∧
      frameBits t k (s.hw.xfp k - 16) 0 10 1 = b2n (s.hw.core k).sat ∧ frameBits t k (s.hw.xfp k - 16) 0 9 1 = b2n
        (s.hw.ien k) ∧
      t.rd (tcm k (s.hw.xfp k - 15)) = w40 x.retPc ∧ t.rd (tcm k (s.hw.xfp k - 14)) = w40 x.faddr ∧
      t.rd (tcm k (s.hw.xfp k - 13)) = w40 ((s.hw.core k).preds - (s.hw.core k).preds % 2) ∧
      (t.hw.core k).v = (s.hw.core k).v ∧ (t.hw.core k).acc = (s.hw.core k).acc ∧ (t.hw.core k).rs = (s.hw.core
        k).rs ∧ (t.hw.core k).sb = (s.hw.core k).sb)) ∧
  (∀ (k : Fin 32) (copied : Nat) (x : Imprecise) (rest : List Imprecise) (s : State),
    s.hw.canEnter k = true ∧ (s.hw.core k).exc = none ∧ (s.hw.core k).faults = x :: rest ∧ s.boundary k false = true
      →
    s.hw.frameFits k 16 = true ∧ (s.hw.core k).cpy = none ∧ s.fetchBusy k = false →
    Answers (exec (.exceptionEntry k copied) s) (fun t =>
      (t.hw.core k).faults = rest ∧
      (t.hw.core k).pc = s.hw.f (pDIC (clOf k)) 0 (DIC_CORE_XVEC_ADDR (noOf k)) ∧
      frameBits t k (s.hw.xfp k - 16) 0 24 8 = x.code % 256 ∧ frameBits t k (s.hw.xfp k - 16) 0 16 8 = x.info % 256 ∧
      t.rd (tcm k (s.hw.xfp k - 15)) = w40 (s.hw.core k).pc)) ∧
  (∀ (k : Fin 32) (copied : Nat) (x : Precise) (d : DivOp) (s : State),
    s.hw.canEnter k = true ∧ (s.hw.core k).exc = some x ∧ s.hw.frameFits k 16 = true →
    (s.hw.core k).cpy = none ∧ (s.hw.core k).div = some d ∧ d.kind < 3 ∧ d.steps < 22 →
    Answers (exec (.exceptionEntry k copied) s) (fun t =>
      (t.hw.core k).div = none ∧ (t.hw.core k).divR = 0 ∧ (t.hw.core k).divM = 0 ∧
      frameBits t k (s.hw.xfp k - 16) 0 12 1 = 1 ∧ frameBits t k (s.hw.xfp k - 16) 4 6 2 = d.kind ∧
      t.rd (tcm k (s.hw.xfp k - 11)) = d.a ∧
      t.rd (tcm k (s.hw.xfp k - 7)) = (s.hw.core k).divR ∧ t.rd (tcm k (s.hw.xfp k - 6)) = (s.hw.core k).divM)) ∧
  (∀ (k : Fin 32) (x : Precise) (y : CopyOp) (s : State),
    s.hw.canEnter k = true ∧ (s.hw.core k).exc = some x ∧ s.hw.frameFits k 16 = true →
    (s.hw.core k).cpy = some y ∧ (s.hw.core k).div = none →
    Answers (exec (.exceptionEntry k 0) s) (fun t =>
      (t.hw.core k).cpy = none ∧ (t.hw.core k).cpyR = 0 ∧
      frameBits t k (s.hw.xfp k - 16) 0 11 1 = 1 ∧
      t.rd (tcm k (s.hw.xfp k - 4)) = w40 y.src ∧ t.rd (tcm k (s.hw.xfp k - 3)) = w40 y.dst ∧ t.rd (tcm k (s.hw.xfp
        k - 2)) = w40 y.count ∧
      t.rd (tcm k (s.hw.xfp k - 1)) = (s.hw.core k).cpyR)) ∧
  (∀ (k : Fin 32) (copied : Nat) (src : Nat) (s : State),
    s.hw.canEnter k = true ∧ s.hw.ien k = true ∧ (s.hw.core k).faults = [] ∧ s.boundary k true = true →
    s.hw.presentedSrc (clOf k) (noOf k) = some src ∧ s.hw.frameFits k 16 = true →
    (s.hw.core k).cpy = none ∧ s.fetchBusy k = false ∧ s.hw.swAt = [] →
    Answers (exec (.interruptEntry k copied) s) (fun t =>
      (t.hw.core k).ring = min (s.hw.core k).ring 1 ∧ t.hw.ien k = false ∧
      (t.hw.core k).pc = s.hw.f (pDIC (clOf k)) 0 (DIC_CORE_IVEC_ADDR (noOf k)) ∧ (t.hw.core k).presented = some src ∧
      t.hw.xfp k = s.hw.xfp k - 16 ∧
      frameBits t k (s.hw.xfp k - 16) 0 36 4 = 2 ∧ frameBits t k (s.hw.xfp k - 16) 0 16 8 = src % 256 ∧ frameBits t
        k (s.hw.xfp k - 16) 0 9 1 = 1 ∧
      t.rd (tcm k (s.hw.xfp k - 15)) = w40 (s.hw.core k).pc ∧
      t.hw.isWaiting k = false)) ∧
  (∀ (k : Fin 32) (copied : Nat) (s : State),
    s.hw.ien k = false →
    Answers (exec (.interruptEntry k copied) s) (fun t =>
      t = s)) ∧
  (∀ (k : Fin 32) (copied : Nat) (x : Precise) (s : State),
    s.hw.canEnter k = true ∧ (s.hw.core k).exc = some x ∧ s.hw.frameFits k 16 = false ∧ (s.hw.core k).cpy = none →
    Answers (exec (.exceptionEntry k copied) s) (fun t =>
      t.hw.locked k = true ∧
      t.hw.f (pDIC (clOf k)) 0 (DIC_CORE_LOCKINFO_CAUSE (noOf k)) = 1 ∧ t.hw.f (pDIC (clOf k)) 0
        (DIC_CORE_LOCKINFO_CODE1 (noOf k)) = x.code % 256 ∧
      t.hw.f (pDIC (clOf k)) 0 (DIC_CORE_LOCKPC_ADDR (noOf k)) = x.retPc % 2 ^ 32 ∧
      (t.hw.core k).faults = [] ∧ t.hw.canIssue k = false ∧ t.hw.xfp k = s.hw.xfp k ∧
      t.hw.f (pDIC (clOf k)) 0 ⟨5, 4 + noOf k, 1⟩ = 1))

/-- O29. DIC_LINE_CHANGE latches an EDGE source on a rising line; DOORBELL latches the source it names. CLAIM takes the
deliverable enabled source of the least tier, then PRIO, then number, returns it with VALID, TIER and PRIO, makes it
ACTIVE, clears its latch and pushes it; with none deliverable it returns 0 and leaves the stack. DONE of the top entry
pops it and ends ACTIVE. A write of SRCCFG sets the source's fields, and in COMPAT mode a source disabled stays open
to one claim for 4 CCn_PERI cycles. Where a clause lies on a reading or a choice of the model's own: log entries 69. -/
def Obligations.SourcesPendClaimAndComplete : Prop :=
  (∀ (c : Fin 8) (src : Fin 256) (s : State),
    s.hw.clusterRuns c = true ∧ s.hw.srcLine c src = true →
    s.hw.dicLine.at false (256 * c + src) = false ∧ s.hw.b (pDIC c) src DIC_SRCCFG_TYPE = true →
    Answers (exec (.dicLineChange c src) s) (fun t =>
      t.hw.f (pDIC c) src DIC_SRCSTAT_LATCH = 1 ∧ t.hw.srcPend c src = true)) ∧
  (∀ (c : Fin 8) (src : Fin 256) (s : State),
    s.hw.clusterRuns c = true ∧ (s.hw.srcLine c src = false ∨ s.hw.dicLine.at false (256 * c + src) = true ∨ s.hw.b
      (pDIC c) src DIC_SRCCFG_TYPE = false) →
    Answers (exec (.dicLineChange c src) s) (fun t =>
      t.hw.reg (pDIC c) 0x11 src = s.hw.reg (pDIC c) 0x11 src ∧
      t.hw.dicLine.at false (256 * c + src) = s.hw.srcLine c src)) ∧
  (∀ (w : Requester) (c : Fin 8) (d : Word) (s : State),
    accepts s.hw w (pDIC c) = true →
    Answers (exec (.dicDoorbell w c d) s) (fun t =>
      t.hw.f (pDIC c) (d.toNat % 256) DIC_SRCSTAT_LATCH = 1 ∧
      (∀ q : Fin 256, q.val ≠ d.toNat % 256 → t.hw.reg (pDIC c) 0x11 q = s.hw.reg (pDIC c) 0x11 q))) ∧
  (∀ (w : Requester) (c : Fin 8) (k : Fin 4) (src : Nat) (s : State),
    s.hw.mayRead (s.hw.acc w) (pDIC c) = true ∧ s.hw.winner c k = some src →
    Answers (exec (.dicClaim w c k) s) (fun t =>
      t.hw.resp = [w40 (s.hw.f (pDIC c) src DIC_SRCCFG_PRIO * 2 ^ 16 + s.hw.f (pDIC c) src DIC_SRCCFG_TIER * 2 ^ 9 +
        2 ^ 8 + src)] ∧
      t.hw.f (pDIC c) src DIC_SRCSTAT_ACTIVE = 1 ∧ t.hw.f (pDIC c) src DIC_SRCSTAT_LATCH = 0 ∧
      t.hw.stack c k = ⟨src, s.hw.f (pDIC c) src DIC_SRCCFG_TIER, s.hw.f (pDIC c) src DIC_SRCCFG_PRIO⟩ :: s.hw.stack
        c k ∧
      s.hw.deliverable c k src = true ∧ src ∈ s.hw.enabledSources c ∧
      (∀ q ∈ s.hw.enabledSources c, s.hw.deliverable c k q = true → s.hw.srcRank c src ≤ s.hw.srcRank c q))) ∧
  (∀ (w : Requester) (c : Fin 8) (k : Fin 4) (s : State),
    s.hw.mayRead (s.hw.acc w) (pDIC c) = true ∧ s.hw.winner c k = none →
    Answers (exec (.dicClaim w c k) s) (fun t =>
      t.hw.resp = [0] ∧ t.hw.stack c k = s.hw.stack c k ∧ t.hw.regs = s.hw.regs)) ∧
  (∀ (w : Requester) (c : Fin 8) (k : Fin 4) (d : Word) (x : Claimed) (rest : List Claimed) (s : State),
    accepts s.hw w (pDIC c) = true ∧ s.hw.stack c k = x :: rest ∧ x.src = d.toNat % 256 →
    Answers (exec (.dicDone w c k d) s) (fun t =>
      t.hw.stack c k = rest ∧ t.hw.f (pDIC c) x.src DIC_SRCSTAT_ACTIVE = 0 ∧
      t.hw.f (pDIC c) 0 (DIC_CORE_RUNSTAT_RUNTIER k) = (match rest with | [] => 8 | y :: _ => y.tier % 16))) ∧
  (∀ (w : Requester) (c : Fin 8) (d : Word) (s : State),
    accepts s.hw w (pDIC c) = true ∧ s.hw.b (pDIC c) 0 DIC_CTRL_COMPAT = false →
    Answers (exec (.srccfgDisable w c d) s) (fun t =>
      t.hw.f (pDIC c) (s.hw.chanFor (pDIC c) w 0x10) DIC_SRCCFG_EN = bitsOf d.toNat 0 1 ∧
      t.hw.f (pDIC c) (s.hw.chanFor (pDIC c) w 0x10) DIC_SRCCFG_TIER = bitsOf d.toNat 12 3 ∧ t.hw.f (pDIC c)
        (s.hw.chanFor (pDIC c) w 0x10) DIC_SRCCFG_PRIO = bitsOf d.toNat 4 8 ∧
      (s.hw.chanFor (pDIC c) w 0x10 ∉ s.hw.lateSources c → s.hw.chanFor (pDIC c) w 0x10 ∉ t.hw.lateSources c))) ∧
  (∀ (w : Requester) (c : Fin 8) (d : Word) (s : State),
    accepts s.hw w (pDIC c) = true ∧ s.hw.b (pDIC c) 0 DIC_CTRL_COMPAT = true →
    s.hw.b (pDIC c) (s.hw.chanFor (pDIC c) w 0x10) DIC_SRCCFG_EN = true ∧ bitOf d.toNat 0 = false →
    Answers (exec (.srccfgDisable w c d) s) (fun t =>
      t.hw.f (pDIC c) (s.hw.chanFor (pDIC c) w 0x10) DIC_SRCCFG_EN = 0 ∧
      s.hw.chanFor (pDIC c) w 0x10 ∈ t.hw.enabledSources c))

/-- O30. A DONE that reaches the page and passes its owner check but names a source that is not the top of the stack, or meets
an empty stack, leaves the stack unchanged, is logged as a refused write, sets IRQ_FLAG.PSF of that core, and a core
that wrote it takes STORE_FAULT with reason 3. -/
def Obligations.DoneOutOfOrderIsRefused : Prop :=
  (∀ (w : Requester) (c : Fin 8) (k : Fin 4) (d : Word) (s : State),
    accepts s.hw w (pDIC c) = true →
    (s.hw.stack c k).head?.map (fun x => x.src) ≠ some (d.toNat % 256) →
    Answers (exec (.dicDone w c k d) s) (fun t =>
      t.hw.stack c k = s.hw.stack c k ∧
      t.hw.f (pDIC c) 0 ⟨5, k, 1⟩ = 1 ∧
      t.hw.f pDEV 0 DEV_ACC_LOG_REQ = w.id ∧ t.hw.f pDEV 0 DEV_ACC_LOG_OFFSET = 0x91 + 0x10 * k ∧
      (∀ q : Fin 256, t.hw.reg (pDIC c) 0x11 q = s.hw.reg (pDIC c) 0x11 q))) ∧
  (∀ (i : Fin 32) (c : Fin 8) (k : Fin 4) (d : Word) (s : State),
    accepts s.hw (.core i) (pDIC c) = true ∧ (s.hw.core i).faults.length < 5 →
    (s.hw.stack c k).head?.map (fun x => x.src) ≠ some (d.toNat % 256) →
    Answers (exec (.dicDone (.core i) c k d) s) (fun t =>
      (t.hw.core i).faults = (s.hw.core i).faults ++ [⟨0x04, 3⟩]))

/-- O31. AOW_SOURCE_EDGE of an enabled channel whose source is active, and AOW_LEVEL_HIT with ACT = 0, set HIT; in HALT or DEEP
a channel with WAKE and no earlier cause is recorded as the cause. WAKE_TIMER_WRITE sets COMPARE and count 0;
WAKE_TIMER_EXPIRY brings the count to COMPARE and makes the timer source active. WATCHDOG_ENABLE sets EN, which a
write never clears. A good kick in the window sets COUNT to 0; a wrong key or an early kick expires; with EN = 0 a
kick has no effect. WATCHDOG_WARN brings COUNT to WARN and sets its flag; WATCHDOG_EXPIRY brings COUNT to CLOSE and
sets EXPIRED. Where a clause lies on a reading or a choice of the model's own: log entries 70. -/
def Obligations.WatchersAndWatchdogs : Prop :=
  (∀ (w : Fin 32) (s : State),
    s.hw.aowOn w = true ∧ wakeInput (s.hw.f pAOW w AOW_WSRC_CODE) = false ∧ s.hw.watchLevel (s.hw.f pAOW w
      AOW_WSRC_CODE) = true →
    Answers (exec (.aowSourceEdge w none) s) (fun t =>
      t.hw.f pAOW 0 ⟨5, w, 1⟩ = 1 ∧
      (((s.hw.halted || s.hw.deep) && s.hw.b pAOW w AOW_WSRC_WAKE && !s.hw.b pAOW 0 AOW_STATUS_CAUSE_VALID) = true →
        t.hw.f pAOW 0 AOW_STATUS_CAUSE = w ∧ t.hw.f pAOW 0 AOW_STATUS_CAUSE_VALID = 1) ∧
      (((s.hw.halted || s.hw.deep) && s.hw.b pAOW w AOW_WSRC_WAKE) = false → t.hw.reg pAOW 3 0 = s.hw.reg pAOW 3 0))) ∧
  (∀ (w : Fin 32) (s : State),
    s.hw.aowOn w = true ∧ s.hw.b pAOW w AOW_WSRC_ACT = false ∧ s.hw.watchLevel (s.hw.f pAOW w AOW_WSRC_CODE) = true
      →
    Answers (exec (.aowLevelHit w) s) (fun t =>
      t.hw.f pAOW 0 ⟨5, w, 1⟩ = 1)) ∧
  (∀ (w : Requester) (d : Word) (s : State),
    accepts s.hw w pAOW = true →
    Answers (exec (.wakeTimerWrite w d) s) (fun t =>
      t.hw.f pAOW 0 AOW_TMR_COMPARE = bitsOf d.toNat 0 32 ∧ t.hw.f pAOW 0 AOW_TMR_CNT_COUNT = 0)) ∧
  (∀ (s : State),
    s.hw.f pAOW 0 AOW_TMR_CNT_COUNT ≤ s.hw.f pAOW 0 AOW_TMR_COMPARE ∧ 0 < s.hw.f pAOW 0 AOW_TMR_COMPARE →
    Answers (exec .wakeTimerExpiry s) (fun t =>
      t.hw.f pAOW 0 AOW_TMR_CNT_COUNT = s.hw.f pAOW 0 AOW_TMR_COMPARE ∧ t.hw.watchLevel 0xF080 = true)) ∧
  (∀ (w : Requester) (x : Option (Fin 8)) (d : Word) (s : State),
    accepts s.hw w (wdtPage x) = true →
    Answers (exec (.watchdogEnable w x d) s) (fun t =>
      t.hw.b (wdtPage x) 0 WDT_CTRL_EN = (s.hw.b (wdtPage x) 0 WDT_CTRL_EN || bitOf d.toNat 0))) ∧
  (∀ (w : Requester) (x : Option (Fin 8)) (d : Word) (s : State),
    accepts s.hw w (wdtPage x) = true ∧ s.hw.b (wdtPage x) 0 WDT_CTRL_EN = true →
    d.toNat % 256 = 0x5A ∧ s.hw.f (wdtPage x) 0 WDT_WTIME_OPEN ≤ s.hw.f (wdtPage x) 0 WDT_COUNT_COUNT →
    Answers (exec (.watchdogKick w x d) s) (fun t =>
      t.hw.f (wdtPage x) 0 WDT_COUNT_COUNT = 0 ∧ t.hw.f (wdtPage x) 0 WDT_STATUS_EXPIRED = s.hw.f (wdtPage x) 0
        WDT_STATUS_EXPIRED)) ∧
  (∀ (w : Requester) (x : Option (Fin 8)) (d : Word) (s : State),
    accepts s.hw w (wdtPage x) = true ∧ s.hw.b (wdtPage x) 0 WDT_CTRL_EN = true →
    d.toNat % 256 ≠ 0x5A ∨ s.hw.f (wdtPage x) 0 WDT_COUNT_COUNT < s.hw.f (wdtPage x) 0 WDT_WTIME_OPEN →
    Answers (exec (.watchdogKick w x d) s) (fun t =>
      t.hw.f (wdtPage x) 0 WDT_STATUS_EXPIRED = 1)) ∧
  (∀ (w : Requester) (x : Option (Fin 8)) (d : Word) (s : State),
    accepts s.hw w (wdtPage x) = true ∧ s.hw.b (wdtPage x) 0 WDT_CTRL_EN = false →
    Answers (exec (.watchdogKick w x d) s) (fun t =>
      t.hw.regs = s.hw.regs ∧ t.hw.wdtPre = s.hw.wdtPre)) ∧
  (∀ (x : Option (Fin 8)) (s : State),
    s.hw.wdtCounts x = true ∧ s.hw.f (wdtPage x) 0 WDT_COUNT_COUNT < s.hw.f (wdtPage x) 0 WDT_WCFG_WARN →
    Answers (exec (.watchdogWarn x) s) (fun t =>
      t.hw.f (wdtPage x) 0 WDT_COUNT_COUNT = s.hw.f (wdtPage x) 0 WDT_WCFG_WARN ∧ t.hw.f (wdtPage x) 0 WDT_IRQ_WARN
        = 1)) ∧
  (∀ (x : Option (Fin 8)) (s : State),
    s.hw.wdtCounts x = true ∧ s.hw.b (wdtPage x) 0 WDT_STATUS_EXPIRED = false →
    Answers (exec (.watchdogExpiry x) s) (fun t =>
      t.hw.f (wdtPage x) 0 WDT_COUNT_COUNT = s.hw.f (wdtPage x) 0 WDT_WTIME_CLOSE ∧ t.hw.f (wdtPage x) 0
        WDT_STATUS_EXPIRED = 1))

/-- O32. A PCFG or PFUNC write that the pin's OWN accepts and PLOCK does not bar writes its fields; a PFUNC word refused for a
cause leaves PFUNC and records cause and pin with FUNC_ERR. A pin locked by PLOCK keeps both. A pin-ownership write
from ring 0 sets REQ, RING and PLOCK while PLOCK is 0. DOUTn changes exactly the bits of the pins that accept the
requester. A pin put into analog mode reads 0, and drives nothing once its keeper cycle is over. Where a clause lies
on a reading or a choice of the model's own: log entries 72, 73, 74, 75. -/
def Obligations.PinConfigurationAndOwnership : Prop :=
  (∀ (w : Requester) (d : Word) (s : State),
    accepts s.hw w pPIN 0x10 = true ∧ s.hw.pinPasses (s.hw.acc w) (s.hw.chsel pPIN w) = true →
    s.hw.b pPIN (s.hw.chsel pPIN w) PIN_OWN_PLOCK = false →
    Answers (exec (.pcfgWrite w d ()) s) (fun t =>
      t.hw.f pPIN (s.hw.chsel pPIN w) PIN_PCFG_SAFE = bitsOf d.toNat 14 2 ∧ t.hw.f pPIN (s.hw.chsel pPIN w)
        PIN_PCFG_ANA = bitsOf d.toNat 13 1 ∧
      t.hw.f pPIN (s.hw.chsel pPIN w) PIN_PCFG_HYST = bitsOf d.toNat 12 1 ∧ t.hw.f pPIN (s.hw.chsel pPIN w)
        PIN_PCFG_PULL = bitsOf d.toNat 10 2 ∧ t.hw.f pPIN (s.hw.chsel pPIN w) PIN_PCFG_OD = bitsOf d.toNat 9 1 ∧
      t.hw.f pPIN (s.hw.chsel pPIN w) PIN_PCFG_SLEW = bitsOf d.toNat 8 1 ∧ t.hw.f pPIN (s.hw.chsel pPIN w)
        PIN_PCFG_DRV = bitsOf d.toNat 6 2 ∧
      t.hw.reg pPIN 0x11 (s.hw.chsel pPIN w) = s.hw.reg pPIN 0x11 (s.hw.chsel pPIN w) ∧
      (bitOf d.toNat 13 = true → t.hw.pinIn (s.hw.chsel pPIN w) = false ∧ ({ t.hw with now := t.hw.now + 2 }.pinBall
        (s.hw.chsel pPIN w) = none ∨ t.hw.resetLow = true)))) ∧
  (∀ (w : Requester) (d : Word) (s : State),
    accepts s.hw w pPIN 0x11 = true ∧ s.hw.pinPasses (s.hw.acc w) (s.hw.chsel pPIN w) = true →
    s.hw.b pPIN (s.hw.chsel pPIN w) PIN_OWN_PLOCK = false →
    s.hw.pfuncCause (s.hw.chsel pPIN w) d = 0 →
    Answers (exec (.pfuncWrite w d) s) (fun t =>
      t.hw.f pPIN (s.hw.chsel pPIN w) PIN_PFUNC_OSEL0 = bitsOf d.toNat 0 12 ∧ t.hw.f pPIN (s.hw.chsel pPIN w)
        PIN_PFUNC_OSEL1 = bitsOf d.toNat 12 12 ∧ t.hw.f pPIN (s.hw.chsel pPIN w) PIN_PFUNC_ISEL = bitsOf d.toNat 24 12 ∧
      t.hw.reg pPIN 3 0 = s.hw.reg pPIN 3 0)) ∧
  (∀ (w : Requester) (d : Word) (s : State),
    accepts s.hw w pPIN 0x11 = true ∧ s.hw.pinPasses (s.hw.acc w) (s.hw.chsel pPIN w) = true →
    s.hw.b pPIN (s.hw.chsel pPIN w) PIN_OWN_PLOCK = false →
    s.hw.pfuncCause (s.hw.chsel pPIN w) d ≠ 0 →
    Answers (exec (.pfuncWrite w d) s) (fun t =>
      t.hw.reg pPIN 0x11 (s.hw.chsel pPIN w) = s.hw.reg pPIN 0x11 (s.hw.chsel pPIN w) ∧
      t.hw.f pPIN 0 PIN_STATUS_CAUSE = s.hw.pfuncCause (s.hw.chsel pPIN w) d ∧ t.hw.f pPIN 0 PIN_STATUS_PIN =
        s.hw.chsel pPIN w % 512 ∧ t.hw.f pPIN 0 PIN_IRQ_FUNC_ERR = 1 ∧
      (t.hw.core 3).faults = (s.hw.core 3).faults)) ∧
  (∀ (w : Requester) (d : Word) (s : State),
    accepts s.hw w pPIN 0x10 = true ∧ s.hw.b pPIN (s.hw.chsel pPIN w) PIN_OWN_PLOCK = true →
    Answers (exec (.pcfgWrite w d ()) s) (fun t =>
      t.hw.reg pPIN 0x10 (s.hw.chsel pPIN w) = s.hw.reg pPIN 0x10 (s.hw.chsel pPIN w))) ∧
  (∀ (w : Requester) (d : Word) (s : State),
    accepts s.hw w pPIN 0x12 = true ∧ s.hw.b pPIN (s.hw.chsel pPIN w) PIN_OWN_PLOCK = false →
    (s.hw.acc w).ring = 0 →
    Answers (exec (.pinOwnWrite w d) s) (fun t =>
      t.hw.f pPIN (s.hw.chsel pPIN w) PIN_OWN_REQ = bitsOf d.toNat 0 8 ∧
      t.hw.f pPIN (s.hw.chsel pPIN w) PIN_OWN_RING = bitsOf d.toNat 8 2 ∧ t.hw.f pPIN (s.hw.chsel pPIN w)
        PIN_OWN_PLOCK = bitsOf d.toNat 10 1)) ∧
  (∀ (w : Requester) (n : Fin 9) (d : Word) (s : State),
    accepts s.hw w pPIN (0x80 + n) = true →
    Answers (exec (.doutWrite w n d) s) (fun t =>
      (∀ j : Fin 36, t.hw.f pPIN 0 ⟨0x80 + n, j, 1⟩ = (if s.hw.pinPasses (s.hw.acc w) (36 * n + j) then bitsOf
        d.toNat j 1 else s.hw.f pPIN 0 ⟨0x80 + n, j, 1⟩))))

/-- O33. BANK_SUPPLY_LOSS of a valid bank clears VOK with BANK_FAULT, and its pins drive nothing and read 0. BANK_SUPPLY_VALID
sets VOK and VLVL and starts every input of the bank at 0, an undriven pin in its hysteresis band showing UNRESOLVED.
PIN_EVENT brings the input of a valid digital pin that does not drive to the new level, with the level output of a
working unit whose filter has passed it; a selected edge sets its flag. Where a clause lies on a reading or a choice
of the model's own: log entries 74, 76. -/
def Obligations.BanksAndPinEvents : Prop :=
  (∀ (n : Fin 9) (s : State),
    s.hw.b pPIN 0 (PIN_BANK_VOK n) = true →
    Answers (exec (.bankSupplyLoss n) s) (fun t =>
      t.hw.f pPIN 0 (PIN_BANK_VOK n) = 0 ∧ t.hw.f pPIN 0 PIN_IRQ_BANK_FAULT = 1 ∧
      (∀ j : Fin 36, t.hw.pinBall (36 * n + j) = none ∧ t.hw.pinIn (36 * n + j) = false))) ∧
  (∀ (n : Fin 9) (lvl : Fin 4) (j : Fin 36) (v : PadV) (s : State),
    s.hw.b pPIN 0 (PIN_BANK_VOK n) = false ∧ s.hw.b pPIN (36 * n + j) PIN_PCFG_ANA = false →
    Answers (exec (.bankSupplyValid n lvl [(j, v)]) s) (fun t =>
      t.hw.f pPIN 0 (PIN_BANK_VOK n) = 1 ∧ t.hw.f pPIN 0 (PIN_BANK_VLVL n) = lvl ∧
      t.hw.pad (36 * n + j) = v ∧
      (v = .band ∧ s.hw.b pPIN (36 * n + j) PIN_PCFG_HYST = true ∧ t.hw.pinBall (36 * n + j) = none → t.hw.b pPIN
        (36 * n + j) PIN_PSTAT_UNRESOLVED = true ∧ t.hw.pinIn (36 * n + j) = false) ∧
      (v ≠ .band → t.hw.b pPIN (36 * n + j) PIN_PSTAT_UNRESOLVED = false))) ∧
  (∀ (p : Fin 32) (pin : Fin 324) (ns : Nat) (s : State),
    s.hw.pevOn p = true ∧ s.hw.f pPIN 0 (PIN_PEV_PIN p) = pin ∧ s.hw.f pPIN 0 (PIN_PEV_FILT p) * 5 ≤ ns ∧
      s.hw.bankOk pin = true ∧ s.hw.b pPIN pin PIN_PCFG_ANA = false →
    s.hw.b pPIN 0 (PIN_PEV_INV p) = false ∧ s.hw.f pPIN 0 ⟨0xC0, p, 1⟩ = 0 ∧ s.hw.pinBall pin = none →
    Answers (exec (.pinEvent pin (.high, ns)) s) (fun t =>
      t.hw.f pPIN 0 ⟨0xC0, p, 1⟩ = 1 ∧ t.hw.pinIn pin = true ∧
      t.hw.b pPIN pin PIN_PSTAT_UNRESOLVED = false ∧
      (bitOf (s.hw.f pPIN 0 (PIN_PEV_EDGE p)) 0 = true → t.hw.f pPIN 0 ⟨5, p, 1⟩ = 1)))

/-- O34. Once READY, a request that meets no other waiting gets the next line slot: a line read uses a slot of its class and,
clean, changes nothing else; corrected, it counts, logs KIND 2 with its symbols and, with WB_EN, leaves a write-back
waiting, which CORRECTED_WRITEBACK serves when the slot goes to SCRUB; uncorrectable, it counts, logs KIND 3 and every
slot of the line reads poisoned, and UNCORRECTABLE_REWRITE, next of its class, sets its tags to 0x08 and its words to
those read. A read-modify-write of an uncorrectable line does so itself but for the slots it replaces and uses two
slots. PCLR clears POISON in the 8 tags of one line, in two slots. While not READY nothing is served; DRAM_INIT_DONE
sets READY. A Darner burst is queued when due or at NOW, and once granted steps its lines. Where a clause lies on a
reading or a choice of the model's own: log entries 78, 79, 80, 168. -/
def Obligations.DramServesAndCorrects : Prop :=
  (∀ (s : State),
    s.hw.b pDRAM 0 DRAM_STATUS_INIT_BUSY = true ∧ s.hw.deep = false →
    Answers (exec .dramInitDone s) (fun t =>
      t.hw.f pDRAM 0 DRAM_STATUS_INIT_BUSY = 0 ∧ t.hw.f pDRAM 0 DRAM_STATUS_READY = 1)) ∧
  (∀ (came : List DramReq) (inner : Fin 3) (syms : Nat) (words : List Word) (s : State),
    s.hw.dramReady = false →
    Answers (exec (.dramRequestServe came inner syms words) s) (fun t =>
      t = s)) ∧
  (∀ (r : Requester) (line : Fin 67108864) (s : State),
    quietDram s.hw = true →
    Answers (exec (.dramRequestServe [⟨some r, line, .read⟩] 0 0 []) s) (fun t =>
      t.hw.f pDRAM 0 (DRAM_CLS_CNT_COUNT r.dramClass) = (s.hw.f pDRAM 0 (DRAM_CLS_CNT_COUNT r.dramClass) + 1) % 2 ^
        40 ∧
      t = s.on (fun h =>
        { h with regs := t.hw.regs, dramPos := t.hw.dramPos, dramRec := t.hw.dramRec, dramBulk := t.hw.dramBulk, dramTurn := t.hw.dramTurn }))) ∧
  (∀ (r : Requester) (line : Fin 67108864) (inner : Fin 3) (syms : Nat) (s : State),
    quietDram s.hw = true ∧ 1 ≤ syms ∧ syms ≤ 4 →
    Answers (exec (.dramRequestServe [⟨some r, line, .read⟩] inner syms []) s) (fun t =>
      t.hw.f pDRAM 0 DRAM_CNT_OUTER_COUNT = min (2 ^ 40 - 1) (s.hw.f pDRAM 0 DRAM_CNT_OUTER_COUNT + 1) ∧ t.hw.f
        pDRAM 0 DRAM_IRQ_OUTER_CE = 1 ∧
      t.hw.f pDRAM 0 DRAM_ERR_ADDR_LINE = line ∧ t.hw.f pDRAM 0 DRAM_ERR_INFO_REQ = r.id ∧ t.hw.f pDRAM 0
        DRAM_ERR_INFO_ORIGIN = 0 ∧
      t.hw.f pDRAM 0 DRAM_ERR_INFO_KIND = 2 ∧ t.hw.f pDRAM 0 DRAM_ERR_INFO_SYMS = syms ∧ t.hw.f pDRAM 0
        DRAM_ERR_INFO_INNER = b2n (inner != 0) ∧
      t.hw.f pDRAM 0 DRAM_CNT_INNER_COUNT = (if inner = 1 then min (2 ^ 40 - 1) (s.hw.f pDRAM 0 DRAM_CNT_INNER_COUNT
        + 1) else s.hw.f pDRAM 0 DRAM_CNT_INNER_COUNT) ∧
      (s.hw.b pDRAM 0 DRAM_CTRL_WB_EN = true → t.hw.dramWb = [line.val]) ∧
      sameMemory s t)) ∧
  (∀ (line : Fin 67108864) (s : State),
    s.hw.dramReady = true ∧ s.hw.dramWb.head? = some line.val ∧ s.hw.slotClass = some 3 ∧ s.hw.rewriteNext = none →
    Answers (exec (.correctedWriteback line) s) (fun t =>
      t.hw.dramWb.contains line.val = false ∧ t.hw.f pDRAM 0 (DRAM_CLS_CNT_COUNT 3) = (s.hw.f pDRAM 0
        (DRAM_CLS_CNT_COUNT 3) + 1) % 2 ^ 40)) ∧
  (∀ (r : Option Requester) (line : Fin 67108864) (inner : Fin 3) (syms : Nat) (words : List Word) (s : State),
    quietDram s.hw = true ∧ 4 < syms →
    Answers (exec (.dramRequestServe [⟨r, line, .read⟩] inner syms words) s) (fun t =>
      t.hw.f pDRAM 0 DRAM_CNT_UE_COUNT = min (2 ^ 40 - 1) (s.hw.f pDRAM 0 DRAM_CNT_UE_COUNT + 1) ∧ t.hw.f pDRAM 0
        DRAM_IRQ_UE = 1 ∧
      t.hw.f pDRAM 0 DRAM_ERR_INFO_KIND = 3 ∧ t.hw.f pDRAM 0 DRAM_ERR_INFO_ORIGIN = (if r.isSome then 0 else 3) ∧
      (∀ i : Fin 8, t.poisoned (lineBase line + i) = true) ∧
      sameMemory s t ∧ t.hw.rewriteNext = some ⟨line, (match r with | some r => r.dramClass | none => 2), words⟩)) ∧
  (∀ (line : Fin 67108864) (cls : Nat) (words : List Word) (s : State),
    s.hw.dramReady = true ∧ s.hw.rewriteNext = some ⟨line, cls, words⟩ ∧ words.length = 8 →
    Answers (exec (.uncorrectableRewrite line) s) (fun t =>
      (∀ i : Fin 8, t.tag (lineBase line + i) = 0x08 ∧ t.rd (lineBase line + i) = words.getD i 0) ∧
      outsideLine s t line ∧
      t.hw.dramBad = s.hw.dramBad.filter (fun b => b.line != line.val) ∧ t.hw.f pDRAM 0 (DRAM_CLS_CNT_COUNT cls) =
        (s.hw.f pDRAM 0 (DRAM_CLS_CNT_COUNT cls) + 1) % 2 ^ 40)) ∧
  (∀ (r : Requester) (line : Fin 67108864) (slots : List (Fin 8)) (inner : Fin 3) (syms : Nat) (words : List Word) (s
    : State),
    quietDram s.hw = true ∧ 4 < syms ∧ words.length = 8 →
    Answers (exec (.dramRequestServe [⟨some r, line, .modify slots⟩] inner syms words) s) (fun t =>
      (∀ i : Fin 8, t.tag (lineBase line + i) = 0x08 ∧ (i ∉ slots → t.rd (lineBase line + i) = words.getD i 0) ∧ (i
        ∈ slots → t.rd (lineBase line + i) = s.rd (lineBase line + i))) ∧
      outsideLine s t line ∧
      t.hw.f pDRAM 0 (DRAM_CLS_CNT_COUNT r.dramClass) = (s.hw.f pDRAM 0 (DRAM_CLS_CNT_COUNT r.dramClass) + 2) % 2 ^
        40)) ∧
  (∀ (w : Requester) (d : Word) (s : State),
    accepts s.hw w pDRAM = true ∧ s.hw.dramReady = true →
    s.hw.dramBad.any (fun b => b.line == d.toNat % 2 ^ 26) = false →
    Answers (exec (.dramPclr w (d, {})) s) (fun t =>
      (∀ i : Fin 8, t.tag (lineBase (d.toNat % 2 ^ 26) + i) = s.tag (lineBase (d.toNat % 2 ^ 26) + i) &&& 0xF7) ∧
      tagsOutside s t (d.toNat % 2 ^ 26) ∧
      t.hw.f pDRAM 0 (DRAM_CLS_CNT_COUNT w.dramClass) = (s.hw.f pDRAM 0 (DRAM_CLS_CNT_COUNT w.dramClass) + 2) % 2 ^
        40)) ∧
  (∀ (s : State),
    s.hw.b pDARNER 0 DARNER_CTRL_EN = true ∧ s.hw.dramReady = true ∧ s.hw.b pDARNER 0 DARNER_STATUS_QUEUED = false →
    Answers (exec .darnerBurstDue s) (fun t =>
      t.hw.darnerDue = s.hw.darnerDue + 1 ∧ t.hw.f pDARNER 0 DARNER_STATUS_QUEUED = 1 ∧ t.hw.queue 8 = s.hw.queue 8
        ++ [⟨6, 0⟩])) ∧
  (∀ (w : Requester) (d : Word) (s : State),
    accepts s.hw w pDARNER = true ∧ d.toNat % 4 = 3 ∧ s.hw.dramReady = true →
    Answers (exec (.darnerNow w d) s) (fun t =>
      t.hw.darnerNow = true ∧ t.hw.darnerDue = max 1 s.hw.darnerDue ∧ t.hw.b pDARNER 0 DARNER_STATUS_QUEUED = true)) ∧
  (∀ (n : Nat) (s : State),
    s.hw.grantable 8 ⟨6, 0⟩ (fun _ => true) = true ∧ s.hw.b pDARNER 0 DARNER_CTRL_EN = true ∧ s.hw.dramReady = true
      →
    n = max 1 (s.hw.f pDARNER 0 DARNER_BURST_LINES) ∧ s.hw.f pDARNER 0 DARNER_CURSOR_LINE + n < 2 ^ 26 →
    Answers (exec (.darnerBurstGrant () []) s) (fun t =>
      t.hw.f pDARNER 0 DARNER_CURSOR_LINE = s.hw.f pDARNER 0 DARNER_CURSOR_LINE + n ∧ t.hw.running 8 = none ∧
      t.hw.f pDRAM 0 (DRAM_CLS_CNT_COUNT 3) = (s.hw.f pDRAM 0 (DRAM_CLS_CNT_COUNT 3) + n) % 2 ^ 40 ∧
      t.hw.darnerDue = (if s.hw.darnerNow = true ∧ s.hw.darnerDue ≤ 1 then 1 else s.hw.darnerDue - 1) ∧
      sameMemory s t)) ∧
  (∀ (x : DieRep) (s : State),
    s.hw.grantable 8 ⟨6, 0⟩ (fun _ => true) = true ∧ s.hw.b pDARNER 0 DARNER_CTRL_EN = true ∧ s.hw.dramReady = true
      →
    s.hw.f pDARNER 0 DARNER_BURST_LINES = 1 ∧ 4 < x.syms ∧ x.words.length = 8 →
    Answers (exec (.darnerBurstGrant () [x]) s) (fun t =>
      (∀ i : Fin 8, t.tag (lineBase (s.hw.f pDARNER 0 DARNER_CURSOR_LINE) + i) = 0x08 ∧ t.rd (lineBase (s.hw.f
        pDARNER 0 DARNER_CURSOR_LINE) + i) = x.words.getD i 0) ∧
      outsideLine s t (s.hw.f pDARNER 0 DARNER_CURSOR_LINE) ∧
      t.hw.f pDRAM 0 DRAM_ERR_INFO_ORIGIN = 1 ∧ t.hw.f pDRAM 0 DRAM_ERR_INFO_REQ = 0))

/-- O35. HAMPER_ENABLE in IDLE latches a good geometry with WR_IDX and SEQ 0 and enters FILL or ARMED, or refuses a bad one
with CFG_ERR and EN 0. HAMPER_DISABLE with no record in hand goes to IDLE. An accepted cadence event starts a record
at WR_IDX with the next SEQ, or is dropped and counted while one is in hand. HAMPER_RECORD_COMPLETE leaves header and
time in the first two words of the record, touches no other word of memory and advances LAST_IDX, WR_IDX and SEQ. A
trigger in ARMED records its cause and enters POST, one in POST or FROZEN only counts. REARM leaves FROZEN unless a
dump is in hand; DUMP queues a copy that fits or sets DUMP_ERR; its grant runs it and its end has copied the ring
oldest first. Where a clause lies on a reading or a choice of the model's own: log entries 81, 82, 83. -/
def Obligations.HamperRecordsAndFreezes : Prop :=
  (∀ (w : Requester) (d : Word) (s : State),
    accepts s.hw w pHAMPER = true ∧ s.hw.hState = 0 ∧ hamperBad s.hw = false →
    Answers (exec (.hamperEnable w d) s) (fun t =>
      (t.hw.hState = 1 ∨ t.hw.hState = 2) ∧
      t.hw.f pHAMPER 0 HAMPER_K_COUNT = hamperK s.hw ∧ t.hw.f pHAMPER 0 HAMPER_WR_IDX_POS = 0 ∧ t.hw.f pHAMPER 0
        HAMPER_SEQ_SEQ = 0 ∧
      t.hw.hamper.k = hamperK s.hw ∧ t.hw.hamper.r = hamperR s.hw ∧ t.hw.hamper.count = 0 ∧ t.hw.f pHAMPER 0
        HAMPER_CTRL_EN = 1)) ∧
  (∀ (w : Requester) (d : Word) (s : State),
    accepts s.hw w pHAMPER = true ∧ s.hw.hState = 0 ∧ hamperBad s.hw = true →
    Answers (exec (.hamperEnable w d) s) (fun t =>
      t.hw.hState = 0 ∧ t.hw.f pHAMPER 0 HAMPER_CTRL_EN = 0 ∧ t.hw.f pHAMPER 0 HAMPER_IRQ_CFG_ERR = 1)) ∧
  (∀ (w : Requester) (d : Word) (s : State),
    accepts s.hw w pHAMPER = true ∧ s.hw.hState ≠ 0 ∧ s.hw.hamper.rec' = none →
    Answers (exec (.hamperDisable w d) s) (fun t =>
      t.hw.hState = 0 ∧ t.hw.f pHAMPER 0 HAMPER_CTRL_EN = 0)) ∧
  (∀ (a : Arrival) (s : State),
    (s.hw.arrive a (devCode 0x060) (s.hw.domainRuns 32)).2 = true →
    (s.hw.hState = 1 ∨ s.hw.hState = 2 ∨ s.hw.hState = 3) ∧ s.hw.b pRST 0 RST_STATUS_PENDING = false ∧
      s.hw.hamper.tick = false ∧ s.hw.hamper.stopping = false →
    s.hw.hamper.div ≤ s.hw.hamper.cad ∧ s.hw.hamper.rec' = none ∧ s.hw.dramReady = true →
    Answers (exec (.hamperCadence a) s) (fun t =>
      t.hw.hamper.rec' = some ⟨s.hw.f pHAMPER 0 HAMPER_WR_IDX_POS, s.hw.f pHAMPER 0 HAMPER_SEQ_SEQ, s.hw.domTime % 2
        ^ 40, s.hw.f pDOM 0 DOM_TICK_TN % 16, s.hw.hamper.trig, s.hw.hamper.gap⟩ ∧
      t.hw.hamper.trig = false ∧ t.hw.hamper.gap = false ∧ t.hw.hState = s.hw.hState ∧
      (s.hw.hamper.trig = true → t.hw.f pHAMPER 0 HAMPER_TRIG_IDX_POS = s.hw.f pHAMPER 0 HAMPER_WR_IDX_POS))) ∧
  (∀ (a : Arrival) (s : State),
    (s.hw.arrive a (devCode 0x060) (s.hw.domainRuns 32)).2 = true →
    (s.hw.hState = 1 ∨ s.hw.hState = 2 ∨ s.hw.hState = 3) ∧ s.hw.b pRST 0 RST_STATUS_PENDING = false ∧
      s.hw.hamper.tick = false ∧ s.hw.hamper.stopping = false →
    s.hw.dramReady = false ∨ (s.hw.hamper.div ≤ s.hw.hamper.cad ∧ s.hw.hamper.rec'.isSome = true) →
    Answers (exec (.hamperCadence a) s) (fun t =>
      t.hw.f pHAMPER 0 HAMPER_MISS_CNT_COUNT = (s.hw.f pHAMPER 0 HAMPER_MISS_CNT_COUNT + 1) % 2 ^ 40 ∧ t.hw.f
        pHAMPER 0 HAMPER_IRQ_MISS = 1 ∧
      t.hw.hamper.gap = true ∧ t.hw.hamper.rec' = s.hw.hamper.rec')) ∧
  (∀ (x : HamperRec) (s : State),
    s.hw.hamper.rec' = some x ∧ s.hw.dramReady = true ∧ s.hw.domainRuns 32 = true ∧ s.hw.hamper.r = (s.hw.hamper.n +
      9) / 8 →
    s.hw.hamper.stopping = false ∧ x.pos < s.hw.hamper.k ∧ s.hw.hamper.k < 2 ^ 26 →
    Answers (exec .hamperRecordComplete s) (fun t =>
      bitsOf (t.rd (lineBase (s.hw.hamper.base + x.pos * s.hw.hamper.r))).toNat 0 32 = x.seq % 2 ^ 32 ∧
      bitsOf (t.rd (lineBase (s.hw.hamper.base + x.pos * s.hw.hamper.r))).toNat 37 1 = b2n x.trig ∧ bitsOf (t.rd
        (lineBase (s.hw.hamper.base + x.pos * s.hw.hamper.r))).toNat 38 1 = b2n x.gap ∧
      t.rd (lineBase (s.hw.hamper.base + x.pos * s.hw.hamper.r) + 1) = w40 x.time ∧
      (t.tag (lineBase (s.hw.hamper.base + x.pos * s.hw.hamper.r))).toNat / 16 = x.gen % 16 ∧
      (∀ g, g < lineBase (s.hw.hamper.base + x.pos * s.hw.hamper.r) ∨ lineBase (s.hw.hamper.base + (x.pos + 1) *
        s.hw.hamper.r) ≤ g → t.rd g = s.rd g) ∧
      t.hw.f pHAMPER 0 HAMPER_LAST_IDX_POS = x.pos ∧ t.hw.f pHAMPER 0 HAMPER_WR_IDX_POS = (x.pos + 1) %
        s.hw.hamper.k ∧ t.hw.f pHAMPER 0 HAMPER_SEQ_SEQ = (x.seq + 1) % 2 ^ 32 ∧
      t.hw.hamper.rec' = none ∧ t.hw.hamper.count = s.hw.hamper.count + 1)) ∧
  (∀ (s : State),
    s.hw.hState = 2 ∧ 0 < s.hw.postOf ∧ bitOf (s.hw.f pHAMPER 0 HAMPER_FRZ_CFG_EN) 3 = true →
    bitOf (s.hw.f pPIN 0 PIN_PEV_LVL_LEVEL) (s.hw.f pHAMPER 0 HAMPER_FRZ_CFG_PEV) = true →
    Answers (exec (.hamperTrigger none true) s) (fun t =>
      t.hw.hState = 3 ∧ t.hw.f pHAMPER 0 HAMPER_FRZSTAT_CAUSE = 8 ∧ t.hw.f pHAMPER 0 HAMPER_FRZSTAT_SHORT_PRE = 0 ∧
      t.hw.hamper.trig = true ∧ t.hw.hamper.left = s.hw.postOf)) ∧
  (∀ (w : Requester) (s : State),
    accepts s.hw w pHAMPER = true ∧ s.hw.hState = 1 ∧ s.hw.postOf = 0 ∧ bitOf (s.hw.f pHAMPER 0 HAMPER_FRZ_CFG_EN) 0
      = true ∧ s.hw.hamper.k < 2 ^ 26 →
    Answers (exec (.hamperFreeze w 1) s) (fun t =>
      t.hw.hState = 4 ∧ t.hw.f pHAMPER 0 HAMPER_FRZSTAT_CAUSE = 1 ∧ t.hw.f pHAMPER 0 HAMPER_FRZSTAT_SHORT_PRE = 1 ∧
        t.hw.f pHAMPER 0 HAMPER_IRQ_FROZEN = 1 ∧
      t.hw.f pHAMPER 0 HAMPER_TRIG_IDX_POS = s.hw.nextPos)) ∧
  (∀ (w : Requester) (s : State),
    accepts s.hw w pHAMPER = true ∧ (s.hw.hState = 3 ∨ s.hw.hState = 4) ∧ bitOf (s.hw.f pHAMPER 0 HAMPER_FRZ_CFG_EN)
      0 = true →
    (∀ b : Bool, s.hw.hamper.trigAt ≠ some (s.hw.now, b)) →
    Answers (exec (.hamperFreeze w 1) s) (fun t =>
      t.hw.hState = s.hw.hState ∧ t.hw.f pHAMPER 0 HAMPER_FRZSTAT_EXTRA = min 255 (s.hw.f pHAMPER 0
        HAMPER_FRZSTAT_EXTRA + 1) ∧
      t.hw.f pHAMPER 0 HAMPER_FRZSTAT_CAUSE = s.hw.f pHAMPER 0 HAMPER_FRZSTAT_CAUSE)) ∧
  (∀ (w : Requester) (s : State),
    accepts s.hw w pHAMPER = true ∧ s.hw.hState = 4 ∧ s.hw.b pHAMPER 0 HAMPER_STATUS_DUMP_QUEUED = false ∧ s.hw.b
      pHAMPER 0 HAMPER_STATUS_DUMPING = false →
    Answers (exec (.hamperRearm w 2) s) (fun t =>
      ((t.hw.hState = 1 ∨ t.hw.hState = 2) ∧ t.hw.hamper.count = 0) ∧
      t.hw.f pHAMPER 0 HAMPER_WR_IDX_POS = s.hw.f pHAMPER 0 HAMPER_WR_IDX_POS ∧ t.hw.f pHAMPER 0 HAMPER_SEQ_SEQ =
        s.hw.f pHAMPER 0 HAMPER_SEQ_SEQ)) ∧
  (∀ (w : Requester) (s : State),
    accepts s.hw w pHAMPER = true ∧ s.hw.hState = 4 ∧ s.hw.b pHAMPER 0 HAMPER_STATUS_DUMPING = true →
    Answers (exec (.hamperRearm w 2) s) (fun t =>
      t.hw.hState = 4 ∧ t.hw.f pHAMPER 0 HAMPER_STATUS_REARM_BUSY = 1)) ∧
  (∀ (w : Requester) (n : Nat) (s : State),
    accepts s.hw w pHAMPER = true ∧ s.hw.hState = 4 ∧ s.hw.b pHAMPER 0 HAMPER_STATUS_DUMP_QUEUED = false ∧ s.hw.b
      pHAMPER 0 HAMPER_STATUS_DUMPING = false →
    n = s.hw.hamper.k * s.hw.hamper.r ∧ s.hw.f pHAMPER 0 HAMPER_DUMP_BASE_LINE + n ≤ 2 ^ 26 →
    s.hw.hamper.base + s.hw.hamper.size ≤ s.hw.f pHAMPER 0 HAMPER_DUMP_BASE_LINE ∨ s.hw.f pHAMPER 0
      HAMPER_DUMP_BASE_LINE + n ≤ s.hw.hamper.base →
    Answers (exec (.hamperDump w 4) s) (fun t =>
      t.hw.f pHAMPER 0 HAMPER_STATUS_DUMP_QUEUED = 1 ∧ t.hw.queue 8 = s.hw.queue 8 ++ [⟨5, 0⟩] ∧ t.hw.hamper.dumpTo
        = s.hw.f pHAMPER 0 HAMPER_DUMP_BASE_LINE)) ∧
  (∀ (w : Requester) (s : State),
    accepts s.hw w pHAMPER = true ∧ s.hw.hState ≠ 4 →
    Answers (exec (.hamperDump w 4) s) (fun t =>
      t.hw.f pHAMPER 0 HAMPER_IRQ_DUMP_ERR = 1 ∧ t.hw.queue 8 = s.hw.queue 8)) ∧
  (∀ (s : State),
    s.hw.grantable 8 ⟨5, 0⟩ (fun _ => true) = true →
    Answers (exec (.dumpGrant ()) s) (fun t =>
      t.hw.hamper.dump = some ⟨s.hw.hamper.base, s.hw.hamper.k, s.hw.hamper.r, (s.hw.f pHAMPER 0 HAMPER_LAST_IDX_POS
        + 1) % max 1 s.hw.hamper.k, s.hw.hamper.dumpTo⟩ ∧
      t.hw.running 8 = some ⟨5, 0⟩ ∧ t.hw.f pHAMPER 0 HAMPER_STATUS_DUMP_QUEUED = 0 ∧ t.hw.f pHAMPER 0
        HAMPER_STATUS_DUMPING = 1)) ∧
  (∀ (x : DumpJob) (n : Nat) (s : State),
    s.hw.running 8 = some ⟨5, 0⟩ ∧ s.hw.hamper.dump = some x ∧ s.memWf ∧ n = x.k * x.r ∧ x.first < x.k →
    x.base + n ≤ x.dst ∨ x.dst + n ≤ x.base →
    Answers (exec .dumpDone s) (fun t =>
      (∀ i, i < 8 * n → t.rd (lineBase x.dst + i) = s.rd (lineBase x.base + (x.first * x.r * 8 + i) % (8 * n)) ∧
        t.tag (lineBase x.dst + i) = s.tag (lineBase x.base + (x.first * x.r * 8 + i) % (8 * n))) ∧
      (∀ g, g < lineBase x.dst ∨ lineBase x.dst + 8 * n ≤ g → t.rd g = s.rd g ∧ t.tag g = s.tag g) ∧
      t.hw.f pHAMPER 0 HAMPER_STATUS_DUMPING = 0 ∧ t.hw.f pHAMPER 0 HAMPER_IRQ_DUMP_DONE = 1 ∧ t.hw.running 8 = none))

/-- O36. A group read while the flash is free changes no memory; a correction at ERR_WARN.THR counts, logs and sets WARN, and
more than 3 wrong bits count, log and set UE. A read that meets a running erase requests a suspend with AUTO_SUS.
PROGRAM that passes every check becomes the running operation with PADDR, PMASK and PDATA; at its end the enabled
words hold the data, the others read erased, and no other word of memory has changed, with OP_DONE; failed, OPSTAT
holds PROG_FAIL. A PROGRAM that fails a check changes no memory and no operation, sets OP_ERR and holds the first
failing cause. MARGIN_PV and MARGIN_EV start, and their end writes MARGIN; a MARGIN_EV with a count makes the sector
HALF unless it is BAD. Where a clause lies on a reading or a choice of the model's own: log entries 84, 85, 89. -/
def Obligations.FlashReadsProgramsAndMargins : Prop :=
  (∀ (r : Option Requester) (w : Fin 8388608) (corr : Nat) (s : State),
    s.hw.flash.op = none ∧ s.hw.flash.erase = none ∧ corr ≤ 3 ∧ 1 ≤ s.hw.f pFLASH 0 FLASH_ERR_WARN_THR ∧ s.hw.f
      pFLASH 0 FLASH_ERR_WARN_THR ≤ corr →
    Answers (exec (.flashRead r w corr) s) (fun t =>
      t.hw.f pFLASH 0 FLASH_IRQ_WARN = 1 ∧ t.hw.f pFLASH 0 FLASH_CNT_CORR_COUNT = min (2 ^ 40 - 1) (s.hw.f pFLASH 0
        FLASH_CNT_CORR_COUNT + 1) ∧
      t.hw.f pFLASH 0 FLASH_ERR_ADDR_OFFSET = w / 4 * 4 ∧ t.hw.f pFLASH 0 FLASH_ERR_INFO_CORR = corr ∧ t.hw.f pFLASH
        0 FLASH_ERR_INFO_UE = 0 ∧
      t.hw.f pFLASH 0 FLASH_ERR_INFO_REQ = (match r with | some r => r.id | none => 255) ∧ t.hw.f pFLASH 0
        FLASH_CNT_UE_COUNT = s.hw.f pFLASH 0 FLASH_CNT_UE_COUNT ∧
      sameMemory s t)) ∧
  (∀ (r : Option Requester) (w : Fin 8388608) (corr : Nat) (s : State),
    s.hw.flash.op = none ∧ s.hw.flash.erase = none ∧ corr < s.hw.f pFLASH 0 FLASH_ERR_WARN_THR →
    Answers (exec (.flashRead r w corr) s) (fun t =>
      t.hw.regs = s.hw.regs ∧ t.hw.flash.badAt w = false ∧
      sameMemory s t)) ∧
  (∀ (r : Option Requester) (w : Fin 8388608) (corr : Nat) (s : State),
    s.hw.flash.op = none ∧ s.hw.flash.erase = none ∧ 3 < corr →
    Answers (exec (.flashRead r w corr) s) (fun t =>
      t.hw.f pFLASH 0 FLASH_IRQ_UE = 1 ∧ t.hw.f pFLASH 0 FLASH_CNT_UE_COUNT = min (2 ^ 40 - 1) (s.hw.f pFLASH 0
        FLASH_CNT_UE_COUNT + 1) ∧
      t.hw.f pFLASH 0 FLASH_ERR_ADDR_OFFSET = w / 4 * 4 ∧ t.hw.f pFLASH 0 FLASH_ERR_INFO_UE = 1 ∧ t.hw.flash.badAt w
        = true ∧
      sameMemory s t)) ∧
  (∀ (r : Option Requester) (w : Fin 8388608) (corr : Nat) (e : EraseSt) (s : State),
    s.hw.flash.op = none ∧ s.hw.flash.erase = some e ∧ e.phase = 1 ∧ e.suspended = false ∧ e.pend = none →
    Answers (exec (.flashRead r w corr) s) (fun t =>
      t.hw.flash.erase = some { e with pend := if s.hw.b pFLASH 0 FLASH_CTRL_AUTO_SUS then some true else none } ∧
      sameMemory s t)) ∧
  (∀ (w : Requester) (a : Nat) (s : State),
    accepts s.hw w pFLASH = true ∧ s.hw.f pFLASH 0 FLASH_PADDR_OFFSET = a ∧ a % 4 = 0 ∧ 8192 ≤ a ∧ flashIdle s.hw →
    ((s.hw.acc w).ring = 0 ∨ s.hw.runSlot = none ∨ slotOf (a / 4096) ≠ s.hw.runSlot) ∧ s.hw.sectorState (a / 4096) ≠
      1 →
    s.fword a = -1 ∧ s.fword (a + 1) = -1 ∧ s.fword (a + 2) = -1 ∧ s.fword (a + 3) = -1 →
    Answers (exec (.flashProgram w) s) (fun t =>
      t.hw.flash.op = some (.program a (s.hw.f pFLASH 0 FLASH_PMASK_WEN) ((List.range 4).map (fun i => s.hw.reg
        pFLASH (0x82 + i) 0))) ∧
      t.hw.f pFLASH 0 FLASH_STATUS_BUSY = 1 ∧ t.hw.f pFLASH 0 FLASH_STATUS_OP = 1 ∧
      sameMemory s t)) ∧
  (∀ (w : Requester) (c : Nat) (s : State),
    accepts s.hw w pFLASH = true →
    c = firstCause [(s.hw.f pFLASH 0 FLASH_PADDR_OFFSET % 4 != 0, 1), (s.hw.rstWait, 2), (decide (s.hw.f pFLASH 0
      FLASH_PADDR_OFFSET < 8192), 3), ((s.hw.acc w).ring != 0 && s.hw.runSlot.isSome && slotOf (s.hw.f pFLASH 0
      FLASH_PADDR_OFFSET / 4096) == s.hw.runSlot, 4), (s.hw.flash.op.isSome || s.hw.flash.erase.any (fun e =>
      !e.suspended), 5), (s.hw.flash.erase.any (fun e => e.sector == s.hw.f pFLASH 0 FLASH_PADDR_OFFSET / 4096), 6),
      (s.hw.sectorState (s.hw.f pFLASH 0 FLASH_PADDR_OFFSET / 4096) == 1, 7), ((List.range 4).any (fun i => s.fword
      (s.hw.f pFLASH 0 FLASH_PADDR_OFFSET + i) != -1), 8)] ∧ c ≠ 0 →
    Answers (exec (.flashProgram w) s) (fun t =>
      t.hw.f pFLASH 0 FLASH_OPSTAT_CAUSE = c ∧ t.hw.f pFLASH 0 FLASH_OPSTAT_LAST_OP = 1 ∧ t.hw.f pFLASH 0
        FLASH_IRQ_OP_ERR = 1 ∧
      t.hw.flash = s.hw.flash ∧ sameMemory s t)) ∧
  (∀ (ok : Bool) (left : List Word) (w mask : Nat) (data : List Word) (s : State),
    s.hw.flash.op = some (.program w mask data) ∧ s.hw.flash.recs = [] ∧ s.hw.flash.erase = none ∧ s.hw.flash.switch
      = false ∧ w + 3 < 8388608 →
    Answers (exec (.programDone ok left) s) (fun t =>
      (∀ i : Fin 4, t.fword (w + i) = (if bitOf mask i then (if ok then data.getD i (-1) else left.getD i (-1)) else
        -1)) ∧
      onlyWords s t (flashAddr w) 4 ∧
      t.hw.flash.op = none ∧ t.hw.f pFLASH 0 FLASH_STATUS_BUSY = 0 ∧ t.hw.f pFLASH 0 FLASH_OPSTAT_LAST_OP = 1 ∧
        t.hw.f pFLASH 0 FLASH_OPSTAT_SECTOR = w / 4096 ∧
      if ok then t.hw.f pFLASH 0 FLASH_IRQ_OP_DONE = 1 else t.hw.f pFLASH 0 FLASH_IRQ_OP_ERR = 1 ∧ t.hw.f pFLASH 0
        FLASH_OPSTAT_CAUSE = 10)) ∧
  (∀ (w : Requester) (sector : Fin 2048) (s : State),
    accepts s.hw w pFLASH = true ∧ s.hw.f pFLASH 0 FLASH_PADDR_OFFSET % 4 = 0 ∧ flashIdle s.hw ∧ s.hw.flash.lwf =
      none →
    Answers (exec (.marginPv w sector) s) (fun t =>
      t.hw.flash.op = some (.margin false sector) ∧ t.hw.f pFLASH 0 FLASH_STATUS_BUSY = 1 ∧ t.hw.f pFLASH 0
        FLASH_STATUS_OP = 3 ∧
      sameMemory s t)) ∧
  (∀ (w : Requester) (sector : Fin 2048) (s : State),
    accepts s.hw w pFLASH = true ∧ s.hw.f pFLASH 0 FLASH_PADDR_OFFSET % 4 = 0 ∧ flashIdle s.hw ∧ s.hw.flash.lwf =
      none →
    Answers (exec (.marginEv w sector) s) (fun t =>
      t.hw.flash.op = some (.margin true sector) ∧ t.hw.f pFLASH 0 FLASH_STATUS_BUSY = 1 ∧ t.hw.f pFLASH 0
        FLASH_STATUS_OP = 3 ∧
      sameMemory s t)) ∧
  (∀ (w : Requester) (sector : Fin 2048) (s : State),
    accepts s.hw w pFLASH = true ∧ s.hw.f pFLASH 0 FLASH_PADDR_OFFSET % 4 = 0 ∧ s.hw.b pRST 0 RST_STATUS_PENDING =
      false ∧ s.hw.flash.op.isSome = true →
    Answers (exec (.marginEv w sector) s) (fun t =>
      t.hw.f pFLASH 0 FLASH_OPSTAT_CAUSE = 5 ∧ t.hw.f pFLASH 0 FLASH_OPSTAT_LAST_OP = 6 ∧ t.hw.f pFLASH 0
        FLASH_OPSTAT_SECTOR = sector ∧ t.hw.f pFLASH 0 FLASH_IRQ_OP_ERR = 1 ∧
      t.hw.flash = s.hw.flash ∧ sameMemory s t)) ∧
  (∀ (count first : Nat) (ev : Bool) (n : Nat) (s : State),
    s.hw.flash.op = some (.margin ev n) ∧ s.hw.flash.recs = [] ∧ s.hw.flash.switch = false ∧ s.hw.flash.erase = none
      ∧ n < 2048 ∧ count ≤ 4096 ∧ first < 8388608 →
    Answers (exec (.marginDone count first) s) (fun t =>
      t.hw.f pFLASH 0 FLASH_MARGIN_COUNT = count ∧ t.hw.f pFLASH 0 FLASH_MARGIN_FIRST = first ∧ t.hw.flash.op = none ∧
      t.hw.sectorState n = (if ev ∧ count ≠ 0 ∧ s.hw.sectorState n ≠ 2 then 1 else s.hw.sectorState n) ∧
      (ev = true ∧ count ≠ 0 ∧ s.hw.sectorState n ≠ 2 → t.hw.f pFLASH 0 FLASH_IRQ_HALF = 1) ∧
      t.hw.f pFLASH 0 FLASH_IRQ_OP_DONE = 1 ∧ t.hw.f pFLASH 0 FLASH_OPSTAT_LAST_OP = (if ev then 6 else 5) ∧ t.hw.f
        pFLASH 0 FLASH_OPSTAT_SECTOR = n ∧
      sameMemory s t))

/-- O37. ERASE that passes its checks waits in maintenance queue 9 with QUEUED; its grant begins with an ERASE_BEGIN record,
for an image slot that is not EMPTY with an IMG_STATE record before it. A record written lies at the next free place
with its KIND, SEQ, arguments and a matching CHECK, changes no other word, and steps SEQ, NEXT and FREE; one that
fails leaves its place, words 0 to 3 erased unless words 4 to 7 took, and is written again. With ERASE_BEGIN written
the erase runs; ERASE_DONE leaves every word of the sector erased (or what a failed erase left) and calls for
ERASE_END, after which the sector is NORMAL with OP_DONE, or BAD with ERASE_FAIL. SUSPEND waits for its acceptance,
which stops the erase unless a reset waits; RESUME and AUTO_RESUME restart it. A record that leaves 64 or fewer free
places makes a switch run next. APPEND makes a USER record. Where a clause lies on a reading or a choice of the
model's own: log entries 84, 86, 87, 88. -/
def Obligations.ErasesRunBetweenTheirRecords : Prop :=
  (∀ (w : Requester) (sector : Fin 2048) (s : State),
    accepts s.hw w pFLASH = true ∧ s.hw.f pFLASH 0 FLASH_PADDR_OFFSET % 4 = 0 ∧ flashIdle s.hw ∧ s.hw.flash.asked =
      none ∧ 2 ≤ sector.val →
    (s.hw.acc w).ring = 0 ∨ s.hw.runSlot = none ∨ slotOf sector ≠ s.hw.runSlot →
    Answers (exec (.flashErase w sector) s) (fun t =>
      t.hw.flash.asked = some (sector.val, ⟨w.id, (s.hw.acc w).ring⟩) ∧ t.hw.f pFLASH 0 FLASH_STATUS_QUEUED = 1 ∧
      t.hw.queue 9 = s.hw.queue 9 ++ [⟨7, sector.val⟩] ∧ t.hw.f pFLASH 0 FLASH_STATUS_BUSY = 0 ∧
      sameMemory s t)) ∧
  (∀ (n : Nat) (a : Asker) (s : State),
    s.hw.flash.asked = some (n, a) ∧ s.hw.grantable 9 ⟨7, n⟩ (fun _ => true) = true ∧ flashIdle s.hw ∧ s.hw.f
      pLEDGER 0 LEDGER_STATUS_FREE ≠ 0 →
    slotOf n = none →
    Answers (exec (.eraseGrant ()) s) (fun t =>
      t.hw.flash.op = some (.record ⟨1, w40 n, 0, 0, s.hw.recordTime, s.hw.b pDTIME 0 DTIME_STATUS_VALID, a, .erase
        false⟩) ∧
      t.hw.flash.erase = some ⟨n, a, 0, false, false, false, none, false, 0⟩ ∧ t.hw.flash.asked = none ∧
        t.hw.running 9 = some ⟨7, n⟩ ∧
      t.hw.f pFLASH 0 FLASH_STATUS_QUEUED = 0 ∧ t.hw.f pFLASH 0 FLASH_STATUS_BUSY = 1 ∧
      sameMemory s t)) ∧
  (∀ (n slot : Nat) (a : Asker) (s : State),
    s.hw.flash.asked = some (n, a) ∧ s.hw.grantable 9 ⟨7, n⟩ (fun _ => true) = true ∧ flashIdle s.hw ∧ s.hw.f
      pLEDGER 0 LEDGER_STATUS_FREE ≠ 0 →
    slotOf n = some slot ∧ s.hw.imgRec slot ≠ 0 →
    Answers (exec (.eraseGrant ()) s) (fun t =>
      t.hw.flash.op = some (.record ⟨4, w40 slot, 0, 0, s.hw.recordTime, s.hw.b pDTIME 0 DTIME_STATUS_VALID, a, .img
        slot 0 false⟩) ∧
      t.hw.flash.recs = [⟨1, w40 n, 0, 0, s.hw.recordTime, s.hw.b pDTIME 0 DTIME_STATUS_VALID, a, .erase false⟩])) ∧
  (∀ (left : List Word) (r : LedgerRec) (s : State),
    s.hw.flash.op = some (.record r) ∧ s.hw.nextPlace + 8 ≤ 8192 ∧ s.hw.f pLEDGER 0 LEDGER_NEXT_ADDR < 2 ^ 32 - 8 ∧
      65 < s.hw.f pLEDGER 0 LEDGER_STATUS_FREE ∧ r.after' ≠ .switch →
    Answers (exec (.ledgerRecordDone true left) s) (fun t =>
      recordAt t (ledgerPlace s.hw) r.kind (s.hw.f pLEDGER 0 LEDGER_SEQ_SEQ) r.a0 r.a1 r.a2 ∧
      t.rd (ledgerPlace s.hw + 4) = w40 r.time ∧ bitsOf (t.rd (ledgerPlace s.hw + 6)).toNat 0 8 = r.who.id % 256 ∧
        bitsOf (t.rd (ledgerPlace s.hw + 6)).toNat 8 2 = r.who.ring % 4 ∧ bitsOf (t.rd (ledgerPlace s.hw + 6)).toNat
        39 1 = b2n r.tvalid ∧
      onlyWords s t (ledgerPlace s.hw) 8 ∧
      t.hw.f pLEDGER 0 LEDGER_SEQ_SEQ = (s.hw.f pLEDGER 0 LEDGER_SEQ_SEQ + 1) % 2 ^ 32 ∧ t.hw.f pLEDGER 0
        LEDGER_NEXT_ADDR = s.hw.f pLEDGER 0 LEDGER_NEXT_ADDR + 8 ∧ t.hw.f pLEDGER 0 LEDGER_STATUS_FREE = s.hw.f
        pLEDGER 0 LEDGER_STATUS_FREE - 1)) ∧
  (∀ (left : List Word) (r : LedgerRec) (s : State),
    s.hw.flash.op = some (.record r) ∧ s.hw.nextPlace + 8 ≤ 8192 ∧ s.hw.f pLEDGER 0 LEDGER_NEXT_ADDR < 2 ^ 32 - 8 ∧
      65 < s.hw.f pLEDGER 0 LEDGER_STATUS_FREE ∧ s.hw.flash.switch = false →
    s.hw.flash.erase = none →
    Answers (exec (.ledgerRecordDone false left) s) (fun t =>
      (∀ i : Fin 4, t.rd (ledgerPlace s.hw + 4 + i) = left.getD (4 + i) (-1)) ∧
      if ∀ i : Fin 4, left.getD (4 + i) (-1) = (r.words (s.hw.f pLEDGER 0 LEDGER_SEQ_SEQ)).getD (4 + i) (-1) then ∀
        i : Fin 4, t.rd (ledgerPlace s.hw + i) = left.getD i (-1) else ∀ i : Fin 4, t.rd (ledgerPlace s.hw + i) = -1 ∧
      onlyWords s t (ledgerPlace s.hw) 8 ∧
      t.hw.flash.op = some (.record r) ∧ t.hw.f pLEDGER 0 LEDGER_SEQ_SEQ = s.hw.f pLEDGER 0 LEDGER_SEQ_SEQ ∧ t.hw.f
        pLEDGER 0 LEDGER_NEXT_ADDR = s.hw.f pLEDGER 0 LEDGER_NEXT_ADDR + 8)) ∧
  (∀ (left : List Word) (r : LedgerRec) (s : State),
    s.hw.flash.op = some (.record r) ∧ s.hw.f pLEDGER 0 LEDGER_STATUS_FREE ≤ 65 ∧ 1 ≤ s.hw.f pLEDGER 0
      LEDGER_STATUS_FREE ∧ s.hw.flash.erase = none ∧ s.hw.flash.recs = [] ∧ r.after' = .user ∧ s.hw.b pRST 0
      RST_STATUS_PENDING = false →
    Answers (exec (.ledgerRecordDone true left) s) (fun t =>
      t.hw.flash.op = some (.switchErase (1 - s.hw.f pLEDGER 0 LEDGER_STATUS_ACTIVE)) ∧ t.hw.f pFLASH 0
        FLASH_STATUS_LEDGER_SW = 1)) ∧
  (∀ (left : List Word) (r : LedgerRec) (e : EraseSt) (s : State),
    s.hw.flash.op = some (.record r) ∧ r.after' = .erase false ∧ s.hw.flash.erase = some e ∧ e.resume = false ∧
      e.suspended = false ∧ s.hw.flash.switch = false ∧ s.hw.flash.recs = [] →
    Answers (exec (.ledgerRecordDone true left) s) (fun t =>
      t.hw.flash.erase = some { e with phase := 1, ran := 0 } ∧ t.hw.flash.op = none ∧ t.hw.f pFLASH 0
        FLASH_STATUS_OP = 2 ∧ t.hw.f pFLASH 0 FLASH_RUNTIME_US = 0)) ∧
  (∀ (ok : Bool) (left : List (Nat × Word)) (e : EraseSt) (s : State),
    s.hw.flash.op = none ∧ s.hw.flash.erase = some e ∧ e.phase = 1 ∧ e.suspended = false ∧ e.sector < 2048 ∧ e.us <
      2 ^ 15 →
    s.hw.flash.switch = false ∧ s.hw.flash.recs = [] ∧ s.hw.f pLEDGER 0 LEDGER_STATUS_FREE ≠ 0 →
    Answers (exec (.eraseDone ok left ()) s) (fun t =>
      (ok = true → ∀ i : Fin 4096, t.fword (4096 * e.sector + i) = -1) ∧
      onlyWords s t (flashAddr (4096 * e.sector)) 4096 ∧
      t.hw.f pFLASH 0 FLASH_RUNTIME_US = e.us ∧
      t.hw.flash.op = some (.record ⟨2, w40 e.sector, w40 (b2n (!ok)), w40 e.us, s.hw.recordTime, s.hw.b pDTIME 0
        DTIME_STATUS_VALID, e.who, .erase true⟩) ∧
      t.hw.flash.erase = some { e with phase := 2, failed := !ok, pend := none })) ∧
  (∀ (left : List Word) (r : LedgerRec) (e : EraseSt) (s : State),
    s.hw.flash.op = some (.record r) ∧ r.after' = .erase true ∧ s.hw.flash.erase = some e ∧ e.sector < 2048 ∧
      s.hw.flash.switch = false ∧ s.hw.flash.recs = [] ∧ 65 < s.hw.f pLEDGER 0 LEDGER_STATUS_FREE →
    Answers (exec (.ledgerRecordDone true left) s) (fun t =>
      t.hw.flash.erase = none ∧ t.hw.flash.op = none ∧ t.hw.f pFLASH 0 FLASH_STATUS_BUSY = 0 ∧ t.hw.sectorState
        e.sector = (if e.failed then 2 else 0) ∧
      if e.failed then t.hw.f pFLASH 0 FLASH_IRQ_OP_ERR = 1 ∧ t.hw.f pFLASH 0 FLASH_OPSTAT_CAUSE = 11 else t.hw.f
        pFLASH 0 FLASH_IRQ_OP_DONE = 1 ∧
      t.hw.f pFLASH 0 FLASH_OPSTAT_LAST_OP = 2 ∧ t.hw.f pFLASH 0 FLASH_OPSTAT_SECTOR = e.sector ∧
      (s.hw.running 9 = some ⟨7, e.sector⟩ → t.hw.running 9 = none))) ∧
  (∀ (w : Requester) (e : EraseSt) (s : State),
    accepts s.hw w pFLASH = true ∧ s.hw.f pFLASH 0 FLASH_PADDR_OFFSET % 4 = 0 ∧ s.hw.flash.erase = some e ∧ e.phase
      = 1 ∧ e.suspended = false →
    Answers (exec (.flashSuspend w) s) (fun t =>
      t.hw.flash.erase = some { e with pend := some false } ∧ t.hw.f pFLASH 0 FLASH_STATUS_SUS_PEND = 1 ∧ t.hw.f
        pFLASH 0 FLASH_STATUS_SUSPENDED = 0)) ∧
  (∀ (auto : Bool) (e : EraseSt) (s : State),
    s.hw.flash.erase = some e ∧ e.phase = 1 ∧ e.suspended = false ∧ e.pend = some auto ∧ s.hw.b pRST 0
      RST_STATUS_PENDING = false →
    s.hw.flash.recs = [] →
    Answers (exec (.suspendAccept ()) s) (fun t =>
      t.hw.flash.erase = some { e with suspended := true, auto := auto, pend := none } ∧ t.hw.f pFLASH 0
        FLASH_STATUS_SUSPENDED = 1 ∧ t.hw.f pFLASH 0 FLASH_STATUS_SUS_PEND = 0 ∧
      t.hw.f pFLASH 0 FLASH_RUNTIME_US = s.hw.f pFLASH 0 FLASH_RUNTIME_US ∧
      (auto = false → t.hw.f pFLASH 0 FLASH_IRQ_OP_DONE = 1 ∧ t.hw.f pFLASH 0 FLASH_OPSTAT_LAST_OP = 3))) ∧
  (∀ (s : State),
    s.hw.b pRST 0 RST_STATUS_PENDING = true →
    Answers (exec (.suspendAccept ()) s) (fun t =>
      t = s)) ∧
  (∀ (w : Requester) (e : EraseSt) (s : State),
    accepts s.hw w pFLASH = true ∧ s.hw.f pFLASH 0 FLASH_PADDR_OFFSET % 4 = 0 ∧ s.hw.flash.erase = some e ∧
      e.suspended = true ∧ s.hw.flash.op = none →
    Answers (exec (.flashResume w) s) (fun t =>
      t.hw.flash.erase = some { e with suspended := false, auto := false, resume := false } ∧ t.hw.f pFLASH 0
        FLASH_STATUS_SUSPENDED = 0 ∧
      t.hw.f pFLASH 0 FLASH_IRQ_OP_DONE = 1 ∧ t.hw.f pFLASH 0 FLASH_OPSTAT_LAST_OP = 4 ∧ t.hw.f pFLASH 0
        FLASH_OPSTAT_SECTOR = e.sector % 2048)) ∧
  (∀ (w : Requester) (s : State),
    accepts s.hw w pFLASH = true ∧ s.hw.f pFLASH 0 FLASH_PADDR_OFFSET % 4 = 0 ∧ s.hw.flash.erase = none →
    Answers (exec (.flashResume w) s) (fun t =>
      t.hw.f pFLASH 0 FLASH_IRQ_OP_ERR = 1 ∧ t.hw.f pFLASH 0 FLASH_OPSTAT_CAUSE = 9 ∧ t.hw.f pFLASH 0
        FLASH_OPSTAT_LAST_OP = 4 ∧ t.hw.flash = s.hw.flash)) ∧
  (∀ (e : EraseSt) (s : State),
    s.hw.flash.erase = some e ∧ e.suspended = true ∧ e.auto = true ∧ s.hw.flash.op = none →
    Answers (exec .autoResume s) (fun t =>
      t.hw.flash.erase = some { e with suspended := false, auto := false, resume := false } ∧ t.hw.f pFLASH 0
        FLASH_STATUS_SUSPENDED = 0)) ∧
  (∀ (w : Requester) (d : Word) (s : State),
    accepts s.hw w pLEDGER = true ∧ bitOf d.toNat 0 = true ∧ s.hw.b pLEDGER 0 LEDGER_STATUS_APP_BUSY = false ∧
      flashIdle s.hw ∧ s.hw.f pLEDGER 0 LEDGER_STATUS_FREE ≠ 0 →
    Answers (exec (.ledgerAppend w d) s) (fun t =>
      t.hw.flash.op = some (.record ⟨14, s.hw.reg pLEDGER 0x83 0, s.hw.reg pLEDGER 0x84 0, s.hw.reg pLEDGER 0x85 0,
        s.hw.recordTime, s.hw.b pDTIME 0 DTIME_STATUS_VALID, ⟨w.id, (s.hw.acc w).ring⟩, .user⟩) ∧
      t.hw.f pLEDGER 0 LEDGER_STATUS_APP_BUSY = 1 ∧ t.hw.f pFLASH 0 FLASH_STATUS_OP = 4))

/-- O38. MARK_TRIAL, CONFIRM, START and REJECT that their tables permit make an IMG_STATE record (START of a CONFIRMED slot
sets RUN at once), whose completion changes the slot's state and, for START, RUN; one that they do not permit changes
no slot, sets IMG_ERR and holds the first failing cause. LWF_WRITE of a field below 9 with the key, a free slot and no
monotonic breach makes an LWF_WRITE record with BUSY; otherwise WSTAT holds the first failing cause and the array is
unchanged. When the slot reads back, the field takes the value with WR_DONE; when it does not, it keeps its value with
cause VERIFY, and a slot of which no bit took is spoiled (the model's choice of the bit: log entry 169). LWF_LOAD
gives every field the value of its highest valid slot. Where a clause lies on a reading or a choice of the model's
own: log entries 90, 91, 92, 169. -/
def Obligations.ImageSlotsAndLimitedWrites : Prop :=
  (∀ (w : Requester) (slot : Fin 2) (s : State),
    accepts s.hw w pFLASH = true ∧ flashIdle s.hw ∧ s.hw.f pLEDGER 0 LEDGER_STATUS_FREE ≠ 0 ∧ s.hw.runSlot ≠ some
      slot.val →
    (s.hw.imgState (1 - slot.val) = 3 ∨ s.hw.b pDEV 0 DEV_STATUS_RECOVERY = true) ∧ s.hw.damaged slot = false ∧
      (s.hw.imgState slot = 0 ∨ s.hw.imgState slot = 3 ∨ s.hw.imgState slot = 4) →
    Answers (exec (.imgMarkTrial w slot) s) (fun t =>
      t.hw.flash.op = some (.record ⟨4, w40 slot, 1, 0, s.hw.recordTime, s.hw.b pDTIME 0 DTIME_STATUS_VALID, ⟨w.id,
        (s.hw.acc w).ring⟩, .img slot 1 false⟩) ∧
      (∀ x, t.hw.imgRec x = s.hw.imgRec x))) ∧
  (∀ (w : Requester) (slot : Fin 2) (c : Nat) (s : State),
    accepts s.hw w pFLASH = true →
    c = firstCause [(s.hw.runSlot == some slot.val, 1), (s.hw.imgState (1 - slot.val) != 3 && !s.hw.b pDEV 0
      DEV_STATUS_RECOVERY, 2), (s.hw.damaged slot, 3), (s.hw.imgState slot != 0 && s.hw.imgState slot != 3 &&
      s.hw.imgState slot != 4, 4)] ∧ c ≠ 0 →
    Answers (exec (.imgMarkTrial w slot) s) (fun t =>
      t.hw.f pFLASH 0 FLASH_IMG_STAT_CAUSE = c ∧ t.hw.f pFLASH 0 FLASH_IRQ_IMG_ERR = 1 ∧ t.hw.flash = s.hw.flash)) ∧
  (∀ (w : Requester) (slot : Fin 2) (s : State),
    accepts s.hw w pFLASH = true ∧ flashIdle s.hw ∧ s.hw.f pLEDGER 0 LEDGER_STATUS_FREE ≠ 0 ∧ s.hw.damaged slot =
      false →
    s.hw.imgState slot = 2 ∧ s.hw.runSlot = some slot.val →
    Answers (exec (.imgConfirm w slot) s) (fun t =>
      t.hw.flash.op = some (.record ⟨4, w40 slot, 3, 0, s.hw.recordTime, s.hw.b pDTIME 0 DTIME_STATUS_VALID, ⟨w.id,
        (s.hw.acc w).ring⟩, .img slot 3 false⟩))) ∧
  (∀ (w : Requester) (slot : Fin 2) (s : State),
    accepts s.hw w pFLASH = true ∧ s.hw.damaged slot = false ∧ s.hw.imgState slot ≠ 3 ∧ (s.hw.imgState slot ≠ 2 ∨
      s.hw.runSlot ≠ some slot.val) →
    s.hw.imgState 0 ≠ 3 ∧ s.hw.imgState 1 ≠ 3 ∧ (s.hw.acc w).ring ≠ 0 →
    Answers (exec (.imgConfirm w slot) s) (fun t =>
      t.hw.f pFLASH 0 FLASH_IMG_STAT_CAUSE = 5 ∧ t.hw.f pFLASH 0 FLASH_IRQ_IMG_ERR = 1 ∧ t.hw.flash = s.hw.flash)) ∧
  (∀ (w : Requester) (slot : Fin 2) (s : State),
    accepts s.hw w pFLASH = true ∧ s.hw.damaged slot = false ∧ s.hw.runSlot = none ∧ (s.hw.acc w).ring = 0 ∧
      s.hw.imgState slot = 3 →
    Answers (exec (.imgStart w slot) s) (fun t =>
      t.hw.runSlot = some slot.val ∧ t.hw.flash = s.hw.flash)) ∧
  (∀ (w : Requester) (slot : Fin 2) (s : State),
    accepts s.hw w pFLASH = true ∧ s.hw.damaged slot = false ∧ s.hw.runSlot = none ∧ (s.hw.acc w).ring = 0 ∧
      s.hw.imgState slot = 1 →
    flashIdle s.hw ∧ s.hw.f pLEDGER 0 LEDGER_STATUS_FREE ≠ 0 →
    Answers (exec (.imgStart w slot) s) (fun t =>
      t.hw.flash.op = some (.record ⟨4, w40 slot, 2, 0, s.hw.recordTime, s.hw.b pDTIME 0 DTIME_STATUS_VALID, ⟨w.id,
        0⟩, .img slot 2 true⟩))) ∧
  (∀ (w : Requester) (slot : Fin 2) (s : State),
    accepts s.hw w pFLASH = true ∧ flashIdle s.hw ∧ s.hw.f pLEDGER 0 LEDGER_STATUS_FREE ≠ 0 ∧ (s.hw.acc w).ring = 0
      ∧ (s.hw.imgRec slot = 1 ∨ s.hw.imgRec slot = 2) →
    Answers (exec (.imgReject w slot) s) (fun t =>
      t.hw.flash.op = some (.record ⟨4, w40 slot, 4, 0, s.hw.recordTime, s.hw.b pDTIME 0 DTIME_STATUS_VALID, ⟨w.id,
        0⟩, .img slot 4 false⟩))) ∧
  (∀ (left : List Word) (r : LedgerRec) (slot state : Nat) (run : Bool) (s : State),
    s.hw.flash.op = some (.record r) ∧ r.after' = .img slot state run ∧ slot < 2 ∧ 65 < s.hw.f pLEDGER 0
      LEDGER_STATUS_FREE ∧ s.hw.flash.erase = none ∧ s.hw.flash.switch = false ∧ s.hw.flash.recs = [] →
    Answers (exec (.ledgerRecordDone true left) s) (fun t =>
      (t.hw.imgRec slot = state ∧ t.hw.imgRec (1 - slot) = s.hw.imgRec (1 - slot) ∧ (run = true → t.hw.runSlot =
        some slot)) ∧
      t.hw.flash.pref = (if state = 3 then slot else s.hw.flash.pref) ∧ t.hw.flash.op = none)) ∧
  (∀ (w : Requester) (d : Word) (n v : Nat) (s : State),
    accepts s.hw w pLWF = true ∧ d.toNat % 16 = n ∧ v = s.hw.lwfStaged n ∧ firstCause (lwfCauses s.hw n (d.toNat /
      256 % 65536) v) = 0 →
    flashIdle s.hw ∧ s.hw.f pLEDGER 0 LEDGER_STATUS_FREE ≠ 0 →
    Answers (exec (.lwfWrite w d) s) (fun t =>
      t.hw.f pLWF 0 LWF_STATUS_BUSY = 1 ∧ t.hw.flash.array = s.hw.flash.array ∧
      t.hw.flash.lwf = some ⟨n, if n = 7 then v else (lwfNextFree s.hw.flash.array n).getD 0, v, false⟩ ∧
      (∃ r : LedgerRec, t.hw.flash.op = some (.record r) ∧ r.kind = 3 ∧ r.a1 = w40 v ∧ r.after' = .lwf ∧ r.a0 = w40
        (n * 256 + if n = 7 then v else (lwfNextFree s.hw.flash.array n).getD 0)))) ∧
  (∀ (w : Requester) (d : Word) (n c : Nat) (s : State),
    accepts s.hw w pLWF = true ∧ d.toNat % 16 = n ∧ c = firstCause (lwfCauses s.hw n (d.toNat / 256 % 65536)
      (s.hw.lwfStaged n)) ∧ c ≠ 0 →
    Answers (exec (.lwfWrite w d) s) (fun t =>
      t.hw.f pLWF 0 LWF_WSTAT_CAUSE = c ∧ t.hw.f pLWF 0 LWF_WSTAT_FIELD = n ∧ t.hw.f pLWF 0 LWF_IRQ_WR_ERR = 1 ∧
        t.hw.flash = s.hw.flash)) ∧
  (∀ (got : Nat) (x : LwfWrite) (s : State),
    s.hw.flash.lwf = some x ∧ x.recorded = true ∧ x.field < 9 ∧ x.field ≠ 1 ∧ x.field ≠ 7 ∧ x.slot < 8 ∧ x.value < 2
      ^ lwfWidth x.field →
    lwfFree s.hw.flash.array x.field x.slot = true ∧ lwfBits x &&& got = lwfBits x →
    Answers (exec (.lwfWriteDone got) s) (fun t =>
      t.hw.lwf x.field = x.value ∧ t.hw.flash.lwf = none ∧ t.hw.flash.array = s.hw.flash.array ||| lwfBits x ∧
      t.hw.f pLWF 0 LWF_IRQ_WR_DONE = 1 ∧ t.hw.f pLWF 0 LWF_WSTAT_CAUSE = 0 ∧ t.hw.f pLWF 0 LWF_WSTAT_FIELD =
        x.field ∧ t.hw.f pLWF 0 LWF_WSTAT_SLOT = x.slot ∧ t.hw.f pLWF 0 LWF_STATUS_BUSY = 0 ∧
      lwfValid t.hw.flash.array x.field x.slot = true)) ∧
  (∀ (x : LwfWrite) (s : State),
    s.hw.flash.lwf = some x ∧ x.recorded = true ∧ x.field < 9 ∧ lwfFree s.hw.flash.array x.field x.slot = true ∧
      x.field ≠ 7 →
    x.slot < lwfSlots x.field ∧ x.value < 2 ^ lwfWidth x.field →
    Answers (exec (.lwfWriteDone 0) s) (fun t =>
      t.hw.lwf x.field = s.hw.lwf x.field ∧ t.hw.f pLWF 0 LWF_WSTAT_CAUSE = 6 ∧ t.hw.f pLWF 0 LWF_IRQ_WR_ERR = 1 ∧
        t.hw.f pLWF 0 LWF_IRQ_SPOILED = 1 ∧ t.hw.flash.array = s.hw.flash.array ||| lowestBit (lwfFirst x) ∧
      lwfFree t.hw.flash.array x.field x.slot = false ∧ lwfValid t.hw.flash.array x.field x.slot = false ∧
        t.hw.flash.lwf = none)) ∧
  (∀ (rep : BootRep) (s : State),
    s.hw.b pLWF 0 LWF_STATUS_LOADED = false ∧ s.hw.heldInReset = false ∧ s.hw.deep = false ∧ s.hw.bootDue = false →
    Answers (exec (.lwfLoad rep) s) (fun t =>
      t.hw.f pLWF 0 LWF_STATUS_LOADED = 1 ∧ ∀ n : Fin 9, t.hw.lwf n = lwfValue s.hw.flash.array n % 2 ^ 40 ∧
      sameMemory s t))

/-- O39. EN, signal, block lock of all lanes or of lane 0 after 1 ms, deskew within 32 blocks and INIT take a port DISABLED,
DETECT, TRAIN, DESKEW, INIT, ACTIVE; without lane 0 lock, TRAIN goes back to DETECT, and a failed deskew to TRAIN with
DESKEW_ERR. INIT agrees the width, restarts LSEQ and EXP at 0 with full credits, sets UP and sends HELLO. Lock loss on
a USED lane, RETRAIN written or received move ACTIVE to RETRAIN with DOWN, Mend's buffer kept; INIT from RETRAIN
resumes it from the partner's EXP; after 10 µs, or with EN 0, the link is torn: buffer discarded and counted, TORN
set. Where a clause lies on a reading or a choice of the model's own: log entries 93, 95. -/
def Obligations.PortsComeUpRetrainAndTear : Prop :=
  (∀ (w : Requester) (k : Fin 4) (d : Word) (s : State),
    accepts s.hw w (pDL k) = true ∧ s.hw.pstate k = 0 ∧ s.hw.domainRuns 40 = true ∧ bitOf d.toNat 0 = true ∧ bitOf
      d.toNat 1 = false →
    Answers (exec (.portEnable w k d) s) (fun t =>
      t.hw.pstate k = 1 ∧ t.hw.f (pDL k) 0 DL_CTRL_EN = 1 ∧ t.hw.f (pDL k) 0 DL_CTRL_WMAX = bitsOf d.toNat 2 2 ∧
      lanesAre t.hw k DL_LSTAT_BLOCK_LOCK 0)) ∧
  (∀ (w : Requester) (k : Fin 4) (d : Word) (s : State),
    accepts s.hw w (pDL k) = true ∧ (s.hw.pstate k = 5 ∨ s.hw.pstate k = 6) ∧ bitOf d.toNat 0 = false →
    Answers (exec (.portEnable w k d) s) (fun t =>
      t.hw.pstate k = 0 ∧ t.hw.f (pDL k) 0 DL_IRQ_TORN = 1 ∧ (t.hw.port k).retry = [] ∧
      t.hw.f (pDL k) 0 DL_LOST_CNT_COUNT = (s.hw.f (pDL k) 0 DL_LOST_CNT_COUNT + unacked s.hw k) % 2 ^ 40 ∧
      t.hw.f (pDL k) 0 DL_TORN_CNT_COUNT = (s.hw.f (pDL k) 0 DL_TORN_CNT_COUNT + 1) % 2 ^ 40 ∧
      (s.hw.pstate k = 5 → t.hw.f (pDL k) 0 DL_IRQ_DOWN = 1))) ∧
  (∀ (k : Fin 4) (s : State),
    s.hw.pstate k = 1 →
    Answers (exec (.signalDetect k) s) (fun t =>
      t.hw.pstate k = (if s.hw.lockMask k = 15 then 3 else 2))) ∧
  (∀ (k : Fin 4) (eq : List Nat) (s : State),
    s.hw.pstate k = 2 ∧ s.hw.swAt = [] →
    Answers (exec (.blockLockAcquired k 15 eq) s) (fun t =>
      t.hw.pstate k = 3 ∧ lanesAre t.hw k DL_LSTAT_BLOCK_LOCK 15 ∧ lanesAre t.hw k DL_LSTAT_USED 15 ∧
      (∀ l : Fin 4, t.hw.f (pDL k) l DL_RXEQ_CTLE = (if (s.hw.port k).eqAuto.getD l true then eq.getD l 0 % 256 else
        s.hw.f (pDL k) l DL_RXEQ_CTLE)))) ∧
  (∀ (k : Fin 4) (s : State),
    s.hw.pstate k = 2 →
    Answers (exec (.trainTimeout k) s) (fun t =>
      t.hw.pstate k = (if s.hw.f (pDL k) 0 DL_LSTAT_BLOCK_LOCK = 1 then 3 else 1) ∧
      (s.hw.f (pDL k) 0 DL_LSTAT_BLOCK_LOCK = 1 → ∀ l : Fin 4, t.hw.f (pDL k) l DL_LSTAT_USED = s.hw.f (pDL k) l
        DL_LSTAT_BLOCK_LOCK))) ∧
  (∀ (k : Fin 4) (skew : List Nat) (s : State),
    s.hw.pstate k = 3 ∧ ∀ l : Fin 4, skew.getD l 0 ≤ 32 →
    Answers (exec (.deskewDone k skew) s) (fun t =>
      (t.hw.pstate k = 4 ∧ ∀ l : Fin 4, s.hw.b (pDL k) l DL_LSTAT_USED = true → t.hw.f (pDL k) l DL_LSTAT_SKEW =
        skew.getD l 0) ∧
      (∃ body, t.hw.out = s.hw.out ++ [.lctl k 4 body] ∧ body % 16 = s.hw.lockMask k))) ∧
  (∀ (k : Fin 4) (s : State),
    s.hw.pstate k = 3 →
    Answers (exec (.deskewFail k) s) (fun t =>
      t.hw.pstate k = (if s.hw.lockMask k = 15 then 3 else 2) ∧ t.hw.f (pDL k) 0 DL_IRQ_DESKEW_ERR = 1)) ∧
  (∀ (k : Fin 4) (lanes : BitVec 4) (exp : BitVec 12) (torn : Bool) (s : State),
    s.hw.pstate k = 4 →
    Answers (exec (.lctlInit k lanes exp torn) s) (fun t =>
      t.hw.pstate k = 5 ∧ t.hw.f (pDL k) 0 DL_IRQ_UP = 1 ∧
      (t.hw.f (pDL k) 0 DL_STATUS_WIDTH = (if s.hw.usedMask k &&& lanes.toNat = 15 ∧ (s.hw.f (pDL k) 0 DL_CTRL_WMAX
        = 0 ∨ s.hw.f (pDL k) 0 DL_CTRL_WMAX = 3) then 0 else if (s.hw.usedMask k &&& lanes.toNat) % 4 = 3 ∧ s.hw.f
        (pDL k) 0 DL_CTRL_WMAX ≠ 2 then 1 else 2)) ∧
      t.hw.f (pDL k) 0 DL_MEND_EXP = 0 ∧ t.hw.f (pDL k) 0 DL_MEND_NEXT = 0 ∧ t.hw.f (pDL k) 0 DL_MEND_ACKED = 4095 ∧
        t.hw.f (pDL k) 0 DL_CREDIT_ROUTED = 4096 ∧
      (t.hw.port k).retry = [] ∧ (t.hw.port k).credL = 256 ∧ (t.hw.port k).loc = (s.hw.port k).loc ++ [⟨0x10,
        s.hw.helloWords⟩])) ∧
  (∀ (k : Fin 4) (lanes : BitVec 4) (exp : BitVec 12) (n : Nat) (s : State),
    s.hw.pstate k = 6 ∧ (s.hw.port k).aligned = true ∧ n = (exp.toNat + 4095 + 4096 - s.hw.f (pDL k) 0
      DL_MEND_ACKED) % 4096 ∧ n ≤ (s.hw.port k).retry.length →
    Answers (exec (.lctlInit k lanes exp false) s) (fun t =>
      t.hw.pstate k = 5 ∧ t.hw.f (pDL k) 0 DL_IRQ_UP = 1 ∧
      t.hw.f (pDL k) 0 DL_MEND_EXP = s.hw.f (pDL k) 0 DL_MEND_EXP ∧ t.hw.f (pDL k) 0 DL_MEND_NEXT = s.hw.f (pDL k) 0
        DL_MEND_NEXT ∧
      (t.hw.port k).retry.map (fun r => (r.lseq, r.frame)) = ((s.hw.port k).retry.drop n).map (fun r => (r.lseq,
        r.frame)) ∧
      (t.hw.port k).resend = (((s.hw.port k).retry.drop n).head?.map (fun r => r.lseq)) ∧
      t.hw.f (pDL k) 0 DL_STATUS_WIDTH = s.hw.f (pDL k) 0 DL_STATUS_WIDTH ∧ t.hw.f (pDL k) 0 DL_LOST_CNT_COUNT =
        s.hw.f (pDL k) 0 DL_LOST_CNT_COUNT)) ∧
  (∀ (k l : Fin 4) (errs : Nat) (s : State),
    s.hw.pstate k = 5 ∧ s.hw.b (pDL k) l DL_LSTAT_USED = true →
    Answers (exec (.blockLockLoss k (some l) errs) s) (fun t =>
      t.hw.pstate k = 6 ∧ t.hw.f (pDL k) 0 DL_IRQ_DOWN = 1 ∧ t.hw.f (pDL k) l DL_LSTAT_BLOCK_LOCK = 0 ∧
      t.hw.f (pDL k) l DL_LERR_COUNT = min (2 ^ 40 - 1) (s.hw.f (pDL k) l DL_LERR_COUNT + errs) ∧ (t.hw.port
        k).retry = (s.hw.port k).retry)) ∧
  (∀ (k l : Fin 4) (errs : Nat) (s : State),
    s.hw.pstate k = 6 ∧ s.hw.b (pDL k) l DL_LSTAT_USED = true →
    Answers (exec (.blockLockLoss k (some l) errs) s) (fun t =>
      t.hw.pstate k = 6 ∧ (t.hw.port k).aligned = false ∧ t.hw.f (pDL k) l DL_LSTAT_BLOCK_LOCK = 0)) ∧
  (∀ (k : Fin 4) (errs : Nat) (s : State),
    s.hw.pstate k = 5 →
    Answers (exec (.blockLockLoss k none errs) s) (fun t =>
      t.hw.pstate k = 6 ∧ t.hw.f (pDL k) 0 DL_IRQ_DOWN = 1)) ∧
  (∀ (w : Requester) (k : Fin 4) (d : Word) (s : State),
    accepts s.hw w (pDL k) = true ∧ s.hw.pstate k = 5 ∧ bitOf d.toNat 0 = true →
    Answers (exec (.retrainWrite w k d) s) (fun t =>
      t.hw.pstate k = 6 ∧ t.hw.f (pDL k) 0 DL_IRQ_DOWN = 1 ∧ (t.hw.port k).retry = (s.hw.port k).retry)) ∧
  (∀ (k : Fin 4) (s : State),
    s.hw.pstate k = 5 →
    Answers (exec (.lctlRetrain k) s) (fun t =>
      t.hw.pstate k = 6 ∧ t.hw.f (pDL k) 0 DL_IRQ_DOWN = 1 ∧ (t.hw.port k).retry = (s.hw.port k).retry)) ∧
  (∀ (k : Fin 4) (s : State),
    s.hw.pstate k = 6 →
    Answers (exec (.retrainTimeout k) s) (fun t =>
      t.hw.pstate k = (if s.hw.lockMask k = 15 then 3 else 2) ∧ t.hw.f (pDL k) 0 DL_IRQ_TORN = 1 ∧ (t.hw.port
        k).retry = [] ∧ t.hw.f (pDL k) 0 DL_STATUS_ROLE = 0 ∧
      t.hw.f (pDL k) 0 DL_LOST_CNT_COUNT = (s.hw.f (pDL k) 0 DL_LOST_CNT_COUNT + unacked s.hw k) % 2 ^ 40 ∧
      (s.hw.role k = 1 ∧ s.hw.jstate = 2 → t.hw.jstate = 0 ∧ t.hw.f (pDL 0) 0 DL_DSTAT_PREV_ID = s.hw.nodeId ∧
        t.hw.f (pDL 0) 0 DL_IRQ_LEFT = 1 ∧ t.hw.dom.routes = [])))

/-- O40. A port starts a LOCAL frame first, else a COMMAND frame before any other class; a new ROUTED frame leaves with the
next LSEQ, enters the retry buffer, takes its blocks from the credits and counts in TX_CNT. A frame with LSEQ = EXP
and a good CRC is accepted: EXP steps, an ACK leaves, and the frame is delivered here or queued at its route's port
with HOPS + 1; a bad CRC or another LSEQ sends NAK(EXP) and leaves EXP. ACK empties the buffer up to its LSEQ, NAK and
ACK_TIMEOUT choose where to resend from, CREDIT adds credits, NAK_REPEAT repeats a NAK. A REORDER frame held alone is
sent, or stays due without credit; a bad block outside a frame is counted in LERR; a Fray action is armed only where
FRAY_EN permits. Where a clause lies on a reading or a choice of the model's own: log entries 93, 94, 96, 97, 111,
172. -/
def Obligations.MendSendsAcceptsAndRepeats : Prop :=
  (∀ (k : Fin 4) (fine : Fin 64) (x y : Held) (s : State),
    freePort s.hw k ∧ s.hw.role k ≠ 3 ∧ s.hw.role k ≠ 4 ∧ (s.hw.port k).loc = [] ∧ (s.hw.port k).resend = none ∧
      (s.hw.port k).retry.length < 128 →
    (s.hw.port k).txq = [y, x] ∧ x.port = 4 ∧ y.port = 4 ∧ x.frame.tc = 0 ∧ y.frame.tc ≠ 0 ∧ blocksOf
      x.frame.words.length ≤ s.hw.f (pDL k) 0 DL_CREDIT_ROUTED →
    Answers (exec (.frameStart k fine) s) (fun t =>
      t.hw.out = s.hw.out ++ [.routed k (s.hw.f (pDL k) 0 DL_MEND_NEXT) (s.hw.lack k) x.frame false] ∧ (t.hw.port
        k).txq = [y] ∧
      (t.hw.port k).retry = (s.hw.port k).retry ++ [⟨s.hw.f (pDL k) 0 DL_MEND_NEXT, 1, x.frame⟩] ∧
      t.hw.f (pDL k) 0 DL_MEND_NEXT = (s.hw.f (pDL k) 0 DL_MEND_NEXT + 1) % 4096 ∧ t.hw.f (pDL k) 0 DL_TX_CNT_COUNT
        = (s.hw.f (pDL k) 0 DL_TX_CNT_COUNT + 1) % 2 ^ 40 ∧
      t.hw.f (pDL k) 0 DL_CREDIT_ROUTED = s.hw.f (pDL k) 0 DL_CREDIT_ROUTED - (3 + (5 * x.frame.words.length + 7) /
        8))) ∧
  (∀ (k : Fin 4) (fine : Fin 64) (x : LocalTx) (s : State),
    freePort s.hw k ∧ (s.hw.port k).loc = [x] ∧ x.kind = 0x10 ∧ blocksOf x.words.length ≤ (s.hw.port k).credL →
    Answers (exec (.frameStart k fine) s) (fun t =>
      t.hw.out = s.hw.out ++ [.loc k (s.hw.lack k) x.kind x.words false] ∧ (t.hw.port k).loc = [] ∧ (t.hw.port
        k).txq = (s.hw.port k).txq ∧
      (t.hw.port k).credL = (s.hw.port k).credL - blocksOf x.words.length)) ∧
  (∀ (k : Fin 4) (fine : Fin 64) (x : Held) (l : Nat) (c due : Bool) (s : State),
    s.hw.pstate k = 5 ∧ s.hw.domainRuns 40 = true ∧ (s.hw.port k).cut = none ∧ (s.hw.port k).holdUntil ≤ s.hw.now ∧
      (s.hw.port k).reordered = some ⟨.routed x, some l, c, due⟩ ∧ x.port = 4 →
    blocksOf x.frame.words.length ≤ s.hw.f (pDL k) 0 DL_CREDIT_ROUTED →
    Answers (exec (.frayReorderTimeout k fine) s) (fun t =>
      t.hw.out = s.hw.out ++ [.routed k l (s.hw.lack k) x.frame c] ∧ (t.hw.port k).reordered = none)) ∧
  (∀ (k : Fin 4) (fine : Fin 64) (x : Held) (l : Option Nat) (c due : Bool) (s : State),
    (s.hw.port k).reordered = some ⟨.routed x, l, c, due⟩ ∧ s.hw.f (pDL k) 0 DL_CREDIT_ROUTED < blocksOf
      x.frame.words.length →
    Answers (exec (.frayReorderTimeout k fine) s) (fun t =>
      t.hw.out = s.hw.out ∧ (t.hw.port k).reordered = some ⟨.routed x, l, c, true⟩ ∧ t.hw.regs = s.hw.regs)) ∧
  (∀ (k : Fin 4) (lseq : BitVec 12) (x : Hdr) (s : State),
    s.hw.rxUp k = true ∧ (s.hw.port k).rx = none ∧ x.ftype = 0 ∧ x.pbytes ≤ 504 ∧ lseq.toNat = s.hw.f (pDL k) 0
      DL_MEND_EXP →
    s.hw.inDomain = true ∧ s.hw.carries k = true ∧ x.dst = s.hw.nodeId →
    Answers (exec (.frameRoute k lseq none x) s) (fun t =>
      (t.hw.port k).rx = some ⟨s.hw.dom.tags + 1, x, false, false, true, [], []⟩ ∧ t.hw.regs = s.hw.regs)) ∧
  (∀ (k : Fin 4) (lseq : BitVec 12) (x : Hdr) (s : State),
    s.hw.rxUp k = true ∧ (s.hw.port k).rx = none ∧ x.ftype = 0 ∧ lseq.toNat ≠ s.hw.f (pDL k) 0 DL_MEND_EXP ∧
      (s.hw.port k).nak = false →
    Answers (exec (.frameRoute k lseq none x) s) (fun t =>
      t.hw.out = s.hw.out ++ [.lctl k 2 (s.hw.f (pDL k) 0 DL_MEND_EXP)] ∧ t.hw.f (pDL k) 0 DL_MEND_EXP = s.hw.f (pDL
        k) 0 DL_MEND_EXP ∧ (t.hw.port k).nak = true)) ∧
  (∀ (k : Fin 4) (ws : List Word) (tag : Nat) (x : Hdr) (s : State),
    (s.hw.port k).rx = some ⟨tag, x, false, false, true, [], []⟩ ∧ x.ftype = 0 ∧ x.tc = 3 ∧ x.kind = 1 ∧ x.pbytes =
      5 * ws.length →
    Answers (exec (.frameReceive k ws .ok) s) (fun t =>
      t.hw.dom.rxq = s.hw.dom.rxq ++ [⟨k, tag, ⟨x.dst, x.src, 3, x.hops, 1, x.eseq, ws⟩⟩] ∧ (t.hw.port k).rx = none
        ∧ (t.hw.port k).nak = false ∧
      t.hw.f (pDL k) 0 DL_MEND_EXP = (s.hw.f (pDL k) 0 DL_MEND_EXP + 1) % 4096 ∧ t.hw.f (pDL k) 0 DL_RX_CNT_COUNT =
        (s.hw.f (pDL k) 0 DL_RX_CNT_COUNT + 1) % 2 ^ 40 ∧
      t.hw.out = s.hw.out ++ [.lctl k 1 (s.hw.f (pDL k) 0 DL_MEND_EXP)])) ∧
  (∀ (k e : Fin 4) (ws : List Word) (tag : Nat) (x : Hdr) (s : State),
    (s.hw.port k).rx = some ⟨tag, x, false, false, false, [e.val], []⟩ ∧ x.ftype = 0 ∧ x.tc < 3 ∧ x.pbytes = 5 *
      ws.length ∧ (s.hw.port e).cut = none →
    Answers (exec (.frameReceive k ws .ok) s) (fun t =>
      (t.hw.port e).txq = (s.hw.port e).txq ++ [⟨k, tag, ⟨x.dst, x.src, x.tc, x.hops + 1, x.kind, x.eseq, ws⟩⟩] ∧
        t.hw.dom.rxq = s.hw.dom.rxq ∧
      t.hw.f (pDL k) 0 DL_MEND_EXP = (s.hw.f (pDL k) 0 DL_MEND_EXP + 1) % 4096)) ∧
  (∀ (k : Fin 4) (ws : List Word) (x : Incoming) (s : State),
    (s.hw.port k).rx = some x ∧ x.hdr.ftype = 0 ∧ x.skip = false ∧ (s.hw.port k).nak = false ∧ ∀ e : Fin 4,
      (s.hw.port e).cut = none →
    Answers (exec (.frameReceive k ws .crc) s) (fun t =>
      t.hw.f (pDL k) 0 DL_MEND_EXP = s.hw.f (pDL k) 0 DL_MEND_EXP ∧ t.hw.f (pDL k) 0 DL_CRC_CNT_COUNT = (s.hw.f (pDL
        k) 0 DL_CRC_CNT_COUNT + 1) % 2 ^ 40 ∧
      t.hw.out = s.hw.out ++ [.lctl k 2 (s.hw.f (pDL k) 0 DL_MEND_EXP), .lctl k 3 (3 + (x.hdr.pbytes + 7) / 8)] ∧
        t.hw.dom = s.hw.dom)) ∧
  (∀ (k lane : Fin 4) (ws : List Word) (s : State),
    (s.hw.port k).rx = none ∧ s.hw.pstate k ≠ 0 ∧ s.hw.domainRuns (41 + k) = true →
    Answers (exec (.frameReceive k ws (.block lane)) s) (fun t =>
      t.hw.f (pDL k) lane DL_LERR_COUNT = min (2 ^ 40 - 1) (s.hw.f (pDL k) lane DL_LERR_COUNT + 1) ∧ t.hw.out =
        s.hw.out ∧ t.hw.dom = s.hw.dom)) ∧
  (∀ (k : Fin 4) (l : BitVec 12) (n : Nat) (s : State),
    s.hw.rxUp k = true ∧ n = (l.toNat + 4096 - s.hw.f (pDL k) 0 DL_MEND_ACKED) % 4096 ∧ 0 < n ∧ n ≤ (s.hw.port
      k).retry.length →
    Answers (exec (.lctlAck k l) s) (fun t =>
      (t.hw.port k).retry = (s.hw.port k).retry.drop n ∧ t.hw.f (pDL k) 0 DL_MEND_ACKED = l.toNat)) ∧
  (∀ (k : Fin 4) (l : BitVec 12) (s : State),
    s.hw.rxUp k = true ∧ (s.hw.port k).retry.any (fun r => r.lseq == l.toNat) = true →
    Answers (exec (.lctlNak k l) s) (fun t =>
      (t.hw.port k).resend = some l.toNat ∧ (t.hw.port k).retry = (s.hw.port k).retry ∧ t.hw.f (pDL k) 0
        DL_IRQ_RETRY = 1)) ∧
  (∀ (k : Fin 4) (l : Nat) (fine : Fin 64) (r : Retry) (s : State),
    freePort s.hw k ∧ s.hw.carries k = true ∧ (s.hw.port k).loc = [] ∧ (s.hw.port k).resend = some l ∧ (s.hw.port
      k).retry = [r] ∧ r.lseq = l →
    blocksOf r.frame.words.length ≤ s.hw.f (pDL k) 0 DL_CREDIT_ROUTED →
    Answers (exec (.frameStart k fine) s) (fun t =>
      (r.sends < 16 → t.hw.out = s.hw.out ++ [.routed k l (s.hw.lack k) r.frame false] ∧ t.hw.f (pDL k) 0
        DL_RETRY_CNT_COUNT = (s.hw.f (pDL k) 0 DL_RETRY_CNT_COUNT + 1) % 2 ^ 40 ∧ (t.hw.port k).resend = none) ∧
      (16 ≤ r.sends → t.hw.pstate k = 6))) ∧
  (∀ (k : Fin 4) (loc routed : BitVec 16) (s : State),
    s.hw.rxUp k = true →
    Answers (exec (.lctlCredit k loc routed) s) (fun t =>
      t.hw.f (pDL k) 0 DL_CREDIT_ROUTED = min 65535 (s.hw.f (pDL k) 0 DL_CREDIT_ROUTED + routed.toNat) ∧ (t.hw.port
        k).credL = (s.hw.port k).credL + loc.toNat)) ∧
  (∀ (k : Fin 4) (s : State),
    s.hw.txUp k = true ∧ (s.hw.port k).nak = true →
    Answers (exec (.nakRepeat k) s) (fun t =>
      t.hw.out = s.hw.out ++ [.lctl k 2 (s.hw.f (pDL k) 0 DL_MEND_EXP)])) ∧
  (∀ (k : Fin 4) (r : Retry) (rest : List Retry) (s : State),
    s.hw.txUp k = true ∧ (s.hw.port k).retry = r :: rest →
    Answers (exec (.ackTimeout k) s) (fun t =>
      (r.sends < 16 → (t.hw.port k).resend = some r.lseq ∧ t.hw.f (pDL k) 0 DL_IRQ_RETRY = 1) ∧
      (16 ≤ r.sends → t.hw.pstate k = 6) ∧
      (t.hw.port k).retry = (s.hw.port k).retry)) ∧
  (∀ (w : Requester) (k act : Fin 4) (d : Word) (s : State),
    accepts s.hw w (pFRAY k) = true ∧ bitOf (s.hw.lwf 5) k = true →
    Answers (exec (.frayConfigWrite w k (some act) d) s) (fun t =>
      (t.hw.f (pFRAY k) 0 ⟨0x80 + act, 0, 28⟩ = bitsOf d.toNat 0 28 ∧ (act.val < (s.hw.port k).frayCnt.length →
        (t.hw.port k).frayCnt.getD act 9 = 0)))) ∧
  (∀ (w : Requester) (k act : Fin 4) (d : Word) (s : State),
    accepts s.hw w (pFRAY k) = true ∧ bitOf (s.hw.lwf 5) k = false ∧ bitOf d.toNat 27 = true ∧ s.hw.b (pFRAY k) 0
      ⟨0x80 + act, 27, 1⟩ = false →
    Answers (exec (.frayConfigWrite w k (some act) d) s) (fun t =>
      t.hw.reg (pFRAY k) (0x80 + act) 0 = s.hw.reg (pFRAY k) (0x80 + act) 0))

/-- O41. HELLO notes the neighbour; on an UP port without JOINED it makes this device UNJOINED: routes cleared, ID kept in
PREV_ID, HELLO sent. With JHOLD past the device chooses the neighbour of smallest H, then lowest port, sends CHILD_REQ
and is REQUESTING; a refusal or a timeout makes it UNJOINED, a grant JOINED with its ID, H and UP port. The root
refuses with the first cause of its table, else admits the UID with an ID and grants; a parent that gets a grant or a
refusal passes it to its child. LEAVE at the root removes members and holds their IDs until ID_HOLD_EXPIRY. DCMD.LEAVE
leaves. Where a clause lies on a reading or a choice of the model's own: log entries 98, 99, 100. -/
def Obligations.DevicesJoinAndLeave : Prop :=
  (∀ (k : Fin 4) (ws : List Word) (s : State),
    s.hw.rxUp k = true ∧ s.hw.role k = 1 ∧ s.hw.jstate = 2 ∧ bitOf (ws.getD 0 0).toNat 16 = false ∧ bitOf (ws.getD 0
      0).toNat 17 = false →
    Answers (exec (.dlHello k ws) s) (fun t =>
      t.hw.jstate = 0 ∧ t.hw.nodeId = 16383 ∧ t.hw.f (pDL 0) 0 DL_NODE_H = 255 ∧ t.hw.f (pDL 0) 0 DL_DSTAT_PREV_ID =
        s.hw.nodeId ∧
      t.hw.dom.routes = [] ∧ t.hw.f (pDL 0) 0 DL_IRQ_LEFT = 1 ∧ t.hw.f (pDL k) 0 DL_STATUS_NBR_ID = bitsOf (ws.getD
        0 0).toNat 26 14 ∧
      (∀ e : Fin 4, t.hw.pstate e = 5 → (t.hw.port e).loc = (s.hw.port e).loc ++ [⟨0x10, t.hw.helloWords⟩]))) ∧
  (∀ (k : Fin 4) (ws : List Word) (s : State),
    s.hw.rxUp k = true ∧ s.hw.role k = 0 ∧ s.hw.inDomain = false →
    Answers (exec (.dlHello k ws) s) (fun t =>
      (t.hw.role k = (if bitOf (ws.getD 0 0).toNat 16 ∨ bitOf (ws.getD 0 0).toNat 17 then 3 else 0) ∧ t.hw.jstate =
        s.hw.jstate) ∧
      t.hw.reg (pDL k) 0x88 0 = ws.getD 0 0 ∧ t.hw.reg (pDL k) 0x89 0 = ws.getD 1 0 ∧ t.hw.f (pDL k) 0
        DL_STATUS_NBR_ID = bitsOf (ws.getD 0 0).toNat 26 14)) ∧
  (∀ (s : State),
    Answers (exec .helloTimer s) (fun t =>
      (∀ k : Fin 4, (t.hw.port k).loc = (if s.hw.pstate k = 5 then (s.hw.port k).loc ++ [⟨0x10, s.hw.helloWords⟩]
        else (s.hw.port k).loc) ∧ t.hw.regs = s.hw.regs))) ∧
  (∀ (k : Fin 4) (s : State),
    s.hw.jstate = 0 ∧ holdPast s.hw = true ∧ mayJoin s.hw k = true →
    (∀ j : Fin 4, mayJoin s.hw j = true → nbrHops s.hw k < nbrHops s.hw j ∨ (nbrHops s.hw k = nbrHops s.hw j ∧ k ≤
      j)) →
    Answers (exec .parentChoice s) (fun t =>
      t.hw.jstate = 1 ∧ t.hw.dom.reqPort = some k.val ∧
      (t.hw.port k).loc = (s.hw.port k).loc ++ [⟨0x11, s.hw.childReqWords⟩, ⟨0x10, t.hw.helloWords⟩])) ∧
  (∀ (s : State),
    s.hw.jstate = 0 ∧ holdPast s.hw = false →
    Answers (exec .parentChoice s) (fun t =>
      t = s)) ∧
  (∀ (s : State),
    s.hw.jstate = 1 →
    Answers (exec .childReqTimeout s) (fun t =>
      t.hw.jstate = 0 ∧ t.hw.dom.reqPort = none ∧ holdPast t.hw = true)) ∧
  (∀ (k : Fin 4) (ws : List Word) (r : JoinReq) (id : Nat) (s : State),
    s.hw.rxUp k = true ∧ s.hw.jstate = 3 ∧ r = joinReqOf ws (s.hw.f (pDL 0) 0 DL_NODE_H + 1) ∧ firstCause
      (joinCauses s.hw r) = 0 ∧ s.hw.idFor r = some id →
    Answers (exec (.childReq k ws) s) (fun t =>
      t.hw.dom.members = s.hw.dom.members ++ [⟨id, r.uid, r.level⟩] ∧ t.hw.dom.routes.at none id = some k.val ∧
        t.hw.role k = 2 ∧
      (t.hw.port k).loc = (s.hw.port k).loc ++ [⟨0x12, [w40 (id * 2 ^ 26 + (s.hw.f (pDL 0) 0 DL_NODE_H + 1) * 2 ^
        18)]⟩] ∧
      t.hw.f (pDL 0) 0 DL_JOINED_CNT_COUNT = (s.hw.dom.members.length + 2) % 2 ^ 14)) ∧
  (∀ (k : Fin 4) (ws : List Word) (r : JoinReq) (s : State),
    s.hw.rxUp k = true ∧ s.hw.jstate = 3 ∧ r = joinReqOf ws (s.hw.f (pDL 0) 0 DL_NODE_H + 1) ∧ firstCause
      (joinCauses s.hw r) ≠ 0 →
    Answers (exec (.childReq k ws) s) (fun t =>
      t.hw.dom.members = s.hw.dom.members ∧ (t.hw.port k).loc = (s.hw.port k).loc ++ [⟨0x13, [w40 (firstCause
        (joinCauses s.hw r) * 2 ^ 36)]⟩] ∧ t.hw.role k = s.hw.role k)) ∧
  (∀ (k : Fin 4) (ws : List Word) (p : Nat) (s : State),
    s.hw.rxUp k = true ∧ s.hw.jstate = 2 ∧ s.hw.nodeId ≠ 0 ∧ s.hw.dom.routes.at none 0 = none ∧ p = s.hw.f (pDL 0) 0
      DL_NODE_UPPORT →
    Answers (exec (.childReq k ws) s) (fun t =>
      (t.hw.port p).txq = (s.hw.port p).txq ++ [⟨4, 0, ⟨0, s.hw.nodeId, 3, 0, 1, 0, ws.take 4 ++ [w40 (k * 2 ^ 38 +
        (s.hw.f (pDL 0) 0 DL_NODE_H + 1) % 256 * 2 ^ 30)]⟩⟩])) ∧
  (∀ (f : Frame) (tag port p id : Nat) (r : JoinReq) (s : State),
    s.hw.jstate = 3 ∧ s.hw.dom.rxq = [⟨port, tag, f⟩] ∧ f.tc = 3 ∧ f.kind = 1 ∧ bitsOf (f.words.getD 4 0).toNat 30 8
      ≠ 0 ∧ r = joinReqOf f.words (bitsOf (f.words.getD 4 0).toNat 30 8) →
    firstCause (joinCauses s.hw r) = 0 ∧ s.hw.idFor r = some id ∧ f.src ≠ s.hw.nodeId ∧ f.src ≠ 16383 ∧
      s.hw.dom.routes.at none f.src = some p →
    Answers (exec .joinReq s) (fun t =>
      t.hw.dom.members = s.hw.dom.members ++ [⟨id, r.uid, r.level⟩] ∧ t.hw.dom.routes.at none id = some p ∧
        t.hw.dom.rxq = [] ∧
      (∃ rest, (t.hw.port p).txq = (s.hw.port p).txq ++ [⟨4, 0, ⟨f.src, s.hw.nodeId, 3, 0, 2, 0, w40 (id * 2 ^ 26 +
        bitsOf (f.words.getD 4 0).toNat 30 8 * 2 ^ 18 + bitsOf (f.words.getD 4 0).toNat 38 2 * 2 ^ 16) :: uidWords
        r.uid⟩⟩] ++ rest))) ∧
  (∀ (f : Frame) (tag port : Nat) (k : Fin 4) (s : State),
    s.hw.dom.rxq = [⟨port, tag, f⟩] ∧ f.tc = 3 ∧ f.kind = 2 ∧ bitsOf (f.words.getD 0 0).toNat 16 2 = k ∧ s.hw.pstate
      k = 5 →
    Answers (exec .joinGrant s) (fun t =>
      t.hw.dom.routes.at none (bitsOf (f.words.getD 0 0).toNat 26 14) = some k.val ∧ t.hw.role k = 2 ∧
      (t.hw.port k).loc = (s.hw.port k).loc ++ [⟨0x12, [w40 (bitsOf (f.words.getD 0 0).toNat 26 14 * 2 ^ 26 + bitsOf
        (f.words.getD 0 0).toNat 18 8 * 2 ^ 18)]⟩])) ∧
  (∀ (f : Frame) (tag port : Nat) (k : Fin 4) (s : State),
    s.hw.dom.rxq = [⟨port, tag, f⟩] ∧ f.tc = 3 ∧ f.kind = 3 ∧ bitsOf (f.words.getD 0 0).toNat 16 2 = k →
    Answers (exec .joinRefuse s) (fun t =>
      t.hw.dom.routes = s.hw.dom.routes ∧ (t.hw.port k).loc = (s.hw.port k).loc ++ [⟨0x13, [w40 (bitsOf
        (f.words.getD 0 0).toNat 36 4 * 2 ^ 36)]⟩])) ∧
  (∀ (k : Fin 4) (ws : List Word) (n : Neighbour) (s : State),
    s.hw.rxUp k = true ∧ s.hw.jstate = 1 ∧ s.hw.dom.reqPort = some k.val ∧ (s.hw.port k).nbr = some n →
    Answers (exec (.childGrant k ws) s) (fun t =>
      t.hw.jstate = 2 ∧ t.hw.nodeId = bitsOf (ws.getD 0 0).toNat 26 14 ∧ t.hw.f (pDL 0) 0 DL_NODE_H = bitsOf
        (ws.getD 0 0).toNat 18 8 ∧ t.hw.f (pDL 0) 0 DL_NODE_UPPORT = k ∧
      t.hw.role k = 1 ∧ t.hw.f (pDL 0) 0 DL_IRQ_JOINED = 1 ∧ t.hw.dom.tag = n.tag ∧
      (s.hw.timeState = 0 ∧ s.hw.b pDTIME 0 DTIME_CTRL_EN = true → t.hw.timeState = 1))) ∧
  (∀ (k : Fin 4) (ws : List Word) (s : State),
    s.hw.rxUp k = true ∧ s.hw.jstate = 1 ∧ s.hw.dom.reqPort = some k.val →
    Answers (exec (.childRefuse k ws) s) (fun t =>
      t.hw.jstate = 0 ∧ t.hw.f (pDL 0) 0 DL_DSTAT_JCAUSE = bitsOf (ws.getD 0 0).toNat 36 4 ∧ t.hw.f (pDL 0) 0
        DL_IRQ_JREFUSED = 1 ∧ (t.hw.port k).refusedAt = some s.hw.now)) ∧
  (∀ (f : Frame) (tag port : Nat) (s : State),
    s.hw.jstate = 3 ∧ s.hw.dom.rxq = [⟨port, tag, f⟩] ∧ f.tc = 3 ∧ f.kind = 4 →
    Answers (exec .dlLeave s) (fun t =>
      t.hw.dom.members = s.hw.dom.members.filter (fun m => !(f.words.map (fun w => w.toNat % 16384)).contains m.id) ∧
      t.hw.dom.heldIds = s.hw.dom.heldIds ++ (s.hw.dom.members.filter (fun m => (f.words.map (fun w => w.toNat %
        16384)).contains m.id)).map (fun m => ⟨m.id, m.uid, s.hw.now + 400000 * s.hw.f (pDL 0) 0 DL_ID_HOLD_MS⟩) ∧
      t.hw.f (pDL 0) 0 DL_JOINED_CNT_COUNT = (t.hw.dom.members.length + 1) % 2 ^ 14 ∧ ∀ w ∈ f.words,
        t.hw.dom.routes.at none (w.toNat % 16384) = none)) ∧
  (∀ (w : Requester) (d : Word) (s : State),
    accepts s.hw w (pDL 0) = true ∧ bitOf d.toNat 0 = true ∧ s.hw.jstate = 2 →
    Answers (exec (.dcmdLeave w d) s) (fun t =>
      t.hw.jstate = 0 ∧ t.hw.nodeId = 16383 ∧ t.hw.f (pDL 0) 0 DL_DSTAT_PREV_ID = s.hw.nodeId ∧ t.hw.dom.routes = []
        ∧ t.hw.f (pDL 0) 0 DL_IRQ_LEFT = 1)) ∧
  (∀ (id : BitVec 14) (s : State),
    Answers (exec (.idHoldExpiry id) s) (fun t =>
      t.hw.dom.heldIds = s.hw.dom.heldIds.filter (fun e => e.id != id.toNat || decide (s.hw.now < e.until')) ∧
        t.hw.dom.members = s.hw.dom.members ∧ t.hw.regs = s.hw.regs))

/-- O42. With time valid, SYNC_TIMER queues a SYNC with the next EID on each CHILD and STANDBY port. A SYNC is answered by a
DREQ with its EID, t1 and t2 kept; a DREQ by a DRESP with the time of its arrival. A DRESP that completes an exchange
on the UP port sets OFFSET; beyond STEP_LIM time steps by the offset at the next edge, VALID falls and STEP counts;
otherwise a first exchange changes neither I nor RATE, and a later one moves both within 200 ppm, the rounding being
open. Sixteen good exchanges lock; HOLDOVER_ENTRY keeps RATE at I; HOLDOVER_EXPIRY and time invalid follow. TSET_H on
the root sets the time at the next edge. Where a clause lies on a reading or a choice of the model's own: log entries
100, 101, 102, 103. -/
def Obligations.DomainTimeOnTheLinks : Prop :=
  (∀ (s : State),
    s.hw.b pDTIME 0 DTIME_STATUS_VALID = true ∧ s.hw.dom.syncDue ≤ s.hw.now →
    Answers (exec .syncTimer s) (fun t =>
      t.hw.dom.syncDue = s.hw.now + 400 * max 1 (s.hw.f pDTIME 0 DTIME_SYNC_INT_US) ∧
      (t.hw.dom.eid = (s.hw.dom.eid + 1) % 256 ∧ ∀ k : Fin 4, (t.hw.port k).loc = (if s.hw.pstate k = 5 ∧ (s.hw.role
        k = 2 ∨ s.hw.role k = 3) then (s.hw.port k).loc ++ [⟨0x20, [0, w40 (2 ^ 32 + t.hw.dom.eid * 2 ^ 24)]⟩] else
        (s.hw.port k).loc)))) ∧
  (∀ (s : State),
    s.hw.b pDTIME 0 DTIME_STATUS_VALID = false ∨ s.hw.now < s.hw.dom.syncDue →
    Answers (exec .syncTimer s) (fun t =>
      t = s)) ∧
  (∀ (k : Fin 4) (ws : List Word) (fine : Fin 64) (s : State),
    s.hw.rxUp k = true →
    Answers (exec (.dlSync k ws fine) s) (fun t =>
      (t.hw.port k).xchg = some ⟨bitsOf (ws.getD 1 0).toNat 24 8, stampOf ws, s.hw.domTime + fine, none⟩ ∧
      (t.hw.port k).loc = (s.hw.port k).loc ++ [⟨0x21, [0, w40 (b2n (s.hw.b pDTIME 0 DTIME_STATUS_VALID) * 2 ^ 32 +
        bitsOf (ws.getD 1 0).toNat 24 8 * 2 ^ 24)]⟩])) ∧
  (∀ (k : Fin 4) (ws : List Word) (fine : Fin 64) (s : State),
    s.hw.rxUp k = true →
    Answers (exec (.dlDreq k ws fine) s) (fun t =>
      (∃ a b, (t.hw.port k).loc = (s.hw.port k).loc ++ [⟨0x22, [a, b]⟩] ∧ stampOf [a, b] = (s.hw.domTime + fine) % 2
        ^ 64 ∧ bitsOf b.toNat 24 8 = bitsOf (ws.getD 1 0).toNat 24 8 ∧ bitsOf b.toNat 32 1 = b2n (s.hw.b pDTIME 0
        DTIME_STATUS_VALID)))) ∧
  (∀ (k : Fin 4) (ws : List Word) (x : Xchg) (t3 : Nat) (c o : Int) (s : State),
    completes s.hw k ws x t3 c o ∧ 0 ≤ c ∧ c < 2 ^ 24 ∧ (s.hw.f pDTIME 0 DTIME_STEP_LIM_FINE : Int) < o.natAbs ∧
      o.natAbs < 2 ^ 39 →
    Answers (exec (.dlDresp k ws) s) (fun t =>
      (t.hw.domTime = s.hw.domTime ∧ (s.hw.due = [] ∧ s.hw.domainRuns 49 = true → (nextEdge t.hw).domTime = unsx 64
        ((s.hw.domTime : Int) - o))) ∧
      t.hw.timeState = 1 ∧ t.hw.b pDTIME 0 DTIME_STATUS_VALID = false ∧
      t.hw.f pDTIME 0 DTIME_STEP_CNT_COUNT = (s.hw.f pDTIME 0 DTIME_STEP_CNT_COUNT + 1) % 2 ^ 40 ∧ t.hw.f pDTIME 0
        DTIME_IRQ_STEP = 1 ∧ t.hw.dom.servoI = s.hw.dom.servoI ∧
      t.hw.f (pDL k) 0 DL_CDELAY_FINE = c ∧ sx 40 (t.hw.f pDTIME 0 DTIME_OFFSET_O) = o ∧ t.hw.dom.lastT2 = none)) ∧
  (∀ (k : Fin 4) (ws : List Word) (x : Xchg) (t3 : Nat) (c o : Int) (s : State),
    completes s.hw k ws x t3 c o ∧ (o.natAbs : Int) ≤ s.hw.f pDTIME 0 DTIME_STEP_LIM_FINE ∧ s.hw.dom.lastT2 = none →
    Answers (exec (.dlDresp k ws) s) (fun t =>
      t.hw.domTime = s.hw.domTime ∧ t.hw.dom.servoI = s.hw.dom.servoI ∧ t.hw.f pDTIME 0 DTIME_RATE_Y = s.hw.f pDTIME
        0 DTIME_RATE_Y ∧ t.hw.dom.lastT2 = some x.t2)) ∧
  (∀ (k : Fin 4) (ws : List Word) (x : Xchg) (t3 t0 : Nat) (c o : Int) (s : State),
    completes s.hw k ws x t3 c o ∧ (o.natAbs : Int) ≤ s.hw.f pDTIME 0 DTIME_STEP_LIM_FINE ∧ s.hw.dom.lastT2 = some
      t0 ∧ t0 < x.t2 ∧ x.t2 < 2 ^ 64 →
    Answers (exec (.dlDresp k ws) s) (fun t =>
      (∃ q, nearQuot q (o * 2 ^ 40) (2 ^ s.hw.f pDTIME 0 DTIME_SERVO_KI_SH * (x.t2 - t0)) ∧ t.hw.dom.servoI = max
        (-219902325) (min 219902325 (s.hw.dom.servoI - q))) ∧
      (∃ q, nearQuot q (o * 2 ^ 40) (2 ^ s.hw.f pDTIME 0 DTIME_SERVO_KP_SH * (x.t2 - t0)) ∧ sx 40 (t.hw.f pDTIME 0
        DTIME_RATE_Y) = max (-219902325) (min 219902325 (t.hw.dom.servoI - q))) ∧
      t.hw.domTime = s.hw.domTime ∧ t.hw.dom.lastT2 = some x.t2)) ∧
  (∀ (k : Fin 4) (ws : List Word) (x : Xchg) (t3 : Nat) (c o : Int) (s : State),
    completes s.hw k ws x t3 c o ∧ s.hw.timeState = 1 ∧ s.hw.dom.lockRun = 15 ∧ o.natAbs ≤ max 1 (s.hw.f pDTIME 0
      DTIME_LOCK_THR_FINE) ∧ (o.natAbs : Int) ≤ s.hw.f pDTIME 0 DTIME_STEP_LIM_FINE →
    Answers (exec (.dlDresp k ws) s) (fun t =>
      t.hw.timeState = 2 ∧ t.hw.b pDTIME 0 DTIME_STATUS_VALID = true)) ∧
  (∀ (s : State),
    s.hw.timeState = 2 ∧ s.hw.dom.exchAt + 3200 * s.hw.dom.syncUs ≤ s.hw.now ∧ -219902325 ≤ s.hw.dom.servoI ∧
      s.hw.dom.servoI ≤ 219902325 →
    Answers (exec .holdoverEntry s) (fun t =>
      t.hw.timeState = 3 ∧ t.hw.dom.holdAt = s.hw.now ∧ sx 40 (t.hw.f pDTIME 0 DTIME_RATE_Y) = s.hw.dom.servoI ∧
        t.hw.b pDTIME 0 DTIME_STATUS_VALID = s.hw.b pDTIME 0 DTIME_STATUS_VALID)) ∧
  (∀ (s : State),
    s.hw.timeState ≠ 2 ∨ s.hw.now < s.hw.dom.exchAt + 3200 * s.hw.dom.syncUs →
    Answers (exec .holdoverEntry s) (fun t =>
      t = s)) ∧
  (∀ (s : State),
    s.hw.timeState = 3 ∧ s.hw.dom.holdAt + 400 * s.hw.dom.holdUs ≤ s.hw.now ∧ s.hw.b pDTIME 0 DTIME_STATUS_VALID =
      true →
    Answers (exec .holdoverExpiry s) (fun t =>
      t.hw.timeState = 1 ∧ t.hw.b pDTIME 0 DTIME_STATUS_VALID = false ∧ t.hw.f pDTIME 0 DTIME_IRQ_UNLOCK = 1)) ∧
  (∀ (w : Requester) (d : Word) (s : State),
    accepts s.hw w pDTIME = true ∧ s.hw.jstate = 3 →
    Answers (exec (.tsetHWrite w d) s) (fun t =>
      (t.hw.domTime = s.hw.domTime ∧ (s.hw.due = [] ∧ s.hw.domainRuns 49 = true → (nextEdge t.hw).domTime =
        (s.hw.pairLowWord pDTIME 0x82 0 w).toNat + d.toNat % 2 ^ 24 * 2 ^ 40)) ∧
      t.hw.f pDTIME 0 DTIME_STEP_CNT_COUNT = (s.hw.f pDTIME 0 DTIME_STEP_CNT_COUNT + 1) % 2 ^ 40 ∧ t.hw.f pDTIME 0
        DTIME_IRQ_STEP = 1)) ∧
  (∀ (w : Requester) (d : Word) (s : State),
    accepts s.hw w pDTIME = true ∧ s.hw.jstate ≠ 3 →
    Answers (exec (.tsetHWrite w d) s) (fun t =>
      t.hw.domTime = s.hw.domTime ∧ t.hw.reg pDTIME 0x83 0 = s.hw.reg pDTIME 0x83 0))

/-- O43. A BASE_H write on the root commits a configuration whose period, time and first number pass the three checks, and
otherwise sets CFG_ERR; TICK_CFG gives any other device the configuration; TICK_CFG_TIMER sends it on every tree port.
With one configuration and none fired, DOM_TICK fires the highest tick reached and counts the others as skipped.
CAPTURE_COMPLETE puts each enabled entry's word in CAPV, ends the capture, notes its duration and sends one
publication to node 0; CAPTURE_TIMEOUT takes missing reads as 0 with CAP_ERR. Where a clause lies on a reading or a
choice of the model's own: log entries 104, 105, 171. -/
def Obligations.TicksFireCaptureAndPublish : Prop :=
  (∀ (w : Requester) (d : Word) (c : TickCfg) (s : State),
    accepts s.hw w pDOM = true ∧ s.hw.jstate = 3 ∧ s.hw.dom.configs = [] ∧ c = ⟨s.hw.f pDOM 0 DOM_BASE_TN_TN,
      (s.hw.pairLowWord pDOM 0x82 0 w).toNat + d.toNat % 2 ^ 24 * 2 ^ 40, s.hw.f pDOM 0 DOM_PERIOD_P⟩ →
    100 ≤ c.period ∧ c.period ≤ 1000000 ∧ s.hw.domTime + 51200000 ≤ c.time →
    Answers (exec (.baseHCommit w d) s) (fun t =>
      t.hw.dom.configs = [c] ∧ t.hw.f pDOM 0 DOM_STATUS_CFG_VALID = 1)) ∧
  (∀ (w : Requester) (d : Word) (c c0 : TickCfg) (s : State),
    accepts s.hw w pDOM = true ∧ s.hw.jstate = 3 ∧ s.hw.dom.configs = [c0] ∧ c = ⟨s.hw.f pDOM 0 DOM_BASE_TN_TN,
      (s.hw.pairLowWord pDOM 0x82 0 w).toNat + d.toNat % 2 ^ 24 * 2 ^ 40, s.hw.f pDOM 0 DOM_PERIOD_P⟩ →
    100 ≤ c.period ∧ c.period ≤ 1000000 ∧ s.hw.domTime + 51200000 ≤ c.time ∧ c0.time < c.time →
    Answers (exec (.baseHCommit w d) s) (fun t =>
      if c.tn = (c0.tn + (c.time - 1 - c0.time) / (c0.period * 256) + 1) % 2 ^ 40 then t.hw.dom.configs = [c0, c]
        else t.hw.f pDOM 0 DOM_IRQ_CFG_ERR = 1 ∧ t.hw.dom.configs = [c0])) ∧
  (∀ (w : Requester) (d : Word) (s : State),
    accepts s.hw w pDOM = true ∧ s.hw.jstate = 3 →
    s.hw.f pDOM 0 DOM_PERIOD_P < 100 ∨ 1000000 < s.hw.f pDOM 0 DOM_PERIOD_P ∨ (s.hw.pairLowWord pDOM 0x82 0 w).toNat
      + d.toNat % 2 ^ 24 * 2 ^ 40 < s.hw.domTime + 51200000 →
    Answers (exec (.baseHCommit w d) s) (fun t =>
      t.hw.f pDOM 0 DOM_IRQ_CFG_ERR = 1 ∧ t.hw.dom.configs = s.hw.dom.configs)) ∧
  (∀ (f : Frame) (tag port : Nat) (c : TickCfg) (s : State),
    s.hw.jstate ≠ 3 ∧ s.hw.dom.configs = [] ∧ s.hw.dom.rxq = [⟨port, tag, f⟩] ∧ f.tc = 3 ∧ f.kind = 0x10 →
    c = ⟨(f.words.getD 1 0).toNat, (f.words.getD 2 0).toNat + (f.words.getD 3 0).toNat % 2 ^ 24 * 2 ^ 40,
      (f.words.getD 0 0).toNat % 2 ^ 20⟩ ∧ c.period ≠ 0 →
    Answers (exec .tickCfg s) (fun t =>
      t.hw.dom.configs = [c] ∧ t.hw.f pDOM 0 DOM_STATUS_CFG_VALID = 1 ∧ t.hw.f pDOM 0 DOM_VER_DLEVEL = bitsOf
        (f.words.getD 0 0).toNat 20 8 ∧ t.hw.f pDOM 0 DOM_PERIOD_P = c.period ∧ t.hw.f pDOM 0 DOM_BASE_TN_TN = c.tn)) ∧
  (∀ (c : TickCfg) (k : Fin 4) (s : State),
    s.hw.jstate = 3 ∧ s.hw.dom.configs = [c] ∧ s.hw.role k = 2 ∧ c.time < 2 ^ 64 →
    Answers (exec .tickCfgTimer s) (fun t =>
      (t.hw.port k).txq = (s.hw.port k).txq ++ [⟨4, 0, ⟨16383, s.hw.nodeId, 3, 0, 0x10, 0, [w40 (s.hw.f pDOM 0
        DOM_VER_DLEVEL * 2 ^ 20 + c.period), w40 c.tn, w40 (c.time % 2 ^ 40), w40 (c.time / 2 ^ 40)]⟩⟩])) ∧
  (∀ (c : TickCfg) (t0 : Nat) (s : State),
    s.hw.dom.configs = [c] ∧ s.hw.b pDTIME 0 DTIME_STATUS_VALID = true ∧ s.hw.inDomain = true ∧ s.hw.domainRuns 49 =
      true ∧ s.hw.dom.fired = false →
    s.hw.dom.tickFrom = some t0 ∧ t0 ≤ c.time ∧ c.time ≤ s.hw.domTime →
    Answers (exec .domTick s) (fun t =>
      t.hw.tick = (c.tn + (s.hw.domTime - c.time) / (c.period * 256)) % 2 ^ 40 ∧
      t.hw.f pDOM 0 DOM_SKIP_CNT_COUNT = (s.hw.f pDOM 0 DOM_SKIP_CNT_COUNT + (s.hw.domTime - c.time) / (c.period *
        256)) % 2 ^ 40)) ∧
  (∀ (s : State),
    s.hw.tickRuns = false →
    Answers (exec .domTick s) (fun t =>
      t = s)) ∧
  (∀ (i a p : Nat) (tk : SnapTick) (s : State),
    s.hw.capturing = true ∧ s.hw.drainWaits = false ∧ s.hw.dom.ticks = [tk] ∧ s.hw.pubs = [i] ∧ s.hw.f pDOM i
      DOM_PUB_ADDR = a →
    0x04000000 ≤ a ∧ a < 0x04200000 ∧ s.hw.memStopped a = false ∧ goesBy s.hw 0 p →
    Answers (exec (.captureComplete ()) s) (fun t =>
      t.hw.reg pDOM 0x11 i = s.rd a ∧ t.hw.f pSNAP 0 SNAP_STATUS_CAPTURING = 0 ∧ t.hw.f pSNAP 0 SNAP_CAPTIME_CYC =
        min 0xFFFF (3 * s.hw.now / 2 - 3 * tk.since / 2) ∧
      t.hw.f pSNAP 0 SNAP_CAP_MAX_CYC = max (min 0xFFFF (3 * s.hw.now / 2 - 3 * tk.since / 2)) (s.hw.f pSNAP 0
        SNAP_CAP_MAX_CYC) ∧
      (t.hw.port p).txq = (s.hw.port p).txq ++ [⟨4, 0, ⟨0, s.hw.nodeId, 1, 0, 1, (s.hw.sendOf ⟨1, false, 0⟩).next,
        [w40 (2 ^ 32 + tk.tn % 2 ^ 32), s.rd a]⟩⟩] ∧
      (t.hw.sendOf ⟨1, false, 0⟩).next = ((s.hw.sendOf ⟨1, false, 0⟩).next + 1) % 65536 ∧
      sameMemory s t)) ∧
  (∀ (i p : Nat) (tk : SnapTick) (s : State),
    s.hw.capturing = true ∧ s.hw.dom.ticks = [tk] ∧ tk.since + 4000 ≤ s.hw.now ∧ s.hw.pubs = [i] ∧ goesBy s.hw 0 p →
    Answers (exec (.captureTimeout 0 ()) s) (fun t =>
      t.hw.reg pDOM 0x11 i = 0 ∧ t.hw.f pSNAP 0 SNAP_STATUS_CAPTURING = 0 ∧ t.hw.f pSNAP 0 SNAP_IRQ_CAP_ERR = 1 ∧
      (t.hw.port p).txq = (s.hw.port p).txq ++ [⟨4, 0, ⟨0, s.hw.nodeId, 1, 0, 1, (s.hw.sendOf ⟨1, false, 0⟩).next,
        [w40 (2 ^ 39 + 2 ^ 32 + tk.tn % 2 ^ 32), 0]⟩⟩]))

/-- O44. ASM latches a good geometry and is refused with CAP_ERR for a bad one. A publication of the open generation becomes a
FRESH block: header, its words, zeros, GEN in every tag, nothing else in memory changed; any other counts in LATE_PUB.
With every expected block FRESH, completion makes the generation the latest with GEN_DONE and no memory changes; at
its deadline a node without one receives a STALE copy of its latest block with AGE + 1, and MISS_CNT counts. LEASE_REQ
pins the latest generation for LEASE_US or joins the pin, LEASE_REL ends it with its last holder, and LEASE_EXPIRY,
once that time has passed, ends it and marks each holder. Where a clause lies on a reading or a choice of the model's
own: log entries 106, 107. -/
def Obligations.SnapshotsAssembleAndAreLeased : Prop :=
  (∀ (w : Requester) (d : Word) (s : State),
    accepts s.hw w pSNAP = true ∧ bitOf d.toNat 1 = true ∧ s.hw.b pSNAP 0 SNAP_CTRL_ASM = false ∧ 1 ≤ s.hw.f pSNAP 0
      SNAP_STRIDE_S ∧ s.hw.f pSNAP 0 SNAP_STRIDE_S ≤ 9 →
    s.hw.f pSNAP 0 SNAP_ABASE_LINE + 49152 * s.hw.f pSNAP 0 SNAP_STRIDE_S ≤ 2 ^ 26 →
    Answers (exec (.asmEnable w d) s) (fun t =>
      t.hw.f pSNAP 0 SNAP_CTRL_ASM = 1 ∧ t.hw.f pSNAP 0 SNAP_CTRL_CAP_EN = bitsOf d.toNat 0 1 ∧ t.hw.dom.abase =
        s.hw.f pSNAP 0 SNAP_ABASE_LINE ∧ t.hw.dom.stride = s.hw.f pSNAP 0 SNAP_STRIDE_S ∧ t.hw.dom.latest = none)) ∧
  (∀ (w : Requester) (d : Word) (s : State),
    accepts s.hw w pSNAP = true ∧ bitOf d.toNat 1 = true ∧ s.hw.b pSNAP 0 SNAP_CTRL_ASM = false →
    s.hw.f pSNAP 0 SNAP_STRIDE_S = 0 ∨ 9 < s.hw.f pSNAP 0 SNAP_STRIDE_S ∨ 2 ^ 26 < s.hw.f pSNAP 0 SNAP_ABASE_LINE +
      49152 * s.hw.f pSNAP 0 SNAP_STRIDE_S →
    Answers (exec (.asmEnable w d) s) (fun t =>
      t.hw.f pSNAP 0 SNAP_IRQ_CAP_ERR = 1 ∧ t.hw.reg pSNAP 2 0 = s.hw.reg pSNAP 2 0 ∧ t.hw.dom = s.hw.dom)) ∧
  (∀ (f : Frame) (tag port n : Nat) (g : OpenGen) (s : State),
    s.hw.jstate = 3 ∧ s.hw.b pSNAP 0 SNAP_CTRL_ASM = true ∧ s.hw.dom.rxq = [⟨port, tag, f⟩] ∧ f.tc = 1 ∧ f.kind = 1
      ∧ s.hw.dom.asm = some g ∧ s.hw.dramReady = true →
    n = bitsOf (f.words.getD 0 0).toNat 32 7 ∧ f.words.length = n + 1 ∧ n < 8 * s.hw.dom.stride ∧ f.src < 16384 ∧
      g.buf < 3 ∧ g.tn < 2 ^ 40 →
    g.tn = tickAt s.hw.tick (tickAhead s.hw.tick ((f.words.getD 0 0).toNat % 2 ^ 32)) →
    Answers (exec .domPublication s) (fun t =>
      blockIs (t.rd (lineBase (s.hw.dom.block g.buf f.src))) 1 (bitsOf (f.words.getD 0 0).toNat 39 1) n 0 g.tn f.src ∧
      (∀ j, 1 ≤ j → j < 8 * s.hw.dom.stride → t.rd (lineBase (s.hw.dom.block g.buf f.src) + j) = (if j ≤ n then
        f.words.getD j 0 else 0)) ∧
      (∀ j, j < 8 * s.hw.dom.stride → (t.tag (lineBase (s.hw.dom.block g.buf f.src) + j)).toNat = g.tn % 16 * 16) ∧
      (∀ a, a < lineBase (s.hw.dom.block g.buf f.src) ∨ lineBase (s.hw.dom.block g.buf f.src) + 8 * s.hw.dom.stride
        ≤ a → t.rd a = s.rd a ∧ t.tag a = s.tag a) ∧
      t.hw.dom.asm = some { g with fresh := if g.fresh.contains f.src then g.fresh else g.fresh ++ [f.src] })) ∧
  (∀ (f : Frame) (tag port : Nat) (s : State),
    s.hw.jstate = 3 ∧ s.hw.dom.rxq = [⟨port, tag, f⟩] ∧ f.tc = 1 ∧ f.kind = 1 ∧ s.hw.dom.asm = none →
    Answers (exec .domPublication s) (fun t =>
      t.hw.f pSNAP 0 SNAP_LATE_PUB_COUNT = (s.hw.f pSNAP 0 SNAP_LATE_PUB_COUNT + 1) % 2 ^ 40 ∧ sameMemory s t)) ∧
  (∀ (g : OpenGen) (s : State),
    s.hw.dom.asm = some g ∧ (0 :: s.hw.dom.expected).all (fun i => g.fresh.contains i) = true ∧ s.hw.dom.left = [] ∧
      g.buf < 3 ∧ g.tn < 2 ^ 40 →
    Answers (exec .generationComplete s) (fun t =>
      t.hw.f pSNAP 0 SNAP_LATEST_TN = g.tn ∧ t.hw.f pSNAP 0 SNAP_STATUS_LATEST_BUF = g.buf ∧ t.hw.f pSNAP 0
        SNAP_STATUS_LATEST_VALID = 1 ∧ t.hw.f pSNAP 0 SNAP_STATUS_ASSEMBLING = 0 ∧
      t.hw.f pSNAP 0 SNAP_IRQ_GEN_DONE = 1 ∧ t.hw.dom.asm = none ∧ t.hw.dom.latest = some (g.tn, g.buf) ∧ t.hw.f
        pSNAP 0 SNAP_MISS_CNT_COUNT = s.hw.f pSNAP 0 SNAP_MISS_CNT_COUNT ∧
      sameMemory s t)) ∧
  (∀ (g : OpenGen) (c : TickCfg) (i n0 b0 : Nat) (s : State),
    s.hw.dom.asm = some g ∧ s.hw.dom.expected = [i] ∧ g.fresh = [0] ∧ i ≠ 0 ∧ i < 16384 ∧ s.hw.dom.left = [] ∧ g.buf
      < 3 ∧ b0 < 3 ∧ b0 ≠ g.buf ∧ 1 ≤ s.hw.dom.stride →
    s.hw.dom.configs = [c] ∧ c.tn ≤ g.tn ∧ g.tn < c.tn + 2 ^ 39 ∧ s.hw.f pSNAP 0 SNAP_ASM_DL_T = 0 ∧ c.time + (g.tn
      - c.tn) * c.period * 256 + c.period * 256 ≤ s.hw.domTime →
    s.hw.dom.latest = some (n0, b0) ∧ (s.hw.dom.bufs.getD b0 {}).nodes.contains i = true ∧ (s.hw.recvOf ⟨1, false,
      i⟩).fenced = false ∧ s.hw.dramReady = true →
    Answers (exec .generationComplete s) (fun t =>
      blockIs (t.rd (lineBase (s.hw.dom.block g.buf i))) 2 (bitsOf (s.rd (lineBase (s.hw.dom.block b0 i))).toNat 37
        1) (bitsOf (s.rd (lineBase (s.hw.dom.block b0 i))).toNat 30 7) (min 63 (bitsOf (s.rd (lineBase (s.hw.dom.block
        b0 i))).toNat 24 6 + 1)) g.tn i ∧
      (∀ j, 1 ≤ j → j < 8 * s.hw.dom.stride → t.rd (lineBase (s.hw.dom.block g.buf i) + j) = s.rd (lineBase
        (s.hw.dom.block b0 i) + j)) ∧
      t.hw.f pSNAP 0 SNAP_MISS_CNT_COUNT = (s.hw.f pSNAP 0 SNAP_MISS_CNT_COUNT + 1) % 2 ^ 40 ∧ t.hw.f pSNAP 0
        SNAP_IRQ_ASM_MISS = 1 ∧ t.hw.dom.latest = some (g.tn, g.buf))) ∧
  (∀ (w : Requester) (n b : Nat) (s : State),
    accepts s.hw w pSNAP = true ∧ s.hw.dom.pin = none ∧ s.hw.dom.latest = some (n, b) ∧ b < 4 ∧ n < 2 ^ 40 →
    Answers (exec (.leaseReq w) s) (fun t =>
      t.hw.dom.pin = some ⟨b, n, s.hw.now + 400 * max 1 (s.hw.f pSNAP 0 SNAP_LEASE_US_US), [w.bank]⟩ ∧ t.hw.f pSNAP
        w.bank SNAP_LEASE_VALID = 1 ∧ t.hw.f pSNAP w.bank SNAP_LEASE_EXPIRED = 0 ∧
      t.hw.f pSNAP w.bank SNAP_LEASE_BUF = b ∧ t.hw.f pSNAP w.bank SNAP_LEASE_TN_TN = n ∧ t.hw.f pSNAP 0
        SNAP_STATUS_PINNED = 1 ∧ t.hw.f pSNAP 0 SNAP_STATUS_PIN_BUF = b)) ∧
  (∀ (w : Requester) (p : Pin) (s : State),
    accepts s.hw w pSNAP = true ∧ s.hw.dom.pin = some p ∧ s.hw.now < p.until' ∧ p.holders.contains w.bank = false ∧
      p.holders ≠ [] →
    Answers (exec (.leaseReq w) s) (fun t =>
      t.hw.dom.pin = some { p with holders := p.holders ++ [w.bank] } ∧ t.hw.f pSNAP w.bank SNAP_LEASE_VALID = 1)) ∧
  (∀ (w : Requester) (p : Pin) (s : State),
    accepts s.hw w pSNAP = true ∧ s.hw.dom.pin = some p ∧ p.holders = [w.bank] →
    Answers (exec (.leaseRel w) s) (fun t =>
      t.hw.dom.pin = none ∧ t.hw.f pSNAP 0 SNAP_STATUS_PINNED = 0 ∧ t.hw.f pSNAP w.bank SNAP_LEASE_VALID = 0)) ∧
  (∀ (p : Pin) (s : State),
    s.hw.dom.pin = some p ∧ p.until' ≤ s.hw.now →
    Answers (exec .leaseExpiry s) (fun t =>
      t.hw.dom.pin = none ∧ t.hw.f pSNAP 0 SNAP_IRQ_LEASE_EXP = 1 ∧ t.hw.f pSNAP 0 SNAP_STATUS_PINNED = 0 ∧ ∀ b ∈
        p.holders, t.hw.f pSNAP b SNAP_LEASE_EXPIRED = 1)) ∧
  (∀ (p : Pin) (s : State),
    s.hw.dom.pin = some p ∧ s.hw.now < p.until' →
    Answers (exec .leaseExpiry s) (fun t =>
      t = s))

/-- O45. COMMAND_SEND that passes its checks takes the next ESEQ, is logged and leaves with its write list; one that fails
sends nothing and CTX_STAT holds the first cause. A target queues a command for its tick, or rejects it by the first
row of its table, counting it and reporting to the source. The applier writes every word of a command whose writes all
pass and counts it; a command with a write that fails its check writes nothing. REPORT frames enter the queue, RESULT
8 and 10 filled from the send log; REPORT_READ takes the head and captures its high word. A fenced stream repeats
RESUME_REQ, is answered by RESUME_ACK with FIRST and NEXT, and on it releases its held frames, EXPECT becoming NEXT.
Where a clause lies on a reading or a choice of the model's own: log entries 108, 109, 110. -/
def Obligations.CommandsRunAtTheirTicks : Prop :=
  (∀ (w : Requester) (d : Word) (p dst e : Nat) (s : State),
    accepts s.hw w pDOM = true ∧ firstCause (sendCauses s.hw w.bank d) = 0 ∧ dst = s.hw.f pDOM w.bank DOM_CTX_A_DST
      ∧ goesBy s.hw dst p ∧ e = (s.hw.sendOf ⟨0, false, dst⟩).next ∧ s.hw.dom.sendLog.length < 256 →
    Answers (exec (.commandSend w d) s) (fun t =>
      t.hw.f pDOM w.bank DOM_CTX_STAT_CAUSE = 0 ∧ t.hw.f pDOM w.bank DOM_CTX_STAT_ESEQ = e % 2 ^ 16 ∧ (t.hw.sendOf
        ⟨0, false, dst⟩).next = (e + 1) % 65536 ∧
      t.hw.dom.sendLog = s.hw.dom.sendLog ++ [⟨dst, e, s.hw.f pDOM w.bank DOM_CTX_A_CMD_ID, s.hw.f pDOM w.bank
        DOM_CTX_TN_TN⟩] ∧
      (t.hw.port p).txq = (s.hw.port p).txq ++ [⟨4, 0, ⟨dst, s.hw.nodeId, 0, 0, 1, e, w40 (s.hw.f pDOM w.bank
        DOM_CTX_A_LEVEL * 2 ^ 32 + s.hw.f pDOM w.bank DOM_CTX_TN_TN % 2 ^ 32) :: w40 (s.hw.f pDOM w.bank
        DOM_CTX_A_CMD_ID * 2 ^ 24 + s.hw.f pDOM w.bank DOM_CTX_A_ACK * 2 ^ 7 + bitsOf d.toNat 32 7) :: (List.range
        (bitsOf d.toNat 32 7)).flatMap (fun j => [w40 ((s.rd (d.toNat % 2 ^ 32 + 2 * j)).toNat % 2 ^ 32), s.rd
        (d.toNat % 2 ^ 32 + 2 * j + 1)])⟩⟩] ∧
      sameMemory s t)) ∧
  (∀ (w : Requester) (d : Word) (s : State),
    accepts s.hw w pDOM = true ∧ firstCause (sendCauses s.hw w.bank d) ≠ 0 →
    Answers (exec (.commandSend w d) s) (fun t =>
      t.hw.f pDOM w.bank DOM_CTX_STAT_CAUSE = firstCause (sendCauses s.hw w.bank d) ∧ t.hw.dom = s.hw.dom ∧
        t.hw.ports = s.hw.ports ∧ sameMemory s t)) ∧
  (∀ (f : Frame) (tag port : Nat) (s : State),
    s.hw.dom.rxq = [⟨port, tag, f⟩] ∧ f.tc = 0 ∧ f.kind = 1 ∧ firstCause (commandResults s.hw f) = 0 →
    Answers (exec .domCommand s) (fun t =>
      (∃ q : QCmd, t.hw.dom.cmdQ = s.hw.dom.cmdQ ++ [q] ∧ q.tick % 2 ^ 32 = (f.words.getD 0 0).toNat % 2 ^ 32 ∧
        q.src = f.src ∧ q.bcast = (f.dst == 16383) ∧ q.eseq = f.eseq ∧ q.id = bitsOf (f.words.getD 1 0).toNat 24 16 ∧
        q.ack = bitOf (f.words.getD 1 0).toNat 7 ∧ q.writes.length = (f.words.getD 1 0).toNat % 128) ∧
      t.hw.f pDOM 0 DOM_FAIL_CNT_COUNT = s.hw.f pDOM 0 DOM_FAIL_CNT_COUNT ∧ t.hw.dom.rxq = [])) ∧
  (∀ (f : Frame) (tag port p : Nat) (s : State),
    s.hw.dom.rxq = [⟨port, tag, f⟩] ∧ f.tc = 0 ∧ f.kind = 1 ∧ firstCause (commandResults s.hw f) ≠ 0 ∧ goesBy s.hw
      f.src p →
    Answers (exec .domCommand s) (fun t =>
      t.hw.dom.cmdQ = s.hw.dom.cmdQ ∧ t.hw.f pDOM 0 DOM_FAIL_CNT_COUNT = (s.hw.f pDOM 0 DOM_FAIL_CNT_COUNT + 1) % 2
        ^ 40 ∧
      (∃ e a b, (t.hw.port p).txq = (s.hw.port p).txq ++ [⟨4, 0, ⟨f.src, s.hw.nodeId, 0, 0, 2, e, [a, b]⟩⟩] ∧ bitsOf
        a.toNat 32 8 = firstCause (commandResults s.hw f) ∧ bitsOf b.toNat 24 16 = bitsOf (f.words.getD 1 0).toNat 24
        16 ∧ bitsOf b.toNat 8 16 = f.eseq % 2 ^ 16))) ∧
  (∀ (q : QCmd) (tk : SnapTick) (a : Nat) (v : Word) (s : State),
    s.hw.dom.ticks = [tk] ∧ tk.done = true ∧ s.hw.domainRuns 32 = true ∧ s.hw.b pRST 0 RST_STATUS_PENDING = false ∧
      s.hw.dom.cmdQ = [q] ∧ q.tick = tk.tn ∧ q.ack = false →
    q.writes = [(a, v)] ∧ 0x04000000 ≤ a ∧ a < 0x04200000 ∧ s.hw.memStopped a = false →
    Answers (exec .commandApply s) (fun t =>
      (t.rd a = v ∧ (∀ g, g ≠ a → t.rd g = s.rd g) ∧ t.hw.dom.cmdQ = [] ∧ t.hw.dom.ticks = []) ∧
      t.hw.f pDOM 0 DOM_APPLY_CNT_COUNT = (s.hw.f pDOM 0 DOM_APPLY_CNT_COUNT + 1) % 2 ^ 40 ∧ t.hw.f pDOM 0
        DOM_FAIL_CNT_COUNT = s.hw.f pDOM 0 DOM_FAIL_CNT_COUNT)) ∧
  (∀ (q : QCmd) (tk : SnapTick) (s : State),
    s.hw.dom.ticks = [tk] ∧ tk.done = true ∧ s.hw.domainRuns 32 = true ∧ s.hw.b pRST 0 RST_STATUS_PENDING = false ∧
      s.hw.dom.cmdQ = [q] ∧ q.tick = tk.tn →
    q.writes.any (fun x => placeOf .applier x.1 == .unmapped) = true →
    Answers (exec .commandApply s) (fun t =>
      sameMemory s t ∧ t.hw.dom.cmdQ = [] ∧
      t.hw.f pDOM 0 DOM_FAIL_CNT_COUNT = (s.hw.f pDOM 0 DOM_FAIL_CNT_COUNT + 1) % 2 ^ 40 ∧ t.hw.f pDOM 0
        DOM_APPLY_CNT_COUNT = s.hw.f pDOM 0 DOM_APPLY_CNT_COUNT)) ∧
  (∀ (f : Frame) (tag port : Nat) (w0 w1 : Nat) (s : State),
    s.hw.dom.rxq = [⟨port, tag, f⟩] ∧ f.tc = 0 ∧ f.kind = 2 ∧ w0 = (f.words.getD 0 0).toNat ∧ w1 = (f.words.getD 1
      0).toNat ∧ w0 / 2 ^ 32 ≠ 8 ∧ w0 / 2 ^ 32 ≠ 10 →
    Answers (exec .domReport s) (fun t =>
      if s.hw.dom.reports.length < 64 then t.hw.dom.reports = s.hw.dom.reports ++ [⟨w0 / 2 ^ 32, w0 % 2 ^ 32, f.src,
        bitsOf w1 24 16, w1 % 128, false⟩] ∧ t.hw.f pDOM 0 DOM_IRQ_REPORT = 1 else t.hw.dom.reports = s.hw.dom.reports
        ∧ t.hw.f pDOM 0 DOM_IRQ_RPT_OVF = 1)) ∧
  (∀ (f : Frame) (tag port : Nat) (w1 : Nat) (e : SendLog) (s : State),
    s.hw.dom.rxq = [⟨port, tag, f⟩] ∧ f.tc = 0 ∧ f.kind = 2 ∧ w1 = (f.words.getD 1 0).toNat ∧ (f.words.getD 0
      0).toNat / 2 ^ 32 = 8 ∧ s.hw.dom.sendLog = [e] ∧ e.dst = f.src ∧ e.eseq = bitsOf w1 8 16 ∧
      s.hw.dom.reports.length < 64 →
    Answers (exec .domReport s) (fun t =>
      t.hw.dom.reports = s.hw.dom.reports ++ [⟨8, e.tn % 2 ^ 32, f.src, e.id, w1 % 128, true⟩])) ∧
  (∀ (x : StreamId) (p : Nat) (s : State),
    (s.hw.recvOf x).fenced = true ∧ goesBy s.hw x.node p ∧ x.tc < 3 →
    Answers (exec (.resumeReqRepeat x) s) (fun t =>
      (t.hw.port p).txq = (s.hw.port p).txq ++ [⟨4, 0, ⟨x.node, s.hw.nodeId, x.tc, 0, 0x3E, 0, [w40 (b2n x.bcast *
        65536 + (s.hw.recvOf x).expect)]⟩⟩])) ∧
  (∀ (tc : Fin 3) (f : Frame) (tag port p : Nat) (s : State),
    s.hw.dom.rxq = [⟨port, tag, f⟩] ∧ f.tc = tc ∧ f.kind = 0x3E ∧ bitOf (f.words.getD 0 0).toNat 16 = false ∧ goesBy
      s.hw f.src p →
    Answers (exec (.resumeReq tc) s) (fun t =>
      (t.hw.port p).txq = (s.hw.port p).txq ++ [⟨4, 0, ⟨f.src, s.hw.nodeId, tc, 0, 0x3F, 0, [w40 ((s.hw.sendOf ⟨tc,
        false, f.src⟩).first * 2 ^ 16 + (s.hw.sendOf ⟨tc, false, f.src⟩).next)]⟩⟩])) ∧
  (∀ (f x : Frame) (tag port next : Nat) (s : State),
    s.hw.dom.rxq = [⟨port, tag, f⟩] ∧ f.tc = 1 ∧ f.kind = 0x3F ∧ bitOf (f.words.getD 0 0).toNat 32 = false ∧ bitsOf
      (f.words.getD 0 0).toNat 16 16 = 0 ∧ next = (f.words.getD 0 0).toNat % 65536 →
    (s.hw.recvOf ⟨1, false, f.src⟩).fenced = true ∧ (s.hw.recvOf ⟨1, false, f.src⟩).expect ≤ x.eseq ∧ x.eseq < next
      ∧ (s.hw.recvOf ⟨1, false, f.src⟩).held = [x] ∧ x.tc = 1 ∧ x.kind = 1 →
    Answers (exec (.resumeAck 1) s) (fun t =>
      (t.hw.recvOf ⟨1, false, f.src⟩) = ⟨next, false, [], []⟩ ∧ t.hw.f pDOM 0 DOM_IRQ_RESUMED = 1 ∧ t.hw.dom.rxq =
        [⟨4, 0, x⟩])) ∧
  (∀ (w : Requester) (r : Report) (rest : List Report) (s : State),
    s.hw.mayRead (s.hw.acc w) pDOM = true ∧ w ≠ .hamper ∧ w ≠ .snap ∧ s.hw.dom.reports = r :: rest →
    Answers (exec (.reportRead w) s) (fun t =>
      t.hw.resp = [w40 (r.result * 2 ^ 32 + r.tn)] ∧ t.hw.dom.reports = rest ∧ (t.hw.pair pDOM 0x8E 0 w).cap = some
        (w40 (r.node * 2 ^ 26 + r.id * 2 ^ 10 + r.idx * 8 + b2n r.logged * 4 + 1)) ∧ sameMemory s t))

/-- O46. A host read of a DRAM slot of BAR2 completes with the word, its tag byte and two zero bytes, the request's attributes
copied, and changes nothing else; of a poisoned slot it counts, flags, shows bit 43 and carries EP as POISON_EP says;
while DRAM is not ready it completes with zeros and sets DRAM_NR. A read of a device page register through BAR0
completes with the register's word. A write that covers a slot's word stores it and changes no other word or tag; one
that covers it in part changes no memory, counts, and HERR locates the slot; one to a page that refuses the host
counts, flags and is located. Snapshot window reads show the leased buffer's block word, zeros without a lease; Hamper
window reads show the frozen ring in record order, zeros otherwise. Where a clause lies on a reading or a choice of
the model's own: log entries 115. -/
def Obligations.HostReadsAndWritesSlots : Prop :=
  (∀ (k : Nat) (ro ns : Bool) (s : State),
    hostUp s.hw = true ∧ k < 2 ^ 29 ∧ s.hw.dramReady = true ∧ s.hw.memStopped (0x10000000 + k) = false ∧ s.poisoned
      (0x10000000 + k) = false →
    Answers (exec (.hostRead 1 (BitVec.ofNat 32 (8 * k)) 8 ro ns) s) (fun t =>
      t = s.on (fun h =>
        { h with out := h.out ++ [.hostData (slotBytes (s.rd (0x10000000 + k)) (s.tag (0x10000000 + k)).toNat) false ro ns] }))) ∧
  (∀ (k : Nat) (ro ns : Bool) (s : State),
    hostUp s.hw = true ∧ k < 2 ^ 29 ∧ s.hw.dramReady = true ∧ s.hw.memStopped (0x10000000 + k) = false ∧ s.poisoned
      (0x10000000 + k) = true →
    Answers (exec (.hostRead 1 (BitVec.ofNat 32 (8 * k)) 8 ro ns) s) (fun t =>
      t.hw.out.getLast? = some (.hostData (slotBytes (s.rd (0x10000000 + k)) ((s.tag (0x10000000 + k)) ||| 8).toNat)
        (s.hw.b pPCIE 0 PCIE_CTRL_POISON_EP) ro ns) ∧
      t.hw.f pPCIE 0 PCIE_POISON_CNT_COUNT = (s.hw.f pPCIE 0 PCIE_POISON_CNT_COUNT + 1) % 2 ^ 40 ∧ t.hw.f pPCIE 0
        PCIE_IRQ_POISON = 1 ∧ t.mem = s.mem ∧ t.tags = s.tags)) ∧
  (∀ (k : Nat) (ro ns : Bool) (s : State),
    hostUp s.hw = true ∧ k < 2 ^ 29 ∧ s.hw.dramReady = false →
    Answers (exec (.hostRead 1 (BitVec.ofNat 32 (8 * k)) 8 ro ns) s) (fun t =>
      t.hw.out.getLast? = some (.hostData [0, 0, 0, 0, 0, 0, 0, 0] false ro ns) ∧ t.hw.f pPCIE 0 PCIE_IRQ_DRAM_NR =
        1 ∧ t.mem = s.mem ∧ t.tags = s.tags)) ∧
  (∀ (idx : Fin 64) (off : Fin 256) (ro ns : Bool) (s : State),
    hostUp s.hw = true ∧ s.hw.mayRead ⟨.host, 1⟩ ⟨15, idx⟩ = true →
    Answers (exec (.hostRead 0 (BitVec.ofNat 32 (8 * (256 * idx + off))) 8 ro ns) s) (fun t =>
      t.hw.out = (s.pageRead ⟨.host, 1⟩ ⟨15, idx⟩ off).1.hw.out ++ [.hostData (slotBytes (s.pageRead ⟨.host, 1⟩ ⟨15,
        idx⟩ off).2.2 0) false ro ns] ∧ t.mem = s.mem ∧ t.tags = s.tags)) ∧
  (∀ (k : Nat) (bs : List (BitVec 8)) (s : State),
    hostUp s.hw = true ∧ k < 2 ^ 29 ∧ s.hw.dramReady = true ∧ s.hw.memStopped (0x10000000 + k) = false ∧ bs.length =
      8 →
    Answers (exec (.hostWrite 1 (BitVec.ofNat 32 (8 * k)) (bs.map some)) s) (fun t =>
      (t.rd (0x10000000 + k) = wordOfBytes (bs.map (·.toNat)) ∧ (∀ g, g ≠ 0x10000000 + k → t.rd g = s.rd g) ∧ t.tags
        = s.tags ∧ t.hw = s.hw))) ∧
  (∀ (k : Nat) (b : BitVec 8) (s : State),
    hostUp s.hw = true ∧ k < 2 ^ 29 →
    Answers (exec (.hostWrite 1 (BitVec.ofNat 32 (8 * k)) [some b]) s) (fun t =>
      t.mem = s.mem ∧ t.tags = s.tags ∧ t.hw.f pPCIE 0 PCIE_PARTIAL_CNT_COUNT = (s.hw.f pPCIE 0
        PCIE_PARTIAL_CNT_COUNT + 1) % 2 ^ 40 ∧
      t.hw.f pPCIE 0 PCIE_IRQ_PARTIAL = 1 ∧ t.hw.f pPCIE 0 PCIE_HERR_BAR = 1 ∧ t.hw.f pPCIE 0 PCIE_HERR_OFFSET = 8 *
        k)) ∧
  (∀ (k : Nat) (bs : List (BitVec 8)) (s : State),
    hostUp s.hw = true ∧ k < 2 ^ 29 ∧ s.hw.dramReady = false ∧ bs.length = 8 →
    Answers (exec (.hostWrite 1 (BitVec.ofNat 32 (8 * k)) (bs.map some)) s) (fun t =>
      t.mem = s.mem ∧ t.tags = s.tags ∧ t.hw.f pPCIE 0 PCIE_IRQ_DRAM_NR = 1)) ∧
  (∀ (idx : Fin 64) (off : Fin 256) (bs : List (BitVec 8)) (s : State),
    hostUp s.hw = true ∧ reachable s.hw ⟨15, idx⟩ = true ∧ accepts s.hw .host ⟨15, idx⟩ off = false ∧ 0x10 ≤ off.val
      ∧ bs.length = 8 →
    Answers (exec (.hostWrite 0 (BitVec.ofNat 32 (8 * (256 * idx + off))) (bs.map some)) s) (fun t =>
      t.mem = s.mem ∧ t.tags = s.tags ∧ t.hw.f pPCIE 0 PCIE_REFUSED_CNT_COUNT = (s.hw.f pPCIE 0
        PCIE_REFUSED_CNT_COUNT + 1) % 2 ^ 40 ∧ t.hw.f pPCIE 0 PCIE_IRQ_REFUSED = 1 ∧
      t.hw.f pPCIE 0 PCIE_HERR_BAR = 0 ∧ t.hw.f pPCIE 0 PCIE_HERR_OFFSET = 8 * (256 * idx + off) ∧ t.hw.f pDEV 0
        DEV_ACC_LOG_REQ = 0x30)) ∧
  (∀ (w : Nat) (s : State),
    hostUp s.hw = true ∧ w < 2 ^ 21 ∧ w < 16384 * 8 * s.hw.dom.stride ∧ s.hw.f pSNAP 0x30 SNAP_LEASE_VALID = 1 →
    s.hw.memStopped (lineBase (s.hw.dom.block (s.hw.f pSNAP 0x30 SNAP_LEASE_BUF) 0) + w) = false ∧ s.poisoned
      (lineBase (s.hw.dom.block (s.hw.f pSNAP 0x30 SNAP_LEASE_BUF) 0) + w) = false →
    Answers (exec (.snapshotWindowRead (BitVec.ofNat 24 (8 * w)) 8) s) (fun t =>
      t = s.on (fun h =>
        { h with out := h.out ++ [.hostData (slotBytes (s.rd (lineBase (h.dom.block (h.f pSNAP 0x30 SNAP_LEASE_BUF) 0) + w)) (s.tag (lineBase (h.dom.block (h.f pSNAP 0x30 SNAP_LEASE_BUF) 0) + w)).toNat) false false false] }))) ∧
  (∀ (w : Nat) (s : State),
    hostUp s.hw = true ∧ w < 2 ^ 21 ∧ (s.hw.f pSNAP 0x30 SNAP_LEASE_VALID = 0 ∨ 16384 * 8 * s.hw.dom.stride ≤ w) →
    Answers (exec (.snapshotWindowRead (BitVec.ofNat 24 (8 * w)) 8) s) (fun t =>
      t = s.on (fun h => { h with out := h.out ++ [.hostData [0, 0, 0, 0, 0, 0, 0, 0] false false false] }))) ∧
  (∀ (w g : Nat) (s : State),
    hostUp s.hw = true ∧ w < 2 ^ 22 ∧ s.hw.f pHAMPER 0 HAMPER_STATUS_STATE = 4 ∧ s.hw.dramReady = true ∧ 0 <
      s.hw.hamper.k * s.hw.hamper.r →
    g = lineBase (s.hw.hamper.base + ((s.hw.f pHAMPER 0 HAMPER_LAST_IDX_POS + 1) * s.hw.hamper.r + s.hw.f pPCIE 0
      PCIE_HWIN_LINE + w / 8) % (s.hw.hamper.k * s.hw.hamper.r)) + w % 8 →
    s.hw.memStopped g = false ∧ s.poisoned g = false →
    Answers (exec (.hamperWindowRead (BitVec.ofNat 25 (8 * w)) 8) s) (fun t =>
      t = s.on (fun h =>
        { h with out := h.out ++ [.hostData (slotBytes (s.rd g) (s.tag g).toNat) false false false] }))) ∧
  (∀ (w : Nat) (s : State),
    hostUp s.hw = true ∧ w < 2 ^ 22 ∧ s.hw.f pHAMPER 0 HAMPER_STATUS_STATE ≠ 4 ∧ s.hw.dramReady = true →
    Answers (exec (.hamperWindowRead (BitVec.ofNat 25 (8 * w)) 8) s) (fun t =>
      t = s.on (fun h => { h with out := h.out ++ [.hostData [0, 0, 0, 0, 0, 0, 0, 0] false false false] })))

/-- O47. VACK by the host while a vector's request is 1 and no mask is set sends its message; while the request is 0 it sends
none. VFIRE sends each software vector named, or leaves it pending under a mask; clearing the masks sends it. A
configuration request sets the MSI-X enables, Device Control, or the power state. A link that comes up shows its rate,
width and flit mode. A Function Level Reset and PERST# mask every vector, clear the pending bits of every software and
mailbox vector, the enables, HWIN and the host's CHSEL and lease, set FLR, and, when no beat waits on the host, keep
every page's OWNER; PERST# takes the link down and sets LINK_DOWN if it was up. Where a clause lies on a reading or a
choice of the model's own: log entries 112, 113, 114, 116. -/
def Obligations.MsixAndHostResets : Prop :=
  (∀ (v : Fin 256) (s : State),
    accepts s.hw .host pPCIE = true ∧ (vec s.hw v).req = true ∧ (vec s.hw v).masked = false ∧ s.hw.msixEn = true ∧
      s.hw.fmask = false ∧ s.hw.f pPCIE 0 PCIE_STATUS_LINK_UP = 1 →
    Answers (exec (.pcieVack .host v) s) (fun t =>
      t.hw.out = s.hw.out ++ [.msix v (vec s.hw v).addr (vec s.hw v).data] ∧ (vec t.hw v).pend = false ∧ (vec t.hw
        v).req = true ∧ sameMemory s t)) ∧
  (∀ (v : Fin 256) (s : State),
    accepts s.hw .host pPCIE = true ∧ (vec s.hw v).req = false →
    Answers (exec (.pcieVack .host v) s) (fun t =>
      t.hw.out = s.hw.out ∧ t.hw.vectors = s.hw.vectors ∧ t.hw.regs = s.hw.regs ∧ t.mem = s.mem)) ∧
  (∀ (w : Requester) (n : Fin 2) (i : Fin 32) (v : Nat) (s : State),
    accepts s.hw w pPCIE = true ∧ v = 0xC0 + n.val * 0x20 + i.val ∧ s.hw.f pPCIE 0 PCIE_STATUS_LINK_UP = 1 →
    Answers (exec (.pcieVfire w n (w40 (2 ^ i.val))) s) (fun t =>
      if s.hw.msixEn = true ∧ s.hw.fmask = false ∧ (vec s.hw v).masked = false then t.hw.out = s.hw.out ++ [.msix v
        (vec s.hw v).addr (vec s.hw v).data] ∧ (vec t.hw v).pend = false else True ∧
      if s.hw.msixEn = true ∧ s.hw.fmask = false ∧ (vec s.hw v).masked = true then t.hw.out = s.hw.out ∧ (vec t.hw
        v).pend = true else True ∧
      t.hw.regs = s.hw.regs ∧ t.mem = s.mem)) ∧
  (∀ (v : Nat) (x : Vector) (s : State),
    s.hw.f pPCIE 0 PCIE_STATUS_LINK_UP = 1 ∧ s.hw.vectors = [(v, x)] ∧ x.pend = true ∧ x.masked = false →
    Answers (exec (.configurationWrite (.msix true false)) s) (fun t =>
      t.hw.msixEn = true ∧ t.hw.fmask = false ∧ t.hw.out = s.hw.out ++ [.msix v x.addr x.data] ∧ (vec t.hw v).pend =
        false ∧ t.hw.regs = s.hw.regs ∧ t.mem = s.mem)) ∧
  (∀ (d3 : Bool) (s : State),
    s.hw.f pPCIE 0 PCIE_STATUS_LINK_UP = 1 →
    Answers (exec (.configurationWrite (.power d3)) s) (fun t =>
      t.hw.f pPCIE 0 PCIE_STATUS_D3 = b2n d3 ∧ t.hw.out = s.hw.out ∧ t.mem = s.mem)) ∧
  (∀ (ro ns : Bool) (mps mrrs : Fin 8) (s : State),
    s.hw.f pPCIE 0 PCIE_STATUS_LINK_UP = 1 →
    Answers (exec (.configurationWrite (.devCtl ro ns mps mrrs)) s) (fun t =>
      t.hw.devCtl = ⟨ro, ns, mps, mrrs⟩ ∧ t.hw.regs = s.hw.regs ∧ t.hw.out = s.hw.out ∧ t.mem = s.mem)) ∧
  (∀ (rate : Fin 6) (width : Fin 4) (partner : Bool) (s : State),
    s.hw.f pPCIE 0 PCIE_STATUS_LINK_UP = 0 ∧ s.hw.domainRuns 38 = true →
    Answers (exec (.pcieLinkUp rate width partner) s) (fun t =>
      t.hw.f pPCIE 0 PCIE_STATUS_LINK_UP = 1 ∧ t.hw.f pPCIE 0 PCIE_STATUS_RATE = rate ∧ t.hw.f pPCIE 0
        PCIE_STATUS_WIDTH = width ∧ t.mem = s.mem ∧
      t.hw.f pPCIE 0 PCIE_STATUS_FLIT = b2n (rate.val == 5 || (rate.val == 4 && partner && s.hw.b pPCIE 0
        PCIE_CTRL_FLIT32)))) ∧
  (∀ (s : State),
    s.hw.f pPCIE 0 PCIE_STATUS_LINK_UP = 1 ∧ (List.range 16).all (fun ch => s.hw.mstate ⟨none, ch⟩ != 3) = true →
    Answers (exec .functionLevelReset s) (fun t =>
      ((∀ v, (vec t.hw v).masked = true) ∧ (∀ v, 0x80 ≤ v → (vec t.hw v).pend = false) ∧ t.hw.msixEn = false ∧
        t.hw.fmask = false) ∧
      t.hw.f pPCIE 0 PCIE_HWIN_LINE = 0 ∧ t.hw.f pPCIE 0 PCIE_IRQ_FLR = 1 ∧ t.hw.f pPCIE 0 PCIE_STATUS_LINK_UP = 1 ∧
        (∀ idx, t.hw.reg ⟨15, idx⟩ 6 0 = s.hw.reg ⟨15, idx⟩ 6 0) ∧ t.hw.f pSNAP 0x30 SNAP_LEASE_VALID = 0 ∧
      t.hw.reg pMBOX 8 0x30 = 0 ∧ t.hw.cores = s.hw.cores ∧ t.hw.dom.cmdQ = s.hw.dom.cmdQ ∧ t.hw.ports = s.hw.ports)) ∧
  (∀ (pin : Bool) (s : State),
    (List.range 16).all (fun ch => s.hw.mstate ⟨none, ch⟩ != 3) = true →
    Answers (exec (.pciePerst pin) s) (fun t =>
      (∀ v, (vec t.hw v).masked = true) ∧ (∀ v, 0x80 ≤ v → (vec t.hw v).pend = false) ∧ t.hw.msixEn = false ∧ t.hw.f
        pPCIE 0 PCIE_STATUS_LINK_UP = 0 ∧ t.hw.f pPCIE 0 PCIE_HWIN_LINE = 0 ∧ t.hw.perstLow = (s.hw.perstLow || pin) ∧
      (if pin = true then t.hw.f pPCIE 0 PCIE_IRQ_FLR = 1 else True) ∧ (if s.hw.f pPCIE 0 PCIE_STATUS_LINK_UP = 1
        then t.hw.f pPCIE 0 PCIE_IRQ_LINK_DOWN = 1 else True) ∧ (∀ idx, t.hw.reg ⟨15, idx⟩ 6 0 = s.hw.reg ⟨15, idx⟩ 6
        0) ∧ t.hw.cores = s.hw.cores))

/-- O48. A MAILBOX_SEND that meets no failure sets TXBUSY and sends one MSG of the mailbox, DMB, LEN and the first LEN words of
the transmit buffer to DST; one that meets a failure sends nothing and TXERR holds the first cause. MAILBOX_SENT, once
the message waits at no port, ends the send: TXBUSY 0, TXDONE and its flag. A MSG to a closed or full mailbox is
answered by NAK CLOSED or FULL and stored nowhere; otherwise the payload and then the header lie in slot WR, no other
word changes, RXCNT and WR step and RX is set. A NAK sets NAKED and NAK_CAUSE in the mailbox of its SMB. MRXDONE frees
slot RD, or changes no count while RXCNT is 0. Where a clause lies on a reading or a choice of the model's own: log
entries 117. -/
def Obligations.MailboxesCarryMessages : Prop :=
  (∀ (w : Requester) (d : Word) (m p dst e : Nat) (s : State),
    accepts s.hw w pMBOX = true ∧ m = s.hw.chsel pMBOX w ∧ m < 64 ∧ firstCause (mtxCauses s.hw m d) = 0 ∧ dst =
      d.toNat % 16384 ∧ goesBy s.hw dst p ∧ e = (s.hw.sendOf ⟨2, false, dst⟩).next ∧ s.hw.dramReady = true →
    Answers (exec (.mailboxSend w d) s) (fun t =>
      (t.hw.port p).txq = (s.hw.port p).txq ++ [⟨4, 0, mboxFrame dst s.hw.nodeId 1 e (bitsOf d.toNat 14 6 * 2 ^ 32 +
        m * 2 ^ 26 + bitsOf d.toNat 20 7) (s.rdList (s.hw.mboxBase m) (bitsOf d.toNat 20 7))⟩] ∧
      t.hw.f pMBOX m MBOX_MSTAT_TXBUSY = 1 ∧ t.mem = s.mem ∧ t.tags = s.tags)) ∧
  (∀ (w : Requester) (d : Word) (m : Nat) (s : State),
    accepts s.hw w pMBOX = true ∧ m = s.hw.chsel pMBOX w ∧ m < 64 ∧ firstCause (mtxCauses s.hw m d) ≠ 0 →
    Answers (exec (.mailboxSend w d) s) (fun t =>
      t.hw.f pMBOX m MBOX_MSTAT_TXERR = firstCause (mtxCauses s.hw m d) ∧ t.hw.ports = s.hw.ports ∧ t.hw.dom =
        s.hw.dom ∧ t.mem = s.mem ∧ t.tags = s.tags)) ∧
  (∀ (m : Fin 64) (s : State),
    s.hw.f pMBOX m MBOX_MSTAT_TXBUSY = 1 ∧ s.hw.mboxQueued m = false →
    Answers (exec (.mailboxSent m) s) (fun t =>
      t.hw.f pMBOX m MBOX_MSTAT_TXBUSY = 0 ∧ t.hw.f pMBOX m MBOX_MSTAT_TXDONE = 1 ∧ t.hw.f pMBOX 0 MBOX_IRQ_TXDONE =
        1 ∧ t.mem = s.mem ∧ t.hw.ports = s.hw.ports)) ∧
  (∀ (m : Fin 64) (k : Fin 4) (x : Held) (s : State),
    x ∈ (s.hw.port k).txq ∧ x.port = 4 ∧ x.frame.tc = 2 ∧ x.frame.kind = 1 ∧ x.frame.src = s.hw.nodeId ∧ bitsOf
      (x.frame.words.getD 0 0).toNat 26 6 = m →
    Answers (exec (.mailboxSent m) s) (fun t =>
      t = s)) ∧
  (∀ (f : Frame) (tag port w0 m p e : Nat) (s : State),
    s.hw.dom.rxq = [⟨port, tag, f⟩] ∧ f.tc = 2 ∧ f.kind = 1 ∧ w0 = (f.words.getD 0 0).toNat ∧ m = bitsOf w0 32 6 ∧
      goesBy s.hw f.src p ∧ e = (s.hw.sendOf ⟨2, false, f.src⟩).next →
    s.hw.f pMBOX m MBOX_MCFG_EN = 0 ∨ s.hw.f pMBOX m MBOX_MRXDONE_RXCNT = 4 →
    Answers (exec .mboxMsg s) (fun t =>
      (t.hw.port p).txq = (s.hw.port p).txq ++ [⟨4, 0, mboxFrame f.src s.hw.nodeId 2 e (m * 2 ^ 32 + bitsOf w0 26 6
        * 2 ^ 26 + (if s.hw.f pMBOX m MBOX_MCFG_EN = 0 then 2 else 1)) []⟩] ∧
      t.hw.dom.rxq = [] ∧ t.mem = s.mem ∧ t.tags = s.tags ∧ t.hw.f pMBOX m MBOX_MRXDONE_RXCNT = s.hw.f pMBOX m
        MBOX_MRXDONE_RXCNT)) ∧
  (∀ (f : Frame) (tag port w0 m base : Nat) (s : State),
    s.hw.dom.rxq = [⟨port, tag, f⟩] ∧ f.tc = 2 ∧ f.kind = 1 ∧ w0 = (f.words.getD 0 0).toNat ∧ m = bitsOf w0 32 6 ∧
      f.words.length = w0 % 128 + 1 ∧ w0 % 128 ≤ 99 →
    s.hw.f pMBOX m MBOX_MCFG_EN = 1 ∧ s.hw.f pMBOX m MBOX_MRXDONE_RXCNT < 4 ∧ s.hw.dramReady = true ∧ base =
      s.hw.mboxBase m + 128 + 128 * s.hw.f pMBOX m MBOX_MSTAT_WR →
    Answers (exec .mboxMsg s) (fun t =>
      (t.rd base = w40 (f.src * 2 ^ 26 + bitsOf w0 26 6 * 2 ^ 20 + w0 % 128) ∧ t.rdList (base + 1) (w0 % 128) =
        f.words.drop 1 ∧ (∀ g, (g < base ∨ base + w0 % 128 < g) → t.rd g = s.rd g) ∧ t.tags = s.tags) ∧
      t.hw.f pMBOX m MBOX_MRXDONE_RXCNT = s.hw.f pMBOX m MBOX_MRXDONE_RXCNT + 1 ∧ t.hw.f pMBOX m MBOX_MSTAT_WR =
        (s.hw.f pMBOX m MBOX_MSTAT_WR + 1) % 4 ∧ t.hw.f pMBOX 0 MBOX_IRQ_RX = 1 ∧ t.hw.dom.rxq = [])) ∧
  (∀ (f : Frame) (tag port w0 m : Nat) (s : State),
    s.hw.dom.rxq = [⟨port, tag, f⟩] ∧ f.tc = 2 ∧ f.kind = 2 ∧ w0 = (f.words.getD 0 0).toNat ∧ m = bitsOf w0 26 6 →
    Answers (exec .mboxNak s) (fun t =>
      t.hw.f pMBOX m MBOX_MSTAT_NAKED = 1 ∧ t.hw.f pMBOX m MBOX_MSTAT_NAK_CAUSE = w0 % 4 ∧ t.hw.f pMBOX 0
        MBOX_IRQ_NAK = 1 ∧ t.hw.dom.rxq = [] ∧ t.mem = s.mem)) ∧
  (∀ (w : Requester) (m : Nat) (s : State),
    accepts s.hw w pMBOX = true ∧ m = s.hw.chsel pMBOX w →
    Answers (exec (.mboxRxdone w) s) (fun t =>
      if s.hw.f pMBOX m MBOX_MRXDONE_RXCNT = 0 then t.hw.f pMBOX m MBOX_MRXDONE_RXCNT = 0 ∧ t.hw.f pMBOX m
        MBOX_MSTAT_RD = s.hw.f pMBOX m MBOX_MSTAT_RD else t.hw.f pMBOX m MBOX_MRXDONE_RXCNT = s.hw.f pMBOX m
        MBOX_MRXDONE_RXCNT - 1 ∧ t.hw.f pMBOX m MBOX_MSTAT_RD = (s.hw.f pMBOX m MBOX_MSTAT_RD + 1) % 4 ∧
      t.mem = s.mem ∧ t.hw.ports = s.hw.ports ∧ t.hw.dom = s.hw.dom))

/-- O49. A frame with a bad FCS or length is dropped and counted, and changes no memory. One that passes the filters and is not
the service engine's is stored in the receive ring at RXWR, timestamp and frame after word 0, no other word changed,
RXWR and RX_CNT stepping and RX set; without room it is dropped and counted. A UDP datagram for the service port and
address goes to the service engine. A transmit record without checksum insertion leaves as its bytes, TXRD and TX_CNT
step, and with TS its tag and time enter the FIFO; with ONESTEP the message's originTimestamp and correctionField take
the egress time. TXTS_READ removes the oldest stamp. An MDIO write starts a frame unless one runs, whose end brings
read data. LINK follows lock and error rate. Where a clause lies on a reading or a choice of the model's own: log
entries 118, 119. -/
def Obligations.EthernetPortsMoveFrames : Prop :=
  (∀ (k : Fin 2) (bs : List (BitVec 8)) (fcs : Bool) (fine : Fin 64) (s : State),
    s.hw.b (pETH k) 0 ETH_CTRL_EN = true ∧ s.hw.domainRuns (46 + k) = true ∧ (fcs = false ∨ bs.length < 60 ∨ 1518 <
      bs.length) →
    Answers (exec (.ethFrameReceive k bs fcs fine) s) (fun t =>
      t.mem = s.mem ∧ t.hw.f (pETH k) 0 ETH_DROP_CNT_COUNT = (s.hw.f (pETH k) 0 ETH_DROP_CNT_COUNT + 1) % 2 ^ 40 ∧
        t.hw.f (pETH k) 0 ETH_IRQ_DROP = 1 ∧ t.hw.f (pETH k) 0 ETH_RX_CNT_COUNT = s.hw.f (pETH k) 0 ETH_RX_CNT_COUNT)) ∧
  (∀ (k : Fin 2) (bs : List (BitVec 8)) (fine : Fin 64) (size base wr need : Nat) (s : State),
    frameGood s.hw k (bs.map (·.toNat)) = true ∧ s.hw.toService k (bs.map (·.toNat)) = none ∧ size = s.hw.f (pETH k)
      0 ETH_RXSIZE_WORDS ∧ base = s.hw.f (pETH k) 0 ETH_RXBASE_ADDR ∧ wr = s.hw.f (pETH k) 0 ETH_RXWR_PTR ∧ need = 3 +
      (bs.length + 4) / 5 →
    wr + need ≤ size ∧ s.hw.f (pETH k) 0 ETH_RXRD_PTR < size ∧ need ≤ ringFree size wr (s.hw.f (pETH k) 0
      ETH_RXRD_PTR) ∧ (List.range need).all (fun i => s.hw.sramOk (base + wr + i)) = true →
    Answers (exec (.ethFrameReceive k bs true fine) s) (fun t =>
      t.rd (base + wr) = w40 (b2n ((udpAt (bs.map (·.toNat))).any (udpGood (bs.map (·.toNat)))) * 2 ^ 38 + 2 ^ 16 +
        bs.length) ∧ t.rd (base + wr + 1) = w40 (s.hw.domTime + fine) ∧ t.rd (base + wr + 2) = w40 ((s.hw.domTime +
        fine) / 2 ^ 40 % 2 ^ 24) ∧
      (t.rdList (base + wr + 3) ((bs.length + 4) / 5) = packWords (bs.map (·.toNat)) ∧ (∀ g, (g < base + wr ∨ base +
        wr + need ≤ g) → t.rd g = s.rd g)) ∧
      t.hw.f (pETH k) 0 ETH_RXWR_PTR = (wr + need) % size ∧ t.hw.f (pETH k) 0 ETH_RX_CNT_COUNT = (s.hw.f (pETH k) 0
        ETH_RX_CNT_COUNT + 1) % 2 ^ 40 ∧ t.hw.f (pETH k) 0 ETH_IRQ_RX = 1)) ∧
  (∀ (k : Fin 2) (bs : List (BitVec 8)) (fine : Fin 64) (size wr rd : Nat) (s : State),
    frameGood s.hw k (bs.map (·.toNat)) = true ∧ s.hw.toService k (bs.map (·.toNat)) = none ∧ size = s.hw.f (pETH k)
      0 ETH_RXSIZE_WORDS ∧ wr = s.hw.f (pETH k) 0 ETH_RXWR_PTR ∧ rd = s.hw.f (pETH k) 0 ETH_RXRD_PTR ∧ wr < size ∧ rd
      < size →
    ringFree size wr rd < 3 + (bs.length + 4) / 5 →
    Answers (exec (.ethFrameReceive k bs true fine) s) (fun t =>
      t.mem = s.mem ∧ t.hw.f (pETH k) 0 ETH_DROP_CNT_COUNT = (s.hw.f (pETH k) 0 ETH_DROP_CNT_COUNT + 1) % 2 ^ 40 ∧
        t.hw.f (pETH k) 0 ETH_IRQ_DROP = 1 ∧ t.hw.f (pETH k) 0 ETH_RXWR_PTR = wr)) ∧
  (∀ (k : Fin 2) (bs : List (BitVec 8)) (fine : Fin 64) (g : Dgram) (s : State),
    frameGood s.hw k (bs.map (·.toNat)) = true ∧ s.hw.toService k (bs.map (·.toNat)) = some g ∧ s.hw.b pSVC 0
      SVC_CTRL_EN = true ∧ s.hw.domainRuns 33 = true ∧ svcMessage g.bytes = true →
    Answers (exec (.ethFrameReceive k bs true fine) s) (fun t =>
      t.hw.svcq = s.hw.svcq ++ [g] ∧ t.mem = s.mem ∧ t.hw.f (pETH k) 0 ETH_RX_CNT_COUNT = (s.hw.f (pETH k) 0
        ETH_RX_CNT_COUNT + 1) % 2 ^ 40)) ∧
  (∀ (k : Fin 2) (fine : Fin 64) (w0 : Nat) (bs : List Nat) (s : State),
    txRecordIs s k w0 bs = true ∧ bitOf w0 38 = false ∧ bitOf w0 17 = false →
    Answers (exec (.ethFrameTransmit k fine) s) (fun t =>
      (s.hw.out ++ [Out.eth k bs]) <+: t.hw.out ∧ t.mem = s.mem ∧ t.hw.f (pETH k) 0 ETH_TX_CNT_COUNT = (s.hw.f (pETH
        k) 0 ETH_TX_CNT_COUNT + 1) % 2 ^ 40 ∧
      t.hw.f (pETH k) 0 ETH_TXRD_PTR = (s.hw.f (pETH k) 0 ETH_TXRD_PTR + 1 + (w0 % 65536 + 4) / 5) % s.hw.f (pETH k)
        0 ETH_TXSIZE_WORDS ∧
      t.hw.txts.at [] k = (if bitOf w0 16 = true then (s.hw.txts.at [] k).drop ((s.hw.txts.at [] k).length - 15) ++
        [⟨bitsOf w0 28 8, s.hw.domTime + fine⟩] else s.hw.txts.at [] k) ∧
      if bitOf w0 16 = true ∧ 16 ≤ (s.hw.txts.at [] k).length then t.hw.f (pETH k) 0 ETH_IRQ_TXTS_OVF = 1 else True)) ∧
  (∀ (k : Fin 2) (fine : Fin 64) (w0 o d : Nat) (bs : List Nat) (ns : Int) (s : State),
    txRecordIs s k w0 bs = true ∧ bitOf w0 38 = false ∧ bitOf w0 17 = true ∧ o = bitsOf w0 18 10 ∧ 14 ≤ o ∧ o + 44 ≤
      bs.length ∧ (etherType bs).1 ≠ 0x0800 ∧ (etherType bs).1 ≠ 0x86DD →
    d = s.hw.domTime + fine ∧ ns = sx 64 (s.hw.f (pETH k) 0 ETH_PTPOFS_L_NS + s.hw.f (pETH k) 0 ETH_PTPOFS_H_NS * 2
      ^ 40) + ((5 * d / 128 : Nat) : Int) →
    Answers (exec (.ethFrameTransmit k fine) s) (fun t =>
      (∃ fr : List Nat, (s.hw.out ++ [Out.eth k fr]) <+: t.hw.out ∧ fr.length = bs.length ∧ beAt fr (o + 34) 6 =
        unsx 48 (ns / 1000000000) ∧ (beAt fr (o + 40) 4 : Int) = ns % 1000000000 ∧ beAt fr (o + 8) 8 = (beAt bs (o +
        8) 8 + 5 * d % 128 * 512) % 2 ^ 64 ∧ fr.take (o + 8) = bs.take (o + 8)))) ∧
  (∀ (w : Requester) (k : Fin 2) (x : TxStamp) (rest : List TxStamp) (s : State),
    s.hw.mayRead (s.hw.acc w) (pETH k) = true ∧ s.hw.txts.at [] k = x :: rest →
    Answers (exec (.txtsRead w k) s) (fun t =>
      t.hw.resp = [w40 x.time] ∧ t.hw.txts.at [] k = rest ∧ (t.hw.pair (pETH k) 0x90 0 w).cap = some (w40 (2 ^ 32 +
        x.tag % 256 * 2 ^ 24 + x.time / 2 ^ 40 % 2 ^ 24)) ∧ t.hw.regs = s.hw.regs ∧ t.mem = s.mem)) ∧
  (∀ (w : Requester) (d : Word) (s : State),
    accepts s.hw w (pETH 0) = true →
    Answers (exec (.mdioWrite w d) s) (fun t =>
      if s.hw.f (pETH 0) 0 ETH_MDIO_STAT_BUSY = 0 then t.hw.f (pETH 0) 0 ETH_MDIO_STAT_BUSY = 1 ∧ t.hw.out =
        s.hw.out ++ [.mdio d] else t.hw.out = s.hw.out ∧ t.hw.regs = s.hw.regs ∧
      t.mem = s.mem)) ∧
  (∀ (data : BitVec 16) (s : State),
    s.hw.f (pETH 0) 0 ETH_MDIO_STAT_BUSY = 1 →
    Answers (exec (.mdioDone data) s) (fun t =>
      t.hw.f (pETH 0) 0 ETH_MDIO_STAT_BUSY = 0 ∧ t.hw.f (pETH 0) 0 ETH_MDIO_STAT_DATA = (if s.hw.mdioRead = true
        then data.toNat else s.hw.f (pETH 0) 0 ETH_MDIO_STAT_DATA) ∧ t.mem = s.mem)) ∧
  (∀ (k : Fin 2) (lock hiBer : Bool) (s : State),
    Answers (exec (.ethLinkChg k lock hiBer) s) (fun t =>
      t.hw.f (pETH k) 0 ETH_STATUS_LINK = b2n (lock && !hiBer) ∧ t.hw.f (pETH k) 0 ETH_STATUS_BLOCK_LOCK = b2n lock
        ∧ t.hw.f (pETH k) 0 ETH_STATUS_HI_BER = b2n hiBer ∧ t.mem = s.mem ∧
      if s.hw.b (pETH k) 0 ETH_STATUS_LINK = (lock && !hiBer) then t.hw.f (pETH k) 0 ETH_IRQ_LINK_CHG = s.hw.f (pETH
        k) 0 ETH_IRQ_LINK_CHG else t.hw.f (pETH k) 0 ETH_IRQ_LINK_CHG = 1))

/-- O50. An OPEN that no check refuses opens the lowest free session, bound to its client, with SEQ 0 in the OPEN_ACK; a
refused one is answered by ERROR with its status, counts and sets OPEN_REF. A message that names no open session, or
one of another client, is answered by NOSESSION or WRONG_PEER. A SUBSCRIBE of one readable local word replaces the
subscription and is acknowledged; one with DEC 0 changes nothing and is answered BADDEC. KEEPALIVE changes nothing but
the time its client was heard. CLOSE, three silent keepalive periods (with CLOSE TIMEOUT) and SCLOSE (with CLOSE
ADMIN) end the session. A DATA that is due sends tick, flags, count, value and status under the session's next SEQ,
and counts. Where a clause lies on a reading or a choice of the model's own: log entries 120, 121. -/
def Obligations.SessionsOpenStreamAndClose : Prop :=
  (∀ (g : Dgram) (i : Nat) (s : State),
    arrived s g 1 ∧ g.port < 2 ∧ firstCause (openCauses s.hw g) = 0 ∧ i < 4096 ∧ s.hw.session i = none ∧ (List.range
      i).all (fun j => (s.hw.session j).isSome) = true →
    Answers (exec .svcOpen s) (fun t =>
      (t.hw.session i = some
        { port := g.port, v6 := g.v6, addr := g.addr, udp := g.udp, keep := leAt g.bytes 20 2, heard := s.hw.now, seq := 1 }
        ∧ (∀ j, j ≠ i → t.hw.session j = s.hw.session j) ∧ t.hw.f pSVC i SVC_SSTAT_OPEN = 1 ∧ t.hw.svcq = []) ∧
      t.hw.out = s.hw.out ++ [.dgram g.port g.v6 g.addr g.udp (svcBytes 2 i 0 0 (leBytes 4 s.hw.tickPeriod ++
        leBytes 5 s.hw.tick ++ [s.hw.f pDOM 0 DOM_VER_DLEVEL] ++ leBytes 2 s.hw.nodeId ++ [200, 0, 0, 0]))] ∧ t.mem =
        s.mem)) ∧
  (∀ (g : Dgram) (s : State),
    arrived s g 1 ∧ firstCause (openCauses s.hw g) ≠ 0 →
    Answers (exec .svcOpen s) (fun t =>
      (s.hw.out ++ [Out.dgram g.port g.v6 g.addr g.udp (svcBytes 8 (leAt g.bytes 4 2) 0 (firstCause (openCauses s.hw
        g)) [])]) <+: t.hw.out ∧ t.hw.sess = s.hw.sess ∧
      t.hw.f pSVC 0 SVC_BAD_CNT_COUNT = (s.hw.f pSVC 0 SVC_BAD_CNT_COUNT + 1) % 2 ^ 40 ∧ t.hw.f pSVC 0
        SVC_IRQ_OPEN_REF = 1 ∧ t.hw.svcq = [] ∧ t.mem = s.mem)) ∧
  (∀ (g : Dgram) (c : Instr) (n : Nat) (s : State),
    ((c = .svcSubscribe ∧ n = 3) ∨ (c = .svcKeepalive ∧ n = 6) ∨ (c = .svcClose ∧ n = 7)) ∧ arrived s g n ∧
      (s.hw.session (leAt g.bytes 4 2)).all (fun x => !x.from g) = true →
    Answers (exec c s) (fun t =>
      t.hw.out = s.hw.out ++ [.dgram g.port g.v6 g.addr g.udp (svcBytes 8 (leAt g.bytes 4 2) 0 (if s.hw.session
        (leAt g.bytes 4 2) = none then 8 else 9) [])] ∧
      t.hw.sess = s.hw.sess ∧ t.hw.svcq = [] ∧ t.hw.f pSVC 0 SVC_BAD_CNT_COUNT = (s.hw.f pSVC 0 SVC_BAD_CNT_COUNT +
        1) % 2 ^ 40 ∧ t.mem = s.mem)) ∧
  (∀ (g : Dgram) (i a : Nat) (x : Session) (s : State),
    arrived s g 3 ∧ i = leAt g.bytes 4 2 ∧ s.hw.session i = some x ∧ x.from g = true ∧ x.subSeq = none ∧
      g.bytes.length = 32 ∧ leAt g.bytes 20 2 = 1 ∧ leAt g.bytes 22 2 = 0 ∧ leAt g.bytes 18 2 < leAt g.bytes 16 2 →
    leAt g.bytes 24 4 = 0 ∧ a = leAt g.bytes 28 4 ∧ svcReadable a = true →
    Answers (exec .svcSubscribe s) (fun t =>
      t.hw.session i = some
        { x with heard := s.hw.now, subSeq := some (leAt g.bytes 8 4), dec := leAt g.bytes 16 2, phase := leAt g.bytes 18 2, refs := [.loc a], due := none, seq := (x.seq + 1) % 2 ^ 32 } ∧
      t.hw.out = s.hw.out ++ [.dgram x.port x.v6 x.addr x.udp (svcBytes 4 i x.seq 0 [255, 255, 0, 0])] ∧ t.hw.f pSVC
        i SVC_SSTAT_COUNT = 1 ∧ t.mem = s.mem)) ∧
  (∀ (g : Dgram) (i : Nat) (x : Session) (s : State),
    arrived s g 3 ∧ i = leAt g.bytes 4 2 ∧ s.hw.session i = some x ∧ x.from g = true ∧ x.subSeq = none ∧
      g.bytes.length = 24 ∧ leAt g.bytes 20 2 = 0 ∧ leAt g.bytes 22 2 = 0 ∧ leAt g.bytes 16 2 = 0 →
    Answers (exec .svcSubscribe s) (fun t =>
      t.hw.session i = some { x with heard := s.hw.now, seq := (x.seq + 1) % 2 ^ 32 } ∧ t.hw.out = s.hw.out ++
        [.dgram x.port x.v6 x.addr x.udp (svcBytes 4 i x.seq 4 [255, 255, 0, 0])] ∧ t.hw.regs = s.hw.regs ∧ t.mem =
        s.mem)) ∧
  (∀ (g : Dgram) (x : Session) (s : State),
    arrived s g 6 ∧ s.hw.session (leAt g.bytes 4 2) = some x ∧ x.from g = true →
    Answers (exec .svcKeepalive s) (fun t =>
      (t.hw.session (leAt g.bytes 4 2) = some { x with heard := s.hw.now } ∧ (∀ j, j ≠ leAt g.bytes 4 2 →
        t.hw.session j = s.hw.session j)) ∧
      t.hw.svcq = [] ∧ t.hw.regs = s.hw.regs ∧ t.hw.out = s.hw.out ∧ t.mem = s.mem)) ∧
  (∀ (g : Dgram) (i : Nat) (x : Session) (s : State),
    arrived s g 7 ∧ i = leAt g.bytes 4 2 ∧ s.hw.session i = some x ∧ x.from g = true →
    Answers (exec .svcClose s) (fun t =>
      (t.hw.session i = none ∧ (∀ j, j ≠ i → t.hw.session j = s.hw.session j) ∧ t.hw.f pSVC 0 SVC_IRQ_CLOSED = 1 ∧
        t.hw.f pSVC i SVC_SSTAT_OPEN = 0 ∧ t.hw.svcq = [] ∧ t.mem = s.mem))) ∧
  (∀ (i : Fin 4096) (x : Session) (s : State),
    s.hw.session i = some x ∧ s.hw.domainRuns 33 = true ∧ x.heard + 3 * (400000 * x.keep) ≤ s.hw.now →
    Answers (exec (.svcKeepaliveTimeout i) s) (fun t =>
      (t.hw.session i = none ∧ (∀ j, j ≠ i.val → t.hw.session j = s.hw.session j) ∧ t.hw.f pSVC 0 SVC_IRQ_CLOSED = 1
        ∧ (s.hw.out ++ [Out.dgram x.port x.v6 x.addr x.udp (svcBytes 7 i x.seq 10 [])]) <+: t.hw.out ∧ t.mem = s.mem))) ∧
  (∀ (i : Fin 4096) (x : Session) (s : State),
    s.hw.session i = some x ∧ s.hw.now < x.heard + 3 * (400000 * x.keep) →
    Answers (exec (.svcKeepaliveTimeout i) s) (fun t =>
      t = s)) ∧
  (∀ (i : Fin 4096) (x : Session) (n a : Nat) (s : State),
    s.hw.session i = some x ∧ s.hw.domainRuns 33 = true ∧ x.due = some n ∧ x.refs = [.loc a] ∧ 0x04000000 ≤ a ∧ a <
      0x04200000 ∧ s.hw.memStopped a = false ∧ s.hw.dom.ticks = [] →
    Answers (exec (.svcData i) s) (fun t =>
      t.hw.session i = some { x with due := none, skip := false, seq := (x.seq + 1) % 2 ^ 32 } ∧ t.hw.f pSVC i
        SVC_SCNT_COUNT = (s.hw.f pSVC i SVC_SCNT_COUNT + 1) % 2 ^ 40 ∧
      t.hw.out = s.hw.out ++ [.dgram x.port x.v6 x.addr x.udp (svcBytes 5 i x.seq 0 (leBytes 5 n ++ [b2n x.skip, 1,
        0] ++ wordBytes (s.rd a) ++ [0]))] ∧ t.mem = s.mem)) ∧
  (∀ (w : Requester) (i : Nat) (x : Session) (s : State),
    accepts s.hw w pSVC = true ∧ i = s.hw.chsel pSVC w ∧ s.hw.session i = some x →
    Answers (exec (.svcSclose w) s) (fun t =>
      (t.hw.session i = none ∧ (∀ j, j ≠ i → t.hw.session j = s.hw.session j) ∧ t.hw.f pSVC 0 SVC_IRQ_CLOSED = 1 ∧
        Out.dgram x.port x.v6 x.addr x.udp (svcBytes 7 i x.seq 11 []) ∈ t.hw.out.drop s.hw.out.length ∧ t.mem = s.mem)))

/-- O51. PLL_LOCK releases the domains; when the boot flow is due it ends with an image started or in RECOVERY. A clock failure
falls back, begins its safe cause and requests a reset. Every request sets PENDING, its cause bit and the
reset-request safe cause, and keeps the time of the first; RST.CMD needs its key. A device reset carries the causes
and the deferral into RCAUSE, samples the boot pins and keeps DRAM, the flash and the AOW, DRAM, DARNER and HAMPER
pages; a power-on reset keeps the flash alone. A cluster reset counts, records its cause, puts every other register of
the cluster at its reset value, starts or holds its cores at CVEC and keeps memory and every other page but RST and
MAINT. CGO releases held cores only. Where a clause lies on a reading or a choice of the model's own: log entries 122,
125, 126, 127, 128. -/
def Obligations.ClocksAndResetsFollowTheirSequence : Prop :=
  (∀ (rep : BootRep) (s : State),
    awake s.hw = true ∧ s.hw.b pCLK 0 CLK_PLL_LOCKED = false ∧ s.hw.b pCLK 0 CLK_PLL_FALLBACK = false ∧ s.hw.bootDue
      = false →
    Answers (exec (.pllLock rep) s) (fun t =>
      t.hw.released = true ∧ t.hw.f pCLK 0 CLK_PLL_LOCKED = 1 ∧ t.mem = s.mem ∧ t.tags = s.tags ∧ t.hw.cores =
        s.hw.cores)) ∧
  (∀ (rep : BootRep) (s : State),
    awake s.hw = true ∧ s.hw.b pCLK 0 CLK_PLL_LOCKED = false ∧ s.hw.b pCLK 0 CLK_PLL_FALLBACK = false ∧ s.hw.bootDue
      = true ∧ s.hw.b pLWF 0 LWF_STATUS_LOADED = true →
    Answers (exec (.pllLock rep) s) (fun t =>
      (t.hw.bootDue = false ∧ (t.hw.core 0).ring = 0 ∧ (t.hw.f pSEC 0 SEC_BOOTSTAT_STARTED = 1 ∨ (t.hw.f pDEV 0
        DEV_STATUS_RECOVERY = 1 ∧ t.hw.isWaiting 0 = true))))) ∧
  (∀ (xtal : Bool) (s : State),
    awake s.hw = true ∧ (xtal = true ∨ s.hw.f pCLK 0 CLK_PLL_LOCKED = 1) →
    Answers (exec (.clockFailure xtal) s) (fun t =>
      t.hw.f pCLK 0 CLK_PLL_FALLBACK = 1 ∧ t.hw.f pCLK 0 CLK_PLL_LOCKED = 0 ∧ (if xtal = true then t.hw.f pCLK 0
        CLK_PLL_XTAL_LOST = 1 else True) ∧ (if s.hw.f pCLK 0 CLK_PLL_LOCKED = 1 then t.hw.f pCLK 0 CLK_PLL_LOCK_LOST =
        1 else True) ∧ t.hw.b pDEV 0 ⟨3, 2, 1⟩ = true ∧ resetWaits t 3 ∧ t.mem = s.mem)) ∧
  (∀ (c : ResetAsk) (s : State),
    awake s.hw = true →
    Answers (exec (.deviceResetRequest c) s) (fun t =>
      resetWaits t c.bit ∧ t.hw.rstCause = s.hw.rstCause ||| 2 ^ c.bit ∧ t.hw.rstAt = (if s.hw.f pRST 0
        RST_STATUS_PENDING = 1 then s.hw.rstAt else s.hw.now) ∧ t.mem = s.mem ∧ t.tags = s.tags ∧
      if s.hw.b pDEV 0 ⟨3, 3, 1⟩ = false then t.hw.f pDEV 0 DEV_STATUS_SAFE_ACT = 1 ∧ t.hw.f pDEV 0 DEV_IRQ_SAFE = 1
        else True)) ∧
  (∀ (w : Requester) (d : Word) (s : State),
    accepts s.hw w pRST = true →
    Answers (exec (.resetDeviceCmd w d) s) (fun t =>
      if bitsOf d.toNat 24 16 = 0x5253 then resetWaits t (if w = .applier then 5 else 4) ∧ t.mem = s.mem else
        t.hw.regs = s.hw.regs ∧ t.hw.rstCause = s.hw.rstCause ∧ t.mem = s.mem)) ∧
  (∀ (w : Requester) (n : Fin 8) (s : State),
    accepts s.hw w pRST = true ∧ s.hw.clusterRuns n = true →
    Answers (exec (.resetClusterCmd w (w40 (0x5253 * 2 ^ 24 + 2 ^ n.val))) s) (fun t =>
      t.hw.f pRST 0 (RST_CRCAUSE_CAUSE n) = (if w = .applier then 3 else 2) ∧ t.hw.f pRST 0 (RST_CRCNT_COUNT n) =
        (s.hw.f pRST 0 (RST_CRCNT_COUNT n) + 1) % 2 ^ 40 ∧ t.mem = s.mem ∧ t.tags = s.tags ∧
      (t.hw.f (pCLU n) 0 CLU_STATUS_HELD = (if bitOf (s.hw.f pDEV 0 DEV_CAUTO_AUTO) n = true then 0 else 0xF) ∧ (∀
        k, k < 4 → (t.hw.core (4 * n + k)).pc = s.hw.f pDEV 0 (DEV_CVEC_ADDR n) ∧ (t.hw.core (4 * n + k)).ring = 0)) ∧
      (∀ idx off ch, (idx ≠ 0 ∨ off ≠ 3) → t.hw.reg ⟨n, idx⟩ off ch = resetWord ⟨n, idx, off, ch⟩) ∧ (∀ q off ch,
        q.cl ≠ n.val → q ≠ pRST → q ≠ pMAINT → t.hw.reg q off ch = s.hw.reg q off ch))) ∧
  (∀ (n : Fin 8) (s : State),
    s.hw.clusterRuns n = true ∧ s.hw.crWait = [] ∧ s.hw.f (pCWDT n) 0 WDT_STATUS_EXPIRED = 1 →
    Answers (exec (.clusterReset n) s) (fun t =>
      if s.hw.f (pCLU n) 0 CLU_CTRL_CWDT_RST = 1 then t.hw.f pRST 0 (RST_CRCAUSE_CAUSE n) = 1 ∧ t.hw.f pRST 0
        (RST_CRCNT_COUNT n) = (s.hw.f pRST 0 (RST_CRCNT_COUNT n) + 1) % 2 ^ 40 ∧ t.hw.f (pCWDT n) 0 WDT_STATUS_EXPIRED
        = 0 ∧ t.mem = s.mem else t = s)) ∧
  (∀ (n : Fin 8) (s : State),
    s.hw.clusterRuns n = true ∧ s.hw.crWait = [(n.val, 2)] →
    Answers (exec (.clusterReset n) s) (fun t =>
      t.hw.f pRST 0 (RST_CRCAUSE_CAUSE n) = 2 ∧ t.hw.crWait = [] ∧ t.mem = s.mem)) ∧
  (∀ (w : Requester) (d : Word) (s : State),
    accepts s.hw w pDEV = true →
    Answers (exec (.devCgo w d) s) (fun t =>
      (∀ i : Fin 32, if bitOf d.toNat i = true ∧ s.hw.b (pCLU (i / 4)) 0 ⟨3, 8 + i % 4, 1⟩ = true then (t.hw.core
        i).pc = s.hw.f pDEV 0 (DEV_CVEC_ADDR (i / 4)) ∧ (t.hw.core i).ring = 0 ∧ t.hw.b (pCLU (i / 4)) 0 ⟨3, 8 + i %
        4, 1⟩ = false else t.hw.core i = s.hw.core i) ∧
      t.mem = s.mem)) ∧
  (∀ (pins : Fin 8) (s : State),
    s.hw.f pRST 0 RST_STATUS_PENDING = 1 ∧ s.hw.flash.op = none ∧ s.hw.flash.erase = none ∧ s.hw.flash.lwf = none ∧
      s.hw.deep = false →
    Answers (exec (.deviceReset pins) s) (fun t =>
      t.hw.f pRST 0 RST_STATUS_PENDING = 0 ∧ t.hw.f pDEV 0 DEV_RCAUSE_CAUSE = s.hw.rstCause % 256 ∧ t.hw.f pDEV 0
        DEV_RCAUSE_DEFER_US = min ((s.hw.now - s.hw.rstAt) / 400) 32767 ∧ t.hw.f pDBG 0 DBG_BOOTPINS_PINS = pins ∧
      ((∀ g, (0x08000000 ≤ g ∧ g < 0x08800000) ∨ 0x10000000 ≤ g → t.rd g = s.rd g) ∧ (∀ g, t.tag g = s.tag g) ∧
        t.hw.f (pCLU 0) 0 CLU_STATUS_HELD = 0xE ∧ (∀ n : Fin 7, t.hw.f (pCLU (n + 1)) 0 CLU_STATUS_HELD = 0xF) ∧
        t.hw.bootDue = true ∧ t.hw.released = false) ∧
      (if Sparse.wf RegKey.rank resetWord s.hw.regs = true then ∀ idx off ch, (idx = 0x005 ∨ idx = 0x018 ∨ idx =
        0x019 ∨ idx = 0x01A) → t.hw.reg ⟨15, idx⟩ off ch = s.hw.reg ⟨15, idx⟩ off ch else True))) ∧
  (∀ (pins : Fin 8) (left : List (Nat × Word)) (got : Nat) (s : State),
    s.hw.porstLow = false ∧ s.hw.flash.op = none ∧ s.hw.flash.erase = none ∧ s.hw.flash.lwf = none →
    Answers (exec (.powerOnReset true pins left got) s) (fun t =>
      (t.hw.porstLow = true ∧ t.hw.f pDEV 0 DEV_RCAUSE_CAUSE = 1 ∧ (∀ g, 0x08000000 ≤ g → g < 0x08800000 → t.rd g =
        s.rd g) ∧ (∀ g, (g < 0x08000000 ∨ 0x08800000 ≤ g) → t.rd g = 0) ∧ (∀ g, t.tag g = 0)) ∧
      ((∀ q off ch, q ≠ pDEV → q ≠ pPIN → t.hw.reg q off ch = resetWord ⟨q.cl, q.idx, off, ch⟩) ∧ t.hw.cores = [] ∧
        t.hw.released = false ∧ t.hw.bootDue = true))) ∧
  (∀ (pins : Fin 8) (left : List (Nat × Word)) (got : Nat) (s : State),
    s.hw.porstLow = true →
    Answers (exec (.powerOnReset false pins left got) s) (fun t =>
      t.hw.porstLow = false ∧ t.hw.f pDBG 0 DBG_BOOTPINS_PINS = pins ∧ t.mem = s.mem)) ∧
  (∀ (pins : Fin 8) (rep : BootRep) (s : State),
    awake s.hw = true ∧ s.hw.resetLow = false ∧ s.hw.bootDue = false →
    Answers (exec (.resetN true pins rep) s) (fun t =>
      resetWaits t 1 ∧ t.hw.resetLow = true ∧ t.mem = s.mem)) ∧
  (∀ (pins : Fin 8) (rep : BootRep) (s : State),
    s.hw.resetLow = true ∧ s.hw.bootDue = false →
    Answers (exec (.resetN false pins rep) s) (fun t =>
      t.hw.resetLow = false ∧ t.mem = s.mem ∧ (if s.hw.heldInReset = true then t.hw.f pDBG 0 DBG_BOOTPINS_PINS =
        pins else t.hw.regs = s.hw.regs)))

/-- O52. SAFE_N acts 15 ns after its edge as TRIP_POLICY bit 0 says and SAFE_SW as written: SAFE_SRC shows the cause, SAFE_ACT
that some cause holds, the SAFE flag that one began, and every enabled timebase holds its outputs. A sensor's sample
is its VALUE; out of limits it sets ALARM and, by ACT, begins the monitor cause or requests a reset. HALT_MASK makes
gatings wait or ends them; a cluster is gated when its cores wait and its engines are idle, keeping cores and memory,
and otherwise nothing changes. DEEP is refused with DEEP_REF, or loses every word but flash and the DRAM pages; a wake
carries out a reset with its cause. CLU.CTRL.SAFE shows in STATE and forces the outputs. JTAG and TRACE may always be
gated, cluster domains never. Where a clause lies on a reading or a choice of the model's own: log entries 77, 123,
124, 130, 170. -/
def Obligations.SafeStatesPowerStatesAndMonitors : Prop :=
  (∀ (c k : Nat) (s : State),
    c < 8 ∧ k < 4 ∧ s.hw.b (pPWMTB c) k PWM_TB_TBCFG_EN = true ∧ s.hw.safeNLow = false ∧ s.hw.safeNAt = none ∧
      s.hw.b pDEV 0 ⟨3, 4, 1⟩ = false →
    Answers (exec .safeNFall s) (fun t =>
      t.hw.safeNLow = true ∧ t.hw.safeNAt = some (s.hw.now + 6) ∧ t.hw.regs = s.hw.regs ∧ t.mem = s.mem ∧
      (sixEdgesOn t.hw).b pDEV 0 ⟨3, 4, 1⟩ = bitOf (s.hw.lwf 3) 0 ∧ (sixEdgesOn t.hw).safeNAt = none ∧
      if bitOf (s.hw.lwf 3) 0 = true then (sixEdgesOn t.hw).f pDEV 0 DEV_STATUS_SAFE_ACT = 1 ∧ (sixEdgesOn t.hw).f
        pDEV 0 DEV_IRQ_SAFE = 1 ∧ ((sixEdgesOn t.hw).tb c k).held = true else True)) ∧
  (∀ (s : State),
    s.hw.safeNAt = none →
    Answers (exec .safeNRise s) (fun t =>
      t.hw.b pDEV 0 ⟨3, 4, 1⟩ = false ∧ t.hw.safeNLow = false ∧ t.mem = s.mem ∧ (if s.hw.b pDEV 0 ⟨3, 4, 1⟩ = true
        then t.hw.f pDEV 0 DEV_STATUS_SAFE_ACT = b2n (t.hw.f pDEV 0 DEV_STATUS_SAFE_SRC != 0) else True))) ∧
  (∀ (n : Nat) (s : State),
    s.hw.safeNAt = some n →
    Answers (exec .safeNRise s) (fun t =>
      t.hw.safeNLow = false ∧ t.hw.safeNAt = some n ∧ t.hw.regs = s.hw.regs ∧ t.mem = s.mem)) ∧
  (∀ (w : Requester) (d : Word) (s : State),
    accepts s.hw w pDEV = true ∧ s.hw.b pDEV 0 ⟨3, 6, 1⟩ = false →
    Answers (exec (.safeSw w d) s) (fun t =>
      t.hw.b pDEV 0 ⟨3, 6, 1⟩ = bitOf d.toNat 0 ∧ t.mem = s.mem ∧ (if bitOf d.toNat 0 = true then t.hw.f pDEV 0
        DEV_STATUS_SAFE_ACT = 1 ∧ t.hw.f pDEV 0 DEV_IRQ_SAFE = 1 else True))) ∧
  (∀ (x : Fin 16) (v : BitVec 16) (s : State),
    s.hw.domainRuns 59 = true ∧ x.val ≠ 15 →
    Answers (exec (.monitorSample x v) s) (fun t =>
      t.hw.f pMON x MON_VALUE_V = v.toNat ∧ t.mem = s.mem ∧ (if inLimits s.hw x v.toNat = true then t.hw.b pMON 0
        ⟨5, x, 1⟩ = s.hw.b pMON 0 ⟨5, x, 1⟩ ∧ t.hw.rstCause = s.hw.rstCause else t.hw.b pMON 0 ⟨5, x, 1⟩ = true) ∧
      if inLimits s.hw x v.toNat = false ∧ s.hw.f pMON x MON_MCFG_ACT = 2 then resetWaits t 7 else t.hw.rstCause =
        s.hw.rstCause ∧
      (if inLimits s.hw x v.toNat = false ∧ (s.hw.f pMON x MON_MCFG_ACT = 1 ∨ s.hw.f pMON x MON_MCFG_ACT = 3) then
        t.hw.b pDEV 0 ⟨3, 5, 1⟩ = true else t.hw.b pDEV 0 ⟨3, 5, 1⟩ = s.hw.b pDEV 0 ⟨3, 5, 1⟩))) ∧
  (∀ (w : Requester) (d : Word) (n : Fin 8) (s : State),
    accepts s.hw w pPWR = true →
    Answers (exec (.haltMaskWrite w d) s) (fun t =>
      if bitOf d.toNat n = true then t.hw.b pPWR 0 ⟨3, 10 + n, 1⟩ = (s.hw.b pPWR 0 ⟨3, 10 + n, 1⟩ || !s.hw.b pPWR 0
        ⟨3, 2 + n, 1⟩) ∧ t.hw.b pPWR 0 ⟨3, 2 + n, 1⟩ = s.hw.b pPWR 0 ⟨3, 2 + n, 1⟩ else t.hw.b pPWR 0 ⟨3, 10 + n, 1⟩ =
        false ∧ t.hw.b pPWR 0 ⟨3, 2 + n, 1⟩ = false ∧
      t.hw.f pPWR 0 PWR_CTRL_HALT_MASK = d.toNat % 256 ∧ t.mem = s.mem ∧ t.hw.cores = s.hw.cores)) ∧
  (∀ (n : Fin 8) (s : State),
    canGate s.hw n →
    Answers (exec (.clusterGate n) s) (fun t =>
      t.hw.b pPWR 0 ⟨3, 2 + n, 1⟩ = true ∧ t.hw.b pPWR 0 ⟨3, 10 + n, 1⟩ = false ∧ t.hw.f (pCLU n) 0 CLU_STATUS_STATE
        = 3 ∧ t.hw.clusterRuns n = false ∧ t.mem = s.mem ∧ t.hw.cores = s.hw.cores)) ∧
  (∀ (n : Fin 8) (s : State),
    ¬ canGate s.hw n →
    Answers (exec (.clusterGate n) s) (fun t =>
      t = s)) ∧
  (∀ (w : Requester) (d : Word) (x : Fin 32) (s : State),
    accepts s.hw w pPWR = true ∧ bitsOf d.toNat 24 16 = 0x4450 ∧ bitOf d.toNat 0 = true ∧ s.hw.flash.op = none ∧
      s.hw.flash.erase = none ∧ s.hw.flash.asked = none ∧ s.hw.flash.lwf = none →
    s.hw.b pAOW x AOW_WSRC_EN = true ∧ s.hw.b pAOW x AOW_WSRC_WAKE = true →
    Answers (exec (.pwrDeep w d) s) (fun t =>
      (t.hw.deep = true ∧ t.hw.f pDEV 0 DEV_STATUS_SAFE_ACT = 1 ∧ (∀ g, 0x08000000 ≤ g → g < 0x08800000 → t.rd g =
        s.rd g) ∧ (∀ g, (g < 0x08000000 ∨ 0x08800000 ≤ g) → t.rd g = 0) ∧ (∀ q, q ∈ [pDRAM, pDARNER, pHAMPER] → ∀ off
        ch, t.hw.reg q off ch = resetWord ⟨q.cl, q.idx, off, ch⟩)))) ∧
  (∀ (w : Requester) (d : Word) (s : State),
    accepts s.hw w pPWR = true ∧ bitsOf d.toNat 24 16 = 0x4450 ∧ bitOf d.toNat 0 = true →
    s.hw.flash.op ≠ none ∨ s.hw.flash.erase ≠ none ∨ s.hw.flash.lwf ≠ none ∨ (List.range 32).all (fun x => !s.hw.b
      pAOW x AOW_WSRC_EN || !s.hw.b pAOW x AOW_WSRC_WAKE) = true →
    Answers (exec (.pwrDeep w d) s) (fun t =>
      t.hw.deep = s.hw.deep ∧ t.hw.f pPWR 0 PWR_IRQ_DEEP_REF = 1 ∧ t.mem = s.mem ∧ t.tags = s.tags ∧ t.hw.cores =
        s.hw.cores)) ∧
  (∀ (pins : Fin 8) (s : State),
    s.hw.deep = true ∧ (s.hw.wakeReq = true ∨ s.hw.resetLow = true) →
    Answers (exec (.deepWake pins) s) (fun t =>
      (t.hw.deep = false ∧ t.hw.f pDEV 0 DEV_RCAUSE_CAUSE = b2n s.hw.resetLow * 2 + b2n s.hw.wakeReq * 64 ∧ t.hw.f
        pDBG 0 DBG_BOOTPINS_PINS = pins ∧ t.hw.bootDue = true ∧ (∀ g, 0x08000000 ≤ g → g < 0x08800000 → t.rd g = s.rd
        g)))) ∧
  (∀ (w : Requester) (n : Fin 8) (d : Word) (k : Nat) (s : State),
    accepts s.hw w (pCLU n) = true ∧ k < 4 ∧ s.hw.b (pPWMTB n) k PWM_TB_TBCFG_EN = true →
    Answers (exec (.clusterSafeWrite w n d) s) (fun t =>
      t.hw.b (pCLU n) 0 CLU_CTRL_SAFE = bitOf d.toNat 0 ∧ t.hw.f (pCLU n) 0 CLU_STATUS_STATE = b2n (bitOf d.toNat 0)
        ∧ t.mem = s.mem ∧ t.hw.cores = s.hw.cores ∧
      if bitOf d.toNat 0 = true ∧ s.hw.b (pCLU n) 0 CLU_CTRL_SAFE = false then (t.hw.tb n k).held = true else True)) ∧
  (∀ (w : Requester) (d : Word) (x : Nat) (s : State),
    accepts s.hw w pCLK = true ∧ s.hw.b pCLK 0 LOCK_BIT = false ∧ x = s.hw.chsel pCLK w ∧ (x = 54 ∨ x = 55 ∨ bitOf
      d.toNat 0 = false) →
    Answers (exec (.domainGate w d) s) (fun t =>
      t.hw.b pCLK x CLK_DOMAIN_GATE = bitOf d.toNat 0 ∧ t.mem = s.mem)) ∧
  (∀ (w : Requester) (d : Word) (x : Nat) (s : State),
    accepts s.hw w pCLK = true ∧ s.hw.b pCLK 0 LOCK_BIT = false ∧ x = s.hw.chsel pCLK w ∧ bitOf d.toNat 0 = true ∧
      (x < 33 ∨ (x = 40 ∧ s.hw.b (pDL 2) 0 DL_CTRL_EN = true) ∨ (x = 33 ∧ s.hw.b pSVC 0 SVC_CTRL_EN = true)) →
    Answers (exec (.domainGate w d) s) (fun t =>
      (∀ ch, t.hw.reg pCLK 0x10 ch = s.hw.reg pCLK 0x10 ch) ∧ t.hw.f pDEV 0 DEV_ACC_LOG_REQ = w.id ∧ t.hw.f pDEV 0
        DEV_ACC_LOG_PAGE = 1 ∧ t.mem = s.mem))

/-- O53. A BIST request is refused with its cause unless the cluster is SAFE or the memory target idle, and is otherwise
queued; a grant of an idle queue's only request runs it, showing BUSY, TARGET and, for logic, STATE LBIST; a request
that waits with one of a lower priority number is not granted. The end of a memory BIST leaves every word of the
target 0 and no other word changed, and shows PASS or FAIL with the address; that of a logic BIST resets the cluster
with cause LBIST. VCMD queues a verification, or does nothing while one is queued or runs; its grant shows BUSY and
its end the first failing check, RIDX, DONE and VDONE, writing no memory. Where a clause lies on a reading or a choice
of the model's own: log entries 25, 131, 171. -/
def Obligations.BistAndImageVerification : Prop :=
  (∀ (w : Requester) (d : Word) (x q : Nat) (s : State),
    accepts s.hw w pBIST = true ∧ x = s.hw.chsel pBIST w ∧ x < 40 ∧ s.hw.b pBIST x BIST_TSTAT_QUEUED = false ∧
      s.hw.b pBIST x BIST_TSTAT_RUNNING = false →
    (if x < 8 then s.hw.f (pCLU x) 0 CLU_STATUS_STATE = 1 else bitOf d.toNat 1 = true) ∧ q = (if x < 8 then x else
      if x < 32 then (x - 8) / 3 else 10) →
    Answers (exec (.bistRequest w d) s) (fun t =>
      t.hw.b pBIST x BIST_TSTAT_QUEUED = true ∧ t.hw.queue q = s.hw.queue q ++ [⟨if x < 8 then 3 else 4, x⟩] ∧ t.mem
        = s.mem ∧ t.hw.cores = s.hw.cores)) ∧
  (∀ (w : Requester) (d : Word) (x : Nat) (s : State),
    accepts s.hw w pBIST = true ∧ x = s.hw.chsel pBIST w ∧ x < 40 ∧ s.hw.b pBIST x BIST_TSTAT_QUEUED = false ∧
      s.hw.b pBIST x BIST_TSTAT_RUNNING = false →
    if x < 8 then s.hw.f (pCLU x) 0 CLU_STATUS_STATE ≠ 1 else bitOf d.toNat 1 = false →
    Answers (exec (.bistRequest w d) s) (fun t =>
      t.hw.f pBIST x BIST_TSTAT_CAUSE = (if x < 8 then 1 else 2) ∧ t.hw.f pBIST x BIST_TSTAT_RESULT = 3 ∧ t.hw.f
        pBIST 0 BIST_IRQ_REFUSED = 1 ∧ t.hw.maintQ = s.hw.maintQ ∧ t.mem = s.mem)) ∧
  (∀ (x : Fin 40) (q : Nat) (r : MaintReq) (s : State),
    (s.hw.domainRuns 57 = true ∧ q = (if x.val < 8 then x.val else if x.val < 32 then (x.val - 8) / 3 else 10) ∧ r =
      ⟨if x.val < 8 then 3 else 4, x⟩ ∧ s.hw.running q = none ∧ s.hw.queue q = [r] ∧ (x.val < 8 → s.hw.clusterRuns x =
      true)) →
    Answers (exec (.bistGrant x ()) s) (fun t =>
      t.hw.running q = some r ∧ t.hw.queue q = [] ∧ t.hw.b pBIST x BIST_TSTAT_RUNNING = true ∧ t.hw.b pBIST x
        BIST_TSTAT_QUEUED = false ∧ t.hw.f pBIST 0 BIST_STATUS_BUSY = 1 ∧ t.hw.f pBIST 0 BIST_STATUS_TARGET = x ∧
        t.mem = s.mem ∧
      (if x.val < 8 then t.hw.f (pCLU x) 0 CLU_STATUS_STATE = 2 else True) ∧ t.hw.f pMAINT q MAINT_QSTAT_RUN_KIND =
        r.kind ∧ t.hw.f pMAINT q MAINT_QSTAT_DEPTH = 0)) ∧
  (∀ (x : Fin 40) (q : Nat) (r a : MaintReq) (s : State),
    q = (if x.val < 8 then x.val else if x.val < 32 then (x.val - 8) / 3 else 10) ∧ r = ⟨if x.val < 8 then 3 else 4,
      x⟩ ∧ s.hw.queue q = [r, a] ∧ (a.kind = 1 ∨ a.kind = 2) →
    Answers (exec (.bistGrant x ()) s) (fun t =>
      t = s)) ∧
  (∀ (x : Fin 40) (fail : Option Nat) (lo n : Nat) (s : State),
    8 ≤ x.val ∧ lo = (bistWords x).1 ∧ n = (bistWords x).2 ∧ s.hw.running (bistReq x).1 = some ⟨4, x⟩ →
    Answers (exec (.bistDone x fail) s) (fun t =>
      ((∀ g, lo ≤ g → g < lo + n → t.rd g = 0) ∧ (∀ g, (g < lo ∨ lo + n ≤ g) → t.rd g = s.rd g) ∧ t.hw.f pBIST x
        BIST_TSTAT_RESULT = (if fail = none then 1 else 2) ∧ t.hw.f pBIST 0 BIST_IRQ_DONE = 1 ∧ t.hw.b pBIST x
        BIST_TSTAT_RUNNING = false) ∧
      t.hw.f pBIST x BIST_TFAIL_ADDR = fail.getD 0 % 2 ^ 32 ∧ (if fail = none then True else t.hw.f pBIST 0
        BIST_IRQ_FAIL = 1) ∧ t.hw.running (bistReq x).1 = none)) ∧
  (∀ (x : Fin 40) (fail : Option Nat) (s : State),
    x.val < 8 ∧ s.hw.running x = some ⟨3, x⟩ →
    Answers (exec (.bistDone x fail) s) (fun t =>
      t.hw.f pRST 0 (RST_CRCAUSE_CAUSE x) = 4 ∧ t.hw.f pRST 0 (RST_CRCNT_COUNT x) = (s.hw.f pRST 0 (RST_CRCNT_COUNT
        x) + 1) % 2 ^ 40 ∧ t.hw.f pBIST x BIST_TSTAT_RESULT = (if fail = none then 1 else 2) ∧ t.hw.f pBIST x
        BIST_TFAIL_ADDR = 0 ∧ t.hw.f pBIST 0 BIST_IRQ_DONE = 1 ∧ t.mem = s.mem)) ∧
  (∀ (w : Requester) (d : Word) (s : State),
    accepts s.hw w pSEC = true →
    Answers (exec (.secVcmd w d) s) (fun t =>
      if bitOf d.toNat 0 = true ∧ s.hw.b pSEC 0 SEC_VSTAT_QUEUED = false ∧ s.hw.b pSEC 0 SEC_VSTAT_BUSY = false then
        t.hw.b pSEC 0 SEC_VSTAT_QUEUED = true ∧ t.hw.f pSEC 0 SEC_VSTAT_SLOT = bitsOf d.toNat 1 1 ∧ t.hw.queue 9 =
        s.hw.queue 9 ++ [⟨8, bitsOf d.toNat 1 1⟩] else t.hw.regs = s.hw.regs ∧ t.hw.maintQ = s.hw.maintQ ∧
      t.mem = s.mem)) ∧
  (∀ (r : MaintReq) (s : State),
    s.hw.domainRuns 56 = true ∧ s.hw.b pSEC 0 SEC_VSTAT_QUEUED = true ∧ r = ⟨8, s.hw.f pSEC 0 SEC_VSTAT_SLOT⟩ ∧
      s.hw.running 9 = none ∧ s.hw.queue 9 = [r] →
    Answers (exec (.verifyGrant ()) s) (fun t =>
      t.hw.running 9 = some r ∧ t.hw.queue 9 = [] ∧ t.hw.b pSEC 0 SEC_VSTAT_BUSY = true ∧ t.hw.b pSEC 0
        SEC_VSTAT_QUEUED = false ∧ t.mem = s.mem)) ∧
  (∀ (slot : Nat) (s : State),
    s.hw.b pSEC 0 SEC_VSTAT_BUSY = true ∧ slot = s.hw.f pSEC 0 SEC_VSTAT_SLOT →
    Answers (exec .verifyDone s) (fun t =>
      t.hw.f pSEC 0 SEC_VSTAT_CAUSE = firstCause (slotChecks s slot) ∧ t.hw.f pSEC 0 SEC_VSTAT_RIDX = (s.imgWord
        slot 2).toNat % 128 ∧ t.hw.b pSEC 0 SEC_VSTAT_DONE = true ∧ t.hw.b pSEC 0 SEC_VSTAT_BUSY = false ∧ t.hw.f pSEC
        0 SEC_IRQ_VDONE = 1 ∧ t.hw.running 9 = none ∧ t.mem = s.mem))

/-- O54. BYPASS shifts out 0 and IDCODE 0x1408_0A7B. SAMPLE/PRELOAD captures ten words of cells and takes the new ones. EXTEST,
CLAMP and HIGHZ are taken only while RESET_N is low, and act as BYPASS otherwise: a bank's pin then follows its cell
or is undriven. Under SEALED all but BYPASS and IDCODE act as BYPASS. DAPACC under OPEN reads and writes a word of
device SRAM, no other word changing; under CLOSED it returns 0, sets the sticky bit and writes no memory. HALT
requests halts of exactly the cores named, under OPEN only; RESUME ends them. Where a clause lies on a reading or a
choice of the model's own: log entries 71, 133, 134. -/
def Obligations.TapAndDebuggerObeyThePolicy : Prop :=
  (∀ (s : State),
    tapOn s.hw = true →
    Answers (exec .tapBypass s) (fun t =>
      t.hw.tap = .bypass ∧ t.hw.resp = [0] ∧ t.mem = s.mem ∧ t.hw.cores = s.hw.cores)) ∧
  (∀ (s : State),
    tapOn s.hw = true →
    Answers (exec .tapIdcode s) (fun t =>
      t.hw.tap = .idcode ∧ t.hw.resp = [0x14080A7B] ∧ t.mem = s.mem ∧ t.hw.cores = s.hw.cores)) ∧
  (∀ (p : Fin 324) (v : Option Bool) (s : State),
    tapOn s.hw = true →
    Answers (exec (.tapSamplePreload [(p, v)]) s) (fun t =>
      if tapSealed s.hw = true then t.hw.tap = .bypass ∧ t.hw.resp = [0] ∧ t.hw.scan = s.hw.scan else t.hw.tap =
        .sample ∧ t.hw.resp.length = 10 ∧ t.hw.scan.at none p = v ∧
      t.mem = s.mem)) ∧
  (∀ (p : Fin 324) (s : State),
    tapOn s.hw = true ∧ s.hw.bankOk p = true →
    Answers (exec .tapExtest s) (fun t =>
      if s.hw.resetLow = true ∧ tapSealed s.hw = false then t.hw.tap = .extest ∧ t.hw.pinBall p = s.hw.scan.at none
        p ∧ t.hw.resp.length = 10 else t.hw.tap = .bypass ∧ t.hw.resp = [0] ∧
      t.mem = s.mem)) ∧
  (∀ (p : Fin 324) (s : State),
    tapOn s.hw = true ∧ s.hw.bankOk p = true →
    Answers (exec .tapClamp s) (fun t =>
      if s.hw.resetLow = true ∧ tapSealed s.hw = false then t.hw.tap = .clamp ∧ t.hw.pinBall p = s.hw.scan.at none p
        else t.hw.tap = .bypass ∧
      t.hw.resp = [0] ∧ t.mem = s.mem)) ∧
  (∀ (p : Fin 324) (s : State),
    tapOn s.hw = true →
    Answers (exec .tapHighz s) (fun t =>
      if s.hw.resetLow = true ∧ tapSealed s.hw = false then t.hw.tap = .highz ∧ t.hw.pinBall p = none else t.hw.tap
        = .bypass ∧
      t.hw.resp = [0] ∧ t.mem = s.mem)) ∧
  (∀ (a : BitVec 32) (s : State),
    tapOn s.hw = true ∧ s.hw.lwf 6 % 4 = 0 ∧ 0x04000000 ≤ a.toNat ∧ a.toNat < 0x04200000 ∧ s.hw.memStopped a.toNat =
      false →
    Answers (exec (.dapacc a none) s) (fun t =>
      t.hw.resp = [s.rd a.toNat] ∧ t.hw.f pDBG 0 DBG_STATUS_ATTACHED = 1 ∧ t.mem = s.mem ∧ t.tags = s.tags)) ∧
  (∀ (a : BitVec 32) (d : Word) (s : State),
    tapOn s.hw = true ∧ s.hw.lwf 6 % 4 = 0 ∧ 0x04000000 ≤ a.toNat ∧ a.toNat < 0x04200000 ∧ s.hw.memStopped a.toNat =
      false →
    Answers (exec (.dapacc a (some d)) s) (fun t =>
      (t.rd a.toNat = d ∧ (∀ g, g ≠ a.toNat → t.rd g = s.rd g) ∧ t.tags = s.tags))) ∧
  (∀ (a : BitVec 32) (d : Option Word) (s : State),
    tapOn s.hw = true ∧ s.hw.lwf 6 % 4 = 1 →
    Answers (exec (.dapacc a d) s) (fun t =>
      t.hw.resp = [0] ∧ t.hw.dapSticky = true ∧ t.mem = s.mem ∧ t.tags = s.tags ∧ t.hw.cores = s.hw.cores)) ∧
  (∀ (w : Requester) (d : Word) (s : State),
    accepts s.hw w pDBG = true →
    Answers (exec (.debugHalt w d) s) (fun t =>
      (∀ i : Fin 32, (t.hw.core i).haltReq = ((s.hw.core i).haltReq || (decide (s.hw.lwf 6 % 4 = 0) && bitOf d.toNat
        i))) ∧
      (∀ i : Fin 32, t.hw.b pDBG 0 ⟨0x80, i, 1⟩ = (s.hw.b pDBG 0 ⟨0x80, i, 1⟩ || bitOf d.toNat i)) ∧
      t.mem = s.mem)) ∧
  (∀ (w : Requester) (d : Word) (s : State),
    accepts s.hw w pDBG = true →
    Answers (exec (.debugResume w d) s) (fun t =>
      (∀ i : Fin 32, if bitOf d.toNat i = true then (t.hw.core i).halted = false ∧ (t.hw.core i).haltReq = false ∧
        t.hw.b pDBG 0 ⟨0x80, i, 1⟩ = false else t.hw.core i = s.hw.core i) ∧
      t.mem = s.mem))

/-- O55. Each command of the list keepsMemory leaves every word and tag of memory as it was; each of keepsCores leaves the
state of every core as it was; a row by which core k issues a move, or that concerns core k alone, leaves every other
core as it was, and memory too unless it is sys.gate. Where a clause lies on a reading or a choice of the model's own:
log entries 8. -/
def Obligations.MemoryAndCoresChangeOnlyWhereRulesSay : Prop :=
  (∀ (i : Instr) (s : State), keepsMemory i = true → Answers (exec i s) (fun t => t.mem = s.mem ∧ t.tags = s.tags)) ∧
  (∀ (i : Instr) (s : State), keepsCores i = true → Answers (exec i s) (fun t => t.hw.cores = s.hw.cores)) ∧
  (∀ (i : Instr) (k : Fin 32) (s : State), rowCore i = some k →
    Answers (exec i s) (fun t => (∀ j, j ≠ k.val → t.hw.core j = s.hw.core j) ∧ (i ≠ .sysGate k → t.mem = s.mem ∧ t.tags = s.tags)))

/-- O56. A row of the list rowCluster, of cluster c, leaves every register as it was of each cluster page of another cluster
but its LSEAM and SDF pages, and of each device page but DEV, MAINT, PIN, GSEAM and PCIE, which show refusals, queues,
resolved pins, Seam flags and refused host writes. -/
def Obligations.ClusterRowsStayInTheirCluster : Prop :=
  ∀ (i : Instr) (c : Fin 8) (s : State), rowCluster i = some c →
    Answers (exec i s) (fun t => ∀ q off ch,
      (q.cl < 8 ∧ q.cl ≠ c.val ∧ q.idx ≠ 0x1C ∧ q.idx ≠ 0x14) ∨
        (q.cl = 15 ∧ q.idx ≠ 0x000 ∧ q.idx ≠ 0x006 ∧ q.idx ≠ 0x010 ∧ q.idx ≠ 0x038 ∧ q.idx ≠ 0x040) →
      t.hw.reg q off ch = s.hw.reg q off ch)

/-- O57. For every command c, queue rest and state s, step of s with c at the front of its queue is exec of c on s with the
queue's rest; where no command waits, the step answers a next state in which none waits and memory is as it was (that
the block idles so is the model's choice, log entries 1 and 2). Where a clause lies on a reading or a choice of the
model's own: log entries 1, 2. -/
def Obligations.StepRunsTheFrontCommand : Prop :=
  (∀ (c : Instr) (rest : List Instr) (s : State), s.pending = c :: rest → step s = exec c { s with pending := rest }) ∧
  (∀ s : State, s.pending = [] → Answers (step s) (fun t => t.pending = [] ∧ t.mem = s.mem ∧ t.tags = s.tags))

/-- O58. In State.reset every register but DEV.RCAUSE holds its table's reset value; RCAUSE.CAUSE names the power-on reset;
every core is held but core 0 of CC0, which the boot flow will start; every core's v registers, p1 to p7, ports,
accumulators, FLAGS, RPT_CNT, OUT and EVP latches are 0, its return stack is empty, DIV and CPY are idle. The queue is
empty and every word reads as memory that nothing has written (log entries 1 and 3: the model's choice). Where a
clause lies on a reading or a choice of the model's own: log entries 3, 9. -/
def Obligations.ResetState : Prop :=
  (∀ (p : Page) (off ch : Nat), (p, off) ≠ (pDEV, 0x81) → State.reset.hw.reg p off ch = resetWord ⟨p.cl, p.idx, off, ch⟩) ∧
  State.reset.hw.f pDEV 0 DEV_RCAUSE_CAUSE = 1 ∧
  (∀ c : Fin 8, State.reset.hw.f (pCLU c.val) 0 CLU_STATUS_HELD = if c.val = 0 then 0xE else 0xF) ∧
  (∀ k j : Nat, (State.reset.hw.core k).v.at 0 j = 0) ∧
  (∀ k : Nat, let c := State.reset.hw.core k
    [c.aluA, c.shfA, c.cmpA, c.mulA, c.macA, c.divA, c.cpyS, c.cpyD, c.lsuA, c.lsuB, c.lsuH, c.cnsA, c.aluR, c.shfR, c.cmpR,
      c.mulR, c.divR, c.divM, c.lsuR, c.lsuRh, c.cnsR, c.cpyR].all (· == 0) = true ∧
    c.acc = [0, 0, 0, 0] ∧ c.preds = 1 ∧ c.sat = false ∧ c.rptCnt = 0 ∧ c.gio = 0 ∧ c.evp = 0 ∧ c.rs = [] ∧
    c.div = none ∧ c.cpy = none) ∧
  State.reset.pending = [] ∧ (∀ g : Nat, State.reset.rd g = memDefault g) ∧ State.reset.memWf

/-- O59. For every command with any operands and for every state, exec answers a next state (no command faults or is refused),
whose queue of waiting commands is the state's. Where a clause lies on a reading or a choice of the model's own: log
entries 141. -/
def Obligations.EveryCommandAnswersAndKeepsTheQueue : Prop :=
  ∀ (c : Instr) (s : State), Answers (exec c s) (fun t => t.pending = s.pending)

/-- O60. From every state whose memory words and DRAM tag bytes stand in their canonical form (addresses strictly rising, no
entry equal to what an unlisted address reads as), whatever command stands at the front of the queue and also where
none waits, a step answers only states whose words and tags stand in that form. Where a clause lies on a reading or a
choice of the model's own: log entries 7. -/
def Obligations.EveryStepKeepsMemoryCanonical : Prop :=
  ∀ s t : State, s.memWf → step s = .next t → t.memWf
end

