-- ==== Sys2Proof/Laws/Bits.lean ====
section
/-! SUPPORT. Bit fields of numbers and words: what a field reads as after a field is replaced. -/

namespace Sys2Proof.Machine

open Sys2Proof

theorem bitsOf_lt (n lo w : Nat) : bitsOf n lo w < 2 ^ w := Nat.mod_lt _ (Nat.two_pow_pos w)

/-- A number in three parts: above, in and below a field. -/
theorem field_split (n lo w : Nat) : n = n / 2 ^ (lo + w) * 2 ^ (lo + w) + bitsOf n lo w * 2 ^ lo + n % 2 ^ lo := by
  have h1 := Nat.div_add_mod n (2 ^ lo)
  have h2 := Nat.div_add_mod (n / 2 ^ lo) (2 ^ w)
  have h3 : n / 2 ^ lo / 2 ^ w = n / 2 ^ (lo + w) := by rw [Nat.div_div_eq_div_mul, Nat.pow_add]
  have h4 : bitsOf n lo w = n / 2 ^ lo % 2 ^ w := by simp [bitsOf, Nat.shiftRight_eq_div_pow]
  rw [h3] at h2
  have h5 : 2 ^ lo * (n / 2 ^ lo) = n / 2 ^ (lo + w) * 2 ^ (lo + w) + n / 2 ^ lo % 2 ^ w * 2 ^ lo := by
    conv => lhs; rw [← h2]
    rw [Nat.mul_add, Nat.mul_comm (2 ^ lo) (n / 2 ^ lo % 2 ^ w), ← Nat.mul_assoc, ← Nat.pow_add, Nat.mul_comm]
  rw [h4]
  omega

/-- `withBits` keeps the parts above and below and replaces the part between. -/
theorem withBits_eq (n lo w v : Nat) :
    withBits n lo w v = n / 2 ^ (lo + w) * 2 ^ (lo + w) + v % 2 ^ w * 2 ^ lo + n % 2 ^ lo := by
  have h := field_split n lo w
  simp only [withBits]
  omega

theorem bitsOf_parts (a b c lo w : Nat) (hb : b < 2 ^ w) (hc : c < 2 ^ lo) :
    bitsOf (a * 2 ^ (lo + w) + b * 2 ^ lo + c) lo w = b := by
  have hx : a * 2 ^ (lo + w) + b * 2 ^ lo + c = (a * 2 ^ w + b) * 2 ^ lo + c := by
    rw [Nat.add_mul, Nat.pow_add, Nat.mul_assoc, Nat.mul_comm (2 ^ w)]
  have hp : 0 < 2 ^ lo := Nat.two_pow_pos lo
  simp only [bitsOf, Nat.shiftRight_eq_div_pow]
  rw [hx, Nat.add_comm, Nat.add_mul_div_right _ _ hp, Nat.div_eq_of_lt hc, Nat.zero_add, Nat.add_comm,
    Nat.add_mul_mod_self_right, Nat.mod_eq_of_lt hb]

/-- The field just replaced. -/
@[simp] theorem bitsOf_withBits_same (n lo w v : Nat) : bitsOf (withBits n lo w v) lo w = v % 2 ^ w := by
  rw [withBits_eq]
  exact bitsOf_parts _ _ _ _ _ (Nat.mod_lt _ (Nat.two_pow_pos w)) (Nat.mod_lt _ (Nat.two_pow_pos lo))

/-- A field that lies above the one replaced. -/
theorem bitsOf_withBits_above (n lo w v lo' w' : Nat) (h : lo + w ≤ lo') :
    bitsOf (withBits n lo w v) lo' w' = bitsOf n lo' w' := by
  have key : ∀ b c : Nat, b < 2 ^ w → c < 2 ^ lo → ∀ a, (a * 2 ^ (lo + w) + b * 2 ^ lo + c) / 2 ^ lo' = a / 2 ^ (lo' - (lo + w)) := by
    intro b c hb hc a
    have h1 : b * 2 ^ lo + c < 2 ^ (lo + w) := by
      have : (b + 1) * 2 ^ lo ≤ 2 ^ w * 2 ^ lo := Nat.mul_le_mul_right _ hb
      rw [Nat.pow_add, Nat.mul_comm (2 ^ lo)]
      rw [Nat.add_mul] at this
      omega
    have h2 : 2 ^ lo' = 2 ^ (lo + w) * 2 ^ (lo' - (lo + w)) := by rw [← Nat.pow_add]; congr 1; omega
    rw [h2, ← Nat.div_div_eq_div_mul, Nat.add_assoc, Nat.add_comm, Nat.add_mul_div_right _ _ (Nat.two_pow_pos _),
      Nat.div_eq_of_lt h1, Nat.zero_add]
  simp only [bitsOf, Nat.shiftRight_eq_div_pow]
  congr 1
  rw [withBits_eq, key _ _ (Nat.mod_lt _ (Nat.two_pow_pos w)) (Nat.mod_lt _ (Nat.two_pow_pos lo))]
  conv => rhs; rw [field_split n lo w]
  rw [key _ _ (bitsOf_lt ..) (Nat.mod_lt _ (Nat.two_pow_pos lo))]

/-- A field that lies below the one replaced. -/
theorem bitsOf_withBits_below (n lo w v lo' w' : Nat) (h : lo' + w' ≤ lo) :
    bitsOf (withBits n lo w v) lo' w' = bitsOf n lo' w' := by
  have key : ∀ m : Nat, m / 2 ^ lo' % 2 ^ w' = m % 2 ^ lo / 2 ^ lo' % 2 ^ w' := by
    intro m
    have h2 : 2 ^ lo = 2 ^ lo' * 2 ^ (lo - lo') := by rw [← Nat.pow_add]; congr 1; omega
    have h3 : 2 ^ w' ∣ 2 ^ (lo - lo') := Nat.pow_dvd_pow 2 (by omega)
    rw [h2, Nat.mod_mul_right_div_self, Nat.mod_mod_of_dvd _ h3]
  simp only [bitsOf, Nat.shiftRight_eq_div_pow]
  rw [key, key n, withBits_eq]
  congr 2
  have h2 : n / 2 ^ (lo + w) * 2 ^ (lo + w) + v % 2 ^ w * 2 ^ lo =
      (n / 2 ^ (lo + w) * 2 ^ w + v % 2 ^ w) * 2 ^ lo := by
    rw [Nat.add_mul, Nat.mul_assoc, ← Nat.pow_add, Nat.add_comm w lo]
  rw [h2, Nat.add_comm, Nat.add_mul_mod_self_right, Nat.mod_mod]

/-- Replacing a field of a word keeps it a word. -/
theorem withBits_lt (n lo w v : Nat) (hn : n < 2 ^ 40) (h : lo + w ≤ 40) : withBits n lo w v < 2 ^ 40 := by
  rw [withBits_eq]
  have hb : v % 2 ^ w < 2 ^ w := Nat.mod_lt _ (Nat.two_pow_pos w)
  have hc : n % 2 ^ lo < 2 ^ lo := Nat.mod_lt _ (Nat.two_pow_pos lo)
  have h1 : v % 2 ^ w * 2 ^ lo + n % 2 ^ lo < 2 ^ (lo + w) := by
    have : (v % 2 ^ w + 1) * 2 ^ lo ≤ 2 ^ w * 2 ^ lo := Nat.mul_le_mul_right _ hb
    rw [Nat.pow_add, Nat.mul_comm (2 ^ lo)]
    rw [Nat.add_mul] at this
    omega
  have h2 : n / 2 ^ (lo + w) < 2 ^ (40 - (lo + w)) := by
    rw [Nat.div_lt_iff_lt_mul (Nat.two_pow_pos _), ← Nat.pow_add]
    have : 40 - (lo + w) + (lo + w) = 40 := by omega
    rw [this]; exact hn
  have h3 : (n / 2 ^ (lo + w) + 1) * 2 ^ (lo + w) ≤ 2 ^ (40 - (lo + w)) * 2 ^ (lo + w) := Nat.mul_le_mul_right _ h2
  rw [← Nat.pow_add] at h3
  have : 40 - (lo + w) + (lo + w) = 40 := by omega
  rw [this, Nat.add_mul] at h3
  omega

/-- The word with a field replaced, as a number. -/
theorem w40_withBits (r : Word) (lo w v : Nat) (h : lo + w ≤ 40) :
    (w40 (withBits r.toNat lo w v)).toNat = withBits r.toNat lo w v := by
  simp only [w40, BitVec.toNat_ofNat]
  exact Nat.mod_eq_of_lt (withBits_lt _ _ _ _ r.isLt h)

end Sys2Proof.Machine
end

