-- ==== Sys2Proof/Laws/Sparse.lean ====
section
/-! SUPPORT. What a sparse table reads as after a write, and that its operations keep the canonical form. -/

namespace Sys2Proof.Machine

variable {κ α : Type}

section get
variable [DecidableEq κ]

@[simp] theorem Sparse.get_nil (d : κ → α) (k : κ) : Sparse.get d [] k = d k := rfl

theorem Sparse.get_erase_same (d : κ → α) (m : Sparse κ α) (k : κ) : Sparse.get d (Sparse.erase m k) k = d k := by
  induction m with
  | nil => rfl
  | cons e rest ih =>
    simp only [Sparse.erase]
    split
    · exact ih
    · simp only [Sparse.get]; split
      · contradiction
      · exact ih

theorem Sparse.get_erase_ne (d : κ → α) (m : Sparse κ α) {k k' : κ} (hne : k' ≠ k) :
    Sparse.get d (Sparse.erase m k) k' = Sparse.get d m k' := by
  induction m with
  | nil => rfl
  | cons e rest ih =>
    simp only [Sparse.erase, Sparse.get]
    split
    · next h => subst h; simp [Ne.symm hne, ih]
    · simp only [Sparse.get, ih]

theorem Sparse.get_insert_ne (rank : κ → Nat) (d : κ → α) (m : Sparse κ α) {k k' : κ} (v : α) (hne : k' ≠ k) :
    Sparse.get d (Sparse.insert rank m k v) k' = Sparse.get d m k' := by
  induction m with
  | nil => simp [Sparse.insert, Sparse.get, Ne.symm hne]
  | cons e rest ih =>
    simp only [Sparse.insert]
    split
    · simp only [Sparse.get, ih]
    · simp only [Sparse.get, Ne.symm hne, if_false]

theorem Sparse.get_insert_erase (rank : κ → Nat) (d : κ → α) (m : Sparse κ α) (k : κ) (v : α) :
    Sparse.get d (Sparse.insert rank (Sparse.erase m k) k v) k = v := by
  induction m with
  | nil => simp [Sparse.erase, Sparse.insert, Sparse.get]
  | cons e rest ih =>
    simp only [Sparse.erase]
    split
    · exact ih
    · simp only [Sparse.insert]
      split
      · simp only [Sparse.get]; split
        · contradiction
        · exact ih
      · simp [Sparse.get]

/-- A read of what was just written. -/
@[simp] theorem Sparse.get_put_same [DecidableEq α] (rank : κ → Nat) (d : κ → α) (m : Sparse κ α) (k : κ) (v : α) :
    Sparse.get d (Sparse.put rank d m k v) k = v := by
  simp only [Sparse.put]
  split
  · next h => rw [Sparse.get_erase_same, h]
  · exact Sparse.get_insert_erase ..

/-- A read of any other key. -/
theorem Sparse.get_put_ne [DecidableEq α] (rank : κ → Nat) (d : κ → α) (m : Sparse κ α) {k k' : κ} (v : α)
    (hne : k' ≠ k) : Sparse.get d (Sparse.put rank d m k v) k' = Sparse.get d m k' := by
  simp only [Sparse.put]
  split
  · exact Sparse.get_erase_ne d m hne
  · rw [Sparse.get_insert_ne rank d _ v hne, Sparse.get_erase_ne d m hne]

theorem Sparse.get_put [DecidableEq α] (rank : κ → Nat) (d : κ → α) (m : Sparse κ α) (k k' : κ) (v : α) :
    Sparse.get d (Sparse.put rank d m k v) k' = if k' = k then v else Sparse.get d m k' := by
  by_cases h : k' = k
  · subst h; simp
  · simp [h, Sparse.get_put_ne]

end get

section wf
variable (rank : κ → Nat) (d : κ → α)

theorem Sparse.mem_erase [DecidableEq κ] {m : Sparse κ α} {k : κ} {e : κ × α} : e ∈ Sparse.erase m k ↔ e ∈ m ∧ e.1 ≠ k := by
  induction m with
  | nil => simp [Sparse.erase]
  | cons x rest ih =>
    simp only [Sparse.erase]
    split
    · next h => simp only [List.mem_cons, ih]; constructor
                · exact fun ⟨a, b⟩ => ⟨.inr a, b⟩
                · rintro ⟨rfl | a, b⟩
                  · exact absurd h b
                  · exact ⟨a, b⟩
    · next h => simp only [List.mem_cons, ih]; constructor
                · rintro (rfl | ⟨a, b⟩)
                  · exact ⟨.inl rfl, h⟩
                  · exact ⟨.inr a, b⟩
                · rintro ⟨rfl | a, b⟩
                  · exact .inl rfl
                  · exact .inr ⟨a, b⟩

theorem Sparse.mem_insert {m : Sparse κ α} {k : κ} {v : α} {e : κ × α} :
    e ∈ Sparse.insert rank m k v ↔ e = (k, v) ∨ e ∈ m := by
  induction m with
  | nil => simp [Sparse.insert]
  | cons x rest ih =>
    obtain ⟨a, b⟩ := x
    simp only [Sparse.insert]
    split
    · simp only [List.mem_cons, ih]; exact or_left_comm
    · simp only [List.mem_cons]

theorem Sparse.wf_cons [DecidableEq α] {k : κ} {v : α} {rest : Sparse κ α} :
    Sparse.wf rank d ((k, v) :: rest) = true ↔
      v ≠ d k ∧ (∀ e ∈ rest, rank k < rank e.1) ∧ Sparse.wf rank d rest = true := by
  simp [Sparse.wf, and_assoc]

theorem Sparse.wf_erase [DecidableEq κ] [DecidableEq α] {m : Sparse κ α} (h : Sparse.wf rank d m = true) (k : κ) :
    Sparse.wf rank d (Sparse.erase m k) = true := by
  induction m with
  | nil => rfl
  | cons e rest ih =>
    rw [Sparse.wf_cons] at h
    simp only [Sparse.erase]
    split
    · exact ih h.2.2
    · exact (Sparse.wf_cons rank d).2 ⟨h.1, fun e he => h.2.1 e (Sparse.mem_erase.1 he).1, ih h.2.2⟩

theorem Sparse.wf_insert [DecidableEq α] {m : Sparse κ α} (h : Sparse.wf rank d m = true) {k : κ} {v : α} (hv : v ≠ d k)
    (hk : ∀ e ∈ m, rank e.1 ≠ rank k) : Sparse.wf rank d (Sparse.insert rank m k v) = true := by
  induction m with
  | nil => simp [Sparse.insert, Sparse.wf, hv]
  | cons e rest ih =>
    have h' := (Sparse.wf_cons rank d).1 h
    simp only [Sparse.insert]
    split
    · next hlt =>
      refine (Sparse.wf_cons rank d).2 ⟨h'.1, fun x hx => ?_, ih h'.2.2 (fun x hx => hk x (List.mem_cons_of_mem _ hx))⟩
      rcases (Sparse.mem_insert rank).1 hx with rfl | hx
      · exact hlt
      · exact h'.2.1 x hx
    · next hlt =>
      have hne := hk e (List.mem_cons_self ..)
      have hlt' : rank k < rank e.1 := by omega
      refine (Sparse.wf_cons rank d).2 ⟨hv, fun x hx => ?_, h⟩
      rcases List.mem_cons.1 hx with rfl | hx
      · exact hlt'
      · exact Nat.lt_trans hlt' (h'.2.1 x hx)

/-- A write keeps the canonical form, where equal ranks mean equal keys. -/
theorem Sparse.wf_put [DecidableEq κ] [DecidableEq α] (hr : ∀ a b, rank a = rank b → a = b) {m : Sparse κ α} (h : Sparse.wf rank d m = true) (k : κ)
    (v : α) : Sparse.wf rank d (Sparse.put rank d m k v) = true := by
  simp only [Sparse.put]
  split
  · exact Sparse.wf_erase rank d h k
  · next hv =>
    exact Sparse.wf_insert rank d (Sparse.wf_erase rank d h k) hv
      (fun e he hre => (Sparse.mem_erase.1 he).2 (hr _ _ hre))

/-- Removing entries keeps the canonical form. -/
theorem Sparse.wf_filter [DecidableEq α] {m : Sparse κ α} (h : Sparse.wf rank d m = true) (p : κ × α → Bool) :
    Sparse.wf rank d (m.filter p) = true := by
  induction m with
  | nil => rfl
  | cons e rest ih =>
    have h' := (Sparse.wf_cons rank d).1 h
    rw [List.filter_cons]
    split
    · exact (Sparse.wf_cons rank d).2 ⟨h'.1, fun x hx => h'.2.1 x (List.mem_filter.1 hx).1, ih h'.2.2⟩
    · exact ih h'.2.2

end wf

/-- An instance just set. -/
@[simp] theorem Bank.at_set_same [DecidableEq α] (d : α) (m : Bank α) (k : Nat) (v : α) : (m.set d k v).at d k = v :=
  Sparse.get_put_same ..

/-- Any other instance. -/
theorem Bank.at_set_ne [DecidableEq α] (d : α) (m : Bank α) {k k' : Nat} (v : α) (h : k' ≠ k) :
    (m.set d k v).at d k' = m.at d k' := Sparse.get_put_ne _ _ _ _ h

end Sys2Proof.Machine
end

