-- ==== Sys2Proof/Laws/Memory.lean ====
section
/-! SUPPORT. Memory: a read after a write, and that every memory operation keeps the canonical form of the words and of the
tag bytes. -/

namespace Sys2Proof.Machine

open Sys2Proof

@[simp] theorem State.rd_wr_same (s : State) (g : Nat) (v : Word) : (s.wr g v).rd g = v := Sparse.get_put_same ..

theorem State.rd_wr_ne (s : State) {g g' : Nat} (v : Word) (h : g' ≠ g) : (s.wr g v).rd g' = s.rd g' :=
  Sparse.get_put_ne _ _ _ _ h

@[simp] theorem State.tag_setTag_same (s : State) (g : Nat) (v : BitVec 8) : (s.setTag g v).tag g = v := Sparse.get_put_same ..

theorem State.tag_setTag_ne (s : State) {g g' : Nat} (v : BitVec 8) (h : g' ≠ g) : (s.setTag g v).tag g' = s.tag g' :=
  Sparse.get_put_ne _ _ _ _ h

@[simp] theorem State.tag_wr (s : State) (g g' : Nat) (v : Word) : (s.wr g v).tag g' = s.tag g' := rfl
@[simp] theorem State.rd_setTag (s : State) (g g' : Nat) (v : BitVec 8) : (s.setTag g v).rd g' = s.rd g' := rfl
@[simp] theorem State.rd_on (s : State) (f : Hw → Hw) (g : Nat) : (s.on f).rd g = s.rd g := rfl
@[simp] theorem State.tag_on (s : State) (f : Hw → Hw) (g : Nat) : (s.on f).tag g = s.tag g := rfl
@[simp] theorem State.mem_on (s : State) (f : Hw → Hw) : (s.on f).mem = s.mem := rfl
@[simp] theorem State.tags_on (s : State) (f : Hw → Hw) : (s.on f).tags = s.tags := rfl
@[simp] theorem State.hw_on (s : State) (f : Hw → Hw) : (s.on f).hw = f s.hw := rfl
@[simp] theorem State.pending_on (s : State) (f : Hw → Hw) : (s.on f).pending = s.pending := rfl
@[simp] theorem State.hw_wr (s : State) (g : Nat) (v : Word) : (s.wr g v).hw = s.hw := rfl
@[simp] theorem State.pending_wr (s : State) (g : Nat) (v : Word) : (s.wr g v).pending = s.pending := rfl
@[simp] theorem State.hw_setTag (s : State) (g : Nat) (v : BitVec 8) : (s.setTag g v).hw = s.hw := rfl
@[simp] theorem State.pending_setTag (s : State) (g : Nat) (v : BitVec 8) : (s.setTag g v).pending = s.pending := rfl

/-- A run of words written, and any word outside it. -/
theorem State.rd_wrList_outside (s : State) (g : Nat) (vs : List Word) {a : Nat} (h : a < g ∨ g + vs.length ≤ a) :
    (s.wrList g vs).rd a = s.rd a := by
  induction vs generalizing s g with
  | nil => rfl
  | cons v rest ih =>
    simp only [State.wrList]
    rw [ih _ _ (by simp only [List.length_cons] at h; omega)]
    exact State.rd_wr_ne _ _ (by simp only [List.length_cons] at h; omega)

theorem State.rd_wrList (s : State) (g : Nat) (vs : List Word) {i : Nat} (h : i < vs.length) :
    (s.wrList g vs).rd (g + i) = vs[i] := by
  induction vs generalizing s g i with
  | nil => exact absurd h (Nat.not_lt_zero i)
  | cons v rest ih =>
    simp only [State.wrList]
    cases i with
    | zero =>
      rw [State.rd_wrList_outside _ _ _ (by omega)]
      simp
    | succ j =>
      have := ih (s.wr g v) (g + 1) (i := j) (by simpa using h)
      simpa [Nat.add_assoc, Nat.add_comm 1 j] using this

@[simp] theorem State.hw_wrList (s : State) (g : Nat) (vs : List Word) : (s.wrList g vs).hw = s.hw := by
  induction vs generalizing s g with
  | nil => rfl
  | cons v rest ih => exact ih _ _

@[simp] theorem State.tags_wrList (s : State) (g : Nat) (vs : List Word) : (s.wrList g vs).tags = s.tags := by
  induction vs generalizing s g with
  | nil => rfl
  | cons v rest ih => exact ih _ _

@[simp] theorem State.pending_wrList (s : State) (g : Nat) (vs : List Word) : (s.wrList g vs).pending = s.pending := by
  induction vs generalizing s g with
  | nil => rfl
  | cons v rest ih => exact ih _ _

/-! ## The canonical form is kept -/

theorem State.memWf_of_eq {s t : State} (h : s.memWf) (hm : t.mem = s.mem) (ht : t.tags = s.tags) : t.memWf := by
  simpa only [State.memWf, hm, ht] using h

theorem State.memWf_on {s : State} (h : s.memWf) (f : Hw → Hw) : (s.on f).memWf := h

theorem State.memWf_wr {s : State} (h : s.memWf) (g : Nat) (v : Word) : (s.wr g v).memWf :=
  ⟨Sparse.wf_put id memDefault (fun _ _ e => e) h.1 g v, h.2⟩

theorem State.memWf_wrList {s : State} (h : s.memWf) (g : Nat) (vs : List Word) : (s.wrList g vs).memWf := by
  induction vs generalizing s g with
  | nil => exact h
  | cons v rest ih => exact ih (State.memWf_wr h g v) _

theorem State.memWf_setTag {s : State} (h : s.memWf) (g : Nat) (v : BitVec 8) : (s.setTag g v).memWf :=
  ⟨h.1, Sparse.wf_put id _ (fun _ _ e => e) h.2 g v⟩

theorem State.memWf_forget {s : State} (h : s.memWf) (lo n : Nat) : (s.forget lo n).memWf :=
  ⟨Sparse.wf_filter id memDefault h.1 _, h.2⟩

/-- A fold of steps that each keep the form keeps it. -/
theorem State.memWf_foldl {β : Type} (f : State → β → State) (hf : ∀ s b, s.memWf → (f s b).memWf) (l : List β) {s : State}
    (h : s.memWf) : (l.foldl f s).memWf := by
  induction l generalizing s with
  | nil => exact h
  | cons b rest ih => exact ih (hf s b h)

theorem State.memWf_setTags {s : State} (h : s.memWf) (l : Nat) (v : BitVec 8) : (s.setTags l v).memWf :=
  State.memWf_foldl _ (fun _ _ h => State.memWf_setTag h _ _) _ h

theorem State.memWf_writeLine {s : State} (h : s.memWf) (l : Nat) (ws : List Word) (tag : BitVec 8) :
    (s.writeLine l ws tag).memWf := by
  have h' := State.memWf_setTags (State.memWf_wrList h (lineBase l) (ws.take 8)) l tag
  simp only [State.writeLine]
  exact ⟨h'.1, h'.2⟩

theorem State.memWf_copyLines {s : State} (h : s.memWf) (src dst n : Nat) : (s.copyLines src dst n).memWf := by
  simp only [State.copyLines]
  refine State.memWf_foldl _ (fun t e ht => State.memWf_setTag ht _ _) _ ?_
  refine State.memWf_foldl _ (fun t e ht => State.memWf_wr ht _ _) _ ?_
  exact ⟨Sparse.wf_filter id memDefault h.1 _, Sparse.wf_filter id _ h.2 _⟩

theorem State.memWf_keepFlash {s : State} (h : s.memWf) (dram : Bool) : (s.keepFlash dram).memWf := by
  refine ⟨Sparse.wf_filter id memDefault h.1 _, ?_⟩
  simp only [State.keepFlash]
  split
  · exact h.2
  · rfl

end Sys2Proof.Machine
end

