-- ==== Sys2Proof/Laws/Regs.lean ====
section
/-! SUPPORT. The register file: what a register and a field read as after a register or a field is written, and what the
writes leave alone. -/

namespace Sys2Proof.Machine

open Sys2Proof

/-- The register just written. -/
@[simp] theorem Hw.reg_setReg_same (h : Hw) (p : Page) (off ch : Nat) (v : Word) : (h.setReg p off ch v).reg p off ch = v :=
  Sparse.get_put_same ..

/-- Any other register. -/
theorem Hw.reg_setReg_ne (h : Hw) {p p' : Page} {off off' ch ch' : Nat} (v : Word)
    (hne : (p', off', ch') ≠ (p, off, ch)) : (h.setReg p off ch v).reg p' off' ch' = h.reg p' off' ch' := by
  refine Sparse.get_put_ne _ _ _ _ (fun he => hne ?_)
  obtain ⟨c, i⟩ := p
  obtain ⟨c', i'⟩ := p'
  simp only [RegKey.mk.injEq] at he
  simp [he.1, he.2.1, he.2.2.1, he.2.2.2]

theorem Hw.reg_setReg (h : Hw) (p p' : Page) (off off' ch ch' : Nat) (v : Word) :
    (h.setReg p off ch v).reg p' off' ch' = if p' = p ∧ off' = off ∧ ch' = ch then v else h.reg p' off' ch' := by
  split
  · next e => obtain ⟨rfl, rfl, rfl⟩ := e; simp
  · next e => exact Hw.reg_setReg_ne h v (by simpa [Prod.mk.injEq] using e)

/-- The field just written. -/
theorem Hw.f_setF_same (h : Hw) (p : Page) (ch : Nat) (fl : Fld) (v : Nat) (hw : fl.lo + fl.w ≤ 40) :
    (h.setF p ch fl v).f p ch fl = v % 2 ^ fl.w := by
  simp only [Hw.f, Hw.setF, Hw.reg_setReg_same]
  rw [w40_withBits _ _ _ _ hw, bitsOf_withBits_same]

/-- A field of another register. -/
theorem Hw.f_setF_ne (h : Hw) {p p' : Page} {ch ch' : Nat} (fl fl' : Fld) (v : Nat)
    (hne : (p', fl'.off, ch') ≠ (p, fl.off, ch)) : (h.setF p ch fl v).f p' ch' fl' = h.f p' ch' fl' := by
  simp only [Hw.f, Hw.setF, Hw.reg_setReg_ne h _ hne]

/-- Another field of the same register. -/
theorem Hw.f_setF_other (h : Hw) (p : Page) (ch : Nat) (fl fl' : Fld) (v : Nat) (ho : fl'.off = fl.off)
    (hw : fl.lo + fl.w ≤ 40) (hd : fl.lo + fl.w ≤ fl'.lo ∨ fl'.lo + fl'.w ≤ fl.lo) :
    (h.setF p ch fl v).f p ch fl' = h.f p ch fl' := by
  simp only [Hw.f, Hw.setF, ho, Hw.reg_setReg_same]
  rw [w40_withBits _ _ _ _ hw]
  rcases hd with hd | hd
  · exact bitsOf_withBits_above _ _ _ _ _ _ hd
  · exact bitsOf_withBits_below _ _ _ _ _ _ hd

/-- A register that a field write does not reach. -/
theorem Hw.reg_setF_ne (h : Hw) {p p' : Page} {ch ch' off' : Nat} (fl : Fld) (v : Nat)
    (hne : (p', off', ch') ≠ (p, fl.off, ch)) : (h.setF p ch fl v).reg p' off' ch' = h.reg p' off' ch' :=
  Hw.reg_setReg_ne h _ hne

/-- The host vectors follow a page's request without touching a register. -/
@[simp] theorem Hw.irqUpdate_regs (h : Hw) (p : Page) : (h.irqUpdate p).regs = h.regs := by
  simp only [Hw.irqUpdate, Hw.vectorLevel]
  repeat' split
  all_goals rfl

@[simp] theorem Hw.irqUpdate_reg (h : Hw) (p q : Page) (off ch : Nat) : (h.irqUpdate p).reg q off ch = h.reg q off ch := by
  simp only [Hw.reg, Hw.irqUpdate_regs]

/-- The round-robin order of a page touches no register. -/
@[simp] theorem Hw.granted_reg (h : Hw) (a : Acc) (p q : Page) (off ch : Nat) :
    (h.granted a p).reg q off ch = h.reg q off ch := rfl

@[simp] theorem Hw.fresh_reg (h : Hw) (q : Page) (off ch : Nat) : h.fresh.reg q off ch = h.reg q off ch := rfl

@[simp] theorem Hw.emit_reg (h : Hw) (o : Out) (q : Page) (off ch : Nat) : (h.emit o).reg q off ch = h.reg q off ch := rfl

@[simp] theorem Hw.setCore_reg (h : Hw) (i : Nat) (c : CoreSt) (q : Page) (off ch : Nat) :
    (h.setCore i c).reg q off ch = h.reg q off ch := rfl

@[simp] theorem Hw.setPair_reg (h : Hw) (p : Page) (o c : Nat) (r : Requester) (v : PairBank) (q : Page) (off ch : Nat) :
    (h.setPair p o c r v).reg q off ch = h.reg q off ch := rfl

/-- A core just replaced, and any other. -/
@[simp] theorem Hw.core_setCore_same (h : Hw) (i : Nat) (c : CoreSt) : (h.setCore i c).core i = c := Bank.at_set_same ..

theorem Hw.core_setCore_ne (h : Hw) {i j : Nat} (c : CoreSt) (hne : j ≠ i) : (h.setCore i c).core j = h.core j :=
  Bank.at_set_ne _ _ _ hne

/-- What a controlled write can do: nothing to a page that is absent or stopped; its effect; or a refusal, logged. -/
theorem Hw.controlled_cases (h : Hw) (a : Acc) (p : Page) (off : Nat) (eff : Hw → Hw) :
    (pageInfo p = none ∧ h.controlled a p off eff = (h, .unmapped)) ∨
    (∃ i, pageInfo p = some i ∧ h.stopped p = true ∧ h.controlled a p off eff = (h, .stopped)) ∨
    (∃ i, pageInfo p = some i ∧ h.stopped p = false ∧ h.passes a p i off = true ∧
      h.controlled a p off eff = ((eff (h.granted a p)).noteSw a p i off, .ok)) ∨
    (∃ i, pageInfo p = some i ∧ h.stopped p = false ∧ h.passes a p i off = false ∧
      h.controlled a p off eff = ((h.granted a p).logRefused a p off, .refused)) := by
  unfold Hw.controlled
  split
  · next e => exact .inl ⟨e, rfl⟩
  · next i e =>
    refine .inr ?_
    split
    · next hs => exact .inl ⟨i, e, hs, rfl⟩
    · next hs =>
      refine .inr ?_
      split
      · next hp => exact .inl ⟨i, e, by simpa using hs, hp, rfl⟩
      · next hp => exact .inr ⟨i, e, by simpa using hs, by simpa using hp, rfl⟩

/-- A write of a register that hardware does not update leaves no note. -/
theorem Hw.noteSw_of_not_shared {i : PageInfo} {off : Nat} (hn : sharedReg i.kind off = false) (h : Hw) (a : Acc) (p : Page) :
    h.noteSw a p i off = h := by
  simp [Hw.noteSw, hn]

/-- A direct write that passes has its effect and its note, and no report. -/
theorem Hw.direct_of_passes {h : Hw} {r : Requester} {p : Page} {i : PageInfo} (off : Nat) (eff : Hw → Hw)
    (hi : pageInfo p = some i) (hs : h.stopped p = false) (hp : h.passes (h.acc r) p i off = true) :
    h.direct r p off eff = (eff (h.granted (h.acc r) p)).noteSw (h.acc r) p i off := by
  simp [Hw.direct, Hw.controlled, hi, hs, hp, Hw.report]

end Sys2Proof.Machine
end

