-- ==== Sys2Proof/Laws/State.lean ====
section
/-! SUPPORT. State: for each update of the hardware and each field it leaves alone, that the field stands as it stood; and
what each update of one instance sets. -/

namespace Sys2Proof.Machine

open Sys2Proof

/-! ## setReg -/

@[simp] theorem Hw.setReg_now (h : Hw) (p : Page) (off ch : Nat) (v : Word) : (h.setReg p off ch v).now = h.now := rfl
@[simp] theorem Hw.setReg_freeNo (h : Hw) (p : Page) (off ch : Nat) (v : Word) : (h.setReg p off ch v).freeNo = h.freeNo := rfl
@[simp] theorem Hw.setReg_pairs (h : Hw) (p : Page) (off ch : Nat) (v : Word) : (h.setReg p off ch v).pairs = h.pairs := rfl
@[simp] theorem Hw.setReg_rr (h : Hw) (p : Page) (off ch : Nat) (v : Word) : (h.setReg p off ch v).rr = h.rr := rfl
@[simp] theorem Hw.setReg_swAt (h : Hw) (p : Page) (off ch : Nat) (v : Word) : (h.setReg p off ch v).swAt = h.swAt := rfl
@[simp] theorem Hw.setReg_swMem (h : Hw) (p : Page) (off ch : Nat) (v : Word) : (h.setReg p off ch v).swMem = h.swMem := rfl
@[simp] theorem Hw.setReg_due (h : Hw) (p : Page) (off ch : Nat) (v : Word) : (h.setReg p off ch v).due = h.due := rfl
@[simp] theorem Hw.setReg_released (h : Hw) (p : Page) (off ch : Nat) (v : Word) : (h.setReg p off ch v).released = h.released := rfl
@[simp] theorem Hw.setReg_deep (h : Hw) (p : Page) (off ch : Nat) (v : Word) : (h.setReg p off ch v).deep = h.deep := rfl
@[simp] theorem Hw.setReg_cores (h : Hw) (p : Page) (off ch : Nat) (v : Word) : (h.setReg p off ch v).cores = h.cores := rfl
@[simp] theorem Hw.setReg_flights (h : Hw) (p : Page) (off ch : Nat) (v : Word) : (h.setReg p off ch v).flights = h.flights := rfl
@[simp] theorem Hw.setReg_seamIn (h : Hw) (p : Page) (off ch : Nat) (v : Word) : (h.setReg p off ch v).seamIn = h.seamIn := rfl
@[simp] theorem Hw.setReg_carried (h : Hw) (p : Page) (off ch : Nat) (v : Word) : (h.setReg p off ch v).carried = h.carried := rfl
@[simp] theorem Hw.setReg_maintQ (h : Hw) (p : Page) (off ch : Nat) (v : Word) : (h.setReg p off ch v).maintQ = h.maintQ := rfl
@[simp] theorem Hw.setReg_maintRun (h : Hw) (p : Page) (off ch : Nat) (v : Word) : (h.setReg p off ch v).maintRun = h.maintRun := rfl
@[simp] theorem Hw.setReg_maintAt (h : Hw) (p : Page) (off ch : Nat) (v : Word) : (h.setReg p off ch v).maintAt = h.maintAt := rfl
@[simp] theorem Hw.setReg_adc (h : Hw) (p : Page) (off ch : Nat) (v : Word) : (h.setReg p off ch v).adc = h.adc := rfl
@[simp] theorem Hw.setReg_sdf (h : Hw) (p : Page) (off ch : Nat) (v : Word) : (h.setReg p off ch v).sdf = h.sdf := rfl
@[simp] theorem Hw.setReg_cmp (h : Hw) (p : Page) (off ch : Nat) (v : Word) : (h.setReg p off ch v).cmp = h.cmp := rfl
@[simp] theorem Hw.setReg_trk (h : Hw) (p : Page) (off ch : Nat) (v : Word) : (h.setReg p off ch v).trk = h.trk := rfl
@[simp] theorem Hw.setReg_pwmTb (h : Hw) (p : Page) (off ch : Nat) (v : Word) : (h.setReg p off ch v).pwmTb = h.pwmTb := rfl
@[simp] theorem Hw.setReg_pwmCh (h : Hw) (p : Page) (off ch : Nat) (v : Word) : (h.setReg p off ch v).pwmCh = h.pwmCh := rfl
@[simp] theorem Hw.setReg_dicStack (h : Hw) (p : Page) (off ch : Nat) (v : Word) : (h.setReg p off ch v).dicStack = h.dicStack := rfl
@[simp] theorem Hw.setReg_dicLine (h : Hw) (p : Page) (off ch : Nat) (v : Word) : (h.setReg p off ch v).dicLine = h.dicLine := rfl
@[simp] theorem Hw.setReg_dicLate (h : Hw) (p : Page) (off ch : Nat) (v : Word) : (h.setReg p off ch v).dicLate = h.dicLate := rfl
@[simp] theorem Hw.setReg_divSaved (h : Hw) (p : Page) (off ch : Nat) (v : Word) : (h.setReg p off ch v).divSaved = h.divSaved := rfl
@[simp] theorem Hw.setReg_cpySaved (h : Hw) (p : Page) (off ch : Nat) (v : Word) : (h.setReg p off ch v).cpySaved = h.cpySaved := rfl
@[simp] theorem Hw.setReg_xfpSw (h : Hw) (p : Page) (off ch : Nat) (v : Word) : (h.setReg p off ch v).xfpSw = h.xfpSw := rfl
@[simp] theorem Hw.setReg_xfpHw (h : Hw) (p : Page) (off ch : Nat) (v : Word) : (h.setReg p off ch v).xfpHw = h.xfpHw := rfl
@[simp] theorem Hw.setReg_wdtPre (h : Hw) (p : Page) (off ch : Nat) (v : Word) : (h.setReg p off ch v).wdtPre = h.wdtPre := rfl
@[simp] theorem Hw.setReg_wakeReq (h : Hw) (p : Page) (off ch : Nat) (v : Word) : (h.setReg p off ch v).wakeReq = h.wakeReq := rfl
@[simp] theorem Hw.setReg_rstCause (h : Hw) (p : Page) (off ch : Nat) (v : Word) : (h.setReg p off ch v).rstCause = h.rstCause := rfl
@[simp] theorem Hw.setReg_pads (h : Hw) (p : Page) (off ch : Nat) (v : Word) : (h.setReg p off ch v).pads = h.pads := rfl
@[simp] theorem Hw.setReg_padLast (h : Hw) (p : Page) (off ch : Nat) (v : Word) : (h.setReg p off ch v).padLast = h.padLast := rfl
@[simp] theorem Hw.setReg_pinSw (h : Hw) (p : Page) (off ch : Nat) (v : Word) : (h.setReg p off ch v).pinSw = h.pinSw := rfl
@[simp] theorem Hw.setReg_holds (h : Hw) (p : Page) (off ch : Nat) (v : Word) : (h.setReg p off ch v).holds = h.holds := rfl
@[simp] theorem Hw.setReg_safeNLow (h : Hw) (p : Page) (off ch : Nat) (v : Word) : (h.setReg p off ch v).safeNLow = h.safeNLow := rfl
@[simp] theorem Hw.setReg_safeNAt (h : Hw) (p : Page) (off ch : Nat) (v : Word) : (h.setReg p off ch v).safeNAt = h.safeNAt := rfl
@[simp] theorem Hw.setReg_held (h : Hw) (p : Page) (off ch : Nat) (v : Word) : (h.setReg p off ch v).held = h.held := rfl
@[simp] theorem Hw.setReg_loopRun (h : Hw) (p : Page) (off ch : Nat) (v : Word) : (h.setReg p off ch v).loopRun = h.loopRun := rfl
@[simp] theorem Hw.setReg_uc (h : Hw) (p : Page) (off ch : Nat) (v : Word) : (h.setReg p off ch v).uc = h.uc := rfl
@[simp] theorem Hw.setReg_traceQ (h : Hw) (p : Page) (off ch : Nat) (v : Word) : (h.setReg p off ch v).traceQ = h.traceQ := rfl
@[simp] theorem Hw.setReg_traceAt (h : Hw) (p : Page) (off ch : Nat) (v : Word) : (h.setReg p off ch v).traceAt = h.traceAt := rfl
@[simp] theorem Hw.setReg_traceLost (h : Hw) (p : Page) (off ch : Nat) (v : Word) : (h.setReg p off ch v).traceLost = h.traceLost := rfl
@[simp] theorem Hw.setReg_dramBad (h : Hw) (p : Page) (off ch : Nat) (v : Word) : (h.setReg p off ch v).dramBad = h.dramBad := rfl
@[simp] theorem Hw.setReg_dramWb (h : Hw) (p : Page) (off ch : Nat) (v : Word) : (h.setReg p off ch v).dramWb = h.dramWb := rfl
@[simp] theorem Hw.setReg_ceCount (h : Hw) (p : Page) (off ch : Nat) (v : Word) : (h.setReg p off ch v).ceCount = h.ceCount := rfl
@[simp] theorem Hw.setReg_darnerDue (h : Hw) (p : Page) (off ch : Nat) (v : Word) : (h.setReg p off ch v).darnerDue = h.darnerDue := rfl
@[simp] theorem Hw.setReg_darnerNow (h : Hw) (p : Page) (off ch : Nat) (v : Word) : (h.setReg p off ch v).darnerNow = h.darnerNow := rfl
@[simp] theorem Hw.setReg_passAt (h : Hw) (p : Page) (off ch : Nat) (v : Word) : (h.setReg p off ch v).passAt = h.passAt := rfl
@[simp] theorem Hw.setReg_dramQ (h : Hw) (p : Page) (off ch : Nat) (v : Word) : (h.setReg p off ch v).dramQ = h.dramQ := rfl
@[simp] theorem Hw.setReg_dramPos (h : Hw) (p : Page) (off ch : Nat) (v : Word) : (h.setReg p off ch v).dramPos = h.dramPos := rfl
@[simp] theorem Hw.setReg_dramRec (h : Hw) (p : Page) (off ch : Nat) (v : Word) : (h.setReg p off ch v).dramRec = h.dramRec := rfl
@[simp] theorem Hw.setReg_dramBulk (h : Hw) (p : Page) (off ch : Nat) (v : Word) : (h.setReg p off ch v).dramBulk = h.dramBulk := rfl
@[simp] theorem Hw.setReg_dramTurn (h : Hw) (p : Page) (off ch : Nat) (v : Word) : (h.setReg p off ch v).dramTurn = h.dramTurn := rfl
@[simp] theorem Hw.setReg_hamper (h : Hw) (p : Page) (off ch : Nat) (v : Word) : (h.setReg p off ch v).hamper = h.hamper := rfl
@[simp] theorem Hw.setReg_flash (h : Hw) (p : Page) (off ch : Nat) (v : Word) : (h.setReg p off ch v).flash = h.flash := rfl
@[simp] theorem Hw.setReg_ports (h : Hw) (p : Page) (off ch : Nat) (v : Word) : (h.setReg p off ch v).ports = h.ports := rfl
@[simp] theorem Hw.setReg_dom (h : Hw) (p : Page) (off ch : Nat) (v : Word) : (h.setReg p off ch v).dom = h.dom := rfl
@[simp] theorem Hw.setReg_porAt (h : Hw) (p : Page) (off ch : Nat) (v : Word) : (h.setReg p off ch v).porAt = h.porAt := rfl
@[simp] theorem Hw.setReg_resp (h : Hw) (p : Page) (off ch : Nat) (v : Word) : (h.setReg p off ch v).resp = h.resp := rfl
@[simp] theorem Hw.setReg_vectors (h : Hw) (p : Page) (off ch : Nat) (v : Word) : (h.setReg p off ch v).vectors = h.vectors := rfl
@[simp] theorem Hw.setReg_msixEn (h : Hw) (p : Page) (off ch : Nat) (v : Word) : (h.setReg p off ch v).msixEn = h.msixEn := rfl
@[simp] theorem Hw.setReg_fmask (h : Hw) (p : Page) (off ch : Nat) (v : Word) : (h.setReg p off ch v).fmask = h.fmask := rfl
@[simp] theorem Hw.setReg_devCtl (h : Hw) (p : Page) (off ch : Nat) (v : Word) : (h.setReg p off ch v).devCtl = h.devCtl := rfl
@[simp] theorem Hw.setReg_perstLow (h : Hw) (p : Page) (off ch : Nat) (v : Word) : (h.setReg p off ch v).perstLow = h.perstLow := rfl
@[simp] theorem Hw.setReg_svcAccess (h : Hw) (p : Page) (off ch : Nat) (v : Word) : (h.setReg p off ch v).svcAccess = h.svcAccess := rfl
@[simp] theorem Hw.setReg_sess (h : Hw) (p : Page) (off ch : Nat) (v : Word) : (h.setReg p off ch v).sess = h.sess := rfl
@[simp] theorem Hw.setReg_svcq (h : Hw) (p : Page) (off ch : Nat) (v : Word) : (h.setReg p off ch v).svcq = h.svcq := rfl
@[simp] theorem Hw.setReg_txts (h : Hw) (p : Page) (off ch : Nat) (v : Word) : (h.setReg p off ch v).txts = h.txts := rfl
@[simp] theorem Hw.setReg_mdioRead (h : Hw) (p : Page) (off ch : Nat) (v : Word) : (h.setReg p off ch v).mdioRead = h.mdioRead := rfl
@[simp] theorem Hw.setReg_mch (h : Hw) (p : Page) (off ch : Nat) (v : Word) : (h.setReg p off ch v).mch = h.mch := rfl
@[simp] theorem Hw.setReg_mArb (h : Hw) (p : Page) (off ch : Nat) (v : Word) : (h.setReg p off ch v).mArb = h.mArb := rfl
@[simp] theorem Hw.setReg_resetLow (h : Hw) (p : Page) (off ch : Nat) (v : Word) : (h.setReg p off ch v).resetLow = h.resetLow := rfl
@[simp] theorem Hw.setReg_porstLow (h : Hw) (p : Page) (off ch : Nat) (v : Word) : (h.setReg p off ch v).porstLow = h.porstLow := rfl
@[simp] theorem Hw.setReg_bootPins (h : Hw) (p : Page) (off ch : Nat) (v : Word) : (h.setReg p off ch v).bootPins = h.bootPins := rfl
@[simp] theorem Hw.setReg_crWait (h : Hw) (p : Page) (off ch : Nat) (v : Word) : (h.setReg p off ch v).crWait = h.crWait := rfl
@[simp] theorem Hw.setReg_monHold (h : Hw) (p : Page) (off ch : Nat) (v : Word) : (h.setReg p off ch v).monHold = h.monHold := rfl
@[simp] theorem Hw.setReg_rstAt (h : Hw) (p : Page) (off ch : Nat) (v : Word) : (h.setReg p off ch v).rstAt = h.rstAt := rfl
@[simp] theorem Hw.setReg_bootDue (h : Hw) (p : Page) (off ch : Nat) (v : Word) : (h.setReg p off ch v).bootDue = h.bootDue := rfl
@[simp] theorem Hw.setReg_tap (h : Hw) (p : Page) (off ch : Nat) (v : Word) : (h.setReg p off ch v).tap = h.tap := rfl
@[simp] theorem Hw.setReg_scan (h : Hw) (p : Page) (off ch : Nat) (v : Word) : (h.setReg p off ch v).scan = h.scan := rfl
@[simp] theorem Hw.setReg_dapSticky (h : Hw) (p : Page) (off ch : Nat) (v : Word) : (h.setReg p off ch v).dapSticky = h.dapSticky := rfl
@[simp] theorem Hw.setReg_out (h : Hw) (p : Page) (off ch : Nat) (v : Word) : (h.setReg p off ch v).out = h.out := rfl

/-! ## setF -/

@[simp] theorem Hw.setF_now (h : Hw) (p : Page) (ch : Nat) (fl : Fld) (v : Nat) : (h.setF p ch fl v).now = h.now := rfl
@[simp] theorem Hw.setF_freeNo (h : Hw) (p : Page) (ch : Nat) (fl : Fld) (v : Nat) : (h.setF p ch fl v).freeNo = h.freeNo := rfl
@[simp] theorem Hw.setF_pairs (h : Hw) (p : Page) (ch : Nat) (fl : Fld) (v : Nat) : (h.setF p ch fl v).pairs = h.pairs := rfl
@[simp] theorem Hw.setF_rr (h : Hw) (p : Page) (ch : Nat) (fl : Fld) (v : Nat) : (h.setF p ch fl v).rr = h.rr := rfl
@[simp] theorem Hw.setF_swAt (h : Hw) (p : Page) (ch : Nat) (fl : Fld) (v : Nat) : (h.setF p ch fl v).swAt = h.swAt := rfl
@[simp] theorem Hw.setF_swMem (h : Hw) (p : Page) (ch : Nat) (fl : Fld) (v : Nat) : (h.setF p ch fl v).swMem = h.swMem := rfl
@[simp] theorem Hw.setF_due (h : Hw) (p : Page) (ch : Nat) (fl : Fld) (v : Nat) : (h.setF p ch fl v).due = h.due := rfl
@[simp] theorem Hw.setF_released (h : Hw) (p : Page) (ch : Nat) (fl : Fld) (v : Nat) : (h.setF p ch fl v).released = h.released := rfl
@[simp] theorem Hw.setF_deep (h : Hw) (p : Page) (ch : Nat) (fl : Fld) (v : Nat) : (h.setF p ch fl v).deep = h.deep := rfl
@[simp] theorem Hw.setF_cores (h : Hw) (p : Page) (ch : Nat) (fl : Fld) (v : Nat) : (h.setF p ch fl v).cores = h.cores := rfl
@[simp] theorem Hw.setF_flights (h : Hw) (p : Page) (ch : Nat) (fl : Fld) (v : Nat) : (h.setF p ch fl v).flights = h.flights := rfl
@[simp] theorem Hw.setF_seamIn (h : Hw) (p : Page) (ch : Nat) (fl : Fld) (v : Nat) : (h.setF p ch fl v).seamIn = h.seamIn := rfl
@[simp] theorem Hw.setF_carried (h : Hw) (p : Page) (ch : Nat) (fl : Fld) (v : Nat) : (h.setF p ch fl v).carried = h.carried := rfl
@[simp] theorem Hw.setF_maintQ (h : Hw) (p : Page) (ch : Nat) (fl : Fld) (v : Nat) : (h.setF p ch fl v).maintQ = h.maintQ := rfl
@[simp] theorem Hw.setF_maintRun (h : Hw) (p : Page) (ch : Nat) (fl : Fld) (v : Nat) : (h.setF p ch fl v).maintRun = h.maintRun := rfl
@[simp] theorem Hw.setF_maintAt (h : Hw) (p : Page) (ch : Nat) (fl : Fld) (v : Nat) : (h.setF p ch fl v).maintAt = h.maintAt := rfl
@[simp] theorem Hw.setF_adc (h : Hw) (p : Page) (ch : Nat) (fl : Fld) (v : Nat) : (h.setF p ch fl v).adc = h.adc := rfl
@[simp] theorem Hw.setF_sdf (h : Hw) (p : Page) (ch : Nat) (fl : Fld) (v : Nat) : (h.setF p ch fl v).sdf = h.sdf := rfl
@[simp] theorem Hw.setF_cmp (h : Hw) (p : Page) (ch : Nat) (fl : Fld) (v : Nat) : (h.setF p ch fl v).cmp = h.cmp := rfl
@[simp] theorem Hw.setF_trk (h : Hw) (p : Page) (ch : Nat) (fl : Fld) (v : Nat) : (h.setF p ch fl v).trk = h.trk := rfl
@[simp] theorem Hw.setF_pwmTb (h : Hw) (p : Page) (ch : Nat) (fl : Fld) (v : Nat) : (h.setF p ch fl v).pwmTb = h.pwmTb := rfl
@[simp] theorem Hw.setF_pwmCh (h : Hw) (p : Page) (ch : Nat) (fl : Fld) (v : Nat) : (h.setF p ch fl v).pwmCh = h.pwmCh := rfl
@[simp] theorem Hw.setF_dicStack (h : Hw) (p : Page) (ch : Nat) (fl : Fld) (v : Nat) : (h.setF p ch fl v).dicStack = h.dicStack := rfl
@[simp] theorem Hw.setF_dicLine (h : Hw) (p : Page) (ch : Nat) (fl : Fld) (v : Nat) : (h.setF p ch fl v).dicLine = h.dicLine := rfl
@[simp] theorem Hw.setF_dicLate (h : Hw) (p : Page) (ch : Nat) (fl : Fld) (v : Nat) : (h.setF p ch fl v).dicLate = h.dicLate := rfl
@[simp] theorem Hw.setF_divSaved (h : Hw) (p : Page) (ch : Nat) (fl : Fld) (v : Nat) : (h.setF p ch fl v).divSaved = h.divSaved := rfl
@[simp] theorem Hw.setF_cpySaved (h : Hw) (p : Page) (ch : Nat) (fl : Fld) (v : Nat) : (h.setF p ch fl v).cpySaved = h.cpySaved := rfl
@[simp] theorem Hw.setF_xfpSw (h : Hw) (p : Page) (ch : Nat) (fl : Fld) (v : Nat) : (h.setF p ch fl v).xfpSw = h.xfpSw := rfl
@[simp] theorem Hw.setF_xfpHw (h : Hw) (p : Page) (ch : Nat) (fl : Fld) (v : Nat) : (h.setF p ch fl v).xfpHw = h.xfpHw := rfl
@[simp] theorem Hw.setF_wdtPre (h : Hw) (p : Page) (ch : Nat) (fl : Fld) (v : Nat) : (h.setF p ch fl v).wdtPre = h.wdtPre := rfl
@[simp] theorem Hw.setF_wakeReq (h : Hw) (p : Page) (ch : Nat) (fl : Fld) (v : Nat) : (h.setF p ch fl v).wakeReq = h.wakeReq := rfl
@[simp] theorem Hw.setF_rstCause (h : Hw) (p : Page) (ch : Nat) (fl : Fld) (v : Nat) : (h.setF p ch fl v).rstCause = h.rstCause := rfl
@[simp] theorem Hw.setF_pads (h : Hw) (p : Page) (ch : Nat) (fl : Fld) (v : Nat) : (h.setF p ch fl v).pads = h.pads := rfl
@[simp] theorem Hw.setF_padLast (h : Hw) (p : Page) (ch : Nat) (fl : Fld) (v : Nat) : (h.setF p ch fl v).padLast = h.padLast := rfl
@[simp] theorem Hw.setF_pinSw (h : Hw) (p : Page) (ch : Nat) (fl : Fld) (v : Nat) : (h.setF p ch fl v).pinSw = h.pinSw := rfl
@[simp] theorem Hw.setF_holds (h : Hw) (p : Page) (ch : Nat) (fl : Fld) (v : Nat) : (h.setF p ch fl v).holds = h.holds := rfl
@[simp] theorem Hw.setF_safeNLow (h : Hw) (p : Page) (ch : Nat) (fl : Fld) (v : Nat) : (h.setF p ch fl v).safeNLow = h.safeNLow := rfl
@[simp] theorem Hw.setF_safeNAt (h : Hw) (p : Page) (ch : Nat) (fl : Fld) (v : Nat) : (h.setF p ch fl v).safeNAt = h.safeNAt := rfl
@[simp] theorem Hw.setF_held (h : Hw) (p : Page) (ch : Nat) (fl : Fld) (v : Nat) : (h.setF p ch fl v).held = h.held := rfl
@[simp] theorem Hw.setF_loopRun (h : Hw) (p : Page) (ch : Nat) (fl : Fld) (v : Nat) : (h.setF p ch fl v).loopRun = h.loopRun := rfl
@[simp] theorem Hw.setF_uc (h : Hw) (p : Page) (ch : Nat) (fl : Fld) (v : Nat) : (h.setF p ch fl v).uc = h.uc := rfl
@[simp] theorem Hw.setF_traceQ (h : Hw) (p : Page) (ch : Nat) (fl : Fld) (v : Nat) : (h.setF p ch fl v).traceQ = h.traceQ := rfl
@[simp] theorem Hw.setF_traceAt (h : Hw) (p : Page) (ch : Nat) (fl : Fld) (v : Nat) : (h.setF p ch fl v).traceAt = h.traceAt := rfl
@[simp] theorem Hw.setF_traceLost (h : Hw) (p : Page) (ch : Nat) (fl : Fld) (v : Nat) : (h.setF p ch fl v).traceLost = h.traceLost := rfl
@[simp] theorem Hw.setF_dramBad (h : Hw) (p : Page) (ch : Nat) (fl : Fld) (v : Nat) : (h.setF p ch fl v).dramBad = h.dramBad := rfl
@[simp] theorem Hw.setF_dramWb (h : Hw) (p : Page) (ch : Nat) (fl : Fld) (v : Nat) : (h.setF p ch fl v).dramWb = h.dramWb := rfl
@[simp] theorem Hw.setF_ceCount (h : Hw) (p : Page) (ch : Nat) (fl : Fld) (v : Nat) : (h.setF p ch fl v).ceCount = h.ceCount := rfl
@[simp] theorem Hw.setF_darnerDue (h : Hw) (p : Page) (ch : Nat) (fl : Fld) (v : Nat) : (h.setF p ch fl v).darnerDue = h.darnerDue := rfl
@[simp] theorem Hw.setF_darnerNow (h : Hw) (p : Page) (ch : Nat) (fl : Fld) (v : Nat) : (h.setF p ch fl v).darnerNow = h.darnerNow := rfl
@[simp] theorem Hw.setF_passAt (h : Hw) (p : Page) (ch : Nat) (fl : Fld) (v : Nat) : (h.setF p ch fl v).passAt = h.passAt := rfl
@[simp] theorem Hw.setF_dramQ (h : Hw) (p : Page) (ch : Nat) (fl : Fld) (v : Nat) : (h.setF p ch fl v).dramQ = h.dramQ := rfl
@[simp] theorem Hw.setF_dramPos (h : Hw) (p : Page) (ch : Nat) (fl : Fld) (v : Nat) : (h.setF p ch fl v).dramPos = h.dramPos := rfl
@[simp] theorem Hw.setF_dramRec (h : Hw) (p : Page) (ch : Nat) (fl : Fld) (v : Nat) : (h.setF p ch fl v).dramRec = h.dramRec := rfl
@[simp] theorem Hw.setF_dramBulk (h : Hw) (p : Page) (ch : Nat) (fl : Fld) (v : Nat) : (h.setF p ch fl v).dramBulk = h.dramBulk := rfl
@[simp] theorem Hw.setF_dramTurn (h : Hw) (p : Page) (ch : Nat) (fl : Fld) (v : Nat) : (h.setF p ch fl v).dramTurn = h.dramTurn := rfl
@[simp] theorem Hw.setF_hamper (h : Hw) (p : Page) (ch : Nat) (fl : Fld) (v : Nat) : (h.setF p ch fl v).hamper = h.hamper := rfl
@[simp] theorem Hw.setF_flash (h : Hw) (p : Page) (ch : Nat) (fl : Fld) (v : Nat) : (h.setF p ch fl v).flash = h.flash := rfl
@[simp] theorem Hw.setF_ports (h : Hw) (p : Page) (ch : Nat) (fl : Fld) (v : Nat) : (h.setF p ch fl v).ports = h.ports := rfl
@[simp] theorem Hw.setF_dom (h : Hw) (p : Page) (ch : Nat) (fl : Fld) (v : Nat) : (h.setF p ch fl v).dom = h.dom := rfl
@[simp] theorem Hw.setF_porAt (h : Hw) (p : Page) (ch : Nat) (fl : Fld) (v : Nat) : (h.setF p ch fl v).porAt = h.porAt := rfl
@[simp] theorem Hw.setF_resp (h : Hw) (p : Page) (ch : Nat) (fl : Fld) (v : Nat) : (h.setF p ch fl v).resp = h.resp := rfl
@[simp] theorem Hw.setF_vectors (h : Hw) (p : Page) (ch : Nat) (fl : Fld) (v : Nat) : (h.setF p ch fl v).vectors = h.vectors := rfl
@[simp] theorem Hw.setF_msixEn (h : Hw) (p : Page) (ch : Nat) (fl : Fld) (v : Nat) : (h.setF p ch fl v).msixEn = h.msixEn := rfl
@[simp] theorem Hw.setF_fmask (h : Hw) (p : Page) (ch : Nat) (fl : Fld) (v : Nat) : (h.setF p ch fl v).fmask = h.fmask := rfl
@[simp] theorem Hw.setF_devCtl (h : Hw) (p : Page) (ch : Nat) (fl : Fld) (v : Nat) : (h.setF p ch fl v).devCtl = h.devCtl := rfl
@[simp] theorem Hw.setF_perstLow (h : Hw) (p : Page) (ch : Nat) (fl : Fld) (v : Nat) : (h.setF p ch fl v).perstLow = h.perstLow := rfl
@[simp] theorem Hw.setF_svcAccess (h : Hw) (p : Page) (ch : Nat) (fl : Fld) (v : Nat) : (h.setF p ch fl v).svcAccess = h.svcAccess := rfl
@[simp] theorem Hw.setF_sess (h : Hw) (p : Page) (ch : Nat) (fl : Fld) (v : Nat) : (h.setF p ch fl v).sess = h.sess := rfl
@[simp] theorem Hw.setF_svcq (h : Hw) (p : Page) (ch : Nat) (fl : Fld) (v : Nat) : (h.setF p ch fl v).svcq = h.svcq := rfl
@[simp] theorem Hw.setF_txts (h : Hw) (p : Page) (ch : Nat) (fl : Fld) (v : Nat) : (h.setF p ch fl v).txts = h.txts := rfl
@[simp] theorem Hw.setF_mdioRead (h : Hw) (p : Page) (ch : Nat) (fl : Fld) (v : Nat) : (h.setF p ch fl v).mdioRead = h.mdioRead := rfl
@[simp] theorem Hw.setF_mch (h : Hw) (p : Page) (ch : Nat) (fl : Fld) (v : Nat) : (h.setF p ch fl v).mch = h.mch := rfl
@[simp] theorem Hw.setF_mArb (h : Hw) (p : Page) (ch : Nat) (fl : Fld) (v : Nat) : (h.setF p ch fl v).mArb = h.mArb := rfl
@[simp] theorem Hw.setF_resetLow (h : Hw) (p : Page) (ch : Nat) (fl : Fld) (v : Nat) : (h.setF p ch fl v).resetLow = h.resetLow := rfl
@[simp] theorem Hw.setF_porstLow (h : Hw) (p : Page) (ch : Nat) (fl : Fld) (v : Nat) : (h.setF p ch fl v).porstLow = h.porstLow := rfl
@[simp] theorem Hw.setF_bootPins (h : Hw) (p : Page) (ch : Nat) (fl : Fld) (v : Nat) : (h.setF p ch fl v).bootPins = h.bootPins := rfl
@[simp] theorem Hw.setF_crWait (h : Hw) (p : Page) (ch : Nat) (fl : Fld) (v : Nat) : (h.setF p ch fl v).crWait = h.crWait := rfl
@[simp] theorem Hw.setF_monHold (h : Hw) (p : Page) (ch : Nat) (fl : Fld) (v : Nat) : (h.setF p ch fl v).monHold = h.monHold := rfl
@[simp] theorem Hw.setF_rstAt (h : Hw) (p : Page) (ch : Nat) (fl : Fld) (v : Nat) : (h.setF p ch fl v).rstAt = h.rstAt := rfl
@[simp] theorem Hw.setF_bootDue (h : Hw) (p : Page) (ch : Nat) (fl : Fld) (v : Nat) : (h.setF p ch fl v).bootDue = h.bootDue := rfl
@[simp] theorem Hw.setF_tap (h : Hw) (p : Page) (ch : Nat) (fl : Fld) (v : Nat) : (h.setF p ch fl v).tap = h.tap := rfl
@[simp] theorem Hw.setF_scan (h : Hw) (p : Page) (ch : Nat) (fl : Fld) (v : Nat) : (h.setF p ch fl v).scan = h.scan := rfl
@[simp] theorem Hw.setF_dapSticky (h : Hw) (p : Page) (ch : Nat) (fl : Fld) (v : Nat) : (h.setF p ch fl v).dapSticky = h.dapSticky := rfl
@[simp] theorem Hw.setF_out (h : Hw) (p : Page) (ch : Nat) (fl : Fld) (v : Nat) : (h.setF p ch fl v).out = h.out := rfl

/-! ## setB -/

@[simp] theorem Hw.setB_now (h : Hw) (p : Page) (ch : Nat) (fl : Fld) (v : Bool) : (h.setB p ch fl v).now = h.now := rfl
@[simp] theorem Hw.setB_freeNo (h : Hw) (p : Page) (ch : Nat) (fl : Fld) (v : Bool) : (h.setB p ch fl v).freeNo = h.freeNo := rfl
@[simp] theorem Hw.setB_pairs (h : Hw) (p : Page) (ch : Nat) (fl : Fld) (v : Bool) : (h.setB p ch fl v).pairs = h.pairs := rfl
@[simp] theorem Hw.setB_rr (h : Hw) (p : Page) (ch : Nat) (fl : Fld) (v : Bool) : (h.setB p ch fl v).rr = h.rr := rfl
@[simp] theorem Hw.setB_swAt (h : Hw) (p : Page) (ch : Nat) (fl : Fld) (v : Bool) : (h.setB p ch fl v).swAt = h.swAt := rfl
@[simp] theorem Hw.setB_swMem (h : Hw) (p : Page) (ch : Nat) (fl : Fld) (v : Bool) : (h.setB p ch fl v).swMem = h.swMem := rfl
@[simp] theorem Hw.setB_due (h : Hw) (p : Page) (ch : Nat) (fl : Fld) (v : Bool) : (h.setB p ch fl v).due = h.due := rfl
@[simp] theorem Hw.setB_released (h : Hw) (p : Page) (ch : Nat) (fl : Fld) (v : Bool) : (h.setB p ch fl v).released = h.released := rfl
@[simp] theorem Hw.setB_deep (h : Hw) (p : Page) (ch : Nat) (fl : Fld) (v : Bool) : (h.setB p ch fl v).deep = h.deep := rfl
@[simp] theorem Hw.setB_cores (h : Hw) (p : Page) (ch : Nat) (fl : Fld) (v : Bool) : (h.setB p ch fl v).cores = h.cores := rfl
@[simp] theorem Hw.setB_flights (h : Hw) (p : Page) (ch : Nat) (fl : Fld) (v : Bool) : (h.setB p ch fl v).flights = h.flights := rfl
@[simp] theorem Hw.setB_seamIn (h : Hw) (p : Page) (ch : Nat) (fl : Fld) (v : Bool) : (h.setB p ch fl v).seamIn = h.seamIn := rfl
@[simp] theorem Hw.setB_carried (h : Hw) (p : Page) (ch : Nat) (fl : Fld) (v : Bool) : (h.setB p ch fl v).carried = h.carried := rfl
@[simp] theorem Hw.setB_maintQ (h : Hw) (p : Page) (ch : Nat) (fl : Fld) (v : Bool) : (h.setB p ch fl v).maintQ = h.maintQ := rfl
@[simp] theorem Hw.setB_maintRun (h : Hw) (p : Page) (ch : Nat) (fl : Fld) (v : Bool) : (h.setB p ch fl v).maintRun = h.maintRun := rfl
@[simp] theorem Hw.setB_maintAt (h : Hw) (p : Page) (ch : Nat) (fl : Fld) (v : Bool) : (h.setB p ch fl v).maintAt = h.maintAt := rfl
@[simp] theorem Hw.setB_adc (h : Hw) (p : Page) (ch : Nat) (fl : Fld) (v : Bool) : (h.setB p ch fl v).adc = h.adc := rfl
@[simp] theorem Hw.setB_sdf (h : Hw) (p : Page) (ch : Nat) (fl : Fld) (v : Bool) : (h.setB p ch fl v).sdf = h.sdf := rfl
@[simp] theorem Hw.setB_cmp (h : Hw) (p : Page) (ch : Nat) (fl : Fld) (v : Bool) : (h.setB p ch fl v).cmp = h.cmp := rfl
@[simp] theorem Hw.setB_trk (h : Hw) (p : Page) (ch : Nat) (fl : Fld) (v : Bool) : (h.setB p ch fl v).trk = h.trk := rfl
@[simp] theorem Hw.setB_pwmTb (h : Hw) (p : Page) (ch : Nat) (fl : Fld) (v : Bool) : (h.setB p ch fl v).pwmTb = h.pwmTb := rfl
@[simp] theorem Hw.setB_pwmCh (h : Hw) (p : Page) (ch : Nat) (fl : Fld) (v : Bool) : (h.setB p ch fl v).pwmCh = h.pwmCh := rfl
@[simp] theorem Hw.setB_dicStack (h : Hw) (p : Page) (ch : Nat) (fl : Fld) (v : Bool) : (h.setB p ch fl v).dicStack = h.dicStack := rfl
@[simp] theorem Hw.setB_dicLine (h : Hw) (p : Page) (ch : Nat) (fl : Fld) (v : Bool) : (h.setB p ch fl v).dicLine = h.dicLine := rfl
@[simp] theorem Hw.setB_dicLate (h : Hw) (p : Page) (ch : Nat) (fl : Fld) (v : Bool) : (h.setB p ch fl v).dicLate = h.dicLate := rfl
@[simp] theorem Hw.setB_divSaved (h : Hw) (p : Page) (ch : Nat) (fl : Fld) (v : Bool) : (h.setB p ch fl v).divSaved = h.divSaved := rfl
@[simp] theorem Hw.setB_cpySaved (h : Hw) (p : Page) (ch : Nat) (fl : Fld) (v : Bool) : (h.setB p ch fl v).cpySaved = h.cpySaved := rfl
@[simp] theorem Hw.setB_xfpSw (h : Hw) (p : Page) (ch : Nat) (fl : Fld) (v : Bool) : (h.setB p ch fl v).xfpSw = h.xfpSw := rfl
@[simp] theorem Hw.setB_xfpHw (h : Hw) (p : Page) (ch : Nat) (fl : Fld) (v : Bool) : (h.setB p ch fl v).xfpHw = h.xfpHw := rfl
@[simp] theorem Hw.setB_wdtPre (h : Hw) (p : Page) (ch : Nat) (fl : Fld) (v : Bool) : (h.setB p ch fl v).wdtPre = h.wdtPre := rfl
@[simp] theorem Hw.setB_wakeReq (h : Hw) (p : Page) (ch : Nat) (fl : Fld) (v : Bool) : (h.setB p ch fl v).wakeReq = h.wakeReq := rfl
@[simp] theorem Hw.setB_rstCause (h : Hw) (p : Page) (ch : Nat) (fl : Fld) (v : Bool) : (h.setB p ch fl v).rstCause = h.rstCause := rfl
@[simp] theorem Hw.setB_pads (h : Hw) (p : Page) (ch : Nat) (fl : Fld) (v : Bool) : (h.setB p ch fl v).pads = h.pads := rfl
@[simp] theorem Hw.setB_padLast (h : Hw) (p : Page) (ch : Nat) (fl : Fld) (v : Bool) : (h.setB p ch fl v).padLast = h.padLast := rfl
@[simp] theorem Hw.setB_pinSw (h : Hw) (p : Page) (ch : Nat) (fl : Fld) (v : Bool) : (h.setB p ch fl v).pinSw = h.pinSw := rfl
@[simp] theorem Hw.setB_holds (h : Hw) (p : Page) (ch : Nat) (fl : Fld) (v : Bool) : (h.setB p ch fl v).holds = h.holds := rfl
@[simp] theorem Hw.setB_safeNLow (h : Hw) (p : Page) (ch : Nat) (fl : Fld) (v : Bool) : (h.setB p ch fl v).safeNLow = h.safeNLow := rfl
@[simp] theorem Hw.setB_safeNAt (h : Hw) (p : Page) (ch : Nat) (fl : Fld) (v : Bool) : (h.setB p ch fl v).safeNAt = h.safeNAt := rfl
@[simp] theorem Hw.setB_held (h : Hw) (p : Page) (ch : Nat) (fl : Fld) (v : Bool) : (h.setB p ch fl v).held = h.held := rfl
@[simp] theorem Hw.setB_loopRun (h : Hw) (p : Page) (ch : Nat) (fl : Fld) (v : Bool) : (h.setB p ch fl v).loopRun = h.loopRun := rfl
@[simp] theorem Hw.setB_uc (h : Hw) (p : Page) (ch : Nat) (fl : Fld) (v : Bool) : (h.setB p ch fl v).uc = h.uc := rfl
@[simp] theorem Hw.setB_traceQ (h : Hw) (p : Page) (ch : Nat) (fl : Fld) (v : Bool) : (h.setB p ch fl v).traceQ = h.traceQ := rfl
@[simp] theorem Hw.setB_traceAt (h : Hw) (p : Page) (ch : Nat) (fl : Fld) (v : Bool) : (h.setB p ch fl v).traceAt = h.traceAt := rfl
@[simp] theorem Hw.setB_traceLost (h : Hw) (p : Page) (ch : Nat) (fl : Fld) (v : Bool) : (h.setB p ch fl v).traceLost = h.traceLost := rfl
@[simp] theorem Hw.setB_dramBad (h : Hw) (p : Page) (ch : Nat) (fl : Fld) (v : Bool) : (h.setB p ch fl v).dramBad = h.dramBad := rfl
@[simp] theorem Hw.setB_dramWb (h : Hw) (p : Page) (ch : Nat) (fl : Fld) (v : Bool) : (h.setB p ch fl v).dramWb = h.dramWb := rfl
@[simp] theorem Hw.setB_ceCount (h : Hw) (p : Page) (ch : Nat) (fl : Fld) (v : Bool) : (h.setB p ch fl v).ceCount = h.ceCount := rfl
@[simp] theorem Hw.setB_darnerDue (h : Hw) (p : Page) (ch : Nat) (fl : Fld) (v : Bool) : (h.setB p ch fl v).darnerDue = h.darnerDue := rfl
@[simp] theorem Hw.setB_darnerNow (h : Hw) (p : Page) (ch : Nat) (fl : Fld) (v : Bool) : (h.setB p ch fl v).darnerNow = h.darnerNow := rfl
@[simp] theorem Hw.setB_passAt (h : Hw) (p : Page) (ch : Nat) (fl : Fld) (v : Bool) : (h.setB p ch fl v).passAt = h.passAt := rfl
@[simp] theorem Hw.setB_dramQ (h : Hw) (p : Page) (ch : Nat) (fl : Fld) (v : Bool) : (h.setB p ch fl v).dramQ = h.dramQ := rfl
@[simp] theorem Hw.setB_dramPos (h : Hw) (p : Page) (ch : Nat) (fl : Fld) (v : Bool) : (h.setB p ch fl v).dramPos = h.dramPos := rfl
@[simp] theorem Hw.setB_dramRec (h : Hw) (p : Page) (ch : Nat) (fl : Fld) (v : Bool) : (h.setB p ch fl v).dramRec = h.dramRec := rfl
@[simp] theorem Hw.setB_dramBulk (h : Hw) (p : Page) (ch : Nat) (fl : Fld) (v : Bool) : (h.setB p ch fl v).dramBulk = h.dramBulk := rfl
@[simp] theorem Hw.setB_dramTurn (h : Hw) (p : Page) (ch : Nat) (fl : Fld) (v : Bool) : (h.setB p ch fl v).dramTurn = h.dramTurn := rfl
@[simp] theorem Hw.setB_hamper (h : Hw) (p : Page) (ch : Nat) (fl : Fld) (v : Bool) : (h.setB p ch fl v).hamper = h.hamper := rfl
@[simp] theorem Hw.setB_flash (h : Hw) (p : Page) (ch : Nat) (fl : Fld) (v : Bool) : (h.setB p ch fl v).flash = h.flash := rfl
@[simp] theorem Hw.setB_ports (h : Hw) (p : Page) (ch : Nat) (fl : Fld) (v : Bool) : (h.setB p ch fl v).ports = h.ports := rfl
@[simp] theorem Hw.setB_dom (h : Hw) (p : Page) (ch : Nat) (fl : Fld) (v : Bool) : (h.setB p ch fl v).dom = h.dom := rfl
@[simp] theorem Hw.setB_porAt (h : Hw) (p : Page) (ch : Nat) (fl : Fld) (v : Bool) : (h.setB p ch fl v).porAt = h.porAt := rfl
@[simp] theorem Hw.setB_resp (h : Hw) (p : Page) (ch : Nat) (fl : Fld) (v : Bool) : (h.setB p ch fl v).resp = h.resp := rfl
@[simp] theorem Hw.setB_vectors (h : Hw) (p : Page) (ch : Nat) (fl : Fld) (v : Bool) : (h.setB p ch fl v).vectors = h.vectors := rfl
@[simp] theorem Hw.setB_msixEn (h : Hw) (p : Page) (ch : Nat) (fl : Fld) (v : Bool) : (h.setB p ch fl v).msixEn = h.msixEn := rfl
@[simp] theorem Hw.setB_fmask (h : Hw) (p : Page) (ch : Nat) (fl : Fld) (v : Bool) : (h.setB p ch fl v).fmask = h.fmask := rfl
@[simp] theorem Hw.setB_devCtl (h : Hw) (p : Page) (ch : Nat) (fl : Fld) (v : Bool) : (h.setB p ch fl v).devCtl = h.devCtl := rfl
@[simp] theorem Hw.setB_perstLow (h : Hw) (p : Page) (ch : Nat) (fl : Fld) (v : Bool) : (h.setB p ch fl v).perstLow = h.perstLow := rfl
@[simp] theorem Hw.setB_svcAccess (h : Hw) (p : Page) (ch : Nat) (fl : Fld) (v : Bool) : (h.setB p ch fl v).svcAccess = h.svcAccess := rfl
@[simp] theorem Hw.setB_sess (h : Hw) (p : Page) (ch : Nat) (fl : Fld) (v : Bool) : (h.setB p ch fl v).sess = h.sess := rfl
@[simp] theorem Hw.setB_svcq (h : Hw) (p : Page) (ch : Nat) (fl : Fld) (v : Bool) : (h.setB p ch fl v).svcq = h.svcq := rfl
@[simp] theorem Hw.setB_txts (h : Hw) (p : Page) (ch : Nat) (fl : Fld) (v : Bool) : (h.setB p ch fl v).txts = h.txts := rfl
@[simp] theorem Hw.setB_mdioRead (h : Hw) (p : Page) (ch : Nat) (fl : Fld) (v : Bool) : (h.setB p ch fl v).mdioRead = h.mdioRead := rfl
@[simp] theorem Hw.setB_mch (h : Hw) (p : Page) (ch : Nat) (fl : Fld) (v : Bool) : (h.setB p ch fl v).mch = h.mch := rfl
@[simp] theorem Hw.setB_mArb (h : Hw) (p : Page) (ch : Nat) (fl : Fld) (v : Bool) : (h.setB p ch fl v).mArb = h.mArb := rfl
@[simp] theorem Hw.setB_resetLow (h : Hw) (p : Page) (ch : Nat) (fl : Fld) (v : Bool) : (h.setB p ch fl v).resetLow = h.resetLow := rfl
@[simp] theorem Hw.setB_porstLow (h : Hw) (p : Page) (ch : Nat) (fl : Fld) (v : Bool) : (h.setB p ch fl v).porstLow = h.porstLow := rfl
@[simp] theorem Hw.setB_bootPins (h : Hw) (p : Page) (ch : Nat) (fl : Fld) (v : Bool) : (h.setB p ch fl v).bootPins = h.bootPins := rfl
@[simp] theorem Hw.setB_crWait (h : Hw) (p : Page) (ch : Nat) (fl : Fld) (v : Bool) : (h.setB p ch fl v).crWait = h.crWait := rfl
@[simp] theorem Hw.setB_monHold (h : Hw) (p : Page) (ch : Nat) (fl : Fld) (v : Bool) : (h.setB p ch fl v).monHold = h.monHold := rfl
@[simp] theorem Hw.setB_rstAt (h : Hw) (p : Page) (ch : Nat) (fl : Fld) (v : Bool) : (h.setB p ch fl v).rstAt = h.rstAt := rfl
@[simp] theorem Hw.setB_bootDue (h : Hw) (p : Page) (ch : Nat) (fl : Fld) (v : Bool) : (h.setB p ch fl v).bootDue = h.bootDue := rfl
@[simp] theorem Hw.setB_tap (h : Hw) (p : Page) (ch : Nat) (fl : Fld) (v : Bool) : (h.setB p ch fl v).tap = h.tap := rfl
@[simp] theorem Hw.setB_scan (h : Hw) (p : Page) (ch : Nat) (fl : Fld) (v : Bool) : (h.setB p ch fl v).scan = h.scan := rfl
@[simp] theorem Hw.setB_dapSticky (h : Hw) (p : Page) (ch : Nat) (fl : Fld) (v : Bool) : (h.setB p ch fl v).dapSticky = h.dapSticky := rfl
@[simp] theorem Hw.setB_out (h : Hw) (p : Page) (ch : Nat) (fl : Fld) (v : Bool) : (h.setB p ch fl v).out = h.out := rfl

/-! ## fresh -/

@[simp] theorem Hw.fresh_now (h : Hw) : h.fresh.now = h.now := rfl
@[simp] theorem Hw.fresh_regs (h : Hw) : h.fresh.regs = h.regs := rfl
@[simp] theorem Hw.fresh_pairs (h : Hw) : h.fresh.pairs = h.pairs := rfl
@[simp] theorem Hw.fresh_rr (h : Hw) : h.fresh.rr = h.rr := rfl
@[simp] theorem Hw.fresh_swAt (h : Hw) : h.fresh.swAt = h.swAt := rfl
@[simp] theorem Hw.fresh_swMem (h : Hw) : h.fresh.swMem = h.swMem := rfl
@[simp] theorem Hw.fresh_due (h : Hw) : h.fresh.due = h.due := rfl
@[simp] theorem Hw.fresh_released (h : Hw) : h.fresh.released = h.released := rfl
@[simp] theorem Hw.fresh_deep (h : Hw) : h.fresh.deep = h.deep := rfl
@[simp] theorem Hw.fresh_cores (h : Hw) : h.fresh.cores = h.cores := rfl
@[simp] theorem Hw.fresh_flights (h : Hw) : h.fresh.flights = h.flights := rfl
@[simp] theorem Hw.fresh_seamIn (h : Hw) : h.fresh.seamIn = h.seamIn := rfl
@[simp] theorem Hw.fresh_carried (h : Hw) : h.fresh.carried = h.carried := rfl
@[simp] theorem Hw.fresh_maintQ (h : Hw) : h.fresh.maintQ = h.maintQ := rfl
@[simp] theorem Hw.fresh_maintRun (h : Hw) : h.fresh.maintRun = h.maintRun := rfl
@[simp] theorem Hw.fresh_maintAt (h : Hw) : h.fresh.maintAt = h.maintAt := rfl
@[simp] theorem Hw.fresh_adc (h : Hw) : h.fresh.adc = h.adc := rfl
@[simp] theorem Hw.fresh_sdf (h : Hw) : h.fresh.sdf = h.sdf := rfl
@[simp] theorem Hw.fresh_cmp (h : Hw) : h.fresh.cmp = h.cmp := rfl
@[simp] theorem Hw.fresh_trk (h : Hw) : h.fresh.trk = h.trk := rfl
@[simp] theorem Hw.fresh_pwmTb (h : Hw) : h.fresh.pwmTb = h.pwmTb := rfl
@[simp] theorem Hw.fresh_pwmCh (h : Hw) : h.fresh.pwmCh = h.pwmCh := rfl
@[simp] theorem Hw.fresh_dicStack (h : Hw) : h.fresh.dicStack = h.dicStack := rfl
@[simp] theorem Hw.fresh_dicLine (h : Hw) : h.fresh.dicLine = h.dicLine := rfl
@[simp] theorem Hw.fresh_dicLate (h : Hw) : h.fresh.dicLate = h.dicLate := rfl
@[simp] theorem Hw.fresh_divSaved (h : Hw) : h.fresh.divSaved = h.divSaved := rfl
@[simp] theorem Hw.fresh_cpySaved (h : Hw) : h.fresh.cpySaved = h.cpySaved := rfl
@[simp] theorem Hw.fresh_xfpSw (h : Hw) : h.fresh.xfpSw = h.xfpSw := rfl
@[simp] theorem Hw.fresh_xfpHw (h : Hw) : h.fresh.xfpHw = h.xfpHw := rfl
@[simp] theorem Hw.fresh_wdtPre (h : Hw) : h.fresh.wdtPre = h.wdtPre := rfl
@[simp] theorem Hw.fresh_wakeReq (h : Hw) : h.fresh.wakeReq = h.wakeReq := rfl
@[simp] theorem Hw.fresh_rstCause (h : Hw) : h.fresh.rstCause = h.rstCause := rfl
@[simp] theorem Hw.fresh_pads (h : Hw) : h.fresh.pads = h.pads := rfl
@[simp] theorem Hw.fresh_padLast (h : Hw) : h.fresh.padLast = h.padLast := rfl
@[simp] theorem Hw.fresh_pinSw (h : Hw) : h.fresh.pinSw = h.pinSw := rfl
@[simp] theorem Hw.fresh_holds (h : Hw) : h.fresh.holds = h.holds := rfl
@[simp] theorem Hw.fresh_safeNLow (h : Hw) : h.fresh.safeNLow = h.safeNLow := rfl
@[simp] theorem Hw.fresh_safeNAt (h : Hw) : h.fresh.safeNAt = h.safeNAt := rfl
@[simp] theorem Hw.fresh_held (h : Hw) : h.fresh.held = h.held := rfl
@[simp] theorem Hw.fresh_loopRun (h : Hw) : h.fresh.loopRun = h.loopRun := rfl
@[simp] theorem Hw.fresh_uc (h : Hw) : h.fresh.uc = h.uc := rfl
@[simp] theorem Hw.fresh_traceQ (h : Hw) : h.fresh.traceQ = h.traceQ := rfl
@[simp] theorem Hw.fresh_traceAt (h : Hw) : h.fresh.traceAt = h.traceAt := rfl
@[simp] theorem Hw.fresh_traceLost (h : Hw) : h.fresh.traceLost = h.traceLost := rfl
@[simp] theorem Hw.fresh_dramBad (h : Hw) : h.fresh.dramBad = h.dramBad := rfl
@[simp] theorem Hw.fresh_dramWb (h : Hw) : h.fresh.dramWb = h.dramWb := rfl
@[simp] theorem Hw.fresh_ceCount (h : Hw) : h.fresh.ceCount = h.ceCount := rfl
@[simp] theorem Hw.fresh_darnerDue (h : Hw) : h.fresh.darnerDue = h.darnerDue := rfl
@[simp] theorem Hw.fresh_darnerNow (h : Hw) : h.fresh.darnerNow = h.darnerNow := rfl
@[simp] theorem Hw.fresh_passAt (h : Hw) : h.fresh.passAt = h.passAt := rfl
@[simp] theorem Hw.fresh_dramQ (h : Hw) : h.fresh.dramQ = h.dramQ := rfl
@[simp] theorem Hw.fresh_dramPos (h : Hw) : h.fresh.dramPos = h.dramPos := rfl
@[simp] theorem Hw.fresh_dramRec (h : Hw) : h.fresh.dramRec = h.dramRec := rfl
@[simp] theorem Hw.fresh_dramBulk (h : Hw) : h.fresh.dramBulk = h.dramBulk := rfl
@[simp] theorem Hw.fresh_dramTurn (h : Hw) : h.fresh.dramTurn = h.dramTurn := rfl
@[simp] theorem Hw.fresh_hamper (h : Hw) : h.fresh.hamper = h.hamper := rfl
@[simp] theorem Hw.fresh_flash (h : Hw) : h.fresh.flash = h.flash := rfl
@[simp] theorem Hw.fresh_ports (h : Hw) : h.fresh.ports = h.ports := rfl
@[simp] theorem Hw.fresh_dom (h : Hw) : h.fresh.dom = h.dom := rfl
@[simp] theorem Hw.fresh_porAt (h : Hw) : h.fresh.porAt = h.porAt := rfl
@[simp] theorem Hw.fresh_resp (h : Hw) : h.fresh.resp = h.resp := rfl
@[simp] theorem Hw.fresh_vectors (h : Hw) : h.fresh.vectors = h.vectors := rfl
@[simp] theorem Hw.fresh_msixEn (h : Hw) : h.fresh.msixEn = h.msixEn := rfl
@[simp] theorem Hw.fresh_fmask (h : Hw) : h.fresh.fmask = h.fmask := rfl
@[simp] theorem Hw.fresh_devCtl (h : Hw) : h.fresh.devCtl = h.devCtl := rfl
@[simp] theorem Hw.fresh_perstLow (h : Hw) : h.fresh.perstLow = h.perstLow := rfl
@[simp] theorem Hw.fresh_svcAccess (h : Hw) : h.fresh.svcAccess = h.svcAccess := rfl
@[simp] theorem Hw.fresh_sess (h : Hw) : h.fresh.sess = h.sess := rfl
@[simp] theorem Hw.fresh_svcq (h : Hw) : h.fresh.svcq = h.svcq := rfl
@[simp] theorem Hw.fresh_txts (h : Hw) : h.fresh.txts = h.txts := rfl
@[simp] theorem Hw.fresh_mdioRead (h : Hw) : h.fresh.mdioRead = h.mdioRead := rfl
@[simp] theorem Hw.fresh_mch (h : Hw) : h.fresh.mch = h.mch := rfl
@[simp] theorem Hw.fresh_mArb (h : Hw) : h.fresh.mArb = h.mArb := rfl
@[simp] theorem Hw.fresh_resetLow (h : Hw) : h.fresh.resetLow = h.resetLow := rfl
@[simp] theorem Hw.fresh_porstLow (h : Hw) : h.fresh.porstLow = h.porstLow := rfl
@[simp] theorem Hw.fresh_bootPins (h : Hw) : h.fresh.bootPins = h.bootPins := rfl
@[simp] theorem Hw.fresh_crWait (h : Hw) : h.fresh.crWait = h.crWait := rfl
@[simp] theorem Hw.fresh_monHold (h : Hw) : h.fresh.monHold = h.monHold := rfl
@[simp] theorem Hw.fresh_rstAt (h : Hw) : h.fresh.rstAt = h.rstAt := rfl
@[simp] theorem Hw.fresh_bootDue (h : Hw) : h.fresh.bootDue = h.bootDue := rfl
@[simp] theorem Hw.fresh_tap (h : Hw) : h.fresh.tap = h.tap := rfl
@[simp] theorem Hw.fresh_scan (h : Hw) : h.fresh.scan = h.scan := rfl
@[simp] theorem Hw.fresh_dapSticky (h : Hw) : h.fresh.dapSticky = h.dapSticky := rfl
@[simp] theorem Hw.fresh_out (h : Hw) : h.fresh.out = h.out := rfl

/-! ## emit -/

@[simp] theorem Hw.emit_now (h : Hw) (o : Out) : (h.emit o).now = h.now := rfl
@[simp] theorem Hw.emit_freeNo (h : Hw) (o : Out) : (h.emit o).freeNo = h.freeNo := rfl
@[simp] theorem Hw.emit_regs (h : Hw) (o : Out) : (h.emit o).regs = h.regs := rfl
@[simp] theorem Hw.emit_pairs (h : Hw) (o : Out) : (h.emit o).pairs = h.pairs := rfl
@[simp] theorem Hw.emit_rr (h : Hw) (o : Out) : (h.emit o).rr = h.rr := rfl
@[simp] theorem Hw.emit_swAt (h : Hw) (o : Out) : (h.emit o).swAt = h.swAt := rfl
@[simp] theorem Hw.emit_swMem (h : Hw) (o : Out) : (h.emit o).swMem = h.swMem := rfl
@[simp] theorem Hw.emit_due (h : Hw) (o : Out) : (h.emit o).due = h.due := rfl
@[simp] theorem Hw.emit_released (h : Hw) (o : Out) : (h.emit o).released = h.released := rfl
@[simp] theorem Hw.emit_deep (h : Hw) (o : Out) : (h.emit o).deep = h.deep := rfl
@[simp] theorem Hw.emit_cores (h : Hw) (o : Out) : (h.emit o).cores = h.cores := rfl
@[simp] theorem Hw.emit_flights (h : Hw) (o : Out) : (h.emit o).flights = h.flights := rfl
@[simp] theorem Hw.emit_seamIn (h : Hw) (o : Out) : (h.emit o).seamIn = h.seamIn := rfl
@[simp] theorem Hw.emit_carried (h : Hw) (o : Out) : (h.emit o).carried = h.carried := rfl
@[simp] theorem Hw.emit_maintQ (h : Hw) (o : Out) : (h.emit o).maintQ = h.maintQ := rfl
@[simp] theorem Hw.emit_maintRun (h : Hw) (o : Out) : (h.emit o).maintRun = h.maintRun := rfl
@[simp] theorem Hw.emit_maintAt (h : Hw) (o : Out) : (h.emit o).maintAt = h.maintAt := rfl
@[simp] theorem Hw.emit_adc (h : Hw) (o : Out) : (h.emit o).adc = h.adc := rfl
@[simp] theorem Hw.emit_sdf (h : Hw) (o : Out) : (h.emit o).sdf = h.sdf := rfl
@[simp] theorem Hw.emit_cmp (h : Hw) (o : Out) : (h.emit o).cmp = h.cmp := rfl
@[simp] theorem Hw.emit_trk (h : Hw) (o : Out) : (h.emit o).trk = h.trk := rfl
@[simp] theorem Hw.emit_pwmTb (h : Hw) (o : Out) : (h.emit o).pwmTb = h.pwmTb := rfl
@[simp] theorem Hw.emit_pwmCh (h : Hw) (o : Out) : (h.emit o).pwmCh = h.pwmCh := rfl
@[simp] theorem Hw.emit_dicStack (h : Hw) (o : Out) : (h.emit o).dicStack = h.dicStack := rfl
@[simp] theorem Hw.emit_dicLine (h : Hw) (o : Out) : (h.emit o).dicLine = h.dicLine := rfl
@[simp] theorem Hw.emit_dicLate (h : Hw) (o : Out) : (h.emit o).dicLate = h.dicLate := rfl
@[simp] theorem Hw.emit_divSaved (h : Hw) (o : Out) : (h.emit o).divSaved = h.divSaved := rfl
@[simp] theorem Hw.emit_cpySaved (h : Hw) (o : Out) : (h.emit o).cpySaved = h.cpySaved := rfl
@[simp] theorem Hw.emit_xfpSw (h : Hw) (o : Out) : (h.emit o).xfpSw = h.xfpSw := rfl
@[simp] theorem Hw.emit_xfpHw (h : Hw) (o : Out) : (h.emit o).xfpHw = h.xfpHw := rfl
@[simp] theorem Hw.emit_wdtPre (h : Hw) (o : Out) : (h.emit o).wdtPre = h.wdtPre := rfl
@[simp] theorem Hw.emit_wakeReq (h : Hw) (o : Out) : (h.emit o).wakeReq = h.wakeReq := rfl
@[simp] theorem Hw.emit_rstCause (h : Hw) (o : Out) : (h.emit o).rstCause = h.rstCause := rfl
@[simp] theorem Hw.emit_pads (h : Hw) (o : Out) : (h.emit o).pads = h.pads := rfl
@[simp] theorem Hw.emit_padLast (h : Hw) (o : Out) : (h.emit o).padLast = h.padLast := rfl
@[simp] theorem Hw.emit_pinSw (h : Hw) (o : Out) : (h.emit o).pinSw = h.pinSw := rfl
@[simp] theorem Hw.emit_holds (h : Hw) (o : Out) : (h.emit o).holds = h.holds := rfl
@[simp] theorem Hw.emit_safeNLow (h : Hw) (o : Out) : (h.emit o).safeNLow = h.safeNLow := rfl
@[simp] theorem Hw.emit_safeNAt (h : Hw) (o : Out) : (h.emit o).safeNAt = h.safeNAt := rfl
@[simp] theorem Hw.emit_held (h : Hw) (o : Out) : (h.emit o).held = h.held := rfl
@[simp] theorem Hw.emit_loopRun (h : Hw) (o : Out) : (h.emit o).loopRun = h.loopRun := rfl
@[simp] theorem Hw.emit_uc (h : Hw) (o : Out) : (h.emit o).uc = h.uc := rfl
@[simp] theorem Hw.emit_traceQ (h : Hw) (o : Out) : (h.emit o).traceQ = h.traceQ := rfl
@[simp] theorem Hw.emit_traceAt (h : Hw) (o : Out) : (h.emit o).traceAt = h.traceAt := rfl
@[simp] theorem Hw.emit_traceLost (h : Hw) (o : Out) : (h.emit o).traceLost = h.traceLost := rfl
@[simp] theorem Hw.emit_dramBad (h : Hw) (o : Out) : (h.emit o).dramBad = h.dramBad := rfl
@[simp] theorem Hw.emit_dramWb (h : Hw) (o : Out) : (h.emit o).dramWb = h.dramWb := rfl
@[simp] theorem Hw.emit_ceCount (h : Hw) (o : Out) : (h.emit o).ceCount = h.ceCount := rfl
@[simp] theorem Hw.emit_darnerDue (h : Hw) (o : Out) : (h.emit o).darnerDue = h.darnerDue := rfl
@[simp] theorem Hw.emit_darnerNow (h : Hw) (o : Out) : (h.emit o).darnerNow = h.darnerNow := rfl
@[simp] theorem Hw.emit_passAt (h : Hw) (o : Out) : (h.emit o).passAt = h.passAt := rfl
@[simp] theorem Hw.emit_dramQ (h : Hw) (o : Out) : (h.emit o).dramQ = h.dramQ := rfl
@[simp] theorem Hw.emit_dramPos (h : Hw) (o : Out) : (h.emit o).dramPos = h.dramPos := rfl
@[simp] theorem Hw.emit_dramRec (h : Hw) (o : Out) : (h.emit o).dramRec = h.dramRec := rfl
@[simp] theorem Hw.emit_dramBulk (h : Hw) (o : Out) : (h.emit o).dramBulk = h.dramBulk := rfl
@[simp] theorem Hw.emit_dramTurn (h : Hw) (o : Out) : (h.emit o).dramTurn = h.dramTurn := rfl
@[simp] theorem Hw.emit_hamper (h : Hw) (o : Out) : (h.emit o).hamper = h.hamper := rfl
@[simp] theorem Hw.emit_flash (h : Hw) (o : Out) : (h.emit o).flash = h.flash := rfl
@[simp] theorem Hw.emit_ports (h : Hw) (o : Out) : (h.emit o).ports = h.ports := rfl
@[simp] theorem Hw.emit_dom (h : Hw) (o : Out) : (h.emit o).dom = h.dom := rfl
@[simp] theorem Hw.emit_porAt (h : Hw) (o : Out) : (h.emit o).porAt = h.porAt := rfl
@[simp] theorem Hw.emit_resp (h : Hw) (o : Out) : (h.emit o).resp = h.resp := rfl
@[simp] theorem Hw.emit_vectors (h : Hw) (o : Out) : (h.emit o).vectors = h.vectors := rfl
@[simp] theorem Hw.emit_msixEn (h : Hw) (o : Out) : (h.emit o).msixEn = h.msixEn := rfl
@[simp] theorem Hw.emit_fmask (h : Hw) (o : Out) : (h.emit o).fmask = h.fmask := rfl
@[simp] theorem Hw.emit_devCtl (h : Hw) (o : Out) : (h.emit o).devCtl = h.devCtl := rfl
@[simp] theorem Hw.emit_perstLow (h : Hw) (o : Out) : (h.emit o).perstLow = h.perstLow := rfl
@[simp] theorem Hw.emit_svcAccess (h : Hw) (o : Out) : (h.emit o).svcAccess = h.svcAccess := rfl
@[simp] theorem Hw.emit_sess (h : Hw) (o : Out) : (h.emit o).sess = h.sess := rfl
@[simp] theorem Hw.emit_svcq (h : Hw) (o : Out) : (h.emit o).svcq = h.svcq := rfl
@[simp] theorem Hw.emit_txts (h : Hw) (o : Out) : (h.emit o).txts = h.txts := rfl
@[simp] theorem Hw.emit_mdioRead (h : Hw) (o : Out) : (h.emit o).mdioRead = h.mdioRead := rfl
@[simp] theorem Hw.emit_mch (h : Hw) (o : Out) : (h.emit o).mch = h.mch := rfl
@[simp] theorem Hw.emit_mArb (h : Hw) (o : Out) : (h.emit o).mArb = h.mArb := rfl
@[simp] theorem Hw.emit_resetLow (h : Hw) (o : Out) : (h.emit o).resetLow = h.resetLow := rfl
@[simp] theorem Hw.emit_porstLow (h : Hw) (o : Out) : (h.emit o).porstLow = h.porstLow := rfl
@[simp] theorem Hw.emit_bootPins (h : Hw) (o : Out) : (h.emit o).bootPins = h.bootPins := rfl
@[simp] theorem Hw.emit_crWait (h : Hw) (o : Out) : (h.emit o).crWait = h.crWait := rfl
@[simp] theorem Hw.emit_monHold (h : Hw) (o : Out) : (h.emit o).monHold = h.monHold := rfl
@[simp] theorem Hw.emit_rstAt (h : Hw) (o : Out) : (h.emit o).rstAt = h.rstAt := rfl
@[simp] theorem Hw.emit_bootDue (h : Hw) (o : Out) : (h.emit o).bootDue = h.bootDue := rfl
@[simp] theorem Hw.emit_tap (h : Hw) (o : Out) : (h.emit o).tap = h.tap := rfl
@[simp] theorem Hw.emit_scan (h : Hw) (o : Out) : (h.emit o).scan = h.scan := rfl
@[simp] theorem Hw.emit_dapSticky (h : Hw) (o : Out) : (h.emit o).dapSticky = h.dapSticky := rfl

/-! ## setPair -/

@[simp] theorem Hw.setPair_now (h : Hw) (p : Page) (off ch : Nat) (r : Requester) (v : PairBank) : (h.setPair p off ch r v).now = h.now := rfl
@[simp] theorem Hw.setPair_freeNo (h : Hw) (p : Page) (off ch : Nat) (r : Requester) (v : PairBank) : (h.setPair p off ch r v).freeNo = h.freeNo := rfl
@[simp] theorem Hw.setPair_regs (h : Hw) (p : Page) (off ch : Nat) (r : Requester) (v : PairBank) : (h.setPair p off ch r v).regs = h.regs := rfl
@[simp] theorem Hw.setPair_rr (h : Hw) (p : Page) (off ch : Nat) (r : Requester) (v : PairBank) : (h.setPair p off ch r v).rr = h.rr := rfl
@[simp] theorem Hw.setPair_swAt (h : Hw) (p : Page) (off ch : Nat) (r : Requester) (v : PairBank) : (h.setPair p off ch r v).swAt = h.swAt := rfl
@[simp] theorem Hw.setPair_swMem (h : Hw) (p : Page) (off ch : Nat) (r : Requester) (v : PairBank) : (h.setPair p off ch r v).swMem = h.swMem := rfl
@[simp] theorem Hw.setPair_due (h : Hw) (p : Page) (off ch : Nat) (r : Requester) (v : PairBank) : (h.setPair p off ch r v).due = h.due := rfl
@[simp] theorem Hw.setPair_released (h : Hw) (p : Page) (off ch : Nat) (r : Requester) (v : PairBank) : (h.setPair p off ch r v).released = h.released := rfl
@[simp] theorem Hw.setPair_deep (h : Hw) (p : Page) (off ch : Nat) (r : Requester) (v : PairBank) : (h.setPair p off ch r v).deep = h.deep := rfl
@[simp] theorem Hw.setPair_cores (h : Hw) (p : Page) (off ch : Nat) (r : Requester) (v : PairBank) : (h.setPair p off ch r v).cores = h.cores := rfl
@[simp] theorem Hw.setPair_flights (h : Hw) (p : Page) (off ch : Nat) (r : Requester) (v : PairBank) : (h.setPair p off ch r v).flights = h.flights := rfl
@[simp] theorem Hw.setPair_seamIn (h : Hw) (p : Page) (off ch : Nat) (r : Requester) (v : PairBank) : (h.setPair p off ch r v).seamIn = h.seamIn := rfl
@[simp] theorem Hw.setPair_carried (h : Hw) (p : Page) (off ch : Nat) (r : Requester) (v : PairBank) : (h.setPair p off ch r v).carried = h.carried := rfl
@[simp] theorem Hw.setPair_maintQ (h : Hw) (p : Page) (off ch : Nat) (r : Requester) (v : PairBank) : (h.setPair p off ch r v).maintQ = h.maintQ := rfl
@[simp] theorem Hw.setPair_maintRun (h : Hw) (p : Page) (off ch : Nat) (r : Requester) (v : PairBank) : (h.setPair p off ch r v).maintRun = h.maintRun := rfl
@[simp] theorem Hw.setPair_maintAt (h : Hw) (p : Page) (off ch : Nat) (r : Requester) (v : PairBank) : (h.setPair p off ch r v).maintAt = h.maintAt := rfl
@[simp] theorem Hw.setPair_adc (h : Hw) (p : Page) (off ch : Nat) (r : Requester) (v : PairBank) : (h.setPair p off ch r v).adc = h.adc := rfl
@[simp] theorem Hw.setPair_sdf (h : Hw) (p : Page) (off ch : Nat) (r : Requester) (v : PairBank) : (h.setPair p off ch r v).sdf = h.sdf := rfl
@[simp] theorem Hw.setPair_cmp (h : Hw) (p : Page) (off ch : Nat) (r : Requester) (v : PairBank) : (h.setPair p off ch r v).cmp = h.cmp := rfl
@[simp] theorem Hw.setPair_trk (h : Hw) (p : Page) (off ch : Nat) (r : Requester) (v : PairBank) : (h.setPair p off ch r v).trk = h.trk := rfl
@[simp] theorem Hw.setPair_pwmTb (h : Hw) (p : Page) (off ch : Nat) (r : Requester) (v : PairBank) : (h.setPair p off ch r v).pwmTb = h.pwmTb := rfl
@[simp] theorem Hw.setPair_pwmCh (h : Hw) (p : Page) (off ch : Nat) (r : Requester) (v : PairBank) : (h.setPair p off ch r v).pwmCh = h.pwmCh := rfl
@[simp] theorem Hw.setPair_dicStack (h : Hw) (p : Page) (off ch : Nat) (r : Requester) (v : PairBank) : (h.setPair p off ch r v).dicStack = h.dicStack := rfl
@[simp] theorem Hw.setPair_dicLine (h : Hw) (p : Page) (off ch : Nat) (r : Requester) (v : PairBank) : (h.setPair p off ch r v).dicLine = h.dicLine := rfl
@[simp] theorem Hw.setPair_dicLate (h : Hw) (p : Page) (off ch : Nat) (r : Requester) (v : PairBank) : (h.setPair p off ch r v).dicLate = h.dicLate := rfl
@[simp] theorem Hw.setPair_divSaved (h : Hw) (p : Page) (off ch : Nat) (r : Requester) (v : PairBank) : (h.setPair p off ch r v).divSaved = h.divSaved := rfl
@[simp] theorem Hw.setPair_cpySaved (h : Hw) (p : Page) (off ch : Nat) (r : Requester) (v : PairBank) : (h.setPair p off ch r v).cpySaved = h.cpySaved := rfl
@[simp] theorem Hw.setPair_xfpSw (h : Hw) (p : Page) (off ch : Nat) (r : Requester) (v : PairBank) : (h.setPair p off ch r v).xfpSw = h.xfpSw := rfl
@[simp] theorem Hw.setPair_xfpHw (h : Hw) (p : Page) (off ch : Nat) (r : Requester) (v : PairBank) : (h.setPair p off ch r v).xfpHw = h.xfpHw := rfl
@[simp] theorem Hw.setPair_wdtPre (h : Hw) (p : Page) (off ch : Nat) (r : Requester) (v : PairBank) : (h.setPair p off ch r v).wdtPre = h.wdtPre := rfl
@[simp] theorem Hw.setPair_wakeReq (h : Hw) (p : Page) (off ch : Nat) (r : Requester) (v : PairBank) : (h.setPair p off ch r v).wakeReq = h.wakeReq := rfl
@[simp] theorem Hw.setPair_rstCause (h : Hw) (p : Page) (off ch : Nat) (r : Requester) (v : PairBank) : (h.setPair p off ch r v).rstCause = h.rstCause := rfl
@[simp] theorem Hw.setPair_pads (h : Hw) (p : Page) (off ch : Nat) (r : Requester) (v : PairBank) : (h.setPair p off ch r v).pads = h.pads := rfl
@[simp] theorem Hw.setPair_padLast (h : Hw) (p : Page) (off ch : Nat) (r : Requester) (v : PairBank) : (h.setPair p off ch r v).padLast = h.padLast := rfl
@[simp] theorem Hw.setPair_pinSw (h : Hw) (p : Page) (off ch : Nat) (r : Requester) (v : PairBank) : (h.setPair p off ch r v).pinSw = h.pinSw := rfl
@[simp] theorem Hw.setPair_holds (h : Hw) (p : Page) (off ch : Nat) (r : Requester) (v : PairBank) : (h.setPair p off ch r v).holds = h.holds := rfl
@[simp] theorem Hw.setPair_safeNLow (h : Hw) (p : Page) (off ch : Nat) (r : Requester) (v : PairBank) : (h.setPair p off ch r v).safeNLow = h.safeNLow := rfl
@[simp] theorem Hw.setPair_safeNAt (h : Hw) (p : Page) (off ch : Nat) (r : Requester) (v : PairBank) : (h.setPair p off ch r v).safeNAt = h.safeNAt := rfl
@[simp] theorem Hw.setPair_held (h : Hw) (p : Page) (off ch : Nat) (r : Requester) (v : PairBank) : (h.setPair p off ch r v).held = h.held := rfl
@[simp] theorem Hw.setPair_loopRun (h : Hw) (p : Page) (off ch : Nat) (r : Requester) (v : PairBank) : (h.setPair p off ch r v).loopRun = h.loopRun := rfl
@[simp] theorem Hw.setPair_uc (h : Hw) (p : Page) (off ch : Nat) (r : Requester) (v : PairBank) : (h.setPair p off ch r v).uc = h.uc := rfl
@[simp] theorem Hw.setPair_traceQ (h : Hw) (p : Page) (off ch : Nat) (r : Requester) (v : PairBank) : (h.setPair p off ch r v).traceQ = h.traceQ := rfl
@[simp] theorem Hw.setPair_traceAt (h : Hw) (p : Page) (off ch : Nat) (r : Requester) (v : PairBank) : (h.setPair p off ch r v).traceAt = h.traceAt := rfl
@[simp] theorem Hw.setPair_traceLost (h : Hw) (p : Page) (off ch : Nat) (r : Requester) (v : PairBank) : (h.setPair p off ch r v).traceLost = h.traceLost := rfl
@[simp] theorem Hw.setPair_dramBad (h : Hw) (p : Page) (off ch : Nat) (r : Requester) (v : PairBank) : (h.setPair p off ch r v).dramBad = h.dramBad := rfl
@[simp] theorem Hw.setPair_dramWb (h : Hw) (p : Page) (off ch : Nat) (r : Requester) (v : PairBank) : (h.setPair p off ch r v).dramWb = h.dramWb := rfl
@[simp] theorem Hw.setPair_ceCount (h : Hw) (p : Page) (off ch : Nat) (r : Requester) (v : PairBank) : (h.setPair p off ch r v).ceCount = h.ceCount := rfl
@[simp] theorem Hw.setPair_darnerDue (h : Hw) (p : Page) (off ch : Nat) (r : Requester) (v : PairBank) : (h.setPair p off ch r v).darnerDue = h.darnerDue := rfl
@[simp] theorem Hw.setPair_darnerNow (h : Hw) (p : Page) (off ch : Nat) (r : Requester) (v : PairBank) : (h.setPair p off ch r v).darnerNow = h.darnerNow := rfl
@[simp] theorem Hw.setPair_passAt (h : Hw) (p : Page) (off ch : Nat) (r : Requester) (v : PairBank) : (h.setPair p off ch r v).passAt = h.passAt := rfl
@[simp] theorem Hw.setPair_dramQ (h : Hw) (p : Page) (off ch : Nat) (r : Requester) (v : PairBank) : (h.setPair p off ch r v).dramQ = h.dramQ := rfl
@[simp] theorem Hw.setPair_dramPos (h : Hw) (p : Page) (off ch : Nat) (r : Requester) (v : PairBank) : (h.setPair p off ch r v).dramPos = h.dramPos := rfl
@[simp] theorem Hw.setPair_dramRec (h : Hw) (p : Page) (off ch : Nat) (r : Requester) (v : PairBank) : (h.setPair p off ch r v).dramRec = h.dramRec := rfl
@[simp] theorem Hw.setPair_dramBulk (h : Hw) (p : Page) (off ch : Nat) (r : Requester) (v : PairBank) : (h.setPair p off ch r v).dramBulk = h.dramBulk := rfl
@[simp] theorem Hw.setPair_dramTurn (h : Hw) (p : Page) (off ch : Nat) (r : Requester) (v : PairBank) : (h.setPair p off ch r v).dramTurn = h.dramTurn := rfl
@[simp] theorem Hw.setPair_hamper (h : Hw) (p : Page) (off ch : Nat) (r : Requester) (v : PairBank) : (h.setPair p off ch r v).hamper = h.hamper := rfl
@[simp] theorem Hw.setPair_flash (h : Hw) (p : Page) (off ch : Nat) (r : Requester) (v : PairBank) : (h.setPair p off ch r v).flash = h.flash := rfl
@[simp] theorem Hw.setPair_ports (h : Hw) (p : Page) (off ch : Nat) (r : Requester) (v : PairBank) : (h.setPair p off ch r v).ports = h.ports := rfl
@[simp] theorem Hw.setPair_dom (h : Hw) (p : Page) (off ch : Nat) (r : Requester) (v : PairBank) : (h.setPair p off ch r v).dom = h.dom := rfl
@[simp] theorem Hw.setPair_porAt (h : Hw) (p : Page) (off ch : Nat) (r : Requester) (v : PairBank) : (h.setPair p off ch r v).porAt = h.porAt := rfl
@[simp] theorem Hw.setPair_resp (h : Hw) (p : Page) (off ch : Nat) (r : Requester) (v : PairBank) : (h.setPair p off ch r v).resp = h.resp := rfl
@[simp] theorem Hw.setPair_vectors (h : Hw) (p : Page) (off ch : Nat) (r : Requester) (v : PairBank) : (h.setPair p off ch r v).vectors = h.vectors := rfl
@[simp] theorem Hw.setPair_msixEn (h : Hw) (p : Page) (off ch : Nat) (r : Requester) (v : PairBank) : (h.setPair p off ch r v).msixEn = h.msixEn := rfl
@[simp] theorem Hw.setPair_fmask (h : Hw) (p : Page) (off ch : Nat) (r : Requester) (v : PairBank) : (h.setPair p off ch r v).fmask = h.fmask := rfl
@[simp] theorem Hw.setPair_devCtl (h : Hw) (p : Page) (off ch : Nat) (r : Requester) (v : PairBank) : (h.setPair p off ch r v).devCtl = h.devCtl := rfl
@[simp] theorem Hw.setPair_perstLow (h : Hw) (p : Page) (off ch : Nat) (r : Requester) (v : PairBank) : (h.setPair p off ch r v).perstLow = h.perstLow := rfl
@[simp] theorem Hw.setPair_svcAccess (h : Hw) (p : Page) (off ch : Nat) (r : Requester) (v : PairBank) : (h.setPair p off ch r v).svcAccess = h.svcAccess := rfl
@[simp] theorem Hw.setPair_sess (h : Hw) (p : Page) (off ch : Nat) (r : Requester) (v : PairBank) : (h.setPair p off ch r v).sess = h.sess := rfl
@[simp] theorem Hw.setPair_svcq (h : Hw) (p : Page) (off ch : Nat) (r : Requester) (v : PairBank) : (h.setPair p off ch r v).svcq = h.svcq := rfl
@[simp] theorem Hw.setPair_txts (h : Hw) (p : Page) (off ch : Nat) (r : Requester) (v : PairBank) : (h.setPair p off ch r v).txts = h.txts := rfl
@[simp] theorem Hw.setPair_mdioRead (h : Hw) (p : Page) (off ch : Nat) (r : Requester) (v : PairBank) : (h.setPair p off ch r v).mdioRead = h.mdioRead := rfl
@[simp] theorem Hw.setPair_mch (h : Hw) (p : Page) (off ch : Nat) (r : Requester) (v : PairBank) : (h.setPair p off ch r v).mch = h.mch := rfl
@[simp] theorem Hw.setPair_mArb (h : Hw) (p : Page) (off ch : Nat) (r : Requester) (v : PairBank) : (h.setPair p off ch r v).mArb = h.mArb := rfl
@[simp] theorem Hw.setPair_resetLow (h : Hw) (p : Page) (off ch : Nat) (r : Requester) (v : PairBank) : (h.setPair p off ch r v).resetLow = h.resetLow := rfl
@[simp] theorem Hw.setPair_porstLow (h : Hw) (p : Page) (off ch : Nat) (r : Requester) (v : PairBank) : (h.setPair p off ch r v).porstLow = h.porstLow := rfl
@[simp] theorem Hw.setPair_bootPins (h : Hw) (p : Page) (off ch : Nat) (r : Requester) (v : PairBank) : (h.setPair p off ch r v).bootPins = h.bootPins := rfl
@[simp] theorem Hw.setPair_crWait (h : Hw) (p : Page) (off ch : Nat) (r : Requester) (v : PairBank) : (h.setPair p off ch r v).crWait = h.crWait := rfl
@[simp] theorem Hw.setPair_monHold (h : Hw) (p : Page) (off ch : Nat) (r : Requester) (v : PairBank) : (h.setPair p off ch r v).monHold = h.monHold := rfl
@[simp] theorem Hw.setPair_rstAt (h : Hw) (p : Page) (off ch : Nat) (r : Requester) (v : PairBank) : (h.setPair p off ch r v).rstAt = h.rstAt := rfl
@[simp] theorem Hw.setPair_bootDue (h : Hw) (p : Page) (off ch : Nat) (r : Requester) (v : PairBank) : (h.setPair p off ch r v).bootDue = h.bootDue := rfl
@[simp] theorem Hw.setPair_tap (h : Hw) (p : Page) (off ch : Nat) (r : Requester) (v : PairBank) : (h.setPair p off ch r v).tap = h.tap := rfl
@[simp] theorem Hw.setPair_scan (h : Hw) (p : Page) (off ch : Nat) (r : Requester) (v : PairBank) : (h.setPair p off ch r v).scan = h.scan := rfl
@[simp] theorem Hw.setPair_dapSticky (h : Hw) (p : Page) (off ch : Nat) (r : Requester) (v : PairBank) : (h.setPair p off ch r v).dapSticky = h.dapSticky := rfl
@[simp] theorem Hw.setPair_out (h : Hw) (p : Page) (off ch : Nat) (r : Requester) (v : PairBank) : (h.setPair p off ch r v).out = h.out := rfl

/-! ## setCore -/

@[simp] theorem Hw.setCore_now (h : Hw) (k : Nat) (v : CoreSt) : (h.setCore k v).now = h.now := rfl
@[simp] theorem Hw.setCore_freeNo (h : Hw) (k : Nat) (v : CoreSt) : (h.setCore k v).freeNo = h.freeNo := rfl
@[simp] theorem Hw.setCore_regs (h : Hw) (k : Nat) (v : CoreSt) : (h.setCore k v).regs = h.regs := rfl
@[simp] theorem Hw.setCore_pairs (h : Hw) (k : Nat) (v : CoreSt) : (h.setCore k v).pairs = h.pairs := rfl
@[simp] theorem Hw.setCore_rr (h : Hw) (k : Nat) (v : CoreSt) : (h.setCore k v).rr = h.rr := rfl
@[simp] theorem Hw.setCore_swAt (h : Hw) (k : Nat) (v : CoreSt) : (h.setCore k v).swAt = h.swAt := rfl
@[simp] theorem Hw.setCore_swMem (h : Hw) (k : Nat) (v : CoreSt) : (h.setCore k v).swMem = h.swMem := rfl
@[simp] theorem Hw.setCore_due (h : Hw) (k : Nat) (v : CoreSt) : (h.setCore k v).due = h.due := rfl
@[simp] theorem Hw.setCore_released (h : Hw) (k : Nat) (v : CoreSt) : (h.setCore k v).released = h.released := rfl
@[simp] theorem Hw.setCore_deep (h : Hw) (k : Nat) (v : CoreSt) : (h.setCore k v).deep = h.deep := rfl
@[simp] theorem Hw.setCore_flights (h : Hw) (k : Nat) (v : CoreSt) : (h.setCore k v).flights = h.flights := rfl
@[simp] theorem Hw.setCore_seamIn (h : Hw) (k : Nat) (v : CoreSt) : (h.setCore k v).seamIn = h.seamIn := rfl
@[simp] theorem Hw.setCore_carried (h : Hw) (k : Nat) (v : CoreSt) : (h.setCore k v).carried = h.carried := rfl
@[simp] theorem Hw.setCore_maintQ (h : Hw) (k : Nat) (v : CoreSt) : (h.setCore k v).maintQ = h.maintQ := rfl
@[simp] theorem Hw.setCore_maintRun (h : Hw) (k : Nat) (v : CoreSt) : (h.setCore k v).maintRun = h.maintRun := rfl
@[simp] theorem Hw.setCore_maintAt (h : Hw) (k : Nat) (v : CoreSt) : (h.setCore k v).maintAt = h.maintAt := rfl
@[simp] theorem Hw.setCore_adc (h : Hw) (k : Nat) (v : CoreSt) : (h.setCore k v).adc = h.adc := rfl
@[simp] theorem Hw.setCore_sdf (h : Hw) (k : Nat) (v : CoreSt) : (h.setCore k v).sdf = h.sdf := rfl
@[simp] theorem Hw.setCore_cmp (h : Hw) (k : Nat) (v : CoreSt) : (h.setCore k v).cmp = h.cmp := rfl
@[simp] theorem Hw.setCore_trk (h : Hw) (k : Nat) (v : CoreSt) : (h.setCore k v).trk = h.trk := rfl
@[simp] theorem Hw.setCore_pwmTb (h : Hw) (k : Nat) (v : CoreSt) : (h.setCore k v).pwmTb = h.pwmTb := rfl
@[simp] theorem Hw.setCore_pwmCh (h : Hw) (k : Nat) (v : CoreSt) : (h.setCore k v).pwmCh = h.pwmCh := rfl
@[simp] theorem Hw.setCore_dicStack (h : Hw) (k : Nat) (v : CoreSt) : (h.setCore k v).dicStack = h.dicStack := rfl
@[simp] theorem Hw.setCore_dicLine (h : Hw) (k : Nat) (v : CoreSt) : (h.setCore k v).dicLine = h.dicLine := rfl
@[simp] theorem Hw.setCore_dicLate (h : Hw) (k : Nat) (v : CoreSt) : (h.setCore k v).dicLate = h.dicLate := rfl
@[simp] theorem Hw.setCore_divSaved (h : Hw) (k : Nat) (v : CoreSt) : (h.setCore k v).divSaved = h.divSaved := rfl
@[simp] theorem Hw.setCore_cpySaved (h : Hw) (k : Nat) (v : CoreSt) : (h.setCore k v).cpySaved = h.cpySaved := rfl
@[simp] theorem Hw.setCore_xfpSw (h : Hw) (k : Nat) (v : CoreSt) : (h.setCore k v).xfpSw = h.xfpSw := rfl
@[simp] theorem Hw.setCore_xfpHw (h : Hw) (k : Nat) (v : CoreSt) : (h.setCore k v).xfpHw = h.xfpHw := rfl
@[simp] theorem Hw.setCore_wdtPre (h : Hw) (k : Nat) (v : CoreSt) : (h.setCore k v).wdtPre = h.wdtPre := rfl
@[simp] theorem Hw.setCore_wakeReq (h : Hw) (k : Nat) (v : CoreSt) : (h.setCore k v).wakeReq = h.wakeReq := rfl
@[simp] theorem Hw.setCore_rstCause (h : Hw) (k : Nat) (v : CoreSt) : (h.setCore k v).rstCause = h.rstCause := rfl
@[simp] theorem Hw.setCore_pads (h : Hw) (k : Nat) (v : CoreSt) : (h.setCore k v).pads = h.pads := rfl
@[simp] theorem Hw.setCore_padLast (h : Hw) (k : Nat) (v : CoreSt) : (h.setCore k v).padLast = h.padLast := rfl
@[simp] theorem Hw.setCore_pinSw (h : Hw) (k : Nat) (v : CoreSt) : (h.setCore k v).pinSw = h.pinSw := rfl
@[simp] theorem Hw.setCore_holds (h : Hw) (k : Nat) (v : CoreSt) : (h.setCore k v).holds = h.holds := rfl
@[simp] theorem Hw.setCore_safeNLow (h : Hw) (k : Nat) (v : CoreSt) : (h.setCore k v).safeNLow = h.safeNLow := rfl
@[simp] theorem Hw.setCore_safeNAt (h : Hw) (k : Nat) (v : CoreSt) : (h.setCore k v).safeNAt = h.safeNAt := rfl
@[simp] theorem Hw.setCore_held (h : Hw) (k : Nat) (v : CoreSt) : (h.setCore k v).held = h.held := rfl
@[simp] theorem Hw.setCore_loopRun (h : Hw) (k : Nat) (v : CoreSt) : (h.setCore k v).loopRun = h.loopRun := rfl
@[simp] theorem Hw.setCore_uc (h : Hw) (k : Nat) (v : CoreSt) : (h.setCore k v).uc = h.uc := rfl
@[simp] theorem Hw.setCore_traceQ (h : Hw) (k : Nat) (v : CoreSt) : (h.setCore k v).traceQ = h.traceQ := rfl
@[simp] theorem Hw.setCore_traceAt (h : Hw) (k : Nat) (v : CoreSt) : (h.setCore k v).traceAt = h.traceAt := rfl
@[simp] theorem Hw.setCore_traceLost (h : Hw) (k : Nat) (v : CoreSt) : (h.setCore k v).traceLost = h.traceLost := rfl
@[simp] theorem Hw.setCore_dramBad (h : Hw) (k : Nat) (v : CoreSt) : (h.setCore k v).dramBad = h.dramBad := rfl
@[simp] theorem Hw.setCore_dramWb (h : Hw) (k : Nat) (v : CoreSt) : (h.setCore k v).dramWb = h.dramWb := rfl
@[simp] theorem Hw.setCore_ceCount (h : Hw) (k : Nat) (v : CoreSt) : (h.setCore k v).ceCount = h.ceCount := rfl
@[simp] theorem Hw.setCore_darnerDue (h : Hw) (k : Nat) (v : CoreSt) : (h.setCore k v).darnerDue = h.darnerDue := rfl
@[simp] theorem Hw.setCore_darnerNow (h : Hw) (k : Nat) (v : CoreSt) : (h.setCore k v).darnerNow = h.darnerNow := rfl
@[simp] theorem Hw.setCore_passAt (h : Hw) (k : Nat) (v : CoreSt) : (h.setCore k v).passAt = h.passAt := rfl
@[simp] theorem Hw.setCore_dramQ (h : Hw) (k : Nat) (v : CoreSt) : (h.setCore k v).dramQ = h.dramQ := rfl
@[simp] theorem Hw.setCore_dramPos (h : Hw) (k : Nat) (v : CoreSt) : (h.setCore k v).dramPos = h.dramPos := rfl
@[simp] theorem Hw.setCore_dramRec (h : Hw) (k : Nat) (v : CoreSt) : (h.setCore k v).dramRec = h.dramRec := rfl
@[simp] theorem Hw.setCore_dramBulk (h : Hw) (k : Nat) (v : CoreSt) : (h.setCore k v).dramBulk = h.dramBulk := rfl
@[simp] theorem Hw.setCore_dramTurn (h : Hw) (k : Nat) (v : CoreSt) : (h.setCore k v).dramTurn = h.dramTurn := rfl
@[simp] theorem Hw.setCore_hamper (h : Hw) (k : Nat) (v : CoreSt) : (h.setCore k v).hamper = h.hamper := rfl
@[simp] theorem Hw.setCore_flash (h : Hw) (k : Nat) (v : CoreSt) : (h.setCore k v).flash = h.flash := rfl
@[simp] theorem Hw.setCore_ports (h : Hw) (k : Nat) (v : CoreSt) : (h.setCore k v).ports = h.ports := rfl
@[simp] theorem Hw.setCore_dom (h : Hw) (k : Nat) (v : CoreSt) : (h.setCore k v).dom = h.dom := rfl
@[simp] theorem Hw.setCore_porAt (h : Hw) (k : Nat) (v : CoreSt) : (h.setCore k v).porAt = h.porAt := rfl
@[simp] theorem Hw.setCore_resp (h : Hw) (k : Nat) (v : CoreSt) : (h.setCore k v).resp = h.resp := rfl
@[simp] theorem Hw.setCore_vectors (h : Hw) (k : Nat) (v : CoreSt) : (h.setCore k v).vectors = h.vectors := rfl
@[simp] theorem Hw.setCore_msixEn (h : Hw) (k : Nat) (v : CoreSt) : (h.setCore k v).msixEn = h.msixEn := rfl
@[simp] theorem Hw.setCore_fmask (h : Hw) (k : Nat) (v : CoreSt) : (h.setCore k v).fmask = h.fmask := rfl
@[simp] theorem Hw.setCore_devCtl (h : Hw) (k : Nat) (v : CoreSt) : (h.setCore k v).devCtl = h.devCtl := rfl
@[simp] theorem Hw.setCore_perstLow (h : Hw) (k : Nat) (v : CoreSt) : (h.setCore k v).perstLow = h.perstLow := rfl
@[simp] theorem Hw.setCore_svcAccess (h : Hw) (k : Nat) (v : CoreSt) : (h.setCore k v).svcAccess = h.svcAccess := rfl
@[simp] theorem Hw.setCore_sess (h : Hw) (k : Nat) (v : CoreSt) : (h.setCore k v).sess = h.sess := rfl
@[simp] theorem Hw.setCore_svcq (h : Hw) (k : Nat) (v : CoreSt) : (h.setCore k v).svcq = h.svcq := rfl
@[simp] theorem Hw.setCore_txts (h : Hw) (k : Nat) (v : CoreSt) : (h.setCore k v).txts = h.txts := rfl
@[simp] theorem Hw.setCore_mdioRead (h : Hw) (k : Nat) (v : CoreSt) : (h.setCore k v).mdioRead = h.mdioRead := rfl
@[simp] theorem Hw.setCore_mch (h : Hw) (k : Nat) (v : CoreSt) : (h.setCore k v).mch = h.mch := rfl
@[simp] theorem Hw.setCore_mArb (h : Hw) (k : Nat) (v : CoreSt) : (h.setCore k v).mArb = h.mArb := rfl
@[simp] theorem Hw.setCore_resetLow (h : Hw) (k : Nat) (v : CoreSt) : (h.setCore k v).resetLow = h.resetLow := rfl
@[simp] theorem Hw.setCore_porstLow (h : Hw) (k : Nat) (v : CoreSt) : (h.setCore k v).porstLow = h.porstLow := rfl
@[simp] theorem Hw.setCore_bootPins (h : Hw) (k : Nat) (v : CoreSt) : (h.setCore k v).bootPins = h.bootPins := rfl
@[simp] theorem Hw.setCore_crWait (h : Hw) (k : Nat) (v : CoreSt) : (h.setCore k v).crWait = h.crWait := rfl
@[simp] theorem Hw.setCore_monHold (h : Hw) (k : Nat) (v : CoreSt) : (h.setCore k v).monHold = h.monHold := rfl
@[simp] theorem Hw.setCore_rstAt (h : Hw) (k : Nat) (v : CoreSt) : (h.setCore k v).rstAt = h.rstAt := rfl
@[simp] theorem Hw.setCore_bootDue (h : Hw) (k : Nat) (v : CoreSt) : (h.setCore k v).bootDue = h.bootDue := rfl
@[simp] theorem Hw.setCore_tap (h : Hw) (k : Nat) (v : CoreSt) : (h.setCore k v).tap = h.tap := rfl
@[simp] theorem Hw.setCore_scan (h : Hw) (k : Nat) (v : CoreSt) : (h.setCore k v).scan = h.scan := rfl
@[simp] theorem Hw.setCore_dapSticky (h : Hw) (k : Nat) (v : CoreSt) : (h.setCore k v).dapSticky = h.dapSticky := rfl
@[simp] theorem Hw.setCore_out (h : Hw) (k : Nat) (v : CoreSt) : (h.setCore k v).out = h.out := rfl

/-! ## setAdc -/

@[simp] theorem Hw.setAdc_now (h : Hw) (c : Nat) (v : AdcSt) : (h.setAdc c v).now = h.now := rfl
@[simp] theorem Hw.setAdc_freeNo (h : Hw) (c : Nat) (v : AdcSt) : (h.setAdc c v).freeNo = h.freeNo := rfl
@[simp] theorem Hw.setAdc_regs (h : Hw) (c : Nat) (v : AdcSt) : (h.setAdc c v).regs = h.regs := rfl
@[simp] theorem Hw.setAdc_pairs (h : Hw) (c : Nat) (v : AdcSt) : (h.setAdc c v).pairs = h.pairs := rfl
@[simp] theorem Hw.setAdc_rr (h : Hw) (c : Nat) (v : AdcSt) : (h.setAdc c v).rr = h.rr := rfl
@[simp] theorem Hw.setAdc_swAt (h : Hw) (c : Nat) (v : AdcSt) : (h.setAdc c v).swAt = h.swAt := rfl
@[simp] theorem Hw.setAdc_swMem (h : Hw) (c : Nat) (v : AdcSt) : (h.setAdc c v).swMem = h.swMem := rfl
@[simp] theorem Hw.setAdc_due (h : Hw) (c : Nat) (v : AdcSt) : (h.setAdc c v).due = h.due := rfl
@[simp] theorem Hw.setAdc_released (h : Hw) (c : Nat) (v : AdcSt) : (h.setAdc c v).released = h.released := rfl
@[simp] theorem Hw.setAdc_deep (h : Hw) (c : Nat) (v : AdcSt) : (h.setAdc c v).deep = h.deep := rfl
@[simp] theorem Hw.setAdc_cores (h : Hw) (c : Nat) (v : AdcSt) : (h.setAdc c v).cores = h.cores := rfl
@[simp] theorem Hw.setAdc_flights (h : Hw) (c : Nat) (v : AdcSt) : (h.setAdc c v).flights = h.flights := rfl
@[simp] theorem Hw.setAdc_seamIn (h : Hw) (c : Nat) (v : AdcSt) : (h.setAdc c v).seamIn = h.seamIn := rfl
@[simp] theorem Hw.setAdc_carried (h : Hw) (c : Nat) (v : AdcSt) : (h.setAdc c v).carried = h.carried := rfl
@[simp] theorem Hw.setAdc_maintQ (h : Hw) (c : Nat) (v : AdcSt) : (h.setAdc c v).maintQ = h.maintQ := rfl
@[simp] theorem Hw.setAdc_maintRun (h : Hw) (c : Nat) (v : AdcSt) : (h.setAdc c v).maintRun = h.maintRun := rfl
@[simp] theorem Hw.setAdc_maintAt (h : Hw) (c : Nat) (v : AdcSt) : (h.setAdc c v).maintAt = h.maintAt := rfl
@[simp] theorem Hw.setAdc_sdf (h : Hw) (c : Nat) (v : AdcSt) : (h.setAdc c v).sdf = h.sdf := rfl
@[simp] theorem Hw.setAdc_cmp (h : Hw) (c : Nat) (v : AdcSt) : (h.setAdc c v).cmp = h.cmp := rfl
@[simp] theorem Hw.setAdc_trk (h : Hw) (c : Nat) (v : AdcSt) : (h.setAdc c v).trk = h.trk := rfl
@[simp] theorem Hw.setAdc_pwmTb (h : Hw) (c : Nat) (v : AdcSt) : (h.setAdc c v).pwmTb = h.pwmTb := rfl
@[simp] theorem Hw.setAdc_pwmCh (h : Hw) (c : Nat) (v : AdcSt) : (h.setAdc c v).pwmCh = h.pwmCh := rfl
@[simp] theorem Hw.setAdc_dicStack (h : Hw) (c : Nat) (v : AdcSt) : (h.setAdc c v).dicStack = h.dicStack := rfl
@[simp] theorem Hw.setAdc_dicLine (h : Hw) (c : Nat) (v : AdcSt) : (h.setAdc c v).dicLine = h.dicLine := rfl
@[simp] theorem Hw.setAdc_dicLate (h : Hw) (c : Nat) (v : AdcSt) : (h.setAdc c v).dicLate = h.dicLate := rfl
@[simp] theorem Hw.setAdc_divSaved (h : Hw) (c : Nat) (v : AdcSt) : (h.setAdc c v).divSaved = h.divSaved := rfl
@[simp] theorem Hw.setAdc_cpySaved (h : Hw) (c : Nat) (v : AdcSt) : (h.setAdc c v).cpySaved = h.cpySaved := rfl
@[simp] theorem Hw.setAdc_xfpSw (h : Hw) (c : Nat) (v : AdcSt) : (h.setAdc c v).xfpSw = h.xfpSw := rfl
@[simp] theorem Hw.setAdc_xfpHw (h : Hw) (c : Nat) (v : AdcSt) : (h.setAdc c v).xfpHw = h.xfpHw := rfl
@[simp] theorem Hw.setAdc_wdtPre (h : Hw) (c : Nat) (v : AdcSt) : (h.setAdc c v).wdtPre = h.wdtPre := rfl
@[simp] theorem Hw.setAdc_wakeReq (h : Hw) (c : Nat) (v : AdcSt) : (h.setAdc c v).wakeReq = h.wakeReq := rfl
@[simp] theorem Hw.setAdc_rstCause (h : Hw) (c : Nat) (v : AdcSt) : (h.setAdc c v).rstCause = h.rstCause := rfl
@[simp] theorem Hw.setAdc_pads (h : Hw) (c : Nat) (v : AdcSt) : (h.setAdc c v).pads = h.pads := rfl
@[simp] theorem Hw.setAdc_padLast (h : Hw) (c : Nat) (v : AdcSt) : (h.setAdc c v).padLast = h.padLast := rfl
@[simp] theorem Hw.setAdc_pinSw (h : Hw) (c : Nat) (v : AdcSt) : (h.setAdc c v).pinSw = h.pinSw := rfl
@[simp] theorem Hw.setAdc_holds (h : Hw) (c : Nat) (v : AdcSt) : (h.setAdc c v).holds = h.holds := rfl
@[simp] theorem Hw.setAdc_safeNLow (h : Hw) (c : Nat) (v : AdcSt) : (h.setAdc c v).safeNLow = h.safeNLow := rfl
@[simp] theorem Hw.setAdc_safeNAt (h : Hw) (c : Nat) (v : AdcSt) : (h.setAdc c v).safeNAt = h.safeNAt := rfl
@[simp] theorem Hw.setAdc_held (h : Hw) (c : Nat) (v : AdcSt) : (h.setAdc c v).held = h.held := rfl
@[simp] theorem Hw.setAdc_loopRun (h : Hw) (c : Nat) (v : AdcSt) : (h.setAdc c v).loopRun = h.loopRun := rfl
@[simp] theorem Hw.setAdc_uc (h : Hw) (c : Nat) (v : AdcSt) : (h.setAdc c v).uc = h.uc := rfl
@[simp] theorem Hw.setAdc_traceQ (h : Hw) (c : Nat) (v : AdcSt) : (h.setAdc c v).traceQ = h.traceQ := rfl
@[simp] theorem Hw.setAdc_traceAt (h : Hw) (c : Nat) (v : AdcSt) : (h.setAdc c v).traceAt = h.traceAt := rfl
@[simp] theorem Hw.setAdc_traceLost (h : Hw) (c : Nat) (v : AdcSt) : (h.setAdc c v).traceLost = h.traceLost := rfl
@[simp] theorem Hw.setAdc_dramBad (h : Hw) (c : Nat) (v : AdcSt) : (h.setAdc c v).dramBad = h.dramBad := rfl
@[simp] theorem Hw.setAdc_dramWb (h : Hw) (c : Nat) (v : AdcSt) : (h.setAdc c v).dramWb = h.dramWb := rfl
@[simp] theorem Hw.setAdc_ceCount (h : Hw) (c : Nat) (v : AdcSt) : (h.setAdc c v).ceCount = h.ceCount := rfl
@[simp] theorem Hw.setAdc_darnerDue (h : Hw) (c : Nat) (v : AdcSt) : (h.setAdc c v).darnerDue = h.darnerDue := rfl
@[simp] theorem Hw.setAdc_darnerNow (h : Hw) (c : Nat) (v : AdcSt) : (h.setAdc c v).darnerNow = h.darnerNow := rfl
@[simp] theorem Hw.setAdc_passAt (h : Hw) (c : Nat) (v : AdcSt) : (h.setAdc c v).passAt = h.passAt := rfl
@[simp] theorem Hw.setAdc_dramQ (h : Hw) (c : Nat) (v : AdcSt) : (h.setAdc c v).dramQ = h.dramQ := rfl
@[simp] theorem Hw.setAdc_dramPos (h : Hw) (c : Nat) (v : AdcSt) : (h.setAdc c v).dramPos = h.dramPos := rfl
@[simp] theorem Hw.setAdc_dramRec (h : Hw) (c : Nat) (v : AdcSt) : (h.setAdc c v).dramRec = h.dramRec := rfl
@[simp] theorem Hw.setAdc_dramBulk (h : Hw) (c : Nat) (v : AdcSt) : (h.setAdc c v).dramBulk = h.dramBulk := rfl
@[simp] theorem Hw.setAdc_dramTurn (h : Hw) (c : Nat) (v : AdcSt) : (h.setAdc c v).dramTurn = h.dramTurn := rfl
@[simp] theorem Hw.setAdc_hamper (h : Hw) (c : Nat) (v : AdcSt) : (h.setAdc c v).hamper = h.hamper := rfl
@[simp] theorem Hw.setAdc_flash (h : Hw) (c : Nat) (v : AdcSt) : (h.setAdc c v).flash = h.flash := rfl
@[simp] theorem Hw.setAdc_ports (h : Hw) (c : Nat) (v : AdcSt) : (h.setAdc c v).ports = h.ports := rfl
@[simp] theorem Hw.setAdc_dom (h : Hw) (c : Nat) (v : AdcSt) : (h.setAdc c v).dom = h.dom := rfl
@[simp] theorem Hw.setAdc_porAt (h : Hw) (c : Nat) (v : AdcSt) : (h.setAdc c v).porAt = h.porAt := rfl
@[simp] theorem Hw.setAdc_resp (h : Hw) (c : Nat) (v : AdcSt) : (h.setAdc c v).resp = h.resp := rfl
@[simp] theorem Hw.setAdc_vectors (h : Hw) (c : Nat) (v : AdcSt) : (h.setAdc c v).vectors = h.vectors := rfl
@[simp] theorem Hw.setAdc_msixEn (h : Hw) (c : Nat) (v : AdcSt) : (h.setAdc c v).msixEn = h.msixEn := rfl
@[simp] theorem Hw.setAdc_fmask (h : Hw) (c : Nat) (v : AdcSt) : (h.setAdc c v).fmask = h.fmask := rfl
@[simp] theorem Hw.setAdc_devCtl (h : Hw) (c : Nat) (v : AdcSt) : (h.setAdc c v).devCtl = h.devCtl := rfl
@[simp] theorem Hw.setAdc_perstLow (h : Hw) (c : Nat) (v : AdcSt) : (h.setAdc c v).perstLow = h.perstLow := rfl
@[simp] theorem Hw.setAdc_svcAccess (h : Hw) (c : Nat) (v : AdcSt) : (h.setAdc c v).svcAccess = h.svcAccess := rfl
@[simp] theorem Hw.setAdc_sess (h : Hw) (c : Nat) (v : AdcSt) : (h.setAdc c v).sess = h.sess := rfl
@[simp] theorem Hw.setAdc_svcq (h : Hw) (c : Nat) (v : AdcSt) : (h.setAdc c v).svcq = h.svcq := rfl
@[simp] theorem Hw.setAdc_txts (h : Hw) (c : Nat) (v : AdcSt) : (h.setAdc c v).txts = h.txts := rfl
@[simp] theorem Hw.setAdc_mdioRead (h : Hw) (c : Nat) (v : AdcSt) : (h.setAdc c v).mdioRead = h.mdioRead := rfl
@[simp] theorem Hw.setAdc_mch (h : Hw) (c : Nat) (v : AdcSt) : (h.setAdc c v).mch = h.mch := rfl
@[simp] theorem Hw.setAdc_mArb (h : Hw) (c : Nat) (v : AdcSt) : (h.setAdc c v).mArb = h.mArb := rfl
@[simp] theorem Hw.setAdc_resetLow (h : Hw) (c : Nat) (v : AdcSt) : (h.setAdc c v).resetLow = h.resetLow := rfl
@[simp] theorem Hw.setAdc_porstLow (h : Hw) (c : Nat) (v : AdcSt) : (h.setAdc c v).porstLow = h.porstLow := rfl
@[simp] theorem Hw.setAdc_bootPins (h : Hw) (c : Nat) (v : AdcSt) : (h.setAdc c v).bootPins = h.bootPins := rfl
@[simp] theorem Hw.setAdc_crWait (h : Hw) (c : Nat) (v : AdcSt) : (h.setAdc c v).crWait = h.crWait := rfl
@[simp] theorem Hw.setAdc_monHold (h : Hw) (c : Nat) (v : AdcSt) : (h.setAdc c v).monHold = h.monHold := rfl
@[simp] theorem Hw.setAdc_rstAt (h : Hw) (c : Nat) (v : AdcSt) : (h.setAdc c v).rstAt = h.rstAt := rfl
@[simp] theorem Hw.setAdc_bootDue (h : Hw) (c : Nat) (v : AdcSt) : (h.setAdc c v).bootDue = h.bootDue := rfl
@[simp] theorem Hw.setAdc_tap (h : Hw) (c : Nat) (v : AdcSt) : (h.setAdc c v).tap = h.tap := rfl
@[simp] theorem Hw.setAdc_scan (h : Hw) (c : Nat) (v : AdcSt) : (h.setAdc c v).scan = h.scan := rfl
@[simp] theorem Hw.setAdc_dapSticky (h : Hw) (c : Nat) (v : AdcSt) : (h.setAdc c v).dapSticky = h.dapSticky := rfl
@[simp] theorem Hw.setAdc_out (h : Hw) (c : Nat) (v : AdcSt) : (h.setAdc c v).out = h.out := rfl

/-! ## setSdf -/

@[simp] theorem Hw.setSdf_now (h : Hw) (c k : Nat) (v : SdfSt) : (h.setSdf c k v).now = h.now := rfl
@[simp] theorem Hw.setSdf_freeNo (h : Hw) (c k : Nat) (v : SdfSt) : (h.setSdf c k v).freeNo = h.freeNo := rfl
@[simp] theorem Hw.setSdf_regs (h : Hw) (c k : Nat) (v : SdfSt) : (h.setSdf c k v).regs = h.regs := rfl
@[simp] theorem Hw.setSdf_pairs (h : Hw) (c k : Nat) (v : SdfSt) : (h.setSdf c k v).pairs = h.pairs := rfl
@[simp] theorem Hw.setSdf_rr (h : Hw) (c k : Nat) (v : SdfSt) : (h.setSdf c k v).rr = h.rr := rfl
@[simp] theorem Hw.setSdf_swAt (h : Hw) (c k : Nat) (v : SdfSt) : (h.setSdf c k v).swAt = h.swAt := rfl
@[simp] theorem Hw.setSdf_swMem (h : Hw) (c k : Nat) (v : SdfSt) : (h.setSdf c k v).swMem = h.swMem := rfl
@[simp] theorem Hw.setSdf_due (h : Hw) (c k : Nat) (v : SdfSt) : (h.setSdf c k v).due = h.due := rfl
@[simp] theorem Hw.setSdf_released (h : Hw) (c k : Nat) (v : SdfSt) : (h.setSdf c k v).released = h.released := rfl
@[simp] theorem Hw.setSdf_deep (h : Hw) (c k : Nat) (v : SdfSt) : (h.setSdf c k v).deep = h.deep := rfl
@[simp] theorem Hw.setSdf_cores (h : Hw) (c k : Nat) (v : SdfSt) : (h.setSdf c k v).cores = h.cores := rfl
@[simp] theorem Hw.setSdf_flights (h : Hw) (c k : Nat) (v : SdfSt) : (h.setSdf c k v).flights = h.flights := rfl
@[simp] theorem Hw.setSdf_seamIn (h : Hw) (c k : Nat) (v : SdfSt) : (h.setSdf c k v).seamIn = h.seamIn := rfl
@[simp] theorem Hw.setSdf_carried (h : Hw) (c k : Nat) (v : SdfSt) : (h.setSdf c k v).carried = h.carried := rfl
@[simp] theorem Hw.setSdf_maintQ (h : Hw) (c k : Nat) (v : SdfSt) : (h.setSdf c k v).maintQ = h.maintQ := rfl
@[simp] theorem Hw.setSdf_maintRun (h : Hw) (c k : Nat) (v : SdfSt) : (h.setSdf c k v).maintRun = h.maintRun := rfl
@[simp] theorem Hw.setSdf_maintAt (h : Hw) (c k : Nat) (v : SdfSt) : (h.setSdf c k v).maintAt = h.maintAt := rfl
@[simp] theorem Hw.setSdf_adc (h : Hw) (c k : Nat) (v : SdfSt) : (h.setSdf c k v).adc = h.adc := rfl
@[simp] theorem Hw.setSdf_cmp (h : Hw) (c k : Nat) (v : SdfSt) : (h.setSdf c k v).cmp = h.cmp := rfl
@[simp] theorem Hw.setSdf_trk (h : Hw) (c k : Nat) (v : SdfSt) : (h.setSdf c k v).trk = h.trk := rfl
@[simp] theorem Hw.setSdf_pwmTb (h : Hw) (c k : Nat) (v : SdfSt) : (h.setSdf c k v).pwmTb = h.pwmTb := rfl
@[simp] theorem Hw.setSdf_pwmCh (h : Hw) (c k : Nat) (v : SdfSt) : (h.setSdf c k v).pwmCh = h.pwmCh := rfl
@[simp] theorem Hw.setSdf_dicStack (h : Hw) (c k : Nat) (v : SdfSt) : (h.setSdf c k v).dicStack = h.dicStack := rfl
@[simp] theorem Hw.setSdf_dicLine (h : Hw) (c k : Nat) (v : SdfSt) : (h.setSdf c k v).dicLine = h.dicLine := rfl
@[simp] theorem Hw.setSdf_dicLate (h : Hw) (c k : Nat) (v : SdfSt) : (h.setSdf c k v).dicLate = h.dicLate := rfl
@[simp] theorem Hw.setSdf_divSaved (h : Hw) (c k : Nat) (v : SdfSt) : (h.setSdf c k v).divSaved = h.divSaved := rfl
@[simp] theorem Hw.setSdf_cpySaved (h : Hw) (c k : Nat) (v : SdfSt) : (h.setSdf c k v).cpySaved = h.cpySaved := rfl
@[simp] theorem Hw.setSdf_xfpSw (h : Hw) (c k : Nat) (v : SdfSt) : (h.setSdf c k v).xfpSw = h.xfpSw := rfl
@[simp] theorem Hw.setSdf_xfpHw (h : Hw) (c k : Nat) (v : SdfSt) : (h.setSdf c k v).xfpHw = h.xfpHw := rfl
@[simp] theorem Hw.setSdf_wdtPre (h : Hw) (c k : Nat) (v : SdfSt) : (h.setSdf c k v).wdtPre = h.wdtPre := rfl
@[simp] theorem Hw.setSdf_wakeReq (h : Hw) (c k : Nat) (v : SdfSt) : (h.setSdf c k v).wakeReq = h.wakeReq := rfl
@[simp] theorem Hw.setSdf_rstCause (h : Hw) (c k : Nat) (v : SdfSt) : (h.setSdf c k v).rstCause = h.rstCause := rfl
@[simp] theorem Hw.setSdf_pads (h : Hw) (c k : Nat) (v : SdfSt) : (h.setSdf c k v).pads = h.pads := rfl
@[simp] theorem Hw.setSdf_padLast (h : Hw) (c k : Nat) (v : SdfSt) : (h.setSdf c k v).padLast = h.padLast := rfl
@[simp] theorem Hw.setSdf_pinSw (h : Hw) (c k : Nat) (v : SdfSt) : (h.setSdf c k v).pinSw = h.pinSw := rfl
@[simp] theorem Hw.setSdf_holds (h : Hw) (c k : Nat) (v : SdfSt) : (h.setSdf c k v).holds = h.holds := rfl
@[simp] theorem Hw.setSdf_safeNLow (h : Hw) (c k : Nat) (v : SdfSt) : (h.setSdf c k v).safeNLow = h.safeNLow := rfl
@[simp] theorem Hw.setSdf_safeNAt (h : Hw) (c k : Nat) (v : SdfSt) : (h.setSdf c k v).safeNAt = h.safeNAt := rfl
@[simp] theorem Hw.setSdf_held (h : Hw) (c k : Nat) (v : SdfSt) : (h.setSdf c k v).held = h.held := rfl
@[simp] theorem Hw.setSdf_loopRun (h : Hw) (c k : Nat) (v : SdfSt) : (h.setSdf c k v).loopRun = h.loopRun := rfl
@[simp] theorem Hw.setSdf_uc (h : Hw) (c k : Nat) (v : SdfSt) : (h.setSdf c k v).uc = h.uc := rfl
@[simp] theorem Hw.setSdf_traceQ (h : Hw) (c k : Nat) (v : SdfSt) : (h.setSdf c k v).traceQ = h.traceQ := rfl
@[simp] theorem Hw.setSdf_traceAt (h : Hw) (c k : Nat) (v : SdfSt) : (h.setSdf c k v).traceAt = h.traceAt := rfl
@[simp] theorem Hw.setSdf_traceLost (h : Hw) (c k : Nat) (v : SdfSt) : (h.setSdf c k v).traceLost = h.traceLost := rfl
@[simp] theorem Hw.setSdf_dramBad (h : Hw) (c k : Nat) (v : SdfSt) : (h.setSdf c k v).dramBad = h.dramBad := rfl
@[simp] theorem Hw.setSdf_dramWb (h : Hw) (c k : Nat) (v : SdfSt) : (h.setSdf c k v).dramWb = h.dramWb := rfl
@[simp] theorem Hw.setSdf_ceCount (h : Hw) (c k : Nat) (v : SdfSt) : (h.setSdf c k v).ceCount = h.ceCount := rfl
@[simp] theorem Hw.setSdf_darnerDue (h : Hw) (c k : Nat) (v : SdfSt) : (h.setSdf c k v).darnerDue = h.darnerDue := rfl
@[simp] theorem Hw.setSdf_darnerNow (h : Hw) (c k : Nat) (v : SdfSt) : (h.setSdf c k v).darnerNow = h.darnerNow := rfl
@[simp] theorem Hw.setSdf_passAt (h : Hw) (c k : Nat) (v : SdfSt) : (h.setSdf c k v).passAt = h.passAt := rfl
@[simp] theorem Hw.setSdf_dramQ (h : Hw) (c k : Nat) (v : SdfSt) : (h.setSdf c k v).dramQ = h.dramQ := rfl
@[simp] theorem Hw.setSdf_dramPos (h : Hw) (c k : Nat) (v : SdfSt) : (h.setSdf c k v).dramPos = h.dramPos := rfl
@[simp] theorem Hw.setSdf_dramRec (h : Hw) (c k : Nat) (v : SdfSt) : (h.setSdf c k v).dramRec = h.dramRec := rfl
@[simp] theorem Hw.setSdf_dramBulk (h : Hw) (c k : Nat) (v : SdfSt) : (h.setSdf c k v).dramBulk = h.dramBulk := rfl
@[simp] theorem Hw.setSdf_dramTurn (h : Hw) (c k : Nat) (v : SdfSt) : (h.setSdf c k v).dramTurn = h.dramTurn := rfl
@[simp] theorem Hw.setSdf_hamper (h : Hw) (c k : Nat) (v : SdfSt) : (h.setSdf c k v).hamper = h.hamper := rfl
@[simp] theorem Hw.setSdf_flash (h : Hw) (c k : Nat) (v : SdfSt) : (h.setSdf c k v).flash = h.flash := rfl
@[simp] theorem Hw.setSdf_ports (h : Hw) (c k : Nat) (v : SdfSt) : (h.setSdf c k v).ports = h.ports := rfl
@[simp] theorem Hw.setSdf_dom (h : Hw) (c k : Nat) (v : SdfSt) : (h.setSdf c k v).dom = h.dom := rfl
@[simp] theorem Hw.setSdf_porAt (h : Hw) (c k : Nat) (v : SdfSt) : (h.setSdf c k v).porAt = h.porAt := rfl
@[simp] theorem Hw.setSdf_resp (h : Hw) (c k : Nat) (v : SdfSt) : (h.setSdf c k v).resp = h.resp := rfl
@[simp] theorem Hw.setSdf_vectors (h : Hw) (c k : Nat) (v : SdfSt) : (h.setSdf c k v).vectors = h.vectors := rfl
@[simp] theorem Hw.setSdf_msixEn (h : Hw) (c k : Nat) (v : SdfSt) : (h.setSdf c k v).msixEn = h.msixEn := rfl
@[simp] theorem Hw.setSdf_fmask (h : Hw) (c k : Nat) (v : SdfSt) : (h.setSdf c k v).fmask = h.fmask := rfl
@[simp] theorem Hw.setSdf_devCtl (h : Hw) (c k : Nat) (v : SdfSt) : (h.setSdf c k v).devCtl = h.devCtl := rfl
@[simp] theorem Hw.setSdf_perstLow (h : Hw) (c k : Nat) (v : SdfSt) : (h.setSdf c k v).perstLow = h.perstLow := rfl
@[simp] theorem Hw.setSdf_svcAccess (h : Hw) (c k : Nat) (v : SdfSt) : (h.setSdf c k v).svcAccess = h.svcAccess := rfl
@[simp] theorem Hw.setSdf_sess (h : Hw) (c k : Nat) (v : SdfSt) : (h.setSdf c k v).sess = h.sess := rfl
@[simp] theorem Hw.setSdf_svcq (h : Hw) (c k : Nat) (v : SdfSt) : (h.setSdf c k v).svcq = h.svcq := rfl
@[simp] theorem Hw.setSdf_txts (h : Hw) (c k : Nat) (v : SdfSt) : (h.setSdf c k v).txts = h.txts := rfl
@[simp] theorem Hw.setSdf_mdioRead (h : Hw) (c k : Nat) (v : SdfSt) : (h.setSdf c k v).mdioRead = h.mdioRead := rfl
@[simp] theorem Hw.setSdf_mch (h : Hw) (c k : Nat) (v : SdfSt) : (h.setSdf c k v).mch = h.mch := rfl
@[simp] theorem Hw.setSdf_mArb (h : Hw) (c k : Nat) (v : SdfSt) : (h.setSdf c k v).mArb = h.mArb := rfl
@[simp] theorem Hw.setSdf_resetLow (h : Hw) (c k : Nat) (v : SdfSt) : (h.setSdf c k v).resetLow = h.resetLow := rfl
@[simp] theorem Hw.setSdf_porstLow (h : Hw) (c k : Nat) (v : SdfSt) : (h.setSdf c k v).porstLow = h.porstLow := rfl
@[simp] theorem Hw.setSdf_bootPins (h : Hw) (c k : Nat) (v : SdfSt) : (h.setSdf c k v).bootPins = h.bootPins := rfl
@[simp] theorem Hw.setSdf_crWait (h : Hw) (c k : Nat) (v : SdfSt) : (h.setSdf c k v).crWait = h.crWait := rfl
@[simp] theorem Hw.setSdf_monHold (h : Hw) (c k : Nat) (v : SdfSt) : (h.setSdf c k v).monHold = h.monHold := rfl
@[simp] theorem Hw.setSdf_rstAt (h : Hw) (c k : Nat) (v : SdfSt) : (h.setSdf c k v).rstAt = h.rstAt := rfl
@[simp] theorem Hw.setSdf_bootDue (h : Hw) (c k : Nat) (v : SdfSt) : (h.setSdf c k v).bootDue = h.bootDue := rfl
@[simp] theorem Hw.setSdf_tap (h : Hw) (c k : Nat) (v : SdfSt) : (h.setSdf c k v).tap = h.tap := rfl
@[simp] theorem Hw.setSdf_scan (h : Hw) (c k : Nat) (v : SdfSt) : (h.setSdf c k v).scan = h.scan := rfl
@[simp] theorem Hw.setSdf_dapSticky (h : Hw) (c k : Nat) (v : SdfSt) : (h.setSdf c k v).dapSticky = h.dapSticky := rfl
@[simp] theorem Hw.setSdf_out (h : Hw) (c k : Nat) (v : SdfSt) : (h.setSdf c k v).out = h.out := rfl

/-! ## setCmp -/

@[simp] theorem Hw.setCmp_now (h : Hw) (c k : Nat) (v : CmpSt) : (h.setCmp c k v).now = h.now := rfl
@[simp] theorem Hw.setCmp_freeNo (h : Hw) (c k : Nat) (v : CmpSt) : (h.setCmp c k v).freeNo = h.freeNo := rfl
@[simp] theorem Hw.setCmp_regs (h : Hw) (c k : Nat) (v : CmpSt) : (h.setCmp c k v).regs = h.regs := rfl
@[simp] theorem Hw.setCmp_pairs (h : Hw) (c k : Nat) (v : CmpSt) : (h.setCmp c k v).pairs = h.pairs := rfl
@[simp] theorem Hw.setCmp_rr (h : Hw) (c k : Nat) (v : CmpSt) : (h.setCmp c k v).rr = h.rr := rfl
@[simp] theorem Hw.setCmp_swAt (h : Hw) (c k : Nat) (v : CmpSt) : (h.setCmp c k v).swAt = h.swAt := rfl
@[simp] theorem Hw.setCmp_swMem (h : Hw) (c k : Nat) (v : CmpSt) : (h.setCmp c k v).swMem = h.swMem := rfl
@[simp] theorem Hw.setCmp_due (h : Hw) (c k : Nat) (v : CmpSt) : (h.setCmp c k v).due = h.due := rfl
@[simp] theorem Hw.setCmp_released (h : Hw) (c k : Nat) (v : CmpSt) : (h.setCmp c k v).released = h.released := rfl
@[simp] theorem Hw.setCmp_deep (h : Hw) (c k : Nat) (v : CmpSt) : (h.setCmp c k v).deep = h.deep := rfl
@[simp] theorem Hw.setCmp_cores (h : Hw) (c k : Nat) (v : CmpSt) : (h.setCmp c k v).cores = h.cores := rfl
@[simp] theorem Hw.setCmp_flights (h : Hw) (c k : Nat) (v : CmpSt) : (h.setCmp c k v).flights = h.flights := rfl
@[simp] theorem Hw.setCmp_seamIn (h : Hw) (c k : Nat) (v : CmpSt) : (h.setCmp c k v).seamIn = h.seamIn := rfl
@[simp] theorem Hw.setCmp_carried (h : Hw) (c k : Nat) (v : CmpSt) : (h.setCmp c k v).carried = h.carried := rfl
@[simp] theorem Hw.setCmp_maintQ (h : Hw) (c k : Nat) (v : CmpSt) : (h.setCmp c k v).maintQ = h.maintQ := rfl
@[simp] theorem Hw.setCmp_maintRun (h : Hw) (c k : Nat) (v : CmpSt) : (h.setCmp c k v).maintRun = h.maintRun := rfl
@[simp] theorem Hw.setCmp_maintAt (h : Hw) (c k : Nat) (v : CmpSt) : (h.setCmp c k v).maintAt = h.maintAt := rfl
@[simp] theorem Hw.setCmp_adc (h : Hw) (c k : Nat) (v : CmpSt) : (h.setCmp c k v).adc = h.adc := rfl
@[simp] theorem Hw.setCmp_sdf (h : Hw) (c k : Nat) (v : CmpSt) : (h.setCmp c k v).sdf = h.sdf := rfl
@[simp] theorem Hw.setCmp_trk (h : Hw) (c k : Nat) (v : CmpSt) : (h.setCmp c k v).trk = h.trk := rfl
@[simp] theorem Hw.setCmp_pwmTb (h : Hw) (c k : Nat) (v : CmpSt) : (h.setCmp c k v).pwmTb = h.pwmTb := rfl
@[simp] theorem Hw.setCmp_pwmCh (h : Hw) (c k : Nat) (v : CmpSt) : (h.setCmp c k v).pwmCh = h.pwmCh := rfl
@[simp] theorem Hw.setCmp_dicStack (h : Hw) (c k : Nat) (v : CmpSt) : (h.setCmp c k v).dicStack = h.dicStack := rfl
@[simp] theorem Hw.setCmp_dicLine (h : Hw) (c k : Nat) (v : CmpSt) : (h.setCmp c k v).dicLine = h.dicLine := rfl
@[simp] theorem Hw.setCmp_dicLate (h : Hw) (c k : Nat) (v : CmpSt) : (h.setCmp c k v).dicLate = h.dicLate := rfl
@[simp] theorem Hw.setCmp_divSaved (h : Hw) (c k : Nat) (v : CmpSt) : (h.setCmp c k v).divSaved = h.divSaved := rfl
@[simp] theorem Hw.setCmp_cpySaved (h : Hw) (c k : Nat) (v : CmpSt) : (h.setCmp c k v).cpySaved = h.cpySaved := rfl
@[simp] theorem Hw.setCmp_xfpSw (h : Hw) (c k : Nat) (v : CmpSt) : (h.setCmp c k v).xfpSw = h.xfpSw := rfl
@[simp] theorem Hw.setCmp_xfpHw (h : Hw) (c k : Nat) (v : CmpSt) : (h.setCmp c k v).xfpHw = h.xfpHw := rfl
@[simp] theorem Hw.setCmp_wdtPre (h : Hw) (c k : Nat) (v : CmpSt) : (h.setCmp c k v).wdtPre = h.wdtPre := rfl
@[simp] theorem Hw.setCmp_wakeReq (h : Hw) (c k : Nat) (v : CmpSt) : (h.setCmp c k v).wakeReq = h.wakeReq := rfl
@[simp] theorem Hw.setCmp_rstCause (h : Hw) (c k : Nat) (v : CmpSt) : (h.setCmp c k v).rstCause = h.rstCause := rfl
@[simp] theorem Hw.setCmp_pads (h : Hw) (c k : Nat) (v : CmpSt) : (h.setCmp c k v).pads = h.pads := rfl
@[simp] theorem Hw.setCmp_padLast (h : Hw) (c k : Nat) (v : CmpSt) : (h.setCmp c k v).padLast = h.padLast := rfl
@[simp] theorem Hw.setCmp_pinSw (h : Hw) (c k : Nat) (v : CmpSt) : (h.setCmp c k v).pinSw = h.pinSw := rfl
@[simp] theorem Hw.setCmp_holds (h : Hw) (c k : Nat) (v : CmpSt) : (h.setCmp c k v).holds = h.holds := rfl
@[simp] theorem Hw.setCmp_safeNLow (h : Hw) (c k : Nat) (v : CmpSt) : (h.setCmp c k v).safeNLow = h.safeNLow := rfl
@[simp] theorem Hw.setCmp_safeNAt (h : Hw) (c k : Nat) (v : CmpSt) : (h.setCmp c k v).safeNAt = h.safeNAt := rfl
@[simp] theorem Hw.setCmp_held (h : Hw) (c k : Nat) (v : CmpSt) : (h.setCmp c k v).held = h.held := rfl
@[simp] theorem Hw.setCmp_loopRun (h : Hw) (c k : Nat) (v : CmpSt) : (h.setCmp c k v).loopRun = h.loopRun := rfl
@[simp] theorem Hw.setCmp_uc (h : Hw) (c k : Nat) (v : CmpSt) : (h.setCmp c k v).uc = h.uc := rfl
@[simp] theorem Hw.setCmp_traceQ (h : Hw) (c k : Nat) (v : CmpSt) : (h.setCmp c k v).traceQ = h.traceQ := rfl
@[simp] theorem Hw.setCmp_traceAt (h : Hw) (c k : Nat) (v : CmpSt) : (h.setCmp c k v).traceAt = h.traceAt := rfl
@[simp] theorem Hw.setCmp_traceLost (h : Hw) (c k : Nat) (v : CmpSt) : (h.setCmp c k v).traceLost = h.traceLost := rfl
@[simp] theorem Hw.setCmp_dramBad (h : Hw) (c k : Nat) (v : CmpSt) : (h.setCmp c k v).dramBad = h.dramBad := rfl
@[simp] theorem Hw.setCmp_dramWb (h : Hw) (c k : Nat) (v : CmpSt) : (h.setCmp c k v).dramWb = h.dramWb := rfl
@[simp] theorem Hw.setCmp_ceCount (h : Hw) (c k : Nat) (v : CmpSt) : (h.setCmp c k v).ceCount = h.ceCount := rfl
@[simp] theorem Hw.setCmp_darnerDue (h : Hw) (c k : Nat) (v : CmpSt) : (h.setCmp c k v).darnerDue = h.darnerDue := rfl
@[simp] theorem Hw.setCmp_darnerNow (h : Hw) (c k : Nat) (v : CmpSt) : (h.setCmp c k v).darnerNow = h.darnerNow := rfl
@[simp] theorem Hw.setCmp_passAt (h : Hw) (c k : Nat) (v : CmpSt) : (h.setCmp c k v).passAt = h.passAt := rfl
@[simp] theorem Hw.setCmp_dramQ (h : Hw) (c k : Nat) (v : CmpSt) : (h.setCmp c k v).dramQ = h.dramQ := rfl
@[simp] theorem Hw.setCmp_dramPos (h : Hw) (c k : Nat) (v : CmpSt) : (h.setCmp c k v).dramPos = h.dramPos := rfl
@[simp] theorem Hw.setCmp_dramRec (h : Hw) (c k : Nat) (v : CmpSt) : (h.setCmp c k v).dramRec = h.dramRec := rfl
@[simp] theorem Hw.setCmp_dramBulk (h : Hw) (c k : Nat) (v : CmpSt) : (h.setCmp c k v).dramBulk = h.dramBulk := rfl
@[simp] theorem Hw.setCmp_dramTurn (h : Hw) (c k : Nat) (v : CmpSt) : (h.setCmp c k v).dramTurn = h.dramTurn := rfl
@[simp] theorem Hw.setCmp_hamper (h : Hw) (c k : Nat) (v : CmpSt) : (h.setCmp c k v).hamper = h.hamper := rfl
@[simp] theorem Hw.setCmp_flash (h : Hw) (c k : Nat) (v : CmpSt) : (h.setCmp c k v).flash = h.flash := rfl
@[simp] theorem Hw.setCmp_ports (h : Hw) (c k : Nat) (v : CmpSt) : (h.setCmp c k v).ports = h.ports := rfl
@[simp] theorem Hw.setCmp_dom (h : Hw) (c k : Nat) (v : CmpSt) : (h.setCmp c k v).dom = h.dom := rfl
@[simp] theorem Hw.setCmp_porAt (h : Hw) (c k : Nat) (v : CmpSt) : (h.setCmp c k v).porAt = h.porAt := rfl
@[simp] theorem Hw.setCmp_resp (h : Hw) (c k : Nat) (v : CmpSt) : (h.setCmp c k v).resp = h.resp := rfl
@[simp] theorem Hw.setCmp_vectors (h : Hw) (c k : Nat) (v : CmpSt) : (h.setCmp c k v).vectors = h.vectors := rfl
@[simp] theorem Hw.setCmp_msixEn (h : Hw) (c k : Nat) (v : CmpSt) : (h.setCmp c k v).msixEn = h.msixEn := rfl
@[simp] theorem Hw.setCmp_fmask (h : Hw) (c k : Nat) (v : CmpSt) : (h.setCmp c k v).fmask = h.fmask := rfl
@[simp] theorem Hw.setCmp_devCtl (h : Hw) (c k : Nat) (v : CmpSt) : (h.setCmp c k v).devCtl = h.devCtl := rfl
@[simp] theorem Hw.setCmp_perstLow (h : Hw) (c k : Nat) (v : CmpSt) : (h.setCmp c k v).perstLow = h.perstLow := rfl
@[simp] theorem Hw.setCmp_svcAccess (h : Hw) (c k : Nat) (v : CmpSt) : (h.setCmp c k v).svcAccess = h.svcAccess := rfl
@[simp] theorem Hw.setCmp_sess (h : Hw) (c k : Nat) (v : CmpSt) : (h.setCmp c k v).sess = h.sess := rfl
@[simp] theorem Hw.setCmp_svcq (h : Hw) (c k : Nat) (v : CmpSt) : (h.setCmp c k v).svcq = h.svcq := rfl
@[simp] theorem Hw.setCmp_txts (h : Hw) (c k : Nat) (v : CmpSt) : (h.setCmp c k v).txts = h.txts := rfl
@[simp] theorem Hw.setCmp_mdioRead (h : Hw) (c k : Nat) (v : CmpSt) : (h.setCmp c k v).mdioRead = h.mdioRead := rfl
@[simp] theorem Hw.setCmp_mch (h : Hw) (c k : Nat) (v : CmpSt) : (h.setCmp c k v).mch = h.mch := rfl
@[simp] theorem Hw.setCmp_mArb (h : Hw) (c k : Nat) (v : CmpSt) : (h.setCmp c k v).mArb = h.mArb := rfl
@[simp] theorem Hw.setCmp_resetLow (h : Hw) (c k : Nat) (v : CmpSt) : (h.setCmp c k v).resetLow = h.resetLow := rfl
@[simp] theorem Hw.setCmp_porstLow (h : Hw) (c k : Nat) (v : CmpSt) : (h.setCmp c k v).porstLow = h.porstLow := rfl
@[simp] theorem Hw.setCmp_bootPins (h : Hw) (c k : Nat) (v : CmpSt) : (h.setCmp c k v).bootPins = h.bootPins := rfl
@[simp] theorem Hw.setCmp_crWait (h : Hw) (c k : Nat) (v : CmpSt) : (h.setCmp c k v).crWait = h.crWait := rfl
@[simp] theorem Hw.setCmp_monHold (h : Hw) (c k : Nat) (v : CmpSt) : (h.setCmp c k v).monHold = h.monHold := rfl
@[simp] theorem Hw.setCmp_rstAt (h : Hw) (c k : Nat) (v : CmpSt) : (h.setCmp c k v).rstAt = h.rstAt := rfl
@[simp] theorem Hw.setCmp_bootDue (h : Hw) (c k : Nat) (v : CmpSt) : (h.setCmp c k v).bootDue = h.bootDue := rfl
@[simp] theorem Hw.setCmp_tap (h : Hw) (c k : Nat) (v : CmpSt) : (h.setCmp c k v).tap = h.tap := rfl
@[simp] theorem Hw.setCmp_scan (h : Hw) (c k : Nat) (v : CmpSt) : (h.setCmp c k v).scan = h.scan := rfl
@[simp] theorem Hw.setCmp_dapSticky (h : Hw) (c k : Nat) (v : CmpSt) : (h.setCmp c k v).dapSticky = h.dapSticky := rfl
@[simp] theorem Hw.setCmp_out (h : Hw) (c k : Nat) (v : CmpSt) : (h.setCmp c k v).out = h.out := rfl

/-! ## setTrk -/

@[simp] theorem Hw.setTrk_now (h : Hw) (c k : Nat) (v : TrkSt) : (h.setTrk c k v).now = h.now := rfl
@[simp] theorem Hw.setTrk_freeNo (h : Hw) (c k : Nat) (v : TrkSt) : (h.setTrk c k v).freeNo = h.freeNo := rfl
@[simp] theorem Hw.setTrk_regs (h : Hw) (c k : Nat) (v : TrkSt) : (h.setTrk c k v).regs = h.regs := rfl
@[simp] theorem Hw.setTrk_pairs (h : Hw) (c k : Nat) (v : TrkSt) : (h.setTrk c k v).pairs = h.pairs := rfl
@[simp] theorem Hw.setTrk_rr (h : Hw) (c k : Nat) (v : TrkSt) : (h.setTrk c k v).rr = h.rr := rfl
@[simp] theorem Hw.setTrk_swAt (h : Hw) (c k : Nat) (v : TrkSt) : (h.setTrk c k v).swAt = h.swAt := rfl
@[simp] theorem Hw.setTrk_swMem (h : Hw) (c k : Nat) (v : TrkSt) : (h.setTrk c k v).swMem = h.swMem := rfl
@[simp] theorem Hw.setTrk_due (h : Hw) (c k : Nat) (v : TrkSt) : (h.setTrk c k v).due = h.due := rfl
@[simp] theorem Hw.setTrk_released (h : Hw) (c k : Nat) (v : TrkSt) : (h.setTrk c k v).released = h.released := rfl
@[simp] theorem Hw.setTrk_deep (h : Hw) (c k : Nat) (v : TrkSt) : (h.setTrk c k v).deep = h.deep := rfl
@[simp] theorem Hw.setTrk_cores (h : Hw) (c k : Nat) (v : TrkSt) : (h.setTrk c k v).cores = h.cores := rfl
@[simp] theorem Hw.setTrk_flights (h : Hw) (c k : Nat) (v : TrkSt) : (h.setTrk c k v).flights = h.flights := rfl
@[simp] theorem Hw.setTrk_seamIn (h : Hw) (c k : Nat) (v : TrkSt) : (h.setTrk c k v).seamIn = h.seamIn := rfl
@[simp] theorem Hw.setTrk_carried (h : Hw) (c k : Nat) (v : TrkSt) : (h.setTrk c k v).carried = h.carried := rfl
@[simp] theorem Hw.setTrk_maintQ (h : Hw) (c k : Nat) (v : TrkSt) : (h.setTrk c k v).maintQ = h.maintQ := rfl
@[simp] theorem Hw.setTrk_maintRun (h : Hw) (c k : Nat) (v : TrkSt) : (h.setTrk c k v).maintRun = h.maintRun := rfl
@[simp] theorem Hw.setTrk_maintAt (h : Hw) (c k : Nat) (v : TrkSt) : (h.setTrk c k v).maintAt = h.maintAt := rfl
@[simp] theorem Hw.setTrk_adc (h : Hw) (c k : Nat) (v : TrkSt) : (h.setTrk c k v).adc = h.adc := rfl
@[simp] theorem Hw.setTrk_sdf (h : Hw) (c k : Nat) (v : TrkSt) : (h.setTrk c k v).sdf = h.sdf := rfl
@[simp] theorem Hw.setTrk_cmp (h : Hw) (c k : Nat) (v : TrkSt) : (h.setTrk c k v).cmp = h.cmp := rfl
@[simp] theorem Hw.setTrk_pwmTb (h : Hw) (c k : Nat) (v : TrkSt) : (h.setTrk c k v).pwmTb = h.pwmTb := rfl
@[simp] theorem Hw.setTrk_pwmCh (h : Hw) (c k : Nat) (v : TrkSt) : (h.setTrk c k v).pwmCh = h.pwmCh := rfl
@[simp] theorem Hw.setTrk_dicStack (h : Hw) (c k : Nat) (v : TrkSt) : (h.setTrk c k v).dicStack = h.dicStack := rfl
@[simp] theorem Hw.setTrk_dicLine (h : Hw) (c k : Nat) (v : TrkSt) : (h.setTrk c k v).dicLine = h.dicLine := rfl
@[simp] theorem Hw.setTrk_dicLate (h : Hw) (c k : Nat) (v : TrkSt) : (h.setTrk c k v).dicLate = h.dicLate := rfl
@[simp] theorem Hw.setTrk_divSaved (h : Hw) (c k : Nat) (v : TrkSt) : (h.setTrk c k v).divSaved = h.divSaved := rfl
@[simp] theorem Hw.setTrk_cpySaved (h : Hw) (c k : Nat) (v : TrkSt) : (h.setTrk c k v).cpySaved = h.cpySaved := rfl
@[simp] theorem Hw.setTrk_xfpSw (h : Hw) (c k : Nat) (v : TrkSt) : (h.setTrk c k v).xfpSw = h.xfpSw := rfl
@[simp] theorem Hw.setTrk_xfpHw (h : Hw) (c k : Nat) (v : TrkSt) : (h.setTrk c k v).xfpHw = h.xfpHw := rfl
@[simp] theorem Hw.setTrk_wdtPre (h : Hw) (c k : Nat) (v : TrkSt) : (h.setTrk c k v).wdtPre = h.wdtPre := rfl
@[simp] theorem Hw.setTrk_wakeReq (h : Hw) (c k : Nat) (v : TrkSt) : (h.setTrk c k v).wakeReq = h.wakeReq := rfl
@[simp] theorem Hw.setTrk_rstCause (h : Hw) (c k : Nat) (v : TrkSt) : (h.setTrk c k v).rstCause = h.rstCause := rfl
@[simp] theorem Hw.setTrk_pads (h : Hw) (c k : Nat) (v : TrkSt) : (h.setTrk c k v).pads = h.pads := rfl
@[simp] theorem Hw.setTrk_padLast (h : Hw) (c k : Nat) (v : TrkSt) : (h.setTrk c k v).padLast = h.padLast := rfl
@[simp] theorem Hw.setTrk_pinSw (h : Hw) (c k : Nat) (v : TrkSt) : (h.setTrk c k v).pinSw = h.pinSw := rfl
@[simp] theorem Hw.setTrk_holds (h : Hw) (c k : Nat) (v : TrkSt) : (h.setTrk c k v).holds = h.holds := rfl
@[simp] theorem Hw.setTrk_safeNLow (h : Hw) (c k : Nat) (v : TrkSt) : (h.setTrk c k v).safeNLow = h.safeNLow := rfl
@[simp] theorem Hw.setTrk_safeNAt (h : Hw) (c k : Nat) (v : TrkSt) : (h.setTrk c k v).safeNAt = h.safeNAt := rfl
@[simp] theorem Hw.setTrk_held (h : Hw) (c k : Nat) (v : TrkSt) : (h.setTrk c k v).held = h.held := rfl
@[simp] theorem Hw.setTrk_loopRun (h : Hw) (c k : Nat) (v : TrkSt) : (h.setTrk c k v).loopRun = h.loopRun := rfl
@[simp] theorem Hw.setTrk_uc (h : Hw) (c k : Nat) (v : TrkSt) : (h.setTrk c k v).uc = h.uc := rfl
@[simp] theorem Hw.setTrk_traceQ (h : Hw) (c k : Nat) (v : TrkSt) : (h.setTrk c k v).traceQ = h.traceQ := rfl
@[simp] theorem Hw.setTrk_traceAt (h : Hw) (c k : Nat) (v : TrkSt) : (h.setTrk c k v).traceAt = h.traceAt := rfl
@[simp] theorem Hw.setTrk_traceLost (h : Hw) (c k : Nat) (v : TrkSt) : (h.setTrk c k v).traceLost = h.traceLost := rfl
@[simp] theorem Hw.setTrk_dramBad (h : Hw) (c k : Nat) (v : TrkSt) : (h.setTrk c k v).dramBad = h.dramBad := rfl
@[simp] theorem Hw.setTrk_dramWb (h : Hw) (c k : Nat) (v : TrkSt) : (h.setTrk c k v).dramWb = h.dramWb := rfl
@[simp] theorem Hw.setTrk_ceCount (h : Hw) (c k : Nat) (v : TrkSt) : (h.setTrk c k v).ceCount = h.ceCount := rfl
@[simp] theorem Hw.setTrk_darnerDue (h : Hw) (c k : Nat) (v : TrkSt) : (h.setTrk c k v).darnerDue = h.darnerDue := rfl
@[simp] theorem Hw.setTrk_darnerNow (h : Hw) (c k : Nat) (v : TrkSt) : (h.setTrk c k v).darnerNow = h.darnerNow := rfl
@[simp] theorem Hw.setTrk_passAt (h : Hw) (c k : Nat) (v : TrkSt) : (h.setTrk c k v).passAt = h.passAt := rfl
@[simp] theorem Hw.setTrk_dramQ (h : Hw) (c k : Nat) (v : TrkSt) : (h.setTrk c k v).dramQ = h.dramQ := rfl
@[simp] theorem Hw.setTrk_dramPos (h : Hw) (c k : Nat) (v : TrkSt) : (h.setTrk c k v).dramPos = h.dramPos := rfl
@[simp] theorem Hw.setTrk_dramRec (h : Hw) (c k : Nat) (v : TrkSt) : (h.setTrk c k v).dramRec = h.dramRec := rfl
@[simp] theorem Hw.setTrk_dramBulk (h : Hw) (c k : Nat) (v : TrkSt) : (h.setTrk c k v).dramBulk = h.dramBulk := rfl
@[simp] theorem Hw.setTrk_dramTurn (h : Hw) (c k : Nat) (v : TrkSt) : (h.setTrk c k v).dramTurn = h.dramTurn := rfl
@[simp] theorem Hw.setTrk_hamper (h : Hw) (c k : Nat) (v : TrkSt) : (h.setTrk c k v).hamper = h.hamper := rfl
@[simp] theorem Hw.setTrk_flash (h : Hw) (c k : Nat) (v : TrkSt) : (h.setTrk c k v).flash = h.flash := rfl
@[simp] theorem Hw.setTrk_ports (h : Hw) (c k : Nat) (v : TrkSt) : (h.setTrk c k v).ports = h.ports := rfl
@[simp] theorem Hw.setTrk_dom (h : Hw) (c k : Nat) (v : TrkSt) : (h.setTrk c k v).dom = h.dom := rfl
@[simp] theorem Hw.setTrk_porAt (h : Hw) (c k : Nat) (v : TrkSt) : (h.setTrk c k v).porAt = h.porAt := rfl
@[simp] theorem Hw.setTrk_resp (h : Hw) (c k : Nat) (v : TrkSt) : (h.setTrk c k v).resp = h.resp := rfl
@[simp] theorem Hw.setTrk_vectors (h : Hw) (c k : Nat) (v : TrkSt) : (h.setTrk c k v).vectors = h.vectors := rfl
@[simp] theorem Hw.setTrk_msixEn (h : Hw) (c k : Nat) (v : TrkSt) : (h.setTrk c k v).msixEn = h.msixEn := rfl
@[simp] theorem Hw.setTrk_fmask (h : Hw) (c k : Nat) (v : TrkSt) : (h.setTrk c k v).fmask = h.fmask := rfl
@[simp] theorem Hw.setTrk_devCtl (h : Hw) (c k : Nat) (v : TrkSt) : (h.setTrk c k v).devCtl = h.devCtl := rfl
@[simp] theorem Hw.setTrk_perstLow (h : Hw) (c k : Nat) (v : TrkSt) : (h.setTrk c k v).perstLow = h.perstLow := rfl
@[simp] theorem Hw.setTrk_svcAccess (h : Hw) (c k : Nat) (v : TrkSt) : (h.setTrk c k v).svcAccess = h.svcAccess := rfl
@[simp] theorem Hw.setTrk_sess (h : Hw) (c k : Nat) (v : TrkSt) : (h.setTrk c k v).sess = h.sess := rfl
@[simp] theorem Hw.setTrk_svcq (h : Hw) (c k : Nat) (v : TrkSt) : (h.setTrk c k v).svcq = h.svcq := rfl
@[simp] theorem Hw.setTrk_txts (h : Hw) (c k : Nat) (v : TrkSt) : (h.setTrk c k v).txts = h.txts := rfl
@[simp] theorem Hw.setTrk_mdioRead (h : Hw) (c k : Nat) (v : TrkSt) : (h.setTrk c k v).mdioRead = h.mdioRead := rfl
@[simp] theorem Hw.setTrk_mch (h : Hw) (c k : Nat) (v : TrkSt) : (h.setTrk c k v).mch = h.mch := rfl
@[simp] theorem Hw.setTrk_mArb (h : Hw) (c k : Nat) (v : TrkSt) : (h.setTrk c k v).mArb = h.mArb := rfl
@[simp] theorem Hw.setTrk_resetLow (h : Hw) (c k : Nat) (v : TrkSt) : (h.setTrk c k v).resetLow = h.resetLow := rfl
@[simp] theorem Hw.setTrk_porstLow (h : Hw) (c k : Nat) (v : TrkSt) : (h.setTrk c k v).porstLow = h.porstLow := rfl
@[simp] theorem Hw.setTrk_bootPins (h : Hw) (c k : Nat) (v : TrkSt) : (h.setTrk c k v).bootPins = h.bootPins := rfl
@[simp] theorem Hw.setTrk_crWait (h : Hw) (c k : Nat) (v : TrkSt) : (h.setTrk c k v).crWait = h.crWait := rfl
@[simp] theorem Hw.setTrk_monHold (h : Hw) (c k : Nat) (v : TrkSt) : (h.setTrk c k v).monHold = h.monHold := rfl
@[simp] theorem Hw.setTrk_rstAt (h : Hw) (c k : Nat) (v : TrkSt) : (h.setTrk c k v).rstAt = h.rstAt := rfl
@[simp] theorem Hw.setTrk_bootDue (h : Hw) (c k : Nat) (v : TrkSt) : (h.setTrk c k v).bootDue = h.bootDue := rfl
@[simp] theorem Hw.setTrk_tap (h : Hw) (c k : Nat) (v : TrkSt) : (h.setTrk c k v).tap = h.tap := rfl
@[simp] theorem Hw.setTrk_scan (h : Hw) (c k : Nat) (v : TrkSt) : (h.setTrk c k v).scan = h.scan := rfl
@[simp] theorem Hw.setTrk_dapSticky (h : Hw) (c k : Nat) (v : TrkSt) : (h.setTrk c k v).dapSticky = h.dapSticky := rfl
@[simp] theorem Hw.setTrk_out (h : Hw) (c k : Nat) (v : TrkSt) : (h.setTrk c k v).out = h.out := rfl

/-! ## setTb -/

@[simp] theorem Hw.setTb_now (h : Hw) (c k : Nat) (v : PwmTb) : (h.setTb c k v).now = h.now := rfl
@[simp] theorem Hw.setTb_freeNo (h : Hw) (c k : Nat) (v : PwmTb) : (h.setTb c k v).freeNo = h.freeNo := rfl
@[simp] theorem Hw.setTb_regs (h : Hw) (c k : Nat) (v : PwmTb) : (h.setTb c k v).regs = h.regs := rfl
@[simp] theorem Hw.setTb_pairs (h : Hw) (c k : Nat) (v : PwmTb) : (h.setTb c k v).pairs = h.pairs := rfl
@[simp] theorem Hw.setTb_rr (h : Hw) (c k : Nat) (v : PwmTb) : (h.setTb c k v).rr = h.rr := rfl
@[simp] theorem Hw.setTb_swAt (h : Hw) (c k : Nat) (v : PwmTb) : (h.setTb c k v).swAt = h.swAt := rfl
@[simp] theorem Hw.setTb_swMem (h : Hw) (c k : Nat) (v : PwmTb) : (h.setTb c k v).swMem = h.swMem := rfl
@[simp] theorem Hw.setTb_due (h : Hw) (c k : Nat) (v : PwmTb) : (h.setTb c k v).due = h.due := rfl
@[simp] theorem Hw.setTb_released (h : Hw) (c k : Nat) (v : PwmTb) : (h.setTb c k v).released = h.released := rfl
@[simp] theorem Hw.setTb_deep (h : Hw) (c k : Nat) (v : PwmTb) : (h.setTb c k v).deep = h.deep := rfl
@[simp] theorem Hw.setTb_cores (h : Hw) (c k : Nat) (v : PwmTb) : (h.setTb c k v).cores = h.cores := rfl
@[simp] theorem Hw.setTb_flights (h : Hw) (c k : Nat) (v : PwmTb) : (h.setTb c k v).flights = h.flights := rfl
@[simp] theorem Hw.setTb_seamIn (h : Hw) (c k : Nat) (v : PwmTb) : (h.setTb c k v).seamIn = h.seamIn := rfl
@[simp] theorem Hw.setTb_carried (h : Hw) (c k : Nat) (v : PwmTb) : (h.setTb c k v).carried = h.carried := rfl
@[simp] theorem Hw.setTb_maintQ (h : Hw) (c k : Nat) (v : PwmTb) : (h.setTb c k v).maintQ = h.maintQ := rfl
@[simp] theorem Hw.setTb_maintRun (h : Hw) (c k : Nat) (v : PwmTb) : (h.setTb c k v).maintRun = h.maintRun := rfl
@[simp] theorem Hw.setTb_maintAt (h : Hw) (c k : Nat) (v : PwmTb) : (h.setTb c k v).maintAt = h.maintAt := rfl
@[simp] theorem Hw.setTb_adc (h : Hw) (c k : Nat) (v : PwmTb) : (h.setTb c k v).adc = h.adc := rfl
@[simp] theorem Hw.setTb_sdf (h : Hw) (c k : Nat) (v : PwmTb) : (h.setTb c k v).sdf = h.sdf := rfl
@[simp] theorem Hw.setTb_cmp (h : Hw) (c k : Nat) (v : PwmTb) : (h.setTb c k v).cmp = h.cmp := rfl
@[simp] theorem Hw.setTb_trk (h : Hw) (c k : Nat) (v : PwmTb) : (h.setTb c k v).trk = h.trk := rfl
@[simp] theorem Hw.setTb_pwmCh (h : Hw) (c k : Nat) (v : PwmTb) : (h.setTb c k v).pwmCh = h.pwmCh := rfl
@[simp] theorem Hw.setTb_dicStack (h : Hw) (c k : Nat) (v : PwmTb) : (h.setTb c k v).dicStack = h.dicStack := rfl
@[simp] theorem Hw.setTb_dicLine (h : Hw) (c k : Nat) (v : PwmTb) : (h.setTb c k v).dicLine = h.dicLine := rfl
@[simp] theorem Hw.setTb_dicLate (h : Hw) (c k : Nat) (v : PwmTb) : (h.setTb c k v).dicLate = h.dicLate := rfl
@[simp] theorem Hw.setTb_divSaved (h : Hw) (c k : Nat) (v : PwmTb) : (h.setTb c k v).divSaved = h.divSaved := rfl
@[simp] theorem Hw.setTb_cpySaved (h : Hw) (c k : Nat) (v : PwmTb) : (h.setTb c k v).cpySaved = h.cpySaved := rfl
@[simp] theorem Hw.setTb_xfpSw (h : Hw) (c k : Nat) (v : PwmTb) : (h.setTb c k v).xfpSw = h.xfpSw := rfl
@[simp] theorem Hw.setTb_xfpHw (h : Hw) (c k : Nat) (v : PwmTb) : (h.setTb c k v).xfpHw = h.xfpHw := rfl
@[simp] theorem Hw.setTb_wdtPre (h : Hw) (c k : Nat) (v : PwmTb) : (h.setTb c k v).wdtPre = h.wdtPre := rfl
@[simp] theorem Hw.setTb_wakeReq (h : Hw) (c k : Nat) (v : PwmTb) : (h.setTb c k v).wakeReq = h.wakeReq := rfl
@[simp] theorem Hw.setTb_rstCause (h : Hw) (c k : Nat) (v : PwmTb) : (h.setTb c k v).rstCause = h.rstCause := rfl
@[simp] theorem Hw.setTb_pads (h : Hw) (c k : Nat) (v : PwmTb) : (h.setTb c k v).pads = h.pads := rfl
@[simp] theorem Hw.setTb_padLast (h : Hw) (c k : Nat) (v : PwmTb) : (h.setTb c k v).padLast = h.padLast := rfl
@[simp] theorem Hw.setTb_pinSw (h : Hw) (c k : Nat) (v : PwmTb) : (h.setTb c k v).pinSw = h.pinSw := rfl
@[simp] theorem Hw.setTb_holds (h : Hw) (c k : Nat) (v : PwmTb) : (h.setTb c k v).holds = h.holds := rfl
@[simp] theorem Hw.setTb_safeNLow (h : Hw) (c k : Nat) (v : PwmTb) : (h.setTb c k v).safeNLow = h.safeNLow := rfl
@[simp] theorem Hw.setTb_safeNAt (h : Hw) (c k : Nat) (v : PwmTb) : (h.setTb c k v).safeNAt = h.safeNAt := rfl
@[simp] theorem Hw.setTb_held (h : Hw) (c k : Nat) (v : PwmTb) : (h.setTb c k v).held = h.held := rfl
@[simp] theorem Hw.setTb_loopRun (h : Hw) (c k : Nat) (v : PwmTb) : (h.setTb c k v).loopRun = h.loopRun := rfl
@[simp] theorem Hw.setTb_uc (h : Hw) (c k : Nat) (v : PwmTb) : (h.setTb c k v).uc = h.uc := rfl
@[simp] theorem Hw.setTb_traceQ (h : Hw) (c k : Nat) (v : PwmTb) : (h.setTb c k v).traceQ = h.traceQ := rfl
@[simp] theorem Hw.setTb_traceAt (h : Hw) (c k : Nat) (v : PwmTb) : (h.setTb c k v).traceAt = h.traceAt := rfl
@[simp] theorem Hw.setTb_traceLost (h : Hw) (c k : Nat) (v : PwmTb) : (h.setTb c k v).traceLost = h.traceLost := rfl
@[simp] theorem Hw.setTb_dramBad (h : Hw) (c k : Nat) (v : PwmTb) : (h.setTb c k v).dramBad = h.dramBad := rfl
@[simp] theorem Hw.setTb_dramWb (h : Hw) (c k : Nat) (v : PwmTb) : (h.setTb c k v).dramWb = h.dramWb := rfl
@[simp] theorem Hw.setTb_ceCount (h : Hw) (c k : Nat) (v : PwmTb) : (h.setTb c k v).ceCount = h.ceCount := rfl
@[simp] theorem Hw.setTb_darnerDue (h : Hw) (c k : Nat) (v : PwmTb) : (h.setTb c k v).darnerDue = h.darnerDue := rfl
@[simp] theorem Hw.setTb_darnerNow (h : Hw) (c k : Nat) (v : PwmTb) : (h.setTb c k v).darnerNow = h.darnerNow := rfl
@[simp] theorem Hw.setTb_passAt (h : Hw) (c k : Nat) (v : PwmTb) : (h.setTb c k v).passAt = h.passAt := rfl
@[simp] theorem Hw.setTb_dramQ (h : Hw) (c k : Nat) (v : PwmTb) : (h.setTb c k v).dramQ = h.dramQ := rfl
@[simp] theorem Hw.setTb_dramPos (h : Hw) (c k : Nat) (v : PwmTb) : (h.setTb c k v).dramPos = h.dramPos := rfl
@[simp] theorem Hw.setTb_dramRec (h : Hw) (c k : Nat) (v : PwmTb) : (h.setTb c k v).dramRec = h.dramRec := rfl
@[simp] theorem Hw.setTb_dramBulk (h : Hw) (c k : Nat) (v : PwmTb) : (h.setTb c k v).dramBulk = h.dramBulk := rfl
@[simp] theorem Hw.setTb_dramTurn (h : Hw) (c k : Nat) (v : PwmTb) : (h.setTb c k v).dramTurn = h.dramTurn := rfl
@[simp] theorem Hw.setTb_hamper (h : Hw) (c k : Nat) (v : PwmTb) : (h.setTb c k v).hamper = h.hamper := rfl
@[simp] theorem Hw.setTb_flash (h : Hw) (c k : Nat) (v : PwmTb) : (h.setTb c k v).flash = h.flash := rfl
@[simp] theorem Hw.setTb_ports (h : Hw) (c k : Nat) (v : PwmTb) : (h.setTb c k v).ports = h.ports := rfl
@[simp] theorem Hw.setTb_dom (h : Hw) (c k : Nat) (v : PwmTb) : (h.setTb c k v).dom = h.dom := rfl
@[simp] theorem Hw.setTb_porAt (h : Hw) (c k : Nat) (v : PwmTb) : (h.setTb c k v).porAt = h.porAt := rfl
@[simp] theorem Hw.setTb_resp (h : Hw) (c k : Nat) (v : PwmTb) : (h.setTb c k v).resp = h.resp := rfl
@[simp] theorem Hw.setTb_vectors (h : Hw) (c k : Nat) (v : PwmTb) : (h.setTb c k v).vectors = h.vectors := rfl
@[simp] theorem Hw.setTb_msixEn (h : Hw) (c k : Nat) (v : PwmTb) : (h.setTb c k v).msixEn = h.msixEn := rfl
@[simp] theorem Hw.setTb_fmask (h : Hw) (c k : Nat) (v : PwmTb) : (h.setTb c k v).fmask = h.fmask := rfl
@[simp] theorem Hw.setTb_devCtl (h : Hw) (c k : Nat) (v : PwmTb) : (h.setTb c k v).devCtl = h.devCtl := rfl
@[simp] theorem Hw.setTb_perstLow (h : Hw) (c k : Nat) (v : PwmTb) : (h.setTb c k v).perstLow = h.perstLow := rfl
@[simp] theorem Hw.setTb_svcAccess (h : Hw) (c k : Nat) (v : PwmTb) : (h.setTb c k v).svcAccess = h.svcAccess := rfl
@[simp] theorem Hw.setTb_sess (h : Hw) (c k : Nat) (v : PwmTb) : (h.setTb c k v).sess = h.sess := rfl
@[simp] theorem Hw.setTb_svcq (h : Hw) (c k : Nat) (v : PwmTb) : (h.setTb c k v).svcq = h.svcq := rfl
@[simp] theorem Hw.setTb_txts (h : Hw) (c k : Nat) (v : PwmTb) : (h.setTb c k v).txts = h.txts := rfl
@[simp] theorem Hw.setTb_mdioRead (h : Hw) (c k : Nat) (v : PwmTb) : (h.setTb c k v).mdioRead = h.mdioRead := rfl
@[simp] theorem Hw.setTb_mch (h : Hw) (c k : Nat) (v : PwmTb) : (h.setTb c k v).mch = h.mch := rfl
@[simp] theorem Hw.setTb_mArb (h : Hw) (c k : Nat) (v : PwmTb) : (h.setTb c k v).mArb = h.mArb := rfl
@[simp] theorem Hw.setTb_resetLow (h : Hw) (c k : Nat) (v : PwmTb) : (h.setTb c k v).resetLow = h.resetLow := rfl
@[simp] theorem Hw.setTb_porstLow (h : Hw) (c k : Nat) (v : PwmTb) : (h.setTb c k v).porstLow = h.porstLow := rfl
@[simp] theorem Hw.setTb_bootPins (h : Hw) (c k : Nat) (v : PwmTb) : (h.setTb c k v).bootPins = h.bootPins := rfl
@[simp] theorem Hw.setTb_crWait (h : Hw) (c k : Nat) (v : PwmTb) : (h.setTb c k v).crWait = h.crWait := rfl
@[simp] theorem Hw.setTb_monHold (h : Hw) (c k : Nat) (v : PwmTb) : (h.setTb c k v).monHold = h.monHold := rfl
@[simp] theorem Hw.setTb_rstAt (h : Hw) (c k : Nat) (v : PwmTb) : (h.setTb c k v).rstAt = h.rstAt := rfl
@[simp] theorem Hw.setTb_bootDue (h : Hw) (c k : Nat) (v : PwmTb) : (h.setTb c k v).bootDue = h.bootDue := rfl
@[simp] theorem Hw.setTb_tap (h : Hw) (c k : Nat) (v : PwmTb) : (h.setTb c k v).tap = h.tap := rfl
@[simp] theorem Hw.setTb_scan (h : Hw) (c k : Nat) (v : PwmTb) : (h.setTb c k v).scan = h.scan := rfl
@[simp] theorem Hw.setTb_dapSticky (h : Hw) (c k : Nat) (v : PwmTb) : (h.setTb c k v).dapSticky = h.dapSticky := rfl
@[simp] theorem Hw.setTb_out (h : Hw) (c k : Nat) (v : PwmTb) : (h.setTb c k v).out = h.out := rfl

/-! ## setPch -/

@[simp] theorem Hw.setPch_now (h : Hw) (c k : Nat) (v : PwmCh) : (h.setPch c k v).now = h.now := rfl
@[simp] theorem Hw.setPch_freeNo (h : Hw) (c k : Nat) (v : PwmCh) : (h.setPch c k v).freeNo = h.freeNo := rfl
@[simp] theorem Hw.setPch_regs (h : Hw) (c k : Nat) (v : PwmCh) : (h.setPch c k v).regs = h.regs := rfl
@[simp] theorem Hw.setPch_pairs (h : Hw) (c k : Nat) (v : PwmCh) : (h.setPch c k v).pairs = h.pairs := rfl
@[simp] theorem Hw.setPch_rr (h : Hw) (c k : Nat) (v : PwmCh) : (h.setPch c k v).rr = h.rr := rfl
@[simp] theorem Hw.setPch_swAt (h : Hw) (c k : Nat) (v : PwmCh) : (h.setPch c k v).swAt = h.swAt := rfl
@[simp] theorem Hw.setPch_swMem (h : Hw) (c k : Nat) (v : PwmCh) : (h.setPch c k v).swMem = h.swMem := rfl
@[simp] theorem Hw.setPch_due (h : Hw) (c k : Nat) (v : PwmCh) : (h.setPch c k v).due = h.due := rfl
@[simp] theorem Hw.setPch_released (h : Hw) (c k : Nat) (v : PwmCh) : (h.setPch c k v).released = h.released := rfl
@[simp] theorem Hw.setPch_deep (h : Hw) (c k : Nat) (v : PwmCh) : (h.setPch c k v).deep = h.deep := rfl
@[simp] theorem Hw.setPch_cores (h : Hw) (c k : Nat) (v : PwmCh) : (h.setPch c k v).cores = h.cores := rfl
@[simp] theorem Hw.setPch_flights (h : Hw) (c k : Nat) (v : PwmCh) : (h.setPch c k v).flights = h.flights := rfl
@[simp] theorem Hw.setPch_seamIn (h : Hw) (c k : Nat) (v : PwmCh) : (h.setPch c k v).seamIn = h.seamIn := rfl
@[simp] theorem Hw.setPch_carried (h : Hw) (c k : Nat) (v : PwmCh) : (h.setPch c k v).carried = h.carried := rfl
@[simp] theorem Hw.setPch_maintQ (h : Hw) (c k : Nat) (v : PwmCh) : (h.setPch c k v).maintQ = h.maintQ := rfl
@[simp] theorem Hw.setPch_maintRun (h : Hw) (c k : Nat) (v : PwmCh) : (h.setPch c k v).maintRun = h.maintRun := rfl
@[simp] theorem Hw.setPch_maintAt (h : Hw) (c k : Nat) (v : PwmCh) : (h.setPch c k v).maintAt = h.maintAt := rfl
@[simp] theorem Hw.setPch_adc (h : Hw) (c k : Nat) (v : PwmCh) : (h.setPch c k v).adc = h.adc := rfl
@[simp] theorem Hw.setPch_sdf (h : Hw) (c k : Nat) (v : PwmCh) : (h.setPch c k v).sdf = h.sdf := rfl
@[simp] theorem Hw.setPch_cmp (h : Hw) (c k : Nat) (v : PwmCh) : (h.setPch c k v).cmp = h.cmp := rfl
@[simp] theorem Hw.setPch_trk (h : Hw) (c k : Nat) (v : PwmCh) : (h.setPch c k v).trk = h.trk := rfl
@[simp] theorem Hw.setPch_pwmTb (h : Hw) (c k : Nat) (v : PwmCh) : (h.setPch c k v).pwmTb = h.pwmTb := rfl
@[simp] theorem Hw.setPch_dicStack (h : Hw) (c k : Nat) (v : PwmCh) : (h.setPch c k v).dicStack = h.dicStack := rfl
@[simp] theorem Hw.setPch_dicLine (h : Hw) (c k : Nat) (v : PwmCh) : (h.setPch c k v).dicLine = h.dicLine := rfl
@[simp] theorem Hw.setPch_dicLate (h : Hw) (c k : Nat) (v : PwmCh) : (h.setPch c k v).dicLate = h.dicLate := rfl
@[simp] theorem Hw.setPch_divSaved (h : Hw) (c k : Nat) (v : PwmCh) : (h.setPch c k v).divSaved = h.divSaved := rfl
@[simp] theorem Hw.setPch_cpySaved (h : Hw) (c k : Nat) (v : PwmCh) : (h.setPch c k v).cpySaved = h.cpySaved := rfl
@[simp] theorem Hw.setPch_xfpSw (h : Hw) (c k : Nat) (v : PwmCh) : (h.setPch c k v).xfpSw = h.xfpSw := rfl
@[simp] theorem Hw.setPch_xfpHw (h : Hw) (c k : Nat) (v : PwmCh) : (h.setPch c k v).xfpHw = h.xfpHw := rfl
@[simp] theorem Hw.setPch_wdtPre (h : Hw) (c k : Nat) (v : PwmCh) : (h.setPch c k v).wdtPre = h.wdtPre := rfl
@[simp] theorem Hw.setPch_wakeReq (h : Hw) (c k : Nat) (v : PwmCh) : (h.setPch c k v).wakeReq = h.wakeReq := rfl
@[simp] theorem Hw.setPch_rstCause (h : Hw) (c k : Nat) (v : PwmCh) : (h.setPch c k v).rstCause = h.rstCause := rfl
@[simp] theorem Hw.setPch_pads (h : Hw) (c k : Nat) (v : PwmCh) : (h.setPch c k v).pads = h.pads := rfl
@[simp] theorem Hw.setPch_padLast (h : Hw) (c k : Nat) (v : PwmCh) : (h.setPch c k v).padLast = h.padLast := rfl
@[simp] theorem Hw.setPch_pinSw (h : Hw) (c k : Nat) (v : PwmCh) : (h.setPch c k v).pinSw = h.pinSw := rfl
@[simp] theorem Hw.setPch_holds (h : Hw) (c k : Nat) (v : PwmCh) : (h.setPch c k v).holds = h.holds := rfl
@[simp] theorem Hw.setPch_safeNLow (h : Hw) (c k : Nat) (v : PwmCh) : (h.setPch c k v).safeNLow = h.safeNLow := rfl
@[simp] theorem Hw.setPch_safeNAt (h : Hw) (c k : Nat) (v : PwmCh) : (h.setPch c k v).safeNAt = h.safeNAt := rfl
@[simp] theorem Hw.setPch_held (h : Hw) (c k : Nat) (v : PwmCh) : (h.setPch c k v).held = h.held := rfl
@[simp] theorem Hw.setPch_loopRun (h : Hw) (c k : Nat) (v : PwmCh) : (h.setPch c k v).loopRun = h.loopRun := rfl
@[simp] theorem Hw.setPch_uc (h : Hw) (c k : Nat) (v : PwmCh) : (h.setPch c k v).uc = h.uc := rfl
@[simp] theorem Hw.setPch_traceQ (h : Hw) (c k : Nat) (v : PwmCh) : (h.setPch c k v).traceQ = h.traceQ := rfl
@[simp] theorem Hw.setPch_traceAt (h : Hw) (c k : Nat) (v : PwmCh) : (h.setPch c k v).traceAt = h.traceAt := rfl
@[simp] theorem Hw.setPch_traceLost (h : Hw) (c k : Nat) (v : PwmCh) : (h.setPch c k v).traceLost = h.traceLost := rfl
@[simp] theorem Hw.setPch_dramBad (h : Hw) (c k : Nat) (v : PwmCh) : (h.setPch c k v).dramBad = h.dramBad := rfl
@[simp] theorem Hw.setPch_dramWb (h : Hw) (c k : Nat) (v : PwmCh) : (h.setPch c k v).dramWb = h.dramWb := rfl
@[simp] theorem Hw.setPch_ceCount (h : Hw) (c k : Nat) (v : PwmCh) : (h.setPch c k v).ceCount = h.ceCount := rfl
@[simp] theorem Hw.setPch_darnerDue (h : Hw) (c k : Nat) (v : PwmCh) : (h.setPch c k v).darnerDue = h.darnerDue := rfl
@[simp] theorem Hw.setPch_darnerNow (h : Hw) (c k : Nat) (v : PwmCh) : (h.setPch c k v).darnerNow = h.darnerNow := rfl
@[simp] theorem Hw.setPch_passAt (h : Hw) (c k : Nat) (v : PwmCh) : (h.setPch c k v).passAt = h.passAt := rfl
@[simp] theorem Hw.setPch_dramQ (h : Hw) (c k : Nat) (v : PwmCh) : (h.setPch c k v).dramQ = h.dramQ := rfl
@[simp] theorem Hw.setPch_dramPos (h : Hw) (c k : Nat) (v : PwmCh) : (h.setPch c k v).dramPos = h.dramPos := rfl
@[simp] theorem Hw.setPch_dramRec (h : Hw) (c k : Nat) (v : PwmCh) : (h.setPch c k v).dramRec = h.dramRec := rfl
@[simp] theorem Hw.setPch_dramBulk (h : Hw) (c k : Nat) (v : PwmCh) : (h.setPch c k v).dramBulk = h.dramBulk := rfl
@[simp] theorem Hw.setPch_dramTurn (h : Hw) (c k : Nat) (v : PwmCh) : (h.setPch c k v).dramTurn = h.dramTurn := rfl
@[simp] theorem Hw.setPch_hamper (h : Hw) (c k : Nat) (v : PwmCh) : (h.setPch c k v).hamper = h.hamper := rfl
@[simp] theorem Hw.setPch_flash (h : Hw) (c k : Nat) (v : PwmCh) : (h.setPch c k v).flash = h.flash := rfl
@[simp] theorem Hw.setPch_ports (h : Hw) (c k : Nat) (v : PwmCh) : (h.setPch c k v).ports = h.ports := rfl
@[simp] theorem Hw.setPch_dom (h : Hw) (c k : Nat) (v : PwmCh) : (h.setPch c k v).dom = h.dom := rfl
@[simp] theorem Hw.setPch_porAt (h : Hw) (c k : Nat) (v : PwmCh) : (h.setPch c k v).porAt = h.porAt := rfl
@[simp] theorem Hw.setPch_resp (h : Hw) (c k : Nat) (v : PwmCh) : (h.setPch c k v).resp = h.resp := rfl
@[simp] theorem Hw.setPch_vectors (h : Hw) (c k : Nat) (v : PwmCh) : (h.setPch c k v).vectors = h.vectors := rfl
@[simp] theorem Hw.setPch_msixEn (h : Hw) (c k : Nat) (v : PwmCh) : (h.setPch c k v).msixEn = h.msixEn := rfl
@[simp] theorem Hw.setPch_fmask (h : Hw) (c k : Nat) (v : PwmCh) : (h.setPch c k v).fmask = h.fmask := rfl
@[simp] theorem Hw.setPch_devCtl (h : Hw) (c k : Nat) (v : PwmCh) : (h.setPch c k v).devCtl = h.devCtl := rfl
@[simp] theorem Hw.setPch_perstLow (h : Hw) (c k : Nat) (v : PwmCh) : (h.setPch c k v).perstLow = h.perstLow := rfl
@[simp] theorem Hw.setPch_svcAccess (h : Hw) (c k : Nat) (v : PwmCh) : (h.setPch c k v).svcAccess = h.svcAccess := rfl
@[simp] theorem Hw.setPch_sess (h : Hw) (c k : Nat) (v : PwmCh) : (h.setPch c k v).sess = h.sess := rfl
@[simp] theorem Hw.setPch_svcq (h : Hw) (c k : Nat) (v : PwmCh) : (h.setPch c k v).svcq = h.svcq := rfl
@[simp] theorem Hw.setPch_txts (h : Hw) (c k : Nat) (v : PwmCh) : (h.setPch c k v).txts = h.txts := rfl
@[simp] theorem Hw.setPch_mdioRead (h : Hw) (c k : Nat) (v : PwmCh) : (h.setPch c k v).mdioRead = h.mdioRead := rfl
@[simp] theorem Hw.setPch_mch (h : Hw) (c k : Nat) (v : PwmCh) : (h.setPch c k v).mch = h.mch := rfl
@[simp] theorem Hw.setPch_mArb (h : Hw) (c k : Nat) (v : PwmCh) : (h.setPch c k v).mArb = h.mArb := rfl
@[simp] theorem Hw.setPch_resetLow (h : Hw) (c k : Nat) (v : PwmCh) : (h.setPch c k v).resetLow = h.resetLow := rfl
@[simp] theorem Hw.setPch_porstLow (h : Hw) (c k : Nat) (v : PwmCh) : (h.setPch c k v).porstLow = h.porstLow := rfl
@[simp] theorem Hw.setPch_bootPins (h : Hw) (c k : Nat) (v : PwmCh) : (h.setPch c k v).bootPins = h.bootPins := rfl
@[simp] theorem Hw.setPch_crWait (h : Hw) (c k : Nat) (v : PwmCh) : (h.setPch c k v).crWait = h.crWait := rfl
@[simp] theorem Hw.setPch_monHold (h : Hw) (c k : Nat) (v : PwmCh) : (h.setPch c k v).monHold = h.monHold := rfl
@[simp] theorem Hw.setPch_rstAt (h : Hw) (c k : Nat) (v : PwmCh) : (h.setPch c k v).rstAt = h.rstAt := rfl
@[simp] theorem Hw.setPch_bootDue (h : Hw) (c k : Nat) (v : PwmCh) : (h.setPch c k v).bootDue = h.bootDue := rfl
@[simp] theorem Hw.setPch_tap (h : Hw) (c k : Nat) (v : PwmCh) : (h.setPch c k v).tap = h.tap := rfl
@[simp] theorem Hw.setPch_scan (h : Hw) (c k : Nat) (v : PwmCh) : (h.setPch c k v).scan = h.scan := rfl
@[simp] theorem Hw.setPch_dapSticky (h : Hw) (c k : Nat) (v : PwmCh) : (h.setPch c k v).dapSticky = h.dapSticky := rfl
@[simp] theorem Hw.setPch_out (h : Hw) (c k : Nat) (v : PwmCh) : (h.setPch c k v).out = h.out := rfl

/-! ## setRun -/

@[simp] theorem Hw.setRun_now (h : Hw) (c : Nat) (v : Option LoopRun) : (h.setRun c v).now = h.now := rfl
@[simp] theorem Hw.setRun_freeNo (h : Hw) (c : Nat) (v : Option LoopRun) : (h.setRun c v).freeNo = h.freeNo := rfl
@[simp] theorem Hw.setRun_regs (h : Hw) (c : Nat) (v : Option LoopRun) : (h.setRun c v).regs = h.regs := rfl
@[simp] theorem Hw.setRun_pairs (h : Hw) (c : Nat) (v : Option LoopRun) : (h.setRun c v).pairs = h.pairs := rfl
@[simp] theorem Hw.setRun_rr (h : Hw) (c : Nat) (v : Option LoopRun) : (h.setRun c v).rr = h.rr := rfl
@[simp] theorem Hw.setRun_swAt (h : Hw) (c : Nat) (v : Option LoopRun) : (h.setRun c v).swAt = h.swAt := rfl
@[simp] theorem Hw.setRun_swMem (h : Hw) (c : Nat) (v : Option LoopRun) : (h.setRun c v).swMem = h.swMem := rfl
@[simp] theorem Hw.setRun_due (h : Hw) (c : Nat) (v : Option LoopRun) : (h.setRun c v).due = h.due := rfl
@[simp] theorem Hw.setRun_released (h : Hw) (c : Nat) (v : Option LoopRun) : (h.setRun c v).released = h.released := rfl
@[simp] theorem Hw.setRun_deep (h : Hw) (c : Nat) (v : Option LoopRun) : (h.setRun c v).deep = h.deep := rfl
@[simp] theorem Hw.setRun_cores (h : Hw) (c : Nat) (v : Option LoopRun) : (h.setRun c v).cores = h.cores := rfl
@[simp] theorem Hw.setRun_flights (h : Hw) (c : Nat) (v : Option LoopRun) : (h.setRun c v).flights = h.flights := rfl
@[simp] theorem Hw.setRun_seamIn (h : Hw) (c : Nat) (v : Option LoopRun) : (h.setRun c v).seamIn = h.seamIn := rfl
@[simp] theorem Hw.setRun_carried (h : Hw) (c : Nat) (v : Option LoopRun) : (h.setRun c v).carried = h.carried := rfl
@[simp] theorem Hw.setRun_maintQ (h : Hw) (c : Nat) (v : Option LoopRun) : (h.setRun c v).maintQ = h.maintQ := rfl
@[simp] theorem Hw.setRun_maintRun (h : Hw) (c : Nat) (v : Option LoopRun) : (h.setRun c v).maintRun = h.maintRun := rfl
@[simp] theorem Hw.setRun_maintAt (h : Hw) (c : Nat) (v : Option LoopRun) : (h.setRun c v).maintAt = h.maintAt := rfl
@[simp] theorem Hw.setRun_adc (h : Hw) (c : Nat) (v : Option LoopRun) : (h.setRun c v).adc = h.adc := rfl
@[simp] theorem Hw.setRun_sdf (h : Hw) (c : Nat) (v : Option LoopRun) : (h.setRun c v).sdf = h.sdf := rfl
@[simp] theorem Hw.setRun_cmp (h : Hw) (c : Nat) (v : Option LoopRun) : (h.setRun c v).cmp = h.cmp := rfl
@[simp] theorem Hw.setRun_trk (h : Hw) (c : Nat) (v : Option LoopRun) : (h.setRun c v).trk = h.trk := rfl
@[simp] theorem Hw.setRun_pwmTb (h : Hw) (c : Nat) (v : Option LoopRun) : (h.setRun c v).pwmTb = h.pwmTb := rfl
@[simp] theorem Hw.setRun_pwmCh (h : Hw) (c : Nat) (v : Option LoopRun) : (h.setRun c v).pwmCh = h.pwmCh := rfl
@[simp] theorem Hw.setRun_dicStack (h : Hw) (c : Nat) (v : Option LoopRun) : (h.setRun c v).dicStack = h.dicStack := rfl
@[simp] theorem Hw.setRun_dicLine (h : Hw) (c : Nat) (v : Option LoopRun) : (h.setRun c v).dicLine = h.dicLine := rfl
@[simp] theorem Hw.setRun_dicLate (h : Hw) (c : Nat) (v : Option LoopRun) : (h.setRun c v).dicLate = h.dicLate := rfl
@[simp] theorem Hw.setRun_divSaved (h : Hw) (c : Nat) (v : Option LoopRun) : (h.setRun c v).divSaved = h.divSaved := rfl
@[simp] theorem Hw.setRun_cpySaved (h : Hw) (c : Nat) (v : Option LoopRun) : (h.setRun c v).cpySaved = h.cpySaved := rfl
@[simp] theorem Hw.setRun_xfpSw (h : Hw) (c : Nat) (v : Option LoopRun) : (h.setRun c v).xfpSw = h.xfpSw := rfl
@[simp] theorem Hw.setRun_xfpHw (h : Hw) (c : Nat) (v : Option LoopRun) : (h.setRun c v).xfpHw = h.xfpHw := rfl
@[simp] theorem Hw.setRun_wdtPre (h : Hw) (c : Nat) (v : Option LoopRun) : (h.setRun c v).wdtPre = h.wdtPre := rfl
@[simp] theorem Hw.setRun_wakeReq (h : Hw) (c : Nat) (v : Option LoopRun) : (h.setRun c v).wakeReq = h.wakeReq := rfl
@[simp] theorem Hw.setRun_rstCause (h : Hw) (c : Nat) (v : Option LoopRun) : (h.setRun c v).rstCause = h.rstCause := rfl
@[simp] theorem Hw.setRun_pads (h : Hw) (c : Nat) (v : Option LoopRun) : (h.setRun c v).pads = h.pads := rfl
@[simp] theorem Hw.setRun_padLast (h : Hw) (c : Nat) (v : Option LoopRun) : (h.setRun c v).padLast = h.padLast := rfl
@[simp] theorem Hw.setRun_pinSw (h : Hw) (c : Nat) (v : Option LoopRun) : (h.setRun c v).pinSw = h.pinSw := rfl
@[simp] theorem Hw.setRun_holds (h : Hw) (c : Nat) (v : Option LoopRun) : (h.setRun c v).holds = h.holds := rfl
@[simp] theorem Hw.setRun_safeNLow (h : Hw) (c : Nat) (v : Option LoopRun) : (h.setRun c v).safeNLow = h.safeNLow := rfl
@[simp] theorem Hw.setRun_safeNAt (h : Hw) (c : Nat) (v : Option LoopRun) : (h.setRun c v).safeNAt = h.safeNAt := rfl
@[simp] theorem Hw.setRun_held (h : Hw) (c : Nat) (v : Option LoopRun) : (h.setRun c v).held = h.held := rfl
@[simp] theorem Hw.setRun_uc (h : Hw) (c : Nat) (v : Option LoopRun) : (h.setRun c v).uc = h.uc := rfl
@[simp] theorem Hw.setRun_traceQ (h : Hw) (c : Nat) (v : Option LoopRun) : (h.setRun c v).traceQ = h.traceQ := rfl
@[simp] theorem Hw.setRun_traceAt (h : Hw) (c : Nat) (v : Option LoopRun) : (h.setRun c v).traceAt = h.traceAt := rfl
@[simp] theorem Hw.setRun_traceLost (h : Hw) (c : Nat) (v : Option LoopRun) : (h.setRun c v).traceLost = h.traceLost := rfl
@[simp] theorem Hw.setRun_dramBad (h : Hw) (c : Nat) (v : Option LoopRun) : (h.setRun c v).dramBad = h.dramBad := rfl
@[simp] theorem Hw.setRun_dramWb (h : Hw) (c : Nat) (v : Option LoopRun) : (h.setRun c v).dramWb = h.dramWb := rfl
@[simp] theorem Hw.setRun_ceCount (h : Hw) (c : Nat) (v : Option LoopRun) : (h.setRun c v).ceCount = h.ceCount := rfl
@[simp] theorem Hw.setRun_darnerDue (h : Hw) (c : Nat) (v : Option LoopRun) : (h.setRun c v).darnerDue = h.darnerDue := rfl
@[simp] theorem Hw.setRun_darnerNow (h : Hw) (c : Nat) (v : Option LoopRun) : (h.setRun c v).darnerNow = h.darnerNow := rfl
@[simp] theorem Hw.setRun_passAt (h : Hw) (c : Nat) (v : Option LoopRun) : (h.setRun c v).passAt = h.passAt := rfl
@[simp] theorem Hw.setRun_dramQ (h : Hw) (c : Nat) (v : Option LoopRun) : (h.setRun c v).dramQ = h.dramQ := rfl
@[simp] theorem Hw.setRun_dramPos (h : Hw) (c : Nat) (v : Option LoopRun) : (h.setRun c v).dramPos = h.dramPos := rfl
@[simp] theorem Hw.setRun_dramRec (h : Hw) (c : Nat) (v : Option LoopRun) : (h.setRun c v).dramRec = h.dramRec := rfl
@[simp] theorem Hw.setRun_dramBulk (h : Hw) (c : Nat) (v : Option LoopRun) : (h.setRun c v).dramBulk = h.dramBulk := rfl
@[simp] theorem Hw.setRun_dramTurn (h : Hw) (c : Nat) (v : Option LoopRun) : (h.setRun c v).dramTurn = h.dramTurn := rfl
@[simp] theorem Hw.setRun_hamper (h : Hw) (c : Nat) (v : Option LoopRun) : (h.setRun c v).hamper = h.hamper := rfl
@[simp] theorem Hw.setRun_flash (h : Hw) (c : Nat) (v : Option LoopRun) : (h.setRun c v).flash = h.flash := rfl
@[simp] theorem Hw.setRun_ports (h : Hw) (c : Nat) (v : Option LoopRun) : (h.setRun c v).ports = h.ports := rfl
@[simp] theorem Hw.setRun_dom (h : Hw) (c : Nat) (v : Option LoopRun) : (h.setRun c v).dom = h.dom := rfl
@[simp] theorem Hw.setRun_porAt (h : Hw) (c : Nat) (v : Option LoopRun) : (h.setRun c v).porAt = h.porAt := rfl
@[simp] theorem Hw.setRun_resp (h : Hw) (c : Nat) (v : Option LoopRun) : (h.setRun c v).resp = h.resp := rfl
@[simp] theorem Hw.setRun_vectors (h : Hw) (c : Nat) (v : Option LoopRun) : (h.setRun c v).vectors = h.vectors := rfl
@[simp] theorem Hw.setRun_msixEn (h : Hw) (c : Nat) (v : Option LoopRun) : (h.setRun c v).msixEn = h.msixEn := rfl
@[simp] theorem Hw.setRun_fmask (h : Hw) (c : Nat) (v : Option LoopRun) : (h.setRun c v).fmask = h.fmask := rfl
@[simp] theorem Hw.setRun_devCtl (h : Hw) (c : Nat) (v : Option LoopRun) : (h.setRun c v).devCtl = h.devCtl := rfl
@[simp] theorem Hw.setRun_perstLow (h : Hw) (c : Nat) (v : Option LoopRun) : (h.setRun c v).perstLow = h.perstLow := rfl
@[simp] theorem Hw.setRun_svcAccess (h : Hw) (c : Nat) (v : Option LoopRun) : (h.setRun c v).svcAccess = h.svcAccess := rfl
@[simp] theorem Hw.setRun_sess (h : Hw) (c : Nat) (v : Option LoopRun) : (h.setRun c v).sess = h.sess := rfl
@[simp] theorem Hw.setRun_svcq (h : Hw) (c : Nat) (v : Option LoopRun) : (h.setRun c v).svcq = h.svcq := rfl
@[simp] theorem Hw.setRun_txts (h : Hw) (c : Nat) (v : Option LoopRun) : (h.setRun c v).txts = h.txts := rfl
@[simp] theorem Hw.setRun_mdioRead (h : Hw) (c : Nat) (v : Option LoopRun) : (h.setRun c v).mdioRead = h.mdioRead := rfl
@[simp] theorem Hw.setRun_mch (h : Hw) (c : Nat) (v : Option LoopRun) : (h.setRun c v).mch = h.mch := rfl
@[simp] theorem Hw.setRun_mArb (h : Hw) (c : Nat) (v : Option LoopRun) : (h.setRun c v).mArb = h.mArb := rfl
@[simp] theorem Hw.setRun_resetLow (h : Hw) (c : Nat) (v : Option LoopRun) : (h.setRun c v).resetLow = h.resetLow := rfl
@[simp] theorem Hw.setRun_porstLow (h : Hw) (c : Nat) (v : Option LoopRun) : (h.setRun c v).porstLow = h.porstLow := rfl
@[simp] theorem Hw.setRun_bootPins (h : Hw) (c : Nat) (v : Option LoopRun) : (h.setRun c v).bootPins = h.bootPins := rfl
@[simp] theorem Hw.setRun_crWait (h : Hw) (c : Nat) (v : Option LoopRun) : (h.setRun c v).crWait = h.crWait := rfl
@[simp] theorem Hw.setRun_monHold (h : Hw) (c : Nat) (v : Option LoopRun) : (h.setRun c v).monHold = h.monHold := rfl
@[simp] theorem Hw.setRun_rstAt (h : Hw) (c : Nat) (v : Option LoopRun) : (h.setRun c v).rstAt = h.rstAt := rfl
@[simp] theorem Hw.setRun_bootDue (h : Hw) (c : Nat) (v : Option LoopRun) : (h.setRun c v).bootDue = h.bootDue := rfl
@[simp] theorem Hw.setRun_tap (h : Hw) (c : Nat) (v : Option LoopRun) : (h.setRun c v).tap = h.tap := rfl
@[simp] theorem Hw.setRun_scan (h : Hw) (c : Nat) (v : Option LoopRun) : (h.setRun c v).scan = h.scan := rfl
@[simp] theorem Hw.setRun_dapSticky (h : Hw) (c : Nat) (v : Option LoopRun) : (h.setRun c v).dapSticky = h.dapSticky := rfl
@[simp] theorem Hw.setRun_out (h : Hw) (c : Nat) (v : Option LoopRun) : (h.setRun c v).out = h.out := rfl

/-! ## setMch -/

@[simp] theorem Hw.setMch_now (h : Hw) (m : Mch) (v : MchSt) : (h.setMch m v).now = h.now := rfl
@[simp] theorem Hw.setMch_freeNo (h : Hw) (m : Mch) (v : MchSt) : (h.setMch m v).freeNo = h.freeNo := rfl
@[simp] theorem Hw.setMch_regs (h : Hw) (m : Mch) (v : MchSt) : (h.setMch m v).regs = h.regs := rfl
@[simp] theorem Hw.setMch_pairs (h : Hw) (m : Mch) (v : MchSt) : (h.setMch m v).pairs = h.pairs := rfl
@[simp] theorem Hw.setMch_rr (h : Hw) (m : Mch) (v : MchSt) : (h.setMch m v).rr = h.rr := rfl
@[simp] theorem Hw.setMch_swAt (h : Hw) (m : Mch) (v : MchSt) : (h.setMch m v).swAt = h.swAt := rfl
@[simp] theorem Hw.setMch_swMem (h : Hw) (m : Mch) (v : MchSt) : (h.setMch m v).swMem = h.swMem := rfl
@[simp] theorem Hw.setMch_due (h : Hw) (m : Mch) (v : MchSt) : (h.setMch m v).due = h.due := rfl
@[simp] theorem Hw.setMch_released (h : Hw) (m : Mch) (v : MchSt) : (h.setMch m v).released = h.released := rfl
@[simp] theorem Hw.setMch_deep (h : Hw) (m : Mch) (v : MchSt) : (h.setMch m v).deep = h.deep := rfl
@[simp] theorem Hw.setMch_cores (h : Hw) (m : Mch) (v : MchSt) : (h.setMch m v).cores = h.cores := rfl
@[simp] theorem Hw.setMch_flights (h : Hw) (m : Mch) (v : MchSt) : (h.setMch m v).flights = h.flights := rfl
@[simp] theorem Hw.setMch_seamIn (h : Hw) (m : Mch) (v : MchSt) : (h.setMch m v).seamIn = h.seamIn := rfl
@[simp] theorem Hw.setMch_carried (h : Hw) (m : Mch) (v : MchSt) : (h.setMch m v).carried = h.carried := rfl
@[simp] theorem Hw.setMch_maintQ (h : Hw) (m : Mch) (v : MchSt) : (h.setMch m v).maintQ = h.maintQ := rfl
@[simp] theorem Hw.setMch_maintRun (h : Hw) (m : Mch) (v : MchSt) : (h.setMch m v).maintRun = h.maintRun := rfl
@[simp] theorem Hw.setMch_maintAt (h : Hw) (m : Mch) (v : MchSt) : (h.setMch m v).maintAt = h.maintAt := rfl
@[simp] theorem Hw.setMch_adc (h : Hw) (m : Mch) (v : MchSt) : (h.setMch m v).adc = h.adc := rfl
@[simp] theorem Hw.setMch_sdf (h : Hw) (m : Mch) (v : MchSt) : (h.setMch m v).sdf = h.sdf := rfl
@[simp] theorem Hw.setMch_cmp (h : Hw) (m : Mch) (v : MchSt) : (h.setMch m v).cmp = h.cmp := rfl
@[simp] theorem Hw.setMch_trk (h : Hw) (m : Mch) (v : MchSt) : (h.setMch m v).trk = h.trk := rfl
@[simp] theorem Hw.setMch_pwmTb (h : Hw) (m : Mch) (v : MchSt) : (h.setMch m v).pwmTb = h.pwmTb := rfl
@[simp] theorem Hw.setMch_pwmCh (h : Hw) (m : Mch) (v : MchSt) : (h.setMch m v).pwmCh = h.pwmCh := rfl
@[simp] theorem Hw.setMch_dicStack (h : Hw) (m : Mch) (v : MchSt) : (h.setMch m v).dicStack = h.dicStack := rfl
@[simp] theorem Hw.setMch_dicLine (h : Hw) (m : Mch) (v : MchSt) : (h.setMch m v).dicLine = h.dicLine := rfl
@[simp] theorem Hw.setMch_dicLate (h : Hw) (m : Mch) (v : MchSt) : (h.setMch m v).dicLate = h.dicLate := rfl
@[simp] theorem Hw.setMch_divSaved (h : Hw) (m : Mch) (v : MchSt) : (h.setMch m v).divSaved = h.divSaved := rfl
@[simp] theorem Hw.setMch_cpySaved (h : Hw) (m : Mch) (v : MchSt) : (h.setMch m v).cpySaved = h.cpySaved := rfl
@[simp] theorem Hw.setMch_xfpSw (h : Hw) (m : Mch) (v : MchSt) : (h.setMch m v).xfpSw = h.xfpSw := rfl
@[simp] theorem Hw.setMch_xfpHw (h : Hw) (m : Mch) (v : MchSt) : (h.setMch m v).xfpHw = h.xfpHw := rfl
@[simp] theorem Hw.setMch_wdtPre (h : Hw) (m : Mch) (v : MchSt) : (h.setMch m v).wdtPre = h.wdtPre := rfl
@[simp] theorem Hw.setMch_wakeReq (h : Hw) (m : Mch) (v : MchSt) : (h.setMch m v).wakeReq = h.wakeReq := rfl
@[simp] theorem Hw.setMch_rstCause (h : Hw) (m : Mch) (v : MchSt) : (h.setMch m v).rstCause = h.rstCause := rfl
@[simp] theorem Hw.setMch_pads (h : Hw) (m : Mch) (v : MchSt) : (h.setMch m v).pads = h.pads := rfl
@[simp] theorem Hw.setMch_padLast (h : Hw) (m : Mch) (v : MchSt) : (h.setMch m v).padLast = h.padLast := rfl
@[simp] theorem Hw.setMch_pinSw (h : Hw) (m : Mch) (v : MchSt) : (h.setMch m v).pinSw = h.pinSw := rfl
@[simp] theorem Hw.setMch_holds (h : Hw) (m : Mch) (v : MchSt) : (h.setMch m v).holds = h.holds := rfl
@[simp] theorem Hw.setMch_safeNLow (h : Hw) (m : Mch) (v : MchSt) : (h.setMch m v).safeNLow = h.safeNLow := rfl
@[simp] theorem Hw.setMch_safeNAt (h : Hw) (m : Mch) (v : MchSt) : (h.setMch m v).safeNAt = h.safeNAt := rfl
@[simp] theorem Hw.setMch_held (h : Hw) (m : Mch) (v : MchSt) : (h.setMch m v).held = h.held := rfl
@[simp] theorem Hw.setMch_loopRun (h : Hw) (m : Mch) (v : MchSt) : (h.setMch m v).loopRun = h.loopRun := rfl
@[simp] theorem Hw.setMch_uc (h : Hw) (m : Mch) (v : MchSt) : (h.setMch m v).uc = h.uc := rfl
@[simp] theorem Hw.setMch_traceQ (h : Hw) (m : Mch) (v : MchSt) : (h.setMch m v).traceQ = h.traceQ := rfl
@[simp] theorem Hw.setMch_traceAt (h : Hw) (m : Mch) (v : MchSt) : (h.setMch m v).traceAt = h.traceAt := rfl
@[simp] theorem Hw.setMch_traceLost (h : Hw) (m : Mch) (v : MchSt) : (h.setMch m v).traceLost = h.traceLost := rfl
@[simp] theorem Hw.setMch_dramBad (h : Hw) (m : Mch) (v : MchSt) : (h.setMch m v).dramBad = h.dramBad := rfl
@[simp] theorem Hw.setMch_dramWb (h : Hw) (m : Mch) (v : MchSt) : (h.setMch m v).dramWb = h.dramWb := rfl
@[simp] theorem Hw.setMch_ceCount (h : Hw) (m : Mch) (v : MchSt) : (h.setMch m v).ceCount = h.ceCount := rfl
@[simp] theorem Hw.setMch_darnerDue (h : Hw) (m : Mch) (v : MchSt) : (h.setMch m v).darnerDue = h.darnerDue := rfl
@[simp] theorem Hw.setMch_darnerNow (h : Hw) (m : Mch) (v : MchSt) : (h.setMch m v).darnerNow = h.darnerNow := rfl
@[simp] theorem Hw.setMch_passAt (h : Hw) (m : Mch) (v : MchSt) : (h.setMch m v).passAt = h.passAt := rfl
@[simp] theorem Hw.setMch_dramQ (h : Hw) (m : Mch) (v : MchSt) : (h.setMch m v).dramQ = h.dramQ := rfl
@[simp] theorem Hw.setMch_dramPos (h : Hw) (m : Mch) (v : MchSt) : (h.setMch m v).dramPos = h.dramPos := rfl
@[simp] theorem Hw.setMch_dramRec (h : Hw) (m : Mch) (v : MchSt) : (h.setMch m v).dramRec = h.dramRec := rfl
@[simp] theorem Hw.setMch_dramBulk (h : Hw) (m : Mch) (v : MchSt) : (h.setMch m v).dramBulk = h.dramBulk := rfl
@[simp] theorem Hw.setMch_dramTurn (h : Hw) (m : Mch) (v : MchSt) : (h.setMch m v).dramTurn = h.dramTurn := rfl
@[simp] theorem Hw.setMch_hamper (h : Hw) (m : Mch) (v : MchSt) : (h.setMch m v).hamper = h.hamper := rfl
@[simp] theorem Hw.setMch_flash (h : Hw) (m : Mch) (v : MchSt) : (h.setMch m v).flash = h.flash := rfl
@[simp] theorem Hw.setMch_ports (h : Hw) (m : Mch) (v : MchSt) : (h.setMch m v).ports = h.ports := rfl
@[simp] theorem Hw.setMch_dom (h : Hw) (m : Mch) (v : MchSt) : (h.setMch m v).dom = h.dom := rfl
@[simp] theorem Hw.setMch_porAt (h : Hw) (m : Mch) (v : MchSt) : (h.setMch m v).porAt = h.porAt := rfl
@[simp] theorem Hw.setMch_resp (h : Hw) (m : Mch) (v : MchSt) : (h.setMch m v).resp = h.resp := rfl
@[simp] theorem Hw.setMch_vectors (h : Hw) (m : Mch) (v : MchSt) : (h.setMch m v).vectors = h.vectors := rfl
@[simp] theorem Hw.setMch_msixEn (h : Hw) (m : Mch) (v : MchSt) : (h.setMch m v).msixEn = h.msixEn := rfl
@[simp] theorem Hw.setMch_fmask (h : Hw) (m : Mch) (v : MchSt) : (h.setMch m v).fmask = h.fmask := rfl
@[simp] theorem Hw.setMch_devCtl (h : Hw) (m : Mch) (v : MchSt) : (h.setMch m v).devCtl = h.devCtl := rfl
@[simp] theorem Hw.setMch_perstLow (h : Hw) (m : Mch) (v : MchSt) : (h.setMch m v).perstLow = h.perstLow := rfl
@[simp] theorem Hw.setMch_svcAccess (h : Hw) (m : Mch) (v : MchSt) : (h.setMch m v).svcAccess = h.svcAccess := rfl
@[simp] theorem Hw.setMch_sess (h : Hw) (m : Mch) (v : MchSt) : (h.setMch m v).sess = h.sess := rfl
@[simp] theorem Hw.setMch_svcq (h : Hw) (m : Mch) (v : MchSt) : (h.setMch m v).svcq = h.svcq := rfl
@[simp] theorem Hw.setMch_txts (h : Hw) (m : Mch) (v : MchSt) : (h.setMch m v).txts = h.txts := rfl
@[simp] theorem Hw.setMch_mdioRead (h : Hw) (m : Mch) (v : MchSt) : (h.setMch m v).mdioRead = h.mdioRead := rfl
@[simp] theorem Hw.setMch_mArb (h : Hw) (m : Mch) (v : MchSt) : (h.setMch m v).mArb = h.mArb := rfl
@[simp] theorem Hw.setMch_resetLow (h : Hw) (m : Mch) (v : MchSt) : (h.setMch m v).resetLow = h.resetLow := rfl
@[simp] theorem Hw.setMch_porstLow (h : Hw) (m : Mch) (v : MchSt) : (h.setMch m v).porstLow = h.porstLow := rfl
@[simp] theorem Hw.setMch_bootPins (h : Hw) (m : Mch) (v : MchSt) : (h.setMch m v).bootPins = h.bootPins := rfl
@[simp] theorem Hw.setMch_crWait (h : Hw) (m : Mch) (v : MchSt) : (h.setMch m v).crWait = h.crWait := rfl
@[simp] theorem Hw.setMch_monHold (h : Hw) (m : Mch) (v : MchSt) : (h.setMch m v).monHold = h.monHold := rfl
@[simp] theorem Hw.setMch_rstAt (h : Hw) (m : Mch) (v : MchSt) : (h.setMch m v).rstAt = h.rstAt := rfl
@[simp] theorem Hw.setMch_bootDue (h : Hw) (m : Mch) (v : MchSt) : (h.setMch m v).bootDue = h.bootDue := rfl
@[simp] theorem Hw.setMch_tap (h : Hw) (m : Mch) (v : MchSt) : (h.setMch m v).tap = h.tap := rfl
@[simp] theorem Hw.setMch_scan (h : Hw) (m : Mch) (v : MchSt) : (h.setMch m v).scan = h.scan := rfl
@[simp] theorem Hw.setMch_dapSticky (h : Hw) (m : Mch) (v : MchSt) : (h.setMch m v).dapSticky = h.dapSticky := rfl
@[simp] theorem Hw.setMch_out (h : Hw) (m : Mch) (v : MchSt) : (h.setMch m v).out = h.out := rfl

/-! ## setPort -/

@[simp] theorem Hw.setPort_now (h : Hw) (k : Nat) (v : PortSt) : (h.setPort k v).now = h.now := rfl
@[simp] theorem Hw.setPort_freeNo (h : Hw) (k : Nat) (v : PortSt) : (h.setPort k v).freeNo = h.freeNo := rfl
@[simp] theorem Hw.setPort_regs (h : Hw) (k : Nat) (v : PortSt) : (h.setPort k v).regs = h.regs := rfl
@[simp] theorem Hw.setPort_pairs (h : Hw) (k : Nat) (v : PortSt) : (h.setPort k v).pairs = h.pairs := rfl
@[simp] theorem Hw.setPort_rr (h : Hw) (k : Nat) (v : PortSt) : (h.setPort k v).rr = h.rr := rfl
@[simp] theorem Hw.setPort_swAt (h : Hw) (k : Nat) (v : PortSt) : (h.setPort k v).swAt = h.swAt := rfl
@[simp] theorem Hw.setPort_swMem (h : Hw) (k : Nat) (v : PortSt) : (h.setPort k v).swMem = h.swMem := rfl
@[simp] theorem Hw.setPort_due (h : Hw) (k : Nat) (v : PortSt) : (h.setPort k v).due = h.due := rfl
@[simp] theorem Hw.setPort_released (h : Hw) (k : Nat) (v : PortSt) : (h.setPort k v).released = h.released := rfl
@[simp] theorem Hw.setPort_deep (h : Hw) (k : Nat) (v : PortSt) : (h.setPort k v).deep = h.deep := rfl
@[simp] theorem Hw.setPort_cores (h : Hw) (k : Nat) (v : PortSt) : (h.setPort k v).cores = h.cores := rfl
@[simp] theorem Hw.setPort_flights (h : Hw) (k : Nat) (v : PortSt) : (h.setPort k v).flights = h.flights := rfl
@[simp] theorem Hw.setPort_seamIn (h : Hw) (k : Nat) (v : PortSt) : (h.setPort k v).seamIn = h.seamIn := rfl
@[simp] theorem Hw.setPort_carried (h : Hw) (k : Nat) (v : PortSt) : (h.setPort k v).carried = h.carried := rfl
@[simp] theorem Hw.setPort_maintQ (h : Hw) (k : Nat) (v : PortSt) : (h.setPort k v).maintQ = h.maintQ := rfl
@[simp] theorem Hw.setPort_maintRun (h : Hw) (k : Nat) (v : PortSt) : (h.setPort k v).maintRun = h.maintRun := rfl
@[simp] theorem Hw.setPort_maintAt (h : Hw) (k : Nat) (v : PortSt) : (h.setPort k v).maintAt = h.maintAt := rfl
@[simp] theorem Hw.setPort_adc (h : Hw) (k : Nat) (v : PortSt) : (h.setPort k v).adc = h.adc := rfl
@[simp] theorem Hw.setPort_sdf (h : Hw) (k : Nat) (v : PortSt) : (h.setPort k v).sdf = h.sdf := rfl
@[simp] theorem Hw.setPort_cmp (h : Hw) (k : Nat) (v : PortSt) : (h.setPort k v).cmp = h.cmp := rfl
@[simp] theorem Hw.setPort_trk (h : Hw) (k : Nat) (v : PortSt) : (h.setPort k v).trk = h.trk := rfl
@[simp] theorem Hw.setPort_pwmTb (h : Hw) (k : Nat) (v : PortSt) : (h.setPort k v).pwmTb = h.pwmTb := rfl
@[simp] theorem Hw.setPort_pwmCh (h : Hw) (k : Nat) (v : PortSt) : (h.setPort k v).pwmCh = h.pwmCh := rfl
@[simp] theorem Hw.setPort_dicStack (h : Hw) (k : Nat) (v : PortSt) : (h.setPort k v).dicStack = h.dicStack := rfl
@[simp] theorem Hw.setPort_dicLine (h : Hw) (k : Nat) (v : PortSt) : (h.setPort k v).dicLine = h.dicLine := rfl
@[simp] theorem Hw.setPort_dicLate (h : Hw) (k : Nat) (v : PortSt) : (h.setPort k v).dicLate = h.dicLate := rfl
@[simp] theorem Hw.setPort_divSaved (h : Hw) (k : Nat) (v : PortSt) : (h.setPort k v).divSaved = h.divSaved := rfl
@[simp] theorem Hw.setPort_cpySaved (h : Hw) (k : Nat) (v : PortSt) : (h.setPort k v).cpySaved = h.cpySaved := rfl
@[simp] theorem Hw.setPort_xfpSw (h : Hw) (k : Nat) (v : PortSt) : (h.setPort k v).xfpSw = h.xfpSw := rfl
@[simp] theorem Hw.setPort_xfpHw (h : Hw) (k : Nat) (v : PortSt) : (h.setPort k v).xfpHw = h.xfpHw := rfl
@[simp] theorem Hw.setPort_wdtPre (h : Hw) (k : Nat) (v : PortSt) : (h.setPort k v).wdtPre = h.wdtPre := rfl
@[simp] theorem Hw.setPort_wakeReq (h : Hw) (k : Nat) (v : PortSt) : (h.setPort k v).wakeReq = h.wakeReq := rfl
@[simp] theorem Hw.setPort_rstCause (h : Hw) (k : Nat) (v : PortSt) : (h.setPort k v).rstCause = h.rstCause := rfl
@[simp] theorem Hw.setPort_pads (h : Hw) (k : Nat) (v : PortSt) : (h.setPort k v).pads = h.pads := rfl
@[simp] theorem Hw.setPort_padLast (h : Hw) (k : Nat) (v : PortSt) : (h.setPort k v).padLast = h.padLast := rfl
@[simp] theorem Hw.setPort_pinSw (h : Hw) (k : Nat) (v : PortSt) : (h.setPort k v).pinSw = h.pinSw := rfl
@[simp] theorem Hw.setPort_holds (h : Hw) (k : Nat) (v : PortSt) : (h.setPort k v).holds = h.holds := rfl
@[simp] theorem Hw.setPort_safeNLow (h : Hw) (k : Nat) (v : PortSt) : (h.setPort k v).safeNLow = h.safeNLow := rfl
@[simp] theorem Hw.setPort_safeNAt (h : Hw) (k : Nat) (v : PortSt) : (h.setPort k v).safeNAt = h.safeNAt := rfl
@[simp] theorem Hw.setPort_held (h : Hw) (k : Nat) (v : PortSt) : (h.setPort k v).held = h.held := rfl
@[simp] theorem Hw.setPort_loopRun (h : Hw) (k : Nat) (v : PortSt) : (h.setPort k v).loopRun = h.loopRun := rfl
@[simp] theorem Hw.setPort_uc (h : Hw) (k : Nat) (v : PortSt) : (h.setPort k v).uc = h.uc := rfl
@[simp] theorem Hw.setPort_traceQ (h : Hw) (k : Nat) (v : PortSt) : (h.setPort k v).traceQ = h.traceQ := rfl
@[simp] theorem Hw.setPort_traceAt (h : Hw) (k : Nat) (v : PortSt) : (h.setPort k v).traceAt = h.traceAt := rfl
@[simp] theorem Hw.setPort_traceLost (h : Hw) (k : Nat) (v : PortSt) : (h.setPort k v).traceLost = h.traceLost := rfl
@[simp] theorem Hw.setPort_dramBad (h : Hw) (k : Nat) (v : PortSt) : (h.setPort k v).dramBad = h.dramBad := rfl
@[simp] theorem Hw.setPort_dramWb (h : Hw) (k : Nat) (v : PortSt) : (h.setPort k v).dramWb = h.dramWb := rfl
@[simp] theorem Hw.setPort_ceCount (h : Hw) (k : Nat) (v : PortSt) : (h.setPort k v).ceCount = h.ceCount := rfl
@[simp] theorem Hw.setPort_darnerDue (h : Hw) (k : Nat) (v : PortSt) : (h.setPort k v).darnerDue = h.darnerDue := rfl
@[simp] theorem Hw.setPort_darnerNow (h : Hw) (k : Nat) (v : PortSt) : (h.setPort k v).darnerNow = h.darnerNow := rfl
@[simp] theorem Hw.setPort_passAt (h : Hw) (k : Nat) (v : PortSt) : (h.setPort k v).passAt = h.passAt := rfl
@[simp] theorem Hw.setPort_dramQ (h : Hw) (k : Nat) (v : PortSt) : (h.setPort k v).dramQ = h.dramQ := rfl
@[simp] theorem Hw.setPort_dramPos (h : Hw) (k : Nat) (v : PortSt) : (h.setPort k v).dramPos = h.dramPos := rfl
@[simp] theorem Hw.setPort_dramRec (h : Hw) (k : Nat) (v : PortSt) : (h.setPort k v).dramRec = h.dramRec := rfl
@[simp] theorem Hw.setPort_dramBulk (h : Hw) (k : Nat) (v : PortSt) : (h.setPort k v).dramBulk = h.dramBulk := rfl
@[simp] theorem Hw.setPort_dramTurn (h : Hw) (k : Nat) (v : PortSt) : (h.setPort k v).dramTurn = h.dramTurn := rfl
@[simp] theorem Hw.setPort_hamper (h : Hw) (k : Nat) (v : PortSt) : (h.setPort k v).hamper = h.hamper := rfl
@[simp] theorem Hw.setPort_flash (h : Hw) (k : Nat) (v : PortSt) : (h.setPort k v).flash = h.flash := rfl
@[simp] theorem Hw.setPort_dom (h : Hw) (k : Nat) (v : PortSt) : (h.setPort k v).dom = h.dom := rfl
@[simp] theorem Hw.setPort_porAt (h : Hw) (k : Nat) (v : PortSt) : (h.setPort k v).porAt = h.porAt := rfl
@[simp] theorem Hw.setPort_resp (h : Hw) (k : Nat) (v : PortSt) : (h.setPort k v).resp = h.resp := rfl
@[simp] theorem Hw.setPort_vectors (h : Hw) (k : Nat) (v : PortSt) : (h.setPort k v).vectors = h.vectors := rfl
@[simp] theorem Hw.setPort_msixEn (h : Hw) (k : Nat) (v : PortSt) : (h.setPort k v).msixEn = h.msixEn := rfl
@[simp] theorem Hw.setPort_fmask (h : Hw) (k : Nat) (v : PortSt) : (h.setPort k v).fmask = h.fmask := rfl
@[simp] theorem Hw.setPort_devCtl (h : Hw) (k : Nat) (v : PortSt) : (h.setPort k v).devCtl = h.devCtl := rfl
@[simp] theorem Hw.setPort_perstLow (h : Hw) (k : Nat) (v : PortSt) : (h.setPort k v).perstLow = h.perstLow := rfl
@[simp] theorem Hw.setPort_svcAccess (h : Hw) (k : Nat) (v : PortSt) : (h.setPort k v).svcAccess = h.svcAccess := rfl
@[simp] theorem Hw.setPort_sess (h : Hw) (k : Nat) (v : PortSt) : (h.setPort k v).sess = h.sess := rfl
@[simp] theorem Hw.setPort_svcq (h : Hw) (k : Nat) (v : PortSt) : (h.setPort k v).svcq = h.svcq := rfl
@[simp] theorem Hw.setPort_txts (h : Hw) (k : Nat) (v : PortSt) : (h.setPort k v).txts = h.txts := rfl
@[simp] theorem Hw.setPort_mdioRead (h : Hw) (k : Nat) (v : PortSt) : (h.setPort k v).mdioRead = h.mdioRead := rfl
@[simp] theorem Hw.setPort_mch (h : Hw) (k : Nat) (v : PortSt) : (h.setPort k v).mch = h.mch := rfl
@[simp] theorem Hw.setPort_mArb (h : Hw) (k : Nat) (v : PortSt) : (h.setPort k v).mArb = h.mArb := rfl
@[simp] theorem Hw.setPort_resetLow (h : Hw) (k : Nat) (v : PortSt) : (h.setPort k v).resetLow = h.resetLow := rfl
@[simp] theorem Hw.setPort_porstLow (h : Hw) (k : Nat) (v : PortSt) : (h.setPort k v).porstLow = h.porstLow := rfl
@[simp] theorem Hw.setPort_bootPins (h : Hw) (k : Nat) (v : PortSt) : (h.setPort k v).bootPins = h.bootPins := rfl
@[simp] theorem Hw.setPort_crWait (h : Hw) (k : Nat) (v : PortSt) : (h.setPort k v).crWait = h.crWait := rfl
@[simp] theorem Hw.setPort_monHold (h : Hw) (k : Nat) (v : PortSt) : (h.setPort k v).monHold = h.monHold := rfl
@[simp] theorem Hw.setPort_rstAt (h : Hw) (k : Nat) (v : PortSt) : (h.setPort k v).rstAt = h.rstAt := rfl
@[simp] theorem Hw.setPort_bootDue (h : Hw) (k : Nat) (v : PortSt) : (h.setPort k v).bootDue = h.bootDue := rfl
@[simp] theorem Hw.setPort_tap (h : Hw) (k : Nat) (v : PortSt) : (h.setPort k v).tap = h.tap := rfl
@[simp] theorem Hw.setPort_scan (h : Hw) (k : Nat) (v : PortSt) : (h.setPort k v).scan = h.scan := rfl
@[simp] theorem Hw.setPort_dapSticky (h : Hw) (k : Nat) (v : PortSt) : (h.setPort k v).dapSticky = h.dapSticky := rfl
@[simp] theorem Hw.setPort_out (h : Hw) (k : Nat) (v : PortSt) : (h.setPort k v).out = h.out := rfl

/-! ## onDom -/

@[simp] theorem Hw.onDom_now (h : Hw) (g : DomSt → DomSt) : (h.onDom g).now = h.now := rfl
@[simp] theorem Hw.onDom_freeNo (h : Hw) (g : DomSt → DomSt) : (h.onDom g).freeNo = h.freeNo := rfl
@[simp] theorem Hw.onDom_regs (h : Hw) (g : DomSt → DomSt) : (h.onDom g).regs = h.regs := rfl
@[simp] theorem Hw.onDom_pairs (h : Hw) (g : DomSt → DomSt) : (h.onDom g).pairs = h.pairs := rfl
@[simp] theorem Hw.onDom_rr (h : Hw) (g : DomSt → DomSt) : (h.onDom g).rr = h.rr := rfl
@[simp] theorem Hw.onDom_swAt (h : Hw) (g : DomSt → DomSt) : (h.onDom g).swAt = h.swAt := rfl
@[simp] theorem Hw.onDom_swMem (h : Hw) (g : DomSt → DomSt) : (h.onDom g).swMem = h.swMem := rfl
@[simp] theorem Hw.onDom_due (h : Hw) (g : DomSt → DomSt) : (h.onDom g).due = h.due := rfl
@[simp] theorem Hw.onDom_released (h : Hw) (g : DomSt → DomSt) : (h.onDom g).released = h.released := rfl
@[simp] theorem Hw.onDom_deep (h : Hw) (g : DomSt → DomSt) : (h.onDom g).deep = h.deep := rfl
@[simp] theorem Hw.onDom_cores (h : Hw) (g : DomSt → DomSt) : (h.onDom g).cores = h.cores := rfl
@[simp] theorem Hw.onDom_flights (h : Hw) (g : DomSt → DomSt) : (h.onDom g).flights = h.flights := rfl
@[simp] theorem Hw.onDom_seamIn (h : Hw) (g : DomSt → DomSt) : (h.onDom g).seamIn = h.seamIn := rfl
@[simp] theorem Hw.onDom_carried (h : Hw) (g : DomSt → DomSt) : (h.onDom g).carried = h.carried := rfl
@[simp] theorem Hw.onDom_maintQ (h : Hw) (g : DomSt → DomSt) : (h.onDom g).maintQ = h.maintQ := rfl
@[simp] theorem Hw.onDom_maintRun (h : Hw) (g : DomSt → DomSt) : (h.onDom g).maintRun = h.maintRun := rfl
@[simp] theorem Hw.onDom_maintAt (h : Hw) (g : DomSt → DomSt) : (h.onDom g).maintAt = h.maintAt := rfl
@[simp] theorem Hw.onDom_adc (h : Hw) (g : DomSt → DomSt) : (h.onDom g).adc = h.adc := rfl
@[simp] theorem Hw.onDom_sdf (h : Hw) (g : DomSt → DomSt) : (h.onDom g).sdf = h.sdf := rfl
@[simp] theorem Hw.onDom_cmp (h : Hw) (g : DomSt → DomSt) : (h.onDom g).cmp = h.cmp := rfl
@[simp] theorem Hw.onDom_trk (h : Hw) (g : DomSt → DomSt) : (h.onDom g).trk = h.trk := rfl
@[simp] theorem Hw.onDom_pwmTb (h : Hw) (g : DomSt → DomSt) : (h.onDom g).pwmTb = h.pwmTb := rfl
@[simp] theorem Hw.onDom_pwmCh (h : Hw) (g : DomSt → DomSt) : (h.onDom g).pwmCh = h.pwmCh := rfl
@[simp] theorem Hw.onDom_dicStack (h : Hw) (g : DomSt → DomSt) : (h.onDom g).dicStack = h.dicStack := rfl
@[simp] theorem Hw.onDom_dicLine (h : Hw) (g : DomSt → DomSt) : (h.onDom g).dicLine = h.dicLine := rfl
@[simp] theorem Hw.onDom_dicLate (h : Hw) (g : DomSt → DomSt) : (h.onDom g).dicLate = h.dicLate := rfl
@[simp] theorem Hw.onDom_divSaved (h : Hw) (g : DomSt → DomSt) : (h.onDom g).divSaved = h.divSaved := rfl
@[simp] theorem Hw.onDom_cpySaved (h : Hw) (g : DomSt → DomSt) : (h.onDom g).cpySaved = h.cpySaved := rfl
@[simp] theorem Hw.onDom_xfpSw (h : Hw) (g : DomSt → DomSt) : (h.onDom g).xfpSw = h.xfpSw := rfl
@[simp] theorem Hw.onDom_xfpHw (h : Hw) (g : DomSt → DomSt) : (h.onDom g).xfpHw = h.xfpHw := rfl
@[simp] theorem Hw.onDom_wdtPre (h : Hw) (g : DomSt → DomSt) : (h.onDom g).wdtPre = h.wdtPre := rfl
@[simp] theorem Hw.onDom_wakeReq (h : Hw) (g : DomSt → DomSt) : (h.onDom g).wakeReq = h.wakeReq := rfl
@[simp] theorem Hw.onDom_rstCause (h : Hw) (g : DomSt → DomSt) : (h.onDom g).rstCause = h.rstCause := rfl
@[simp] theorem Hw.onDom_pads (h : Hw) (g : DomSt → DomSt) : (h.onDom g).pads = h.pads := rfl
@[simp] theorem Hw.onDom_padLast (h : Hw) (g : DomSt → DomSt) : (h.onDom g).padLast = h.padLast := rfl
@[simp] theorem Hw.onDom_pinSw (h : Hw) (g : DomSt → DomSt) : (h.onDom g).pinSw = h.pinSw := rfl
@[simp] theorem Hw.onDom_holds (h : Hw) (g : DomSt → DomSt) : (h.onDom g).holds = h.holds := rfl
@[simp] theorem Hw.onDom_safeNLow (h : Hw) (g : DomSt → DomSt) : (h.onDom g).safeNLow = h.safeNLow := rfl
@[simp] theorem Hw.onDom_safeNAt (h : Hw) (g : DomSt → DomSt) : (h.onDom g).safeNAt = h.safeNAt := rfl
@[simp] theorem Hw.onDom_held (h : Hw) (g : DomSt → DomSt) : (h.onDom g).held = h.held := rfl
@[simp] theorem Hw.onDom_loopRun (h : Hw) (g : DomSt → DomSt) : (h.onDom g).loopRun = h.loopRun := rfl
@[simp] theorem Hw.onDom_uc (h : Hw) (g : DomSt → DomSt) : (h.onDom g).uc = h.uc := rfl
@[simp] theorem Hw.onDom_traceQ (h : Hw) (g : DomSt → DomSt) : (h.onDom g).traceQ = h.traceQ := rfl
@[simp] theorem Hw.onDom_traceAt (h : Hw) (g : DomSt → DomSt) : (h.onDom g).traceAt = h.traceAt := rfl
@[simp] theorem Hw.onDom_traceLost (h : Hw) (g : DomSt → DomSt) : (h.onDom g).traceLost = h.traceLost := rfl
@[simp] theorem Hw.onDom_dramBad (h : Hw) (g : DomSt → DomSt) : (h.onDom g).dramBad = h.dramBad := rfl
@[simp] theorem Hw.onDom_dramWb (h : Hw) (g : DomSt → DomSt) : (h.onDom g).dramWb = h.dramWb := rfl
@[simp] theorem Hw.onDom_ceCount (h : Hw) (g : DomSt → DomSt) : (h.onDom g).ceCount = h.ceCount := rfl
@[simp] theorem Hw.onDom_darnerDue (h : Hw) (g : DomSt → DomSt) : (h.onDom g).darnerDue = h.darnerDue := rfl
@[simp] theorem Hw.onDom_darnerNow (h : Hw) (g : DomSt → DomSt) : (h.onDom g).darnerNow = h.darnerNow := rfl
@[simp] theorem Hw.onDom_passAt (h : Hw) (g : DomSt → DomSt) : (h.onDom g).passAt = h.passAt := rfl
@[simp] theorem Hw.onDom_dramQ (h : Hw) (g : DomSt → DomSt) : (h.onDom g).dramQ = h.dramQ := rfl
@[simp] theorem Hw.onDom_dramPos (h : Hw) (g : DomSt → DomSt) : (h.onDom g).dramPos = h.dramPos := rfl
@[simp] theorem Hw.onDom_dramRec (h : Hw) (g : DomSt → DomSt) : (h.onDom g).dramRec = h.dramRec := rfl
@[simp] theorem Hw.onDom_dramBulk (h : Hw) (g : DomSt → DomSt) : (h.onDom g).dramBulk = h.dramBulk := rfl
@[simp] theorem Hw.onDom_dramTurn (h : Hw) (g : DomSt → DomSt) : (h.onDom g).dramTurn = h.dramTurn := rfl
@[simp] theorem Hw.onDom_hamper (h : Hw) (g : DomSt → DomSt) : (h.onDom g).hamper = h.hamper := rfl
@[simp] theorem Hw.onDom_flash (h : Hw) (g : DomSt → DomSt) : (h.onDom g).flash = h.flash := rfl
@[simp] theorem Hw.onDom_ports (h : Hw) (g : DomSt → DomSt) : (h.onDom g).ports = h.ports := rfl
@[simp] theorem Hw.onDom_porAt (h : Hw) (g : DomSt → DomSt) : (h.onDom g).porAt = h.porAt := rfl
@[simp] theorem Hw.onDom_resp (h : Hw) (g : DomSt → DomSt) : (h.onDom g).resp = h.resp := rfl
@[simp] theorem Hw.onDom_vectors (h : Hw) (g : DomSt → DomSt) : (h.onDom g).vectors = h.vectors := rfl
@[simp] theorem Hw.onDom_msixEn (h : Hw) (g : DomSt → DomSt) : (h.onDom g).msixEn = h.msixEn := rfl
@[simp] theorem Hw.onDom_fmask (h : Hw) (g : DomSt → DomSt) : (h.onDom g).fmask = h.fmask := rfl
@[simp] theorem Hw.onDom_devCtl (h : Hw) (g : DomSt → DomSt) : (h.onDom g).devCtl = h.devCtl := rfl
@[simp] theorem Hw.onDom_perstLow (h : Hw) (g : DomSt → DomSt) : (h.onDom g).perstLow = h.perstLow := rfl
@[simp] theorem Hw.onDom_svcAccess (h : Hw) (g : DomSt → DomSt) : (h.onDom g).svcAccess = h.svcAccess := rfl
@[simp] theorem Hw.onDom_sess (h : Hw) (g : DomSt → DomSt) : (h.onDom g).sess = h.sess := rfl
@[simp] theorem Hw.onDom_svcq (h : Hw) (g : DomSt → DomSt) : (h.onDom g).svcq = h.svcq := rfl
@[simp] theorem Hw.onDom_txts (h : Hw) (g : DomSt → DomSt) : (h.onDom g).txts = h.txts := rfl
@[simp] theorem Hw.onDom_mdioRead (h : Hw) (g : DomSt → DomSt) : (h.onDom g).mdioRead = h.mdioRead := rfl
@[simp] theorem Hw.onDom_mch (h : Hw) (g : DomSt → DomSt) : (h.onDom g).mch = h.mch := rfl
@[simp] theorem Hw.onDom_mArb (h : Hw) (g : DomSt → DomSt) : (h.onDom g).mArb = h.mArb := rfl
@[simp] theorem Hw.onDom_resetLow (h : Hw) (g : DomSt → DomSt) : (h.onDom g).resetLow = h.resetLow := rfl
@[simp] theorem Hw.onDom_porstLow (h : Hw) (g : DomSt → DomSt) : (h.onDom g).porstLow = h.porstLow := rfl
@[simp] theorem Hw.onDom_bootPins (h : Hw) (g : DomSt → DomSt) : (h.onDom g).bootPins = h.bootPins := rfl
@[simp] theorem Hw.onDom_crWait (h : Hw) (g : DomSt → DomSt) : (h.onDom g).crWait = h.crWait := rfl
@[simp] theorem Hw.onDom_monHold (h : Hw) (g : DomSt → DomSt) : (h.onDom g).monHold = h.monHold := rfl
@[simp] theorem Hw.onDom_rstAt (h : Hw) (g : DomSt → DomSt) : (h.onDom g).rstAt = h.rstAt := rfl
@[simp] theorem Hw.onDom_bootDue (h : Hw) (g : DomSt → DomSt) : (h.onDom g).bootDue = h.bootDue := rfl
@[simp] theorem Hw.onDom_tap (h : Hw) (g : DomSt → DomSt) : (h.onDom g).tap = h.tap := rfl
@[simp] theorem Hw.onDom_scan (h : Hw) (g : DomSt → DomSt) : (h.onDom g).scan = h.scan := rfl
@[simp] theorem Hw.onDom_dapSticky (h : Hw) (g : DomSt → DomSt) : (h.onDom g).dapSticky = h.dapSticky := rfl
@[simp] theorem Hw.onDom_out (h : Hw) (g : DomSt → DomSt) : (h.onDom g).out = h.out := rfl

/-! ## setSession -/

@[simp] theorem Hw.setSession_now (h : Hw) (k : Nat) (v : Option Session) : (h.setSession k v).now = h.now := rfl
@[simp] theorem Hw.setSession_freeNo (h : Hw) (k : Nat) (v : Option Session) : (h.setSession k v).freeNo = h.freeNo := rfl
@[simp] theorem Hw.setSession_regs (h : Hw) (k : Nat) (v : Option Session) : (h.setSession k v).regs = h.regs := rfl
@[simp] theorem Hw.setSession_pairs (h : Hw) (k : Nat) (v : Option Session) : (h.setSession k v).pairs = h.pairs := rfl
@[simp] theorem Hw.setSession_rr (h : Hw) (k : Nat) (v : Option Session) : (h.setSession k v).rr = h.rr := rfl
@[simp] theorem Hw.setSession_swAt (h : Hw) (k : Nat) (v : Option Session) : (h.setSession k v).swAt = h.swAt := rfl
@[simp] theorem Hw.setSession_swMem (h : Hw) (k : Nat) (v : Option Session) : (h.setSession k v).swMem = h.swMem := rfl
@[simp] theorem Hw.setSession_due (h : Hw) (k : Nat) (v : Option Session) : (h.setSession k v).due = h.due := rfl
@[simp] theorem Hw.setSession_released (h : Hw) (k : Nat) (v : Option Session) : (h.setSession k v).released = h.released := rfl
@[simp] theorem Hw.setSession_deep (h : Hw) (k : Nat) (v : Option Session) : (h.setSession k v).deep = h.deep := rfl
@[simp] theorem Hw.setSession_cores (h : Hw) (k : Nat) (v : Option Session) : (h.setSession k v).cores = h.cores := rfl
@[simp] theorem Hw.setSession_flights (h : Hw) (k : Nat) (v : Option Session) : (h.setSession k v).flights = h.flights := rfl
@[simp] theorem Hw.setSession_seamIn (h : Hw) (k : Nat) (v : Option Session) : (h.setSession k v).seamIn = h.seamIn := rfl
@[simp] theorem Hw.setSession_carried (h : Hw) (k : Nat) (v : Option Session) : (h.setSession k v).carried = h.carried := rfl
@[simp] theorem Hw.setSession_maintQ (h : Hw) (k : Nat) (v : Option Session) : (h.setSession k v).maintQ = h.maintQ := rfl
@[simp] theorem Hw.setSession_maintRun (h : Hw) (k : Nat) (v : Option Session) : (h.setSession k v).maintRun = h.maintRun := rfl
@[simp] theorem Hw.setSession_maintAt (h : Hw) (k : Nat) (v : Option Session) : (h.setSession k v).maintAt = h.maintAt := rfl
@[simp] theorem Hw.setSession_adc (h : Hw) (k : Nat) (v : Option Session) : (h.setSession k v).adc = h.adc := rfl
@[simp] theorem Hw.setSession_sdf (h : Hw) (k : Nat) (v : Option Session) : (h.setSession k v).sdf = h.sdf := rfl
@[simp] theorem Hw.setSession_cmp (h : Hw) (k : Nat) (v : Option Session) : (h.setSession k v).cmp = h.cmp := rfl
@[simp] theorem Hw.setSession_trk (h : Hw) (k : Nat) (v : Option Session) : (h.setSession k v).trk = h.trk := rfl
@[simp] theorem Hw.setSession_pwmTb (h : Hw) (k : Nat) (v : Option Session) : (h.setSession k v).pwmTb = h.pwmTb := rfl
@[simp] theorem Hw.setSession_pwmCh (h : Hw) (k : Nat) (v : Option Session) : (h.setSession k v).pwmCh = h.pwmCh := rfl
@[simp] theorem Hw.setSession_dicStack (h : Hw) (k : Nat) (v : Option Session) : (h.setSession k v).dicStack = h.dicStack := rfl
@[simp] theorem Hw.setSession_dicLine (h : Hw) (k : Nat) (v : Option Session) : (h.setSession k v).dicLine = h.dicLine := rfl
@[simp] theorem Hw.setSession_dicLate (h : Hw) (k : Nat) (v : Option Session) : (h.setSession k v).dicLate = h.dicLate := rfl
@[simp] theorem Hw.setSession_divSaved (h : Hw) (k : Nat) (v : Option Session) : (h.setSession k v).divSaved = h.divSaved := rfl
@[simp] theorem Hw.setSession_cpySaved (h : Hw) (k : Nat) (v : Option Session) : (h.setSession k v).cpySaved = h.cpySaved := rfl
@[simp] theorem Hw.setSession_xfpSw (h : Hw) (k : Nat) (v : Option Session) : (h.setSession k v).xfpSw = h.xfpSw := rfl
@[simp] theorem Hw.setSession_xfpHw (h : Hw) (k : Nat) (v : Option Session) : (h.setSession k v).xfpHw = h.xfpHw := rfl
@[simp] theorem Hw.setSession_wdtPre (h : Hw) (k : Nat) (v : Option Session) : (h.setSession k v).wdtPre = h.wdtPre := rfl
@[simp] theorem Hw.setSession_wakeReq (h : Hw) (k : Nat) (v : Option Session) : (h.setSession k v).wakeReq = h.wakeReq := rfl
@[simp] theorem Hw.setSession_rstCause (h : Hw) (k : Nat) (v : Option Session) : (h.setSession k v).rstCause = h.rstCause := rfl
@[simp] theorem Hw.setSession_pads (h : Hw) (k : Nat) (v : Option Session) : (h.setSession k v).pads = h.pads := rfl
@[simp] theorem Hw.setSession_padLast (h : Hw) (k : Nat) (v : Option Session) : (h.setSession k v).padLast = h.padLast := rfl
@[simp] theorem Hw.setSession_pinSw (h : Hw) (k : Nat) (v : Option Session) : (h.setSession k v).pinSw = h.pinSw := rfl
@[simp] theorem Hw.setSession_holds (h : Hw) (k : Nat) (v : Option Session) : (h.setSession k v).holds = h.holds := rfl
@[simp] theorem Hw.setSession_safeNLow (h : Hw) (k : Nat) (v : Option Session) : (h.setSession k v).safeNLow = h.safeNLow := rfl
@[simp] theorem Hw.setSession_safeNAt (h : Hw) (k : Nat) (v : Option Session) : (h.setSession k v).safeNAt = h.safeNAt := rfl
@[simp] theorem Hw.setSession_held (h : Hw) (k : Nat) (v : Option Session) : (h.setSession k v).held = h.held := rfl
@[simp] theorem Hw.setSession_loopRun (h : Hw) (k : Nat) (v : Option Session) : (h.setSession k v).loopRun = h.loopRun := rfl
@[simp] theorem Hw.setSession_uc (h : Hw) (k : Nat) (v : Option Session) : (h.setSession k v).uc = h.uc := rfl
@[simp] theorem Hw.setSession_traceQ (h : Hw) (k : Nat) (v : Option Session) : (h.setSession k v).traceQ = h.traceQ := rfl
@[simp] theorem Hw.setSession_traceAt (h : Hw) (k : Nat) (v : Option Session) : (h.setSession k v).traceAt = h.traceAt := rfl
@[simp] theorem Hw.setSession_traceLost (h : Hw) (k : Nat) (v : Option Session) : (h.setSession k v).traceLost = h.traceLost := rfl
@[simp] theorem Hw.setSession_dramBad (h : Hw) (k : Nat) (v : Option Session) : (h.setSession k v).dramBad = h.dramBad := rfl
@[simp] theorem Hw.setSession_dramWb (h : Hw) (k : Nat) (v : Option Session) : (h.setSession k v).dramWb = h.dramWb := rfl
@[simp] theorem Hw.setSession_ceCount (h : Hw) (k : Nat) (v : Option Session) : (h.setSession k v).ceCount = h.ceCount := rfl
@[simp] theorem Hw.setSession_darnerDue (h : Hw) (k : Nat) (v : Option Session) : (h.setSession k v).darnerDue = h.darnerDue := rfl
@[simp] theorem Hw.setSession_darnerNow (h : Hw) (k : Nat) (v : Option Session) : (h.setSession k v).darnerNow = h.darnerNow := rfl
@[simp] theorem Hw.setSession_passAt (h : Hw) (k : Nat) (v : Option Session) : (h.setSession k v).passAt = h.passAt := rfl
@[simp] theorem Hw.setSession_dramQ (h : Hw) (k : Nat) (v : Option Session) : (h.setSession k v).dramQ = h.dramQ := rfl
@[simp] theorem Hw.setSession_dramPos (h : Hw) (k : Nat) (v : Option Session) : (h.setSession k v).dramPos = h.dramPos := rfl
@[simp] theorem Hw.setSession_dramRec (h : Hw) (k : Nat) (v : Option Session) : (h.setSession k v).dramRec = h.dramRec := rfl
@[simp] theorem Hw.setSession_dramBulk (h : Hw) (k : Nat) (v : Option Session) : (h.setSession k v).dramBulk = h.dramBulk := rfl
@[simp] theorem Hw.setSession_dramTurn (h : Hw) (k : Nat) (v : Option Session) : (h.setSession k v).dramTurn = h.dramTurn := rfl
@[simp] theorem Hw.setSession_hamper (h : Hw) (k : Nat) (v : Option Session) : (h.setSession k v).hamper = h.hamper := rfl
@[simp] theorem Hw.setSession_flash (h : Hw) (k : Nat) (v : Option Session) : (h.setSession k v).flash = h.flash := rfl
@[simp] theorem Hw.setSession_ports (h : Hw) (k : Nat) (v : Option Session) : (h.setSession k v).ports = h.ports := rfl
@[simp] theorem Hw.setSession_dom (h : Hw) (k : Nat) (v : Option Session) : (h.setSession k v).dom = h.dom := rfl
@[simp] theorem Hw.setSession_porAt (h : Hw) (k : Nat) (v : Option Session) : (h.setSession k v).porAt = h.porAt := rfl
@[simp] theorem Hw.setSession_resp (h : Hw) (k : Nat) (v : Option Session) : (h.setSession k v).resp = h.resp := rfl
@[simp] theorem Hw.setSession_vectors (h : Hw) (k : Nat) (v : Option Session) : (h.setSession k v).vectors = h.vectors := rfl
@[simp] theorem Hw.setSession_msixEn (h : Hw) (k : Nat) (v : Option Session) : (h.setSession k v).msixEn = h.msixEn := rfl
@[simp] theorem Hw.setSession_fmask (h : Hw) (k : Nat) (v : Option Session) : (h.setSession k v).fmask = h.fmask := rfl
@[simp] theorem Hw.setSession_devCtl (h : Hw) (k : Nat) (v : Option Session) : (h.setSession k v).devCtl = h.devCtl := rfl
@[simp] theorem Hw.setSession_perstLow (h : Hw) (k : Nat) (v : Option Session) : (h.setSession k v).perstLow = h.perstLow := rfl
@[simp] theorem Hw.setSession_svcAccess (h : Hw) (k : Nat) (v : Option Session) : (h.setSession k v).svcAccess = h.svcAccess := rfl
@[simp] theorem Hw.setSession_svcq (h : Hw) (k : Nat) (v : Option Session) : (h.setSession k v).svcq = h.svcq := rfl
@[simp] theorem Hw.setSession_txts (h : Hw) (k : Nat) (v : Option Session) : (h.setSession k v).txts = h.txts := rfl
@[simp] theorem Hw.setSession_mdioRead (h : Hw) (k : Nat) (v : Option Session) : (h.setSession k v).mdioRead = h.mdioRead := rfl
@[simp] theorem Hw.setSession_mch (h : Hw) (k : Nat) (v : Option Session) : (h.setSession k v).mch = h.mch := rfl
@[simp] theorem Hw.setSession_mArb (h : Hw) (k : Nat) (v : Option Session) : (h.setSession k v).mArb = h.mArb := rfl
@[simp] theorem Hw.setSession_resetLow (h : Hw) (k : Nat) (v : Option Session) : (h.setSession k v).resetLow = h.resetLow := rfl
@[simp] theorem Hw.setSession_porstLow (h : Hw) (k : Nat) (v : Option Session) : (h.setSession k v).porstLow = h.porstLow := rfl
@[simp] theorem Hw.setSession_bootPins (h : Hw) (k : Nat) (v : Option Session) : (h.setSession k v).bootPins = h.bootPins := rfl
@[simp] theorem Hw.setSession_crWait (h : Hw) (k : Nat) (v : Option Session) : (h.setSession k v).crWait = h.crWait := rfl
@[simp] theorem Hw.setSession_monHold (h : Hw) (k : Nat) (v : Option Session) : (h.setSession k v).monHold = h.monHold := rfl
@[simp] theorem Hw.setSession_rstAt (h : Hw) (k : Nat) (v : Option Session) : (h.setSession k v).rstAt = h.rstAt := rfl
@[simp] theorem Hw.setSession_bootDue (h : Hw) (k : Nat) (v : Option Session) : (h.setSession k v).bootDue = h.bootDue := rfl
@[simp] theorem Hw.setSession_tap (h : Hw) (k : Nat) (v : Option Session) : (h.setSession k v).tap = h.tap := rfl
@[simp] theorem Hw.setSession_scan (h : Hw) (k : Nat) (v : Option Session) : (h.setSession k v).scan = h.scan := rfl
@[simp] theorem Hw.setSession_dapSticky (h : Hw) (k : Nat) (v : Option Session) : (h.setSession k v).dapSticky = h.dapSticky := rfl
@[simp] theorem Hw.setSession_out (h : Hw) (k : Nat) (v : Option Session) : (h.setSession k v).out = h.out := rfl

/-! ## What an update sets -/

@[simp] theorem Hw.fresh_freeNo (h : Hw) : h.fresh.freeNo = h.freeNo + 1 := rfl
@[simp] theorem Hw.emit_out (h : Hw) (o : Out) : (h.emit o).out = h.out ++ [o] := rfl
@[simp] theorem Hw.onDom_dom (h : Hw) (g : DomSt → DomSt) : (h.onDom g).dom = g h.dom := rfl
@[simp] theorem Hw.adcSt_setAdc_same (h : Hw) (c : Nat) (v : AdcSt) : (h.setAdc c v).adcSt c = v := Bank.at_set_same ..
@[simp] theorem Hw.sdfSt_setSdf_same (h : Hw) (c k : Nat) (v : SdfSt) : (h.setSdf c k v).sdfSt c k = v := Bank.at_set_same ..
@[simp] theorem Hw.cmpSt_setCmp_same (h : Hw) (c k : Nat) (v : CmpSt) : (h.setCmp c k v).cmpSt c k = v := Bank.at_set_same ..
@[simp] theorem Hw.trkSt_setTrk_same (h : Hw) (c k : Nat) (v : TrkSt) : (h.setTrk c k v).trkSt c k = v := Bank.at_set_same ..
@[simp] theorem Hw.tb_setTb_same (h : Hw) (c k : Nat) (v : PwmTb) : (h.setTb c k v).tb c k = v := Bank.at_set_same ..
@[simp] theorem Hw.pch_setPch_same (h : Hw) (c k : Nat) (v : PwmCh) : (h.setPch c k v).pch c k = v := Bank.at_set_same ..
@[simp] theorem Hw.runOf_setRun_same (h : Hw) (c : Nat) (v : Option LoopRun) : (h.setRun c v).runOf c = v := Bank.at_set_same ..
@[simp] theorem Hw.port_setPort_same (h : Hw) (k : Nat) (v : PortSt) : (h.setPort k v).port k = v := Bank.at_set_same ..
@[simp] theorem Hw.session_setSession_same (h : Hw) (k : Nat) (v : Option Session) : (h.setSession k v).session k = v := Bank.at_set_same ..
@[simp] theorem Hw.mchOf_setMch_same (h : Hw) (m : Mch) (v : MchSt) : (h.setMch m v).mchOf m = v := Bank.at_set_same ..

theorem Hw.adcSt_setAdc_ne (h : Hw) {c c' : Nat} (v : AdcSt) (hne : c' ≠ c) :
    (h.setAdc c v).adcSt c' = h.adcSt c' := Bank.at_set_ne _ _ _ hne
theorem Hw.sdfSt_setSdf_ne (h : Hw) {c k c' k' : Nat} (v : SdfSt) (hne : 8 * c' + k' ≠ 8 * c + k) :
    (h.setSdf c k v).sdfSt c' k' = h.sdfSt c' k' := Bank.at_set_ne _ _ _ hne
theorem Hw.cmpSt_setCmp_ne (h : Hw) {c k c' k' : Nat} (v : CmpSt) (hne : 8 * c' + k' ≠ 8 * c + k) :
    (h.setCmp c k v).cmpSt c' k' = h.cmpSt c' k' := Bank.at_set_ne _ _ _ hne
theorem Hw.trkSt_setTrk_ne (h : Hw) {c k c' k' : Nat} (v : TrkSt) (hne : 4 * c' + k' ≠ 4 * c + k) :
    (h.setTrk c k v).trkSt c' k' = h.trkSt c' k' := Bank.at_set_ne _ _ _ hne
theorem Hw.tb_setTb_ne (h : Hw) {c k c' k' : Nat} (v : PwmTb) (hne : 4 * c' + k' ≠ 4 * c + k) :
    (h.setTb c k v).tb c' k' = h.tb c' k' := Bank.at_set_ne _ _ _ hne
theorem Hw.pch_setPch_ne (h : Hw) {c k c' k' : Nat} (v : PwmCh) (hne : 12 * c' + k' ≠ 12 * c + k) :
    (h.setPch c k v).pch c' k' = h.pch c' k' := Bank.at_set_ne _ _ _ hne
theorem Hw.runOf_setRun_ne (h : Hw) {c c' : Nat} (v : Option LoopRun) (hne : c' ≠ c) :
    (h.setRun c v).runOf c' = h.runOf c' := Bank.at_set_ne _ _ _ hne
theorem Hw.port_setPort_ne (h : Hw) {k k' : Nat} (v : PortSt) (hne : k' ≠ k) :
    (h.setPort k v).port k' = h.port k' := Bank.at_set_ne _ _ _ hne
theorem Hw.session_setSession_ne (h : Hw) {k k' : Nat} (v : Option Session) (hne : k' ≠ k) :
    (h.setSession k v).session k' = h.session k' := Bank.at_set_ne _ _ _ hne

end Sys2Proof.Machine
end

