-- ==== Sys2Proof/Laws/Ops.lean ====
section
/-! SUPPORT. The shared operations of Machine/Ops.lean: for each, once, everything it can do. -/

namespace Sys2Proof.Machine

open Sys2Proof

/-- A command whose effect lies in the hardware answers, and leaves the queue and the memories. -/
theorem onHw_answers (s : State) (g : Hw → Hw) :
    ∃ t, onHw s g = .next t ∧ t.hw = g s.hw ∧ t.pending = s.pending ∧ t.mem = s.mem ∧ t.tags = s.tags :=
  ⟨_, rfl, rfl, rfl, rfl, rfl⟩

/-- An outcome of `onHw` and what it answers. -/
theorem onHw_next {s t : State} {g : Hw → Hw} (h : onHw s g = .next t) :
    t.hw = g s.hw ∧ t.pending = s.pending ∧ t.mem = s.mem ∧ t.tags = s.tags := by
  cases h
  exact ⟨rfl, rfl, rfl, rfl⟩

/-- `j` is `h` but for the host vectors, and but for messages of them that it adds to what has left the device. -/
def vectorsOnly (h j : Hw) : Prop := ∃ v ms, j = { h with vectors := v, out := h.out ++ ms }

theorem vectorsOnly_refl (h : Hw) : vectorsOnly h h := ⟨h.vectors, [], by simp⟩

/-- R580. A vector's level touches the vectors, and sends at most a message. -/
theorem Hw.vectorLevel_spec (h : Hw) (v : Nat) (level : Bool) : vectorsOnly h (h.vectorLevel v level) := by
  unfold Hw.vectorLevel
  simp only
  split
  · split
    · exact ⟨_, _, rfl⟩
    · exact ⟨_, [], by rw [List.append_nil]⟩
  · split
    · exact ⟨_, [], by rw [List.append_nil]⟩
    · exact vectorsOnly_refl h

/-- R44, R579. The host vector follows a page's request. -/
theorem Hw.irqUpdate_spec (h : Hw) (p : Page) : vectorsOnly h (h.irqUpdate p) := by
  unfold Hw.irqUpdate
  split
  · exact vectorsOnly_refl h
  · exact Hw.vectorLevel_spec ..

/-- R16, R44. A hardware event sets bits of one page's IRQ_FLAG; the host vectors follow. -/
theorem Hw.irq_spec (h : Hw) (p : Page) (bits : Nat) : vectorsOnly (h.setReg p 5 0 (h.reg p 5 0 ||| w40 bits)) (h.irq p bits) :=
  Hw.irqUpdate_spec ..

/-- A field of `j` that is neither the vectors nor what left the device is the field of `h`. -/
theorem vectorsOnly.field {h j : Hw} {α : Type} (hv : vectorsOnly h j) (g : Hw → α)
    (hg : ∀ v o, g { h with vectors := v, out := o } = g h) : g j = g h := by
  obtain ⟨v, ms, rfl⟩ := hv
  exact hg v _

@[simp] theorem Hw.irq_reg_flag (h : Hw) (p : Page) (bits : Nat) : (h.irq p bits).reg p 5 0 = h.reg p 5 0 ||| w40 bits := by
  rw [Hw.irq, Hw.irqUpdate_reg, Hw.reg_setReg_same]

theorem Hw.irq_reg_ne (h : Hw) {p q : Page} {off ch : Nat} (bits : Nat) (hne : (q, off, ch) ≠ (p, 5, 0)) :
    (h.irq p bits).reg q off ch = h.reg q off ch := by
  rw [Hw.irq, Hw.irqUpdate_reg, Hw.reg_setReg_ne h _ hne]

@[simp] theorem Hw.irq_cores (h : Hw) (p : Page) (bits : Nat) : (h.irq p bits).cores = h.cores :=
  (Hw.irq_spec h p bits).field (·.cores) (fun _ _ => rfl)

@[simp] theorem Hw.irq_core (h : Hw) (p : Page) (bits j : Nat) : (h.irq p bits).core j = h.core j := by
  simp [Hw.core]

@[simp] theorem Hw.setF_core (h : Hw) (p : Page) (ch : Nat) (fl : Fld) (v j : Nat) : (h.setF p ch fl v).core j = h.core j := rfl

/-- R36. The log of a refused write touches DEV.ACC_LOG, DEV.IRQ_FLAG and the host vectors. -/
theorem Hw.logRefused_reg_ne (h : Hw) (a : Acc) (p : Page) (off : Nat) {q : Page} {o ch : Nat}
    (h1 : (q, o, ch) ≠ (pDEV, 0x80, 0)) (h2 : (q, o, ch) ≠ (pDEV, 5, 0)) :
    (h.logRefused a p off).reg q o ch = h.reg q o ch := by
  unfold Hw.logRefused Hw.irqBit
  exact (Hw.irq_reg_ne _ _ h2).trans (Hw.reg_setReg_ne h _ h1)

@[simp] theorem Hw.logRefused_cores (h : Hw) (a : Acc) (p : Page) (off : Nat) : (h.logRefused a p off).cores = h.cores := by
  unfold Hw.logRefused Hw.irqBit
  exact (Hw.irq_cores _ _ _).trans (Hw.setReg_cores ..)

/-- R360. An imprecise exception joins the queue of its core, or is dropped at five; no other core changes. -/
theorem Hw.coreFault_core_ne (h : Hw) {i j : Nat} (code info : Nat) (hne : j ≠ i) : (h.coreFault i code info).core j = h.core j := by
  simp only [Hw.coreFault]
  split
  · exact Hw.core_setCore_ne _ _ hne
  · rfl

@[simp] theorem Hw.coreFault_reg (h : Hw) (i code info : Nat) (q : Page) (off ch : Nat) :
    (h.coreFault i code info).reg q off ch = h.reg q off ch := by
  simp only [Hw.coreFault]
  split
  · rfl
  · rfl

/-- R36, R570. The report of a write that did not land changes no register but, for the host, those of PCIE. -/
theorem Hw.report_reg (h : Hw) (r : Requester) (p : Page) (off : Nat) (res : Res) {q : Page} {o ch : Nat}
    (hq : r = .host → q ≠ pPCIE) : (h.report r p off res).reg q o ch = h.reg q o ch := by
  unfold Hw.report
  split
  · rfl
  · simp
  · simp
  · rfl
  · have hq := hq rfl
    have k (x : Nat × Nat) : (q, o, ch) ≠ (pPCIE, x.1, x.2) := fun e => hq (congrArg Prod.fst e)
    simp only [Hw.hostRefused, Hw.irqBit, Hw.incF]
    rw [Hw.irq_reg_ne _ _ (k (5, 0)), Hw.reg_setF_ne _ _ _ (k (_, 0)), Hw.reg_setF_ne _ _ _ (k (_, 0)),
      Hw.reg_setF_ne _ _ _ (k (_, 0))]
  · rfl
  · rfl

/-- What a direct write can do: nothing but its report on a page that is absent or stopped; its effect, with no report; or a
refusal, logged and reported. -/
theorem Hw.direct_cases (h : Hw) (r : Requester) (p : Page) (off : Nat) (eff : Hw → Hw) :
    (pageInfo p = none ∧ h.direct r p off eff = h.report r p off .unmapped) ∨
    (∃ i, pageInfo p = some i ∧ h.stopped p = true ∧ h.direct r p off eff = h.report r p off .stopped) ∨
    (∃ i, pageInfo p = some i ∧ h.stopped p = false ∧ h.passes (h.acc r) p i off = true ∧
      h.direct r p off eff = (eff (h.granted (h.acc r) p)).noteSw (h.acc r) p i off) ∨
    (∃ i, pageInfo p = some i ∧ h.stopped p = false ∧ h.passes (h.acc r) p i off = false ∧
      h.direct r p off eff = ((h.granted (h.acc r) p).logRefused (h.acc r) p off).report r p off .refused) := by
  rcases Hw.controlled_cases h (h.acc r) p off eff with ⟨hi, e⟩ | ⟨i, hi, hs, e⟩ | ⟨i, hi, hs, hp, e⟩ | ⟨i, hi, hs, hp, e⟩
  · exact .inl ⟨hi, by simp [Hw.direct, e]⟩
  · exact .inr (.inl ⟨i, hi, hs, by simp [Hw.direct, e]⟩)
  · exact .inr (.inr (.inl ⟨i, hi, hs, hp, by simp [Hw.direct, e, Hw.report]⟩))
  · exact .inr (.inr (.inr ⟨i, hi, hs, hp, by simp [Hw.direct, e]⟩))

/-- R13. A plain write leaves the written word, and no other register; the host vectors follow. -/
theorem Hw.plainWrite_spec (h : Hw) (p : Page) (off ch : Nat) (d : Word) :
    vectorsOnly (h.setReg p off ch (writtenWord h p off (h.reg p off ch) d)) (h.plainWrite p off ch d) :=
  Hw.irqUpdate_spec ..

theorem Hw.plainWrite_reg (h : Hw) (p : Page) (off ch : Nat) (d : Word) :
    (h.plainWrite p off ch d).reg p off ch = writtenWord h p off (h.reg p off ch) d := by
  rw [Hw.plainWrite, Hw.irqUpdate_reg, Hw.reg_setReg_same]

theorem Hw.plainWrite_reg_ne (h : Hw) {p q : Page} {off off' ch ch' : Nat} (d : Word) (hne : (q, off', ch') ≠ (p, off, ch)) :
    (h.plainWrite p off ch d).reg q off' ch' = h.reg q off' ch' := by
  rw [Hw.plainWrite, Hw.irqUpdate_reg, Hw.reg_setReg_ne h _ hne]

/-- R39, R40. A write of CHSEL by a requester that may write changes at most the requester's own copy on that page. -/
theorem Hw.chselWrite_reg_ne (h : Hw) (a : Acc) (p : Page) (d : Word) {q : Page} {off ch : Nat} (hw : h.mayWrite a.who = true)
    (hne : (q, off, ch) ≠ (p, 8, a.who.bank)) : (h.chselWrite a p d).1.reg q off ch = h.reg q off ch := by
  unfold Hw.chselWrite
  split
  · rfl
  · rw [hw]
    split
    · rfl
    · simp only [Bool.not_true, Bool.false_eq_true, if_false]
      split
      · exact (Hw.reg_setReg_ne _ _ hne).trans (Hw.granted_reg ..)
      · rfl

/-- A direct write whose effect reaches memory: nothing but its report, its effect, or a refusal logged and reported. -/
theorem State.direct_cases (s : State) (r : Requester) (p : Page) (off : Nat) (eff : State → State) :
    (∃ h, s.direct r p off eff = { s with hw := h }) ∨
    (∃ i, pageInfo p = some i ∧ s.hw.stopped p = false ∧ s.hw.passes (s.hw.acc r) p i off = true ∧
      s.direct r p off eff = eff { s with hw := (s.hw.granted (s.hw.acc r) p).noteSw (s.hw.acc r) p i off }) := by
  rcases Hw.controlled_cases s.hw (s.hw.acc r) p off id with ⟨_, e⟩ | ⟨i, _, _, e⟩ | ⟨i, hi, hs, hp, e⟩ | ⟨i, _, _, _, e⟩
  · exact .inl ⟨s.hw.report r p off .unmapped, by simp [State.direct, e]⟩
  · exact .inl ⟨s.hw.report r p off .stopped, by simp [State.direct, e]⟩
  · exact .inr ⟨i, hi, hs, hp, by simp [State.direct, e, Hw.report]⟩
  · refine .inl ⟨((s.hw.granted (s.hw.acc r) p).logRefused (s.hw.acc r) p off).report r p off .refused, ?_⟩
    simp only [State.direct, e]
    rfl

end Sys2Proof.Machine
end

