-- ==== Sys2Proof/Laws/Myide.lean ====
section
/-! SUPPORT. The moves of a core: the front end changes only the front end's own state, finishing a move touches no memory
and no other core, and what issuing can do. -/

namespace Sys2Proof.Machine

open Sys2Proof

/-! ## The front end's own state (R321 to R333) -/

/-- `c` with the front end's state of `d`. -/
def CoreSt.frontOf (c d : CoreSt) : CoreSt :=
  { c with btt := d.btt, rap := d.rap, lines := d.lines, cache := d.cache, pkt := d.pkt, decoded := d.decoded, predB := d.predB,
           predR := d.predR, predOps := d.predOps, fill := d.fill, wants := d.wants, curLine := d.curLine, later := d.later,
           busyWait := d.busyWait }

/-- `d` is `c` but for the front end's state. -/
def CoreSt.frontOnly (c d : CoreSt) : Prop := c.frontOf d = d

theorem CoreSt.frontOnly_refl (c : CoreSt) : c.frontOnly c := rfl

theorem CoreSt.frontOnly_trans {c d e : CoreSt} (h1 : c.frontOnly d) (h2 : d.frontOnly e) : c.frontOnly e := by
  unfold CoreSt.frontOnly at *
  rw [← h1] at h2
  exact h2

/-- A part of the core that is not the front end's. -/
theorem CoreSt.frontOnly_field {c d : CoreSt} {α : Type} (h : c.frontOnly d) (g : CoreSt → α) (hg : ∀ x, g (c.frontOf x) = g c) :
    g d = g c := by
  rw [← h]
  exact hg d

/-- `t` is `s` but for registers, counters and the front end of core `k`: memory, the queue and the other cores are as they were. -/
structure State.FrontOnly (k : Fin 32) (s t : State) : Prop where
  mem : t.mem = s.mem
  tags : t.tags = s.tags
  pending : t.pending = s.pending
  other : ∀ j, j ≠ k.val → t.hw.core j = s.hw.core j
  own : (s.hw.core k).frontOnly (t.hw.core k)

theorem State.FrontOnly.refl (k : Fin 32) (s : State) : FrontOnly k s s := ⟨rfl, rfl, rfl, fun _ _ => rfl, rfl⟩

theorem State.FrontOnly.trans {k : Fin 32} {s t u : State} (h1 : FrontOnly k s t) (h2 : FrontOnly k t u) : FrontOnly k s u :=
  ⟨h2.mem.trans h1.mem, h2.tags.trans h1.tags, h2.pending.trans h1.pending, fun j hj => (h2.other j hj).trans (h1.other j hj),
    CoreSt.frontOnly_trans h1.own h2.own⟩

/-- Replacing the core by one that differs in the front end. -/
theorem State.FrontOnly.setCore {k : Fin 32} {s : State} {c : CoreSt} (h : (s.hw.core k).frontOnly c) :
    FrontOnly k s (s.setCore k c) :=
  ⟨rfl, rfl, rfl, fun _ hj => Hw.core_setCore_ne _ _ hj, by simpa [State.setCore] using h⟩

/-- A change of the hardware that leaves every core but the front end of `k`. -/
theorem State.FrontOnly.on {k : Fin 32} {s : State} {f : Hw → Hw} (h1 : ∀ j, j ≠ k.val → (f s.hw).core j = s.hw.core j)
    (h2 : (s.hw.core k).frontOnly ((f s.hw).core k)) : FrontOnly k s (s.on f) := ⟨rfl, rfl, rfl, h1, h2⟩

/-- R349. A performance counter counts: no core changes. -/
@[simp] theorem Hw.coreCount_core (h : Hw) (k : Fin 32) (fl : Fld) (n j : Nat) : (h.coreCount k fl n).core j = h.core j := by
  simp only [Hw.coreCount]
  split
  · rfl
  · split
    · simp [Hw.irqBit]
    · rfl

/-- R661. A trace message touches no core. -/
@[simp] theorem Hw.traceMsg_core (h : Hw) (k : Fin 32) (kind target j : Nat) : (h.traceMsg k kind target).core j = h.core j := by
  simp only [Hw.traceMsg]
  split
  · rfl
  · split
    · exact Hw.irq_core ..
    · rfl

/-- R323. A request of a line notes the fill or its wait, in the front end of its core. -/
theorem Hw.wantLine_spec (h : Hw) (k : Fin 32) (line : Nat) :
    (∀ j, j ≠ k.val → (h.wantLine k line).core j = h.core j) ∧ (h.core k).frontOnly ((h.wantLine k line).core k) := by
  unfold Hw.wantLine
  simp only
  split
  · exact ⟨fun j hj => by rw [Hw.coreCount_core, Hw.core_setCore_ne _ _ hj], by rw [Hw.coreCount_core, Hw.core_setCore_same]; rfl⟩
  · split
    · exact ⟨fun _ _ => rfl, rfl⟩
    · exact ⟨fun j hj => Hw.core_setCore_ne _ _ hj, by rw [Hw.core_setCore_same]; rfl⟩

theorem State.FrontOnly.wantLine (k : Fin 32) (s : State) (line : Nat) : FrontOnly k s (s.on (fun h => h.wantLine k line)) :=
  .on (Hw.wantLine_spec s.hw k line).1 (Hw.wantLine_spec s.hw k line).2

/-- R322. Asking for the line that is missing changes the front end alone. -/
theorem State.demand_frontOnly (s : State) (k : Fin 32) : FrontOnly k s (s.demand k) := by
  unfold State.demand
  split
  · exact .refl k s
  · split
    · exact .refl k s
    · next line _ =>
      refine (FrontOnly.wantLine k s line).trans ?_
      refine ⟨rfl, rfl, rfl, fun j hj => ?_, ?_⟩ <;> simp only [State.hw_on] <;> split
      · exact Hw.core_setCore_ne _ _ hj
      · rfl
      · rw [Hw.core_setCore_same]; rfl
      · rfl

/-- R321. A packet served by the cache changes the order of use alone. -/
theorem State.touchAt_frontOnly (s : State) (k : Fin 32) (a : Nat) : FrontOnly k s (s.touchAt k a) := by
  unfold State.touchAt
  split
  · split
    · exact .refl k s
    · next g _ _ =>
      refine State.FrontOnly.setCore ?_
      unfold CoreSt.touch
      simp only
      split <;> rfl
  · exact .refl k s

/-- R329, R330. Decoding a move changes the branch target table, the return-address predictor and what they predict. -/
theorem CoreSt.decodeMove_frontOnly (c : CoreSt) (a : Nat) (m : Move) : c.frontOnly (c.decodeMove a m) := by
  unfold CoreSt.decodeMove
  simp only
  split <;> split <;> (try split) <;> rfl

theorem CoreSt.decodeAll_frontOnly (c : CoreSt) (a : Nat) (ms : List Move) : c.frontOnly (c.decodeAll a ms) := by
  have key : ∀ (ms : List Move) (d : CoreSt), c.frontOnly d → c.frontOnly (ms.foldl (fun c m => c.decodeMove a m) d) := by
    intro ms
    induction ms with
    | nil => exact fun _ h => h
    | cons m ms ih => exact fun d h => ih _ (CoreSt.frontOnly_trans h (d.decodeMove_frontOnly a m))
  exact key ms _ rfl

theorem State.decode_frontOnly (s : State) (k : Fin 32) (m : Move) : FrontOnly k s (s.decode k m) := by
  unfold State.decode
  simp only
  split
  · exact .refl k s
  · refine .setCore ?_
    have key : ∀ c : CoreSt, (s.hw.core k).frontOnly c → (s.hw.core k).frontOnly (if m.kind = .straddle then c.decodeMove c.pc m else c) := by
      intro c h
      split
      · exact CoreSt.frontOnly_trans h (CoreSt.decodeMove_frontOnly ..)
      · exact h
    refine key _ ?_
    split
    · exact CoreSt.frontOnly_trans (CoreSt.decodeAll_frontOnly ..) rfl
    · exact CoreSt.frontOnly_refl _

/-- R331. The wrong path changes the front end alone. -/
theorem State.wrongPath_frontOnly (k : Fin 32) : ∀ (n : Nat) (s : State) (a : Nat), FrontOnly k s (s.wrongPath k n a)
  | 0, s, _ => .refl k s
  | n + 1, s, a => by
    unfold State.wrongPath
    split
    · refine ((State.touchAt_frontOnly s k a).trans (.setCore ?_)).trans (State.wrongPath_frontOnly k n _ _)
      rfl
    · split
      · split
        · exact .refl k s
        · exact .wantLine ..
      · exact .refl k s
    · exact .refl k s

theorem State.ranAhead_frontOnly (s : State) (k : Fin 32) (a : Nat) : FrontOnly k s (s.ranAhead k a) := by
  unfold State.ranAhead
  split
  · exact .refl k s
  · exact (State.FrontOnly.on (k := k) (s := s) (f := fun h => h.fresh) (fun _ _ => rfl) rfl).trans (State.wrongPath_frontOnly ..)

/-- R329, R334. What a control move that issues teaches the predictor. -/
theorem State.resolve_frontOnly (s : State) (k : Fin 32) (m : Move) (target : Option Nat) : FrontOnly k s (s.resolve k m target) := by
  unfold State.resolve
  simp only
  split
  · exact .refl k s
  · generalize hc : (if m.dst = 0x67 then ({ s.hw.core k with predR := (s.hw.core k).predR.tail } : CoreSt)
      else if isBtt m.dst then (s.hw.core k).train (s.hw.core k).pc target else s.hw.core k) = c
    have h1 : FrontOnly k s (s.setCore k c) := by
      refine .setCore ?_
      rw [← hc]
      split
      · rfl
      · split <;> rfl
    split
    · exact h1
    · refine (h1.trans (.on (f := fun h => h.coreCount k CORE_MISPRED_COUNT 1) (fun j _ => Hw.coreCount_core ..) ?_)).trans
        (State.ranAhead_frontOnly ..)
      rw [Hw.coreCount_core]
      exact CoreSt.frontOnly_refl _

theorem State.packetIssue_frontOnly (s : State) (k : Fin 32) (a : Nat) (w : Word) : FrontOnly k s (s.packetIssue k a w) := by
  unfold State.packetIssue
  generalize hc : ({ s.hw.core k with curLine := fetchLine k a } : CoreSt) = c
  have h0 : FrontOnly k s ((s.setCore k c).on (fun h => h.coreCount k CORE_PACKETS_COUNT 1)) := by
    refine FrontOnly.trans (.setCore (c := c) (by rw [← hc]; rfl)) (.on (fun j _ => Hw.coreCount_core ..) ?_)
    rw [Hw.coreCount_core]
    exact CoreSt.frontOnly_refl _
  simp only [hc]
  generalize (s.setCore k c).on (fun h => h.coreCount k CORE_PACKETS_COUNT 1) = u at h0 ⊢
  have key : ∀ (due bar : Bool) (o : Option Nat), FrontOnly k s (match due, o with
      | true, some l => if bar then u.setCore k { u.hw.core k with later := some l } else u.on (fun h => h.wantLine k l)
      | _, _ => u) := by
    intro due bar o
    split
    · split
      · exact h0.trans (.setCore rfl)
      · exact h0.trans (.wantLine ..)
    · exact h0
  exact key ..

theorem State.issued_frontOnly (s : State) (k : Fin 32) (kind : MoveKind) : FrontOnly k s (s.issued k kind) := by
  unfold State.issued
  simp only
  have first : ∀ (u : State) (a : Nat) (f : Fetched), FrontOnly k u (match f with | .word w => u.packetIssue k a w | _ => u) := by
    intro u a f
    split
    · exact State.packetIssue_frontOnly ..
    · exact .refl k u
  have h0 : FrontOnly k s (if (s.hw.core k).half then s
      else (match s.atHand k with | .word w => s.packetIssue k (s.hw.core k).pc w | _ => s)) := by
    split
    · exact .refl k s
    · exact first ..
  split
  · exact h0.trans (first ..)
  · exact h0

/-- R321, R329 to R334, R349. As a move issues, the front end changes its own state alone. -/
theorem State.frontEnd_frontOnly (s : State) (k : Fin 32) (m : Move) (target : Option Nat) : FrontOnly k s (s.frontEnd k m target) :=
  ((((State.touchAt_frontOnly ..).trans (State.decode_frontOnly ..)).trans (State.issued_frontOnly ..)).trans
    (State.resolve_frontOnly ..))

/-! ## Finishing a move -/

/-- R332. A move into sys.pred, when it acts. -/
theorem Hw.predAct_spec (h : Hw) (k : Fin 32) (op : Nat) :
    (∀ j, j ≠ k.val → (h.predAct k op).core j = h.core j) ∧ (h.core k).frontOnly ((h.predAct k op).core k) := by
  unfold Hw.predAct
  split
  · exact ⟨fun j hj => Hw.core_setCore_ne _ _ hj, by rw [Hw.core_setCore_same]; rfl⟩
  · exact ⟨fun _ _ => rfl, rfl⟩
  · exact ⟨fun j hj => Hw.core_setCore_ne _ _ hj, by rw [Hw.core_setCore_same]; rfl⟩
  · exact ⟨fun _ _ => rfl, rfl⟩

/-- R332, R333. Leaving a packet changes the front end alone. -/
theorem Hw.leavePacket_spec (h : Hw) (k : Fin 32) (b : Bool) :
    (∀ j, j ≠ k.val → (h.leavePacket k b).core j = h.core j) ∧ (h.core k).frontOnly ((h.leavePacket k b).core k) := by
  have ops : ∀ (l : List Nat) (g : Hw), (∀ j, j ≠ k.val → (l.foldl (fun h op => h.predAct k op) g).core j = g.core j) ∧
      (g.core k).frontOnly ((l.foldl (fun h op => h.predAct k op) g).core k) := by
    intro l
    induction l with
    | nil => exact fun g => ⟨fun _ _ => rfl, rfl⟩
    | cons op l ih =>
      intro g
      have h1 := Hw.predAct_spec g k op
      have h2 := ih (g.predAct k op)
      exact ⟨fun j hj => (h2.1 j hj).trans (h1.1 j hj), CoreSt.frontOnly_trans h1.2 h2.2⟩
  have h1 := ops (h.core k).predOps h
  unfold Hw.leavePacket
  simp only
  generalize (h.core k).predOps.foldl (fun h op => h.predAct k op) h = g at h1 ⊢
  have key : ∀ c, (g.core k).frontOnly c → (∀ j, j ≠ k.val → (g.setCore k c).core j = h.core j) ∧
      (h.core k).frontOnly ((g.setCore k c).core k) := fun c hc =>
    ⟨fun j hj => (Hw.core_setCore_ne _ _ hj).trans (h1.1 j hj), CoreSt.frontOnly_trans h1.2 (by rwa [Hw.core_setCore_same])⟩
  have more : ∀ (u : Hw) (b : Bool) (o : Option Nat), (∀ j, j ≠ k.val → u.core j = h.core j) ∧ (h.core k).frontOnly (u.core k) →
      (∀ j, j ≠ k.val → (match b, o with
        | true, some l => if ((h.core k).lineWord l).isSome then u else u.wantLine k l
        | _, _ => u).core j = h.core j) ∧ (h.core k).frontOnly ((match b, o with
        | true, some l => if ((h.core k).lineWord l).isSome then u else u.wantLine k l
        | _, _ => u).core k) := by
    intro u b o hu
    split
    · split
      · exact hu
      · next l _ =>
        have h3 := Hw.wantLine_spec u k l
        exact ⟨fun j hj => (h3.1 j hj).trans (hu.1 j hj), CoreSt.frontOnly_trans hu.2 h3.2⟩
    · exact hu
  exact more _ _ _ (key _ rfl)

/-- Finishing a move steps the core on, and changes but for that the front end alone. -/
theorem State.moved_spec (s : State) (k : Fin 32) (m : Move) :
    (s.moved k m).mem = s.mem ∧ (s.moved k m).tags = s.tags ∧ (s.moved k m).pending = s.pending ∧
      (∀ j, j ≠ k.val → (s.moved k m).hw.core j = s.hw.core j) ∧
      ∃ d, (s.hw.core k).frontOnly d ∧ ({ d.advance m.kind with entered := none } : CoreSt).frontOnly ((s.moved k m).hw.core k) := by
  have hf := s.frontEnd_frontOnly k m none
  unfold State.moved
  simp only
  generalize s.frontEnd k m none = u at hf ⊢
  generalize hstays : (m.kind == MoveKind.short && !(s.hw.core k).half) = stays
  generalize s.keptPacket k m.kind = kept
  have h1 (j : Nat) (hj : j ≠ k.val) :=
    Hw.core_setCore_ne (h := u.hw) (i := k.val) { (u.hw.core k).advance m.kind with entered := none } hj
  have h2 := Hw.leavePacket_spec (u.hw.setCore k { (u.hw.core k).advance m.kind with entered := none }) k true
  rw [Hw.core_setCore_same] at h2
  refine ⟨?_, ?_, ?_, fun j hj => ?_, u.hw.core k, hf.own, ?_⟩
  · exact (State.demand_frontOnly _ k).mem.trans hf.mem
  · exact (State.demand_frontOnly _ k).tags.trans hf.tags
  · exact (State.demand_frontOnly _ k).pending.trans hf.pending
  · refine ((State.demand_frontOnly _ k).other j hj).trans (Eq.trans ?_ (hf.other j hj))
    simp only [State.hw_on]
    rw [Hw.core_setCore_ne _ _ hj]
    split
    · exact h1 j hj
    · exact (h2.1 j hj).trans (h1 j hj)
  · refine CoreSt.frontOnly_trans ?_ (State.demand_frontOnly _ k).own
    simp only [State.hw_on, Hw.core_setCore_same]
    cases stays
    · exact CoreSt.frontOnly_trans h2.2 rfl
    · simp only [if_true, Hw.core_setCore_same]
      rfl

/-- R294. A transfer puts the core at H0 of its target, and changes but for that the front end alone. -/
theorem State.landed_spec (s : State) (k : Fin 32) (m : Move) (target : Nat) :
    (s.landed k m target).mem = s.mem ∧ (s.landed k m target).tags = s.tags ∧ (s.landed k m target).pending = s.pending ∧
      (∀ j, j ≠ k.val → (s.landed k m target).hw.core j = s.hw.core j) ∧
      ∃ d, (s.hw.core k).frontOnly d ∧
        ({ d with pc := target % 2 ^ 32, half := false, entered := none } : CoreSt).frontOnly ((s.landed k m target).hw.core k) := by
  have hf := s.frontEnd_frontOnly k m (some (target % 2 ^ 32))
  unfold State.landed
  simp only
  generalize s.frontEnd k m (some (target % 2 ^ 32)) = u at hf ⊢
  have h2 := Hw.leavePacket_spec
    ((u.hw.traceMsg k 0 target).setCore k { ((u.hw.traceMsg k 0 target).core k).goto target with entered := none }) k false
  rw [Hw.core_setCore_same] at h2
  refine ⟨hf.mem, hf.tags, hf.pending, fun j hj => ?_, u.hw.core k, hf.own, ?_⟩
  · exact (h2.1 j hj).trans ((Hw.core_setCore_ne _ _ hj).trans ((Hw.traceMsg_core ..).trans (hf.other j hj)))
  · refine CoreSt.frontOnly_trans ?_ h2.2
    rw [Hw.traceMsg_core]
    rfl

/-- R294. A transfer that goes on asks for the line it needs, and is a transfer in everything else. -/
theorem State.jumped_spec (s : State) (k : Fin 32) (m : Move) (target : Nat) :
    FrontOnly k (s.landed k m target) (s.jumped k m target) := State.demand_frontOnly ..

/-- R312, R358. A move that raises has had no effect but the exception. -/
theorem Hw.raise_spec (h : Hw) (k : Fin 32) (code info faddr : Nat) :
    (h.raise k code info faddr).core k = { h.core k with
      exc := some { code := code, info := info, faddr := faddr, retPc := (h.core k).pc, half := (h.core k).half },
      entered := none } ∧
      (∀ j, j ≠ k.val → (h.raise k code info faddr).core j = h.core j) ∧
      (h.raise k code info faddr).regs = h.regs := by
  refine ⟨?_, fun j hj => ?_, rfl⟩
  · simp [Hw.raise]
  · simp only [Hw.raise]
    exact Hw.core_setCore_ne _ _ hj

/-- R277. A move whose guard fails only steps on. -/
theorem State.issue_of_not_holds {s : State} {k : Fin 32} {m : Move} (h : (s.hw.core k).holds m.guard m.inv = false) :
    s.issue k m = s.moved k m := by
  simp [State.issue, h]

/-- A move into a port or a register of the core: what it puts there is in the core, and the core steps on. -/
theorem State.issue_of_put {s : State} {k : Fin 32} {m : Move} {c c' : CoreSt} {t : Word}
    (hg : (s.hw.core k).holds m.guard m.inv = true) (hs : s.getFrom k m.src = .val c t) (h1 : m.dst ≠ 0x71)
    (h2 : reachesOut m.dst = false) (hp : c.put m.dst t = .val c') :
    s.issue k m = ((s.setCore k c).setCore k c').moved k m := by
  simp [State.issue, hg, hs, h1, State.putInto, h2, State.setCore, State.on, hp]

/-- R268 to R273. What a command that issues a core's next move can do. -/
theorem State.coreMove_cases (s : State) (k : Fin 32) (sel : Move → Bool) :
    s.coreMove k sel = s ∨
    (s.hw.canIssue k = true ∧ s.next k = .wait ∧ s.coreMove k sel = s.demand k) ∨
    (∃ a r, s.hw.canIssue k = true ∧ s.next k = .fail a r ∧ s.coreMove k sel = s.on (fun h => h.fetchFail k a r)) ∨
    (s.hw.canIssue k = true ∧ s.next k = .code .illegal ∧ s.coreMove k sel = s.on (fun h => h.raise k 0x01 0 0)) ∨
    (∃ m, s.hw.canIssue k = true ∧ s.next k = .code (.move m) ∧ sel m = true ∧ s.coreMove k sel = s.issue k m) := by
  unfold State.coreMove
  split
  · exact .inl rfl
  · next hc =>
    have hc : s.hw.canIssue k = true := by simpa using hc
    split
    · next e => exact .inr (.inl ⟨hc, e, rfl⟩)
    · next a r e => exact .inr (.inr (.inl ⟨a, r, hc, e, rfl⟩))
    · next e => exact .inr (.inr (.inr (.inl ⟨hc, e, rfl⟩)))
    · exact .inl rfl
    · next m e =>
      split
      · next hm => exact .inr (.inr (.inr (.inr ⟨m, hc, e, hm, rfl⟩)))
      · exact .inl rfl

end Sys2Proof.Machine
end

