-- ==== Sys2Proof/WellFormed.lean ====
section
/-! DEFINITION. Well-formed commands: the operands lie in the ranges the spec gives them where their types do not say so. -/

namespace Sys2Proof.Machine

open Sys2Proof

/-- R138. A Seam channel exists: 32 of each cluster, 64 of the device. -/
def Chan.ok (c : Chan) : Bool := if c.loc < 8 then decide (c.ch < 32) else c.loc == 15 && decide (c.ch < 64)

/-- R149. An arrival comes over a channel that exists, and coincides only with another. -/
def Arrival.ok (a : Arrival) : Bool := a.via.ok && a.also.all (fun c => c.ok && c != a.via)

/-- R57. A reference span is positive. -/
def Analog.ok (x : Analog) : Bool := decide (0 < x.span)

/-- R243, R252. -/
def PwmCmd.ok (x : PwmCmd) : Bool :=
  match x with
  | .seam _ a => a.ok
  | .cmd _ _ => true

/-- R420. A line has 32 symbols. -/
def DieRep.ok (x : DieRep) : Bool := decide (x.syms ≤ 32) && decide (x.words.length ≤ 8)

/-- R453. The flash has 2,048 sectors of 4,096 words. -/
def BootRep.ok (x : BootRep) : Bool :=
  x.weak.all (fun n => decide (n < 2048)) && x.erases.all (fun e => e.left.all (fun w => decide (w.1 < 4096)))

/-- R493, R494. The fields of the two headers fit. -/
def Hdr.ok (x : Hdr) : Bool :=
  decide (x.ftype < 4) && decide (x.dst < 16384) && decide (x.src < 16384) && decide (x.tc < 4) && decide (x.hops < 256) &&
    decide (x.kind < 256) && decide (x.eseq < 65536) && decide (x.pbytes < 512)

/-- R551. A stream is of a sequenced class and of a node. -/
def StreamId.ok (x : StreamId) : Bool := decide (x.tc < 3) && decide (x.node < 16384)

end Sys2Proof.Machine

namespace Sys2Proof

open Machine

/-- The command is well formed. -/
def Instr.wellFormed (c : Instr) : Bool :=
  match c with
  | .registerWrite _ _ _ _ _ => true
  | .ownerWrite _ _ _ _ => true
  | .lockSet _ _ _ => true
  | .chselWrite _ _ _ _ => true
  | .pairLowRead _ _ _ _ => true
  | .pairLowWrite _ _ _ _ _ => true
  | .pairHighWrite _ _ _ _ _ => true
  | .pllLock rep => rep.ok
  | .clockFailure _ => true
  | .domainGate _ _ => true
  | .adcSeqTrigger _ ts => ts.all (fun e => e.2.ok)
  | .adcSwtrig _ _ _ => true
  | .conversionStart _ => true
  | .acquisitionEnd _ _ => true
  | .conversionDone _ _ x => x.ok
  | .adcRecoveryEnd _ _ => true
  | .adcEnableChange _ _ _ _ => true
  | .startupCalibrationDone _ x0 x1 x2 => x0.ok && x1.ok && x2.ok
  | .calibrationGrant _ _ => true
  | .calibrationDone _ x => x.ok
  | .rotationIntervalExpiry _ => true
  | .rotNow _ _ _ => true
  | .handover _ => true
  | .unitClr _ _ _ => true
  | .readbackRequest _ _ _ => true
  | .readbackGrant _ _ => true
  | .readbackDone _ x => x.ok
  | .sdfOutput _ _ _ => true
  | .sdfSync _ _ a _ => a.ok
  | .manchesterBitError _ _ _ => true
  | .sdfClockLoss _ _ => true
  | .scDetect _ _ _ => true
  | .comparatorCrossing _ _ x => x.ok
  | .lintSample _ _ => true
  | .lintWrite _ _ _ => true
  | .comparatorDisable _ _ _ => true
  | .encoderInputChange _ _ _ => true
  | .probeLatch _ _ _ _ => true
  | .ssiTrigger _ _ a => a.ok
  | .ssiGo _ _ _ => true
  | .ssiFrameDone _ _ _ _ => true
  | .ssiTimeout _ _ => true
  | .ssiMonoflopEnd _ _ => true
  | .trackerErrClr _ _ _ => true
  | .trackerCfgWrite _ _ _ _ => true
  | .modulusWrite _ _ _ => true
  | .trackerPosWrite _ _ _ _ => true
  | .speedWindowEnd _ _ => true
  | .windowSync _ _ a => a.ok
  | .pspeedUpdate _ _ => true
  | .standstill _ _ => true
  | .routingWrite _ _ _ => true
  | .seamFire _ _ _ => true
  | .mangleArm _ _ _ => true
  | .mangleGo _ _ _ => true
  | .mangleAbort _ _ _ => true
  | .mangleClr _ _ _ => true
  | .mangleStartTrigger _ _ a => a.ok
  | .descriptorFetchDone _ _ => true
  | .mangleBeat _ _ _ => true
  | .descriptorComplete _ _ => true
  | .hostCompletionTimeout _ => true
  | .slotTrigger _ _ a _ => a.ok
  | .loopSwtrig _ _ _ _ => true
  | .runStart _ _ => true
  | .deadlineMiss _ _ _ => true
  | .slotConfigWrite _ _ _ _ => true
  | .loopReseed _ _ _ => true
  | .latClear _ _ _ => true
  | .ucDataWrite _ _ _ => true
  | .ucDataRead _ _ => true
  | .ucNop _ _ => true
  | .ucMov _ _ => true
  | .ucAdd _ _ => true
  | .ucSub _ _ => true
  | .ucNeg _ _ => true
  | .ucAbs _ _ => true
  | .ucMin _ _ => true
  | .ucMax _ _ => true
  | .ucLim _ _ => true
  | .ucShl _ _ => true
  | .ucShr _ _ => true
  | .ucMul _ _ => true
  | .ucMac _ _ => true
  | .ucMsu _ _ => true
  | .ucCmp _ _ => true
  | .ucLd _ _ => true
  | .ucSt _ _ => true
  | .ucLdi _ _ => true
  | .ucAnd _ _ => true
  | .ucOr _ _ => true
  | .ucShrt _ _ => true
  | .ucJmp _ _ => true
  | .ucCall _ _ => true
  | .ucRet _ _ => true
  | .ucEnd _ _ _ => true
  | .ucAbort _ _ => true
  | .timebaseStart _ _ _ => true
  | .timebaseStop _ _ _ => true
  | .zeroPoint _ _ _ => true
  | .periodPoint _ _ => true
  | .compareCrossing _ _ _ => true
  | .outputTurnOn _ _ _ => true
  | .outputTurnOff _ _ _ => true
  | .pwmCommit _ x => x.ok
  | .pwmSync _ x => x.ok
  | .timebaseCfgWrite _ _ _ => true
  | .ocfgWrite _ _ _ => true
  | .scorchSourceActive _ _ _ => true
  | .swtrip _ _ _ => true
  | .tripClr _ _ _ => true
  | .operandMove _ => true
  | .registerMove _ => true
  | .predicateMove _ => true
  | .aluT _ => true
  | .aluAdds _ => true
  | .aluSub _ => true
  | .aluSubs _ => true
  | .aluAnd _ => true
  | .aluOr _ => true
  | .aluXor _ => true
  | .aluAndn _ => true
  | .aluMin _ => true
  | .aluMax _ => true
  | .aluAbss _ => true
  | .aluNegs _ => true
  | .shfT _ => true
  | .shfShr _ => true
  | .shfSar _ => true
  | .shfSarr _ => true
  | .shfShls _ => true
  | .cmpT _ => true
  | .cmpNe _ => true
  | .cmpLt _ => true
  | .cmpGe _ => true
  | .cmpLtu _ => true
  | .cmpGeu _ => true
  | .mulT _ => true
  | .mulL _ => true
  | .mulH _ => true
  | .macT _ => true
  | .macS _ => true
  | .macZ _ => true
  | .divT _ => true
  | .divQ _ => true
  | .divU _ => true
  | .divComplete _ => true
  | .cpyT _ => true
  | .cpyComplete _ => true
  | .lsuT _ => true
  | .lsuLdi _ => true
  | .lsuLdd _ => true
  | .lsuSt _ => true
  | .lsuSti _ => true
  | .lsuStd _ => true
  | .loadReturn _ => true
  | .storeDrain _ => true
  | .bruT _ => true
  | .bruJr _ => true
  | .bruCall _ => true
  | .bruCallr _ => true
  | .bruRet _ => true
  | .cnsT _ => true
  | .evpT _ => true
  | .evpR _ => true
  | .evpP _ => true
  | .evpInputArrival _ _ a => a.ok
  | .gioT _ => true
  | .gioSet _ => true
  | .gioClr _ => true
  | .gioTgl _ => true
  | .sysFence _ => true
  | .sysGate _ => true
  | .sysGret _ => true
  | .predFlush _ => true
  | .predBar _ => true
  | .predSync _ => true
  | .predRelease _ => true
  | .sysWait _ => true
  | .coreWake _ => true
  | .sysTrap _ => true
  | .sysBrk _ => true
  | .rptPrefix _ => true
  | .rsDataRead _ => true
  | .rsDataWrite _ => true
  | .fetchFillDone _ _ => true
  | .invAll _ _ _ => true
  | .invLine _ _ _ => true
  | .exceptionEntry _ copied => decide (copied < 2 ^ 24)
  | .interruptEntry _ copied => decide (copied < 2 ^ 24)
  | .dicLineChange _ _ => true
  | .dicDoorbell _ _ _ => true
  | .dicClaim _ _ _ => true
  | .dicDone _ _ _ _ => true
  | .srccfgDisable _ _ _ => true
  | .aowSourceEdge _ a => a.all Arrival.ok
  | .wakeTimerWrite _ _ => true
  | .wakeTimerExpiry => true
  | .watchdogEnable _ _ _ => true
  | .watchdogKick _ _ _ => true
  | .watchdogWarn _ => true
  | .watchdogExpiry _ => true
  | .pcfgWrite _ _ _ => true
  | .pfuncWrite _ _ => true
  | .pinOwnWrite _ _ => true
  | .doutWrite _ _ _ => true
  | .bankSupplyLoss _ => true
  | .bankSupplyValid _ _ _ => true
  | .pinEvent _ _ => true
  | .dramInitDone => true
  | .dramRequestServe _ inner syms words => (⟨inner, syms, words⟩ : DieRep).ok
  | .correctedWriteback _ => true
  | .uncorrectableRewrite _ => true
  | .dramPclr _ d => d.2.ok
  | .darnerBurstDue => true
  | .darnerNow _ _ => true
  | .darnerBurstGrant _ reps => reps.all DieRep.ok
  | .hamperEnable _ _ => true
  | .hamperDisable _ _ => true
  | .hamperCadence a => a.ok
  | .hamperRecordComplete => true
  | .hamperTrigger a _ => a.all Arrival.ok
  | .hamperFreeze _ _ => true
  | .hamperRearm _ _ => true
  | .hamperDump _ _ => true
  | .dumpGrant _ => true
  | .dumpDone => true
  | .flashRead _ _ _ => true
  | .flashProgram _ => true
  | .programDone _ left => decide (left.length ≤ 100)
  | .flashErase _ _ => true
  | .eraseGrant _ => true
  | .ledgerRecordDone _ left => decide (left.length ≤ 100)
  | .eraseDone _ left _ => left.all (fun e => decide (e.1 < 0x800000))
  | .flashSuspend _ => true
  | .flashResume _ => true
  | .suspendAccept _ => true
  | .autoResume => true
  | .marginPv _ _ => true
  | .marginEv _ _ => true
  | .marginDone _ _ => true
  | .ledgerAppend _ _ => true
  | .imgMarkTrial _ _ => true
  | .imgConfirm _ _ => true
  | .imgStart _ _ => true
  | .imgReject _ _ => true
  | .lwfWrite _ _ => true
  | .lwfWriteDone _ => true
  | .lwfLoad rep => rep.ok
  | .portEnable _ _ _ => true
  | .signalDetect _ => true
  | .blockLockAcquired _ _ eq => decide (eq.length ≤ 4)
  | .trainTimeout _ => true
  | .deskewDone _ skew => decide (skew.length ≤ 4)
  | .deskewFail _ => true
  | .lctlInit _ _ _ _ => true
  | .blockLockLoss _ _ _ => true
  | .retrainWrite _ _ _ => true
  | .lctlRetrain _ => true
  | .retrainTimeout _ => true
  | .frameStart _ _ => true
  | .frayReorderTimeout _ _ => true
  | .frameReceive _ ws _ => decide (ws.length ≤ 100)
  | .frameRoute _ _ _ x => x.ok
  | .lctlAck _ _ => true
  | .lctlNak _ _ => true
  | .lctlCredit _ _ _ => true
  | .nakRepeat _ => true
  | .ackTimeout _ => true
  | .dlHello _ ws => decide (ws.length ≤ 100)
  | .helloTimer => true
  | .parentChoice => true
  | .childReqTimeout => true
  | .childReq _ ws => decide (ws.length ≤ 100)
  | .joinReq => true
  | .joinGrant => true
  | .joinRefuse => true
  | .childGrant _ ws => decide (ws.length ≤ 100)
  | .childRefuse _ ws => decide (ws.length ≤ 100)
  | .dlLeave => true
  | .dcmdLeave _ _ => true
  | .idHoldExpiry _ => true
  | .syncTimer => true
  | .dlSync _ ws _ => decide (ws.length ≤ 100)
  | .dlDreq _ ws _ => decide (ws.length ≤ 100)
  | .dlDresp _ ws => decide (ws.length ≤ 100)
  | .holdoverEntry => true
  | .holdoverExpiry => true
  | .tsetHWrite _ _ => true
  | .tickCfg => true
  | .tickCfgTimer => true
  | .baseHCommit _ _ => true
  | .domTick => true
  | .captureComplete _ => true
  | .captureTimeout _ _ => true
  | .domPublication => true
  | .generationComplete => true
  | .asmEnable _ _ => true
  | .leaseReq _ => true
  | .leaseRel _ => true
  | .leaseExpiry => true
  | .commandSend _ _ => true
  | .domCommand => true
  | .commandApply => true
  | .domReport => true
  | .reportRead _ => true
  | .resumeReqRepeat x => x.ok
  | .resumeReq _ => true
  | .resumeAck _ => true
  | .frayConfigWrite _ _ _ _ => true
  | .hostRead _ _ _ _ _ => true
  | .hostWrite _ _ bytes => decide (bytes.length ≤ 4096)
  | .snapshotWindowRead _ _ => true
  | .hamperWindowRead _ _ => true
  | .pcieVack _ _ => true
  | .pcieVfire _ _ _ => true
  | .functionLevelReset => true
  | .pciePerst _ => true
  | .mailboxSend _ _ => true
  | .mailboxSent _ => true
  | .mboxMsg => true
  | .mboxNak => true
  | .mboxRxdone _ => true
  | .ethFrameReceive _ bytes _ _ => decide (bytes.length ≤ 9000)
  | .ethFrameTransmit _ _ => true
  | .txtsRead _ _ => true
  | .mdioWrite _ _ => true
  | .mdioDone _ => true
  | .svcOpen => true
  | .svcSubscribe => true
  | .svcKeepalive => true
  | .svcClose => true
  | .svcKeepaliveTimeout _ => true
  | .svcData _ => true
  | .svcSclose _ => true
  | .powerOnReset _ _ left _ => left.all (fun e => decide (e.1 < 0x800000))
  | .resetN _ _ rep => rep.ok
  | .deviceResetRequest _ => true
  | .deviceReset _ => true
  | .resetDeviceCmd _ _ => true
  | .resetClusterCmd _ _ => true
  | .clusterReset _ => true
  | .devCgo _ _ => true
  | .secVcmd _ _ => true
  | .verifyGrant _ => true
  | .verifyDone => true
  | .safeNFall => true
  | .safeNRise => true
  | .safeSw _ _ => true
  | .monitorSample _ _ => true
  | .haltMaskWrite _ _ => true
  | .clusterGate _ => true
  | .pwrDeep _ _ => true
  | .deepWake _ => true
  | .clusterSafeWrite _ _ _ => true
  | .bistRequest _ _ => true
  | .bistGrant _ _ => true
  | .bistDone _ _ => true
  | .debugHalt _ _ => true
  | .debugResume _ _ => true
  | .tapBypass => true
  | .tapIdcode => true
  | .tapSamplePreload _ => true
  | .tapExtest => true
  | .tapClamp => true
  | .tapHighz => true
  | .dapacc _ _ => true
  | .pcieLinkUp _ _ _ => true
  | .configurationWrite _ => true
  | .ethLinkChg _ _ _ => true
  | .aowLevelHit _ => true

end Sys2Proof
end

