-- ==== Sys2Proof/Tests/Slice0.lean ====
section
/-! SUPPORT. The model's own tests: small states that meet the premises of each statement, with what the command then leaves;
and ill-formed commands refused. -/

open Sys2Proof Sys2Proof.Machine

/-- The state a command answers. -/
def after (o : Host.Outcome State Fault Refusal) : State :=
  match o with
  | .next t => t
  | _ => State.reset

/-- A device whose root PLL has locked, with some fields set. -/
def up (fs : List (Page × Nat × Fld × Nat)) : State :=
  { State.reset with
    hw := fs.foldl (fun h x => h.setF x.1 x.2.1 x.2.2.1 x.2.2.2) { State.reset.hw with released := true, bootDue := false } }

/-- With events in flight. -/
def fly (fs : List Flight) (s : State) : State := s.on (fun h => { h with flights := fs })

/-- A run within its customer routine, and one within the frame of law PI at slot 1. -/
def runA : LoopRun :=
  { slot := 3, edge := 10, dl := 0, start := 11, phase := .routine, n := 2, upc := 0x1800, meas := 44, setp := 55, ff := 0,
    yprev := 66, scfg := 0, stgt := 0, uentry := 0x1800, first := false, w := [0, 5, -7, 9], outv := 77 }
def runB (scfg stgt : Nat) : LoopRun :=
  { slot := 1, edge := 10, dl := 0, start := 11, meas := 0, setp := 0x20000000, ff := 0, yprev := 0, scfg := scfg, stgt := stgt,
    uentry := 0x1800, first := false, outv := 0 }
/-- Engine 4 with run `r` about to execute the microword `w` at 0x1800. -/
def ucRun (r : LoopRun) (w : Nat) : State :=
  (up []).on (fun h => { h.setRun 4 (some r) with uc := h.uc.set 0 (8192 * 4 + 0x1800) w })

/-- Core 0 about to issue from its own ITCM, which holds `w` from packet 0. -/
def coreRun (w : List Word) (c : CoreSt) : State := ((up []).wrList 0x1000000 w).on (fun h => h.setCore 0 c)

/-- A running device with one command waiting. -/
def queued (i : Instr) : State := { up [] with pending := [i] }

section

set_option Elab.async false

def wit_PageWritesUnderTheAccessCodes_1 : State :=
    (up [] : State)

theorem test_PageWritesUnderTheAccessCodes_1 :
    (accepts wit_PageWritesUnderTheAccessCodes_1.hw (.core 3 :
    Requester) ⟨(1 : Fin 16).val, (0x13 : BitVec 12).toNat⟩ = true) ∧ ((after (exec (.registerWrite (.core 3 :
    Requester) (1 : Fin 16) (0x13 : BitVec 12) 4 (0x80040001 : Word)) wit_PageWritesUnderTheAccessCodes_1)).hw.reg ⟨(1
    : Fin 16).val, (0x13 : BitVec 12).toNat⟩ 4 0 = writtenWord wit_PageWritesUnderTheAccessCodes_1.hw ⟨(1 : Fin
    16).val, (0x13 : BitVec 12).toNat⟩ 4 (wit_PageWritesUnderTheAccessCodes_1.hw.reg ⟨(1 : Fin 16).val, (0x13 : BitVec
    12).toNat⟩ 4 0) (0x80040001 : Word))  := by decide +kernel

def wit_PageWritesUnderTheAccessCodes_2 : State :=
    (up [] : State)

theorem test_PageWritesUnderTheAccessCodes_2 :
    (accepts wit_PageWritesUnderTheAccessCodes_2.hw (.host :
    Requester) ⟨(15 : Fin 16).val, (0x10 : BitVec 12).toNat⟩ = true) ∧ (9 ≤ (9 : BitVec 8).toNat ∧ (9 : BitVec
    8).toNat ≤ 15)  := by decide +kernel

def wit_PageWritesUnderTheAccessCodes_3 : State :=
    (up [(pMBOX, 0, OWNER_REQ, 0x30)] : State)

theorem test_PageWritesUnderTheAccessCodes_3 :
    (accepts wit_PageWritesUnderTheAccessCodes_3.hw (.host :
    Requester) ⟨(15 : Fin 16).val, (0x39 : BitVec 12).toNat⟩ = true) ∧ ((after (exec (.lockSet (.host : Requester) (15
    : Fin 16) (0x39 : BitVec 12)) wit_PageWritesUnderTheAccessCodes_3)).hw.f ⟨(15 : Fin 16).val, (0x39 : BitVec
    12).toNat⟩ 0 LOCK_BIT = 1)  := by decide +kernel

def wit_PageWritesUnderTheAccessCodes_4 : State :=
    (up [] : State)

theorem test_PageWritesUnderTheAccessCodes_4 :
    (reachable wit_PageWritesUnderTheAccessCodes_4.hw ⟨(2 : Fin
    16).val, (0x15 : BitVec 12).toNat⟩ = true) ∧ (wit_PageWritesUnderTheAccessCodes_4.hw.f ⟨(2 : Fin 16).val, (0x15 :
    BitVec 12).toNat⟩ 0 LOCK_BIT = 0) ∧ (wit_PageWritesUnderTheAccessCodes_4.hw.ringOf (.host : Requester) ≤ 1 ∨
    (.host : Requester).id = wit_PageWritesUnderTheAccessCodes_4.hw.f ⟨(2 : Fin 16).val, (0x15 : BitVec 12).toNat⟩ 0
    OWNER_REQ) ∧ (wit_PageWritesUnderTheAccessCodes_4.hw.mayWrite (.host : Requester) = true) ∧ ((after (exec
    (.ownerWrite (.host : Requester) (2 : Fin 16) (0x15 : BitVec 12) (0x130 : Word))
    wit_PageWritesUnderTheAccessCodes_4)).hw.f ⟨(2 : Fin 16).val, (0x15 : BitVec 12).toNat⟩ 0 OWNER_RING = bitsOf
    (0x130 : Word).toNat 8 2) ∧ ((after (exec (.ownerWrite (.host : Requester) (2 : Fin 16) (0x15 : BitVec 12) (0x130
    : Word)) wit_PageWritesUnderTheAccessCodes_4)).hw.f ⟨(2 : Fin 16).val, (0x15 : BitVec 12).toNat⟩ 0 OWNER_REQ =
    bitsOf (0x130 : Word).toNat 0 8)  := by decide +kernel

def wit_PageWritesUnderTheAccessCodes_5 : State :=
    (up [(⟨3, 0x1D⟩, 0, OWNER_RING, 1)] : State)

theorem test_PageWritesUnderTheAccessCodes_5 :
    (reachable wit_PageWritesUnderTheAccessCodes_5.hw ⟨(3 : Fin
    16).val, (0x1D : BitVec 12).toNat⟩ = true) ∧ (accepts wit_PageWritesUnderTheAccessCodes_5.hw (.service :
    Requester) ⟨(3 : Fin 16).val, (0x1D : BitVec 12).toNat⟩ (0x10 : BitVec 8).toNat = false) ∧ ((0x10 : BitVec 8) ≠ 6
    ∧ (0x10 : BitVec 8) ≠ 8)  := by decide +kernel

def wit_ChannelSelectionPerRequester_1 : State :=
    (up [] : State)

theorem test_ChannelSelectionPerRequester_1 :
    (pageInfo ⟨(5 : Fin 16).val, (0x15 : BitVec 12).toNat⟩ = some
    (⟨.cmp, 0x0133, 0, 8, 2, 3⟩ : PageInfo)) ∧ (wit_ChannelSelectionPerRequester_1.hw.stopped ⟨(5 : Fin 16).val, (0x15
    : BitVec 12).toNat⟩ = false) ∧ (wit_ChannelSelectionPerRequester_1.hw.mayWrite (.host : Requester) = true) ∧ ((3 :
    Word).toNat % 4096 < (⟨.cmp, 0x0133, 0, 8, 2, 3⟩ : PageInfo).chans)  := by decide +kernel

def wit_ChannelSelectionPerRequester_2 : State :=
    (up [] : State)

theorem test_ChannelSelectionPerRequester_2 :
    (pageInfo ⟨(5 : Fin 16).val, (0x15 : BitVec 12).toNat⟩ = some
    (⟨.cmp, 0x0133, 0, 8, 2, 3⟩ : PageInfo)) ∧ (wit_ChannelSelectionPerRequester_2.hw.stopped ⟨(5 : Fin 16).val, (0x15
    : BitVec 12).toNat⟩ = false) ∧ (wit_ChannelSelectionPerRequester_2.hw.mayWrite (.host : Requester) = true) ∧
    ((⟨.cmp, 0x0133, 0, 8, 2, 3⟩ : PageInfo).chans ≤ (9 : Word).toNat % 4096)  := by decide +kernel

def wit_RegisterPairHalves_1 : State :=
    (up [] : State)

theorem test_RegisterPairHalves_1 :
    (pageInfo ⟨(0 : Fin 16).val, (0x18 : BitVec 12).toNat⟩ = some (⟨.trk,
    0x0140, 0, 4, 2, 3⟩ : PageInfo)) ∧ (pairLow (⟨.trk, 0x0140, 0, 4, 2, 3⟩ : PageInfo).kind (0x12 : BitVec 8).toNat =
    true) ∧ (readChanges (⟨.trk, 0x0140, 0, 4, 2, 3⟩ : PageInfo).kind (0x12 : BitVec 8).toNat = false) ∧
    (wit_RegisterPairHalves_1.hw.mayRead (wit_RegisterPairHalves_1.hw.acc (.host : Requester)) ⟨(0 : Fin 16).val,
    (0x18 : BitVec 12).toNat⟩ = true) ∧ ((after (exec (.pairLowRead (.host : Requester) (0 : Fin 16) (0x18 : BitVec
    12) (0x12 : BitVec 8)) wit_RegisterPairHalves_1)).hw.resp = [wit_RegisterPairHalves_1.view ⟨(0 : Fin 16).val,
    (0x18 : BitVec 12).toNat⟩ (0x12 : BitVec 8).toNat (wit_RegisterPairHalves_1.hw.chanFor ⟨(0 : Fin 16).val, (0x18 :
    BitVec 12).toNat⟩ (.host : Requester) (0x12 : BitVec 8).toNat)]) ∧ (((after (exec (.pairLowRead (.host :
    Requester) (0 : Fin 16) (0x18 : BitVec 12) (0x12 : BitVec 8)) wit_RegisterPairHalves_1)).hw.pair ⟨(0 : Fin
    16).val, (0x18 : BitVec 12).toNat⟩ (0x12 : BitVec 8).toNat (wit_RegisterPairHalves_1.hw.pairChan ⟨(0 : Fin
    16).val, (0x18 : BitVec 12).toNat⟩ (.host : Requester) (0x12 : BitVec 8).toNat) (.host : Requester)).cap = some
    (wit_RegisterPairHalves_1.view ⟨(0 : Fin 16).val, (0x18 : BitVec 12).toNat⟩ ((0x12 : BitVec 8).toNat + 1)
    (wit_RegisterPairHalves_1.hw.chanFor ⟨(0 : Fin 16).val, (0x18 : BitVec 12).toNat⟩ (.host : Requester) (0x12 :
    BitVec 8).toNat)))  := by decide +kernel

def wit_RegisterPairHalves_2 : State :=
    (up [] : State)

theorem test_RegisterPairHalves_2 :
    (accepts wit_RegisterPairHalves_2.hw (.host : Requester) (pETH (1 : Fin
    2).val) = true)  := by decide +kernel

def wit_RegisterPairHalves_3 : State :=
    (up [] : State)

theorem test_RegisterPairHalves_3 :
    (accepts wit_RegisterPairHalves_3.hw (.host : Requester) (pETH (1 : Fin
    2).val) = true) ∧ (wit_RegisterPairHalves_3.hw.pairLowWord (pETH (1 : Fin 2).val) 0x80 0 (.host : Requester) = (0
    : Word)) ∧ ((after (exec (.pairHighWrite (.host : Requester) 15 (BitVec.ofNat 12 (0x03C + (1 : Fin 2).val)) 0x80
    (0x5 : Word)) wit_RegisterPairHalves_3)).hw.reg (pETH (1 : Fin 2).val) 0x80 0 = writtenWord
    wit_RegisterPairHalves_3.hw (pETH (1 : Fin 2).val) 0x80 (wit_RegisterPairHalves_3.hw.reg (pETH (1 : Fin 2).val)
    0x80 0) (0 : Word)) ∧ ((after (exec (.pairHighWrite (.host : Requester) 15 (BitVec.ofNat 12 (0x03C + (1 : Fin
    2).val)) 0x80 (0x5 : Word)) wit_RegisterPairHalves_3)).hw.reg (pETH (1 : Fin 2).val) 0x81 0 = writtenWord
    wit_RegisterPairHalves_3.hw (pETH (1 : Fin 2).val) 0x81 (wit_RegisterPairHalves_3.hw.reg (pETH (1 : Fin 2).val)
    0x81 0) (0x5 : Word))  := by decide +kernel

def wit_ConverterTakesOneStartAndHoldsOne_1 : State :=
    (up [(pADC 2 1, 0, ADC_CTRL_EN, 1), (pADCSEQ 2, 0,
    ADC_SEQ_CTRL_EN, 1), (pADCSEQ 2, 5, ADC_SEQ_ECFG_EN, 1), (pADCSEQ 2, 5, ADC_SEQ_ECFG_CONV, 1)] : State)

theorem test_ConverterTakesOneStartAndHoldsOne_1 :
    (accepts wit_ConverterTakesOneStartAndHoldsOne_1.hw (.host
    : Requester) (pADCSEQ (2 : Fin 8)) = true) ∧ ((0x20 : Word).toNat % 65536 = 2 ^ (5 : Fin 16).val) ∧
    (wit_ConverterTakesOneStartAndHoldsOne_1.hw.entryOn (2 : Fin 8) (5 : Fin 16) = true) ∧
    (wit_ConverterTakesOneStartAndHoldsOne_1.hw.pairOn (2 : Fin 8) (5 : Fin 16) = false) ∧
    (wit_ConverterTakesOneStartAndHoldsOne_1.hw.f (pADCSEQ (2 : Fin 8)) (5 : Fin 16) ADC_SEQ_ECFG_CONV = (1 : Fin
    2).val) ∧ (wit_ConverterTakesOneStartAndHoldsOne_1.hw.b (pADC (2 : Fin 8) (1 : Fin 2)) 0 ADC_STATUS_STARTUP =
    false) ∧ (adcQuiet wit_ConverterTakesOneStartAndHoldsOne_1.hw (2 : Fin 8) = true) ∧
    (wit_ConverterTakesOneStartAndHoldsOne_1.hw.canAccept (2 : Fin 8) (1 : Fin 2) = true) ∧ ((after (exec (.adcSwtrig
    (.host : Requester) (2 : Fin 8) (0x20 : Word)) wit_ConverterTakesOneStartAndHoldsOne_1)).hw.f (pADC (2 : Fin 8) (1
    : Fin 2)) 0 ADC_STATUS_PHASE = 1) ∧ ((after (exec (.adcSwtrig (.host : Requester) (2 : Fin 8) (0x20 : Word))
    wit_ConverterTakesOneStartAndHoldsOne_1)).hw.f (pADCSEQ (2 : Fin 8)) 0 ⟨3, (5 : Fin 16), 1⟩ = 1) ∧ (((after (exec
    (.adcSwtrig (.host : Requester) (2 : Fin 8) (0x20 : Word)) wit_ConverterTakesOneStartAndHoldsOne_1)).hw.conv (2 :
    Fin 8) (1 : Fin 2)).cfg = wit_ConverterTakesOneStartAndHoldsOne_1.hw.takeCfg (2 : Fin 8) (1 : Fin 2) (5 : Fin 16))
     := by decide +kernel

def wit_ConverterTakesOneStartAndHoldsOne_2 : State :=
    (fly [⟨⟨2, 7⟩, 0x2015, 0⟩] (up [(pADC 2 1, 0,
    ADC_CTRL_EN, 1), (pADCSEQ 2, 0, ADC_SEQ_CTRL_EN, 1), (pADCSEQ 2, 5, ADC_SEQ_ECFG_EN, 1), (pADCSEQ 2, 5,
    ADC_SEQ_ECFG_CONV, 1)]) : State)

theorem test_ConverterTakesOneStartAndHoldsOne_2 :
    (wit_ConverterTakesOneStartAndHoldsOne_2.hw.clusterRuns (2
    : Fin 8) = true) ∧ (arrives wit_ConverterTakesOneStartAndHoldsOne_2.hw (⟨2, 7⟩ : Chan) (clCode (2 : Fin 8) (0x010
    + (5 : Fin 16).val)) = true) ∧ (wit_ConverterTakesOneStartAndHoldsOne_2.hw.entryOn (2 : Fin 8) (5 : Fin 16) =
    true) ∧ (wit_ConverterTakesOneStartAndHoldsOne_2.hw.pairOn (2 : Fin 8) (5 : Fin 16) = false) ∧
    (wit_ConverterTakesOneStartAndHoldsOne_2.hw.f (pADCSEQ (2 : Fin 8)) (5 : Fin 16) ADC_SEQ_ECFG_CONV = (1 : Fin
    2).val) ∧ (wit_ConverterTakesOneStartAndHoldsOne_2.hw.b (pADC (2 : Fin 8) (1 : Fin 2)) 0 ADC_STATUS_STARTUP =
    false) ∧ (adcQuiet wit_ConverterTakesOneStartAndHoldsOne_2.hw (2 : Fin 8) = true) ∧
    (wit_ConverterTakesOneStartAndHoldsOne_2.hw.canAccept (2 : Fin 8) (1 : Fin 2) = true) ∧ ((after (exec
    (.adcSeqTrigger (2 : Fin 8) [((5 : Fin 16), ⟨(⟨2, 7⟩ : Chan), none⟩)])
    wit_ConverterTakesOneStartAndHoldsOne_2)).hw.f (pADC (2 : Fin 8) (1 : Fin 2)) 0 ADC_STATUS_PHASE = 1) ∧ ((after
    (exec (.adcSeqTrigger (2 : Fin 8) [((5 : Fin 16), ⟨(⟨2, 7⟩ : Chan), none⟩)])
    wit_ConverterTakesOneStartAndHoldsOne_2)).hw.f (pADCSEQ (2 : Fin 8)) 0 ⟨3, (5 : Fin 16), 1⟩ = 1) ∧ (((after (exec
    (.adcSeqTrigger (2 : Fin 8) [((5 : Fin 16), ⟨(⟨2, 7⟩ : Chan), none⟩)])
    wit_ConverterTakesOneStartAndHoldsOne_2)).hw.conv (2 : Fin 8) (1 : Fin 2)).cfg =
    wit_ConverterTakesOneStartAndHoldsOne_2.hw.takeCfg (2 : Fin 8) (1 : Fin 2) (5 : Fin 16)) ∧ ((after (exec
    (.adcSeqTrigger (2 : Fin 8) [((5 : Fin 16), ⟨(⟨2, 7⟩ : Chan), none⟩)])
    wit_ConverterTakesOneStartAndHoldsOne_2)).hw.flights = [])  := by decide +kernel

def wit_ConverterTakesOneStartAndHoldsOne_3 : State :=
    (up [(pADC 2 0, 0, ADC_CTRL_EN, 1), (pADC 2 0, 0,
    ADC_STATUS_PHASE, 2), (pADCSEQ 2, 0, ADC_SEQ_CTRL_EN, 1), (pADCSEQ 2, 5, ADC_SEQ_ECFG_EN, 1)] : State)

theorem test_ConverterTakesOneStartAndHoldsOne_3 :
    (accepts wit_ConverterTakesOneStartAndHoldsOne_3.hw (.host
    : Requester) (pADCSEQ (2 : Fin 8)) = true) ∧ ((0x20 : Word).toNat % 65536 = 2 ^ (5 : Fin 16).val) ∧
    (wit_ConverterTakesOneStartAndHoldsOne_3.hw.entryOn (2 : Fin 8) (5 : Fin 16) = true) ∧
    (wit_ConverterTakesOneStartAndHoldsOne_3.hw.pairOn (2 : Fin 8) (5 : Fin 16) = false) ∧
    (wit_ConverterTakesOneStartAndHoldsOne_3.hw.f (pADCSEQ (2 : Fin 8)) (5 : Fin 16) ADC_SEQ_ECFG_CONV = (0 : Fin
    2).val) ∧ (wit_ConverterTakesOneStartAndHoldsOne_3.hw.b (pADC (2 : Fin 8) (0 : Fin 2)) 0 ADC_STATUS_STARTUP =
    false) ∧ (adcQuiet wit_ConverterTakesOneStartAndHoldsOne_3.hw (2 : Fin 8) = true) ∧
    (wit_ConverterTakesOneStartAndHoldsOne_3.hw.canAccept (2 : Fin 8) (0 : Fin 2) = false) ∧ ((after (exec (.adcSwtrig
    (.host : Requester) (2 : Fin 8) (0x20 : Word)) wit_ConverterTakesOneStartAndHoldsOne_3)).hw.f (pADC (2 : Fin 8) (0
    : Fin 2)) 0 ADC_STATUS_PEND = 1) ∧ ((after (exec (.adcSwtrig (.host : Requester) (2 : Fin 8) (0x20 : Word))
    wit_ConverterTakesOneStartAndHoldsOne_3)).hw.f (pADC (2 : Fin 8) (0 : Fin 2)) 0 ADC_STATUS_PEND_E = (5 : Fin
    16).val) ∧ ((after (exec (.adcSwtrig (.host : Requester) (2 : Fin 8) (0x20 : Word))
    wit_ConverterTakesOneStartAndHoldsOne_3)).hw.f (pADC (2 : Fin 8) (0 : Fin 2)) 0 ADC_STATUS_PHASE =
    wit_ConverterTakesOneStartAndHoldsOne_3.hw.f (pADC (2 : Fin 8) (0 : Fin 2)) 0 ADC_STATUS_PHASE)
     := by decide +kernel

def wit_ConverterTakesOneStartAndHoldsOne_4 : State :=
    ((up [(pADC 2 0, 0, ADC_CTRL_EN, 1), (pADC 2 0, 0,
    ADC_STATUS_PHASE, 2), (pADC 2 1, 0, ADC_STATUS_PHASE, 1), (pADCSEQ 2, 0, ADC_SEQ_CTRL_EN, 1), (pADCSEQ 2, 5,
    ADC_SEQ_ECFG_EN, 1)]).on (fun h => h.pendStart 2 0 9 false) : State)

theorem test_ConverterTakesOneStartAndHoldsOne_4 :
    (accepts wit_ConverterTakesOneStartAndHoldsOne_4.hw (.host
    : Requester) (pADCSEQ (2 : Fin 8)) = true) ∧ ((0x20 : Word).toNat % 65536 = 2 ^ (5 : Fin 16).val) ∧
    (wit_ConverterTakesOneStartAndHoldsOne_4.hw.entryOn (2 : Fin 8) (5 : Fin 16) = true) ∧
    (wit_ConverterTakesOneStartAndHoldsOne_4.hw.pairOn (2 : Fin 8) (5 : Fin 16) = false) ∧
    (wit_ConverterTakesOneStartAndHoldsOne_4.hw.f (pADCSEQ (2 : Fin 8)) (5 : Fin 16) ADC_SEQ_ECFG_CONV = (0 : Fin
    2).val) ∧ (wit_ConverterTakesOneStartAndHoldsOne_4.hw.b (pADC (2 : Fin 8) (0 : Fin 2)) 0 ADC_STATUS_STARTUP =
    false) ∧ (wit_ConverterTakesOneStartAndHoldsOne_4.hw.phase (2 : Fin 8) ≠ phHANDOVER) ∧
    (wit_ConverterTakesOneStartAndHoldsOne_4.hw.canAccept (2 : Fin 8) 0 = false ∧
    wit_ConverterTakesOneStartAndHoldsOne_4.hw.canAccept (2 : Fin 8) 1 = false) ∧
    ((wit_ConverterTakesOneStartAndHoldsOne_4.hw.conv (2 : Fin 8) (0 : Fin 2)).pend.isSome = true) ∧ ((after (exec
    (.adcSwtrig (.host : Requester) (2 : Fin 8) (0x20 : Word)) wit_ConverterTakesOneStartAndHoldsOne_4)).hw.f (pADCSEQ
    (2 : Fin 8)) 0 ⟨5, 16 + (5 : Fin 16).val, 1⟩ = 1) ∧ ((after (exec (.adcSwtrig (.host : Requester) (2 : Fin 8)
    (0x20 : Word)) wit_ConverterTakesOneStartAndHoldsOne_4)).hw.conv (2 : Fin 8) (0 : Fin 2) =
    wit_ConverterTakesOneStartAndHoldsOne_4.hw.conv (2 : Fin 8) (0 : Fin 2))  := by decide +kernel

def wit_ConverterTakesOneStartAndHoldsOne_5 : State :=
    ((up []).on (fun h => h.pendStart 2 0 9 false) : State)

theorem test_ConverterTakesOneStartAndHoldsOne_5 :
    (wit_ConverterTakesOneStartAndHoldsOne_5.hw.clusterRuns (2
    : Fin 8) = true) ∧ (wit_ConverterTakesOneStartAndHoldsOne_5.hw.phase (2 : Fin 8) ≠ phHANDOVER) ∧
    ((wit_ConverterTakesOneStartAndHoldsOne_5.hw.conv (2 : Fin 8) (0 : Fin 2)).pend = some (9 : Nat)) ∧
    ((wit_ConverterTakesOneStartAndHoldsOne_5.hw.conv (2 : Fin 8) (1 - (0 : Fin 2).val)).pend = none) ∧
    ((wit_ConverterTakesOneStartAndHoldsOne_5.hw.conv (2 : Fin 8) 0).pendPair = false ∧
    (wit_ConverterTakesOneStartAndHoldsOne_5.hw.conv (2 : Fin 8) 1).pendPair = false) ∧
    (wit_ConverterTakesOneStartAndHoldsOne_5.hw.f (pADCSEQ (2 : Fin 8)) (9 : Nat) ADC_SEQ_ECFG_CONV = (0 : Fin 2).val)
    ∧ (wit_ConverterTakesOneStartAndHoldsOne_5.hw.canAccept (2 : Fin 8) (0 : Fin 2) = true) ∧ ((after (exec
    (.conversionStart (2 : Fin 8)) wit_ConverterTakesOneStartAndHoldsOne_5)).hw.f (pADC (2 : Fin 8) (0 : Fin 2)) 0
    ADC_STATUS_PHASE = 1) ∧ ((after (exec (.conversionStart (2 : Fin 8))
    wit_ConverterTakesOneStartAndHoldsOne_5)).hw.f (pADC (2 : Fin 8) (0 : Fin 2)) 0 ADC_STATUS_PEND = 0) ∧ (((after
    (exec (.conversionStart (2 : Fin 8)) wit_ConverterTakesOneStartAndHoldsOne_5)).hw.conv (2 : Fin 8) (0 : Fin
    2)).cfg = wit_ConverterTakesOneStartAndHoldsOne_5.hw.takeCfg (2 : Fin 8) (0 : Fin 2) (9 : Nat))
     := by decide +kernel

def wit_ConversionPhasesAndResult_1 : State :=
    (up [(pADC 7 1, 0, ADC_STATUS_PHASE, 1)] : State)

theorem test_ConversionPhasesAndResult_1 :
    (wit_ConversionPhasesAndResult_1.hw.clusterRuns (7 : Fin 8) = true)
    ∧ (wit_ConversionPhasesAndResult_1.hw.f (pADC (7 : Fin 8) (1 : Fin 2)) 0 ADC_STATUS_PHASE = 1) ∧ ((after (exec
    (.acquisitionEnd (7 : Fin 8) (1 : Fin 2)) wit_ConversionPhasesAndResult_1)).hw.f (pADC (7 : Fin 8) (1 : Fin 2)) 0
    ADC_STATUS_PHASE = 2) ∧ (((after (exec (.acquisitionEnd (7 : Fin 8) (1 : Fin 2))
    wit_ConversionPhasesAndResult_1)).hw.conv (7 : Fin 8) (1 : Fin 2)).held =
    wit_ConversionPhasesAndResult_1.hw.muxDac (7 : Fin 8) (wit_ConversionPhasesAndResult_1.hw.conv (7 : Fin 8) (1 :
    Fin 2)).cfg.mux)  := by decide +kernel

def wit_ConversionPhasesAndResult_2 : State :=
    (up [(pADC 7 0, 0, ADC_STATUS_PHASE, 3)] : State)

theorem test_ConversionPhasesAndResult_2 :
    (wit_ConversionPhasesAndResult_2.hw.clusterRuns (7 : Fin 8) = true)
    ∧ (wit_ConversionPhasesAndResult_2.hw.f (pADC (7 : Fin 8) (0 : Fin 2)) 0 ADC_STATUS_PHASE = 3) ∧ ((after (exec
    (.adcRecoveryEnd (7 : Fin 8) (0 : Fin 2)) wit_ConversionPhasesAndResult_2)).hw.f (pADC (7 : Fin 8) (0 : Fin 2)) 0
    ADC_STATUS_PHASE = 0)  := by decide +kernel

def wit_ConversionPhasesAndResult_3 : State :=
    ((up [(pADC 3 0, 0, ADC_STATUS_PHASE, 2)]).on (fun h =>
    h.setConv 3 0 ⟨⟨4, 2, 0, true, 4294967296, 0, 0⟩, none, false, 0⟩) : State)

theorem test_ConversionPhasesAndResult_3 :
    (wit_ConversionPhasesAndResult_3.hw.clusterRuns (3 : Fin 8) = true)
    ∧ (wit_ConversionPhasesAndResult_3.hw.f (pADC (3 : Fin 8) (0 : Fin 2)) 0 ADC_STATUS_PHASE = 2) ∧
    ((wit_ConversionPhasesAndResult_3.hw.conv (3 : Fin 8) (0 : Fin 2)).cfg = (⟨4, 2, 0, true, 4294967296, 0, 0⟩ :
    ConvCfg)) ∧ ((⟨4, 2, 0, true, 4294967296, 0, 0⟩ : ConvCfg).entry = (4 : Fin 16).val ∧ (⟨4, 2, 0, true, 4294967296,
    0, 0⟩ : ConvCfg).mux < 8 ∧ (⟨4, 2, 0, true, 4294967296, 0, 0⟩ : ConvCfg).res < 3) ∧
    (wit_ConversionPhasesAndResult_3.hw.b (pADCSEQ (3 : Fin 8)) (4 : Fin 16) ADC_SEQ_ECFG_CHAIN = false) ∧ (0 < (65536
    : Int)) ∧ ((40000 : Nat) = (min 65535 (max 0 (65536 * ((40000 : Int) - (0 : Int)) / (65536 : Int)))).toNat / 2 ^
    (2 * (⟨4, 2, 0, true, 4294967296, 0, 0⟩ : ConvCfg).res) * 2 ^ (2 * (⟨4, 2, 0, true, 4294967296, 0, 0⟩ :
    ConvCfg).res)) ∧ ((7232 : Int) = (if (⟨4, 2, 0, true, 4294967296, 0, 0⟩ : ConvCfg).signed then ((40000 : Nat) :
    Int) - 32768 else (40000 : Nat))) ∧ ((after (exec (.conversionDone (3 : Fin 8) (0 : Fin 2) ⟨(40000 : Int), (0 :
    Int), (65536 : Int), 0⟩) wit_ConversionPhasesAndResult_3)).hw.fs (pADCSEQ (3 : Fin 8)) (4 : Fin 16)
    ADC_SEQ_RESULT_VALUE = max (-(2 ^ 39)) (min (2 ^ 39 - 1) ((⟨4, 2, 0, true, 4294967296, 0, 0⟩ : ConvCfg).offset +
    (2 * (7232 : Int) * (⟨4, 2, 0, true, 4294967296, 0, 0⟩ : ConvCfg).gain + 2 ^ 15) / 2 ^ 16))) ∧ ((after (exec
    (.conversionDone (3 : Fin 8) (0 : Fin 2) ⟨(40000 : Int), (0 : Int), (65536 : Int), 0⟩)
    wit_ConversionPhasesAndResult_3)).hw.b (pADCSEQ (3 : Fin 8)) (4 : Fin 16) ADC_SEQ_ESTAT_SAT = decide ((⟨4, 2, 0,
    true, 4294967296, 0, 0⟩ : ConvCfg).offset + (2 * (7232 : Int) * (⟨4, 2, 0, true, 4294967296, 0, 0⟩ : ConvCfg).gain
    + 2 ^ 15) / 2 ^ 16 < -(2 ^ 39) ∨ 2 ^ 39 - 1 < (⟨4, 2, 0, true, 4294967296, 0, 0⟩ : ConvCfg).offset + (2 * (7232 :
    Int) * (⟨4, 2, 0, true, 4294967296, 0, 0⟩ : ConvCfg).gain + 2 ^ 15) / 2 ^ 16)) ∧ ((after (exec (.conversionDone (3
    : Fin 8) (0 : Fin 2) ⟨(40000 : Int), (0 : Int), (65536 : Int), 0⟩) wit_ConversionPhasesAndResult_3)).hw.f (pADCSEQ
    (3 : Fin 8)) (4 : Fin 16) ADC_SEQ_ESTAT_RAW = (40000 : Nat)) ∧ ((after (exec (.conversionDone (3 : Fin 8) (0 : Fin
    2) ⟨(40000 : Int), (0 : Int), (65536 : Int), 0⟩) wit_ConversionPhasesAndResult_3)).hw.f (pADCSEQ (3 : Fin 8)) (4 :
    Fin 16) ADC_SEQ_ESTAT_SEQ = (wit_ConversionPhasesAndResult_3.hw.f (pADCSEQ (3 : Fin 8)) (4 : Fin 16)
    ADC_SEQ_ESTAT_SEQ + 1) % 256) ∧ ((after (exec (.conversionDone (3 : Fin 8) (0 : Fin 2) ⟨(40000 : Int), (0 : Int),
    (65536 : Int), 0⟩) wit_ConversionPhasesAndResult_3)).hw.f (pADCSEQ (3 : Fin 8)) 0 ⟨5, (4 : Fin 16), 1⟩ = 1) ∧
    ((after (exec (.conversionDone (3 : Fin 8) (0 : Fin 2) ⟨(40000 : Int), (0 : Int), (65536 : Int), 0⟩)
    wit_ConversionPhasesAndResult_3)).hw.f (pADC (3 : Fin 8) (0 : Fin 2)) 0 ADC_STATUS_PHASE = 3) ∧ ((after (exec
    (.conversionDone (3 : Fin 8) (0 : Fin 2) ⟨(40000 : Int), (0 : Int), (65536 : Int), 0⟩)
    wit_ConversionPhasesAndResult_3)).hw.f (pADC (3 : Fin 8) (0 : Fin 2)) 0 ADC_CONV_CNT_COUNT =
    (wit_ConversionPhasesAndResult_3.hw.f (pADC (3 : Fin 8) (0 : Fin 2)) 0 ADC_CONV_CNT_COUNT + 1) % 2 ^ 40)
     := by decide +kernel

def wit_ConverterEnablesAndStartUp_1 : State :=
    (up [] : State)

theorem test_ConverterEnablesAndStartUp_1 :
    (accepts wit_ConverterEnablesAndStartUp_1.hw (.host : Requester)
    (pADC (1 : Fin 8) 0) = true) ∧ (bitOf (1 : Word).toNat 0 = true) ∧ ((wit_ConverterEnablesAndStartUp_1.hw.adcSt (1
    : Fin 8)).startBegun = false) ∧ ((after (exec (.adcEnableChange (.host : Requester) (1 : Fin 8) .convA (1 : Word))
    wit_ConverterEnablesAndStartUp_1)).hw.f (pADC (1 : Fin 8) 0) 0 ADC_CTRL_EN = 1) ∧ ((after (exec (.adcEnableChange
    (.host : Requester) (1 : Fin 8) .convA (1 : Word)) wit_ConverterEnablesAndStartUp_1)).hw.f (pADC (1 : Fin 8) 0) 0
    ADC_STATUS_STARTUP = 1 ∧ (after (exec (.adcEnableChange (.host : Requester) (1 : Fin 8) .convA (1 : Word))
    wit_ConverterEnablesAndStartUp_1)).hw.f (pADC (1 : Fin 8) 1) 0 ADC_STATUS_STARTUP = 1) ∧ ((after (exec
    (.adcEnableChange (.host : Requester) (1 : Fin 8) .convA (1 : Word)) wit_ConverterEnablesAndStartUp_1)).hw.queue
    (1 : Fin 8) = wit_ConverterEnablesAndStartUp_1.hw.queue (1 : Fin 8) ++ [⟨2, 0⟩])  := by decide +kernel

def wit_ConverterEnablesAndStartUp_2 : State :=
    ((up [(pADCSEQ 1, 3, ADC_SEQ_ECFG_CONV, 1), (pADC 1 1, 0,
    ADC_CTRL_EN, 1)]).on (fun h => h.pendStart 1 1 3 false) : State)

theorem test_ConverterEnablesAndStartUp_2 :
    (accepts wit_ConverterEnablesAndStartUp_2.hw (.host : Requester)
    (pADC (1 : Fin 8) 1) = true) ∧ (bitOf (0 : Word).toNat 0 = false) ∧ ((wit_ConverterEnablesAndStartUp_2.hw.conv (1
    : Fin 8) 1).pend = some (3 : Nat)) ∧ (wit_ConverterEnablesAndStartUp_2.hw.f (pADCSEQ (1 : Fin 8)) (3 : Nat)
    ADC_SEQ_ECFG_CONV = 1) ∧ ((after (exec (.adcEnableChange (.host : Requester) (1 : Fin 8) .convB (0 : Word))
    wit_ConverterEnablesAndStartUp_2)).hw.f (pADC (1 : Fin 8) 1) 0 ADC_CTRL_EN = 0) ∧ (((after (exec (.adcEnableChange
    (.host : Requester) (1 : Fin 8) .convB (0 : Word)) wit_ConverterEnablesAndStartUp_2)).hw.conv (1 : Fin 8) 1).pend
    = none) ∧ ((after (exec (.adcEnableChange (.host : Requester) (1 : Fin 8) .convB (0 : Word))
    wit_ConverterEnablesAndStartUp_2)).hw.reg (pADCSEQ (1 : Fin 8)) 5 0 = wit_ConverterEnablesAndStartUp_2.hw.reg
    (pADCSEQ (1 : Fin 8)) 5 0)  := by decide +kernel

def wit_ConverterEnablesAndStartUp_3 : State :=
    ((up []).on (fun h => h.setRunning 1 (some ⟨2, 0⟩)) : State)

theorem test_ConverterEnablesAndStartUp_3 :
    (wit_ConverterEnablesAndStartUp_3.hw.clusterRuns (1 : Fin 8) =
    true) ∧ (wit_ConverterEnablesAndStartUp_3.hw.running (1 : Fin 8) = some ⟨2, 0⟩) ∧
    (wit_ConverterEnablesAndStartUp_3.hw.phase (1 : Fin 8) = phSTARTUP) ∧ ((wit_ConverterEnablesAndStartUp_3.hw.adcSt
    (1 : Fin 8)).rotNow = false) ∧ (wit_ConverterEnablesAndStartUp_3.hw.verifyOk (1 : Fin 8) (verifyCode
    wit_ConverterEnablesAndStartUp_3.hw (1 : Fin 8) (⟨0, 0, 2500, 3⟩ : Analog)) = true ∧
    wit_ConverterEnablesAndStartUp_3.hw.verifyOk (1 : Fin 8) (verifyCode wit_ConverterEnablesAndStartUp_3.hw (1 : Fin
    8) (⟨0, 0, 2500, -4⟩ : Analog)) = true ∧ wit_ConverterEnablesAndStartUp_3.hw.verifyOk (1 : Fin 8) (verifyCode
    wit_ConverterEnablesAndStartUp_3.hw (1 : Fin 8) (⟨0, 0, 2500, 16⟩ : Analog)) = true) ∧ ((after (exec
    (.startupCalibrationDone (1 : Fin 8) (⟨0, 0, 2500, 3⟩ : Analog) (⟨0, 0, 2500, -4⟩ : Analog) (⟨0, 0, 2500, 16⟩ :
    Analog)) wit_ConverterEnablesAndStartUp_3)).hw.f (pADC (1 : Fin 8) 0) 0 ADC_STATUS_STARTUP = 0 ∧ (after (exec
    (.startupCalibrationDone (1 : Fin 8) (⟨0, 0, 2500, 3⟩ : Analog) (⟨0, 0, 2500, -4⟩ : Analog) (⟨0, 0, 2500, 16⟩ :
    Analog)) wit_ConverterEnablesAndStartUp_3)).hw.f (pADC (1 : Fin 8) 1) 0 ADC_STATUS_STARTUP = 0) ∧ ((after (exec
    (.startupCalibrationDone (1 : Fin 8) (⟨0, 0, 2500, 3⟩ : Analog) (⟨0, 0, 2500, -4⟩ : Analog) (⟨0, 0, 2500, 16⟩ :
    Analog)) wit_ConverterEnablesAndStartUp_3)).hw.phase (1 : Fin 8) = phREADY) ∧ ((after (exec
    (.startupCalibrationDone (1 : Fin 8) (⟨0, 0, 2500, 3⟩ : Analog) (⟨0, 0, 2500, -4⟩ : Analog) (⟨0, 0, 2500, 16⟩ :
    Analog)) wit_ConverterEnablesAndStartUp_3)).hw.f (pADCS (1 : Fin 8)) 0 ADC_S_CAL_MID_UNIT = 2) ∧ ((after (exec
    (.startupCalibrationDone (1 : Fin 8) (⟨0, 0, 2500, 3⟩ : Analog) (⟨0, 0, 2500, -4⟩ : Analog) (⟨0, 0, 2500, 16⟩ :
    Analog)) wit_ConverterEnablesAndStartUp_3)).hw.f (pADCS (1 : Fin 8)) 0 ADC_S_CAL_MID_CODE = verifyCode
    wit_ConverterEnablesAndStartUp_3.hw (1 : Fin 8) (⟨0, 0, 2500, 16⟩ : Analog)) ∧ ((after (exec
    (.startupCalibrationDone (1 : Fin 8) (⟨0, 0, 2500, 3⟩ : Analog) (⟨0, 0, 2500, -4⟩ : Analog) (⟨0, 0, 2500, 16⟩ :
    Analog)) wit_ConverterEnablesAndStartUp_3)).hw.running (1 : Fin 8) = none)  := by decide +kernel

def wit_SpareRotationAndCalibration_1 : State :=
    ((up [(pADCS 4, 0, ADC_S_STATUS_PHASE, 0)]).on (fun h =>
    h.enqueue 4 2 0) : State)

theorem test_SpareRotationAndCalibration_1 :
    (wit_SpareRotationAndCalibration_1.hw.clusterRuns (4 : Fin 8) =
    true) ∧ (wit_SpareRotationAndCalibration_1.hw.queue (4 : Fin 8) = [⟨2, 0⟩]) ∧
    (wit_SpareRotationAndCalibration_1.hw.running (4 : Fin 8) = none) ∧ (wit_SpareRotationAndCalibration_1.hw.phase (4
    : Fin 8) = phCAL) ∧ ((after (exec (.calibrationGrant (4 : Fin 8) ())
    wit_SpareRotationAndCalibration_1)).hw.running (4 : Fin 8) = some ⟨2, 0⟩) ∧ ((after (exec (.calibrationGrant (4 :
    Fin 8) ()) wit_SpareRotationAndCalibration_1)).hw.queue (4 : Fin 8) = [])  := by decide +kernel

def wit_SpareRotationAndCalibration_2 : State :=
    ((up [(pADCS 4, 0, ADC_S_STATUS_PHASE, 0)]).on (fun h =>
    h.setRunning 4 (some ⟨2, 0⟩)) : State)

theorem test_SpareRotationAndCalibration_2 :
    (wit_SpareRotationAndCalibration_2.hw.clusterRuns (4 : Fin 8) =
    true) ∧ (wit_SpareRotationAndCalibration_2.hw.running (4 : Fin 8) = some ⟨2, 0⟩) ∧
    (wit_SpareRotationAndCalibration_2.hw.phase (4 : Fin 8) = phCAL) ∧ ((wit_SpareRotationAndCalibration_2.hw.adcSt (4
    : Fin 8)).intervalUp = false ∧ (wit_SpareRotationAndCalibration_2.hw.adcSt (4 : Fin 8)).rotNow = false) ∧
    (wit_SpareRotationAndCalibration_2.hw.verifyOk (4 : Fin 8) (verifyCode wit_SpareRotationAndCalibration_2.hw (4 :
    Fin 8) (⟨0, 0, 2500, 0⟩ : Analog)) = true) ∧ ((after (exec (.calibrationDone (4 : Fin 8) (⟨0, 0, 2500, 0⟩ :
    Analog)) wit_SpareRotationAndCalibration_2)).hw.phase (4 : Fin 8) = phREADY) ∧ ((after (exec (.calibrationDone (4
    : Fin 8) (⟨0, 0, 2500, 0⟩ : Analog)) wit_SpareRotationAndCalibration_2)).hw.running (4 : Fin 8) = none) ∧ ((after
    (exec (.calibrationDone (4 : Fin 8) (⟨0, 0, 2500, 0⟩ : Analog)) wit_SpareRotationAndCalibration_2)).hw.f (pADCS (4
    : Fin 8)) 0 ADC_S_CAL_MID_CODE = verifyCode wit_SpareRotationAndCalibration_2.hw (4 : Fin 8) (⟨0, 0, 2500, 0⟩ :
    Analog))  := by decide +kernel

def wit_SpareRotationAndCalibration_3 : State :=
    ((up [(pADCS 4, 0, ADC_S_STATUS_PHASE, 0)]).on (fun h =>
    (h.setRunning 4 (some ⟨2, 0⟩)).setAdc 4 { h.adcSt 4 with tries := 2 }) : State)

theorem test_SpareRotationAndCalibration_3 :
    (wit_SpareRotationAndCalibration_3.hw.clusterRuns (4 : Fin 8) =
    true) ∧ (wit_SpareRotationAndCalibration_3.hw.running (4 : Fin 8) = some ⟨2, 0⟩) ∧
    (wit_SpareRotationAndCalibration_3.hw.phase (4 : Fin 8) = phCAL) ∧ (wit_SpareRotationAndCalibration_3.hw.f (pADCS
    (4 : Fin 8)) 0 ADC_S_STATUS_UNIT_S = (2 : Fin 3).val) ∧ ((wit_SpareRotationAndCalibration_3.hw.adcSt (4 : Fin
    8)).tries = 2) ∧ (wit_SpareRotationAndCalibration_3.hw.verifyOk (4 : Fin 8) (verifyCode
    wit_SpareRotationAndCalibration_3.hw (4 : Fin 8) (⟨0, 0, 2500, 17⟩ : Analog)) = false) ∧ ((after (exec
    (.calibrationDone (4 : Fin 8) (⟨0, 0, 2500, 17⟩ : Analog)) wit_SpareRotationAndCalibration_3)).hw.phase (4 : Fin
    8) = phNONE) ∧ ((after (exec (.calibrationDone (4 : Fin 8) (⟨0, 0, 2500, 17⟩ : Analog))
    wit_SpareRotationAndCalibration_3)).hw.f (pADCS (4 : Fin 8)) 0 ADC_S_STATUS_NO_SPARE = 1) ∧ ((after (exec
    (.calibrationDone (4 : Fin 8) (⟨0, 0, 2500, 17⟩ : Analog)) wit_SpareRotationAndCalibration_3)).hw.f (pADCS (4 :
    Fin 8)) 0 ⟨3, 13 + (2 : Fin 3).val, 1⟩ = 1) ∧ ((after (exec (.calibrationDone (4 : Fin 8) (⟨0, 0, 2500, 17⟩ :
    Analog)) wit_SpareRotationAndCalibration_3)).hw.f (pADCS (4 : Fin 8)) 0 ADC_S_IRQ_NO_SPARE = 1 ∧ (after (exec
    (.calibrationDone (4 : Fin 8) (⟨0, 0, 2500, 17⟩ : Analog)) wit_SpareRotationAndCalibration_3)).hw.f (pADCS (4 :
    Fin 8)) 0 ADC_S_IRQ_CAL_FAIL = 1)  := by decide +kernel

def wit_SpareRotationAndCalibration_4 : State :=
    ((up [(pADCS 4, 0, ADC_S_STATUS_PHASE, 1)]).on (fun h =>
    { h.setAdc 4 { h.adcSt 4 with startDone := true } with now := 1000000000 }) : State)

theorem test_SpareRotationAndCalibration_4 :
    (wit_SpareRotationAndCalibration_4.hw.clusterRuns (4 : Fin 8) =
    true) ∧ ((wit_SpareRotationAndCalibration_4.hw.adcSt (4 : Fin 8)).startDone = true) ∧
    ((wit_SpareRotationAndCalibration_4.hw.adcSt (4 : Fin 8)).rbWait = none) ∧
    (wit_SpareRotationAndCalibration_4.hw.phase (4 : Fin 8) = phREADY) ∧ (wit_SpareRotationAndCalibration_4.hw.b
    (pADCS (4 : Fin 8)) 0 ADC_S_CTRL_ROT_EN = true) ∧ ((wit_SpareRotationAndCalibration_4.hw.adcSt (4 : Fin
    8)).intervalAt + 40000 * max 1 (wit_SpareRotationAndCalibration_4.hw.f (pADCS (4 : Fin 8)) 0 ADC_S_CTRL_ROT_INT) ≤
    wit_SpareRotationAndCalibration_4.hw.now) ∧ ((after (exec (.rotationIntervalExpiry (4 : Fin 8))
    wit_SpareRotationAndCalibration_4)).hw.phase (4 : Fin 8) = phHANDOVER)  := by decide +kernel

def wit_SpareRotationAndCalibration_5 : State :=
    (up [(pADCS 4, 0, ADC_S_STATUS_PHASE, 1)] : State)

theorem test_SpareRotationAndCalibration_5 :
    (accepts wit_SpareRotationAndCalibration_5.hw (.core 17 :
    Requester) (pADCS (4 : Fin 8)) = true) ∧ (bitOf (0x643 : Word).toNat 0 = true ∧ bitOf (0x643 : Word).toNat 1 =
    true) ∧ ((wit_SpareRotationAndCalibration_5.hw.adcSt (4 : Fin 8)).rbWait = none) ∧
    (wit_SpareRotationAndCalibration_5.hw.phase (4 : Fin 8) = phREADY) ∧ ((after (exec (.rotNow (.core 17 : Requester)
    (4 : Fin 8) (0x643 : Word)) wit_SpareRotationAndCalibration_5)).hw.phase (4 : Fin 8) = phHANDOVER) ∧ ((after (exec
    (.rotNow (.core 17 : Requester) (4 : Fin 8) (0x643 : Word)) wit_SpareRotationAndCalibration_5)).hw.f (pADCS (4 :
    Fin 8)) 0 ADC_S_CTRL_ROT_NOW = 0)  := by decide +kernel

def wit_SpareRotationAndCalibration_6 : State :=
    (up [(pADCS 4, 0, ADC_S_STATUS_PHASE, 3)] : State)

theorem test_SpareRotationAndCalibration_6 :
    (wit_SpareRotationAndCalibration_6.hw.clusterRuns (4 : Fin 8) =
    true) ∧ (wit_SpareRotationAndCalibration_6.hw.phase (4 : Fin 8) = phHANDOVER) ∧
    (wit_SpareRotationAndCalibration_6.hw.f (pADCS (4 : Fin 8)) 0 ADC_S_STATUS_NEXT_OUT = 0) ∧
    (wit_SpareRotationAndCalibration_6.hw.canAccept (4 : Fin 8) 0 = true) ∧ ((after (exec (.handover (4 : Fin 8))
    wit_SpareRotationAndCalibration_6)).hw.f (pADCS (4 : Fin 8)) 0 ADC_S_STATUS_UNIT_A =
    wit_SpareRotationAndCalibration_6.hw.f (pADCS (4 : Fin 8)) 0 ADC_S_STATUS_UNIT_S) ∧ ((after (exec (.handover (4 :
    Fin 8)) wit_SpareRotationAndCalibration_6)).hw.f (pADCS (4 : Fin 8)) 0 ADC_S_STATUS_UNIT_S =
    wit_SpareRotationAndCalibration_6.hw.f (pADCS (4 : Fin 8)) 0 ADC_S_STATUS_UNIT_A) ∧ ((after (exec (.handover (4 :
    Fin 8)) wit_SpareRotationAndCalibration_6)).hw.f (pADCS (4 : Fin 8)) 0 ADC_S_STATUS_UNIT_B =
    wit_SpareRotationAndCalibration_6.hw.f (pADCS (4 : Fin 8)) 0 ADC_S_STATUS_UNIT_B) ∧ ((after (exec (.handover (4 :
    Fin 8)) wit_SpareRotationAndCalibration_6)).hw.f (pADCS (4 : Fin 8)) 0 ADC_S_STATUS_NEXT_OUT = 1) ∧ ((after (exec
    (.handover (4 : Fin 8)) wit_SpareRotationAndCalibration_6)).hw.f (pADCS (4 : Fin 8)) 0 ADC_S_ROT_CNT_COUNT =
    (wit_SpareRotationAndCalibration_6.hw.f (pADCS (4 : Fin 8)) 0 ADC_S_ROT_CNT_COUNT + 1) % 2 ^ 40) ∧ ((after (exec
    (.handover (4 : Fin 8)) wit_SpareRotationAndCalibration_6)).hw.phase (4 : Fin 8) = phCAL) ∧ ((after (exec
    (.handover (4 : Fin 8)) wit_SpareRotationAndCalibration_6)).hw.queue (4 : Fin 8) =
    wit_SpareRotationAndCalibration_6.hw.queue (4 : Fin 8) ++ [⟨2, 0⟩])  := by decide +kernel

def wit_SpareRotationAndCalibration_7 : State :=
    (up [(pADCS 4, 0, ADC_S_STATUS_PHASE, 4), (pADCS 4, 0,
    ADC_S_STATUS_FAILED, 5)] : State)

theorem test_SpareRotationAndCalibration_7 :
    (accepts wit_SpareRotationAndCalibration_7.hw (.host : Requester)
    (pADCS (4 : Fin 8)) = true) ∧ (wit_SpareRotationAndCalibration_7.hw.phase (4 : Fin 8) = phNONE) ∧
    (wit_SpareRotationAndCalibration_7.hw.f (pADCS (4 : Fin 8)) 0 ADC_S_STATUS_UNIT_S = (2 : Fin 3).val) ∧
    (wit_SpareRotationAndCalibration_7.hw.f (pADCS (4 : Fin 8)) 0 ⟨3, 13 + (2 : Fin 3).val, 1⟩ = 1) ∧ ((4 :
    Word).toNat % 8 = 2 ^ (2 : Fin 3).val) ∧ ((after (exec (.unitClr (.host : Requester) (4 : Fin 8) (4 : Word))
    wit_SpareRotationAndCalibration_7)).hw.phase (4 : Fin 8) = phCAL) ∧ ((after (exec (.unitClr (.host : Requester) (4
    : Fin 8) (4 : Word)) wit_SpareRotationAndCalibration_7)).hw.f (pADCS (4 : Fin 8)) 0 ⟨3, 13 + (2 : Fin 3).val, 1⟩ =
    0) ∧ ((after (exec (.unitClr (.host : Requester) (4 : Fin 8) (4 : Word))
    wit_SpareRotationAndCalibration_7)).hw.queue (4 : Fin 8) = wit_SpareRotationAndCalibration_7.hw.queue (4 : Fin 8)
    ++ [⟨2, 0⟩])  := by decide +kernel

def wit_SpareRotationAndCalibration_8 : State :=
    (up [(pADCS 4, 0, ADC_S_STATUS_PHASE, 1)] : State)

theorem test_SpareRotationAndCalibration_8 :
    (accepts wit_SpareRotationAndCalibration_8.hw (.host : Requester)
    (pADCS (4 : Fin 8)) = true) ∧ (bitOf (0x600B : Word).toNat 3 = true) ∧ (wit_SpareRotationAndCalibration_8.hw.phase
    (4 : Fin 8) ≠ phNONE) ∧ ((wit_SpareRotationAndCalibration_8.hw.adcSt (4 : Fin 8)).rbRun = none ∧
    (wit_SpareRotationAndCalibration_8.hw.adcSt (4 : Fin 8)).rbWait = none) ∧ ((after (exec (.readbackRequest (.host :
    Requester) (4 : Fin 8) (0x600B : Word)) wit_SpareRotationAndCalibration_8)).hw.f (pADCS (4 : Fin 8)) 0
    ADC_S_RB_RESULT_QUEUED = 1) ∧ ((after (exec (.readbackRequest (.host : Requester) (4 : Fin 8) (0x600B : Word))
    wit_SpareRotationAndCalibration_8)).hw.f (pADCS (4 : Fin 8)) 0 ADC_S_RB_RESULT_DONE = 0) ∧ (((after (exec
    (.readbackRequest (.host : Requester) (4 : Fin 8) (0x600B : Word)) wit_SpareRotationAndCalibration_8)).hw.adcSt (4
    : Fin 8)).rbWait = some ((0x600B : Word).toNat % 8)) ∧ ((after (exec (.readbackRequest (.host : Requester) (4 :
    Fin 8) (0x600B : Word)) wit_SpareRotationAndCalibration_8)).hw.queue (4 : Fin 8) =
    wit_SpareRotationAndCalibration_8.hw.queue (4 : Fin 8) ++ [⟨1, 0⟩])  := by decide +kernel

def wit_SpareRotationAndCalibration_9 : State :=
    (up [(pADCS 4, 0, ADC_S_STATUS_PHASE, 4)] : State)

theorem test_SpareRotationAndCalibration_9 :
    (accepts wit_SpareRotationAndCalibration_9.hw (.host : Requester)
    (pADCS (4 : Fin 8)) = true) ∧ (bitOf (0x600B : Word).toNat 3 = true) ∧ (wit_SpareRotationAndCalibration_9.hw.phase
    (4 : Fin 8) = phNONE) ∧ ((wit_SpareRotationAndCalibration_9.hw.adcSt (4 : Fin 8)).rbRun = none) ∧ ((after (exec
    (.readbackRequest (.host : Requester) (4 : Fin 8) (0x600B : Word)) wit_SpareRotationAndCalibration_9)).hw.f (pADCS
    (4 : Fin 8)) 0 ADC_S_RB_RESULT_NOSPARE = 1 ∧ (after (exec (.readbackRequest (.host : Requester) (4 : Fin 8)
    (0x600B : Word)) wit_SpareRotationAndCalibration_9)).hw.f (pADCS (4 : Fin 8)) 0 ADC_S_RB_RESULT_DONE = 1) ∧
    ((after (exec (.readbackRequest (.host : Requester) (4 : Fin 8) (0x600B : Word))
    wit_SpareRotationAndCalibration_9)).hw.f (pADCS (4 : Fin 8)) 0 ADC_S_RB_RESULT_QUEUED = 0) ∧ ((after (exec
    (.readbackRequest (.host : Requester) (4 : Fin 8) (0x600B : Word)) wit_SpareRotationAndCalibration_9)).hw.f (pADCS
    (4 : Fin 8)) 0 ADC_S_RB_RESULT_CODE = wit_SpareRotationAndCalibration_9.hw.f (pADCS (4 : Fin 8)) 0
    ADC_S_RB_RESULT_CODE) ∧ ((after (exec (.readbackRequest (.host : Requester) (4 : Fin 8) (0x600B : Word))
    wit_SpareRotationAndCalibration_9)).hw.f (pADCS (4 : Fin 8)) 0 ADC_S_IRQ_RB_DONE = 1)  := by decide +kernel

def wit_SpareRotationAndCalibration_10 : State :=
    ((up [(pADCS 4, 0, ADC_S_STATUS_PHASE, 1)]).on (fun h =>
    (h.enqueue 4 1 0).setAdc 4 { h.adcSt 4 with rbWait := some 3 }) : State)

theorem test_SpareRotationAndCalibration_10 :
    (wit_SpareRotationAndCalibration_10.hw.clusterRuns (4 : Fin 8) =
    true) ∧ (wit_SpareRotationAndCalibration_10.hw.phase (4 : Fin 8) = phREADY) ∧
    (wit_SpareRotationAndCalibration_10.hw.queue (4 : Fin 8) = [⟨1, 0⟩]) ∧
    (wit_SpareRotationAndCalibration_10.hw.running (4 : Fin 8) = none) ∧ ((wit_SpareRotationAndCalibration_10.hw.adcSt
    (4 : Fin 8)).rbWait = some (3 : Nat)) ∧ ((after (exec (.readbackGrant (4 : Fin 8) ())
    wit_SpareRotationAndCalibration_10)).hw.phase (4 : Fin 8) = phRB) ∧ (((after (exec (.readbackGrant (4 : Fin 8) ())
    wit_SpareRotationAndCalibration_10)).hw.adcSt (4 : Fin 8)).rbRun = some (3 : Nat)) ∧ ((after (exec (.readbackGrant
    (4 : Fin 8) ()) wit_SpareRotationAndCalibration_10)).hw.running (4 : Fin 8) = some ⟨1, 0⟩)  := by decide +kernel

def wit_SpareRotationAndCalibration_11 : State :=
    ((up [(pADCS 4, 0, ADC_S_STATUS_PHASE, 2), (pCMP 4, 3,
    CMP_THRESH_DAC, 512)]).on (fun h => h.setAdc 4 { h.adcSt 4 with rbRun := some 3 }) : State)

theorem test_SpareRotationAndCalibration_11 :
    (wit_SpareRotationAndCalibration_11.hw.clusterRuns (4 : Fin 8) =
    true) ∧ (wit_SpareRotationAndCalibration_11.hw.phase (4 : Fin 8) = phRB) ∧
    ((wit_SpareRotationAndCalibration_11.hw.adcSt (4 : Fin 8)).rbRun = some (3 : Fin 8).val) ∧
    ((wit_SpareRotationAndCalibration_11.hw.adcSt (4 : Fin 8)).rbNext = none) ∧ ((muxInput
    wit_SpareRotationAndCalibration_11.hw (4 : Fin 8) (8 + (3 : Fin 8).val) (⟨0, 0, 2500, -19⟩ : Analog)).code =
    (32781 : Nat)) ∧ ((after (exec (.readbackDone (4 : Fin 8) (⟨0, 0, 2500, -19⟩ : Analog))
    wit_SpareRotationAndCalibration_11)).hw.f (pADCS (4 : Fin 8)) 0 ADC_S_RB_RESULT_CODE = (32781 : Nat)) ∧ ((after
    (exec (.readbackDone (4 : Fin 8) (⟨0, 0, 2500, -19⟩ : Analog)) wit_SpareRotationAndCalibration_11)).hw.f (pADCS (4
    : Fin 8)) 0 ADC_S_RB_RESULT_DONE = 1) ∧ ((after (exec (.readbackDone (4 : Fin 8) (⟨0, 0, 2500, -19⟩ : Analog))
    wit_SpareRotationAndCalibration_11)).hw.f (pADCS (4 : Fin 8)) 0 ADC_S_RB_RESULT_QUEUED = 0) ∧ ((after (exec
    (.readbackDone (4 : Fin 8) (⟨0, 0, 2500, -19⟩ : Analog)) wit_SpareRotationAndCalibration_11)).hw.b (pADCS (4 : Fin
    8)) 0 ADC_S_RB_RESULT_FAIL = decide (wit_SpareRotationAndCalibration_11.hw.f (pADCS (4 : Fin 8)) 0
    ADC_S_RB_CTRL_TOL < (((32781 : Nat) : Int) - (64 * wit_SpareRotationAndCalibration_11.hw.f (pCMP (4 : Fin 8)) (3 :
    Fin 8) CMP_THRESH_DAC + 32 : Nat)).natAbs))  := by decide +kernel

def wit_SigmaDeltaOutputs_1 : State :=
    ((up [(pPIN, 0, PIN_BANK_VOK 6, 1), (pPIN, 216, PIN_PFUNC_ISEL, 0x632),
    (pSDF 6, 0, SDF_SDMCLK_SRC, 1), (pSDF 6, 2, SDF_FCFG_EN, 1), (pSDF 6, 2, SDF_FCFG_ORDER, 0), (pSDF 6, 2,
    SDF_FCFG_DEC, 4)]).on (fun h => h.setSdf 6 2 { bits := [true, false, true], phase := 3, settled := 9 }) : State)

theorem test_SigmaDeltaOutputs_1 :
    (takesNrz wit_SigmaDeltaOutputs_1.hw (6 : Fin 8) (2 : Fin 8) = true) ∧
    ((wit_SigmaDeltaOutputs_1.hw.sdfSt (6 : Fin 8) (2 : Fin 8)).outs = []) ∧ (wit_SigmaDeltaOutputs_1.hw.f (pSDF (6 :
    Fin 8)) (2 : Fin 8) SDF_FCFG_DEC = (4 : Nat) ∧ 4 ≤ (4 : Nat) ∧ (4 : Nat) ≤ 1024) ∧ (wit_SigmaDeltaOutputs_1.hw.f
    (pSDF (6 : Fin 8)) (2 : Fin 8) SDF_FCFG_ORDER + 1 = (1 : Nat)) ∧ ((wit_SigmaDeltaOutputs_1.hw.sdfSt (6 : Fin 8) (2
    : Fin 8)).phase + 1 = (4 : Nat)) ∧ ((2 : Int) = sincOut (4 : Nat) (1 : Nat) ((nrzBit wit_SigmaDeltaOutputs_1.hw (6
    : Fin 8) (2 : Fin 8) ((true, false) : SdBit) :: (wit_SigmaDeltaOutputs_1.hw.sdfSt (6 : Fin 8) (2 : Fin
    8)).bits).take 4096)) ∧ ((0x40000000 : Int) = wit_SigmaDeltaOutputs_1.hw.fs (pSDF (6 : Fin 8)) (2 : Fin 8)
    SDF_OFFSET_VALUE + (2 * (2 : Int) * wit_SigmaDeltaOutputs_1.hw.fs (pSDF (6 : Fin 8)) (2 : Fin 8) SDF_GAIN_VALUE +
    ((4 : Nat) : Int) ^ (1 : Nat)) / (2 * ((4 : Nat) : Int) ^ (1 : Nat))) ∧ ((after (exec (.sdfOutput (6 : Fin 8) (2 :
    Fin 8) [((true, false) : SdBit)]) wit_SigmaDeltaOutputs_1)).hw.fs (pSDF (6 : Fin 8)) (2 : Fin 8) SDF_RESULT_VALUE
    = max (-(2 ^ 39)) (min (2 ^ 39 - 1) (0x40000000 : Int))) ∧ ((after (exec (.sdfOutput (6 : Fin 8) (2 : Fin 8)
    [((true, false) : SdBit)]) wit_SigmaDeltaOutputs_1)).hw.b (pSDF (6 : Fin 8)) (2 : Fin 8) SDF_FSTAT_SAT = decide
    ((0x40000000 : Int) < -(2 ^ 39) ∨ 2 ^ 39 - 1 < (0x40000000 : Int))) ∧ ((after (exec (.sdfOutput (6 : Fin 8) (2 :
    Fin 8) [((true, false) : SdBit)]) wit_SigmaDeltaOutputs_1)).hw.f (pSDF (6 : Fin 8)) (2 : Fin 8) SDF_FSTAT_SEQ =
    (wit_SigmaDeltaOutputs_1.hw.f (pSDF (6 : Fin 8)) (2 : Fin 8) SDF_FSTAT_SEQ + 1) % 256) ∧ (((after (exec
    (.sdfOutput (6 : Fin 8) (2 : Fin 8) [((true, false) : SdBit)]) wit_SigmaDeltaOutputs_1)).hw.sdfSt (6 : Fin 8) (2 :
    Fin 8)).phase = 0 ∧ ((after (exec (.sdfOutput (6 : Fin 8) (2 : Fin 8) [((true, false) : SdBit)])
    wit_SigmaDeltaOutputs_1)).hw.sdfSt (6 : Fin 8) (2 : Fin 8)).outs = [])  := by decide +kernel

def wit_SigmaDeltaOutputs_2 : State :=
    (fly [⟨⟨15, 40⟩, 0x6022, 0⟩] ((up [(pSDF 6, 2, SDF_FCFG_EN, 1), (pSDF
    6, 2, SDF_FCFG_SYNC_EN, 1)]).on (fun h => h.setSdf 6 2 { bits := [true], phase := 3, settled := 9 })) : State)

theorem test_SigmaDeltaOutputs_2 :
    (wit_SigmaDeltaOutputs_2.hw.clusterRuns (6 : Fin 8) = true) ∧ (arrives
    wit_SigmaDeltaOutputs_2.hw (⟨15, 40⟩ : Chan) (clCode (6 : Fin 8) (0x020 + (2 : Fin 8).val)) = true) ∧
    (wit_SigmaDeltaOutputs_2.hw.b (pSDF (6 : Fin 8)) (2 : Fin 8) SDF_FCFG_EN = true ∧ wit_SigmaDeltaOutputs_2.hw.b
    (pSDF (6 : Fin 8)) (2 : Fin 8) SDF_FCFG_SYNC_EN = true) ∧ (((after (exec (.sdfSync (6 : Fin 8) (2 : Fin 8) ⟨(⟨15,
    40⟩ : Chan), none⟩ []) wit_SigmaDeltaOutputs_2)).hw.sdfSt (6 : Fin 8) (2 : Fin 8)).phase = 0) ∧ (((after (exec
    (.sdfSync (6 : Fin 8) (2 : Fin 8) ⟨(⟨15, 40⟩ : Chan), none⟩ []) wit_SigmaDeltaOutputs_2)).hw.sdfSt (6 : Fin 8) (2
    : Fin 8)).bits = (wit_SigmaDeltaOutputs_2.hw.sdfSt (6 : Fin 8) (2 : Fin 8)).bits) ∧ ((after (exec (.sdfSync (6 :
    Fin 8) (2 : Fin 8) ⟨(⟨15, 40⟩ : Chan), none⟩ []) wit_SigmaDeltaOutputs_2)).hw.flights = [])  := by decide +kernel

def wit_SigmaDeltaOutputs_3 : State :=
    ((up [(pSDF 6, 2, SDF_FCFG_EN, 1), (pSDF 6, 2, SDF_FCFG_CODING, 1)]).on
    (fun h => h.setSdf 6 2 { bits := [true], phase := 3, settled := 9, mdRun := 5 }) : State)

theorem test_SigmaDeltaOutputs_3 :
    (wit_SigmaDeltaOutputs_3.hw.sdfOn (6 : Fin 8) (2 : Fin 8) = true) ∧
    (wit_SigmaDeltaOutputs_3.hw.b (pSDF (6 : Fin 8)) (2 : Fin 8) SDF_FCFG_CODING = true) ∧ ((after (exec
    (.manchesterBitError (6 : Fin 8) (2 : Fin 8) []) wit_SigmaDeltaOutputs_3)).hw.f (pSDF (6 : Fin 8)) 0 ⟨5, 8 + (2 :
    Fin 8).val, 1⟩ = 1) ∧ (wit_SigmaDeltaOutputs_3.hw.f (pSDF (6 : Fin 8)) 0 ⟨3, 16 + (2 : Fin 8).val, 1⟩ = 0 →
    ((after (exec (.manchesterBitError (6 : Fin 8) (2 : Fin 8) []) wit_SigmaDeltaOutputs_3)).hw.sdfSt (6 : Fin 8) (2 :
    Fin 8)).bits.head? = some ((wit_SigmaDeltaOutputs_3.hw.sdfSt (6 : Fin 8) (2 : Fin 8)).bits.headD false)) ∧
    (wit_SigmaDeltaOutputs_3.hw.f (pSDF (6 : Fin 8)) 0 ⟨3, 16 + (2 : Fin 8).val, 1⟩ = 1 → ((after (exec
    (.manchesterBitError (6 : Fin 8) (2 : Fin 8) []) wit_SigmaDeltaOutputs_3)).hw.sdfSt (6 : Fin 8) (2 : Fin 8)).bits
    = (wit_SigmaDeltaOutputs_3.hw.sdfSt (6 : Fin 8) (2 : Fin 8)).bits) ∧ (((after (exec (.manchesterBitError (6 : Fin
    8) (2 : Fin 8) []) wit_SigmaDeltaOutputs_3)).hw.sdfSt (6 : Fin 8) (2 : Fin 8)).mdRun =
    (wit_SigmaDeltaOutputs_3.hw.sdfSt (6 : Fin 8) (2 : Fin 8)).mdRun + 1)  := by decide +kernel

def wit_SigmaDeltaOutputs_4 : State :=
    (up [(pSDF 6, 0, SDF_SDMCLK_SRC, 2), (pSDF 7, 2, SDF_FCFG_EN, 1), (pSDF
    7, 2, SDF_FSTAT_VALID, 1)] : State)

theorem test_SigmaDeltaOutputs_4 :
    (wit_SigmaDeltaOutputs_4.hw.clusterRuns (7 : Fin 8) = true) ∧
    (wit_SigmaDeltaOutputs_4.hw.b (pSDF (7 : Fin 8)) (2 : Fin 8) SDF_FCFG_EN = true) ∧ (wit_SigmaDeltaOutputs_4.hw.b
    (pSDF (7 : Fin 8)) (2 : Fin 8) SDF_FCFG_CODING = false) ∧ (sdmSrc wit_SigmaDeltaOutputs_4.hw (7 : Fin 8) = 2) ∧
    ((after (exec (.sdfClockLoss (7 : Fin 8) (2 : Fin 8)) wit_SigmaDeltaOutputs_4)).hw.f (pSDF (7 : Fin 8)) (2 : Fin
    8) SDF_FSTAT_VALID = 0) ∧ ((after (exec (.sdfClockLoss (7 : Fin 8) (2 : Fin 8)) wit_SigmaDeltaOutputs_4)).hw.f
    (pSDF (7 : Fin 8)) 0 ⟨3, 16 + (2 : Fin 8).val, 1⟩ = 1 ∧ (after (exec (.sdfClockLoss (7 : Fin 8) (2 : Fin 8))
    wit_SigmaDeltaOutputs_4)).hw.f (pSDF (7 : Fin 8)) 0 ⟨5, 16 + (2 : Fin 8).val, 1⟩ = 1) ∧ ((after (exec
    (.sdfClockLoss (7 : Fin 8) (2 : Fin 8)) wit_SigmaDeltaOutputs_4)).hw.reg (pSDF (7 : Fin 8)) 0x12 (2 : Fin 8) =
    wit_SigmaDeltaOutputs_4.hw.reg (pSDF (7 : Fin 8)) 0x12 (2 : Fin 8))  := by decide +kernel

def wit_SigmaDeltaOutputs_5 : State :=
    ((up [(pPIN, 0, PIN_BANK_VOK 6, 1), (pPIN, 216, PIN_PFUNC_ISEL, 0x632),
    (pSDF 6, 0, SDF_SDMCLK_SRC, 1), (pSDF 6, 2, SDF_FCFG_EN, 1), (pSDF 6, 2, SDF_SC_CFG_SC_EN, 1), (pSDF 6, 2,
    SDF_SC_CFG_SC_ORD, 1), (pSDF 6, 2, SDF_SC_CFG_WIN, 4), (pSDF 6, 2, SDF_SC_HI_VALUE, 0x80000000)]).on (fun h =>
    h.setSdf 6 2 { bits := [true, true, true], phase := 3, settled := 9 }) : State)

theorem test_SigmaDeltaOutputs_5 :
    (takesNrz wit_SigmaDeltaOutputs_5.hw (6 : Fin 8) (2 : Fin 8) = true) ∧
    (wit_SigmaDeltaOutputs_5.hw.scOut (6 : Fin 8) (2 : Fin 8) = false) ∧ (wit_SigmaDeltaOutputs_5.hw.scEval (6 : Fin
    8) (2 : Fin 8) ((nrzBit wit_SigmaDeltaOutputs_5.hw (6 : Fin 8) (2 : Fin 8) ((true, false) : SdBit) ::
    (wit_SigmaDeltaOutputs_5.hw.sdfSt (6 : Fin 8) (2 : Fin 8)).bits).take 4096) = true) ∧ ((after (exec (.scDetect (6
    : Fin 8) (2 : Fin 8) [((true, false) : SdBit)]) wit_SigmaDeltaOutputs_5)).hw.scOut (6 : Fin 8) (2 : Fin 8) = true)
    ∧ ((after (exec (.scDetect (6 : Fin 8) (2 : Fin 8) [((true, false) : SdBit)]) wit_SigmaDeltaOutputs_5)).hw.f (pSDF
    (6 : Fin 8)) 0 ⟨5, (2 : Fin 8), 1⟩ = 1)  := by decide +kernel

def wit_LintFilterMajority_1 : State :=
    (up [(pCMP 5, 7, CMP_CCFG_EN, 1), (pCMP 5, 7, CMP_THRESH_DAC, 512)] :
    State)

theorem test_LintFilterMajority_1 :
    (wit_LintFilterMajority_1.hw.clusterRuns (5 : Fin 8) = true) ∧
    (wit_LintFilterMajority_1.hw.b (pCMP (5 : Fin 8)) (7 : Fin 8) CMP_CCFG_EN = true ∧ wit_LintFilterMajority_1.hw.b
    (pCMP (5 : Fin 8)) (7 : Fin 8) CMP_CCFG_SRC = false) ∧ ((wit_LintFilterMajority_1.hw.cmpSt (5 : Fin 8) (7 : Fin
    8)).raw = false) ∧ ((2 * (wit_LintFilterMajority_1.hw.f (pCMP (5 : Fin 8)) (7 : Fin 8) CMP_THRESH_DAC : Int) + 1)
    * (2500 : Int) < 2048 * ((1252 : Int) - (0 : Int))) ∧ (((after (exec (.comparatorCrossing (5 : Fin 8) (7 : Fin 8)
    ⟨(1252 : Int), (0 : Int), (2500 : Int), 0⟩) wit_LintFilterMajority_1)).hw.cmpSt (5 : Fin 8) (7 : Fin 8)).raw =
    true) ∧ ((after (exec (.comparatorCrossing (5 : Fin 8) (7 : Fin 8) ⟨(1252 : Int), (0 : Int), (2500 : Int), 0⟩)
    wit_LintFilterMajority_1)).hw.b (pCMP (5 : Fin 8)) 0 ⟨3, (7 : Fin 8), 1⟩ = !(wit_LintFilterMajority_1.hw.b (pCMP
    (5 : Fin 8)) (7 : Fin 8) CMP_CCFG_POL))  := by decide +kernel

def wit_LintFilterMajority_2 : State :=
    ((up [(pCMP 5, 7, CMP_CCFG_EN, 1), (pCMP 5, 7, CMP_LINT_M, 4), (pCMP
    5, 7, CMP_LINT_N, 2)]).on (fun h => h.setCmp 5 7 ⟨true, [false, true, true, false]⟩) : State)

theorem test_LintFilterMajority_2 :
    (wit_LintFilterMajority_2.hw.clusterRuns (5 : Fin 8) = true) ∧
    (wit_LintFilterMajority_2.hw.b (pCMP (5 : Fin 8)) (7 : Fin 8) CMP_CCFG_EN = true) ∧ ((5 : Nat) =
    wit_LintFilterMajority_2.hw.f (pCMP (5 : Fin 8)) (7 : Fin 8) CMP_LINT_M + 1) ∧ ((3 : Nat) = min
    (wit_LintFilterMajority_2.hw.f (pCMP (5 : Fin 8)) (7 : Fin 8) CMP_LINT_N + 1) (5 : Nat)) ∧ ((3 : Nat) =
    ((wit_LintFilterMajority_2.hw.cmpRaw (5 : Fin 8) (7 : Fin 8) :: (wit_LintFilterMajority_2.hw.cmpSt (5 : Fin 8) (7
    : Fin 8)).hist).take (5 : Nat)).countP id) ∧ ((after (exec (.lintSample (5 : Fin 8) (7 : Fin 8))
    wit_LintFilterMajority_2)).hw.lintOut (5 : Fin 8) (7 : Fin 8) = if wit_LintFilterMajority_2.hw.lintOut (5 : Fin 8)
    (7 : Fin 8) then !(decide ((3 : Nat) ≤ (5 : Nat) - (3 : Nat))) else decide ((3 : Nat) ≤ (3 : Nat)))
     := by decide +kernel

def wit_LintFilterMajority_3 : State :=
    (up [(pCMP 5, 0x30, ⟨8, 0, 12⟩, 7), (pCMP 5, 0, ⟨3, 15, 1⟩, 1)] :
    State)

theorem test_LintFilterMajority_3 :
    (accepts wit_LintFilterMajority_3.hw (.host : Requester) (pCMP (5 : Fin
    8)) = true) ∧ (wit_LintFilterMajority_3.hw.chsel (pCMP (5 : Fin 8)) (.host : Requester) = (7 : Fin 8).val) ∧
    (wit_LintFilterMajority_3.hw.lintOut (5 : Fin 8) (7 : Fin 8) = true) ∧ ((after (exec (.lintWrite (.host :
    Requester) (5 : Fin 8) (0x42 : Word)) wit_LintFilterMajority_3)).hw.lintOut (5 : Fin 8) (7 : Fin 8) = false) ∧
    ((after (exec (.lintWrite (.host : Requester) (5 : Fin 8) (0x42 : Word)) wit_LintFilterMajority_3)).hw.f (pCMP (5
    : Fin 8)) 0 ⟨5, 8 + (7 : Fin 8).val, 1⟩ = 1) ∧ (((after (exec (.lintWrite (.host : Requester) (5 : Fin 8) (0x42 :
    Word)) wit_LintFilterMajority_3)).hw.cmpSt (5 : Fin 8) (7 : Fin 8)).hist = [])  := by decide +kernel

def wit_LintFilterMajority_4 : State :=
    (up [(pCMP 5, 0x30, ⟨8, 0, 12⟩, 7), (pCMP 5, 0, ⟨3, 15, 1⟩, 1), (pCMP
    5, 7, CMP_CCFG_EN, 1)] : State)

theorem test_LintFilterMajority_4 :
    (accepts wit_LintFilterMajority_4.hw (.host : Requester) (pCMP (5 : Fin
    8)) = true) ∧ (wit_LintFilterMajority_4.hw.chsel (pCMP (5 : Fin 8)) (.host : Requester) = (7 : Fin 8).val) ∧
    (wit_LintFilterMajority_4.hw.b (pCMP (5 : Fin 8)) 0 LOCK_BIT = false) ∧ (bitOf (0x40 : Word).toNat 0 = false) ∧
    ((after (exec (.comparatorDisable (.host : Requester) (5 : Fin 8) (0x40 : Word)) wit_LintFilterMajority_4)).hw.f
    (pCMP (5 : Fin 8)) (7 : Fin 8) CMP_CCFG_EN = 0) ∧ ((after (exec (.comparatorDisable (.host : Requester) (5 : Fin
    8) (0x40 : Word)) wit_LintFilterMajority_4)).hw.lintOut (5 : Fin 8) (7 : Fin 8) = false) ∧ ((after (exec
    (.comparatorDisable (.host : Requester) (5 : Fin 8) (0x40 : Word)) wit_LintFilterMajority_4)).hw.reg (pCMP (5 :
    Fin 8)) 5 0 = wit_LintFilterMajority_4.hw.reg (pCMP (5 : Fin 8)) 5 0)  := by decide +kernel

def wit_TrackerCountsEncoderSteps_1 : State :=
    ((up [(pTRK 1, 2, TRK_TCFG_EN, 1), (pTRK 1, 2, TRK_TCFG_MODE,
    5)]).on (fun h => h.setTrk 1 2 { h.trkSt 1 2 with lines := ⟨false, true, false⟩ }) : State)

theorem test_TrackerCountsEncoderSteps_1 :
    (wit_TrackerCountsEncoderSteps_1.hw.trkMode (1 : Fin 8) (2 : Fin 4)
    = 5) ∧ (wit_TrackerCountsEncoderSteps_1.hw.b (pTRK (1 : Fin 8)) (2 : Fin 4) TRK_TCFG_DIRINV = false) ∧
    (wit_TrackerCountsEncoderSteps_1.hw.modulus (1 : Fin 8) (2 : Fin 4) = 0) ∧ (wit_TrackerCountsEncoderSteps_1.hw.f
    (pTRK (1 : Fin 8)) (2 : Fin 4) TRK_TCFG_ZMODE = 0) ∧ ((wit_TrackerCountsEncoderSteps_1.hw.trkSt (1 : Fin 8) (2 :
    Fin 4)).lines = linesAt (3 : Fin 4) false) ∧ ((⟨false, false, false⟩ : Lines) = linesAt ((3 : Fin 4) + 1) false) ∧
    (linesGiven wit_TrackerCountsEncoderSteps_1.hw (1 : Fin 8) (2 : Fin 4) (⟨false, false, false⟩ : Lines) (1 : Nat) =
    true) ∧ ((after (exec (.encoderInputChange (1 : Fin 8) (2 : Fin 4) ((⟨false, false, false⟩ : Lines), (1 : Nat)))
    wit_TrackerCountsEncoderSteps_1)).hw.reg (pTRK (1 : Fin 8)) 0x12 (2 : Fin 4) =
    wit_TrackerCountsEncoderSteps_1.hw.reg (pTRK (1 : Fin 8)) 0x12 (2 : Fin 4) + 1) ∧ ((after (exec
    (.encoderInputChange (1 : Fin 8) (2 : Fin 4) ((⟨false, false, false⟩ : Lines), (1 : Nat)))
    wit_TrackerCountsEncoderSteps_1)).hw.f (pTRK (1 : Fin 8)) (2 : Fin 4) TRK_PSTAT_DIR = 0) ∧ (((after (exec
    (.encoderInputChange (1 : Fin 8) (2 : Fin 4) ((⟨false, false, false⟩ : Lines), (1 : Nat)))
    wit_TrackerCountsEncoderSteps_1)).hw.trkSt (1 : Fin 8) (2 : Fin 4)).lines = (⟨false, false, false⟩ : Lines))
     := by decide +kernel

def wit_TrackerCountsEncoderSteps_2 : State :=
    ((up [(pTRK 1, 0, TRK_TCFG_EN, 1), (pTRK 1, 0, TRK_TCFG_MODE,
    5)]).on (fun h => h.setTrk 1 0 { h.trkSt 1 0 with lines := ⟨true, false, false⟩ }) : State)

theorem test_TrackerCountsEncoderSteps_2 :
    (wit_TrackerCountsEncoderSteps_2.hw.trkMode (1 : Fin 8) (0 : Fin 4)
    = 5) ∧ (wit_TrackerCountsEncoderSteps_2.hw.b (pTRK (1 : Fin 8)) (0 : Fin 4) TRK_TCFG_DIRINV = false) ∧
    (wit_TrackerCountsEncoderSteps_2.hw.modulus (1 : Fin 8) (0 : Fin 4) = 0) ∧ (wit_TrackerCountsEncoderSteps_2.hw.f
    (pTRK (1 : Fin 8)) (0 : Fin 4) TRK_TCFG_ZMODE = 0) ∧ ((wit_TrackerCountsEncoderSteps_2.hw.trkSt (1 : Fin 8) (0 :
    Fin 4)).lines = linesAt ((0 : Fin 4) + 1) false) ∧ ((⟨false, false, false⟩ : Lines) = linesAt (0 : Fin 4) false) ∧
    (linesGiven wit_TrackerCountsEncoderSteps_2.hw (1 : Fin 8) (0 : Fin 4) (⟨false, false, false⟩ : Lines) (1 : Nat) =
    true) ∧ ((after (exec (.encoderInputChange (1 : Fin 8) (0 : Fin 4) ((⟨false, false, false⟩ : Lines), (1 : Nat)))
    wit_TrackerCountsEncoderSteps_2)).hw.reg (pTRK (1 : Fin 8)) 0x12 (0 : Fin 4) =
    wit_TrackerCountsEncoderSteps_2.hw.reg (pTRK (1 : Fin 8)) 0x12 (0 : Fin 4) - 1) ∧ ((after (exec
    (.encoderInputChange (1 : Fin 8) (0 : Fin 4) ((⟨false, false, false⟩ : Lines), (1 : Nat)))
    wit_TrackerCountsEncoderSteps_2)).hw.f (pTRK (1 : Fin 8)) (0 : Fin 4) TRK_PSTAT_DIR = 1)  := by decide +kernel

def wit_TrackerCountsEncoderSteps_3 : State :=
    ((up [(pPIN, 0, PIN_BANK_VOK 1, 1), (pPIN, 46, PIN_PFUNC_ISEL,
    0x128), (pPIN, 47, PIN_PFUNC_ISEL, 0x129), (pPIN, 48, PIN_PFUNC_ISEL, 0x12a), (pTRK 1, 3, TRK_TCFG_FILT, 2), (pTRK
    1, 3, TRK_TCFG_EN, 1), (pTRK 1, 3, TRK_TCFG_MODE, 5)]).on (fun h => h.setTrk 1 3
    { h.trkSt 1 3 with lines := ⟨true, false, false⟩ }) : State)

theorem test_TrackerCountsEncoderSteps_3 :
    (wit_TrackerCountsEncoderSteps_3.hw.trkMode (1 : Fin 8) (3 : Fin 4)
    = 5) ∧ (wit_TrackerCountsEncoderSteps_3.hw.f (pTRK (1 : Fin 8)) (3 : Fin 4) TRK_TCFG_ZMODE = 0) ∧
    ((wit_TrackerCountsEncoderSteps_3.hw.trkSt (1 : Fin 8) (3 : Fin 4)).lines = linesAt (1 : Fin 4) false) ∧ ((⟨false,
    true, false⟩ : Lines) = linesAt ((1 : Fin 4) + 2) false) ∧ ((wit_TrackerCountsEncoderSteps_3.hw.trkSt (1 : Fin 8)
    (3 : Fin 4)).errAt ≠ some wit_TrackerCountsEncoderSteps_3.hw.now) ∧ (linesGiven wit_TrackerCountsEncoderSteps_3.hw
    (1 : Fin 8) (3 : Fin 4) (⟨false, true, false⟩ : Lines) (3 : Nat) = true) ∧ ((after (exec (.encoderInputChange (1 :
    Fin 8) (3 : Fin 4) ((⟨false, true, false⟩ : Lines), (3 : Nat))) wit_TrackerCountsEncoderSteps_3)).hw.reg (pTRK (1
    : Fin 8)) 0x12 (3 : Fin 4) = wit_TrackerCountsEncoderSteps_3.hw.reg (pTRK (1 : Fin 8)) 0x12 (3 : Fin 4)) ∧ ((after
    (exec (.encoderInputChange (1 : Fin 8) (3 : Fin 4) ((⟨false, true, false⟩ : Lines), (3 : Nat)))
    wit_TrackerCountsEncoderSteps_3)).hw.f (pTRK (1 : Fin 8)) (3 : Fin 4) TRK_PSTAT_ERR_CODE = 1) ∧ ((after (exec
    (.encoderInputChange (1 : Fin 8) (3 : Fin 4) ((⟨false, true, false⟩ : Lines), (3 : Nat)))
    wit_TrackerCountsEncoderSteps_3)).hw.f (pTRK (1 : Fin 8)) (3 : Fin 4) TRK_PSTAT_ERR_CNT = min 255
    (wit_TrackerCountsEncoderSteps_3.hw.f (pTRK (1 : Fin 8)) (3 : Fin 4) TRK_PSTAT_ERR_CNT + 1)) ∧ ((after (exec
    (.encoderInputChange (1 : Fin 8) (3 : Fin 4) ((⟨false, true, false⟩ : Lines), (3 : Nat)))
    wit_TrackerCountsEncoderSteps_3)).hw.f (pTRK (1 : Fin 8)) 0 ⟨5, 8 * (3 : Fin 4).val, 1⟩ = 1)  := by decide +kernel

def wit_TrackerCountsEncoderSteps_4 : State :=
    (up [(pPIN, 0, PIN_BANK_VOK 1, 1), (pPIN, 46, PIN_PFUNC_ISEL,
    0x118), (pTRK 1, 1, TRK_TCFG_EN, 1), (pTRK 1, 1, TRK_TCFG_MODE, 5), (pTRK 1, 1, TRK_MODULUS_M, 8192), (pTRK 1, 1,
    TRK_POS_VALUE, 8191)] : State)

theorem test_TrackerCountsEncoderSteps_4 :
    (wit_TrackerCountsEncoderSteps_4.hw.trkMode (1 : Fin 8) (1 : Fin 4)
    = 5) ∧ (wit_TrackerCountsEncoderSteps_4.hw.b (pTRK (1 : Fin 8)) (1 : Fin 4) TRK_TCFG_DIRINV = false) ∧
    (wit_TrackerCountsEncoderSteps_4.hw.modulus (1 : Fin 8) (1 : Fin 4) = (8192 : Nat) ∧ 0 < (8192 : Nat)) ∧
    (wit_TrackerCountsEncoderSteps_4.hw.f (pTRK (1 : Fin 8)) (1 : Fin 4) TRK_POS_VALUE + 1 = (8192 : Nat)) ∧
    (wit_TrackerCountsEncoderSteps_4.hw.f (pTRK (1 : Fin 8)) (1 : Fin 4) TRK_TCFG_ZMODE = 0) ∧
    ((wit_TrackerCountsEncoderSteps_4.hw.trkSt (1 : Fin 8) (1 : Fin 4)).lines = linesAt (0 : Fin 4) false) ∧ ((⟨true,
    false, false⟩ : Lines) = linesAt ((0 : Fin 4) + 1) false) ∧ (linesGiven wit_TrackerCountsEncoderSteps_4.hw (1 :
    Fin 8) (1 : Fin 4) (⟨true, false, false⟩ : Lines) (1 : Nat) = true) ∧ ((after (exec (.encoderInputChange (1 : Fin
    8) (1 : Fin 4) ((⟨true, false, false⟩ : Lines), (1 : Nat))) wit_TrackerCountsEncoderSteps_4)).hw.f (pTRK (1 : Fin
    8)) (1 : Fin 4) TRK_POS_VALUE = 0) ∧ ((after (exec (.encoderInputChange (1 : Fin 8) (1 : Fin 4) ((⟨true, false,
    false⟩ : Lines), (1 : Nat))) wit_TrackerCountsEncoderSteps_4)).hw.f (pTRK (1 : Fin 8)) (1 : Fin 4) TRK_TURNS_COUNT
    = (wit_TrackerCountsEncoderSteps_4.hw.f (pTRK (1 : Fin 8)) (1 : Fin 4) TRK_TURNS_COUNT + 1) % 2 ^ 24) ∧ ((after
    (exec (.encoderInputChange (1 : Fin 8) (1 : Fin 4) ((⟨true, false, false⟩ : Lines), (1 : Nat)))
    wit_TrackerCountsEncoderSteps_4)).hw.f (pTRK (1 : Fin 8)) 0 ⟨5, 8 * (1 : Fin 4).val + 7, 1⟩ = 1)
     := by decide +kernel

def wit_TrackerCountsEncoderSteps_5 : State :=
    (up [(pPIN, 0, PIN_BANK_VOK 1, 1), (pPIN, 40, PIN_PFUNC_ISEL,
    0x11B), (pTRK 1, 1, TRK_TCFG_EN, 1), (pTRK 1, 1, TRK_TCFG_MODE, 5), (pTRK 1, 1, TRK_TCFG_PRB0_EDGE, 3), (pTRK 1,
    1, TRK_POS_VALUE, 77)] : State)

theorem test_TrackerCountsEncoderSteps_5 :
    (wit_TrackerCountsEncoderSteps_5.hw.trkMode (1 : Fin 8) (1 : Fin 4)
    ≠ 0) ∧ (bitOf (wit_TrackerCountsEncoderSteps_5.hw.f (pTRK (1 : Fin 8)) (1 : Fin 4) TRK_TCFG_PRB0_EDGE) 0 = true) ∧
    (wit_TrackerCountsEncoderSteps_5.hw.funcFed (trkLine (1 : Fin 8) (1 : Fin 4) 3) = true ∧
    wit_TrackerCountsEncoderSteps_5.hw.funcUnarmed (trkLine (1 : Fin 8) (1 : Fin 4) 3) = false) ∧ ((after (exec
    (.probeLatch (1 : Fin 8) (1 : Fin 4) 0 true) wit_TrackerCountsEncoderSteps_5)).hw.f (pTRK (1 : Fin 8)) (1 : Fin 4)
    TRK_PRB0_VALUE = wit_TrackerCountsEncoderSteps_5.hw.posItem1 (1 : Fin 8) (1 : Fin 4)) ∧ ((after (exec (.probeLatch
    (1 : Fin 8) (1 : Fin 4) 0 true) wit_TrackerCountsEncoderSteps_5)).hw.f (pTRK (1 : Fin 8)) (1 : Fin 4)
    TRK_PSTAT_PRB0_VALID = 1) ∧ ((after (exec (.probeLatch (1 : Fin 8) (1 : Fin 4) 0 true)
    wit_TrackerCountsEncoderSteps_5)).hw.f (pTRK (1 : Fin 8)) 0 ⟨5, 8 * (1 : Fin 4).val + 2, 1⟩ = 1)
     := by decide +kernel

def wit_TrackerCountsEncoderSteps_6 : State :=
    (up [(pTRK 1, 0x30, ⟨8, 0, 12⟩, 1), (pTRK 1, 1, TRK_POS_VALUE,
    77123)] : State)

theorem test_TrackerCountsEncoderSteps_6 :
    (accepts wit_TrackerCountsEncoderSteps_6.hw (.host : Requester)
    (pTRK (1 : Fin 8)) = true) ∧ (wit_TrackerCountsEncoderSteps_6.hw.chsel (pTRK (1 : Fin 8)) (.host : Requester) = (1
    : Fin 4).val) ∧ (0 < (1000 : Word).toNat ∧ (1000 : Word).toNat < 2 ^ 39) ∧ (wit_TrackerCountsEncoderSteps_6.hw.f
    (pTRK (1 : Fin 8)) (1 : Fin 4) TRK_TCFG_MODE ≠ 6) ∧ ((after (exec (.modulusWrite (.host : Requester) (1 : Fin 8)
    (1000 : Word)) wit_TrackerCountsEncoderSteps_6)).hw.reg (pTRK (1 : Fin 8)) 0x14 (1 : Fin 4) = (1000 : Word)) ∧
    (((after (exec (.modulusWrite (.host : Requester) (1 : Fin 8) (1000 : Word))
    wit_TrackerCountsEncoderSteps_6)).hw.f (pTRK (1 : Fin 8)) (1 : Fin 4) TRK_POS_VALUE : Int) =
    wit_TrackerCountsEncoderSteps_6.hw.fs (pTRK (1 : Fin 8)) (1 : Fin 4) TRK_POS_VALUE % (1000 : Word).toNat) ∧
    ((after (exec (.modulusWrite (.host : Requester) (1 : Fin 8) (1000 : Word))
    wit_TrackerCountsEncoderSteps_6)).hw.reg (pTRK (1 : Fin 8)) 0x13 (1 : Fin 4) =
    wit_TrackerCountsEncoderSteps_6.hw.reg (pTRK (1 : Fin 8)) 0x13 (1 : Fin 4))  := by decide +kernel

def wit_TrackerCountsEncoderSteps_7 : State :=
    ((up [(pTRK 1, 0x30, ⟨8, 0, 12⟩, 1), (pTRK 1, 1, TRK_MODULUS_M,
    1000)]).on (fun h => h.pairHold (pTRK 1) 0x12 1 .host (-1)) : State)

theorem test_TrackerCountsEncoderSteps_7 :
    (accepts wit_TrackerCountsEncoderSteps_7.hw (.host : Requester)
    (pTRK (1 : Fin 8)) = true) ∧ (wit_TrackerCountsEncoderSteps_7.hw.chsel (pTRK (1 : Fin 8)) (.host : Requester) = (1
    : Fin 4).val) ∧ (wit_TrackerCountsEncoderSteps_7.hw.modulus (1 : Fin 8) (1 : Fin 4) = (1000 : Nat) ∧ 0 < (1000 :
    Nat)) ∧ (wit_TrackerCountsEncoderSteps_7.hw.pairLowWord (pTRK (1 : Fin 8)) 0x12 (1 : Fin 4) (.host : Requester) =
    (-1 : Word)) ∧ (((after (exec (.trackerPosWrite (.host : Requester) (1 : Fin 8) (5 : Word) none)
    wit_TrackerCountsEncoderSteps_7)).hw.f (pTRK (1 : Fin 8)) (1 : Fin 4) TRK_POS_VALUE : Int) = (-1 : Word).toInt %
    (1000 : Nat)) ∧ ((after (exec (.trackerPosWrite (.host : Requester) (1 : Fin 8) (5 : Word) none)
    wit_TrackerCountsEncoderSteps_7)).hw.f (pTRK (1 : Fin 8)) (1 : Fin 4) TRK_TURNS_COUNT = (5 : Word).toNat % 2 ^ 24)
     := by decide +kernel

def wit_AbsoluteEncoderFrames_1 : State :=
    (fly [⟨⟨1, 31⟩, 0x102B, 0⟩] ((up [(pTRK 1, 3, TRK_TCFG_EN, 1),
    (pTRK 1, 3, TRK_TCFG_MODE, 6)]).on (fun h => h.setTrk 1 3 { h.trkSt 1 3 with lines := ⟨false, true, false⟩ })) :
    State)

theorem test_AbsoluteEncoderFrames_1 :
    (wit_AbsoluteEncoderFrames_1.hw.trkMode (1 : Fin 8) (3 : Fin 4) = 6) ∧
    (arrives wit_AbsoluteEncoderFrames_1.hw (⟨1, 31⟩ : Chan) (clCode (1 : Fin 8) (0x028 + (3 : Fin 4).val)) = true) ∧
    ((wit_AbsoluteEncoderFrames_1.hw.trkSt (1 : Fin 8) (3 : Fin 4)).ssi = 0 ∧ (wit_AbsoluteEncoderFrames_1.hw.trkSt (1
    : Fin 8) (3 : Fin 4)).lines.b = true) ∧ (((after (exec (.ssiTrigger (1 : Fin 8) (3 : Fin 4) ⟨(⟨1, 31⟩ : Chan),
    none⟩) wit_AbsoluteEncoderFrames_1)).hw.trkSt (1 : Fin 8) (3 : Fin 4)).ssi = 1) ∧ ((after (exec (.ssiTrigger (1 :
    Fin 8) (3 : Fin 4) ⟨(⟨1, 31⟩ : Chan), none⟩) wit_AbsoluteEncoderFrames_1)).hw.f (pTRK (1 : Fin 8)) (3 : Fin 4)
    TRK_PSTAT_SSI_BUSY = 1)  := by decide +kernel

def wit_AbsoluteEncoderFrames_2 : State :=
    ((up [(pTRK 1, 0, TRK_TCFG_EN, 1), (pTRK 1, 0, TRK_TCFG_MODE,
    6)]).on (fun h => h.setTrk 1 0 { h.trkSt 1 0 with lines := ⟨false, true, false⟩ }) : State)

theorem test_AbsoluteEncoderFrames_2 :
    (accepts wit_AbsoluteEncoderFrames_2.hw (.core 6 : Requester) (pTRK (1
    : Fin 8)) = true) ∧ (wit_AbsoluteEncoderFrames_2.hw.chsel (pTRK (1 : Fin 8)) (.core 6 : Requester) = (0 : Fin
    4).val) ∧ (bitOf (1 : Word).toNat 0 = true) ∧ (wit_AbsoluteEncoderFrames_2.hw.trkMode (1 : Fin 8) (0 : Fin 4) = 6)
    ∧ ((wit_AbsoluteEncoderFrames_2.hw.trkSt (1 : Fin 8) (0 : Fin 4)).ssi = 0 ∧ (wit_AbsoluteEncoderFrames_2.hw.trkSt
    (1 : Fin 8) (0 : Fin 4)).lines.b = true) ∧ (((after (exec (.ssiGo (.core 6 : Requester) (1 : Fin 8) (1 : Word))
    wit_AbsoluteEncoderFrames_2)).hw.trkSt (1 : Fin 8) (0 : Fin 4)).ssi = 1) ∧ ((after (exec (.ssiGo (.core 6 :
    Requester) (1 : Fin 8) (1 : Word)) wit_AbsoluteEncoderFrames_2)).hw.f (pTRK (1 : Fin 8)) (0 : Fin 4)
    TRK_PSTAT_SSI_BUSY = 1)  := by decide +kernel

def wit_AbsoluteEncoderFrames_3 : State :=
    (fly [⟨⟨1, 31⟩, 0x102B, 0⟩] ((up [(pTRK 1, 3, TRK_TCFG_EN, 1),
    (pTRK 1, 3, TRK_TCFG_MODE, 6)]).on (fun h => h.setTrk 1 3 { h.trkSt 1 3 with ssi := 2 })) : State)

theorem test_AbsoluteEncoderFrames_3 :
    (wit_AbsoluteEncoderFrames_3.hw.trkMode (1 : Fin 8) (3 : Fin 4) = 6) ∧
    (arrives wit_AbsoluteEncoderFrames_3.hw (⟨1, 31⟩ : Chan) (clCode (1 : Fin 8) (0x028 + (3 : Fin 4).val)) = true) ∧
    ((wit_AbsoluteEncoderFrames_3.hw.trkSt (1 : Fin 8) (3 : Fin 4)).ssi ≠ 0) ∧ ((wit_AbsoluteEncoderFrames_3.hw.trkSt
    (1 : Fin 8) (3 : Fin 4)).errAt ≠ some wit_AbsoluteEncoderFrames_3.hw.now) ∧ (((after (exec (.ssiTrigger (1 : Fin
    8) (3 : Fin 4) ⟨(⟨1, 31⟩ : Chan), none⟩) wit_AbsoluteEncoderFrames_3)).hw.trkSt (1 : Fin 8) (3 : Fin 4)).ssi =
    (wit_AbsoluteEncoderFrames_3.hw.trkSt (1 : Fin 8) (3 : Fin 4)).ssi) ∧ ((after (exec (.ssiTrigger (1 : Fin 8) (3 :
    Fin 4) ⟨(⟨1, 31⟩ : Chan), none⟩) wit_AbsoluteEncoderFrames_3)).hw.f (pTRK (1 : Fin 8)) (3 : Fin 4)
    TRK_PSTAT_ERR_CODE = 5)  := by decide +kernel

def wit_AbsoluteEncoderFrames_4 : State :=
    ((up [(pPIN, 0, PIN_BANK_VOK 1, 1), (pPIN, 47, PIN_PFUNC_ISEL,
    0x129), (pTRK 1, 3, TRK_TCFG_EN, 1), (pTRK 1, 3, TRK_TCFG_MODE, 6), (pTRK 1, 3, TRK_SCFG_NBITS, 17)]).on (fun h =>
    h.setTrk 1 3 { h.trkSt 1 3 with ssi := 1 }) : State)

theorem test_AbsoluteEncoderFrames_4 :
    (wit_AbsoluteEncoderFrames_4.hw.trkMode (1 : Fin 8) (3 : Fin 4) = 6) ∧
    ((wit_AbsoluteEncoderFrames_4.hw.trkSt (1 : Fin 8) (3 : Fin 4)).ssi = 1) ∧ (wit_AbsoluteEncoderFrames_4.hw.b (pTRK
    (1 : Fin 8)) (3 : Fin 4) TRK_SCFG_START = false ∧ wit_AbsoluteEncoderFrames_4.hw.b (pTRK (1 : Fin 8)) (3 : Fin 4)
    TRK_SCFG_GRAY = false) ∧ (wit_AbsoluteEncoderFrames_4.hw.f (pTRK (1 : Fin 8)) (3 : Fin 4) TRK_SCFG_NBITS = (17 :
    Nat) ∧ 0 < (17 : Nat) ∧ (17 : Nat) ≤ 40) ∧ (wit_AbsoluteEncoderFrames_4.hw.f (pTRK (1 : Fin 8)) (3 : Fin 4)
    TRK_JUMP_LIM = 0) ∧ (wit_AbsoluteEncoderFrames_4.hw.funcFed (trkLine (1 : Fin 8) (3 : Fin 4) 1) = true) ∧ ((after
    (exec (.ssiFrameDone (1 : Fin 8) (3 : Fin 4) (0x12345 : Nat) ()) wit_AbsoluteEncoderFrames_4)).hw.f (pTRK (1 : Fin
    8)) (3 : Fin 4) TRK_POS_VALUE = (0x12345 : Nat) % 2 ^ (17 : Nat)) ∧ (((after (exec (.ssiFrameDone (1 : Fin 8) (3 :
    Fin 4) (0x12345 : Nat) ()) wit_AbsoluteEncoderFrames_4)).hw.trkSt (1 : Fin 8) (3 : Fin 4)).ssi = 2)
     := by decide +kernel

def wit_AbsoluteEncoderFrames_5 : State :=
    ((up [(pTRK 1, 3, TRK_TCFG_EN, 1), (pTRK 1, 3, TRK_TCFG_MODE, 6),
    (pTRK 1, 3, TRK_SCFG_START, 1)]).on (fun h => h.setTrk 1 3 { h.trkSt 1 3 with ssi := 1 }) : State)

theorem test_AbsoluteEncoderFrames_5 :
    (wit_AbsoluteEncoderFrames_5.hw.trkMode (1 : Fin 8) (3 : Fin 4) = 6) ∧
    ((wit_AbsoluteEncoderFrames_5.hw.trkSt (1 : Fin 8) (3 : Fin 4)).ssi = 1) ∧ (wit_AbsoluteEncoderFrames_5.hw.b (pTRK
    (1 : Fin 8)) (3 : Fin 4) TRK_SCFG_START = true) ∧ ((wit_AbsoluteEncoderFrames_5.hw.trkSt (1 : Fin 8) (3 : Fin
    4)).startSeen = false ∧ (wit_AbsoluteEncoderFrames_5.hw.trkSt (1 : Fin 8) (3 : Fin 4)).errAt ≠ some
    wit_AbsoluteEncoderFrames_5.hw.now) ∧ (((after (exec (.ssiTimeout (1 : Fin 8) (3 : Fin 4))
    wit_AbsoluteEncoderFrames_5)).hw.trkSt (1 : Fin 8) (3 : Fin 4)).ssi = 0) ∧ ((after (exec (.ssiTimeout (1 : Fin 8)
    (3 : Fin 4)) wit_AbsoluteEncoderFrames_5)).hw.f (pTRK (1 : Fin 8)) (3 : Fin 4) TRK_PSTAT_ERR_CODE = 3) ∧ ((after
    (exec (.ssiTimeout (1 : Fin 8) (3 : Fin 4)) wit_AbsoluteEncoderFrames_5)).hw.reg (pTRK (1 : Fin 8)) 0x12 (3 : Fin
    4) = wit_AbsoluteEncoderFrames_5.hw.reg (pTRK (1 : Fin 8)) 0x12 (3 : Fin 4))  := by decide +kernel

def wit_AbsoluteEncoderFrames_6 : State :=
    ((up [(pTRK 1, 3, TRK_TCFG_EN, 1), (pTRK 1, 3, TRK_TCFG_MODE, 6),
    (pTRK 1, 3, TRK_PSTAT_SSI_BUSY, 1)]).on (fun h => h.setTrk 1 3
    { h.trkSt 1 3 with ssi := 2, lines := ⟨false, true, false⟩ }) : State)

theorem test_AbsoluteEncoderFrames_6 :
    (wit_AbsoluteEncoderFrames_6.hw.trkMode (1 : Fin 8) (3 : Fin 4) = 6) ∧
    ((wit_AbsoluteEncoderFrames_6.hw.trkSt (1 : Fin 8) (3 : Fin 4)).ssi = 2 ∧ (wit_AbsoluteEncoderFrames_6.hw.trkSt (1
    : Fin 8) (3 : Fin 4)).lines.b = true) ∧ (((after (exec (.ssiMonoflopEnd (1 : Fin 8) (3 : Fin 4))
    wit_AbsoluteEncoderFrames_6)).hw.trkSt (1 : Fin 8) (3 : Fin 4)).ssi = 0) ∧ ((after (exec (.ssiMonoflopEnd (1 : Fin
    8) (3 : Fin 4)) wit_AbsoluteEncoderFrames_6)).hw.f (pTRK (1 : Fin 8)) (3 : Fin 4) TRK_PSTAT_SSI_BUSY = 0) ∧
    ((after (exec (.ssiMonoflopEnd (1 : Fin 8) (3 : Fin 4)) wit_AbsoluteEncoderFrames_6)).hw.f (pTRK (1 : Fin 8)) (3 :
    Fin 4) TRK_PSTAT_ERR_CODE = wit_AbsoluteEncoderFrames_6.hw.f (pTRK (1 : Fin 8)) (3 : Fin 4) TRK_PSTAT_ERR_CODE)
     := by decide +kernel

def wit_AbsoluteEncoderFrames_7 : State :=
    (up [(pTRK 1, 0x30, ⟨8, 0, 12⟩, 3), (pTRK 1, 3, TRK_PSTAT_ERR_CODE,
    4), (pTRK 1, 3, TRK_PSTAT_ERR_CNT, 9)] : State)

theorem test_AbsoluteEncoderFrames_7 :
    (accepts wit_AbsoluteEncoderFrames_7.hw (.host : Requester) (pTRK (1 :
    Fin 8)) = true) ∧ (wit_AbsoluteEncoderFrames_7.hw.chsel (pTRK (1 : Fin 8)) (.host : Requester) = (3 : Fin 4).val)
    ∧ (bitOf (2 : Word).toNat 0 = false ∧ bitOf (2 : Word).toNat 1 = true) ∧ ((after (exec (.trackerErrClr (.host :
    Requester) (1 : Fin 8) (2 : Word)) wit_AbsoluteEncoderFrames_7)).hw.f (pTRK (1 : Fin 8)) (3 : Fin 4)
    TRK_PSTAT_ERR_CODE = 0) ∧ ((after (exec (.trackerErrClr (.host : Requester) (1 : Fin 8) (2 : Word))
    wit_AbsoluteEncoderFrames_7)).hw.f (pTRK (1 : Fin 8)) (3 : Fin 4) TRK_PSTAT_ERR_CNT = 0)  := by decide +kernel

def wit_AbsoluteEncoderFrames_8 : State :=
    ((up [(pTRK 1, 0x30, ⟨8, 0, 12⟩, 3)]).on (fun h => h.setTrk 1 3
    { h.trkSt 1 3 with ssi := 1 }) : State)

theorem test_AbsoluteEncoderFrames_8 :
    (accepts wit_AbsoluteEncoderFrames_8.hw (.host : Requester) (pTRK (1 :
    Fin 8)) = true) ∧ (wit_AbsoluteEncoderFrames_8.hw.chsel (pTRK (1 : Fin 8)) (.host : Requester) = (3 : Fin 4).val)
    ∧ ((wit_AbsoluteEncoderFrames_8.hw.trkSt (1 : Fin 8) (3 : Fin 4)).ssi = 1) ∧ ((after (exec (.trackerCfgWrite
    (.host : Requester) (1 : Fin 8) true (0x1400324013 : Word)) wit_AbsoluteEncoderFrames_8)).hw.f (pTRK (1 : Fin 8))
    (3 : Fin 4) TRK_SCFG_NBITS = bitsOf (0x1400324013 : Word).toNat 13 6 ∧ (after (exec (.trackerCfgWrite (.host :
    Requester) (1 : Fin 8) true (0x1400324013 : Word)) wit_AbsoluteEncoderFrames_8)).hw.f (pTRK (1 : Fin 8)) (3 : Fin
    4) TRK_SCFG_SDIV = bitsOf (0x1400324013 : Word).toNat 0 13) ∧ (((after (exec (.trackerCfgWrite (.host : Requester)
    (1 : Fin 8) true (0x1400324013 : Word)) wit_AbsoluteEncoderFrames_8)).hw.trkSt (1 : Fin 8) (3 : Fin 4)).ssi = 0) ∧
    ((after (exec (.trackerCfgWrite (.host : Requester) (1 : Fin 8) true (0x1400324013 : Word))
    wit_AbsoluteEncoderFrames_8)).hw.reg (pTRK (1 : Fin 8)) 0x12 (3 : Fin 4) = wit_AbsoluteEncoderFrames_8.hw.reg
    (pTRK (1 : Fin 8)) 0x12 (3 : Fin 4))  := by decide +kernel

def wit_AbsoluteEncoderFrames_9 : State :=
    ((up [(pTRK 1, 0, TRK_PSTAT_PER_VALID, 1)]).on (fun h => h.setTrk 1
    0 { h.trkSt 1 0 with delta := 7 }) : State)

theorem test_AbsoluteEncoderFrames_9 :
    (accepts wit_AbsoluteEncoderFrames_9.hw (.host : Requester) (pTRK (1 :
    Fin 8)) = true) ∧ (wit_AbsoluteEncoderFrames_9.hw.chsel (pTRK (1 : Fin 8)) (.host : Requester) = (0 : Fin 4).val)
    ∧ ((after (exec (.trackerCfgWrite (.host : Requester) (1 : Fin 8) false (0xB : Word))
    wit_AbsoluteEncoderFrames_9)).hw.f (pTRK (1 : Fin 8)) (0 : Fin 4) TRK_TCFG_MODE = bitsOf (0xB : Word).toNat
    TRK_TCFG_MODE.lo TRK_TCFG_MODE.w ∧ (after (exec (.trackerCfgWrite (.host : Requester) (1 : Fin 8) false (0xB :
    Word)) wit_AbsoluteEncoderFrames_9)).hw.f (pTRK (1 : Fin 8)) (0 : Fin 4) TRK_TCFG_EN = bitsOf (0xB : Word).toNat
    TRK_TCFG_EN.lo 1) ∧ (wit_AbsoluteEncoderFrames_9.hw.b (pTRK (1 : Fin 8)) (0 : Fin 4) TRK_TCFG_EN = false ∧ bitOf
    (0xB : Word).toNat TRK_TCFG_EN.lo = true → (after (exec (.trackerCfgWrite (.host : Requester) (1 : Fin 8) false
    (0xB : Word)) wit_AbsoluteEncoderFrames_9)).hw.f (pTRK (1 : Fin 8)) (0 : Fin 4) TRK_PSTAT_PER_VALID = 0 ∧ ((after
    (exec (.trackerCfgWrite (.host : Requester) (1 : Fin 8) false (0xB : Word)) wit_AbsoluteEncoderFrames_9)).hw.trkSt
    (1 : Fin 8) (0 : Fin 4)).delta = 0)  := by decide +kernel

def wit_SpeedByWindowAndPeriod_1 : State :=
    ((up [(pTRK 1, 0, TRK_TCFG_EN, 1), (pTRK 1, 0, TRK_TCFG_MODE, 5),
    (pTRK 1, 0, TRK_KSPD_K, 0x6400000)]).on (fun h => h.setTrk 1 0 { h.trkSt 1 0 with reports := [(2, 0)] }) : State)

theorem test_SpeedByWindowAndPeriod_1 :
    (wit_SpeedByWindowAndPeriod_1.hw.trkMode (1 : Fin 8) (0 : Fin 4) ≠ 0)
    ∧ ((wit_SpeedByWindowAndPeriod_1.hw.trkSt (1 : Fin 8) (0 : Fin 4)).reports = ((2 : Int), (0 : Nat)) :: ([] : List
    (Int × Nat)) ∧ (0 : Nat) ≤ wit_SpeedByWindowAndPeriod_1.hw.now) ∧ (-(2 ^ 39) ≤ (2 : Int) ∧ (2 : Int) < 2 ^ 39) ∧
    ((0xC800000 : Int) = (2 : Int) * wit_SpeedByWindowAndPeriod_1.hw.fs (pTRK (1 : Fin 8)) (0 : Fin 4) TRK_KSPD_K) ∧
    (wit_SpeedByWindowAndPeriod_1.hw.b (pTRK (1 : Fin 8)) (0 : Fin 4) TRK_PSTAT_STILL = false) ∧ ((after (exec
    (.speedWindowEnd (1 : Fin 8) (0 : Fin 4)) wit_SpeedByWindowAndPeriod_1)).hw.fs (pTRK (1 : Fin 8)) (0 : Fin 4)
    TRK_DELTA_VALUE = (2 : Int)) ∧ ((after (exec (.speedWindowEnd (1 : Fin 8) (0 : Fin 4))
    wit_SpeedByWindowAndPeriod_1)).hw.fs (pTRK (1 : Fin 8)) (0 : Fin 4) TRK_SPEED_VALUE = max (-(2 ^ 39)) (min (2 ^ 39
    - 1) (0xC800000 : Int))) ∧ ((after (exec (.speedWindowEnd (1 : Fin 8) (0 : Fin 4))
    wit_SpeedByWindowAndPeriod_1)).hw.b (pTRK (1 : Fin 8)) (0 : Fin 4) TRK_PSTAT_SAT = decide ((0xC800000 : Int) < -(2
    ^ 39) ∨ 2 ^ 39 - 1 < (0xC800000 : Int))) ∧ (((after (exec (.speedWindowEnd (1 : Fin 8) (0 : Fin 4))
    wit_SpeedByWindowAndPeriod_1)).hw.trkSt (1 : Fin 8) (0 : Fin 4)).reports = ([] : List (Int × Nat)))
     := by decide +kernel

def wit_SpeedByWindowAndPeriod_2 : State :=
    (fly [⟨⟨1, 0⟩, 0x102C, 0⟩] ((up [(pTRK 1, 0, TRK_TCFG_EN, 1),
    (pTRK 1, 0, TRK_TCFG_MODE, 5), (pTRK 1, 0, TRK_TCFG_WSYNC, 1)]).on (fun h => h.setTrk 1 0
    { h.trkSt 1 0 with delta := 2 })) : State)

theorem test_SpeedByWindowAndPeriod_2 :
    (wit_SpeedByWindowAndPeriod_2.hw.trkMode (1 : Fin 8) (0 : Fin 4) ≠ 0)
    ∧ (arrives wit_SpeedByWindowAndPeriod_2.hw (⟨1, 0⟩ : Chan) (clCode (1 : Fin 8) (0x02C + (0 : Fin 4).val)) = true)
    ∧ (wit_SpeedByWindowAndPeriod_2.hw.b (pTRK (1 : Fin 8)) (0 : Fin 4) TRK_TCFG_WSYNC = true) ∧ (((after (exec
    (.windowSync (1 : Fin 8) (0 : Fin 4) ⟨(⟨1, 0⟩ : Chan), none⟩) wit_SpeedByWindowAndPeriod_2)).hw.trkSt (1 : Fin 8)
    (0 : Fin 4)).delta = 0) ∧ ((after (exec (.windowSync (1 : Fin 8) (0 : Fin 4) ⟨(⟨1, 0⟩ : Chan), none⟩)
    wit_SpeedByWindowAndPeriod_2)).hw.reg (pTRK (1 : Fin 8)) 0x1E (0 : Fin 4) = wit_SpeedByWindowAndPeriod_2.hw.reg
    (pTRK (1 : Fin 8)) 0x1E (0 : Fin 4))  := by decide +kernel

def wit_SpeedByWindowAndPeriod_3 : State :=
    ((up [(pTRK 1, 0, TRK_TCFG_EN, 1), (pTRK 1, 0, TRK_TCFG_MODE, 5),
    (pTRK 1, 0, TRK_PSTAT_PER_VALID, 1), (pTRK 1, 0, TRK_PER_CYC, 19531), (pTRK 1, 0, TRK_KPER_K, 64000000)]).on (fun
    h => h.setTrk 1 0 { h.trkSt 1 0 with e := 256 }) : State)

theorem test_SpeedByWindowAndPeriod_3 :
    (wit_SpeedByWindowAndPeriod_3.hw.trkMode (1 : Fin 8) 0 ≠ 0) ∧
    (wit_SpeedByWindowAndPeriod_3.hw.b (pTRK (1 : Fin 8)) 0 TRK_PSTAT_PER_VALID = true) ∧
    ((wit_SpeedByWindowAndPeriod_3.hw.trkSt (1 : Fin 8) 0).e = (256 : Nat) ∧ 0 < (256 : Nat) ∧ (256 : Nat) % 256 = 0)
    ∧ (wit_SpeedByWindowAndPeriod_3.hw.f (pTRK (1 : Fin 8)) 0 TRK_PER_CYC = (19531 : Nat)) ∧
    (wit_SpeedByWindowAndPeriod_3.hw.f (pTRK (1 : Fin 8)) 0 TRK_KPER_K = (64000000 : Nat)) ∧ ((after (exec
    (.pspeedUpdate (1 : Fin 8) 0) wit_SpeedByWindowAndPeriod_3)).hw.fs (pTRK (1 : Fin 8)) 0 TRK_PSPEED_VALUE = (if
    wit_SpeedByWindowAndPeriod_3.hw.b (pTRK (1 : Fin 8)) 0 TRK_PSTAT_DIR then max (-(2 ^ 39)) (-(((64000000 : Nat) *
    65536 / max (19531 : Nat) (256 : Nat) : Nat) : Int)) else min (2 ^ 39 - 1) (((64000000 : Nat) * 65536 / max (19531
    : Nat) (256 : Nat) : Nat) : Int)))  := by decide +kernel

def wit_SpeedByWindowAndPeriod_4 : State :=
    ((up [(pTRK 1, 0, TRK_TCFG_EN, 1), (pTRK 1, 0, TRK_TCFG_MODE, 5),
    (pTRK 1, 0, TRK_STILL_T, 2)]).on (fun h => h.setTrk 1 0 { h.trkSt 1 0 with e := 8000 }) : State)

theorem test_SpeedByWindowAndPeriod_4 :
    (wit_SpeedByWindowAndPeriod_4.hw.trkMode (1 : Fin 8) 0 ≠ 0) ∧ (0 <
    wit_SpeedByWindowAndPeriod_4.hw.f (pTRK (1 : Fin 8)) 0 TRK_STILL_T) ∧ (wit_SpeedByWindowAndPeriod_4.hw.f (pTRK (1
    : Fin 8)) 0 TRK_STILL_T * 4000 ≤ (wit_SpeedByWindowAndPeriod_4.hw.trkSt (1 : Fin 8) 0).e) ∧
    (wit_SpeedByWindowAndPeriod_4.hw.b (pTRK (1 : Fin 8)) 0 TRK_PSTAT_STILL = false) ∧ ((after (exec (.standstill (1 :
    Fin 8) 0) wit_SpeedByWindowAndPeriod_4)).hw.f (pTRK (1 : Fin 8)) 0 TRK_SPEED_VALUE = 0 ∧ (after (exec (.standstill
    (1 : Fin 8) 0) wit_SpeedByWindowAndPeriod_4)).hw.f (pTRK (1 : Fin 8)) 0 TRK_PSPEED_VALUE = 0) ∧ ((after (exec
    (.standstill (1 : Fin 8) 0) wit_SpeedByWindowAndPeriod_4)).hw.f (pTRK (1 : Fin 8)) 0 TRK_PSTAT_PER_VALID = 0 ∧
    (after (exec (.standstill (1 : Fin 8) 0) wit_SpeedByWindowAndPeriod_4)).hw.f (pTRK (1 : Fin 8)) 0 TRK_PSTAT_STILL
    = 1) ∧ ((after (exec (.standstill (1 : Fin 8) 0) wit_SpeedByWindowAndPeriod_4)).hw.f (pTRK (1 : Fin 8)) 0 ⟨5, 6,
    1⟩ = 1)  := by decide +kernel

def wit_RoutingWritesCheckedThenInForce_1 : State :=
    (up [(pGSEAM, 0x30, ⟨8, 0, 12⟩, 10)] : State)

theorem test_RoutingWritesCheckedThenInForce_1 :
    (accepts wit_RoutingWritesCheckedThenInForce_1.hw (.host :
    Requester) (seamPage (none : Option (Fin 8))) = true) ∧ (wit_RoutingWritesCheckedThenInForce_1.hw.chsel (seamPage
    (none : Option (Fin 8))) (.host : Requester) = (10 : Nat)) ∧ (wit_RoutingWritesCheckedThenInForce_1.hw.routeCause
    ⟨(match (none : Option (Fin 8)) with | some c => c.val | none => 15), (10 : Nat)⟩ (0x1F0E1F0E0 : Word) = 0) ∧
    ((after (exec (.routingWrite (.host : Requester) (none : Option (Fin 8)) (0x1F0E1F0E0 : Word))
    wit_RoutingWritesCheckedThenInForce_1)).hw.f (seamPage (none : Option (Fin 8))) (10 : Nat) SEAM_CH_ROUTE_EN =
    bitsOf (0x1F0E1F0E0 : Word).toNat 32 1) ∧ ((after (exec (.routingWrite (.host : Requester) (none : Option (Fin 8))
    (0x1F0E1F0E0 : Word)) wit_RoutingWritesCheckedThenInForce_1)).hw.f (seamPage (none : Option (Fin 8))) (10 : Nat)
    SEAM_CH_ROUTE_CONS = bitsOf (0x1F0E1F0E0 : Word).toNat 16 16) ∧ ((after (exec (.routingWrite (.host : Requester)
    (none : Option (Fin 8)) (0x1F0E1F0E0 : Word)) wit_RoutingWritesCheckedThenInForce_1)).hw.f (seamPage (none :
    Option (Fin 8))) (10 : Nat) SEAM_CH_ROUTE_PROD = bitsOf (0x1F0E1F0E0 : Word).toNat 0 16)  := by decide +kernel

def wit_RoutingWritesCheckedThenInForce_2 : State :=
    (up [(pGSEAM, 0x30, ⟨8, 0, 12⟩, 11), (pGSEAM, 10, ⟨0x10,
    0, 40⟩, 0x1F0E1F0E0)] : State)

theorem test_RoutingWritesCheckedThenInForce_2 :
    (accepts wit_RoutingWritesCheckedThenInForce_2.hw (.host :
    Requester) (seamPage (none : Option (Fin 8))) = true) ∧ (wit_RoutingWritesCheckedThenInForce_2.hw.chsel (seamPage
    (none : Option (Fin 8))) (.host : Requester) = (11 : Nat)) ∧ (wit_RoutingWritesCheckedThenInForce_2.hw.routeCause
    ⟨(match (none : Option (Fin 8)) with | some c => c.val | none => 15), (11 : Nat)⟩ (0x1F0E0F0E1 : Word) = (1 : Nat)
    ∧ (1 : Nat) ≠ 0) ∧ ((after (exec (.routingWrite (.host : Requester) (none : Option (Fin 8)) (0x1F0E0F0E1 : Word))
    wit_RoutingWritesCheckedThenInForce_2)).hw.reg (seamPage (none : Option (Fin 8))) 0x10 (11 : Nat) =
    wit_RoutingWritesCheckedThenInForce_2.hw.reg (seamPage (none : Option (Fin 8))) 0x10 (11 : Nat)) ∧ ((after (exec
    (.routingWrite (.host : Requester) (none : Option (Fin 8)) (0x1F0E0F0E1 : Word))
    wit_RoutingWritesCheckedThenInForce_2)).hw.f (seamPage (none : Option (Fin 8))) 0 SEAM_STATUS_CAUSE = (1 : Nat)) ∧
    ((after (exec (.routingWrite (.host : Requester) (none : Option (Fin 8)) (0x1F0E0F0E1 : Word))
    wit_RoutingWritesCheckedThenInForce_2)).hw.f (seamPage (none : Option (Fin 8))) 0 SEAM_STATUS_CH = (11 : Nat) %
    64) ∧ ((after (exec (.routingWrite (.host : Requester) (none : Option (Fin 8)) (0x1F0E0F0E1 : Word))
    wit_RoutingWritesCheckedThenInForce_2)).hw.f (seamPage (none : Option (Fin 8))) 0 SEAM_IRQ_ROUTE_ERR = 1)
     := by decide +kernel

def wit_RoutingWritesCheckedThenInForce_3 : State :=
    (up [(pLSEAM 2, 9, ⟨8, 0, 12⟩, 4)] : State)

theorem test_RoutingWritesCheckedThenInForce_3 :
    (accepts wit_RoutingWritesCheckedThenInForce_3.hw (.core 9 :
    Requester) (seamPage (some 2 : Option (Fin 8))) = true) ∧ (wit_RoutingWritesCheckedThenInForce_3.hw.chsel
    (seamPage (some 2 : Option (Fin 8))) (.core 9 : Requester) = (4 : Nat)) ∧ (validProd (bitsOf (0x20102001 :
    Word).toNat 0 16) = false) ∧ ((after (exec (.routingWrite (.core 9 : Requester) (some 2 : Option (Fin 8))
    (0x20102001 : Word)) wit_RoutingWritesCheckedThenInForce_3)).hw.reg (seamPage (some 2 : Option (Fin 8))) 0x10 (4 :
    Nat) = wit_RoutingWritesCheckedThenInForce_3.hw.reg (seamPage (some 2 : Option (Fin 8))) 0x10 (4 : Nat)) ∧ ((after
    (exec (.routingWrite (.core 9 : Requester) (some 2 : Option (Fin 8)) (0x20102001 : Word))
    wit_RoutingWritesCheckedThenInForce_3)).hw.f (seamPage (some 2 : Option (Fin 8))) 0 SEAM_STATUS_CAUSE = 3) ∧
    ((after (exec (.routingWrite (.core 9 : Requester) (some 2 : Option (Fin 8)) (0x20102001 : Word))
    wit_RoutingWritesCheckedThenInForce_3)).hw.f (seamPage (some 2 : Option (Fin 8))) 0 SEAM_IRQ_ROUTE_ERR = 1)
     := by decide +kernel

def wit_RoutingWritesCheckedThenInForce_4 : State :=
    (up [(pGSEAM, 37, ⟨0x10, 0, 40⟩, 0x1F0610000)] : State)

theorem test_RoutingWritesCheckedThenInForce_4 :
    (accepts wit_RoutingWritesCheckedThenInForce_4.hw (.host :
    Requester) pGSEAM = true) ∧ ((0x20 : Word).toNat % 2 ^ 32 = 2 ^ (5 : Fin 32).val) ∧
    (wit_RoutingWritesCheckedThenInForce_4.hw.routes.filter (fun q => q.chan = ⟨15, 32 * (1 : Fin 2).val + (5 : Fin
    32).val⟩) = [⟨⟨15, 32 * (1 : Fin 2).val + (5 : Fin 32).val⟩, (0 : Nat), (0xF061 : Nat)⟩]) ∧ ((0xF061 : Nat) % 4096
    ≠ 0 ∧ isMerge (0xF061 : Nat) = false) ∧ (wit_RoutingWritesCheckedThenInForce_4.hw.carried.at none (32 * (1 : Fin
    2).val + (5 : Fin 32).val) ≠ some (wit_RoutingWritesCheckedThenInForce_4.hw.now, false)) ∧ ((after (exec
    (.seamFire (.host : Requester) (1 : Fin 2) (0x20 : Word)) wit_RoutingWritesCheckedThenInForce_4)).hw.flights =
    wit_RoutingWritesCheckedThenInForce_4.hw.flights ++ [⟨⟨15, 32 * (1 : Fin 2).val + (5 : Fin 32).val⟩, (0xF061 :
    Nat), wit_RoutingWritesCheckedThenInForce_4.hw.now + 2⟩]) ∧ ((after (exec (.seamFire (.host : Requester) (1 : Fin
    2) (0x20 : Word)) wit_RoutingWritesCheckedThenInForce_4)).hw.f pGSEAM (32 * (1 : Fin 2).val + (5 : Fin 32).val)
    SEAM_EV_CNT_COUNT = (wit_RoutingWritesCheckedThenInForce_4.hw.f pGSEAM (32 * (1 : Fin 2).val + (5 : Fin 32).val)
    SEAM_EV_CNT_COUNT + 1) % 2 ^ 40) ∧ (∀ c : Fin 8, (after (exec (.seamFire (.host : Requester) (1 : Fin 2) (0x20 :
    Word)) wit_RoutingWritesCheckedThenInForce_4)).hw.f (pLSEAM c) 0 ⟨0x80 + (1 : Fin 2).val, (5 : Fin 32).val, 1⟩ =
    1)  := by decide +kernel

def wit_RoutingWritesCheckedThenInForce_5 : State :=
    (up [(pGSEAM, 37, ⟨0x10, 0, 40⟩, 0x0F0610000)] : State)

theorem test_RoutingWritesCheckedThenInForce_5 :
    (accepts wit_RoutingWritesCheckedThenInForce_5.hw (.host :
    Requester) pGSEAM = true) ∧ ((0x20 : Word).toNat % 2 ^ 32 = 2 ^ (5 : Fin 32).val) ∧
    (wit_RoutingWritesCheckedThenInForce_5.hw.routes.filter (fun q => q.chan = ⟨15, 32 * (1 : Fin 2).val + (5 : Fin
    32).val⟩) = []) ∧ ((after (exec (.seamFire (.host : Requester) (1 : Fin 2) (0x20 : Word))
    wit_RoutingWritesCheckedThenInForce_5)).hw.flights = wit_RoutingWritesCheckedThenInForce_5.hw.flights) ∧ ((after
    (exec (.seamFire (.host : Requester) (1 : Fin 2) (0x20 : Word)) wit_RoutingWritesCheckedThenInForce_5)).hw.f
    pGSEAM (32 * (1 : Fin 2).val + (5 : Fin 32).val) SEAM_EV_CNT_COUNT = wit_RoutingWritesCheckedThenInForce_5.hw.f
    pGSEAM (32 * (1 : Fin 2).val + (5 : Fin 32).val) SEAM_EV_CNT_COUNT)  := by decide +kernel

def wit_MangleChannelTransitions_1 : State :=
    (up [(pCMANGLE 2, 0, MANGLE_CTRL_EN, 1), (pCMANGLE 2, 0,
    MANGLE_MCH_HEAD_ADDR, 0x100100)] : State)

theorem test_MangleChannelTransitions_1 :
    (accepts wit_MangleChannelTransitions_1.hw (.host : Requester)
    (⟨some 2, 0⟩ : Mch).page = true) ∧ (wit_MangleChannelTransitions_1.hw.chsel (⟨some 2, 0⟩ : Mch).page (.host :
    Requester) = (⟨some 2, 0⟩ : Mch).ch) ∧ (wit_MangleChannelTransitions_1.hw.b (⟨some 2, 0⟩ : Mch).page 0
    MANGLE_CTRL_EN = true) ∧ (wit_MangleChannelTransitions_1.hw.mstate (⟨some 2, 0⟩ : Mch) = 0) ∧ (bitsOf (0x20 :
    Word).toNat 1 3 = 0) ∧ ((after (exec (.mangleArm (.host : Requester) (⟨some 2, 0⟩ : Mch).cl (0x20 : Word))
    wit_MangleChannelTransitions_1)).hw.mstate (⟨some 2, 0⟩ : Mch) = 1) ∧ ((after (exec (.mangleArm (.host :
    Requester) (⟨some 2, 0⟩ : Mch).cl (0x20 : Word)) wit_MangleChannelTransitions_1)).hw.mf (⟨some 2, 0⟩ : Mch)
    MANGLE_MCH_CUR_ADDR = wit_MangleChannelTransitions_1.hw.mf (⟨some 2, 0⟩ : Mch) MANGLE_MCH_HEAD_ADDR) ∧ ((after
    (exec (.mangleArm (.host : Requester) (⟨some 2, 0⟩ : Mch).cl (0x20 : Word)) wit_MangleChannelTransitions_1)).hw.mf
    (⟨some 2, 0⟩ : Mch) MANGLE_MCH_STAT_RING = wit_MangleChannelTransitions_1.hw.ringOf (.host : Requester) % 4) ∧
    ((after (exec (.mangleArm (.host : Requester) (⟨some 2, 0⟩ : Mch).cl (0x20 : Word))
    wit_MangleChannelTransitions_1)).hw.mf (⟨some 2, 0⟩ : Mch) MANGLE_MCH_STAT_PEND = 0) ∧ ((after (exec (.mangleArm
    (.host : Requester) (⟨some 2, 0⟩ : Mch).cl (0x20 : Word)) wit_MangleChannelTransitions_1)).hw.mf (⟨some 2, 0⟩ :
    Mch) MANGLE_MCH_CTRL_TRIG_SEAM = bitsOf (0x20 : Word).toNat 5 1)  := by decide +kernel

def wit_MangleChannelTransitions_2 : State :=
    (up [(pDMANGLE, 0x30, ⟨8, 0, 12⟩, 15), (pDMANGLE, 0,
    MANGLE_CTRL_EN, 1), (pDMANGLE, 15, MANGLE_MCH_STAT_STATE, 1)] : State)

theorem test_MangleChannelTransitions_2 :
    (accepts wit_MangleChannelTransitions_2.hw (.host : Requester)
    (⟨none, 15⟩ : Mch).page = true) ∧ (wit_MangleChannelTransitions_2.hw.chsel (⟨none, 15⟩ : Mch).page (.host :
    Requester) = (⟨none, 15⟩ : Mch).ch) ∧ (wit_MangleChannelTransitions_2.hw.b (⟨none, 15⟩ : Mch).page 0
    MANGLE_CTRL_EN = true) ∧ (wit_MangleChannelTransitions_2.hw.mstate (⟨none, 15⟩ : Mch) = 1) ∧
    ((wit_MangleChannelTransitions_2.hw.mchOf (⟨none, 15⟩ : Mch)).trigAt ≠ some
    (wit_MangleChannelTransitions_2.hw.now, false)) ∧ (bitOf (2 : Word).toNat 2 = false)  := by decide +kernel

def wit_MangleChannelTransitions_3 : State :=
    (up [(pDMANGLE, 0x30, ⟨8, 0, 12⟩, 15), (pDMANGLE, 0,
    MANGLE_CTRL_EN, 1), (pDMANGLE, 15, MANGLE_MCH_STAT_STATE, 3), (pDMANGLE, 15, MANGLE_MCH_STAT_PEND, 1)] : State)

theorem test_MangleChannelTransitions_3 :
    (accepts wit_MangleChannelTransitions_3.hw (.host : Requester)
    (⟨none, 15⟩ : Mch).page = true) ∧ (wit_MangleChannelTransitions_3.hw.chsel (⟨none, 15⟩ : Mch).page (.host :
    Requester) = (⟨none, 15⟩ : Mch).ch ∧ (⟨none, 15⟩ : Mch).ch < 16) ∧ (wit_MangleChannelTransitions_3.hw.b (⟨none,
    15⟩ : Mch).page 0 MANGLE_CTRL_EN = true) ∧ (wit_MangleChannelTransitions_3.hw.mstate (⟨none, 15⟩ : Mch) = 2 ∨
    wit_MangleChannelTransitions_3.hw.mstate (⟨none, 15⟩ : Mch) = 3) ∧ ((wit_MangleChannelTransitions_3.hw.mchOf
    (⟨none, 15⟩ : Mch)).trigAt ≠ some (wit_MangleChannelTransitions_3.hw.now, false)) ∧ (bitOf (2 : Word).toNat 2 =
    false) ∧ ((after (exec (.mangleGo (.host : Requester) (⟨none, 15⟩ : Mch).cl (2 : Word))
    wit_MangleChannelTransitions_3)).hw.mstate (⟨none, 15⟩ : Mch) = wit_MangleChannelTransitions_3.hw.mstate (⟨none,
    15⟩ : Mch)) ∧ ((after (exec (.mangleGo (.host : Requester) (⟨none, 15⟩ : Mch).cl (2 : Word))
    wit_MangleChannelTransitions_3)).hw.mf (⟨none, 15⟩ : Mch) MANGLE_MCH_STAT_PEND = 1) ∧
    (wit_MangleChannelTransitions_3.hw.mf (⟨none, 15⟩ : Mch) MANGLE_MCH_STAT_PEND = 1 → (after (exec (.mangleGo (.host
    : Requester) (⟨none, 15⟩ : Mch).cl (2 : Word)) wit_MangleChannelTransitions_3)).hw.f (⟨none, 15⟩ : Mch).page 0 ⟨5,
    16 + (⟨none, 15⟩ : Mch).ch, 1⟩ = 1)  := by decide +kernel

def wit_MangleChannelTransitions_4 : State :=
    (up [(pCMANGLE 7, 0x30, ⟨8, 0, 12⟩, 7), (pCMANGLE 7, 0,
    MANGLE_CTRL_EN, 1), (pCMANGLE 7, 7, MANGLE_MCH_STAT_STATE, 2)] : State)

theorem test_MangleChannelTransitions_4 :
    (accepts wit_MangleChannelTransitions_4.hw (.host : Requester)
    (⟨some 7, 7⟩ : Mch).page = true) ∧ (wit_MangleChannelTransitions_4.hw.chsel (⟨some 7, 7⟩ : Mch).page (.host :
    Requester) = (⟨some 7, 7⟩ : Mch).ch) ∧ (wit_MangleChannelTransitions_4.hw.b (⟨some 7, 7⟩ : Mch).page 0
    MANGLE_CTRL_EN = true) ∧ (wit_MangleChannelTransitions_4.hw.mstate (⟨some 7, 7⟩ : Mch) = 1 ∨
    wit_MangleChannelTransitions_4.hw.mstate (⟨some 7, 7⟩ : Mch) = 2) ∧ (bitsOf (4 : Word).toNat 0 1 = 0)
     := by decide +kernel

def wit_MangleChannelTransitions_5 : State :=
    ((up [(pCMANGLE 2, 0, MANGLE_CTRL_EN, 1), (pCMANGLE 2, 0,
    MANGLE_MCH_STAT_STATE, 3), (pCMANGLE 2, 0, MANGLE_MCH_STAT_RING, 1), (pCMANGLE 2, 0, MANGLE_MCH_CUR_ADDR,
    0x100100), (pCMANGLE 2, 0, MANGLE_MCH_STAT_REMAIN, 13)]).on (fun h => h.setMch ⟨some 2, 0⟩
    { desc := [0, 0, 0, 16, 0, 0, 0, 0] }) : State)

theorem test_MangleChannelTransitions_5 :
    (accepts wit_MangleChannelTransitions_5.hw (.host : Requester)
    (⟨some 2, 0⟩ : Mch).page = true) ∧ (wit_MangleChannelTransitions_5.hw.chsel (⟨some 2, 0⟩ : Mch).page (.host :
    Requester) = (⟨some 2, 0⟩ : Mch).ch) ∧ (wit_MangleChannelTransitions_5.hw.b (⟨some 2, 0⟩ : Mch).page 0
    MANGLE_CTRL_EN = true) ∧ (wit_MangleChannelTransitions_5.hw.mstate (⟨some 2, 0⟩ : Mch) = 3) ∧ (plainAt
    wit_MangleChannelTransitions_5 (wit_MangleChannelTransitions_5.hw.macc (⟨some 2, 0⟩ : Mch))
    (wit_MangleChannelTransitions_5.hw.mf (⟨some 2, 0⟩ : Mch) MANGLE_MCH_CUR_ADDR + 7) (0x1500107 : Nat) = true) ∧
    ((wit_MangleChannelTransitions_5.hw.mchOf (⟨some 2, 0⟩ : Mch)).wait = none) ∧
    (wit_MangleChannelTransitions_5.hw.dbeat (⟨some 2, 0⟩ : Mch) = (3 : Nat) ∧ (3 : Nat) < 2 ^ 24) ∧ (bitsOf (4 :
    Word).toNat 0 1 = 0)  := by decide +kernel

def wit_MangleChannelTransitions_6 : State :=
    (up [(pCMANGLE 2, 0, MANGLE_CTRL_EN, 1), (pCMANGLE 2, 0,
    MANGLE_MCH_STAT_STATE, 4), (pCMANGLE 2, 0, MANGLE_MCH_STAT_ECODE, 4)] : State)

theorem test_MangleChannelTransitions_6 :
    (accepts wit_MangleChannelTransitions_6.hw (.host : Requester)
    (⟨some 2, 0⟩ : Mch).page = true) ∧ (wit_MangleChannelTransitions_6.hw.chsel (⟨some 2, 0⟩ : Mch).page (.host :
    Requester) = (⟨some 2, 0⟩ : Mch).ch) ∧ (wit_MangleChannelTransitions_6.hw.b (⟨some 2, 0⟩ : Mch).page 0
    MANGLE_CTRL_EN = true) ∧ (wit_MangleChannelTransitions_6.hw.mstate (⟨some 2, 0⟩ : Mch) = 4) ∧ (bitsOf (8 :
    Word).toNat 0 1 = 0)  := by decide +kernel

def wit_MangleChannelTransitions_7 : State :=
    (fly [⟨⟨15, 12⟩, 0xF042, 0⟩] (up [(pDMANGLE, 0, MANGLE_CTRL_EN,
    1), (pDMANGLE, 2, MANGLE_MCH_CTRL_TRIG_SEAM, 1), (pDMANGLE, 2, MANGLE_MCH_STAT_STATE, 1)]) : State)

theorem test_MangleChannelTransitions_7 :
    ((⟨none, 2⟩ : Mch) = ⟨(none : Option (Fin 8)), if (none : Option
    (Fin 8)).isSome then (2 : Fin 16).val % 8 else (2 : Fin 16).val⟩) ∧ (arrives wit_MangleChannelTransitions_7.hw
    (⟨15, 12⟩ : Chan) ((⟨none, 2⟩ : Mch).startCode) = true) ∧ (wit_MangleChannelTransitions_7.hw.mangleOn (⟨none, 2⟩ :
    Mch) = true) ∧ (wit_MangleChannelTransitions_7.hw.mf (⟨none, 2⟩ : Mch) MANGLE_MCH_CTRL_TRIG_SEAM = 1) ∧
    (wit_MangleChannelTransitions_7.hw.mstate (⟨none, 2⟩ : Mch) = 1) ∧ ((wit_MangleChannelTransitions_7.hw.mchOf
    (⟨none, 2⟩ : Mch)).trigAt ≠ some (wit_MangleChannelTransitions_7.hw.now, true)) ∧ ((after (exec
    (.mangleStartTrigger (none : Option (Fin 8)) (2 : Fin 16) ⟨(⟨15, 12⟩ : Chan), none⟩)
    wit_MangleChannelTransitions_7)).hw.mstate (⟨none, 2⟩ : Mch) = 2) ∧ ((after (exec (.mangleStartTrigger (none :
    Option (Fin 8)) (2 : Fin 16) ⟨(⟨15, 12⟩ : Chan), none⟩) wit_MangleChannelTransitions_7)).hw.flights = [])
     := by decide +kernel

def wit_MangleChannelTransitions_8 : State :=
    ((up [(pDMANGLE, 0, MANGLE_CTRL_EN, 1), (pDMANGLE, 9,
    MANGLE_MCH_STAT_STATE, 3), (pDMANGLE, 9, MANGLE_MCH_STAT_REMAIN, 13)]).on (fun h => h.setMch ⟨none, 9⟩
    { desc := [0, 0, 0, 16, 0x100, 0, 0, 0], wait := some ⟨3, 0x104003, 0x4000100, false, false⟩ }) : State)

theorem test_MangleChannelTransitions_8 :
    (wit_MangleChannelTransitions_8.hw.mangleOn ⟨none, (9 : Fin 16)⟩ =
    true) ∧ ((wit_MangleChannelTransitions_8.hw.mchOf ⟨none, (9 : Fin 16)⟩).wait = some (⟨3, 0x104003, 0x4000100,
    false, false⟩ : HostBeat) ∧ (⟨3, 0x104003, 0x4000100, false, false⟩ : HostBeat).aborted = false) ∧ ((after (exec
    (.hostCompletionTimeout (9 : Fin 16)) wit_MangleChannelTransitions_8)).hw.mstate ⟨none, (9 : Fin 16)⟩ = 4) ∧
    ((after (exec (.hostCompletionTimeout (9 : Fin 16)) wit_MangleChannelTransitions_8)).hw.mf ⟨none, (9 : Fin 16)⟩
    MANGLE_MCH_STAT_ECODE = 5) ∧ ((after (exec (.hostCompletionTimeout (9 : Fin 16))
    wit_MangleChannelTransitions_8)).hw.f pDMANGLE 0 ⟨5, (9 : Fin 16), 1⟩ = 1)  := by decide +kernel

def wit_MangleDescriptorMovesWords_1 : State :=
    ((up [(pCMANGLE 2, 0, MANGLE_CTRL_EN, 1), (pCMANGLE 2, 0,
    MANGLE_MCH_STAT_STATE, 2), (pCMANGLE 2, 0, MANGLE_MCH_STAT_RING, 1), (pCMANGLE 2, 0, MANGLE_MCH_CUR_ADDR,
    0x100100)]).wrList 0x1500100 [0x100108, 0x10002000, 0x104000, 16, 0x7600, 0xFFFFFFFF, 0x1040F0, 0] : State)

theorem test_MangleDescriptorMovesWords_1 :
    ((⟨some 2, 0⟩ : Mch) = ⟨(some 2 : Option (Fin 8)), if (some 2 :
    Option (Fin 8)).isSome then (0 : Fin 16).val % 8 else (0 : Fin 16).val⟩) ∧
    (wit_MangleDescriptorMovesWords_1.hw.mangleOn (⟨some 2, 0⟩ : Mch) = true) ∧
    (wit_MangleDescriptorMovesWords_1.hw.mstate (⟨some 2, 0⟩ : Mch) = 2) ∧ (wit_MangleDescriptorMovesWords_1.hw.mturn
    (⟨some 2, 0⟩ : Mch) = true) ∧ (wit_MangleDescriptorMovesWords_1.hw.mf (⟨some 2, 0⟩ : Mch) MANGLE_MCH_CUR_ADDR =
    (0x100100 : Nat) ∧ (0x100100 : Nat) % 8 = 0) ∧ (∀ i : Fin 8, plainAt wit_MangleDescriptorMovesWords_1
    (wit_MangleDescriptorMovesWords_1.hw.macc (⟨some 2, 0⟩ : Mch)) ((0x100100 : Nat) + i) ((0x1500100 : Nat) + i) =
    true ∧ wit_MangleDescriptorMovesWords_1.seenWord ((0x1500100 : Nat) + i) = .data
    (wit_MangleDescriptorMovesWords_1.rd ((0x1500100 : Nat) + i))) ∧ (badDescriptor (some 2 : Option (Fin 8)).isSome
    (wit_MangleDescriptorMovesWords_1.rdList (0x1500100 : Nat) 8) = false) ∧ ((after (exec (.descriptorFetchDone (some
    2 : Option (Fin 8)) (0 : Fin 16)) wit_MangleDescriptorMovesWords_1)).hw.mstate (⟨some 2, 0⟩ : Mch) = 3) ∧ (((after
    (exec (.descriptorFetchDone (some 2 : Option (Fin 8)) (0 : Fin 16)) wit_MangleDescriptorMovesWords_1)).hw.mchOf
    (⟨some 2, 0⟩ : Mch)).desc = wit_MangleDescriptorMovesWords_1.rdList (0x1500100 : Nat) 8) ∧ ((after (exec
    (.descriptorFetchDone (some 2 : Option (Fin 8)) (0 : Fin 16)) wit_MangleDescriptorMovesWords_1)).hw.mf (⟨some 2,
    0⟩ : Mch) MANGLE_MCH_STAT_REMAIN = (wit_MangleDescriptorMovesWords_1.rd ((0x1500100 : Nat) + 3)).toNat)
     := by decide +kernel

def wit_MangleDescriptorMovesWords_2 : State :=
    ((up [(pCMANGLE 2, 0, MANGLE_CTRL_EN, 1), (pCMANGLE 2, 0,
    MANGLE_MCH_STAT_STATE, 2), (pCMANGLE 2, 0, MANGLE_MCH_STAT_RING, 1), (pCMANGLE 2, 0, MANGLE_MCH_CUR_ADDR,
    0x100100)]).wrList 0x1500100 [0x100108, 0x10002000, 0x104000, 16, 0x7608, 0xFFFFFFFF, 0x1040F0, 0] : State)

theorem test_MangleDescriptorMovesWords_2 :
    ((⟨some 2, 0⟩ : Mch) = ⟨(some 2 : Option (Fin 8)), if (some 2 :
    Option (Fin 8)).isSome then (0 : Fin 16).val % 8 else (0 : Fin 16).val⟩) ∧
    (wit_MangleDescriptorMovesWords_2.hw.mangleOn (⟨some 2, 0⟩ : Mch) = true) ∧
    (wit_MangleDescriptorMovesWords_2.hw.mstate (⟨some 2, 0⟩ : Mch) = 2) ∧ (wit_MangleDescriptorMovesWords_2.hw.mturn
    (⟨some 2, 0⟩ : Mch) = true) ∧ (wit_MangleDescriptorMovesWords_2.hw.mf (⟨some 2, 0⟩ : Mch) MANGLE_MCH_CUR_ADDR =
    (0x100100 : Nat) ∧ (0x100100 : Nat) % 8 = 0) ∧ (∀ i : Fin 8, plainAt wit_MangleDescriptorMovesWords_2
    (wit_MangleDescriptorMovesWords_2.hw.macc (⟨some 2, 0⟩ : Mch)) ((0x100100 : Nat) + i) ((0x1500100 : Nat) + i) =
    true ∧ wit_MangleDescriptorMovesWords_2.seenWord ((0x1500100 : Nat) + i) = .data
    (wit_MangleDescriptorMovesWords_2.rd ((0x1500100 : Nat) + i))) ∧ (badDescriptor (some 2 : Option (Fin 8)).isSome
    (wit_MangleDescriptorMovesWords_2.rdList (0x1500100 : Nat) 8) = true)  := by decide +kernel

def wit_MangleDescriptorMovesWords_3 : State :=
    ((up [(pCMANGLE 2, 0, MANGLE_CTRL_EN, 1), (pCMANGLE 2, 0,
    MANGLE_MCH_STAT_STATE, 3), (pCMANGLE 2, 0, MANGLE_MCH_STAT_RING, 1), (pCMANGLE 2, 0, MANGLE_MCH_STAT_REMAIN,
    13)]).on (fun h => h.setMch ⟨some 2, 0⟩ { desc := [0, 0x1500200, 0x104000, 16, 0x600, 0, 0, 0] }) : State)

theorem test_MangleDescriptorMovesWords_3 :
    ((⟨some 2, 0⟩ : Mch) = ⟨(some 2 : Option (Fin 8)), if (some 2 :
    Option (Fin 8)).isSome then (0 : Fin 16).val % 8 else (0 : Fin 16).val⟩) ∧
    (wit_MangleDescriptorMovesWords_3.hw.mangleOn (⟨some 2, 0⟩ : Mch) = true) ∧
    (wit_MangleDescriptorMovesWords_3.hw.mstate (⟨some 2, 0⟩ : Mch) = 3) ∧ (wit_MangleDescriptorMovesWords_3.hw.mturn
    (⟨some 2, 0⟩ : Mch) = true ∧ (wit_MangleDescriptorMovesWords_3.hw.mchOf (⟨some 2, 0⟩ : Mch)).wait = none) ∧
    (wit_MangleDescriptorMovesWords_3.hw.dctl (⟨some 2, 0⟩ : Mch) 8 = false ∧ wit_MangleDescriptorMovesWords_3.hw.dctl
    (⟨some 2, 0⟩ : Mch) 7 = false) ∧ (wit_MangleDescriptorMovesWords_3.hw.mf (⟨some 2, 0⟩ : Mch)
    MANGLE_MCH_STAT_REMAIN = (12 : Nat) + 1) ∧ ((0x1500203 : Nat) = wit_MangleDescriptorMovesWords_3.hw.dword (⟨some
    2, 0⟩ : Mch) 1 + (if wit_MangleDescriptorMovesWords_3.hw.dctl (⟨some 2, 0⟩ : Mch) 10 then
    wit_MangleDescriptorMovesWords_3.hw.dbeat (⟨some 2, 0⟩ : Mch) else 0)) ∧ ((0x104003 : Nat) =
    wit_MangleDescriptorMovesWords_3.hw.dword (⟨some 2, 0⟩ : Mch) 2 + (if wit_MangleDescriptorMovesWords_3.hw.dctl
    (⟨some 2, 0⟩ : Mch) 9 then wit_MangleDescriptorMovesWords_3.hw.dbeat (⟨some 2, 0⟩ : Mch) else 0)) ∧ (plainAt
    wit_MangleDescriptorMovesWords_3 (wit_MangleDescriptorMovesWords_3.hw.macc (⟨some 2, 0⟩ : Mch)) (0x1500203 : Nat)
    (0x1500203 : Nat) = true ∧ wit_MangleDescriptorMovesWords_3.seenWord (0x1500203 : Nat) = .data
    (wit_MangleDescriptorMovesWords_3.rd (0x1500203 : Nat))) ∧ (plainAt wit_MangleDescriptorMovesWords_3
    (wit_MangleDescriptorMovesWords_3.hw.macc (⟨some 2, 0⟩ : Mch)) (0x104003 : Nat) (0x1504003 : Nat) = true)
     := by decide +kernel

def wit_MangleDescriptorMovesWords_4 : State :=
    ((up [(pDMANGLE, 0, MANGLE_CTRL_EN, 1), (pDMANGLE, 4,
    MANGLE_MCH_STAT_STATE, 3), (pDMANGLE, 4, MANGLE_MCH_STAT_RING, 1), (pDMANGLE, 4, MANGLE_MCH_CUR_ADDR,
    0x4000100)]).on (fun h => h.setMch ⟨none, 4⟩ { desc := [0, 0, 0, 16, 0x2000, 0, 0, 0] }) : State)

theorem test_MangleDescriptorMovesWords_4 :
    ((⟨none, 4⟩ : Mch) = ⟨(none : Option (Fin 8)), if (none : Option
    (Fin 8)).isSome then (4 : Fin 16).val % 8 else (4 : Fin 16).val⟩) ∧ (wit_MangleDescriptorMovesWords_4.hw.mangleOn
    (⟨none, 4⟩ : Mch) = true) ∧ (wit_MangleDescriptorMovesWords_4.hw.mstate (⟨none, 4⟩ : Mch) = 3) ∧
    (wit_MangleDescriptorMovesWords_4.hw.mturn (⟨none, 4⟩ : Mch) = true) ∧ (wit_MangleDescriptorMovesWords_4.hw.mf
    (⟨none, 4⟩ : Mch) MANGLE_MCH_STAT_REMAIN = 0) ∧ (wit_MangleDescriptorMovesWords_4.hw.dctl (⟨none, 4⟩ : Mch) 12 =
    false ∧ wit_MangleDescriptorMovesWords_4.hw.dctl (⟨none, 4⟩ : Mch) 14 = false) ∧ (plainAt
    wit_MangleDescriptorMovesWords_4 (wit_MangleDescriptorMovesWords_4.hw.macc (⟨none, 4⟩ : Mch))
    (wit_MangleDescriptorMovesWords_4.hw.mf (⟨none, 4⟩ : Mch) MANGLE_MCH_CUR_ADDR + 7) (0x4000107 : Nat) = true) ∧
    (wit_MangleDescriptorMovesWords_4.hw.dword (⟨none, 4⟩ : Mch) 3 < 2 ^ 24)  := by decide +kernel

def wit_MicrowordsComputeSaturated_1 : State :=
    (ucRun (runA : LoopRun) (0x01 * 2 ^ 27 + 1 * 2 ^ 22 + 2 * 2 ^
    17 + 0 * 4096) : State)

theorem test_MicrowordsComputeSaturated_1 :
    (ucAt wit_MicrowordsComputeSaturated_1 (4 : Fin 8) (runA :
    LoopRun) 0x01 (1 : Nat) (2 : Nat) ((0 : Nat) * 4096) ∧ (0 : Nat) < 32) ∧ (writable (1 : Nat) = true ∧ readable (2
    : Nat) = true ∧ readable (0 : Nat) = true) ∧ (ucGives (after (exec (.ucMov (4 : Fin 8) ⟨false, false⟩)
    wit_MicrowordsComputeSaturated_1)) (4 : Fin 8) (runA : LoopRun) (1 : Nat) (lim40 ((runA : LoopRun).ucRd (2 :
    Nat))) (over40 ((runA : LoopRun).ucRd (2 : Nat)) || over40 ((runA : LoopRun).ucRdX (2 : Nat))) = true)
     := by decide +kernel

def wit_MicrowordsComputeSaturated_2 : State :=
    (ucRun (runA : LoopRun) (0x02 * 2 ^ 27 + 1 * 2 ^ 22 + 2 * 2 ^
    17 + 20 * 4096) : State)

theorem test_MicrowordsComputeSaturated_2 :
    (ucAt wit_MicrowordsComputeSaturated_2 (4 : Fin 8) (runA :
    LoopRun) 0x02 (1 : Nat) (2 : Nat) ((20 : Nat) * 4096) ∧ (20 : Nat) < 32) ∧ (writable (1 : Nat) = true ∧ readable
    (2 : Nat) = true ∧ readable (20 : Nat) = true) ∧ (ucGives (after (exec (.ucAdd (4 : Fin 8) ⟨false, false⟩)
    wit_MicrowordsComputeSaturated_2)) (4 : Fin 8) (runA : LoopRun) (1 : Nat) (lim40 ((runA : LoopRun).ucRd (2 : Nat)
    + (runA : LoopRun).ucRd (20 : Nat))) (over40 ((runA : LoopRun).ucRd (2 : Nat) + (runA : LoopRun).ucRd (20 : Nat))
    || over40 ((runA : LoopRun).ucRdX (2 : Nat)) || over40 ((runA : LoopRun).ucRdX (20 : Nat))) = true)
     := by decide +kernel

def wit_MicrowordsComputeSaturated_3 : State :=
    (ucRun (runA : LoopRun) (0x03 * 2 ^ 27 + 30 * 2 ^ 22 + 2 * 2 ^
    17 + 21 * 4096) : State)

theorem test_MicrowordsComputeSaturated_3 :
    (ucAt wit_MicrowordsComputeSaturated_3 (4 : Fin 8) (runA :
    LoopRun) 0x03 (30 : Nat) (2 : Nat) ((21 : Nat) * 4096) ∧ (21 : Nat) < 32) ∧ (writable (30 : Nat) = true ∧ readable
    (2 : Nat) = true ∧ readable (21 : Nat) = true) ∧ (ucGives (after (exec (.ucSub (4 : Fin 8) ⟨false, false⟩)
    wit_MicrowordsComputeSaturated_3)) (4 : Fin 8) (runA : LoopRun) (30 : Nat) (lim40 ((runA : LoopRun).ucRd (2 : Nat)
    - (runA : LoopRun).ucRd (21 : Nat))) (over40 ((runA : LoopRun).ucRd (2 : Nat) - (runA : LoopRun).ucRd (21 : Nat))
    || over40 ((runA : LoopRun).ucRdX (2 : Nat)) || over40 ((runA : LoopRun).ucRdX (21 : Nat))) = true)
     := by decide +kernel

def wit_MicrowordsComputeSaturated_4 : State :=
    (ucRun (runA : LoopRun) (0x04 * 2 ^ 27 + 17 * 2 ^ 22 + 2 * 2 ^
    17 + 0 * 4096) : State)

theorem test_MicrowordsComputeSaturated_4 :
    (ucAt wit_MicrowordsComputeSaturated_4 (4 : Fin 8) (runA :
    LoopRun) 0x04 (17 : Nat) (2 : Nat) ((0 : Nat) * 4096) ∧ (0 : Nat) < 32) ∧ (writable (17 : Nat) = true ∧ readable
    (2 : Nat) = true ∧ readable (0 : Nat) = true) ∧ (ucGives (after (exec (.ucNeg (4 : Fin 8) ⟨false, false⟩)
    wit_MicrowordsComputeSaturated_4)) (4 : Fin 8) (runA : LoopRun) (17 : Nat) (lim40 (-((runA : LoopRun).ucRd (2 :
    Nat)))) (over40 (-((runA : LoopRun).ucRd (2 : Nat))) || over40 ((runA : LoopRun).ucRdX (2 : Nat))) = true)
     := by decide +kernel

def wit_MicrowordsComputeSaturated_5 : State :=
    (ucRun (runA : LoopRun) (0x05 * 2 ^ 27 + 24 * 2 ^ 22 + 2 * 2 ^
    17 + 0 * 4096) : State)

theorem test_MicrowordsComputeSaturated_5 :
    (ucAt wit_MicrowordsComputeSaturated_5 (4 : Fin 8) (runA :
    LoopRun) 0x05 (24 : Nat) (2 : Nat) ((0 : Nat) * 4096) ∧ (0 : Nat) < 32) ∧ (writable (24 : Nat) = true ∧ readable
    (2 : Nat) = true ∧ readable (0 : Nat) = true) ∧ (ucGives (after (exec (.ucAbs (4 : Fin 8) ⟨false, false⟩)
    wit_MicrowordsComputeSaturated_5)) (4 : Fin 8) (runA : LoopRun) (24 : Nat) (lim40 ((((runA : LoopRun).ucRd (2 :
    Nat)).natAbs : Int))) (over40 ((((runA : LoopRun).ucRd (2 : Nat)).natAbs : Int)) || over40 ((runA : LoopRun).ucRdX
    (2 : Nat))) = true)  := by decide +kernel

def wit_MicrowordsComputeSaturated_6 : State :=
    (ucRun (runA : LoopRun) (0x06 * 2 ^ 27 + 1 * 2 ^ 22 + 2 * 2 ^
    17 + 23 * 4096) : State)

theorem test_MicrowordsComputeSaturated_6 :
    (ucAt wit_MicrowordsComputeSaturated_6 (4 : Fin 8) (runA :
    LoopRun) 0x06 (1 : Nat) (2 : Nat) ((23 : Nat) * 4096) ∧ (23 : Nat) < 32) ∧ (writable (1 : Nat) = true ∧ readable
    (2 : Nat) = true ∧ readable (23 : Nat) = true) ∧ (ucGives (after (exec (.ucMin (4 : Fin 8) ⟨false, false⟩)
    wit_MicrowordsComputeSaturated_6)) (4 : Fin 8) (runA : LoopRun) (1 : Nat) (lim40 (min ((runA : LoopRun).ucRd (2 :
    Nat)) ((runA : LoopRun).ucRd (23 : Nat)))) (over40 (min ((runA : LoopRun).ucRd (2 : Nat)) ((runA : LoopRun).ucRd
    (23 : Nat))) || over40 ((runA : LoopRun).ucRdX (2 : Nat)) || over40 ((runA : LoopRun).ucRdX (23 : Nat))) = true)
     := by decide +kernel

def wit_MicrowordsComputeSaturated_7 : State :=
    (ucRun (runA : LoopRun) (0x07 * 2 ^ 27 + 0 * 2 ^ 22 + 2 * 2 ^
    17 + 30 * 4096) : State)

theorem test_MicrowordsComputeSaturated_7 :
    (ucAt wit_MicrowordsComputeSaturated_7 (4 : Fin 8) (runA :
    LoopRun) 0x07 (0 : Nat) (2 : Nat) ((30 : Nat) * 4096) ∧ (30 : Nat) < 32) ∧ (writable (0 : Nat) = true ∧ readable
    (2 : Nat) = true ∧ readable (30 : Nat) = true) ∧ (ucGives (after (exec (.ucMax (4 : Fin 8) ⟨false, false⟩)
    wit_MicrowordsComputeSaturated_7)) (4 : Fin 8) (runA : LoopRun) (0 : Nat) (lim40 (max ((runA : LoopRun).ucRd (2 :
    Nat)) ((runA : LoopRun).ucRd (30 : Nat)))) (over40 (max ((runA : LoopRun).ucRd (2 : Nat)) ((runA : LoopRun).ucRd
    (30 : Nat))) || over40 ((runA : LoopRun).ucRdX (2 : Nat)) || over40 ((runA : LoopRun).ucRdX (30 : Nat))) = true)
     := by decide +kernel

def wit_MicrowordsComputeSaturated_8 : State :=
    (ucRun (runA : LoopRun) (0x08 * 2 ^ 27 + 1 * 2 ^ 22 + 2 * 2 ^
    17 + 3 * 4096) : State)

theorem test_MicrowordsComputeSaturated_8 :
    (ucAt wit_MicrowordsComputeSaturated_8 (4 : Fin 8) (runA :
    LoopRun) 0x08 (1 : Nat) (2 : Nat) ((3 : Nat) * 4096) ∧ (3 : Nat) < 32) ∧ (writable (1 : Nat) = true ∧ readable (2
    : Nat) = true ∧ readable (3 : Nat) = true) ∧ (ucGives (after (exec (.ucLim (4 : Fin 8) ⟨false, false⟩)
    wit_MicrowordsComputeSaturated_8)) (4 : Fin 8) (runA : LoopRun) (1 : Nat) (lim40 (min (max ((runA : LoopRun).ucRd
    (1 : Nat)) ((runA : LoopRun).ucRd (2 : Nat))) ((runA : LoopRun).ucRd (3 : Nat)))) (over40 (min (max ((runA :
    LoopRun).ucRd (1 : Nat)) ((runA : LoopRun).ucRd (2 : Nat))) ((runA : LoopRun).ucRd (3 : Nat))) || over40 ((runA :
    LoopRun).ucRdX (1 : Nat)) || over40 ((runA : LoopRun).ucRdX (2 : Nat)) || over40 ((runA : LoopRun).ucRdX (3 :
    Nat))) = true)  := by decide +kernel

def wit_MicrowordsComputeSaturated_9 : State :=
    (ucRun (runA : LoopRun) (0x09 * 2 ^ 27 + 1 * 2 ^ 22 + 2 * 2 ^
    17 + 31 * 4096) : State)

theorem test_MicrowordsComputeSaturated_9 :
    (ucAt wit_MicrowordsComputeSaturated_9 (4 : Fin 8) (runA :
    LoopRun) 0x09 (1 : Nat) (2 : Nat) ((31 : Nat) * 4096) ∧ (31 : Nat) < 32) ∧ (writable (1 : Nat) = true ∧ readable
    (2 : Nat) = true) ∧ (ucGives (after (exec (.ucShl (4 : Fin 8) ⟨false, false⟩) wit_MicrowordsComputeSaturated_9))
    (4 : Fin 8) (runA : LoopRun) (1 : Nat) (lim40 ((runA : LoopRun).ucRd (2 : Nat) * 2 ^ (31 : Nat))) (over40 ((runA :
    LoopRun).ucRd (2 : Nat) * 2 ^ (31 : Nat)) || over40 ((runA : LoopRun).ucRdX (2 : Nat))) = true)
     := by decide +kernel

def wit_MicrowordsComputeSaturated_10 : State :=
    (ucRun (runA : LoopRun) (0x0A * 2 ^ 27 + 1 * 2 ^ 22 + 2 * 2 ^
    17 + 2 * 4096) : State)

theorem test_MicrowordsComputeSaturated_10 :
    (ucAt wit_MicrowordsComputeSaturated_10 (4 : Fin 8) (runA :
    LoopRun) 0x0A (1 : Nat) (2 : Nat) ((2 : Nat) * 4096) ∧ (2 : Nat) < 32) ∧ (writable (1 : Nat) = true ∧ readable (2
    : Nat) = true) ∧ (ucGives (after (exec (.ucShr (4 : Fin 8) ⟨false, false⟩) wit_MicrowordsComputeSaturated_10)) (4
    : Fin 8) (runA : LoopRun) (1 : Nat) (lim40 ((if (2 : Nat) = 0 then (runA : LoopRun).ucRd (2 : Nat) else ((runA :
    LoopRun).ucRd (2 : Nat) + 2 ^ ((2 : Nat) - 1)) / 2 ^ (2 : Nat)))) (over40 ((if (2 : Nat) = 0 then (runA :
    LoopRun).ucRd (2 : Nat) else ((runA : LoopRun).ucRd (2 : Nat) + 2 ^ ((2 : Nat) - 1)) / 2 ^ (2 : Nat))) || over40
    ((runA : LoopRun).ucRdX (2 : Nat))) = true)  := by decide +kernel

def wit_MicrowordsComputeSaturated_11 : State :=
    (ucRun (runA : LoopRun) (0x0B * 2 ^ 27 + 1 * 2 ^ 22 + 2 * 2 ^
    17 + 20 * 4096) : State)

theorem test_MicrowordsComputeSaturated_11 :
    (ucAt wit_MicrowordsComputeSaturated_11 (4 : Fin 8) (runA :
    LoopRun) 0x0B (1 : Nat) (2 : Nat) ((20 : Nat) * 4096) ∧ (20 : Nat) < 32) ∧ (writable (1 : Nat) = true ∧ readable
    (2 : Nat) = true ∧ readable (20 : Nat) = true) ∧ ((1 : Nat) < 16 ∨ 20 ≤ (1 : Nat)) ∧ (ucGives (after (exec (.ucMul
    (4 : Fin 8) ⟨false, false⟩) wit_MicrowordsComputeSaturated_11)) (4 : Fin 8) (runA : LoopRun) (1 : Nat) (lim40
    (((runA : LoopRun).ucRd (2 : Nat) * (runA : LoopRun).ucRd (20 : Nat) + 2 ^ 30) / 2 ^ 31)) (over40 (((runA :
    LoopRun).ucRd (2 : Nat) * (runA : LoopRun).ucRd (20 : Nat) + 2 ^ 30) / 2 ^ 31) || over40 ((runA : LoopRun).ucRdX
    (2 : Nat)) || over40 ((runA : LoopRun).ucRdX (20 : Nat))) = true)  := by decide +kernel

def wit_MicrowordsComputeSaturated_12 : State :=
    (ucRun (runA : LoopRun) (0x13 * 2 ^ 27 + 1 * 2 ^ 22 + 2 * 2 ^
    17 + 3 * 4096) : State)

theorem test_MicrowordsComputeSaturated_12 :
    (ucAt wit_MicrowordsComputeSaturated_12 (4 : Fin 8) (runA :
    LoopRun) 0x13 (1 : Nat) (2 : Nat) ((3 : Nat) * 4096) ∧ (3 : Nat) < 32) ∧ (writable (1 : Nat) = true ∧ readable (2
    : Nat) = true ∧ readable (3 : Nat) = true) ∧ (ucGives (after (exec (.ucAnd (4 : Fin 8) ⟨false, false⟩)
    wit_MicrowordsComputeSaturated_12)) (4 : Fin 8) (runA : LoopRun) (1 : Nat) (lim40 ((w40i ((runA : LoopRun).ucRd (2
    : Nat)) &&& w40i ((runA : LoopRun).ucRd (3 : Nat))).toInt)) (over40 ((w40i ((runA : LoopRun).ucRd (2 : Nat)) &&&
    w40i ((runA : LoopRun).ucRd (3 : Nat))).toInt) || over40 ((runA : LoopRun).ucRdX (2 : Nat)) || over40 ((runA :
    LoopRun).ucRdX (3 : Nat))) = true)  := by decide +kernel

def wit_MicrowordsComputeSaturated_13 : State :=
    (ucRun (runA : LoopRun) (0x14 * 2 ^ 27 + 1 * 2 ^ 22 + 2 * 2 ^
    17 + 3 * 4096) : State)

theorem test_MicrowordsComputeSaturated_13 :
    (ucAt wit_MicrowordsComputeSaturated_13 (4 : Fin 8) (runA :
    LoopRun) 0x14 (1 : Nat) (2 : Nat) ((3 : Nat) * 4096) ∧ (3 : Nat) < 32) ∧ (writable (1 : Nat) = true ∧ readable (2
    : Nat) = true ∧ readable (3 : Nat) = true) ∧ (ucGives (after (exec (.ucOr (4 : Fin 8) ⟨false, false⟩)
    wit_MicrowordsComputeSaturated_13)) (4 : Fin 8) (runA : LoopRun) (1 : Nat) (lim40 ((w40i ((runA : LoopRun).ucRd (2
    : Nat)) ||| w40i ((runA : LoopRun).ucRd (3 : Nat))).toInt)) (over40 ((w40i ((runA : LoopRun).ucRd (2 : Nat)) |||
    w40i ((runA : LoopRun).ucRd (3 : Nat))).toInt) || over40 ((runA : LoopRun).ucRdX (2 : Nat)) || over40 ((runA :
    LoopRun).ucRdX (3 : Nat))) = true)  := by decide +kernel

def wit_MicrowordsComputeSaturated_14 : State :=
    (ucRun (runA : LoopRun) (0x15 * 2 ^ 27 + 1 * 2 ^ 22 + 2 * 2 ^
    17 + 1 * 4096) : State)

theorem test_MicrowordsComputeSaturated_14 :
    (ucAt wit_MicrowordsComputeSaturated_14 (4 : Fin 8) (runA :
    LoopRun) 0x15 (1 : Nat) (2 : Nat) ((1 : Nat) * 4096) ∧ (1 : Nat) < 32) ∧ (writable (1 : Nat) = true ∧ readable (2
    : Nat) = true) ∧ (ucGives (after (exec (.ucShrt (4 : Fin 8) ⟨false, false⟩) wit_MicrowordsComputeSaturated_14)) (4
    : Fin 8) (runA : LoopRun) (1 : Nat) (lim40 ((runA : LoopRun).ucRd (2 : Nat) / 2 ^ (1 : Nat))) (over40 ((runA :
    LoopRun).ucRd (2 : Nat) / 2 ^ (1 : Nat)) || over40 ((runA : LoopRun).ucRdX (2 : Nat))) = true)
     := by decide +kernel

def wit_MicrowordsComputeSaturated_15 : State :=
    (ucRun (runA : LoopRun) (0x12 * 2 ^ 27 + 5 * 2 ^ 22 + 31 * 2
    ^ 17 + 0x1FFFF) : State)

theorem test_MicrowordsComputeSaturated_15 :
    (ucAt wit_MicrowordsComputeSaturated_15 (4 : Fin 8) (runA :
    LoopRun) 0x12 (5 : Nat) (31 : Nat) (0x1FFFF : Nat)) ∧ (writable (5 : Nat) = true) ∧ (ucGives (after (exec (.ucLdi
    (4 : Fin 8) ⟨false, false⟩) wit_MicrowordsComputeSaturated_15)) (4 : Fin 8) (runA : LoopRun) (5 : Nat) (lim40 (sx
    17 (0x1FFFF : Nat) * 2 ^ (31 : Nat))) (over40 (sx 17 (0x1FFFF : Nat) * 2 ^ (31 : Nat))) = true)
     := by decide +kernel

def wit_MicrowordsComputeSaturated_16 : State :=
    ((ucRun (runA : LoopRun) (0x81400051)).wr 0x19C0051 0x123 :
    State)

theorem test_MicrowordsComputeSaturated_16 :
    (ucAt wit_MicrowordsComputeSaturated_16 (4 : Fin 8) (runA :
    LoopRun) 0x10 (5 : Nat) (0 : Nat) ((0 : Nat) * 2 ^ 16 + (81 : Nat)) ∧ (0 : Nat) < 2 ∧ (81 : Nat) < 2 ^ 14) ∧
    (writable (5 : Nat) = true ∧ readable (0 : Nat) = true) ∧ ((81 : Nat) = ((if (0 : Nat) = 1 then 0 else (runA :
    LoopRun).bank) + (81 : Nat) + ((runA : LoopRun).ucRd (0 : Nat) % 2 ^ 14).toNat) % 2 ^ 14) ∧ ((runA :
    LoopRun).queue.find? (fun e => e.1 = (81 : Nat)) = none) ∧ (ucGives (after (exec (.ucLd (4 : Fin 8) ⟨false,
    false⟩) wit_MicrowordsComputeSaturated_16)) (4 : Fin 8) (runA : LoopRun) (5 : Nat)
    (wit_MicrowordsComputeSaturated_16.rd (winBase (4 : Fin 8) + 0x1C0000 + (81 : Nat))).toInt (over40 ((runA :
    LoopRun).ucRdX (0 : Nat))) = true)  := by decide +kernel

def wit_MicrowordsComputeSaturated_17 : State :=
    (ucRun (runA : LoopRun) (0) : State)

theorem test_MicrowordsComputeSaturated_17 :
    (ucAt wit_MicrowordsComputeSaturated_17 (4 : Fin 8) (runA :
    LoopRun) 0x00 (0 : Nat) (0 : Nat) (0 : Nat)) ∧ ((after (exec (.ucNop (4 : Fin 8) ⟨false, false⟩)
    wit_MicrowordsComputeSaturated_17)).hw.runOf (4 : Fin 8) = some
    { (runA : LoopRun) with upc := (runA : LoopRun).upc + 1, n := (runA : LoopRun).n + 1 })  := by decide +kernel

def wit_MicrowordsComputeSaturated_18 : State :=
    (ucRun (runA : LoopRun) (0x70060000) : State)

theorem test_MicrowordsComputeSaturated_18 :
    (ucAt wit_MicrowordsComputeSaturated_18 (4 : Fin 8) (runA :
    LoopRun) 0x0E 0 (3 : Nat) ((0 : Nat) * 4096) ∧ (0 : Nat) < 32) ∧ (readable (3 : Nat) = true ∧ readable (0 : Nat) =
    true) ∧ (ucGives (after (exec (.ucCmp (4 : Fin 8) ⟨false, false⟩) wit_MicrowordsComputeSaturated_18)) (4 : Fin 8)
    (runA : LoopRun) 0 ((runA : LoopRun).ucRd (3 : Nat) - (runA : LoopRun).ucRd (0 : Nat)) (over40 ((runA :
    LoopRun).ucRdX (3 : Nat)) || over40 ((runA : LoopRun).ucRdX (0 : Nat))) = true)  := by decide +kernel

def wit_MicrowordsBranchStoreAndEnd_1 : State :=
    (ucRun (runA : LoopRun) (0x0B * 2 ^ 27 + 18 * 2 ^ 22 + 2 * 2
    ^ 17 + 3 * 4096) : State)

theorem test_MicrowordsBranchStoreAndEnd_1 :
    (ucAt wit_MicrowordsBranchStoreAndEnd_1 (4 : Fin 8) (runA :
    LoopRun) 0x0B (16 + (2 : Fin 4).val) (2 : Nat) ((3 : Nat) * 4096) ∧ (3 : Nat) < 32) ∧ (readable (2 : Nat) = true ∧
    readable (3 : Nat) = true) ∧ ((-126 : Int) = (runA : LoopRun).ucRd (2 : Nat) * (runA : LoopRun).ucRd (3 : Nat) *
    2) ∧ (((after (exec (.ucMul (4 : Fin 8) ⟨false, false⟩) wit_MicrowordsBranchStoreAndEnd_1)).hw.runOf (4 : Fin
    8)).map (fun q => (q.acc.getD (2 : Fin 4).val 0, q.z, q.upc)) = some (max (-(2 ^ 79)) (min (2 ^ 79 - 1) (-126 :
    Int)), decide ((-126 : Int) = 0), (runA : LoopRun).upc + 1))  := by decide +kernel

def wit_MicrowordsBranchStoreAndEnd_2 : State :=
    (ucRun (runA : LoopRun) (0x0C * 2 ^ 27 + 18 * 2 ^ 22 + 2 * 2
    ^ 17 + 3 * 4096) : State)

theorem test_MicrowordsBranchStoreAndEnd_2 :
    (ucAt wit_MicrowordsBranchStoreAndEnd_2 (4 : Fin 8) (runA :
    LoopRun) 0x0C (16 + (2 : Fin 4).val) (2 : Nat) ((3 : Nat) * 4096) ∧ (3 : Nat) < 32) ∧ (readable (2 : Nat) = true ∧
    readable (3 : Nat) = true) ∧ ((-126 : Int) = (runA : LoopRun).acc.getD (2 : Fin 4).val 0 + (runA : LoopRun).ucRd
    (2 : Nat) * (runA : LoopRun).ucRd (3 : Nat) * 2) ∧ (((after (exec (.ucMac (4 : Fin 8) ⟨false, false⟩)
    wit_MicrowordsBranchStoreAndEnd_2)).hw.runOf (4 : Fin 8)).map (fun q => (q.acc.getD (2 : Fin 4).val 0, q.z,
    q.upc)) = some (max (-(2 ^ 79)) (min (2 ^ 79 - 1) (-126 : Int)), decide ((-126 : Int) = 0), (runA : LoopRun).upc +
    1))  := by decide +kernel

def wit_MicrowordsBranchStoreAndEnd_3 : State :=
    (ucRun (runA : LoopRun) (0x0D * 2 ^ 27 + 18 * 2 ^ 22 + 2 * 2
    ^ 17 + 3 * 4096) : State)

theorem test_MicrowordsBranchStoreAndEnd_3 :
    (ucAt wit_MicrowordsBranchStoreAndEnd_3 (4 : Fin 8) (runA :
    LoopRun) 0x0D (16 + (2 : Fin 4).val) (2 : Nat) ((3 : Nat) * 4096) ∧ (3 : Nat) < 32) ∧ (readable (2 : Nat) = true ∧
    readable (3 : Nat) = true) ∧ ((126 : Int) = (runA : LoopRun).acc.getD (2 : Fin 4).val 0 - (runA : LoopRun).ucRd (2
    : Nat) * (runA : LoopRun).ucRd (3 : Nat) * 2) ∧ (((after (exec (.ucMsu (4 : Fin 8) ⟨false, false⟩)
    wit_MicrowordsBranchStoreAndEnd_3)).hw.runOf (4 : Fin 8)).map (fun q => (q.acc.getD (2 : Fin 4).val 0, q.z,
    q.upc)) = some (max (-(2 ^ 79)) (min (2 ^ 79 - 1) (126 : Int)), decide ((126 : Int) = 0), (runA : LoopRun).upc +
    1))  := by decide +kernel

def wit_MicrowordsBranchStoreAndEnd_4 : State :=
    (ucRun (runA : LoopRun) (0x11 * 2 ^ 27 + 2 * 2 ^ 22 +
    0x10009) : State)

theorem test_MicrowordsBranchStoreAndEnd_4 :
    (ucAt wit_MicrowordsBranchStoreAndEnd_4 (4 : Fin 8) (runA :
    LoopRun) 0x11 (2 : Nat) (0 : Nat) ((1 : Nat) * 2 ^ 16 + (9 : Nat)) ∧ (1 : Nat) < 2 ∧ (9 : Nat) < 2 ^ 14) ∧
    (readable (2 : Nat) = true ∧ readable (0 : Nat) = true) ∧ ((9 : Nat) = ((if (1 : Nat) = 1 then 0 else (runA :
    LoopRun).bank) + (9 : Nat) + ((runA : LoopRun).ucRd (0 : Nat) % 2 ^ 14).toNat) % 2 ^ 14)  := by decide +kernel

def wit_MicrowordsBranchStoreAndEnd_5 : State :=
    (ucRun (runA : LoopRun) (0xC1401805) : State)

theorem test_MicrowordsBranchStoreAndEnd_5 :
    (ucAt wit_MicrowordsBranchStoreAndEnd_5 (4 : Fin 8) (runA :
    LoopRun) 0x18 (5 : Nat) 0 (0x1805 : Nat) ∧ (0x1805 : Nat) < 2 ^ 13) ∧ ((5 : Nat) < 9)  := by decide +kernel

def wit_MicrowordsBranchStoreAndEnd_6 : State :=
    (ucRun (runA : LoopRun) (0x19 * 2 ^ 27 + 0x1900) : State)

theorem test_MicrowordsBranchStoreAndEnd_6 :
    (ucAt wit_MicrowordsBranchStoreAndEnd_6 (4 : Fin 8) (runA :
    LoopRun) 0x19 (0 : Nat) 0 (0x1900 : Nat) ∧ (0x1900 : Nat) < 2 ^ 13) ∧ ((0 : Nat) < 9)  := by decide +kernel

def wit_MicrowordsBranchStoreAndEnd_7 : State :=
    ((up []).on (fun h => h.setRun 4 (some
    ({ runA with phase := .frame, scfg := 0x14001 } : LoopRun))) : State)

theorem test_MicrowordsBranchStoreAndEnd_7 :
    (wit_MicrowordsBranchStoreAndEnd_7.hw.runOf (4 : Fin 8) = some
    ({ runA with phase := .frame, scfg := 0x14001 } : LoopRun)) ∧ (({ runA with phase := .frame, scfg := 0x14001 } :
    LoopRun).phase = .frame ∧ ({ runA with phase := .frame, scfg := 0x14001 } : LoopRun).hook = 3 ∧
    ({ runA with phase := .frame, scfg := 0x14001 } : LoopRun).cfg LOOP_SCFG_RAMP = 0 ∧
    ({ runA with phase := .frame, scfg := 0x14001 } : LoopRun).cfg LOOP_SCFG_GTAB = 0) ∧
    (wit_MicrowordsBranchStoreAndEnd_7.hw.clusterRuns (4 : Fin 8) = true) ∧ (((after (exec (.ucCall (4 : Fin 8)
    (⟨false, false⟩ : UcCycle)) wit_MicrowordsBranchStoreAndEnd_7)).hw.runOf (4 : Fin 8)).map (fun q => (q.upc,
    q.stack.length, q.n, q.outv)) = some (({ runA with phase := .frame, scfg := 0x14001 } : LoopRun).uentry, 1, 1,
    ({ runA with phase := .frame, scfg := 0x14001 } : LoopRun).yprev)) ∧ (((after (exec (.ucCall (4 : Fin 8) (⟨false,
    false⟩ : UcCycle)) wit_MicrowordsBranchStoreAndEnd_7)).hw.runOf (4 : Fin 8)).map (fun q => (q.w.getD 1 0, q.w.getD
    2 0, q.w.getD 3 0)) = some (({ runA with phase := .frame, scfg := 0x14001 } : LoopRun).setp,
    ({ runA with phase := .frame, scfg := 0x14001 } : LoopRun).meas, lim40
    (({ runA with phase := .frame, scfg := 0x14001 } : LoopRun).setp - ({ runA with phase := .frame, scfg := 0x14001 }
    : LoopRun).meas)))  := by decide +kernel

def wit_MicrowordsBranchStoreAndEnd_8 : State :=
    (ucRun ({ runA with stack := [0x1900, 0] } : LoopRun)
    (0xD0000000) : State)

theorem test_MicrowordsBranchStoreAndEnd_8 :
    (ucAt wit_MicrowordsBranchStoreAndEnd_8 (4 : Fin 8)
    ({ runA with stack := [0x1900, 0] } : LoopRun) 0x1A (0 : Nat) 0 0) ∧ ((0 : Nat) < 9)  := by decide +kernel

def wit_MicrowordsBranchStoreAndEnd_9 : State :=
    (ucRun ({ runA with queue := [(7, 99)] } : LoopRun) (0x1B * 2
    ^ 27) : State)

theorem test_MicrowordsBranchStoreAndEnd_9 :
    (ucAt wit_MicrowordsBranchStoreAndEnd_9 (4 : Fin 8)
    ({ runA with queue := [(7, 99)] } : LoopRun) 0x1B 0 0 0) ∧ (({ runA with queue := [(7, 99)] } : LoopRun).dl = 0 ∧
    bitsOf ({ runA with queue := [(7, 99)] } : LoopRun).stgt 18 2 = 0 ∧ lim40 ({ runA with queue := [(7, 99)] } :
    LoopRun).outv = ({ runA with queue := [(7, 99)] } : LoopRun).outv) ∧ (({ runA with queue := [(7, 99)] } :
    LoopRun).queue = [((7 : Nat), (99 : Word))] ∧ (7 : Nat) < 16384 ∧ wit_MicrowordsBranchStoreAndEnd_9.hw.swMem = [])
     := by decide +kernel

def wit_MicrowordsBranchStoreAndEnd_10 : State :=
    (ucRun (runA : LoopRun) (0x1C * 2 ^ 27) : State)

theorem test_MicrowordsBranchStoreAndEnd_10 :
    (ucAt wit_MicrowordsBranchStoreAndEnd_10 (4 : Fin 8) (runA :
    LoopRun) 0x1C 0 0 0)  := by decide +kernel

def wit_LoopSlotsRunAndCommit_1 : State :=
    (fly [⟨⟨0, 3⟩, 0x03B, 0⟩] (up [(pLOOP 0, 0, LOOP_CTRL_EN, 1),
    (pLOOP 0, 11, LOOP_SCFG_EN, 1)]) : State)

theorem test_LoopSlotsRunAndCommit_1 :
    (wit_LoopSlotsRunAndCommit_1.hw.slotOn (0 : Fin 8) (11 : Fin 12) =
    true) ∧ (arrives wit_LoopSlotsRunAndCommit_1.hw (⟨0, 3⟩ : Chan) (clCode (0 : Fin 8) (0x030 + (11 : Fin 12).val)) =
    true) ∧ (wit_LoopSlotsRunAndCommit_1.hw.b (pLOOP (0 : Fin 8)) (11 : Fin 12) LOOP_SSTAT_PEND = false → (after (exec
    (.slotTrigger (0 : Fin 8) (11 : Fin 12) ⟨(⟨0, 3⟩ : Chan), none⟩ (100 : Nat)) wit_LoopSlotsRunAndCommit_1)).hw.f
    (pLOOP (0 : Fin 8)) (11 : Fin 12) LOOP_SSTAT_PEND = 1 ∧ (after (exec (.slotTrigger (0 : Fin 8) (11 : Fin 12) ⟨(⟨0,
    3⟩ : Chan), none⟩ (100 : Nat)) wit_LoopSlotsRunAndCommit_1)).hw.heldOf (0 : Fin 8) (11 : Fin 12) = ⟨(100 : Nat),
    wit_LoopSlotsRunAndCommit_1.hw.f (pLOOP (0 : Fin 8)) (11 : Fin 12) LOOP_SDL_DL, none⟩) ∧
    (wit_LoopSlotsRunAndCommit_1.hw.b (pLOOP (0 : Fin 8)) (11 : Fin 12) LOOP_SSTAT_PEND = true ∧
    (wit_LoopSlotsRunAndCommit_1.hw.heldOf (0 : Fin 8) (11 : Fin 12)).edge ≠ (100 : Nat) → (after (exec (.slotTrigger
    (0 : Fin 8) (11 : Fin 12) ⟨(⟨0, 3⟩ : Chan), none⟩ (100 : Nat)) wit_LoopSlotsRunAndCommit_1)).hw.f (pLOOP (0 : Fin
    8)) 0 ⟨5, 12 + (11 : Fin 12).val, 1⟩ = 1 ∧ (after (exec (.slotTrigger (0 : Fin 8) (11 : Fin 12) ⟨(⟨0, 3⟩ : Chan),
    none⟩ (100 : Nat)) wit_LoopSlotsRunAndCommit_1)).hw.heldOf (0 : Fin 8) (11 : Fin 12) =
    wit_LoopSlotsRunAndCommit_1.hw.heldOf (0 : Fin 8) (11 : Fin 12))  := by decide +kernel

def wit_LoopSlotsRunAndCommit_2 : State :=
    ((up [(pLOOP 0, 0, LOOP_CTRL_EN, 1), (pLOOP 0, 4, LOOP_SCFG_EN, 1),
    (pLOOP 0, 4, LOOP_SSRC_TYPE, 5), (pLOOP 0, 4, LOOP_SSRC_IDX, 7)]).wr 0x11C0007 55 : State)

theorem test_LoopSlotsRunAndCommit_2 :
    (accepts wit_LoopSlotsRunAndCommit_2.hw (.core 0 : Requester) (pLOOP (0
    : Fin 8)) = true) ∧ ((16 : Word).toNat % 4096 = 2 ^ (4 : Fin 12).val) ∧ (wit_LoopSlotsRunAndCommit_2.hw.slotOn (0
    : Fin 8) (4 : Fin 12) = true) ∧ (wit_LoopSlotsRunAndCommit_2.hw.b (pLOOP (0 : Fin 8)) (4 : Fin 12) LOOP_SSTAT_PEND
    = false) ∧ ((after (exec (.loopSwtrig (.core 0 : Requester) (0 : Fin 8) (16 : Word) (100 : Nat))
    wit_LoopSlotsRunAndCommit_2)).hw.f (pLOOP (0 : Fin 8)) (4 : Fin 12) LOOP_SSTAT_PEND = 1) ∧ ((after (exec
    (.loopSwtrig (.core 0 : Requester) (0 : Fin 8) (16 : Word) (100 : Nat)) wit_LoopSlotsRunAndCommit_2)).hw.heldOf (0
    : Fin 8) (4 : Fin 12) = ⟨(100 : Nat), wit_LoopSlotsRunAndCommit_2.hw.f (pLOOP (0 : Fin 8)) (4 : Fin 12)
    LOOP_SDL_DL, none⟩)  := by decide +kernel

def wit_LoopSlotsRunAndCommit_3 : State :=
    ((up [(pLOOP 0, 0, LOOP_CTRL_EN, 1), (pLOOP 0, 4, LOOP_SCFG_EN,
    1)]).loopTrigger 0 4 100 : State)

theorem test_LoopSlotsRunAndCommit_3 :
    (wit_LoopSlotsRunAndCommit_3.hw.clusterRuns (0 : Fin 8) = true ∧
    wit_LoopSlotsRunAndCommit_3.hw.b pRST 0 RST_STATUS_PENDING = false) ∧ (wit_LoopSlotsRunAndCommit_3.hw.runOf (0 :
    Fin 8) = none) ∧ (wit_LoopSlotsRunAndCommit_3.hw.nextSlot (0 : Fin 8) (101 : Nat) = some (4 : Fin 12)) ∧ (((after
    (exec (.runStart (0 : Fin 8) (101 : Nat)) wit_LoopSlotsRunAndCommit_3)).hw.runOf (0 : Fin 8)).map (fun q =>
    (q.slot, q.edge, q.dl, q.start)) = some ((4 : Fin 12).val, (wit_LoopSlotsRunAndCommit_3.hw.heldOf (0 : Fin 8) (4 :
    Fin 12)).edge, (wit_LoopSlotsRunAndCommit_3.hw.heldOf (0 : Fin 8) (4 : Fin 12)).dl, (101 : Nat))) ∧ (((after (exec
    (.runStart (0 : Fin 8) (101 : Nat)) wit_LoopSlotsRunAndCommit_3)).hw.runOf (0 : Fin 8)).map (fun q => (q.meas,
    q.setp, q.yprev)) = some (((wit_LoopSlotsRunAndCommit_3.hw.heldOf (0 : Fin 8) (4 : Fin 12)).latch.getD
    (wit_LoopSlotsRunAndCommit_3.loopSource (0 : Fin 8) (4 : Fin 12))).toInt, wit_LoopSlotsRunAndCommit_3.hw.fs (pLOOP
    (0 : Fin 8)) (4 : Fin 12) LOOP_SETP_VALUE, wit_LoopSlotsRunAndCommit_3.hw.fs (pLOOP (0 : Fin 8)) (4 : Fin 12)
    LOOP_YOUT_VALUE)) ∧ (∀ q, (after (exec (.runStart (0 : Fin 8) (101 : Nat)) wit_LoopSlotsRunAndCommit_3)).hw.runOf
    (0 : Fin 8) = some q → (∀ i : Fin 6, q.st0.getD i 0 = wit_LoopSlotsRunAndCommit_3.hw.fs (pLOOP (0 : Fin 8)) (4 :
    Fin 12) (LOOP_ST_VALUE i)) ∧ ∀ i : Fin 128, q.param i = (wit_LoopSlotsRunAndCommit_3.rd (winBase (0 : Fin 8) +
    0x1C0000 + (q.bank + i) % 16384)).toInt) ∧ ((after (exec (.runStart (0 : Fin 8) (101 : Nat))
    wit_LoopSlotsRunAndCommit_3)).hw.f (pLOOP (0 : Fin 8)) (4 : Fin 12) LOOP_SSTAT_PEND = 0 ∧ (after (exec (.runStart
    (0 : Fin 8) (101 : Nat)) wit_LoopSlotsRunAndCommit_3)).hw.f (pLOOP (0 : Fin 8)) (4 : Fin 12) LOOP_SSTAT_RUN = 1) ∧
    ((after (exec (.runStart (0 : Fin 8) (101 : Nat)) wit_LoopSlotsRunAndCommit_3)).hw.f (pLOOP (0 : Fin 8)) 0
    LOOP_STATUS_RUN_SLOT = (4 : Fin 12).val)  := by decide +kernel

def wit_LoopSlotsRunAndCommit_4 : State :=
    ((up [(pLOOP 0, 0, LOOP_CTRL_EN, 1), (pLOOP 0, 4, LOOP_SCFG_EN, 1),
    (pLOOP 0, 4, LOOP_SDL_DL, 93)]).loopTrigger 0 4 100 : State)

theorem test_LoopSlotsRunAndCommit_4 :
    (wit_LoopSlotsRunAndCommit_4.hw.clusterRuns (0 : Fin 8) = true) ∧
    (wit_LoopSlotsRunAndCommit_4.hw.b (pLOOP (0 : Fin 8)) (4 : Fin 12) LOOP_SSTAT_PEND = true) ∧
    ((wit_LoopSlotsRunAndCommit_4.hw.heldOf (0 : Fin 8) (4 : Fin 12)).dl ≠ 0) ∧ ((after (exec (.deadlineMiss (0 : Fin
    8) (4 : Fin 12) true) wit_LoopSlotsRunAndCommit_4)).hw.f (pLOOP (0 : Fin 8)) (4 : Fin 12) LOOP_SSTAT_PEND = 0 ∧
    (after (exec (.deadlineMiss (0 : Fin 8) (4 : Fin 12) true) wit_LoopSlotsRunAndCommit_4)).hw.f (pLOOP (0 : Fin 8))
    (4 : Fin 12) LOOP_SSTAT_MISS = 1) ∧ ((after (exec (.deadlineMiss (0 : Fin 8) (4 : Fin 12) true)
    wit_LoopSlotsRunAndCommit_4)).hw.f (pLOOP (0 : Fin 8)) (4 : Fin 12) LOOP_SSTAT_MISS_CNT = min 255
    (wit_LoopSlotsRunAndCommit_4.hw.f (pLOOP (0 : Fin 8)) (4 : Fin 12) LOOP_SSTAT_MISS_CNT + 1)) ∧ ((after (exec
    (.deadlineMiss (0 : Fin 8) (4 : Fin 12) true) wit_LoopSlotsRunAndCommit_4)).hw.f (pLOOP (0 : Fin 8)) 0 ⟨5, (4 :
    Fin 12), 1⟩ = 1) ∧ ((after (exec (.deadlineMiss (0 : Fin 8) (4 : Fin 12) true)
    wit_LoopSlotsRunAndCommit_4)).hw.runOf (0 : Fin 8) = wit_LoopSlotsRunAndCommit_4.hw.runOf (0 : Fin 8))
     := by decide +kernel

def wit_LoopSlotsRunAndCommit_5 : State :=
    ((up []).on (fun h => h.setRun 4 (some ({ runA with dl := 9 } :
    LoopRun))) : State)

theorem test_LoopSlotsRunAndCommit_5 :
    (wit_LoopSlotsRunAndCommit_5.hw.clusterRuns (4 : Fin 8) = true) ∧
    (wit_LoopSlotsRunAndCommit_5.hw.runOf (4 : Fin 8) = some ({ runA with dl := 9 } : LoopRun)) ∧
    (({ runA with dl := 9 } : LoopRun).slot = (3 : Fin 12).val ∧ ({ runA with dl := 9 } : LoopRun).dl ≠ 0)
     := by decide +kernel

def wit_LoopSlotsRunAndCommit_6 : State :=
    ((up []).on (fun h => h.setRun 0 (some
    ({ runB 0x4001 0x80009 with st0 := [0x58000000], par := [0x40000000, 0x1000000] } : LoopRun))) : State)

theorem test_LoopSlotsRunAndCommit_6 :
    (wit_LoopSlotsRunAndCommit_6.hw.runOf (0 : Fin 8) = some
    ({ runB 0x4001 0x80009 with st0 := [0x58000000], par := [0x40000000, 0x1000000] } : LoopRun)) ∧
    (wit_LoopSlotsRunAndCommit_6.hw.clusterRuns (0 : Fin 8) = true) ∧
    (({ runB 0x4001 0x80009 with st0 := [0x58000000], par := [0x40000000, 0x1000000] } : LoopRun).phase = .frame ∧
    ({ runB 0x4001 0x80009 with st0 := [0x58000000], par := [0x40000000, 0x1000000] } : LoopRun).hook = 0 ∧
    ({ runB 0x4001 0x80009 with st0 := [0x58000000], par := [0x40000000, 0x1000000] } : LoopRun).dl = 0 ∧
    ({ runB 0x4001 0x80009 with st0 := [0x58000000], par := [0x40000000, 0x1000000] } : LoopRun).queue = [] ∧
    ({ runB 0x4001 0x80009 with st0 := [0x58000000], par := [0x40000000, 0x1000000] } : LoopRun).st.getD 0 none =
    none) ∧ (({ runB 0x4001 0x80009 with st0 := [0x58000000], par := [0x40000000, 0x1000000] } : LoopRun).cfg
    LOOP_SCFG_LAW = 1 ∧ ({ runB 0x4001 0x80009 with st0 := [0x58000000], par := [0x40000000, 0x1000000] } :
    LoopRun).cfg LOOP_SCFG_RAMP = 0 ∧
    ({ runB 0x4001 0x80009 with st0 := [0x58000000], par := [0x40000000, 0x1000000] } : LoopRun).cfg LOOP_SCFG_GTAB =
    0 ∧ ({ runB 0x4001 0x80009 with st0 := [0x58000000], par := [0x40000000, 0x1000000] } : LoopRun).cfg
    LOOP_SCFG_CLAMP = 0 ∧ ({ runB 0x4001 0x80009 with st0 := [0x58000000], par := [0x40000000, 0x1000000] } :
    LoopRun).cfg LOOP_SCFG_OSCALE = 0 ∧
    ({ runB 0x4001 0x80009 with st0 := [0x58000000], par := [0x40000000, 0x1000000] } : LoopRun).cfg LOOP_SCFG_CASC =
    0) ∧ (bitsOf ({ runB 0x4001 0x80009 with st0 := [0x58000000], par := [0x40000000, 0x1000000] } : LoopRun).stgt 18
    2 = 2 ∧ wit_LoopSlotsRunAndCommit_6.hw.swAt = [] ∧ wit_LoopSlotsRunAndCommit_6.hw.swMem = []) ∧ ((0x11C0009 : Nat)
    = winBase (0 : Fin 8) + 0x1C0000 + bitsOf
    ({ runB 0x4001 0x80009 with st0 := [0x58000000], par := [0x40000000, 0x1000000] } : LoopRun).stgt 0 14) ∧
    ((0x20000000 : Int) = lim40 (({ runB 0x4001 0x80009 with st0 := [0x58000000], par := [0x40000000, 0x1000000] } :
    LoopRun).setp - ({ runB 0x4001 0x80009 with st0 := [0x58000000], par := [0x40000000, 0x1000000] } :
    LoopRun).meas)) ∧ ((1749024768 : Int) = lim40 (lim40
    ((({ runB 0x4001 0x80009 with st0 := [0x58000000], par := [0x40000000, 0x1000000] } : LoopRun).param 0 *
    (0x20000000 : Int) + 2 ^ 30) / 2 ^ 31) + lim40
    (({ runB 0x4001 0x80009 with st0 := [0x58000000], par := [0x40000000, 0x1000000] } : LoopRun).st0.getD 0 0 + lim40
    ((({ runB 0x4001 0x80009 with st0 := [0x58000000], par := [0x40000000, 0x1000000] } : LoopRun).param 1 *
    (0x20000000 : Int) + 2 ^ 30) / 2 ^ 31))))  := by decide +kernel

def wit_LoopSlotsRunAndCommit_7 : State :=
    ((up []).on (fun h => h.setRun 0 (some
    ({ runB 0x84001 0 with st0 := [0x58000000], par := [0x40000000, 0x1000000, 0, 0, 0, 0, 0, 0, 0x60000000] } :
    LoopRun))) : State)

theorem test_LoopSlotsRunAndCommit_7 :
    (wit_LoopSlotsRunAndCommit_7.hw.runOf (0 : Fin 8) = some
    ({ runB 0x84001 0 with st0 := [0x58000000], par := [0x40000000, 0x1000000, 0, 0, 0, 0, 0, 0, 0x60000000] } :
    LoopRun)) ∧ (wit_LoopSlotsRunAndCommit_7.hw.clusterRuns (0 : Fin 8) = true) ∧
    (({ runB 0x84001 0 with st0 := [0x58000000], par := [0x40000000, 0x1000000, 0, 0, 0, 0, 0, 0, 0x60000000] } :
    LoopRun).phase = .frame ∧
    ({ runB 0x84001 0 with st0 := [0x58000000], par := [0x40000000, 0x1000000, 0, 0, 0, 0, 0, 0, 0x60000000] } :
    LoopRun).hook = 0 ∧
    ({ runB 0x84001 0 with st0 := [0x58000000], par := [0x40000000, 0x1000000, 0, 0, 0, 0, 0, 0, 0x60000000] } :
    LoopRun).dl = 0 ∧
    ({ runB 0x84001 0 with st0 := [0x58000000], par := [0x40000000, 0x1000000, 0, 0, 0, 0, 0, 0, 0x60000000] } :
    LoopRun).queue = [] ∧
    ({ runB 0x84001 0 with st0 := [0x58000000], par := [0x40000000, 0x1000000, 0, 0, 0, 0, 0, 0, 0x60000000] } :
    LoopRun).st.getD 0 none = none) ∧
    (({ runB 0x84001 0 with st0 := [0x58000000], par := [0x40000000, 0x1000000, 0, 0, 0, 0, 0, 0, 0x60000000] } :
    LoopRun).cfg LOOP_SCFG_LAW = 1 ∧
    ({ runB 0x84001 0 with st0 := [0x58000000], par := [0x40000000, 0x1000000, 0, 0, 0, 0, 0, 0, 0x60000000] } :
    LoopRun).cfg LOOP_SCFG_RAMP = 0 ∧
    ({ runB 0x84001 0 with st0 := [0x58000000], par := [0x40000000, 0x1000000, 0, 0, 0, 0, 0, 0, 0x60000000] } :
    LoopRun).cfg LOOP_SCFG_GTAB = 0 ∧
    ({ runB 0x84001 0 with st0 := [0x58000000], par := [0x40000000, 0x1000000, 0, 0, 0, 0, 0, 0, 0x60000000] } :
    LoopRun).cfg LOOP_SCFG_CLAMP = 1 ∧
    ({ runB 0x84001 0 with st0 := [0x58000000], par := [0x40000000, 0x1000000, 0, 0, 0, 0, 0, 0, 0x60000000] } :
    LoopRun).cfg LOOP_SCFG_OSCALE = 0 ∧
    ({ runB 0x84001 0 with st0 := [0x58000000], par := [0x40000000, 0x1000000, 0, 0, 0, 0, 0, 0, 0x60000000] } :
    LoopRun).cfg LOOP_SCFG_CASC = 0) ∧ (bitsOf
    ({ runB 0x84001 0 with st0 := [0x58000000], par := [0x40000000, 0x1000000, 0, 0, 0, 0, 0, 0, 0x60000000] } :
    LoopRun).stgt 18 2 = 0 ∧ wit_LoopSlotsRunAndCommit_7.hw.swAt = []) ∧ ((0x20000000 : Int) = lim40
    (({ runB 0x84001 0 with st0 := [0x58000000], par := [0x40000000, 0x1000000, 0, 0, 0, 0, 0, 0, 0x60000000] } :
    LoopRun).setp -
    ({ runB 0x84001 0 with st0 := [0x58000000], par := [0x40000000, 0x1000000, 0, 0, 0, 0, 0, 0, 0x60000000] } :
    LoopRun).meas) ∧ 0 < (0x20000000 : Int)) ∧
    (({ runB 0x84001 0 with st0 := [0x58000000], par := [0x40000000, 0x1000000, 0, 0, 0, 0, 0, 0, 0x60000000] } :
    LoopRun).param 7 ≤
    ({ runB 0x84001 0 with st0 := [0x58000000], par := [0x40000000, 0x1000000, 0, 0, 0, 0, 0, 0, 0x60000000] } :
    LoopRun).param 8 ∧
    ({ runB 0x84001 0 with st0 := [0x58000000], par := [0x40000000, 0x1000000, 0, 0, 0, 0, 0, 0, 0x60000000] } :
    LoopRun).param 8 < lim40 (lim40
    ((({ runB 0x84001 0 with st0 := [0x58000000], par := [0x40000000, 0x1000000, 0, 0, 0, 0, 0, 0, 0x60000000] } :
    LoopRun).param 0 * (0x20000000 : Int) + 2 ^ 30) / 2 ^ 31) + lim40
    (({ runB 0x84001 0 with st0 := [0x58000000], par := [0x40000000, 0x1000000, 0, 0, 0, 0, 0, 0, 0x60000000] } :
    LoopRun).st0.getD 0 0 + lim40
    ((({ runB 0x84001 0 with st0 := [0x58000000], par := [0x40000000, 0x1000000, 0, 0, 0, 0, 0, 0, 0x60000000] } :
    LoopRun).param 1 * (0x20000000 : Int) + 2 ^ 30) / 2 ^ 31)))) ∧ ((after (exec (.ucEnd (0 : Fin 8) (0 : Nat) (false
    : Bool)) wit_LoopSlotsRunAndCommit_7)).hw.fs (pLOOP (0 : Fin 8))
    ({ runB 0x84001 0 with st0 := [0x58000000], par := [0x40000000, 0x1000000, 0, 0, 0, 0, 0, 0, 0x60000000] } :
    LoopRun).slot LOOP_YOUT_VALUE =
    ({ runB 0x84001 0 with st0 := [0x58000000], par := [0x40000000, 0x1000000, 0, 0, 0, 0, 0, 0, 0x60000000] } :
    LoopRun).param 8) ∧ ((after (exec (.ucEnd (0 : Fin 8) (0 : Nat) (false : Bool))
    wit_LoopSlotsRunAndCommit_7)).hw.fs (pLOOP (0 : Fin 8))
    ({ runB 0x84001 0 with st0 := [0x58000000], par := [0x40000000, 0x1000000, 0, 0, 0, 0, 0, 0, 0x60000000] } :
    LoopRun).slot (LOOP_ST_VALUE 0) = min (max
    (({ runB 0x84001 0 with st0 := [0x58000000], par := [0x40000000, 0x1000000, 0, 0, 0, 0, 0, 0, 0x60000000] } :
    LoopRun).st0.getD 0 0)
    (({ runB 0x84001 0 with st0 := [0x58000000], par := [0x40000000, 0x1000000, 0, 0, 0, 0, 0, 0, 0x60000000] } :
    LoopRun).param 7))
    (({ runB 0x84001 0 with st0 := [0x58000000], par := [0x40000000, 0x1000000, 0, 0, 0, 0, 0, 0, 0x60000000] } :
    LoopRun).param 8)) ∧ ((after (exec (.ucEnd (0 : Fin 8) (0 : Nat) (false : Bool))
    wit_LoopSlotsRunAndCommit_7)).hw.f (pLOOP (0 : Fin 8))
    ({ runB 0x84001 0 with st0 := [0x58000000], par := [0x40000000, 0x1000000, 0, 0, 0, 0, 0, 0, 0x60000000] } :
    LoopRun).slot LOOP_SSTAT_CLAMP_HI = 1)  := by decide +kernel

def wit_LoopSlotsRunAndCommit_8 : State :=
    ((up [(pLOOP 0, 0x30, ⟨8, 0, 12⟩, 4), (pLOOP 0, 0, LOOP_CTRL_EN,
    1), (pLOOP 0, 4, LOOP_SCFG_EN, 1)]).loopTrigger 0 4 100 : State)

theorem test_LoopSlotsRunAndCommit_8 :
    (accepts wit_LoopSlotsRunAndCommit_8.hw (.host : Requester) (pLOOP (0 :
    Fin 8)) = true) ∧ (wit_LoopSlotsRunAndCommit_8.hw.chsel (pLOOP (0 : Fin 8)) (.host : Requester) = (4 : Fin
    12).val) ∧ ((after (exec (.slotConfigWrite (.host : Requester) (0 : Fin 8) 0 (0 : Word))
    wit_LoopSlotsRunAndCommit_8)).hw.f (pLOOP (0 : Fin 8)) (4 : Fin 12) LOOP_SCFG_EN = bitsOf (0 : Word).toNat 0 1 ∧
    (after (exec (.slotConfigWrite (.host : Requester) (0 : Fin 8) 0 (0 : Word)) wit_LoopSlotsRunAndCommit_8)).hw.f
    (pLOOP (0 : Fin 8)) (4 : Fin 12) LOOP_SCFG_LAW = bitsOf (0 : Word).toNat 14 3) ∧ (6 ≤ bitsOf (0 : Word).toNat 14 3
    → (after (exec (.slotConfigWrite (.host : Requester) (0 : Fin 8) 0 (0 : Word)) wit_LoopSlotsRunAndCommit_8)).hw.f
    (pLOOP (0 : Fin 8)) (4 : Fin 12) LOOP_SSTAT_CFG_ERR = 1 ∧ (after (exec (.slotConfigWrite (.host : Requester) (0 :
    Fin 8) 0 (0 : Word)) wit_LoopSlotsRunAndCommit_8)).hw.f (pLOOP (0 : Fin 8)) (4 : Fin 12) LOOP_SSTAT_PEND = 0) ∧
    (wit_LoopSlotsRunAndCommit_8.hw.b (pLOOP (0 : Fin 8)) (4 : Fin 12) LOOP_SCFG_EN = true ∧ bitOf (0 : Word).toNat 0
    = false → (after (exec (.slotConfigWrite (.host : Requester) (0 : Fin 8) 0 (0 : Word))
    wit_LoopSlotsRunAndCommit_8)).hw.f (pLOOP (0 : Fin 8)) (4 : Fin 12) LOOP_SSTAT_PEND = 0 ∧ (after (exec
    (.slotConfigWrite (.host : Requester) (0 : Fin 8) 0 (0 : Word)) wit_LoopSlotsRunAndCommit_8)).hw.f (pLOOP (0 : Fin
    8)) (4 : Fin 12) LOOP_SSTAT_MISS = wit_LoopSlotsRunAndCommit_8.hw.f (pLOOP (0 : Fin 8)) (4 : Fin 12)
    LOOP_SSTAT_MISS) ∧ (wit_LoopSlotsRunAndCommit_8.hw.b (pLOOP (0 : Fin 8)) (4 : Fin 12) LOOP_SCFG_EN = false ∧ bitOf
    (0 : Word).toNat 0 = true → (after (exec (.slotConfigWrite (.host : Requester) (0 : Fin 8) 0 (0 : Word))
    wit_LoopSlotsRunAndCommit_8)).hw.f (pLOOP (0 : Fin 8)) (4 : Fin 12) LOOP_SSTAT_FIRST = 1)  := by decide +kernel

def wit_LoopSlotsRunAndCommit_9 : State :=
    (up [(pLOOP 0, 4, LOOP_SSTAT_FIRST, 0)] : State)

theorem test_LoopSlotsRunAndCommit_9 :
    (accepts wit_LoopSlotsRunAndCommit_9.hw (.host : Requester) (pLOOP (0 :
    Fin 8)) = true) ∧ ((after (exec (.loopReseed (.host : Requester) (0 : Fin 8) (16 : Word))
    wit_LoopSlotsRunAndCommit_9)).hw.f (pLOOP (0 : Fin 8)) (4 : Fin 12) LOOP_SSTAT_FIRST = (if bitOf (16 : Word).toNat
    (4 : Fin 12) then 1 else wit_LoopSlotsRunAndCommit_9.hw.f (pLOOP (0 : Fin 8)) (4 : Fin 12) LOOP_SSTAT_FIRST))
     := by decide +kernel

def wit_LoopSlotsRunAndCommit_10 : State :=
    (up [(pLOOP 0, 4, LOOP_LAT_MAX, 77)] : State)

theorem test_LoopSlotsRunAndCommit_10 :
    (accepts wit_LoopSlotsRunAndCommit_10.hw (.host : Requester) (pLOOP (0
    : Fin 8)) = true) ∧ ((after (exec (.latClear (.host : Requester) (0 : Fin 8) (16 : Word))
    wit_LoopSlotsRunAndCommit_10)).hw.f (pLOOP (0 : Fin 8)) (4 : Fin 12) LOOP_LAT_MAX = (if bitOf (16 : Word).toNat (4
    : Fin 12) then 0 else wit_LoopSlotsRunAndCommit_10.hw.f (pLOOP (0 : Fin 8)) (4 : Fin 12) LOOP_LAT_MAX)) ∧ ((after
    (exec (.latClear (.host : Requester) (0 : Fin 8) (16 : Word)) wit_LoopSlotsRunAndCommit_10)).hw.f (pLOOP (0 : Fin
    8)) (4 : Fin 12) LOOP_LAT_LAST = wit_LoopSlotsRunAndCommit_10.hw.f (pLOOP (0 : Fin 8)) (4 : Fin 12) LOOP_LAT_LAST)
     := by decide +kernel

def wit_LoopSlotsRunAndCommit_11 : State :=
    (up [(pLOOPUC 0, 0, LOOP_UC_CTRL_UC_WEN, 1), (pLOOPUC 0, 0x30,
    LOOP_UC_UC_ADDR_ADDR, 0x1FFF)] : State)

theorem test_LoopSlotsRunAndCommit_11 :
    (accepts wit_LoopSlotsRunAndCommit_11.hw (.host : Requester) (pLOOPUC
    (0 : Fin 8)) = true) ∧ (wit_LoopSlotsRunAndCommit_11.hw.b (pLOOPUC (0 : Fin 8)) 0 LOOP_UC_CTRL_UC_WEN = true) ∧
    (wit_LoopSlotsRunAndCommit_11.hw.f (pLOOPUC (0 : Fin 8)) (.host : Requester).bank LOOP_UC_UC_ADDR_ADDR = (0x1FFF :
    Nat) ∧ 0x1800 ≤ (0x1FFF : Nat)) ∧ ((after (exec (.ucDataWrite (.host : Requester) (0 : Fin 8) (0x81400051 : Word))
    wit_LoopSlotsRunAndCommit_11)).hw.ucWord (0 : Fin 8) (0x1FFF : Nat) = (0x81400051 : Word).toNat % 2 ^ 32) ∧
    ((after (exec (.ucDataWrite (.host : Requester) (0 : Fin 8) (0x81400051 : Word))
    wit_LoopSlotsRunAndCommit_11)).hw.f (pLOOPUC (0 : Fin 8)) (.host : Requester).bank LOOP_UC_UC_ADDR_ADDR = (if
    (0x1FFF : Nat) = 0x1FFF then 0x1800 else (0x1FFF : Nat) + 1))  := by decide +kernel

def wit_LoopSlotsRunAndCommit_12 : State :=
    ((up []).on (fun h => { h with uc := h.uc.set 0 0x1800 0x123 }) :
    State)

theorem test_LoopSlotsRunAndCommit_12 :
    (wit_LoopSlotsRunAndCommit_12.hw.mayRead
    (wit_LoopSlotsRunAndCommit_12.hw.acc (.host : Requester)) (pLOOPUC (0 : Fin 8)) = true) ∧
    (wit_LoopSlotsRunAndCommit_12.hw.f (pLOOPUC (0 : Fin 8)) (.host : Requester).bank LOOP_UC_UC_ADDR_ADDR = (0x1800 :
    Nat)) ∧ ((after (exec (.ucDataRead (.host : Requester) (0 : Fin 8)) wit_LoopSlotsRunAndCommit_12)).hw.resp = [if
    (0x1800 : Nat) < 0x1800 then 0 else w40 (wit_LoopSlotsRunAndCommit_12.hw.ucWord (0 : Fin 8) (0x1800 : Nat))]) ∧
    ((after (exec (.ucDataRead (.host : Requester) (0 : Fin 8)) wit_LoopSlotsRunAndCommit_12)).hw.f (pLOOPUC (0 : Fin
    8)) (.host : Requester).bank LOOP_UC_UC_ADDR_ADDR = (if (0x1800 : Nat) = 0x1FFF then 0x1800 else (0x1800 : Nat) +
    1))  := by decide +kernel

def wit_TimebasesCountLoadAndSync_1 : State :=
    (up [(pPWMTB 2, 1, PWM_TB_PRD_COUNT, 3), (pPWMCH 2, 4,
    PWM_CH_CMPA_COUNT, 1234)] : State)

theorem test_TimebasesCountLoadAndSync_1 :
    (accepts wit_TimebasesCountLoadAndSync_1.hw (.host : Requester)
    (pPWMTB (2 : Fin 8)) = true) ∧ ((2 : Word).toNat % 256 = 2 ^ (1 : Fin 4).val) ∧
    (wit_TimebasesCountLoadAndSync_1.hw.b (pPWMTB (2 : Fin 8)) (1 : Fin 4) PWM_TB_TBCFG_EN = false ∧
    wit_TimebasesCountLoadAndSync_1.hw.b (pPWMTB (2 : Fin 8)) (1 : Fin 4) PWM_TB_TBCFG_DALIGN = false) ∧ ((after (exec
    (.timebaseStart (.host : Requester) (2 : Fin 8) (2 : Word)) wit_TimebasesCountLoadAndSync_1)).hw.f (pPWMTB (2 :
    Fin 8)) (1 : Fin 4) PWM_TB_TBCFG_EN = 1) ∧ ((after (exec (.timebaseStart (.host : Requester) (2 : Fin 8) (2 :
    Word)) wit_TimebasesCountLoadAndSync_1)).hw.cnt (2 : Fin 8) (1 : Fin 4) = 0 ∧ (after (exec (.timebaseStart (.host
    : Requester) (2 : Fin 8) (2 : Word)) wit_TimebasesCountLoadAndSync_1)).hw.down (2 : Fin 8) (1 : Fin 4) = false) ∧
    ((after (exec (.timebaseStart (.host : Requester) (2 : Fin 8) (2 : Word))
    wit_TimebasesCountLoadAndSync_1)).hw.period (2 : Fin 8) (1 : Fin 4) = min 8388607 (max
    wit_TimebasesCountLoadAndSync_1.hw.prdFloor (wit_TimebasesCountLoadAndSync_1.hw.f (pPWMTB (2 : Fin 8)) (1 : Fin 4)
    PWM_TB_PRD_COUNT))) ∧ (∀ j : Fin 3, (after (exec (.timebaseStart (.host : Requester) (2 : Fin 8) (2 : Word))
    wit_TimebasesCountLoadAndSync_1)).hw.f (pPWMCH (2 : Fin 8)) (3 * (1 : Fin 4) + j) PWM_CH_CMPA_ACT_VALUE = bitsOf
    (wit_TimebasesCountLoadAndSync_1.hw.reg (pPWMCH (2 : Fin 8)) 0x11 (3 * (1 : Fin 4) + j)).toNat 10 30) ∧ (∀ j : Fin
    3, (after (exec (.timebaseStart (.host : Requester) (2 : Fin 8) (2 : Word))
    wit_TimebasesCountLoadAndSync_1)).hw.ref (2 : Fin 8) (3 * (1 : Fin 4) + j) = decide (0 < sx 30 (bitsOf
    (wit_TimebasesCountLoadAndSync_1.hw.reg (pPWMCH (2 : Fin 8)) 0x11 (3 * (1 : Fin 4) + j)).toNat 10 30)))
     := by decide +kernel

def wit_TimebasesCountLoadAndSync_2 : State :=
    (up [(pPWMTB 2, 1, PWM_TB_TBCFG_EN, 1), (pPWMTB 2, 1,
    PWM_TB_TSTAT_CNT, 77), (pPWMCH 2, 4, PWM_CH_CHSTAT_REF, 1), (pPWMCH 2, 4, PWM_CH_OCFG_H_SAFE, 1)] : State)

theorem test_TimebasesCountLoadAndSync_2 :
    (accepts wit_TimebasesCountLoadAndSync_2.hw (.host : Requester)
    (pPWMTB (2 : Fin 8)) = true) ∧ ((32 : Word).toNat % 256 = 16 * 2 ^ (1 : Fin 4).val) ∧
    (wit_TimebasesCountLoadAndSync_2.hw.b (pPWMTB (2 : Fin 8)) (1 : Fin 4) PWM_TB_TBCFG_EN = true) ∧ ((after (exec
    (.timebaseStop (.host : Requester) (2 : Fin 8) (32 : Word)) wit_TimebasesCountLoadAndSync_2)).hw.f (pPWMTB (2 :
    Fin 8)) (1 : Fin 4) PWM_TB_TBCFG_EN = 0) ∧ ((after (exec (.timebaseStop (.host : Requester) (2 : Fin 8) (32 :
    Word)) wit_TimebasesCountLoadAndSync_2)).hw.cnt (2 : Fin 8) (1 : Fin 4) = wit_TimebasesCountLoadAndSync_2.hw.cnt
    (2 : Fin 8) (1 : Fin 4) ∧ (after (exec (.timebaseStop (.host : Requester) (2 : Fin 8) (32 : Word))
    wit_TimebasesCountLoadAndSync_2)).hw.down (2 : Fin 8) (1 : Fin 4) = wit_TimebasesCountLoadAndSync_2.hw.down (2 :
    Fin 8) (1 : Fin 4)) ∧ (∀ j : Fin 3, (after (exec (.timebaseStop (.host : Requester) (2 : Fin 8) (32 : Word))
    wit_TimebasesCountLoadAndSync_2)).hw.ref (2 : Fin 8) (3 * (1 : Fin 4) + j) =
    wit_TimebasesCountLoadAndSync_2.hw.ref (2 : Fin 8) (3 * (1 : Fin 4) + j)) ∧ (ballsSafe (after (exec (.timebaseStop
    (.host : Requester) (2 : Fin 8) (32 : Word)) wit_TimebasesCountLoadAndSync_2)).hw (2 : Fin 8) (1 : Fin 4) = true)
     := by decide +kernel

def wit_TimebasesCountLoadAndSync_3 : State :=
    (up [(pPWMTB 2, 1, PWM_TB_TBCFG_EN, 1), (pPWMTB 2, 1,
    PWM_TB_TBCFG_LOAD_AT, 2), (pPWMTB 2, 1, PWM_TB_TSTAT_CNT, 1), (pPWMTB 2, 1, PWM_TB_TSTAT_DIR, 1), (pPWMCH 2, 4,
    PWM_CH_CMPA_ACT_VALUE, 5)] : State)

theorem test_TimebasesCountLoadAndSync_3 :
    (wit_TimebasesCountLoadAndSync_3.hw.tbRuns (2 : Fin 8) (1 : Fin 4)
    = true ∧ wit_TimebasesCountLoadAndSync_3.hw.down (2 : Fin 8) (1 : Fin 4) = true) ∧
    (wit_TimebasesCountLoadAndSync_3.hw.b (pPWMTB (2 : Fin 8)) (1 : Fin 4) PWM_TB_TBCFG_DALIGN = false) ∧
    (wit_TimebasesCountLoadAndSync_3.hw.f (pPWMTB (2 : Fin 8)) (1 : Fin 4) PWM_TB_TBCFG_LOAD_AT = 2) ∧ ((after (exec
    (.zeroPoint (2 : Fin 8) (1 : Fin 4) ()) wit_TimebasesCountLoadAndSync_3)).hw.cnt (2 : Fin 8) (1 : Fin 4) = (if
    (wit_TimebasesCountLoadAndSync_3.hw.tb (2 : Fin 8) (1 : Fin 4)).adj < 0 then 1 else 0) ∧ (after (exec (.zeroPoint
    (2 : Fin 8) (1 : Fin 4) ()) wit_TimebasesCountLoadAndSync_3)).hw.down (2 : Fin 8) (1 : Fin 4) = false) ∧ (∀ j :
    Fin 3, (after (exec (.zeroPoint (2 : Fin 8) (1 : Fin 4) ()) wit_TimebasesCountLoadAndSync_3)).hw.ref (2 : Fin 8)
    (3 * (1 : Fin 4) + j) = decide (0 < wit_TimebasesCountLoadAndSync_3.hw.cmpVal (2 : Fin 8) (3 * (1 : Fin 4) + j)
    false)) ∧ ((after (exec (.zeroPoint (2 : Fin 8) (1 : Fin 4) ()) wit_TimebasesCountLoadAndSync_3)).hw.period (2 :
    Fin 8) (1 : Fin 4) = wit_TimebasesCountLoadAndSync_3.hw.period (2 : Fin 8) (1 : Fin 4))  := by decide +kernel

def wit_TimebasesCountLoadAndSync_4 : State :=
    (up [(pPWMTB 2, 1, PWM_TB_TBCFG_EN, 1), (pPWMTB 2, 1,
    PWM_TB_TSTAT_CSTATE, 1), (pPWMTB 2, 1, PWM_TB_TSTAT_DIR, 1), (pPWMTB 2, 1, PWM_TB_PRD_COUNT, 4000), (pPWMCH 2, 4,
    PWM_CH_CMPA_COUNT, 3600)] : State)

theorem test_TimebasesCountLoadAndSync_4 :
    (wit_TimebasesCountLoadAndSync_4.hw.tbRuns (2 : Fin 8) (1 : Fin 4)
    = true ∧ wit_TimebasesCountLoadAndSync_4.hw.down (2 : Fin 8) (1 : Fin 4) = true) ∧
    (wit_TimebasesCountLoadAndSync_4.hw.b (pPWMTB (2 : Fin 8)) (1 : Fin 4) PWM_TB_TBCFG_DALIGN = false) ∧
    (wit_TimebasesCountLoadAndSync_4.hw.f (pPWMTB (2 : Fin 8)) (1 : Fin 4) PWM_TB_TBCFG_LOAD_AT ≠ 2) ∧
    (wit_TimebasesCountLoadAndSync_4.hw.lmode (2 : Fin 8) (1 : Fin 4) = false ∧
    wit_TimebasesCountLoadAndSync_4.hw.committed (2 : Fin 8) (1 : Fin 4) = true) ∧ ((after (exec (.zeroPoint (2 : Fin
    8) (1 : Fin 4) ()) wit_TimebasesCountLoadAndSync_4)).hw.f (pPWMTB (2 : Fin 8)) (1 : Fin 4) PWM_TB_TSTAT_CSTATE =
    0) ∧ ((after (exec (.zeroPoint (2 : Fin 8) (1 : Fin 4) ()) wit_TimebasesCountLoadAndSync_4)).hw.period (2 : Fin 8)
    (1 : Fin 4) = min 8388607 (max wit_TimebasesCountLoadAndSync_4.hw.prdFloor (wit_TimebasesCountLoadAndSync_4.hw.f
    (pPWMTB (2 : Fin 8)) (1 : Fin 4) PWM_TB_PRD_COUNT))) ∧ (∀ j : Fin 3, (after (exec (.zeroPoint (2 : Fin 8) (1 : Fin
    4) ()) wit_TimebasesCountLoadAndSync_4)).hw.f (pPWMCH (2 : Fin 8)) (3 * (1 : Fin 4) + j) PWM_CH_CMPA_ACT_VALUE =
    bitsOf (wit_TimebasesCountLoadAndSync_4.hw.reg (pPWMCH (2 : Fin 8)) 0x11 (3 * (1 : Fin 4) + j)).toNat 10 30) ∧
    ((after (exec (.zeroPoint (2 : Fin 8) (1 : Fin 4) ()) wit_TimebasesCountLoadAndSync_4)).hw.f (pPWMTB (2 : Fin 8))
    0 ⟨5, 8 * (1 : Fin 4), 1⟩ = 1)  := by decide +kernel

def wit_TimebasesCountLoadAndSync_5 : State :=
    (up [(pPWMTB 2, 1, PWM_TB_TBCFG_EN, 1), (pPWMTB 2, 1,
    PWM_TB_TSTAT_CNT, 4999), (pPWMCH 2, 4, PWM_CH_CMPA_ACT_VALUE, 320000)] : State)

theorem test_TimebasesCountLoadAndSync_5 :
    (wit_TimebasesCountLoadAndSync_5.hw.tbRuns (2 : Fin 8) (1 : Fin 4)
    = true ∧ wit_TimebasesCountLoadAndSync_5.hw.down (2 : Fin 8) (1 : Fin 4) = false) ∧
    (wit_TimebasesCountLoadAndSync_5.hw.f (pPWMTB (2 : Fin 8)) (1 : Fin 4) PWM_TB_TBCFG_LOAD_AT < 2) ∧ ((after (exec
    (.periodPoint (2 : Fin 8) (1 : Fin 4)) wit_TimebasesCountLoadAndSync_5)).hw.cnt (2 : Fin 8) (1 : Fin 4) =
    wit_TimebasesCountLoadAndSync_5.hw.period (2 : Fin 8) (1 : Fin 4) ∧ (after (exec (.periodPoint (2 : Fin 8) (1 :
    Fin 4)) wit_TimebasesCountLoadAndSync_5)).hw.down (2 : Fin 8) (1 : Fin 4) = true) ∧ (∀ j : Fin 3, (after (exec
    (.periodPoint (2 : Fin 8) (1 : Fin 4)) wit_TimebasesCountLoadAndSync_5)).hw.ref (2 : Fin 8) (3 * (1 : Fin 4) + j)
    = decide (64 * (wit_TimebasesCountLoadAndSync_5.hw.period (2 : Fin 8) (1 : Fin 4) : Int) ≤
    wit_TimebasesCountLoadAndSync_5.hw.downCmp (2 : Fin 8) (3 * (1 : Fin 4) + j)))  := by decide +kernel

def wit_TimebasesCountLoadAndSync_6 : State :=
    (up [(pPWMTB 2, 1, PWM_TB_TBCFG_EN, 1), (pPWMTB 2, 1,
    PWM_TB_TSTAT_CNT, 9), (pPWMCH 2, 4, PWM_CH_CMPA_ACT_VALUE, 79013), (pPWMCH 2, 4, PWM_CH_CHSTAT_REF, 1)] : State)

theorem test_TimebasesCountLoadAndSync_6 :
    (wit_TimebasesCountLoadAndSync_6.hw.tbRuns (2 : Fin 8) ((4 : Fin
    12).val / 3) = true ∧ wit_TimebasesCountLoadAndSync_6.hw.down (2 : Fin 8) ((4 : Fin 12).val / 3) = false) ∧
    (wit_TimebasesCountLoadAndSync_6.hw.cmpVal (2 : Fin 8) (4 : Fin 12) false = (79013 : Nat) ∧ 0 < (79013 : Nat) ∧
    (79013 : Nat) < 64 * wit_TimebasesCountLoadAndSync_6.hw.period (2 : Fin 8) ((4 : Fin 12).val / 3)) ∧
    ((wit_TimebasesCountLoadAndSync_6.hw.pch (2 : Fin 8) (4 : Fin 12)).crossA = false) ∧ ((after (exec
    (.compareCrossing (2 : Fin 8) (4 : Fin 12) false) wit_TimebasesCountLoadAndSync_6)).hw.ref (2 : Fin 8) (4 : Fin
    12) = false) ∧ ((after (exec (.compareCrossing (2 : Fin 8) (4 : Fin 12) false)
    wit_TimebasesCountLoadAndSync_6)).hw.cnt (2 : Fin 8) ((4 : Fin 12).val / 3) = max
    (wit_TimebasesCountLoadAndSync_6.hw.cnt (2 : Fin 8) ((4 : Fin 12).val / 3)) (((79013 : Nat) + 63) / 64)) ∧
    (((after (exec (.compareCrossing (2 : Fin 8) (4 : Fin 12) false) wit_TimebasesCountLoadAndSync_6)).hw.pch (2 : Fin
    8) (4 : Fin 12)).crossA = true)  := by decide +kernel

def wit_TimebasesCountLoadAndSync_7 : State :=
    (up [(pPWMTB 2, 8, ⟨8, 0, 12⟩, 3)] : State)

theorem test_TimebasesCountLoadAndSync_7 :
    (accepts wit_TimebasesCountLoadAndSync_7.hw (.core 8 : Requester)
    (pPWMTB (2 : Fin 8)) = true) ∧ (wit_TimebasesCountLoadAndSync_7.hw.chsel (pPWMTB (2 : Fin 8)) (.core 8 :
    Requester) = (3 : Fin 4).val) ∧ (bitsOf (1 : Word).toNat 0 2 = 1) ∧ (wit_TimebasesCountLoadAndSync_7.hw.lmode (2 :
    Fin 8) (3 : Fin 4) = false) ∧ ((after (exec (.pwmCommit (2 : Fin 8) (.cmd (.core 8 : Requester) (1 : Word)))
    wit_TimebasesCountLoadAndSync_7)).hw.f (pPWMTB (2 : Fin 8)) (3 : Fin 4) PWM_TB_TSTAT_CSTATE = 1) ∧
    (wit_TimebasesCountLoadAndSync_7.hw.b (pPWMTB (2 : Fin 8)) (3 : Fin 4) PWM_TB_TSTAT_CSTATE = false → (after (exec
    (.pwmCommit (2 : Fin 8) (.cmd (.core 8 : Requester) (1 : Word))) wit_TimebasesCountLoadAndSync_7)).hw.committed (2
    : Fin 8) (3 : Fin 4) = false ∧
    { (after (exec (.pwmCommit (2 : Fin 8) (.cmd (.core 8 : Requester) (1 : Word))) wit_TimebasesCountLoadAndSync_7)).hw with now := (after (exec (.pwmCommit (2 : Fin 8) (.cmd (.core 8 : Requester) (1 : Word))) wit_TimebasesCountLoadAndSync_7)).hw.now + 1 }.committed
    (2 : Fin 8) (3 : Fin 4) = true) ∧ ((after (exec (.pwmCommit (2 : Fin 8) (.cmd (.core 8 : Requester) (1 : Word)))
    wit_TimebasesCountLoadAndSync_7)).hw.f (pPWMTB (2 : Fin 8)) (3 : Fin 4) PWM_TB_PRD_ACT_COUNT =
    wit_TimebasesCountLoadAndSync_7.hw.f (pPWMTB (2 : Fin 8)) (3 : Fin 4) PWM_TB_PRD_ACT_COUNT)  := by decide +kernel

def wit_TimebasesCountLoadAndSync_8 : State :=
    (up [(pPWMTB 2, 0, PWM_TB_TBCFG_EN, 1), (pPWMTB 2, 0,
    PWM_TB_TBCFG_SYNC_EN, 1), (pPWMTB 2, 0, PWM_TB_SYNCVAL_CNT, 2)] : State)

theorem test_TimebasesCountLoadAndSync_8 :
    (accepts wit_TimebasesCountLoadAndSync_8.hw (.host : Requester)
    (pPWMTB (2 : Fin 8)) = true) ∧ (wit_TimebasesCountLoadAndSync_8.hw.chsel (pPWMTB (2 : Fin 8)) (.host : Requester)
    = (0 : Fin 4).val) ∧ (bitsOf (2 : Word).toNat 0 2 = 2) ∧ (wit_TimebasesCountLoadAndSync_8.hw.b (pPWMTB (2 : Fin
    8)) (0 : Fin 4) PWM_TB_TBCFG_EN = true ∧ wit_TimebasesCountLoadAndSync_8.hw.b (pPWMTB (2 : Fin 8)) (0 : Fin 4)
    PWM_TB_TBCFG_SYNC_EN = true ∧ wit_TimebasesCountLoadAndSync_8.hw.b (pPWMTB (2 : Fin 8)) (0 : Fin 4)
    PWM_TB_TBCFG_DALIGN = false) ∧ (wit_TimebasesCountLoadAndSync_8.hw.f (pPWMTB (2 : Fin 8)) (0 : Fin 4)
    PWM_TB_SYNCVAL_CNT = (2 : Nat) ∧ 0 < (2 : Nat) ∧ (2 : Nat) < wit_TimebasesCountLoadAndSync_8.hw.period (2 : Fin 8)
    (0 : Fin 4) ∧ wit_TimebasesCountLoadAndSync_8.hw.due = []) ∧ ((after (exec (.pwmSync (2 : Fin 8) (.cmd (.host :
    Requester) (2 : Word))) wit_TimebasesCountLoadAndSync_8)).hw.cnt (2 : Fin 8) (0 : Fin 4) =
    wit_TimebasesCountLoadAndSync_8.hw.cnt (2 : Fin 8) (0 : Fin 4)) ∧ ((nextEdge (after (exec (.pwmSync (2 : Fin 8)
    (.cmd (.host : Requester) (2 : Word))) wit_TimebasesCountLoadAndSync_8)).hw).cnt (2 : Fin 8) (0 : Fin 4) = (2 :
    Nat) ∧ (nextEdge (after (exec (.pwmSync (2 : Fin 8) (.cmd (.host : Requester) (2 : Word)))
    wit_TimebasesCountLoadAndSync_8)).hw).down (2 : Fin 8) (0 : Fin 4) = wit_TimebasesCountLoadAndSync_8.hw.b (pPWMTB
    (2 : Fin 8)) (0 : Fin 4) PWM_TB_SYNCVAL_DIR) ∧ ((nextEdge (after (exec (.pwmSync (2 : Fin 8) (.cmd (.host :
    Requester) (2 : Word))) wit_TimebasesCountLoadAndSync_8)).hw).f (pPWMTB (2 : Fin 8)) 0 ⟨5, 8 * (0 : Fin 4) + 6, 1⟩
    = 1)  := by decide +kernel

def wit_TimebasesCountLoadAndSync_9 : State :=
    (fly [⟨⟨2, 8⟩, 0x2040, 0⟩] (up [(pPWMTB 2, 0, PWM_TB_TBCFG_EN,
    1), (pPWMTB 2, 0, PWM_TB_TBCFG_SYNC_EN, 1), (pPWMTB 2, 0, PWM_TB_TSTAT_CNT, 2222)]) : State)

theorem test_TimebasesCountLoadAndSync_9 :
    (wit_TimebasesCountLoadAndSync_9.hw.tbRuns (2 : Fin 8) (0 : Fin 4)
    = true) ∧ (arrives wit_TimebasesCountLoadAndSync_9.hw (⟨2, 8⟩ : Chan) (clCode (2 : Fin 8) (0x040 + 2 * (0 : Fin
    4).val)) = true) ∧ (wit_TimebasesCountLoadAndSync_9.hw.b (pPWMTB (2 : Fin 8)) (0 : Fin 4) PWM_TB_TBCFG_SYNC_EN =
    true ∧ wit_TimebasesCountLoadAndSync_9.hw.b (pPWMTB (2 : Fin 8)) (0 : Fin 4) PWM_TB_TBCFG_DALIGN = false) ∧
    (wit_TimebasesCountLoadAndSync_9.hw.f (pPWMTB (2 : Fin 8)) (0 : Fin 4) PWM_TB_SYNCVAL_CNT = 0 ∧
    wit_TimebasesCountLoadAndSync_9.hw.due = []) ∧ ((nextEdge (after (exec (.pwmSync (2 : Fin 8) (.seam (0 : Fin 4)
    ⟨(⟨2, 8⟩ : Chan), none⟩)) wit_TimebasesCountLoadAndSync_9)).hw).cnt (2 : Fin 8) (0 : Fin 4) = 0 ∧ (nextEdge (after
    (exec (.pwmSync (2 : Fin 8) (.seam (0 : Fin 4) ⟨(⟨2, 8⟩ : Chan), none⟩))
    wit_TimebasesCountLoadAndSync_9)).hw).down (2 : Fin 8) (0 : Fin 4) = false) ∧ ((nextEdge (after (exec (.pwmSync (2
    : Fin 8) (.seam (0 : Fin 4) ⟨(⟨2, 8⟩ : Chan), none⟩)) wit_TimebasesCountLoadAndSync_9)).hw).f (pPWMTB (2 : Fin 8))
    0 ⟨5, 8 * (0 : Fin 4) + 6, 1⟩ = 1)  := by decide +kernel

def wit_TimebasesCountLoadAndSync_10 : State :=
    (up [(pPWMTB 2, 0, PWM_TB_TBCFG_EN, 1), (pPWMTB 2, 0,
    PWM_TB_TSTAT_CSTATE, 1)] : State)

theorem test_TimebasesCountLoadAndSync_10 :
    (accepts wit_TimebasesCountLoadAndSync_10.hw (.host : Requester)
    (pPWMTB (2 : Fin 8)) = true) ∧ (wit_TimebasesCountLoadAndSync_10.hw.chsel (pPWMTB (2 : Fin 8)) (.host : Requester)
    = (0 : Fin 4).val) ∧ (wit_TimebasesCountLoadAndSync_10.hw.b (pPWMTB (2 : Fin 8)) (0 : Fin 4) PWM_TB_TBCFG_LMODE =
    false ∧ bitOf (0x281 : Word).toNat 9 = true ∧ wit_TimebasesCountLoadAndSync_10.hw.due = []) ∧
    (wit_TimebasesCountLoadAndSync_10.hw.f (pPWMTB (2 : Fin 8)) (0 : Fin 4) PWM_TB_TBCFG_EN = bitsOf (0x281 :
    Word).toNat 0 1) ∧ ((after (exec (.timebaseCfgWrite (.host : Requester) (2 : Fin 8) (0x281 : Word))
    wit_TimebasesCountLoadAndSync_10)).hw.f (pPWMTB (2 : Fin 8)) (0 : Fin 4) PWM_TB_TBCFG_LMODE = 1 ∧ (after (exec
    (.timebaseCfgWrite (.host : Requester) (2 : Fin 8) (0x281 : Word)) wit_TimebasesCountLoadAndSync_10)).hw.f (pPWMTB
    (2 : Fin 8)) (0 : Fin 4) PWM_TB_TBCFG_LOAD_AT = bitsOf (0x281 : Word).toNat 7 2) ∧ ((nextEdge (after (exec
    (.timebaseCfgWrite (.host : Requester) (2 : Fin 8) (0x281 : Word)) wit_TimebasesCountLoadAndSync_10)).hw).f
    (pPWMTB (2 : Fin 8)) (0 : Fin 4) PWM_TB_TSTAT_CSTATE = 0 ∧ (nextEdge (after (exec (.timebaseCfgWrite (.host :
    Requester) (2 : Fin 8) (0x281 : Word)) wit_TimebasesCountLoadAndSync_10)).hw).f (pPWMTB (2 : Fin 8)) (0 : Fin 4)
    PWM_TB_TSTAT_PEND_PRD = 1) ∧ (∀ j : Fin 3, bitsOf ((nextEdge (after (exec (.timebaseCfgWrite (.host : Requester)
    (2 : Fin 8) (0x281 : Word)) wit_TimebasesCountLoadAndSync_10)).hw).reg (pPWMCH (2 : Fin 8)) 0x19 (3 * (0 : Fin 4)
    + j)).toNat 6 4 = 15)  := by decide +kernel

def wit_TimebasesCountLoadAndSync_11 : State :=
    ((ucRun ({ runA with stgt := 0x40005, outv := 1610612736 } :
    LoopRun) (0x1B * 2 ^ 27)).on (fun h => h.setF (pPWMTB 4) 1 PWM_TB_PRD_ACT_COUNT 4999) : State)

theorem test_TimebasesCountLoadAndSync_11 :
    (ucAt wit_TimebasesCountLoadAndSync_11 (4 : Fin 8)
    ({ runA with stgt := 0x40005, outv := 1610612736 } : LoopRun) 0x1B 0 0 0) ∧ ((4999 : Int) =
    wit_TimebasesCountLoadAndSync_11.hw.period (4 : Fin 8) ((4 : Fin 12).val / 3)) ∧
    (({ runA with stgt := 0x40005, outv := 1610612736 } : LoopRun).dl = 0 ∧
    ({ runA with stgt := 0x40005, outv := 1610612736 } : LoopRun).queue = [] ∧
    ({ runA with stgt := 0x40005, outv := 1610612736 } : LoopRun).outv = (1610612736 : Int) ∧ lim40 (1610612736 : Int)
    = (1610612736 : Int)) ∧ (bitsOf ({ runA with stgt := 0x40005, outv := 1610612736 } : LoopRun).stgt 16 4 = 4 ∧
    bitOf ({ runA with stgt := 0x40005, outv := 1610612736 } : LoopRun).stgt 15 = false ∧ bitsOf
    ({ runA with stgt := 0x40005, outv := 1610612736 } : LoopRun).stgt 0 2 = (4 : Fin 12).val % 3 ∧ bitsOf
    ({ runA with stgt := 0x40005, outv := 1610612736 } : LoopRun).stgt 2 2 = (4 : Fin 12).val / 3) ∧ ((0x0EA54000 :
    Word) = w40i (1024 * min (max (((1610612736 : Int) * (4999 : Int) + 2 ^ 24) / 2 ^ 25) 0) (64 * (4999 : Int))) ∧
    wit_TimebasesCountLoadAndSync_11.hw.due = []) ∧ ((after (exec (.ucEnd (4 : Fin 8) (50 : Nat) false)
    wit_TimebasesCountLoadAndSync_11)).hw.due = [(wit_TimebasesCountLoadAndSync_11.hw.now + 2 + (50 : Nat) % 2,
    .landing (4 : Fin 8) (4 : Fin 12) 0x11 (0x0EA54000 : Word) true)] ∧ (after (exec (.ucEnd (4 : Fin 8) (50 : Nat)
    false) wit_TimebasesCountLoadAndSync_11)).hw.reg (pPWMCH (4 : Fin 8)) 0x11 (4 : Fin 12) =
    wit_TimebasesCountLoadAndSync_11.hw.reg (pPWMCH (4 : Fin 8)) 0x11 (4 : Fin 12)) ∧ (((after (exec (.ucEnd (4 : Fin
    8) (50 : Nat) false) wit_TimebasesCountLoadAndSync_11)).hw.atEdge (.landing (4 : Fin 8) (4 : Fin 12) 0x11
    (0x0EA54000 : Word) true)).reg (pPWMCH (4 : Fin 8)) 0x11 (4 : Fin 12) = (0x0EA54000 : Word)) ∧ (((after (exec
    (.ucEnd (4 : Fin 8) (50 : Nat) false) wit_TimebasesCountLoadAndSync_11)).hw.atEdge (.landing (4 : Fin 8) (4 : Fin
    12) 0x11 (0x0EA54000 : Word) true)).f (pPWMCH (4 : Fin 8)) (4 : Fin 12) PWM_CH_CMPA_ACT_VALUE = bitsOf (0x0EA54000
    : Word).toNat 10 30)  := by decide +kernel

def wit_OutputsDeadTimeAndTrips_1 : State :=
    ((up [(pPWMTB 0, 0, PWM_TB_TBCFG_EN, 1), (pPWMCH 0, 0,
    PWM_CH_OCFG_H_EN, 1), (pPWMCH 0, 0, PWM_CH_CHSTAT_REF, 1), (pPWMCH 0, 0, PWM_CH_CMPA_ACT_VALUE, 64000)]).on (fun h
    => h.setPch 0 0 { hi := { wantOn := some (12800, 12800) } }) : State)

theorem test_OutputsDeadTimeAndTrips_1 :
    (wit_OutputsDeadTimeAndTrips_1.hw.tbRuns (0 : Fin 8) ((0 : Fin
    12).val / 3) = true ∧ wit_OutputsDeadTimeAndTrips_1.hw.tbSafe (0 : Fin 8) ((0 : Fin 12).val / 3) = false ∧
    wit_OutputsDeadTimeAndTrips_1.hw.outEn (0 : Fin 8) (0 : Fin 12) (false : Bool) = true) ∧
    ((wit_OutputsDeadTimeAndTrips_1.hw.pch (0 : Fin 8) (0 : Fin 12)).hi.on = false ∧
    (wit_OutputsDeadTimeAndTrips_1.hw.pch (0 : Fin 8) (0 : Fin 12)).lo.on = false) ∧ ((outOf
    (wit_OutputsDeadTimeAndTrips_1.hw.pch (0 : Fin 8) (0 : Fin 12)) (false : Bool)).wantOn = some ((12800 : Int),
    (12800 : Int))) ∧ (wit_OutputsDeadTimeAndTrips_1.hw.refEnds (0 : Fin 8) ((0 : Fin 12).val / 3) (0 : Fin 12) = some
    (64000 : Int)) ∧ ((12800 : Int) = max (12800 : Int) (max ((outOf (wit_OutputsDeadTimeAndTrips_1.hw.pch (0 : Fin 8)
    (0 : Fin 12)) (!(false : Bool))).offAt + (12800 : Int)) ((outOf (wit_OutputsDeadTimeAndTrips_1.hw.pch (0 : Fin 8)
    (0 : Fin 12)) (false : Bool)).offAt + max 64 ((wit_OutputsDeadTimeAndTrips_1.hw.pch (0 : Fin 8) (0 : Fin 12)).minp
    : Int)))) ∧ ((12800 : Int) + max 64 ((wit_OutputsDeadTimeAndTrips_1.hw.pch (0 : Fin 8) (0 : Fin 12)).minp : Int) ≤
    (64000 : Int) → (outOf ((after (exec (.outputTurnOn (0 : Fin 8) (0 : Fin 12) (false : Bool))
    wit_OutputsDeadTimeAndTrips_1)).hw.pch (0 : Fin 8) (0 : Fin 12)) (false : Bool)).on = true ∧ (outOf ((after (exec
    (.outputTurnOn (0 : Fin 8) (0 : Fin 12) (false : Bool)) wit_OutputsDeadTimeAndTrips_1)).hw.pch (0 : Fin 8) (0 :
    Fin 12)) (false : Bool)).onAt = (12800 : Int)) ∧ ((64000 : Int) ≤ (12800 : Int) → (outOf ((after (exec
    (.outputTurnOn (0 : Fin 8) (0 : Fin 12) (false : Bool)) wit_OutputsDeadTimeAndTrips_1)).hw.pch (0 : Fin 8) (0 :
    Fin 12)) (false : Bool)).on = false ∧ (after (exec (.outputTurnOn (0 : Fin 8) (0 : Fin 12) (false : Bool))
    wit_OutputsDeadTimeAndTrips_1)).hw.f (pPWMCH (0 : Fin 8)) (0 : Fin 12) PWM_CH_CHSTAT_DROP = 1) ∧ ((outOf ((after
    (exec (.outputTurnOn (0 : Fin 8) (0 : Fin 12) (false : Bool)) wit_OutputsDeadTimeAndTrips_1)).hw.pch (0 : Fin 8)
    (0 : Fin 12)) (!(false : Bool))).on = false)  := by decide +kernel

def wit_OutputsDeadTimeAndTrips_2 : State :=
    ((up [(pPWMTB 0, 0, PWM_TB_TBCFG_EN, 1)]).on (fun h => h.setPch 0
    0 { lo := { on := true, onAt := 50, wantOff := some 100 } }) : State)

theorem test_OutputsDeadTimeAndTrips_2 :
    (wit_OutputsDeadTimeAndTrips_2.hw.tbRuns (0 : Fin 8) ((0 : Fin
    12).val / 3) = true) ∧ ((outOf (wit_OutputsDeadTimeAndTrips_2.hw.pch (0 : Fin 8) (0 : Fin 12)) (true : Bool)).on =
    true) ∧ ((outOf (wit_OutputsDeadTimeAndTrips_2.hw.pch (0 : Fin 8) (0 : Fin 12)) (true : Bool)).wantOff = some (100
    : Int)) ∧ ((outOf ((after (exec (.outputTurnOff (0 : Fin 8) (0 : Fin 12) (true : Bool))
    wit_OutputsDeadTimeAndTrips_2)).hw.pch (0 : Fin 8) (0 : Fin 12)) (true : Bool)).on = false) ∧ ((outOf ((after
    (exec (.outputTurnOff (0 : Fin 8) (0 : Fin 12) (true : Bool)) wit_OutputsDeadTimeAndTrips_2)).hw.pch (0 : Fin 8)
    (0 : Fin 12)) (true : Bool)).offAt = max (100 : Int) ((outOf (wit_OutputsDeadTimeAndTrips_2.hw.pch (0 : Fin 8) (0
    : Fin 12)) (true : Bool)).onAt + max 64 ((wit_OutputsDeadTimeAndTrips_2.hw.pch (0 : Fin 8) (0 : Fin 12)).minp :
    Int))) ∧ ((100 : Int) < (outOf (wit_OutputsDeadTimeAndTrips_2.hw.pch (0 : Fin 8) (0 : Fin 12)) (true : Bool)).onAt
    + max 64 ((wit_OutputsDeadTimeAndTrips_2.hw.pch (0 : Fin 8) (0 : Fin 12)).minp : Int) → (after (exec
    (.outputTurnOff (0 : Fin 8) (0 : Fin 12) (true : Bool)) wit_OutputsDeadTimeAndTrips_2)).hw.f (pPWMCH (0 : Fin 8))
    (0 : Fin 12) PWM_CH_CHSTAT_STRETCH = 1)  := by decide +kernel

def wit_OutputsDeadTimeAndTrips_3 : State :=
    (up [(pPWMTB 0, 0, PWM_TB_TBCFG_EN, 1), (pPWMTB 0, 0,
    PWM_TB_TSTAT_CNT, 9)] : State)

theorem test_OutputsDeadTimeAndTrips_3 :
    (accepts wit_OutputsDeadTimeAndTrips_3.hw (.host : Requester) (pPWMCH
    (0 : Fin 8)) = true) ∧ (wit_OutputsDeadTimeAndTrips_3.hw.chsel (pPWMCH (0 : Fin 8)) (.host : Requester) = (0 : Fin
    12).val) ∧ (wit_OutputsDeadTimeAndTrips_3.hw.b (pPWMCH (0 : Fin 8)) 0 LOCK_BIT = false ∧
    wit_OutputsDeadTimeAndTrips_3.hw.due = []) ∧ ((after (exec (.ocfgWrite (.host : Requester) (0 : Fin 8) (0x88 :
    Word)) wit_OutputsDeadTimeAndTrips_3)).hw.f (pPWMCH (0 : Fin 8)) (0 : Fin 12) PWM_CH_OCFG_H_EN = bitsOf (0x88 :
    Word).toNat 3 1 ∧ (after (exec (.ocfgWrite (.host : Requester) (0 : Fin 8) (0x88 : Word))
    wit_OutputsDeadTimeAndTrips_3)).hw.f (pPWMCH (0 : Fin 8)) (0 : Fin 12) PWM_CH_OCFG_L_EN = bitsOf (0x88 :
    Word).toNat 7 1) ∧ ((after (exec (.ocfgWrite (.host : Requester) (0 : Fin 8) (0x88 : Word))
    wit_OutputsDeadTimeAndTrips_3)).hw.f (pPWMCH (0 : Fin 8)) (0 : Fin 12) PWM_CH_OCFG_H_SAFE = bitsOf (0x88 :
    Word).toNat 0 2 ∧ (after (exec (.ocfgWrite (.host : Requester) (0 : Fin 8) (0x88 : Word))
    wit_OutputsDeadTimeAndTrips_3)).hw.f (pPWMCH (0 : Fin 8)) (0 : Fin 12) PWM_CH_OCFG_L_POL = bitsOf (0x88 :
    Word).toNat 6 1) ∧ (∀ low : Bool, (after (exec (.ocfgWrite (.host : Requester) (0 : Fin 8) (0x88 : Word))
    wit_OutputsDeadTimeAndTrips_3)).hw.outEn (0 : Fin 8) (0 : Fin 12) low = wit_OutputsDeadTimeAndTrips_3.hw.outEn (0
    : Fin 8) (0 : Fin 12) low ∧ (nextEdge (after (exec (.ocfgWrite (.host : Requester) (0 : Fin 8) (0x88 : Word))
    wit_OutputsDeadTimeAndTrips_3)).hw).outEn (0 : Fin 8) (0 : Fin 12) low = bitOf (0x88 : Word).toNat (if low then 7
    else 3)) ∧ (wit_OutputsDeadTimeAndTrips_3.hw.outEn (0 : Fin 8) (0 : Fin 12) false = false ∧ bitOf (0x88 :
    Word).toNat 3 = true → ((nextEdge (after (exec (.ocfgWrite (.host : Requester) (0 : Fin 8) (0x88 : Word))
    wit_OutputsDeadTimeAndTrips_3)).hw).pch (0 : Fin 8) (0 : Fin 12)).hi.on = false ∧ ((nextEdge (after (exec
    (.ocfgWrite (.host : Requester) (0 : Fin 8) (0x88 : Word)) wit_OutputsDeadTimeAndTrips_3)).hw).pch (0 : Fin 8) (0
    : Fin 12)).hi.offAt = wit_OutputsDeadTimeAndTrips_3.hw.tbTime (0 : Fin 8) ((0 : Fin 12).val / 3))
     := by decide +kernel

def wit_OutputsDeadTimeAndTrips_4 : State :=
    ((up [(pPWMTB 0, 2, PWM_TB_TBCFG_EN, 1), (pSCORCH 0, 2,
    SCORCH_TRCFG_EN, 1), (pSCORCH 0, 2, SCORCH_SSEL_CODE 0, 0x30)]).on (fun h => { h with safeNLow := true }) : State)

theorem test_OutputsDeadTimeAndTrips_4 :
    (wit_OutputsDeadTimeAndTrips_4.hw.tbRuns (0 : Fin 8) (2 : Fin 4) =
    true ∧ wit_OutputsDeadTimeAndTrips_4.hw.b (pSCORCH (0 : Fin 8)) (2 : Fin 4) SCORCH_TRSTAT_TRIP_ACTIVE = false) ∧
    (wit_OutputsDeadTimeAndTrips_4.hw.scorchOn (0 : Fin 8) (2 : Fin 4) = true ∧
    wit_OutputsDeadTimeAndTrips_4.hw.scorchActive (0 : Fin 8) (2 : Fin 4) (0 : Fin 8) = true ∧
    wit_OutputsDeadTimeAndTrips_4.hw.due = []) ∧ ((nextEdge (after (exec (.scorchSourceActive (0 : Fin 8) (2 : Fin 4)
    (0 : Fin 8)) wit_OutputsDeadTimeAndTrips_4)).hw).f (pSCORCH (0 : Fin 8)) (2 : Fin 4) SCORCH_TRSTAT_TRIP_ACTIVE =
    1) ∧ ((nextEdge (after (exec (.scorchSourceActive (0 : Fin 8) (2 : Fin 4) (0 : Fin 8))
    wit_OutputsDeadTimeAndTrips_4)).hw).f (pSCORCH (0 : Fin 8)) (2 : Fin 4) SCORCH_TRSTAT_FIRST = (after (exec
    (.scorchSourceActive (0 : Fin 8) (2 : Fin 4) (0 : Fin 8)) wit_OutputsDeadTimeAndTrips_4)).hw.scorchMask (0 : Fin
    8) (2 : Fin 4) ∧ (nextEdge (after (exec (.scorchSourceActive (0 : Fin 8) (2 : Fin 4) (0 : Fin 8))
    wit_OutputsDeadTimeAndTrips_4)).hw).f (pSCORCH (0 : Fin 8)) (2 : Fin 4) SCORCH_TRSTAT_SW = 0) ∧ ((nextEdge (after
    (exec (.scorchSourceActive (0 : Fin 8) (2 : Fin 4) (0 : Fin 8)) wit_OutputsDeadTimeAndTrips_4)).hw).f (pSCORCH (0
    : Fin 8)) (2 : Fin 4) SCORCH_TRIP_CNT_COUNT = (wit_OutputsDeadTimeAndTrips_4.hw.f (pSCORCH (0 : Fin 8)) (2 : Fin
    4) SCORCH_TRIP_CNT_COUNT + 1) % 2 ^ 40) ∧ ((nextEdge (after (exec (.scorchSourceActive (0 : Fin 8) (2 : Fin 4) (0
    : Fin 8)) wit_OutputsDeadTimeAndTrips_4)).hw).f (pSCORCH (0 : Fin 8)) 0 ⟨5, (2 : Fin 4), 1⟩ = 1) ∧ (ballsSafe
    (after (exec (.scorchSourceActive (0 : Fin 8) (2 : Fin 4) (0 : Fin 8)) wit_OutputsDeadTimeAndTrips_4)).hw (0 : Fin
    8) (2 : Fin 4) = true) ∧ ((after (exec (.scorchSourceActive (0 : Fin 8) (2 : Fin 4) (0 : Fin 8))
    wit_OutputsDeadTimeAndTrips_4)).hw.cnt (0 : Fin 8) (2 : Fin 4) = wit_OutputsDeadTimeAndTrips_4.hw.cnt (0 : Fin 8)
    (2 : Fin 4))  := by decide +kernel

def wit_OutputsDeadTimeAndTrips_5 : State :=
    (up [(pPWMTB 0, 0, PWM_TB_TBCFG_EN, 1)] : State)

theorem test_OutputsDeadTimeAndTrips_5 :
    (accepts wit_OutputsDeadTimeAndTrips_5.hw (.host : Requester)
    (pSCORCH (0 : Fin 8)) = true) ∧ (wit_OutputsDeadTimeAndTrips_5.hw.chsel (pSCORCH (0 : Fin 8)) (.host : Requester)
    = (0 : Fin 4).val) ∧ (wit_OutputsDeadTimeAndTrips_5.hw.b (pPWMTB (0 : Fin 8)) (0 : Fin 4) PWM_TB_TBCFG_EN = true ∧
    wit_OutputsDeadTimeAndTrips_5.hw.b (pSCORCH (0 : Fin 8)) (0 : Fin 4) SCORCH_TRSTAT_TRIP_ACTIVE = false ∧
    wit_OutputsDeadTimeAndTrips_5.hw.due = []) ∧ (bitOf (2 : Word).toNat 1 = true) ∧ ((nextEdge (after (exec (.swtrip
    (.host : Requester) (0 : Fin 8) (2 : Word)) wit_OutputsDeadTimeAndTrips_5)).hw).f (pSCORCH (0 : Fin 8)) (0 : Fin
    4) SCORCH_TRSTAT_TRIP_ACTIVE = 1 ∧ (nextEdge (after (exec (.swtrip (.host : Requester) (0 : Fin 8) (2 : Word))
    wit_OutputsDeadTimeAndTrips_5)).hw).f (pSCORCH (0 : Fin 8)) (0 : Fin 4) SCORCH_TRSTAT_SW = 1) ∧ ((nextEdge (after
    (exec (.swtrip (.host : Requester) (0 : Fin 8) (2 : Word)) wit_OutputsDeadTimeAndTrips_5)).hw).f (pSCORCH (0 : Fin
    8)) (0 : Fin 4) SCORCH_TRIP_CNT_COUNT = (wit_OutputsDeadTimeAndTrips_5.hw.f (pSCORCH (0 : Fin 8)) (0 : Fin 4)
    SCORCH_TRIP_CNT_COUNT + 1) % 2 ^ 40) ∧ (ballsSafe (after (exec (.swtrip (.host : Requester) (0 : Fin 8) (2 :
    Word)) wit_OutputsDeadTimeAndTrips_5)).hw (0 : Fin 8) (0 : Fin 4) = true)  := by decide +kernel

def wit_OutputsDeadTimeAndTrips_6 : State :=
    (up [(pPWMTB 0, 0, PWM_TB_TBCFG_EN, 1), (pSCORCH 0, 0,
    SCORCH_TRSTAT_TRIP_ACTIVE, 1)] : State)

theorem test_OutputsDeadTimeAndTrips_6 :
    (accepts wit_OutputsDeadTimeAndTrips_6.hw (.host : Requester)
    (pSCORCH (0 : Fin 8)) = true) ∧ (wit_OutputsDeadTimeAndTrips_6.hw.chsel (pSCORCH (0 : Fin 8)) (.host : Requester)
    = (0 : Fin 4).val) ∧ (wit_OutputsDeadTimeAndTrips_6.hw.b (pSCORCH (0 : Fin 8)) (0 : Fin 4)
    SCORCH_TRSTAT_TRIP_ACTIVE = true) ∧ (bitsOf (1 : Word).toNat 0 2 = 1) ∧
    (wit_OutputsDeadTimeAndTrips_6.hw.scorchAny (0 : Fin 8) (0 : Fin 4) = false → (after (exec (.tripClr (.host :
    Requester) (0 : Fin 8) (1 : Word)) wit_OutputsDeadTimeAndTrips_6)).hw.f (pSCORCH (0 : Fin 8)) (0 : Fin 4)
    SCORCH_TRSTAT_TRIP_ACTIVE = 0) ∧ (wit_OutputsDeadTimeAndTrips_6.hw.scorchAny (0 : Fin 8) (0 : Fin 4) = true →
    (after (exec (.tripClr (.host : Requester) (0 : Fin 8) (1 : Word)) wit_OutputsDeadTimeAndTrips_6)).hw.f (pSCORCH
    (0 : Fin 8)) (0 : Fin 4) SCORCH_TRSTAT_TRIP_ACTIVE = 1 ∧ (after (exec (.tripClr (.host : Requester) (0 : Fin 8) (1
    : Word)) wit_OutputsDeadTimeAndTrips_6)).hw.f (pSCORCH (0 : Fin 8)) (0 : Fin 4) SCORCH_TRSTAT_CLR_REFUSED = 1) ∧
    ((after (exec (.tripClr (.host : Requester) (0 : Fin 8) (1 : Word)) wit_OutputsDeadTimeAndTrips_6)).hw.f (pSCORCH
    (0 : Fin 8)) (0 : Fin 4) SCORCH_TRSTAT_FIRST = wit_OutputsDeadTimeAndTrips_6.hw.f (pSCORCH (0 : Fin 8)) (0 : Fin
    4) SCORCH_TRSTAT_FIRST)  := by decide +kernel

theorem test_neverBothOn : neverBothOn State.reset.hw := fun _ _ h => by cases h.1

def wit_MovesIntoRegistersAndPorts_1 : State :=
    (coreRun [0x3d8300000] {} : State)

theorem test_MovesIntoRegistersAndPorts_1 :
    (issues wit_MovesIntoRegistersAndPorts_1 (0 : Fin 32) (⟨0, false,
    .code 123, 3, .short⟩ : Move) ({} : CoreSt) (w40i (-5) : Word)) ∧ (0 < (⟨0, false, .code 123, 3, .short⟩ :
    Move).dst ∧ (⟨0, false, .code 123, 3, .short⟩ : Move).dst < 32) ∧ (wentOn (after (exec (.registerMove (0 : Fin
    32)) wit_MovesIntoRegistersAndPorts_1)) (0 : Fin 32) (⟨0, false, .code 123, 3, .short⟩ : Move)
    { ({} : CoreSt) with v := ((after (exec (.registerMove (0 : Fin 32)) wit_MovesIntoRegistersAndPorts_1)).hw.core (0 : Fin 32)).v })
    ∧ (((after (exec (.registerMove (0 : Fin 32)) wit_MovesIntoRegistersAndPorts_1)).hw.core (0 : Fin 32)).v.at 0 (⟨0,
    false, .code 123, 3, .short⟩ : Move).dst = (w40i (-5) : Word)) ∧ (∀ j : Fin 32, j.val ≠ (⟨0, false, .code 123, 3,
    .short⟩ : Move).dst → ((after (exec (.registerMove (0 : Fin 32)) wit_MovesIntoRegistersAndPorts_1)).hw.core (0 :
    Fin 32)).v.at 0 j = ({} : CoreSt).v.at 0 j)  := by decide +kernel

def wit_MovesIntoRegistersAndPorts_2 : State :=
    (coreRun [0x3d8000000] {} : State)

theorem test_MovesIntoRegistersAndPorts_2 :
    (issues wit_MovesIntoRegistersAndPorts_2 (0 : Fin 32) (⟨0, false,
    .code 123, 0, .short⟩ : Move) ({} : CoreSt) (w40i (-5) : Word)) ∧ ((⟨0, false, .code 123, 0, .short⟩ : Move).dst =
    0) ∧ (wentOn (after (exec (.registerMove (0 : Fin 32)) wit_MovesIntoRegistersAndPorts_2)) (0 : Fin 32) (⟨0, false,
    .code 123, 0, .short⟩ : Move) ({} : CoreSt))  := by decide +kernel

def wit_MovesIntoRegistersAndPorts_3 : State :=
    (coreRun [0x82300dec00] {} : State)

theorem test_MovesIntoRegistersAndPorts_3 :
    (issues wit_MovesIntoRegistersAndPorts_3 (0 : Fin 32) (⟨0, false,
    .code 123, 192, .whole⟩ : Move) ({} : CoreSt) (w40i (-5) : Word)) ∧ ((⟨0, false, .code 123, 192, .whole⟩ :
    Move).dst = 0xC0) ∧ (wentOn (after (exec (.registerMove (0 : Fin 32)) wit_MovesIntoRegistersAndPorts_3)) (0 : Fin
    32) (⟨0, false, .code 123, 192, .whole⟩ : Move) { ({} : CoreSt) with aluR := (w40i (-5) : Word) })
     := by decide +kernel

def wit_MovesIntoRegistersAndPorts_4 : State :=
    (coreRun [0x82408dec00] {} : State)

theorem test_MovesIntoRegistersAndPorts_4 :
    (issues wit_MovesIntoRegistersAndPorts_4 (0 : Fin 32) (⟨0, false,
    .code 123, 258, .whole⟩ : Move) ({} : CoreSt) (w40i (-5) : Word)) ∧ ((⟨0, false, .code 123, 258, .whole⟩ :
    Move).dst = 0x100 + (2 : Fin 4).val) ∧ (wentOn (after (exec (.registerMove (0 : Fin 32))
    wit_MovesIntoRegistersAndPorts_4)) (0 : Fin 32) (⟨0, false, .code 123, 258, .whole⟩ : Move)
    { ({} : CoreSt) with acc := ((after (exec (.registerMove (0 : Fin 32)) wit_MovesIntoRegistersAndPorts_4)).hw.core (0 : Fin 32)).acc })
    ∧ ((((after (exec (.registerMove (0 : Fin 32)) wit_MovesIntoRegistersAndPorts_4)).hw.core (0 : Fin 32)).accN (2 :
    Fin 4)).toInt = (w40i (-5) : Word).toInt * 2 ^ 32) ∧ (∀ j : Fin 4, j ≠ (2 : Fin 4) → ((after (exec (.registerMove
    (0 : Fin 32)) wit_MovesIntoRegistersAndPorts_4)).hw.core (0 : Fin 32)).accN j = ({} : CoreSt).accN j)
     := by decide +kernel

def wit_MovesIntoRegistersAndPorts_5 : State :=
    (coreRun [0x8281cd1400] {} : State)

theorem test_MovesIntoRegistersAndPorts_5 :
    (issues wit_MovesIntoRegistersAndPorts_5 (0 : Fin 32) (⟨0, false,
    .code 69, 519, .whole⟩ : Move) ({} : CoreSt) (w40i (5) : Word)) ∧ ((⟨0, false, .code 69, 519, .whole⟩ : Move).dst
    = 0x207) ∧ (({} : CoreSt).ring < 2) ∧ (wentOn (after (exec (.registerMove (0 : Fin 32))
    wit_MovesIntoRegistersAndPorts_5)) (0 : Fin 32) (⟨0, false, .code 69, 519, .whole⟩ : Move)
    { ({} : CoreSt) with rsCfg := (w40i (5) : Word).toNat % 16 })  := by decide +kernel

def wit_MovesIntoRegistersAndPorts_6 : State :=
    ((coreRun [0x8281cd1400] { ring := 2 }).on (fun h => h.setReg
    (pDIC 0) 0x98 0 0xFFFFFF) : State)

theorem test_MovesIntoRegistersAndPorts_6 :
    (issues wit_MovesIntoRegistersAndPorts_6 (0 : Fin 32) (⟨0, false,
    .code 69, 519, .whole⟩ : Move) ({ ring := 2 } : CoreSt) (w40i (5) : Word)) ∧ ((⟨0, false, .code 69, 519, .whole⟩ :
    Move).dst = 0x207) ∧ (2 ≤ ({ ring := 2 } : CoreSt).ring) ∧ (raised wit_MovesIntoRegistersAndPorts_6 (after (exec
    (.registerMove (0 : Fin 32)) wit_MovesIntoRegistersAndPorts_6)) (0 : Fin 32) 0x02 0x10 0)  := by decide +kernel

def wit_MovesIntoRegistersAndPorts_7 : State :=
    (coreRun [0xe28700000] {} : State)

theorem test_MovesIntoRegistersAndPorts_7 :
    (wit_MovesIntoRegistersAndPorts_7.hw.canIssue (0 : Fin 32) = true
    ∧ wit_MovesIntoRegistersAndPorts_7.next (0 : Fin 32) = .code (.move (⟨3, false, .code 0x45, 7, .short⟩ : Move)) ∧
    (wit_MovesIntoRegistersAndPorts_7.hw.core (0 : Fin 32)).holds (⟨3, false, .code 0x45, 7, .short⟩ : Move).guard
    (⟨3, false, .code 0x45, 7, .short⟩ : Move).inv = false) ∧ ((⟨3, false, .code 0x45, 7, .short⟩ : Move).dst < 32) ∧
    (wentOn (after (exec (.registerMove (0 : Fin 32)) wit_MovesIntoRegistersAndPorts_7)) (0 : Fin 32) (⟨3, false,
    .code 0x45, 7, .short⟩ : Move) (wit_MovesIntoRegistersAndPorts_7.hw.core (0 : Fin 32)))  := by decide +kernel

def wit_MovesIntoRegistersAndPorts_8 : State :=
    (coreRun [0x212500000] {} : State)

theorem test_MovesIntoRegistersAndPorts_8 :
    (issues wit_MovesIntoRegistersAndPorts_8 (0 : Fin 32) (⟨0, false,
    .code 66, 37, .short⟩ : Move) ({} : CoreSt) (w40i (2) : Word)) ∧ ((⟨0, false, .code 66, 37, .short⟩ : Move).dst =
    0x20 + (5 : Fin 8).val) ∧ (wentOn (after (exec (.predicateMove (0 : Fin 32)) wit_MovesIntoRegistersAndPorts_8)) (0
    : Fin 32) (⟨0, false, .code 66, 37, .short⟩ : Move)
    { ({} : CoreSt) with preds := ((after (exec (.predicateMove (0 : Fin 32)) wit_MovesIntoRegistersAndPorts_8)).hw.core (0 : Fin 32)).preds })
    ∧ (bitOf ((after (exec (.predicateMove (0 : Fin 32)) wit_MovesIntoRegistersAndPorts_8)).hw.core (0 : Fin
    32)).preds (5 : Fin 8) = if (5 : Fin 8).val = 0 then bitOf ({} : CoreSt).preds 0 else decide ((w40i (2) : Word) ≠
    0)) ∧ (∀ i : Fin 8, i ≠ (5 : Fin 8) → bitOf ((after (exec (.predicateMove (0 : Fin 32))
    wit_MovesIntoRegistersAndPorts_8)).hw.core (0 : Fin 32)).preds i = bitOf ({} : CoreSt).preds i)
     := by decide +kernel

def wit_MovesIntoRegistersAndPorts_9 : State :=
    (coreRun [0x3cdb00000] {} : State)

theorem test_MovesIntoRegistersAndPorts_9 :
    (issues wit_MovesIntoRegistersAndPorts_9 (0 : Fin 32) (⟨0, false,
    .code 121, 91, .short⟩ : Move) ({} : CoreSt) (w40i (-7) : Word)) ∧ ((⟨0, false, .code 121, 91, .short⟩ : Move).dst
    = portCodes.getD (11 : Fin 12) 0)  := by decide +kernel

def wit_MovesIntoRegistersAndPorts_10 : State :=
    (coreRun [0x3ee900000] { cnsA := 0x2468 } : State)

theorem test_MovesIntoRegistersAndPorts_10 :
    (issues wit_MovesIntoRegistersAndPorts_10 (0 : Fin 32) (⟨0,
    false, .code 125, 105, .short⟩ : Move) ({ cnsA := 0x2468 } : CoreSt) (w40i (-3) : Word)) ∧ ((⟨0, false, .code 125,
    105, .short⟩ : Move).dst = 0x69) ∧ (wentOn (after (exec (.cnsT (0 : Fin 32)) wit_MovesIntoRegistersAndPorts_10))
    (0 : Fin 32) (⟨0, false, .code 125, 105, .short⟩ : Move)
    { ({ cnsA := 0x2468 } : CoreSt) with cnsR := w40 (({ cnsA := 0x2468 } : CoreSt).cnsA.toNat % 2 ^ 17 * 2 ^ 23 + (w40i (-3) : Word).toNat % 2 ^ 23) })
     := by decide +kernel

def wit_MovesIntoRegistersAndPorts_11 : State :=
    (coreRun [0x3feb00000] {} : State)

theorem test_MovesIntoRegistersAndPorts_11 :
    (issues wit_MovesIntoRegistersAndPorts_11 (0 : Fin 32) (⟨0,
    false, .code 127, 107, .short⟩ : Move) ({} : CoreSt) (w40i (-1) : Word)) ∧ ((⟨0, false, .code 127, 107, .short⟩ :
    Move).dst = 0x6B) ∧ (wentOn (after (exec (.gioT (0 : Fin 32)) wit_MovesIntoRegistersAndPorts_11)) (0 : Fin 32)
    (⟨0, false, .code 127, 107, .short⟩ : Move) { ({} : CoreSt) with gio := (w40i (-1) : Word).toNat % 65536 })
     := by decide +kernel

def wit_MovesIntoRegistersAndPorts_12 : State :=
    (coreRun [0x22ec00000] { gio := 10 } : State)

theorem test_MovesIntoRegistersAndPorts_12 :
    (issues wit_MovesIntoRegistersAndPorts_12 (0 : Fin 32) (⟨0,
    false, .code 69, 108, .short⟩ : Move) ({ gio := 10 } : CoreSt) (w40i (5) : Word)) ∧ ((⟨0, false, .code 69, 108,
    .short⟩ : Move).dst = 0x6C) ∧ (wentOn (after (exec (.gioSet (0 : Fin 32)) wit_MovesIntoRegistersAndPorts_12)) (0 :
    Fin 32) (⟨0, false, .code 69, 108, .short⟩ : Move)
    { ({ gio := 10 } : CoreSt) with gio := ((after (exec (.gioSet (0 : Fin 32)) wit_MovesIntoRegistersAndPorts_12)).hw.core (0 : Fin 32)).gio })
    ∧ (∀ b : Fin 16, bitOf ((after (exec (.gioSet (0 : Fin 32)) wit_MovesIntoRegistersAndPorts_12)).hw.core (0 : Fin
    32)).gio b = (bitOf ({ gio := 10 } : CoreSt).gio b || bitOf (w40i (5) : Word).toNat b))  := by decide +kernel

def wit_MovesIntoRegistersAndPorts_13 : State :=
    (coreRun [0x236d00000] { gio := 10 } : State)

theorem test_MovesIntoRegistersAndPorts_13 :
    (issues wit_MovesIntoRegistersAndPorts_13 (0 : Fin 32) (⟨0,
    false, .code 70, 109, .short⟩ : Move) ({ gio := 10 } : CoreSt) (w40i (6) : Word)) ∧ ((⟨0, false, .code 70, 109,
    .short⟩ : Move).dst = 0x6D) ∧ (wentOn (after (exec (.gioClr (0 : Fin 32)) wit_MovesIntoRegistersAndPorts_13)) (0 :
    Fin 32) (⟨0, false, .code 70, 109, .short⟩ : Move)
    { ({ gio := 10 } : CoreSt) with gio := ((after (exec (.gioClr (0 : Fin 32)) wit_MovesIntoRegistersAndPorts_13)).hw.core (0 : Fin 32)).gio })
    ∧ (∀ b : Fin 16, bitOf ((after (exec (.gioClr (0 : Fin 32)) wit_MovesIntoRegistersAndPorts_13)).hw.core (0 : Fin
    32)).gio b = (bitOf ({ gio := 10 } : CoreSt).gio b && !bitOf (w40i (6) : Word).toNat b))  := by decide +kernel

def wit_MovesIntoRegistersAndPorts_14 : State :=
    (coreRun [0x236e00000] { gio := 10 } : State)

theorem test_MovesIntoRegistersAndPorts_14 :
    (issues wit_MovesIntoRegistersAndPorts_14 (0 : Fin 32) (⟨0,
    false, .code 70, 110, .short⟩ : Move) ({ gio := 10 } : CoreSt) (w40i (6) : Word)) ∧ ((⟨0, false, .code 70, 110,
    .short⟩ : Move).dst = 0x6E) ∧ (wentOn (after (exec (.gioTgl (0 : Fin 32)) wit_MovesIntoRegistersAndPorts_14)) (0 :
    Fin 32) (⟨0, false, .code 70, 110, .short⟩ : Move)
    { ({ gio := 10 } : CoreSt) with gio := ((after (exec (.gioTgl (0 : Fin 32)) wit_MovesIntoRegistersAndPorts_14)).hw.core (0 : Fin 32)).gio })
    ∧ (∀ b : Fin 16, bitOf ((after (exec (.gioTgl (0 : Fin 32)) wit_MovesIntoRegistersAndPorts_14)).hw.core (0 : Fin
    32)).gio b = (bitOf ({ gio := 10 } : CoreSt).gio b != bitOf (w40i (6) : Word).toNat b))  := by decide +kernel

def wit_MovesIntoRegistersAndPorts_15 : State :=
    (coreRun [0x168700000] { evp := 2 } : State)

theorem test_MovesIntoRegistersAndPorts_15 :
    (wit_MovesIntoRegistersAndPorts_15.hw.canIssue (0 : Fin 32) =
    true ∧ wit_MovesIntoRegistersAndPorts_15.next (0 : Fin 32) = .code (.move (⟨0, false, .code 0x2D, 7, .short⟩ :
    Move)) ∧ (wit_MovesIntoRegistersAndPorts_15.hw.core (0 : Fin 32)).holds (⟨0, false, .code 0x2D, 7, .short⟩ :
    Move).guard (⟨0, false, .code 0x2D, 7, .short⟩ : Move).inv = true) ∧ ((⟨0, false, .code 0x2D, 7, .short⟩ :
    Move).src = .code 0x2D ∧ 0 < (⟨0, false, .code 0x2D, 7, .short⟩ : Move).dst ∧ (⟨0, false, .code 0x2D, 7, .short⟩ :
    Move).dst < 32 ∧ (wit_MovesIntoRegistersAndPorts_15.hw.core (0 : Fin 32)).evp ≠ 0) ∧ (wentOn (after (exec (.evpR
    (0 : Fin 32)) wit_MovesIntoRegistersAndPorts_15)) (0 : Fin 32) (⟨0, false, .code 0x2D, 7, .short⟩ : Move)
    { wit_MovesIntoRegistersAndPorts_15.hw.core (0 : Fin 32) with evp := 0, v := ((after (exec (.evpR (0 : Fin 32)) wit_MovesIntoRegistersAndPorts_15)).hw.core (0 : Fin 32)).v })
    ∧ (((after (exec (.evpR (0 : Fin 32)) wit_MovesIntoRegistersAndPorts_15)).hw.core (0 : Fin 32)).v.at 0 (⟨0, false,
    .code 0x2D, 7, .short⟩ : Move).dst = w40 (wit_MovesIntoRegistersAndPorts_15.hw.core (0 : Fin 32)).evp)
     := by decide +kernel

def wit_MovesIntoRegistersAndPorts_16 : State :=
    (coreRun [0x170700000] { evp := 2 } : State)

theorem test_MovesIntoRegistersAndPorts_16 :
    (wit_MovesIntoRegistersAndPorts_16.hw.canIssue (0 : Fin 32) =
    true ∧ wit_MovesIntoRegistersAndPorts_16.next (0 : Fin 32) = .code (.move (⟨0, false, .code 0x2E, 7, .short⟩ :
    Move)) ∧ (wit_MovesIntoRegistersAndPorts_16.hw.core (0 : Fin 32)).holds (⟨0, false, .code 0x2E, 7, .short⟩ :
    Move).guard (⟨0, false, .code 0x2E, 7, .short⟩ : Move).inv = true) ∧ ((⟨0, false, .code 0x2E, 7, .short⟩ :
    Move).src = .code 0x2E ∧ 0 < (⟨0, false, .code 0x2E, 7, .short⟩ : Move).dst ∧ (⟨0, false, .code 0x2E, 7, .short⟩ :
    Move).dst < 32) ∧ (wentOn (after (exec (.evpP (0 : Fin 32)) wit_MovesIntoRegistersAndPorts_16)) (0 : Fin 32) (⟨0,
    false, .code 0x2E, 7, .short⟩ : Move)
    { wit_MovesIntoRegistersAndPorts_16.hw.core (0 : Fin 32) with evp := 0, v := ((after (exec (.evpP (0 : Fin 32)) wit_MovesIntoRegistersAndPorts_16)).hw.core (0 : Fin 32)).v })
    ∧ (((after (exec (.evpP (0 : Fin 32)) wit_MovesIntoRegistersAndPorts_16)).hw.core (0 : Fin 32)).v.at 0 (⟨0, false,
    .code 0x2E, 7, .short⟩ : Move).dst = w40 (wit_MovesIntoRegistersAndPorts_16.hw.core (0 : Fin 32)).evp)
     := by decide +kernel

def wit_MovesIntoRegistersAndPorts_17 : State :=
    (coreRun [0x168700000] {} : State)

theorem test_MovesIntoRegistersAndPorts_17 :
    (wit_MovesIntoRegistersAndPorts_17.hw.canIssue (0 : Fin 32) =
    true ∧ wit_MovesIntoRegistersAndPorts_17.next (0 : Fin 32) = .code (.move (⟨0, false, .code 0x2D, 7, .short⟩ :
    Move)) ∧ (wit_MovesIntoRegistersAndPorts_17.hw.core (0 : Fin 32)).holds (⟨0, false, .code 0x2D, 7, .short⟩ :
    Move).guard (⟨0, false, .code 0x2D, 7, .short⟩ : Move).inv = true) ∧ ((⟨0, false, .code 0x2D, 7, .short⟩ :
    Move).src = .code 0x2D ∧ (wit_MovesIntoRegistersAndPorts_17.hw.core (0 : Fin 32)).evp = 0) ∧ ((after (exec (.evpR
    (0 : Fin 32)) wit_MovesIntoRegistersAndPorts_17)) = wit_MovesIntoRegistersAndPorts_17)  := by decide +kernel

def wit_MovesIntoRegistersAndPorts_18 : State :=
    (coreRun [0x8201ec1800] { rs := [77, 5] } : State)

theorem test_MovesIntoRegistersAndPorts_18 :
    (wit_MovesIntoRegistersAndPorts_18.hw.canIssue (0 : Fin 32) =
    true ∧ wit_MovesIntoRegistersAndPorts_18.next (0 : Fin 32) = .code (.move (⟨0, false, .code 0x206, 7, .whole⟩ :
    Move)) ∧ (wit_MovesIntoRegistersAndPorts_18.hw.core (0 : Fin 32)).holds (⟨0, false, .code 0x206, 7, .whole⟩ :
    Move).guard (⟨0, false, .code 0x206, 7, .whole⟩ : Move).inv = true) ∧ ((⟨0, false, .code 0x206, 7, .whole⟩ :
    Move).src = .code 0x206 ∧ 0 < (⟨0, false, .code 0x206, 7, .whole⟩ : Move).dst ∧ (⟨0, false, .code 0x206, 7,
    .whole⟩ : Move).dst < 32 ∧ (wit_MovesIntoRegistersAndPorts_18.hw.core (0 : Fin 32)).rs = (77 : Nat) :: ([5] : List
    Nat)) ∧ (wentOn (after (exec (.rsDataRead (0 : Fin 32)) wit_MovesIntoRegistersAndPorts_18)) (0 : Fin 32) (⟨0,
    false, .code 0x206, 7, .whole⟩ : Move)
    { wit_MovesIntoRegistersAndPorts_18.hw.core (0 : Fin 32) with rs := ([5] : List Nat), v := ((after (exec (.rsDataRead (0 : Fin 32)) wit_MovesIntoRegistersAndPorts_18)).hw.core (0 : Fin 32)).v })
    ∧ (((after (exec (.rsDataRead (0 : Fin 32)) wit_MovesIntoRegistersAndPorts_18)).hw.core (0 : Fin 32)).v.at 0 (⟨0,
    false, .code 0x206, 7, .whole⟩ : Move).dst = w40 (77 : Nat))  := by decide +kernel

def wit_MovesIntoRegistersAndPorts_19 : State :=
    (coreRun [0x82818d2400] { rs := [5] } : State)

theorem test_MovesIntoRegistersAndPorts_19 :
    (issues wit_MovesIntoRegistersAndPorts_19 (0 : Fin 32) (⟨0,
    false, .code 73, 518, .whole⟩ : Move) ({ rs := [5] } : CoreSt) (w40i (9) : Word)) ∧ ((⟨0, false, .code 73, 518,
    .whole⟩ : Move).dst = 0x206) ∧ (({ rs := [5] } : CoreSt).rs.length < 16) ∧ (wentOn (after (exec (.rsDataWrite (0 :
    Fin 32)) wit_MovesIntoRegistersAndPorts_19)) (0 : Fin 32) (⟨0, false, .code 73, 518, .whole⟩ : Move)
    { ({ rs := [5] } : CoreSt) with rs := (w40i (9) : Word).toNat % 2 ^ 32 :: ({ rs := [5] } : CoreSt).rs })
     := by decide +kernel

def wit_MovesIntoRegistersAndPorts_20 : State :=
    (coreRun [0x82818d2400]
    { rs := [5, 4, 4, 4, 4, 4, 4, 4, 4, 4, 4, 4, 4, 4, 4, 4], rsCfg := 14 } : State)

theorem test_MovesIntoRegistersAndPorts_20 :
    (issues wit_MovesIntoRegistersAndPorts_20 (0 : Fin 32) (⟨0,
    false, .code 73, 518, .whole⟩ : Move) ({ rs := [5, 4, 4, 4, 4, 4, 4, 4, 4, 4, 4, 4, 4, 4, 4, 4], rsCfg := 14 } :
    CoreSt) (w40i (9) : Word)) ∧ ((⟨0, false, .code 73, 518, .whole⟩ : Move).dst = 0x206) ∧
    (({ rs := [5, 4, 4, 4, 4, 4, 4, 4, 4, 4, 4, 4, 4, 4, 4, 4], rsCfg := 14 } : CoreSt).rs.length = 16 ∧ bitOf
    ({ rs := [5, 4, 4, 4, 4, 4, 4, 4, 4, 4, 4, 4, 4, 4, 4, 4], rsCfg := 14 } : CoreSt).rsCfg
    ({ rs := [5, 4, 4, 4, 4, 4, 4, 4, 4, 4, 4, 4, 4, 4, 4, 4], rsCfg := 14 } : CoreSt).ring = false) ∧ (wentOn (after
    (exec (.rsDataWrite (0 : Fin 32)) wit_MovesIntoRegistersAndPorts_20)) (0 : Fin 32) (⟨0, false, .code 73, 518,
    .whole⟩ : Move)
    { ({ rs := [5, 4, 4, 4, 4, 4, 4, 4, 4, 4, 4, 4, 4, 4, 4, 4], rsCfg := 14 } : CoreSt) with rs := ((w40i (9) : Word).toNat % 2 ^ 32 :: ({ rs := [5, 4, 4, 4, 4, 4, 4, 4, 4, 4, 4, 4, 4, 4, 4, 4], rsCfg := 14 } : CoreSt).rs).take 16, rsWrapped := true })
     := by decide +kernel

def wit_MovesIntoRegistersAndPorts_21 : State :=
    (coreRun [0x82818d2400]
    { rs := [5, 4, 4, 4, 4, 4, 4, 4, 4, 4, 4, 4, 4, 4, 4, 4] } : State)

theorem test_MovesIntoRegistersAndPorts_21 :
    (issues wit_MovesIntoRegistersAndPorts_21 (0 : Fin 32) (⟨0,
    false, .code 73, 518, .whole⟩ : Move) ({ rs := [5, 4, 4, 4, 4, 4, 4, 4, 4, 4, 4, 4, 4, 4, 4, 4] } : CoreSt) (w40i
    (9) : Word)) ∧ ((⟨0, false, .code 73, 518, .whole⟩ : Move).dst = 0x206) ∧ (16 ≤
    ({ rs := [5, 4, 4, 4, 4, 4, 4, 4, 4, 4, 4, 4, 4, 4, 4, 4] } : CoreSt).rs.length ∧ bitOf
    ({ rs := [5, 4, 4, 4, 4, 4, 4, 4, 4, 4, 4, 4, 4, 4, 4, 4] } : CoreSt).rsCfg
    ({ rs := [5, 4, 4, 4, 4, 4, 4, 4, 4, 4, 4, 4, 4, 4, 4, 4] } : CoreSt).ring = true) ∧ (raised
    wit_MovesIntoRegistersAndPorts_21 (after (exec (.rsDataWrite (0 : Fin 32)) wit_MovesIntoRegistersAndPorts_21)) (0
    : Fin 32) 0x06 0 0)  := by decide +kernel

def wit_TriggersComputeTheirResults_1 : State :=
    (coreRun [0x21a900000] { aluA := 0x7FFFFFFFFF } : State)

theorem test_TriggersComputeTheirResults_1 :
    (issues wit_TriggersComputeTheirResults_1 (0 : Fin 32) (⟨0,
    false, .code 67, 41, .short⟩ : Move) ({ aluA := 0x7FFFFFFFFF } : CoreSt) (w40i (3) : Word)) ∧ ((⟨0, false, .code
    67, 41, .short⟩ : Move).dst = 0x29) ∧ (wentOn (after (exec (.aluT (0 : Fin 32))
    wit_TriggersComputeTheirResults_1)) (0 : Fin 32) (⟨0, false, .code 67, 41, .short⟩ : Move)
    { ({ aluA := 0x7FFFFFFFFF } : CoreSt) with aluR := w40i ((w40i (3) : Word).toInt + ({ aluA := 0x7FFFFFFFFF } : CoreSt).aluA.toInt) })
     := by decide +kernel

def wit_TriggersComputeTheirResults_2 : State :=
    (coreRun [0x21aa00000] { aluA := 0x7FFFFFFFFF } : State)

theorem test_TriggersComputeTheirResults_2 :
    (issues wit_TriggersComputeTheirResults_2 (0 : Fin 32) (⟨0,
    false, .code 67, 42, .short⟩ : Move) ({ aluA := 0x7FFFFFFFFF } : CoreSt) (w40i (3) : Word)) ∧ ((⟨0, false, .code
    67, 42, .short⟩ : Move).dst = 0x2A) ∧ (wentOn (after (exec (.aluAdds (0 : Fin 32))
    wit_TriggersComputeTheirResults_2)) (0 : Fin 32) (⟨0, false, .code 67, 42, .short⟩ : Move)
    { ({ aluA := 0x7FFFFFFFFF } : CoreSt) with aluR := w40i (lim40 ((w40i (3) : Word).toInt + ({ aluA := 0x7FFFFFFFFF } : CoreSt).aluA.toInt)), sat := ({ aluA := 0x7FFFFFFFFF } : CoreSt).sat || over40 ((w40i (3) : Word).toInt + ({ aluA := 0x7FFFFFFFFF } : CoreSt).aluA.toInt) })
     := by decide +kernel

def wit_TriggersComputeTheirResults_3 : State :=
    (coreRun [0x21ab00000] { aluA := 0x7FFFFFFFFF } : State)

theorem test_TriggersComputeTheirResults_3 :
    (issues wit_TriggersComputeTheirResults_3 (0 : Fin 32) (⟨0,
    false, .code 67, 43, .short⟩ : Move) ({ aluA := 0x7FFFFFFFFF } : CoreSt) (w40i (3) : Word)) ∧ ((⟨0, false, .code
    67, 43, .short⟩ : Move).dst = 0x2B) ∧ (wentOn (after (exec (.aluSub (0 : Fin 32))
    wit_TriggersComputeTheirResults_3)) (0 : Fin 32) (⟨0, false, .code 67, 43, .short⟩ : Move)
    { ({ aluA := 0x7FFFFFFFFF } : CoreSt) with aluR := w40i ((w40i (3) : Word).toInt - ({ aluA := 0x7FFFFFFFFF } : CoreSt).aluA.toInt) })
     := by decide +kernel

def wit_TriggersComputeTheirResults_4 : State :=
    (coreRun [0x21ac00000] { aluA := 0x8000000000 } : State)

theorem test_TriggersComputeTheirResults_4 :
    (issues wit_TriggersComputeTheirResults_4 (0 : Fin 32) (⟨0,
    false, .code 67, 44, .short⟩ : Move) ({ aluA := 0x8000000000 } : CoreSt) (w40i (3) : Word)) ∧ ((⟨0, false, .code
    67, 44, .short⟩ : Move).dst = 0x2C) ∧ (wentOn (after (exec (.aluSubs (0 : Fin 32))
    wit_TriggersComputeTheirResults_4)) (0 : Fin 32) (⟨0, false, .code 67, 44, .short⟩ : Move)
    { ({ aluA := 0x8000000000 } : CoreSt) with aluR := w40i (lim40 ((w40i (3) : Word).toInt - ({ aluA := 0x8000000000 } : CoreSt).aluA.toInt)), sat := ({ aluA := 0x8000000000 } : CoreSt).sat || over40 ((w40i (3) : Word).toInt - ({ aluA := 0x8000000000 } : CoreSt).aluA.toInt) })
     := by decide +kernel

def wit_TriggersComputeTheirResults_5 : State :=
    (coreRun [0x262d00000] { aluA := 10 } : State)

theorem test_TriggersComputeTheirResults_5 :
    (issues wit_TriggersComputeTheirResults_5 (0 : Fin 32) (⟨0,
    false, .code 76, 45, .short⟩ : Move) ({ aluA := 10 } : CoreSt) (w40i (12) : Word)) ∧ ((⟨0, false, .code 76, 45,
    .short⟩ : Move).dst = 0x2D) ∧ (wentOn (after (exec (.aluAnd (0 : Fin 32)) wit_TriggersComputeTheirResults_5)) (0 :
    Fin 32) (⟨0, false, .code 76, 45, .short⟩ : Move)
    { ({ aluA := 10 } : CoreSt) with aluR := ((after (exec (.aluAnd (0 : Fin 32)) wit_TriggersComputeTheirResults_5)).hw.core (0 : Fin 32)).aluR })
    ∧ (∀ b : Fin 40, bitOf ((after (exec (.aluAnd (0 : Fin 32)) wit_TriggersComputeTheirResults_5)).hw.core (0 : Fin
    32)).aluR.toNat b = (bitOf (w40i (12) : Word).toNat b && bitOf ({ aluA := 10 } : CoreSt).aluA.toNat b))
     := by decide +kernel

def wit_TriggersComputeTheirResults_6 : State :=
    (coreRun [0x262e00000] { aluA := 10 } : State)

theorem test_TriggersComputeTheirResults_6 :
    (issues wit_TriggersComputeTheirResults_6 (0 : Fin 32) (⟨0,
    false, .code 76, 46, .short⟩ : Move) ({ aluA := 10 } : CoreSt) (w40i (12) : Word)) ∧ ((⟨0, false, .code 76, 46,
    .short⟩ : Move).dst = 0x2E) ∧ (wentOn (after (exec (.aluOr (0 : Fin 32)) wit_TriggersComputeTheirResults_6)) (0 :
    Fin 32) (⟨0, false, .code 76, 46, .short⟩ : Move)
    { ({ aluA := 10 } : CoreSt) with aluR := ((after (exec (.aluOr (0 : Fin 32)) wit_TriggersComputeTheirResults_6)).hw.core (0 : Fin 32)).aluR })
    ∧ (∀ b : Fin 40, bitOf ((after (exec (.aluOr (0 : Fin 32)) wit_TriggersComputeTheirResults_6)).hw.core (0 : Fin
    32)).aluR.toNat b = (bitOf (w40i (12) : Word).toNat b || bitOf ({ aluA := 10 } : CoreSt).aluA.toNat b))
     := by decide +kernel

def wit_TriggersComputeTheirResults_7 : State :=
    (coreRun [0x262f00000] { aluA := 10 } : State)

theorem test_TriggersComputeTheirResults_7 :
    (issues wit_TriggersComputeTheirResults_7 (0 : Fin 32) (⟨0,
    false, .code 76, 47, .short⟩ : Move) ({ aluA := 10 } : CoreSt) (w40i (12) : Word)) ∧ ((⟨0, false, .code 76, 47,
    .short⟩ : Move).dst = 0x2F) ∧ (wentOn (after (exec (.aluXor (0 : Fin 32)) wit_TriggersComputeTheirResults_7)) (0 :
    Fin 32) (⟨0, false, .code 76, 47, .short⟩ : Move)
    { ({ aluA := 10 } : CoreSt) with aluR := ((after (exec (.aluXor (0 : Fin 32)) wit_TriggersComputeTheirResults_7)).hw.core (0 : Fin 32)).aluR })
    ∧ (∀ b : Fin 40, bitOf ((after (exec (.aluXor (0 : Fin 32)) wit_TriggersComputeTheirResults_7)).hw.core (0 : Fin
    32)).aluR.toNat b = (bitOf (w40i (12) : Word).toNat b != bitOf ({ aluA := 10 } : CoreSt).aluA.toNat b))
     := by decide +kernel

def wit_TriggersComputeTheirResults_8 : State :=
    (coreRun [0x263000000] { aluA := 10 } : State)

theorem test_TriggersComputeTheirResults_8 :
    (issues wit_TriggersComputeTheirResults_8 (0 : Fin 32) (⟨0,
    false, .code 76, 48, .short⟩ : Move) ({ aluA := 10 } : CoreSt) (w40i (12) : Word)) ∧ ((⟨0, false, .code 76, 48,
    .short⟩ : Move).dst = 0x30) ∧ (wentOn (after (exec (.aluAndn (0 : Fin 32)) wit_TriggersComputeTheirResults_8)) (0
    : Fin 32) (⟨0, false, .code 76, 48, .short⟩ : Move)
    { ({ aluA := 10 } : CoreSt) with aluR := ((after (exec (.aluAndn (0 : Fin 32)) wit_TriggersComputeTheirResults_8)).hw.core (0 : Fin 32)).aluR })
    ∧ (∀ b : Fin 40, bitOf ((after (exec (.aluAndn (0 : Fin 32)) wit_TriggersComputeTheirResults_8)).hw.core (0 : Fin
    32)).aluR.toNat b = (bitOf (w40i (12) : Word).toNat b && !bitOf ({ aluA := 10 } : CoreSt).aluA.toNat b))
     := by decide +kernel

def wit_TriggersComputeTheirResults_9 : State :=
    (coreRun [0x3eb100000] { aluA := 0x7FFFFFFFFF } : State)

theorem test_TriggersComputeTheirResults_9 :
    (issues wit_TriggersComputeTheirResults_9 (0 : Fin 32) (⟨0,
    false, .code 125, 49, .short⟩ : Move) ({ aluA := 0x7FFFFFFFFF } : CoreSt) (w40i (-3) : Word)) ∧ ((⟨0, false, .code
    125, 49, .short⟩ : Move).dst = 0x31) ∧ (wentOn (after (exec (.aluMin (0 : Fin 32))
    wit_TriggersComputeTheirResults_9)) (0 : Fin 32) (⟨0, false, .code 125, 49, .short⟩ : Move)
    { ({ aluA := 0x7FFFFFFFFF } : CoreSt) with aluR := w40i (min (w40i (-3) : Word).toInt ({ aluA := 0x7FFFFFFFFF } : CoreSt).aluA.toInt) })
     := by decide +kernel

def wit_TriggersComputeTheirResults_10 : State :=
    (coreRun [0x3eb200000] { aluA := 0x7FFFFFFFFF } : State)

theorem test_TriggersComputeTheirResults_10 :
    (issues wit_TriggersComputeTheirResults_10 (0 : Fin 32) (⟨0,
    false, .code 125, 50, .short⟩ : Move) ({ aluA := 0x7FFFFFFFFF } : CoreSt) (w40i (-3) : Word)) ∧ ((⟨0, false, .code
    125, 50, .short⟩ : Move).dst = 0x32) ∧ (wentOn (after (exec (.aluMax (0 : Fin 32))
    wit_TriggersComputeTheirResults_10)) (0 : Fin 32) (⟨0, false, .code 125, 50, .short⟩ : Move)
    { ({ aluA := 0x7FFFFFFFFF } : CoreSt) with aluR := w40i (max (w40i (-3) : Word).toInt ({ aluA := 0x7FFFFFFFFF } : CoreSt).aluA.toInt) })
     := by decide +kernel

def wit_TriggersComputeTheirResults_11 : State :=
    (coreRun [0x4b300000]
    { v := [(9, 0x8000000000)], aluA := 4 } : State)

theorem test_TriggersComputeTheirResults_11 :
    (issues wit_TriggersComputeTheirResults_11 (0 : Fin 32) (⟨0,
    false, .code 9, 51, .short⟩ : Move) ({ v := [(9, 0x8000000000)], aluA := 4 } : CoreSt) (0x8000000000 : Word)) ∧
    ((⟨0, false, .code 9, 51, .short⟩ : Move).dst = 0x33) ∧ (wentOn (after (exec (.aluAbss (0 : Fin 32))
    wit_TriggersComputeTheirResults_11)) (0 : Fin 32) (⟨0, false, .code 9, 51, .short⟩ : Move)
    { ({ v := [(9, 0x8000000000)], aluA := 4 } : CoreSt) with aluR := w40i (lim40 (max (0x8000000000 : Word).toInt (-(0x8000000000 : Word).toInt))), sat := ({ v := [(9, 0x8000000000)], aluA := 4 } : CoreSt).sat || over40 (max (0x8000000000 : Word).toInt (-(0x8000000000 : Word).toInt)) })
     := by decide +kernel

def wit_TriggersComputeTheirResults_12 : State :=
    (coreRun [0x4b400000]
    { v := [(9, 0x8000000000)], aluA := 4 } : State)

theorem test_TriggersComputeTheirResults_12 :
    (issues wit_TriggersComputeTheirResults_12 (0 : Fin 32) (⟨0,
    false, .code 9, 52, .short⟩ : Move) ({ v := [(9, 0x8000000000)], aluA := 4 } : CoreSt) (0x8000000000 : Word)) ∧
    ((⟨0, false, .code 9, 52, .short⟩ : Move).dst = 0x34) ∧ (wentOn (after (exec (.aluNegs (0 : Fin 32))
    wit_TriggersComputeTheirResults_12)) (0 : Fin 32) (⟨0, false, .code 9, 52, .short⟩ : Move)
    { ({ v := [(9, 0x8000000000)], aluA := 4 } : CoreSt) with aluR := w40i (lim40 (-(0x8000000000 : Word).toInt)), sat := ({ v := [(9, 0x8000000000)], aluA := 4 } : CoreSt).sat || over40 (-(0x8000000000 : Word).toInt) })
     := by decide +kernel

def wit_TriggersComputeTheirResults_13 : State :=
    (coreRun [0x3eb600000] { shfA := 37 } : State)

theorem test_TriggersComputeTheirResults_13 :
    (issues wit_TriggersComputeTheirResults_13 (0 : Fin 32) (⟨0,
    false, .code 125, 54, .short⟩ : Move) ({ shfA := 37 } : CoreSt) (w40i (-3) : Word)) ∧ ((⟨0, false, .code 125, 54,
    .short⟩ : Move).dst = 0x36) ∧ (wentOn (after (exec (.shfT (0 : Fin 32)) wit_TriggersComputeTheirResults_13)) (0 :
    Fin 32) (⟨0, false, .code 125, 54, .short⟩ : Move)
    { ({ shfA := 37 } : CoreSt) with shfR := w40 ((w40i (-3) : Word).toNat * 2 ^ (({ shfA := 37 } : CoreSt).shfA.toNat % 64)) })
     := by decide +kernel

def wit_TriggersComputeTheirResults_14 : State :=
    (coreRun [0x3eb700000] { shfA := 37 } : State)

theorem test_TriggersComputeTheirResults_14 :
    (issues wit_TriggersComputeTheirResults_14 (0 : Fin 32) (⟨0,
    false, .code 125, 55, .short⟩ : Move) ({ shfA := 37 } : CoreSt) (w40i (-3) : Word)) ∧ ((⟨0, false, .code 125, 55,
    .short⟩ : Move).dst = 0x37) ∧ (wentOn (after (exec (.shfShr (0 : Fin 32)) wit_TriggersComputeTheirResults_14)) (0
    : Fin 32) (⟨0, false, .code 125, 55, .short⟩ : Move)
    { ({ shfA := 37 } : CoreSt) with shfR := w40 ((w40i (-3) : Word).toNat / 2 ^ (({ shfA := 37 } : CoreSt).shfA.toNat % 64)) })
     := by decide +kernel

def wit_TriggersComputeTheirResults_15 : State :=
    (coreRun [0x3eb800000] { shfA := 45 } : State)

theorem test_TriggersComputeTheirResults_15 :
    (issues wit_TriggersComputeTheirResults_15 (0 : Fin 32) (⟨0,
    false, .code 125, 56, .short⟩ : Move) ({ shfA := 45 } : CoreSt) (w40i (-3) : Word)) ∧ ((⟨0, false, .code 125, 56,
    .short⟩ : Move).dst = 0x38) ∧ (wentOn (after (exec (.shfSar (0 : Fin 32)) wit_TriggersComputeTheirResults_15)) (0
    : Fin 32) (⟨0, false, .code 125, 56, .short⟩ : Move)
    { ({ shfA := 45 } : CoreSt) with shfR := w40i ((w40i (-3) : Word).toInt / 2 ^ (({ shfA := 45 } : CoreSt).shfA.toNat % 64)) })
     := by decide +kernel

def wit_TriggersComputeTheirResults_16 : State :=
    (coreRun [0x3eb900000] { shfA := 1 } : State)

theorem test_TriggersComputeTheirResults_16 :
    (issues wit_TriggersComputeTheirResults_16 (0 : Fin 32) (⟨0,
    false, .code 125, 57, .short⟩ : Move) ({ shfA := 1 } : CoreSt) (w40i (-3) : Word)) ∧ ((⟨0, false, .code 125, 57,
    .short⟩ : Move).dst = 0x39) ∧ (wentOn (after (exec (.shfSarr (0 : Fin 32)) wit_TriggersComputeTheirResults_16)) (0
    : Fin 32) (⟨0, false, .code 125, 57, .short⟩ : Move)
    { ({ shfA := 1 } : CoreSt) with shfR := w40i ((2 * (w40i (-3) : Word).toInt + 2 ^ (({ shfA := 1 } : CoreSt).shfA.toNat % 64)) / 2 ^ ((({ shfA := 1 } : CoreSt).shfA.toNat % 64) + 1)) })
     := by decide +kernel

def wit_TriggersComputeTheirResults_17 : State :=
    (coreRun [0x3eba00000] { shfA := 38 } : State)

theorem test_TriggersComputeTheirResults_17 :
    (issues wit_TriggersComputeTheirResults_17 (0 : Fin 32) (⟨0,
    false, .code 125, 58, .short⟩ : Move) ({ shfA := 38 } : CoreSt) (w40i (-3) : Word)) ∧ ((⟨0, false, .code 125, 58,
    .short⟩ : Move).dst = 0x3A) ∧ (wentOn (after (exec (.shfShls (0 : Fin 32)) wit_TriggersComputeTheirResults_17)) (0
    : Fin 32) (⟨0, false, .code 125, 58, .short⟩ : Move)
    { ({ shfA := 38 } : CoreSt) with shfR := w40i (lim40 ((w40i (-3) : Word).toInt * 2 ^ (({ shfA := 38 } : CoreSt).shfA.toNat % 64))), sat := ({ shfA := 38 } : CoreSt).sat || over40 ((w40i (-3) : Word).toInt * 2 ^ (({ shfA := 38 } : CoreSt).shfA.toNat % 64)) })
     := by decide +kernel

def wit_TriggersComputeTheirResults_18 : State :=
    (coreRun [0x3ebc00000] { cmpA := 10 } : State)

theorem test_TriggersComputeTheirResults_18 :
    (issues wit_TriggersComputeTheirResults_18 (0 : Fin 32) (⟨0,
    false, .code 125, 60, .short⟩ : Move) ({ cmpA := 10 } : CoreSt) (w40i (-3) : Word)) ∧ ((⟨0, false, .code 125, 60,
    .short⟩ : Move).dst = 0x3C) ∧ (wentOn (after (exec (.cmpT (0 : Fin 32)) wit_TriggersComputeTheirResults_18)) (0 :
    Fin 32) (⟨0, false, .code 125, 60, .short⟩ : Move)
    { ({ cmpA := 10 } : CoreSt) with cmpR := if (w40i (-3) : Word) = ({ cmpA := 10 } : CoreSt).cmpA then 1 else 0 })
     := by decide +kernel

def wit_TriggersComputeTheirResults_19 : State :=
    (coreRun [0x3ebd00000] { cmpA := 10 } : State)

theorem test_TriggersComputeTheirResults_19 :
    (issues wit_TriggersComputeTheirResults_19 (0 : Fin 32) (⟨0,
    false, .code 125, 61, .short⟩ : Move) ({ cmpA := 10 } : CoreSt) (w40i (-3) : Word)) ∧ ((⟨0, false, .code 125, 61,
    .short⟩ : Move).dst = 0x3D) ∧ (wentOn (after (exec (.cmpNe (0 : Fin 32)) wit_TriggersComputeTheirResults_19)) (0 :
    Fin 32) (⟨0, false, .code 125, 61, .short⟩ : Move)
    { ({ cmpA := 10 } : CoreSt) with cmpR := if (w40i (-3) : Word) ≠ ({ cmpA := 10 } : CoreSt).cmpA then 1 else 0 })
     := by decide +kernel

def wit_TriggersComputeTheirResults_20 : State :=
    (coreRun [0x3ebe00000] { cmpA := 10 } : State)

theorem test_TriggersComputeTheirResults_20 :
    (issues wit_TriggersComputeTheirResults_20 (0 : Fin 32) (⟨0,
    false, .code 125, 62, .short⟩ : Move) ({ cmpA := 10 } : CoreSt) (w40i (-3) : Word)) ∧ ((⟨0, false, .code 125, 62,
    .short⟩ : Move).dst = 0x3E) ∧ (wentOn (after (exec (.cmpLt (0 : Fin 32)) wit_TriggersComputeTheirResults_20)) (0 :
    Fin 32) (⟨0, false, .code 125, 62, .short⟩ : Move)
    { ({ cmpA := 10 } : CoreSt) with cmpR := if (w40i (-3) : Word).toInt < ({ cmpA := 10 } : CoreSt).cmpA.toInt then 1 else 0 })
     := by decide +kernel

def wit_TriggersComputeTheirResults_21 : State :=
    (coreRun [0x3ebf00000] { cmpA := 10 } : State)

theorem test_TriggersComputeTheirResults_21 :
    (issues wit_TriggersComputeTheirResults_21 (0 : Fin 32) (⟨0,
    false, .code 125, 63, .short⟩ : Move) ({ cmpA := 10 } : CoreSt) (w40i (-3) : Word)) ∧ ((⟨0, false, .code 125, 63,
    .short⟩ : Move).dst = 0x3F) ∧ (wentOn (after (exec (.cmpGe (0 : Fin 32)) wit_TriggersComputeTheirResults_21)) (0 :
    Fin 32) (⟨0, false, .code 125, 63, .short⟩ : Move)
    { ({ cmpA := 10 } : CoreSt) with cmpR := if ({ cmpA := 10 } : CoreSt).cmpA.toInt ≤ (w40i (-3) : Word).toInt then 1 else 0 })
     := by decide +kernel

def wit_TriggersComputeTheirResults_22 : State :=
    (coreRun [0x3ec000000] { cmpA := 10 } : State)

theorem test_TriggersComputeTheirResults_22 :
    (issues wit_TriggersComputeTheirResults_22 (0 : Fin 32) (⟨0,
    false, .code 125, 64, .short⟩ : Move) ({ cmpA := 10 } : CoreSt) (w40i (-3) : Word)) ∧ ((⟨0, false, .code 125, 64,
    .short⟩ : Move).dst = 0x40) ∧ (wentOn (after (exec (.cmpLtu (0 : Fin 32)) wit_TriggersComputeTheirResults_22)) (0
    : Fin 32) (⟨0, false, .code 125, 64, .short⟩ : Move)
    { ({ cmpA := 10 } : CoreSt) with cmpR := if (w40i (-3) : Word).toNat < ({ cmpA := 10 } : CoreSt).cmpA.toNat then 1 else 0 })
     := by decide +kernel

def wit_TriggersComputeTheirResults_23 : State :=
    (coreRun [0x3ec100000] { cmpA := 10 } : State)

theorem test_TriggersComputeTheirResults_23 :
    (issues wit_TriggersComputeTheirResults_23 (0 : Fin 32) (⟨0,
    false, .code 125, 65, .short⟩ : Move) ({ cmpA := 10 } : CoreSt) (w40i (-3) : Word)) ∧ ((⟨0, false, .code 125, 65,
    .short⟩ : Move).dst = 0x41) ∧ (wentOn (after (exec (.cmpGeu (0 : Fin 32)) wit_TriggersComputeTheirResults_23)) (0
    : Fin 32) (⟨0, false, .code 125, 65, .short⟩ : Move)
    { ({ cmpA := 10 } : CoreSt) with cmpR := if ({ cmpA := 10 } : CoreSt).cmpA.toNat ≤ (w40i (-3) : Word).toNat then 1 else 0 })
     := by decide +kernel

def wit_TriggersComputeTheirResults_24 : State :=
    (coreRun [0x3ec300000] { mulA := 0x40000000 } : State)

theorem test_TriggersComputeTheirResults_24 :
    (issues wit_TriggersComputeTheirResults_24 (0 : Fin 32) (⟨0,
    false, .code 125, 67, .short⟩ : Move) ({ mulA := 0x40000000 } : CoreSt) (w40i (-3) : Word)) ∧ ((⟨0, false, .code
    125, 67, .short⟩ : Move).dst = 0x43) ∧ (wentOn (after (exec (.mulT (0 : Fin 32))
    wit_TriggersComputeTheirResults_24)) (0 : Fin 32) (⟨0, false, .code 125, 67, .short⟩ : Move)
    { ({ mulA := 0x40000000 } : CoreSt) with mulR := w40i (lim40 (((w40i (-3) : Word).toInt * ({ mulA := 0x40000000 } : CoreSt).mulA.toInt + 2 ^ 30) / 2 ^ 31)), sat := ({ mulA := 0x40000000 } : CoreSt).sat || over40 (((w40i (-3) : Word).toInt * ({ mulA := 0x40000000 } : CoreSt).mulA.toInt + 2 ^ 30) / 2 ^ 31) })
     := by decide +kernel

def wit_TriggersComputeTheirResults_25 : State :=
    (coreRun [0x3ec400000] { mulA := 0x40000000 } : State)

theorem test_TriggersComputeTheirResults_25 :
    (issues wit_TriggersComputeTheirResults_25 (0 : Fin 32) (⟨0,
    false, .code 125, 68, .short⟩ : Move) ({ mulA := 0x40000000 } : CoreSt) (w40i (-3) : Word)) ∧ ((⟨0, false, .code
    125, 68, .short⟩ : Move).dst = 0x44) ∧ (wentOn (after (exec (.mulL (0 : Fin 32))
    wit_TriggersComputeTheirResults_25)) (0 : Fin 32) (⟨0, false, .code 125, 68, .short⟩ : Move)
    { ({ mulA := 0x40000000 } : CoreSt) with mulR := w40i ((w40i (-3) : Word).toInt * ({ mulA := 0x40000000 } : CoreSt).mulA.toInt) })
     := by decide +kernel

def wit_TriggersComputeTheirResults_26 : State :=
    (coreRun [0x3ec500000] { mulA := 0x40000000 } : State)

theorem test_TriggersComputeTheirResults_26 :
    (issues wit_TriggersComputeTheirResults_26 (0 : Fin 32) (⟨0,
    false, .code 125, 69, .short⟩ : Move) ({ mulA := 0x40000000 } : CoreSt) (w40i (-3) : Word)) ∧ ((⟨0, false, .code
    125, 69, .short⟩ : Move).dst = 0x45) ∧ (wentOn (after (exec (.mulH (0 : Fin 32))
    wit_TriggersComputeTheirResults_26)) (0 : Fin 32) (⟨0, false, .code 125, 69, .short⟩ : Move)
    { ({ mulA := 0x40000000 } : CoreSt) with mulR := w40i ((w40i (-3) : Word).toInt * ({ mulA := 0x40000000 } : CoreSt).mulA.toInt / 2 ^ 40) })
     := by decide +kernel

def wit_TriggersComputeTheirResults_27 : State :=
    (coreRun [0x3ec800000]
    { macA := 0x40000000, acc := [1, 2, 3, 4] } : State)

theorem test_TriggersComputeTheirResults_27 :
    (issues wit_TriggersComputeTheirResults_27 (0 : Fin 32) (⟨0,
    false, .code 125, 72, .short⟩ : Move) ({ macA := 0x40000000, acc := [1, 2, 3, 4] } : CoreSt) (w40i (-3) : Word)) ∧
    ((⟨0, false, .code 125, 72, .short⟩ : Move).dst = 0x47 + (1 : Fin 4).val) ∧ (wentOn (after (exec (.macT (0 : Fin
    32)) wit_TriggersComputeTheirResults_27)) (0 : Fin 32) (⟨0, false, .code 125, 72, .short⟩ : Move)
    { ({ macA := 0x40000000, acc := [1, 2, 3, 4] } : CoreSt) with sat := ({ macA := 0x40000000, acc := [1, 2, 3, 4] } : CoreSt).sat || over80 ((({ macA := 0x40000000, acc := [1, 2, 3, 4] } : CoreSt).accN (1 : Fin 4)).toInt + 2 * (w40i (-3) : Word).toInt * ({ macA := 0x40000000, acc := [1, 2, 3, 4] } : CoreSt).macA.toInt), acc := ((after (exec (.macT (0 : Fin 32)) wit_TriggersComputeTheirResults_27)).hw.core (0 : Fin 32)).acc })
    ∧ ((((after (exec (.macT (0 : Fin 32)) wit_TriggersComputeTheirResults_27)).hw.core (0 : Fin 32)).accN (1 : Fin
    4)).toInt = lim80 ((({ macA := 0x40000000, acc := [1, 2, 3, 4] } : CoreSt).accN (1 : Fin 4)).toInt + 2 * (w40i
    (-3) : Word).toInt * ({ macA := 0x40000000, acc := [1, 2, 3, 4] } : CoreSt).macA.toInt)) ∧ (∀ j : Fin 4, j ≠ (1 :
    Fin 4) → ((after (exec (.macT (0 : Fin 32)) wit_TriggersComputeTheirResults_27)).hw.core (0 : Fin 32)).accN j =
    ({ macA := 0x40000000, acc := [1, 2, 3, 4] } : CoreSt).accN j)  := by decide +kernel

def wit_TriggersComputeTheirResults_28 : State :=
    (coreRun [0x3ecc00000]
    { macA := 0x40000000, acc := [1, 2, 3, 4] } : State)

theorem test_TriggersComputeTheirResults_28 :
    (issues wit_TriggersComputeTheirResults_28 (0 : Fin 32) (⟨0,
    false, .code 125, 76, .short⟩ : Move) ({ macA := 0x40000000, acc := [1, 2, 3, 4] } : CoreSt) (w40i (-3) : Word)) ∧
    ((⟨0, false, .code 125, 76, .short⟩ : Move).dst = 0x4B + (1 : Fin 4).val) ∧ (wentOn (after (exec (.macS (0 : Fin
    32)) wit_TriggersComputeTheirResults_28)) (0 : Fin 32) (⟨0, false, .code 125, 76, .short⟩ : Move)
    { ({ macA := 0x40000000, acc := [1, 2, 3, 4] } : CoreSt) with sat := ({ macA := 0x40000000, acc := [1, 2, 3, 4] } : CoreSt).sat || over80 ((({ macA := 0x40000000, acc := [1, 2, 3, 4] } : CoreSt).accN (1 : Fin 4)).toInt - 2 * (w40i (-3) : Word).toInt * ({ macA := 0x40000000, acc := [1, 2, 3, 4] } : CoreSt).macA.toInt), acc := ((after (exec (.macS (0 : Fin 32)) wit_TriggersComputeTheirResults_28)).hw.core (0 : Fin 32)).acc })
    ∧ ((((after (exec (.macS (0 : Fin 32)) wit_TriggersComputeTheirResults_28)).hw.core (0 : Fin 32)).accN (1 : Fin
    4)).toInt = lim80 ((({ macA := 0x40000000, acc := [1, 2, 3, 4] } : CoreSt).accN (1 : Fin 4)).toInt - 2 * (w40i
    (-3) : Word).toInt * ({ macA := 0x40000000, acc := [1, 2, 3, 4] } : CoreSt).macA.toInt)) ∧ (∀ j : Fin 4, j ≠ (1 :
    Fin 4) → ((after (exec (.macS (0 : Fin 32)) wit_TriggersComputeTheirResults_28)).hw.core (0 : Fin 32)).accN j =
    ({ macA := 0x40000000, acc := [1, 2, 3, 4] } : CoreSt).accN j)  := by decide +kernel

def wit_TriggersComputeTheirResults_29 : State :=
    (coreRun [0x3ed000000]
    { macA := 0x40000000, acc := [1, 2, 3, 4] } : State)

theorem test_TriggersComputeTheirResults_29 :
    (issues wit_TriggersComputeTheirResults_29 (0 : Fin 32) (⟨0,
    false, .code 125, 80, .short⟩ : Move) ({ macA := 0x40000000, acc := [1, 2, 3, 4] } : CoreSt) (w40i (-3) : Word)) ∧
    ((⟨0, false, .code 125, 80, .short⟩ : Move).dst = 0x4F + (1 : Fin 4).val) ∧ (wentOn (after (exec (.macZ (0 : Fin
    32)) wit_TriggersComputeTheirResults_29)) (0 : Fin 32) (⟨0, false, .code 125, 80, .short⟩ : Move)
    { ({ macA := 0x40000000, acc := [1, 2, 3, 4] } : CoreSt) with sat := ({ macA := 0x40000000, acc := [1, 2, 3, 4] } : CoreSt).sat || over80 (2 * (w40i (-3) : Word).toInt * ({ macA := 0x40000000, acc := [1, 2, 3, 4] } : CoreSt).macA.toInt), acc := ((after (exec (.macZ (0 : Fin 32)) wit_TriggersComputeTheirResults_29)).hw.core (0 : Fin 32)).acc })
    ∧ ((((after (exec (.macZ (0 : Fin 32)) wit_TriggersComputeTheirResults_29)).hw.core (0 : Fin 32)).accN (1 : Fin
    4)).toInt = lim80 (2 * (w40i (-3) : Word).toInt * ({ macA := 0x40000000, acc := [1, 2, 3, 4] } :
    CoreSt).macA.toInt)) ∧ (∀ j : Fin 4, j ≠ (1 : Fin 4) → ((after (exec (.macZ (0 : Fin 32))
    wit_TriggersComputeTheirResults_29)).hw.core (0 : Fin 32)).accN j = ({ macA := 0x40000000, acc := [1, 2, 3, 4] } :
    CoreSt).accN j)  := by decide +kernel

def wit_TriggersComputeTheirResults_30 : State :=
    (coreRun [0x3ed400000] { divA := 7 } : State)

theorem test_TriggersComputeTheirResults_30 :
    (issues wit_TriggersComputeTheirResults_30 (0 : Fin 32) (⟨0,
    false, .code 125, 84, .short⟩ : Move) ({ divA := 7 } : CoreSt) (w40i (-3) : Word)) ∧ ((⟨0, false, .code 125, 84,
    .short⟩ : Move).dst = 0x54) ∧ (({ divA := 7 } : CoreSt).div = none ∧ ({ divA := 7 } : CoreSt).divA ≠ 0) ∧ (wentOn
    (after (exec (.divT (0 : Fin 32)) wit_TriggersComputeTheirResults_30)) (0 : Fin 32) (⟨0, false, .code 125, 84,
    .short⟩ : Move)
    { ({ divA := 7 } : CoreSt) with div := some { kind := 0, t := (w40i (-3) : Word), a := ({ divA := 7 } : CoreSt).divA }, sat := ({ divA := 7 } : CoreSt).sat || decide ((w40i (-3) : Word).toInt = -(2 ^ 39) ∧ ({ divA := 7 } : CoreSt).divA.toInt = -1) })
     := by decide +kernel

def wit_TriggersComputeTheirResults_31 : State :=
    (coreRun [0x3ed500000] { divA := 7 } : State)

theorem test_TriggersComputeTheirResults_31 :
    (issues wit_TriggersComputeTheirResults_31 (0 : Fin 32) (⟨0,
    false, .code 125, 85, .short⟩ : Move) ({ divA := 7 } : CoreSt) (w40i (-3) : Word)) ∧ ((⟨0, false, .code 125, 85,
    .short⟩ : Move).dst = 0x55) ∧ (({ divA := 7 } : CoreSt).div = none ∧ ({ divA := 7 } : CoreSt).divA ≠ 0) ∧ (wentOn
    (after (exec (.divQ (0 : Fin 32)) wit_TriggersComputeTheirResults_31)) (0 : Fin 32) (⟨0, false, .code 125, 85,
    .short⟩ : Move)
    { ({ divA := 7 } : CoreSt) with div := some { kind := 1, t := (w40i (-3) : Word), a := ({ divA := 7 } : CoreSt).divA }, sat := ({ divA := 7 } : CoreSt).sat || over40 (((w40i (-3) : Word).toInt * 2 ^ 31).tdiv ({ divA := 7 } : CoreSt).divA.toInt) })
     := by decide +kernel

def wit_TriggersComputeTheirResults_32 : State :=
    (coreRun [0x3ed600000] { divA := 7 } : State)

theorem test_TriggersComputeTheirResults_32 :
    (issues wit_TriggersComputeTheirResults_32 (0 : Fin 32) (⟨0,
    false, .code 125, 86, .short⟩ : Move) ({ divA := 7 } : CoreSt) (w40i (-3) : Word)) ∧ ((⟨0, false, .code 125, 86,
    .short⟩ : Move).dst = 0x56) ∧ (({ divA := 7 } : CoreSt).div = none ∧ ({ divA := 7 } : CoreSt).divA ≠ 0) ∧ (wentOn
    (after (exec (.divU (0 : Fin 32)) wit_TriggersComputeTheirResults_32)) (0 : Fin 32) (⟨0, false, .code 125, 86,
    .short⟩ : Move)
    { ({ divA := 7 } : CoreSt) with div := some { kind := 2, t := (w40i (-3) : Word), a := ({ divA := 7 } : CoreSt).divA } })
     := by decide +kernel

def wit_TriggersComputeTheirResults_33 : State :=
    (coreRun [] { div := some ⟨0, 100, 7, 0, none⟩ } : State)

theorem test_TriggersComputeTheirResults_33 :
    (wit_TriggersComputeTheirResults_33.hw.clusterRuns (clOf (0 :
    Fin 32)) = true ∧ wit_TriggersComputeTheirResults_33.hw.locked (0 : Fin 32) = false) ∧
    ((wit_TriggersComputeTheirResults_33.hw.core (0 : Fin 32)).div = some (⟨0, 100, 7, 0, none⟩ : DivOp) ∧ (⟨0, 100,
    7, 0, none⟩ : DivOp).kind = 0 ∧ (⟨0, 100, 7, 0, none⟩ : DivOp).a ≠ 0 ∧ (⟨0, 100, 7, 0, none⟩ : DivOp).out = none)
    ∧ ((after (exec (.divComplete (0 : Fin 32)) wit_TriggersComputeTheirResults_33)).hw.core (0 : Fin 32) =
    { wit_TriggersComputeTheirResults_33.hw.core (0 : Fin 32) with div := none, divR := w40i (lim40 ((⟨0, 100, 7, 0, none⟩ : DivOp).t.toInt.tdiv (⟨0, 100, 7, 0, none⟩ : DivOp).a.toInt)), divM := w40i ((⟨0, 100, 7, 0, none⟩ : DivOp).t.toInt.tmod (⟨0, 100, 7, 0, none⟩ : DivOp).a.toInt) })
     := by decide +kernel

def wit_TriggersComputeTheirResults_34 : State :=
    (coreRun [] { div := some ⟨1, 100, 7, 0, none⟩ } : State)

theorem test_TriggersComputeTheirResults_34 :
    (wit_TriggersComputeTheirResults_34.hw.clusterRuns (clOf (0 :
    Fin 32)) = true ∧ wit_TriggersComputeTheirResults_34.hw.locked (0 : Fin 32) = false) ∧
    ((wit_TriggersComputeTheirResults_34.hw.core (0 : Fin 32)).div = some (⟨1, 100, 7, 0, none⟩ : DivOp) ∧ (⟨1, 100,
    7, 0, none⟩ : DivOp).kind = 1 ∧ (⟨1, 100, 7, 0, none⟩ : DivOp).a ≠ 0 ∧ (⟨1, 100, 7, 0, none⟩ : DivOp).out = none)
    ∧ ((after (exec (.divComplete (0 : Fin 32)) wit_TriggersComputeTheirResults_34)).hw.core (0 : Fin 32) =
    { wit_TriggersComputeTheirResults_34.hw.core (0 : Fin 32) with div := none, divR := w40i (lim40 (((⟨1, 100, 7, 0, none⟩ : DivOp).t.toInt * 2 ^ 31).tdiv (⟨1, 100, 7, 0, none⟩ : DivOp).a.toInt)), divM := if over40 (((⟨1, 100, 7, 0, none⟩ : DivOp).t.toInt * 2 ^ 31).tdiv (⟨1, 100, 7, 0, none⟩ : DivOp).a.toInt) then 0 else w40i (((⟨1, 100, 7, 0, none⟩ : DivOp).t.toInt * 2 ^ 31).tmod (⟨1, 100, 7, 0, none⟩ : DivOp).a.toInt) })
     := by decide +kernel

def wit_TriggersComputeTheirResults_35 : State :=
    (coreRun [] { div := some ⟨2, 100, 7, 0, none⟩ } : State)

theorem test_TriggersComputeTheirResults_35 :
    (wit_TriggersComputeTheirResults_35.hw.clusterRuns (clOf (0 :
    Fin 32)) = true ∧ wit_TriggersComputeTheirResults_35.hw.locked (0 : Fin 32) = false) ∧
    ((wit_TriggersComputeTheirResults_35.hw.core (0 : Fin 32)).div = some (⟨2, 100, 7, 0, none⟩ : DivOp) ∧ (⟨2, 100,
    7, 0, none⟩ : DivOp).kind = 2 ∧ (⟨2, 100, 7, 0, none⟩ : DivOp).a ≠ 0 ∧ (⟨2, 100, 7, 0, none⟩ : DivOp).out = none)
    ∧ ((after (exec (.divComplete (0 : Fin 32)) wit_TriggersComputeTheirResults_35)).hw.core (0 : Fin 32) =
    { wit_TriggersComputeTheirResults_35.hw.core (0 : Fin 32) with div := none, divR := w40 ((⟨2, 100, 7, 0, none⟩ : DivOp).t.toNat / (⟨2, 100, 7, 0, none⟩ : DivOp).a.toNat), divM := w40 ((⟨2, 100, 7, 0, none⟩ : DivOp).t.toNat % (⟨2, 100, 7, 0, none⟩ : DivOp).a.toNat) })
     := by decide +kernel

def wit_DivisionByZeroRaises_1 : State :=
    (coreRun [0x3ed400000] { divR := 4, divM := 5 } : State)

theorem test_DivisionByZeroRaises_1 :
    (issues wit_DivisionByZeroRaises_1 (0 : Fin 32) (⟨0, false, .code 125,
    84, .short⟩ : Move) ({ divR := 4, divM := 5 } : CoreSt) (w40i (-3) : Word)) ∧ ((⟨0, false, .code 125, 84, .short⟩
    : Move).dst = 0x54) ∧ (({ divR := 4, divM := 5 } : CoreSt).div = none ∧ ({ divR := 4, divM := 5 } : CoreSt).divA =
    0) ∧ (raised wit_DivisionByZeroRaises_1 (after (exec (.divT (0 : Fin 32)) wit_DivisionByZeroRaises_1)) (0 : Fin
    32) 0x05 0 0) ∧ (((after (exec (.divT (0 : Fin 32)) wit_DivisionByZeroRaises_1)).hw.core (0 : Fin 32)).div = none
    ∧ ((after (exec (.divT (0 : Fin 32)) wit_DivisionByZeroRaises_1)).hw.core (0 : Fin 32)).divR =
    (wit_DivisionByZeroRaises_1.hw.core (0 : Fin 32)).divR ∧ ((after (exec (.divT (0 : Fin 32))
    wit_DivisionByZeroRaises_1)).hw.core (0 : Fin 32)).divM = (wit_DivisionByZeroRaises_1.hw.core (0 : Fin 32)).divM)
     := by decide +kernel

def wit_DivisionByZeroRaises_2 : State :=
    (coreRun [0x3ed500000] { divR := 4, divM := 5 } : State)

theorem test_DivisionByZeroRaises_2 :
    (issues wit_DivisionByZeroRaises_2 (0 : Fin 32) (⟨0, false, .code 125,
    85, .short⟩ : Move) ({ divR := 4, divM := 5 } : CoreSt) (w40i (-3) : Word)) ∧ ((⟨0, false, .code 125, 85, .short⟩
    : Move).dst = 0x55) ∧ (({ divR := 4, divM := 5 } : CoreSt).div = none ∧ ({ divR := 4, divM := 5 } : CoreSt).divA =
    0) ∧ (raised wit_DivisionByZeroRaises_2 (after (exec (.divQ (0 : Fin 32)) wit_DivisionByZeroRaises_2)) (0 : Fin
    32) 0x05 0 0) ∧ (((after (exec (.divQ (0 : Fin 32)) wit_DivisionByZeroRaises_2)).hw.core (0 : Fin 32)).div = none
    ∧ ((after (exec (.divQ (0 : Fin 32)) wit_DivisionByZeroRaises_2)).hw.core (0 : Fin 32)).divR =
    (wit_DivisionByZeroRaises_2.hw.core (0 : Fin 32)).divR ∧ ((after (exec (.divQ (0 : Fin 32))
    wit_DivisionByZeroRaises_2)).hw.core (0 : Fin 32)).divM = (wit_DivisionByZeroRaises_2.hw.core (0 : Fin 32)).divM)
     := by decide +kernel

def wit_DivisionByZeroRaises_3 : State :=
    (coreRun [0x3ed600000] { divR := 4, divM := 5 } : State)

theorem test_DivisionByZeroRaises_3 :
    (issues wit_DivisionByZeroRaises_3 (0 : Fin 32) (⟨0, false, .code 125,
    86, .short⟩ : Move) ({ divR := 4, divM := 5 } : CoreSt) (w40i (-3) : Word)) ∧ ((⟨0, false, .code 125, 86, .short⟩
    : Move).dst = 0x56) ∧ (({ divR := 4, divM := 5 } : CoreSt).div = none ∧ ({ divR := 4, divM := 5 } : CoreSt).divA =
    0) ∧ (raised wit_DivisionByZeroRaises_3 (after (exec (.divU (0 : Fin 32)) wit_DivisionByZeroRaises_3)) (0 : Fin
    32) 0x05 0 0) ∧ (((after (exec (.divU (0 : Fin 32)) wit_DivisionByZeroRaises_3)).hw.core (0 : Fin 32)).div = none
    ∧ ((after (exec (.divU (0 : Fin 32)) wit_DivisionByZeroRaises_3)).hw.core (0 : Fin 32)).divR =
    (wit_DivisionByZeroRaises_3.hw.core (0 : Fin 32)).divR ∧ ((after (exec (.divU (0 : Fin 32))
    wit_DivisionByZeroRaises_3)).hw.core (0 : Fin 32)).divM = (wit_DivisionByZeroRaises_3.hw.core (0 : Fin 32)).divM)
     := by decide +kernel

def wit_ControlMovesTransfer_1 : State :=
    (coreRun [0x24e300000] {} : State)

theorem test_ControlMovesTransfer_1 :
    (issues wit_ControlMovesTransfer_1 (0 : Fin 32) (⟨0, false, .code 73,
    99, .short⟩ : Move) ({} : CoreSt) (w40i (9) : Word)) ∧ ((⟨0, false, .code 73, 99, .short⟩ : Move).dst = 0x63)
     := by decide +kernel

def wit_ControlMovesTransfer_2 : State :=
    (coreRun [0x24e400000] {} : State)

theorem test_ControlMovesTransfer_2 :
    (issues wit_ControlMovesTransfer_2 (0 : Fin 32) (⟨0, false, .code 73,
    100, .short⟩ : Move) ({} : CoreSt) (w40i (9) : Word)) ∧ ((⟨0, false, .code 73, 100, .short⟩ : Move).dst = 0x64)
     := by decide +kernel

def wit_ControlMovesTransfer_3 : State :=
    (coreRun [0x24e500000] {} : State)

theorem test_ControlMovesTransfer_3 :
    (issues wit_ControlMovesTransfer_3 (0 : Fin 32) (⟨0, false, .code 73,
    101, .short⟩ : Move) ({} : CoreSt) (w40i (9) : Word)) ∧ ((⟨0, false, .code 73, 101, .short⟩ : Move).dst = 0x65) ∧
    (({} : CoreSt).rs.length < 16)  := by decide +kernel

def wit_ControlMovesTransfer_4 : State :=
    (coreRun [0x24e500000]
    { rs := [5, 4, 4, 4, 4, 4, 4, 4, 4, 4, 4, 4, 4, 4, 4, 4], rsCfg := 14 } : State)

theorem test_ControlMovesTransfer_4 :
    (issues wit_ControlMovesTransfer_4 (0 : Fin 32) (⟨0, false, .code 73,
    101, .short⟩ : Move) ({ rs := [5, 4, 4, 4, 4, 4, 4, 4, 4, 4, 4, 4, 4, 4, 4, 4], rsCfg := 14 } : CoreSt) (w40i (9)
    : Word)) ∧ ((⟨0, false, .code 73, 101, .short⟩ : Move).dst = 0x65) ∧
    (({ rs := [5, 4, 4, 4, 4, 4, 4, 4, 4, 4, 4, 4, 4, 4, 4, 4], rsCfg := 14 } : CoreSt).rs.length = 16 ∧ bitOf
    ({ rs := [5, 4, 4, 4, 4, 4, 4, 4, 4, 4, 4, 4, 4, 4, 4, 4], rsCfg := 14 } : CoreSt).rsCfg
    ({ rs := [5, 4, 4, 4, 4, 4, 4, 4, 4, 4, 4, 4, 4, 4, 4, 4], rsCfg := 14 } : CoreSt).ring = false)
     := by decide +kernel

def wit_ControlMovesTransfer_5 : State :=
    (coreRun [0x24e600000] {} : State)

theorem test_ControlMovesTransfer_5 :
    (issues wit_ControlMovesTransfer_5 (0 : Fin 32) (⟨0, false, .code 73,
    102, .short⟩ : Move) ({} : CoreSt) (w40i (9) : Word)) ∧ ((⟨0, false, .code 73, 102, .short⟩ : Move).dst = 0x66) ∧
    (({} : CoreSt).rs.length < 16)  := by decide +kernel

def wit_ControlMovesTransfer_6 : State :=
    (coreRun [0x24e600000]
    { rs := [5, 4, 4, 4, 4, 4, 4, 4, 4, 4, 4, 4, 4, 4, 4, 4] } : State)

theorem test_ControlMovesTransfer_6 :
    (issues wit_ControlMovesTransfer_6 (0 : Fin 32) (⟨0, false, .code 73,
    102, .short⟩ : Move) ({ rs := [5, 4, 4, 4, 4, 4, 4, 4, 4, 4, 4, 4, 4, 4, 4, 4] } : CoreSt) (w40i (9) : Word)) ∧
    ((⟨0, false, .code 73, 102, .short⟩ : Move).dst = 0x66) ∧ (16 ≤
    ({ rs := [5, 4, 4, 4, 4, 4, 4, 4, 4, 4, 4, 4, 4, 4, 4, 4] } : CoreSt).rs.length ∧ bitOf
    ({ rs := [5, 4, 4, 4, 4, 4, 4, 4, 4, 4, 4, 4, 4, 4, 4, 4] } : CoreSt).rsCfg
    ({ rs := [5, 4, 4, 4, 4, 4, 4, 4, 4, 4, 4, 4, 4, 4, 4, 4] } : CoreSt).ring = true) ∧ (raised
    wit_ControlMovesTransfer_6 (after (exec (.bruCallr (0 : Fin 32)) wit_ControlMovesTransfer_6)) (0 : Fin 32) 0x06 0
    0)  := by decide +kernel

def wit_ControlMovesTransfer_7 : State :=
    (coreRun [0x206700000] { rs := [8, 3] } : State)

theorem test_ControlMovesTransfer_7 :
    (issues wit_ControlMovesTransfer_7 (0 : Fin 32) (⟨0, false, .code 64,
    103, .short⟩ : Move) ({ rs := [8, 3] } : CoreSt) (w40i (0) : Word)) ∧ ((⟨0, false, .code 64, 103, .short⟩ :
    Move).dst = 0x67) ∧ (({ rs := [8, 3] } : CoreSt).rs = (8 : Nat) :: ([3] : List Nat))  := by decide +kernel

def wit_ControlMovesTransfer_8 : State :=
    (((coreRun [0x22f000000] { ring := 1, preds := 5 }).wr 0x1010005
    0xfc00000044).on (fun h => (h.setReg (pDIC 0) 0x97 0 0x10000).setReg (pDIC 0) 0x9A 0 0x18000) : State)

theorem test_ControlMovesTransfer_8 :
    (issues wit_ControlMovesTransfer_8 (0 : Fin 32) (⟨0, false, .code 69,
    112, .short⟩ : Move) ({ ring := 1, preds := 5 } : CoreSt) (w40i (5) : Word)) ∧ ((⟨0, false, .code 69, 112, .short⟩
    : Move).dst = 0x70) ∧ (wit_ControlMovesTransfer_8.gateCheck (0 : Fin 32) (wit_ControlMovesTransfer_8.gateEntry (0
    : Fin 32) ((w40i (5) : Word).toNat % 256)) = 0 ∧ ({ ring := 1, preds := 5 } : CoreSt) =
    wit_ControlMovesTransfer_8.hw.core (0 : Fin 32) ∧ ({ ring := 1, preds := 5 } : CoreSt).ring < 4 ∧
    wit_ControlMovesTransfer_8.hw.xfp (0 : Fin 32) % 4 = 0)  := by decide +kernel

def wit_ControlMovesTransfer_9 : State :=
    (((coreRun [0x7100000] {}).wrList 0x1017FFC [0x3400000600, 0x123, 0,
    0x14]).on (fun h => h.setReg (pDIC 0) 0x9A 0 0x17FFC) : State)

theorem test_ControlMovesTransfer_9 :
    (issues wit_ControlMovesTransfer_9 (0 : Fin 32) (⟨0, false, .code 0,
    0x71, .short⟩ : Move) ({} : CoreSt) (0 : Word)) ∧ ((⟨0, false, .code 0, 0x71, .short⟩ : Move).dst = 0x71 ∧ ({} :
    CoreSt).fenced = true ∧ ({} : CoreSt) = wit_ControlMovesTransfer_9.hw.core (0 : Fin 32)) ∧
    (wit_ControlMovesTransfer_9.gretCheck (0 : Fin 32) = 0 ∧ bitsOf (wit_ControlMovesTransfer_9.rd (tcm (0 : Fin 32)
    (wit_ControlMovesTransfer_9.hw.xfp (0 : Fin 32)))).toNat 36 4 = 3 ∧ wit_ControlMovesTransfer_9.hw.swAt = [])
     := by decide +kernel

def wit_ControlMovesTransfer_10 : State :=
    (coreRun [0x23f400000] {} : State)

theorem test_ControlMovesTransfer_10 :
    (issues wit_ControlMovesTransfer_10 (0 : Fin 32) (⟨0, false, .code 71,
    116, .short⟩ : Move) ({} : CoreSt) (w40i (7) : Word)) ∧ ((⟨0, false, .code 71, 116, .short⟩ : Move).dst = 0x74)
     := by decide +kernel

def wit_ControlMovesTransfer_11 : State :=
    (coreRun [0x207500000] {} : State)

theorem test_ControlMovesTransfer_11 :
    (issues wit_ControlMovesTransfer_11 (0 : Fin 32) (⟨0, false, .code 64,
    117, .short⟩ : Move) ({} : CoreSt) (w40i (0) : Word)) ∧ ((⟨0, false, .code 64, 117, .short⟩ : Move).dst = 0x75) ∧
    (wit_ControlMovesTransfer_11.hw.debugOpen = false ∨ wit_ControlMovesTransfer_11.hw.b pDBG 0 DBG_STATUS_ATTACHED =
    false)  := by decide +kernel

def wit_ControlMovesTransfer_12 : State :=
    ((coreRun [0x207500000] {}).on (fun h => h.setF pDBG 0
    DBG_STATUS_ATTACHED 1) : State)

theorem test_ControlMovesTransfer_12 :
    (issues wit_ControlMovesTransfer_12 (0 : Fin 32) (⟨0, false, .code 64,
    117, .short⟩ : Move) ({} : CoreSt) (w40i (0) : Word)) ∧ ((⟨0, false, .code 64, 117, .short⟩ : Move).dst = 0x75) ∧
    (wit_ControlMovesTransfer_12.hw.debugOpen = true ∧ wit_ControlMovesTransfer_12.hw.b pDBG 0 DBG_STATUS_ATTACHED =
    true)  := by decide +kernel

def wit_ControlMovesTransfer_13 : State :=
    (coreRun [0x206f00000] {} : State)

theorem test_ControlMovesTransfer_13 :
    (issues wit_ControlMovesTransfer_13 (0 : Fin 32) (⟨0, false, .code 64,
    111, .short⟩ : Move) ({} : CoreSt) (w40i (0) : Word)) ∧ ((⟨0, false, .code 64, 111, .short⟩ : Move).dst = 0x6F) ∧
    (({} : CoreSt).sb = [] ∧ ({} : CoreSt).cpy = none) ∧ (wentOn (after (exec (.sysFence (0 : Fin 32))
    wit_ControlMovesTransfer_13)) (0 : Fin 32) (⟨0, false, .code 64, 111, .short⟩ : Move) ({} : CoreSt))
     := by decide +kernel

def wit_ControlMovesTransfer_14 : State :=
    (coreRun [0x206f00000] { sb := [⟨5, [6], 0, false, false⟩] } :
    State)

theorem test_ControlMovesTransfer_14 :
    (issues wit_ControlMovesTransfer_14 (0 : Fin 32) (⟨0, false, .code 64,
    111, .short⟩ : Move) ({ sb := [⟨5, [6], 0, false, false⟩] } : CoreSt) (w40i (0) : Word)) ∧ ((⟨0, false, .code 64,
    111, .short⟩ : Move).dst = 0x6F) ∧ (({ sb := [⟨5, [6], 0, false, false⟩] } : CoreSt).sb ≠ [] ∨
    ({ sb := [⟨5, [6], 0, false, false⟩] } : CoreSt).cpy.isSome = true) ∧ ((after (exec (.sysFence (0 : Fin 32))
    wit_ControlMovesTransfer_14)) = wit_ControlMovesTransfer_14)  := by decide +kernel

def wit_ControlMovesTransfer_15 : State :=
    (coreRun [0x207200000] { rap := [5] } : State)

theorem test_ControlMovesTransfer_15 :
    (issues wit_ControlMovesTransfer_15 (0 : Fin 32) (⟨0, false, .code 64,
    114, .short⟩ : Move) ({ rap := [5] } : CoreSt) (w40i (0) : Word)) ∧ ((⟨0, false, .code 64, 114, .short⟩ :
    Move).dst = 0x72) ∧ ((w40i (0) : Word) = 0) ∧ (wentOn (after (exec (.predFlush (0 : Fin 32))
    wit_ControlMovesTransfer_15)) (0 : Fin 32) (⟨0, false, .code 64, 114, .short⟩ : Move) ({ rap := [5] } : CoreSt)) ∧
    (leaves (⟨0, false, .code 64, 114, .short⟩ : Move) ({ rap := [5] } : CoreSt) ∧ ({ rap := [5] } : CoreSt).predOps =
    [] → ((after (exec (.predFlush (0 : Fin 32)) wit_ControlMovesTransfer_15)).hw.core (0 : Fin 32)).btt = [] ∧
    ((after (exec (.predFlush (0 : Fin 32)) wit_ControlMovesTransfer_15)).hw.core (0 : Fin 32)).rap = []) ∧ (¬leaves
    (⟨0, false, .code 64, 114, .short⟩ : Move) ({ rap := [5] } : CoreSt) → ((after (exec (.predFlush (0 : Fin 32))
    wit_ControlMovesTransfer_15)).hw.core (0 : Fin 32)).predOps = ({ rap := [5] } : CoreSt).predOps ++ [0])
     := by decide +kernel

def wit_ControlMovesTransfer_16 : State :=
    (coreRun [0x20f200000] {} : State)

theorem test_ControlMovesTransfer_16 :
    (issues wit_ControlMovesTransfer_16 (0 : Fin 32) (⟨0, false, .code 65,
    114, .short⟩ : Move) ({} : CoreSt) (w40i (1) : Word)) ∧ ((⟨0, false, .code 65, 114, .short⟩ : Move).dst = 0x72) ∧
    ((w40i (1) : Word) = 1 ∧ ({} : CoreSt).ring < 2) ∧ (wentOn (after (exec (.predBar (0 : Fin 32))
    wit_ControlMovesTransfer_16)) (0 : Fin 32) (⟨0, false, .code 65, 114, .short⟩ : Move) ({} : CoreSt)) ∧ (leaves
    (⟨0, false, .code 65, 114, .short⟩ : Move) ({} : CoreSt) ∧ ({} : CoreSt).predOps = [] → (after (exec (.predBar (0
    : Fin 32)) wit_ControlMovesTransfer_16)).hw.f (corePage (0 : Fin 32)) 0 CORE_STATUS_BAR = 1) ∧ (¬leaves (⟨0,
    false, .code 65, 114, .short⟩ : Move) ({} : CoreSt) → ((after (exec (.predBar (0 : Fin 32))
    wit_ControlMovesTransfer_16)).hw.core (0 : Fin 32)).predOps = ({} : CoreSt).predOps ++ [1] ∧ (after (exec
    (.predBar (0 : Fin 32)) wit_ControlMovesTransfer_16)).hw.f (corePage (0 : Fin 32)) 0 CORE_STATUS_BAR =
    wit_ControlMovesTransfer_16.hw.f (corePage (0 : Fin 32)) 0 CORE_STATUS_BAR)  := by decide +kernel

def wit_ControlMovesTransfer_17 : State :=
    ((coreRun [0x20f200000] { ring := 2 }).on (fun h => h.setReg (pDIC
    0) 0x98 0 0xFFFFFF) : State)

theorem test_ControlMovesTransfer_17 :
    (issues wit_ControlMovesTransfer_17 (0 : Fin 32) (⟨0, false, .code 65,
    114, .short⟩ : Move) ({ ring := 2 } : CoreSt) (w40i (1) : Word)) ∧ ((⟨0, false, .code 65, 114, .short⟩ : Move).dst
    = 0x72) ∧ ((w40i (1) : Word) = 1 ∧ 2 ≤ ({ ring := 2 } : CoreSt).ring) ∧ (raised wit_ControlMovesTransfer_17 (after
    (exec (.predBar (0 : Fin 32)) wit_ControlMovesTransfer_17)) (0 : Fin 32) 0x02 0x10 0)  := by decide +kernel

def wit_ControlMovesTransfer_18 : State :=
    (coreRun [0x217200000] { rs := [5, 6] } : State)

theorem test_ControlMovesTransfer_18 :
    (issues wit_ControlMovesTransfer_18 (0 : Fin 32) (⟨0, false, .code 66,
    114, .short⟩ : Move) ({ rs := [5, 6] } : CoreSt) (w40i (2) : Word)) ∧ ((⟨0, false, .code 66, 114, .short⟩ :
    Move).dst = 0x72) ∧ ((w40i (2) : Word) = 2) ∧ (wentOn (after (exec (.predSync (0 : Fin 32))
    wit_ControlMovesTransfer_18)) (0 : Fin 32) (⟨0, false, .code 66, 114, .short⟩ : Move) ({ rs := [5, 6] } : CoreSt))
    ∧ (leaves (⟨0, false, .code 66, 114, .short⟩ : Move) ({ rs := [5, 6] } : CoreSt) ∧ ({ rs := [5, 6] } :
    CoreSt).predOps = [] → ((after (exec (.predSync (0 : Fin 32)) wit_ControlMovesTransfer_18)).hw.core (0 : Fin
    32)).rap = ({ rs := [5, 6] } : CoreSt).rs.take 8) ∧ (¬leaves (⟨0, false, .code 66, 114, .short⟩ : Move)
    ({ rs := [5, 6] } : CoreSt) → ((after (exec (.predSync (0 : Fin 32)) wit_ControlMovesTransfer_18)).hw.core (0 :
    Fin 32)).predOps = ({ rs := [5, 6] } : CoreSt).predOps ++ [2])  := by decide +kernel

def wit_ControlMovesTransfer_19 : State :=
    ((coreRun [0x21f200000] {}).on (fun h => h.setF (corePage 0) 0
    CORE_STATUS_BAR 1) : State)

theorem test_ControlMovesTransfer_19 :
    (issues wit_ControlMovesTransfer_19 (0 : Fin 32) (⟨0, false, .code 67,
    114, .short⟩ : Move) ({} : CoreSt) (w40i (3) : Word)) ∧ ((⟨0, false, .code 67, 114, .short⟩ : Move).dst = 0x72) ∧
    ((w40i (3) : Word) = 3 ∧ ({} : CoreSt).ring < 2) ∧ (wentOn (after (exec (.predRelease (0 : Fin 32))
    wit_ControlMovesTransfer_19)) (0 : Fin 32) (⟨0, false, .code 67, 114, .short⟩ : Move) ({} : CoreSt)) ∧ (leaves
    (⟨0, false, .code 67, 114, .short⟩ : Move) ({} : CoreSt) ∧ ({} : CoreSt).predOps = [] → (after (exec (.predRelease
    (0 : Fin 32)) wit_ControlMovesTransfer_19)).hw.f (corePage (0 : Fin 32)) 0 CORE_STATUS_BAR = 0) ∧ (¬leaves (⟨0,
    false, .code 67, 114, .short⟩ : Move) ({} : CoreSt) → ((after (exec (.predRelease (0 : Fin 32))
    wit_ControlMovesTransfer_19)).hw.core (0 : Fin 32)).predOps = ({} : CoreSt).predOps ++ [3])  := by decide +kernel

def wit_ControlMovesTransfer_20 : State :=
    (coreRun [0x207300000] {} : State)

theorem test_ControlMovesTransfer_20 :
    (issues wit_ControlMovesTransfer_20 (0 : Fin 32) (⟨0, false, .code 64,
    115, .short⟩ : Move) ({} : CoreSt) (w40i (0) : Word)) ∧ ((⟨0, false, .code 64, 115, .short⟩ : Move).dst = 0x73) ∧
    (wentOn (after (exec (.sysWait (0 : Fin 32)) wit_ControlMovesTransfer_20)) (0 : Fin 32) (⟨0, false, .code 64, 115,
    .short⟩ : Move) ({} : CoreSt)) ∧ ((after (exec (.sysWait (0 : Fin 32)) wit_ControlMovesTransfer_20)).hw.isWaiting
    (0 : Fin 32) = true) ∧ ((after (exec (.sysWait (0 : Fin 32)) wit_ControlMovesTransfer_20)).hw.f (corePage (0 : Fin
    32)) 0 CORE_STATUS_WAITING = 1)  := by decide +kernel

def wit_ControlMovesTransfer_21 : State :=
    ((coreRun [] { evp := 1 }).on (fun h => h.setWaiting 0 true) :
    State)

theorem test_ControlMovesTransfer_21 :
    (wit_ControlMovesTransfer_21.hw.clusterRuns (clOf (0 : Fin 32)) = true
    ∧ wit_ControlMovesTransfer_21.hw.isWaiting (0 : Fin 32) = true) ∧ ((wit_ControlMovesTransfer_21.hw.presentedSrc
    (clOf (0 : Fin 32)) (noOf (0 : Fin 32))).isSome = true ∨ (wit_ControlMovesTransfer_21.hw.core (0 : Fin 32)).evp ≠
    0 ∨ (wit_ControlMovesTransfer_21.hw.core (0 : Fin 32)).haltReq = true) ∧ ((after (exec (.coreWake (0 : Fin 32))
    wit_ControlMovesTransfer_21)).hw.isWaiting (0 : Fin 32) = false ∧ (after (exec (.coreWake (0 : Fin 32))
    wit_ControlMovesTransfer_21)).hw.f (corePage (0 : Fin 32)) 0 CORE_STATUS_WAITING = 0) ∧ ((after (exec (.coreWake
    (0 : Fin 32)) wit_ControlMovesTransfer_21)).hw.core (0 : Fin 32) = wit_ControlMovesTransfer_21.hw.core (0 : Fin
    32))  := by decide +kernel

def wit_ControlMovesTransfer_22 : State :=
    ((coreRun [0x226a00000] {}).on (fun h => h.setReg (pLSEAM 0) 0x10 3
    (0x100000000 + 0x0061 * 0x10000 + 0x00D2)) : State)

theorem test_ControlMovesTransfer_22 :
    (issues wit_ControlMovesTransfer_22 (0 : Fin 32) (⟨0, false, .code 68,
    106, .short⟩ : Move) ({} : CoreSt) (w40i (4) : Word)) ∧ ((⟨0, false, .code 68, 106, .short⟩ : Move).dst = 0x6A) ∧
    ((w40i (4) : Word).toNat % 16 = 2 ^ (2 : Fin 4).val) ∧ (wentOn (after (exec (.evpT (0 : Fin 32))
    wit_ControlMovesTransfer_22)) (0 : Fin 32) (⟨0, false, .code 68, 106, .short⟩ : Move) ({} : CoreSt)) ∧ ((after
    (exec (.evpT (0 : Fin 32)) wit_ControlMovesTransfer_22)).hw.flights = (wit_ControlMovesTransfer_22.hw.launch
    (clCode (clOf (0 : Fin 32)) (0x0D0 + 4 * noOf (0 : Fin 32) + (2 : Fin 4)))).flights)  := by decide +kernel

def wit_ControlMovesTransfer_23 : State :=
    (coreRun [0x4040F] { half := true } : State)

theorem test_ControlMovesTransfer_23 :
    (wit_ControlMovesTransfer_23.hw.canIssue (0 : Fin 32) = true ∧
    wit_ControlMovesTransfer_23.next (0 : Fin 32) = .code (.rpt (⟨0, false, true, false, 15⟩ : Rpt)) ∧
    (wit_ControlMovesTransfer_23.hw.core (0 : Fin 32)).holds (⟨0, false, true, false, 15⟩ : Rpt).guard (⟨0, false,
    true, false, 15⟩ : Rpt).inv = true) ∧ (wit_ControlMovesTransfer_23.fetch (0 : Fin 32)
    (((wit_ControlMovesTransfer_23.hw.core (0 : Fin 32)).pc + 1) % 2 ^ 32) = .word (0 : Word) ∧ badPacket (0 : Word) =
    false ∧ (⟨0, false, true, false, 15⟩ : Rpt).csrc = false) ∧ ((after (exec (.rptPrefix (0 : Fin 32))
    wit_ControlMovesTransfer_23)).hw.core (0 : Fin 32) = frontOf ((after (exec (.rptPrefix (0 : Fin 32))
    wit_ControlMovesTransfer_23)).hw.core (0 : Fin 32))
    { wit_ControlMovesTransfer_23.hw.core (0 : Fin 32) with pc := ((wit_ControlMovesTransfer_23.hw.core (0 : Fin 32)).pc + 1) % 2 ^ 32, half := false, rpt := some (((wit_ControlMovesTransfer_23.hw.core (0 : Fin 32)).pc + 1) % 2 ^ 32), rptInt := (⟨0, false, true, false, 15⟩ : Rpt).int, rptCnt := (⟨0, false, true, false, 15⟩ : Rpt).count + 1, entered := none })
     := by decide +kernel

def wit_ControlMovesTransfer_24 : State :=
    (coreRun [0x4040F, 0x7300000] { half := true } : State)

theorem test_ControlMovesTransfer_24 :
    (wit_ControlMovesTransfer_24.hw.canIssue (0 : Fin 32) = true ∧
    wit_ControlMovesTransfer_24.next (0 : Fin 32) = .code (.rpt (⟨0, false, true, false, 15⟩ : Rpt)) ∧ badPacket
    (0x7300000 : Word) = true) ∧ (wit_ControlMovesTransfer_24.fetch (0 : Fin 32)
    (((wit_ControlMovesTransfer_24.hw.core (0 : Fin 32)).pc + 1) % 2 ^ 32) = .word (0x7300000 : Word)) ∧ (raised
    wit_ControlMovesTransfer_24 (after (exec (.rptPrefix (0 : Fin 32)) wit_ControlMovesTransfer_24)) (0 : Fin 32) 0x01
    0 0)  := by decide +kernel

def wit_PopOfAnEmptyReturnStack_1 : State :=
    (coreRun [0x206700000] { ring := 1 } : State)

theorem test_PopOfAnEmptyReturnStack_1 :
    (issues wit_PopOfAnEmptyReturnStack_1 (0 : Fin 32) (⟨0, false, .code
    64, 103, .short⟩ : Move) ({ ring := 1 } : CoreSt) (w40i (0) : Word)) ∧ ((⟨0, false, .code 64, 103, .short⟩ :
    Move).dst = 0x67) ∧ (({ ring := 1 } : CoreSt).rs = [] ∧ ({ ring := 1 } : CoreSt) =
    wit_PopOfAnEmptyReturnStack_1.hw.core (0 : Fin 32)) ∧ (raised wit_PopOfAnEmptyReturnStack_1 (after (exec (.bruRet
    (0 : Fin 32)) wit_PopOfAnEmptyReturnStack_1)) (0 : Fin 32) 0x07 0 0) ∧ (((after (exec (.bruRet (0 : Fin 32))
    wit_PopOfAnEmptyReturnStack_1)).hw.core (0 : Fin 32)).rs = [] ∧ ((after (exec (.bruRet (0 : Fin 32))
    wit_PopOfAnEmptyReturnStack_1)).hw.core (0 : Fin 32)).pc = (wit_PopOfAnEmptyReturnStack_1.hw.core (0 : Fin
    32)).pc)  := by decide +kernel

def wit_PopOfAnEmptyReturnStack_2 : State :=
    (coreRun [0x8201ec1800] {} : State)

theorem test_PopOfAnEmptyReturnStack_2 :
    (wit_PopOfAnEmptyReturnStack_2.hw.canIssue (0 : Fin 32) = true ∧
    wit_PopOfAnEmptyReturnStack_2.next (0 : Fin 32) = .code (.move (⟨0, false, .code 0x206, 7, .whole⟩ : Move)) ∧
    (wit_PopOfAnEmptyReturnStack_2.hw.core (0 : Fin 32)).holds (⟨0, false, .code 0x206, 7, .whole⟩ : Move).guard (⟨0,
    false, .code 0x206, 7, .whole⟩ : Move).inv = true) ∧ ((⟨0, false, .code 0x206, 7, .whole⟩ : Move).src = .code
    0x206 ∧ (wit_PopOfAnEmptyReturnStack_2.hw.core (0 : Fin 32)).rs = []) ∧ (raised wit_PopOfAnEmptyReturnStack_2
    (after (exec (.rsDataRead (0 : Fin 32)) wit_PopOfAnEmptyReturnStack_2)) (0 : Fin 32) 0x07 0 0)
     := by decide +kernel

def wit_LoadsStoresAndCopies_1 : State :=
    (coreRun [0x215d00000] { lsuA := 0x10040 } : State)

theorem test_LoadsStoresAndCopies_1 :
    (issues wit_LoadsStoresAndCopies_1 (0 : Fin 32) (⟨0, false, .code 66,
    93, .short⟩ : Move) ({ lsuA := 0x10040 } : CoreSt) (w40i (2) : Word)) ∧ ((⟨0, false, .code 66, 93, .short⟩ :
    Move).dst = 0x5D) ∧ (({ lsuA := 0x10040 } : CoreSt).cpy = none) ∧ (plainLoad wit_LoadsStoresAndCopies_1 (0 : Fin
    32) ({ lsuA := 0x10040 } : CoreSt) (({ lsuA := 0x10040 } : CoreSt).lsuA.toNat + (w40i (2) : Word).toNat)
    (0x1010042 : Nat)) ∧ (wentOn (after (exec (.lsuT (0 : Fin 32)) wit_LoadsStoresAndCopies_1)) (0 : Fin 32) (⟨0,
    false, .code 66, 93, .short⟩ : Move)
    { ({ lsuA := 0x10040 } : CoreSt) with loads := ({ lsuA := 0x10040 } : CoreSt).loads ++ [⟨[wit_LoadsStoresAndCopies_1.rd (0x1010042 : Nat)]⟩] })
     := by decide +kernel

def wit_LoadsStoresAndCopies_2 : State :=
    (coreRun [0x215e00000] { lsuA := 0x10042 } : State)

theorem test_LoadsStoresAndCopies_2 :
    (issues wit_LoadsStoresAndCopies_2 (0 : Fin 32) (⟨0, false, .code 66,
    94, .short⟩ : Move) ({ lsuA := 0x10042 } : CoreSt) (w40i (2) : Word)) ∧ ((⟨0, false, .code 66, 94, .short⟩ :
    Move).dst = 0x5E) ∧ (({ lsuA := 0x10042 } : CoreSt).cpy = none) ∧ (plainLoad wit_LoadsStoresAndCopies_2 (0 : Fin
    32) ({ lsuA := 0x10042 } : CoreSt) (({ lsuA := 0x10042 } : CoreSt).lsuA.toNat) (0x1010042 : Nat)) ∧ (wentOn (after
    (exec (.lsuLdi (0 : Fin 32)) wit_LoadsStoresAndCopies_2)) (0 : Fin 32) (⟨0, false, .code 66, 94, .short⟩ : Move)
    { ({ lsuA := 0x10042 } : CoreSt) with lsuA := w40 ((({ lsuA := 0x10042 } : CoreSt).lsuA.toNat + (w40i (2) : Word).toNat) % 2 ^ 32), loads := ({ lsuA := 0x10042 } : CoreSt).loads ++ [⟨[wit_LoadsStoresAndCopies_2.rd (0x1010042 : Nat)]⟩] })
     := by decide +kernel

def wit_LoadsStoresAndCopies_3 : State :=
    (coreRun [0x215f00000] { lsuA := 0x10040 } : State)

theorem test_LoadsStoresAndCopies_3 :
    (issues wit_LoadsStoresAndCopies_3 (0 : Fin 32) (⟨0, false, .code 66,
    95, .short⟩ : Move) ({ lsuA := 0x10040 } : CoreSt) (w40i (2) : Word)) ∧ ((⟨0, false, .code 66, 95, .short⟩ :
    Move).dst = 0x5F) ∧ (({ lsuA := 0x10040 } : CoreSt).cpy = none) ∧ (plainLoad wit_LoadsStoresAndCopies_3 (0 : Fin
    32) ({ lsuA := 0x10040 } : CoreSt) (({ lsuA := 0x10040 } : CoreSt).lsuA.toNat + (w40i (2) : Word).toNat)
    (0x1010042 : Nat) ∧ plainLoad wit_LoadsStoresAndCopies_3 (0 : Fin 32) ({ lsuA := 0x10040 } : CoreSt)
    (({ lsuA := 0x10040 } : CoreSt).lsuA.toNat + (w40i (2) : Word).toNat + 1) (0x1010043 : Nat)) ∧ (wentOn (after
    (exec (.lsuLdd (0 : Fin 32)) wit_LoadsStoresAndCopies_3)) (0 : Fin 32) (⟨0, false, .code 66, 95, .short⟩ : Move)
    { ({ lsuA := 0x10040 } : CoreSt) with loads := ({ lsuA := 0x10040 } : CoreSt).loads ++ [⟨[wit_LoadsStoresAndCopies_3.rd (0x1010042 : Nat), wit_LoadsStoresAndCopies_3.rd (0x1010043 : Nat)]⟩] })
     := by decide +kernel

def wit_LoadsStoresAndCopies_4 : State :=
    (coreRun [0x215d00000]
    { lsuA := 0x10040, sb := [⟨0x10042, [77], 0, false, false⟩] } : State)

theorem test_LoadsStoresAndCopies_4 :
    (issues wit_LoadsStoresAndCopies_4 (0 : Fin 32) (⟨0, false, .code 66,
    93, .short⟩ : Move) ({ lsuA := 0x10040, sb := [⟨0x10042, [77], 0, false, false⟩] } : CoreSt) (w40i (2) : Word)) ∧
    ((⟨0, false, .code 66, 93, .short⟩ : Move).dst = 0x5D) ∧
    (({ lsuA := 0x10040, sb := [⟨0x10042, [77], 0, false, false⟩] } : CoreSt).cpy = none ∧
    ({ lsuA := 0x10040, sb := [⟨0x10042, [77], 0, false, false⟩] } : CoreSt).sb = ([] : List Store) ++ [(⟨0x10042,
    [77], 0, false, false⟩ : Store)] ∧ (⟨0x10042, [77], 0, false, false⟩ : Store).words.length = 1) ∧ ((⟨0x10042,
    [77], 0, false, false⟩ : Store).addr % 2 ^ 32 = (⟨0x10042, [77], 0, false, false⟩ : Store).addr ∧ placeOf (.core
    (0 : Fin 32)) (⟨0x10042, [77], 0, false, false⟩ : Store).addr = placeOf (.core (0 : Fin 32))
    ((({ lsuA := 0x10040, sb := [⟨0x10042, [77], 0, false, false⟩] } : CoreSt).lsuA.toNat + (w40i (2) : Word).toNat) %
    2 ^ 32)) ∧ (placeOf (.core (0 : Fin 32)) (⟨0x10042, [77], 0, false, false⟩ : Store).addr = .word (0x1010042 : Nat)
    ∧ wit_LoadsStoresAndCopies_4.hw.accessFault (0 : Fin 32)
    ({ lsuA := 0x10040, sb := [⟨0x10042, [77], 0, false, false⟩] } : CoreSt).ring 0 (.word (0x1010042 : Nat)) = 0) ∧
    (wentOn (after (exec (.lsuT (0 : Fin 32)) wit_LoadsStoresAndCopies_4)) (0 : Fin 32) (⟨0, false, .code 66, 93,
    .short⟩ : Move)
    { ({ lsuA := 0x10040, sb := [⟨0x10042, [77], 0, false, false⟩] } : CoreSt) with loads := ({ lsuA := 0x10040, sb := [⟨0x10042, [77], 0, false, false⟩] } : CoreSt).loads ++ [⟨(⟨0x10042, [77], 0, false, false⟩ : Store).words⟩] })
     := by decide +kernel

def wit_LoadsStoresAndCopies_5 : State :=
    (coreRun [0x215d00000] { lsuA := 0x200000 } : State)

theorem test_LoadsStoresAndCopies_5 :
    (issues wit_LoadsStoresAndCopies_5 (0 : Fin 32) (⟨0, false, .code 66,
    93, .short⟩ : Move) ({ lsuA := 0x200000 } : CoreSt) (w40i (2) : Word)) ∧ ((⟨0, false, .code 66, 93, .short⟩ :
    Move).dst = 0x5D) ∧ (({ lsuA := 0x200000 } : CoreSt).cpy = none ∧ ({ lsuA := 0x200000 } : CoreSt).sb = []) ∧
    (placeOf (.core (0 : Fin 32)) ((({ lsuA := 0x200000 } : CoreSt).lsuA.toNat + (w40i (2) : Word).toNat) % 2 ^ 32) =
    .page (pCLU 0 : Page) (2 : Nat) ∧ wit_LoadsStoresAndCopies_5.hw.stopped (pCLU 0 : Page) = false) ∧ (wentOn (after
    (exec (.lsuT (0 : Fin 32)) wit_LoadsStoresAndCopies_5)) (0 : Fin 32) (⟨0, false, .code 66, 93, .short⟩ : Move)
    { ({ lsuA := 0x200000 } : CoreSt) with openLoad := some { addr := (({ lsuA := 0x200000 } : CoreSt).lsuA.toNat + (w40i (2) : Word).toNat) % 2 ^ 32, dbl := false, next := none, ring := ({ lsuA := 0x200000 } : CoreSt).ring, pc := ({ lsuA := 0x200000 } : CoreSt).pc, half := ({ lsuA := 0x200000 } : CoreSt).half, rpt := ({ lsuA := 0x200000 } : CoreSt).rpt, rptInt := ({ lsuA := 0x200000 } : CoreSt).rptInt, rptCnt := ({ lsuA := 0x200000 } : CoreSt).rptCnt } })
     := by decide +kernel

def wit_LoadsStoresAndCopies_6 : State :=
    (coreRun [0x3fdd00000] { } : State)

theorem test_LoadsStoresAndCopies_6 :
    (issues wit_LoadsStoresAndCopies_6 (0 : Fin 32) (⟨0, false, .code 127,
    93, .short⟩ : Move) ({ } : CoreSt) (w40i (-1) : Word)) ∧ ((⟨0, false, .code 127, 93, .short⟩ : Move).dst = 0x5D) ∧
    (({ } : CoreSt).cpy = none ∧ wit_LoadsStoresAndCopies_6.hw.accessFault (0 : Fin 32) ({ } : CoreSt).ring 0 (placeOf
    (.core (0 : Fin 32)) ((({ } : CoreSt).lsuA.toNat + (w40i (-1) : Word).toNat) % 2 ^ 32)) = (1 : Nat) ∧ (1 : Nat) ≠
    0) ∧ (raised wit_LoadsStoresAndCopies_6 (after (exec (.lsuT (0 : Fin 32)) wit_LoadsStoresAndCopies_6)) (0 : Fin
    32) 0x03 (1 : Nat) ((({ } : CoreSt).lsuA.toNat + (w40i (-1) : Word).toNat) % 2 ^ 32))  := by decide +kernel

def wit_LoadsStoresAndCopies_7 : State :=
    (coreRun [] { loads := [⟨[7]⟩, ⟨[8]⟩] } : State)

theorem test_LoadsStoresAndCopies_7 :
    (wit_LoadsStoresAndCopies_7.hw.clusterRuns (clOf (0 : Fin 32)) = true ∧
    (wit_LoadsStoresAndCopies_7.hw.core (0 : Fin 32)).openLoad = none ∧ (wit_LoadsStoresAndCopies_7.hw.core (0 : Fin
    32)).loads = ⟨[(7 : Word)]⟩ :: ([⟨[8]⟩] : List Load)) ∧ ((after (exec (.loadReturn (0 : Fin 32))
    wit_LoadsStoresAndCopies_7)).hw.core (0 : Fin 32) =
    { wit_LoadsStoresAndCopies_7.hw.core (0 : Fin 32) with loads := ([⟨[8]⟩] : List Load), lsuR := (7 : Word) })
     := by decide +kernel

def wit_LoadsStoresAndCopies_8 : State :=
    (coreRun [] { loads := [⟨[7, 9]⟩, ⟨[8]⟩] } : State)

theorem test_LoadsStoresAndCopies_8 :
    (wit_LoadsStoresAndCopies_8.hw.clusterRuns (clOf (0 : Fin 32)) = true ∧
    (wit_LoadsStoresAndCopies_8.hw.core (0 : Fin 32)).openLoad = none ∧ (wit_LoadsStoresAndCopies_8.hw.core (0 : Fin
    32)).loads = ⟨[(7 : Word), (9 : Word)]⟩ :: ([⟨[8]⟩] : List Load)) ∧ ((after (exec (.loadReturn (0 : Fin 32))
    wit_LoadsStoresAndCopies_8)).hw.core (0 : Fin 32) =
    { wit_LoadsStoresAndCopies_8.hw.core (0 : Fin 32) with loads := ([⟨[8]⟩] : List Load), lsuR := (7 : Word), lsuRh := (9 : Word) })
     := by decide +kernel

def wit_LoadsStoresAndCopies_9 : State :=
    (coreRun []
    { openLoad := some { addr := 0x200000, dbl := false, next := none } } : State)

theorem test_LoadsStoresAndCopies_9 :
    (wit_LoadsStoresAndCopies_9.hw.clusterRuns (clOf (0 : Fin 32)) = true ∧
    (wit_LoadsStoresAndCopies_9.hw.core (0 : Fin 32)).openLoad = some
    ({ addr := 0x200000, dbl := false, next := none } : OpenLoad) ∧ ({ addr := 0x200000, dbl := false, next := none }
    : OpenLoad).dbl = false ∧ ({ addr := 0x200000, dbl := false, next := none } : OpenLoad).addr < 2 ^ 32) ∧ (placeOf
    (.core (0 : Fin 32)) ({ addr := 0x200000, dbl := false, next := none } : OpenLoad).addr = .page (pCLU 0 : Page) (0
    : Nat) ∧ wit_LoadsStoresAndCopies_9.hw.stopped (pCLU 0 : Page) = false ∧ (wit_LoadsStoresAndCopies_9.hw.core (0 :
    Fin 32)).loads = []) ∧ (((after (exec (.loadReturn (0 : Fin 32)) wit_LoadsStoresAndCopies_9)).hw.core (0 : Fin
    32)).lsuR = (wit_LoadsStoresAndCopies_9.pageRead ⟨.core (0 : Fin 32),
    ({ addr := 0x200000, dbl := false, next := none } : OpenLoad).ring⟩ (pCLU 0 : Page) (0 : Nat)).2.2) ∧ (((after
    (exec (.loadReturn (0 : Fin 32)) wit_LoadsStoresAndCopies_9)).hw.core (0 : Fin 32)).openLoad = none ∧ ((after
    (exec (.loadReturn (0 : Fin 32)) wit_LoadsStoresAndCopies_9)).hw.core (0 : Fin 32)).lsuRh =
    (wit_LoadsStoresAndCopies_9.hw.core (0 : Fin 32)).lsuRh)  := by decide +kernel

def wit_LoadsStoresAndCopies_10 : State :=
    (coreRun [0x3be000000] { lsuB := 0x10050 } : State)

theorem test_LoadsStoresAndCopies_10 :
    (issues wit_LoadsStoresAndCopies_10 (0 : Fin 32) (⟨0, false, .code 119,
    96, .short⟩ : Move) ({ lsuB := 0x10050 } : CoreSt) (w40i (-9) : Word)) ∧ ((⟨0, false, .code 119, 96, .short⟩ :
    Move).dst = 0x60) ∧ (({ lsuB := 0x10050 } : CoreSt).cpy = none ∧ ({ lsuB := 0x10050 } : CoreSt).sb.length < 4) ∧
    (wentOn (after (exec (.lsuSt (0 : Fin 32)) wit_LoadsStoresAndCopies_10)) (0 : Fin 32) (⟨0, false, .code 119, 96,
    .short⟩ : Move)
    { ({ lsuB := 0x10050 } : CoreSt) with sb := ({ lsuB := 0x10050 } : CoreSt).sb ++ [{ addr := ({ lsuB := 0x10050 } : CoreSt).lsuB.toNat % 2 ^ 32, words := [(w40i (-9) : Word)], ring := ({ lsuB := 0x10050 } : CoreSt).ring }] })
     := by decide +kernel

def wit_LoadsStoresAndCopies_11 : State :=
    (coreRun [0x3be100000] { lsuB := 0x10050 } : State)

theorem test_LoadsStoresAndCopies_11 :
    (issues wit_LoadsStoresAndCopies_11 (0 : Fin 32) (⟨0, false, .code 119,
    97, .short⟩ : Move) ({ lsuB := 0x10050 } : CoreSt) (w40i (-9) : Word)) ∧ ((⟨0, false, .code 119, 97, .short⟩ :
    Move).dst = 0x61) ∧ (({ lsuB := 0x10050 } : CoreSt).cpy = none ∧ ({ lsuB := 0x10050 } : CoreSt).sb.length < 4) ∧
    (wentOn (after (exec (.lsuSti (0 : Fin 32)) wit_LoadsStoresAndCopies_11)) (0 : Fin 32) (⟨0, false, .code 119, 97,
    .short⟩ : Move)
    { ({ lsuB := 0x10050 } : CoreSt) with sb := ({ lsuB := 0x10050 } : CoreSt).sb ++ [{ addr := ({ lsuB := 0x10050 } : CoreSt).lsuB.toNat % 2 ^ 32, words := [(w40i (-9) : Word)], ring := ({ lsuB := 0x10050 } : CoreSt).ring }], lsuB := w40 ((({ lsuB := 0x10050 } : CoreSt).lsuB.toNat + 1) % 2 ^ 32) })
     := by decide +kernel

def wit_LoadsStoresAndCopies_12 : State :=
    (coreRun [0x3be200000] { lsuB := 0x10050, lsuH := 8 } : State)

theorem test_LoadsStoresAndCopies_12 :
    (issues wit_LoadsStoresAndCopies_12 (0 : Fin 32) (⟨0, false, .code 119,
    98, .short⟩ : Move) ({ lsuB := 0x10050, lsuH := 8 } : CoreSt) (w40i (-9) : Word)) ∧ ((⟨0, false, .code 119, 98,
    .short⟩ : Move).dst = 0x62) ∧ (({ lsuB := 0x10050, lsuH := 8 } : CoreSt).cpy = none ∧
    ({ lsuB := 0x10050, lsuH := 8 } : CoreSt).sb.length < 4) ∧ (({ lsuB := 0x10050, lsuH := 8 } : CoreSt).lsuB.toNat %
    2 = 0) ∧ (wentOn (after (exec (.lsuStd (0 : Fin 32)) wit_LoadsStoresAndCopies_12)) (0 : Fin 32) (⟨0, false, .code
    119, 98, .short⟩ : Move)
    { ({ lsuB := 0x10050, lsuH := 8 } : CoreSt) with sb := ({ lsuB := 0x10050, lsuH := 8 } : CoreSt).sb ++ [{ addr := ({ lsuB := 0x10050, lsuH := 8 } : CoreSt).lsuB.toNat % 2 ^ 32, words := [(w40i (-9) : Word), ({ lsuB := 0x10050, lsuH := 8 } : CoreSt).lsuH], ring := ({ lsuB := 0x10050, lsuH := 8 } : CoreSt).ring }] })
     := by decide +kernel

def wit_LoadsStoresAndCopies_13 : State :=
    (coreRun [0x3be200000] { lsuB := 0x10051, lsuH := 8 } : State)

theorem test_LoadsStoresAndCopies_13 :
    (issues wit_LoadsStoresAndCopies_13 (0 : Fin 32) (⟨0, false, .code 119,
    98, .short⟩ : Move) ({ lsuB := 0x10051, lsuH := 8 } : CoreSt) (w40i (-9) : Word)) ∧ ((⟨0, false, .code 119, 98,
    .short⟩ : Move).dst = 0x62) ∧ (({ lsuB := 0x10051, lsuH := 8 } : CoreSt).cpy = none ∧
    ({ lsuB := 0x10051, lsuH := 8 } : CoreSt).sb.length < 3) ∧ (({ lsuB := 0x10051, lsuH := 8 } : CoreSt).lsuB.toNat %
    2 = 1) ∧ (wit_LoadsStoresAndCopies_13.hw.accessFault (0 : Fin 32) ({ lsuB := 0x10051, lsuH := 8 } : CoreSt).ring 1
    (placeOf (.core (0 : Fin 32)) (({ lsuB := 0x10051, lsuH := 8 } : CoreSt).lsuB.toNat % 2 ^ 32)) = 0 ∧
    wit_LoadsStoresAndCopies_13.hw.accessFault (0 : Fin 32) ({ lsuB := 0x10051, lsuH := 8 } : CoreSt).ring 1 (placeOf
    (.core (0 : Fin 32)) ((({ lsuB := 0x10051, lsuH := 8 } : CoreSt).lsuB.toNat + 1) % 2 ^ 32)) = 0) ∧ (wentOn (after
    (exec (.lsuStd (0 : Fin 32)) wit_LoadsStoresAndCopies_13)) (0 : Fin 32) (⟨0, false, .code 119, 98, .short⟩ : Move)
    { ({ lsuB := 0x10051, lsuH := 8 } : CoreSt) with sb := ({ lsuB := 0x10051, lsuH := 8 } : CoreSt).sb ++ [{ addr := ({ lsuB := 0x10051, lsuH := 8 } : CoreSt).lsuB.toNat % 2 ^ 32, words := [(w40i (-9) : Word)], ring := ({ lsuB := 0x10051, lsuH := 8 } : CoreSt).ring }, { addr := (({ lsuB := 0x10051, lsuH := 8 } : CoreSt).lsuB.toNat + 1) % 2 ^ 32, words := [({ lsuB := 0x10051, lsuH := 8 } : CoreSt).lsuH], ring := ({ lsuB := 0x10051, lsuH := 8 } : CoreSt).ring, upper := true }] })
     := by decide +kernel

def wit_LoadsStoresAndCopies_14 : State :=
    (coreRun [0x3be200000] { lsuB := 0xFFFFFFF1 } : State)

theorem test_LoadsStoresAndCopies_14 :
    (issues wit_LoadsStoresAndCopies_14 (0 : Fin 32) (⟨0, false, .code 119,
    98, .short⟩ : Move) ({ lsuB := 0xFFFFFFF1 } : CoreSt) (w40i (-9) : Word)) ∧ ((⟨0, false, .code 119, 98, .short⟩ :
    Move).dst = 0x62) ∧ (({ lsuB := 0xFFFFFFF1 } : CoreSt).cpy = none ∧ ({ lsuB := 0xFFFFFFF1 } : CoreSt).sb.length <
    3 ∧ ({ lsuB := 0xFFFFFFF1 } : CoreSt).lsuB.toNat % 2 = 1 ∧ ({ lsuB := 0xFFFFFFF1 } : CoreSt).faults.length < 5) ∧
    (wit_LoadsStoresAndCopies_14.hw.accessFault (0 : Fin 32) ({ lsuB := 0xFFFFFFF1 } : CoreSt).ring 1 (placeOf (.core
    (0 : Fin 32)) (({ lsuB := 0xFFFFFFF1 } : CoreSt).lsuB.toNat % 2 ^ 32)) = (1 : Nat) ∧ (1 : Nat) ≠ 0) ∧ (wentOn
    (after (exec (.lsuStd (0 : Fin 32)) wit_LoadsStoresAndCopies_14)) (0 : Fin 32) (⟨0, false, .code 119, 98, .short⟩
    : Move)
    { ({ lsuB := 0xFFFFFFF1 } : CoreSt) with faults := ({ lsuB := 0xFFFFFFF1 } : CoreSt).faults ++ [⟨0x04, (1 : Nat)⟩] })
     := by decide +kernel

def wit_LoadsStoresAndCopies_15 : State :=
    (coreRun [] { sb := [⟨0x10042, [77], 0, false, false⟩] } : State)

theorem test_LoadsStoresAndCopies_15 :
    (wit_LoadsStoresAndCopies_15.hw.clusterRuns (clOf (0 : Fin 32)) = true
    ∧ (wit_LoadsStoresAndCopies_15.hw.core (0 : Fin 32)).sb = (⟨0x10042, [77], 0, false, false⟩ : Store) :: ([] : List
    Store) ∧ (⟨0x10042, [77], 0, false, false⟩ : Store).words = [(77 : Word)]) ∧ (wit_LoadsStoresAndCopies_15.hw.b
    pSNAP 0 SNAP_STATUS_CAPTURING = false ∨ (⟨0x10042, [77], 0, false, false⟩ : Store).marked = true) ∧ (placeOf
    (.core (0 : Fin 32)) ((⟨0x10042, [77], 0, false, false⟩ : Store).addr % 2 ^ 32) = .word (0x1010042 : Nat) ∧
    wit_LoadsStoresAndCopies_15.hw.accessFault (0 : Fin 32) (⟨0x10042, [77], 0, false, false⟩ : Store).ring 1 (.word
    (0x1010042 : Nat)) = 0)  := by decide +kernel

def wit_LoadsStoresAndCopies_16 : State :=
    (coreRun [] { sb := [⟨0xFFFFFFF1, [77], 0, false, false⟩] } :
    State)

theorem test_LoadsStoresAndCopies_16 :
    (wit_LoadsStoresAndCopies_16.hw.clusterRuns (clOf (0 : Fin 32)) = true
    ∧ (wit_LoadsStoresAndCopies_16.hw.core (0 : Fin 32)).sb = (⟨0xFFFFFFF1, [77], 0, false, false⟩ : Store) :: ([] :
    List Store) ∧ (⟨0xFFFFFFF1, [77], 0, false, false⟩ : Store).words = [(77 : Word)] ∧ (⟨0xFFFFFFF1, [77], 0, false,
    false⟩ : Store).upper = false) ∧ (wit_LoadsStoresAndCopies_16.hw.b pSNAP 0 SNAP_STATUS_CAPTURING = false ∨
    (⟨0xFFFFFFF1, [77], 0, false, false⟩ : Store).marked = true) ∧ (wit_LoadsStoresAndCopies_16.hw.accessFault (0 :
    Fin 32) (⟨0xFFFFFFF1, [77], 0, false, false⟩ : Store).ring 1 (placeOf (.core (0 : Fin 32)) ((⟨0xFFFFFFF1, [77], 0,
    false, false⟩ : Store).addr % 2 ^ 32)) = (1 : Nat) ∧ (1 : Nat) ≠ 0 ∧ (wit_LoadsStoresAndCopies_16.hw.core (0 : Fin
    32)).faults.length < 5)  := by decide +kernel

def wit_LoadsStoresAndCopies_17 : State :=
    ((coreRun [] { sb := [⟨0x10042, [77], 0, false, false⟩] }).on (fun
    h => h.setF pSNAP 0 SNAP_STATUS_CAPTURING 1) : State)

theorem test_LoadsStoresAndCopies_17 :
    ((wit_LoadsStoresAndCopies_17.hw.core (0 : Fin 32)).sb = (⟨0x10042,
    [77], 0, false, false⟩ : Store) :: ([] : List Store) ∧ (⟨0x10042, [77], 0, false, false⟩ : Store).marked = false ∧
    wit_LoadsStoresAndCopies_17.hw.b pSNAP 0 SNAP_STATUS_CAPTURING = true) ∧ ((after (exec (.storeDrain (0 : Fin 32))
    wit_LoadsStoresAndCopies_17)) = wit_LoadsStoresAndCopies_17)  := by decide +kernel

def wit_LoadsStoresAndCopies_18 : State :=
    (coreRun [0x21d900000] { cpyS := 0x10040, cpyD := 0x10080 } :
    State)

theorem test_LoadsStoresAndCopies_18 :
    (issues wit_LoadsStoresAndCopies_18 (0 : Fin 32) (⟨0, false, .code 67,
    89, .short⟩ : Move) ({ cpyS := 0x10040, cpyD := 0x10080 } : CoreSt) (w40i (3) : Word)) ∧ ((⟨0, false, .code 67,
    89, .short⟩ : Move).dst = 0x59) ∧ (({ cpyS := 0x10040, cpyD := 0x10080 } : CoreSt).cpy = none ∧ (w40i (3) :
    Word).toNat % 2 ^ 24 ≠ 0) ∧ (wentOn (after (exec (.cpyT (0 : Fin 32)) wit_LoadsStoresAndCopies_18)) (0 : Fin 32)
    (⟨0, false, .code 67, 89, .short⟩ : Move)
    { ({ cpyS := 0x10040, cpyD := 0x10080 } : CoreSt) with cpy := some ⟨({ cpyS := 0x10040, cpyD := 0x10080 } : CoreSt).cpyS.toNat % 2 ^ 32, ({ cpyS := 0x10040, cpyD := 0x10080 } : CoreSt).cpyD.toNat % 2 ^ 32, (w40i (3) : Word).toNat % 2 ^ 24, ({ cpyS := 0x10040, cpyD := 0x10080 } : CoreSt).ring⟩ })
     := by decide +kernel

def wit_LoadsStoresAndCopies_19 : State :=
    (coreRun [0x205900000] { cpyR := 5 } : State)

theorem test_LoadsStoresAndCopies_19 :
    (issues wit_LoadsStoresAndCopies_19 (0 : Fin 32) (⟨0, false, .code 64,
    89, .short⟩ : Move) ({ cpyR := 5 } : CoreSt) (w40i (0) : Word)) ∧ ((⟨0, false, .code 64, 89, .short⟩ : Move).dst =
    0x59) ∧ (({ cpyR := 5 } : CoreSt).cpy = none ∧ (w40i (0) : Word).toNat % 2 ^ 24 = 0) ∧ (wentOn (after (exec (.cpyT
    (0 : Fin 32)) wit_LoadsStoresAndCopies_19)) (0 : Fin 32) (⟨0, false, .code 64, 89, .short⟩ : Move)
    { ({ cpyR := 5 } : CoreSt) with cpyR := 0 })  := by decide +kernel

def wit_LoadsStoresAndCopies_20 : State :=
    (coreRun [] { cpy := some ⟨0x10040, 0x10080, 1, 0⟩ } : State)

theorem test_LoadsStoresAndCopies_20 :
    (wit_LoadsStoresAndCopies_20.hw.clusterRuns (clOf (0 : Fin 32)) = true
    ∧ (wit_LoadsStoresAndCopies_20.hw.core (0 : Fin 32)).sb = [] ∧ wit_LoadsStoresAndCopies_20.hw.b pSNAP 0
    SNAP_STATUS_CAPTURING = false) ∧ (wit_LoadsStoresAndCopies_20.hw.locked (0 : Fin 32) = false ∧
    (wit_LoadsStoresAndCopies_20.hw.core (0 : Fin 32)).cpy = some (⟨0x10040, 0x10080, 1, 0⟩ : CopyOp) ∧ (⟨0x10040,
    0x10080, 1, 0⟩ : CopyOp).count = 1 ∧ placeOf (.core (0 : Fin 32)) (⟨0x10040, 0x10080, 1, 0⟩ : CopyOp).src = .word
    (0x1010040 : Nat) ∧ placeOf (.core (0 : Fin 32)) (⟨0x10040, 0x10080, 1, 0⟩ : CopyOp).dst = .word (0x1010080 :
    Nat)) ∧ (wit_LoadsStoresAndCopies_20.hw.accessFault (0 : Fin 32) (⟨0x10040, 0x10080, 1, 0⟩ : CopyOp).ring 0 (.word
    (0x1010040 : Nat)) = 0 ∧ wit_LoadsStoresAndCopies_20.hw.accessFault (0 : Fin 32) (⟨0x10040, 0x10080, 1, 0⟩ :
    CopyOp).ring 1 (.word (0x1010080 : Nat)) = 0) ∧ (memKind (0x1010040 : Nat) ≠ .flash ∧
    wit_LoadsStoresAndCopies_20.seenWord (0x1010040 : Nat) = .data (0 : Word))  := by decide +kernel

def wit_LoadsStoresAndCopies_21 : State :=
    (coreRun [] { cpy := some ⟨0xFFFFFFF0, 0x10080, 3, 0⟩ } : State)

theorem test_LoadsStoresAndCopies_21 :
    (wit_LoadsStoresAndCopies_21.hw.clusterRuns (clOf (0 : Fin 32)) = true
    ∧ (wit_LoadsStoresAndCopies_21.hw.core (0 : Fin 32)).sb = [] ∧ wit_LoadsStoresAndCopies_21.hw.b pSNAP 0
    SNAP_STATUS_CAPTURING = false) ∧ (wit_LoadsStoresAndCopies_21.hw.locked (0 : Fin 32) = false ∧
    (wit_LoadsStoresAndCopies_21.hw.core (0 : Fin 32)).cpy = some (⟨0xFFFFFFF0, 0x10080, 3, 0⟩ : CopyOp) ∧ 0 <
    (⟨0xFFFFFFF0, 0x10080, 3, 0⟩ : CopyOp).count ∧ (⟨0xFFFFFFF0, 0x10080, 3, 0⟩ : CopyOp).count < 2 ^ 24 ∧ placeOf
    (.core (0 : Fin 32)) (⟨0xFFFFFFF0, 0x10080, 3, 0⟩ : CopyOp).src = .unmapped ∧ (wit_LoadsStoresAndCopies_21.hw.core
    (0 : Fin 32)).faults.length < 5)  := by decide +kernel

def wit_LoadsStoresAndCopies_22 : State :=
    (coreRun [] { fill := some ⟨0x4000000, true⟩ } : State)

theorem test_LoadsStoresAndCopies_22 :
    (wit_LoadsStoresAndCopies_22.hw.clusterRuns (clOf (0 : Fin 32)) = true
    ∧ placeOf (.core (0 : Fin 32)) (0x4000005 : BitVec 32).toNat = .word (0x4000005 : Nat) ∧ lineRegion (0 : Fin 32)
    (0x4000005 : Nat) = true ∧ wit_LoadsStoresAndCopies_22.hw.memStopped (0x4000005 : Nat) = false) ∧
    (wit_LoadsStoresAndCopies_22.hw.flashBusyAt (.word (0x4000005 : Nat)) = false ∧
    (wit_LoadsStoresAndCopies_22.hw.core (0 : Fin 32)).fill = some ⟨(0x4000005 : Nat) / 8 * 8, (true : Bool)⟩) ∧
    (((after (exec (.fetchFillDone (0 : Fin 32) (0x4000005 : BitVec 32)) wit_LoadsStoresAndCopies_22)).hw.core (0 :
    Fin 32)).lines.head? = some (wit_LoadsStoresAndCopies_22.lineAt (0x4000005 : Nat)) ∧ ((after (exec (.fetchFillDone
    (0 : Fin 32) (0x4000005 : BitVec 32)) wit_LoadsStoresAndCopies_22)).hw.core (0 : Fin 32)).lines.length ≤ 2) ∧
    ((true : Bool) = true → (((after (exec (.fetchFillDone (0 : Fin 32) (0x4000005 : BitVec 32))
    wit_LoadsStoresAndCopies_22)).hw.core (0 : Fin 32)).cache.at [] ((0x4000005 : Nat) / 8 * 8 / 8 % 128)).head? =
    some (wit_LoadsStoresAndCopies_22.lineAt (0x4000005 : Nat))) ∧ (((after (exec (.fetchFillDone (0 : Fin 32)
    (0x4000005 : BitVec 32)) wit_LoadsStoresAndCopies_22)).hw.core (0 : Fin 32)).pc =
    (wit_LoadsStoresAndCopies_22.hw.core (0 : Fin 32)).pc ∧ ((after (exec (.fetchFillDone (0 : Fin 32) (0x4000005 :
    BitVec 32)) wit_LoadsStoresAndCopies_22)).hw.core (0 : Fin 32)).half = (wit_LoadsStoresAndCopies_22.hw.core (0 :
    Fin 32)).half)  := by decide +kernel

def wit_LoadsStoresAndCopies_23 : State :=
    (coreRun [] { lines := [⟨0x4000000, []⟩] } : State)

theorem test_LoadsStoresAndCopies_23 :
    (accepts wit_LoadsStoresAndCopies_23.hw (.host : Requester) (corePage
    (0 : Fin 32)) = true) ∧ (((after (exec (.invAll (.host : Requester) (0 : Fin 32) (1 : Word))
    wit_LoadsStoresAndCopies_23)).hw.core (0 : Fin 32)).lines = [] ∧ ((after (exec (.invAll (.host : Requester) (0 :
    Fin 32) (1 : Word)) wit_LoadsStoresAndCopies_23)).hw.core (0 : Fin 32)).cache = [] ∧ ((after (exec (.invAll (.host
    : Requester) (0 : Fin 32) (1 : Word)) wit_LoadsStoresAndCopies_23)).hw.core (0 : Fin 32)).invUntil =
    wit_LoadsStoresAndCopies_23.hw.now + 43)  := by decide +kernel

def wit_LoadsStoresAndCopies_24 : State :=
    ((coreRun [] { lines := [⟨0x4000000, []⟩] }).on (fun h => h.setReg
    (pCORE 0 0) 0x81 0 0x4000005) : State)

theorem test_LoadsStoresAndCopies_24 :
    (accepts wit_LoadsStoresAndCopies_24.hw (.host : Requester) (corePage
    (0 : Fin 32)) = true ∧ bitOf (2 : Word).toNat 0 = false) ∧ (placeOf (.core (0 : Fin 32))
    (wit_LoadsStoresAndCopies_24.hw.f (corePage (0 : Fin 32)) 0 CORE_ICADDR_ADDR) = .word (0x4000005 : Nat)) ∧
    (((after (exec (.invLine (.host : Requester) (0 : Fin 32) (2 : Word)) wit_LoadsStoresAndCopies_24)).hw.core (0 :
    Fin 32)).lines = (wit_LoadsStoresAndCopies_24.hw.core (0 : Fin 32)).lines.filter (fun l => l.addr != (0x4000005 :
    Nat) / 8 * 8)) ∧ ((((after (exec (.invLine (.host : Requester) (0 : Fin 32) (2 : Word))
    wit_LoadsStoresAndCopies_24)).hw.core (0 : Fin 32)).cache.at [] ((0x4000005 : Nat) / 8 % 128)) =
    ((wit_LoadsStoresAndCopies_24.hw.core (0 : Fin 32)).cache.at [] ((0x4000005 : Nat) / 8 % 128)).filter (fun l =>
    l.addr != (0x4000005 : Nat) / 8 * 8))  := by decide +kernel

def wit_LoadsStoresAndCopies_25 : State :=
    (fly [⟨⟨0, 3⟩, 0x061, 0⟩] (up []) : State)

theorem test_LoadsStoresAndCopies_25 :
    (wit_LoadsStoresAndCopies_25.hw.clusterRuns (clOf (0 : Fin 32)) = true
    ∧ (wit_LoadsStoresAndCopies_25.hw.arrive (⟨⟨0, 3⟩, none⟩ : Arrival) (clOf (0 : Fin 32) * 4096 + 0x060 + 2 * noOf
    (0 : Fin 32) + (1 : Fin 2)) true).2 = true) ∧ (bitOf ((after (exec (.evpInputArrival (0 : Fin 32) (1 : Fin 2)
    (⟨⟨0, 3⟩, none⟩ : Arrival)) wit_LoadsStoresAndCopies_25)).hw.core (0 : Fin 32)).evp (1 : Fin 2) = true)
     := by decide +kernel

def wit_EntriesSaveAndEnter_1 : State :=
    ((coreRun []
    { ring := 3, sat := true, exc := some ⟨5, 0, 0, 77, true⟩ }).on (fun h => h.setReg (pDIC 0) 0x95 0 0x123) : State)

theorem test_EntriesSaveAndEnter_1 :
    (wit_EntriesSaveAndEnter_1.hw.canEnter (0 : Fin 32) = true ∧
    (wit_EntriesSaveAndEnter_1.hw.core (0 : Fin 32)).exc = some (⟨5, 0, 0, 77, true⟩ : Precise) ∧
    wit_EntriesSaveAndEnter_1.hw.frameFits (0 : Fin 32) 16 = true) ∧ ((wit_EntriesSaveAndEnter_1.hw.core (0 : Fin
    32)).cpy = none ∧ (wit_EntriesSaveAndEnter_1.hw.core (0 : Fin 32)).div = none) ∧ (((after (exec (.exceptionEntry
    (0 : Fin 32) (0 : Nat)) wit_EntriesSaveAndEnter_1)).hw.core (0 : Fin 32)).ring = min
    (wit_EntriesSaveAndEnter_1.hw.core (0 : Fin 32)).ring (min 1 (wit_EntriesSaveAndEnter_1.hw.f (pDIC (clOf (0 : Fin
    32))) 0 (DIC_CORE_XCFG_XRING (noOf (0 : Fin 32)))))) ∧ (((after (exec (.exceptionEntry (0 : Fin 32) (0 : Nat))
    wit_EntriesSaveAndEnter_1)).hw.core (0 : Fin 32)).pc = wit_EntriesSaveAndEnter_1.hw.f (pDIC (clOf (0 : Fin 32))) 0
    (DIC_CORE_XVEC_ADDR (noOf (0 : Fin 32))) ∧ ((after (exec (.exceptionEntry (0 : Fin 32) (0 : Nat))
    wit_EntriesSaveAndEnter_1)).hw.core (0 : Fin 32)).half = false ∧ ((after (exec (.exceptionEntry (0 : Fin 32) (0 :
    Nat)) wit_EntriesSaveAndEnter_1)).hw.core (0 : Fin 32)).rptCnt = 0) ∧ (((after (exec (.exceptionEntry (0 : Fin 32)
    (0 : Nat)) wit_EntriesSaveAndEnter_1)).hw.core (0 : Fin 32)).exc = none ∧ (after (exec (.exceptionEntry (0 : Fin
    32) (0 : Nat)) wit_EntriesSaveAndEnter_1)).hw.ien (0 : Fin 32) = wit_EntriesSaveAndEnter_1.hw.ien (0 : Fin 32)) ∧
    ((after (exec (.exceptionEntry (0 : Fin 32) (0 : Nat)) wit_EntriesSaveAndEnter_1)).hw.xfp (0 : Fin 32) =
    wit_EntriesSaveAndEnter_1.hw.xfp (0 : Fin 32) - 16) ∧ (frameBits (after (exec (.exceptionEntry (0 : Fin 32) (0 :
    Nat)) wit_EntriesSaveAndEnter_1)) (0 : Fin 32) (wit_EntriesSaveAndEnter_1.hw.xfp (0 : Fin 32) - 16) 0 36 4 = 1 ∧
    frameBits (after (exec (.exceptionEntry (0 : Fin 32) (0 : Nat)) wit_EntriesSaveAndEnter_1)) (0 : Fin 32)
    (wit_EntriesSaveAndEnter_1.hw.xfp (0 : Fin 32) - 16) 0 24 8 = (⟨5, 0, 0, 77, true⟩ : Precise).code % 256 ∧
    frameBits (after (exec (.exceptionEntry (0 : Fin 32) (0 : Nat)) wit_EntriesSaveAndEnter_1)) (0 : Fin 32)
    (wit_EntriesSaveAndEnter_1.hw.xfp (0 : Fin 32) - 16) 0 16 8 = (⟨5, 0, 0, 77, true⟩ : Precise).info % 256) ∧
    (frameBits (after (exec (.exceptionEntry (0 : Fin 32) (0 : Nat)) wit_EntriesSaveAndEnter_1)) (0 : Fin 32)
    (wit_EntriesSaveAndEnter_1.hw.xfp (0 : Fin 32) - 16) 0 34 2 = (wit_EntriesSaveAndEnter_1.hw.core (0 : Fin
    32)).ring % 4 ∧ frameBits (after (exec (.exceptionEntry (0 : Fin 32) (0 : Nat)) wit_EntriesSaveAndEnter_1)) (0 :
    Fin 32) (wit_EntriesSaveAndEnter_1.hw.xfp (0 : Fin 32) - 16) 0 13 1 = b2n (⟨5, 0, 0, 77, true⟩ : Precise).half) ∧
    (frameBits (after (exec (.exceptionEntry (0 : Fin 32) (0 : Nat)) wit_EntriesSaveAndEnter_1)) (0 : Fin 32)
    (wit_EntriesSaveAndEnter_1.hw.xfp (0 : Fin 32) - 16) 0 10 1 = b2n (wit_EntriesSaveAndEnter_1.hw.core (0 : Fin
    32)).sat ∧ frameBits (after (exec (.exceptionEntry (0 : Fin 32) (0 : Nat)) wit_EntriesSaveAndEnter_1)) (0 : Fin
    32) (wit_EntriesSaveAndEnter_1.hw.xfp (0 : Fin 32) - 16) 0 9 1 = b2n (wit_EntriesSaveAndEnter_1.hw.ien (0 : Fin
    32))) ∧ ((after (exec (.exceptionEntry (0 : Fin 32) (0 : Nat)) wit_EntriesSaveAndEnter_1)).rd (tcm (0 : Fin 32)
    (wit_EntriesSaveAndEnter_1.hw.xfp (0 : Fin 32) - 15)) = w40 (⟨5, 0, 0, 77, true⟩ : Precise).retPc ∧ (after (exec
    (.exceptionEntry (0 : Fin 32) (0 : Nat)) wit_EntriesSaveAndEnter_1)).rd (tcm (0 : Fin 32)
    (wit_EntriesSaveAndEnter_1.hw.xfp (0 : Fin 32) - 14)) = w40 (⟨5, 0, 0, 77, true⟩ : Precise).faddr) ∧ ((after (exec
    (.exceptionEntry (0 : Fin 32) (0 : Nat)) wit_EntriesSaveAndEnter_1)).rd (tcm (0 : Fin 32)
    (wit_EntriesSaveAndEnter_1.hw.xfp (0 : Fin 32) - 13)) = w40 ((wit_EntriesSaveAndEnter_1.hw.core (0 : Fin
    32)).preds - (wit_EntriesSaveAndEnter_1.hw.core (0 : Fin 32)).preds % 2)) ∧ (((after (exec (.exceptionEntry (0 :
    Fin 32) (0 : Nat)) wit_EntriesSaveAndEnter_1)).hw.core (0 : Fin 32)).v = (wit_EntriesSaveAndEnter_1.hw.core (0 :
    Fin 32)).v ∧ ((after (exec (.exceptionEntry (0 : Fin 32) (0 : Nat)) wit_EntriesSaveAndEnter_1)).hw.core (0 : Fin
    32)).acc = (wit_EntriesSaveAndEnter_1.hw.core (0 : Fin 32)).acc ∧ ((after (exec (.exceptionEntry (0 : Fin 32) (0 :
    Nat)) wit_EntriesSaveAndEnter_1)).hw.core (0 : Fin 32)).rs = (wit_EntriesSaveAndEnter_1.hw.core (0 : Fin 32)).rs ∧
    ((after (exec (.exceptionEntry (0 : Fin 32) (0 : Nat)) wit_EntriesSaveAndEnter_1)).hw.core (0 : Fin 32)).sb =
    (wit_EntriesSaveAndEnter_1.hw.core (0 : Fin 32)).sb)  := by decide +kernel

def wit_EntriesSaveAndEnter_2 : State :=
    (coreRun [] { pc := 9, faults := [⟨4, 3⟩, ⟨8, 5⟩] } : State)

theorem test_EntriesSaveAndEnter_2 :
    (wit_EntriesSaveAndEnter_2.hw.canEnter (0 : Fin 32) = true ∧
    (wit_EntriesSaveAndEnter_2.hw.core (0 : Fin 32)).exc = none ∧ (wit_EntriesSaveAndEnter_2.hw.core (0 : Fin
    32)).faults = (⟨4, 3⟩ : Imprecise) :: ([⟨8, 5⟩] : List Imprecise) ∧ wit_EntriesSaveAndEnter_2.boundary (0 : Fin
    32) false = true) ∧ (wit_EntriesSaveAndEnter_2.hw.frameFits (0 : Fin 32) 16 = true ∧
    (wit_EntriesSaveAndEnter_2.hw.core (0 : Fin 32)).cpy = none ∧ wit_EntriesSaveAndEnter_2.fetchBusy (0 : Fin 32) =
    false)  := by decide +kernel

def wit_EntriesSaveAndEnter_3 : State :=
    (coreRun []
    { divR := 6, div := some ⟨1, 9, 4, 0, none⟩, exc := some ⟨5, 0, 0, 77, true⟩ } : State)

theorem test_EntriesSaveAndEnter_3 :
    (wit_EntriesSaveAndEnter_3.hw.canEnter (0 : Fin 32) = true ∧
    (wit_EntriesSaveAndEnter_3.hw.core (0 : Fin 32)).exc = some (⟨5, 0, 0, 77, true⟩ : Precise) ∧
    wit_EntriesSaveAndEnter_3.hw.frameFits (0 : Fin 32) 16 = true) ∧ ((wit_EntriesSaveAndEnter_3.hw.core (0 : Fin
    32)).cpy = none ∧ (wit_EntriesSaveAndEnter_3.hw.core (0 : Fin 32)).div = some (⟨1, 9, 4, 0, none⟩ : DivOp) ∧ (⟨1,
    9, 4, 0, none⟩ : DivOp).kind < 3 ∧ (⟨1, 9, 4, 0, none⟩ : DivOp).steps < 22)  := by decide +kernel

def wit_EntriesSaveAndEnter_4 : State :=
    (coreRun []
    { cpyR := 6, cpy := some ⟨8, 9, 4, 0⟩, exc := some ⟨5, 0, 0, 77, true⟩ } : State)

theorem test_EntriesSaveAndEnter_4 :
    (wit_EntriesSaveAndEnter_4.hw.canEnter (0 : Fin 32) = true ∧
    (wit_EntriesSaveAndEnter_4.hw.core (0 : Fin 32)).exc = some (⟨5, 0, 0, 77, true⟩ : Precise) ∧
    wit_EntriesSaveAndEnter_4.hw.frameFits (0 : Fin 32) 16 = true) ∧ ((wit_EntriesSaveAndEnter_4.hw.core (0 : Fin
    32)).cpy = some (⟨8, 9, 4, 0⟩ : CopyOp) ∧ (wit_EntriesSaveAndEnter_4.hw.core (0 : Fin 32)).div = none) ∧ (((after
    (exec (.exceptionEntry (0 : Fin 32) 0) wit_EntriesSaveAndEnter_4)).hw.core (0 : Fin 32)).cpy = none ∧ ((after
    (exec (.exceptionEntry (0 : Fin 32) 0) wit_EntriesSaveAndEnter_4)).hw.core (0 : Fin 32)).cpyR = 0) ∧ (frameBits
    (after (exec (.exceptionEntry (0 : Fin 32) 0) wit_EntriesSaveAndEnter_4)) (0 : Fin 32)
    (wit_EntriesSaveAndEnter_4.hw.xfp (0 : Fin 32) - 16) 0 11 1 = 1) ∧ ((after (exec (.exceptionEntry (0 : Fin 32) 0)
    wit_EntriesSaveAndEnter_4)).rd (tcm (0 : Fin 32) (wit_EntriesSaveAndEnter_4.hw.xfp (0 : Fin 32) - 4)) = w40 (⟨8,
    9, 4, 0⟩ : CopyOp).src ∧ (after (exec (.exceptionEntry (0 : Fin 32) 0) wit_EntriesSaveAndEnter_4)).rd (tcm (0 :
    Fin 32) (wit_EntriesSaveAndEnter_4.hw.xfp (0 : Fin 32) - 3)) = w40 (⟨8, 9, 4, 0⟩ : CopyOp).dst ∧ (after (exec
    (.exceptionEntry (0 : Fin 32) 0) wit_EntriesSaveAndEnter_4)).rd (tcm (0 : Fin 32)
    (wit_EntriesSaveAndEnter_4.hw.xfp (0 : Fin 32) - 2)) = w40 (⟨8, 9, 4, 0⟩ : CopyOp).count) ∧ ((after (exec
    (.exceptionEntry (0 : Fin 32) 0) wit_EntriesSaveAndEnter_4)).rd (tcm (0 : Fin 32)
    (wit_EntriesSaveAndEnter_4.hw.xfp (0 : Fin 32) - 1)) = (wit_EntriesSaveAndEnter_4.hw.core (0 : Fin 32)).cpyR)
     := by decide +kernel

def wit_EntriesSaveAndEnter_5 : State :=
    ((coreRun [] { pc := 9, ring := 2 }).on (fun h => ((((h.setF (pDIC 0)
    0 DIC_CTRL_EN 1).setReg (pDIC 0) 0x10 0x55 0x1003).setF (pDIC 0) 0x55 DIC_SRCSTAT_LATCH 1).setIen 0 true).setReg
    (pDIC 0) 0x94 0 0x444) : State)

theorem test_EntriesSaveAndEnter_5 :
    (wit_EntriesSaveAndEnter_5.hw.canEnter (0 : Fin 32) = true ∧
    wit_EntriesSaveAndEnter_5.hw.ien (0 : Fin 32) = true ∧ (wit_EntriesSaveAndEnter_5.hw.core (0 : Fin 32)).faults =
    [] ∧ wit_EntriesSaveAndEnter_5.boundary (0 : Fin 32) true = true) ∧ (wit_EntriesSaveAndEnter_5.hw.presentedSrc
    (clOf (0 : Fin 32)) (noOf (0 : Fin 32)) = some (0x55 : Nat) ∧ wit_EntriesSaveAndEnter_5.hw.frameFits (0 : Fin 32)
    16 = true) ∧ ((wit_EntriesSaveAndEnter_5.hw.core (0 : Fin 32)).cpy = none ∧ wit_EntriesSaveAndEnter_5.fetchBusy (0
    : Fin 32) = false ∧ wit_EntriesSaveAndEnter_5.hw.swAt = [])  := by decide +kernel

def wit_EntriesSaveAndEnter_6 : State :=
    (coreRun [] {} : State)

theorem test_EntriesSaveAndEnter_6 :
    (wit_EntriesSaveAndEnter_6.hw.ien (0 : Fin 32) = false) ∧ ((after (exec
    (.interruptEntry (0 : Fin 32) (0 : Nat)) wit_EntriesSaveAndEnter_6)) = wit_EntriesSaveAndEnter_6)
     := by decide +kernel

def wit_EntriesSaveAndEnter_7 : State :=
    ((coreRun []
    { exc := some ⟨5, 0, 0, 77, true⟩, faults := [⟨4, 1⟩] }).on (fun h => h.setReg (pDIC 0) 0x9B 0 0x17F00) : State)

theorem test_EntriesSaveAndEnter_7 :
    (wit_EntriesSaveAndEnter_7.hw.canEnter (0 : Fin 32) = true ∧
    (wit_EntriesSaveAndEnter_7.hw.core (0 : Fin 32)).exc = some (⟨5, 0, 0, 77, true⟩ : Precise) ∧
    wit_EntriesSaveAndEnter_7.hw.frameFits (0 : Fin 32) 16 = false ∧ (wit_EntriesSaveAndEnter_7.hw.core (0 : Fin
    32)).cpy = none) ∧ ((after (exec (.exceptionEntry (0 : Fin 32) (0 : Nat)) wit_EntriesSaveAndEnter_7)).hw.locked (0
    : Fin 32) = true) ∧ ((after (exec (.exceptionEntry (0 : Fin 32) (0 : Nat)) wit_EntriesSaveAndEnter_7)).hw.f (pDIC
    (clOf (0 : Fin 32))) 0 (DIC_CORE_LOCKINFO_CAUSE (noOf (0 : Fin 32))) = 1 ∧ (after (exec (.exceptionEntry (0 : Fin
    32) (0 : Nat)) wit_EntriesSaveAndEnter_7)).hw.f (pDIC (clOf (0 : Fin 32))) 0 (DIC_CORE_LOCKINFO_CODE1 (noOf (0 :
    Fin 32))) = (⟨5, 0, 0, 77, true⟩ : Precise).code % 256) ∧ ((after (exec (.exceptionEntry (0 : Fin 32) (0 : Nat))
    wit_EntriesSaveAndEnter_7)).hw.f (pDIC (clOf (0 : Fin 32))) 0 (DIC_CORE_LOCKPC_ADDR (noOf (0 : Fin 32))) = (⟨5, 0,
    0, 77, true⟩ : Precise).retPc % 2 ^ 32) ∧ (((after (exec (.exceptionEntry (0 : Fin 32) (0 : Nat))
    wit_EntriesSaveAndEnter_7)).hw.core (0 : Fin 32)).faults = [] ∧ (after (exec (.exceptionEntry (0 : Fin 32) (0 :
    Nat)) wit_EntriesSaveAndEnter_7)).hw.canIssue (0 : Fin 32) = false ∧ (after (exec (.exceptionEntry (0 : Fin 32) (0
    : Nat)) wit_EntriesSaveAndEnter_7)).hw.xfp (0 : Fin 32) = wit_EntriesSaveAndEnter_7.hw.xfp (0 : Fin 32)) ∧ ((after
    (exec (.exceptionEntry (0 : Fin 32) (0 : Nat)) wit_EntriesSaveAndEnter_7)).hw.f (pDIC (clOf (0 : Fin 32))) 0 ⟨5, 4
    + noOf (0 : Fin 32), 1⟩ = 1)  := by decide +kernel

def wit_SourcesPendClaimAndComplete_1 : State :=
    ((up []).on (fun h => ((h.setReg (pTRK 1) 5 0 1).setReg (pTRK
    1) 4 0 1).setReg (pDIC 1) 0x10 0x18 3) : State)

theorem test_SourcesPendClaimAndComplete_1 :
    (wit_SourcesPendClaimAndComplete_1.hw.clusterRuns (1 : Fin 8) =
    true ∧ wit_SourcesPendClaimAndComplete_1.hw.srcLine (1 : Fin 8) (0x18 : Fin 256) = true) ∧
    (wit_SourcesPendClaimAndComplete_1.hw.dicLine.at false (256 * (1 : Fin 8) + (0x18 : Fin 256)) = false ∧
    wit_SourcesPendClaimAndComplete_1.hw.b (pDIC (1 : Fin 8)) (0x18 : Fin 256) DIC_SRCCFG_TYPE = true) ∧ ((after (exec
    (.dicLineChange (1 : Fin 8) (0x18 : Fin 256)) wit_SourcesPendClaimAndComplete_1)).hw.f (pDIC (1 : Fin 8)) (0x18 :
    Fin 256) DIC_SRCSTAT_LATCH = 1 ∧ (after (exec (.dicLineChange (1 : Fin 8) (0x18 : Fin 256))
    wit_SourcesPendClaimAndComplete_1)).hw.srcPend (1 : Fin 8) (0x18 : Fin 256) = true)  := by decide +kernel

def wit_SourcesPendClaimAndComplete_2 : State :=
    ((up []).on (fun h => ((h.setReg (pTRK 1) 5 0 1).setReg (pTRK
    1) 4 0 1).setReg (pDIC 1) 0x10 0x18 1) : State)

theorem test_SourcesPendClaimAndComplete_2 :
    (wit_SourcesPendClaimAndComplete_2.hw.clusterRuns (1 : Fin 8) =
    true ∧ (wit_SourcesPendClaimAndComplete_2.hw.srcLine (1 : Fin 8) (0x18 : Fin 256) = false ∨
    wit_SourcesPendClaimAndComplete_2.hw.dicLine.at false (256 * (1 : Fin 8) + (0x18 : Fin 256)) = true ∨
    wit_SourcesPendClaimAndComplete_2.hw.b (pDIC (1 : Fin 8)) (0x18 : Fin 256) DIC_SRCCFG_TYPE = false)) ∧ ((after
    (exec (.dicLineChange (1 : Fin 8) (0x18 : Fin 256)) wit_SourcesPendClaimAndComplete_2)).hw.reg (pDIC (1 : Fin 8))
    0x11 (0x18 : Fin 256) = wit_SourcesPendClaimAndComplete_2.hw.reg (pDIC (1 : Fin 8)) 0x11 (0x18 : Fin 256)) ∧
    ((after (exec (.dicLineChange (1 : Fin 8) (0x18 : Fin 256)) wit_SourcesPendClaimAndComplete_2)).hw.dicLine.at
    false (256 * (1 : Fin 8) + (0x18 : Fin 256)) = wit_SourcesPendClaimAndComplete_2.hw.srcLine (1 : Fin 8) (0x18 :
    Fin 256))  := by decide +kernel

def wit_SourcesPendClaimAndComplete_3 : State :=
    (up [] : State)

theorem test_SourcesPendClaimAndComplete_3 :
    (accepts wit_SourcesPendClaimAndComplete_3.hw (.core 6 :
    Requester) (pDIC (1 : Fin 8)) = true)  := by decide +kernel

def wit_SourcesPendClaimAndComplete_4 : State :=
    ((up []).on (fun h => ((((h.setF (pDIC 1) 0 DIC_CTRL_EN
    1).setReg (pDIC 1) 0x10 0xC0 0x2803).setReg (pDIC 1) 0x10 0xB0 0x4001).doorbell 1 0xC0).doorbell 1 0xB0) : State)

theorem test_SourcesPendClaimAndComplete_4 :
    (wit_SourcesPendClaimAndComplete_4.hw.mayRead
    (wit_SourcesPendClaimAndComplete_4.hw.acc (.core 4 : Requester)) (pDIC (1 : Fin 8)) = true ∧
    wit_SourcesPendClaimAndComplete_4.hw.winner (1 : Fin 8) (0 : Fin 4) = some (0xC0 : Nat)) ∧ ((after (exec
    (.dicClaim (.core 4 : Requester) (1 : Fin 8) (0 : Fin 4)) wit_SourcesPendClaimAndComplete_4)).hw.resp = [w40
    (wit_SourcesPendClaimAndComplete_4.hw.f (pDIC (1 : Fin 8)) (0xC0 : Nat) DIC_SRCCFG_PRIO * 2 ^ 16 +
    wit_SourcesPendClaimAndComplete_4.hw.f (pDIC (1 : Fin 8)) (0xC0 : Nat) DIC_SRCCFG_TIER * 2 ^ 9 + 2 ^ 8 + (0xC0 :
    Nat))]) ∧ ((after (exec (.dicClaim (.core 4 : Requester) (1 : Fin 8) (0 : Fin 4))
    wit_SourcesPendClaimAndComplete_4)).hw.f (pDIC (1 : Fin 8)) (0xC0 : Nat) DIC_SRCSTAT_ACTIVE = 1 ∧ (after (exec
    (.dicClaim (.core 4 : Requester) (1 : Fin 8) (0 : Fin 4)) wit_SourcesPendClaimAndComplete_4)).hw.f (pDIC (1 : Fin
    8)) (0xC0 : Nat) DIC_SRCSTAT_LATCH = 0) ∧ ((after (exec (.dicClaim (.core 4 : Requester) (1 : Fin 8) (0 : Fin 4))
    wit_SourcesPendClaimAndComplete_4)).hw.stack (1 : Fin 8) (0 : Fin 4) = ⟨(0xC0 : Nat),
    wit_SourcesPendClaimAndComplete_4.hw.f (pDIC (1 : Fin 8)) (0xC0 : Nat) DIC_SRCCFG_TIER,
    wit_SourcesPendClaimAndComplete_4.hw.f (pDIC (1 : Fin 8)) (0xC0 : Nat) DIC_SRCCFG_PRIO⟩ ::
    wit_SourcesPendClaimAndComplete_4.hw.stack (1 : Fin 8) (0 : Fin 4)) ∧
    (wit_SourcesPendClaimAndComplete_4.hw.deliverable (1 : Fin 8) (0 : Fin 4) (0xC0 : Nat) = true ∧ (0xC0 : Nat) ∈
    wit_SourcesPendClaimAndComplete_4.hw.enabledSources (1 : Fin 8)) ∧ (∀ q ∈
    wit_SourcesPendClaimAndComplete_4.hw.enabledSources (1 : Fin 8), wit_SourcesPendClaimAndComplete_4.hw.deliverable
    (1 : Fin 8) (0 : Fin 4) q = true → wit_SourcesPendClaimAndComplete_4.hw.srcRank (1 : Fin 8) (0xC0 : Nat) ≤
    wit_SourcesPendClaimAndComplete_4.hw.srcRank (1 : Fin 8) q)  := by decide +kernel

def wit_SourcesPendClaimAndComplete_5 : State :=
    (up [] : State)

theorem test_SourcesPendClaimAndComplete_5 :
    (wit_SourcesPendClaimAndComplete_5.hw.mayRead
    (wit_SourcesPendClaimAndComplete_5.hw.acc (.core 4 : Requester)) (pDIC (1 : Fin 8)) = true ∧
    wit_SourcesPendClaimAndComplete_5.hw.winner (1 : Fin 8) (0 : Fin 4) = none) ∧ ((after (exec (.dicClaim (.core 4 :
    Requester) (1 : Fin 8) (0 : Fin 4)) wit_SourcesPendClaimAndComplete_5)).hw.resp = [0] ∧ (after (exec (.dicClaim
    (.core 4 : Requester) (1 : Fin 8) (0 : Fin 4)) wit_SourcesPendClaimAndComplete_5)).hw.stack (1 : Fin 8) (0 : Fin
    4) = wit_SourcesPendClaimAndComplete_5.hw.stack (1 : Fin 8) (0 : Fin 4) ∧ (after (exec (.dicClaim (.core 4 :
    Requester) (1 : Fin 8) (0 : Fin 4)) wit_SourcesPendClaimAndComplete_5)).hw.regs =
    wit_SourcesPendClaimAndComplete_5.hw.regs)  := by decide +kernel

def wit_SourcesPendClaimAndComplete_6 : State :=
    ((up []).on (fun h => (h.setStack 1 0 [⟨0xC0, 2, 0x80⟩, ⟨9,
    3, 1⟩]).setF (pDIC 1) 0xC0 DIC_SRCSTAT_ACTIVE 1) : State)

theorem test_SourcesPendClaimAndComplete_6 :
    (accepts wit_SourcesPendClaimAndComplete_6.hw (.core 4 :
    Requester) (pDIC (1 : Fin 8)) = true ∧ wit_SourcesPendClaimAndComplete_6.hw.stack (1 : Fin 8) (0 : Fin 4) =
    (⟨0xC0, 2, 0x80⟩ : Claimed) :: ([⟨9, 3, 1⟩] : List Claimed) ∧ (⟨0xC0, 2, 0x80⟩ : Claimed).src = (0xC0 :
    Word).toNat % 256) ∧ ((after (exec (.dicDone (.core 4 : Requester) (1 : Fin 8) (0 : Fin 4) (0xC0 : Word))
    wit_SourcesPendClaimAndComplete_6)).hw.stack (1 : Fin 8) (0 : Fin 4) = ([⟨9, 3, 1⟩] : List Claimed) ∧ (after (exec
    (.dicDone (.core 4 : Requester) (1 : Fin 8) (0 : Fin 4) (0xC0 : Word)) wit_SourcesPendClaimAndComplete_6)).hw.f
    (pDIC (1 : Fin 8)) (⟨0xC0, 2, 0x80⟩ : Claimed).src DIC_SRCSTAT_ACTIVE = 0) ∧ ((after (exec (.dicDone (.core 4 :
    Requester) (1 : Fin 8) (0 : Fin 4) (0xC0 : Word)) wit_SourcesPendClaimAndComplete_6)).hw.f (pDIC (1 : Fin 8)) 0
    (DIC_CORE_RUNSTAT_RUNTIER (0 : Fin 4)) = (match ([⟨9, 3, 1⟩] : List Claimed) with | [] => 8 | y :: _ => y.tier %
    16))  := by decide +kernel

def wit_SourcesPendClaimAndComplete_7 : State :=
    ((up []).on (fun h => h.setReg (pDIC 1) 0x10 0 0x2803) :
    State)

theorem test_SourcesPendClaimAndComplete_7 :
    (accepts wit_SourcesPendClaimAndComplete_7.hw (.core 4 :
    Requester) (pDIC (1 : Fin 8)) = true ∧ wit_SourcesPendClaimAndComplete_7.hw.b (pDIC (1 : Fin 8)) 0 DIC_CTRL_COMPAT
    = false) ∧ ((after (exec (.srccfgDisable (.core 4 : Requester) (1 : Fin 8) (0x2800 : Word))
    wit_SourcesPendClaimAndComplete_7)).hw.f (pDIC (1 : Fin 8)) (wit_SourcesPendClaimAndComplete_7.hw.chanFor (pDIC (1
    : Fin 8)) (.core 4 : Requester) 0x10) DIC_SRCCFG_EN = bitsOf (0x2800 : Word).toNat 0 1) ∧ ((after (exec
    (.srccfgDisable (.core 4 : Requester) (1 : Fin 8) (0x2800 : Word)) wit_SourcesPendClaimAndComplete_7)).hw.f (pDIC
    (1 : Fin 8)) (wit_SourcesPendClaimAndComplete_7.hw.chanFor (pDIC (1 : Fin 8)) (.core 4 : Requester) 0x10)
    DIC_SRCCFG_TIER = bitsOf (0x2800 : Word).toNat 12 3 ∧ (after (exec (.srccfgDisable (.core 4 : Requester) (1 : Fin
    8) (0x2800 : Word)) wit_SourcesPendClaimAndComplete_7)).hw.f (pDIC (1 : Fin 8))
    (wit_SourcesPendClaimAndComplete_7.hw.chanFor (pDIC (1 : Fin 8)) (.core 4 : Requester) 0x10) DIC_SRCCFG_PRIO =
    bitsOf (0x2800 : Word).toNat 4 8) ∧ (wit_SourcesPendClaimAndComplete_7.hw.chanFor (pDIC (1 : Fin 8)) (.core 4 :
    Requester) 0x10 ∉ wit_SourcesPendClaimAndComplete_7.hw.lateSources (1 : Fin 8) →
    wit_SourcesPendClaimAndComplete_7.hw.chanFor (pDIC (1 : Fin 8)) (.core 4 : Requester) 0x10 ∉ (after (exec
    (.srccfgDisable (.core 4 : Requester) (1 : Fin 8) (0x2800 : Word))
    wit_SourcesPendClaimAndComplete_7)).hw.lateSources (1 : Fin 8))  := by decide +kernel

def wit_SourcesPendClaimAndComplete_8 : State :=
    ((up []).on (fun h => (h.setReg (pDIC 1) 0x10 0 0x2803).setF
    (pDIC 1) 0 DIC_CTRL_COMPAT 1) : State)

theorem test_SourcesPendClaimAndComplete_8 :
    (accepts wit_SourcesPendClaimAndComplete_8.hw (.core 4 :
    Requester) (pDIC (1 : Fin 8)) = true ∧ wit_SourcesPendClaimAndComplete_8.hw.b (pDIC (1 : Fin 8)) 0 DIC_CTRL_COMPAT
    = true) ∧ (wit_SourcesPendClaimAndComplete_8.hw.b (pDIC (1 : Fin 8)) (wit_SourcesPendClaimAndComplete_8.hw.chanFor
    (pDIC (1 : Fin 8)) (.core 4 : Requester) 0x10) DIC_SRCCFG_EN = true ∧ bitOf (0x2800 : Word).toNat 0 = false) ∧
    ((after (exec (.srccfgDisable (.core 4 : Requester) (1 : Fin 8) (0x2800 : Word))
    wit_SourcesPendClaimAndComplete_8)).hw.f (pDIC (1 : Fin 8)) (wit_SourcesPendClaimAndComplete_8.hw.chanFor (pDIC (1
    : Fin 8)) (.core 4 : Requester) 0x10) DIC_SRCCFG_EN = 0) ∧ (wit_SourcesPendClaimAndComplete_8.hw.chanFor (pDIC (1
    : Fin 8)) (.core 4 : Requester) 0x10 ∈ (after (exec (.srccfgDisable (.core 4 : Requester) (1 : Fin 8) (0x2800 :
    Word)) wit_SourcesPendClaimAndComplete_8)).hw.enabledSources (1 : Fin 8))  := by decide +kernel

def wit_DoneOutOfOrderIsRefused_1 : State :=
    ((up []).on (fun h => h.setStack 1 0 [⟨0xC0, 2, 0x80⟩, ⟨9, 3,
    1⟩]) : State)

theorem test_DoneOutOfOrderIsRefused_1 :
    (accepts wit_DoneOutOfOrderIsRefused_1.hw (.core 4 : Requester) (pDIC
    (1 : Fin 8)) = true) ∧ ((wit_DoneOutOfOrderIsRefused_1.hw.stack (1 : Fin 8) (0 : Fin 4)).head?.map (fun x =>
    x.src) ≠ some ((0xC1 : Word).toNat % 256))  := by decide +kernel

def wit_DoneOutOfOrderIsRefused_2 : State :=
    (up [] : State)

theorem test_DoneOutOfOrderIsRefused_2 :
    (accepts wit_DoneOutOfOrderIsRefused_2.hw (.core (4 : Fin 32)) (pDIC
    (1 : Fin 8)) = true ∧ (wit_DoneOutOfOrderIsRefused_2.hw.core (4 : Fin 32)).faults.length < 5) ∧
    ((wit_DoneOutOfOrderIsRefused_2.hw.stack (1 : Fin 8) (0 : Fin 4)).head?.map (fun x => x.src) ≠ some ((0xC1 :
    Word).toNat % 256)) ∧ (((after (exec (.dicDone (.core (4 : Fin 32)) (1 : Fin 8) (0 : Fin 4) (0xC1 : Word))
    wit_DoneOutOfOrderIsRefused_2)).hw.core (4 : Fin 32)).faults = (wit_DoneOutOfOrderIsRefused_2.hw.core (4 : Fin
    32)).faults ++ [⟨0x04, 3⟩])  := by decide +kernel

def wit_WatchersAndWatchdogs_1 : State :=
    ((up [(pAOW, 0, AOW_CTRL_EN, 1), (pAOW, 9, AOW_WSRC_EN, 1), (pAOW,
    9, AOW_WSRC_WAKE, 1), (pAOW, 9, AOW_WSRC_CODE, 0xF081)]).on (fun h => { h with safeNLow := true, deep := true }) :
    State)

theorem test_WatchersAndWatchdogs_1 :
    (wit_WatchersAndWatchdogs_1.hw.aowOn (9 : Fin 32) = true ∧ wakeInput
    (wit_WatchersAndWatchdogs_1.hw.f pAOW (9 : Fin 32) AOW_WSRC_CODE) = false ∧
    wit_WatchersAndWatchdogs_1.hw.watchLevel (wit_WatchersAndWatchdogs_1.hw.f pAOW (9 : Fin 32) AOW_WSRC_CODE) = true)
    ∧ ((after (exec (.aowSourceEdge (9 : Fin 32) none) wit_WatchersAndWatchdogs_1)).hw.f pAOW 0 ⟨5, (9 : Fin 32), 1⟩ =
    1) ∧ (((wit_WatchersAndWatchdogs_1.hw.halted || wit_WatchersAndWatchdogs_1.hw.deep) &&
    wit_WatchersAndWatchdogs_1.hw.b pAOW (9 : Fin 32) AOW_WSRC_WAKE && !wit_WatchersAndWatchdogs_1.hw.b pAOW 0
    AOW_STATUS_CAUSE_VALID) = true → (after (exec (.aowSourceEdge (9 : Fin 32) none) wit_WatchersAndWatchdogs_1)).hw.f
    pAOW 0 AOW_STATUS_CAUSE = (9 : Fin 32) ∧ (after (exec (.aowSourceEdge (9 : Fin 32) none)
    wit_WatchersAndWatchdogs_1)).hw.f pAOW 0 AOW_STATUS_CAUSE_VALID = 1) ∧ (((wit_WatchersAndWatchdogs_1.hw.halted ||
    wit_WatchersAndWatchdogs_1.hw.deep) && wit_WatchersAndWatchdogs_1.hw.b pAOW (9 : Fin 32) AOW_WSRC_WAKE) = false →
    (after (exec (.aowSourceEdge (9 : Fin 32) none) wit_WatchersAndWatchdogs_1)).hw.reg pAOW 3 0 =
    wit_WatchersAndWatchdogs_1.hw.reg pAOW 3 0)  := by decide +kernel

def wit_WatchersAndWatchdogs_2 : State :=
    ((up [(pAOW, 0, AOW_CTRL_EN, 1), (pAOW, 9, AOW_WSRC_EN, 1), (pAOW,
    9, AOW_WSRC_CODE, 0xF081)]).on (fun h => { h with safeNLow := true }) : State)

theorem test_WatchersAndWatchdogs_2 :
    (wit_WatchersAndWatchdogs_2.hw.aowOn (9 : Fin 32) = true ∧
    wit_WatchersAndWatchdogs_2.hw.b pAOW (9 : Fin 32) AOW_WSRC_ACT = false ∧ wit_WatchersAndWatchdogs_2.hw.watchLevel
    (wit_WatchersAndWatchdogs_2.hw.f pAOW (9 : Fin 32) AOW_WSRC_CODE) = true) ∧ ((after (exec (.aowLevelHit (9 : Fin
    32)) wit_WatchersAndWatchdogs_2)).hw.f pAOW 0 ⟨5, (9 : Fin 32), 1⟩ = 1)  := by decide +kernel

def wit_WatchersAndWatchdogs_3 : State :=
    (up [(pAOW, 0, AOW_TMR_CNT_COUNT, 5)] : State)

theorem test_WatchersAndWatchdogs_3 :
    (accepts wit_WatchersAndWatchdogs_3.hw (.core 0 : Requester) pAOW =
    true) ∧ ((after (exec (.wakeTimerWrite (.core 0 : Requester) (99 : Word)) wit_WatchersAndWatchdogs_3)).hw.f pAOW 0
    AOW_TMR_COMPARE = bitsOf (99 : Word).toNat 0 32 ∧ (after (exec (.wakeTimerWrite (.core 0 : Requester) (99 : Word))
    wit_WatchersAndWatchdogs_3)).hw.f pAOW 0 AOW_TMR_CNT_COUNT = 0)  := by decide +kernel

def wit_WatchersAndWatchdogs_4 : State :=
    (up [(pAOW, 0, AOW_TMR_CNT_COUNT, 5), (pAOW, 0, AOW_TMR_COMPARE,
    50)] : State)

theorem test_WatchersAndWatchdogs_4 :
    (wit_WatchersAndWatchdogs_4.hw.f pAOW 0 AOW_TMR_CNT_COUNT ≤
    wit_WatchersAndWatchdogs_4.hw.f pAOW 0 AOW_TMR_COMPARE ∧ 0 < wit_WatchersAndWatchdogs_4.hw.f pAOW 0
    AOW_TMR_COMPARE) ∧ ((after (exec .wakeTimerExpiry wit_WatchersAndWatchdogs_4)).hw.f pAOW 0 AOW_TMR_CNT_COUNT =
    wit_WatchersAndWatchdogs_4.hw.f pAOW 0 AOW_TMR_COMPARE ∧ (after (exec .wakeTimerExpiry
    wit_WatchersAndWatchdogs_4)).hw.watchLevel 0xF080 = true)  := by decide +kernel

def wit_WatchersAndWatchdogs_5 : State :=
    (up [] : State)

theorem test_WatchersAndWatchdogs_5 :
    (accepts wit_WatchersAndWatchdogs_5.hw (.core 0 : Requester) (wdtPage
    (some 2 : Option (Fin 8))) = true) ∧ ((after (exec (.watchdogEnable (.core 0 : Requester) (some 2 : Option (Fin
    8)) (1 : Word)) wit_WatchersAndWatchdogs_5)).hw.b (wdtPage (some 2 : Option (Fin 8))) 0 WDT_CTRL_EN =
    (wit_WatchersAndWatchdogs_5.hw.b (wdtPage (some 2 : Option (Fin 8))) 0 WDT_CTRL_EN || bitOf (1 : Word).toNat 0))
     := by decide +kernel

def wit_WatchersAndWatchdogs_6 : State :=
    (up [(pDWDT, 0, WDT_CTRL_EN, 1), (pDWDT, 0, WDT_COUNT_COUNT, 40),
    (pDWDT, 0, WDT_WTIME_OPEN, 40)] : State)

theorem test_WatchersAndWatchdogs_6 :
    (accepts wit_WatchersAndWatchdogs_6.hw (.core 0 : Requester) (wdtPage
    (none : Option (Fin 8))) = true ∧ wit_WatchersAndWatchdogs_6.hw.b (wdtPage (none : Option (Fin 8))) 0 WDT_CTRL_EN
    = true) ∧ ((0x5A : Word).toNat % 256 = 0x5A ∧ wit_WatchersAndWatchdogs_6.hw.f (wdtPage (none : Option (Fin 8))) 0
    WDT_WTIME_OPEN ≤ wit_WatchersAndWatchdogs_6.hw.f (wdtPage (none : Option (Fin 8))) 0 WDT_COUNT_COUNT) ∧ ((after
    (exec (.watchdogKick (.core 0 : Requester) (none : Option (Fin 8)) (0x5A : Word))
    wit_WatchersAndWatchdogs_6)).hw.f (wdtPage (none : Option (Fin 8))) 0 WDT_COUNT_COUNT = 0 ∧ (after (exec
    (.watchdogKick (.core 0 : Requester) (none : Option (Fin 8)) (0x5A : Word)) wit_WatchersAndWatchdogs_6)).hw.f
    (wdtPage (none : Option (Fin 8))) 0 WDT_STATUS_EXPIRED = wit_WatchersAndWatchdogs_6.hw.f (wdtPage (none : Option
    (Fin 8))) 0 WDT_STATUS_EXPIRED)  := by decide +kernel

def wit_WatchersAndWatchdogs_7 : State :=
    (up [(pDWDT, 0, WDT_CTRL_EN, 1), (pDWDT, 0, WDT_COUNT_COUNT, 39),
    (pDWDT, 0, WDT_WTIME_OPEN, 40)] : State)

theorem test_WatchersAndWatchdogs_7 :
    (accepts wit_WatchersAndWatchdogs_7.hw (.core 0 : Requester) (wdtPage
    (none : Option (Fin 8))) = true ∧ wit_WatchersAndWatchdogs_7.hw.b (wdtPage (none : Option (Fin 8))) 0 WDT_CTRL_EN
    = true) ∧ ((0x5A : Word).toNat % 256 ≠ 0x5A ∨ wit_WatchersAndWatchdogs_7.hw.f (wdtPage (none : Option (Fin 8))) 0
    WDT_COUNT_COUNT < wit_WatchersAndWatchdogs_7.hw.f (wdtPage (none : Option (Fin 8))) 0 WDT_WTIME_OPEN) ∧ ((after
    (exec (.watchdogKick (.core 0 : Requester) (none : Option (Fin 8)) (0x5A : Word))
    wit_WatchersAndWatchdogs_7)).hw.f (wdtPage (none : Option (Fin 8))) 0 WDT_STATUS_EXPIRED = 1)
     := by decide +kernel

def wit_WatchersAndWatchdogs_8 : State :=
    (up [] : State)

theorem test_WatchersAndWatchdogs_8 :
    (accepts wit_WatchersAndWatchdogs_8.hw (.core 0 : Requester) (wdtPage
    (some 3 : Option (Fin 8))) = true ∧ wit_WatchersAndWatchdogs_8.hw.b (wdtPage (some 3 : Option (Fin 8))) 0
    WDT_CTRL_EN = false) ∧ ((after (exec (.watchdogKick (.core 0 : Requester) (some 3 : Option (Fin 8)) (0x11 : Word))
    wit_WatchersAndWatchdogs_8)).hw.regs = wit_WatchersAndWatchdogs_8.hw.regs ∧ (after (exec (.watchdogKick (.core 0 :
    Requester) (some 3 : Option (Fin 8)) (0x11 : Word)) wit_WatchersAndWatchdogs_8)).hw.wdtPre =
    wit_WatchersAndWatchdogs_8.hw.wdtPre)  := by decide +kernel

def wit_WatchersAndWatchdogs_9 : State :=
    (up [(pCWDT 3, 0, WDT_CTRL_EN, 1), (pCWDT 3, 0, WDT_WCFG_WARN, 40)]
    : State)

theorem test_WatchersAndWatchdogs_9 :
    (wit_WatchersAndWatchdogs_9.hw.wdtCounts (some 3 : Option (Fin 8)) =
    true ∧ wit_WatchersAndWatchdogs_9.hw.f (wdtPage (some 3 : Option (Fin 8))) 0 WDT_COUNT_COUNT <
    wit_WatchersAndWatchdogs_9.hw.f (wdtPage (some 3 : Option (Fin 8))) 0 WDT_WCFG_WARN) ∧ ((after (exec
    (.watchdogWarn (some 3 : Option (Fin 8))) wit_WatchersAndWatchdogs_9)).hw.f (wdtPage (some 3 : Option (Fin 8))) 0
    WDT_COUNT_COUNT = wit_WatchersAndWatchdogs_9.hw.f (wdtPage (some 3 : Option (Fin 8))) 0 WDT_WCFG_WARN ∧ (after
    (exec (.watchdogWarn (some 3 : Option (Fin 8))) wit_WatchersAndWatchdogs_9)).hw.f (wdtPage (some 3 : Option (Fin
    8))) 0 WDT_IRQ_WARN = 1)  := by decide +kernel

def wit_WatchersAndWatchdogs_10 : State :=
    (up [(pCWDT 3, 0, WDT_CTRL_EN, 1)] : State)

theorem test_WatchersAndWatchdogs_10 :
    (wit_WatchersAndWatchdogs_10.hw.wdtCounts (some 3 : Option (Fin 8)) =
    true ∧ wit_WatchersAndWatchdogs_10.hw.b (wdtPage (some 3 : Option (Fin 8))) 0 WDT_STATUS_EXPIRED = false) ∧
    ((after (exec (.watchdogExpiry (some 3 : Option (Fin 8))) wit_WatchersAndWatchdogs_10)).hw.f (wdtPage (some 3 :
    Option (Fin 8))) 0 WDT_COUNT_COUNT = wit_WatchersAndWatchdogs_10.hw.f (wdtPage (some 3 : Option (Fin 8))) 0
    WDT_WTIME_CLOSE ∧ (after (exec (.watchdogExpiry (some 3 : Option (Fin 8))) wit_WatchersAndWatchdogs_10)).hw.f
    (wdtPage (some 3 : Option (Fin 8))) 0 WDT_STATUS_EXPIRED = 1)  := by decide +kernel

def wit_PinConfigurationAndOwnership_1 : State :=
    ((up []).on (fun h => h.setReg pPIN 8 3 40) : State)

theorem test_PinConfigurationAndOwnership_1 :
    (accepts wit_PinConfigurationAndOwnership_1.hw (.core 3 :
    Requester) pPIN 0x10 = true ∧ wit_PinConfigurationAndOwnership_1.hw.pinPasses
    (wit_PinConfigurationAndOwnership_1.hw.acc (.core 3 : Requester)) (wit_PinConfigurationAndOwnership_1.hw.chsel
    pPIN (.core 3 : Requester)) = true) ∧ (wit_PinConfigurationAndOwnership_1.hw.b pPIN
    (wit_PinConfigurationAndOwnership_1.hw.chsel pPIN (.core 3 : Requester)) PIN_OWN_PLOCK = false) ∧ ((after (exec
    (.pcfgWrite (.core 3 : Requester) (0xF640 : Word) ()) wit_PinConfigurationAndOwnership_1)).hw.f pPIN
    (wit_PinConfigurationAndOwnership_1.hw.chsel pPIN (.core 3 : Requester)) PIN_PCFG_SAFE = bitsOf (0xF640 :
    Word).toNat 14 2 ∧ (after (exec (.pcfgWrite (.core 3 : Requester) (0xF640 : Word) ())
    wit_PinConfigurationAndOwnership_1)).hw.f pPIN (wit_PinConfigurationAndOwnership_1.hw.chsel pPIN (.core 3 :
    Requester)) PIN_PCFG_ANA = bitsOf (0xF640 : Word).toNat 13 1) ∧ ((after (exec (.pcfgWrite (.core 3 : Requester)
    (0xF640 : Word) ()) wit_PinConfigurationAndOwnership_1)).hw.f pPIN (wit_PinConfigurationAndOwnership_1.hw.chsel
    pPIN (.core 3 : Requester)) PIN_PCFG_HYST = bitsOf (0xF640 : Word).toNat 12 1 ∧ (after (exec (.pcfgWrite (.core 3
    : Requester) (0xF640 : Word) ()) wit_PinConfigurationAndOwnership_1)).hw.f pPIN
    (wit_PinConfigurationAndOwnership_1.hw.chsel pPIN (.core 3 : Requester)) PIN_PCFG_PULL = bitsOf (0xF640 :
    Word).toNat 10 2 ∧ (after (exec (.pcfgWrite (.core 3 : Requester) (0xF640 : Word) ())
    wit_PinConfigurationAndOwnership_1)).hw.f pPIN (wit_PinConfigurationAndOwnership_1.hw.chsel pPIN (.core 3 :
    Requester)) PIN_PCFG_OD = bitsOf (0xF640 : Word).toNat 9 1) ∧ ((after (exec (.pcfgWrite (.core 3 : Requester)
    (0xF640 : Word) ()) wit_PinConfigurationAndOwnership_1)).hw.f pPIN (wit_PinConfigurationAndOwnership_1.hw.chsel
    pPIN (.core 3 : Requester)) PIN_PCFG_SLEW = bitsOf (0xF640 : Word).toNat 8 1 ∧ (after (exec (.pcfgWrite (.core 3 :
    Requester) (0xF640 : Word) ()) wit_PinConfigurationAndOwnership_1)).hw.f pPIN
    (wit_PinConfigurationAndOwnership_1.hw.chsel pPIN (.core 3 : Requester)) PIN_PCFG_DRV = bitsOf (0xF640 :
    Word).toNat 6 2) ∧ ((after (exec (.pcfgWrite (.core 3 : Requester) (0xF640 : Word) ())
    wit_PinConfigurationAndOwnership_1)).hw.reg pPIN 0x11 (wit_PinConfigurationAndOwnership_1.hw.chsel pPIN (.core 3 :
    Requester)) = wit_PinConfigurationAndOwnership_1.hw.reg pPIN 0x11 (wit_PinConfigurationAndOwnership_1.hw.chsel
    pPIN (.core 3 : Requester))) ∧ (bitOf (0xF640 : Word).toNat 13 = true → (after (exec (.pcfgWrite (.core 3 :
    Requester) (0xF640 : Word) ()) wit_PinConfigurationAndOwnership_1)).hw.pinIn
    (wit_PinConfigurationAndOwnership_1.hw.chsel pPIN (.core 3 : Requester)) = false ∧
    ({ (after (exec (.pcfgWrite (.core 3 : Requester) (0xF640 : Word) ()) wit_PinConfigurationAndOwnership_1)).hw with now := (after (exec (.pcfgWrite (.core 3 : Requester) (0xF640 : Word) ()) wit_PinConfigurationAndOwnership_1)).hw.now + 2 }.pinBall
    (wit_PinConfigurationAndOwnership_1.hw.chsel pPIN (.core 3 : Requester)) = none ∨ (after (exec (.pcfgWrite (.core
    3 : Requester) (0xF640 : Word) ()) wit_PinConfigurationAndOwnership_1)).hw.resetLow = true))  := by decide +kernel

def wit_PinConfigurationAndOwnership_2 : State :=
    ((up []).on (fun h => h.setReg pPIN 8 3 40) : State)

theorem test_PinConfigurationAndOwnership_2 :
    (accepts wit_PinConfigurationAndOwnership_2.hw (.core 3 :
    Requester) pPIN 0x11 = true ∧ wit_PinConfigurationAndOwnership_2.hw.pinPasses
    (wit_PinConfigurationAndOwnership_2.hw.acc (.core 3 : Requester)) (wit_PinConfigurationAndOwnership_2.hw.chsel
    pPIN (.core 3 : Requester)) = true) ∧ (wit_PinConfigurationAndOwnership_2.hw.b pPIN
    (wit_PinConfigurationAndOwnership_2.hw.chsel pPIN (.core 3 : Requester)) PIN_OWN_PLOCK = false) ∧
    (wit_PinConfigurationAndOwnership_2.hw.pfuncCause (wit_PinConfigurationAndOwnership_2.hw.chsel pPIN (.core 3 :
    Requester)) (0x131125F01 : Word) = 0) ∧ ((after (exec (.pfuncWrite (.core 3 : Requester) (0x131125F01 : Word))
    wit_PinConfigurationAndOwnership_2)).hw.f pPIN (wit_PinConfigurationAndOwnership_2.hw.chsel pPIN (.core 3 :
    Requester)) PIN_PFUNC_OSEL0 = bitsOf (0x131125F01 : Word).toNat 0 12 ∧ (after (exec (.pfuncWrite (.core 3 :
    Requester) (0x131125F01 : Word)) wit_PinConfigurationAndOwnership_2)).hw.f pPIN
    (wit_PinConfigurationAndOwnership_2.hw.chsel pPIN (.core 3 : Requester)) PIN_PFUNC_OSEL1 = bitsOf (0x131125F01 :
    Word).toNat 12 12 ∧ (after (exec (.pfuncWrite (.core 3 : Requester) (0x131125F01 : Word))
    wit_PinConfigurationAndOwnership_2)).hw.f pPIN (wit_PinConfigurationAndOwnership_2.hw.chsel pPIN (.core 3 :
    Requester)) PIN_PFUNC_ISEL = bitsOf (0x131125F01 : Word).toNat 24 12) ∧ ((after (exec (.pfuncWrite (.core 3 :
    Requester) (0x131125F01 : Word)) wit_PinConfigurationAndOwnership_2)).hw.reg pPIN 3 0 =
    wit_PinConfigurationAndOwnership_2.hw.reg pPIN 3 0)  := by decide +kernel

def wit_PinConfigurationAndOwnership_3 : State :=
    ((up []).on (fun h => h.setReg pPIN 8 3 40) : State)

theorem test_PinConfigurationAndOwnership_3 :
    (accepts wit_PinConfigurationAndOwnership_3.hw (.core 3 :
    Requester) pPIN 0x11 = true ∧ wit_PinConfigurationAndOwnership_3.hw.pinPasses
    (wit_PinConfigurationAndOwnership_3.hw.acc (.core 3 : Requester)) (wit_PinConfigurationAndOwnership_3.hw.chsel
    pPIN (.core 3 : Requester)) = true) ∧ (wit_PinConfigurationAndOwnership_3.hw.b pPIN
    (wit_PinConfigurationAndOwnership_3.hw.chsel pPIN (.core 3 : Requester)) PIN_OWN_PLOCK = false) ∧
    (wit_PinConfigurationAndOwnership_3.hw.pfuncCause (wit_PinConfigurationAndOwnership_3.hw.chsel pPIN (.core 3 :
    Requester)) (0x131000225 : Word) ≠ 0) ∧ ((after (exec (.pfuncWrite (.core 3 : Requester) (0x131000225 : Word))
    wit_PinConfigurationAndOwnership_3)).hw.reg pPIN 0x11 (wit_PinConfigurationAndOwnership_3.hw.chsel pPIN (.core 3 :
    Requester)) = wit_PinConfigurationAndOwnership_3.hw.reg pPIN 0x11 (wit_PinConfigurationAndOwnership_3.hw.chsel
    pPIN (.core 3 : Requester))) ∧ ((after (exec (.pfuncWrite (.core 3 : Requester) (0x131000225 : Word))
    wit_PinConfigurationAndOwnership_3)).hw.f pPIN 0 PIN_STATUS_CAUSE =
    wit_PinConfigurationAndOwnership_3.hw.pfuncCause (wit_PinConfigurationAndOwnership_3.hw.chsel pPIN (.core 3 :
    Requester)) (0x131000225 : Word) ∧ (after (exec (.pfuncWrite (.core 3 : Requester) (0x131000225 : Word))
    wit_PinConfigurationAndOwnership_3)).hw.f pPIN 0 PIN_STATUS_PIN = wit_PinConfigurationAndOwnership_3.hw.chsel pPIN
    (.core 3 : Requester) % 512 ∧ (after (exec (.pfuncWrite (.core 3 : Requester) (0x131000225 : Word))
    wit_PinConfigurationAndOwnership_3)).hw.f pPIN 0 PIN_IRQ_FUNC_ERR = 1) ∧ (((after (exec (.pfuncWrite (.core 3 :
    Requester) (0x131000225 : Word)) wit_PinConfigurationAndOwnership_3)).hw.core 3).faults =
    (wit_PinConfigurationAndOwnership_3.hw.core 3).faults)  := by decide +kernel

def wit_PinConfigurationAndOwnership_4 : State :=
    ((up [(pPIN, 40, PIN_OWN_PLOCK, 1)]).on (fun h => h.setReg
    pPIN 8 3 40) : State)

theorem test_PinConfigurationAndOwnership_4 :
    (accepts wit_PinConfigurationAndOwnership_4.hw (.core 3 :
    Requester) pPIN 0x10 = true ∧ wit_PinConfigurationAndOwnership_4.hw.b pPIN
    (wit_PinConfigurationAndOwnership_4.hw.chsel pPIN (.core 3 : Requester)) PIN_OWN_PLOCK = true) ∧ ((after (exec
    (.pcfgWrite (.core 3 : Requester) (0xF640 : Word) ()) wit_PinConfigurationAndOwnership_4)).hw.reg pPIN 0x10
    (wit_PinConfigurationAndOwnership_4.hw.chsel pPIN (.core 3 : Requester)) =
    wit_PinConfigurationAndOwnership_4.hw.reg pPIN 0x10 (wit_PinConfigurationAndOwnership_4.hw.chsel pPIN (.core 3 :
    Requester)))  := by decide +kernel

def wit_PinConfigurationAndOwnership_5 : State :=
    ((up []).on (fun h => h.setReg pPIN 8 3 40) : State)

theorem test_PinConfigurationAndOwnership_5 :
    (accepts wit_PinConfigurationAndOwnership_5.hw (.core 3 :
    Requester) pPIN 0x12 = true ∧ wit_PinConfigurationAndOwnership_5.hw.b pPIN
    (wit_PinConfigurationAndOwnership_5.hw.chsel pPIN (.core 3 : Requester)) PIN_OWN_PLOCK = false) ∧
    ((wit_PinConfigurationAndOwnership_5.hw.acc (.core 3 : Requester)).ring = 0) ∧ ((after (exec (.pinOwnWrite (.core
    3 : Requester) (0x503 : Word)) wit_PinConfigurationAndOwnership_5)).hw.f pPIN
    (wit_PinConfigurationAndOwnership_5.hw.chsel pPIN (.core 3 : Requester)) PIN_OWN_REQ = bitsOf (0x503 : Word).toNat
    0 8) ∧ ((after (exec (.pinOwnWrite (.core 3 : Requester) (0x503 : Word)) wit_PinConfigurationAndOwnership_5)).hw.f
    pPIN (wit_PinConfigurationAndOwnership_5.hw.chsel pPIN (.core 3 : Requester)) PIN_OWN_RING = bitsOf (0x503 :
    Word).toNat 8 2 ∧ (after (exec (.pinOwnWrite (.core 3 : Requester) (0x503 : Word))
    wit_PinConfigurationAndOwnership_5)).hw.f pPIN (wit_PinConfigurationAndOwnership_5.hw.chsel pPIN (.core 3 :
    Requester)) PIN_OWN_PLOCK = bitsOf (0x503 : Word).toNat 10 1)  := by decide +kernel

def wit_PinConfigurationAndOwnership_6 : State :=
    ((up [(pPIN, 289, PIN_OWN_REQ, 0x30), (pPIN, 289,
    PIN_OWN_RING, 1)]).on (fun h => h.setCore 3 { ring := 1 }) : State)

theorem test_PinConfigurationAndOwnership_6 :
    (accepts wit_PinConfigurationAndOwnership_6.hw (.core 3 :
    Requester) pPIN (0x80 + (8 : Fin 9)) = true) ∧ (∀ j : Fin 36, (after (exec (.doutWrite (.core 3 : Requester) (8 :
    Fin 9) (0x503 : Word)) wit_PinConfigurationAndOwnership_6)).hw.f pPIN 0 ⟨0x80 + (8 : Fin 9), j, 1⟩ = (if
    wit_PinConfigurationAndOwnership_6.hw.pinPasses (wit_PinConfigurationAndOwnership_6.hw.acc (.core 3 : Requester))
    (36 * (8 : Fin 9) + j) then bitsOf (0x503 : Word).toNat j 1 else wit_PinConfigurationAndOwnership_6.hw.f pPIN 0
    ⟨0x80 + (8 : Fin 9), j, 1⟩))  := by decide +kernel

def wit_BanksAndPinEvents_1 : State :=
    (up [(pPIN, 0, PIN_BANK_VOK 8, 1), (pPIN, 290, PIN_PFUNC_OSEL0, 0xF01)]
    : State)

theorem test_BanksAndPinEvents_1 :
    (wit_BanksAndPinEvents_1.hw.b pPIN 0 (PIN_BANK_VOK (8 : Fin 9)) = true)
     := by decide +kernel

def wit_BanksAndPinEvents_2 : State :=
    (up [(pPIN, 290, PIN_PCFG_HYST, 1)] : State)

theorem test_BanksAndPinEvents_2 :
    (wit_BanksAndPinEvents_2.hw.b pPIN 0 (PIN_BANK_VOK (8 : Fin 9)) = false ∧
    wit_BanksAndPinEvents_2.hw.b pPIN (36 * (8 : Fin 9) + (2 : Fin 36)) PIN_PCFG_ANA = false)  := by decide +kernel

def wit_BanksAndPinEvents_3 : State :=
    (up [(pPIN, 0, PIN_BANK_VOK 8, 1), (pPIN, 0, PIN_PEV_EN 4, 1), (pPIN,
    0, PIN_PEV_PIN 4, 290), (pPIN, 0, PIN_PEV_EDGE 4, 1), (pPIN, 0, PIN_PEV_FILT 4, 3), (pPIN, 290,
    PIN_PSTAT_UNRESOLVED, 1)] : State)

theorem test_BanksAndPinEvents_3 :
    (wit_BanksAndPinEvents_3.hw.pevOn (4 : Fin 32) = true ∧
    wit_BanksAndPinEvents_3.hw.f pPIN 0 (PIN_PEV_PIN (4 : Fin 32)) = (290 : Fin 324) ∧ wit_BanksAndPinEvents_3.hw.f
    pPIN 0 (PIN_PEV_FILT (4 : Fin 32)) * 5 ≤ (15 : Nat) ∧ wit_BanksAndPinEvents_3.hw.bankOk (290 : Fin 324) = true ∧
    wit_BanksAndPinEvents_3.hw.b pPIN (290 : Fin 324) PIN_PCFG_ANA = false) ∧ (wit_BanksAndPinEvents_3.hw.b pPIN 0
    (PIN_PEV_INV (4 : Fin 32)) = false ∧ wit_BanksAndPinEvents_3.hw.f pPIN 0 ⟨0xC0, (4 : Fin 32), 1⟩ = 0 ∧
    wit_BanksAndPinEvents_3.hw.pinBall (290 : Fin 324) = none) ∧ ((after (exec (.pinEvent (290 : Fin 324) (.high, (15
    : Nat))) wit_BanksAndPinEvents_3)).hw.f pPIN 0 ⟨0xC0, (4 : Fin 32), 1⟩ = 1 ∧ (after (exec (.pinEvent (290 : Fin
    324) (.high, (15 : Nat))) wit_BanksAndPinEvents_3)).hw.pinIn (290 : Fin 324) = true) ∧ ((after (exec (.pinEvent
    (290 : Fin 324) (.high, (15 : Nat))) wit_BanksAndPinEvents_3)).hw.b pPIN (290 : Fin 324) PIN_PSTAT_UNRESOLVED =
    false) ∧ (bitOf (wit_BanksAndPinEvents_3.hw.f pPIN 0 (PIN_PEV_EDGE (4 : Fin 32))) 0 = true → (after (exec
    (.pinEvent (290 : Fin 324) (.high, (15 : Nat))) wit_BanksAndPinEvents_3)).hw.f pPIN 0 ⟨5, (4 : Fin 32), 1⟩ = 1)
     := by decide +kernel

def wit_DramServesAndCorrects_1 : State :=
    (up [] : State)

theorem test_DramServesAndCorrects_1 :
    (wit_DramServesAndCorrects_1.hw.b pDRAM 0 DRAM_STATUS_INIT_BUSY = true
    ∧ wit_DramServesAndCorrects_1.hw.deep = false) ∧ ((after (exec .dramInitDone wit_DramServesAndCorrects_1)).hw.f
    pDRAM 0 DRAM_STATUS_INIT_BUSY = 0 ∧ (after (exec .dramInitDone wit_DramServesAndCorrects_1)).hw.f pDRAM 0
    DRAM_STATUS_READY = 1)  := by decide +kernel

def wit_DramServesAndCorrects_2 : State :=
    (up [] : State)

theorem test_DramServesAndCorrects_2 :
    (wit_DramServesAndCorrects_2.hw.dramReady = false) ∧ ((after (exec
    (.dramRequestServe ([⟨some .host, 5, .modify [1]⟩] : List DramReq) (1 : Fin 3) (2 : Nat) ([] : List Word))
    wit_DramServesAndCorrects_2)) = wit_DramServesAndCorrects_2)  := by decide +kernel

def wit_DramServesAndCorrects_3 : State :=
    (up [(pDRAM, 0, DRAM_STATUS_READY, 1)] : State)

theorem test_DramServesAndCorrects_3 :
    (quietDram wit_DramServesAndCorrects_3.hw = true)  := by decide +kernel

def wit_DramServesAndCorrects_4 : State :=
    (up [(pDRAM, 0, DRAM_STATUS_READY, 1)] : State)

theorem test_DramServesAndCorrects_4 :
    (quietDram wit_DramServesAndCorrects_4.hw = true ∧ 1 ≤ (3 : Nat) ∧ (3 :
    Nat) ≤ 4)  := by decide +kernel

def wit_DramServesAndCorrects_5 : State :=
    ((up [(pDRAM, 0, DRAM_STATUS_READY, 1)]).on (fun h =>
    { h with dramWb := [5, 4] }) : State)

theorem test_DramServesAndCorrects_5 :
    (wit_DramServesAndCorrects_5.hw.dramReady = true ∧
    wit_DramServesAndCorrects_5.hw.dramWb.head? = some (5 : Fin 67108864).val ∧
    wit_DramServesAndCorrects_5.hw.slotClass = some 3 ∧ wit_DramServesAndCorrects_5.hw.rewriteNext = none) ∧ ((after
    (exec (.correctedWriteback (5 : Fin 67108864)) wit_DramServesAndCorrects_5)).hw.dramWb.contains (5 : Fin
    67108864).val = false ∧ (after (exec (.correctedWriteback (5 : Fin 67108864)) wit_DramServesAndCorrects_5)).hw.f
    pDRAM 0 (DRAM_CLS_CNT_COUNT 3) = (wit_DramServesAndCorrects_5.hw.f pDRAM 0 (DRAM_CLS_CNT_COUNT 3) + 1) % 2 ^ 40)
     := by decide +kernel

def wit_DramServesAndCorrects_6 : State :=
    (up [(pDRAM, 0, DRAM_STATUS_READY, 1)] : State)

theorem test_DramServesAndCorrects_6 :
    (quietDram wit_DramServesAndCorrects_6.hw = true ∧ 4 < (9 : Nat))
     := by decide +kernel

def wit_DramServesAndCorrects_7 : State :=
    ((up [(pDRAM, 0, DRAM_STATUS_READY, 1)]).on (fun h =>
    { h with dramBad := [⟨5, 2, [1, 2, 3, 4, 5, 6, 7, 8]⟩] }) : State)

theorem test_DramServesAndCorrects_7 :
    (wit_DramServesAndCorrects_7.hw.dramReady = true ∧
    wit_DramServesAndCorrects_7.hw.rewriteNext = some ⟨(5 : Fin 67108864), (2 : Nat), ([1, 2, 3, 4, 5, 6, 7, 8] : List
    Word)⟩ ∧ ([1, 2, 3, 4, 5, 6, 7, 8] : List Word).length = 8)  := by decide +kernel

def wit_DramServesAndCorrects_8 : State :=
    (up [(pDRAM, 0, DRAM_STATUS_READY, 1)] : State)

theorem test_DramServesAndCorrects_8 :
    (quietDram wit_DramServesAndCorrects_8.hw = true ∧ 4 < (9 : Nat) ∧ ([1,
    2, 3, 4, 5, 6, 7, 8] : List Word).length = 8)  := by decide +kernel

def wit_DramServesAndCorrects_9 : State :=
    (up [(pDRAM, 0, DRAM_STATUS_READY, 1)] : State)

theorem test_DramServesAndCorrects_9 :
    (accepts wit_DramServesAndCorrects_9.hw (.core 0 : Requester) pDRAM =
    true ∧ wit_DramServesAndCorrects_9.hw.dramReady = true) ∧ (wit_DramServesAndCorrects_9.hw.dramBad.any (fun b =>
    b.line == (5 : Word).toNat % 2 ^ 26) = false)  := by decide +kernel

def wit_DramServesAndCorrects_10 : State :=
    (up [(pDRAM, 0, DRAM_STATUS_READY, 1)] : State)

theorem test_DramServesAndCorrects_10 :
    (wit_DramServesAndCorrects_10.hw.b pDARNER 0 DARNER_CTRL_EN = true ∧
    wit_DramServesAndCorrects_10.hw.dramReady = true ∧ wit_DramServesAndCorrects_10.hw.b pDARNER 0
    DARNER_STATUS_QUEUED = false) ∧ ((after (exec .darnerBurstDue wit_DramServesAndCorrects_10)).hw.darnerDue =
    wit_DramServesAndCorrects_10.hw.darnerDue + 1 ∧ (after (exec .darnerBurstDue wit_DramServesAndCorrects_10)).hw.f
    pDARNER 0 DARNER_STATUS_QUEUED = 1 ∧ (after (exec .darnerBurstDue wit_DramServesAndCorrects_10)).hw.queue 8 =
    wit_DramServesAndCorrects_10.hw.queue 8 ++ [⟨6, 0⟩])  := by decide +kernel

def wit_DramServesAndCorrects_11 : State :=
    (up [(pDRAM, 0, DRAM_STATUS_READY, 1)] : State)

theorem test_DramServesAndCorrects_11 :
    (accepts wit_DramServesAndCorrects_11.hw (.core 0 : Requester) pDARNER
    = true ∧ (3 : Word).toNat % 4 = 3 ∧ wit_DramServesAndCorrects_11.hw.dramReady = true) ∧ ((after (exec (.darnerNow
    (.core 0 : Requester) (3 : Word)) wit_DramServesAndCorrects_11)).hw.darnerNow = true ∧ (after (exec (.darnerNow
    (.core 0 : Requester) (3 : Word)) wit_DramServesAndCorrects_11)).hw.darnerDue = max 1
    wit_DramServesAndCorrects_11.hw.darnerDue ∧ (after (exec (.darnerNow (.core 0 : Requester) (3 : Word))
    wit_DramServesAndCorrects_11)).hw.b pDARNER 0 DARNER_STATUS_QUEUED = true)  := by decide +kernel

def wit_DramServesAndCorrects_12 : State :=
    ((up [(pDRAM, 0, DRAM_STATUS_READY, 1)]).on (fun h =>
    h.darnerBurst) : State)

theorem test_DramServesAndCorrects_12 :
    (wit_DramServesAndCorrects_12.hw.grantable 8 ⟨6, 0⟩ (fun _ => true) =
    true ∧ wit_DramServesAndCorrects_12.hw.b pDARNER 0 DARNER_CTRL_EN = true ∧
    wit_DramServesAndCorrects_12.hw.dramReady = true) ∧ ((64 : Nat) = max 1 (wit_DramServesAndCorrects_12.hw.f pDARNER
    0 DARNER_BURST_LINES) ∧ wit_DramServesAndCorrects_12.hw.f pDARNER 0 DARNER_CURSOR_LINE + (64 : Nat) < 2 ^ 26)
     := by decide +kernel

def wit_DramServesAndCorrects_13 : State :=
    ((up [(pDRAM, 0, DRAM_STATUS_READY, 1), (pDARNER, 0,
    DARNER_BURST_LINES, 1)]).on (fun h => h.darnerBurst) : State)

theorem test_DramServesAndCorrects_13 :
    (wit_DramServesAndCorrects_13.hw.grantable 8 ⟨6, 0⟩ (fun _ => true) =
    true ∧ wit_DramServesAndCorrects_13.hw.b pDARNER 0 DARNER_CTRL_EN = true ∧
    wit_DramServesAndCorrects_13.hw.dramReady = true) ∧ (wit_DramServesAndCorrects_13.hw.f pDARNER 0
    DARNER_BURST_LINES = 1 ∧ 4 < (⟨0, 5, [1, 2, 3, 4, 5, 6, 7, 8]⟩ : DieRep).syms ∧ (⟨0, 5, [1, 2, 3, 4, 5, 6, 7, 8]⟩
    : DieRep).words.length = 8)  := by decide +kernel

def wit_HamperRecordsAndFreezes_1 : State :=
    (up [(pHAMPER, 0, HAMPER_NSIG_N, 20), (pHAMPER, 0,
    HAMPER_SIZE_LINES, 30)] : State)

theorem test_HamperRecordsAndFreezes_1 :
    (accepts wit_HamperRecordsAndFreezes_1.hw (.core 0 : Requester)
    pHAMPER = true ∧ wit_HamperRecordsAndFreezes_1.hw.hState = 0 ∧ hamperBad wit_HamperRecordsAndFreezes_1.hw = false)
    ∧ ((after (exec (.hamperEnable (.core 0 : Requester) (1 : Word)) wit_HamperRecordsAndFreezes_1)).hw.hState = 1 ∨
    (after (exec (.hamperEnable (.core 0 : Requester) (1 : Word)) wit_HamperRecordsAndFreezes_1)).hw.hState = 2) ∧
    ((after (exec (.hamperEnable (.core 0 : Requester) (1 : Word)) wit_HamperRecordsAndFreezes_1)).hw.f pHAMPER 0
    HAMPER_K_COUNT = hamperK wit_HamperRecordsAndFreezes_1.hw ∧ (after (exec (.hamperEnable (.core 0 : Requester) (1 :
    Word)) wit_HamperRecordsAndFreezes_1)).hw.f pHAMPER 0 HAMPER_WR_IDX_POS = 0 ∧ (after (exec (.hamperEnable (.core 0
    : Requester) (1 : Word)) wit_HamperRecordsAndFreezes_1)).hw.f pHAMPER 0 HAMPER_SEQ_SEQ = 0) ∧ ((after (exec
    (.hamperEnable (.core 0 : Requester) (1 : Word)) wit_HamperRecordsAndFreezes_1)).hw.hamper.k = hamperK
    wit_HamperRecordsAndFreezes_1.hw ∧ (after (exec (.hamperEnable (.core 0 : Requester) (1 : Word))
    wit_HamperRecordsAndFreezes_1)).hw.hamper.r = hamperR wit_HamperRecordsAndFreezes_1.hw ∧ (after (exec
    (.hamperEnable (.core 0 : Requester) (1 : Word)) wit_HamperRecordsAndFreezes_1)).hw.hamper.count = 0 ∧ (after
    (exec (.hamperEnable (.core 0 : Requester) (1 : Word)) wit_HamperRecordsAndFreezes_1)).hw.f pHAMPER 0
    HAMPER_CTRL_EN = 1)  := by decide +kernel

def wit_HamperRecordsAndFreezes_2 : State :=
    (up [(pHAMPER, 0, HAMPER_NSIG_N, 20), (pHAMPER, 0,
    HAMPER_SIZE_LINES, 5)] : State)

theorem test_HamperRecordsAndFreezes_2 :
    (accepts wit_HamperRecordsAndFreezes_2.hw (.core 0 : Requester)
    pHAMPER = true ∧ wit_HamperRecordsAndFreezes_2.hw.hState = 0 ∧ hamperBad wit_HamperRecordsAndFreezes_2.hw = true)
    ∧ ((after (exec (.hamperEnable (.core 0 : Requester) (1 : Word)) wit_HamperRecordsAndFreezes_2)).hw.hState = 0 ∧
    (after (exec (.hamperEnable (.core 0 : Requester) (1 : Word)) wit_HamperRecordsAndFreezes_2)).hw.f pHAMPER 0
    HAMPER_CTRL_EN = 0 ∧ (after (exec (.hamperEnable (.core 0 : Requester) (1 : Word))
    wit_HamperRecordsAndFreezes_2)).hw.f pHAMPER 0 HAMPER_IRQ_CFG_ERR = 1)  := by decide +kernel

def wit_HamperRecordsAndFreezes_3 : State :=
    (up [(pHAMPER, 0, HAMPER_CTRL_EN, 1), (pHAMPER, 0,
    HAMPER_STATUS_STATE, 2)] : State)

theorem test_HamperRecordsAndFreezes_3 :
    (accepts wit_HamperRecordsAndFreezes_3.hw (.core 0 : Requester)
    pHAMPER = true ∧ wit_HamperRecordsAndFreezes_3.hw.hState ≠ 0 ∧ wit_HamperRecordsAndFreezes_3.hw.hamper.rec' =
    none) ∧ ((after (exec (.hamperDisable (.core 0 : Requester) (0 : Word)) wit_HamperRecordsAndFreezes_3)).hw.hState
    = 0 ∧ (after (exec (.hamperDisable (.core 0 : Requester) (0 : Word)) wit_HamperRecordsAndFreezes_3)).hw.f pHAMPER
    0 HAMPER_CTRL_EN = 0)  := by decide +kernel

def wit_HamperRecordsAndFreezes_4 : State :=
    (fly [⟨⟨15, 40⟩, 0xF060, 0⟩] ((up [(pHAMPER, 0,
    HAMPER_STATUS_STATE, 2), (pHAMPER, 0, HAMPER_SEQ_SEQ, 9), (pDRAM, 0, DRAM_STATUS_READY, 1)]).on (fun h =>
    { h with hamper := { k := 5, trig := true } })) : State)

theorem test_HamperRecordsAndFreezes_4 :
    ((wit_HamperRecordsAndFreezes_4.hw.arrive (⟨⟨15, 40⟩, none⟩ :
    Arrival) (devCode 0x060) (wit_HamperRecordsAndFreezes_4.hw.domainRuns 32)).2 = true) ∧
    ((wit_HamperRecordsAndFreezes_4.hw.hState = 1 ∨ wit_HamperRecordsAndFreezes_4.hw.hState = 2 ∨
    wit_HamperRecordsAndFreezes_4.hw.hState = 3) ∧ wit_HamperRecordsAndFreezes_4.hw.b pRST 0 RST_STATUS_PENDING =
    false ∧ wit_HamperRecordsAndFreezes_4.hw.hamper.tick = false ∧ wit_HamperRecordsAndFreezes_4.hw.hamper.stopping =
    false) ∧ (wit_HamperRecordsAndFreezes_4.hw.hamper.div ≤ wit_HamperRecordsAndFreezes_4.hw.hamper.cad ∧
    wit_HamperRecordsAndFreezes_4.hw.hamper.rec' = none ∧ wit_HamperRecordsAndFreezes_4.hw.dramReady = true) ∧ ((after
    (exec (.hamperCadence (⟨⟨15, 40⟩, none⟩ : Arrival)) wit_HamperRecordsAndFreezes_4)).hw.hamper.rec' = some
    ⟨wit_HamperRecordsAndFreezes_4.hw.f pHAMPER 0 HAMPER_WR_IDX_POS, wit_HamperRecordsAndFreezes_4.hw.f pHAMPER 0
    HAMPER_SEQ_SEQ, wit_HamperRecordsAndFreezes_4.hw.domTime % 2 ^ 40, wit_HamperRecordsAndFreezes_4.hw.f pDOM 0
    DOM_TICK_TN % 16, wit_HamperRecordsAndFreezes_4.hw.hamper.trig, wit_HamperRecordsAndFreezes_4.hw.hamper.gap⟩) ∧
    ((after (exec (.hamperCadence (⟨⟨15, 40⟩, none⟩ : Arrival)) wit_HamperRecordsAndFreezes_4)).hw.hamper.trig = false
    ∧ (after (exec (.hamperCadence (⟨⟨15, 40⟩, none⟩ : Arrival)) wit_HamperRecordsAndFreezes_4)).hw.hamper.gap = false
    ∧ (after (exec (.hamperCadence (⟨⟨15, 40⟩, none⟩ : Arrival)) wit_HamperRecordsAndFreezes_4)).hw.hState =
    wit_HamperRecordsAndFreezes_4.hw.hState) ∧ (wit_HamperRecordsAndFreezes_4.hw.hamper.trig = true → (after (exec
    (.hamperCadence (⟨⟨15, 40⟩, none⟩ : Arrival)) wit_HamperRecordsAndFreezes_4)).hw.f pHAMPER 0 HAMPER_TRIG_IDX_POS =
    wit_HamperRecordsAndFreezes_4.hw.f pHAMPER 0 HAMPER_WR_IDX_POS)  := by decide +kernel

def wit_HamperRecordsAndFreezes_5 : State :=
    (fly [⟨⟨15, 40⟩, 0xF060, 0⟩] (up [(pHAMPER, 0,
    HAMPER_STATUS_STATE, 2)]) : State)

theorem test_HamperRecordsAndFreezes_5 :
    ((wit_HamperRecordsAndFreezes_5.hw.arrive (⟨⟨15, 40⟩, none⟩ :
    Arrival) (devCode 0x060) (wit_HamperRecordsAndFreezes_5.hw.domainRuns 32)).2 = true) ∧
    ((wit_HamperRecordsAndFreezes_5.hw.hState = 1 ∨ wit_HamperRecordsAndFreezes_5.hw.hState = 2 ∨
    wit_HamperRecordsAndFreezes_5.hw.hState = 3) ∧ wit_HamperRecordsAndFreezes_5.hw.b pRST 0 RST_STATUS_PENDING =
    false ∧ wit_HamperRecordsAndFreezes_5.hw.hamper.tick = false ∧ wit_HamperRecordsAndFreezes_5.hw.hamper.stopping =
    false) ∧ (wit_HamperRecordsAndFreezes_5.hw.dramReady = false ∨ (wit_HamperRecordsAndFreezes_5.hw.hamper.div ≤
    wit_HamperRecordsAndFreezes_5.hw.hamper.cad ∧ wit_HamperRecordsAndFreezes_5.hw.hamper.rec'.isSome = true)) ∧
    ((after (exec (.hamperCadence (⟨⟨15, 40⟩, none⟩ : Arrival)) wit_HamperRecordsAndFreezes_5)).hw.f pHAMPER 0
    HAMPER_MISS_CNT_COUNT = (wit_HamperRecordsAndFreezes_5.hw.f pHAMPER 0 HAMPER_MISS_CNT_COUNT + 1) % 2 ^ 40 ∧ (after
    (exec (.hamperCadence (⟨⟨15, 40⟩, none⟩ : Arrival)) wit_HamperRecordsAndFreezes_5)).hw.f pHAMPER 0 HAMPER_IRQ_MISS
    = 1) ∧ ((after (exec (.hamperCadence (⟨⟨15, 40⟩, none⟩ : Arrival)) wit_HamperRecordsAndFreezes_5)).hw.hamper.gap =
    true ∧ (after (exec (.hamperCadence (⟨⟨15, 40⟩, none⟩ : Arrival)) wit_HamperRecordsAndFreezes_5)).hw.hamper.rec' =
    wit_HamperRecordsAndFreezes_5.hw.hamper.rec')  := by decide +kernel

def wit_HamperRecordsAndFreezes_6 : State :=
    ((up [(pDRAM, 0, DRAM_STATUS_READY, 1), (pHAMPER, 0,
    HAMPER_STATUS_STATE, 2)]).on (fun h =>
    { h with hamper := { k := 5, n := 9, r := 2, base := 100, rec' := some ⟨3, 70, 99, 5, true, false⟩ } }) : State)

theorem test_HamperRecordsAndFreezes_6 :
    (wit_HamperRecordsAndFreezes_6.hw.hamper.rec' = some (⟨3, 70, 99, 5,
    true, false⟩ : HamperRec) ∧ wit_HamperRecordsAndFreezes_6.hw.dramReady = true ∧
    wit_HamperRecordsAndFreezes_6.hw.domainRuns 32 = true ∧ wit_HamperRecordsAndFreezes_6.hw.hamper.r =
    (wit_HamperRecordsAndFreezes_6.hw.hamper.n + 9) / 8) ∧ (wit_HamperRecordsAndFreezes_6.hw.hamper.stopping = false ∧
    (⟨3, 70, 99, 5, true, false⟩ : HamperRec).pos < wit_HamperRecordsAndFreezes_6.hw.hamper.k ∧
    wit_HamperRecordsAndFreezes_6.hw.hamper.k < 2 ^ 26)  := by decide +kernel

def wit_HamperRecordsAndFreezes_7 : State :=
    ((up [(pHAMPER, 0, HAMPER_STATUS_STATE, 2), (pHAMPER, 0,
    HAMPER_FRZ_CFG_EN, 15), (pPIN, 0, PIN_PEV_LVL_LEVEL, 1), (pHAMPER, 0, HAMPER_POST_COUNT, 3)]).on (fun h =>
    { h with hamper := { k := 5 } }) : State)

theorem test_HamperRecordsAndFreezes_7 :
    (wit_HamperRecordsAndFreezes_7.hw.hState = 2 ∧ 0 <
    wit_HamperRecordsAndFreezes_7.hw.postOf ∧ bitOf (wit_HamperRecordsAndFreezes_7.hw.f pHAMPER 0 HAMPER_FRZ_CFG_EN) 3
    = true) ∧ (bitOf (wit_HamperRecordsAndFreezes_7.hw.f pPIN 0 PIN_PEV_LVL_LEVEL) (wit_HamperRecordsAndFreezes_7.hw.f
    pHAMPER 0 HAMPER_FRZ_CFG_PEV) = true) ∧ ((after (exec (.hamperTrigger none true)
    wit_HamperRecordsAndFreezes_7)).hw.hState = 3 ∧ (after (exec (.hamperTrigger none true)
    wit_HamperRecordsAndFreezes_7)).hw.f pHAMPER 0 HAMPER_FRZSTAT_CAUSE = 8 ∧ (after (exec (.hamperTrigger none true)
    wit_HamperRecordsAndFreezes_7)).hw.f pHAMPER 0 HAMPER_FRZSTAT_SHORT_PRE = 0) ∧ ((after (exec (.hamperTrigger none
    true) wit_HamperRecordsAndFreezes_7)).hw.hamper.trig = true ∧ (after (exec (.hamperTrigger none true)
    wit_HamperRecordsAndFreezes_7)).hw.hamper.left = wit_HamperRecordsAndFreezes_7.hw.postOf)  := by decide +kernel

def wit_HamperRecordsAndFreezes_8 : State :=
    ((up [(pHAMPER, 0, HAMPER_STATUS_STATE, 1)]).on (fun h =>
    { h with hamper := { k := 5 } }) : State)

theorem test_HamperRecordsAndFreezes_8 :
    (accepts wit_HamperRecordsAndFreezes_8.hw (.core 0 : Requester)
    pHAMPER = true ∧ wit_HamperRecordsAndFreezes_8.hw.hState = 1 ∧ wit_HamperRecordsAndFreezes_8.hw.postOf = 0 ∧ bitOf
    (wit_HamperRecordsAndFreezes_8.hw.f pHAMPER 0 HAMPER_FRZ_CFG_EN) 0 = true ∧
    wit_HamperRecordsAndFreezes_8.hw.hamper.k < 2 ^ 26) ∧ ((after (exec (.hamperFreeze (.core 0 : Requester) 1)
    wit_HamperRecordsAndFreezes_8)).hw.hState = 4 ∧ (after (exec (.hamperFreeze (.core 0 : Requester) 1)
    wit_HamperRecordsAndFreezes_8)).hw.f pHAMPER 0 HAMPER_FRZSTAT_CAUSE = 1 ∧ (after (exec (.hamperFreeze (.core 0 :
    Requester) 1) wit_HamperRecordsAndFreezes_8)).hw.f pHAMPER 0 HAMPER_FRZSTAT_SHORT_PRE = 1 ∧ (after (exec
    (.hamperFreeze (.core 0 : Requester) 1) wit_HamperRecordsAndFreezes_8)).hw.f pHAMPER 0 HAMPER_IRQ_FROZEN = 1) ∧
    ((after (exec (.hamperFreeze (.core 0 : Requester) 1) wit_HamperRecordsAndFreezes_8)).hw.f pHAMPER 0
    HAMPER_TRIG_IDX_POS = wit_HamperRecordsAndFreezes_8.hw.nextPos)  := by decide +kernel

def wit_HamperRecordsAndFreezes_9 : State :=
    (up [(pHAMPER, 0, HAMPER_STATUS_STATE, 4), (pHAMPER, 0,
    HAMPER_FRZSTAT_CAUSE, 4)] : State)

theorem test_HamperRecordsAndFreezes_9 :
    (accepts wit_HamperRecordsAndFreezes_9.hw (.core 0 : Requester)
    pHAMPER = true ∧ (wit_HamperRecordsAndFreezes_9.hw.hState = 3 ∨ wit_HamperRecordsAndFreezes_9.hw.hState = 4) ∧
    bitOf (wit_HamperRecordsAndFreezes_9.hw.f pHAMPER 0 HAMPER_FRZ_CFG_EN) 0 = true) ∧ (∀ b : Bool,
    wit_HamperRecordsAndFreezes_9.hw.hamper.trigAt ≠ some (wit_HamperRecordsAndFreezes_9.hw.now, b)) ∧ ((after (exec
    (.hamperFreeze (.core 0 : Requester) 1) wit_HamperRecordsAndFreezes_9)).hw.hState =
    wit_HamperRecordsAndFreezes_9.hw.hState ∧ (after (exec (.hamperFreeze (.core 0 : Requester) 1)
    wit_HamperRecordsAndFreezes_9)).hw.f pHAMPER 0 HAMPER_FRZSTAT_EXTRA = min 255 (wit_HamperRecordsAndFreezes_9.hw.f
    pHAMPER 0 HAMPER_FRZSTAT_EXTRA + 1)) ∧ ((after (exec (.hamperFreeze (.core 0 : Requester) 1)
    wit_HamperRecordsAndFreezes_9)).hw.f pHAMPER 0 HAMPER_FRZSTAT_CAUSE = wit_HamperRecordsAndFreezes_9.hw.f pHAMPER 0
    HAMPER_FRZSTAT_CAUSE)  := by decide +kernel

def wit_HamperRecordsAndFreezes_10 : State :=
    ((up [(pHAMPER, 0, HAMPER_STATUS_STATE, 4)]).on (fun h =>
    { h with hamper := { k := 5, count := 3 } }) : State)

theorem test_HamperRecordsAndFreezes_10 :
    (accepts wit_HamperRecordsAndFreezes_10.hw (.core 0 : Requester)
    pHAMPER = true ∧ wit_HamperRecordsAndFreezes_10.hw.hState = 4 ∧ wit_HamperRecordsAndFreezes_10.hw.b pHAMPER 0
    HAMPER_STATUS_DUMP_QUEUED = false ∧ wit_HamperRecordsAndFreezes_10.hw.b pHAMPER 0 HAMPER_STATUS_DUMPING = false) ∧
    (((after (exec (.hamperRearm (.core 0 : Requester) 2) wit_HamperRecordsAndFreezes_10)).hw.hState = 1 ∨ (after
    (exec (.hamperRearm (.core 0 : Requester) 2) wit_HamperRecordsAndFreezes_10)).hw.hState = 2) ∧ (after (exec
    (.hamperRearm (.core 0 : Requester) 2) wit_HamperRecordsAndFreezes_10)).hw.hamper.count = 0) ∧ ((after (exec
    (.hamperRearm (.core 0 : Requester) 2) wit_HamperRecordsAndFreezes_10)).hw.f pHAMPER 0 HAMPER_WR_IDX_POS =
    wit_HamperRecordsAndFreezes_10.hw.f pHAMPER 0 HAMPER_WR_IDX_POS ∧ (after (exec (.hamperRearm (.core 0 : Requester)
    2) wit_HamperRecordsAndFreezes_10)).hw.f pHAMPER 0 HAMPER_SEQ_SEQ = wit_HamperRecordsAndFreezes_10.hw.f pHAMPER 0
    HAMPER_SEQ_SEQ)  := by decide +kernel

def wit_HamperRecordsAndFreezes_11 : State :=
    (up [(pHAMPER, 0, HAMPER_STATUS_STATE, 4), (pHAMPER, 0,
    HAMPER_STATUS_DUMPING, 1)] : State)

theorem test_HamperRecordsAndFreezes_11 :
    (accepts wit_HamperRecordsAndFreezes_11.hw (.core 0 : Requester)
    pHAMPER = true ∧ wit_HamperRecordsAndFreezes_11.hw.hState = 4 ∧ wit_HamperRecordsAndFreezes_11.hw.b pHAMPER 0
    HAMPER_STATUS_DUMPING = true) ∧ ((after (exec (.hamperRearm (.core 0 : Requester) 2)
    wit_HamperRecordsAndFreezes_11)).hw.hState = 4 ∧ (after (exec (.hamperRearm (.core 0 : Requester) 2)
    wit_HamperRecordsAndFreezes_11)).hw.f pHAMPER 0 HAMPER_STATUS_REARM_BUSY = 1)  := by decide +kernel

def wit_HamperRecordsAndFreezes_12 : State :=
    ((up [(pHAMPER, 0, HAMPER_STATUS_STATE, 4), (pHAMPER, 0,
    HAMPER_DUMP_BASE_LINE, 200)]).on (fun h => { h with hamper := { k := 5, r := 2, base := 100, size := 10 } }) :
    State)

theorem test_HamperRecordsAndFreezes_12 :
    (accepts wit_HamperRecordsAndFreezes_12.hw (.core 0 : Requester)
    pHAMPER = true ∧ wit_HamperRecordsAndFreezes_12.hw.hState = 4 ∧ wit_HamperRecordsAndFreezes_12.hw.b pHAMPER 0
    HAMPER_STATUS_DUMP_QUEUED = false ∧ wit_HamperRecordsAndFreezes_12.hw.b pHAMPER 0 HAMPER_STATUS_DUMPING = false) ∧
    ((10 : Nat) = wit_HamperRecordsAndFreezes_12.hw.hamper.k * wit_HamperRecordsAndFreezes_12.hw.hamper.r ∧
    wit_HamperRecordsAndFreezes_12.hw.f pHAMPER 0 HAMPER_DUMP_BASE_LINE + (10 : Nat) ≤ 2 ^ 26) ∧
    (wit_HamperRecordsAndFreezes_12.hw.hamper.base + wit_HamperRecordsAndFreezes_12.hw.hamper.size ≤
    wit_HamperRecordsAndFreezes_12.hw.f pHAMPER 0 HAMPER_DUMP_BASE_LINE ∨ wit_HamperRecordsAndFreezes_12.hw.f pHAMPER
    0 HAMPER_DUMP_BASE_LINE + (10 : Nat) ≤ wit_HamperRecordsAndFreezes_12.hw.hamper.base) ∧ ((after (exec (.hamperDump
    (.core 0 : Requester) 4) wit_HamperRecordsAndFreezes_12)).hw.f pHAMPER 0 HAMPER_STATUS_DUMP_QUEUED = 1 ∧ (after
    (exec (.hamperDump (.core 0 : Requester) 4) wit_HamperRecordsAndFreezes_12)).hw.queue 8 =
    wit_HamperRecordsAndFreezes_12.hw.queue 8 ++ [⟨5, 0⟩] ∧ (after (exec (.hamperDump (.core 0 : Requester) 4)
    wit_HamperRecordsAndFreezes_12)).hw.hamper.dumpTo = wit_HamperRecordsAndFreezes_12.hw.f pHAMPER 0
    HAMPER_DUMP_BASE_LINE)  := by decide +kernel

def wit_HamperRecordsAndFreezes_13 : State :=
    (up [(pHAMPER, 0, HAMPER_STATUS_STATE, 2)] : State)

theorem test_HamperRecordsAndFreezes_13 :
    (accepts wit_HamperRecordsAndFreezes_13.hw (.core 0 : Requester)
    pHAMPER = true ∧ wit_HamperRecordsAndFreezes_13.hw.hState ≠ 4) ∧ ((after (exec (.hamperDump (.core 0 : Requester)
    4) wit_HamperRecordsAndFreezes_13)).hw.f pHAMPER 0 HAMPER_IRQ_DUMP_ERR = 1 ∧ (after (exec (.hamperDump (.core 0 :
    Requester) 4) wit_HamperRecordsAndFreezes_13)).hw.queue 8 = wit_HamperRecordsAndFreezes_13.hw.queue 8)
     := by decide +kernel

def wit_HamperRecordsAndFreezes_14 : State :=
    ((up []).on (fun h => h.enqueue 8 5 0) : State)

theorem test_HamperRecordsAndFreezes_14 :
    (wit_HamperRecordsAndFreezes_14.hw.grantable 8 ⟨5, 0⟩ (fun _ =>
    true) = true) ∧ ((after (exec (.dumpGrant ()) wit_HamperRecordsAndFreezes_14)).hw.hamper.dump = some
    ⟨wit_HamperRecordsAndFreezes_14.hw.hamper.base, wit_HamperRecordsAndFreezes_14.hw.hamper.k,
    wit_HamperRecordsAndFreezes_14.hw.hamper.r, (wit_HamperRecordsAndFreezes_14.hw.f pHAMPER 0 HAMPER_LAST_IDX_POS +
    1) % max 1 wit_HamperRecordsAndFreezes_14.hw.hamper.k, wit_HamperRecordsAndFreezes_14.hw.hamper.dumpTo⟩) ∧ ((after
    (exec (.dumpGrant ()) wit_HamperRecordsAndFreezes_14)).hw.running 8 = some ⟨5, 0⟩ ∧ (after (exec (.dumpGrant ())
    wit_HamperRecordsAndFreezes_14)).hw.f pHAMPER 0 HAMPER_STATUS_DUMP_QUEUED = 0 ∧ (after (exec (.dumpGrant ())
    wit_HamperRecordsAndFreezes_14)).hw.f pHAMPER 0 HAMPER_STATUS_DUMPING = 1)  := by decide +kernel

def wit_HamperRecordsAndFreezes_15 : State :=
    (((up []).on (fun h =>
    { (h.setRunning 8 (some ⟨5, 0⟩)) with hamper := { k := 5, r := 2, base := 100, size := 10, dumpTo := 200, dump := some ⟨100, 5, 2, 3, 200⟩ } })).wrList
    (lineBase 100) [7, 8, 9] : State)

theorem test_HamperRecordsAndFreezes_15 :
    (wit_HamperRecordsAndFreezes_15.hw.running 8 = some ⟨5, 0⟩ ∧
    wit_HamperRecordsAndFreezes_15.hw.hamper.dump = some (⟨100, 5, 2, 3, 200⟩ : DumpJob) ∧
    wit_HamperRecordsAndFreezes_15.memWf ∧ (10 : Nat) = (⟨100, 5, 2, 3, 200⟩ : DumpJob).k * (⟨100, 5, 2, 3, 200⟩ :
    DumpJob).r ∧ (⟨100, 5, 2, 3, 200⟩ : DumpJob).first < (⟨100, 5, 2, 3, 200⟩ : DumpJob).k) ∧ ((⟨100, 5, 2, 3, 200⟩ :
    DumpJob).base + (10 : Nat) ≤ (⟨100, 5, 2, 3, 200⟩ : DumpJob).dst ∨ (⟨100, 5, 2, 3, 200⟩ : DumpJob).dst + (10 :
    Nat) ≤ (⟨100, 5, 2, 3, 200⟩ : DumpJob).base)  := by decide +kernel

def wit_FlashReadsProgramsAndMargins_1 : State :=
    (up [] : State)

theorem test_FlashReadsProgramsAndMargins_1 :
    (wit_FlashReadsProgramsAndMargins_1.hw.flash.op = none ∧
    wit_FlashReadsProgramsAndMargins_1.hw.flash.erase = none ∧ (2 : Nat) ≤ 3 ∧ 1 ≤
    wit_FlashReadsProgramsAndMargins_1.hw.f pFLASH 0 FLASH_ERR_WARN_THR ∧ wit_FlashReadsProgramsAndMargins_1.hw.f
    pFLASH 0 FLASH_ERR_WARN_THR ≤ (2 : Nat))  := by decide +kernel

def wit_FlashReadsProgramsAndMargins_2 : State :=
    (up [] : State)

theorem test_FlashReadsProgramsAndMargins_2 :
    (wit_FlashReadsProgramsAndMargins_2.hw.flash.op = none ∧
    wit_FlashReadsProgramsAndMargins_2.hw.flash.erase = none ∧ (1 : Nat) < wit_FlashReadsProgramsAndMargins_2.hw.f
    pFLASH 0 FLASH_ERR_WARN_THR)  := by decide +kernel

def wit_FlashReadsProgramsAndMargins_3 : State :=
    (up [] : State)

theorem test_FlashReadsProgramsAndMargins_3 :
    (wit_FlashReadsProgramsAndMargins_3.hw.flash.op = none ∧
    wit_FlashReadsProgramsAndMargins_3.hw.flash.erase = none ∧ 3 < (4 : Nat))  := by decide +kernel

def wit_FlashReadsProgramsAndMargins_4 : State :=
    ((up []).on (fun h => h.setFlash
    { erase := some ⟨9, controller, 1, false, false, false, none, false, 0⟩ }) : State)

theorem test_FlashReadsProgramsAndMargins_4 :
    (wit_FlashReadsProgramsAndMargins_4.hw.flash.op = none ∧
    wit_FlashReadsProgramsAndMargins_4.hw.flash.erase = some (⟨9, controller, 1, false, false, false, none, false, 0⟩
    : EraseSt) ∧ (⟨9, controller, 1, false, false, false, none, false, 0⟩ : EraseSt).phase = 1 ∧ (⟨9, controller, 1,
    false, false, false, none, false, 0⟩ : EraseSt).suspended = false ∧ (⟨9, controller, 1, false, false, false, none,
    false, 0⟩ : EraseSt).pend = none)  := by decide +kernel

def wit_FlashReadsProgramsAndMargins_5 : State :=
    (up [(pFLASH, 0, FLASH_PADDR_OFFSET, 0x400004)] : State)

theorem test_FlashReadsProgramsAndMargins_5 :
    (accepts wit_FlashReadsProgramsAndMargins_5.hw (.core 0 :
    Requester) pFLASH = true ∧ wit_FlashReadsProgramsAndMargins_5.hw.f pFLASH 0 FLASH_PADDR_OFFSET = (0x400004 : Nat)
    ∧ (0x400004 : Nat) % 4 = 0 ∧ 8192 ≤ (0x400004 : Nat) ∧ flashIdle wit_FlashReadsProgramsAndMargins_5.hw) ∧
    (((wit_FlashReadsProgramsAndMargins_5.hw.acc (.core 0 : Requester)).ring = 0 ∨
    wit_FlashReadsProgramsAndMargins_5.hw.runSlot = none ∨ slotOf ((0x400004 : Nat) / 4096) ≠
    wit_FlashReadsProgramsAndMargins_5.hw.runSlot) ∧ wit_FlashReadsProgramsAndMargins_5.hw.sectorState ((0x400004 :
    Nat) / 4096) ≠ 1) ∧ (wit_FlashReadsProgramsAndMargins_5.fword (0x400004 : Nat) = -1 ∧
    wit_FlashReadsProgramsAndMargins_5.fword ((0x400004 : Nat) + 1) = -1 ∧ wit_FlashReadsProgramsAndMargins_5.fword
    ((0x400004 : Nat) + 2) = -1 ∧ wit_FlashReadsProgramsAndMargins_5.fword ((0x400004 : Nat) + 3) = -1)
     := by decide +kernel

def wit_FlashReadsProgramsAndMargins_6 : State :=
    (up [(pFLASH, 0, FLASH_PADDR_OFFSET, 0x9000), (pFLASH, 9,
    FLASH_SECTOR_STATE_STATE, 1)] : State)

theorem test_FlashReadsProgramsAndMargins_6 :
    (accepts wit_FlashReadsProgramsAndMargins_6.hw (.core 0 :
    Requester) pFLASH = true) ∧ ((7 : Nat) = firstCause [(wit_FlashReadsProgramsAndMargins_6.hw.f pFLASH 0
    FLASH_PADDR_OFFSET % 4 != 0, 1), (wit_FlashReadsProgramsAndMargins_6.hw.rstWait, 2), (decide
    (wit_FlashReadsProgramsAndMargins_6.hw.f pFLASH 0 FLASH_PADDR_OFFSET < 8192), 3),
    ((wit_FlashReadsProgramsAndMargins_6.hw.acc (.core 0 : Requester)).ring != 0 &&
    wit_FlashReadsProgramsAndMargins_6.hw.runSlot.isSome && slotOf (wit_FlashReadsProgramsAndMargins_6.hw.f pFLASH 0
    FLASH_PADDR_OFFSET / 4096) == wit_FlashReadsProgramsAndMargins_6.hw.runSlot, 4),
    (wit_FlashReadsProgramsAndMargins_6.hw.flash.op.isSome || wit_FlashReadsProgramsAndMargins_6.hw.flash.erase.any
    (fun e => !e.suspended), 5), (wit_FlashReadsProgramsAndMargins_6.hw.flash.erase.any (fun e => e.sector ==
    wit_FlashReadsProgramsAndMargins_6.hw.f pFLASH 0 FLASH_PADDR_OFFSET / 4096), 6),
    (wit_FlashReadsProgramsAndMargins_6.hw.sectorState (wit_FlashReadsProgramsAndMargins_6.hw.f pFLASH 0
    FLASH_PADDR_OFFSET / 4096) == 1, 7), ((List.range 4).any (fun i => wit_FlashReadsProgramsAndMargins_6.fword
    (wit_FlashReadsProgramsAndMargins_6.hw.f pFLASH 0 FLASH_PADDR_OFFSET + i) != -1), 8)] ∧ (7 : Nat) ≠ 0)
     := by decide +kernel

def wit_FlashReadsProgramsAndMargins_7 : State :=
    ((up []).on (fun h => h.setFlash
    { op := some (.program 0x9000 5 [1, 2, 3, 4]) }) : State)

theorem test_FlashReadsProgramsAndMargins_7 :
    (wit_FlashReadsProgramsAndMargins_7.hw.flash.op = some (.program
    (0x9000 : Nat) (5 : Nat) ([1, 2, 3, 4] : List Word)) ∧ wit_FlashReadsProgramsAndMargins_7.hw.flash.recs = [] ∧
    wit_FlashReadsProgramsAndMargins_7.hw.flash.erase = none ∧ wit_FlashReadsProgramsAndMargins_7.hw.flash.switch =
    false ∧ (0x9000 : Nat) + 3 < 8388608)  := by decide +kernel

def wit_FlashReadsProgramsAndMargins_8 : State :=
    (up [] : State)

theorem test_FlashReadsProgramsAndMargins_8 :
    (accepts wit_FlashReadsProgramsAndMargins_8.hw (.core 0 :
    Requester) pFLASH = true ∧ wit_FlashReadsProgramsAndMargins_8.hw.f pFLASH 0 FLASH_PADDR_OFFSET % 4 = 0 ∧ flashIdle
    wit_FlashReadsProgramsAndMargins_8.hw ∧ wit_FlashReadsProgramsAndMargins_8.hw.flash.lwf = none)
     := by decide +kernel

def wit_FlashReadsProgramsAndMargins_9 : State :=
    (up [] : State)

theorem test_FlashReadsProgramsAndMargins_9 :
    (accepts wit_FlashReadsProgramsAndMargins_9.hw (.core 0 :
    Requester) pFLASH = true ∧ wit_FlashReadsProgramsAndMargins_9.hw.f pFLASH 0 FLASH_PADDR_OFFSET % 4 = 0 ∧ flashIdle
    wit_FlashReadsProgramsAndMargins_9.hw ∧ wit_FlashReadsProgramsAndMargins_9.hw.flash.lwf = none)
     := by decide +kernel

def wit_FlashReadsProgramsAndMargins_10 : State :=
    ((up []).on (fun h => h.setFlash
    { op := some (.margin true 8) }) : State)

theorem test_FlashReadsProgramsAndMargins_10 :
    (accepts wit_FlashReadsProgramsAndMargins_10.hw (.core 0 :
    Requester) pFLASH = true ∧ wit_FlashReadsProgramsAndMargins_10.hw.f pFLASH 0 FLASH_PADDR_OFFSET % 4 = 0 ∧
    wit_FlashReadsProgramsAndMargins_10.hw.b pRST 0 RST_STATUS_PENDING = false ∧
    wit_FlashReadsProgramsAndMargins_10.hw.flash.op.isSome = true)  := by decide +kernel

def wit_FlashReadsProgramsAndMargins_11 : State :=
    ((up []).on (fun h => h.setFlash
    { op := some (.margin true 1200) }) : State)

theorem test_FlashReadsProgramsAndMargins_11 :
    (wit_FlashReadsProgramsAndMargins_11.hw.flash.op = some
    (.margin (true : Bool) (1200 : Nat)) ∧ wit_FlashReadsProgramsAndMargins_11.hw.flash.recs = [] ∧
    wit_FlashReadsProgramsAndMargins_11.hw.flash.switch = false ∧ wit_FlashReadsProgramsAndMargins_11.hw.flash.erase =
    none ∧ (1200 : Nat) < 2048 ∧ (517 : Nat) ≤ 4096 ∧ (0x4B0000 : Nat) < 8388608)  := by decide +kernel

def wit_ErasesRunBetweenTheirRecords_1 : State :=
    (up [] : State)

theorem test_ErasesRunBetweenTheirRecords_1 :
    (accepts wit_ErasesRunBetweenTheirRecords_1.hw (.core 0 :
    Requester) pFLASH = true ∧ wit_ErasesRunBetweenTheirRecords_1.hw.f pFLASH 0 FLASH_PADDR_OFFSET % 4 = 0 ∧ flashIdle
    wit_ErasesRunBetweenTheirRecords_1.hw ∧ wit_ErasesRunBetweenTheirRecords_1.hw.flash.asked = none ∧ 2 ≤ (1200 : Fin
    2048).val) ∧ ((wit_ErasesRunBetweenTheirRecords_1.hw.acc (.core 0 : Requester)).ring = 0 ∨
    wit_ErasesRunBetweenTheirRecords_1.hw.runSlot = none ∨ slotOf (1200 : Fin 2048) ≠
    wit_ErasesRunBetweenTheirRecords_1.hw.runSlot)  := by decide +kernel

def wit_ErasesRunBetweenTheirRecords_2 : State :=
    ((up [(pLEDGER, 0, LEDGER_STATUS_FREE, 200)]).on (fun h =>
    h.eraseAsk ⟨.core 0, 0⟩ 1200) : State)

theorem test_ErasesRunBetweenTheirRecords_2 :
    (wit_ErasesRunBetweenTheirRecords_2.hw.flash.asked = some ((1200
    : Nat), (⟨0, 0⟩ : Asker)) ∧ wit_ErasesRunBetweenTheirRecords_2.hw.grantable 9 ⟨7, (1200 : Nat)⟩ (fun _ => true) =
    true ∧ flashIdle wit_ErasesRunBetweenTheirRecords_2.hw ∧ wit_ErasesRunBetweenTheirRecords_2.hw.f pLEDGER 0
    LEDGER_STATUS_FREE ≠ 0) ∧ (slotOf (1200 : Nat) = none)  := by decide +kernel

def wit_ErasesRunBetweenTheirRecords_3 : State :=
    ((up [(pLEDGER, 0, LEDGER_STATUS_FREE, 200)]).on (fun h =>
    (h.setImg 0 3).eraseAsk ⟨.core 0, 0⟩ 9) : State)

theorem test_ErasesRunBetweenTheirRecords_3 :
    (wit_ErasesRunBetweenTheirRecords_3.hw.flash.asked = some ((9 :
    Nat), (⟨0, 0⟩ : Asker)) ∧ wit_ErasesRunBetweenTheirRecords_3.hw.grantable 9 ⟨7, (9 : Nat)⟩ (fun _ => true) = true
    ∧ flashIdle wit_ErasesRunBetweenTheirRecords_3.hw ∧ wit_ErasesRunBetweenTheirRecords_3.hw.f pLEDGER 0
    LEDGER_STATUS_FREE ≠ 0) ∧ (slotOf (9 : Nat) = some (0 : Nat) ∧ wit_ErasesRunBetweenTheirRecords_3.hw.imgRec (0 :
    Nat) ≠ 0) ∧ ((after (exec (.eraseGrant ()) wit_ErasesRunBetweenTheirRecords_3)).hw.flash.op = some (.record ⟨4,
    w40 (0 : Nat), 0, 0, wit_ErasesRunBetweenTheirRecords_3.hw.recordTime, wit_ErasesRunBetweenTheirRecords_3.hw.b
    pDTIME 0 DTIME_STATUS_VALID, (⟨0, 0⟩ : Asker), .img (0 : Nat) 0 false⟩)) ∧ ((after (exec (.eraseGrant ())
    wit_ErasesRunBetweenTheirRecords_3)).hw.flash.recs = [⟨1, w40 (9 : Nat), 0, 0,
    wit_ErasesRunBetweenTheirRecords_3.hw.recordTime, wit_ErasesRunBetweenTheirRecords_3.hw.b pDTIME 0
    DTIME_STATUS_VALID, (⟨0, 0⟩ : Asker), .erase false⟩])  := by decide +kernel

def wit_ErasesRunBetweenTheirRecords_4 : State :=
    ((up [(pLEDGER, 0, LEDGER_STATUS_FREE, 200), (pLEDGER, 0,
    LEDGER_NEXT_ADDR, 0x08001990), (pLEDGER, 0, LEDGER_SEQ_SEQ, 4811)]).on (fun h => h.setFlash
    { op := some (.record ⟨1, 1200, 0, 0, 77, true, ⟨3, 1⟩, .erase false⟩), erase := some ⟨1200, ⟨3, 1⟩, 0, false, false, false, none, false, 0⟩ })
    : State)

theorem test_ErasesRunBetweenTheirRecords_4 :
    (wit_ErasesRunBetweenTheirRecords_4.hw.flash.op = some (.record
    (⟨1, 1200, 0, 0, 77, true, ⟨3, 1⟩, .erase false⟩ : LedgerRec)) ∧ wit_ErasesRunBetweenTheirRecords_4.hw.nextPlace +
    8 ≤ 8192 ∧ wit_ErasesRunBetweenTheirRecords_4.hw.f pLEDGER 0 LEDGER_NEXT_ADDR < 2 ^ 32 - 8 ∧ 65 <
    wit_ErasesRunBetweenTheirRecords_4.hw.f pLEDGER 0 LEDGER_STATUS_FREE ∧ (⟨1, 1200, 0, 0, 77, true, ⟨3, 1⟩, .erase
    false⟩ : LedgerRec).after' ≠ .switch)  := by decide +kernel

def wit_ErasesRunBetweenTheirRecords_5 : State :=
    ((up [(pLEDGER, 0, LEDGER_STATUS_FREE, 200), (pLEDGER, 0,
    LEDGER_NEXT_ADDR, 0x08001990), (pLEDGER, 0, LEDGER_SEQ_SEQ, 4811)]).on (fun h => h.setFlash
    { op := some (.record ⟨14, 1, 2, 3, 77, true, ⟨3, 1⟩, .user⟩) }) : State)

theorem test_ErasesRunBetweenTheirRecords_5 :
    (wit_ErasesRunBetweenTheirRecords_5.hw.flash.op = some (.record
    (⟨14, 1, 2, 3, 77, true, ⟨3, 1⟩, .user⟩ : LedgerRec)) ∧ wit_ErasesRunBetweenTheirRecords_5.hw.nextPlace + 8 ≤ 8192
    ∧ wit_ErasesRunBetweenTheirRecords_5.hw.f pLEDGER 0 LEDGER_NEXT_ADDR < 2 ^ 32 - 8 ∧ 65 <
    wit_ErasesRunBetweenTheirRecords_5.hw.f pLEDGER 0 LEDGER_STATUS_FREE ∧
    wit_ErasesRunBetweenTheirRecords_5.hw.flash.switch = false) ∧ (wit_ErasesRunBetweenTheirRecords_5.hw.flash.erase =
    none)  := by decide +kernel

def wit_ErasesRunBetweenTheirRecords_6 : State :=
    ((up [(pLEDGER, 0, LEDGER_STATUS_FREE, 65), (pLEDGER, 0,
    LEDGER_NEXT_ADDR, 0x08001990), (pLEDGER, 0, LEDGER_STATUS_ACTIVE, 1)]).on (fun h => h.setFlash
    { op := some (.record ⟨14, 1, 2, 3, 77, true, ⟨3, 1⟩, .user⟩) }) : State)

theorem test_ErasesRunBetweenTheirRecords_6 :
    (wit_ErasesRunBetweenTheirRecords_6.hw.flash.op = some (.record
    (⟨14, 1, 2, 3, 77, true, ⟨3, 1⟩, .user⟩ : LedgerRec)) ∧ wit_ErasesRunBetweenTheirRecords_6.hw.f pLEDGER 0
    LEDGER_STATUS_FREE ≤ 65 ∧ 1 ≤ wit_ErasesRunBetweenTheirRecords_6.hw.f pLEDGER 0 LEDGER_STATUS_FREE ∧
    wit_ErasesRunBetweenTheirRecords_6.hw.flash.erase = none ∧ wit_ErasesRunBetweenTheirRecords_6.hw.flash.recs = [] ∧
    (⟨14, 1, 2, 3, 77, true, ⟨3, 1⟩, .user⟩ : LedgerRec).after' = .user ∧ wit_ErasesRunBetweenTheirRecords_6.hw.b pRST
    0 RST_STATUS_PENDING = false)  := by decide +kernel

def wit_ErasesRunBetweenTheirRecords_7 : State :=
    ((up [(pLEDGER, 0, LEDGER_STATUS_FREE, 200), (pLEDGER, 0,
    LEDGER_NEXT_ADDR, 0x08001990), (pLEDGER, 0, LEDGER_SEQ_SEQ, 4811)]).on (fun h => h.setFlash
    { op := some (.record ⟨1, 1200, 0, 0, 77, true, ⟨3, 1⟩, .erase false⟩), erase := some ⟨1200, ⟨3, 1⟩, 0, false, false, false, none, false, 0⟩ })
    : State)

theorem test_ErasesRunBetweenTheirRecords_7 :
    (wit_ErasesRunBetweenTheirRecords_7.hw.flash.op = some (.record
    (⟨1, 1200, 0, 0, 77, true, ⟨3, 1⟩, .erase false⟩ : LedgerRec)) ∧ (⟨1, 1200, 0, 0, 77, true, ⟨3, 1⟩, .erase false⟩
    : LedgerRec).after' = .erase false ∧ wit_ErasesRunBetweenTheirRecords_7.hw.flash.erase = some (⟨1200, ⟨3, 1⟩, 0,
    false, false, false, none, false, 0⟩ : EraseSt) ∧ (⟨1200, ⟨3, 1⟩, 0, false, false, false, none, false, 0⟩ :
    EraseSt).resume = false ∧ (⟨1200, ⟨3, 1⟩, 0, false, false, false, none, false, 0⟩ : EraseSt).suspended = false ∧
    wit_ErasesRunBetweenTheirRecords_7.hw.flash.switch = false ∧ wit_ErasesRunBetweenTheirRecords_7.hw.flash.recs =
    [])  := by decide +kernel

def wit_ErasesRunBetweenTheirRecords_8 : State :=
    ((up [(pLEDGER, 0, LEDGER_STATUS_FREE, 200)]).on (fun h =>
    h.setFlash { erase := some ⟨1200, ⟨3, 1⟩, 1, false, false, false, none, false, 3200000⟩ }) : State)

theorem test_ErasesRunBetweenTheirRecords_8 :
    (wit_ErasesRunBetweenTheirRecords_8.hw.flash.op = none ∧
    wit_ErasesRunBetweenTheirRecords_8.hw.flash.erase = some (⟨1200, ⟨3, 1⟩, 1, false, false, false, none, false,
    3200000⟩ : EraseSt) ∧ (⟨1200, ⟨3, 1⟩, 1, false, false, false, none, false, 3200000⟩ : EraseSt).phase = 1 ∧ (⟨1200,
    ⟨3, 1⟩, 1, false, false, false, none, false, 3200000⟩ : EraseSt).suspended = false ∧ (⟨1200, ⟨3, 1⟩, 1, false,
    false, false, none, false, 3200000⟩ : EraseSt).sector < 2048 ∧ (⟨1200, ⟨3, 1⟩, 1, false, false, false, none,
    false, 3200000⟩ : EraseSt).us < 2 ^ 15) ∧ (wit_ErasesRunBetweenTheirRecords_8.hw.flash.switch = false ∧
    wit_ErasesRunBetweenTheirRecords_8.hw.flash.recs = [] ∧ wit_ErasesRunBetweenTheirRecords_8.hw.f pLEDGER 0
    LEDGER_STATUS_FREE ≠ 0)  := by decide +kernel

def wit_ErasesRunBetweenTheirRecords_9 : State :=
    ((up [(pLEDGER, 0, LEDGER_STATUS_FREE, 200), (pLEDGER, 0,
    LEDGER_NEXT_ADDR, 0x08001998), (pFLASH, 1200, FLASH_SECTOR_STATE_STATE, 1)]).on (fun h => h.setFlash
    { op := some (.record ⟨2, 1200, 0, 8000, 77, true, ⟨3, 1⟩, .erase true⟩), erase := some ⟨1200, ⟨3, 1⟩, 2, false, false, false, none, false, 0⟩ })
    : State)

theorem test_ErasesRunBetweenTheirRecords_9 :
    (wit_ErasesRunBetweenTheirRecords_9.hw.flash.op = some (.record
    (⟨2, 1200, 0, 8000, 77, true, ⟨3, 1⟩, .erase true⟩ : LedgerRec)) ∧ (⟨2, 1200, 0, 8000, 77, true, ⟨3, 1⟩, .erase
    true⟩ : LedgerRec).after' = .erase true ∧ wit_ErasesRunBetweenTheirRecords_9.hw.flash.erase = some (⟨1200, ⟨3, 1⟩,
    2, false, false, false, none, false, 0⟩ : EraseSt) ∧ (⟨1200, ⟨3, 1⟩, 2, false, false, false, none, false, 0⟩ :
    EraseSt).sector < 2048 ∧ wit_ErasesRunBetweenTheirRecords_9.hw.flash.switch = false ∧
    wit_ErasesRunBetweenTheirRecords_9.hw.flash.recs = [] ∧ 65 < wit_ErasesRunBetweenTheirRecords_9.hw.f pLEDGER 0
    LEDGER_STATUS_FREE)  := by decide +kernel

def wit_ErasesRunBetweenTheirRecords_10 : State :=
    ((up []).on (fun h => h.setFlash
    { erase := some ⟨1200, ⟨3, 1⟩, 1, false, false, false, none, false, 0⟩ }) : State)

theorem test_ErasesRunBetweenTheirRecords_10 :
    (accepts wit_ErasesRunBetweenTheirRecords_10.hw (.core 0 :
    Requester) pFLASH = true ∧ wit_ErasesRunBetweenTheirRecords_10.hw.f pFLASH 0 FLASH_PADDR_OFFSET % 4 = 0 ∧
    wit_ErasesRunBetweenTheirRecords_10.hw.flash.erase = some (⟨1200, ⟨3, 1⟩, 1, false, false, false, none, false, 0⟩
    : EraseSt) ∧ (⟨1200, ⟨3, 1⟩, 1, false, false, false, none, false, 0⟩ : EraseSt).phase = 1 ∧ (⟨1200, ⟨3, 1⟩, 1,
    false, false, false, none, false, 0⟩ : EraseSt).suspended = false) ∧ ((after (exec (.flashSuspend (.core 0 :
    Requester)) wit_ErasesRunBetweenTheirRecords_10)).hw.flash.erase = some
    { (⟨1200, ⟨3, 1⟩, 1, false, false, false, none, false, 0⟩ : EraseSt) with pend := some false } ∧ (after (exec
    (.flashSuspend (.core 0 : Requester)) wit_ErasesRunBetweenTheirRecords_10)).hw.f pFLASH 0 FLASH_STATUS_SUS_PEND =
    1 ∧ (after (exec (.flashSuspend (.core 0 : Requester)) wit_ErasesRunBetweenTheirRecords_10)).hw.f pFLASH 0
    FLASH_STATUS_SUSPENDED = 0)  := by decide +kernel

def wit_ErasesRunBetweenTheirRecords_11 : State :=
    ((up []).on (fun h => h.setFlash
    { erase := some ⟨1200, ⟨3, 1⟩, 1, false, false, false, some false, false, 0⟩ }) : State)

theorem test_ErasesRunBetweenTheirRecords_11 :
    (wit_ErasesRunBetweenTheirRecords_11.hw.flash.erase = some
    (⟨1200, ⟨3, 1⟩, 1, false, false, false, some false, false, 0⟩ : EraseSt) ∧ (⟨1200, ⟨3, 1⟩, 1, false, false, false,
    some false, false, 0⟩ : EraseSt).phase = 1 ∧ (⟨1200, ⟨3, 1⟩, 1, false, false, false, some false, false, 0⟩ :
    EraseSt).suspended = false ∧ (⟨1200, ⟨3, 1⟩, 1, false, false, false, some false, false, 0⟩ : EraseSt).pend = some
    (false : Bool) ∧ wit_ErasesRunBetweenTheirRecords_11.hw.b pRST 0 RST_STATUS_PENDING = false) ∧
    (wit_ErasesRunBetweenTheirRecords_11.hw.flash.recs = []) ∧ ((after (exec (.suspendAccept ())
    wit_ErasesRunBetweenTheirRecords_11)).hw.flash.erase = some
    { (⟨1200, ⟨3, 1⟩, 1, false, false, false, some false, false, 0⟩ : EraseSt) with suspended := true, auto := (false : Bool), pend := none }
    ∧ (after (exec (.suspendAccept ()) wit_ErasesRunBetweenTheirRecords_11)).hw.f pFLASH 0 FLASH_STATUS_SUSPENDED = 1
    ∧ (after (exec (.suspendAccept ()) wit_ErasesRunBetweenTheirRecords_11)).hw.f pFLASH 0 FLASH_STATUS_SUS_PEND = 0)
    ∧ ((after (exec (.suspendAccept ()) wit_ErasesRunBetweenTheirRecords_11)).hw.f pFLASH 0 FLASH_RUNTIME_US =
    wit_ErasesRunBetweenTheirRecords_11.hw.f pFLASH 0 FLASH_RUNTIME_US) ∧ ((false : Bool) = false → (after (exec
    (.suspendAccept ()) wit_ErasesRunBetweenTheirRecords_11)).hw.f pFLASH 0 FLASH_IRQ_OP_DONE = 1 ∧ (after (exec
    (.suspendAccept ()) wit_ErasesRunBetweenTheirRecords_11)).hw.f pFLASH 0 FLASH_OPSTAT_LAST_OP = 3)
     := by decide +kernel

def wit_ErasesRunBetweenTheirRecords_12 : State :=
    ((up [(pRST, 0, RST_STATUS_PENDING, 1)]).on (fun h =>
    h.setFlash { erase := some ⟨1200, ⟨3, 1⟩, 1, false, false, false, some false, false, 0⟩ }) : State)

theorem test_ErasesRunBetweenTheirRecords_12 :
    (wit_ErasesRunBetweenTheirRecords_12.hw.b pRST 0
    RST_STATUS_PENDING = true) ∧ ((after (exec (.suspendAccept ()) wit_ErasesRunBetweenTheirRecords_12)) =
    wit_ErasesRunBetweenTheirRecords_12)  := by decide +kernel

def wit_ErasesRunBetweenTheirRecords_13 : State :=
    ((up []).on (fun h => h.setFlash
    { erase := some ⟨1200, ⟨3, 1⟩, 1, false, true, true, none, false, 0⟩ }) : State)

theorem test_ErasesRunBetweenTheirRecords_13 :
    (accepts wit_ErasesRunBetweenTheirRecords_13.hw (.core 0 :
    Requester) pFLASH = true ∧ wit_ErasesRunBetweenTheirRecords_13.hw.f pFLASH 0 FLASH_PADDR_OFFSET % 4 = 0 ∧
    wit_ErasesRunBetweenTheirRecords_13.hw.flash.erase = some (⟨1200, ⟨3, 1⟩, 1, false, true, true, none, false, 0⟩ :
    EraseSt) ∧ (⟨1200, ⟨3, 1⟩, 1, false, true, true, none, false, 0⟩ : EraseSt).suspended = true ∧
    wit_ErasesRunBetweenTheirRecords_13.hw.flash.op = none) ∧ ((after (exec (.flashResume (.core 0 : Requester))
    wit_ErasesRunBetweenTheirRecords_13)).hw.flash.erase = some
    { (⟨1200, ⟨3, 1⟩, 1, false, true, true, none, false, 0⟩ : EraseSt) with suspended := false, auto := false, resume := false }
    ∧ (after (exec (.flashResume (.core 0 : Requester)) wit_ErasesRunBetweenTheirRecords_13)).hw.f pFLASH 0
    FLASH_STATUS_SUSPENDED = 0) ∧ ((after (exec (.flashResume (.core 0 : Requester))
    wit_ErasesRunBetweenTheirRecords_13)).hw.f pFLASH 0 FLASH_IRQ_OP_DONE = 1 ∧ (after (exec (.flashResume (.core 0 :
    Requester)) wit_ErasesRunBetweenTheirRecords_13)).hw.f pFLASH 0 FLASH_OPSTAT_LAST_OP = 4 ∧ (after (exec
    (.flashResume (.core 0 : Requester)) wit_ErasesRunBetweenTheirRecords_13)).hw.f pFLASH 0 FLASH_OPSTAT_SECTOR =
    (⟨1200, ⟨3, 1⟩, 1, false, true, true, none, false, 0⟩ : EraseSt).sector % 2048)  := by decide +kernel

def wit_ErasesRunBetweenTheirRecords_14 : State :=
    (up [] : State)

theorem test_ErasesRunBetweenTheirRecords_14 :
    (accepts wit_ErasesRunBetweenTheirRecords_14.hw (.core 0 :
    Requester) pFLASH = true ∧ wit_ErasesRunBetweenTheirRecords_14.hw.f pFLASH 0 FLASH_PADDR_OFFSET % 4 = 0 ∧
    wit_ErasesRunBetweenTheirRecords_14.hw.flash.erase = none) ∧ ((after (exec (.flashResume (.core 0 : Requester))
    wit_ErasesRunBetweenTheirRecords_14)).hw.f pFLASH 0 FLASH_IRQ_OP_ERR = 1 ∧ (after (exec (.flashResume (.core 0 :
    Requester)) wit_ErasesRunBetweenTheirRecords_14)).hw.f pFLASH 0 FLASH_OPSTAT_CAUSE = 9 ∧ (after (exec
    (.flashResume (.core 0 : Requester)) wit_ErasesRunBetweenTheirRecords_14)).hw.f pFLASH 0 FLASH_OPSTAT_LAST_OP = 4
    ∧ (after (exec (.flashResume (.core 0 : Requester)) wit_ErasesRunBetweenTheirRecords_14)).hw.flash =
    wit_ErasesRunBetweenTheirRecords_14.hw.flash)  := by decide +kernel

def wit_ErasesRunBetweenTheirRecords_15 : State :=
    ((up []).on (fun h => h.setFlash
    { erase := some ⟨1200, ⟨3, 1⟩, 1, false, true, true, none, false, 0⟩ }) : State)

theorem test_ErasesRunBetweenTheirRecords_15 :
    (wit_ErasesRunBetweenTheirRecords_15.hw.flash.erase = some
    (⟨1200, ⟨3, 1⟩, 1, false, true, true, none, false, 0⟩ : EraseSt) ∧ (⟨1200, ⟨3, 1⟩, 1, false, true, true, none,
    false, 0⟩ : EraseSt).suspended = true ∧ (⟨1200, ⟨3, 1⟩, 1, false, true, true, none, false, 0⟩ : EraseSt).auto =
    true ∧ wit_ErasesRunBetweenTheirRecords_15.hw.flash.op = none) ∧ ((after (exec .autoResume
    wit_ErasesRunBetweenTheirRecords_15)).hw.flash.erase = some
    { (⟨1200, ⟨3, 1⟩, 1, false, true, true, none, false, 0⟩ : EraseSt) with suspended := false, auto := false, resume := false }
    ∧ (after (exec .autoResume wit_ErasesRunBetweenTheirRecords_15)).hw.f pFLASH 0 FLASH_STATUS_SUSPENDED = 0)
     := by decide +kernel

def wit_ErasesRunBetweenTheirRecords_16 : State :=
    (up [(pLEDGER, 0, LEDGER_STATUS_FREE, 200), (pLEDGER, 0,
    LEDGER_UARG_ARG 1, 5)] : State)

theorem test_ErasesRunBetweenTheirRecords_16 :
    (accepts wit_ErasesRunBetweenTheirRecords_16.hw (.core 0 :
    Requester) pLEDGER = true ∧ bitOf (1 : Word).toNat 0 = true ∧ wit_ErasesRunBetweenTheirRecords_16.hw.b pLEDGER 0
    LEDGER_STATUS_APP_BUSY = false ∧ flashIdle wit_ErasesRunBetweenTheirRecords_16.hw ∧
    wit_ErasesRunBetweenTheirRecords_16.hw.f pLEDGER 0 LEDGER_STATUS_FREE ≠ 0) ∧ ((after (exec (.ledgerAppend (.core 0
    : Requester) (1 : Word)) wit_ErasesRunBetweenTheirRecords_16)).hw.flash.op = some (.record ⟨14,
    wit_ErasesRunBetweenTheirRecords_16.hw.reg pLEDGER 0x83 0, wit_ErasesRunBetweenTheirRecords_16.hw.reg pLEDGER 0x84
    0, wit_ErasesRunBetweenTheirRecords_16.hw.reg pLEDGER 0x85 0, wit_ErasesRunBetweenTheirRecords_16.hw.recordTime,
    wit_ErasesRunBetweenTheirRecords_16.hw.b pDTIME 0 DTIME_STATUS_VALID, ⟨(.core 0 : Requester).id,
    (wit_ErasesRunBetweenTheirRecords_16.hw.acc (.core 0 : Requester)).ring⟩, .user⟩)) ∧ ((after (exec (.ledgerAppend
    (.core 0 : Requester) (1 : Word)) wit_ErasesRunBetweenTheirRecords_16)).hw.f pLEDGER 0 LEDGER_STATUS_APP_BUSY = 1
    ∧ (after (exec (.ledgerAppend (.core 0 : Requester) (1 : Word)) wit_ErasesRunBetweenTheirRecords_16)).hw.f pFLASH
    0 FLASH_STATUS_OP = 4)  := by decide +kernel

def wit_ImageSlotsAndLimitedWrites_1 : State :=
    ((up [(pLEDGER, 0, LEDGER_STATUS_FREE, 200)]).on (fun h =>
    h.setImg 0 3) : State)

theorem test_ImageSlotsAndLimitedWrites_1 :
    (accepts wit_ImageSlotsAndLimitedWrites_1.hw (.core 0 : Requester)
    pFLASH = true ∧ flashIdle wit_ImageSlotsAndLimitedWrites_1.hw ∧ wit_ImageSlotsAndLimitedWrites_1.hw.f pLEDGER 0
    LEDGER_STATUS_FREE ≠ 0 ∧ wit_ImageSlotsAndLimitedWrites_1.hw.runSlot ≠ some (1 : Fin 2).val) ∧
    ((wit_ImageSlotsAndLimitedWrites_1.hw.imgState (1 - (1 : Fin 2).val) = 3 ∨ wit_ImageSlotsAndLimitedWrites_1.hw.b
    pDEV 0 DEV_STATUS_RECOVERY = true) ∧ wit_ImageSlotsAndLimitedWrites_1.hw.damaged (1 : Fin 2) = false ∧
    (wit_ImageSlotsAndLimitedWrites_1.hw.imgState (1 : Fin 2) = 0 ∨ wit_ImageSlotsAndLimitedWrites_1.hw.imgState (1 :
    Fin 2) = 3 ∨ wit_ImageSlotsAndLimitedWrites_1.hw.imgState (1 : Fin 2) = 4))  := by decide +kernel

def wit_ImageSlotsAndLimitedWrites_2 : State :=
    (up [] : State)

theorem test_ImageSlotsAndLimitedWrites_2 :
    (accepts wit_ImageSlotsAndLimitedWrites_2.hw (.core 0 : Requester)
    pFLASH = true) ∧ ((2 : Nat) = firstCause [(wit_ImageSlotsAndLimitedWrites_2.hw.runSlot == some (1 : Fin 2).val,
    1), (wit_ImageSlotsAndLimitedWrites_2.hw.imgState (1 - (1 : Fin 2).val) != 3 &&
    !wit_ImageSlotsAndLimitedWrites_2.hw.b pDEV 0 DEV_STATUS_RECOVERY, 2),
    (wit_ImageSlotsAndLimitedWrites_2.hw.damaged (1 : Fin 2), 3), (wit_ImageSlotsAndLimitedWrites_2.hw.imgState (1 :
    Fin 2) != 0 && wit_ImageSlotsAndLimitedWrites_2.hw.imgState (1 : Fin 2) != 3 &&
    wit_ImageSlotsAndLimitedWrites_2.hw.imgState (1 : Fin 2) != 4, 4)] ∧ (2 : Nat) ≠ 0) ∧ ((after (exec (.imgMarkTrial
    (.core 0 : Requester) (1 : Fin 2)) wit_ImageSlotsAndLimitedWrites_2)).hw.f pFLASH 0 FLASH_IMG_STAT_CAUSE = (2 :
    Nat) ∧ (after (exec (.imgMarkTrial (.core 0 : Requester) (1 : Fin 2)) wit_ImageSlotsAndLimitedWrites_2)).hw.f
    pFLASH 0 FLASH_IRQ_IMG_ERR = 1 ∧ (after (exec (.imgMarkTrial (.core 0 : Requester) (1 : Fin 2))
    wit_ImageSlotsAndLimitedWrites_2)).hw.flash = wit_ImageSlotsAndLimitedWrites_2.hw.flash)  := by decide +kernel

def wit_ImageSlotsAndLimitedWrites_3 : State :=
    ((up [(pLEDGER, 0, LEDGER_STATUS_FREE, 200)]).on (fun h =>
    (h.setImg 1 2).setRunSlot 1) : State)

theorem test_ImageSlotsAndLimitedWrites_3 :
    (accepts wit_ImageSlotsAndLimitedWrites_3.hw (.core 0 : Requester)
    pFLASH = true ∧ flashIdle wit_ImageSlotsAndLimitedWrites_3.hw ∧ wit_ImageSlotsAndLimitedWrites_3.hw.f pLEDGER 0
    LEDGER_STATUS_FREE ≠ 0 ∧ wit_ImageSlotsAndLimitedWrites_3.hw.damaged (1 : Fin 2) = false) ∧
    (wit_ImageSlotsAndLimitedWrites_3.hw.imgState (1 : Fin 2) = 2 ∧ wit_ImageSlotsAndLimitedWrites_3.hw.runSlot = some
    (1 : Fin 2).val) ∧ ((after (exec (.imgConfirm (.core 0 : Requester) (1 : Fin 2))
    wit_ImageSlotsAndLimitedWrites_3)).hw.flash.op = some (.record ⟨4, w40 (1 : Fin 2), 3, 0,
    wit_ImageSlotsAndLimitedWrites_3.hw.recordTime, wit_ImageSlotsAndLimitedWrites_3.hw.b pDTIME 0 DTIME_STATUS_VALID,
    ⟨(.core 0 : Requester).id, (wit_ImageSlotsAndLimitedWrites_3.hw.acc (.core 0 : Requester)).ring⟩, .img (1 : Fin 2)
    3 false⟩))  := by decide +kernel

def wit_ImageSlotsAndLimitedWrites_4 : State :=
    (up [] : State)

theorem test_ImageSlotsAndLimitedWrites_4 :
    (accepts wit_ImageSlotsAndLimitedWrites_4.hw (.host : Requester)
    pFLASH = true ∧ wit_ImageSlotsAndLimitedWrites_4.hw.damaged (1 : Fin 2) = false ∧
    wit_ImageSlotsAndLimitedWrites_4.hw.imgState (1 : Fin 2) ≠ 3 ∧ (wit_ImageSlotsAndLimitedWrites_4.hw.imgState (1 :
    Fin 2) ≠ 2 ∨ wit_ImageSlotsAndLimitedWrites_4.hw.runSlot ≠ some (1 : Fin 2).val)) ∧
    (wit_ImageSlotsAndLimitedWrites_4.hw.imgState 0 ≠ 3 ∧ wit_ImageSlotsAndLimitedWrites_4.hw.imgState 1 ≠ 3 ∧
    (wit_ImageSlotsAndLimitedWrites_4.hw.acc (.host : Requester)).ring ≠ 0) ∧ ((after (exec (.imgConfirm (.host :
    Requester) (1 : Fin 2)) wit_ImageSlotsAndLimitedWrites_4)).hw.f pFLASH 0 FLASH_IMG_STAT_CAUSE = 5 ∧ (after (exec
    (.imgConfirm (.host : Requester) (1 : Fin 2)) wit_ImageSlotsAndLimitedWrites_4)).hw.f pFLASH 0 FLASH_IRQ_IMG_ERR =
    1 ∧ (after (exec (.imgConfirm (.host : Requester) (1 : Fin 2)) wit_ImageSlotsAndLimitedWrites_4)).hw.flash =
    wit_ImageSlotsAndLimitedWrites_4.hw.flash)  := by decide +kernel

def wit_ImageSlotsAndLimitedWrites_5 : State :=
    ((up []).on (fun h => h.setImg 1 3) : State)

theorem test_ImageSlotsAndLimitedWrites_5 :
    (accepts wit_ImageSlotsAndLimitedWrites_5.hw (.core 0 : Requester)
    pFLASH = true ∧ wit_ImageSlotsAndLimitedWrites_5.hw.damaged (1 : Fin 2) = false ∧
    wit_ImageSlotsAndLimitedWrites_5.hw.runSlot = none ∧ (wit_ImageSlotsAndLimitedWrites_5.hw.acc (.core 0 :
    Requester)).ring = 0 ∧ wit_ImageSlotsAndLimitedWrites_5.hw.imgState (1 : Fin 2) = 3) ∧ ((after (exec (.imgStart
    (.core 0 : Requester) (1 : Fin 2)) wit_ImageSlotsAndLimitedWrites_5)).hw.runSlot = some (1 : Fin 2).val ∧ (after
    (exec (.imgStart (.core 0 : Requester) (1 : Fin 2)) wit_ImageSlotsAndLimitedWrites_5)).hw.flash =
    wit_ImageSlotsAndLimitedWrites_5.hw.flash)  := by decide +kernel

def wit_ImageSlotsAndLimitedWrites_6 : State :=
    ((up [(pLEDGER, 0, LEDGER_STATUS_FREE, 200)]).on (fun h =>
    h.setImg 1 1) : State)

theorem test_ImageSlotsAndLimitedWrites_6 :
    (accepts wit_ImageSlotsAndLimitedWrites_6.hw (.core 0 : Requester)
    pFLASH = true ∧ wit_ImageSlotsAndLimitedWrites_6.hw.damaged (1 : Fin 2) = false ∧
    wit_ImageSlotsAndLimitedWrites_6.hw.runSlot = none ∧ (wit_ImageSlotsAndLimitedWrites_6.hw.acc (.core 0 :
    Requester)).ring = 0 ∧ wit_ImageSlotsAndLimitedWrites_6.hw.imgState (1 : Fin 2) = 1) ∧ (flashIdle
    wit_ImageSlotsAndLimitedWrites_6.hw ∧ wit_ImageSlotsAndLimitedWrites_6.hw.f pLEDGER 0 LEDGER_STATUS_FREE ≠ 0) ∧
    ((after (exec (.imgStart (.core 0 : Requester) (1 : Fin 2)) wit_ImageSlotsAndLimitedWrites_6)).hw.flash.op = some
    (.record ⟨4, w40 (1 : Fin 2), 2, 0, wit_ImageSlotsAndLimitedWrites_6.hw.recordTime,
    wit_ImageSlotsAndLimitedWrites_6.hw.b pDTIME 0 DTIME_STATUS_VALID, ⟨(.core 0 : Requester).id, 0⟩, .img (1 : Fin 2)
    2 true⟩))  := by decide +kernel

def wit_ImageSlotsAndLimitedWrites_7 : State :=
    ((up [(pLEDGER, 0, LEDGER_STATUS_FREE, 200)]).on (fun h =>
    h.setImg 1 1) : State)

theorem test_ImageSlotsAndLimitedWrites_7 :
    (accepts wit_ImageSlotsAndLimitedWrites_7.hw (.core 0 : Requester)
    pFLASH = true ∧ flashIdle wit_ImageSlotsAndLimitedWrites_7.hw ∧ wit_ImageSlotsAndLimitedWrites_7.hw.f pLEDGER 0
    LEDGER_STATUS_FREE ≠ 0 ∧ (wit_ImageSlotsAndLimitedWrites_7.hw.acc (.core 0 : Requester)).ring = 0 ∧
    (wit_ImageSlotsAndLimitedWrites_7.hw.imgRec (1 : Fin 2) = 1 ∨ wit_ImageSlotsAndLimitedWrites_7.hw.imgRec (1 : Fin
    2) = 2)) ∧ ((after (exec (.imgReject (.core 0 : Requester) (1 : Fin 2))
    wit_ImageSlotsAndLimitedWrites_7)).hw.flash.op = some (.record ⟨4, w40 (1 : Fin 2), 4, 0,
    wit_ImageSlotsAndLimitedWrites_7.hw.recordTime, wit_ImageSlotsAndLimitedWrites_7.hw.b pDTIME 0 DTIME_STATUS_VALID,
    ⟨(.core 0 : Requester).id, 0⟩, .img (1 : Fin 2) 4 false⟩))  := by decide +kernel

def wit_ImageSlotsAndLimitedWrites_8 : State :=
    ((up [(pLEDGER, 0, LEDGER_STATUS_FREE, 200), (pLEDGER, 0,
    LEDGER_NEXT_ADDR, 0x08000990)]).on (fun h => h.setFlash
    { op := some (.record ⟨4, 1, 2, 0, 77, true, ⟨0, 0⟩, .img 1 2 true⟩) }) : State)

theorem test_ImageSlotsAndLimitedWrites_8 :
    (wit_ImageSlotsAndLimitedWrites_8.hw.flash.op = some (.record (⟨4,
    1, 2, 0, 77, true, ⟨0, 0⟩, .img 1 2 true⟩ : LedgerRec)) ∧ (⟨4, 1, 2, 0, 77, true, ⟨0, 0⟩, .img 1 2 true⟩ :
    LedgerRec).after' = .img (1 : Nat) (2 : Nat) (true : Bool) ∧ (1 : Nat) < 2 ∧ 65 <
    wit_ImageSlotsAndLimitedWrites_8.hw.f pLEDGER 0 LEDGER_STATUS_FREE ∧
    wit_ImageSlotsAndLimitedWrites_8.hw.flash.erase = none ∧ wit_ImageSlotsAndLimitedWrites_8.hw.flash.switch = false
    ∧ wit_ImageSlotsAndLimitedWrites_8.hw.flash.recs = [])  := by decide +kernel

def wit_ImageSlotsAndLimitedWrites_9 : State :=
    (up [(pLEDGER, 0, LEDGER_STATUS_FREE, 200), (pLWF, 0,
    LWF_STAGE_VALUE 0, 99)] : State)

theorem test_ImageSlotsAndLimitedWrites_9 :
    (accepts wit_ImageSlotsAndLimitedWrites_9.hw (.core 0 : Requester)
    pLWF = true ∧ (0x4C5708 : Word).toNat % 16 = (8 : Nat) ∧ (99 : Nat) =
    wit_ImageSlotsAndLimitedWrites_9.hw.lwfStaged (8 : Nat) ∧ firstCause (lwfCauses
    wit_ImageSlotsAndLimitedWrites_9.hw (8 : Nat) ((0x4C5708 : Word).toNat / 256 % 65536) (99 : Nat)) = 0) ∧
    (flashIdle wit_ImageSlotsAndLimitedWrites_9.hw ∧ wit_ImageSlotsAndLimitedWrites_9.hw.f pLEDGER 0
    LEDGER_STATUS_FREE ≠ 0)  := by decide +kernel

def wit_ImageSlotsAndLimitedWrites_10 : State :=
    (up [] : State)

theorem test_ImageSlotsAndLimitedWrites_10 :
    (accepts wit_ImageSlotsAndLimitedWrites_10.hw (.core 0 :
    Requester) pLWF = true ∧ (0x4C5707 : Word).toNat % 16 = (7 : Nat) ∧ (5 : Nat) = firstCause (lwfCauses
    wit_ImageSlotsAndLimitedWrites_10.hw (7 : Nat) ((0x4C5707 : Word).toNat / 256 % 65536)
    (wit_ImageSlotsAndLimitedWrites_10.hw.lwfStaged (7 : Nat))) ∧ (5 : Nat) ≠ 0) ∧ ((after (exec (.lwfWrite (.core 0 :
    Requester) (0x4C5707 : Word)) wit_ImageSlotsAndLimitedWrites_10)).hw.f pLWF 0 LWF_WSTAT_CAUSE = (5 : Nat) ∧ (after
    (exec (.lwfWrite (.core 0 : Requester) (0x4C5707 : Word)) wit_ImageSlotsAndLimitedWrites_10)).hw.f pLWF 0
    LWF_WSTAT_FIELD = (7 : Nat) ∧ (after (exec (.lwfWrite (.core 0 : Requester) (0x4C5707 : Word))
    wit_ImageSlotsAndLimitedWrites_10)).hw.f pLWF 0 LWF_IRQ_WR_ERR = 1 ∧ (after (exec (.lwfWrite (.core 0 : Requester)
    (0x4C5707 : Word)) wit_ImageSlotsAndLimitedWrites_10)).hw.flash = wit_ImageSlotsAndLimitedWrites_10.hw.flash)
     := by decide +kernel

def wit_ImageSlotsAndLimitedWrites_11 : State :=
    ((up []).on (fun h => h.setFlash
    { lwf := some ⟨8, 3, 0x1234, true⟩ }) : State)

theorem test_ImageSlotsAndLimitedWrites_11 :
    (wit_ImageSlotsAndLimitedWrites_11.hw.flash.lwf = some (⟨8, 3,
    0x1234, true⟩ : LwfWrite) ∧ (⟨8, 3, 0x1234, true⟩ : LwfWrite).recorded = true ∧ (⟨8, 3, 0x1234, true⟩ :
    LwfWrite).field < 9 ∧ (⟨8, 3, 0x1234, true⟩ : LwfWrite).field ≠ 1 ∧ (⟨8, 3, 0x1234, true⟩ : LwfWrite).field ≠ 7 ∧
    (⟨8, 3, 0x1234, true⟩ : LwfWrite).slot < 8 ∧ (⟨8, 3, 0x1234, true⟩ : LwfWrite).value < 2 ^ lwfWidth (⟨8, 3,
    0x1234, true⟩ : LwfWrite).field) ∧ (lwfFree wit_ImageSlotsAndLimitedWrites_11.hw.flash.array (⟨8, 3, 0x1234, true⟩
    : LwfWrite).field (⟨8, 3, 0x1234, true⟩ : LwfWrite).slot = true ∧ lwfBits (⟨8, 3, 0x1234, true⟩ : LwfWrite) &&& (2
    ^ 2048 - 1 : Nat) = lwfBits (⟨8, 3, 0x1234, true⟩ : LwfWrite))  := by decide +kernel

def wit_ImageSlotsAndLimitedWrites_12 : State :=
    ((up []).on (fun h => h.setFlash
    { lwf := some ⟨8, 3, 0x1234, true⟩ }) : State)

theorem test_ImageSlotsAndLimitedWrites_12 :
    (wit_ImageSlotsAndLimitedWrites_12.hw.flash.lwf = some (⟨8, 3,
    0x1234, true⟩ : LwfWrite) ∧ (⟨8, 3, 0x1234, true⟩ : LwfWrite).recorded = true ∧ (⟨8, 3, 0x1234, true⟩ :
    LwfWrite).field < 9 ∧ lwfFree wit_ImageSlotsAndLimitedWrites_12.hw.flash.array (⟨8, 3, 0x1234, true⟩ :
    LwfWrite).field (⟨8, 3, 0x1234, true⟩ : LwfWrite).slot = true ∧ (⟨8, 3, 0x1234, true⟩ : LwfWrite).field ≠ 7) ∧
    ((⟨8, 3, 0x1234, true⟩ : LwfWrite).slot < lwfSlots (⟨8, 3, 0x1234, true⟩ : LwfWrite).field ∧ (⟨8, 3, 0x1234, true⟩
    : LwfWrite).value < 2 ^ lwfWidth (⟨8, 3, 0x1234, true⟩ : LwfWrite).field)  := by decide +kernel

def wit_ImageSlotsAndLimitedWrites_13 : State :=
    (up [] : State)

theorem test_ImageSlotsAndLimitedWrites_13 :
    (wit_ImageSlotsAndLimitedWrites_13.hw.b pLWF 0 LWF_STATUS_LOADED
    = false ∧ wit_ImageSlotsAndLimitedWrites_13.hw.heldInReset = false ∧ wit_ImageSlotsAndLimitedWrites_13.hw.deep =
    false ∧ wit_ImageSlotsAndLimitedWrites_13.hw.bootDue = false)  := by decide +kernel

def wit_PortsComeUpRetrainAndTear_1 : State :=
    (up [] : State)

theorem test_PortsComeUpRetrainAndTear_1 :
    (accepts wit_PortsComeUpRetrainAndTear_1.hw (.core 0 : Requester)
    (pDL (2 : Fin 4)) = true ∧ wit_PortsComeUpRetrainAndTear_1.hw.pstate (2 : Fin 4) = 0 ∧
    wit_PortsComeUpRetrainAndTear_1.hw.domainRuns 40 = true ∧ bitOf (5 : Word).toNat 0 = true ∧ bitOf (5 : Word).toNat
    1 = false) ∧ ((after (exec (.portEnable (.core 0 : Requester) (2 : Fin 4) (5 : Word))
    wit_PortsComeUpRetrainAndTear_1)).hw.pstate (2 : Fin 4) = 1 ∧ (after (exec (.portEnable (.core 0 : Requester) (2 :
    Fin 4) (5 : Word)) wit_PortsComeUpRetrainAndTear_1)).hw.f (pDL (2 : Fin 4)) 0 DL_CTRL_EN = 1 ∧ (after (exec
    (.portEnable (.core 0 : Requester) (2 : Fin 4) (5 : Word)) wit_PortsComeUpRetrainAndTear_1)).hw.f (pDL (2 : Fin
    4)) 0 DL_CTRL_WMAX = bitsOf (5 : Word).toNat 2 2) ∧ (lanesAre (after (exec (.portEnable (.core 0 : Requester) (2 :
    Fin 4) (5 : Word)) wit_PortsComeUpRetrainAndTear_1)).hw (2 : Fin 4) DL_LSTAT_BLOCK_LOCK 0)  := by decide +kernel

def wit_PortsComeUpRetrainAndTear_2 : State :=
    ((up [(pDL 2, 0, DL_STATUS_PSTATE, 5)]).on (fun h => h.setPort
    2 { retry := [⟨7, 1, ⟨3, 4, 0, 0, 1, 0, []⟩⟩] }) : State)

theorem test_PortsComeUpRetrainAndTear_2 :
    (accepts wit_PortsComeUpRetrainAndTear_2.hw (.core 0 : Requester)
    (pDL (2 : Fin 4)) = true ∧ (wit_PortsComeUpRetrainAndTear_2.hw.pstate (2 : Fin 4) = 5 ∨
    wit_PortsComeUpRetrainAndTear_2.hw.pstate (2 : Fin 4) = 6) ∧ bitOf (4 : Word).toNat 0 = false) ∧ ((after (exec
    (.portEnable (.core 0 : Requester) (2 : Fin 4) (4 : Word)) wit_PortsComeUpRetrainAndTear_2)).hw.pstate (2 : Fin 4)
    = 0 ∧ (after (exec (.portEnable (.core 0 : Requester) (2 : Fin 4) (4 : Word))
    wit_PortsComeUpRetrainAndTear_2)).hw.f (pDL (2 : Fin 4)) 0 DL_IRQ_TORN = 1 ∧ ((after (exec (.portEnable (.core 0 :
    Requester) (2 : Fin 4) (4 : Word)) wit_PortsComeUpRetrainAndTear_2)).hw.port (2 : Fin 4)).retry = []) ∧ ((after
    (exec (.portEnable (.core 0 : Requester) (2 : Fin 4) (4 : Word)) wit_PortsComeUpRetrainAndTear_2)).hw.f (pDL (2 :
    Fin 4)) 0 DL_LOST_CNT_COUNT = (wit_PortsComeUpRetrainAndTear_2.hw.f (pDL (2 : Fin 4)) 0 DL_LOST_CNT_COUNT +
    unacked wit_PortsComeUpRetrainAndTear_2.hw (2 : Fin 4)) % 2 ^ 40) ∧ ((after (exec (.portEnable (.core 0 :
    Requester) (2 : Fin 4) (4 : Word)) wit_PortsComeUpRetrainAndTear_2)).hw.f (pDL (2 : Fin 4)) 0 DL_TORN_CNT_COUNT =
    (wit_PortsComeUpRetrainAndTear_2.hw.f (pDL (2 : Fin 4)) 0 DL_TORN_CNT_COUNT + 1) % 2 ^ 40) ∧
    (wit_PortsComeUpRetrainAndTear_2.hw.pstate (2 : Fin 4) = 5 → (after (exec (.portEnable (.core 0 : Requester) (2 :
    Fin 4) (4 : Word)) wit_PortsComeUpRetrainAndTear_2)).hw.f (pDL (2 : Fin 4)) 0 DL_IRQ_DOWN = 1)
     := by decide +kernel

def wit_PortsComeUpRetrainAndTear_3 : State :=
    (up [(pDL 2, 0, DL_STATUS_PSTATE, 1)] : State)

theorem test_PortsComeUpRetrainAndTear_3 :
    (wit_PortsComeUpRetrainAndTear_3.hw.pstate (2 : Fin 4) = 1) ∧
    ((after (exec (.signalDetect (2 : Fin 4)) wit_PortsComeUpRetrainAndTear_3)).hw.pstate (2 : Fin 4) = (if
    wit_PortsComeUpRetrainAndTear_3.hw.lockMask (2 : Fin 4) = 15 then 3 else 2))  := by decide +kernel

def wit_PortsComeUpRetrainAndTear_4 : State :=
    (up [(pDL 2, 0, DL_STATUS_PSTATE, 2)] : State)

theorem test_PortsComeUpRetrainAndTear_4 :
    (wit_PortsComeUpRetrainAndTear_4.hw.pstate (2 : Fin 4) = 2 ∧
    wit_PortsComeUpRetrainAndTear_4.hw.swAt = []) ∧ ((after (exec (.blockLockAcquired (2 : Fin 4) 15 ([3, 4, 5, 6] :
    List Nat)) wit_PortsComeUpRetrainAndTear_4)).hw.pstate (2 : Fin 4) = 3 ∧ lanesAre (after (exec (.blockLockAcquired
    (2 : Fin 4) 15 ([3, 4, 5, 6] : List Nat)) wit_PortsComeUpRetrainAndTear_4)).hw (2 : Fin 4) DL_LSTAT_BLOCK_LOCK 15
    ∧ lanesAre (after (exec (.blockLockAcquired (2 : Fin 4) 15 ([3, 4, 5, 6] : List Nat))
    wit_PortsComeUpRetrainAndTear_4)).hw (2 : Fin 4) DL_LSTAT_USED 15) ∧ (∀ l : Fin 4, (after (exec
    (.blockLockAcquired (2 : Fin 4) 15 ([3, 4, 5, 6] : List Nat)) wit_PortsComeUpRetrainAndTear_4)).hw.f (pDL (2 : Fin
    4)) l DL_RXEQ_CTLE = (if (wit_PortsComeUpRetrainAndTear_4.hw.port (2 : Fin 4)).eqAuto.getD l true then ([3, 4, 5,
    6] : List Nat).getD l 0 % 256 else wit_PortsComeUpRetrainAndTear_4.hw.f (pDL (2 : Fin 4)) l DL_RXEQ_CTLE))
     := by decide +kernel

def wit_PortsComeUpRetrainAndTear_5 : State :=
    (up [(pDL 2, 0, DL_STATUS_PSTATE, 2), (pDL 2, 0,
    DL_LSTAT_BLOCK_LOCK, 1), (pDL 2, 1, DL_LSTAT_BLOCK_LOCK, 1)] : State)

theorem test_PortsComeUpRetrainAndTear_5 :
    (wit_PortsComeUpRetrainAndTear_5.hw.pstate (2 : Fin 4) = 2) ∧
    ((after (exec (.trainTimeout (2 : Fin 4)) wit_PortsComeUpRetrainAndTear_5)).hw.pstate (2 : Fin 4) = (if
    wit_PortsComeUpRetrainAndTear_5.hw.f (pDL (2 : Fin 4)) 0 DL_LSTAT_BLOCK_LOCK = 1 then 3 else 1)) ∧
    (wit_PortsComeUpRetrainAndTear_5.hw.f (pDL (2 : Fin 4)) 0 DL_LSTAT_BLOCK_LOCK = 1 → ∀ l : Fin 4, (after (exec
    (.trainTimeout (2 : Fin 4)) wit_PortsComeUpRetrainAndTear_5)).hw.f (pDL (2 : Fin 4)) l DL_LSTAT_USED =
    wit_PortsComeUpRetrainAndTear_5.hw.f (pDL (2 : Fin 4)) l DL_LSTAT_BLOCK_LOCK)  := by decide +kernel

def wit_PortsComeUpRetrainAndTear_6 : State :=
    (up [(pDL 2, 0, DL_STATUS_PSTATE, 3), (pDL 2, 1, DL_LSTAT_USED,
    1)] : State)

theorem test_PortsComeUpRetrainAndTear_6 :
    (wit_PortsComeUpRetrainAndTear_6.hw.pstate (2 : Fin 4) = 3 ∧ ∀ l :
    Fin 4, ([0, 1, 2, 32] : List Nat).getD l 0 ≤ 32)  := by decide +kernel

def wit_PortsComeUpRetrainAndTear_7 : State :=
    (up [(pDL 2, 0, DL_STATUS_PSTATE, 3)] : State)

theorem test_PortsComeUpRetrainAndTear_7 :
    (wit_PortsComeUpRetrainAndTear_7.hw.pstate (2 : Fin 4) = 3) ∧
    ((after (exec (.deskewFail (2 : Fin 4)) wit_PortsComeUpRetrainAndTear_7)).hw.pstate (2 : Fin 4) = (if
    wit_PortsComeUpRetrainAndTear_7.hw.lockMask (2 : Fin 4) = 15 then 3 else 2) ∧ (after (exec (.deskewFail (2 : Fin
    4)) wit_PortsComeUpRetrainAndTear_7)).hw.f (pDL (2 : Fin 4)) 0 DL_IRQ_DESKEW_ERR = 1)  := by decide +kernel

def wit_PortsComeUpRetrainAndTear_8 : State :=
    (up [(pDL 2, 0, DL_STATUS_PSTATE, 4), (pDL 2, 0, DL_LSTAT_USED,
    1), (pDL 2, 1, DL_LSTAT_USED, 1)] : State)

theorem test_PortsComeUpRetrainAndTear_8 :
    (wit_PortsComeUpRetrainAndTear_8.hw.pstate (2 : Fin 4) = 4)
     := by decide +kernel

def wit_PortsComeUpRetrainAndTear_9 : State :=
    ((up [(pDL 2, 0, DL_STATUS_PSTATE, 6), (pDL 2, 0,
    DL_MEND_ACKED, 5)]).on (fun h => h.setPort 2
    { aligned := true, retry := [⟨6, 1, ⟨3, 4, 0, 0, 1, 0, []⟩⟩, ⟨7, 3, ⟨3, 4, 0, 0, 1, 1, []⟩⟩] }) : State)

theorem test_PortsComeUpRetrainAndTear_9 :
    (wit_PortsComeUpRetrainAndTear_9.hw.pstate (2 : Fin 4) = 6 ∧
    (wit_PortsComeUpRetrainAndTear_9.hw.port (2 : Fin 4)).aligned = true ∧ (1 : Nat) = ((7 : BitVec 12).toNat + 4095 +
    4096 - wit_PortsComeUpRetrainAndTear_9.hw.f (pDL (2 : Fin 4)) 0 DL_MEND_ACKED) % 4096 ∧ (1 : Nat) ≤
    (wit_PortsComeUpRetrainAndTear_9.hw.port (2 : Fin 4)).retry.length)  := by decide +kernel

def wit_PortsComeUpRetrainAndTear_10 : State :=
    (up [(pDL 2, 0, DL_STATUS_PSTATE, 5), (pDL 2, 1,
    DL_LSTAT_USED, 1), (pDL 2, 1, DL_LSTAT_BLOCK_LOCK, 1)] : State)

theorem test_PortsComeUpRetrainAndTear_10 :
    (wit_PortsComeUpRetrainAndTear_10.hw.pstate (2 : Fin 4) = 5 ∧
    wit_PortsComeUpRetrainAndTear_10.hw.b (pDL (2 : Fin 4)) (1 : Fin 4) DL_LSTAT_USED = true) ∧ ((after (exec
    (.blockLockLoss (2 : Fin 4) (some (1 : Fin 4)) (16 : Nat)) wit_PortsComeUpRetrainAndTear_10)).hw.pstate (2 : Fin
    4) = 6 ∧ (after (exec (.blockLockLoss (2 : Fin 4) (some (1 : Fin 4)) (16 : Nat))
    wit_PortsComeUpRetrainAndTear_10)).hw.f (pDL (2 : Fin 4)) 0 DL_IRQ_DOWN = 1 ∧ (after (exec (.blockLockLoss (2 :
    Fin 4) (some (1 : Fin 4)) (16 : Nat)) wit_PortsComeUpRetrainAndTear_10)).hw.f (pDL (2 : Fin 4)) (1 : Fin 4)
    DL_LSTAT_BLOCK_LOCK = 0) ∧ ((after (exec (.blockLockLoss (2 : Fin 4) (some (1 : Fin 4)) (16 : Nat))
    wit_PortsComeUpRetrainAndTear_10)).hw.f (pDL (2 : Fin 4)) (1 : Fin 4) DL_LERR_COUNT = min (2 ^ 40 - 1)
    (wit_PortsComeUpRetrainAndTear_10.hw.f (pDL (2 : Fin 4)) (1 : Fin 4) DL_LERR_COUNT + (16 : Nat)) ∧ ((after (exec
    (.blockLockLoss (2 : Fin 4) (some (1 : Fin 4)) (16 : Nat)) wit_PortsComeUpRetrainAndTear_10)).hw.port (2 : Fin
    4)).retry = (wit_PortsComeUpRetrainAndTear_10.hw.port (2 : Fin 4)).retry)  := by decide +kernel

def wit_PortsComeUpRetrainAndTear_11 : State :=
    ((up [(pDL 2, 0, DL_STATUS_PSTATE, 6), (pDL 2, 1,
    DL_LSTAT_USED, 1), (pDL 2, 1, DL_LSTAT_BLOCK_LOCK, 1)]).on (fun h => h.setPort 2 { aligned := true }) : State)

theorem test_PortsComeUpRetrainAndTear_11 :
    (wit_PortsComeUpRetrainAndTear_11.hw.pstate (2 : Fin 4) = 6 ∧
    wit_PortsComeUpRetrainAndTear_11.hw.b (pDL (2 : Fin 4)) (1 : Fin 4) DL_LSTAT_USED = true) ∧ ((after (exec
    (.blockLockLoss (2 : Fin 4) (some (1 : Fin 4)) (16 : Nat)) wit_PortsComeUpRetrainAndTear_11)).hw.pstate (2 : Fin
    4) = 6 ∧ ((after (exec (.blockLockLoss (2 : Fin 4) (some (1 : Fin 4)) (16 : Nat))
    wit_PortsComeUpRetrainAndTear_11)).hw.port (2 : Fin 4)).aligned = false ∧ (after (exec (.blockLockLoss (2 : Fin 4)
    (some (1 : Fin 4)) (16 : Nat)) wit_PortsComeUpRetrainAndTear_11)).hw.f (pDL (2 : Fin 4)) (1 : Fin 4)
    DL_LSTAT_BLOCK_LOCK = 0)  := by decide +kernel

def wit_PortsComeUpRetrainAndTear_12 : State :=
    (up [(pDL 2, 0, DL_STATUS_PSTATE, 5)] : State)

theorem test_PortsComeUpRetrainAndTear_12 :
    (wit_PortsComeUpRetrainAndTear_12.hw.pstate (2 : Fin 4) = 5) ∧
    ((after (exec (.blockLockLoss (2 : Fin 4) none (0 : Nat)) wit_PortsComeUpRetrainAndTear_12)).hw.pstate (2 : Fin 4)
    = 6 ∧ (after (exec (.blockLockLoss (2 : Fin 4) none (0 : Nat)) wit_PortsComeUpRetrainAndTear_12)).hw.f (pDL (2 :
    Fin 4)) 0 DL_IRQ_DOWN = 1)  := by decide +kernel

def wit_PortsComeUpRetrainAndTear_13 : State :=
    (up [(pDL 2, 0, DL_STATUS_PSTATE, 5)] : State)

theorem test_PortsComeUpRetrainAndTear_13 :
    (accepts wit_PortsComeUpRetrainAndTear_13.hw (.core 0 : Requester)
    (pDL (2 : Fin 4)) = true ∧ wit_PortsComeUpRetrainAndTear_13.hw.pstate (2 : Fin 4) = 5 ∧ bitOf (3 : Word).toNat 0 =
    true) ∧ ((after (exec (.retrainWrite (.core 0 : Requester) (2 : Fin 4) (3 : Word))
    wit_PortsComeUpRetrainAndTear_13)).hw.pstate (2 : Fin 4) = 6 ∧ (after (exec (.retrainWrite (.core 0 : Requester)
    (2 : Fin 4) (3 : Word)) wit_PortsComeUpRetrainAndTear_13)).hw.f (pDL (2 : Fin 4)) 0 DL_IRQ_DOWN = 1 ∧ ((after
    (exec (.retrainWrite (.core 0 : Requester) (2 : Fin 4) (3 : Word)) wit_PortsComeUpRetrainAndTear_13)).hw.port (2 :
    Fin 4)).retry = (wit_PortsComeUpRetrainAndTear_13.hw.port (2 : Fin 4)).retry)  := by decide +kernel

def wit_PortsComeUpRetrainAndTear_14 : State :=
    (up [(pDL 2, 0, DL_STATUS_PSTATE, 5)] : State)

theorem test_PortsComeUpRetrainAndTear_14 :
    (wit_PortsComeUpRetrainAndTear_14.hw.pstate (2 : Fin 4) = 5) ∧
    ((after (exec (.lctlRetrain (2 : Fin 4)) wit_PortsComeUpRetrainAndTear_14)).hw.pstate (2 : Fin 4) = 6 ∧ (after
    (exec (.lctlRetrain (2 : Fin 4)) wit_PortsComeUpRetrainAndTear_14)).hw.f (pDL (2 : Fin 4)) 0 DL_IRQ_DOWN = 1 ∧
    ((after (exec (.lctlRetrain (2 : Fin 4)) wit_PortsComeUpRetrainAndTear_14)).hw.port (2 : Fin 4)).retry =
    (wit_PortsComeUpRetrainAndTear_14.hw.port (2 : Fin 4)).retry)  := by decide +kernel

def wit_PortsComeUpRetrainAndTear_15 : State :=
    (up [(pDL 2, 0, DL_STATUS_PSTATE, 6), (pDL 2, 0,
    DL_STATUS_ROLE, 1), (pDL 0, 0, DL_NODE_JSTATE, 2), (pDL 0, 0, DL_NODE_ID, 77)] : State)

theorem test_PortsComeUpRetrainAndTear_15 :
    (wit_PortsComeUpRetrainAndTear_15.hw.pstate (2 : Fin 4) = 6) ∧
    ((after (exec (.retrainTimeout (2 : Fin 4)) wit_PortsComeUpRetrainAndTear_15)).hw.pstate (2 : Fin 4) = (if
    wit_PortsComeUpRetrainAndTear_15.hw.lockMask (2 : Fin 4) = 15 then 3 else 2) ∧ (after (exec (.retrainTimeout (2 :
    Fin 4)) wit_PortsComeUpRetrainAndTear_15)).hw.f (pDL (2 : Fin 4)) 0 DL_IRQ_TORN = 1 ∧ ((after (exec
    (.retrainTimeout (2 : Fin 4)) wit_PortsComeUpRetrainAndTear_15)).hw.port (2 : Fin 4)).retry = [] ∧ (after (exec
    (.retrainTimeout (2 : Fin 4)) wit_PortsComeUpRetrainAndTear_15)).hw.f (pDL (2 : Fin 4)) 0 DL_STATUS_ROLE = 0) ∧
    ((after (exec (.retrainTimeout (2 : Fin 4)) wit_PortsComeUpRetrainAndTear_15)).hw.f (pDL (2 : Fin 4)) 0
    DL_LOST_CNT_COUNT = (wit_PortsComeUpRetrainAndTear_15.hw.f (pDL (2 : Fin 4)) 0 DL_LOST_CNT_COUNT + unacked
    wit_PortsComeUpRetrainAndTear_15.hw (2 : Fin 4)) % 2 ^ 40) ∧ (wit_PortsComeUpRetrainAndTear_15.hw.role (2 : Fin 4)
    = 1 ∧ wit_PortsComeUpRetrainAndTear_15.hw.jstate = 2 → (after (exec (.retrainTimeout (2 : Fin 4))
    wit_PortsComeUpRetrainAndTear_15)).hw.jstate = 0 ∧ (after (exec (.retrainTimeout (2 : Fin 4))
    wit_PortsComeUpRetrainAndTear_15)).hw.f (pDL 0) 0 DL_DSTAT_PREV_ID = wit_PortsComeUpRetrainAndTear_15.hw.nodeId ∧
    (after (exec (.retrainTimeout (2 : Fin 4)) wit_PortsComeUpRetrainAndTear_15)).hw.f (pDL 0) 0 DL_IRQ_LEFT = 1 ∧
    (after (exec (.retrainTimeout (2 : Fin 4)) wit_PortsComeUpRetrainAndTear_15)).hw.dom.routes = [])
     := by decide +kernel

def wit_MendSendsAcceptsAndRepeats_1 : State :=
    ((up [(pDL 2, 0, DL_STATUS_PSTATE, 5), (pDL 2, 0,
    DL_STATUS_ROLE, 1), (pDL 2, 0, DL_CREDIT_ROUTED, 4096), (pDL 2, 0, DL_MEND_NEXT, 4095)]).on (fun h => h.setPort 2
    { txq := [⟨4, 0, ⟨9, 1, 1, 0, 1, 5, [1, 2]⟩⟩, ⟨4, 0, ⟨9, 1, 0, 0, 1, 5, [1, 2]⟩⟩] }) : State)

theorem test_MendSendsAcceptsAndRepeats_1 :
    (freePort wit_MendSendsAcceptsAndRepeats_1.hw (2 : Fin 4) ∧
    wit_MendSendsAcceptsAndRepeats_1.hw.role (2 : Fin 4) ≠ 3 ∧ wit_MendSendsAcceptsAndRepeats_1.hw.role (2 : Fin 4) ≠
    4 ∧ (wit_MendSendsAcceptsAndRepeats_1.hw.port (2 : Fin 4)).loc = [] ∧ (wit_MendSendsAcceptsAndRepeats_1.hw.port (2
    : Fin 4)).resend = none ∧ (wit_MendSendsAcceptsAndRepeats_1.hw.port (2 : Fin 4)).retry.length < 128) ∧
    ((wit_MendSendsAcceptsAndRepeats_1.hw.port (2 : Fin 4)).txq = [(⟨4, 0, ⟨9, 1, 1, 0, 1, 5, [1, 2]⟩⟩ : Held), (⟨4,
    0, ⟨9, 1, 0, 0, 1, 5, [1, 2]⟩⟩ : Held)] ∧ (⟨4, 0, ⟨9, 1, 0, 0, 1, 5, [1, 2]⟩⟩ : Held).port = 4 ∧ (⟨4, 0, ⟨9, 1, 1,
    0, 1, 5, [1, 2]⟩⟩ : Held).port = 4 ∧ (⟨4, 0, ⟨9, 1, 0, 0, 1, 5, [1, 2]⟩⟩ : Held).frame.tc = 0 ∧ (⟨4, 0, ⟨9, 1, 1,
    0, 1, 5, [1, 2]⟩⟩ : Held).frame.tc ≠ 0 ∧ blocksOf (⟨4, 0, ⟨9, 1, 0, 0, 1, 5, [1, 2]⟩⟩ : Held).frame.words.length ≤
    wit_MendSendsAcceptsAndRepeats_1.hw.f (pDL (2 : Fin 4)) 0 DL_CREDIT_ROUTED) ∧ ((after (exec (.frameStart (2 : Fin
    4) (0 : Fin 64)) wit_MendSendsAcceptsAndRepeats_1)).hw.out = wit_MendSendsAcceptsAndRepeats_1.hw.out ++ [.routed
    (2 : Fin 4) (wit_MendSendsAcceptsAndRepeats_1.hw.f (pDL (2 : Fin 4)) 0 DL_MEND_NEXT)
    (wit_MendSendsAcceptsAndRepeats_1.hw.lack (2 : Fin 4)) (⟨4, 0, ⟨9, 1, 0, 0, 1, 5, [1, 2]⟩⟩ : Held).frame false] ∧
    ((after (exec (.frameStart (2 : Fin 4) (0 : Fin 64)) wit_MendSendsAcceptsAndRepeats_1)).hw.port (2 : Fin 4)).txq =
    [(⟨4, 0, ⟨9, 1, 1, 0, 1, 5, [1, 2]⟩⟩ : Held)]) ∧ (((after (exec (.frameStart (2 : Fin 4) (0 : Fin 64))
    wit_MendSendsAcceptsAndRepeats_1)).hw.port (2 : Fin 4)).retry = (wit_MendSendsAcceptsAndRepeats_1.hw.port (2 : Fin
    4)).retry ++ [⟨wit_MendSendsAcceptsAndRepeats_1.hw.f (pDL (2 : Fin 4)) 0 DL_MEND_NEXT, 1, (⟨4, 0, ⟨9, 1, 0, 0, 1,
    5, [1, 2]⟩⟩ : Held).frame⟩]) ∧ ((after (exec (.frameStart (2 : Fin 4) (0 : Fin 64))
    wit_MendSendsAcceptsAndRepeats_1)).hw.f (pDL (2 : Fin 4)) 0 DL_MEND_NEXT = (wit_MendSendsAcceptsAndRepeats_1.hw.f
    (pDL (2 : Fin 4)) 0 DL_MEND_NEXT + 1) % 4096 ∧ (after (exec (.frameStart (2 : Fin 4) (0 : Fin 64))
    wit_MendSendsAcceptsAndRepeats_1)).hw.f (pDL (2 : Fin 4)) 0 DL_TX_CNT_COUNT =
    (wit_MendSendsAcceptsAndRepeats_1.hw.f (pDL (2 : Fin 4)) 0 DL_TX_CNT_COUNT + 1) % 2 ^ 40) ∧ ((after (exec
    (.frameStart (2 : Fin 4) (0 : Fin 64)) wit_MendSendsAcceptsAndRepeats_1)).hw.f (pDL (2 : Fin 4)) 0
    DL_CREDIT_ROUTED = wit_MendSendsAcceptsAndRepeats_1.hw.f (pDL (2 : Fin 4)) 0 DL_CREDIT_ROUTED - (3 + (5 * (⟨4, 0,
    ⟨9, 1, 0, 0, 1, 5, [1, 2]⟩⟩ : Held).frame.words.length + 7) / 8))  := by decide +kernel

def wit_MendSendsAcceptsAndRepeats_2 : State :=
    ((up [(pDL 2, 0, DL_STATUS_PSTATE, 5)]).on (fun h => h.setPort
    2 { credL := 256, loc := [⟨0x10, [1, 2, 3, 4]⟩], txq := [⟨4, 0, ⟨9, 1, 0, 0, 1, 5, [1, 2]⟩⟩] }) : State)

theorem test_MendSendsAcceptsAndRepeats_2 :
    (freePort wit_MendSendsAcceptsAndRepeats_2.hw (2 : Fin 4) ∧
    (wit_MendSendsAcceptsAndRepeats_2.hw.port (2 : Fin 4)).loc = [(⟨0x10, [1, 2, 3, 4]⟩ : LocalTx)] ∧ (⟨0x10, [1, 2,
    3, 4]⟩ : LocalTx).kind = 0x10 ∧ blocksOf (⟨0x10, [1, 2, 3, 4]⟩ : LocalTx).words.length ≤
    (wit_MendSendsAcceptsAndRepeats_2.hw.port (2 : Fin 4)).credL) ∧ ((after (exec (.frameStart (2 : Fin 4) (0 : Fin
    64)) wit_MendSendsAcceptsAndRepeats_2)).hw.out = wit_MendSendsAcceptsAndRepeats_2.hw.out ++ [.loc (2 : Fin 4)
    (wit_MendSendsAcceptsAndRepeats_2.hw.lack (2 : Fin 4)) (⟨0x10, [1, 2, 3, 4]⟩ : LocalTx).kind (⟨0x10, [1, 2, 3, 4]⟩
    : LocalTx).words false] ∧ ((after (exec (.frameStart (2 : Fin 4) (0 : Fin 64))
    wit_MendSendsAcceptsAndRepeats_2)).hw.port (2 : Fin 4)).loc = [] ∧ ((after (exec (.frameStart (2 : Fin 4) (0 : Fin
    64)) wit_MendSendsAcceptsAndRepeats_2)).hw.port (2 : Fin 4)).txq = (wit_MendSendsAcceptsAndRepeats_2.hw.port (2 :
    Fin 4)).txq) ∧ (((after (exec (.frameStart (2 : Fin 4) (0 : Fin 64)) wit_MendSendsAcceptsAndRepeats_2)).hw.port (2
    : Fin 4)).credL = (wit_MendSendsAcceptsAndRepeats_2.hw.port (2 : Fin 4)).credL - blocksOf (⟨0x10, [1, 2, 3, 4]⟩ :
    LocalTx).words.length)  := by decide +kernel

def wit_MendSendsAcceptsAndRepeats_3 : State :=
    ((up [(pDL 2, 0, DL_STATUS_PSTATE, 5), (pDL 2, 0,
    DL_CREDIT_ROUTED, 50)]).on (fun h => h.setPort 2
    { reordered := some ⟨.routed ⟨4, 0, ⟨9, 1, 0, 0, 1, 5, [1, 2]⟩⟩, some 8, false, false⟩ }) : State)

theorem test_MendSendsAcceptsAndRepeats_3 :
    (wit_MendSendsAcceptsAndRepeats_3.hw.pstate (2 : Fin 4) = 5 ∧
    wit_MendSendsAcceptsAndRepeats_3.hw.domainRuns 40 = true ∧ (wit_MendSendsAcceptsAndRepeats_3.hw.port (2 : Fin
    4)).cut = none ∧ (wit_MendSendsAcceptsAndRepeats_3.hw.port (2 : Fin 4)).holdUntil ≤
    wit_MendSendsAcceptsAndRepeats_3.hw.now ∧ (wit_MendSendsAcceptsAndRepeats_3.hw.port (2 : Fin 4)).reordered = some
    ⟨.routed (⟨4, 0, ⟨9, 1, 0, 0, 1, 5, [1, 2]⟩⟩ : Held), some (8 : Nat), (false : Bool), (false : Bool)⟩ ∧ (⟨4, 0,
    ⟨9, 1, 0, 0, 1, 5, [1, 2]⟩⟩ : Held).port = 4) ∧ (blocksOf (⟨4, 0, ⟨9, 1, 0, 0, 1, 5, [1, 2]⟩⟩ :
    Held).frame.words.length ≤ wit_MendSendsAcceptsAndRepeats_3.hw.f (pDL (2 : Fin 4)) 0 DL_CREDIT_ROUTED) ∧ ((after
    (exec (.frayReorderTimeout (2 : Fin 4) (0 : Fin 64)) wit_MendSendsAcceptsAndRepeats_3)).hw.out =
    wit_MendSendsAcceptsAndRepeats_3.hw.out ++ [.routed (2 : Fin 4) (8 : Nat)
    (wit_MendSendsAcceptsAndRepeats_3.hw.lack (2 : Fin 4)) (⟨4, 0, ⟨9, 1, 0, 0, 1, 5, [1, 2]⟩⟩ : Held).frame (false :
    Bool)] ∧ ((after (exec (.frayReorderTimeout (2 : Fin 4) (0 : Fin 64)) wit_MendSendsAcceptsAndRepeats_3)).hw.port
    (2 : Fin 4)).reordered = none)  := by decide +kernel

def wit_MendSendsAcceptsAndRepeats_4 : State :=
    ((up [(pDL 2, 0, DL_STATUS_PSTATE, 5)]).on (fun h => h.setPort
    2 { reordered := some ⟨.routed ⟨4, 0, ⟨9, 1, 0, 0, 1, 5, [1, 2]⟩⟩, none, false, false⟩ }) : State)

theorem test_MendSendsAcceptsAndRepeats_4 :
    ((wit_MendSendsAcceptsAndRepeats_4.hw.port (2 : Fin 4)).reordered
    = some ⟨.routed (⟨4, 0, ⟨9, 1, 0, 0, 1, 5, [1, 2]⟩⟩ : Held), (none : Option Nat), (false : Bool), (false : Bool)⟩
    ∧ wit_MendSendsAcceptsAndRepeats_4.hw.f (pDL (2 : Fin 4)) 0 DL_CREDIT_ROUTED < blocksOf (⟨4, 0, ⟨9, 1, 0, 0, 1, 5,
    [1, 2]⟩⟩ : Held).frame.words.length) ∧ ((after (exec (.frayReorderTimeout (2 : Fin 4) (0 : Fin 64))
    wit_MendSendsAcceptsAndRepeats_4)).hw.out = wit_MendSendsAcceptsAndRepeats_4.hw.out ∧ ((after (exec
    (.frayReorderTimeout (2 : Fin 4) (0 : Fin 64)) wit_MendSendsAcceptsAndRepeats_4)).hw.port (2 : Fin 4)).reordered =
    some ⟨.routed (⟨4, 0, ⟨9, 1, 0, 0, 1, 5, [1, 2]⟩⟩ : Held), (none : Option Nat), (false : Bool), true⟩ ∧ (after
    (exec (.frayReorderTimeout (2 : Fin 4) (0 : Fin 64)) wit_MendSendsAcceptsAndRepeats_4)).hw.regs =
    wit_MendSendsAcceptsAndRepeats_4.hw.regs)  := by decide +kernel

def wit_MendSendsAcceptsAndRepeats_5 : State :=
    (up [(pDL 2, 0, DL_STATUS_PSTATE, 5), (pDL 2, 0,
    DL_STATUS_ROLE, 1), (pDL 2, 0, DL_MEND_EXP, 9), (pDL 0, 0, DL_NODE_JSTATE, 3), (pDL 0, 0, DL_NODE_ID, 77)] :
    State)

theorem test_MendSendsAcceptsAndRepeats_5 :
    (wit_MendSendsAcceptsAndRepeats_5.hw.rxUp (2 : Fin 4) = true ∧
    (wit_MendSendsAcceptsAndRepeats_5.hw.port (2 : Fin 4)).rx = none ∧ (⟨0, 77, 5, 3, 0, 4, 0, 5⟩ : Hdr).ftype = 0 ∧
    (⟨0, 77, 5, 3, 0, 4, 0, 5⟩ : Hdr).pbytes ≤ 504 ∧ (9 : BitVec 12).toNat = wit_MendSendsAcceptsAndRepeats_5.hw.f
    (pDL (2 : Fin 4)) 0 DL_MEND_EXP) ∧ (wit_MendSendsAcceptsAndRepeats_5.hw.inDomain = true ∧
    wit_MendSendsAcceptsAndRepeats_5.hw.carries (2 : Fin 4) = true ∧ (⟨0, 77, 5, 3, 0, 4, 0, 5⟩ : Hdr).dst =
    wit_MendSendsAcceptsAndRepeats_5.hw.nodeId) ∧ (((after (exec (.frameRoute (2 : Fin 4) (9 : BitVec 12) none (⟨0,
    77, 5, 3, 0, 4, 0, 5⟩ : Hdr)) wit_MendSendsAcceptsAndRepeats_5)).hw.port (2 : Fin 4)).rx = some
    ⟨wit_MendSendsAcceptsAndRepeats_5.hw.dom.tags + 1, (⟨0, 77, 5, 3, 0, 4, 0, 5⟩ : Hdr), false, false, true, [], []⟩
    ∧ (after (exec (.frameRoute (2 : Fin 4) (9 : BitVec 12) none (⟨0, 77, 5, 3, 0, 4, 0, 5⟩ : Hdr))
    wit_MendSendsAcceptsAndRepeats_5)).hw.regs = wit_MendSendsAcceptsAndRepeats_5.hw.regs)  := by decide +kernel

def wit_MendSendsAcceptsAndRepeats_6 : State :=
    (up [(pDL 2, 0, DL_STATUS_PSTATE, 5), (pDL 2, 0, DL_MEND_EXP,
    9)] : State)

theorem test_MendSendsAcceptsAndRepeats_6 :
    (wit_MendSendsAcceptsAndRepeats_6.hw.rxUp (2 : Fin 4) = true ∧
    (wit_MendSendsAcceptsAndRepeats_6.hw.port (2 : Fin 4)).rx = none ∧ (⟨0, 77, 5, 3, 0, 4, 0, 5⟩ : Hdr).ftype = 0 ∧
    (10 : BitVec 12).toNat ≠ wit_MendSendsAcceptsAndRepeats_6.hw.f (pDL (2 : Fin 4)) 0 DL_MEND_EXP ∧
    (wit_MendSendsAcceptsAndRepeats_6.hw.port (2 : Fin 4)).nak = false) ∧ ((after (exec (.frameRoute (2 : Fin 4) (10 :
    BitVec 12) none (⟨0, 77, 5, 3, 0, 4, 0, 5⟩ : Hdr)) wit_MendSendsAcceptsAndRepeats_6)).hw.out =
    wit_MendSendsAcceptsAndRepeats_6.hw.out ++ [.lctl (2 : Fin 4) 2 (wit_MendSendsAcceptsAndRepeats_6.hw.f (pDL (2 :
    Fin 4)) 0 DL_MEND_EXP)] ∧ (after (exec (.frameRoute (2 : Fin 4) (10 : BitVec 12) none (⟨0, 77, 5, 3, 0, 4, 0, 5⟩ :
    Hdr)) wit_MendSendsAcceptsAndRepeats_6)).hw.f (pDL (2 : Fin 4)) 0 DL_MEND_EXP =
    wit_MendSendsAcceptsAndRepeats_6.hw.f (pDL (2 : Fin 4)) 0 DL_MEND_EXP ∧ ((after (exec (.frameRoute (2 : Fin 4) (10
    : BitVec 12) none (⟨0, 77, 5, 3, 0, 4, 0, 5⟩ : Hdr)) wit_MendSendsAcceptsAndRepeats_6)).hw.port (2 : Fin 4)).nak =
    true)  := by decide +kernel

def wit_MendSendsAcceptsAndRepeats_7 : State :=
    ((up [(pDL 2, 0, DL_STATUS_PSTATE, 5), (pDL 2, 0, DL_MEND_EXP,
    9)]).on (fun h => h.setPort 2
    { rx := some ⟨3, ⟨0, 77, 5, 3, 0, 1, 0, 5⟩, false, false, true, [], []⟩, nak := true }) : State)

theorem test_MendSendsAcceptsAndRepeats_7 :
    ((wit_MendSendsAcceptsAndRepeats_7.hw.port (2 : Fin 4)).rx = some
    ⟨(3 : Nat), (⟨0, 77, 5, 3, 0, 1, 0, 5⟩ : Hdr), false, false, true, [], []⟩ ∧ (⟨0, 77, 5, 3, 0, 1, 0, 5⟩ :
    Hdr).ftype = 0 ∧ (⟨0, 77, 5, 3, 0, 1, 0, 5⟩ : Hdr).tc = 3 ∧ (⟨0, 77, 5, 3, 0, 1, 0, 5⟩ : Hdr).kind = 1 ∧ (⟨0, 77,
    5, 3, 0, 1, 0, 5⟩ : Hdr).pbytes = 5 * ([6] : List Word).length) ∧ ((after (exec (.frameReceive (2 : Fin 4) ([6] :
    List Word) .ok) wit_MendSendsAcceptsAndRepeats_7)).hw.dom.rxq = wit_MendSendsAcceptsAndRepeats_7.hw.dom.rxq ++
    [⟨(2 : Fin 4), (3 : Nat), ⟨(⟨0, 77, 5, 3, 0, 1, 0, 5⟩ : Hdr).dst, (⟨0, 77, 5, 3, 0, 1, 0, 5⟩ : Hdr).src, 3, (⟨0,
    77, 5, 3, 0, 1, 0, 5⟩ : Hdr).hops, 1, (⟨0, 77, 5, 3, 0, 1, 0, 5⟩ : Hdr).eseq, ([6] : List Word)⟩⟩] ∧ ((after (exec
    (.frameReceive (2 : Fin 4) ([6] : List Word) .ok) wit_MendSendsAcceptsAndRepeats_7)).hw.port (2 : Fin 4)).rx =
    none ∧ ((after (exec (.frameReceive (2 : Fin 4) ([6] : List Word) .ok) wit_MendSendsAcceptsAndRepeats_7)).hw.port
    (2 : Fin 4)).nak = false) ∧ ((after (exec (.frameReceive (2 : Fin 4) ([6] : List Word) .ok)
    wit_MendSendsAcceptsAndRepeats_7)).hw.f (pDL (2 : Fin 4)) 0 DL_MEND_EXP = (wit_MendSendsAcceptsAndRepeats_7.hw.f
    (pDL (2 : Fin 4)) 0 DL_MEND_EXP + 1) % 4096 ∧ (after (exec (.frameReceive (2 : Fin 4) ([6] : List Word) .ok)
    wit_MendSendsAcceptsAndRepeats_7)).hw.f (pDL (2 : Fin 4)) 0 DL_RX_CNT_COUNT =
    (wit_MendSendsAcceptsAndRepeats_7.hw.f (pDL (2 : Fin 4)) 0 DL_RX_CNT_COUNT + 1) % 2 ^ 40) ∧ ((after (exec
    (.frameReceive (2 : Fin 4) ([6] : List Word) .ok) wit_MendSendsAcceptsAndRepeats_7)).hw.out =
    wit_MendSendsAcceptsAndRepeats_7.hw.out ++ [.lctl (2 : Fin 4) 1 (wit_MendSendsAcceptsAndRepeats_7.hw.f (pDL (2 :
    Fin 4)) 0 DL_MEND_EXP)])  := by decide +kernel

def wit_MendSendsAcceptsAndRepeats_8 : State :=
    ((up [(pDL 2, 0, DL_STATUS_PSTATE, 5), (pDL 2, 0, DL_MEND_EXP,
    9)]).on (fun h => h.setPort 2 { rx := some ⟨3, ⟨0, 77, 5, 1, 4, 1, 6, 5⟩, false, false, false, [1], []⟩ }) :
    State)

theorem test_MendSendsAcceptsAndRepeats_8 :
    ((wit_MendSendsAcceptsAndRepeats_8.hw.port (2 : Fin 4)).rx = some
    ⟨(3 : Nat), (⟨0, 77, 5, 1, 4, 1, 6, 5⟩ : Hdr), false, false, false, [(1 : Fin 4).val], []⟩ ∧ (⟨0, 77, 5, 1, 4, 1,
    6, 5⟩ : Hdr).ftype = 0 ∧ (⟨0, 77, 5, 1, 4, 1, 6, 5⟩ : Hdr).tc < 3 ∧ (⟨0, 77, 5, 1, 4, 1, 6, 5⟩ : Hdr).pbytes = 5 *
    ([6] : List Word).length ∧ (wit_MendSendsAcceptsAndRepeats_8.hw.port (1 : Fin 4)).cut = none) ∧ (((after (exec
    (.frameReceive (2 : Fin 4) ([6] : List Word) .ok) wit_MendSendsAcceptsAndRepeats_8)).hw.port (1 : Fin 4)).txq =
    (wit_MendSendsAcceptsAndRepeats_8.hw.port (1 : Fin 4)).txq ++ [⟨(2 : Fin 4), (3 : Nat), ⟨(⟨0, 77, 5, 1, 4, 1, 6,
    5⟩ : Hdr).dst, (⟨0, 77, 5, 1, 4, 1, 6, 5⟩ : Hdr).src, (⟨0, 77, 5, 1, 4, 1, 6, 5⟩ : Hdr).tc, (⟨0, 77, 5, 1, 4, 1,
    6, 5⟩ : Hdr).hops + 1, (⟨0, 77, 5, 1, 4, 1, 6, 5⟩ : Hdr).kind, (⟨0, 77, 5, 1, 4, 1, 6, 5⟩ : Hdr).eseq, ([6] : List
    Word)⟩⟩] ∧ (after (exec (.frameReceive (2 : Fin 4) ([6] : List Word) .ok)
    wit_MendSendsAcceptsAndRepeats_8)).hw.dom.rxq = wit_MendSendsAcceptsAndRepeats_8.hw.dom.rxq) ∧ ((after (exec
    (.frameReceive (2 : Fin 4) ([6] : List Word) .ok) wit_MendSendsAcceptsAndRepeats_8)).hw.f (pDL (2 : Fin 4)) 0
    DL_MEND_EXP = (wit_MendSendsAcceptsAndRepeats_8.hw.f (pDL (2 : Fin 4)) 0 DL_MEND_EXP + 1) % 4096)
     := by decide +kernel

def wit_MendSendsAcceptsAndRepeats_9 : State :=
    ((up [(pDL 2, 0, DL_STATUS_PSTATE, 5), (pDL 2, 0, DL_MEND_EXP,
    9)]).on (fun h => h.setPort 2 { rx := some ⟨3, ⟨0, 77, 5, 1, 4, 1, 6, 5⟩, false, false, false, [1], []⟩ }) :
    State)

theorem test_MendSendsAcceptsAndRepeats_9 :
    ((wit_MendSendsAcceptsAndRepeats_9.hw.port (2 : Fin 4)).rx = some
    (⟨3, ⟨0, 77, 5, 1, 4, 1, 6, 5⟩, false, false, false, [1], []⟩ : Incoming) ∧ (⟨3, ⟨0, 77, 5, 1, 4, 1, 6, 5⟩, false,
    false, false, [1], []⟩ : Incoming).hdr.ftype = 0 ∧ (⟨3, ⟨0, 77, 5, 1, 4, 1, 6, 5⟩, false, false, false, [1], []⟩ :
    Incoming).skip = false ∧ (wit_MendSendsAcceptsAndRepeats_9.hw.port (2 : Fin 4)).nak = false ∧ ∀ e : Fin 4,
    (wit_MendSendsAcceptsAndRepeats_9.hw.port e).cut = none) ∧ ((after (exec (.frameReceive (2 : Fin 4) ([6] : List
    Word) .crc) wit_MendSendsAcceptsAndRepeats_9)).hw.f (pDL (2 : Fin 4)) 0 DL_MEND_EXP =
    wit_MendSendsAcceptsAndRepeats_9.hw.f (pDL (2 : Fin 4)) 0 DL_MEND_EXP ∧ (after (exec (.frameReceive (2 : Fin 4)
    ([6] : List Word) .crc) wit_MendSendsAcceptsAndRepeats_9)).hw.f (pDL (2 : Fin 4)) 0 DL_CRC_CNT_COUNT =
    (wit_MendSendsAcceptsAndRepeats_9.hw.f (pDL (2 : Fin 4)) 0 DL_CRC_CNT_COUNT + 1) % 2 ^ 40) ∧ ((after (exec
    (.frameReceive (2 : Fin 4) ([6] : List Word) .crc) wit_MendSendsAcceptsAndRepeats_9)).hw.out =
    wit_MendSendsAcceptsAndRepeats_9.hw.out ++ [.lctl (2 : Fin 4) 2 (wit_MendSendsAcceptsAndRepeats_9.hw.f (pDL (2 :
    Fin 4)) 0 DL_MEND_EXP), .lctl (2 : Fin 4) 3 (3 + ((⟨3, ⟨0, 77, 5, 1, 4, 1, 6, 5⟩, false, false, false, [1], []⟩ :
    Incoming).hdr.pbytes + 7) / 8)] ∧ (after (exec (.frameReceive (2 : Fin 4) ([6] : List Word) .crc)
    wit_MendSendsAcceptsAndRepeats_9)).hw.dom = wit_MendSendsAcceptsAndRepeats_9.hw.dom)  := by decide +kernel

def wit_MendSendsAcceptsAndRepeats_10 : State :=
    (up [(pDL 2, 0, DL_STATUS_PSTATE, 4)] : State)

theorem test_MendSendsAcceptsAndRepeats_10 :
    ((wit_MendSendsAcceptsAndRepeats_10.hw.port (2 : Fin 4)).rx =
    none ∧ wit_MendSendsAcceptsAndRepeats_10.hw.pstate (2 : Fin 4) ≠ 0 ∧
    wit_MendSendsAcceptsAndRepeats_10.hw.domainRuns (41 + (2 : Fin 4)) = true) ∧ ((after (exec (.frameReceive (2 : Fin
    4) ([] : List Word) (.block (3 : Fin 4))) wit_MendSendsAcceptsAndRepeats_10)).hw.f (pDL (2 : Fin 4)) (3 : Fin 4)
    DL_LERR_COUNT = min (2 ^ 40 - 1) (wit_MendSendsAcceptsAndRepeats_10.hw.f (pDL (2 : Fin 4)) (3 : Fin 4)
    DL_LERR_COUNT + 1) ∧ (after (exec (.frameReceive (2 : Fin 4) ([] : List Word) (.block (3 : Fin 4)))
    wit_MendSendsAcceptsAndRepeats_10)).hw.out = wit_MendSendsAcceptsAndRepeats_10.hw.out ∧ (after (exec
    (.frameReceive (2 : Fin 4) ([] : List Word) (.block (3 : Fin 4))) wit_MendSendsAcceptsAndRepeats_10)).hw.dom =
    wit_MendSendsAcceptsAndRepeats_10.hw.dom)  := by decide +kernel

def wit_MendSendsAcceptsAndRepeats_11 : State :=
    ((up [(pDL 2, 0, DL_STATUS_PSTATE, 5), (pDL 2, 0,
    DL_MEND_ACKED, 5)]).on (fun h => h.setPort 2
    { retry := [⟨6, 1, ⟨3, 4, 0, 0, 1, 0, []⟩⟩, ⟨7, 3, ⟨3, 4, 0, 0, 1, 1, []⟩⟩] }) : State)

theorem test_MendSendsAcceptsAndRepeats_11 :
    (wit_MendSendsAcceptsAndRepeats_11.hw.rxUp (2 : Fin 4) = true ∧
    (1 : Nat) = ((6 : BitVec 12).toNat + 4096 - wit_MendSendsAcceptsAndRepeats_11.hw.f (pDL (2 : Fin 4)) 0
    DL_MEND_ACKED) % 4096 ∧ 0 < (1 : Nat) ∧ (1 : Nat) ≤ (wit_MendSendsAcceptsAndRepeats_11.hw.port (2 : Fin
    4)).retry.length) ∧ (((after (exec (.lctlAck (2 : Fin 4) (6 : BitVec 12))
    wit_MendSendsAcceptsAndRepeats_11)).hw.port (2 : Fin 4)).retry = (wit_MendSendsAcceptsAndRepeats_11.hw.port (2 :
    Fin 4)).retry.drop (1 : Nat) ∧ (after (exec (.lctlAck (2 : Fin 4) (6 : BitVec 12))
    wit_MendSendsAcceptsAndRepeats_11)).hw.f (pDL (2 : Fin 4)) 0 DL_MEND_ACKED = (6 : BitVec 12).toNat)
     := by decide +kernel

def wit_MendSendsAcceptsAndRepeats_12 : State :=
    ((up [(pDL 2, 0, DL_STATUS_PSTATE, 5), (pDL 2, 0,
    DL_MEND_ACKED, 5)]).on (fun h => h.setPort 2
    { retry := [⟨6, 1, ⟨3, 4, 0, 0, 1, 0, []⟩⟩, ⟨7, 3, ⟨3, 4, 0, 0, 1, 1, []⟩⟩] }) : State)

theorem test_MendSendsAcceptsAndRepeats_12 :
    (wit_MendSendsAcceptsAndRepeats_12.hw.rxUp (2 : Fin 4) = true ∧
    (wit_MendSendsAcceptsAndRepeats_12.hw.port (2 : Fin 4)).retry.any (fun r => r.lseq == (7 : BitVec 12).toNat) =
    true) ∧ (((after (exec (.lctlNak (2 : Fin 4) (7 : BitVec 12)) wit_MendSendsAcceptsAndRepeats_12)).hw.port (2 : Fin
    4)).resend = some (7 : BitVec 12).toNat ∧ ((after (exec (.lctlNak (2 : Fin 4) (7 : BitVec 12))
    wit_MendSendsAcceptsAndRepeats_12)).hw.port (2 : Fin 4)).retry = (wit_MendSendsAcceptsAndRepeats_12.hw.port (2 :
    Fin 4)).retry ∧ (after (exec (.lctlNak (2 : Fin 4) (7 : BitVec 12)) wit_MendSendsAcceptsAndRepeats_12)).hw.f (pDL
    (2 : Fin 4)) 0 DL_IRQ_RETRY = 1)  := by decide +kernel

def wit_MendSendsAcceptsAndRepeats_13 : State :=
    ((up [(pDL 2, 0, DL_STATUS_PSTATE, 5), (pDL 2, 0,
    DL_CREDIT_ROUTED, 50)]).on (fun h => h.setPort 2 { resend := some 7, retry := [⟨7, 15, ⟨3, 4, 0, 0, 1, 1, []⟩⟩] })
    : State)

theorem test_MendSendsAcceptsAndRepeats_13 :
    (freePort wit_MendSendsAcceptsAndRepeats_13.hw (2 : Fin 4) ∧
    wit_MendSendsAcceptsAndRepeats_13.hw.carries (2 : Fin 4) = true ∧ (wit_MendSendsAcceptsAndRepeats_13.hw.port (2 :
    Fin 4)).loc = [] ∧ (wit_MendSendsAcceptsAndRepeats_13.hw.port (2 : Fin 4)).resend = some (7 : Nat) ∧
    (wit_MendSendsAcceptsAndRepeats_13.hw.port (2 : Fin 4)).retry = [(⟨7, 15, ⟨3, 4, 0, 0, 1, 1, []⟩⟩ : Retry)] ∧ (⟨7,
    15, ⟨3, 4, 0, 0, 1, 1, []⟩⟩ : Retry).lseq = (7 : Nat)) ∧ (blocksOf (⟨7, 15, ⟨3, 4, 0, 0, 1, 1, []⟩⟩ :
    Retry).frame.words.length ≤ wit_MendSendsAcceptsAndRepeats_13.hw.f (pDL (2 : Fin 4)) 0 DL_CREDIT_ROUTED) ∧ ((⟨7,
    15, ⟨3, 4, 0, 0, 1, 1, []⟩⟩ : Retry).sends < 16 → (after (exec (.frameStart (2 : Fin 4) (0 : Fin 64))
    wit_MendSendsAcceptsAndRepeats_13)).hw.out = wit_MendSendsAcceptsAndRepeats_13.hw.out ++ [.routed (2 : Fin 4) (7 :
    Nat) (wit_MendSendsAcceptsAndRepeats_13.hw.lack (2 : Fin 4)) (⟨7, 15, ⟨3, 4, 0, 0, 1, 1, []⟩⟩ : Retry).frame
    false] ∧ (after (exec (.frameStart (2 : Fin 4) (0 : Fin 64)) wit_MendSendsAcceptsAndRepeats_13)).hw.f (pDL (2 :
    Fin 4)) 0 DL_RETRY_CNT_COUNT = (wit_MendSendsAcceptsAndRepeats_13.hw.f (pDL (2 : Fin 4)) 0 DL_RETRY_CNT_COUNT + 1)
    % 2 ^ 40 ∧ ((after (exec (.frameStart (2 : Fin 4) (0 : Fin 64)) wit_MendSendsAcceptsAndRepeats_13)).hw.port (2 :
    Fin 4)).resend = none) ∧ (16 ≤ (⟨7, 15, ⟨3, 4, 0, 0, 1, 1, []⟩⟩ : Retry).sends → (after (exec (.frameStart (2 :
    Fin 4) (0 : Fin 64)) wit_MendSendsAcceptsAndRepeats_13)).hw.pstate (2 : Fin 4) = 6)  := by decide +kernel

def wit_MendSendsAcceptsAndRepeats_14 : State :=
    (up [(pDL 2, 0, DL_STATUS_PSTATE, 5), (pDL 2, 0,
    DL_CREDIT_ROUTED, 50)] : State)

theorem test_MendSendsAcceptsAndRepeats_14 :
    (wit_MendSendsAcceptsAndRepeats_14.hw.rxUp (2 : Fin 4) = true) ∧
    ((after (exec (.lctlCredit (2 : Fin 4) (6 : BitVec 16) (44 : BitVec 16)) wit_MendSendsAcceptsAndRepeats_14)).hw.f
    (pDL (2 : Fin 4)) 0 DL_CREDIT_ROUTED = min 65535 (wit_MendSendsAcceptsAndRepeats_14.hw.f (pDL (2 : Fin 4)) 0
    DL_CREDIT_ROUTED + (44 : BitVec 16).toNat) ∧ ((after (exec (.lctlCredit (2 : Fin 4) (6 : BitVec 16) (44 : BitVec
    16)) wit_MendSendsAcceptsAndRepeats_14)).hw.port (2 : Fin 4)).credL = (wit_MendSendsAcceptsAndRepeats_14.hw.port
    (2 : Fin 4)).credL + (6 : BitVec 16).toNat)  := by decide +kernel

def wit_MendSendsAcceptsAndRepeats_15 : State :=
    ((up [(pDL 2, 0, DL_STATUS_PSTATE, 5), (pDL 2, 0,
    DL_MEND_EXP, 50)]).on (fun h => h.setPort 2 { nak := true }) : State)

theorem test_MendSendsAcceptsAndRepeats_15 :
    (wit_MendSendsAcceptsAndRepeats_15.hw.txUp (2 : Fin 4) = true ∧
    (wit_MendSendsAcceptsAndRepeats_15.hw.port (2 : Fin 4)).nak = true) ∧ ((after (exec (.nakRepeat (2 : Fin 4))
    wit_MendSendsAcceptsAndRepeats_15)).hw.out = wit_MendSendsAcceptsAndRepeats_15.hw.out ++ [.lctl (2 : Fin 4) 2
    (wit_MendSendsAcceptsAndRepeats_15.hw.f (pDL (2 : Fin 4)) 0 DL_MEND_EXP)])  := by decide +kernel

def wit_MendSendsAcceptsAndRepeats_16 : State :=
    ((up [(pDL 2, 0, DL_STATUS_PSTATE, 5)]).on (fun h =>
    h.setPort 2 { retry := [⟨7, 15, ⟨3, 4, 0, 0, 1, 1, []⟩⟩] }) : State)

theorem test_MendSendsAcceptsAndRepeats_16 :
    (wit_MendSendsAcceptsAndRepeats_16.hw.txUp (2 : Fin 4) = true ∧
    (wit_MendSendsAcceptsAndRepeats_16.hw.port (2 : Fin 4)).retry = (⟨7, 15, ⟨3, 4, 0, 0, 1, 1, []⟩⟩ : Retry) :: ([] :
    List Retry)) ∧ ((⟨7, 15, ⟨3, 4, 0, 0, 1, 1, []⟩⟩ : Retry).sends < 16 → ((after (exec (.ackTimeout (2 : Fin 4))
    wit_MendSendsAcceptsAndRepeats_16)).hw.port (2 : Fin 4)).resend = some (⟨7, 15, ⟨3, 4, 0, 0, 1, 1, []⟩⟩ :
    Retry).lseq ∧ (after (exec (.ackTimeout (2 : Fin 4)) wit_MendSendsAcceptsAndRepeats_16)).hw.f (pDL (2 : Fin 4)) 0
    DL_IRQ_RETRY = 1) ∧ (16 ≤ (⟨7, 15, ⟨3, 4, 0, 0, 1, 1, []⟩⟩ : Retry).sends → (after (exec (.ackTimeout (2 : Fin 4))
    wit_MendSendsAcceptsAndRepeats_16)).hw.pstate (2 : Fin 4) = 6) ∧ (((after (exec (.ackTimeout (2 : Fin 4))
    wit_MendSendsAcceptsAndRepeats_16)).hw.port (2 : Fin 4)).retry = (wit_MendSendsAcceptsAndRepeats_16.hw.port (2 :
    Fin 4)).retry)  := by decide +kernel

def wit_MendSendsAcceptsAndRepeats_17 : State :=
    ((up []).on (fun h => h.setReg pLWF 0x11 5 4) : State)

theorem test_MendSendsAcceptsAndRepeats_17 :
    (accepts wit_MendSendsAcceptsAndRepeats_17.hw (.core 0 :
    Requester) (pFRAY (2 : Fin 4)) = true ∧ bitOf (wit_MendSendsAcceptsAndRepeats_17.hw.lwf 5) (2 : Fin 4) = true) ∧
    ((after (exec (.frayConfigWrite (.core 0 : Requester) (2 : Fin 4) (some (3 : Fin 4)) (0x8000003 : Word))
    wit_MendSendsAcceptsAndRepeats_17)).hw.f (pFRAY (2 : Fin 4)) 0 ⟨0x80 + (3 : Fin 4), 0, 28⟩ = bitsOf (0x8000003 :
    Word).toNat 0 28 ∧ ((3 : Fin 4).val < (wit_MendSendsAcceptsAndRepeats_17.hw.port (2 : Fin 4)).frayCnt.length →
    ((after (exec (.frayConfigWrite (.core 0 : Requester) (2 : Fin 4) (some (3 : Fin 4)) (0x8000003 : Word))
    wit_MendSendsAcceptsAndRepeats_17)).hw.port (2 : Fin 4)).frayCnt.getD (3 : Fin 4) 9 = 0))  := by decide +kernel

def wit_MendSendsAcceptsAndRepeats_18 : State :=
    (up [] : State)

theorem test_MendSendsAcceptsAndRepeats_18 :
    (accepts wit_MendSendsAcceptsAndRepeats_18.hw (.core 0 :
    Requester) (pFRAY (2 : Fin 4)) = true ∧ bitOf (wit_MendSendsAcceptsAndRepeats_18.hw.lwf 5) (2 : Fin 4) = false ∧
    bitOf (0x8000003 : Word).toNat 27 = true ∧ wit_MendSendsAcceptsAndRepeats_18.hw.b (pFRAY (2 : Fin 4)) 0 ⟨0x80 + (3
    : Fin 4), 27, 1⟩ = false) ∧ ((after (exec (.frayConfigWrite (.core 0 : Requester) (2 : Fin 4) (some (3 : Fin 4))
    (0x8000003 : Word)) wit_MendSendsAcceptsAndRepeats_18)).hw.reg (pFRAY (2 : Fin 4)) (0x80 + (3 : Fin 4)) 0 =
    wit_MendSendsAcceptsAndRepeats_18.hw.reg (pFRAY (2 : Fin 4)) (0x80 + (3 : Fin 4)) 0)  := by decide +kernel

def wit_DevicesJoinAndLeave_1 : State :=
    (up [(pDL 2, 0, DL_STATUS_PSTATE, 5), (pDL 2, 0, DL_STATUS_ROLE, 1),
    (pDL 0, 0, DL_NODE_JSTATE, 2), (pDL 0, 0, DL_NODE_ID, 77)] : State)

theorem test_DevicesJoinAndLeave_1 :
    (wit_DevicesJoinAndLeave_1.hw.rxUp (2 : Fin 4) = true ∧
    wit_DevicesJoinAndLeave_1.hw.role (2 : Fin 4) = 1 ∧ wit_DevicesJoinAndLeave_1.hw.jstate = 2 ∧ bitOf
    (([0xFFFFFC0100, 0, 5, 0] : List Word).getD 0 0).toNat 16 = false ∧ bitOf (([0xFFFFFC0100, 0, 5, 0] : List
    Word).getD 0 0).toNat 17 = false)  := by decide +kernel

def wit_DevicesJoinAndLeave_2 : State :=
    (up [(pDL 2, 0, DL_STATUS_PSTATE, 5)] : State)

theorem test_DevicesJoinAndLeave_2 :
    (wit_DevicesJoinAndLeave_2.hw.rxUp (2 : Fin 4) = true ∧
    wit_DevicesJoinAndLeave_2.hw.role (2 : Fin 4) = 0 ∧ wit_DevicesJoinAndLeave_2.hw.inDomain = false) ∧ ((after (exec
    (.dlHello (2 : Fin 4) ([0x0000030100, 0x123000000, 5, 0] : List Word)) wit_DevicesJoinAndLeave_2)).hw.role (2 :
    Fin 4) = (if bitOf (([0x0000030100, 0x123000000, 5, 0] : List Word).getD 0 0).toNat 16 ∨ bitOf (([0x0000030100,
    0x123000000, 5, 0] : List Word).getD 0 0).toNat 17 then 3 else 0) ∧ (after (exec (.dlHello (2 : Fin 4)
    ([0x0000030100, 0x123000000, 5, 0] : List Word)) wit_DevicesJoinAndLeave_2)).hw.jstate =
    wit_DevicesJoinAndLeave_2.hw.jstate) ∧ ((after (exec (.dlHello (2 : Fin 4) ([0x0000030100, 0x123000000, 5, 0] :
    List Word)) wit_DevicesJoinAndLeave_2)).hw.reg (pDL (2 : Fin 4)) 0x88 0 = ([0x0000030100, 0x123000000, 5, 0] :
    List Word).getD 0 0 ∧ (after (exec (.dlHello (2 : Fin 4) ([0x0000030100, 0x123000000, 5, 0] : List Word))
    wit_DevicesJoinAndLeave_2)).hw.reg (pDL (2 : Fin 4)) 0x89 0 = ([0x0000030100, 0x123000000, 5, 0] : List Word).getD
    1 0 ∧ (after (exec (.dlHello (2 : Fin 4) ([0x0000030100, 0x123000000, 5, 0] : List Word))
    wit_DevicesJoinAndLeave_2)).hw.f (pDL (2 : Fin 4)) 0 DL_STATUS_NBR_ID = bitsOf (([0x0000030100, 0x123000000, 5, 0]
    : List Word).getD 0 0).toNat 26 14)  := by decide +kernel

def wit_DevicesJoinAndLeave_4 : State :=
    ((up [(pDL 2, 0, DL_STATUS_PSTATE, 5), (pDL 3, 0, DL_STATUS_PSTATE,
    5)]).on (fun h => ((h.setPort 2 { seen := true, nbr := some ⟨5, 3, true, false, 9, 4⟩ }).setPort 3
    { seen := true, nbr := some ⟨6, 3, true, false, 9, 8⟩ }).onDom (fun d => { d with holdFrom := none })) : State)

theorem test_DevicesJoinAndLeave_4 :
    (wit_DevicesJoinAndLeave_4.hw.jstate = 0 ∧ holdPast
    wit_DevicesJoinAndLeave_4.hw = true ∧ mayJoin wit_DevicesJoinAndLeave_4.hw (2 : Fin 4) = true) ∧ (∀ j : Fin 4,
    mayJoin wit_DevicesJoinAndLeave_4.hw j = true → nbrHops wit_DevicesJoinAndLeave_4.hw (2 : Fin 4) < nbrHops
    wit_DevicesJoinAndLeave_4.hw j ∨ (nbrHops wit_DevicesJoinAndLeave_4.hw (2 : Fin 4) = nbrHops
    wit_DevicesJoinAndLeave_4.hw j ∧ (2 : Fin 4) ≤ j))  := by decide +kernel

def wit_DevicesJoinAndLeave_5 : State :=
    (up [(pDL 0, 0, DL_DCTRL_JHOLD, 100)] : State)

theorem test_DevicesJoinAndLeave_5 :
    (wit_DevicesJoinAndLeave_5.hw.jstate = 0 ∧ holdPast
    wit_DevicesJoinAndLeave_5.hw = false) ∧ ((after (exec .parentChoice wit_DevicesJoinAndLeave_5)) =
    wit_DevicesJoinAndLeave_5)  := by decide +kernel

def wit_DevicesJoinAndLeave_6 : State :=
    (up [(pDL 0, 0, DL_NODE_JSTATE, 1)] : State)

theorem test_DevicesJoinAndLeave_6 :
    (wit_DevicesJoinAndLeave_6.hw.jstate = 1) ∧ ((after (exec
    .childReqTimeout wit_DevicesJoinAndLeave_6)).hw.jstate = 0 ∧ (after (exec .childReqTimeout
    wit_DevicesJoinAndLeave_6)).hw.dom.reqPort = none ∧ holdPast (after (exec .childReqTimeout
    wit_DevicesJoinAndLeave_6)).hw = true)  := by decide +kernel

def wit_DevicesJoinAndLeave_7 : State :=
    (up [(pDL 2, 0, DL_STATUS_PSTATE, 5), (pDL 0, 0, DL_NODE_JSTATE, 3),
    (pDL 0, 0, DL_NODE_ID, 0), (pDL 0, 0, DL_NODE_H, 0)] : State)

def wit_DevicesJoinAndLeave_8 : State :=
    (up [(pDL 2, 0, DL_STATUS_PSTATE, 5), (pDL 0, 0, DL_NODE_JSTATE, 3),
    (pDL 0, 0, DL_NODE_ID, 0), (pDL 0, 0, DL_NODE_H, 0)] : State)

theorem test_DevicesJoinAndLeave_8 :
    (wit_DevicesJoinAndLeave_8.hw.rxUp (2 : Fin 4) = true ∧
    wit_DevicesJoinAndLeave_8.hw.jstate = 3 ∧ (joinReqOf [0, 0x700 <<< 2, 0, 0] 1 : JoinReq) = joinReqOf ([0, 0x700
    <<< 2, 0, 0] : List Word) (wit_DevicesJoinAndLeave_8.hw.f (pDL 0) 0 DL_NODE_H + 1) ∧ firstCause (joinCauses
    wit_DevicesJoinAndLeave_8.hw (joinReqOf [0, 0x700 <<< 2, 0, 0] 1 : JoinReq)) ≠ 0)  := by decide +kernel

def wit_DevicesJoinAndLeave_9 : State :=
    (up [(pDL 2, 0, DL_STATUS_PSTATE, 5), (pDL 0, 0, DL_NODE_JSTATE, 2),
    (pDL 0, 0, DL_NODE_ID, 9), (pDL 0, 0, DL_NODE_H, 4), (pDL 0, 0, DL_NODE_UPPORT, 1)] : State)

theorem test_DevicesJoinAndLeave_9 :
    (wit_DevicesJoinAndLeave_9.hw.rxUp (2 : Fin 4) = true ∧
    wit_DevicesJoinAndLeave_9.hw.jstate = 2 ∧ wit_DevicesJoinAndLeave_9.hw.nodeId ≠ 0 ∧
    wit_DevicesJoinAndLeave_9.hw.dom.routes.at none 0 = none ∧ (1 : Nat) = wit_DevicesJoinAndLeave_9.hw.f (pDL 0) 0
    DL_NODE_UPPORT) ∧ (((after (exec (.childReq (2 : Fin 4) ([0, 0x100 <<< 2, 0, 0] : List Word))
    wit_DevicesJoinAndLeave_9)).hw.port (1 : Nat)).txq = (wit_DevicesJoinAndLeave_9.hw.port (1 : Nat)).txq ++ [⟨4, 0,
    ⟨0, wit_DevicesJoinAndLeave_9.hw.nodeId, 3, 0, 1, 0, ([0, 0x100 <<< 2, 0, 0] : List Word).take 4 ++ [w40 ((2 : Fin
    4) * 2 ^ 38 + (wit_DevicesJoinAndLeave_9.hw.f (pDL 0) 0 DL_NODE_H + 1) % 256 * 2 ^ 30)]⟩⟩])  := by decide +kernel

def wit_DevicesJoinAndLeave_10 : State :=
    ((up [(pDL 0, 0, DL_NODE_JSTATE, 3), (pDL 0, 0, DL_NODE_ID, 0)]).on
    (fun h => h.onDom (fun d =>
    { d with rxq := [⟨1, 1, ⟨0, 5, 3, 2, 1, 0, [0, 0x100 <<< 2, 7, 0, 0x4080000000]⟩⟩], routes := [(5, some 1)] })) :
    State)

def wit_DevicesJoinAndLeave_11 : State :=
    ((up [(pDL 2, 0, DL_STATUS_PSTATE, 5)]).on (fun h => h.onDom (fun d
    => { d with rxq := [⟨1, 1, ⟨9, 0, 3, 2, 2, 0, [0x3014A0000, 7, 0]⟩⟩] })) : State)

theorem test_DevicesJoinAndLeave_11 :
    (wit_DevicesJoinAndLeave_11.hw.dom.rxq = [⟨(1 : Nat), (1 : Nat), (⟨9, 0,
    3, 2, 2, 0, [0x3014A0000, 7, 0]⟩ : Frame)⟩] ∧ (⟨9, 0, 3, 2, 2, 0, [0x3014A0000, 7, 0]⟩ : Frame).tc = 3 ∧ (⟨9, 0,
    3, 2, 2, 0, [0x3014A0000, 7, 0]⟩ : Frame).kind = 2 ∧ bitsOf ((⟨9, 0, 3, 2, 2, 0, [0x3014A0000, 7, 0]⟩ :
    Frame).words.getD 0 0).toNat 16 2 = (2 : Fin 4) ∧ wit_DevicesJoinAndLeave_11.hw.pstate (2 : Fin 4) = 5) ∧ ((after
    (exec .joinGrant wit_DevicesJoinAndLeave_11)).hw.dom.routes.at none (bitsOf ((⟨9, 0, 3, 2, 2, 0, [0x3014A0000, 7,
    0]⟩ : Frame).words.getD 0 0).toNat 26 14) = some (2 : Fin 4).val ∧ (after (exec .joinGrant
    wit_DevicesJoinAndLeave_11)).hw.role (2 : Fin 4) = 2) ∧ (((after (exec .joinGrant
    wit_DevicesJoinAndLeave_11)).hw.port (2 : Fin 4)).loc = (wit_DevicesJoinAndLeave_11.hw.port (2 : Fin 4)).loc ++
    [⟨0x12, [w40 (bitsOf ((⟨9, 0, 3, 2, 2, 0, [0x3014A0000, 7, 0]⟩ : Frame).words.getD 0 0).toNat 26 14 * 2 ^ 26 +
    bitsOf ((⟨9, 0, 3, 2, 2, 0, [0x3014A0000, 7, 0]⟩ : Frame).words.getD 0 0).toNat 18 8 * 2 ^ 18)]⟩])
     := by decide +kernel

def wit_DevicesJoinAndLeave_12 : State :=
    ((up [(pDL 2, 0, DL_STATUS_PSTATE, 5)]).on (fun h => h.onDom (fun d
    => { d with rxq := [⟨1, 1, ⟨9, 0, 3, 2, 3, 0, [0x3000020000, 7, 0]⟩⟩] })) : State)

theorem test_DevicesJoinAndLeave_12 :
    (wit_DevicesJoinAndLeave_12.hw.dom.rxq = [⟨(1 : Nat), (1 : Nat), (⟨9, 0,
    3, 2, 3, 0, [0x3000020000, 7, 0]⟩ : Frame)⟩] ∧ (⟨9, 0, 3, 2, 3, 0, [0x3000020000, 7, 0]⟩ : Frame).tc = 3 ∧ (⟨9, 0,
    3, 2, 3, 0, [0x3000020000, 7, 0]⟩ : Frame).kind = 3 ∧ bitsOf ((⟨9, 0, 3, 2, 3, 0, [0x3000020000, 7, 0]⟩ :
    Frame).words.getD 0 0).toNat 16 2 = (2 : Fin 4)) ∧ ((after (exec .joinRefuse
    wit_DevicesJoinAndLeave_12)).hw.dom.routes = wit_DevicesJoinAndLeave_12.hw.dom.routes ∧ ((after (exec .joinRefuse
    wit_DevicesJoinAndLeave_12)).hw.port (2 : Fin 4)).loc = (wit_DevicesJoinAndLeave_12.hw.port (2 : Fin 4)).loc ++
    [⟨0x13, [w40 (bitsOf ((⟨9, 0, 3, 2, 3, 0, [0x3000020000, 7, 0]⟩ : Frame).words.getD 0 0).toNat 36 4 * 2 ^ 36)]⟩])
     := by decide +kernel

def wit_DevicesJoinAndLeave_13 : State :=
    ((up [(pDL 2, 0, DL_STATUS_PSTATE, 5), (pDL 0, 0, DL_NODE_JSTATE,
    1)]).on (fun h => (h.setPort 2 { seen := true, nbr := some ⟨5, 3, true, false, 9, 4⟩ }).onDom (fun d =>
    { d with reqPort := some 2 })) : State)

theorem test_DevicesJoinAndLeave_13 :
    (wit_DevicesJoinAndLeave_13.hw.rxUp (2 : Fin 4) = true ∧
    wit_DevicesJoinAndLeave_13.hw.jstate = 1 ∧ wit_DevicesJoinAndLeave_13.hw.dom.reqPort = some (2 : Fin 4).val ∧
    (wit_DevicesJoinAndLeave_13.hw.port (2 : Fin 4)).nbr = some (⟨5, 3, true, false, 9, 4⟩ : Neighbour)) ∧ ((after
    (exec (.childGrant (2 : Fin 4) ([0x3014A0000] : List Word)) wit_DevicesJoinAndLeave_13)).hw.jstate = 2 ∧ (after
    (exec (.childGrant (2 : Fin 4) ([0x3014A0000] : List Word)) wit_DevicesJoinAndLeave_13)).hw.nodeId = bitsOf
    (([0x3014A0000] : List Word).getD 0 0).toNat 26 14 ∧ (after (exec (.childGrant (2 : Fin 4) ([0x3014A0000] : List
    Word)) wit_DevicesJoinAndLeave_13)).hw.f (pDL 0) 0 DL_NODE_H = bitsOf (([0x3014A0000] : List Word).getD 0 0).toNat
    18 8 ∧ (after (exec (.childGrant (2 : Fin 4) ([0x3014A0000] : List Word)) wit_DevicesJoinAndLeave_13)).hw.f (pDL
    0) 0 DL_NODE_UPPORT = (2 : Fin 4)) ∧ ((after (exec (.childGrant (2 : Fin 4) ([0x3014A0000] : List Word))
    wit_DevicesJoinAndLeave_13)).hw.role (2 : Fin 4) = 1 ∧ (after (exec (.childGrant (2 : Fin 4) ([0x3014A0000] : List
    Word)) wit_DevicesJoinAndLeave_13)).hw.f (pDL 0) 0 DL_IRQ_JOINED = 1 ∧ (after (exec (.childGrant (2 : Fin 4)
    ([0x3014A0000] : List Word)) wit_DevicesJoinAndLeave_13)).hw.dom.tag = (⟨5, 3, true, false, 9, 4⟩ :
    Neighbour).tag) ∧ (wit_DevicesJoinAndLeave_13.hw.timeState = 0 ∧ wit_DevicesJoinAndLeave_13.hw.b pDTIME 0
    DTIME_CTRL_EN = true → (after (exec (.childGrant (2 : Fin 4) ([0x3014A0000] : List Word))
    wit_DevicesJoinAndLeave_13)).hw.timeState = 1)  := by decide +kernel

def wit_DevicesJoinAndLeave_14 : State :=
    ((up [(pDL 2, 0, DL_STATUS_PSTATE, 5), (pDL 0, 0, DL_NODE_JSTATE,
    1)]).on (fun h => h.onDom (fun d => { d with reqPort := some 2 })) : State)

theorem test_DevicesJoinAndLeave_14 :
    (wit_DevicesJoinAndLeave_14.hw.rxUp (2 : Fin 4) = true ∧
    wit_DevicesJoinAndLeave_14.hw.jstate = 1 ∧ wit_DevicesJoinAndLeave_14.hw.dom.reqPort = some (2 : Fin 4).val) ∧
    ((after (exec (.childRefuse (2 : Fin 4) ([0x3000000000] : List Word)) wit_DevicesJoinAndLeave_14)).hw.jstate = 0 ∧
    (after (exec (.childRefuse (2 : Fin 4) ([0x3000000000] : List Word)) wit_DevicesJoinAndLeave_14)).hw.f (pDL 0) 0
    DL_DSTAT_JCAUSE = bitsOf (([0x3000000000] : List Word).getD 0 0).toNat 36 4 ∧ (after (exec (.childRefuse (2 : Fin
    4) ([0x3000000000] : List Word)) wit_DevicesJoinAndLeave_14)).hw.f (pDL 0) 0 DL_IRQ_JREFUSED = 1 ∧ ((after (exec
    (.childRefuse (2 : Fin 4) ([0x3000000000] : List Word)) wit_DevicesJoinAndLeave_14)).hw.port (2 : Fin
    4)).refusedAt = some wit_DevicesJoinAndLeave_14.hw.now)  := by decide +kernel

def wit_DevicesJoinAndLeave_15 : State :=
    ((up [(pDL 0, 0, DL_NODE_JSTATE, 3)]).on (fun h => h.onDom (fun d =>
    { d with rxq := [⟨1, 1, ⟨0, 5, 3, 2, 4, 0, [8]⟩⟩], members := [⟨8, 99, 0⟩, ⟨9, 98, 0⟩], routes := [(8, some 1)] }))
    : State)

theorem test_DevicesJoinAndLeave_15 :
    (wit_DevicesJoinAndLeave_15.hw.jstate = 3 ∧
    wit_DevicesJoinAndLeave_15.hw.dom.rxq = [⟨(1 : Nat), (1 : Nat), (⟨0, 5, 3, 2, 4, 0, [8]⟩ : Frame)⟩] ∧ (⟨0, 5, 3,
    2, 4, 0, [8]⟩ : Frame).tc = 3 ∧ (⟨0, 5, 3, 2, 4, 0, [8]⟩ : Frame).kind = 4)  := by decide +kernel

def wit_DevicesJoinAndLeave_16 : State :=
    (up [(pDL 0, 0, DL_NODE_JSTATE, 2), (pDL 0, 0, DL_NODE_ID, 77)] :
    State)

theorem test_DevicesJoinAndLeave_16 :
    (accepts wit_DevicesJoinAndLeave_16.hw (.core 0 : Requester) (pDL 0) =
    true ∧ bitOf (1 : Word).toNat 0 = true ∧ wit_DevicesJoinAndLeave_16.hw.jstate = 2) ∧ ((after (exec (.dcmdLeave
    (.core 0 : Requester) (1 : Word)) wit_DevicesJoinAndLeave_16)).hw.jstate = 0 ∧ (after (exec (.dcmdLeave (.core 0 :
    Requester) (1 : Word)) wit_DevicesJoinAndLeave_16)).hw.nodeId = 16383 ∧ (after (exec (.dcmdLeave (.core 0 :
    Requester) (1 : Word)) wit_DevicesJoinAndLeave_16)).hw.f (pDL 0) 0 DL_DSTAT_PREV_ID =
    wit_DevicesJoinAndLeave_16.hw.nodeId ∧ (after (exec (.dcmdLeave (.core 0 : Requester) (1 : Word))
    wit_DevicesJoinAndLeave_16)).hw.dom.routes = [] ∧ (after (exec (.dcmdLeave (.core 0 : Requester) (1 : Word))
    wit_DevicesJoinAndLeave_16)).hw.f (pDL 0) 0 DL_IRQ_LEFT = 1)  := by decide +kernel

def wit_DomainTimeOnTheLinks_1 : State :=
    (up [(pDTIME, 0, DTIME_STATUS_VALID, 1), (pDL 2, 0,
    DL_STATUS_PSTATE, 5), (pDL 2, 0, DL_STATUS_ROLE, 3)] : State)

theorem test_DomainTimeOnTheLinks_1 :
    (wit_DomainTimeOnTheLinks_1.hw.b pDTIME 0 DTIME_STATUS_VALID = true ∧
    wit_DomainTimeOnTheLinks_1.hw.dom.syncDue ≤ wit_DomainTimeOnTheLinks_1.hw.now) ∧ ((after (exec .syncTimer
    wit_DomainTimeOnTheLinks_1)).hw.dom.syncDue = wit_DomainTimeOnTheLinks_1.hw.now + 400 * max 1
    (wit_DomainTimeOnTheLinks_1.hw.f pDTIME 0 DTIME_SYNC_INT_US)) ∧ ((after (exec .syncTimer
    wit_DomainTimeOnTheLinks_1)).hw.dom.eid = (wit_DomainTimeOnTheLinks_1.hw.dom.eid + 1) % 256 ∧ ∀ k : Fin 4, ((after
    (exec .syncTimer wit_DomainTimeOnTheLinks_1)).hw.port k).loc = (if wit_DomainTimeOnTheLinks_1.hw.pstate k = 5 ∧
    (wit_DomainTimeOnTheLinks_1.hw.role k = 2 ∨ wit_DomainTimeOnTheLinks_1.hw.role k = 3) then
    (wit_DomainTimeOnTheLinks_1.hw.port k).loc ++ [⟨0x20, [0, w40 (2 ^ 32 + (after (exec .syncTimer
    wit_DomainTimeOnTheLinks_1)).hw.dom.eid * 2 ^ 24)]⟩] else (wit_DomainTimeOnTheLinks_1.hw.port k).loc))
     := by decide +kernel

def wit_DomainTimeOnTheLinks_2 : State :=
    (up [] : State)

theorem test_DomainTimeOnTheLinks_2 :
    (wit_DomainTimeOnTheLinks_2.hw.b pDTIME 0 DTIME_STATUS_VALID = false ∨
    wit_DomainTimeOnTheLinks_2.hw.now < wit_DomainTimeOnTheLinks_2.hw.dom.syncDue) ∧ ((after (exec .syncTimer
    wit_DomainTimeOnTheLinks_2)) = wit_DomainTimeOnTheLinks_2)  := by decide +kernel

def wit_DomainTimeOnTheLinks_3 : State :=
    (up [(pDL 2, 0, DL_STATUS_PSTATE, 5)] : State)

theorem test_DomainTimeOnTheLinks_3 :
    (wit_DomainTimeOnTheLinks_3.hw.rxUp (2 : Fin 4) = true) ∧ (((after (exec
    (.dlSync (2 : Fin 4) ([77, 0x105000000] : List Word) (3 : Fin 64)) wit_DomainTimeOnTheLinks_3)).hw.port (2 : Fin
    4)).xchg = some ⟨bitsOf (([77, 0x105000000] : List Word).getD 1 0).toNat 24 8, stampOf ([77, 0x105000000] : List
    Word), wit_DomainTimeOnTheLinks_3.hw.domTime + (3 : Fin 64), none⟩) ∧ (((after (exec (.dlSync (2 : Fin 4) ([77,
    0x105000000] : List Word) (3 : Fin 64)) wit_DomainTimeOnTheLinks_3)).hw.port (2 : Fin 4)).loc =
    (wit_DomainTimeOnTheLinks_3.hw.port (2 : Fin 4)).loc ++ [⟨0x21, [0, w40 (b2n (wit_DomainTimeOnTheLinks_3.hw.b
    pDTIME 0 DTIME_STATUS_VALID) * 2 ^ 32 + bitsOf (([77, 0x105000000] : List Word).getD 1 0).toNat 24 8 * 2 ^ 24)]⟩])
     := by decide +kernel

def wit_DomainTimeOnTheLinks_4 : State :=
    (up [(pDL 2, 0, DL_STATUS_PSTATE, 5)] : State)

theorem test_DomainTimeOnTheLinks_4 :
    (wit_DomainTimeOnTheLinks_4.hw.rxUp (2 : Fin 4) = true)
     := by decide +kernel

def wit_DomainTimeOnTheLinks_5 : State :=
    ((up [(pDL 2, 0, DL_STATUS_PSTATE, 5), (pDL 2, 0, DL_STATUS_ROLE,
    1), (pDTIME, 0, DTIME_STATUS_STATE, 2), (pDTIME, 0, DTIME_STATUS_VALID, 1), (pDTIME, 0, DTIME_TIME_L_TIME,
    100900)]).on (fun h => h.setPort 2 { xchg := some ⟨5, 200000, 100000, some 100500⟩ }) : State)

theorem test_DomainTimeOnTheLinks_5 :
    (completes wit_DomainTimeOnTheLinks_5.hw (2 : Fin 4) ([200940,
    0x5000000] : List Word) (⟨5, 200000, 100000, some 100500⟩ : Xchg) (100500 : Nat) (220 : Int) (-100220 : Int) ∧ 0 ≤
    (220 : Int) ∧ (220 : Int) < 2 ^ 24 ∧ (wit_DomainTimeOnTheLinks_5.hw.f pDTIME 0 DTIME_STEP_LIM_FINE : Int) <
    (-100220 : Int).natAbs ∧ (-100220 : Int).natAbs < 2 ^ 39) ∧ ((after (exec (.dlDresp (2 : Fin 4) ([200940,
    0x5000000] : List Word)) wit_DomainTimeOnTheLinks_5)).hw.domTime = wit_DomainTimeOnTheLinks_5.hw.domTime ∧
    (wit_DomainTimeOnTheLinks_5.hw.due = [] ∧ wit_DomainTimeOnTheLinks_5.hw.domainRuns 49 = true → (nextEdge (after
    (exec (.dlDresp (2 : Fin 4) ([200940, 0x5000000] : List Word)) wit_DomainTimeOnTheLinks_5)).hw).domTime = unsx 64
    ((wit_DomainTimeOnTheLinks_5.hw.domTime : Int) - (-100220 : Int)))) ∧ ((after (exec (.dlDresp (2 : Fin 4)
    ([200940, 0x5000000] : List Word)) wit_DomainTimeOnTheLinks_5)).hw.timeState = 1 ∧ (after (exec (.dlDresp (2 : Fin
    4) ([200940, 0x5000000] : List Word)) wit_DomainTimeOnTheLinks_5)).hw.b pDTIME 0 DTIME_STATUS_VALID = false) ∧
    ((after (exec (.dlDresp (2 : Fin 4) ([200940, 0x5000000] : List Word)) wit_DomainTimeOnTheLinks_5)).hw.f pDTIME 0
    DTIME_STEP_CNT_COUNT = (wit_DomainTimeOnTheLinks_5.hw.f pDTIME 0 DTIME_STEP_CNT_COUNT + 1) % 2 ^ 40 ∧ (after (exec
    (.dlDresp (2 : Fin 4) ([200940, 0x5000000] : List Word)) wit_DomainTimeOnTheLinks_5)).hw.f pDTIME 0 DTIME_IRQ_STEP
    = 1 ∧ (after (exec (.dlDresp (2 : Fin 4) ([200940, 0x5000000] : List Word))
    wit_DomainTimeOnTheLinks_5)).hw.dom.servoI = wit_DomainTimeOnTheLinks_5.hw.dom.servoI) ∧ ((after (exec (.dlDresp
    (2 : Fin 4) ([200940, 0x5000000] : List Word)) wit_DomainTimeOnTheLinks_5)).hw.f (pDL (2 : Fin 4)) 0
    DL_CDELAY_FINE = (220 : Int) ∧ sx 40 ((after (exec (.dlDresp (2 : Fin 4) ([200940, 0x5000000] : List Word))
    wit_DomainTimeOnTheLinks_5)).hw.f pDTIME 0 DTIME_OFFSET_O) = (-100220 : Int) ∧ (after (exec (.dlDresp (2 : Fin 4)
    ([200940, 0x5000000] : List Word)) wit_DomainTimeOnTheLinks_5)).hw.dom.lastT2 = none)  := by decide +kernel

def wit_DomainTimeOnTheLinks_6 : State :=
    ((up [(pDL 2, 0, DL_STATUS_PSTATE, 5), (pDL 2, 0, DL_STATUS_ROLE,
    1), (pDTIME, 0, DTIME_STATUS_STATE, 1)]).on (fun h => h.setPort 2 { xchg := some ⟨5, 100, 700, some 800⟩ }) :
    State)

theorem test_DomainTimeOnTheLinks_6 :
    (completes wit_DomainTimeOnTheLinks_6.hw (2 : Fin 4) ([640, 0x5000000] :
    List Word) (⟨5, 100, 700, some 800⟩ : Xchg) (800 : Nat) (220 : Int) (380 : Int) ∧ ((380 : Int).natAbs : Int) ≤
    wit_DomainTimeOnTheLinks_6.hw.f pDTIME 0 DTIME_STEP_LIM_FINE ∧ wit_DomainTimeOnTheLinks_6.hw.dom.lastT2 = none) ∧
    ((after (exec (.dlDresp (2 : Fin 4) ([640, 0x5000000] : List Word)) wit_DomainTimeOnTheLinks_6)).hw.domTime =
    wit_DomainTimeOnTheLinks_6.hw.domTime ∧ (after (exec (.dlDresp (2 : Fin 4) ([640, 0x5000000] : List Word))
    wit_DomainTimeOnTheLinks_6)).hw.dom.servoI = wit_DomainTimeOnTheLinks_6.hw.dom.servoI ∧ (after (exec (.dlDresp (2
    : Fin 4) ([640, 0x5000000] : List Word)) wit_DomainTimeOnTheLinks_6)).hw.f pDTIME 0 DTIME_RATE_Y =
    wit_DomainTimeOnTheLinks_6.hw.f pDTIME 0 DTIME_RATE_Y ∧ (after (exec (.dlDresp (2 : Fin 4) ([640, 0x5000000] :
    List Word)) wit_DomainTimeOnTheLinks_6)).hw.dom.lastT2 = some (⟨5, 100, 700, some 800⟩ : Xchg).t2)
     := by decide +kernel

def wit_DomainTimeOnTheLinks_7 : State :=
    ((up [(pDL 2, 0, DL_STATUS_PSTATE, 5), (pDL 2, 0, DL_STATUS_ROLE,
    1), (pDTIME, 0, DTIME_STATUS_STATE, 2)]).on (fun h => (h.setPort 2 { xchg := some ⟨5, 100, 700, some 800⟩ }).onDom
    (fun d => { d with lastT2 := some 300 })) : State)

theorem test_DomainTimeOnTheLinks_7 :
    (completes wit_DomainTimeOnTheLinks_7.hw (2 : Fin 4) ([640, 0x5000000] :
    List Word) (⟨5, 100, 700, some 800⟩ : Xchg) (800 : Nat) (220 : Int) (380 : Int) ∧ ((380 : Int).natAbs : Int) ≤
    wit_DomainTimeOnTheLinks_7.hw.f pDTIME 0 DTIME_STEP_LIM_FINE ∧ wit_DomainTimeOnTheLinks_7.hw.dom.lastT2 = some
    (300 : Nat) ∧ (300 : Nat) < (⟨5, 100, 700, some 800⟩ : Xchg).t2 ∧ (⟨5, 100, 700, some 800⟩ : Xchg).t2 < 2 ^ 64)
     := by decide +kernel

def wit_DomainTimeOnTheLinks_8 : State :=
    ((up [(pDL 2, 0, DL_STATUS_PSTATE, 5), (pDL 2, 0, DL_STATUS_ROLE,
    1), (pDTIME, 0, DTIME_STATUS_STATE, 1)]).on (fun h => (h.setPort 2 { xchg := some ⟨5, 100, 310, some 800⟩ }).onDom
    (fun d => { d with lockRun := 15 })) : State)

theorem test_DomainTimeOnTheLinks_8 :
    (completes wit_DomainTimeOnTheLinks_8.hw (2 : Fin 4) ([1010, 0x5000000]
    : List Word) (⟨5, 100, 310, some 800⟩ : Xchg) (800 : Nat) (210 : Int) (0 : Int) ∧
    wit_DomainTimeOnTheLinks_8.hw.timeState = 1 ∧ wit_DomainTimeOnTheLinks_8.hw.dom.lockRun = 15 ∧ (0 : Int).natAbs ≤
    max 1 (wit_DomainTimeOnTheLinks_8.hw.f pDTIME 0 DTIME_LOCK_THR_FINE) ∧ ((0 : Int).natAbs : Int) ≤
    wit_DomainTimeOnTheLinks_8.hw.f pDTIME 0 DTIME_STEP_LIM_FINE) ∧ ((after (exec (.dlDresp (2 : Fin 4) ([1010,
    0x5000000] : List Word)) wit_DomainTimeOnTheLinks_8)).hw.timeState = 2 ∧ (after (exec (.dlDresp (2 : Fin 4)
    ([1010, 0x5000000] : List Word)) wit_DomainTimeOnTheLinks_8)).hw.b pDTIME 0 DTIME_STATUS_VALID = true)
     := by decide +kernel

def wit_DomainTimeOnTheLinks_9 : State :=
    ((up [(pDTIME, 0, DTIME_STATUS_STATE, 2), (pDTIME, 0,
    DTIME_STATUS_VALID, 1)]).on (fun h => { h with now := 900000 }.onDom (fun d => { d with servoI := -99 })) : State)

theorem test_DomainTimeOnTheLinks_9 :
    (wit_DomainTimeOnTheLinks_9.hw.timeState = 2 ∧
    wit_DomainTimeOnTheLinks_9.hw.dom.exchAt + 3200 * wit_DomainTimeOnTheLinks_9.hw.dom.syncUs ≤
    wit_DomainTimeOnTheLinks_9.hw.now ∧ -219902325 ≤ wit_DomainTimeOnTheLinks_9.hw.dom.servoI ∧
    wit_DomainTimeOnTheLinks_9.hw.dom.servoI ≤ 219902325) ∧ ((after (exec .holdoverEntry
    wit_DomainTimeOnTheLinks_9)).hw.timeState = 3 ∧ (after (exec .holdoverEntry
    wit_DomainTimeOnTheLinks_9)).hw.dom.holdAt = wit_DomainTimeOnTheLinks_9.hw.now ∧ sx 40 ((after (exec
    .holdoverEntry wit_DomainTimeOnTheLinks_9)).hw.f pDTIME 0 DTIME_RATE_Y) = wit_DomainTimeOnTheLinks_9.hw.dom.servoI
    ∧ (after (exec .holdoverEntry wit_DomainTimeOnTheLinks_9)).hw.b pDTIME 0 DTIME_STATUS_VALID =
    wit_DomainTimeOnTheLinks_9.hw.b pDTIME 0 DTIME_STATUS_VALID)  := by decide +kernel

def wit_DomainTimeOnTheLinks_10 : State :=
    (up [(pDTIME, 0, DTIME_STATUS_STATE, 2)] : State)

theorem test_DomainTimeOnTheLinks_10 :
    (wit_DomainTimeOnTheLinks_10.hw.timeState ≠ 2 ∨
    wit_DomainTimeOnTheLinks_10.hw.now < wit_DomainTimeOnTheLinks_10.hw.dom.exchAt + 3200 *
    wit_DomainTimeOnTheLinks_10.hw.dom.syncUs) ∧ ((after (exec .holdoverEntry wit_DomainTimeOnTheLinks_10)) =
    wit_DomainTimeOnTheLinks_10)  := by decide +kernel

def wit_DomainTimeOnTheLinks_11 : State :=
    ((up [(pDTIME, 0, DTIME_STATUS_STATE, 3), (pDTIME, 0,
    DTIME_STATUS_VALID, 1)]).on (fun h => { h with now := 900000 }) : State)

theorem test_DomainTimeOnTheLinks_11 :
    (wit_DomainTimeOnTheLinks_11.hw.timeState = 3 ∧
    wit_DomainTimeOnTheLinks_11.hw.dom.holdAt + 400 * wit_DomainTimeOnTheLinks_11.hw.dom.holdUs ≤
    wit_DomainTimeOnTheLinks_11.hw.now ∧ wit_DomainTimeOnTheLinks_11.hw.b pDTIME 0 DTIME_STATUS_VALID = true) ∧
    ((after (exec .holdoverExpiry wit_DomainTimeOnTheLinks_11)).hw.timeState = 1 ∧ (after (exec .holdoverExpiry
    wit_DomainTimeOnTheLinks_11)).hw.b pDTIME 0 DTIME_STATUS_VALID = false ∧ (after (exec .holdoverExpiry
    wit_DomainTimeOnTheLinks_11)).hw.f pDTIME 0 DTIME_IRQ_UNLOCK = 1)  := by decide +kernel

def wit_DomainTimeOnTheLinks_12 : State :=
    (up [(pDL 0, 0, DL_NODE_JSTATE, 3), (pDTIME, 0, DTIME_TSET_L_TIME,
    9)] : State)

theorem test_DomainTimeOnTheLinks_12 :
    (accepts wit_DomainTimeOnTheLinks_12.hw (.core 0 : Requester) pDTIME =
    true ∧ wit_DomainTimeOnTheLinks_12.hw.jstate = 3) ∧ ((after (exec (.tsetHWrite (.core 0 : Requester) (5 : Word))
    wit_DomainTimeOnTheLinks_12)).hw.domTime = wit_DomainTimeOnTheLinks_12.hw.domTime ∧
    (wit_DomainTimeOnTheLinks_12.hw.due = [] ∧ wit_DomainTimeOnTheLinks_12.hw.domainRuns 49 = true → (nextEdge (after
    (exec (.tsetHWrite (.core 0 : Requester) (5 : Word)) wit_DomainTimeOnTheLinks_12)).hw).domTime =
    (wit_DomainTimeOnTheLinks_12.hw.pairLowWord pDTIME 0x82 0 (.core 0 : Requester)).toNat + (5 : Word).toNat % 2 ^ 24
    * 2 ^ 40)) ∧ ((after (exec (.tsetHWrite (.core 0 : Requester) (5 : Word)) wit_DomainTimeOnTheLinks_12)).hw.f
    pDTIME 0 DTIME_STEP_CNT_COUNT = (wit_DomainTimeOnTheLinks_12.hw.f pDTIME 0 DTIME_STEP_CNT_COUNT + 1) % 2 ^ 40 ∧
    (after (exec (.tsetHWrite (.core 0 : Requester) (5 : Word)) wit_DomainTimeOnTheLinks_12)).hw.f pDTIME 0
    DTIME_IRQ_STEP = 1)  := by decide +kernel

def wit_DomainTimeOnTheLinks_13 : State :=
    (up [(pDTIME, 0, DTIME_TSET_L_TIME, 9)] : State)

theorem test_DomainTimeOnTheLinks_13 :
    (accepts wit_DomainTimeOnTheLinks_13.hw (.core 0 : Requester) pDTIME =
    true ∧ wit_DomainTimeOnTheLinks_13.hw.jstate ≠ 3) ∧ ((after (exec (.tsetHWrite (.core 0 : Requester) (5 : Word))
    wit_DomainTimeOnTheLinks_13)).hw.domTime = wit_DomainTimeOnTheLinks_13.hw.domTime ∧ (after (exec (.tsetHWrite
    (.core 0 : Requester) (5 : Word)) wit_DomainTimeOnTheLinks_13)).hw.reg pDTIME 0x83 0 =
    wit_DomainTimeOnTheLinks_13.hw.reg pDTIME 0x83 0)  := by decide +kernel

def wit_TicksFireCaptureAndPublish_1 : State :=
    (up [(pDL 0, 0, DL_NODE_JSTATE, 3), (pDOM, 0, DOM_BASE_TN_TN,
    5), (pDOM, 0, DOM_BASE_L_TIME, 9)] : State)

theorem test_TicksFireCaptureAndPublish_1 :
    (accepts wit_TicksFireCaptureAndPublish_1.hw (.core 0 : Requester)
    pDOM = true ∧ wit_TicksFireCaptureAndPublish_1.hw.jstate = 3 ∧ wit_TicksFireCaptureAndPublish_1.hw.dom.configs =
    [] ∧ (⟨5, 1099511627785, 10000⟩ : TickCfg) = ⟨wit_TicksFireCaptureAndPublish_1.hw.f pDOM 0 DOM_BASE_TN_TN,
    (wit_TicksFireCaptureAndPublish_1.hw.pairLowWord pDOM 0x82 0 (.core 0 : Requester)).toNat + (1 : Word).toNat % 2 ^
    24 * 2 ^ 40, wit_TicksFireCaptureAndPublish_1.hw.f pDOM 0 DOM_PERIOD_P⟩) ∧ (100 ≤ (⟨5, 1099511627785, 10000⟩ :
    TickCfg).period ∧ (⟨5, 1099511627785, 10000⟩ : TickCfg).period ≤ 1000000 ∧
    wit_TicksFireCaptureAndPublish_1.hw.domTime + 51200000 ≤ (⟨5, 1099511627785, 10000⟩ : TickCfg).time) ∧ ((after
    (exec (.baseHCommit (.core 0 : Requester) (1 : Word)) wit_TicksFireCaptureAndPublish_1)).hw.dom.configs = [(⟨5,
    1099511627785, 10000⟩ : TickCfg)] ∧ (after (exec (.baseHCommit (.core 0 : Requester) (1 : Word))
    wit_TicksFireCaptureAndPublish_1)).hw.f pDOM 0 DOM_STATUS_CFG_VALID = 1)  := by decide +kernel

def wit_TicksFireCaptureAndPublish_2 : State :=
    ((up [(pDL 0, 0, DL_NODE_JSTATE, 3), (pDOM, 0, DOM_BASE_TN_TN,
    434294), (pDOM, 0, DOM_BASE_L_TIME, 9)]).on (fun h => h.onDom (fun d => { d with configs := [⟨5, 100, 9890⟩] })) :
    State)

theorem test_TicksFireCaptureAndPublish_2 :
    (accepts wit_TicksFireCaptureAndPublish_2.hw (.core 0 : Requester)
    pDOM = true ∧ wit_TicksFireCaptureAndPublish_2.hw.jstate = 3 ∧ wit_TicksFireCaptureAndPublish_2.hw.dom.configs =
    [(⟨5, 100, 9890⟩ : TickCfg)] ∧ (⟨434294, 1099511627785, 10000⟩ : TickCfg) = ⟨wit_TicksFireCaptureAndPublish_2.hw.f
    pDOM 0 DOM_BASE_TN_TN, (wit_TicksFireCaptureAndPublish_2.hw.pairLowWord pDOM 0x82 0 (.core 0 : Requester)).toNat +
    (1 : Word).toNat % 2 ^ 24 * 2 ^ 40, wit_TicksFireCaptureAndPublish_2.hw.f pDOM 0 DOM_PERIOD_P⟩) ∧ (100 ≤ (⟨434294,
    1099511627785, 10000⟩ : TickCfg).period ∧ (⟨434294, 1099511627785, 10000⟩ : TickCfg).period ≤ 1000000 ∧
    wit_TicksFireCaptureAndPublish_2.hw.domTime + 51200000 ≤ (⟨434294, 1099511627785, 10000⟩ : TickCfg).time ∧ (⟨5,
    100, 9890⟩ : TickCfg).time < (⟨434294, 1099511627785, 10000⟩ : TickCfg).time) ∧ (if (⟨434294, 1099511627785,
    10000⟩ : TickCfg).tn = ((⟨5, 100, 9890⟩ : TickCfg).tn + ((⟨434294, 1099511627785, 10000⟩ : TickCfg).time - 1 -
    (⟨5, 100, 9890⟩ : TickCfg).time) / ((⟨5, 100, 9890⟩ : TickCfg).period * 256) + 1) % 2 ^ 40 then (after (exec
    (.baseHCommit (.core 0 : Requester) (1 : Word)) wit_TicksFireCaptureAndPublish_2)).hw.dom.configs = [(⟨5, 100,
    9890⟩ : TickCfg), (⟨434294, 1099511627785, 10000⟩ : TickCfg)] else (after (exec (.baseHCommit (.core 0 :
    Requester) (1 : Word)) wit_TicksFireCaptureAndPublish_2)).hw.f pDOM 0 DOM_IRQ_CFG_ERR = 1 ∧ (after (exec
    (.baseHCommit (.core 0 : Requester) (1 : Word)) wit_TicksFireCaptureAndPublish_2)).hw.dom.configs = [(⟨5, 100,
    9890⟩ : TickCfg)])  := by decide +kernel

def wit_TicksFireCaptureAndPublish_3 : State :=
    (up [(pDL 0, 0, DL_NODE_JSTATE, 3), (pDOM, 0, DOM_BASE_L_TIME,
    51199999)] : State)

theorem test_TicksFireCaptureAndPublish_3 :
    (accepts wit_TicksFireCaptureAndPublish_3.hw (.core 0 : Requester)
    pDOM = true ∧ wit_TicksFireCaptureAndPublish_3.hw.jstate = 3) ∧ (wit_TicksFireCaptureAndPublish_3.hw.f pDOM 0
    DOM_PERIOD_P < 100 ∨ 1000000 < wit_TicksFireCaptureAndPublish_3.hw.f pDOM 0 DOM_PERIOD_P ∨
    (wit_TicksFireCaptureAndPublish_3.hw.pairLowWord pDOM 0x82 0 (.core 0 : Requester)).toNat + (0 : Word).toNat % 2 ^
    24 * 2 ^ 40 < wit_TicksFireCaptureAndPublish_3.hw.domTime + 51200000) ∧ ((after (exec (.baseHCommit (.core 0 :
    Requester) (0 : Word)) wit_TicksFireCaptureAndPublish_3)).hw.f pDOM 0 DOM_IRQ_CFG_ERR = 1 ∧ (after (exec
    (.baseHCommit (.core 0 : Requester) (0 : Word)) wit_TicksFireCaptureAndPublish_3)).hw.dom.configs =
    wit_TicksFireCaptureAndPublish_3.hw.dom.configs)  := by decide +kernel

def wit_TicksFireCaptureAndPublish_4 : State :=
    ((up [(pDL 0, 0, DL_NODE_JSTATE, 2)]).on (fun h => h.onDom
    (fun d => { d with rxq := [⟨1, 1, ⟨16383, 0, 3, 2, 0x10, 0, [0x302710, 5, 9, 1]⟩⟩] })) : State)

theorem test_TicksFireCaptureAndPublish_4 :
    (wit_TicksFireCaptureAndPublish_4.hw.jstate ≠ 3 ∧
    wit_TicksFireCaptureAndPublish_4.hw.dom.configs = [] ∧ wit_TicksFireCaptureAndPublish_4.hw.dom.rxq = [⟨(1 : Nat),
    (1 : Nat), (⟨16383, 0, 3, 2, 0x10, 0, [0x302710, 5, 9, 1]⟩ : Frame)⟩] ∧ (⟨16383, 0, 3, 2, 0x10, 0, [0x302710, 5,
    9, 1]⟩ : Frame).tc = 3 ∧ (⟨16383, 0, 3, 2, 0x10, 0, [0x302710, 5, 9, 1]⟩ : Frame).kind = 0x10) ∧ ((⟨5,
    1099511627785, 10000⟩ : TickCfg) = ⟨((⟨16383, 0, 3, 2, 0x10, 0, [0x302710, 5, 9, 1]⟩ : Frame).words.getD 1
    0).toNat, ((⟨16383, 0, 3, 2, 0x10, 0, [0x302710, 5, 9, 1]⟩ : Frame).words.getD 2 0).toNat + ((⟨16383, 0, 3, 2,
    0x10, 0, [0x302710, 5, 9, 1]⟩ : Frame).words.getD 3 0).toNat % 2 ^ 24 * 2 ^ 40, ((⟨16383, 0, 3, 2, 0x10, 0,
    [0x302710, 5, 9, 1]⟩ : Frame).words.getD 0 0).toNat % 2 ^ 20⟩ ∧ (⟨5, 1099511627785, 10000⟩ : TickCfg).period ≠ 0)
    ∧ ((after (exec .tickCfg wit_TicksFireCaptureAndPublish_4)).hw.dom.configs = [(⟨5, 1099511627785, 10000⟩ :
    TickCfg)] ∧ (after (exec .tickCfg wit_TicksFireCaptureAndPublish_4)).hw.f pDOM 0 DOM_STATUS_CFG_VALID = 1 ∧ (after
    (exec .tickCfg wit_TicksFireCaptureAndPublish_4)).hw.f pDOM 0 DOM_VER_DLEVEL = bitsOf ((⟨16383, 0, 3, 2, 0x10, 0,
    [0x302710, 5, 9, 1]⟩ : Frame).words.getD 0 0).toNat 20 8 ∧ (after (exec .tickCfg
    wit_TicksFireCaptureAndPublish_4)).hw.f pDOM 0 DOM_PERIOD_P = (⟨5, 1099511627785, 10000⟩ : TickCfg).period ∧
    (after (exec .tickCfg wit_TicksFireCaptureAndPublish_4)).hw.f pDOM 0 DOM_BASE_TN_TN = (⟨5, 1099511627785, 10000⟩ :
    TickCfg).tn)  := by decide +kernel

def wit_TicksFireCaptureAndPublish_5 : State :=
    ((up [(pDL 0, 0, DL_NODE_JSTATE, 3), (pDL 2, 0,
    DL_STATUS_ROLE, 2)]).on (fun h => h.onDom (fun d => { d with configs := [⟨5, 100, 9890⟩] })) : State)

theorem test_TicksFireCaptureAndPublish_5 :
    (wit_TicksFireCaptureAndPublish_5.hw.jstate = 3 ∧
    wit_TicksFireCaptureAndPublish_5.hw.dom.configs = [(⟨5, 100, 9890⟩ : TickCfg)] ∧
    wit_TicksFireCaptureAndPublish_5.hw.role (2 : Fin 4) = 2 ∧ (⟨5, 100, 9890⟩ : TickCfg).time < 2 ^ 64) ∧ (((after
    (exec .tickCfgTimer wit_TicksFireCaptureAndPublish_5)).hw.port (2 : Fin 4)).txq =
    (wit_TicksFireCaptureAndPublish_5.hw.port (2 : Fin 4)).txq ++ [⟨4, 0, ⟨16383,
    wit_TicksFireCaptureAndPublish_5.hw.nodeId, 3, 0, 0x10, 0, [w40 (wit_TicksFireCaptureAndPublish_5.hw.f pDOM 0
    DOM_VER_DLEVEL * 2 ^ 20 + (⟨5, 100, 9890⟩ : TickCfg).period), w40 (⟨5, 100, 9890⟩ : TickCfg).tn, w40 ((⟨5, 100,
    9890⟩ : TickCfg).time % 2 ^ 40), w40 ((⟨5, 100, 9890⟩ : TickCfg).time / 2 ^ 40)]⟩⟩])  := by decide +kernel

def wit_TicksFireCaptureAndPublish_6 : State :=
    ((up [(pDTIME, 0, DTIME_STATUS_VALID, 1), (pDTIME, 0,
    DTIME_TIME_L_TIME, 51300), (pDL 0, 0, DL_NODE_JSTATE, 2)]).on (fun h => h.onDom (fun d =>
    { d with configs := [⟨5, 100, 100⟩], tickFrom := some 30 })) : State)

theorem test_TicksFireCaptureAndPublish_6 :
    (wit_TicksFireCaptureAndPublish_6.hw.dom.configs = [(⟨5, 100, 100⟩
    : TickCfg)] ∧ wit_TicksFireCaptureAndPublish_6.hw.b pDTIME 0 DTIME_STATUS_VALID = true ∧
    wit_TicksFireCaptureAndPublish_6.hw.inDomain = true ∧ wit_TicksFireCaptureAndPublish_6.hw.domainRuns 49 = true ∧
    wit_TicksFireCaptureAndPublish_6.hw.dom.fired = false) ∧ (wit_TicksFireCaptureAndPublish_6.hw.dom.tickFrom = some
    (30 : Nat) ∧ (30 : Nat) ≤ (⟨5, 100, 100⟩ : TickCfg).time ∧ (⟨5, 100, 100⟩ : TickCfg).time ≤
    wit_TicksFireCaptureAndPublish_6.hw.domTime) ∧ ((after (exec .domTick wit_TicksFireCaptureAndPublish_6)).hw.tick =
    ((⟨5, 100, 100⟩ : TickCfg).tn + (wit_TicksFireCaptureAndPublish_6.hw.domTime - (⟨5, 100, 100⟩ : TickCfg).time) /
    ((⟨5, 100, 100⟩ : TickCfg).period * 256)) % 2 ^ 40) ∧ ((after (exec .domTick
    wit_TicksFireCaptureAndPublish_6)).hw.f pDOM 0 DOM_SKIP_CNT_COUNT = (wit_TicksFireCaptureAndPublish_6.hw.f pDOM 0
    DOM_SKIP_CNT_COUNT + (wit_TicksFireCaptureAndPublish_6.hw.domTime - (⟨5, 100, 100⟩ : TickCfg).time) / ((⟨5, 100,
    100⟩ : TickCfg).period * 256)) % 2 ^ 40)  := by decide +kernel

def wit_TicksFireCaptureAndPublish_7 : State :=
    (up [] : State)

theorem test_TicksFireCaptureAndPublish_7 :
    (wit_TicksFireCaptureAndPublish_7.hw.tickRuns = false) ∧ ((after
    (exec .domTick wit_TicksFireCaptureAndPublish_7)) = wit_TicksFireCaptureAndPublish_7)  := by decide +kernel

def wit_TicksFireCaptureAndPublish_8 : State :=
    (((up [(pSNAP, 0, SNAP_STATUS_CAPTURING, 1), (pDOM, 7,
    DOM_PUB_EN, 1), (pDOM, 7, DOM_PUB_ADDR, 0x4000100), (pDL 0, 0, DL_NODE_JSTATE, 2), (pDL 0, 0, DL_NODE_ID, 9)]).wr
    0x4000100 77).on (fun h => { h with now := 64 }.onDom (fun d =>
    { d with ticks := [⟨11, true, false, 4⟩], routes := [(0, some 2)] })) : State)

theorem test_TicksFireCaptureAndPublish_8 :
    (wit_TicksFireCaptureAndPublish_8.hw.capturing = true ∧
    wit_TicksFireCaptureAndPublish_8.hw.drainWaits = false ∧ wit_TicksFireCaptureAndPublish_8.hw.dom.ticks = [(⟨11,
    true, false, 4⟩ : SnapTick)] ∧ wit_TicksFireCaptureAndPublish_8.hw.pubs = [(7 : Nat)] ∧
    wit_TicksFireCaptureAndPublish_8.hw.f pDOM (7 : Nat) DOM_PUB_ADDR = (0x4000100 : Nat)) ∧ (0x04000000 ≤ (0x4000100
    : Nat) ∧ (0x4000100 : Nat) < 0x04200000 ∧ wit_TicksFireCaptureAndPublish_8.hw.memStopped (0x4000100 : Nat) = false
    ∧ goesBy wit_TicksFireCaptureAndPublish_8.hw 0 (2 : Nat))  := by decide +kernel

def wit_TicksFireCaptureAndPublish_9 : State :=
    (((up [(pSNAP, 0, SNAP_STATUS_CAPTURING, 1), (pDOM, 7,
    DOM_PUB_EN, 1), (pDOM, 7, DOM_PUB_ADDR, 0x4000100), (pDL 0, 0, DL_NODE_JSTATE, 2), (pDL 0, 0, DL_NODE_ID, 9)]).wr
    0x4000100 77).on (fun h => { h with now := 4004 }.onDom (fun d =>
    { d with ticks := [⟨11, true, false, 4⟩], routes := [(0, some 2)] })) : State)

theorem test_TicksFireCaptureAndPublish_9 :
    (wit_TicksFireCaptureAndPublish_9.hw.capturing = true ∧
    wit_TicksFireCaptureAndPublish_9.hw.dom.ticks = [(⟨11, true, false, 4⟩ : SnapTick)] ∧ (⟨11, true, false, 4⟩ :
    SnapTick).since + 4000 ≤ wit_TicksFireCaptureAndPublish_9.hw.now ∧ wit_TicksFireCaptureAndPublish_9.hw.pubs = [(7
    : Nat)] ∧ goesBy wit_TicksFireCaptureAndPublish_9.hw 0 (2 : Nat)) ∧ ((after (exec (.captureTimeout 0 ())
    wit_TicksFireCaptureAndPublish_9)).hw.reg pDOM 0x11 (7 : Nat) = 0 ∧ (after (exec (.captureTimeout 0 ())
    wit_TicksFireCaptureAndPublish_9)).hw.f pSNAP 0 SNAP_STATUS_CAPTURING = 0 ∧ (after (exec (.captureTimeout 0 ())
    wit_TicksFireCaptureAndPublish_9)).hw.f pSNAP 0 SNAP_IRQ_CAP_ERR = 1) ∧ (((after (exec (.captureTimeout 0 ())
    wit_TicksFireCaptureAndPublish_9)).hw.port (2 : Nat)).txq = (wit_TicksFireCaptureAndPublish_9.hw.port (2 :
    Nat)).txq ++ [⟨4, 0, ⟨0, wit_TicksFireCaptureAndPublish_9.hw.nodeId, 1, 0, 1,
    (wit_TicksFireCaptureAndPublish_9.hw.sendOf ⟨1, false, 0⟩).next, [w40 (2 ^ 39 + 2 ^ 32 + (⟨11, true, false, 4⟩ :
    SnapTick).tn % 2 ^ 32), 0]⟩⟩])  := by decide +kernel

def wit_SnapshotsAssembleAndAreLeased_1 : State :=
    (up [(pSNAP, 0, SNAP_ABASE_LINE, 66666496)] : State)

theorem test_SnapshotsAssembleAndAreLeased_1 :
    (accepts wit_SnapshotsAssembleAndAreLeased_1.hw (.core 0 :
    Requester) pSNAP = true ∧ bitOf (3 : Word).toNat 1 = true ∧ wit_SnapshotsAssembleAndAreLeased_1.hw.b pSNAP 0
    SNAP_CTRL_ASM = false ∧ 1 ≤ wit_SnapshotsAssembleAndAreLeased_1.hw.f pSNAP 0 SNAP_STRIDE_S ∧
    wit_SnapshotsAssembleAndAreLeased_1.hw.f pSNAP 0 SNAP_STRIDE_S ≤ 9) ∧ (wit_SnapshotsAssembleAndAreLeased_1.hw.f
    pSNAP 0 SNAP_ABASE_LINE + 49152 * wit_SnapshotsAssembleAndAreLeased_1.hw.f pSNAP 0 SNAP_STRIDE_S ≤ 2 ^ 26) ∧
    ((after (exec (.asmEnable (.core 0 : Requester) (3 : Word)) wit_SnapshotsAssembleAndAreLeased_1)).hw.f pSNAP 0
    SNAP_CTRL_ASM = 1 ∧ (after (exec (.asmEnable (.core 0 : Requester) (3 : Word))
    wit_SnapshotsAssembleAndAreLeased_1)).hw.f pSNAP 0 SNAP_CTRL_CAP_EN = bitsOf (3 : Word).toNat 0 1 ∧ (after (exec
    (.asmEnable (.core 0 : Requester) (3 : Word)) wit_SnapshotsAssembleAndAreLeased_1)).hw.dom.abase =
    wit_SnapshotsAssembleAndAreLeased_1.hw.f pSNAP 0 SNAP_ABASE_LINE ∧ (after (exec (.asmEnable (.core 0 : Requester)
    (3 : Word)) wit_SnapshotsAssembleAndAreLeased_1)).hw.dom.stride = wit_SnapshotsAssembleAndAreLeased_1.hw.f pSNAP 0
    SNAP_STRIDE_S ∧ (after (exec (.asmEnable (.core 0 : Requester) (3 : Word))
    wit_SnapshotsAssembleAndAreLeased_1)).hw.dom.latest = none)  := by decide +kernel

def wit_SnapshotsAssembleAndAreLeased_2 : State :=
    (up [(pSNAP, 0, SNAP_ABASE_LINE, 66666497)] : State)

theorem test_SnapshotsAssembleAndAreLeased_2 :
    (accepts wit_SnapshotsAssembleAndAreLeased_2.hw (.core 0 :
    Requester) pSNAP = true ∧ bitOf (3 : Word).toNat 1 = true ∧ wit_SnapshotsAssembleAndAreLeased_2.hw.b pSNAP 0
    SNAP_CTRL_ASM = false) ∧ (wit_SnapshotsAssembleAndAreLeased_2.hw.f pSNAP 0 SNAP_STRIDE_S = 0 ∨ 9 <
    wit_SnapshotsAssembleAndAreLeased_2.hw.f pSNAP 0 SNAP_STRIDE_S ∨ 2 ^ 26 < wit_SnapshotsAssembleAndAreLeased_2.hw.f
    pSNAP 0 SNAP_ABASE_LINE + 49152 * wit_SnapshotsAssembleAndAreLeased_2.hw.f pSNAP 0 SNAP_STRIDE_S) ∧ ((after (exec
    (.asmEnable (.core 0 : Requester) (3 : Word)) wit_SnapshotsAssembleAndAreLeased_2)).hw.f pSNAP 0 SNAP_IRQ_CAP_ERR
    = 1 ∧ (after (exec (.asmEnable (.core 0 : Requester) (3 : Word)) wit_SnapshotsAssembleAndAreLeased_2)).hw.reg
    pSNAP 2 0 = wit_SnapshotsAssembleAndAreLeased_2.hw.reg pSNAP 2 0 ∧ (after (exec (.asmEnable (.core 0 : Requester)
    (3 : Word)) wit_SnapshotsAssembleAndAreLeased_2)).hw.dom = wit_SnapshotsAssembleAndAreLeased_2.hw.dom)
     := by decide +kernel

def wit_SnapshotsAssembleAndAreLeased_3 : State :=
    ((up [(pDL 0, 0, DL_NODE_JSTATE, 3), (pSNAP, 0,
    SNAP_CTRL_ASM, 1), (pDRAM, 0, DRAM_STATUS_READY, 1), (pDOM, 0, DOM_TICK_TN, 7)]).on (fun h => h.onDom (fun d =>
    { d with rxq := [⟨1, 1, ⟨0, 5, 1, 2, 1, 0, [0x8200000007, 70, 71]⟩⟩], asm := some ⟨7, 1, []⟩, stride := 1 })) :
    State)

theorem test_SnapshotsAssembleAndAreLeased_3 :
    (wit_SnapshotsAssembleAndAreLeased_3.hw.jstate = 3 ∧
    wit_SnapshotsAssembleAndAreLeased_3.hw.b pSNAP 0 SNAP_CTRL_ASM = true ∧
    wit_SnapshotsAssembleAndAreLeased_3.hw.dom.rxq = [⟨(1 : Nat), (1 : Nat), (⟨0, 5, 1, 2, 1, 0, [0x8200000007, 70,
    71]⟩ : Frame)⟩] ∧ (⟨0, 5, 1, 2, 1, 0, [0x8200000007, 70, 71]⟩ : Frame).tc = 1 ∧ (⟨0, 5, 1, 2, 1, 0, [0x8200000007,
    70, 71]⟩ : Frame).kind = 1 ∧ wit_SnapshotsAssembleAndAreLeased_3.hw.dom.asm = some (⟨7, 1, []⟩ : OpenGen) ∧
    wit_SnapshotsAssembleAndAreLeased_3.hw.dramReady = true) ∧ ((2 : Nat) = bitsOf ((⟨0, 5, 1, 2, 1, 0, [0x8200000007,
    70, 71]⟩ : Frame).words.getD 0 0).toNat 32 7 ∧ (⟨0, 5, 1, 2, 1, 0, [0x8200000007, 70, 71]⟩ : Frame).words.length =
    (2 : Nat) + 1 ∧ (2 : Nat) < 8 * wit_SnapshotsAssembleAndAreLeased_3.hw.dom.stride ∧ (⟨0, 5, 1, 2, 1, 0,
    [0x8200000007, 70, 71]⟩ : Frame).src < 16384 ∧ (⟨7, 1, []⟩ : OpenGen).buf < 3 ∧ (⟨7, 1, []⟩ : OpenGen).tn < 2 ^
    40) ∧ ((⟨7, 1, []⟩ : OpenGen).tn = tickAt wit_SnapshotsAssembleAndAreLeased_3.hw.tick (tickAhead
    wit_SnapshotsAssembleAndAreLeased_3.hw.tick (((⟨0, 5, 1, 2, 1, 0, [0x8200000007, 70, 71]⟩ : Frame).words.getD 0
    0).toNat % 2 ^ 32)))  := by decide +kernel

def wit_SnapshotsAssembleAndAreLeased_4 : State :=
    ((up [(pDL 0, 0, DL_NODE_JSTATE, 3)]).on (fun h => h.onDom
    (fun d => { d with rxq := [⟨1, 1, ⟨0, 5, 1, 2, 1, 0, [0x8200000007, 70, 71]⟩⟩] })) : State)

theorem test_SnapshotsAssembleAndAreLeased_4 :
    (wit_SnapshotsAssembleAndAreLeased_4.hw.jstate = 3 ∧
    wit_SnapshotsAssembleAndAreLeased_4.hw.dom.rxq = [⟨(1 : Nat), (1 : Nat), (⟨0, 5, 1, 2, 1, 0, [0x8200000007, 70,
    71]⟩ : Frame)⟩] ∧ (⟨0, 5, 1, 2, 1, 0, [0x8200000007, 70, 71]⟩ : Frame).tc = 1 ∧ (⟨0, 5, 1, 2, 1, 0, [0x8200000007,
    70, 71]⟩ : Frame).kind = 1 ∧ wit_SnapshotsAssembleAndAreLeased_4.hw.dom.asm = none)  := by decide +kernel

def wit_SnapshotsAssembleAndAreLeased_5 : State :=
    ((up [(pSNAP, 0, SNAP_STATUS_ASSEMBLING, 1)]).on (fun h =>
    h.onDom (fun d => { d with asm := some ⟨7, 1, [5, 0]⟩, expected := [5] })) : State)

theorem test_SnapshotsAssembleAndAreLeased_5 :
    (wit_SnapshotsAssembleAndAreLeased_5.hw.dom.asm = some (⟨7, 1,
    [5, 0]⟩ : OpenGen) ∧ (0 :: wit_SnapshotsAssembleAndAreLeased_5.hw.dom.expected).all (fun i => (⟨7, 1, [5, 0]⟩ :
    OpenGen).fresh.contains i) = true ∧ wit_SnapshotsAssembleAndAreLeased_5.hw.dom.left = [] ∧ (⟨7, 1, [5, 0]⟩ :
    OpenGen).buf < 3 ∧ (⟨7, 1, [5, 0]⟩ : OpenGen).tn < 2 ^ 40)  := by decide +kernel

def wit_SnapshotsAssembleAndAreLeased_6 : State :=
    ((up [(pDRAM, 0, DRAM_STATUS_READY, 1), (pDTIME, 0,
    DTIME_TIME_L_TIME, 76900)]).on (fun h => h.onDom (fun d =>
    { d with asm := some ⟨7, 1, [0]⟩, expected := [5], configs := [⟨5, 100, 100⟩], latest := some (6, 2), stride := 1, bufs := [{}, {}, ⟨some 6, [5]⟩] }))
    : State)

theorem test_SnapshotsAssembleAndAreLeased_6 :
    (wit_SnapshotsAssembleAndAreLeased_6.hw.dom.asm = some (⟨7, 1,
    [0]⟩ : OpenGen) ∧ wit_SnapshotsAssembleAndAreLeased_6.hw.dom.expected = [(5 : Nat)] ∧ (⟨7, 1, [0]⟩ :
    OpenGen).fresh = [0] ∧ (5 : Nat) ≠ 0 ∧ (5 : Nat) < 16384 ∧ wit_SnapshotsAssembleAndAreLeased_6.hw.dom.left = [] ∧
    (⟨7, 1, [0]⟩ : OpenGen).buf < 3 ∧ (2 : Nat) < 3 ∧ (2 : Nat) ≠ (⟨7, 1, [0]⟩ : OpenGen).buf ∧ 1 ≤
    wit_SnapshotsAssembleAndAreLeased_6.hw.dom.stride) ∧ (wit_SnapshotsAssembleAndAreLeased_6.hw.dom.configs = [(⟨5,
    100, 100⟩ : TickCfg)] ∧ (⟨5, 100, 100⟩ : TickCfg).tn ≤ (⟨7, 1, [0]⟩ : OpenGen).tn ∧ (⟨7, 1, [0]⟩ : OpenGen).tn <
    (⟨5, 100, 100⟩ : TickCfg).tn + 2 ^ 39 ∧ wit_SnapshotsAssembleAndAreLeased_6.hw.f pSNAP 0 SNAP_ASM_DL_T = 0 ∧ (⟨5,
    100, 100⟩ : TickCfg).time + ((⟨7, 1, [0]⟩ : OpenGen).tn - (⟨5, 100, 100⟩ : TickCfg).tn) * (⟨5, 100, 100⟩ :
    TickCfg).period * 256 + (⟨5, 100, 100⟩ : TickCfg).period * 256 ≤ wit_SnapshotsAssembleAndAreLeased_6.hw.domTime) ∧
    (wit_SnapshotsAssembleAndAreLeased_6.hw.dom.latest = some ((6 : Nat), (2 : Nat)) ∧
    (wit_SnapshotsAssembleAndAreLeased_6.hw.dom.bufs.getD (2 : Nat) {}).nodes.contains (5 : Nat) = true ∧
    (wit_SnapshotsAssembleAndAreLeased_6.hw.recvOf ⟨1, false, (5 : Nat)⟩).fenced = false ∧
    wit_SnapshotsAssembleAndAreLeased_6.hw.dramReady = true)  := by decide +kernel

def wit_SnapshotsAssembleAndAreLeased_7 : State :=
    ((up []).on (fun h => h.onDom (fun d =>
    { d with latest := some (7, 1) })) : State)

theorem test_SnapshotsAssembleAndAreLeased_7 :
    (accepts wit_SnapshotsAssembleAndAreLeased_7.hw (.core 0 :
    Requester) pSNAP = true ∧ wit_SnapshotsAssembleAndAreLeased_7.hw.dom.pin = none ∧
    wit_SnapshotsAssembleAndAreLeased_7.hw.dom.latest = some ((7 : Nat), (1 : Nat)) ∧ (1 : Nat) < 4 ∧ (7 : Nat) < 2 ^
    40) ∧ ((after (exec (.leaseReq (.core 0 : Requester)) wit_SnapshotsAssembleAndAreLeased_7)).hw.dom.pin = some ⟨(1
    : Nat), (7 : Nat), wit_SnapshotsAssembleAndAreLeased_7.hw.now + 400 * max 1
    (wit_SnapshotsAssembleAndAreLeased_7.hw.f pSNAP 0 SNAP_LEASE_US_US), [(.core 0 : Requester).bank]⟩ ∧ (after (exec
    (.leaseReq (.core 0 : Requester)) wit_SnapshotsAssembleAndAreLeased_7)).hw.f pSNAP (.core 0 : Requester).bank
    SNAP_LEASE_VALID = 1 ∧ (after (exec (.leaseReq (.core 0 : Requester)) wit_SnapshotsAssembleAndAreLeased_7)).hw.f
    pSNAP (.core 0 : Requester).bank SNAP_LEASE_EXPIRED = 0) ∧ ((after (exec (.leaseReq (.core 0 : Requester))
    wit_SnapshotsAssembleAndAreLeased_7)).hw.f pSNAP (.core 0 : Requester).bank SNAP_LEASE_BUF = (1 : Nat) ∧ (after
    (exec (.leaseReq (.core 0 : Requester)) wit_SnapshotsAssembleAndAreLeased_7)).hw.f pSNAP (.core 0 :
    Requester).bank SNAP_LEASE_TN_TN = (7 : Nat) ∧ (after (exec (.leaseReq (.core 0 : Requester))
    wit_SnapshotsAssembleAndAreLeased_7)).hw.f pSNAP 0 SNAP_STATUS_PINNED = 1 ∧ (after (exec (.leaseReq (.core 0 :
    Requester)) wit_SnapshotsAssembleAndAreLeased_7)).hw.f pSNAP 0 SNAP_STATUS_PIN_BUF = (1 : Nat))
     := by decide +kernel

def wit_SnapshotsAssembleAndAreLeased_8 : State :=
    ((up []).on (fun h => h.onDom (fun d =>
    { d with pin := some ⟨1, 7, 400, [3]⟩ })) : State)

theorem test_SnapshotsAssembleAndAreLeased_8 :
    (accepts wit_SnapshotsAssembleAndAreLeased_8.hw (.core 0 :
    Requester) pSNAP = true ∧ wit_SnapshotsAssembleAndAreLeased_8.hw.dom.pin = some (⟨1, 7, 400, [3]⟩ : Pin) ∧
    wit_SnapshotsAssembleAndAreLeased_8.hw.now < (⟨1, 7, 400, [3]⟩ : Pin).until' ∧ (⟨1, 7, 400, [3]⟩ :
    Pin).holders.contains (.core 0 : Requester).bank = false ∧ (⟨1, 7, 400, [3]⟩ : Pin).holders ≠ []) ∧ ((after (exec
    (.leaseReq (.core 0 : Requester)) wit_SnapshotsAssembleAndAreLeased_8)).hw.dom.pin = some
    { (⟨1, 7, 400, [3]⟩ : Pin) with holders := (⟨1, 7, 400, [3]⟩ : Pin).holders ++ [(.core 0 : Requester).bank] } ∧
    (after (exec (.leaseReq (.core 0 : Requester)) wit_SnapshotsAssembleAndAreLeased_8)).hw.f pSNAP (.core 0 :
    Requester).bank SNAP_LEASE_VALID = 1)  := by decide +kernel

def wit_SnapshotsAssembleAndAreLeased_9 : State :=
    ((up [(pSNAP, 0, SNAP_STATUS_PINNED, 1)]).on (fun h =>
    h.onDom (fun d => { d with pin := some ⟨1, 7, 400, [3]⟩ })) : State)

theorem test_SnapshotsAssembleAndAreLeased_9 :
    (accepts wit_SnapshotsAssembleAndAreLeased_9.hw (.core 3 :
    Requester) pSNAP = true ∧ wit_SnapshotsAssembleAndAreLeased_9.hw.dom.pin = some (⟨1, 7, 400, [3]⟩ : Pin) ∧ (⟨1, 7,
    400, [3]⟩ : Pin).holders = [(.core 3 : Requester).bank]) ∧ ((after (exec (.leaseRel (.core 3 : Requester))
    wit_SnapshotsAssembleAndAreLeased_9)).hw.dom.pin = none ∧ (after (exec (.leaseRel (.core 3 : Requester))
    wit_SnapshotsAssembleAndAreLeased_9)).hw.f pSNAP 0 SNAP_STATUS_PINNED = 0 ∧ (after (exec (.leaseRel (.core 3 :
    Requester)) wit_SnapshotsAssembleAndAreLeased_9)).hw.f pSNAP (.core 3 : Requester).bank SNAP_LEASE_VALID = 0)
     := by decide +kernel

def wit_SnapshotsAssembleAndAreLeased_10 : State :=
    ((up [(pSNAP, 0, SNAP_STATUS_PINNED, 1)]).on (fun h =>
    { h with now := 400 }.onDom (fun d => { d with pin := some ⟨1, 7, 400, [3]⟩ })) : State)

theorem test_SnapshotsAssembleAndAreLeased_10 :
    (wit_SnapshotsAssembleAndAreLeased_10.hw.dom.pin = some (⟨1,
    7, 400, [3]⟩ : Pin) ∧ (⟨1, 7, 400, [3]⟩ : Pin).until' ≤ wit_SnapshotsAssembleAndAreLeased_10.hw.now)
     := by decide +kernel

def wit_SnapshotsAssembleAndAreLeased_11 : State :=
    ((up [(pSNAP, 0, SNAP_STATUS_PINNED, 1)]).on (fun h =>
    h.onDom (fun d => { d with pin := some ⟨1, 7, 400, [3]⟩ })) : State)

theorem test_SnapshotsAssembleAndAreLeased_11 :
    (wit_SnapshotsAssembleAndAreLeased_11.hw.dom.pin = some (⟨1,
    7, 400, [3]⟩ : Pin) ∧ wit_SnapshotsAssembleAndAreLeased_11.hw.now < (⟨1, 7, 400, [3]⟩ : Pin).until') ∧ ((after
    (exec .leaseExpiry wit_SnapshotsAssembleAndAreLeased_11)) = wit_SnapshotsAssembleAndAreLeased_11)
     := by decide +kernel

def wit_CommandsRunAtTheirTicks_1 : State :=
    ((up [(pDL 0, 0, DL_NODE_JSTATE, 2), (pDL 0, 0, DL_NODE_ID, 5),
    (pDTIME, 0, DTIME_STATUS_VALID, 1), (pDOM, 0, DOM_CTX_A_DST, 9), (pDOM, 0, DOM_CTX_TN_TN, 4)]).on (fun h =>
    h.onDom (fun d => { d with routes := [(9, some 2)], configs := [⟨1, 1, 100⟩] })) : State)

theorem test_CommandsRunAtTheirTicks_1 :
    (accepts wit_CommandsRunAtTheirTicks_1.hw (.core 0 : Requester) pDOM
    = true ∧ firstCause (sendCauses wit_CommandsRunAtTheirTicks_1.hw (.core 0 : Requester).bank (0x0104000200 : Word))
    = 0 ∧ (9 : Nat) = wit_CommandsRunAtTheirTicks_1.hw.f pDOM (.core 0 : Requester).bank DOM_CTX_A_DST ∧ goesBy
    wit_CommandsRunAtTheirTicks_1.hw (9 : Nat) (2 : Nat) ∧ (0 : Nat) = (wit_CommandsRunAtTheirTicks_1.hw.sendOf ⟨0,
    false, (9 : Nat)⟩).next ∧ wit_CommandsRunAtTheirTicks_1.hw.dom.sendLog.length < 256)  := by decide +kernel

def wit_CommandsRunAtTheirTicks_2 : State :=
    ((up [(pDL 0, 0, DL_NODE_JSTATE, 2), (pDTIME, 0,
    DTIME_STATUS_VALID, 1), (pDOM, 0, DOM_CTX_TN_TN, 4)]).on (fun h => h.onDom (fun d =>
    { d with configs := [⟨1, 1, 100⟩] })) : State)

theorem test_CommandsRunAtTheirTicks_2 :
    (accepts wit_CommandsRunAtTheirTicks_2.hw (.core 0 : Requester) pDOM
    = true ∧ firstCause (sendCauses wit_CommandsRunAtTheirTicks_2.hw (.core 0 : Requester).bank (0x0004000200 : Word))
    ≠ 0)  := by decide +kernel

def wit_CommandsRunAtTheirTicks_3 : State :=
    ((up [(pDOM, 0, DOM_TICK_TN, 10)]).on (fun h => h.onDom (fun d =>
    { d with rxq := [⟨1, 1, ⟨5, 9, 0, 2, 1, 33, [12, 0x0001000001, 0x4000100, 66]⟩⟩] })) : State)

theorem test_CommandsRunAtTheirTicks_3 :
    (wit_CommandsRunAtTheirTicks_3.hw.dom.rxq = [⟨(1 : Nat), (1 : Nat),
    (⟨5, 9, 0, 2, 1, 33, [12, 0x0001000001, 0x4000100, 66]⟩ : Frame)⟩] ∧ (⟨5, 9, 0, 2, 1, 33, [12, 0x0001000001,
    0x4000100, 66]⟩ : Frame).tc = 0 ∧ (⟨5, 9, 0, 2, 1, 33, [12, 0x0001000001, 0x4000100, 66]⟩ : Frame).kind = 1 ∧
    firstCause (commandResults wit_CommandsRunAtTheirTicks_3.hw (⟨5, 9, 0, 2, 1, 33, [12, 0x0001000001, 0x4000100,
    66]⟩ : Frame)) = 0)  := by decide +kernel

def wit_CommandsRunAtTheirTicks_4 : State :=
    ((up [(pDOM, 0, DOM_TICK_TN, 10), (pDL 0, 0, DL_NODE_JSTATE, 2),
    (pDL 0, 0, DL_NODE_ID, 5)]).on (fun h => h.onDom (fun d =>
    { d with routes := [(9, some 2)], rxq := [⟨1, 1, ⟨5, 9, 0, 2, 1, 33, [10, 0x0001000001, 0x4000100, 66]⟩⟩] })) :
    State)

theorem test_CommandsRunAtTheirTicks_4 :
    (wit_CommandsRunAtTheirTicks_4.hw.dom.rxq = [⟨(1 : Nat), (1 : Nat),
    (⟨5, 9, 0, 2, 1, 33, [10, 0x0001000001, 0x4000100, 66]⟩ : Frame)⟩] ∧ (⟨5, 9, 0, 2, 1, 33, [10, 0x0001000001,
    0x4000100, 66]⟩ : Frame).tc = 0 ∧ (⟨5, 9, 0, 2, 1, 33, [10, 0x0001000001, 0x4000100, 66]⟩ : Frame).kind = 1 ∧
    firstCause (commandResults wit_CommandsRunAtTheirTicks_4.hw (⟨5, 9, 0, 2, 1, 33, [10, 0x0001000001, 0x4000100,
    66]⟩ : Frame)) ≠ 0 ∧ goesBy wit_CommandsRunAtTheirTicks_4.hw (⟨5, 9, 0, 2, 1, 33, [10, 0x0001000001, 0x4000100,
    66]⟩ : Frame).src (2 : Nat))  := by decide +kernel

def wit_CommandsRunAtTheirTicks_5 : State :=
    ((up []).on (fun h => h.onDom (fun d =>
    { d with cmdQ := [⟨12, 9, false, 33, 1, false, [(0x4000100, 66)]⟩], ticks := [⟨12, true, true, 0⟩] })) : State)

theorem test_CommandsRunAtTheirTicks_5 :
    (wit_CommandsRunAtTheirTicks_5.hw.dom.ticks = [(⟨12, true, true, 0⟩ :
    SnapTick)] ∧ (⟨12, true, true, 0⟩ : SnapTick).done = true ∧ wit_CommandsRunAtTheirTicks_5.hw.domainRuns 32 = true
    ∧ wit_CommandsRunAtTheirTicks_5.hw.b pRST 0 RST_STATUS_PENDING = false ∧ wit_CommandsRunAtTheirTicks_5.hw.dom.cmdQ
    = [(⟨12, 9, false, 33, 1, false, [(0x4000100, 66)]⟩ : QCmd)] ∧ (⟨12, 9, false, 33, 1, false, [(0x4000100, 66)]⟩ :
    QCmd).tick = (⟨12, true, true, 0⟩ : SnapTick).tn ∧ (⟨12, 9, false, 33, 1, false, [(0x4000100, 66)]⟩ : QCmd).ack =
    false) ∧ ((⟨12, 9, false, 33, 1, false, [(0x4000100, 66)]⟩ : QCmd).writes = [((0x4000100 : Nat), (66 : Word))] ∧
    0x04000000 ≤ (0x4000100 : Nat) ∧ (0x4000100 : Nat) < 0x04200000 ∧ wit_CommandsRunAtTheirTicks_5.hw.memStopped
    (0x4000100 : Nat) = false)  := by decide +kernel

def wit_CommandsRunAtTheirTicks_6 : State :=
    ((up []).on (fun h => h.onDom (fun d =>
    { d with cmdQ := [⟨12, 9, false, 33, 1, false, [(0x4000100, 66), (0x30000, 1)]⟩], ticks := [⟨12, true, true, 0⟩] }))
    : State)

theorem test_CommandsRunAtTheirTicks_6 :
    (wit_CommandsRunAtTheirTicks_6.hw.dom.ticks = [(⟨12, true, true, 0⟩ :
    SnapTick)] ∧ (⟨12, true, true, 0⟩ : SnapTick).done = true ∧ wit_CommandsRunAtTheirTicks_6.hw.domainRuns 32 = true
    ∧ wit_CommandsRunAtTheirTicks_6.hw.b pRST 0 RST_STATUS_PENDING = false ∧ wit_CommandsRunAtTheirTicks_6.hw.dom.cmdQ
    = [(⟨12, 9, false, 33, 1, false, [(0x4000100, 66), (0x30000, 1)]⟩ : QCmd)] ∧ (⟨12, 9, false, 33, 1, false,
    [(0x4000100, 66), (0x30000, 1)]⟩ : QCmd).tick = (⟨12, true, true, 0⟩ : SnapTick).tn) ∧ ((⟨12, 9, false, 33, 1,
    false, [(0x4000100, 66), (0x30000, 1)]⟩ : QCmd).writes.any (fun x => placeOf .applier x.1 == .unmapped) = true)
     := by decide +kernel

def wit_CommandsRunAtTheirTicks_7 : State :=
    ((up []).on (fun h => h.onDom (fun d =>
    { d with rxq := [⟨1, 1, ⟨5, 9, 0, 2, 2, 33, [12, 0x0001002100]⟩⟩] })) : State)

theorem test_CommandsRunAtTheirTicks_7 :
    (wit_CommandsRunAtTheirTicks_7.hw.dom.rxq = [⟨(1 : Nat), (1 : Nat),
    (⟨5, 9, 0, 2, 2, 33, [12, 0x0001002100]⟩ : Frame)⟩] ∧ (⟨5, 9, 0, 2, 2, 33, [12, 0x0001002100]⟩ : Frame).tc = 0 ∧
    (⟨5, 9, 0, 2, 2, 33, [12, 0x0001002100]⟩ : Frame).kind = 2 ∧ (12 : Nat) = ((⟨5, 9, 0, 2, 2, 33, [12,
    0x0001002100]⟩ : Frame).words.getD 0 0).toNat ∧ (0x0001002100 : Nat) = ((⟨5, 9, 0, 2, 2, 33, [12, 0x0001002100]⟩ :
    Frame).words.getD 1 0).toNat ∧ (12 : Nat) / 2 ^ 32 ≠ 8 ∧ (12 : Nat) / 2 ^ 32 ≠ 10) ∧ (if
    wit_CommandsRunAtTheirTicks_7.hw.dom.reports.length < 64 then (after (exec .domReport
    wit_CommandsRunAtTheirTicks_7)).hw.dom.reports = wit_CommandsRunAtTheirTicks_7.hw.dom.reports ++ [⟨(12 : Nat) / 2
    ^ 32, (12 : Nat) % 2 ^ 32, (⟨5, 9, 0, 2, 2, 33, [12, 0x0001002100]⟩ : Frame).src, bitsOf (0x0001002100 : Nat) 24
    16, (0x0001002100 : Nat) % 128, false⟩] ∧ (after (exec .domReport wit_CommandsRunAtTheirTicks_7)).hw.f pDOM 0
    DOM_IRQ_REPORT = 1 else (after (exec .domReport wit_CommandsRunAtTheirTicks_7)).hw.dom.reports =
    wit_CommandsRunAtTheirTicks_7.hw.dom.reports ∧ (after (exec .domReport wit_CommandsRunAtTheirTicks_7)).hw.f pDOM 0
    DOM_IRQ_RPT_OVF = 1)  := by decide +kernel

def wit_CommandsRunAtTheirTicks_8 : State :=
    ((up []).on (fun h => h.onDom (fun d =>
    { d with sendLog := [⟨52, 812, 0x102, 4996⟩], rxq := [⟨1, 1, ⟨37, 52, 0, 2, 2, 33, [0x800000000, 0x32C00]⟩⟩] })) :
    State)

theorem test_CommandsRunAtTheirTicks_8 :
    (wit_CommandsRunAtTheirTicks_8.hw.dom.rxq = [⟨(1 : Nat), (1 : Nat),
    (⟨37, 52, 0, 2, 2, 33, [0x800000000, 0x32C00]⟩ : Frame)⟩] ∧ (⟨37, 52, 0, 2, 2, 33, [0x800000000, 0x32C00]⟩ :
    Frame).tc = 0 ∧ (⟨37, 52, 0, 2, 2, 33, [0x800000000, 0x32C00]⟩ : Frame).kind = 2 ∧ (0x32C00 : Nat) = ((⟨37, 52, 0,
    2, 2, 33, [0x800000000, 0x32C00]⟩ : Frame).words.getD 1 0).toNat ∧ ((⟨37, 52, 0, 2, 2, 33, [0x800000000, 0x32C00]⟩
    : Frame).words.getD 0 0).toNat / 2 ^ 32 = 8 ∧ wit_CommandsRunAtTheirTicks_8.hw.dom.sendLog = [(⟨52, 812, 0x102,
    4996⟩ : SendLog)] ∧ (⟨52, 812, 0x102, 4996⟩ : SendLog).dst = (⟨37, 52, 0, 2, 2, 33, [0x800000000, 0x32C00]⟩ :
    Frame).src ∧ (⟨52, 812, 0x102, 4996⟩ : SendLog).eseq = bitsOf (0x32C00 : Nat) 8 16 ∧
    wit_CommandsRunAtTheirTicks_8.hw.dom.reports.length < 64) ∧ ((after (exec .domReport
    wit_CommandsRunAtTheirTicks_8)).hw.dom.reports = wit_CommandsRunAtTheirTicks_8.hw.dom.reports ++ [⟨8, (⟨52, 812,
    0x102, 4996⟩ : SendLog).tn % 2 ^ 32, (⟨37, 52, 0, 2, 2, 33, [0x800000000, 0x32C00]⟩ : Frame).src, (⟨52, 812,
    0x102, 4996⟩ : SendLog).id, (0x32C00 : Nat) % 128, true⟩])  := by decide +kernel

def wit_CommandsRunAtTheirTicks_9 : State :=
    ((up [(pDL 0, 0, DL_NODE_JSTATE, 2), (pDL 0, 0, DL_NODE_ID,
    5)]).on (fun h => (h.onDom (fun d => { d with routes := [(9, some 2)] })).setRecv ⟨0, false, 9⟩
    { expect := 812, fenced := true }) : State)

theorem test_CommandsRunAtTheirTicks_9 :
    ((wit_CommandsRunAtTheirTicks_9.hw.recvOf (⟨0, false, 9⟩ :
    StreamId)).fenced = true ∧ goesBy wit_CommandsRunAtTheirTicks_9.hw (⟨0, false, 9⟩ : StreamId).node (2 : Nat) ∧
    (⟨0, false, 9⟩ : StreamId).tc < 3) ∧ (((after (exec (.resumeReqRepeat (⟨0, false, 9⟩ : StreamId))
    wit_CommandsRunAtTheirTicks_9)).hw.port (2 : Nat)).txq = (wit_CommandsRunAtTheirTicks_9.hw.port (2 : Nat)).txq ++
    [⟨4, 0, ⟨(⟨0, false, 9⟩ : StreamId).node, wit_CommandsRunAtTheirTicks_9.hw.nodeId, (⟨0, false, 9⟩ : StreamId).tc,
    0, 0x3E, 0, [w40 (b2n (⟨0, false, 9⟩ : StreamId).bcast * 65536 + (wit_CommandsRunAtTheirTicks_9.hw.recvOf (⟨0,
    false, 9⟩ : StreamId)).expect)]⟩⟩])  := by decide +kernel

def wit_CommandsRunAtTheirTicks_10 : State :=
    ((up [(pDL 0, 0, DL_NODE_JSTATE, 2), (pDL 0, 0, DL_NODE_ID,
    37)]).on (fun h => h.onDom (fun d =>
    { d with routes := [(52, some 2)], rxq := [⟨1, 1, ⟨37, 52, 0, 2, 0x3E, 0, [812]⟩⟩] })) : State)

theorem test_CommandsRunAtTheirTicks_10 :
    (wit_CommandsRunAtTheirTicks_10.hw.dom.rxq = [⟨(1 : Nat), (1 : Nat),
    (⟨37, 52, 0, 2, 0x3E, 0, [812]⟩ : Frame)⟩] ∧ (⟨37, 52, 0, 2, 0x3E, 0, [812]⟩ : Frame).tc = (0 : Fin 3) ∧ (⟨37, 52,
    0, 2, 0x3E, 0, [812]⟩ : Frame).kind = 0x3E ∧ bitOf ((⟨37, 52, 0, 2, 0x3E, 0, [812]⟩ : Frame).words.getD 0 0).toNat
    16 = false ∧ goesBy wit_CommandsRunAtTheirTicks_10.hw (⟨37, 52, 0, 2, 0x3E, 0, [812]⟩ : Frame).src (2 : Nat)) ∧
    (((after (exec (.resumeReq (0 : Fin 3)) wit_CommandsRunAtTheirTicks_10)).hw.port (2 : Nat)).txq =
    (wit_CommandsRunAtTheirTicks_10.hw.port (2 : Nat)).txq ++ [⟨4, 0, ⟨(⟨37, 52, 0, 2, 0x3E, 0, [812]⟩ : Frame).src,
    wit_CommandsRunAtTheirTicks_10.hw.nodeId, (0 : Fin 3), 0, 0x3F, 0, [w40 ((wit_CommandsRunAtTheirTicks_10.hw.sendOf
    ⟨(0 : Fin 3), false, (⟨37, 52, 0, 2, 0x3E, 0, [812]⟩ : Frame).src⟩).first * 2 ^ 16 +
    (wit_CommandsRunAtTheirTicks_10.hw.sendOf ⟨(0 : Fin 3), false, (⟨37, 52, 0, 2, 0x3E, 0, [812]⟩ :
    Frame).src⟩).next)]⟩⟩])  := by decide +kernel

def wit_CommandsRunAtTheirTicks_11 : State :=
    ((up []).on (fun h => (h.onDom (fun d =>
    { d with rxq := [⟨1, 1, ⟨37, 52, 1, 2, 0x3F, 0, [814]⟩⟩] })).setRecv ⟨1, false, 52⟩
    { expect := 812, fenced := true, held := [⟨37, 52, 1, 2, 1, 813, [5]⟩] }) : State)

theorem test_CommandsRunAtTheirTicks_11 :
    (wit_CommandsRunAtTheirTicks_11.hw.dom.rxq = [⟨(1 : Nat), (1 : Nat),
    (⟨37, 52, 1, 2, 0x3F, 0, [814]⟩ : Frame)⟩] ∧ (⟨37, 52, 1, 2, 0x3F, 0, [814]⟩ : Frame).tc = 1 ∧ (⟨37, 52, 1, 2,
    0x3F, 0, [814]⟩ : Frame).kind = 0x3F ∧ bitOf ((⟨37, 52, 1, 2, 0x3F, 0, [814]⟩ : Frame).words.getD 0 0).toNat 32 =
    false ∧ bitsOf ((⟨37, 52, 1, 2, 0x3F, 0, [814]⟩ : Frame).words.getD 0 0).toNat 16 16 = 0 ∧ (814 : Nat) = ((⟨37,
    52, 1, 2, 0x3F, 0, [814]⟩ : Frame).words.getD 0 0).toNat % 65536) ∧ ((wit_CommandsRunAtTheirTicks_11.hw.recvOf ⟨1,
    false, (⟨37, 52, 1, 2, 0x3F, 0, [814]⟩ : Frame).src⟩).fenced = true ∧ (wit_CommandsRunAtTheirTicks_11.hw.recvOf
    ⟨1, false, (⟨37, 52, 1, 2, 0x3F, 0, [814]⟩ : Frame).src⟩).expect ≤ (⟨37, 52, 1, 2, 1, 813, [5]⟩ : Frame).eseq ∧
    (⟨37, 52, 1, 2, 1, 813, [5]⟩ : Frame).eseq < (814 : Nat) ∧ (wit_CommandsRunAtTheirTicks_11.hw.recvOf ⟨1, false,
    (⟨37, 52, 1, 2, 0x3F, 0, [814]⟩ : Frame).src⟩).held = [(⟨37, 52, 1, 2, 1, 813, [5]⟩ : Frame)] ∧ (⟨37, 52, 1, 2, 1,
    813, [5]⟩ : Frame).tc = 1 ∧ (⟨37, 52, 1, 2, 1, 813, [5]⟩ : Frame).kind = 1) ∧ (((after (exec (.resumeAck 1)
    wit_CommandsRunAtTheirTicks_11)).hw.recvOf ⟨1, false, (⟨37, 52, 1, 2, 0x3F, 0, [814]⟩ : Frame).src⟩) = ⟨(814 :
    Nat), false, [], []⟩ ∧ (after (exec (.resumeAck 1) wit_CommandsRunAtTheirTicks_11)).hw.f pDOM 0 DOM_IRQ_RESUMED =
    1 ∧ (after (exec (.resumeAck 1) wit_CommandsRunAtTheirTicks_11)).hw.dom.rxq = [⟨4, 0, (⟨37, 52, 1, 2, 1, 813, [5]⟩
    : Frame)⟩])  := by decide +kernel

def wit_CommandsRunAtTheirTicks_12 : State :=
    ((up []).on (fun h => h.onDom (fun d =>
    { d with reports := [⟨8, 4996, 52, 0x102, 3, true⟩] })) : State)

theorem test_CommandsRunAtTheirTicks_12 :
    (wit_CommandsRunAtTheirTicks_12.hw.mayRead
    (wit_CommandsRunAtTheirTicks_12.hw.acc (.core 4 : Requester)) pDOM = true ∧ (.core 4 : Requester) ≠ .hamper ∧
    (.core 4 : Requester) ≠ .snap ∧ wit_CommandsRunAtTheirTicks_12.hw.dom.reports = (⟨8, 4996, 52, 0x102, 3, true⟩ :
    Report) :: ([] : List Report))  := by decide +kernel

def wit_HostReadsAndWritesSlots_1 : State :=
    (((up [(pPCIE, 0, PCIE_STATUS_LINK_UP, 1), (pDRAM, 0,
    DRAM_STATUS_READY, 1)]).wr 0x10000009 0x1122334455).setTag 0x10000009 0x31 : State)

theorem test_HostReadsAndWritesSlots_1 :
    (hostUp wit_HostReadsAndWritesSlots_1.hw = true ∧ (9 : Nat) < 2 ^ 29
    ∧ wit_HostReadsAndWritesSlots_1.hw.dramReady = true ∧ wit_HostReadsAndWritesSlots_1.hw.memStopped (0x10000000 + (9
    : Nat)) = false ∧ wit_HostReadsAndWritesSlots_1.poisoned (0x10000000 + (9 : Nat)) = false) ∧ ((after (exec
    (.hostRead 1 (BitVec.ofNat 32 (8 * (9 : Nat))) 8 (true : Bool) (false : Bool)) wit_HostReadsAndWritesSlots_1)) =
    wit_HostReadsAndWritesSlots_1.on (fun h =>
    { h with out := h.out ++ [.hostData (slotBytes (wit_HostReadsAndWritesSlots_1.rd (0x10000000 + (9 : Nat))) (wit_HostReadsAndWritesSlots_1.tag (0x10000000 + (9 : Nat))).toNat) false (true : Bool) (false : Bool)] }))
     := by decide +kernel

def wit_HostReadsAndWritesSlots_2 : State :=
    (((up [(pPCIE, 0, PCIE_STATUS_LINK_UP, 1), (pPCIE, 0,
    PCIE_CTRL_POISON_EP, 1), (pDRAM, 0, DRAM_STATUS_READY, 1)]).wr 0x10000009 0x1122334455).setTag 0x10000009 0x38 :
    State)

theorem test_HostReadsAndWritesSlots_2 :
    (hostUp wit_HostReadsAndWritesSlots_2.hw = true ∧ (9 : Nat) < 2 ^ 29
    ∧ wit_HostReadsAndWritesSlots_2.hw.dramReady = true ∧ wit_HostReadsAndWritesSlots_2.hw.memStopped (0x10000000 + (9
    : Nat)) = false ∧ wit_HostReadsAndWritesSlots_2.poisoned (0x10000000 + (9 : Nat)) = true) ∧ ((after (exec
    (.hostRead 1 (BitVec.ofNat 32 (8 * (9 : Nat))) 8 (true : Bool) (false : Bool))
    wit_HostReadsAndWritesSlots_2)).hw.out.getLast? = some (.hostData (slotBytes (wit_HostReadsAndWritesSlots_2.rd
    (0x10000000 + (9 : Nat))) ((wit_HostReadsAndWritesSlots_2.tag (0x10000000 + (9 : Nat))) ||| 8).toNat)
    (wit_HostReadsAndWritesSlots_2.hw.b pPCIE 0 PCIE_CTRL_POISON_EP) (true : Bool) (false : Bool))) ∧ ((after (exec
    (.hostRead 1 (BitVec.ofNat 32 (8 * (9 : Nat))) 8 (true : Bool) (false : Bool))
    wit_HostReadsAndWritesSlots_2)).hw.f pPCIE 0 PCIE_POISON_CNT_COUNT = (wit_HostReadsAndWritesSlots_2.hw.f pPCIE 0
    PCIE_POISON_CNT_COUNT + 1) % 2 ^ 40 ∧ (after (exec (.hostRead 1 (BitVec.ofNat 32 (8 * (9 : Nat))) 8 (true : Bool)
    (false : Bool)) wit_HostReadsAndWritesSlots_2)).hw.f pPCIE 0 PCIE_IRQ_POISON = 1 ∧ (after (exec (.hostRead 1
    (BitVec.ofNat 32 (8 * (9 : Nat))) 8 (true : Bool) (false : Bool)) wit_HostReadsAndWritesSlots_2)).mem =
    wit_HostReadsAndWritesSlots_2.mem ∧ (after (exec (.hostRead 1 (BitVec.ofNat 32 (8 * (9 : Nat))) 8 (true : Bool)
    (false : Bool)) wit_HostReadsAndWritesSlots_2)).tags = wit_HostReadsAndWritesSlots_2.tags)  := by decide +kernel

def wit_HostReadsAndWritesSlots_3 : State :=
    (up [(pPCIE, 0, PCIE_STATUS_LINK_UP, 1)] : State)

theorem test_HostReadsAndWritesSlots_3 :
    (hostUp wit_HostReadsAndWritesSlots_3.hw = true ∧ (9 : Nat) < 2 ^ 29
    ∧ wit_HostReadsAndWritesSlots_3.hw.dramReady = false) ∧ ((after (exec (.hostRead 1 (BitVec.ofNat 32 (8 * (9 :
    Nat))) 8 (false : Bool) (false : Bool)) wit_HostReadsAndWritesSlots_3)).hw.out.getLast? = some (.hostData [0, 0,
    0, 0, 0, 0, 0, 0] false (false : Bool) (false : Bool)) ∧ (after (exec (.hostRead 1 (BitVec.ofNat 32 (8 * (9 :
    Nat))) 8 (false : Bool) (false : Bool)) wit_HostReadsAndWritesSlots_3)).hw.f pPCIE 0 PCIE_IRQ_DRAM_NR = 1 ∧ (after
    (exec (.hostRead 1 (BitVec.ofNat 32 (8 * (9 : Nat))) 8 (false : Bool) (false : Bool))
    wit_HostReadsAndWritesSlots_3)).mem = wit_HostReadsAndWritesSlots_3.mem ∧ (after (exec (.hostRead 1 (BitVec.ofNat
    32 (8 * (9 : Nat))) 8 (false : Bool) (false : Bool)) wit_HostReadsAndWritesSlots_3)).tags =
    wit_HostReadsAndWritesSlots_3.tags)  := by decide +kernel

def wit_HostReadsAndWritesSlots_4 : State :=
    (up [(pPCIE, 0, PCIE_STATUS_LINK_UP, 1)] : State)

theorem test_HostReadsAndWritesSlots_4 :
    (hostUp wit_HostReadsAndWritesSlots_4.hw = true ∧
    wit_HostReadsAndWritesSlots_4.hw.mayRead ⟨.host, 1⟩ ⟨15, (0x38 : Fin 64)⟩ = true) ∧ ((after (exec (.hostRead 0
    (BitVec.ofNat 32 (8 * (256 * (0x38 : Fin 64) + (0x83 : Fin 256)))) 8 (false : Bool) (false : Bool))
    wit_HostReadsAndWritesSlots_4)).hw.out = (wit_HostReadsAndWritesSlots_4.pageRead ⟨.host, 1⟩ ⟨15, (0x38 : Fin 64)⟩
    (0x83 : Fin 256)).1.hw.out ++ [.hostData (slotBytes (wit_HostReadsAndWritesSlots_4.pageRead ⟨.host, 1⟩ ⟨15, (0x38
    : Fin 64)⟩ (0x83 : Fin 256)).2.2 0) false (false : Bool) (false : Bool)] ∧ (after (exec (.hostRead 0 (BitVec.ofNat
    32 (8 * (256 * (0x38 : Fin 64) + (0x83 : Fin 256)))) 8 (false : Bool) (false : Bool))
    wit_HostReadsAndWritesSlots_4)).mem = wit_HostReadsAndWritesSlots_4.mem ∧ (after (exec (.hostRead 0 (BitVec.ofNat
    32 (8 * (256 * (0x38 : Fin 64) + (0x83 : Fin 256)))) 8 (false : Bool) (false : Bool))
    wit_HostReadsAndWritesSlots_4)).tags = wit_HostReadsAndWritesSlots_4.tags)  := by decide +kernel

def wit_HostReadsAndWritesSlots_5 : State :=
    (up [(pPCIE, 0, PCIE_STATUS_LINK_UP, 1), (pDRAM, 0,
    DRAM_STATUS_READY, 1)] : State)

theorem test_HostReadsAndWritesSlots_5 :
    (hostUp wit_HostReadsAndWritesSlots_5.hw = true ∧ (9 : Nat) < 2 ^ 29
    ∧ wit_HostReadsAndWritesSlots_5.hw.dramReady = true ∧ wit_HostReadsAndWritesSlots_5.hw.memStopped (0x10000000 + (9
    : Nat)) = false ∧ ([0x55, 0x44, 0x33, 0x22, 0x11, 0xFF, 0xFF, 0xFF] : List (BitVec 8)).length = 8)
     := by decide +kernel

def wit_HostReadsAndWritesSlots_6 : State :=
    (up [(pPCIE, 0, PCIE_STATUS_LINK_UP, 1), (pDRAM, 0,
    DRAM_STATUS_READY, 1)] : State)

theorem test_HostReadsAndWritesSlots_6 :
    (hostUp wit_HostReadsAndWritesSlots_6.hw = true ∧ (9 : Nat) < 2 ^ 29)
    ∧ ((after (exec (.hostWrite 1 (BitVec.ofNat 32 (8 * (9 : Nat))) [some (0x55 : BitVec 8)])
    wit_HostReadsAndWritesSlots_6)).mem = wit_HostReadsAndWritesSlots_6.mem ∧ (after (exec (.hostWrite 1 (BitVec.ofNat
    32 (8 * (9 : Nat))) [some (0x55 : BitVec 8)]) wit_HostReadsAndWritesSlots_6)).tags =
    wit_HostReadsAndWritesSlots_6.tags ∧ (after (exec (.hostWrite 1 (BitVec.ofNat 32 (8 * (9 : Nat))) [some (0x55 :
    BitVec 8)]) wit_HostReadsAndWritesSlots_6)).hw.f pPCIE 0 PCIE_PARTIAL_CNT_COUNT =
    (wit_HostReadsAndWritesSlots_6.hw.f pPCIE 0 PCIE_PARTIAL_CNT_COUNT + 1) % 2 ^ 40) ∧ ((after (exec (.hostWrite 1
    (BitVec.ofNat 32 (8 * (9 : Nat))) [some (0x55 : BitVec 8)]) wit_HostReadsAndWritesSlots_6)).hw.f pPCIE 0
    PCIE_IRQ_PARTIAL = 1 ∧ (after (exec (.hostWrite 1 (BitVec.ofNat 32 (8 * (9 : Nat))) [some (0x55 : BitVec 8)])
    wit_HostReadsAndWritesSlots_6)).hw.f pPCIE 0 PCIE_HERR_BAR = 1 ∧ (after (exec (.hostWrite 1 (BitVec.ofNat 32 (8 *
    (9 : Nat))) [some (0x55 : BitVec 8)]) wit_HostReadsAndWritesSlots_6)).hw.f pPCIE 0 PCIE_HERR_OFFSET = 8 * (9 :
    Nat))  := by decide +kernel

def wit_HostReadsAndWritesSlots_7 : State :=
    (up [(pPCIE, 0, PCIE_STATUS_LINK_UP, 1)] : State)

theorem test_HostReadsAndWritesSlots_7 :
    (hostUp wit_HostReadsAndWritesSlots_7.hw = true ∧ (9 : Nat) < 2 ^ 29
    ∧ wit_HostReadsAndWritesSlots_7.hw.dramReady = false ∧ ([1, 2, 3, 4, 5, 6, 7, 8] : List (BitVec 8)).length = 8) ∧
    ((after (exec (.hostWrite 1 (BitVec.ofNat 32 (8 * (9 : Nat))) (([1, 2, 3, 4, 5, 6, 7, 8] : List (BitVec 8)).map
    some)) wit_HostReadsAndWritesSlots_7)).mem = wit_HostReadsAndWritesSlots_7.mem ∧ (after (exec (.hostWrite 1
    (BitVec.ofNat 32 (8 * (9 : Nat))) (([1, 2, 3, 4, 5, 6, 7, 8] : List (BitVec 8)).map some))
    wit_HostReadsAndWritesSlots_7)).tags = wit_HostReadsAndWritesSlots_7.tags ∧ (after (exec (.hostWrite 1
    (BitVec.ofNat 32 (8 * (9 : Nat))) (([1, 2, 3, 4, 5, 6, 7, 8] : List (BitVec 8)).map some))
    wit_HostReadsAndWritesSlots_7)).hw.f pPCIE 0 PCIE_IRQ_DRAM_NR = 1)  := by decide +kernel

def wit_HostReadsAndWritesSlots_8 : State :=
    (up [(pPCIE, 0, PCIE_STATUS_LINK_UP, 1), (⟨15, 0x3E⟩, 0,
    OWNER_RING, 0)] : State)

theorem test_HostReadsAndWritesSlots_8 :
    (hostUp wit_HostReadsAndWritesSlots_8.hw = true ∧ reachable
    wit_HostReadsAndWritesSlots_8.hw ⟨15, (0x3E : Fin 64)⟩ = true ∧ accepts wit_HostReadsAndWritesSlots_8.hw .host
    ⟨15, (0x3E : Fin 64)⟩ (0x80 : Fin 256) = false ∧ 0x10 ≤ (0x80 : Fin 256).val ∧ ([1, 2, 3, 4, 5, 6, 7, 8] : List
    (BitVec 8)).length = 8) ∧ ((after (exec (.hostWrite 0 (BitVec.ofNat 32 (8 * (256 * (0x3E : Fin 64) + (0x80 : Fin
    256)))) (([1, 2, 3, 4, 5, 6, 7, 8] : List (BitVec 8)).map some)) wit_HostReadsAndWritesSlots_8)).mem =
    wit_HostReadsAndWritesSlots_8.mem ∧ (after (exec (.hostWrite 0 (BitVec.ofNat 32 (8 * (256 * (0x3E : Fin 64) +
    (0x80 : Fin 256)))) (([1, 2, 3, 4, 5, 6, 7, 8] : List (BitVec 8)).map some)) wit_HostReadsAndWritesSlots_8)).tags
    = wit_HostReadsAndWritesSlots_8.tags ∧ (after (exec (.hostWrite 0 (BitVec.ofNat 32 (8 * (256 * (0x3E : Fin 64) +
    (0x80 : Fin 256)))) (([1, 2, 3, 4, 5, 6, 7, 8] : List (BitVec 8)).map some)) wit_HostReadsAndWritesSlots_8)).hw.f
    pPCIE 0 PCIE_REFUSED_CNT_COUNT = (wit_HostReadsAndWritesSlots_8.hw.f pPCIE 0 PCIE_REFUSED_CNT_COUNT + 1) % 2 ^ 40
    ∧ (after (exec (.hostWrite 0 (BitVec.ofNat 32 (8 * (256 * (0x3E : Fin 64) + (0x80 : Fin 256)))) (([1, 2, 3, 4, 5,
    6, 7, 8] : List (BitVec 8)).map some)) wit_HostReadsAndWritesSlots_8)).hw.f pPCIE 0 PCIE_IRQ_REFUSED = 1) ∧
    ((after (exec (.hostWrite 0 (BitVec.ofNat 32 (8 * (256 * (0x3E : Fin 64) + (0x80 : Fin 256)))) (([1, 2, 3, 4, 5,
    6, 7, 8] : List (BitVec 8)).map some)) wit_HostReadsAndWritesSlots_8)).hw.f pPCIE 0 PCIE_HERR_BAR = 0 ∧ (after
    (exec (.hostWrite 0 (BitVec.ofNat 32 (8 * (256 * (0x3E : Fin 64) + (0x80 : Fin 256)))) (([1, 2, 3, 4, 5, 6, 7, 8]
    : List (BitVec 8)).map some)) wit_HostReadsAndWritesSlots_8)).hw.f pPCIE 0 PCIE_HERR_OFFSET = 8 * (256 * (0x3E :
    Fin 64) + (0x80 : Fin 256)) ∧ (after (exec (.hostWrite 0 (BitVec.ofNat 32 (8 * (256 * (0x3E : Fin 64) + (0x80 :
    Fin 256)))) (([1, 2, 3, 4, 5, 6, 7, 8] : List (BitVec 8)).map some)) wit_HostReadsAndWritesSlots_8)).hw.f pDEV 0
    DEV_ACC_LOG_REQ = 0x30)  := by decide +kernel

def wit_HostReadsAndWritesSlots_9 : State :=
    ((((up [(pPCIE, 0, PCIE_STATUS_LINK_UP, 1), (pDRAM, 0,
    DRAM_STATUS_READY, 1), (pSNAP, 0x30, SNAP_LEASE_VALID, 1), (pSNAP, 0x30, SNAP_LEASE_BUF, 2)]).on (fun h => h.onDom
    (fun d => { d with stride := 9 }))).wr (0x10000000 + 8 * (2 * 16384 * 9) + 88853) 0x77).setTag (0x10000000 + 8 *
    (2 * 16384 * 9) + 88853) 0x30 : State)

theorem test_HostReadsAndWritesSlots_9 :
    (hostUp wit_HostReadsAndWritesSlots_9.hw = true ∧ (88853 : Nat) < 2 ^
    21 ∧ (88853 : Nat) < 16384 * 8 * wit_HostReadsAndWritesSlots_9.hw.dom.stride ∧ wit_HostReadsAndWritesSlots_9.hw.f
    pSNAP 0x30 SNAP_LEASE_VALID = 1) ∧ (wit_HostReadsAndWritesSlots_9.hw.memStopped (lineBase
    (wit_HostReadsAndWritesSlots_9.hw.dom.block (wit_HostReadsAndWritesSlots_9.hw.f pSNAP 0x30 SNAP_LEASE_BUF) 0) +
    (88853 : Nat)) = false ∧ wit_HostReadsAndWritesSlots_9.poisoned (lineBase
    (wit_HostReadsAndWritesSlots_9.hw.dom.block (wit_HostReadsAndWritesSlots_9.hw.f pSNAP 0x30 SNAP_LEASE_BUF) 0) +
    (88853 : Nat)) = false) ∧ ((after (exec (.snapshotWindowRead (BitVec.ofNat 24 (8 * (88853 : Nat))) 8)
    wit_HostReadsAndWritesSlots_9)) = wit_HostReadsAndWritesSlots_9.on (fun h =>
    { h with out := h.out ++ [.hostData (slotBytes (wit_HostReadsAndWritesSlots_9.rd (lineBase (h.dom.block (h.f pSNAP 0x30 SNAP_LEASE_BUF) 0) + (88853 : Nat))) (wit_HostReadsAndWritesSlots_9.tag (lineBase (h.dom.block (h.f pSNAP 0x30 SNAP_LEASE_BUF) 0) + (88853 : Nat))).toNat) false false false] }))
     := by decide +kernel

def wit_HostReadsAndWritesSlots_10 : State :=
    ((up [(pPCIE, 0, PCIE_STATUS_LINK_UP, 1), (pDRAM, 0,
    DRAM_STATUS_READY, 1)]).on (fun h => h.onDom (fun d => { d with stride := 9 })) : State)

theorem test_HostReadsAndWritesSlots_10 :
    (hostUp wit_HostReadsAndWritesSlots_10.hw = true ∧ (88853 : Nat) < 2
    ^ 21 ∧ (wit_HostReadsAndWritesSlots_10.hw.f pSNAP 0x30 SNAP_LEASE_VALID = 0 ∨ 16384 * 8 *
    wit_HostReadsAndWritesSlots_10.hw.dom.stride ≤ (88853 : Nat))) ∧ ((after (exec (.snapshotWindowRead (BitVec.ofNat
    24 (8 * (88853 : Nat))) 8) wit_HostReadsAndWritesSlots_10)) = wit_HostReadsAndWritesSlots_10.on (fun h =>
    { h with out := h.out ++ [.hostData [0, 0, 0, 0, 0, 0, 0, 0] false false false] }))  := by decide +kernel

def wit_HostReadsAndWritesSlots_11 : State :=
    ((((up [(pPCIE, 0, PCIE_STATUS_LINK_UP, 1), (pDRAM, 0,
    DRAM_STATUS_READY, 1), (pHAMPER, 0, HAMPER_STATUS_STATE, 4), (pHAMPER, 0, HAMPER_LAST_IDX_POS, 2)]).on (fun h =>
    { h with hamper := { h.hamper with base := 10, k := 4, r := 2 } })).wr (0x10000000 + 8 * 17 + 3) 99) : State)

theorem test_HostReadsAndWritesSlots_11 :
    (hostUp wit_HostReadsAndWritesSlots_11.hw = true ∧ (11 : Nat) < 2 ^
    22 ∧ wit_HostReadsAndWritesSlots_11.hw.f pHAMPER 0 HAMPER_STATUS_STATE = 4 ∧
    wit_HostReadsAndWritesSlots_11.hw.dramReady = true ∧ 0 < wit_HostReadsAndWritesSlots_11.hw.hamper.k *
    wit_HostReadsAndWritesSlots_11.hw.hamper.r) ∧ ((0x10000000 + 8 * 17 + 3 : Nat) = lineBase
    (wit_HostReadsAndWritesSlots_11.hw.hamper.base + ((wit_HostReadsAndWritesSlots_11.hw.f pHAMPER 0
    HAMPER_LAST_IDX_POS + 1) * wit_HostReadsAndWritesSlots_11.hw.hamper.r + wit_HostReadsAndWritesSlots_11.hw.f pPCIE
    0 PCIE_HWIN_LINE + (11 : Nat) / 8) % (wit_HostReadsAndWritesSlots_11.hw.hamper.k *
    wit_HostReadsAndWritesSlots_11.hw.hamper.r)) + (11 : Nat) % 8) ∧ (wit_HostReadsAndWritesSlots_11.hw.memStopped
    (0x10000000 + 8 * 17 + 3 : Nat) = false ∧ wit_HostReadsAndWritesSlots_11.poisoned (0x10000000 + 8 * 17 + 3 : Nat)
    = false) ∧ ((after (exec (.hamperWindowRead (BitVec.ofNat 25 (8 * (11 : Nat))) 8) wit_HostReadsAndWritesSlots_11))
    = wit_HostReadsAndWritesSlots_11.on (fun h =>
    { h with out := h.out ++ [.hostData (slotBytes (wit_HostReadsAndWritesSlots_11.rd (0x10000000 + 8 * 17 + 3 : Nat)) (wit_HostReadsAndWritesSlots_11.tag (0x10000000 + 8 * 17 + 3 : Nat)).toNat) false false false] }))
     := by decide +kernel

def wit_HostReadsAndWritesSlots_12 : State :=
    (up [(pPCIE, 0, PCIE_STATUS_LINK_UP, 1), (pDRAM, 0,
    DRAM_STATUS_READY, 1)] : State)

theorem test_HostReadsAndWritesSlots_12 :
    (hostUp wit_HostReadsAndWritesSlots_12.hw = true ∧ (11 : Nat) < 2 ^
    22 ∧ wit_HostReadsAndWritesSlots_12.hw.f pHAMPER 0 HAMPER_STATUS_STATE ≠ 4 ∧
    wit_HostReadsAndWritesSlots_12.hw.dramReady = true) ∧ ((after (exec (.hamperWindowRead (BitVec.ofNat 25 (8 * (11 :
    Nat))) 8) wit_HostReadsAndWritesSlots_12)) = wit_HostReadsAndWritesSlots_12.on (fun h =>
    { h with out := h.out ++ [.hostData [0, 0, 0, 0, 0, 0, 0, 0] false false false] }))  := by decide +kernel

def wit_MsixAndHostResets_1 : State :=
    ((up [(pPCIE, 0, PCIE_STATUS_LINK_UP, 1)]).on (fun h =>
    { h with msixEn := true, vectors := [(5, ⟨true, false, false, 0xFEE0, 5⟩)] }) : State)

theorem test_MsixAndHostResets_1 :
    (accepts wit_MsixAndHostResets_1.hw .host pPCIE = true ∧ (vec
    wit_MsixAndHostResets_1.hw (5 : Fin 256)).req = true ∧ (vec wit_MsixAndHostResets_1.hw (5 : Fin 256)).masked =
    false ∧ wit_MsixAndHostResets_1.hw.msixEn = true ∧ wit_MsixAndHostResets_1.hw.fmask = false ∧
    wit_MsixAndHostResets_1.hw.f pPCIE 0 PCIE_STATUS_LINK_UP = 1)  := by decide +kernel

def wit_MsixAndHostResets_2 : State :=
    (up [] : State)

theorem test_MsixAndHostResets_2 :
    (accepts wit_MsixAndHostResets_2.hw .host pPCIE = true ∧ (vec
    wit_MsixAndHostResets_2.hw (5 : Fin 256)).req = false) ∧ ((after (exec (.pcieVack .host (5 : Fin 256))
    wit_MsixAndHostResets_2)).hw.out = wit_MsixAndHostResets_2.hw.out ∧ (after (exec (.pcieVack .host (5 : Fin 256))
    wit_MsixAndHostResets_2)).hw.vectors = wit_MsixAndHostResets_2.hw.vectors ∧ (after (exec (.pcieVack .host (5 : Fin
    256)) wit_MsixAndHostResets_2)).hw.regs = wit_MsixAndHostResets_2.hw.regs ∧ (after (exec (.pcieVack .host (5 : Fin
    256)) wit_MsixAndHostResets_2)).mem = wit_MsixAndHostResets_2.mem)  := by decide +kernel

def wit_MsixAndHostResets_3 : State :=
    ((up [(pPCIE, 0, PCIE_STATUS_LINK_UP, 1)]).on (fun h =>
    { h with msixEn := true, vectors := [(0xC4, ⟨false, false, false, 0xFEE0, 5⟩)] }) : State)

theorem test_MsixAndHostResets_3 :
    (accepts wit_MsixAndHostResets_3.hw (.core 3 : Requester) pPCIE = true ∧
    (0xC4 : Nat) = 0xC0 + (0 : Fin 2).val * 0x20 + (4 : Fin 32).val ∧ wit_MsixAndHostResets_3.hw.f pPCIE 0
    PCIE_STATUS_LINK_UP = 1) ∧ (if wit_MsixAndHostResets_3.hw.msixEn = true ∧ wit_MsixAndHostResets_3.hw.fmask = false
    ∧ (vec wit_MsixAndHostResets_3.hw (0xC4 : Nat)).masked = false then (after (exec (.pcieVfire (.core 3 : Requester)
    (0 : Fin 2) (w40 (2 ^ (4 : Fin 32).val))) wit_MsixAndHostResets_3)).hw.out = wit_MsixAndHostResets_3.hw.out ++
    [.msix (0xC4 : Nat) (vec wit_MsixAndHostResets_3.hw (0xC4 : Nat)).addr (vec wit_MsixAndHostResets_3.hw (0xC4 :
    Nat)).data] ∧ (vec (after (exec (.pcieVfire (.core 3 : Requester) (0 : Fin 2) (w40 (2 ^ (4 : Fin 32).val)))
    wit_MsixAndHostResets_3)).hw (0xC4 : Nat)).pend = false else True) ∧ (if wit_MsixAndHostResets_3.hw.msixEn = true
    ∧ wit_MsixAndHostResets_3.hw.fmask = false ∧ (vec wit_MsixAndHostResets_3.hw (0xC4 : Nat)).masked = true then
    (after (exec (.pcieVfire (.core 3 : Requester) (0 : Fin 2) (w40 (2 ^ (4 : Fin 32).val)))
    wit_MsixAndHostResets_3)).hw.out = wit_MsixAndHostResets_3.hw.out ∧ (vec (after (exec (.pcieVfire (.core 3 :
    Requester) (0 : Fin 2) (w40 (2 ^ (4 : Fin 32).val))) wit_MsixAndHostResets_3)).hw (0xC4 : Nat)).pend = true else
    True) ∧ ((after (exec (.pcieVfire (.core 3 : Requester) (0 : Fin 2) (w40 (2 ^ (4 : Fin 32).val)))
    wit_MsixAndHostResets_3)).hw.regs = wit_MsixAndHostResets_3.hw.regs ∧ (after (exec (.pcieVfire (.core 3 :
    Requester) (0 : Fin 2) (w40 (2 ^ (4 : Fin 32).val))) wit_MsixAndHostResets_3)).mem = wit_MsixAndHostResets_3.mem)
     := by decide +kernel

def wit_MsixAndHostResets_4 : State :=
    ((up [(pPCIE, 0, PCIE_STATUS_LINK_UP, 1)]).on (fun h =>
    { h with vectors := [(0xC4, ⟨false, true, false, 0xFEE0, 5⟩)] }) : State)

theorem test_MsixAndHostResets_4 :
    (wit_MsixAndHostResets_4.hw.f pPCIE 0 PCIE_STATUS_LINK_UP = 1 ∧
    wit_MsixAndHostResets_4.hw.vectors = [((0xC4 : Nat), (⟨false, true, false, 0xFEE0, 5⟩ : Vector))] ∧ (⟨false, true,
    false, 0xFEE0, 5⟩ : Vector).pend = true ∧ (⟨false, true, false, 0xFEE0, 5⟩ : Vector).masked = false) ∧ ((after
    (exec (.configurationWrite (.msix true false)) wit_MsixAndHostResets_4)).hw.msixEn = true ∧ (after (exec
    (.configurationWrite (.msix true false)) wit_MsixAndHostResets_4)).hw.fmask = false ∧ (after (exec
    (.configurationWrite (.msix true false)) wit_MsixAndHostResets_4)).hw.out = wit_MsixAndHostResets_4.hw.out ++
    [.msix (0xC4 : Nat) (⟨false, true, false, 0xFEE0, 5⟩ : Vector).addr (⟨false, true, false, 0xFEE0, 5⟩ :
    Vector).data] ∧ (vec (after (exec (.configurationWrite (.msix true false)) wit_MsixAndHostResets_4)).hw (0xC4 :
    Nat)).pend = false ∧ (after (exec (.configurationWrite (.msix true false)) wit_MsixAndHostResets_4)).hw.regs =
    wit_MsixAndHostResets_4.hw.regs ∧ (after (exec (.configurationWrite (.msix true false))
    wit_MsixAndHostResets_4)).mem = wit_MsixAndHostResets_4.mem)  := by decide +kernel

def wit_MsixAndHostResets_5 : State :=
    (up [(pPCIE, 0, PCIE_STATUS_LINK_UP, 1)] : State)

theorem test_MsixAndHostResets_5 :
    (wit_MsixAndHostResets_5.hw.f pPCIE 0 PCIE_STATUS_LINK_UP = 1) ∧ ((after
    (exec (.configurationWrite (.power (true : Bool))) wit_MsixAndHostResets_5)).hw.f pPCIE 0 PCIE_STATUS_D3 = b2n
    (true : Bool) ∧ (after (exec (.configurationWrite (.power (true : Bool))) wit_MsixAndHostResets_5)).hw.out =
    wit_MsixAndHostResets_5.hw.out ∧ (after (exec (.configurationWrite (.power (true : Bool)))
    wit_MsixAndHostResets_5)).mem = wit_MsixAndHostResets_5.mem)  := by decide +kernel

def wit_MsixAndHostResets_6 : State :=
    (up [(pPCIE, 0, PCIE_STATUS_LINK_UP, 1)] : State)

theorem test_MsixAndHostResets_6 :
    (wit_MsixAndHostResets_6.hw.f pPCIE 0 PCIE_STATUS_LINK_UP = 1) ∧ ((after
    (exec (.configurationWrite (.devCtl (true : Bool) (false : Bool) (2 : Fin 8) (5 : Fin 8)))
    wit_MsixAndHostResets_6)).hw.devCtl = ⟨(true : Bool), (false : Bool), (2 : Fin 8), (5 : Fin 8)⟩ ∧ (after (exec
    (.configurationWrite (.devCtl (true : Bool) (false : Bool) (2 : Fin 8) (5 : Fin 8)))
    wit_MsixAndHostResets_6)).hw.regs = wit_MsixAndHostResets_6.hw.regs ∧ (after (exec (.configurationWrite (.devCtl
    (true : Bool) (false : Bool) (2 : Fin 8) (5 : Fin 8))) wit_MsixAndHostResets_6)).hw.out =
    wit_MsixAndHostResets_6.hw.out ∧ (after (exec (.configurationWrite (.devCtl (true : Bool) (false : Bool) (2 : Fin
    8) (5 : Fin 8))) wit_MsixAndHostResets_6)).mem = wit_MsixAndHostResets_6.mem)  := by decide +kernel

def wit_MsixAndHostResets_7 : State :=
    (up [] : State)

theorem test_MsixAndHostResets_7 :
    (wit_MsixAndHostResets_7.hw.f pPCIE 0 PCIE_STATUS_LINK_UP = 0 ∧
    wit_MsixAndHostResets_7.hw.domainRuns 38 = true) ∧ ((after (exec (.pcieLinkUp (4 : Fin 6) (3 : Fin 4) (true :
    Bool)) wit_MsixAndHostResets_7)).hw.f pPCIE 0 PCIE_STATUS_LINK_UP = 1 ∧ (after (exec (.pcieLinkUp (4 : Fin 6) (3 :
    Fin 4) (true : Bool)) wit_MsixAndHostResets_7)).hw.f pPCIE 0 PCIE_STATUS_RATE = (4 : Fin 6) ∧ (after (exec
    (.pcieLinkUp (4 : Fin 6) (3 : Fin 4) (true : Bool)) wit_MsixAndHostResets_7)).hw.f pPCIE 0 PCIE_STATUS_WIDTH = (3
    : Fin 4) ∧ (after (exec (.pcieLinkUp (4 : Fin 6) (3 : Fin 4) (true : Bool)) wit_MsixAndHostResets_7)).mem =
    wit_MsixAndHostResets_7.mem) ∧ ((after (exec (.pcieLinkUp (4 : Fin 6) (3 : Fin 4) (true : Bool))
    wit_MsixAndHostResets_7)).hw.f pPCIE 0 PCIE_STATUS_FLIT = b2n ((4 : Fin 6).val == 5 || ((4 : Fin 6).val == 4 &&
    (true : Bool) && wit_MsixAndHostResets_7.hw.b pPCIE 0 PCIE_CTRL_FLIT32)))  := by decide +kernel

def wit_MsixAndHostResets_8 : State :=
    ((up [(pPCIE, 0, PCIE_STATUS_LINK_UP, 1)]).on (fun h =>
    { h with msixEn := true }) : State)

theorem test_MsixAndHostResets_8 :
    (wit_MsixAndHostResets_8.hw.f pPCIE 0 PCIE_STATUS_LINK_UP = 1 ∧ (List.range
    16).all (fun ch => wit_MsixAndHostResets_8.hw.mstate ⟨none, ch⟩ != 3) = true)  := by decide +kernel

def wit_MsixAndHostResets_9 : State :=
    (up [(pPCIE, 0, PCIE_STATUS_LINK_UP, 1)] : State)

theorem test_MsixAndHostResets_9 :
    ((List.range 16).all (fun ch => wit_MsixAndHostResets_9.hw.mstate ⟨none,
    ch⟩ != 3) = true)  := by decide +kernel

def wit_MailboxesCarryMessages_1 : State :=
    (((up [(pDL 0, 0, DL_NODE_JSTATE, 2), (pDL 0, 0, DL_NODE_ID, 5),
    (pDRAM, 0, DRAM_STATUS_READY, 1)]).on (fun h => h.onDom (fun d => { d with routes := [(9, some 2)] }))).wr
    0x10000001 77 : State)

theorem test_MailboxesCarryMessages_1 :
    (accepts wit_MailboxesCarryMessages_1.hw (.core 0 : Requester) pMBOX =
    true ∧ (0 : Nat) = wit_MailboxesCarryMessages_1.hw.chsel pMBOX (.core 0 : Requester) ∧ (0 : Nat) < 64 ∧ firstCause
    (mtxCauses wit_MailboxesCarryMessages_1.hw (0 : Nat) (0x0000308009 : Word)) = 0 ∧ (9 : Nat) = (0x0000308009 :
    Word).toNat % 16384 ∧ goesBy wit_MailboxesCarryMessages_1.hw (9 : Nat) (2 : Nat) ∧ (0 : Nat) =
    (wit_MailboxesCarryMessages_1.hw.sendOf ⟨2, false, (9 : Nat)⟩).next ∧ wit_MailboxesCarryMessages_1.hw.dramReady =
    true) ∧ (((after (exec (.mailboxSend (.core 0 : Requester) (0x0000308009 : Word))
    wit_MailboxesCarryMessages_1)).hw.port (2 : Nat)).txq = (wit_MailboxesCarryMessages_1.hw.port (2 : Nat)).txq ++
    [⟨4, 0, mboxFrame (9 : Nat) wit_MailboxesCarryMessages_1.hw.nodeId 1 (0 : Nat) (bitsOf (0x0000308009 : Word).toNat
    14 6 * 2 ^ 32 + (0 : Nat) * 2 ^ 26 + bitsOf (0x0000308009 : Word).toNat 20 7) (wit_MailboxesCarryMessages_1.rdList
    (wit_MailboxesCarryMessages_1.hw.mboxBase (0 : Nat)) (bitsOf (0x0000308009 : Word).toNat 20 7))⟩]) ∧ ((after (exec
    (.mailboxSend (.core 0 : Requester) (0x0000308009 : Word)) wit_MailboxesCarryMessages_1)).hw.f pMBOX (0 : Nat)
    MBOX_MSTAT_TXBUSY = 1 ∧ (after (exec (.mailboxSend (.core 0 : Requester) (0x0000308009 : Word))
    wit_MailboxesCarryMessages_1)).mem = wit_MailboxesCarryMessages_1.mem ∧ (after (exec (.mailboxSend (.core 0 :
    Requester) (0x0000308009 : Word)) wit_MailboxesCarryMessages_1)).tags = wit_MailboxesCarryMessages_1.tags)
     := by decide +kernel

def wit_MailboxesCarryMessages_2 : State :=
    (up [] : State)

theorem test_MailboxesCarryMessages_2 :
    (accepts wit_MailboxesCarryMessages_2.hw (.core 0 : Requester) pMBOX =
    true ∧ (0 : Nat) = wit_MailboxesCarryMessages_2.hw.chsel pMBOX (.core 0 : Requester) ∧ (0 : Nat) < 64 ∧ firstCause
    (mtxCauses wit_MailboxesCarryMessages_2.hw (0 : Nat) (0x0006408009 : Word)) ≠ 0) ∧ ((after (exec (.mailboxSend
    (.core 0 : Requester) (0x0006408009 : Word)) wit_MailboxesCarryMessages_2)).hw.f pMBOX (0 : Nat) MBOX_MSTAT_TXERR
    = firstCause (mtxCauses wit_MailboxesCarryMessages_2.hw (0 : Nat) (0x0006408009 : Word)) ∧ (after (exec
    (.mailboxSend (.core 0 : Requester) (0x0006408009 : Word)) wit_MailboxesCarryMessages_2)).hw.ports =
    wit_MailboxesCarryMessages_2.hw.ports ∧ (after (exec (.mailboxSend (.core 0 : Requester) (0x0006408009 : Word))
    wit_MailboxesCarryMessages_2)).hw.dom = wit_MailboxesCarryMessages_2.hw.dom ∧ (after (exec (.mailboxSend (.core 0
    : Requester) (0x0006408009 : Word)) wit_MailboxesCarryMessages_2)).mem = wit_MailboxesCarryMessages_2.mem ∧ (after
    (exec (.mailboxSend (.core 0 : Requester) (0x0006408009 : Word)) wit_MailboxesCarryMessages_2)).tags =
    wit_MailboxesCarryMessages_2.tags)  := by decide +kernel

def wit_MailboxesCarryMessages_3 : State :=
    (up [(pMBOX, 3, MBOX_MSTAT_TXBUSY, 1)] : State)

theorem test_MailboxesCarryMessages_3 :
    (wit_MailboxesCarryMessages_3.hw.f pMBOX (3 : Fin 64)
    MBOX_MSTAT_TXBUSY = 1 ∧ wit_MailboxesCarryMessages_3.hw.mboxQueued (3 : Fin 64) = false) ∧ ((after (exec
    (.mailboxSent (3 : Fin 64)) wit_MailboxesCarryMessages_3)).hw.f pMBOX (3 : Fin 64) MBOX_MSTAT_TXBUSY = 0 ∧ (after
    (exec (.mailboxSent (3 : Fin 64)) wit_MailboxesCarryMessages_3)).hw.f pMBOX (3 : Fin 64) MBOX_MSTAT_TXDONE = 1 ∧
    (after (exec (.mailboxSent (3 : Fin 64)) wit_MailboxesCarryMessages_3)).hw.f pMBOX 0 MBOX_IRQ_TXDONE = 1 ∧ (after
    (exec (.mailboxSent (3 : Fin 64)) wit_MailboxesCarryMessages_3)).mem = wit_MailboxesCarryMessages_3.mem ∧ (after
    (exec (.mailboxSent (3 : Fin 64)) wit_MailboxesCarryMessages_3)).hw.ports = wit_MailboxesCarryMessages_3.hw.ports)
     := by decide +kernel

def wit_MailboxesCarryMessages_4 : State :=
    ((up [(pMBOX, 3, MBOX_MSTAT_TXBUSY, 1), (pDL 0, 0, DL_NODE_ID,
    5)]).on (fun h => h.setPort 2 { txq := [⟨4, 0, ⟨9, 5, 2, 0, 1, 0, [0x00C000001]⟩⟩] }) : State)

theorem test_MailboxesCarryMessages_4 :
    ((⟨4, 0, ⟨9, 5, 2, 0, 1, 0, [0x00C000001]⟩⟩ : Held) ∈
    (wit_MailboxesCarryMessages_4.hw.port (2 : Fin 4)).txq ∧ (⟨4, 0, ⟨9, 5, 2, 0, 1, 0, [0x00C000001]⟩⟩ : Held).port =
    4 ∧ (⟨4, 0, ⟨9, 5, 2, 0, 1, 0, [0x00C000001]⟩⟩ : Held).frame.tc = 2 ∧ (⟨4, 0, ⟨9, 5, 2, 0, 1, 0, [0x00C000001]⟩⟩ :
    Held).frame.kind = 1 ∧ (⟨4, 0, ⟨9, 5, 2, 0, 1, 0, [0x00C000001]⟩⟩ : Held).frame.src =
    wit_MailboxesCarryMessages_4.hw.nodeId ∧ bitsOf ((⟨4, 0, ⟨9, 5, 2, 0, 1, 0, [0x00C000001]⟩⟩ :
    Held).frame.words.getD 0 0).toNat 26 6 = (3 : Fin 64)) ∧ ((after (exec (.mailboxSent (3 : Fin 64))
    wit_MailboxesCarryMessages_4)) = wit_MailboxesCarryMessages_4)  := by decide +kernel

def wit_MailboxesCarryMessages_5 : State :=
    ((up [(pDL 0, 0, DL_NODE_JSTATE, 2), (pDL 0, 0, DL_NODE_ID,
    5)]).on (fun h => h.onDom (fun d =>
    { d with routes := [(9, some 2)], rxq := [⟨1, 1, ⟨5, 9, 2, 2, 1, 33, [0x0114000002, 7, 8]⟩⟩] })) : State)

theorem test_MailboxesCarryMessages_5 :
    (wit_MailboxesCarryMessages_5.hw.dom.rxq = [⟨(1 : Nat), (1 : Nat),
    (⟨5, 9, 2, 2, 1, 33, [0x0114000002, 7, 8]⟩ : Frame)⟩] ∧ (⟨5, 9, 2, 2, 1, 33, [0x0114000002, 7, 8]⟩ : Frame).tc = 2
    ∧ (⟨5, 9, 2, 2, 1, 33, [0x0114000002, 7, 8]⟩ : Frame).kind = 1 ∧ (0x0114000002 : Nat) = ((⟨5, 9, 2, 2, 1, 33,
    [0x0114000002, 7, 8]⟩ : Frame).words.getD 0 0).toNat ∧ (1 : Nat) = bitsOf (0x0114000002 : Nat) 32 6 ∧ goesBy
    wit_MailboxesCarryMessages_5.hw (⟨5, 9, 2, 2, 1, 33, [0x0114000002, 7, 8]⟩ : Frame).src (2 : Nat) ∧ (0 : Nat) =
    (wit_MailboxesCarryMessages_5.hw.sendOf ⟨2, false, (⟨5, 9, 2, 2, 1, 33, [0x0114000002, 7, 8]⟩ : Frame).src⟩).next)
    ∧ (wit_MailboxesCarryMessages_5.hw.f pMBOX (1 : Nat) MBOX_MCFG_EN = 0 ∨ wit_MailboxesCarryMessages_5.hw.f pMBOX (1
    : Nat) MBOX_MRXDONE_RXCNT = 4) ∧ (((after (exec .mboxMsg wit_MailboxesCarryMessages_5)).hw.port (2 : Nat)).txq =
    (wit_MailboxesCarryMessages_5.hw.port (2 : Nat)).txq ++ [⟨4, 0, mboxFrame (⟨5, 9, 2, 2, 1, 33, [0x0114000002, 7,
    8]⟩ : Frame).src wit_MailboxesCarryMessages_5.hw.nodeId 2 (0 : Nat) ((1 : Nat) * 2 ^ 32 + bitsOf (0x0114000002 :
    Nat) 26 6 * 2 ^ 26 + (if wit_MailboxesCarryMessages_5.hw.f pMBOX (1 : Nat) MBOX_MCFG_EN = 0 then 2 else 1)) []⟩])
    ∧ ((after (exec .mboxMsg wit_MailboxesCarryMessages_5)).hw.dom.rxq = [] ∧ (after (exec .mboxMsg
    wit_MailboxesCarryMessages_5)).mem = wit_MailboxesCarryMessages_5.mem ∧ (after (exec .mboxMsg
    wit_MailboxesCarryMessages_5)).tags = wit_MailboxesCarryMessages_5.tags ∧ (after (exec .mboxMsg
    wit_MailboxesCarryMessages_5)).hw.f pMBOX (1 : Nat) MBOX_MRXDONE_RXCNT = wit_MailboxesCarryMessages_5.hw.f pMBOX
    (1 : Nat) MBOX_MRXDONE_RXCNT)  := by decide +kernel

def wit_MailboxesCarryMessages_6 : State :=
    ((up [(pMBOX, 1, MBOX_MCFG_EN, 1), (pMBOX, 1, MBOX_MSTAT_WR, 3),
    (pDRAM, 0, DRAM_STATUS_READY, 1)]).on (fun h => h.onDom (fun d =>
    { d with rxq := [⟨1, 1, ⟨5, 9, 2, 2, 1, 33, [0x0114000002, 7, 8]⟩⟩] })) : State)

theorem test_MailboxesCarryMessages_6 :
    (wit_MailboxesCarryMessages_6.hw.dom.rxq = [⟨(1 : Nat), (1 : Nat),
    (⟨5, 9, 2, 2, 1, 33, [0x0114000002, 7, 8]⟩ : Frame)⟩] ∧ (⟨5, 9, 2, 2, 1, 33, [0x0114000002, 7, 8]⟩ : Frame).tc = 2
    ∧ (⟨5, 9, 2, 2, 1, 33, [0x0114000002, 7, 8]⟩ : Frame).kind = 1 ∧ (0x0114000002 : Nat) = ((⟨5, 9, 2, 2, 1, 33,
    [0x0114000002, 7, 8]⟩ : Frame).words.getD 0 0).toNat ∧ (1 : Nat) = bitsOf (0x0114000002 : Nat) 32 6 ∧ (⟨5, 9, 2,
    2, 1, 33, [0x0114000002, 7, 8]⟩ : Frame).words.length = (0x0114000002 : Nat) % 128 + 1 ∧ (0x0114000002 : Nat) %
    128 ≤ 99) ∧ (wit_MailboxesCarryMessages_6.hw.f pMBOX (1 : Nat) MBOX_MCFG_EN = 1 ∧
    wit_MailboxesCarryMessages_6.hw.f pMBOX (1 : Nat) MBOX_MRXDONE_RXCNT < 4 ∧
    wit_MailboxesCarryMessages_6.hw.dramReady = true ∧ (0x10000000 + 1024 + 128 + 128 * 3 : Nat) =
    wit_MailboxesCarryMessages_6.hw.mboxBase (1 : Nat) + 128 + 128 * wit_MailboxesCarryMessages_6.hw.f pMBOX (1 : Nat)
    MBOX_MSTAT_WR)  := by decide +kernel

def wit_MailboxesCarryMessages_7 : State :=
    ((up []).on (fun h => h.onDom (fun d =>
    { d with rxq := [⟨1, 1, ⟨5, 9, 2, 2, 2, 33, [0x0114000002]⟩⟩] })) : State)

theorem test_MailboxesCarryMessages_7 :
    (wit_MailboxesCarryMessages_7.hw.dom.rxq = [⟨(1 : Nat), (1 : Nat),
    (⟨5, 9, 2, 2, 2, 33, [0x0114000002]⟩ : Frame)⟩] ∧ (⟨5, 9, 2, 2, 2, 33, [0x0114000002]⟩ : Frame).tc = 2 ∧ (⟨5, 9,
    2, 2, 2, 33, [0x0114000002]⟩ : Frame).kind = 2 ∧ (0x0114000002 : Nat) = ((⟨5, 9, 2, 2, 2, 33, [0x0114000002]⟩ :
    Frame).words.getD 0 0).toNat ∧ (5 : Nat) = bitsOf (0x0114000002 : Nat) 26 6) ∧ ((after (exec .mboxNak
    wit_MailboxesCarryMessages_7)).hw.f pMBOX (5 : Nat) MBOX_MSTAT_NAKED = 1 ∧ (after (exec .mboxNak
    wit_MailboxesCarryMessages_7)).hw.f pMBOX (5 : Nat) MBOX_MSTAT_NAK_CAUSE = (0x0114000002 : Nat) % 4 ∧ (after (exec
    .mboxNak wit_MailboxesCarryMessages_7)).hw.f pMBOX 0 MBOX_IRQ_NAK = 1 ∧ (after (exec .mboxNak
    wit_MailboxesCarryMessages_7)).hw.dom.rxq = [] ∧ (after (exec .mboxNak wit_MailboxesCarryMessages_7)).mem =
    wit_MailboxesCarryMessages_7.mem)  := by decide +kernel

def wit_MailboxesCarryMessages_8 : State :=
    (up [(pMBOX, 0, MBOX_MRXDONE_RXCNT, 3), (pMBOX, 0, MBOX_MSTAT_RD,
    3)] : State)

theorem test_MailboxesCarryMessages_8 :
    (accepts wit_MailboxesCarryMessages_8.hw (.core 0 : Requester) pMBOX =
    true ∧ (0 : Nat) = wit_MailboxesCarryMessages_8.hw.chsel pMBOX (.core 0 : Requester)) ∧ (if
    wit_MailboxesCarryMessages_8.hw.f pMBOX (0 : Nat) MBOX_MRXDONE_RXCNT = 0 then (after (exec (.mboxRxdone (.core 0 :
    Requester)) wit_MailboxesCarryMessages_8)).hw.f pMBOX (0 : Nat) MBOX_MRXDONE_RXCNT = 0 ∧ (after (exec (.mboxRxdone
    (.core 0 : Requester)) wit_MailboxesCarryMessages_8)).hw.f pMBOX (0 : Nat) MBOX_MSTAT_RD =
    wit_MailboxesCarryMessages_8.hw.f pMBOX (0 : Nat) MBOX_MSTAT_RD else (after (exec (.mboxRxdone (.core 0 :
    Requester)) wit_MailboxesCarryMessages_8)).hw.f pMBOX (0 : Nat) MBOX_MRXDONE_RXCNT =
    wit_MailboxesCarryMessages_8.hw.f pMBOX (0 : Nat) MBOX_MRXDONE_RXCNT - 1 ∧ (after (exec (.mboxRxdone (.core 0 :
    Requester)) wit_MailboxesCarryMessages_8)).hw.f pMBOX (0 : Nat) MBOX_MSTAT_RD = (wit_MailboxesCarryMessages_8.hw.f
    pMBOX (0 : Nat) MBOX_MSTAT_RD + 1) % 4) ∧ ((after (exec (.mboxRxdone (.core 0 : Requester))
    wit_MailboxesCarryMessages_8)).mem = wit_MailboxesCarryMessages_8.mem ∧ (after (exec (.mboxRxdone (.core 0 :
    Requester)) wit_MailboxesCarryMessages_8)).hw.ports = wit_MailboxesCarryMessages_8.hw.ports ∧ (after (exec
    (.mboxRxdone (.core 0 : Requester)) wit_MailboxesCarryMessages_8)).hw.dom = wit_MailboxesCarryMessages_8.hw.dom)
     := by decide +kernel

def wit_EthernetPortsMoveFrames_1 : State :=
    (up [(pETH 1, 0, ETH_CTRL_EN, 1)] : State)

theorem test_EthernetPortsMoveFrames_1 :
    (wit_EthernetPortsMoveFrames_1.hw.b (pETH (1 : Fin 2)) 0 ETH_CTRL_EN
    = true ∧ wit_EthernetPortsMoveFrames_1.hw.domainRuns (46 + (1 : Fin 2)) = true ∧ ((true : Bool) = false ∨ ([1, 2,
    3] : List (BitVec 8)).length < 60 ∨ 1518 < ([1, 2, 3] : List (BitVec 8)).length)) ∧ ((after (exec
    (.ethFrameReceive (1 : Fin 2) ([1, 2, 3] : List (BitVec 8)) (true : Bool) (0 : Fin 64))
    wit_EthernetPortsMoveFrames_1)).mem = wit_EthernetPortsMoveFrames_1.mem ∧ (after (exec (.ethFrameReceive (1 : Fin
    2) ([1, 2, 3] : List (BitVec 8)) (true : Bool) (0 : Fin 64)) wit_EthernetPortsMoveFrames_1)).hw.f (pETH (1 : Fin
    2)) 0 ETH_DROP_CNT_COUNT = (wit_EthernetPortsMoveFrames_1.hw.f (pETH (1 : Fin 2)) 0 ETH_DROP_CNT_COUNT + 1) % 2 ^
    40 ∧ (after (exec (.ethFrameReceive (1 : Fin 2) ([1, 2, 3] : List (BitVec 8)) (true : Bool) (0 : Fin 64))
    wit_EthernetPortsMoveFrames_1)).hw.f (pETH (1 : Fin 2)) 0 ETH_IRQ_DROP = 1 ∧ (after (exec (.ethFrameReceive (1 :
    Fin 2) ([1, 2, 3] : List (BitVec 8)) (true : Bool) (0 : Fin 64)) wit_EthernetPortsMoveFrames_1)).hw.f (pETH (1 :
    Fin 2)) 0 ETH_RX_CNT_COUNT = wit_EthernetPortsMoveFrames_1.hw.f (pETH (1 : Fin 2)) 0 ETH_RX_CNT_COUNT)
     := by decide +kernel

def wit_EthernetPortsMoveFrames_2 : State :=
    (up [(pETH 0, 0, ETH_CTRL_EN, 1), (pETH 0, 0, ETH_RXSIZE_WORDS,
    100), (pETH 0, 0, ETH_RXBASE_ADDR, 0x4000100), (pETH 0, 0, ETH_RXWR_PTR, 10)] : State)

theorem test_EthernetPortsMoveFrames_2 :
    (frameGood wit_EthernetPortsMoveFrames_2.hw (0 : Fin 2)
    ((List.replicate 60 0xFF : List (BitVec 8)).map (·.toNat)) = true ∧ wit_EthernetPortsMoveFrames_2.hw.toService (0
    : Fin 2) ((List.replicate 60 0xFF : List (BitVec 8)).map (·.toNat)) = none ∧ (100 : Nat) =
    wit_EthernetPortsMoveFrames_2.hw.f (pETH (0 : Fin 2)) 0 ETH_RXSIZE_WORDS ∧ (0x4000100 : Nat) =
    wit_EthernetPortsMoveFrames_2.hw.f (pETH (0 : Fin 2)) 0 ETH_RXBASE_ADDR ∧ (10 : Nat) =
    wit_EthernetPortsMoveFrames_2.hw.f (pETH (0 : Fin 2)) 0 ETH_RXWR_PTR ∧ (15 : Nat) = 3 + ((List.replicate 60 0xFF :
    List (BitVec 8)).length + 4) / 5) ∧ ((10 : Nat) + (15 : Nat) ≤ (100 : Nat) ∧ wit_EthernetPortsMoveFrames_2.hw.f
    (pETH (0 : Fin 2)) 0 ETH_RXRD_PTR < (100 : Nat) ∧ (15 : Nat) ≤ ringFree (100 : Nat) (10 : Nat)
    (wit_EthernetPortsMoveFrames_2.hw.f (pETH (0 : Fin 2)) 0 ETH_RXRD_PTR) ∧ (List.range (15 : Nat)).all (fun i =>
    wit_EthernetPortsMoveFrames_2.hw.sramOk ((0x4000100 : Nat) + (10 : Nat) + i)) = true)  := by decide +kernel

def wit_EthernetPortsMoveFrames_3 : State :=
    (up [(pETH 0, 0, ETH_CTRL_EN, 1), (pETH 0, 0, ETH_RXSIZE_WORDS,
    20), (pETH 0, 0, ETH_RXWR_PTR, 10), (pETH 0, 0, ETH_RXRD_PTR, 18)] : State)

theorem test_EthernetPortsMoveFrames_3 :
    (frameGood wit_EthernetPortsMoveFrames_3.hw (0 : Fin 2)
    ((List.replicate 60 0xFF : List (BitVec 8)).map (·.toNat)) = true ∧ wit_EthernetPortsMoveFrames_3.hw.toService (0
    : Fin 2) ((List.replicate 60 0xFF : List (BitVec 8)).map (·.toNat)) = none ∧ (20 : Nat) =
    wit_EthernetPortsMoveFrames_3.hw.f (pETH (0 : Fin 2)) 0 ETH_RXSIZE_WORDS ∧ (10 : Nat) =
    wit_EthernetPortsMoveFrames_3.hw.f (pETH (0 : Fin 2)) 0 ETH_RXWR_PTR ∧ (18 : Nat) =
    wit_EthernetPortsMoveFrames_3.hw.f (pETH (0 : Fin 2)) 0 ETH_RXRD_PTR ∧ (10 : Nat) < (20 : Nat) ∧ (18 : Nat) < (20
    : Nat)) ∧ (ringFree (20 : Nat) (10 : Nat) (18 : Nat) < 3 + ((List.replicate 60 0xFF : List (BitVec 8)).length + 4)
    / 5) ∧ ((after (exec (.ethFrameReceive (0 : Fin 2) (List.replicate 60 0xFF : List (BitVec 8)) true (5 : Fin 64))
    wit_EthernetPortsMoveFrames_3)).mem = wit_EthernetPortsMoveFrames_3.mem ∧ (after (exec (.ethFrameReceive (0 : Fin
    2) (List.replicate 60 0xFF : List (BitVec 8)) true (5 : Fin 64)) wit_EthernetPortsMoveFrames_3)).hw.f (pETH (0 :
    Fin 2)) 0 ETH_DROP_CNT_COUNT = (wit_EthernetPortsMoveFrames_3.hw.f (pETH (0 : Fin 2)) 0 ETH_DROP_CNT_COUNT + 1) %
    2 ^ 40 ∧ (after (exec (.ethFrameReceive (0 : Fin 2) (List.replicate 60 0xFF : List (BitVec 8)) true (5 : Fin 64))
    wit_EthernetPortsMoveFrames_3)).hw.f (pETH (0 : Fin 2)) 0 ETH_IRQ_DROP = 1 ∧ (after (exec (.ethFrameReceive (0 :
    Fin 2) (List.replicate 60 0xFF : List (BitVec 8)) true (5 : Fin 64)) wit_EthernetPortsMoveFrames_3)).hw.f (pETH (0
    : Fin 2)) 0 ETH_RXWR_PTR = (10 : Nat))  := by decide +kernel

def wit_EthernetPortsMoveFrames_4 : State :=
    (up [(pETH 0, 0, ETH_CTRL_EN, 1), (pETH 0, 0, ETH_IPV4_ADDR,
    0x0A000001), (pSVC, 0, SVC_CTRL_EN, 1)] : State)

theorem test_EthernetPortsMoveFrames_4 :
    (frameGood wit_EthernetPortsMoveFrames_4.hw (0 : Fin 2)
    ((List.replicate 6 0xFF ++ [2, 0, 0, 0, 0, 1, 8, 0, 0x45, 0, 0, 44, 0, 0, 0, 0, 64, 17, 0, 0, 10, 0, 0, 9, 10, 0,
    0, 1, 0x12, 0x34, 0x9E, 0x20, 0, 24, 0, 0, 0x47, 0x53, 1, 6, 3, 0, 0, 0, 0, 0, 0, 0, 0, 0, 0, 0, 0, 0] : List
    (BitVec 8)).map (·.toNat)) = true ∧ wit_EthernetPortsMoveFrames_4.hw.toService (0 : Fin 2) ((List.replicate 6 0xFF
    ++ [2, 0, 0, 0, 0, 1, 8, 0, 0x45, 0, 0, 44, 0, 0, 0, 0, 64, 17, 0, 0, 10, 0, 0, 9, 10, 0, 0, 1, 0x12, 0x34, 0x9E,
    0x20, 0, 24, 0, 0, 0x47, 0x53, 1, 6, 3, 0, 0, 0, 0, 0, 0, 0, 0, 0, 0, 0, 0, 0] : List (BitVec 8)).map (·.toNat)) =
    some (⟨0, false, 0x0A000009, 0x1234, [0x47, 0x53, 1, 6, 3, 0, 0, 0, 0, 0, 0, 0, 0, 0, 0, 0]⟩ : Dgram) ∧
    wit_EthernetPortsMoveFrames_4.hw.b pSVC 0 SVC_CTRL_EN = true ∧ wit_EthernetPortsMoveFrames_4.hw.domainRuns 33 =
    true ∧ svcMessage (⟨0, false, 0x0A000009, 0x1234, [0x47, 0x53, 1, 6, 3, 0, 0, 0, 0, 0, 0, 0, 0, 0, 0, 0]⟩ :
    Dgram).bytes = true) ∧ ((after (exec (.ethFrameReceive (0 : Fin 2) (List.replicate 6 0xFF ++ [2, 0, 0, 0, 0, 1, 8,
    0, 0x45, 0, 0, 44, 0, 0, 0, 0, 64, 17, 0, 0, 10, 0, 0, 9, 10, 0, 0, 1, 0x12, 0x34, 0x9E, 0x20, 0, 24, 0, 0, 0x47,
    0x53, 1, 6, 3, 0, 0, 0, 0, 0, 0, 0, 0, 0, 0, 0, 0, 0] : List (BitVec 8)) true (5 : Fin 64))
    wit_EthernetPortsMoveFrames_4)).hw.svcq = wit_EthernetPortsMoveFrames_4.hw.svcq ++ [(⟨0, false, 0x0A000009,
    0x1234, [0x47, 0x53, 1, 6, 3, 0, 0, 0, 0, 0, 0, 0, 0, 0, 0, 0]⟩ : Dgram)] ∧ (after (exec (.ethFrameReceive (0 :
    Fin 2) (List.replicate 6 0xFF ++ [2, 0, 0, 0, 0, 1, 8, 0, 0x45, 0, 0, 44, 0, 0, 0, 0, 64, 17, 0, 0, 10, 0, 0, 9,
    10, 0, 0, 1, 0x12, 0x34, 0x9E, 0x20, 0, 24, 0, 0, 0x47, 0x53, 1, 6, 3, 0, 0, 0, 0, 0, 0, 0, 0, 0, 0, 0, 0, 0] :
    List (BitVec 8)) true (5 : Fin 64)) wit_EthernetPortsMoveFrames_4)).mem = wit_EthernetPortsMoveFrames_4.mem ∧
    (after (exec (.ethFrameReceive (0 : Fin 2) (List.replicate 6 0xFF ++ [2, 0, 0, 0, 0, 1, 8, 0, 0x45, 0, 0, 44, 0,
    0, 0, 0, 64, 17, 0, 0, 10, 0, 0, 9, 10, 0, 0, 1, 0x12, 0x34, 0x9E, 0x20, 0, 24, 0, 0, 0x47, 0x53, 1, 6, 3, 0, 0,
    0, 0, 0, 0, 0, 0, 0, 0, 0, 0, 0] : List (BitVec 8)) true (5 : Fin 64)) wit_EthernetPortsMoveFrames_4)).hw.f (pETH
    (0 : Fin 2)) 0 ETH_RX_CNT_COUNT = (wit_EthernetPortsMoveFrames_4.hw.f (pETH (0 : Fin 2)) 0 ETH_RX_CNT_COUNT + 1) %
    2 ^ 40)  := by decide +kernel

def wit_EthernetPortsMoveFrames_5 : State :=
    ((up [(pETH 0, 0, ETH_CTRL_EN, 1), (pETH 0, 0, ETH_TXSIZE_WORDS,
    100), (pETH 0, 0, ETH_TXBASE_ADDR, 0x4000100), (pETH 0, 0, ETH_TXWR_PTR, 13)]).wr 0x4000100 0x0A5001003C : State)

theorem test_EthernetPortsMoveFrames_5 :
    (txRecordIs wit_EthernetPortsMoveFrames_5 (0 : Fin 2) (0x0A5001003C :
    Nat) (List.replicate 60 0 : List Nat) = true ∧ bitOf (0x0A5001003C : Nat) 38 = false ∧ bitOf (0x0A5001003C : Nat)
    17 = false) ∧ ((wit_EthernetPortsMoveFrames_5.hw.out ++ [Out.eth (0 : Fin 2) (List.replicate 60 0 : List Nat)])
    <+: (after (exec (.ethFrameTransmit (0 : Fin 2) (3 : Fin 64)) wit_EthernetPortsMoveFrames_5)).hw.out ∧ (after
    (exec (.ethFrameTransmit (0 : Fin 2) (3 : Fin 64)) wit_EthernetPortsMoveFrames_5)).mem =
    wit_EthernetPortsMoveFrames_5.mem ∧ (after (exec (.ethFrameTransmit (0 : Fin 2) (3 : Fin 64))
    wit_EthernetPortsMoveFrames_5)).hw.f (pETH (0 : Fin 2)) 0 ETH_TX_CNT_COUNT = (wit_EthernetPortsMoveFrames_5.hw.f
    (pETH (0 : Fin 2)) 0 ETH_TX_CNT_COUNT + 1) % 2 ^ 40) ∧ ((after (exec (.ethFrameTransmit (0 : Fin 2) (3 : Fin 64))
    wit_EthernetPortsMoveFrames_5)).hw.f (pETH (0 : Fin 2)) 0 ETH_TXRD_PTR = (wit_EthernetPortsMoveFrames_5.hw.f (pETH
    (0 : Fin 2)) 0 ETH_TXRD_PTR + 1 + ((0x0A5001003C : Nat) % 65536 + 4) / 5) % wit_EthernetPortsMoveFrames_5.hw.f
    (pETH (0 : Fin 2)) 0 ETH_TXSIZE_WORDS) ∧ ((after (exec (.ethFrameTransmit (0 : Fin 2) (3 : Fin 64))
    wit_EthernetPortsMoveFrames_5)).hw.txts.at [] (0 : Fin 2) = (if bitOf (0x0A5001003C : Nat) 16 = true then
    (wit_EthernetPortsMoveFrames_5.hw.txts.at [] (0 : Fin 2)).drop ((wit_EthernetPortsMoveFrames_5.hw.txts.at [] (0 :
    Fin 2)).length - 15) ++ [⟨bitsOf (0x0A5001003C : Nat) 28 8, wit_EthernetPortsMoveFrames_5.hw.domTime + (3 : Fin
    64)⟩] else wit_EthernetPortsMoveFrames_5.hw.txts.at [] (0 : Fin 2))) ∧ (if bitOf (0x0A5001003C : Nat) 16 = true ∧
    16 ≤ (wit_EthernetPortsMoveFrames_5.hw.txts.at [] (0 : Fin 2)).length then (after (exec (.ethFrameTransmit (0 :
    Fin 2) (3 : Fin 64)) wit_EthernetPortsMoveFrames_5)).hw.f (pETH (0 : Fin 2)) 0 ETH_IRQ_TXTS_OVF = 1 else True)
     := by decide +kernel

def wit_EthernetPortsMoveFrames_6 : State :=
    ((up [(pETH 0, 0, ETH_CTRL_EN, 1), (pETH 0, 0, ETH_TXSIZE_WORDS,
    100), (pETH 0, 0, ETH_TXBASE_ADDR, 0x4000100), (pETH 0, 0, ETH_TXWR_PTR, 13)]).wr 0x4000100 0x3A003C : State)

theorem test_EthernetPortsMoveFrames_6 :
    (txRecordIs wit_EthernetPortsMoveFrames_6 (0 : Fin 2) (0x3A003C :
    Nat) (List.replicate 60 0 : List Nat) = true ∧ bitOf (0x3A003C : Nat) 38 = false ∧ bitOf (0x3A003C : Nat) 17 =
    true ∧ (14 : Nat) = bitsOf (0x3A003C : Nat) 18 10 ∧ 14 ≤ (14 : Nat) ∧ (14 : Nat) + 44 ≤ (List.replicate 60 0 :
    List Nat).length ∧ (etherType (List.replicate 60 0 : List Nat)).1 ≠ 0x0800 ∧ (etherType (List.replicate 60 0 :
    List Nat)).1 ≠ 0x86DD) ∧ ((3 : Nat) = wit_EthernetPortsMoveFrames_6.hw.domTime + (3 : Fin 64) ∧ (0 : Int) = sx 64
    (wit_EthernetPortsMoveFrames_6.hw.f (pETH (0 : Fin 2)) 0 ETH_PTPOFS_L_NS + wit_EthernetPortsMoveFrames_6.hw.f
    (pETH (0 : Fin 2)) 0 ETH_PTPOFS_H_NS * 2 ^ 40) + ((5 * (3 : Nat) / 128 : Nat) : Int))  := by decide +kernel

def wit_EthernetPortsMoveFrames_7 : State :=
    ((up []).on (fun h =>
    { h with txts := [(0, [⟨0xA5, 0x1234567890123⟩, ⟨1, 2⟩])] }) : State)

theorem test_EthernetPortsMoveFrames_7 :
    (wit_EthernetPortsMoveFrames_7.hw.mayRead
    (wit_EthernetPortsMoveFrames_7.hw.acc (.core 2 : Requester)) (pETH (0 : Fin 2)) = true ∧
    wit_EthernetPortsMoveFrames_7.hw.txts.at [] (0 : Fin 2) = (⟨0xA5, 0x1234567890123⟩ : TxStamp) :: ([⟨1, 2⟩] : List
    TxStamp)) ∧ ((after (exec (.txtsRead (.core 2 : Requester) (0 : Fin 2)) wit_EthernetPortsMoveFrames_7)).hw.resp =
    [w40 (⟨0xA5, 0x1234567890123⟩ : TxStamp).time] ∧ (after (exec (.txtsRead (.core 2 : Requester) (0 : Fin 2))
    wit_EthernetPortsMoveFrames_7)).hw.txts.at [] (0 : Fin 2) = ([⟨1, 2⟩] : List TxStamp) ∧ ((after (exec (.txtsRead
    (.core 2 : Requester) (0 : Fin 2)) wit_EthernetPortsMoveFrames_7)).hw.pair (pETH (0 : Fin 2)) 0x90 0 (.core 2 :
    Requester)).cap = some (w40 (2 ^ 32 + (⟨0xA5, 0x1234567890123⟩ : TxStamp).tag % 256 * 2 ^ 24 + (⟨0xA5,
    0x1234567890123⟩ : TxStamp).time / 2 ^ 40 % 2 ^ 24)) ∧ (after (exec (.txtsRead (.core 2 : Requester) (0 : Fin 2))
    wit_EthernetPortsMoveFrames_7)).hw.regs = wit_EthernetPortsMoveFrames_7.hw.regs ∧ (after (exec (.txtsRead (.core 2
    : Requester) (0 : Fin 2)) wit_EthernetPortsMoveFrames_7)).mem = wit_EthernetPortsMoveFrames_7.mem)
     := by decide +kernel

def wit_EthernetPortsMoveFrames_8 : State :=
    (up [] : State)

theorem test_EthernetPortsMoveFrames_8 :
    (accepts wit_EthernetPortsMoveFrames_8.hw (.core 0 : Requester) (pETH
    0) = true) ∧ (if wit_EthernetPortsMoveFrames_8.hw.f (pETH 0) 0 ETH_MDIO_STAT_BUSY = 0 then (after (exec
    (.mdioWrite (.core 0 : Requester) (0x8300000000 : Word)) wit_EthernetPortsMoveFrames_8)).hw.f (pETH 0) 0
    ETH_MDIO_STAT_BUSY = 1 ∧ (after (exec (.mdioWrite (.core 0 : Requester) (0x8300000000 : Word))
    wit_EthernetPortsMoveFrames_8)).hw.out = wit_EthernetPortsMoveFrames_8.hw.out ++ [.mdio (0x8300000000 : Word)]
    else (after (exec (.mdioWrite (.core 0 : Requester) (0x8300000000 : Word)) wit_EthernetPortsMoveFrames_8)).hw.out
    = wit_EthernetPortsMoveFrames_8.hw.out ∧ (after (exec (.mdioWrite (.core 0 : Requester) (0x8300000000 : Word))
    wit_EthernetPortsMoveFrames_8)).hw.regs = wit_EthernetPortsMoveFrames_8.hw.regs) ∧ ((after (exec (.mdioWrite
    (.core 0 : Requester) (0x8300000000 : Word)) wit_EthernetPortsMoveFrames_8)).mem =
    wit_EthernetPortsMoveFrames_8.mem)  := by decide +kernel

def wit_EthernetPortsMoveFrames_9 : State :=
    ((up [(pETH 0, 0, ETH_MDIO_STAT_BUSY, 1)]).on (fun h =>
    { h with mdioRead := true }) : State)

theorem test_EthernetPortsMoveFrames_9 :
    (wit_EthernetPortsMoveFrames_9.hw.f (pETH 0) 0 ETH_MDIO_STAT_BUSY =
    1) ∧ ((after (exec (.mdioDone (0x1234 : BitVec 16)) wit_EthernetPortsMoveFrames_9)).hw.f (pETH 0) 0
    ETH_MDIO_STAT_BUSY = 0 ∧ (after (exec (.mdioDone (0x1234 : BitVec 16)) wit_EthernetPortsMoveFrames_9)).hw.f (pETH
    0) 0 ETH_MDIO_STAT_DATA = (if wit_EthernetPortsMoveFrames_9.hw.mdioRead = true then (0x1234 : BitVec 16).toNat
    else wit_EthernetPortsMoveFrames_9.hw.f (pETH 0) 0 ETH_MDIO_STAT_DATA) ∧ (after (exec (.mdioDone (0x1234 : BitVec
    16)) wit_EthernetPortsMoveFrames_9)).mem = wit_EthernetPortsMoveFrames_9.mem)  := by decide +kernel

def wit_EthernetPortsMoveFrames_10 : State :=
    (up [] : State)

theorem test_EthernetPortsMoveFrames_10 :
    ((after (exec (.ethLinkChg (1 : Fin 2) (true : Bool) (false : Bool))
    wit_EthernetPortsMoveFrames_10)).hw.f (pETH (1 : Fin 2)) 0 ETH_STATUS_LINK = b2n ((true : Bool) && !(false :
    Bool)) ∧ (after (exec (.ethLinkChg (1 : Fin 2) (true : Bool) (false : Bool)) wit_EthernetPortsMoveFrames_10)).hw.f
    (pETH (1 : Fin 2)) 0 ETH_STATUS_BLOCK_LOCK = b2n (true : Bool) ∧ (after (exec (.ethLinkChg (1 : Fin 2) (true :
    Bool) (false : Bool)) wit_EthernetPortsMoveFrames_10)).hw.f (pETH (1 : Fin 2)) 0 ETH_STATUS_HI_BER = b2n (false :
    Bool) ∧ (after (exec (.ethLinkChg (1 : Fin 2) (true : Bool) (false : Bool)) wit_EthernetPortsMoveFrames_10)).mem =
    wit_EthernetPortsMoveFrames_10.mem) ∧ (if wit_EthernetPortsMoveFrames_10.hw.b (pETH (1 : Fin 2)) 0 ETH_STATUS_LINK
    = ((true : Bool) && !(false : Bool)) then (after (exec (.ethLinkChg (1 : Fin 2) (true : Bool) (false : Bool))
    wit_EthernetPortsMoveFrames_10)).hw.f (pETH (1 : Fin 2)) 0 ETH_IRQ_LINK_CHG = wit_EthernetPortsMoveFrames_10.hw.f
    (pETH (1 : Fin 2)) 0 ETH_IRQ_LINK_CHG else (after (exec (.ethLinkChg (1 : Fin 2) (true : Bool) (false : Bool))
    wit_EthernetPortsMoveFrames_10)).hw.f (pETH (1 : Fin 2)) 0 ETH_IRQ_LINK_CHG = 1)  := by decide +kernel

def wit_SessionsOpenStreamAndClose_1 : State :=
    ((up []).on (fun h =>
    { h with svcAccess := 7, svcq := [⟨1, false, 9, 0x1234, [0x47, 0x53, 1, 1, 0xFF, 0xFF, 8, 0, 0, 0, 0, 0, 0, 0, 0, 0, 7, 0, 0, 0, 100, 0, 0, 0]⟩] })
    : State)

theorem test_SessionsOpenStreamAndClose_1 :
    (arrived wit_SessionsOpenStreamAndClose_1 (⟨1, false, 9, 0x1234,
    [0x47, 0x53, 1, 1, 0xFF, 0xFF, 8, 0, 0, 0, 0, 0, 0, 0, 0, 0, 7, 0, 0, 0, 100, 0, 0, 0]⟩ : Dgram) 1 ∧ (⟨1, false,
    9, 0x1234, [0x47, 0x53, 1, 1, 0xFF, 0xFF, 8, 0, 0, 0, 0, 0, 0, 0, 0, 0, 7, 0, 0, 0, 100, 0, 0, 0]⟩ : Dgram).port <
    2 ∧ firstCause (openCauses wit_SessionsOpenStreamAndClose_1.hw (⟨1, false, 9, 0x1234, [0x47, 0x53, 1, 1, 0xFF,
    0xFF, 8, 0, 0, 0, 0, 0, 0, 0, 0, 0, 7, 0, 0, 0, 100, 0, 0, 0]⟩ : Dgram)) = 0 ∧ (0 : Nat) < 4096 ∧
    wit_SessionsOpenStreamAndClose_1.hw.session (0 : Nat) = none ∧ (List.range (0 : Nat)).all (fun j =>
    (wit_SessionsOpenStreamAndClose_1.hw.session j).isSome) = true)  := by decide +kernel

def wit_SessionsOpenStreamAndClose_2 : State :=
    ((up []).on (fun h =>
    { h with svcAccess := 7, svcq := [⟨1, false, 9, 0x1234, [0x47, 0x53, 1, 1, 0xFF, 0xFF, 8, 0, 0, 0, 0, 0, 0, 0, 0, 0, 6, 0, 0, 0, 100, 0, 0, 0]⟩] })
    : State)

theorem test_SessionsOpenStreamAndClose_2 :
    (arrived wit_SessionsOpenStreamAndClose_2 (⟨1, false, 9, 0x1234,
    [0x47, 0x53, 1, 1, 0xFF, 0xFF, 8, 0, 0, 0, 0, 0, 0, 0, 0, 0, 6, 0, 0, 0, 100, 0, 0, 0]⟩ : Dgram) 1 ∧ firstCause
    (openCauses wit_SessionsOpenStreamAndClose_2.hw (⟨1, false, 9, 0x1234, [0x47, 0x53, 1, 1, 0xFF, 0xFF, 8, 0, 0, 0,
    0, 0, 0, 0, 0, 0, 6, 0, 0, 0, 100, 0, 0, 0]⟩ : Dgram)) ≠ 0) ∧ ((wit_SessionsOpenStreamAndClose_2.hw.out ++
    [Out.dgram (⟨1, false, 9, 0x1234, [0x47, 0x53, 1, 1, 0xFF, 0xFF, 8, 0, 0, 0, 0, 0, 0, 0, 0, 0, 6, 0, 0, 0, 100, 0,
    0, 0]⟩ : Dgram).port (⟨1, false, 9, 0x1234, [0x47, 0x53, 1, 1, 0xFF, 0xFF, 8, 0, 0, 0, 0, 0, 0, 0, 0, 0, 6, 0, 0,
    0, 100, 0, 0, 0]⟩ : Dgram).v6 (⟨1, false, 9, 0x1234, [0x47, 0x53, 1, 1, 0xFF, 0xFF, 8, 0, 0, 0, 0, 0, 0, 0, 0, 0,
    6, 0, 0, 0, 100, 0, 0, 0]⟩ : Dgram).addr (⟨1, false, 9, 0x1234, [0x47, 0x53, 1, 1, 0xFF, 0xFF, 8, 0, 0, 0, 0, 0,
    0, 0, 0, 0, 6, 0, 0, 0, 100, 0, 0, 0]⟩ : Dgram).udp (svcBytes 8 (leAt (⟨1, false, 9, 0x1234, [0x47, 0x53, 1, 1,
    0xFF, 0xFF, 8, 0, 0, 0, 0, 0, 0, 0, 0, 0, 6, 0, 0, 0, 100, 0, 0, 0]⟩ : Dgram).bytes 4 2) 0 (firstCause (openCauses
    wit_SessionsOpenStreamAndClose_2.hw (⟨1, false, 9, 0x1234, [0x47, 0x53, 1, 1, 0xFF, 0xFF, 8, 0, 0, 0, 0, 0, 0, 0,
    0, 0, 6, 0, 0, 0, 100, 0, 0, 0]⟩ : Dgram))) [])]) <+: (after (exec .svcOpen
    wit_SessionsOpenStreamAndClose_2)).hw.out ∧ (after (exec .svcOpen wit_SessionsOpenStreamAndClose_2)).hw.sess =
    wit_SessionsOpenStreamAndClose_2.hw.sess) ∧ ((after (exec .svcOpen wit_SessionsOpenStreamAndClose_2)).hw.f pSVC 0
    SVC_BAD_CNT_COUNT = (wit_SessionsOpenStreamAndClose_2.hw.f pSVC 0 SVC_BAD_CNT_COUNT + 1) % 2 ^ 40 ∧ (after (exec
    .svcOpen wit_SessionsOpenStreamAndClose_2)).hw.f pSVC 0 SVC_IRQ_OPEN_REF = 1 ∧ (after (exec .svcOpen
    wit_SessionsOpenStreamAndClose_2)).hw.svcq = [] ∧ (after (exec .svcOpen wit_SessionsOpenStreamAndClose_2)).mem =
    wit_SessionsOpenStreamAndClose_2.mem)  := by decide +kernel

def wit_SessionsOpenStreamAndClose_3 : State :=
    ((up []).on (fun h =>
    { h with svcq := [⟨1, false, 9, 0x1234, [0x47, 0x53, 1, 6, 3, 0, 0, 0, 0, 0, 0, 0, 0, 0, 0, 0]⟩] }) : State)

theorem test_SessionsOpenStreamAndClose_3 :
    ((((.svcKeepalive : Instr) = .svcSubscribe ∧ (6 : Nat) = 3) ∨
    ((.svcKeepalive : Instr) = .svcKeepalive ∧ (6 : Nat) = 6) ∨ ((.svcKeepalive : Instr) = .svcClose ∧ (6 : Nat) = 7))
    ∧ arrived wit_SessionsOpenStreamAndClose_3 (⟨1, false, 9, 0x1234, [0x47, 0x53, 1, 6, 3, 0, 0, 0, 0, 0, 0, 0, 0, 0,
    0, 0]⟩ : Dgram) (6 : Nat) ∧ (wit_SessionsOpenStreamAndClose_3.hw.session (leAt (⟨1, false, 9, 0x1234, [0x47, 0x53,
    1, 6, 3, 0, 0, 0, 0, 0, 0, 0, 0, 0, 0, 0]⟩ : Dgram).bytes 4 2)).all (fun x => !x.from (⟨1, false, 9, 0x1234,
    [0x47, 0x53, 1, 6, 3, 0, 0, 0, 0, 0, 0, 0, 0, 0, 0, 0]⟩ : Dgram)) = true) ∧ ((after (exec (.svcKeepalive : Instr)
    wit_SessionsOpenStreamAndClose_3)).hw.out = wit_SessionsOpenStreamAndClose_3.hw.out ++ [.dgram (⟨1, false, 9,
    0x1234, [0x47, 0x53, 1, 6, 3, 0, 0, 0, 0, 0, 0, 0, 0, 0, 0, 0]⟩ : Dgram).port (⟨1, false, 9, 0x1234, [0x47, 0x53,
    1, 6, 3, 0, 0, 0, 0, 0, 0, 0, 0, 0, 0, 0]⟩ : Dgram).v6 (⟨1, false, 9, 0x1234, [0x47, 0x53, 1, 6, 3, 0, 0, 0, 0, 0,
    0, 0, 0, 0, 0, 0]⟩ : Dgram).addr (⟨1, false, 9, 0x1234, [0x47, 0x53, 1, 6, 3, 0, 0, 0, 0, 0, 0, 0, 0, 0, 0, 0]⟩ :
    Dgram).udp (svcBytes 8 (leAt (⟨1, false, 9, 0x1234, [0x47, 0x53, 1, 6, 3, 0, 0, 0, 0, 0, 0, 0, 0, 0, 0, 0]⟩ :
    Dgram).bytes 4 2) 0 (if wit_SessionsOpenStreamAndClose_3.hw.session (leAt (⟨1, false, 9, 0x1234, [0x47, 0x53, 1,
    6, 3, 0, 0, 0, 0, 0, 0, 0, 0, 0, 0, 0]⟩ : Dgram).bytes 4 2) = none then 8 else 9) [])]) ∧ ((after (exec
    (.svcKeepalive : Instr) wit_SessionsOpenStreamAndClose_3)).hw.sess = wit_SessionsOpenStreamAndClose_3.hw.sess ∧
    (after (exec (.svcKeepalive : Instr) wit_SessionsOpenStreamAndClose_3)).hw.svcq = [] ∧ (after (exec (.svcKeepalive
    : Instr) wit_SessionsOpenStreamAndClose_3)).hw.f pSVC 0 SVC_BAD_CNT_COUNT = (wit_SessionsOpenStreamAndClose_3.hw.f
    pSVC 0 SVC_BAD_CNT_COUNT + 1) % 2 ^ 40 ∧ (after (exec (.svcKeepalive : Instr)
    wit_SessionsOpenStreamAndClose_3)).mem = wit_SessionsOpenStreamAndClose_3.mem)  := by decide +kernel

def wit_SessionsOpenStreamAndClose_4 : State :=
    ((up []).on (fun h =>
    { h with sess := [(3, some ⟨1, false, 9, 4660, 100, 0, none, 0, 0, [], 1, none, false⟩)], svcq := [⟨1, false, 9, 4660, [0x47, 0x53, 1, 3, 3, 0, 16, 0, 5, 0, 0, 0, 0, 0, 0, 0, 4, 0, 1, 0, 1, 0, 0, 0, 0, 0, 0, 0, 0, 1, 0, 4]⟩] })
    : State)

theorem test_SessionsOpenStreamAndClose_4 :
    (arrived wit_SessionsOpenStreamAndClose_4 (⟨1, false, 9, 4660,
    [0x47, 0x53, 1, 3, 3, 0, 16, 0, 5, 0, 0, 0, 0, 0, 0, 0, 4, 0, 1, 0, 1, 0, 0, 0, 0, 0, 0, 0, 0, 1, 0, 4]⟩ : Dgram)
    3 ∧ (3 : Nat) = leAt (⟨1, false, 9, 4660, [0x47, 0x53, 1, 3, 3, 0, 16, 0, 5, 0, 0, 0, 0, 0, 0, 0, 4, 0, 1, 0, 1,
    0, 0, 0, 0, 0, 0, 0, 0, 1, 0, 4]⟩ : Dgram).bytes 4 2 ∧ wit_SessionsOpenStreamAndClose_4.hw.session (3 : Nat) =
    some (⟨1, false, 9, 4660, 100, 0, none, 0, 0, [], 1, none, false⟩ : Session) ∧ (⟨1, false, 9, 4660, 100, 0, none,
    0, 0, [], 1, none, false⟩ : Session).from (⟨1, false, 9, 4660, [0x47, 0x53, 1, 3, 3, 0, 16, 0, 5, 0, 0, 0, 0, 0,
    0, 0, 4, 0, 1, 0, 1, 0, 0, 0, 0, 0, 0, 0, 0, 1, 0, 4]⟩ : Dgram) = true ∧ (⟨1, false, 9, 4660, 100, 0, none, 0, 0,
    [], 1, none, false⟩ : Session).subSeq = none ∧ (⟨1, false, 9, 4660, [0x47, 0x53, 1, 3, 3, 0, 16, 0, 5, 0, 0, 0, 0,
    0, 0, 0, 4, 0, 1, 0, 1, 0, 0, 0, 0, 0, 0, 0, 0, 1, 0, 4]⟩ : Dgram).bytes.length = 32 ∧ leAt (⟨1, false, 9, 4660,
    [0x47, 0x53, 1, 3, 3, 0, 16, 0, 5, 0, 0, 0, 0, 0, 0, 0, 4, 0, 1, 0, 1, 0, 0, 0, 0, 0, 0, 0, 0, 1, 0, 4]⟩ :
    Dgram).bytes 20 2 = 1 ∧ leAt (⟨1, false, 9, 4660, [0x47, 0x53, 1, 3, 3, 0, 16, 0, 5, 0, 0, 0, 0, 0, 0, 0, 4, 0, 1,
    0, 1, 0, 0, 0, 0, 0, 0, 0, 0, 1, 0, 4]⟩ : Dgram).bytes 22 2 = 0 ∧ leAt (⟨1, false, 9, 4660, [0x47, 0x53, 1, 3, 3,
    0, 16, 0, 5, 0, 0, 0, 0, 0, 0, 0, 4, 0, 1, 0, 1, 0, 0, 0, 0, 0, 0, 0, 0, 1, 0, 4]⟩ : Dgram).bytes 18 2 < leAt (⟨1,
    false, 9, 4660, [0x47, 0x53, 1, 3, 3, 0, 16, 0, 5, 0, 0, 0, 0, 0, 0, 0, 4, 0, 1, 0, 1, 0, 0, 0, 0, 0, 0, 0, 0, 1,
    0, 4]⟩ : Dgram).bytes 16 2) ∧ (leAt (⟨1, false, 9, 4660, [0x47, 0x53, 1, 3, 3, 0, 16, 0, 5, 0, 0, 0, 0, 0, 0, 0,
    4, 0, 1, 0, 1, 0, 0, 0, 0, 0, 0, 0, 0, 1, 0, 4]⟩ : Dgram).bytes 24 4 = 0 ∧ (0x4000100 : Nat) = leAt (⟨1, false, 9,
    4660, [0x47, 0x53, 1, 3, 3, 0, 16, 0, 5, 0, 0, 0, 0, 0, 0, 0, 4, 0, 1, 0, 1, 0, 0, 0, 0, 0, 0, 0, 0, 1, 0, 4]⟩ :
    Dgram).bytes 28 4 ∧ svcReadable (0x4000100 : Nat) = true) ∧ ((after (exec .svcSubscribe
    wit_SessionsOpenStreamAndClose_4)).hw.session (3 : Nat) = some
    { (⟨1, false, 9, 4660, 100, 0, none, 0, 0, [], 1, none, false⟩ : Session) with heard := wit_SessionsOpenStreamAndClose_4.hw.now, subSeq := some (leAt (⟨1, false, 9, 4660, [0x47, 0x53, 1, 3, 3, 0, 16, 0, 5, 0, 0, 0, 0, 0, 0, 0, 4, 0, 1, 0, 1, 0, 0, 0, 0, 0, 0, 0, 0, 1, 0, 4]⟩ : Dgram).bytes 8 4), dec := leAt (⟨1, false, 9, 4660, [0x47, 0x53, 1, 3, 3, 0, 16, 0, 5, 0, 0, 0, 0, 0, 0, 0, 4, 0, 1, 0, 1, 0, 0, 0, 0, 0, 0, 0, 0, 1, 0, 4]⟩ : Dgram).bytes 16 2, phase := leAt (⟨1, false, 9, 4660, [0x47, 0x53, 1, 3, 3, 0, 16, 0, 5, 0, 0, 0, 0, 0, 0, 0, 4, 0, 1, 0, 1, 0, 0, 0, 0, 0, 0, 0, 0, 1, 0, 4]⟩ : Dgram).bytes 18 2, refs := [.loc (0x4000100 : Nat)], due := none, seq := ((⟨1, false, 9, 4660, 100, 0, none, 0, 0, [], 1, none, false⟩ : Session).seq + 1) % 2 ^ 32 })
    ∧ ((after (exec .svcSubscribe wit_SessionsOpenStreamAndClose_4)).hw.out = wit_SessionsOpenStreamAndClose_4.hw.out
    ++ [.dgram (⟨1, false, 9, 4660, 100, 0, none, 0, 0, [], 1, none, false⟩ : Session).port (⟨1, false, 9, 4660, 100,
    0, none, 0, 0, [], 1, none, false⟩ : Session).v6 (⟨1, false, 9, 4660, 100, 0, none, 0, 0, [], 1, none, false⟩ :
    Session).addr (⟨1, false, 9, 4660, 100, 0, none, 0, 0, [], 1, none, false⟩ : Session).udp (svcBytes 4 (3 : Nat)
    (⟨1, false, 9, 4660, 100, 0, none, 0, 0, [], 1, none, false⟩ : Session).seq 0 [255, 255, 0, 0])] ∧ (after (exec
    .svcSubscribe wit_SessionsOpenStreamAndClose_4)).hw.f pSVC (3 : Nat) SVC_SSTAT_COUNT = 1 ∧ (after (exec
    .svcSubscribe wit_SessionsOpenStreamAndClose_4)).mem = wit_SessionsOpenStreamAndClose_4.mem)  := by decide +kernel

def wit_SessionsOpenStreamAndClose_5 : State :=
    ((up []).on (fun h =>
    { h with sess := [(3, some ⟨1, false, 9, 4660, 100, 0, none, 0, 0, [], 1, none, false⟩)], svcq := [⟨1, false, 9, 4660, [0x47, 0x53, 1, 3, 3, 0, 8, 0, 5, 0, 0, 0, 0, 0, 0, 0, 0, 0, 0, 0, 0, 0, 0, 0]⟩] })
    : State)

theorem test_SessionsOpenStreamAndClose_5 :
    (arrived wit_SessionsOpenStreamAndClose_5 (⟨1, false, 9, 4660,
    [0x47, 0x53, 1, 3, 3, 0, 8, 0, 5, 0, 0, 0, 0, 0, 0, 0, 0, 0, 0, 0, 0, 0, 0, 0]⟩ : Dgram) 3 ∧ (3 : Nat) = leAt (⟨1,
    false, 9, 4660, [0x47, 0x53, 1, 3, 3, 0, 8, 0, 5, 0, 0, 0, 0, 0, 0, 0, 0, 0, 0, 0, 0, 0, 0, 0]⟩ : Dgram).bytes 4 2
    ∧ wit_SessionsOpenStreamAndClose_5.hw.session (3 : Nat) = some (⟨1, false, 9, 4660, 100, 0, none, 0, 0, [], 1,
    none, false⟩ : Session) ∧ (⟨1, false, 9, 4660, 100, 0, none, 0, 0, [], 1, none, false⟩ : Session).from (⟨1, false,
    9, 4660, [0x47, 0x53, 1, 3, 3, 0, 8, 0, 5, 0, 0, 0, 0, 0, 0, 0, 0, 0, 0, 0, 0, 0, 0, 0]⟩ : Dgram) = true ∧ (⟨1,
    false, 9, 4660, 100, 0, none, 0, 0, [], 1, none, false⟩ : Session).subSeq = none ∧ (⟨1, false, 9, 4660, [0x47,
    0x53, 1, 3, 3, 0, 8, 0, 5, 0, 0, 0, 0, 0, 0, 0, 0, 0, 0, 0, 0, 0, 0, 0]⟩ : Dgram).bytes.length = 24 ∧ leAt (⟨1,
    false, 9, 4660, [0x47, 0x53, 1, 3, 3, 0, 8, 0, 5, 0, 0, 0, 0, 0, 0, 0, 0, 0, 0, 0, 0, 0, 0, 0]⟩ : Dgram).bytes 20
    2 = 0 ∧ leAt (⟨1, false, 9, 4660, [0x47, 0x53, 1, 3, 3, 0, 8, 0, 5, 0, 0, 0, 0, 0, 0, 0, 0, 0, 0, 0, 0, 0, 0, 0]⟩
    : Dgram).bytes 22 2 = 0 ∧ leAt (⟨1, false, 9, 4660, [0x47, 0x53, 1, 3, 3, 0, 8, 0, 5, 0, 0, 0, 0, 0, 0, 0, 0, 0,
    0, 0, 0, 0, 0, 0]⟩ : Dgram).bytes 16 2 = 0) ∧ ((after (exec .svcSubscribe
    wit_SessionsOpenStreamAndClose_5)).hw.session (3 : Nat) = some
    { (⟨1, false, 9, 4660, 100, 0, none, 0, 0, [], 1, none, false⟩ : Session) with heard := wit_SessionsOpenStreamAndClose_5.hw.now, seq := ((⟨1, false, 9, 4660, 100, 0, none, 0, 0, [], 1, none, false⟩ : Session).seq + 1) % 2 ^ 32 }
    ∧ (after (exec .svcSubscribe wit_SessionsOpenStreamAndClose_5)).hw.out = wit_SessionsOpenStreamAndClose_5.hw.out
    ++ [.dgram (⟨1, false, 9, 4660, 100, 0, none, 0, 0, [], 1, none, false⟩ : Session).port (⟨1, false, 9, 4660, 100,
    0, none, 0, 0, [], 1, none, false⟩ : Session).v6 (⟨1, false, 9, 4660, 100, 0, none, 0, 0, [], 1, none, false⟩ :
    Session).addr (⟨1, false, 9, 4660, 100, 0, none, 0, 0, [], 1, none, false⟩ : Session).udp (svcBytes 4 (3 : Nat)
    (⟨1, false, 9, 4660, 100, 0, none, 0, 0, [], 1, none, false⟩ : Session).seq 4 [255, 255, 0, 0])] ∧ (after (exec
    .svcSubscribe wit_SessionsOpenStreamAndClose_5)).hw.regs = wit_SessionsOpenStreamAndClose_5.hw.regs ∧ (after (exec
    .svcSubscribe wit_SessionsOpenStreamAndClose_5)).mem = wit_SessionsOpenStreamAndClose_5.mem)  := by decide +kernel

def wit_SessionsOpenStreamAndClose_6 : State :=
    ((up []).on (fun h =>
    { h with sess := [(3, some ⟨1, false, 9, 4660, 100, 0, none, 0, 0, [], 1, none, false⟩)], svcq := [⟨1, false, 9, 4660, [0x47, 0x53, 1, 6, 3, 0, 0, 0, 0, 0, 0, 0, 0, 0, 0, 0]⟩] })
    : State)

theorem test_SessionsOpenStreamAndClose_6 :
    (arrived wit_SessionsOpenStreamAndClose_6 (⟨1, false, 9, 4660,
    [0x47, 0x53, 1, 6, 3, 0, 0, 0, 0, 0, 0, 0, 0, 0, 0, 0]⟩ : Dgram) 6 ∧ wit_SessionsOpenStreamAndClose_6.hw.session
    (leAt (⟨1, false, 9, 4660, [0x47, 0x53, 1, 6, 3, 0, 0, 0, 0, 0, 0, 0, 0, 0, 0, 0]⟩ : Dgram).bytes 4 2) = some (⟨1,
    false, 9, 4660, 100, 0, none, 0, 0, [], 1, none, false⟩ : Session) ∧ (⟨1, false, 9, 4660, 100, 0, none, 0, 0, [],
    1, none, false⟩ : Session).from (⟨1, false, 9, 4660, [0x47, 0x53, 1, 6, 3, 0, 0, 0, 0, 0, 0, 0, 0, 0, 0, 0]⟩ :
    Dgram) = true)  := by decide +kernel

def wit_SessionsOpenStreamAndClose_7 : State :=
    ((up []).on (fun h =>
    { h with sess := [(3, some ⟨1, false, 9, 4660, 100, 0, none, 0, 0, [], 1, none, false⟩)], svcq := [⟨1, false, 9, 4660, [0x47, 0x53, 1, 7, 3, 0, 0, 0, 0, 0, 0, 0, 0, 0, 0, 0]⟩] })
    : State)

theorem test_SessionsOpenStreamAndClose_7 :
    (arrived wit_SessionsOpenStreamAndClose_7 (⟨1, false, 9, 4660,
    [0x47, 0x53, 1, 7, 3, 0, 0, 0, 0, 0, 0, 0, 0, 0, 0, 0]⟩ : Dgram) 7 ∧ (3 : Nat) = leAt (⟨1, false, 9, 4660, [0x47,
    0x53, 1, 7, 3, 0, 0, 0, 0, 0, 0, 0, 0, 0, 0, 0]⟩ : Dgram).bytes 4 2 ∧ wit_SessionsOpenStreamAndClose_7.hw.session
    (3 : Nat) = some (⟨1, false, 9, 4660, 100, 0, none, 0, 0, [], 1, none, false⟩ : Session) ∧ (⟨1, false, 9, 4660,
    100, 0, none, 0, 0, [], 1, none, false⟩ : Session).from (⟨1, false, 9, 4660, [0x47, 0x53, 1, 7, 3, 0, 0, 0, 0, 0,
    0, 0, 0, 0, 0, 0]⟩ : Dgram) = true)  := by decide +kernel

def wit_SessionsOpenStreamAndClose_8 : State :=
    ((up []).on (fun h =>
    { h with now := 120000000, sess := [(3, some ⟨1, false, 9, 4660, 100, 0, none, 0, 0, [], 1, none, false⟩)] }) :
    State)

theorem test_SessionsOpenStreamAndClose_8 :
    (wit_SessionsOpenStreamAndClose_8.hw.session (3 : Fin 4096) = some
    (⟨1, false, 9, 4660, 100, 0, none, 0, 0, [], 1, none, false⟩ : Session) ∧
    wit_SessionsOpenStreamAndClose_8.hw.domainRuns 33 = true ∧ (⟨1, false, 9, 4660, 100, 0, none, 0, 0, [], 1, none,
    false⟩ : Session).heard + 3 * (400000 * (⟨1, false, 9, 4660, 100, 0, none, 0, 0, [], 1, none, false⟩ :
    Session).keep) ≤ wit_SessionsOpenStreamAndClose_8.hw.now)  := by decide +kernel

def wit_SessionsOpenStreamAndClose_9 : State :=
    ((up []).on (fun h =>
    { h with sess := [(3, some ⟨1, false, 9, 4660, 100, 0, none, 0, 0, [], 1, none, false⟩)] }) : State)

theorem test_SessionsOpenStreamAndClose_9 :
    (wit_SessionsOpenStreamAndClose_9.hw.session (3 : Fin 4096) = some
    (⟨1, false, 9, 4660, 100, 0, none, 0, 0, [], 1, none, false⟩ : Session) ∧ wit_SessionsOpenStreamAndClose_9.hw.now
    < (⟨1, false, 9, 4660, 100, 0, none, 0, 0, [], 1, none, false⟩ : Session).heard + 3 * (400000 * (⟨1, false, 9,
    4660, 100, 0, none, 0, 0, [], 1, none, false⟩ : Session).keep)) ∧ ((after (exec (.svcKeepaliveTimeout (3 : Fin
    4096)) wit_SessionsOpenStreamAndClose_9)) = wit_SessionsOpenStreamAndClose_9)  := by decide +kernel

def wit_SessionsOpenStreamAndClose_10 : State :=
    (((up []).on (fun h =>
    { h with sess := [(3, some ⟨1, false, 9, 4660, 100, 0, none, 1, 0, [.loc 0x4000100], 1, some 12, true⟩)] })).wr
    0x4000100 0x1122334455 : State)

theorem test_SessionsOpenStreamAndClose_10 :
    (wit_SessionsOpenStreamAndClose_10.hw.session (3 : Fin 4096) =
    some (⟨1, false, 9, 4660, 100, 0, none, 1, 0, [.loc 0x4000100], 1, some 12, true⟩ : Session) ∧
    wit_SessionsOpenStreamAndClose_10.hw.domainRuns 33 = true ∧ (⟨1, false, 9, 4660, 100, 0, none, 1, 0, [.loc
    0x4000100], 1, some 12, true⟩ : Session).due = some (12 : Nat) ∧ (⟨1, false, 9, 4660, 100, 0, none, 1, 0, [.loc
    0x4000100], 1, some 12, true⟩ : Session).refs = [.loc (0x4000100 : Nat)] ∧ 0x04000000 ≤ (0x4000100 : Nat) ∧
    (0x4000100 : Nat) < 0x04200000 ∧ wit_SessionsOpenStreamAndClose_10.hw.memStopped (0x4000100 : Nat) = false ∧
    wit_SessionsOpenStreamAndClose_10.hw.dom.ticks = []) ∧ ((after (exec (.svcData (3 : Fin 4096))
    wit_SessionsOpenStreamAndClose_10)).hw.session (3 : Fin 4096) = some
    { (⟨1, false, 9, 4660, 100, 0, none, 1, 0, [.loc 0x4000100], 1, some 12, true⟩ : Session) with due := none, skip := false, seq := ((⟨1, false, 9, 4660, 100, 0, none, 1, 0, [.loc 0x4000100], 1, some 12, true⟩ : Session).seq + 1) % 2 ^ 32 }
    ∧ (after (exec (.svcData (3 : Fin 4096)) wit_SessionsOpenStreamAndClose_10)).hw.f pSVC (3 : Fin 4096)
    SVC_SCNT_COUNT = (wit_SessionsOpenStreamAndClose_10.hw.f pSVC (3 : Fin 4096) SVC_SCNT_COUNT + 1) % 2 ^ 40) ∧
    ((after (exec (.svcData (3 : Fin 4096)) wit_SessionsOpenStreamAndClose_10)).hw.out =
    wit_SessionsOpenStreamAndClose_10.hw.out ++ [.dgram (⟨1, false, 9, 4660, 100, 0, none, 1, 0, [.loc 0x4000100], 1,
    some 12, true⟩ : Session).port (⟨1, false, 9, 4660, 100, 0, none, 1, 0, [.loc 0x4000100], 1, some 12, true⟩ :
    Session).v6 (⟨1, false, 9, 4660, 100, 0, none, 1, 0, [.loc 0x4000100], 1, some 12, true⟩ : Session).addr (⟨1,
    false, 9, 4660, 100, 0, none, 1, 0, [.loc 0x4000100], 1, some 12, true⟩ : Session).udp (svcBytes 5 (3 : Fin 4096)
    (⟨1, false, 9, 4660, 100, 0, none, 1, 0, [.loc 0x4000100], 1, some 12, true⟩ : Session).seq 0 (leBytes 5 (12 :
    Nat) ++ [b2n (⟨1, false, 9, 4660, 100, 0, none, 1, 0, [.loc 0x4000100], 1, some 12, true⟩ : Session).skip, 1, 0]
    ++ wordBytes (wit_SessionsOpenStreamAndClose_10.rd (0x4000100 : Nat)) ++ [0]))] ∧ (after (exec (.svcData (3 : Fin
    4096)) wit_SessionsOpenStreamAndClose_10)).mem = wit_SessionsOpenStreamAndClose_10.mem)  := by decide +kernel

def wit_SessionsOpenStreamAndClose_11 : State :=
    ((up []).on (fun h =>
    { h with sess := [(0, some ⟨1, false, 9, 4660, 100, 0, none, 0, 0, [], 1, none, false⟩)] }) : State)

theorem test_SessionsOpenStreamAndClose_11 :
    (accepts wit_SessionsOpenStreamAndClose_11.hw (.core 0 :
    Requester) pSVC = true ∧ (0 : Nat) = wit_SessionsOpenStreamAndClose_11.hw.chsel pSVC (.core 0 : Requester) ∧
    wit_SessionsOpenStreamAndClose_11.hw.session (0 : Nat) = some (⟨1, false, 9, 4660, 100, 0, none, 0, 0, [], 1,
    none, false⟩ : Session))  := by decide +kernel

def wit_ClocksAndResetsFollowTheirSequence_1 : State :=
   
    ({ State.reset with hw := { State.reset.hw with bootDue := false } } : State)

theorem test_ClocksAndResetsFollowTheirSequence_1 :
    (awake wit_ClocksAndResetsFollowTheirSequence_1.hw = true
    ∧ wit_ClocksAndResetsFollowTheirSequence_1.hw.b pCLK 0 CLK_PLL_LOCKED = false ∧
    wit_ClocksAndResetsFollowTheirSequence_1.hw.b pCLK 0 CLK_PLL_FALLBACK = false ∧
    wit_ClocksAndResetsFollowTheirSequence_1.hw.bootDue = false) ∧ ((after (exec (.pllLock ({} : BootRep))
    wit_ClocksAndResetsFollowTheirSequence_1)).hw.released = true ∧ (after (exec (.pllLock ({} : BootRep))
    wit_ClocksAndResetsFollowTheirSequence_1)).hw.f pCLK 0 CLK_PLL_LOCKED = 1 ∧ (after (exec (.pllLock ({} : BootRep))
    wit_ClocksAndResetsFollowTheirSequence_1)).mem = wit_ClocksAndResetsFollowTheirSequence_1.mem ∧ (after (exec
    (.pllLock ({} : BootRep)) wit_ClocksAndResetsFollowTheirSequence_1)).tags =
    wit_ClocksAndResetsFollowTheirSequence_1.tags ∧ (after (exec (.pllLock ({} : BootRep))
    wit_ClocksAndResetsFollowTheirSequence_1)).hw.cores = wit_ClocksAndResetsFollowTheirSequence_1.hw.cores)
     := by decide +kernel

def wit_ClocksAndResetsFollowTheirSequence_2 : State :=
    (State.reset.on (fun h => h.setF pLWF 0
    LWF_STATUS_LOADED 1) : State)

theorem test_ClocksAndResetsFollowTheirSequence_2 :
    (awake wit_ClocksAndResetsFollowTheirSequence_2.hw = true
    ∧ wit_ClocksAndResetsFollowTheirSequence_2.hw.b pCLK 0 CLK_PLL_LOCKED = false ∧
    wit_ClocksAndResetsFollowTheirSequence_2.hw.b pCLK 0 CLK_PLL_FALLBACK = false ∧
    wit_ClocksAndResetsFollowTheirSequence_2.hw.bootDue = true ∧ wit_ClocksAndResetsFollowTheirSequence_2.hw.b pLWF 0
    LWF_STATUS_LOADED = true)  := by decide +kernel

def wit_ClocksAndResetsFollowTheirSequence_3 : State :=
    (up [(pCLK, 0, CLK_PLL_LOCKED, 1)] : State)

theorem test_ClocksAndResetsFollowTheirSequence_3 :
    (awake wit_ClocksAndResetsFollowTheirSequence_3.hw = true
    ∧ ((false : Bool) = true ∨ wit_ClocksAndResetsFollowTheirSequence_3.hw.f pCLK 0 CLK_PLL_LOCKED = 1)) ∧ ((after
    (exec (.clockFailure (false : Bool)) wit_ClocksAndResetsFollowTheirSequence_3)).hw.f pCLK 0 CLK_PLL_FALLBACK = 1 ∧
    (after (exec (.clockFailure (false : Bool)) wit_ClocksAndResetsFollowTheirSequence_3)).hw.f pCLK 0 CLK_PLL_LOCKED
    = 0 ∧ (if (false : Bool) = true then (after (exec (.clockFailure (false : Bool))
    wit_ClocksAndResetsFollowTheirSequence_3)).hw.f pCLK 0 CLK_PLL_XTAL_LOST = 1 else True) ∧ (if
    wit_ClocksAndResetsFollowTheirSequence_3.hw.f pCLK 0 CLK_PLL_LOCKED = 1 then (after (exec (.clockFailure (false :
    Bool)) wit_ClocksAndResetsFollowTheirSequence_3)).hw.f pCLK 0 CLK_PLL_LOCK_LOST = 1 else True) ∧ (after (exec
    (.clockFailure (false : Bool)) wit_ClocksAndResetsFollowTheirSequence_3)).hw.b pDEV 0 ⟨3, 2, 1⟩ = true ∧
    resetWaits (after (exec (.clockFailure (false : Bool)) wit_ClocksAndResetsFollowTheirSequence_3)) 3 ∧ (after (exec
    (.clockFailure (false : Bool)) wit_ClocksAndResetsFollowTheirSequence_3)).mem =
    wit_ClocksAndResetsFollowTheirSequence_3.mem)  := by decide +kernel

def wit_ClocksAndResetsFollowTheirSequence_4 : State :=
    (up [] : State)

theorem test_ClocksAndResetsFollowTheirSequence_4 :
    (awake wit_ClocksAndResetsFollowTheirSequence_4.hw = true)
    ∧ (resetWaits (after (exec (.deviceResetRequest (.watchdog : ResetAsk)) wit_ClocksAndResetsFollowTheirSequence_4))
    (.watchdog : ResetAsk).bit ∧ (after (exec (.deviceResetRequest (.watchdog : ResetAsk))
    wit_ClocksAndResetsFollowTheirSequence_4)).hw.rstCause = wit_ClocksAndResetsFollowTheirSequence_4.hw.rstCause |||
    2 ^ (.watchdog : ResetAsk).bit ∧ (after (exec (.deviceResetRequest (.watchdog : ResetAsk))
    wit_ClocksAndResetsFollowTheirSequence_4)).hw.rstAt = (if wit_ClocksAndResetsFollowTheirSequence_4.hw.f pRST 0
    RST_STATUS_PENDING = 1 then wit_ClocksAndResetsFollowTheirSequence_4.hw.rstAt else
    wit_ClocksAndResetsFollowTheirSequence_4.hw.now) ∧ (after (exec (.deviceResetRequest (.watchdog : ResetAsk))
    wit_ClocksAndResetsFollowTheirSequence_4)).mem = wit_ClocksAndResetsFollowTheirSequence_4.mem ∧ (after (exec
    (.deviceResetRequest (.watchdog : ResetAsk)) wit_ClocksAndResetsFollowTheirSequence_4)).tags =
    wit_ClocksAndResetsFollowTheirSequence_4.tags) ∧ (if wit_ClocksAndResetsFollowTheirSequence_4.hw.b pDEV 0 ⟨3, 3,
    1⟩ = false then (after (exec (.deviceResetRequest (.watchdog : ResetAsk))
    wit_ClocksAndResetsFollowTheirSequence_4)).hw.f pDEV 0 DEV_STATUS_SAFE_ACT = 1 ∧ (after (exec (.deviceResetRequest
    (.watchdog : ResetAsk)) wit_ClocksAndResetsFollowTheirSequence_4)).hw.f pDEV 0 DEV_IRQ_SAFE = 1 else True)
     := by decide +kernel

def wit_ClocksAndResetsFollowTheirSequence_5 : State :=
    (up [] : State)

theorem test_ClocksAndResetsFollowTheirSequence_5 :
    (accepts wit_ClocksAndResetsFollowTheirSequence_5.hw
    (.host : Requester) pRST = true) ∧ (if bitsOf (0x5253000000 : Word).toNat 24 16 = 0x5253 then resetWaits (after
    (exec (.resetDeviceCmd (.host : Requester) (0x5253000000 : Word)) wit_ClocksAndResetsFollowTheirSequence_5)) (if
    (.host : Requester) = .applier then 5 else 4) ∧ (after (exec (.resetDeviceCmd (.host : Requester) (0x5253000000 :
    Word)) wit_ClocksAndResetsFollowTheirSequence_5)).mem = wit_ClocksAndResetsFollowTheirSequence_5.mem else (after
    (exec (.resetDeviceCmd (.host : Requester) (0x5253000000 : Word))
    wit_ClocksAndResetsFollowTheirSequence_5)).hw.regs = wit_ClocksAndResetsFollowTheirSequence_5.hw.regs ∧ (after
    (exec (.resetDeviceCmd (.host : Requester) (0x5253000000 : Word))
    wit_ClocksAndResetsFollowTheirSequence_5)).hw.rstCause = wit_ClocksAndResetsFollowTheirSequence_5.hw.rstCause ∧
    (after (exec (.resetDeviceCmd (.host : Requester) (0x5253000000 : Word))
    wit_ClocksAndResetsFollowTheirSequence_5)).mem = wit_ClocksAndResetsFollowTheirSequence_5.mem)
     := by decide +kernel

def wit_ClocksAndResetsFollowTheirSequence_6 : State :=
    ((up [(pDEV, 0, DEV_CVEC_ADDR 3, 0x1000)]).on (fun h
    => h.setReg pRST 6 0 0x3FF) : State)

theorem test_ClocksAndResetsFollowTheirSequence_6 :
    (accepts wit_ClocksAndResetsFollowTheirSequence_6.hw
    (.core 9 : Requester) pRST = true ∧ wit_ClocksAndResetsFollowTheirSequence_6.hw.clusterRuns (3 : Fin 8) = true)
     := by decide +kernel

def wit_ClocksAndResetsFollowTheirSequence_7 : State :=
    (up [(pCWDT 2, 0, WDT_STATUS_EXPIRED, 1)] : State)

theorem test_ClocksAndResetsFollowTheirSequence_7 :
    (wit_ClocksAndResetsFollowTheirSequence_7.hw.clusterRuns
    (2 : Fin 8) = true ∧ wit_ClocksAndResetsFollowTheirSequence_7.hw.crWait = [] ∧
    wit_ClocksAndResetsFollowTheirSequence_7.hw.f (pCWDT (2 : Fin 8)) 0 WDT_STATUS_EXPIRED = 1) ∧ (if
    wit_ClocksAndResetsFollowTheirSequence_7.hw.f (pCLU (2 : Fin 8)) 0 CLU_CTRL_CWDT_RST = 1 then (after (exec
    (.clusterReset (2 : Fin 8)) wit_ClocksAndResetsFollowTheirSequence_7)).hw.f pRST 0 (RST_CRCAUSE_CAUSE (2 : Fin 8))
    = 1 ∧ (after (exec (.clusterReset (2 : Fin 8)) wit_ClocksAndResetsFollowTheirSequence_7)).hw.f pRST 0
    (RST_CRCNT_COUNT (2 : Fin 8)) = (wit_ClocksAndResetsFollowTheirSequence_7.hw.f pRST 0 (RST_CRCNT_COUNT (2 : Fin
    8)) + 1) % 2 ^ 40 ∧ (after (exec (.clusterReset (2 : Fin 8)) wit_ClocksAndResetsFollowTheirSequence_7)).hw.f
    (pCWDT (2 : Fin 8)) 0 WDT_STATUS_EXPIRED = 0 ∧ (after (exec (.clusterReset (2 : Fin 8))
    wit_ClocksAndResetsFollowTheirSequence_7)).mem = wit_ClocksAndResetsFollowTheirSequence_7.mem else (after (exec
    (.clusterReset (2 : Fin 8)) wit_ClocksAndResetsFollowTheirSequence_7)) = wit_ClocksAndResetsFollowTheirSequence_7)
     := by decide +kernel

def wit_ClocksAndResetsFollowTheirSequence_8 : State :=
    ((up []).on (fun h => { h with crWait := [(2, 2)] }) :
    State)

theorem test_ClocksAndResetsFollowTheirSequence_8 :
    (wit_ClocksAndResetsFollowTheirSequence_8.hw.clusterRuns
    (2 : Fin 8) = true ∧ wit_ClocksAndResetsFollowTheirSequence_8.hw.crWait = [((2 : Fin 8).val, 2)]) ∧ ((after (exec
    (.clusterReset (2 : Fin 8)) wit_ClocksAndResetsFollowTheirSequence_8)).hw.f pRST 0 (RST_CRCAUSE_CAUSE (2 : Fin 8))
    = 2 ∧ (after (exec (.clusterReset (2 : Fin 8)) wit_ClocksAndResetsFollowTheirSequence_8)).hw.crWait = [] ∧ (after
    (exec (.clusterReset (2 : Fin 8)) wit_ClocksAndResetsFollowTheirSequence_8)).mem =
    wit_ClocksAndResetsFollowTheirSequence_8.mem)  := by decide +kernel

def wit_ClocksAndResetsFollowTheirSequence_9 : State :=
    (up [(pDEV, 0, DEV_CVEC_ADDR 0, 0x1000)] : State)

theorem test_ClocksAndResetsFollowTheirSequence_9 :
    (accepts wit_ClocksAndResetsFollowTheirSequence_9.hw
    (.core 0 : Requester) pDEV = true)  := by decide +kernel

def wit_ClocksAndResetsFollowTheirSequence_10 : State :=
    ((up [(pRST, 0, RST_STATUS_PENDING, 1)]).on (fun h =>
    { h with rstCause := 4, rstAt := 100, now := 1300 }) : State)

theorem test_ClocksAndResetsFollowTheirSequence_10 :
    (wit_ClocksAndResetsFollowTheirSequence_10.hw.f pRST 0
    RST_STATUS_PENDING = 1 ∧ wit_ClocksAndResetsFollowTheirSequence_10.hw.flash.op = none ∧
    wit_ClocksAndResetsFollowTheirSequence_10.hw.flash.erase = none ∧
    wit_ClocksAndResetsFollowTheirSequence_10.hw.flash.lwf = none ∧ wit_ClocksAndResetsFollowTheirSequence_10.hw.deep
    = false)  := by decide +kernel

def wit_ClocksAndResetsFollowTheirSequence_11 : State :=
    (up [] : State)

theorem test_ClocksAndResetsFollowTheirSequence_11 :
    (wit_ClocksAndResetsFollowTheirSequence_11.hw.porstLow =
    false ∧ wit_ClocksAndResetsFollowTheirSequence_11.hw.flash.op = none ∧
    wit_ClocksAndResetsFollowTheirSequence_11.hw.flash.erase = none ∧
    wit_ClocksAndResetsFollowTheirSequence_11.hw.flash.lwf = none)  := by decide +kernel

def wit_ClocksAndResetsFollowTheirSequence_12 : State :=
    ((up []).on (fun h => { h with porstLow := true }) :
    State)

theorem test_ClocksAndResetsFollowTheirSequence_12 :
    (wit_ClocksAndResetsFollowTheirSequence_12.hw.porstLow =
    true) ∧ ((after (exec (.powerOnReset false (3 : Fin 8) ([] : List (Nat × Word)) (0 : Nat))
    wit_ClocksAndResetsFollowTheirSequence_12)).hw.porstLow = false ∧ (after (exec (.powerOnReset false (3 : Fin 8)
    ([] : List (Nat × Word)) (0 : Nat)) wit_ClocksAndResetsFollowTheirSequence_12)).hw.f pDBG 0 DBG_BOOTPINS_PINS = (3
    : Fin 8) ∧ (after (exec (.powerOnReset false (3 : Fin 8) ([] : List (Nat × Word)) (0 : Nat))
    wit_ClocksAndResetsFollowTheirSequence_12)).mem = wit_ClocksAndResetsFollowTheirSequence_12.mem)
     := by decide +kernel

def wit_ClocksAndResetsFollowTheirSequence_13 : State :=
    (up [] : State)

theorem test_ClocksAndResetsFollowTheirSequence_13 :
    (awake wit_ClocksAndResetsFollowTheirSequence_13.hw =
    true ∧ wit_ClocksAndResetsFollowTheirSequence_13.hw.resetLow = false ∧
    wit_ClocksAndResetsFollowTheirSequence_13.hw.bootDue = false) ∧ (resetWaits (after (exec (.resetN true (3 : Fin 8)
    ({} : BootRep)) wit_ClocksAndResetsFollowTheirSequence_13)) 1 ∧ (after (exec (.resetN true (3 : Fin 8) ({} :
    BootRep)) wit_ClocksAndResetsFollowTheirSequence_13)).hw.resetLow = true ∧ (after (exec (.resetN true (3 : Fin 8)
    ({} : BootRep)) wit_ClocksAndResetsFollowTheirSequence_13)).mem = wit_ClocksAndResetsFollowTheirSequence_13.mem)
     := by decide +kernel

def wit_ClocksAndResetsFollowTheirSequence_14 : State :=
    ((up []).on (fun h => { h with resetLow := true }) :
    State)

theorem test_ClocksAndResetsFollowTheirSequence_14 :
    (wit_ClocksAndResetsFollowTheirSequence_14.hw.resetLow =
    true ∧ wit_ClocksAndResetsFollowTheirSequence_14.hw.bootDue = false) ∧ ((after (exec (.resetN false (3 : Fin 8)
    ({} : BootRep)) wit_ClocksAndResetsFollowTheirSequence_14)).hw.resetLow = false ∧ (after (exec (.resetN false (3 :
    Fin 8) ({} : BootRep)) wit_ClocksAndResetsFollowTheirSequence_14)).mem =
    wit_ClocksAndResetsFollowTheirSequence_14.mem ∧ (if wit_ClocksAndResetsFollowTheirSequence_14.hw.heldInReset =
    true then (after (exec (.resetN false (3 : Fin 8) ({} : BootRep)) wit_ClocksAndResetsFollowTheirSequence_14)).hw.f
    pDBG 0 DBG_BOOTPINS_PINS = (3 : Fin 8) else (after (exec (.resetN false (3 : Fin 8) ({} : BootRep))
    wit_ClocksAndResetsFollowTheirSequence_14)).hw.regs = wit_ClocksAndResetsFollowTheirSequence_14.hw.regs))
     := by decide +kernel

def wit_SafeStatesPowerStatesAndMonitors_1 : State :=
    ((up [(pPWMTB 1, 2, PWM_TB_TBCFG_EN, 1)]).on (fun h =>
    h.setReg pLWF 0x11 3 1) : State)

theorem test_SafeStatesPowerStatesAndMonitors_1 :
    ((1 : Nat) < 8 ∧ (2 : Nat) < 4 ∧
    wit_SafeStatesPowerStatesAndMonitors_1.hw.b (pPWMTB (1 : Nat)) (2 : Nat) PWM_TB_TBCFG_EN = true ∧
    wit_SafeStatesPowerStatesAndMonitors_1.hw.safeNLow = false ∧ wit_SafeStatesPowerStatesAndMonitors_1.hw.safeNAt =
    none ∧ wit_SafeStatesPowerStatesAndMonitors_1.hw.b pDEV 0 ⟨3, 4, 1⟩ = false) ∧ ((after (exec .safeNFall
    wit_SafeStatesPowerStatesAndMonitors_1)).hw.safeNLow = true ∧ (after (exec .safeNFall
    wit_SafeStatesPowerStatesAndMonitors_1)).hw.safeNAt = some (wit_SafeStatesPowerStatesAndMonitors_1.hw.now + 6) ∧
    (after (exec .safeNFall wit_SafeStatesPowerStatesAndMonitors_1)).hw.regs =
    wit_SafeStatesPowerStatesAndMonitors_1.hw.regs ∧ (after (exec .safeNFall
    wit_SafeStatesPowerStatesAndMonitors_1)).mem = wit_SafeStatesPowerStatesAndMonitors_1.mem) ∧ ((sixEdgesOn (after
    (exec .safeNFall wit_SafeStatesPowerStatesAndMonitors_1)).hw).b pDEV 0 ⟨3, 4, 1⟩ = bitOf
    (wit_SafeStatesPowerStatesAndMonitors_1.hw.lwf 3) 0 ∧ (sixEdgesOn (after (exec .safeNFall
    wit_SafeStatesPowerStatesAndMonitors_1)).hw).safeNAt = none) ∧ (if bitOf
    (wit_SafeStatesPowerStatesAndMonitors_1.hw.lwf 3) 0 = true then (sixEdgesOn (after (exec .safeNFall
    wit_SafeStatesPowerStatesAndMonitors_1)).hw).f pDEV 0 DEV_STATUS_SAFE_ACT = 1 ∧ (sixEdgesOn (after (exec
    .safeNFall wit_SafeStatesPowerStatesAndMonitors_1)).hw).f pDEV 0 DEV_IRQ_SAFE = 1 ∧ ((sixEdgesOn (after (exec
    .safeNFall wit_SafeStatesPowerStatesAndMonitors_1)).hw).tb (1 : Nat) (2 : Nat)).held = true else True)
     := by decide +kernel

def wit_SafeStatesPowerStatesAndMonitors_2 : State :=
    (up [(pDEV, 0, ⟨3, 4, 1⟩, 1), (pDEV, 0,
    DEV_STATUS_SAFE_ACT, 1)] : State)

theorem test_SafeStatesPowerStatesAndMonitors_2 :
    (wit_SafeStatesPowerStatesAndMonitors_2.hw.safeNAt = none) ∧
    ((after (exec .safeNRise wit_SafeStatesPowerStatesAndMonitors_2)).hw.b pDEV 0 ⟨3, 4, 1⟩ = false ∧ (after (exec
    .safeNRise wit_SafeStatesPowerStatesAndMonitors_2)).hw.safeNLow = false ∧ (after (exec .safeNRise
    wit_SafeStatesPowerStatesAndMonitors_2)).mem = wit_SafeStatesPowerStatesAndMonitors_2.mem ∧ (if
    wit_SafeStatesPowerStatesAndMonitors_2.hw.b pDEV 0 ⟨3, 4, 1⟩ = true then (after (exec .safeNRise
    wit_SafeStatesPowerStatesAndMonitors_2)).hw.f pDEV 0 DEV_STATUS_SAFE_ACT = b2n ((after (exec .safeNRise
    wit_SafeStatesPowerStatesAndMonitors_2)).hw.f pDEV 0 DEV_STATUS_SAFE_SRC != 0) else True))  := by decide +kernel

def wit_SafeStatesPowerStatesAndMonitors_3 : State :=
    ((up []).on (fun h =>
    { h with safeNLow := true, safeNAt := some 6 }) : State)

theorem test_SafeStatesPowerStatesAndMonitors_3 :
    (wit_SafeStatesPowerStatesAndMonitors_3.hw.safeNAt = some (6
    : Nat)) ∧ ((after (exec .safeNRise wit_SafeStatesPowerStatesAndMonitors_3)).hw.safeNLow = false ∧ (after (exec
    .safeNRise wit_SafeStatesPowerStatesAndMonitors_3)).hw.safeNAt = some (6 : Nat) ∧ (after (exec .safeNRise
    wit_SafeStatesPowerStatesAndMonitors_3)).hw.regs = wit_SafeStatesPowerStatesAndMonitors_3.hw.regs ∧ (after (exec
    .safeNRise wit_SafeStatesPowerStatesAndMonitors_3)).mem = wit_SafeStatesPowerStatesAndMonitors_3.mem)
     := by decide +kernel

def wit_SafeStatesPowerStatesAndMonitors_4 : State :=
    (up [] : State)

theorem test_SafeStatesPowerStatesAndMonitors_4 :
    (accepts wit_SafeStatesPowerStatesAndMonitors_4.hw (.core 0
    : Requester) pDEV = true ∧ wit_SafeStatesPowerStatesAndMonitors_4.hw.b pDEV 0 ⟨3, 6, 1⟩ = false) ∧ ((after (exec
    (.safeSw (.core 0 : Requester) (1 : Word)) wit_SafeStatesPowerStatesAndMonitors_4)).hw.b pDEV 0 ⟨3, 6, 1⟩ = bitOf
    (1 : Word).toNat 0 ∧ (after (exec (.safeSw (.core 0 : Requester) (1 : Word))
    wit_SafeStatesPowerStatesAndMonitors_4)).mem = wit_SafeStatesPowerStatesAndMonitors_4.mem ∧ (if bitOf (1 :
    Word).toNat 0 = true then (after (exec (.safeSw (.core 0 : Requester) (1 : Word))
    wit_SafeStatesPowerStatesAndMonitors_4)).hw.f pDEV 0 DEV_STATUS_SAFE_ACT = 1 ∧ (after (exec (.safeSw (.core 0 :
    Requester) (1 : Word)) wit_SafeStatesPowerStatesAndMonitors_4)).hw.f pDEV 0 DEV_IRQ_SAFE = 1 else True))
     := by decide +kernel

def wit_SafeStatesPowerStatesAndMonitors_5 : State :=
    (up [(pMON, 8, MON_HI_V, 0x06E0), (pMON, 8,
    MON_MCFG_ACT, 1)] : State)

theorem test_SafeStatesPowerStatesAndMonitors_5 :
    (wit_SafeStatesPowerStatesAndMonitors_5.hw.domainRuns 59 =
    true ∧ (8 : Fin 16).val ≠ 15) ∧ ((after (exec (.monitorSample (8 : Fin 16) (0x07D0 : BitVec 16))
    wit_SafeStatesPowerStatesAndMonitors_5)).hw.f pMON (8 : Fin 16) MON_VALUE_V = (0x07D0 : BitVec 16).toNat ∧ (after
    (exec (.monitorSample (8 : Fin 16) (0x07D0 : BitVec 16)) wit_SafeStatesPowerStatesAndMonitors_5)).mem =
    wit_SafeStatesPowerStatesAndMonitors_5.mem ∧ (if inLimits wit_SafeStatesPowerStatesAndMonitors_5.hw (8 : Fin 16)
    (0x07D0 : BitVec 16).toNat = true then (after (exec (.monitorSample (8 : Fin 16) (0x07D0 : BitVec 16))
    wit_SafeStatesPowerStatesAndMonitors_5)).hw.b pMON 0 ⟨5, (8 : Fin 16), 1⟩ =
    wit_SafeStatesPowerStatesAndMonitors_5.hw.b pMON 0 ⟨5, (8 : Fin 16), 1⟩ ∧ (after (exec (.monitorSample (8 : Fin
    16) (0x07D0 : BitVec 16)) wit_SafeStatesPowerStatesAndMonitors_5)).hw.rstCause =
    wit_SafeStatesPowerStatesAndMonitors_5.hw.rstCause else (after (exec (.monitorSample (8 : Fin 16) (0x07D0 : BitVec
    16)) wit_SafeStatesPowerStatesAndMonitors_5)).hw.b pMON 0 ⟨5, (8 : Fin 16), 1⟩ = true)) ∧ (if inLimits
    wit_SafeStatesPowerStatesAndMonitors_5.hw (8 : Fin 16) (0x07D0 : BitVec 16).toNat = false ∧
    wit_SafeStatesPowerStatesAndMonitors_5.hw.f pMON (8 : Fin 16) MON_MCFG_ACT = 2 then resetWaits (after (exec
    (.monitorSample (8 : Fin 16) (0x07D0 : BitVec 16)) wit_SafeStatesPowerStatesAndMonitors_5)) 7 else (after (exec
    (.monitorSample (8 : Fin 16) (0x07D0 : BitVec 16)) wit_SafeStatesPowerStatesAndMonitors_5)).hw.rstCause =
    wit_SafeStatesPowerStatesAndMonitors_5.hw.rstCause) ∧ (if inLimits wit_SafeStatesPowerStatesAndMonitors_5.hw (8 :
    Fin 16) (0x07D0 : BitVec 16).toNat = false ∧ (wit_SafeStatesPowerStatesAndMonitors_5.hw.f pMON (8 : Fin 16)
    MON_MCFG_ACT = 1 ∨ wit_SafeStatesPowerStatesAndMonitors_5.hw.f pMON (8 : Fin 16) MON_MCFG_ACT = 3) then (after
    (exec (.monitorSample (8 : Fin 16) (0x07D0 : BitVec 16)) wit_SafeStatesPowerStatesAndMonitors_5)).hw.b pDEV 0 ⟨3,
    5, 1⟩ = true else (after (exec (.monitorSample (8 : Fin 16) (0x07D0 : BitVec 16))
    wit_SafeStatesPowerStatesAndMonitors_5)).hw.b pDEV 0 ⟨3, 5, 1⟩ = wit_SafeStatesPowerStatesAndMonitors_5.hw.b pDEV
    0 ⟨3, 5, 1⟩)  := by decide +kernel

def wit_SafeStatesPowerStatesAndMonitors_6 : State :=
    (up [] : State)

theorem test_SafeStatesPowerStatesAndMonitors_6 :
    (accepts wit_SafeStatesPowerStatesAndMonitors_6.hw (.core 0
    : Requester) pPWR = true) ∧ (if bitOf (0x84 : Word).toNat (2 : Fin 8) = true then (after (exec (.haltMaskWrite
    (.core 0 : Requester) (0x84 : Word)) wit_SafeStatesPowerStatesAndMonitors_6)).hw.b pPWR 0 ⟨3, 10 + (2 : Fin 8), 1⟩
    = (wit_SafeStatesPowerStatesAndMonitors_6.hw.b pPWR 0 ⟨3, 10 + (2 : Fin 8), 1⟩ ||
    !wit_SafeStatesPowerStatesAndMonitors_6.hw.b pPWR 0 ⟨3, 2 + (2 : Fin 8), 1⟩) ∧ (after (exec (.haltMaskWrite (.core
    0 : Requester) (0x84 : Word)) wit_SafeStatesPowerStatesAndMonitors_6)).hw.b pPWR 0 ⟨3, 2 + (2 : Fin 8), 1⟩ =
    wit_SafeStatesPowerStatesAndMonitors_6.hw.b pPWR 0 ⟨3, 2 + (2 : Fin 8), 1⟩ else (after (exec (.haltMaskWrite
    (.core 0 : Requester) (0x84 : Word)) wit_SafeStatesPowerStatesAndMonitors_6)).hw.b pPWR 0 ⟨3, 10 + (2 : Fin 8), 1⟩
    = false ∧ (after (exec (.haltMaskWrite (.core 0 : Requester) (0x84 : Word))
    wit_SafeStatesPowerStatesAndMonitors_6)).hw.b pPWR 0 ⟨3, 2 + (2 : Fin 8), 1⟩ = false) ∧ ((after (exec
    (.haltMaskWrite (.core 0 : Requester) (0x84 : Word)) wit_SafeStatesPowerStatesAndMonitors_6)).hw.f pPWR 0
    PWR_CTRL_HALT_MASK = (0x84 : Word).toNat % 256 ∧ (after (exec (.haltMaskWrite (.core 0 : Requester) (0x84 : Word))
    wit_SafeStatesPowerStatesAndMonitors_6)).mem = wit_SafeStatesPowerStatesAndMonitors_6.mem ∧ (after (exec
    (.haltMaskWrite (.core 0 : Requester) (0x84 : Word)) wit_SafeStatesPowerStatesAndMonitors_6)).hw.cores =
    wit_SafeStatesPowerStatesAndMonitors_6.hw.cores)  := by decide +kernel

def wit_SafeStatesPowerStatesAndMonitors_7 : State :=
    (up [(pPWR, 0, ⟨3, 12, 1⟩, 1)] : State)

theorem test_SafeStatesPowerStatesAndMonitors_7 :
    (canGate wit_SafeStatesPowerStatesAndMonitors_7.hw (2 : Fin
    8)) ∧ ((after (exec (.clusterGate (2 : Fin 8)) wit_SafeStatesPowerStatesAndMonitors_7)).hw.b pPWR 0 ⟨3, 2 + (2 :
    Fin 8), 1⟩ = true ∧ (after (exec (.clusterGate (2 : Fin 8)) wit_SafeStatesPowerStatesAndMonitors_7)).hw.b pPWR 0
    ⟨3, 10 + (2 : Fin 8), 1⟩ = false ∧ (after (exec (.clusterGate (2 : Fin 8))
    wit_SafeStatesPowerStatesAndMonitors_7)).hw.f (pCLU (2 : Fin 8)) 0 CLU_STATUS_STATE = 3 ∧ (after (exec
    (.clusterGate (2 : Fin 8)) wit_SafeStatesPowerStatesAndMonitors_7)).hw.clusterRuns (2 : Fin 8) = false ∧ (after
    (exec (.clusterGate (2 : Fin 8)) wit_SafeStatesPowerStatesAndMonitors_7)).mem =
    wit_SafeStatesPowerStatesAndMonitors_7.mem ∧ (after (exec (.clusterGate (2 : Fin 8))
    wit_SafeStatesPowerStatesAndMonitors_7)).hw.cores = wit_SafeStatesPowerStatesAndMonitors_7.hw.cores)
     := by decide +kernel

def wit_SafeStatesPowerStatesAndMonitors_8 : State :=
    (up [(pPWR, 0, ⟨3, 10, 1⟩, 1)] : State)

theorem test_SafeStatesPowerStatesAndMonitors_8 :
    (¬ canGate wit_SafeStatesPowerStatesAndMonitors_8.hw (0 :
    Fin 8)) ∧ ((after (exec (.clusterGate (0 : Fin 8)) wit_SafeStatesPowerStatesAndMonitors_8)) =
    wit_SafeStatesPowerStatesAndMonitors_8)  := by decide +kernel

def wit_SafeStatesPowerStatesAndMonitors_9 : State :=
    (up [(pAOW, 7, AOW_WSRC_EN, 1), (pAOW, 7, AOW_WSRC_WAKE,
    1)] : State)

theorem test_SafeStatesPowerStatesAndMonitors_9 :
    (accepts wit_SafeStatesPowerStatesAndMonitors_9.hw (.core 0
    : Requester) pPWR = true ∧ bitsOf (0x4450000001 : Word).toNat 24 16 = 0x4450 ∧ bitOf (0x4450000001 : Word).toNat 0
    = true ∧ wit_SafeStatesPowerStatesAndMonitors_9.hw.flash.op = none ∧
    wit_SafeStatesPowerStatesAndMonitors_9.hw.flash.erase = none ∧
    wit_SafeStatesPowerStatesAndMonitors_9.hw.flash.asked = none ∧ wit_SafeStatesPowerStatesAndMonitors_9.hw.flash.lwf
    = none) ∧ (wit_SafeStatesPowerStatesAndMonitors_9.hw.b pAOW (7 : Fin 32) AOW_WSRC_EN = true ∧
    wit_SafeStatesPowerStatesAndMonitors_9.hw.b pAOW (7 : Fin 32) AOW_WSRC_WAKE = true)  := by decide +kernel

def wit_SafeStatesPowerStatesAndMonitors_10 : State :=
    (up [] : State)

theorem test_SafeStatesPowerStatesAndMonitors_10 :
    (accepts wit_SafeStatesPowerStatesAndMonitors_10.hw (.core
    0 : Requester) pPWR = true ∧ bitsOf (0x4450000001 : Word).toNat 24 16 = 0x4450 ∧ bitOf (0x4450000001 : Word).toNat
    0 = true) ∧ (wit_SafeStatesPowerStatesAndMonitors_10.hw.flash.op ≠ none ∨
    wit_SafeStatesPowerStatesAndMonitors_10.hw.flash.erase ≠ none ∨
    wit_SafeStatesPowerStatesAndMonitors_10.hw.flash.lwf ≠ none ∨ (List.range 32).all (fun x =>
    !wit_SafeStatesPowerStatesAndMonitors_10.hw.b pAOW x AOW_WSRC_EN || !wit_SafeStatesPowerStatesAndMonitors_10.hw.b
    pAOW x AOW_WSRC_WAKE) = true) ∧ ((after (exec (.pwrDeep (.core 0 : Requester) (0x4450000001 : Word))
    wit_SafeStatesPowerStatesAndMonitors_10)).hw.deep = wit_SafeStatesPowerStatesAndMonitors_10.hw.deep ∧ (after (exec
    (.pwrDeep (.core 0 : Requester) (0x4450000001 : Word)) wit_SafeStatesPowerStatesAndMonitors_10)).hw.f pPWR 0
    PWR_IRQ_DEEP_REF = 1 ∧ (after (exec (.pwrDeep (.core 0 : Requester) (0x4450000001 : Word))
    wit_SafeStatesPowerStatesAndMonitors_10)).mem = wit_SafeStatesPowerStatesAndMonitors_10.mem ∧ (after (exec
    (.pwrDeep (.core 0 : Requester) (0x4450000001 : Word)) wit_SafeStatesPowerStatesAndMonitors_10)).tags =
    wit_SafeStatesPowerStatesAndMonitors_10.tags ∧ (after (exec (.pwrDeep (.core 0 : Requester) (0x4450000001 : Word))
    wit_SafeStatesPowerStatesAndMonitors_10)).hw.cores = wit_SafeStatesPowerStatesAndMonitors_10.hw.cores)
     := by decide +kernel

def wit_SafeStatesPowerStatesAndMonitors_11 : State :=
    ((up []).on (fun h =>
    { h with deep := true, wakeReq := true }) : State)

theorem test_SafeStatesPowerStatesAndMonitors_11 :
    (wit_SafeStatesPowerStatesAndMonitors_11.hw.deep = true ∧
    (wit_SafeStatesPowerStatesAndMonitors_11.hw.wakeReq = true ∨ wit_SafeStatesPowerStatesAndMonitors_11.hw.resetLow =
    true))  := by decide +kernel

def wit_SafeStatesPowerStatesAndMonitors_12 : State :=
    (up [(pPWMTB 1, 2, PWM_TB_TBCFG_EN, 1)] : State)

theorem test_SafeStatesPowerStatesAndMonitors_12 :
    (accepts wit_SafeStatesPowerStatesAndMonitors_12.hw (.core
    4 : Requester) (pCLU (1 : Fin 8)) = true ∧ (2 : Nat) < 4 ∧ wit_SafeStatesPowerStatesAndMonitors_12.hw.b (pPWMTB (1
    : Fin 8)) (2 : Nat) PWM_TB_TBCFG_EN = true) ∧ ((after (exec (.clusterSafeWrite (.core 4 : Requester) (1 : Fin 8)
    (1 : Word)) wit_SafeStatesPowerStatesAndMonitors_12)).hw.b (pCLU (1 : Fin 8)) 0 CLU_CTRL_SAFE = bitOf (1 :
    Word).toNat 0 ∧ (after (exec (.clusterSafeWrite (.core 4 : Requester) (1 : Fin 8) (1 : Word))
    wit_SafeStatesPowerStatesAndMonitors_12)).hw.f (pCLU (1 : Fin 8)) 0 CLU_STATUS_STATE = b2n (bitOf (1 : Word).toNat
    0) ∧ (after (exec (.clusterSafeWrite (.core 4 : Requester) (1 : Fin 8) (1 : Word))
    wit_SafeStatesPowerStatesAndMonitors_12)).mem = wit_SafeStatesPowerStatesAndMonitors_12.mem ∧ (after (exec
    (.clusterSafeWrite (.core 4 : Requester) (1 : Fin 8) (1 : Word))
    wit_SafeStatesPowerStatesAndMonitors_12)).hw.cores = wit_SafeStatesPowerStatesAndMonitors_12.hw.cores) ∧ (if bitOf
    (1 : Word).toNat 0 = true ∧ wit_SafeStatesPowerStatesAndMonitors_12.hw.b (pCLU (1 : Fin 8)) 0 CLU_CTRL_SAFE =
    false then ((after (exec (.clusterSafeWrite (.core 4 : Requester) (1 : Fin 8) (1 : Word))
    wit_SafeStatesPowerStatesAndMonitors_12)).hw.tb (1 : Fin 8) (2 : Nat)).held = true else True)
     := by decide +kernel

def wit_SafeStatesPowerStatesAndMonitors_13 : State :=
    ((up []).on (fun h => h.setReg pCLK 8 0 55) : State)

theorem test_SafeStatesPowerStatesAndMonitors_13 :
    (accepts wit_SafeStatesPowerStatesAndMonitors_13.hw (.core
    0 : Requester) pCLK = true ∧ wit_SafeStatesPowerStatesAndMonitors_13.hw.b pCLK 0 LOCK_BIT = false ∧ (55 : Nat) =
    wit_SafeStatesPowerStatesAndMonitors_13.hw.chsel pCLK (.core 0 : Requester) ∧ ((55 : Nat) = 54 ∨ (55 : Nat) = 55 ∨
    bitOf (1 : Word).toNat 0 = false)) ∧ ((after (exec (.domainGate (.core 0 : Requester) (1 : Word))
    wit_SafeStatesPowerStatesAndMonitors_13)).hw.b pCLK (55 : Nat) CLK_DOMAIN_GATE = bitOf (1 : Word).toNat 0 ∧ (after
    (exec (.domainGate (.core 0 : Requester) (1 : Word)) wit_SafeStatesPowerStatesAndMonitors_13)).mem =
    wit_SafeStatesPowerStatesAndMonitors_13.mem)  := by decide +kernel

def wit_SafeStatesPowerStatesAndMonitors_14 : State :=
    ((up [(pSVC, 0, SVC_CTRL_EN, 1)]).on (fun h => h.setReg
    pCLK 8 0 33) : State)

theorem test_SafeStatesPowerStatesAndMonitors_14 :
    (accepts wit_SafeStatesPowerStatesAndMonitors_14.hw (.core
    0 : Requester) pCLK = true ∧ wit_SafeStatesPowerStatesAndMonitors_14.hw.b pCLK 0 LOCK_BIT = false ∧ (33 : Nat) =
    wit_SafeStatesPowerStatesAndMonitors_14.hw.chsel pCLK (.core 0 : Requester) ∧ bitOf (1 : Word).toNat 0 = true ∧
    ((33 : Nat) < 33 ∨ ((33 : Nat) = 40 ∧ wit_SafeStatesPowerStatesAndMonitors_14.hw.b (pDL 2) 0 DL_CTRL_EN = true) ∨
    ((33 : Nat) = 33 ∧ wit_SafeStatesPowerStatesAndMonitors_14.hw.b pSVC 0 SVC_CTRL_EN = true)))  := by decide +kernel

def wit_BistAndImageVerification_1 : State :=
    ((up []).on (fun h => h.setReg pBIST 8 0 10) : State)

theorem test_BistAndImageVerification_1 :
    (accepts wit_BistAndImageVerification_1.hw (.core 0 : Requester)
    pBIST = true ∧ (10 : Nat) = wit_BistAndImageVerification_1.hw.chsel pBIST (.core 0 : Requester) ∧ (10 : Nat) < 40
    ∧ wit_BistAndImageVerification_1.hw.b pBIST (10 : Nat) BIST_TSTAT_QUEUED = false ∧
    wit_BistAndImageVerification_1.hw.b pBIST (10 : Nat) BIST_TSTAT_RUNNING = false) ∧ ((if (10 : Nat) < 8 then
    wit_BistAndImageVerification_1.hw.f (pCLU (10 : Nat)) 0 CLU_STATUS_STATE = 1 else bitOf (2 : Word).toNat 1 = true)
    ∧ (0 : Nat) = (if (10 : Nat) < 8 then (10 : Nat) else if (10 : Nat) < 32 then ((10 : Nat) - 8) / 3 else 10)) ∧
    ((after (exec (.bistRequest (.core 0 : Requester) (2 : Word)) wit_BistAndImageVerification_1)).hw.b pBIST (10 :
    Nat) BIST_TSTAT_QUEUED = true ∧ (after (exec (.bistRequest (.core 0 : Requester) (2 : Word))
    wit_BistAndImageVerification_1)).hw.queue (0 : Nat) = wit_BistAndImageVerification_1.hw.queue (0 : Nat) ++ [⟨if
    (10 : Nat) < 8 then 3 else 4, (10 : Nat)⟩] ∧ (after (exec (.bistRequest (.core 0 : Requester) (2 : Word))
    wit_BistAndImageVerification_1)).mem = wit_BistAndImageVerification_1.mem ∧ (after (exec (.bistRequest (.core 0 :
    Requester) (2 : Word)) wit_BistAndImageVerification_1)).hw.cores = wit_BistAndImageVerification_1.hw.cores)
     := by decide +kernel

def wit_BistAndImageVerification_2 : State :=
    ((up []).on (fun h => h.setReg pBIST 8 0 3) : State)

theorem test_BistAndImageVerification_2 :
    (accepts wit_BistAndImageVerification_2.hw (.core 0 : Requester)
    pBIST = true ∧ (3 : Nat) = wit_BistAndImageVerification_2.hw.chsel pBIST (.core 0 : Requester) ∧ (3 : Nat) < 40 ∧
    wit_BistAndImageVerification_2.hw.b pBIST (3 : Nat) BIST_TSTAT_QUEUED = false ∧
    wit_BistAndImageVerification_2.hw.b pBIST (3 : Nat) BIST_TSTAT_RUNNING = false) ∧ (if (3 : Nat) < 8 then
    wit_BistAndImageVerification_2.hw.f (pCLU (3 : Nat)) 0 CLU_STATUS_STATE ≠ 1 else bitOf (1 : Word).toNat 1 = false)
    ∧ ((after (exec (.bistRequest (.core 0 : Requester) (1 : Word)) wit_BistAndImageVerification_2)).hw.f pBIST (3 :
    Nat) BIST_TSTAT_CAUSE = (if (3 : Nat) < 8 then 1 else 2) ∧ (after (exec (.bistRequest (.core 0 : Requester) (1 :
    Word)) wit_BistAndImageVerification_2)).hw.f pBIST (3 : Nat) BIST_TSTAT_RESULT = 3 ∧ (after (exec (.bistRequest
    (.core 0 : Requester) (1 : Word)) wit_BistAndImageVerification_2)).hw.f pBIST 0 BIST_IRQ_REFUSED = 1 ∧ (after
    (exec (.bistRequest (.core 0 : Requester) (1 : Word)) wit_BistAndImageVerification_2)).hw.maintQ =
    wit_BistAndImageVerification_2.hw.maintQ ∧ (after (exec (.bistRequest (.core 0 : Requester) (1 : Word))
    wit_BistAndImageVerification_2)).mem = wit_BistAndImageVerification_2.mem)  := by decide +kernel

def wit_BistAndImageVerification_3 : State :=
    ((up []).on (fun h => h.enqueue 10 4 33) : State)

theorem test_BistAndImageVerification_3 :
    (wit_BistAndImageVerification_3.hw.domainRuns 57 = true ∧ (10 : Nat)
    = (if (33 : Fin 40).val < 8 then (33 : Fin 40).val else if (33 : Fin 40).val < 32 then ((33 : Fin 40).val - 8) / 3
    else 10) ∧ (⟨4, 33⟩ : MaintReq) = ⟨if (33 : Fin 40).val < 8 then 3 else 4, (33 : Fin 40)⟩ ∧
    wit_BistAndImageVerification_3.hw.running (10 : Nat) = none ∧ wit_BistAndImageVerification_3.hw.queue (10 : Nat) =
    [(⟨4, 33⟩ : MaintReq)] ∧ ((33 : Fin 40).val < 8 → wit_BistAndImageVerification_3.hw.clusterRuns (33 : Fin 40) =
    true)) ∧ ((after (exec (.bistGrant (33 : Fin 40) ()) wit_BistAndImageVerification_3)).hw.running (10 : Nat) = some
    (⟨4, 33⟩ : MaintReq) ∧ (after (exec (.bistGrant (33 : Fin 40) ()) wit_BistAndImageVerification_3)).hw.queue (10 :
    Nat) = [] ∧ (after (exec (.bistGrant (33 : Fin 40) ()) wit_BistAndImageVerification_3)).hw.b pBIST (33 : Fin 40)
    BIST_TSTAT_RUNNING = true ∧ (after (exec (.bistGrant (33 : Fin 40) ()) wit_BistAndImageVerification_3)).hw.b pBIST
    (33 : Fin 40) BIST_TSTAT_QUEUED = false ∧ (after (exec (.bistGrant (33 : Fin 40) ())
    wit_BistAndImageVerification_3)).hw.f pBIST 0 BIST_STATUS_BUSY = 1 ∧ (after (exec (.bistGrant (33 : Fin 40) ())
    wit_BistAndImageVerification_3)).hw.f pBIST 0 BIST_STATUS_TARGET = (33 : Fin 40) ∧ (after (exec (.bistGrant (33 :
    Fin 40) ()) wit_BistAndImageVerification_3)).mem = wit_BistAndImageVerification_3.mem) ∧ ((if (33 : Fin 40).val <
    8 then (after (exec (.bistGrant (33 : Fin 40) ()) wit_BistAndImageVerification_3)).hw.f (pCLU (33 : Fin 40)) 0
    CLU_STATUS_STATE = 2 else True) ∧ (after (exec (.bistGrant (33 : Fin 40) ()) wit_BistAndImageVerification_3)).hw.f
    pMAINT (10 : Nat) MAINT_QSTAT_RUN_KIND = (⟨4, 33⟩ : MaintReq).kind ∧ (after (exec (.bistGrant (33 : Fin 40) ())
    wit_BistAndImageVerification_3)).hw.f pMAINT (10 : Nat) MAINT_QSTAT_DEPTH = 0)  := by decide +kernel

def wit_BistAndImageVerification_4 : State :=
    (((up []).on (fun h => (h.enqueue 3 3 3).enqueue 3 2 0)) :
    State)

theorem test_BistAndImageVerification_4 :
    ((3 : Nat) = (if (3 : Fin 40).val < 8 then (3 : Fin 40).val else if
    (3 : Fin 40).val < 32 then ((3 : Fin 40).val - 8) / 3 else 10) ∧ (⟨3, 3⟩ : MaintReq) = ⟨if (3 : Fin 40).val < 8
    then 3 else 4, (3 : Fin 40)⟩ ∧ wit_BistAndImageVerification_4.hw.queue (3 : Nat) = [(⟨3, 3⟩ : MaintReq), (⟨2, 0⟩ :
    MaintReq)] ∧ ((⟨2, 0⟩ : MaintReq).kind = 1 ∨ (⟨2, 0⟩ : MaintReq).kind = 2)) ∧ ((after (exec (.bistGrant (3 : Fin
    40) ()) wit_BistAndImageVerification_4)) = wit_BistAndImageVerification_4)  := by decide +kernel

def wit_BistAndImageVerification_5 : State :=
    ((up []).on (fun h => h.setRunning 10 (some ⟨4, 33⟩)) : State)

theorem test_BistAndImageVerification_5 :
    (8 ≤ (33 : Fin 40).val ∧ (0x4040000 : Nat) = (bistWords (33 : Fin
    40)).1 ∧ (0x40000 : Nat) = (bistWords (33 : Fin 40)).2 ∧ wit_BistAndImageVerification_5.hw.running (bistReq (33 :
    Fin 40)).1 = some ⟨4, (33 : Fin 40)⟩)  := by decide +kernel

def wit_BistAndImageVerification_6 : State :=
    ((up []).on (fun h => h.setRunning 3 (some ⟨3, 3⟩)) : State)

theorem test_BistAndImageVerification_6 :
    ((3 : Fin 40).val < 8 ∧ wit_BistAndImageVerification_6.hw.running (3
    : Fin 40) = some ⟨3, (3 : Fin 40)⟩) ∧ ((after (exec (.bistDone (3 : Fin 40) (none : Option Nat))
    wit_BistAndImageVerification_6)).hw.f pRST 0 (RST_CRCAUSE_CAUSE (3 : Fin 40)) = 4 ∧ (after (exec (.bistDone (3 :
    Fin 40) (none : Option Nat)) wit_BistAndImageVerification_6)).hw.f pRST 0 (RST_CRCNT_COUNT (3 : Fin 40)) =
    (wit_BistAndImageVerification_6.hw.f pRST 0 (RST_CRCNT_COUNT (3 : Fin 40)) + 1) % 2 ^ 40 ∧ (after (exec (.bistDone
    (3 : Fin 40) (none : Option Nat)) wit_BistAndImageVerification_6)).hw.f pBIST (3 : Fin 40) BIST_TSTAT_RESULT = (if
    (none : Option Nat) = none then 1 else 2) ∧ (after (exec (.bistDone (3 : Fin 40) (none : Option Nat))
    wit_BistAndImageVerification_6)).hw.f pBIST (3 : Fin 40) BIST_TFAIL_ADDR = 0 ∧ (after (exec (.bistDone (3 : Fin
    40) (none : Option Nat)) wit_BistAndImageVerification_6)).hw.f pBIST 0 BIST_IRQ_DONE = 1 ∧ (after (exec (.bistDone
    (3 : Fin 40) (none : Option Nat)) wit_BistAndImageVerification_6)).mem = wit_BistAndImageVerification_6.mem)
     := by decide +kernel

def wit_BistAndImageVerification_7 : State :=
    (up [] : State)

theorem test_BistAndImageVerification_7 :
    (accepts wit_BistAndImageVerification_7.hw (.core 0 : Requester)
    pSEC = true) ∧ (if bitOf (3 : Word).toNat 0 = true ∧ wit_BistAndImageVerification_7.hw.b pSEC 0 SEC_VSTAT_QUEUED =
    false ∧ wit_BistAndImageVerification_7.hw.b pSEC 0 SEC_VSTAT_BUSY = false then (after (exec (.secVcmd (.core 0 :
    Requester) (3 : Word)) wit_BistAndImageVerification_7)).hw.b pSEC 0 SEC_VSTAT_QUEUED = true ∧ (after (exec
    (.secVcmd (.core 0 : Requester) (3 : Word)) wit_BistAndImageVerification_7)).hw.f pSEC 0 SEC_VSTAT_SLOT = bitsOf
    (3 : Word).toNat 1 1 ∧ (after (exec (.secVcmd (.core 0 : Requester) (3 : Word))
    wit_BistAndImageVerification_7)).hw.queue 9 = wit_BistAndImageVerification_7.hw.queue 9 ++ [⟨8, bitsOf (3 :
    Word).toNat 1 1⟩] else (after (exec (.secVcmd (.core 0 : Requester) (3 : Word))
    wit_BistAndImageVerification_7)).hw.regs = wit_BistAndImageVerification_7.hw.regs ∧ (after (exec (.secVcmd (.core
    0 : Requester) (3 : Word)) wit_BistAndImageVerification_7)).hw.maintQ = wit_BistAndImageVerification_7.hw.maintQ)
    ∧ ((after (exec (.secVcmd (.core 0 : Requester) (3 : Word)) wit_BistAndImageVerification_7)).mem =
    wit_BistAndImageVerification_7.mem)  := by decide +kernel

def wit_BistAndImageVerification_8 : State :=
    ((up [(pSEC, 0, SEC_VSTAT_QUEUED, 1), (pSEC, 0, SEC_VSTAT_SLOT,
    1)]).on (fun h => h.enqueue 9 8 1) : State)

theorem test_BistAndImageVerification_8 :
    (wit_BistAndImageVerification_8.hw.domainRuns 56 = true ∧
    wit_BistAndImageVerification_8.hw.b pSEC 0 SEC_VSTAT_QUEUED = true ∧ (⟨8, 1⟩ : MaintReq) = ⟨8,
    wit_BistAndImageVerification_8.hw.f pSEC 0 SEC_VSTAT_SLOT⟩ ∧ wit_BistAndImageVerification_8.hw.running 9 = none ∧
    wit_BistAndImageVerification_8.hw.queue 9 = [(⟨8, 1⟩ : MaintReq)]) ∧ ((after (exec (.verifyGrant ())
    wit_BistAndImageVerification_8)).hw.running 9 = some (⟨8, 1⟩ : MaintReq) ∧ (after (exec (.verifyGrant ())
    wit_BistAndImageVerification_8)).hw.queue 9 = [] ∧ (after (exec (.verifyGrant ())
    wit_BistAndImageVerification_8)).hw.b pSEC 0 SEC_VSTAT_BUSY = true ∧ (after (exec (.verifyGrant ())
    wit_BistAndImageVerification_8)).hw.b pSEC 0 SEC_VSTAT_QUEUED = false ∧ (after (exec (.verifyGrant ())
    wit_BistAndImageVerification_8)).mem = wit_BistAndImageVerification_8.mem)  := by decide +kernel

def wit_BistAndImageVerification_9 : State :=
    ((up [(pSEC, 0, SEC_VSTAT_BUSY, 1), (pSEC, 0, SEC_VSTAT_SLOT,
    1)]) : State)

theorem test_BistAndImageVerification_9 :
    (wit_BistAndImageVerification_9.hw.b pSEC 0 SEC_VSTAT_BUSY = true ∧
    (1 : Nat) = wit_BistAndImageVerification_9.hw.f pSEC 0 SEC_VSTAT_SLOT)  := by decide +kernel

def wit_TapAndDebuggerObeyThePolicy_1 : State :=
    (up [] : State)

theorem test_TapAndDebuggerObeyThePolicy_1 :
    (tapOn wit_TapAndDebuggerObeyThePolicy_1.hw = true) ∧ ((after
    (exec .tapBypass wit_TapAndDebuggerObeyThePolicy_1)).hw.tap = .bypass ∧ (after (exec .tapBypass
    wit_TapAndDebuggerObeyThePolicy_1)).hw.resp = [0] ∧ (after (exec .tapBypass
    wit_TapAndDebuggerObeyThePolicy_1)).mem = wit_TapAndDebuggerObeyThePolicy_1.mem ∧ (after (exec .tapBypass
    wit_TapAndDebuggerObeyThePolicy_1)).hw.cores = wit_TapAndDebuggerObeyThePolicy_1.hw.cores)  := by decide +kernel

def wit_TapAndDebuggerObeyThePolicy_2 : State :=
    ((up []).on (fun h => h.setReg pLWF 0x11 6 2) : State)

theorem test_TapAndDebuggerObeyThePolicy_2 :
    (tapOn wit_TapAndDebuggerObeyThePolicy_2.hw = true) ∧ ((after
    (exec .tapIdcode wit_TapAndDebuggerObeyThePolicy_2)).hw.tap = .idcode ∧ (after (exec .tapIdcode
    wit_TapAndDebuggerObeyThePolicy_2)).hw.resp = [0x14080A7B] ∧ (after (exec .tapIdcode
    wit_TapAndDebuggerObeyThePolicy_2)).mem = wit_TapAndDebuggerObeyThePolicy_2.mem ∧ (after (exec .tapIdcode
    wit_TapAndDebuggerObeyThePolicy_2)).hw.cores = wit_TapAndDebuggerObeyThePolicy_2.hw.cores)  := by decide +kernel

def wit_TapAndDebuggerObeyThePolicy_3 : State :=
    (up [] : State)

theorem test_TapAndDebuggerObeyThePolicy_3 :
    (tapOn wit_TapAndDebuggerObeyThePolicy_3.hw = true) ∧ (if
    tapSealed wit_TapAndDebuggerObeyThePolicy_3.hw = true then (after (exec (.tapSamplePreload [((140 : Fin 324),
    (some true : Option Bool))]) wit_TapAndDebuggerObeyThePolicy_3)).hw.tap = .bypass ∧ (after (exec
    (.tapSamplePreload [((140 : Fin 324), (some true : Option Bool))]) wit_TapAndDebuggerObeyThePolicy_3)).hw.resp =
    [0] ∧ (after (exec (.tapSamplePreload [((140 : Fin 324), (some true : Option Bool))])
    wit_TapAndDebuggerObeyThePolicy_3)).hw.scan = wit_TapAndDebuggerObeyThePolicy_3.hw.scan else (after (exec
    (.tapSamplePreload [((140 : Fin 324), (some true : Option Bool))]) wit_TapAndDebuggerObeyThePolicy_3)).hw.tap =
    .sample ∧ (after (exec (.tapSamplePreload [((140 : Fin 324), (some true : Option Bool))])
    wit_TapAndDebuggerObeyThePolicy_3)).hw.resp.length = 10 ∧ (after (exec (.tapSamplePreload [((140 : Fin 324), (some
    true : Option Bool))]) wit_TapAndDebuggerObeyThePolicy_3)).hw.scan.at none (140 : Fin 324) = (some true : Option
    Bool)) ∧ ((after (exec (.tapSamplePreload [((140 : Fin 324), (some true : Option Bool))])
    wit_TapAndDebuggerObeyThePolicy_3)).mem = wit_TapAndDebuggerObeyThePolicy_3.mem)  := by decide +kernel

def wit_TapAndDebuggerObeyThePolicy_4 : State :=
    ((up [(pPIN, 0, PIN_BANK_VOK 3, 1), (pPIN, 0, PIN_BANK_VLVL
    3, 2)]).on (fun h => { h with resetLow := true, scan := [(140, some true)] }) : State)

theorem test_TapAndDebuggerObeyThePolicy_4 :
    (tapOn wit_TapAndDebuggerObeyThePolicy_4.hw = true ∧
    wit_TapAndDebuggerObeyThePolicy_4.hw.bankOk (140 : Fin 324) = true) ∧ (if
    wit_TapAndDebuggerObeyThePolicy_4.hw.resetLow = true ∧ tapSealed wit_TapAndDebuggerObeyThePolicy_4.hw = false then
    (after (exec .tapExtest wit_TapAndDebuggerObeyThePolicy_4)).hw.tap = .extest ∧ (after (exec .tapExtest
    wit_TapAndDebuggerObeyThePolicy_4)).hw.pinBall (140 : Fin 324) = wit_TapAndDebuggerObeyThePolicy_4.hw.scan.at none
    (140 : Fin 324) ∧ (after (exec .tapExtest wit_TapAndDebuggerObeyThePolicy_4)).hw.resp.length = 10 else (after
    (exec .tapExtest wit_TapAndDebuggerObeyThePolicy_4)).hw.tap = .bypass ∧ (after (exec .tapExtest
    wit_TapAndDebuggerObeyThePolicy_4)).hw.resp = [0]) ∧ ((after (exec .tapExtest
    wit_TapAndDebuggerObeyThePolicy_4)).mem = wit_TapAndDebuggerObeyThePolicy_4.mem)  := by decide +kernel

def wit_TapAndDebuggerObeyThePolicy_5 : State :=
    ((up [(pPIN, 0, PIN_BANK_VOK 3, 1), (pPIN, 0, PIN_BANK_VLVL
    3, 2)]).on (fun h => { h with resetLow := true, scan := [(140, some true)] }) : State)

theorem test_TapAndDebuggerObeyThePolicy_5 :
    (tapOn wit_TapAndDebuggerObeyThePolicy_5.hw = true ∧
    wit_TapAndDebuggerObeyThePolicy_5.hw.bankOk (140 : Fin 324) = true) ∧ (if
    wit_TapAndDebuggerObeyThePolicy_5.hw.resetLow = true ∧ tapSealed wit_TapAndDebuggerObeyThePolicy_5.hw = false then
    (after (exec .tapClamp wit_TapAndDebuggerObeyThePolicy_5)).hw.tap = .clamp ∧ (after (exec .tapClamp
    wit_TapAndDebuggerObeyThePolicy_5)).hw.pinBall (140 : Fin 324) = wit_TapAndDebuggerObeyThePolicy_5.hw.scan.at none
    (140 : Fin 324) else (after (exec .tapClamp wit_TapAndDebuggerObeyThePolicy_5)).hw.tap = .bypass) ∧ ((after (exec
    .tapClamp wit_TapAndDebuggerObeyThePolicy_5)).hw.resp = [0] ∧ (after (exec .tapClamp
    wit_TapAndDebuggerObeyThePolicy_5)).mem = wit_TapAndDebuggerObeyThePolicy_5.mem)  := by decide +kernel

def wit_TapAndDebuggerObeyThePolicy_6 : State :=
    ((up []).on (fun h => { h with resetLow := true }) : State)

theorem test_TapAndDebuggerObeyThePolicy_6 :
    (tapOn wit_TapAndDebuggerObeyThePolicy_6.hw = true) ∧ (if
    wit_TapAndDebuggerObeyThePolicy_6.hw.resetLow = true ∧ tapSealed wit_TapAndDebuggerObeyThePolicy_6.hw = false then
    (after (exec .tapHighz wit_TapAndDebuggerObeyThePolicy_6)).hw.tap = .highz ∧ (after (exec .tapHighz
    wit_TapAndDebuggerObeyThePolicy_6)).hw.pinBall (140 : Fin 324) = none else (after (exec .tapHighz
    wit_TapAndDebuggerObeyThePolicy_6)).hw.tap = .bypass) ∧ ((after (exec .tapHighz
    wit_TapAndDebuggerObeyThePolicy_6)).hw.resp = [0] ∧ (after (exec .tapHighz wit_TapAndDebuggerObeyThePolicy_6)).mem
    = wit_TapAndDebuggerObeyThePolicy_6.mem)  := by decide +kernel

def wit_TapAndDebuggerObeyThePolicy_7 : State :=
    ((up []).wr 0x04000100 77 : State)

theorem test_TapAndDebuggerObeyThePolicy_7 :
    (tapOn wit_TapAndDebuggerObeyThePolicy_7.hw = true ∧
    wit_TapAndDebuggerObeyThePolicy_7.hw.lwf 6 % 4 = 0 ∧ 0x04000000 ≤ (0x04000100 : BitVec 32).toNat ∧ (0x04000100 :
    BitVec 32).toNat < 0x04200000 ∧ wit_TapAndDebuggerObeyThePolicy_7.hw.memStopped (0x04000100 : BitVec 32).toNat =
    false) ∧ ((after (exec (.dapacc (0x04000100 : BitVec 32) none) wit_TapAndDebuggerObeyThePolicy_7)).hw.resp =
    [wit_TapAndDebuggerObeyThePolicy_7.rd (0x04000100 : BitVec 32).toNat] ∧ (after (exec (.dapacc (0x04000100 : BitVec
    32) none) wit_TapAndDebuggerObeyThePolicy_7)).hw.f pDBG 0 DBG_STATUS_ATTACHED = 1 ∧ (after (exec (.dapacc
    (0x04000100 : BitVec 32) none) wit_TapAndDebuggerObeyThePolicy_7)).mem = wit_TapAndDebuggerObeyThePolicy_7.mem ∧
    (after (exec (.dapacc (0x04000100 : BitVec 32) none) wit_TapAndDebuggerObeyThePolicy_7)).tags =
    wit_TapAndDebuggerObeyThePolicy_7.tags)  := by decide +kernel

def wit_TapAndDebuggerObeyThePolicy_8 : State :=
    ((up []).wr 0x04000100 77 : State)

theorem test_TapAndDebuggerObeyThePolicy_8 :
    (tapOn wit_TapAndDebuggerObeyThePolicy_8.hw = true ∧
    wit_TapAndDebuggerObeyThePolicy_8.hw.lwf 6 % 4 = 0 ∧ 0x04000000 ≤ (0x04000100 : BitVec 32).toNat ∧ (0x04000100 :
    BitVec 32).toNat < 0x04200000 ∧ wit_TapAndDebuggerObeyThePolicy_8.hw.memStopped (0x04000100 : BitVec 32).toNat =
    false)  := by decide +kernel

def wit_TapAndDebuggerObeyThePolicy_9 : State :=
    ((up []).on (fun h => h.setReg pLWF 0x11 6 1) : State)

theorem test_TapAndDebuggerObeyThePolicy_9 :
    (tapOn wit_TapAndDebuggerObeyThePolicy_9.hw = true ∧
    wit_TapAndDebuggerObeyThePolicy_9.hw.lwf 6 % 4 = 1) ∧ ((after (exec (.dapacc (0x04000100 : BitVec 32) (some 5 :
    Option Word)) wit_TapAndDebuggerObeyThePolicy_9)).hw.resp = [0] ∧ (after (exec (.dapacc (0x04000100 : BitVec 32)
    (some 5 : Option Word)) wit_TapAndDebuggerObeyThePolicy_9)).hw.dapSticky = true ∧ (after (exec (.dapacc
    (0x04000100 : BitVec 32) (some 5 : Option Word)) wit_TapAndDebuggerObeyThePolicy_9)).mem =
    wit_TapAndDebuggerObeyThePolicy_9.mem ∧ (after (exec (.dapacc (0x04000100 : BitVec 32) (some 5 : Option Word))
    wit_TapAndDebuggerObeyThePolicy_9)).tags = wit_TapAndDebuggerObeyThePolicy_9.tags ∧ (after (exec (.dapacc
    (0x04000100 : BitVec 32) (some 5 : Option Word)) wit_TapAndDebuggerObeyThePolicy_9)).hw.cores =
    wit_TapAndDebuggerObeyThePolicy_9.hw.cores)  := by decide +kernel

def wit_TapAndDebuggerObeyThePolicy_10 : State :=
    (up [] : State)

theorem test_TapAndDebuggerObeyThePolicy_10 :
    (accepts wit_TapAndDebuggerObeyThePolicy_10.hw (.debugger :
    Requester) pDBG = true) ∧ (∀ i : Fin 32, ((after (exec (.debugHalt (.debugger : Requester) (5 : Word))
    wit_TapAndDebuggerObeyThePolicy_10)).hw.core i).haltReq = ((wit_TapAndDebuggerObeyThePolicy_10.hw.core i).haltReq
    || (decide (wit_TapAndDebuggerObeyThePolicy_10.hw.lwf 6 % 4 = 0) && bitOf (5 : Word).toNat i))) ∧ (∀ i : Fin 32,
    (after (exec (.debugHalt (.debugger : Requester) (5 : Word)) wit_TapAndDebuggerObeyThePolicy_10)).hw.b pDBG 0
    ⟨0x80, i, 1⟩ = (wit_TapAndDebuggerObeyThePolicy_10.hw.b pDBG 0 ⟨0x80, i, 1⟩ || bitOf (5 : Word).toNat i)) ∧
    ((after (exec (.debugHalt (.debugger : Requester) (5 : Word)) wit_TapAndDebuggerObeyThePolicy_10)).mem =
    wit_TapAndDebuggerObeyThePolicy_10.mem)  := by decide +kernel

def wit_TapAndDebuggerObeyThePolicy_11 : State :=
    ((up []).on (fun h => h.setCore 0
    { h.core 0 with halted := true }) : State)

theorem test_TapAndDebuggerObeyThePolicy_11 :
    (accepts wit_TapAndDebuggerObeyThePolicy_11.hw (.debugger :
    Requester) pDBG = true) ∧ (∀ i : Fin 32, if bitOf (5 : Word).toNat i = true then ((after (exec (.debugResume
    (.debugger : Requester) (5 : Word)) wit_TapAndDebuggerObeyThePolicy_11)).hw.core i).halted = false ∧ ((after (exec
    (.debugResume (.debugger : Requester) (5 : Word)) wit_TapAndDebuggerObeyThePolicy_11)).hw.core i).haltReq = false
    ∧ (after (exec (.debugResume (.debugger : Requester) (5 : Word)) wit_TapAndDebuggerObeyThePolicy_11)).hw.b pDBG 0
    ⟨0x80, i, 1⟩ = false else (after (exec (.debugResume (.debugger : Requester) (5 : Word))
    wit_TapAndDebuggerObeyThePolicy_11)).hw.core i = wit_TapAndDebuggerObeyThePolicy_11.hw.core i) ∧ ((after (exec
    (.debugResume (.debugger : Requester) (5 : Word)) wit_TapAndDebuggerObeyThePolicy_11)).mem =
    wit_TapAndDebuggerObeyThePolicy_11.mem)  := by decide +kernel

theorem test_StepRunsTheFrontCommand_1 : (queued (.registerWrite (.core 3) 1 0x13 4 0x80040001)).pending =
    [.registerWrite (.core 3) 1 0x13 4 0x80040001] ∧ (after (step (queued (.registerWrite (.core 3) 1 0x13 4
    0x80040001)))).pending = [] ∧ (after (step (queued (.registerWrite (.core 3) 1 0x13 4 0x80040001)))).hw.reg ⟨1,
    0x13⟩ 4 0 ≠ 0 := by decide +kernel

theorem test_StepRunsTheFrontCommand_2 : State.reset.pending = [] ∧ (after (step State.reset)).hw.now =
    State.reset.hw.now + 1 := by decide +kernel

theorem test_joinWitness : ∃ ws : List Word,
    let s := up [(pDL 2, 0, DL_STATUS_PSTATE, 5), (pDL 0, 0, DL_NODE_JSTATE, 3), (pDL 0, 0, DL_NODE_ID, 0), (pDL 0, 0, DL_NODE_H, 0)]
    s.hw.rxUp 2 = true ∧ firstCause (joinCauses s.hw (joinReqOf ws 1)) = 0 ∧ s.hw.idFor (joinReqOf ws 1) = some 1 := by
  unfold joinCauses
  generalize Config.uid.toNat = u
  by_cases h : u = 7
  · subst h
    exact ⟨[0, 1024, 8, 0], by decide +kernel⟩
  · refine ⟨[0, 1024, 7, 0], by decide +kernel, ?_, by decide +kernel⟩
    rw [show ((joinReqOf [0, 1024, 7, 0] 1).uid == u) = false from beq_false_of_ne (fun e => h e.symm)]
    decide +kernel

/-- A root whose receive queue holds the request `ws` of node 5, come up by port 1. -/
def joinRoot (ws : List Word) : State :=
  (up [(pDL 0, 0, DL_NODE_JSTATE, 3), (pDL 0, 0, DL_NODE_ID, 0)]).on (fun h => h.onDom (fun d =>
    { d with rxq := [⟨1, 1, ⟨0, 5, 3, 2, 1, 0, ws⟩⟩], routes := [(5, some 1)] }))

theorem test_joinWitnessRouted : ∃ ws : List Word,
    let s := joinRoot ws
    s.hw.jstate = 3 ∧ bitsOf (ws.getD 4 0).toNat 30 8 = 2 ∧ (5 : Nat) ≠ s.hw.nodeId ∧ s.hw.dom.routes.at none 5 = some 1 ∧
      firstCause (joinCauses s.hw (joinReqOf ws 2)) = 0 ∧ s.hw.idFor (joinReqOf ws 2) = some 1 := by
  unfold joinCauses
  generalize Config.uid.toNat = u
  by_cases h : u = 7
  · subst h
    exact ⟨[0, 1024, 8, 0, 0x4080000000], by decide +kernel⟩
  · refine ⟨[0, 1024, 7, 0, 0x4080000000], by decide +kernel, by decide +kernel, by decide +kernel, by decide +kernel, ?_, by decide +kernel⟩
    rw [show ((joinReqOf [0, 1024, 7, 0, 0x4080000000] 2).uid == u) = false from beq_false_of_ne (fun e => h e.symm)]
    decide +kernel

theorem test_EveryStepKeepsMemoryCanonical_1 :
    State.reset.memWf ∧ step State.reset = .next (after (step State.reset)) ∧
    (coreRun [1, 2] {}).memWf ∧ ∃ t, step { coreRun [1, 2] {} with pending := [.clusterReset 0] } = .next t :=
  ⟨by decide +kernel, rfl, by decide +kernel, ⟨_, rfl⟩⟩
/-! ## Ill-formed commands: one for each check, which the check refuses -/
theorem test_illFormed_channelAbsent : Instr.wellFormed (.mangleStartTrigger none 0 ⟨⟨3, 32⟩, none⟩) = false := by decide +kernel
theorem test_illFormed_globalChannelAbsent : Instr.wellFormed (.slotTrigger 0 0 ⟨⟨15, 64⟩, none⟩ 0) = false := by decide +kernel
theorem test_illFormed_channelOfNoOwner : Instr.wellFormed (.windowSync 0 0 ⟨⟨9, 0⟩, none⟩) = false := by decide +kernel
theorem test_illFormed_channelTwice : Instr.wellFormed (.evpInputArrival 0 0 ⟨⟨1, 2⟩, some ⟨1, 2⟩⟩) = false := by decide +kernel
theorem test_illFormed_secondChannelAbsent : Instr.wellFormed (.sdfSync 0 0 ⟨⟨1, 2⟩, some ⟨1, 99⟩⟩ []) = false := by decide +kernel
theorem test_illFormed_arrivalInList : Instr.wellFormed (.adcSeqTrigger 0 [(0, ⟨⟨1, 2⟩, none⟩), (1, ⟨⟨1, 40⟩, none⟩)]) = false := by decide +kernel
theorem test_illFormed_arrivalAtWatch : Instr.wellFormed (.aowSourceEdge 0 (some ⟨⟨8, 0⟩, none⟩)) = false := by decide +kernel
theorem test_illFormed_arrivalAtHamper : Instr.wellFormed (.hamperTrigger (some ⟨⟨8, 0⟩, none⟩) false) = false := by decide +kernel
theorem test_illFormed_arrivalAtCadence : Instr.wellFormed (.hamperCadence ⟨⟨8, 0⟩, none⟩) = false := by decide +kernel
theorem test_illFormed_arrivalAtCommit : Instr.wellFormed (.pwmCommit 0 (.seam 1 ⟨⟨8, 0⟩, none⟩)) = false := by decide +kernel
theorem test_illFormed_arrivalAtSync : Instr.wellFormed (.pwmSync 0 (.seam 1 ⟨⟨8, 0⟩, none⟩)) = false := by decide +kernel
theorem test_illFormed_noSpan : Instr.wellFormed (.conversionDone 0 0 ⟨5, 0, 0, 0⟩) = false := by decide +kernel
theorem test_illFormed_noSpanAtStartUp : Instr.wellFormed (.startupCalibrationDone 0 ⟨5, 0, 9, 0⟩ ⟨5, 0, 9, 0⟩ ⟨5, 0, -1, 0⟩) = false := by decide +kernel
theorem test_illFormed_noSpanAtCalibration : Instr.wellFormed (.calibrationDone 0 ⟨5, 0, 0, 0⟩) = false := by decide +kernel
theorem test_illFormed_noSpanAtReadback : Instr.wellFormed (.readbackDone 0 ⟨5, 0, 0, 0⟩) = false := by decide +kernel
theorem test_illFormed_noSpanAtComparator : Instr.wellFormed (.comparatorCrossing 0 0 ⟨5, 0, 0, 0⟩) = false := by decide +kernel
theorem test_illFormed_copiedTooLong : Instr.wellFormed (.exceptionEntry 0 16777216) = false := by decide +kernel
theorem test_illFormed_copiedTooLongAtInterrupt : Instr.wellFormed (.interruptEntry 0 16777216) = false := by decide +kernel
theorem test_illFormed_symbolsTooMany : Instr.wellFormed (.dramRequestServe [] 0 33 []) = false := by decide +kernel
theorem test_illFormed_wordsTooManyInLine : Instr.wellFormed (.dramRequestServe [] 0 5 (List.replicate 9 0)) = false := by decide +kernel
theorem test_illFormed_symbolsTooManyAtPclr : Instr.wellFormed (.dramPclr .host (0, ⟨0, 33, []⟩)) = false := by decide +kernel
theorem test_illFormed_symbolsTooManyInBurst : Instr.wellFormed (.darnerBurstGrant () [⟨0, 4, []⟩, ⟨0, 33, []⟩]) = false := by decide +kernel
theorem test_illFormed_programTooLong : Instr.wellFormed (.programDone false (List.replicate 101 0)) = false := by decide +kernel
theorem test_illFormed_recordTooLong : Instr.wellFormed (.ledgerRecordDone false (List.replicate 101 0)) = false := by decide +kernel
theorem test_illFormed_eraseOutsideFlash : Instr.wellFormed (.eraseDone false [(0x800000, 0)] ()) = false := by decide +kernel
theorem test_illFormed_powerOnOutsideFlash : Instr.wellFormed (.powerOnReset false 0 [(0x800000, 0)] 0) = false := by decide +kernel
theorem test_illFormed_sectorAbsent : Instr.wellFormed (.pllLock ⟨[2048], []⟩) = false := by decide +kernel
theorem test_illFormed_bootEraseOutsideSector : Instr.wellFormed (.resetN false 0 ⟨[], [⟨false, 0, [(4096, 0)]⟩]⟩) = false := by decide +kernel
theorem test_illFormed_sectorAbsentAtLoad : Instr.wellFormed (.lwfLoad ⟨[2048], []⟩) = false := by decide +kernel
theorem test_illFormed_laneAbsentInTraining : Instr.wellFormed (.blockLockAcquired 0 0xF [0, 0, 0, 0, 0]) = false := by decide +kernel
theorem test_illFormed_laneAbsentInDeskew : Instr.wellFormed (.deskewDone 0 [0, 0, 0, 0, 0]) = false := by decide +kernel
theorem test_illFormed_frameTooLong : Instr.wellFormed (.frameReceive 0 (List.replicate 101 0) .ok) = false := by decide +kernel
theorem test_illFormed_frameTypeAbsent : Instr.wellFormed (.frameRoute 0 0 none ⟨4, 0, 0, 0, 0, 0, 0, 0⟩) = false := by decide +kernel
theorem test_illFormed_nodeTooLarge : Instr.wellFormed (.frameRoute 0 0 none ⟨0, 16384, 0, 0, 0, 0, 0, 0⟩) = false := by decide +kernel
theorem test_illFormed_sourceTooLarge : Instr.wellFormed (.frameRoute 0 0 none ⟨0, 0, 16384, 0, 0, 0, 0, 0⟩) = false := by decide +kernel
theorem test_illFormed_classTooLarge : Instr.wellFormed (.frameRoute 0 0 none ⟨0, 0, 0, 4, 0, 0, 0, 0⟩) = false := by decide +kernel
theorem test_illFormed_hopsTooLarge : Instr.wellFormed (.frameRoute 0 0 none ⟨0, 0, 0, 0, 256, 0, 0, 0⟩) = false := by decide +kernel
theorem test_illFormed_kindTooLarge : Instr.wellFormed (.frameRoute 0 0 none ⟨0, 0, 0, 0, 0, 256, 0, 0⟩) = false := by decide +kernel
theorem test_illFormed_eseqTooLarge : Instr.wellFormed (.frameRoute 0 0 none ⟨0, 0, 0, 0, 0, 0, 65536, 0⟩) = false := by decide +kernel
theorem test_illFormed_payloadTooLarge : Instr.wellFormed (.frameRoute 0 0 none ⟨0, 0, 0, 0, 0, 0, 0, 512⟩) = false := by decide +kernel
theorem test_illFormed_helloTooLong : Instr.wellFormed (.dlHello 0 (List.replicate 101 0)) = false := by decide +kernel
theorem test_illFormed_childReqTooLong : Instr.wellFormed (.childReq 0 (List.replicate 101 0)) = false := by decide +kernel
theorem test_illFormed_childGrantTooLong : Instr.wellFormed (.childGrant 0 (List.replicate 101 0)) = false := by decide +kernel
theorem test_illFormed_childRefuseTooLong : Instr.wellFormed (.childRefuse 0 (List.replicate 101 0)) = false := by decide +kernel
theorem test_illFormed_syncTooLong : Instr.wellFormed (.dlSync 0 (List.replicate 101 0) 0) = false := by decide +kernel
theorem test_illFormed_dreqTooLong : Instr.wellFormed (.dlDreq 0 (List.replicate 101 0) 0) = false := by decide +kernel
theorem test_illFormed_drespTooLong : Instr.wellFormed (.dlDresp 0 (List.replicate 101 0)) = false := by decide +kernel
theorem test_illFormed_streamClassUnsequenced : Instr.wellFormed (.resumeReqRepeat ⟨3, false, 5⟩) = false := by decide +kernel
theorem test_illFormed_streamOfNoNode : Instr.wellFormed (.resumeReqRepeat ⟨2, false, 16384⟩) = false := by decide +kernel
theorem test_illFormed_hostWriteTooLong : Instr.wellFormed (.hostWrite 0 0 (List.replicate 4097 none)) = false := by decide +kernel
theorem test_illFormed_ethernetFrameTooLong : Instr.wellFormed (.ethFrameReceive 0 (List.replicate 9001 0) true 0) = false := by decide +kernel
theorem test_wellFormed : [Instr.mangleStartTrigger none 0 ⟨⟨3, 31⟩, none⟩, .slotTrigger 0 0 ⟨⟨15, 63⟩, some ⟨15, 0⟩⟩ 0,
    .conversionDone 0 0 ⟨5, 0, 1, 0⟩, .dramRequestServe [] 0 32 [], .resumeReqRepeat ⟨2, false, 16383⟩,
    .frameRoute 0 0 none ⟨3, 16383, 16383, 3, 255, 255, 65535, 511⟩].all Instr.wellFormed = true := by decide +kernel

end
end

/-! What every command keeps: it answers, leaves the queue of waiting commands alone, and keeps memory in its canonical
form. One lemma for each operation on the whole machine, in the order of the model's files. -/

namespace Sys2Proof.Machine

open Sys2Proof

/-- The commands that wait, the words and the tag bytes of `t` are those of `s`. -/
structure State.SameStore (s t : State) : Prop where
  pending : t.pending = s.pending
  mem : t.mem = s.mem
  tags : t.tags = s.tags

/-- The commands that wait in `t` are those of `s`, and memory stands in its canonical form in `t` where it does in `s`. -/
structure State.Kept (s t : State) : Prop where
  pending : t.pending = s.pending
  memWf : s.memWf → t.memWf

namespace State

variable {s t u : State}

theorem SameStore.refl (s : State) : s.SameStore s := ⟨rfl, rfl, rfl⟩

theorem SameStore.trans (h : s.SameStore t) (h' : t.SameStore u) : s.SameStore u :=
  ⟨h'.pending.trans h.pending, h'.mem.trans h.mem, h'.tags.trans h.tags⟩

theorem SameStore.on (h : s.SameStore t) (f : Hw → Hw) : s.SameStore (t.on f) := ⟨h.pending, h.mem, h.tags⟩

theorem SameStore.onFst {α : Type} {a : α} (h : s.SameStore t) (f : Hw → Hw) : s.SameStore (t.on f, a).1 := h.on f

theorem FrontOnly.same {k : Fin 32} (h : FrontOnly k s t) : s.SameStore t := ⟨h.pending, h.mem, h.tags⟩

/-- A fold of steps that each leave the store leaves it. -/
theorem SameStore.foldl {β : Type} {f : State → β → State} (hf : ∀ (t : State) b, t.SameStore (f t b)) (l : List β)
    (h : s.SameStore t) : s.SameStore (l.foldl f t) := by
  induction l generalizing t with
  | nil => exact h
  | cons b rest ih => exact ih (h.trans (hf t b))

/-- A fold of steps over a state and what has been gathered. -/
theorem SameStore.foldlFst {α β : Type} {f : State × α → β → State × α} (hf : ∀ (x : State × α) b, x.1.SameStore (f x b).1)
    (l : List β) {x : State × α} (h : s.SameStore x.1) : s.SameStore (l.foldl f x).1 := by
  induction l generalizing x with
  | nil => exact h
  | cons b rest ih => exact ih (h.trans (hf x b))

theorem SameStore.kept (h : s.SameStore t) : s.Kept t := ⟨h.pending, fun hs => memWf_of_eq hs h.mem h.tags⟩

theorem Kept.refl (s : State) : s.Kept s := ⟨rfl, id⟩

theorem Kept.trans (h : s.Kept t) (h' : t.Kept u) : s.Kept u := ⟨h'.pending.trans h.pending, h'.memWf ∘ h.memWf⟩

theorem Kept.on (h : s.Kept t) (f : Hw → Hw) : s.Kept (t.on f) := ⟨h.pending, h.memWf⟩

theorem Kept.onFst {α : Type} {a : α} (h : s.Kept t) (f : Hw → Hw) : s.Kept (t.on f, a).1 := h.on f

theorem Kept.foldl {β : Type} {f : State → β → State} (hf : ∀ (t : State) b, t.Kept (f t b)) (l : List β) (h : s.Kept t) :
    s.Kept (l.foldl f t) := by
  induction l generalizing t with
  | nil => exact h
  | cons b rest ih => exact ih (h.trans (hf t b))

theorem Kept.foldlFst {α β : Type} {f : State × α → β → State × α} (hf : ∀ (x : State × α) b, x.1.Kept (f x b).1) (l : List β)
    {x : State × α} (h : s.Kept x.1) : s.Kept (l.foldl f x).1 := by
  induction l generalizing x with
  | nil => exact h
  | cons b rest ih => exact ih (h.trans (hf x b))

/-! ### Memory -/

theorem wr_kept (s : State) (g : Nat) (v : Word) : s.Kept (s.wr g v) := ⟨rfl, fun h => memWf_wr h g v⟩

theorem wrList_kept (s : State) (g : Nat) (vs : List Word) : s.Kept (s.wrList g vs) :=
  ⟨pending_wrList s g vs, fun h => memWf_wrList h g vs⟩

theorem setTag_kept (s : State) (g : Nat) (v : BitVec 8) : s.Kept (s.setTag g v) := ⟨rfl, fun h => memWf_setTag h g v⟩

theorem forget_kept (s : State) (lo n : Nat) : s.Kept (s.forget lo n) := ⟨rfl, fun h => memWf_forget h lo n⟩

theorem softWr_kept (s : State) (g : Nat) (v : Word) : s.Kept (s.softWr g v) := (wr_kept s g v).on _

theorem commitWr_kept (s : State) (g : Nat) (v : Word) : s.Kept (s.commitWr g v) := by
  unfold commitWr
  split
  · exact .refl s
  · exact wr_kept s g v

theorem keepFlash_kept (s : State) (dram : Bool) : s.Kept (s.keepFlash dram) := ⟨rfl, fun h => memWf_keepFlash h dram⟩

/-- Words that each lie where the step says, written one by one. -/
theorem wrEach_kept {β : Type} (at' : β → Nat) (v : β → Word) (l : List β) (s : State) :
    s.Kept (l.foldl (fun t b => t.wr (at' b) (v b)) s) := .foldl (fun t _ => wr_kept t _ _) _ (.refl s)

theorem direct_kept (s : State) (r : Requester) (p : Page) (off : Nat) {eff : State → State} (he : ∀ t : State, t.Kept (eff t)) :
    s.Kept (s.direct r p off eff) := by
  rcases direct_cases s r p off eff with ⟨h, e⟩ | ⟨i, _, _, _, e⟩
  · rw [e]; exact ⟨rfl, id⟩
  · rw [e]; exact ((Kept.refl s).on _).trans (he (s.on fun h => (h.granted (h.acc r) p).noteSw (h.acc r) p i off))

/-! ### Loop Engine -/

theorem latchSource_same (s : State) (c sl : Nat) : s.SameStore (s.latchSource c sl) := by
  unfold latchSource
  dsimp only
  split
  · exact .on (.refl s) _
  · exact .refl s

theorem latchBefore_same (s : State) (c edge : Nat) : s.SameStore (s.latchBefore c edge) := by
  refine .foldl (fun t sl => ?_) _ (.refl s)
  split
  · exact latchSource_same t c sl
  · exact .refl t

theorem latchAll_same (s : State) : s.SameStore s.latchAll := .foldl (fun t _ => latchSource_same t _ _) _ (.refl s)

theorem loopTrigger_same (s : State) (c sl e : Nat) : s.SameStore (s.loopTrigger c sl e) := by
  unfold loopTrigger
  dsimp only
  repeat' split
  all_goals exact ⟨rfl, rfl, rfl⟩

theorem loopSwtrig_same (s : State) (c e : Nat) (d : Word) : s.SameStore (s.loopSwtrig c e d) := by
  refine .foldl (fun t sl => ?_) _ (.refl s)
  split
  · exact loopTrigger_same t c sl e
  · exact .refl t

theorem takeBank_same (s : State) (c : Nat) : s.SameStore (s.takeBank c) := by
  unfold takeBank
  split
  · exact .refl s
  · exact .on (.refl s) _

theorem loopCommit_kept (s : State) (c edge : Nat) (x : RunOut) (frame : Bool) : s.Kept (s.loopCommit c edge x frame) := by
  have store (t : State) (q : List (Nat × Word)) : t.Kept (q.foldr (fun e u => u.commitWr (loopAddr c e.1) e.2) t) := by
    induction q with
    | nil => exact .refl t
    | cons e rest ih => exact ih.trans (commitWr_kept ..)
  unfold loopCommit
  extract_lets r sl s1 s2 s3 s4 s5 tgt s6
  split
  · exact .refl s
  · have h3 : s.Kept s3 := ((latchBefore_same s c edge).on _).kept.trans (store s2 r.queue)
    have h4 : s3.Kept s4 := by
      dsimp only [s4]
      split
      · exact .on (.refl s3) _
      · exact commitWr_kept ..
      · exact .refl s3
    have h5 : s.Kept s5 := (h3.trans h4).on _
    split
    · split
      · exact (h5.on _).trans (loopTrigger_same ..).kept
      · exact h5.on _
    · exact h5

theorem frameEnd_kept (s : State) (c : Nat) (r : LoopRun) : s.Kept (s.frameEnd c r) := by
  unfold frameEnd
  split
  · exact loopCommit_kept ..
  · exact .refl s

theorem frameCall_same (s : State) (c : Nat) (r : LoopRun) : s.SameStore (s.frameCall c r) := by
  unfold frameCall
  split
  · exact .refl s
  · exact .on (.refl s) _

/-- A microword changes the run and registers, whatever it computes. -/
theorem micro_same (s : State) (c op : Nat) (x : UcCycle) (f : State → LoopRun → UcWord → UcRes) :
    s.SameStore (s.micro c op x f) := by
  unfold micro
  dsimp only
  repeat' split
  all_goals exact ⟨rfl, rfl, rfl⟩

theorem microSeq_same (s : State) (c op : Nat) (x : UcCycle) (f : State → LoopRun → UcWord → LoopRun) :
    s.SameStore (s.microSeq c op x f) := micro_same ..

theorem microBin_same (s : State) (c op : Nat) (x : UcCycle) (g : Int → Int → Int) : s.SameStore (s.microBin c op x g) :=
  microSeq_same ..

theorem microUn_same (s : State) (c op : Nat) (x : UcCycle) (g : Int → Nat → Int) : s.SameStore (s.microUn c op x g) :=
  microSeq_same ..

theorem microAcc_same (s : State) (c op : Nat) (x : UcCycle) (g : Int → Int → Int) : s.SameStore (s.microAcc c op x g) :=
  microSeq_same ..

/-! ### DRAM, the Darner and the Hamper's dump -/

theorem setTags_kept (s : State) (l : Nat) (v : BitVec 8) : s.Kept (s.setTags l v) :=
  .foldl (fun t _ => setTag_kept t _ _) _ (.refl s)

theorem writeLine_kept (s : State) (l : Nat) (ws : List Word) (tag : BitVec 8) : s.Kept (s.writeLine l ws tag) :=
  ((wrList_kept ..).trans (setTags_kept ..)).on _

theorem copyLine_kept (s : State) (src dst : Nat) (head : Option Word) : s.Kept (s.copyLine src dst head) := by
  unfold copyLine
  exact (Kept.foldl (fun t _ => setTag_kept t _ _) _ (wrList_kept ..)).on _

theorem copyLines_kept (s : State) (src dst n : Nat) : s.Kept (s.copyLines src dst n) := by
  refine ⟨?_, fun h => memWf_copyLines h src dst n⟩
  have words (l : List (Nat × Word)) (f : Nat → Nat) (t : State) : (l.foldl (fun t e => t.wr (f e.1) e.2) t).pending = t.pending :=
    (wrEach_kept (fun e => f e.1) (·.2) l t).pending
  have tags (l : List Host.Cell) (f : Nat → Nat) (t : State) : (l.foldl (fun t e => t.setTag (f e.1) e.2) t).pending = t.pending :=
    (Kept.foldl (fun t e => setTag_kept t (f e.1) e.2) l (.refl t)).pending
  unfold copyLines
  exact (tags _ (fun a => a - lineBase src + lineBase dst) _).trans (words _ (fun a => a - lineBase src + lineBase dst) _)

theorem putErroneous_kept (s : State) (line : Nat) (ws : List Word) (but : List (Fin 8)) : s.Kept (s.putErroneous line ws but) := by
  refine .foldl (fun t i => ?_) _ (.refl s)
  split
  · exact .refl t
  · exact wr_kept ..

/-- R427. Erroneous words and their tags. -/
theorem putPoison_kept (s : State) (line : Nat) (ws : List Word) (but : List (Fin 8)) (v : BitVec 8) :
    s.Kept ((s.putErroneous line ws but).setTags line v) := (putErroneous_kept ..).trans (setTags_kept ..)

theorem modifyLine_kept (s : State) (cls origin req line : Nat) (slots : List (Fin 8)) (x : DieRep) :
    s.Kept (s.modifyLine cls origin req line slots x) := by
  unfold modifyLine
  extract_lets bad s1
  have h1 : s.Kept s1 := (Kept.refl s).on _
  clear_value bad
  split
  · exact h1.trans (putPoison_kept ..)
  · split
    · exact h1.trans (putPoison_kept ..)
    · exact h1

theorem dramServe_kept (s : State) (q : DramReq) (x : DieRep) : s.Kept (s.dramServe q x) := by
  unfold dramServe
  dsimp only
  split
  · exact modifyLine_kept ..
  · repeat' split
    all_goals exact ⟨rfl, id⟩

theorem dramSlot_kept (s : State) (came : List DramReq) (x : DieRep) : s.Kept (s.dramSlot came x) := by
  unfold dramSlot
  extract_lets s1
  have h1 : s.Kept s1 := (Kept.refl s).on _
  split
  · exact .refl s
  · split
    · exact h1
    · exact (h1.on _).trans (dramServe_kept ..)

theorem rewrite_kept (s : State) (line : Nat) : s.Kept (s.rewrite line) := by
  unfold rewrite
  split
  · exact .refl s
  · split
    · exact .refl s
    · exact ((putErroneous_kept ..).on _).trans (setTags_kept ..)

theorem pclr_kept (s : State) (r : Requester) (d : Word) (x : DieRep) : s.Kept (s.pclr r d x) := by
  unfold pclr
  split
  · exact .refl s
  · extract_lets line poisons s1
    have h1 : s.Kept s1 := modifyLine_kept ..
    split
    · exact h1
    · exact .foldl (fun t _ => setTag_kept ..) _ h1

theorem dramWrite_kept (s : State) (r : Requester) (off : Nat) (d : Word) : s.Kept (s.dramWrite r off d) := by
  unfold dramWrite
  split
  · exact pclr_kept ..
  · exact .on (.refl s) _

theorem darnerStep_kept (s : State) (x : DieRep) : s.Kept (s.darnerStep x) := by
  unfold darnerStep
  extract_lets line s1 s2
  have h1 : s.Kept s1 := (Kept.refl s).on _
  have h2 : s1.Kept s2 := by
    dsimp only [s2]
    split
    · exact .on (.refl s1) _
    · exact modifyLine_kept ..
  exact (h1.trans h2).on _

theorem darnerGrant_kept (s : State) (reps : List DieRep) : s.Kept (s.darnerGrant reps) := by
  unfold darnerGrant
  split
  · exact .refl s
  · extract_lets s1 n s2
    have h1 : s.Kept s1 := (Kept.refl s).on _
    have h2 : s1.Kept s2 := by
      dsimp only [s2]
      split
      · exact .foldl (fun t _ => darnerStep_kept ..) _ (.refl s1)
      · exact .refl s1
    exact (h1.trans h2).on _

theorem dumpDone_kept (s : State) : s.Kept s.dumpDone := by
  unfold dumpDone
  split
  · exact ((copyLines_kept ..).trans (copyLines_kept ..)).on _
  · exact .refl s

/-! ### Flash, the ledger and the limited-write fields -/

theorem flashCmd_same (s : State) (a : Acc) (d : Word) : s.SameStore (s.flashCmd a d) := by
  unfold flashCmd
  dsimp only
  split
  all_goals exact .on (.refl s) _

theorem programDone_kept (s : State) (ok : Bool) (left : List Word) : s.Kept (s.programDone ok left) := by
  unfold programDone
  split
  · exact (wrList_kept ..).on _
  · exact .refl s

theorem recordDone_kept (s : State) (ok : Bool) (left : List Word) : s.Kept (s.recordDone ok left) := by
  unfold recordDone
  split
  · dsimp only
    split
    · exact (wrList_kept ..).on _
    · exact (wrList_kept ..).on _
  · exact .refl s

theorem eraseDone_kept (s : State) (ok : Bool) (us : Nat) (left : List (Nat × Word)) : s.Kept (s.eraseDone ok us left) := by
  unfold eraseDone
  extract_lets clear
  have hclear (t : State) (sector : Nat) : t.Kept (clear t sector) := by
    dsimp only [clear]
    split
    · exact (forget_kept ..).on _
    · exact ((forget_kept ..).on _).trans (wrEach_kept (fun e => flashAddr (4096 * sector + e.1 % 4096)) (·.2) left _)
  split
  · split
    · exact hclear ..
    · exact (hclear ..).on _
  · exact (hclear ..).on _
  · exact .refl s

theorem flashWrite_same (s : State) (a : Acc) (off ch : Nat) (d : Word) : s.SameStore (s.flashWrite a off ch d) := by
  unfold flashWrite
  split
  · exact flashCmd_same ..
  · split
    all_goals exact .on (.refl s) _

theorem flashOp_kept (s : State) (w : Requester) (op sector : Nat) : s.Kept (s.flashOp w op sector) :=
  direct_kept _ _ _ _ (fun t => (flashCmd_same t _ _).kept)

/-! ### Cores -/

theorem setCore_same (s : State) (k : Fin 32) (c : CoreSt) : s.SameStore (s.setCore k c) := ⟨rfl, rfl, rfl⟩

theorem demand_same (s : State) (k : Fin 32) : s.SameStore (s.demand k) := (demand_frontOnly s k).same

theorem moved_same (s : State) (k : Fin 32) (m : Move) : s.SameStore (s.moved k m) := by
  obtain ⟨hm, ht, hp, -⟩ := moved_spec s k m
  exact ⟨hp, hm, ht⟩

theorem landed_same (s : State) (k : Fin 32) (m : Move) (target : Nat) : s.SameStore (s.landed k m target) := by
  obtain ⟨hm, ht, hp, -⟩ := landed_spec s k m target
  exact ⟨hp, hm, ht⟩

theorem jumped_same (s : State) (k : Fin 32) (m : Move) (target : Nat) : s.SameStore (s.jumped k m target) :=
  (landed_same ..).trans (demand_same ..)

end State

/-- What has become of a move, where it has an effect, keeps what `s` has. -/
def Done.Keeps (s : State) : Done → Prop
  | .moved t => s.Kept t
  | .jumped t _ => s.Kept t
  | _ => True

namespace State

theorem load_keeps (s : State) (k : Fin 32) (a : Nat) (dbl : Bool) (next : Option Word) : (s.load k a dbl next).Keeps s := by
  unfold load
  extract_lets c c' places faults held page slow words
  clear_value c' faults held page slow
  split
  · exact trivial
  · split
    · exact trivial
    · split
      · exact (setCore_same ..).kept
      · exact trivial
    · split
      · exact trivial
      · split
        · exact (setCore_same ..).kept
        · exact (setCore_same ..).kept

theorem store_keeps (s : State) (k : Fin 32) (a : Nat) (words : List Word) (next : Option Word) :
    (s.store k a words next).Keeps s := by
  unfold store
  extract_lets c c' split' r
  clear_value c' split' r
  split
  · split
    · exact trivial
    · split
      · exact (SameStore.kept (setCore_same s k c')).on _
      · exact (setCore_same ..).kept
  · split
    · exact trivial
    · exact (setCore_same ..).kept

theorem lsu_keeps (s : State) (k : Fin 32) (e : Nat) (t : Word) : (s.lsu k e t).Keeps s := by
  unfold lsu
  dsimp only
  split
  · exact load_keeps ..
  · exact load_keeps ..
  · exact load_keeps ..
  · exact store_keeps ..
  · exact store_keeps ..
  · exact store_keeps ..

theorem gate_keeps (s : State) (k : Fin 32) (kind : MoveKind) (g : Nat) : (s.gate k kind g).Keeps s := by
  unfold gate
  dsimp only
  split
  · exact (wrList_kept ..).on _
  · exact trivial

theorem pred_keeps (s : State) (k : Fin 32) (t : Word) : (s.pred k t).Keeps s := by
  unfold pred
  dsimp only
  split
  · exact trivial
  · split
    · exact trivial
    · exact (setCore_same ..).kept

theorem brk_keeps (s : State) (k : Fin 32) (kind : MoveKind) : (s.brk k kind).Keeps s := by
  unfold brk
  dsimp only
  split
  · exact (setCore_same ..).kept
  · exact trivial

theorem call_keeps (s : State) (k : Fin 32) (kind : MoveKind) (target : Nat) : (s.call k kind target).Keeps s := by
  unfold call
  dsimp only
  split
  · exact (setCore_same ..).kept
  · exact trivial

theorem ret_keeps (s : State) (k : Fin 32) : (s.ret k).Keeps s := by
  unfold ret
  dsimp only
  split
  · exact trivial
  · exact (setCore_same ..).kept

theorem putOut_keeps (s : State) (k : Fin 32) (kind : MoveKind) (e : Nat) (t : Word) : (s.putOut k kind e t).Keeps s := by
  unfold putOut
  dsimp only
  split
  · exact Kept.refl s
  · exact Kept.refl s
  · exact call_keeps ..
  · exact call_keeps ..
  · exact ret_keeps ..
  · exact (Kept.refl s).on _
  · split
    · exact Kept.refl s
    · exact trivial
  · exact gate_keeps ..
  · exact pred_keeps ..
  · exact (Kept.refl s).on _
  · exact trivial
  · exact brk_keeps ..
  · exact lsu_keeps ..

theorem putInto_keeps (s : State) (k : Fin 32) (kind : MoveKind) (e : Nat) (t : Word) : (s.putInto k kind e t).Keeps s := by
  unfold putInto
  split
  · exact putOut_keeps ..
  · split
    · exact (setCore_same ..).kept
    · exact trivial
    · exact trivial

theorem restoreDiv_same (s : State) (k : Fin 32) (a : Nat) : s.SameStore (s.restoreDiv k a) := by
  unfold restoreDiv
  dsimp only
  split
  · exact setCore_same ..
  · exact .trans (.on (.refl s) _) (setCore_same ..)

theorem restoreCpy_same (s : State) (k : Fin 32) (a : Nat) : s.SameStore (s.restoreCpy k a) := by
  unfold restoreCpy
  dsimp only
  split
  · exact setCore_same ..
  · exact setCore_same ..

theorem unframe_same (s : State) (k : Fin 32) (a : Nat) : s.SameStore (s.unframe k a) := by
  unfold unframe
  extract_lets f c c' s1 s2
  have h1 : s.SameStore s1 := (setCore_same s k c').on _
  have h2 : s.SameStore s2 := by
    dsimp only [s2]
    split
    · exact h1.trans (restoreDiv_same ..)
    · exact h1
  split
  · exact h1
  · split
    · exact h2.trans (restoreCpy_same ..)
    · exact h2

theorem gret_same (s : State) (k : Fin 32) (m : Move) : s.SameStore (s.gret k m) :=
  (((unframe_same ..).trans (landed_same ..)).on _).trans (demand_same ..)

theorem decode_same (s : State) (k : Fin 32) (m : Move) : s.SameStore (s.decode k m) := (decode_frontOnly s k m).same

theorem issue_kept (s : State) (k : Fin 32) (m : Move) : s.Kept (s.issue k m) := by
  unfold issue
  split
  · exact (moved_same ..).kept
  · split
    · exact .refl s
    · exact ((decode_same ..).on _).kept
    · next c t _ =>
      have h1 : s.Kept (s.setCore k c) := (setCore_same ..).kept
      dsimp only
      split
      · split
        · exact .refl s
        · split
          · exact h1.trans (gret_same ..).kept
          · exact ((decode_same ..).on _).kept
      · have h2 := putInto_keeps (s.setCore k c) k m.kind m.dst t
        split
        · next u e => rw [e] at h2; exact (h1.trans h2).trans (moved_same ..).kept
        · next u target e => rw [e] at h2; exact (h1.trans h2).trans (jumped_same ..).kept
        · exact .refl s
        · exact ((decode_same ..).on _).kept
        · exact (h1.trans (frontEnd_frontOnly ..).same.kept).on _

theorem coreMove_kept (s : State) (k : Fin 32) (sel : Move → Bool) : s.Kept (s.coreMove k sel) := by
  rcases coreMove_cases s k sel with e | ⟨-, -, e⟩ | ⟨a, r, -, -, e⟩ | ⟨-, -, e⟩ | ⟨m, -, -, -, e⟩
  · rw [e]; exact .refl s
  · rw [e]; exact (demand_same ..).kept
  · rw [e]; exact (Kept.refl s).on _
  · rw [e]; exact (Kept.refl s).on _
  · rw [e]; exact issue_kept ..

theorem corePrefix_same (s : State) (k : Fin 32) : s.SameStore (s.corePrefix k) := by
  unfold corePrefix
  extract_lets c
  split
  · exact .refl s
  · split
    · exact demand_same ..
    · exact .on (.refl s) _
    · exact .on (.refl s) _
    · exact .refl s
    · next r _ =>
      have hgo : s.SameStore
          (((s.setCore k { c.prefixed r with entered := none }).on (fun h => h.leavePacket k true)).demand k) :=
        ((setCore_same ..).on _).trans (demand_same ..)
      dsimp only
      split
      · exact demand_same ..
      · exact hgo
      · split
        · exact .on (.refl s) _
        · exact hgo

/-! ### Domains, generations and mailboxes -/

theorem ctxbWrite_same (s : State) (r : Requester) (d : Word) : s.SameStore (s.ctxbWrite r d) := by
  unfold ctxbWrite
  extract_lets b s1
  have h1 : s.SameStore s1 := .on (.refl s) _
  split
  · exact h1
  · dsimp only
    split
    · exact h1.on _
    · exact h1.on _

theorem writeLines_kept (s : State) (n l : Nat) (ws : List Word) (tag : BitVec 8) : s.Kept (s.writeLines n l ws tag) :=
  .foldl (fun _ _ => writeLine_kept ..) _ (.refl s)

theorem freshBlock_kept (s : State) (g : OpenGen) (i : Nat) (f : Frame) : s.Kept (s.freshBlock g i f) := by
  unfold freshBlock
  dsimp only
  split
  · exact (writeLines_kept ..).on _
  · exact (Kept.refl s).on _

theorem publication_kept (s : State) : s.Kept s.publication := by
  unfold publication
  split
  · exact .refl s
  · next f h _ =>
    have h0 : s.Kept { s with hw := h } := ⟨rfl, id⟩
    dsimp only
    split
    · exact h0
    · split
      · split
        · exact (h0.on _).trans (freshBlock_kept ..)
        · exact (h0.on _).on _
      · exact (h0.on _).on _

theorem absentBlock_kept (s : State) (g : OpenGen) (i : Nat) : s.Kept (s.absentBlock g i) := by
  unfold absentBlock
  split
  · exact writeLines_kept ..
  · exact .refl s

theorem staleBlock_kept (s : State) (g : OpenGen) (i : Nat) : s.Kept (s.staleBlock g i) := by
  unfold staleBlock
  extract_lets d
  split
  · exact absentBlock_kept ..
  · split
    · exact absentBlock_kept ..
    · dsimp only
      split
      · exact (Kept.refl s).on _
      · exact (Kept.foldl (fun t j => copyLine_kept ..) _ (.refl s)).on _

theorem completeGen_kept (s : State) (g : OpenGen) : s.Kept (s.completeGen g) := by
  unfold completeGen
  exact (Kept.foldl (fun t _ => absentBlock_kept ..) _ (Kept.foldl (fun t _ => staleBlock_kept ..) _ (.refl s))).on _

theorem generationComplete_kept (s : State) : s.Kept s.generationComplete := by
  unfold generationComplete
  split
  · exact .refl s
  · extract_lets d all due
    clear_value due
    split
    · exact completeGen_kept ..
    · exact .refl s

theorem openGen_kept (s : State) (n : Nat) : s.Kept (s.openGen n) := by
  unfold openGen
  split
  · exact .refl s
  · extract_lets s1
    have h1 : s.Kept s1 := by
      dsimp only [s1]
      split
      · exact completeGen_kept ..
      · exact .refl s
    split
    · exact h1
    · exact h1.on _

theorem domTick_kept (s : State) : s.Kept s.domTick := by
  unfold domTick
  dsimp only
  split
  · split
    · exact .refl s
    · exact ((Kept.refl s).on _).trans (openGen_kept ..)
  · exact .refl s

theorem domWrite_same (s : State) (off ch : Nat) (r : Requester) (d : Word) : s.SameStore (s.domWrite off ch r d) := by
  unfold domWrite
  split
  · exact ctxbWrite_same ..
  · exact .on (.refl s) _

theorem mboxSend_same (s : State) (m : Nat) : s.SameStore (s.mboxSend m) := by
  unfold mboxSend
  split
  · exact .on (.refl s) _
  · exact .on (.refl s) _

theorem mboxMsg_kept (s : State) : s.Kept s.mboxMsg := by
  unfold mboxMsg
  split
  · exact .refl s
  · dsimp only
    split
    · exact ⟨rfl, id⟩
    · split
      · exact ⟨rfl, id⟩
      · split
        · exact .refl s
        · next f h _ _ _ _ =>
          have h0 : s.Kept { s with hw := h } := ⟨rfl, id⟩
          exact ((h0.trans (wrList_kept ..)).trans (wr_kept ..)).on _

theorem mboxWrite_same (s : State) (off m : Nat) (d : Word) : s.SameStore (s.mboxWrite off m d) := by
  unfold mboxWrite
  extract_lets s1
  have h1 : s.SameStore s1 := .on (.refl s) _
  split
  · exact h1.trans (mboxSend_same ..)
  · split
    · exact h1.on _
    · split
      · exact h1.on _
      · exact h1

/-! ### Ethernet -/

theorem sramWr_kept (s : State) (a : Nat) (v : Word) : s.Kept (s.sramWr a v) := by
  unfold sramWr
  split
  · exact wr_kept ..
  · exact .refl s

theorem sramList_kept (s : State) (a : Nat) (vs : List Word) : s.Kept (s.sramList a vs) := by
  induction vs generalizing s a with
  | nil => exact .refl s
  | cons v rest ih => exact (sramWr_kept s a v).trans (ih ..)

theorem ethStore_kept (s : State) (k : Nat) (bs : List Nat) (t : Nat) : s.Kept (s.ethStore k bs t) := by
  unfold ethStore
  extract_lets p h size base wr need used skip ok at' s1 s2 s3
  have h1 : s.Kept s1 := by
    dsimp only [s1]
    split
    · exact .refl s
    · exact sramWr_kept ..
  split
  · exact (Kept.refl s).on _
  · exact ((h1.trans (sramList_kept ..)).trans (sramWr_kept ..)).on _

theorem ethReceive_kept (s : State) (k : Nat) (bs : List Nat) (fcs : Bool) (fine : Nat) : s.Kept (s.ethReceive k bs fcs fine) := by
  unfold ethReceive
  dsimp only
  split
  · exact .refl s
  · split
    · exact (Kept.refl s).on _
    · split
      · exact (Kept.refl s).on _
      · split
        · exact (Kept.refl s).on _
        · exact ethStore_kept ..

theorem ethTransmit_same (s : State) (k fine : Nat) : s.SameStore (s.ethTransmit k fine) := by
  unfold ethTransmit
  dsimp only
  split
  · exact .refl s
  · split
    · exact .refl s
    · exact .on (.refl s) _

theorem tick_kept (s : State) : s.Kept s.tick := by
  unfold tick
  dsimp only
  split
  · exact (domTick_kept s).on _
  · exact domTick_kept s

/-! ### Resets, the boot flow and power -/

theorem resetDevice_kept (s : State) (cause us pins : Nat) : s.Kept (s.resetDevice cause us pins) := (keepFlash_kept ..).on _

theorem resetDue_kept (s : State) (pins : Nat) : s.Kept (s.resetDue pins) := by
  unfold resetDue
  dsimp only
  split
  · exact resetDevice_kept ..
  · exact .refl s

theorem cutFlash_kept (s : State) (left : List (Nat × Word)) (got : Nat) : s.Kept (s.cutFlash left got) := by
  unfold cutFlash
  extract_lets f place within at' s1 s2
  have h1 : s.Kept s1 := wrEach_kept (fun e : Nat × Word => flashAddr e.1) (·.2) _ s
  have h2 : s1.Kept s2 := by
    dsimp only [s2]
    split
    · exact wrList_kept ..
    · exact .refl s1
  split
  · split
    · exact (h1.trans h2).on _
    · exact h1.trans h2
  · exact h1.trans h2

theorem powerOn_kept (s : State) (low : Bool) (pins : Nat) (left : List (Nat × Word)) (got : Nat) :
    s.Kept (s.powerOn low pins left got) := by
  unfold powerOn
  split
  · split
    · exact .refl s
    · exact ((cutFlash_kept ..).trans (keepFlash_kept ..)).on _
  · split
    · exact (Kept.refl s).on _
    · exact .refl s

theorem newLedger_kept (s : State) : s.Kept s.newLedger := by
  unfold newLedger
  exact (((forget_kept ..).on _).trans (wrList_kept ..)).on _

theorem scanLedger_same (fuel : Nat) (s : State) (active p : Nat) (x : Scan) : s.SameStore (s.scanLedger fuel active p x).1 := by
  induction fuel generalizing s p x with
  | zero => exact ⟨rfl, rfl, rfl⟩
  | succ fuel ih =>
    unfold scanLedger
    dsimp only
    split
    · exact ⟨rfl, rfl, rfl⟩
    · split
      · exact .trans (.on (.refl s) _) (ih ..)
      · exact ih ..
    · exact .trans (.on (.refl s) _) (ih ..)

theorem drain_kept (fuel : Nat) (s : State) (e : BootErase) : s.Kept (s.drain fuel e) := by
  induction fuel generalizing s with
  | zero => exact .refl s
  | succ fuel ih =>
    unfold drain
    split
    · exact (recordDone_kept ..).trans (ih _)
    · exact (eraseDone_kept ..).trans (ih _)
    · exact (eraseDone_kept ..).trans (ih _)
    · exact .refl s

theorem reErase_kept (s : State) (sectors : List Nat) (es : List BootErase) : s.Kept (s.reErase sectors es) := by
  induction sectors generalizing s es with
  | nil => exact .refl s
  | cons x rest ih => exact (((Kept.refl s).on _).trans (drain_kept ..)).trans (ih ..)

theorem recover_kept (s : State) (rep : BootRep) : s.Kept (s.recover rep) := by
  unfold recover
  extract_lets s1 active gen seq x policy half s2 s3
  have h1 : s.Kept s1 := by
    dsimp only [s1]
    split
    · exact newLedger_kept s
    · exact .refl s
  have h3 : s.Kept s3 := ((h1.trans (scanLedger_same ..).kept).on _).trans (drain_kept ..)
  split
  · exact h3.trans (reErase_kept ..)
  · exact h3

theorem loadImage_kept (s : State) (slot : Nat) (accepted : Bool) : s.Kept (s.loadImage slot accepted) := by
  refine .foldl (fun t x => ?_) _ (.refl s)
  refine .foldl (fun u i => ?_) _ (.refl t)
  split
  · exact wr_kept ..
  · exact .refl u

theorem copyRom_kept (s : State) : s.Kept s.copyRom := wrList_kept ..

theorem tryBoot_kept (s : State) (slots : List Nat) : s.Kept (s.tryBoot slots) := by
  induction slots generalizing s with
  | nil => exact (Kept.refl s).on _
  | cons slot rest ih =>
    unfold tryBoot
    extract_lets cause trial s1 s2
    have h1 : s.Kept s1 := by
      dsimp only [s1]
      split
      · exact loadImage_kept ..
      · exact .refl s
    have h2 : s.Kept s2 := h1.on _
    split
    · exact (loadImage_kept ..).on _
    · refine Kept.trans ?_ (ih _)
      split
      · exact h2.on _
      · exact h2

theorem boot_kept (s : State) (rep : BootRep) : s.Kept (s.boot rep) := by
  unfold boot
  dsimp only
  split
  · exact (((copyRom_kept s).trans (recover_kept ..)).on _).trans (tryBoot_kept ..)
  · exact .refl s

theorem enterDeep_kept (s : State) : s.Kept s.enterDeep := (keepFlash_kept ..).on _

theorem pwrCmd_kept (s : State) (d : Word) : s.Kept (s.pwrCmd d) := by
  unfold pwrCmd
  split
  · exact .refl s
  · split
    · exact (Kept.refl s).on _
    · exact enterDeep_kept s

theorem pwrWrite_kept (s : State) (off : Nat) (d : Word) : s.Kept (s.pwrWrite off d) := by
  unfold pwrWrite
  split
  · exact pwrCmd_kept ..
  · exact (Kept.refl s).on _

theorem deepWake_kept (s : State) (pins : Nat) : s.Kept (s.deepWake pins) := by
  unfold deepWake
  dsimp only
  split
  · exact ((Kept.refl s).on _).trans (resetDevice_kept ..)
  · exact .refl s

theorem resetPin_same (s : State) (low : Bool) (pins : Nat) : s.SameStore (s.resetPin low pins) := by
  unfold resetPin
  split
  · exact .refl s
  · split
    · exact .on (.refl s) _
    · exact .on (.refl s) _

theorem bistDone_kept (s : State) (t : Nat) (fail : Option Nat) : s.Kept (s.bistDone t fail) := by
  unfold bistDone
  extract_lets x s1
  have h1 : s.Kept s1 := by
    dsimp only [s1]
    split
    · exact .refl s
    · exact forget_kept ..
  split
  · exact .refl s
  · exact h1.on _

theorem verifyDone_same (s : State) : s.SameStore s.verifyDone := by
  unfold verifyDone
  split
  · exact .refl s
  · exact .on (.refl s) _

/-! ### Register pages and the buses -/

theorem pageGet_same (s : State) (a : Acc) (p : Page) (i : PageInfo) (off : Nat) : s.SameStore (s.pageGet a p i off).1 := by
  unfold pageGet
  dsimp only
  repeat' split
  all_goals exact ⟨rfl, rfl, rfl⟩

/-- A read of a register page, whatever it returns, leaves the store. -/
theorem pageRead_same (s : State) (a : Acc) (p : Page) (off : Nat) : s.SameStore (s.pageRead a p off).1 := by
  unfold pageRead
  split
  · exact .refl s
  · split
    · exact .refl s
    · split
      · exact (SameStore.refl s).onFst _
      · exact pageGet_same ..

theorem busRead_same (s : State) (a : Acc) (addr : Nat) : s.SameStore (s.busRead a addr).1 := by
  unfold busRead
  split
  · exact .refl s
  · exact pageRead_same ..
  · split
    · exact .refl s
    · split
      · exact .refl s
      · exact .refl s

theorem clusterEffect_same (s : State) (a : Acc) (p : Page) (k : PageKind) (off ch : Nat) (d : Word) :
    s.SameStore (s.clusterEffect a p k off ch d).1 := by
  unfold clusterEffect
  dsimp only
  split
  case h_5 =>
    split
    · exact loopSwtrig_same ..
    · exact ⟨rfl, rfl, rfl⟩
  all_goals exact ⟨rfl, rfl, rfl⟩

theorem deviceEffect_kept (s : State) (a : Acc) (p : Page) (k : PageKind) (off ch : Nat) (d : Word) :
    s.Kept (s.deviceEffect a p k off ch d).1 := by
  cases k
  case pwr => exact pwrWrite_kept ..
  case dram => exact dramWrite_kept ..
  case flash => exact (flashWrite_same ..).kept
  case dom => exact (domWrite_same ..).kept
  case mbox => exact (mboxWrite_same ..).kept
  all_goals exact SameStore.kept ⟨rfl, rfl, rfl⟩

theorem plainEffect_kept (s : State) (a : Acc) (p : Page) (i : PageInfo) (off ch : Nat) (d : Word) :
    s.Kept (s.plainEffect a p i off ch d).1 := by
  unfold plainEffect
  split
  · exact (clusterEffect_same ..).kept
  · exact deviceEffect_kept ..

/-- What a page write can do, whatever the effect that passing it has. -/
theorem pageWriteWith_kept {eff : State → Acc → Page → PageInfo → Nat → Nat → Word → State × Bool}
    (he : ∀ (t : State) a p i off ch d, t.Kept (eff t a p i off ch d).1) (s : State) (a : Acc) (p : Page) (off : Nat) (d : Word) :
    s.Kept (s.pageWriteWith eff a p off d).1 := by
  unfold pageWriteWith
  split
  · exact .refl s
  · next i _ =>
    extract_lets x y s1 z
    have h1 : s.Kept s1 := (Kept.refl s).on _
    have hz : s.Kept z.1 := h1.trans (he ..)
    clear_value s1 z
    split
    · exact SameStore.kept ⟨rfl, rfl, rfl⟩
    · split
      · exact SameStore.kept ⟨rfl, rfl, rfl⟩
      · split
        · exact .refl s
        · split
          · split
            · exact hz.onFst _
            · exact hz.onFst _
          · exact h1.onFst _

theorem busWriteWith_kept {eff : State → Acc → Page → PageInfo → Nat → Nat → Word → State × Bool}
    (he : ∀ (t : State) a p i off ch d, t.Kept (eff t a p i off ch d).1) (s : State) (a : Acc) (addr : Nat) (d : Word) :
    s.Kept (s.busWriteWith eff a addr d).1 := by
  unfold busWriteWith
  split
  · exact .refl s
  · exact pageWriteWith_kept he ..
  · split
    · exact .refl s
    · split
      · exact .refl s
      · split
        · exact .refl s
        · exact softWr_kept ..

/-! ### Mangle -/

theorem writeStatusAt_kept (s : State) (m : Mch) (cur : Nat) (w : Word) : s.Kept (s.writeStatusAt m cur w).1 :=
  busWriteWith_kept plainEffect_kept ..

theorem writeStatus_kept (s : State) (m : Mch) (w : Word) : s.Kept (s.writeStatus m w).1 := writeStatusAt_kept ..

theorem mabort_kept (s : State) (m : Mch) : s.Kept (s.mabort m) := by
  unfold mabort
  split
  · exact (Kept.refl s).on _
  · exact (Kept.refl s).on _
  · split
    · exact (Kept.refl s).on _
    · exact (writeStatus_kept ..).on _
  · exact .refl s

theorem mchCtrl_kept (s : State) (m : Mch) (a : Acc) (d : Word) : s.Kept (s.mchCtrl m a d) := by
  unfold mchCtrl
  extract_lets s1 bit s2
  have h1 : s.Kept s1 := (Kept.refl s).on _
  have h2 : s1.Kept s2 := by
    dsimp only [s2]
    split
    · exact mabort_kept ..
    · exact .refl s1
  split
  · exact h1
  · exact (h1.trans h2).on _

theorem pageEffect_kept (s : State) (a : Acc) (p : Page) (i : PageInfo) (off ch : Nat) (d : Word) :
    s.Kept (s.pageEffect a p i off ch d).1 := by
  unfold pageEffect
  split
  · exact mchCtrl_kept ..
  · exact plainEffect_kept ..

theorem pageWrite_kept (s : State) (a : Acc) (p : Page) (off : Nat) (d : Word) : s.Kept (s.pageWrite a p off d).1 :=
  pageWriteWith_kept pageEffect_kept ..

theorem busWrite_kept (s : State) (a : Acc) (addr : Nat) (d : Word) : s.Kept (s.busWrite a addr d).1 :=
  busWriteWith_kept pageEffect_kept ..

theorem writeCrc_kept (s : State) (m : Mch) (valid : Bool) : s.Kept (s.writeCrc m valid).1 := by
  unfold writeCrc
  split
  · exact busWrite_kept ..
  · exact .refl s

theorem mfail_kept (s : State) (m : Mch) (beat ecode : Nat) : s.Kept (s.mfail m beat ecode) := by
  unfold mfail
  exact ((writeCrc_kept ..).trans (writeStatus_kept ..)).on _

theorem mfetch_kept (s : State) (m : Mch) : s.Kept (s.mfetch m) := by
  unfold mfetch
  extract_lets cur s1 a x y
  have hx : s.Kept x.1 := by
    have h1 : s.SameStore s1 := .on (.refl s) _
    refine SameStore.kept (.foldlFst (fun z i => ?_) _ h1)
    dsimp only
    split
    · exact .refl z.1
    · split
      · exact busRead_same ..
      · exact busRead_same ..
  split
  · exact .refl s
  · split
    · exact hx.on _
    · split
      · exact (hx.trans (writeStatus_kept ..)).on _
      · exact hx.on _

theorem mput_kept (s : State) (m : Mch) (i : Nat) (w : Word) : s.Kept (s.mput m i w) := by
  unfold mput
  extract_lets h x
  have hx : s.Kept x.1 := by
    dsimp only [x]
    split
    · exact (Kept.refl s).onFst _
    · exact busWrite_kept ..
  split
  · exact hx.on _
  · exact hx.trans (mfail_kept ..)

theorem abortEnd_kept (s : State) (m : Mch) (b : HostBeat) (w : Option Word) : s.Kept (s.abortEnd m b w) := by
  unfold abortEnd
  extract_lets s1 x y
  have h1 : s.Kept s1 := (Kept.refl s).on _
  have hx : s1.Kept x.1 := by
    dsimp only [x]
    split
    · exact busWrite_kept ..
    · exact .refl s1
  exact ((h1.trans hx).trans (writeStatusAt_kept ..)).on _

theorem hostEnd_kept (s : State) (m : Mch) (b : HostBeat) (w : Option Word) : s.Kept (s.hostEnd m b w) := by
  unfold hostEnd
  split
  · exact abortEnd_kept ..
  · split
    · exact (Kept.refl s).on _
    · extract_lets s1
      have h1 : s.Kept s1 := (Kept.refl s).on _
      split
      · exact h1.trans (mput_kept ..)
      · exact h1.trans (mfail_kept ..)

theorem mbeat_kept (s : State) (m : Mch) (host : HostAns) : s.Kept (s.mbeat m host) := by
  unfold mbeat
  split
  · exact .refl s
  · exact hostEnd_kept ..
  · exact hostEnd_kept ..
  · extract_lets i a s1 s2 x
    have h1 : s.Kept s1 := (Kept.refl s).on _
    have h2 : s.Kept s2 := h1.on _
    have hx : s.Kept x.1 := h1.trans (busRead_same ..).kept
    split
    · exact .refl s
    · split
      · split
        · exact h2.trans (mput_kept ..)
        · exact h2.trans (mfail_kept ..)
        · exact h2.on _
      · split
        · exact hx.trans (mput_kept ..)
        · exact hx.trans (mfail_kept ..)

theorem mfinish_kept (s : State) (m : Mch) : s.Kept (s.mfinish m) := by
  unfold mfinish
  split
  · exact .refl s
  · exact ((((Kept.refl s).on _).trans (writeCrc_kept ..)).trans (writeStatus_kept ..)).on _

theorem hostTimeout_kept (s : State) (ch : Nat) : s.Kept (s.hostTimeout ch) := by
  unfold hostTimeout
  dsimp only
  split
  · exact hostEnd_kept ..
  · exact .refl s

theorem hostCut_kept (s : State) : s.Kept s.hostCut := .foldl (fun _ _ => hostTimeout_kept ..) _ (.refl s)

theorem mchWrite_kept (s : State) (w : Requester) (n : Option (Fin 8)) (d : Word) : s.Kept (s.mchWrite w n d) :=
  direct_kept _ _ _ _ (fun _ => mchCtrl_kept ..)

/-! ### Requests and the buses of the cores -/

theorem requestWrite_kept (s : State) (w : Requester) (p : Page) (off : Nat) (d : Word) : s.Kept (s.requestWrite w p off d) := by
  unfold requestWrite
  exact (pageWrite_kept ..).on _

theorem requestRead_same (s : State) (w : Requester) (p : Page) (off : Nat) : s.SameStore (s.requestRead w p off) := by
  unfold requestRead
  exact (pageRead_same ..).on _

theorem coreRead_same (s : State) (k : Fin 32) (ring a : Nat) : s.SameStore (s.coreRead k ring a).1 := by
  unfold coreRead
  dsimp only
  split
  · split
    · exact .refl s
    · exact pageRead_same ..
    · split
      · exact .refl s
      · exact .refl s
  · exact .refl s

theorem coreWrite_kept (s : State) (k : Fin 32) (ring a : Nat) (d : Word) : s.Kept (s.coreWrite k ring a d).1 := by
  unfold coreWrite
  dsimp only
  split
  · split
    · exact .refl s
    · exact pageWrite_kept ..
    · exact softWr_kept ..
  · exact .refl s

theorem openReturn_same (s : State) (k : Fin 32) (l : OpenLoad) : s.SameStore (s.openReturn k l) := by
  unfold openReturn
  extract_lets x s1
  have hx : s.SameStore x.1 := by
    refine .foldlFst (fun z a => ?_) _ (.refl s)
    dsimp only
    split
    · exact .refl z.1
    · split
      · exact coreRead_same ..
      · exact coreRead_same ..
  have h1 : s.SameStore s1 := hx.on _
  split
  · exact h1.on _
  · exact h1.on _

theorem loadReturn_same (s : State) (k : Fin 32) : s.SameStore (s.loadReturn k) := by
  unfold loadReturn
  dsimp only
  split
  · exact .refl s
  · split
    · split
      · exact .refl s
      · exact openReturn_same ..
    · exact setCore_same ..

theorem drainEntry_kept (s : State) (k : Fin 32) (e : Store) : s.Kept (s.drainEntry k e) := by
  unfold drainEntry
  extract_lets x
  have hx : s.Kept x.1 := by
    refine .foldlFst (fun z i => ?_) _ (.refl s)
    split
    · exact .refl z.1
    · exact coreWrite_kept ..
  split
  · exact hx
  · exact hx.on _

theorem storeDrain_kept (s : State) (k : Fin 32) : s.Kept (s.storeDrain k) := by
  unfold storeDrain
  dsimp only
  split
  · exact .refl s
  · split
    · exact .refl s
    · exact (setCore_same ..).kept.trans (drainEntry_kept ..)

theorem copyWord_kept (s : State) (k : Fin 32) : s.Kept (s.copyWord k) := by
  unfold copyWord
  split
  · exact .refl s
  · next x _ =>
    have hr : s.Kept (s.coreRead k x.ring x.src).1 := (coreRead_same ..).kept
    split
    · exact .refl s
    · dsimp only
      split
      · exact hr.on _
      · split
        · exact (hr.trans (coreWrite_kept ..)).on _
        · exact (hr.trans (coreWrite_kept ..)).on _

theorem copyWords_kept (s : State) (k : Fin 32) (n : Nat) : s.Kept (s.copyWords k n) := by
  unfold copyWords
  split
  · exact .refl s
  · exact .foldl (fun _ _ => copyWord_kept ..) _ (.refl s)

theorem fillDone_same (s : State) (k : Fin 32) (a : Nat) : s.SameStore (s.fillDone k a) := by
  unfold fillDone
  split
  · dsimp only
    split
    · exact .refl s
    · split
      · exact demand_same ..
      · split
        · exact demand_same ..
        · exact (demand_same ..).on _
  · exact .refl s

theorem enter_kept (s : State) (k : Fin 32) (e : Entry) : s.Kept (s.enter k e) := by
  unfold enter
  extract_lets s1
  have h1 : s.Kept s1 := by
    dsimp only [s1]
    split
    · exact (ranAhead_frontOnly ..).same.kept
    · exact .refl s
  split
  · exact (Kept.refl s).on _
  · exact ((h1.trans (wrList_kept ..)).on _).trans (demand_same ..).kept

theorem abandon_same (s : State) (k : Fin 32) : s.SameStore (s.abandon k) := by
  unfold abandon
  split
  · exact .on (.refl s) _
  · exact .refl s

theorem exceptionEntry_kept (s : State) (k : Fin 32) (copied : Nat) : s.Kept (s.exceptionEntry k copied) := by
  unfold exceptionEntry
  split
  · exact .refl s
  · split
    · exact (copyWords_kept ..).trans (enter_kept ..)
    · split
      · exact .refl s
      · split
        · exact .refl s
        · exact (((abandon_same ..).kept.trans (copyWords_kept ..)).trans (setCore_same ..).kept).trans (enter_kept ..)

theorem interruptEntry_kept (s : State) (k : Fin 32) (copied : Nat) : s.Kept (s.interruptEntry k copied) := by
  unfold interruptEntry
  dsimp only
  split
  · exact .refl s
  · split
    · exact .refl s
    · exact ((abandon_same ..).kept.trans (copyWords_kept ..)).trans (enter_kept ..)

/-! ### Records, captures and applied commands -/

theorem recordRead_same (s : State) (r : Requester) (addr : Nat) : s.SameStore (s.recordRead r addr).1 := by
  unfold recordRead
  dsimp only
  split
  · exact .refl s
  · split
    · exact busRead_same ..
    · exact busRead_same ..

theorem recordReads_same (s : State) (r : Requester) (addrs : List Nat) : s.SameStore (s.recordReads r addrs).1 := by
  refine .foldlFst (fun z a => ?_) _ (.refl s)
  exact recordRead_same ..

theorem recordLine_kept (s : State) (l gen : Nat) (ws : List (Word × Bool)) : s.Kept (s.recordLine l gen ws) := by
  refine .foldl (fun t i => ?_) _ (writeLine_kept ..)
  split
  · exact setTag_kept ..
  · exact .refl t

theorem hamperRecord_kept (s : State) : s.Kept s.hamperRecord := by
  unfold hamperRecord
  dsimp only
  split
  · exact .refl s
  · split
    · exact .refl s
    · exact ((Kept.foldl (fun _ _ => recordLine_kept ..) _ (recordReads_same ..).kept).trans (recordLine_kept ..)).on _

theorem capture_same (s : State) (n : Nat) : s.SameStore (s.capture n) := by
  unfold capture
  split
  · exact .refl s
  · exact (recordReads_same ..).on _

theorem applyWrites_kept (s : State) (ws : List (Nat × Word)) : s.Kept (s.applyWrites ws).1 := by
  refine .foldlFst (fun z i => ?_) _ (.refl s)
  dsimp only
  split
  · exact .refl z.1
  · exact busWrite_kept ..

theorem applyCommand_kept (s : State) (q : QCmd) : s.Kept (s.applyCommand q) := by
  unfold applyCommand
  have hx : s.Kept (s.applyWrites q.writes).1 := applyWrites_kept ..
  split
  · exact (Kept.refl s).on _
  · dsimp only
    split
    · exact hx.on _
    · split
      · exact (hx.on _).on _
      · exact hx.on _

theorem commandApply_kept (s : State) : s.Kept s.commandApply := by
  unfold commandApply
  split
  · exact .refl s
  · split
    · exact .refl s
    · split
      · exact .refl s
      · exact (((Kept.refl s).on _).trans (applyCommand_kept ..)).on _

/-! ### The host, the service engine and the debug port -/

theorem hostDram_same (s : State) (g : Nat) : s.SameStore (s.hostDram g).1 := by
  unfold hostDram
  dsimp only
  split
  · exact .refl s
  · split
    · exact (SameStore.refl s).onFst _
    · exact .refl s

theorem slotRead_same (s : State) (x : Slot) : s.SameStore (s.slotRead x).1 := by
  cases x with
  | none => exact .refl s
  | plain a => exact busRead_same ..
  | dram g =>
    unfold slotRead
    dsimp only
    split
    · exact hostDram_same ..
    · exact (SameStore.refl s).onFst _
  | snap w =>
    unfold slotRead
    dsimp only
    split
    · exact hostDram_same ..
    · exact .refl s
  | hamper w =>
    unfold slotRead
    dsimp only
    split
    · exact (SameStore.refl s).onFst _
    · split
      · exact hostDram_same ..
      · exact .refl s
  | msix o => exact .refl s
  | pba o => exact .refl s

theorem hostReq_same (s : State) (bar : Fin 3) (off len : Nat) (ro ns : Bool) : s.SameStore (s.hostReq bar off len ro ns) := by
  unfold hostReq
  extract_lets first x
  have hx : s.SameStore x.1 := by
    refine .foldlFst (fun z i => ?_) _ (.refl s)
    exact slotRead_same ..
  split
  · exact .refl s
  · exact hx.on _

theorem slotWrite_kept (s : State) (bar : Fin 3) (o : Nat) (x : Slot) (d : Word) : s.Kept (s.slotWrite bar o x d) := by
  unfold slotWrite
  split
  · dsimp only
    split
    · exact busWrite_kept ..
    · exact busWrite_kept ..
    · exact (busWrite_kept ..).on _
  · split
    · exact (Kept.refl s).on _
    · split
      · exact (Kept.refl s).on _
      · exact softWr_kept ..
  · exact .refl s

theorem hostSlot_kept (s : State) (bar : Fin 3) (o : Nat) (bytes : List (Option (BitVec 8))) (seen : Bool) :
    s.Kept (s.hostSlot bar o bytes seen).1 := by
  unfold hostSlot
  extract_lets x s1
  have h1 : s.Kept s1 := by
    dsimp only [s1]
    split
    · exact (Kept.refl s).on _
    · exact .refl s
  clear_value x s1
  split
  · exact .refl s
  · split
    · exact (Kept.refl s).onFst _
    · split
      · exact h1
      · split
        · exact h1.trans (slotWrite_kept ..)
        · exact h1.onFst _

theorem hostStoreReq_kept (s : State) (bar : Fin 3) (off : Nat) (bytes : List (Option (BitVec 8))) :
    s.Kept (s.hostStoreReq bar off bytes) := by
  unfold hostStoreReq
  split
  · exact .refl s
  · exact .foldlFst (fun _ _ => hostSlot_kept ..) _ (.refl s)

theorem svcLocal_same (s : State) (a : Nat) : s.SameStore (s.svcLocal a).1 := by
  unfold svcLocal
  dsimp only
  split
  · exact .refl s
  · split
    · exact busRead_same ..
    · exact busRead_same ..
    · exact busRead_same ..

theorem svcValues_same (s : State) (refs : List SvcRef) (b : Nat) : s.SameStore (s.svcValues refs b).1 := by
  refine .foldlFst (fun z r => ?_) _ (.refl s)
  cases r with
  | loc a => exact svcLocal_same ..
  | snap n w => exact .refl z.1

theorem svcData_same (s : State) (i : Nat) : s.SameStore (s.svcData i) := by
  unfold svcData
  split
  · exact .refl s
  · split
    · exact .refl s
    · dsimp only
      split
      · exact .refl s
      · exact (svcValues_same ..).on _

theorem dapAccess_kept (s : State) (addr : Nat) (d : Option Word) : s.Kept (s.dapAccess addr d) := by
  unfold dapAccess
  extract_lets a memory x
  have hx : s.Kept x.1 := (busRead_same ..).kept
  clear_value memory x
  split
  · exact (Kept.refl s).on _
  · split
    · exact (Kept.refl s).on _
    · split
      · exact .refl s
      · cases d with
        | none =>
          dsimp only
          split
          · exact hx.on _
          · exact hx.on _
        | some w =>
          have hy : s.Kept (s.busWrite a addr w).1 := busWrite_kept ..
          dsimp only
          split
          · exact hy.on _
          · exact hy.on _

/-! ### The step of a machine with no command waiting -/

theorem coreStall_same (s : State) (k : Fin 32) : s.SameStore (s.coreStall k) := by
  unfold coreStall
  split
  · exact (demand_same ..).on _
  · exact .on (.refl s) _
  · exact .on (.refl s) _
  · exact .refl s

/-- R19. A clock edge leaves the queue, the words and the tag bytes. -/
theorem idle_same (s : State) : s.SameStore s.idle := .foldl (fun _ _ => coreStall_same ..) _ ((latchAll_same s).on _)

end State

/-! ### Every command -/

theorem answers_next {s t : State} (h : s.Kept t) : Answers (.next t) s.Kept := ⟨t, rfl, h⟩

theorem answers_hw {o : Host.Outcome State Fault Refusal} {s t : State} (ho : o = .next t) (hp : t.pending = s.pending)
    (hm : t.mem = s.mem) (ht : t.tags = s.tags) : Answers o s.Kept := ⟨t, ho, State.SameStore.kept ⟨hp, hm, ht⟩⟩

theorem answers_ite {s t u : State} (c : Prop) [Decidable c] (ht : s.Kept t) (hu : s.Kept u) :
    Answers (.next (if c then t else u)) s.Kept := by
  split
  · exact answers_next ht
  · exact answers_next hu

/-- R204. The end of a microprogram: of the frame, or of a customer routine. -/
theorem execUcEnd_kept (c : Fin 8) (edge : Nat) (parity : Bool) (s : State) : Answers (execUcEnd c edge parity s) s.Kept := by
  refine answers_next ?_
  split
  · exact .refl s
  · dsimp only
    split
    · exact .refl s
    · split
      · exact State.frameEnd_kept ..
      · split
        · exact (State.Kept.refl s).on _
        · split
          · exact (State.Kept.refl s).on _
          · split
            · exact (State.Kept.refl s).on _
            · split
              · exact .refl s
              · exact State.loopCommit_kept ..

/-- The call that opens a customer routine, or a call within it. -/
theorem execUcCall_kept (c : Fin 8) (x : UcCycle) (s : State) : Answers (execUcCall c x s) s.Kept := by
  refine answers_next ?_
  split
  · exact .refl s
  · split
    · exact (State.frameCall_same ..).kept
    · exact (State.micro_same ..).kept

theorem execDapacc_kept (addr : BitVec 32) (d : Option Word) (s : State) : Answers (execDapacc addr d s) s.Kept := by
  have h1 : s.Kept (s.on fun h => h.tapTake .dapacc) := (State.Kept.refl s).on _
  refine answers_next ?_
  split
  · exact h1
  · split
    · exact h1.trans (State.dapAccess_kept ..)
    · exact h1.on _

theorem execCaptureTimeout_kept (n : Fin 64) (u : Unit) (s : State) : Answers (execCaptureTimeout n u s) s.Kept :=
  answers_ite _ ((State.capture_same ..).kept.on _) (.refl s)

/-- Every command answers a state with the queue of commands of the one before, and keeps memory canonical. Most commands
change the hardware alone; those that reach memory or issue a move come first. -/
theorem exec_kept (c : Instr) (s : State) : Answers (exec c s) s.Kept := by
  cases c
  case registerWrite | ownerWrite | lockSet | chselWrite | routingWrite | seamFire => exact answers_next (State.requestWrite_kept ..)
  case pairLowRead => exact answers_ite _ (State.requestRead_same ..).kept (.refl s)
  case pairLowWrite | pairHighWrite => exact answers_ite _ (State.requestWrite_kept ..) (.refl s)
  case reportRead => exact answers_next (State.requestRead_same ..).kept
  case pllLock | lwfLoad => exact answers_next (((State.Kept.refl s).on _).trans (State.boot_kept ..))
  case resetN => exact answers_next ((State.resetPin_same ..).kept.trans (State.boot_kept ..))
  case mangleArm | mangleGo | mangleAbort | mangleClr => exact answers_next (State.mchWrite_kept ..)
  case descriptorFetchDone => exact answers_next (State.mfetch_kept ..)
  case mangleBeat => exact answers_next (State.mbeat_kept ..)
  case descriptorComplete => exact answers_next (State.mfinish_kept ..)
  case hostCompletionTimeout => exact answers_next (State.hostTimeout_kept ..)
  case slotTrigger =>
    have h1 (h : Hw) : s.Kept { s with hw := h } := State.SameStore.kept ⟨rfl, rfl, rfl⟩
    exact answers_ite _ ((h1 _).trans (State.loopTrigger_same ..).kept) (h1 _)
  case loopSwtrig =>
    have h1 (h : Hw) : s.Kept { s with hw := h } := State.SameStore.kept ⟨rfl, rfl, rfl⟩
    exact answers_ite _ ((h1 _).trans (State.loopSwtrig_same ..).kept) (h1 _)
  case runStart =>
    exact answers_ite _ (.refl s) (((State.latchBefore_same ..).on _).trans (State.takeBank_same ..)).kept
  case ucCall => exact execUcCall_kept ..
  case ucEnd => exact execUcEnd_kept ..
  case ucNop | ucLim | ucCmp | ucLd | ucLdi =>
    exact answers_next (State.microSeq_same ..).kept
  case ucMov | ucNeg | ucAbs | ucShl | ucShr | ucShrt =>
    exact answers_next (State.microUn_same ..).kept
  case ucAdd | ucSub | ucMin | ucMax | ucAnd | ucOr =>
    exact answers_next (State.microBin_same ..).kept
  case ucMul | ucMac | ucMsu =>
    exact answers_next (State.microAcc_same ..).kept
  case ucSt | ucJmp | ucRet | ucAbort =>
    exact answers_next (State.micro_same ..).kept
  case operandMove | registerMove | predicateMove | aluT | aluAdds | aluSub | aluSubs | aluAnd | aluOr | aluXor | aluAndn |
      aluMin | aluMax | aluAbss | aluNegs | shfT | shfShr | shfSar | shfSarr | shfShls | cmpT | cmpNe | cmpLt | cmpGe |
      cmpLtu | cmpGeu | mulT | mulL | mulH | macT | macS | macZ | divT | divQ | divU | cpyT | lsuT | lsuLdi | lsuLdd | lsuSt |
      lsuSti | lsuStd | bruT | bruJr | bruCall | bruCallr | bruRet | cnsT | evpT | evpR | evpP | gioT | gioSet | gioClr |
      gioTgl | sysFence | sysGate | sysGret | predFlush | predBar | predSync | predRelease | sysWait | sysTrap | sysBrk |
      rsDataRead | rsDataWrite =>
    exact answers_next (State.coreMove_kept ..)
  case rptPrefix => exact answers_next (State.corePrefix_same ..).kept
  case divComplete => exact answers_ite _ (State.setCore_same ..).kept (.refl s)
  case cpyComplete => exact answers_next (State.copyWords_kept ..)
  case loadReturn => exact answers_next (State.loadReturn_same ..).kept
  case storeDrain => exact answers_next (State.storeDrain_kept ..)
  case fetchFillDone => exact answers_next (State.fillDone_same ..).kept
  case exceptionEntry => exact answers_next (State.exceptionEntry_kept ..)
  case interruptEntry => exact answers_next (State.interruptEntry_kept ..)
  case dramRequestServe => exact answers_next (State.dramSlot_kept ..)
  case uncorrectableRewrite => exact answers_next (State.rewrite_kept ..)
  case dramPclr => exact answers_next (State.direct_kept _ _ _ _ (fun _ => State.pclr_kept ..))
  case darnerBurstGrant => exact answers_next (State.darnerGrant_kept ..)
  case hamperRecordComplete => exact answers_next (State.hamperRecord_kept s)
  case dumpDone => exact answers_next (State.dumpDone_kept s)
  case flashProgram | flashErase | flashSuspend | flashResume | marginPv | marginEv => exact answers_next (State.flashOp_kept ..)
  case programDone => exact answers_next (State.programDone_kept ..)
  case ledgerRecordDone => exact answers_next (State.recordDone_kept ..)
  case eraseDone => exact answers_next (State.eraseDone_kept ..)
  case domTick => exact answers_next (State.tick_kept s)
  case captureComplete => exact answers_ite _ (State.capture_same ..).kept (.refl s)
  case captureTimeout n u => exact execCaptureTimeout_kept n u s
  case domPublication => exact answers_next (State.publication_kept s)
  case generationComplete => exact answers_next (State.generationComplete_kept s)
  case commandSend => exact answers_next (State.direct_kept _ _ _ _ (fun _ => (State.ctxbWrite_same ..).kept))
  case commandApply => exact answers_next (State.commandApply_kept s)
  case hostRead | snapshotWindowRead | hamperWindowRead => exact answers_next (State.hostReq_same ..).kept
  case hostWrite => exact answers_next (State.hostStoreReq_kept ..)
  case functionLevelReset => exact answers_ite _ (((State.Kept.refl s).on _).trans (State.hostCut_kept _)) (.refl s)
  case pciePerst => exact answers_next (((State.Kept.refl s).on _).trans (State.hostCut_kept _))
  case mailboxSend | mboxRxdone => exact answers_next (State.direct_kept _ _ _ _ (fun _ => (State.mboxWrite_same ..).kept))
  case mboxMsg => exact answers_next (State.mboxMsg_kept s)
  case ethFrameReceive => exact answers_next (State.ethReceive_kept ..)
  case ethFrameTransmit => exact answers_next (State.ethTransmit_same ..).kept
  case svcData => exact answers_next (State.svcData_same ..).kept
  case powerOnReset => exact answers_next (State.powerOn_kept ..)
  case deviceReset => exact answers_next (State.resetDue_kept ..)
  case verifyDone => exact answers_next (State.verifyDone_same s).kept
  case pwrDeep => exact answers_next (State.direct_kept _ _ _ _ (fun _ => State.pwrCmd_kept ..))
  case deepWake => exact answers_next (State.deepWake_kept ..)
  case bistDone => exact answers_next (State.bistDone_kept ..)
  case dapacc => exact execDapacc_kept ..
  all_goals exact answers_hw rfl rfl rfl rfl

/-- A step answers, and what it answers keeps memory canonical. -/
theorem step_memWf {s t : State} (hs : s.memWf) (h : step s = .next t) : t.memWf := by
  unfold step at h
  split at h
  · rw [← Host.Outcome.next.inj h]
    exact (State.idle_same s).kept.memWf hs
  · next i rest _ =>
    obtain ⟨u, hu, hk⟩ := exec_kept i { s with pending := rest }
    cases hu.symm.trans h
    exact hk.memWf hs

/-- Settles O59: by the lemma on every command. -/
theorem everyCommandAnswersAndKeepsTheQueue : Obligations.EveryCommandAnswersAndKeepsTheQueue := by
  intro c s
  obtain ⟨t, ht, hk⟩ := exec_kept c s
  exact ⟨t, ht, hk.pending⟩

/-- Settles O60: by the lemmas on every command and on the idle step. -/
theorem everyStepKeepsMemoryCanonical : Obligations.EveryStepKeepsMemoryCanonical :=
  fun _ _ hs h => step_memWf hs h

end Sys2Proof.Machine

namespace Sys2Proof.Machine

open Sys2Proof

/-! ## The state after reset -/

/-- The register file after a power-on reset lists DEV.RCAUSE alone. -/
theorem reset_reg_of_ne {p : Page} {off : Nat} (h : (p, off) ≠ (pDEV, 0x81)) (ch : Nat) :
    State.reset.hw.reg p off ch = resetWord ⟨p.cl, p.idx, off, ch⟩ := by
  obtain ⟨cl, idx⟩ := p
  refine if_neg fun e => h ?_
  injection e with hcl hidx hoff
  subst hcl hidx hoff
  rfl

/-- No core is listed after a power-on reset, so each stands as a core starts. -/
theorem reset_core (k : Nat) : State.reset.hw.core k = {} := rfl

theorem reset_clusters_held (c : Fin 8) : State.reset.hw.f (pCLU c.val) 0 CLU_STATUS_HELD = if c.val = 0 then 0xE else 0xF := by
  revert c
  decide +kernel

/-- Settles O58: nothing but DEV.RCAUSE is listed in any table of the reset state. -/
theorem resetState : Obligations.ResetState := by
  refine ⟨fun p off ch h => reset_reg_of_ne h ch, by decide +kernel, reset_clusters_held, fun k j => ?_, fun k => ?_, rfl,
    fun g => rfl, rfl, rfl⟩
  · rw [reset_core]
    rfl
  · rw [reset_core]
    exact ⟨rfl, rfl, rfl, rfl, rfl, rfl, rfl, rfl, rfl, rfl⟩

end Sys2Proof.Machine

/-! Host requests: what a read and a write of one slot do (R5 to R7, R566 to R578). -/

namespace Sys2Proof.Machine

open Sys2Proof

/-! ## Interrupt flags and counters of a page -/

/-- R16. The flag that an event sets reads 1. -/
theorem Hw.f_irqBit_same (h : Hw) (p : Page) (lo : Nat) (hlo : lo < 40) : (h.irqBit p ⟨5, lo, 1⟩ 0).f p 0 ⟨5, lo, 1⟩ = 1 := by
  have hbit : (w40 (2 ^ (lo + 0))).toNat = 2 ^ lo := by
    simp only [w40, Nat.add_zero, BitVec.toNat_ofNat]
    exact Nat.mod_eq_of_lt (Nat.pow_lt_pow_right (by decide) hlo)
  simp only [Hw.irqBit, Hw.f, Hw.irq_reg_flag, bitsOf, BitVec.toNat_or, hbit, Nat.pow_one]
  have hset : ((h.reg p 5 0).toNat ||| 2 ^ lo).testBit lo = true := by simp [Nat.testBit_or, Nat.testBit_two_pow_self]
  rwa [Nat.testBit_eq_decide_div_mod_eq, decide_eq_true_eq, ← Nat.shiftRight_eq_div_pow] at hset

/-- A field of a register that is not the page's IRQ_FLAG stands as it stood. -/
theorem Hw.f_irqBit_ne (h : Hw) {p q : Page} {ch : Nat} (fl fl' : Fld) (i : Nat) (hne : (q, fl'.off, ch) ≠ (p, 5, 0)) :
    (h.irqBit p fl i).f q ch fl' = h.f q ch fl' := by
  simp only [Hw.irqBit, Hw.f, Hw.irq_reg_ne h _ hne]

@[simp] theorem Hw.f_emit (h : Hw) (o : Out) (p : Page) (ch : Nat) (fl : Fld) : (h.emit o).f p ch fl = h.f p ch fl := rfl

/-- A counter has counted one more. -/
theorem Hw.f_incF_same (h : Hw) (p : Page) (ch : Nat) (fl : Fld) (hw : fl.lo + fl.w ≤ 40) :
    (h.incF p ch fl).f p ch fl = (h.f p ch fl + 1) % 2 ^ fl.w := Hw.f_setF_same h p ch fl _ hw

theorem Hw.f_incF_ne (h : Hw) {p p' : Page} {ch ch' : Nat} (fl fl' : Fld) (hne : (p', fl'.off, ch') ≠ (p, fl.off, ch)) :
    (h.incF p ch fl).f p' ch' fl' = h.f p' ch' fl' := Hw.f_setF_ne h fl fl' _ hne

/-! ## Host requests of one slot -/

/-- R5. The bytes of a slot image are the word's, the tag byte and zeros. -/
theorem bytes_slotImage (w : Word) (tag : Nat) :
    (List.range 8).map (fun i => bitsOf (slotImage w tag) (8 * i) 8) = slotBytes w tag := by
  have hw := w.isLt
  simp only [slotImage, slotBytes, wordBytes, bitsOf, Nat.shiftRight_eq_div_pow]
  simp [List.range_succ]
  omega

theorem bytes_zero : (List.range 8).map (fun i => bitsOf 0 (8 * i) 8) = [0, 0, 0, 0, 0, 0, 0, 0] := by decide

/-- A request of the eight bytes of one slot takes the whole image. -/
theorem slotPart_whole (image k : Nat) : slotPart image k (8 * k) 8 = (List.range 8).map (fun i => bitsOf image (8 * i) 8) := by
  unfold slotPart
  rw [List.filter_eq_self.2]
  intro i hi
  simp only [List.mem_range] at hi
  simp only [decide_eq_true_eq]
  omega

/-- R568, R569. A host read of one whole slot: the slot is read once, and completed with its bytes. -/
theorem State.hostReq_slot {s : State} (hon : s.hw.hostOn = true) (bar : Fin 3) (k : Nat) (ro ns : Bool) :
    s.hostReq bar (8 * k) 8 ro ns =
      (s.slotRead (s.hw.slotAt bar (8 * k))).1.on (fun h => h.emit (.hostData
        ((List.range 8).map (fun i => bitsOf (s.slotRead (s.hw.slotAt bar (8 * k))).2.1 (8 * i) 8))
        ((s.slotRead (s.hw.slotAt bar (8 * k))).2.2 && h.b pPCIE 0 PCIE_CTRL_POISON_EP) ro ns)) := by
  have h1 : 8 * k / 8 = k := by omega
  have h2 : (8 * k + 8 - 1) / 8 - k + 1 = 1 := by omega
  simp only [State.hostReq, hon, h1, h2, List.range_one, List.foldl_cons, List.foldl_nil, Nat.add_zero, slotPart_whole,
    List.nil_append, Bool.false_or]
  rfl

/-- R5, R428. A DRAM word that answers and is not poisoned changes nothing. -/
theorem State.hostDram_clean {s : State} {g : Nat} (hm : s.hw.memStopped g = false) (hp : s.poisoned g = false) :
    s.hostDram g = (s, slotImage (s.rd g) (s.tag g).toNat, false) := by
  simp [State.hostDram, hm, hp]

/-- R428, R571. A poisoned DRAM word is counted and flagged, and shows its POISON bit. -/
theorem State.hostDram_poisoned {s : State} {g : Nat} (hm : s.hw.memStopped g = false) (hp : s.poisoned g = true) :
    s.hostDram g = (s.on (fun h => (h.incF pPCIE 0 PCIE_POISON_CNT_COUNT).irqBit pPCIE PCIE_IRQ_POISON 0),
      slotImage (s.rd g) (s.tag g ||| 8).toNat, true) := by
  simp [State.hostDram, hm, hp]

/-- R26. BAR2 is the DRAM range, slot by slot. -/
theorem Hw.slotAt_bar2 (h : Hw) {k : Nat} (hk : k < 2 ^ 29) : h.slotAt 1 (8 * k) = .dram (0x10000000 + k) := by
  have h1 : 8 * k < 2 ^ 32 := by omega
  have h2 : 8 * k / 8 = k := by omega
  show (if 8 * k < 2 ^ 32 then Slot.dram (0x10000000 + 8 * k / 8) else .none) = _
  rw [if_pos h1, h2]

/-- R26. The lower half of BAR0 is the device pages, register by register. -/
theorem Hw.slotAt_bar0 (h : Hw) (idx : Fin 64) (off : Fin 256) :
    h.slotAt 0 (8 * (256 * idx + off)) = .plain (0x04800000 + (256 * idx + off)) := by
  have h1 : 8 * (256 * idx.val + off.val) < 0x800000 := by omega
  have h2 : 8 * (256 * idx.val + off.val) / 8 = 256 * idx.val + off.val := by omega
  show bar0Slot _ = _
  rw [bar0Slot, if_pos h1, h2]

/-- R576. The first 16 MB of BAR4 are the snapshot window. -/
theorem Hw.slotAt_snapshotWindow (h : Hw) {w : Nat} (hw : w < 2 ^ 21) : h.slotAt 2 (8 * w) = .snap w := by
  have h1 : 8 * w < 0x1000000 := by omega
  have h2 : 8 * w / 8 = w := by omega
  show h.bar4Slot _ = _
  rw [Hw.bar4Slot, if_pos h1, h2]

/-- R578. The upper 32 MB of BAR4 are the Hamper window. -/
theorem Hw.slotAt_hamperWindow (h : Hw) {w : Nat} (hw : w < 2 ^ 22) : h.slotAt 2 (8 * (0x400000 + w)) = .hamper w := by
  have h1 : ¬ 8 * (0x400000 + w) < 0x1000000 := by omega
  have h2 : ¬ 8 * (0x400000 + w) < 0x1080000 := by omega
  have h3 : ¬ 8 * (0x400000 + w) < 0x1081000 := by omega
  have h4 : ¬ 8 * (0x400000 + w) < 0x1081020 := by omega
  have h5 : 0x2000000 ≤ 8 * (0x400000 + w) ∧ 8 * (0x400000 + w) < 0x4000000 := by omega
  have h6 : (8 * (0x400000 + w) - 0x2000000) / 8 = w := by omega
  show h.bar4Slot _ = _
  rw [Hw.bar4Slot, if_neg h1, if_neg h2, if_neg h3, if_neg h4, if_pos h5, h6]

/-- R20, R26. A register address of the device pages leads the host to its page, where the page stands in the index. -/
theorem placeOf_host_devicePage {idx : Fin 64} (hp : (pageInfo ⟨15, idx⟩).isSome = true) (off : Fin 256) :
    placeOf .host ((0x04800000 + (256 * idx.val + off.val)) % 2 ^ 32) = .page ⟨15, idx⟩ off := by
  have hlt : 256 * idx.val + off.val < 0x4000 := by omega
  have h0 : (0x04800000 + (256 * idx.val + off.val)) % 2 ^ 32 = 0x04800000 + (256 * idx.val + off.val) := by omega
  have h1 : ¬ (0x01000000 ≤ 0x04800000 + (256 * idx.val + off.val) ∧ 0x04800000 + (256 * idx.val + off.val) < 0x02000000) := by omega
  have h2 : ¬ (0x04000000 ≤ 0x04800000 + (256 * idx.val + off.val) ∧ 0x04800000 + (256 * idx.val + off.val) < 0x04200000) := by omega
  have h3 : 0x04800000 ≤ 0x04800000 + (256 * idx.val + off.val) ∧ 0x04800000 + (256 * idx.val + off.val) < 0x04900000 := by omega
  have h4 : (0x04800000 + (256 * idx.val + off.val) - 0x04800000) / 0x100 = idx := by omega
  have h5 : (0x04800000 + (256 * idx.val + off.val)) % 0x100 = off := by omega
  have hg : globalPlace (0x04800000 + (256 * idx.val + off.val)) = .page ⟨15, idx⟩ off := by
    rw [globalPlace, if_neg h1, if_neg h2, if_pos h3, h4, h5]
  rw [h0]
  simp [placeOf, Requester.home, hg, hp]

/-- R24, R35. A read of a page that answers: the word of the register as the page gives it. -/
theorem State.pageRead_of_mayRead {s : State} {a : Acc} {p : Page} (h : s.hw.mayRead a p = true) (off : Nat) :
    ∃ i, pageInfo p = some i ∧ s.pageRead a p off = ((s.pageGet a p i off).1, .ok, (s.pageGet a p i off).2) := by
  unfold Hw.mayRead at h
  split at h
  · contradiction
  · next i hi =>
    refine ⟨i, hi, ?_⟩
    simp only [Bool.and_eq_true, Bool.not_eq_true', Bool.or_eq_true, bne_iff_ne, decide_eq_true_eq] at h
    obtain ⟨⟨hs, hd⟩, hr⟩ := h
    have hok : ¬ ((a.who = .debugger ∧ (!s.hw.debugOpen) = true) ∨ i.rfloor < a.ring) := by
      rintro (⟨hw, ho⟩ | hlt)
      · rcases hd with hd | hd
        · exact hd hw
        · simp [hd] at ho
      · omega
    simp only [State.pageRead, hi, hs, Bool.false_eq_true, if_false, if_neg hok]

/-- R576. The host's lease shows the block's word. -/
theorem Hw.snapSlot_leased {h : Hw} {w : Nat} (hv : h.f pSNAP 0x30 SNAP_LEASE_VALID = 1) (hw : w < 16384 * 8 * h.dom.stride) :
    h.snapSlot w = some (lineBase (h.dom.block (h.f pSNAP 0x30 SNAP_LEASE_BUF) 0) + w) := by
  simp [Hw.snapSlot, Hw.b, hv, hw]

theorem Hw.snapSlot_none {h : Hw} {w : Nat} (hn : h.f pSNAP 0x30 SNAP_LEASE_VALID = 0 ∨ 16384 * 8 * h.dom.stride ≤ w) :
    h.snapSlot w = none := by
  rcases hn with hv | hw
  · simp [Hw.snapSlot, Hw.b, hv]
  · simp [Hw.snapSlot, hw]

/-! ## Host reads -/

/-- A slot offset of a request as its 32 bits hold it. -/
theorem toNat_slotOffset {w k : Nat} (h : 8 * k < 2 ^ w) : (BitVec.ofNat w (8 * k)).toNat = 8 * k := by
  rw [BitVec.toNat_ofNat, Nat.mod_eq_of_lt h]

/-- R5, R569. A read of a slot that shows a DRAM word which is not poisoned completes with it, and changes nothing else. -/
theorem State.hostReq_cleanWord {s : State} (hon : s.hw.hostOn = true) {bar : Fin 3} {k g : Nat} (ro ns : Bool)
    (hx : s.slotRead (s.hw.slotAt bar (8 * k)) = s.hostDram g) (hm : s.hw.memStopped g = false) (hp : s.poisoned g = false) :
    s.hostReq bar (8 * k) 8 ro ns =
      s.on (fun h => { h with out := h.out ++ [.hostData (slotBytes (s.rd g) (s.tag g).toNat) false ro ns] }) := by
  rw [State.hostReq_slot hon, hx, State.hostDram_clean hm hp, bytes_slotImage]
  rfl

/-- R24. A read of a slot that shows nothing completes with zeros, and changes nothing else. -/
theorem State.hostReq_zeros {s : State} (hon : s.hw.hostOn = true) {bar : Fin 3} {k : Nat} (ro ns : Bool)
    (hx : s.slotRead (s.hw.slotAt bar (8 * k)) = (s, 0, false)) :
    s.hostReq bar (8 * k) 8 ro ns = s.on (fun h => { h with out := h.out ++ [.hostData [0, 0, 0, 0, 0, 0, 0, 0] false ro ns] }) := by
  rw [State.hostReq_slot hon, hx, bytes_zero]
  rfl

/-- R428, R571. What a read of a poisoned slot shows, counts and flags. -/
theorem State.hostReq_poisoned {s : State} (hon : s.hw.hostOn = true) {bar : Fin 3} {k g : Nat} (ro ns : Bool)
    (hx : s.slotRead (s.hw.slotAt bar (8 * k)) = s.hostDram g) (hm : s.hw.memStopped g = false) (hp : s.poisoned g = true) :
    let t := s.hostReq bar (8 * k) 8 ro ns
    t.hw.out.getLast? = some (.hostData (slotBytes (s.rd g) (s.tag g ||| 8).toNat) (s.hw.b pPCIE 0 PCIE_CTRL_POISON_EP) ro ns) ∧
      t.hw.f pPCIE 0 PCIE_POISON_CNT_COUNT = (s.hw.f pPCIE 0 PCIE_POISON_CNT_COUNT + 1) % 2 ^ 40 ∧
      t.hw.f pPCIE 0 PCIE_IRQ_POISON = 1 ∧ t.mem = s.mem ∧ t.tags = s.tags := by
  have hep : ((s.hw.incF pPCIE 0 PCIE_POISON_CNT_COUNT).irqBit pPCIE PCIE_IRQ_POISON 0).b pPCIE 0 PCIE_CTRL_POISON_EP =
      s.hw.b pPCIE 0 PCIE_CTRL_POISON_EP := by
    rw [Hw.b, Hw.f_irqBit_ne _ _ _ _ (by decide), Hw.f_incF_ne _ _ _ (by decide), Hw.b]
  rw [State.hostReq_slot hon, hx, State.hostDram_poisoned hm hp, bytes_slotImage]
  refine ⟨?_, ?_, ?_, rfl, rfl⟩
  · simp only [State.hw_on, Hw.emit, hep, Bool.true_and, List.getLast?_append, List.getLast?_singleton, Option.some_or]
  · simp only [State.hw_on, Hw.f_emit]
    rw [Hw.f_irqBit_ne _ _ _ _ (by decide), Hw.f_incF_same _ _ _ _ (by decide)]
  · simp only [State.hw_on, Hw.f_emit]
    exact Hw.f_irqBit_same _ _ 2 (by decide)

/-- R572. What a read of BAR2 leaves while DRAM is not ready. -/
theorem State.hostReq_dramNotReady {s : State} (hon : s.hw.hostOn = true) (hr : s.hw.dramReady = false) {k : Nat} (hk : k < 2 ^ 29)
    (ro ns : Bool) :
    let t := s.hostReq 1 (8 * k) 8 ro ns
    t.hw.out.getLast? = some (.hostData [0, 0, 0, 0, 0, 0, 0, 0] false ro ns) ∧ t.hw.f pPCIE 0 PCIE_IRQ_DRAM_NR = 1 ∧
      t.mem = s.mem ∧ t.tags = s.tags := by
  have hx : s.slotRead (s.hw.slotAt 1 (8 * k)) = (s.dramMissed, 0, false) := by
    rw [Hw.slotAt_bar2 _ hk]
    simp [State.slotRead, hr]
  rw [State.hostReq_slot hon, hx, bytes_zero]
  refine ⟨List.getLast?_concat, ?_, rfl, rfl⟩
  simp only [State.hw_on, Hw.f_emit, State.dramMissed]
  exact Hw.f_irqBit_same _ _ 3 (by decide)

/-- R24, R35, R569. A read of a device page's register that answers completes with the register's word. -/
theorem State.hostReq_devicePage {s : State} (hon : s.hw.hostOn = true) {idx : Fin 64} (off : Fin 256)
    (hr : s.hw.mayRead ⟨.host, 1⟩ ⟨15, idx⟩ = true) (ro ns : Bool) :
    let t := s.hostReq 0 (8 * (256 * idx + off)) 8 ro ns
    t.hw.out = (s.pageRead ⟨.host, 1⟩ ⟨15, idx⟩ off).1.hw.out ++
        [.hostData (slotBytes (s.pageRead ⟨.host, 1⟩ ⟨15, idx⟩ off).2.2 0) false ro ns] ∧ t.mem = s.mem ∧ t.tags = s.tags := by
  obtain ⟨i, hi, hg⟩ := State.pageRead_of_mayRead hr off
  have hx : s.slotRead (s.hw.slotAt 0 (8 * (256 * idx.val + off.val))) =
      ((s.pageGet ⟨.host, 1⟩ ⟨15, idx⟩ i off).1, slotImage (s.pageGet ⟨.host, 1⟩ ⟨15, idx⟩ i off).2 0, false) := by
    rw [Hw.slotAt_bar0]
    simp only [State.slotRead, State.busRead, placeOf_host_devicePage (by rw [hi]; rfl), hg]
  have hsame := State.pageGet_same s ⟨.host, 1⟩ ⟨15, idx⟩ i off
  rw [hg, State.hostReq_slot hon, hx, bytes_slotImage]
  exact ⟨rfl, hsame.mem, hsame.tags⟩

/-! ## Controlled writes of a page -/

@[simp] theorem Hw.granted_passes (h : Hw) (a b : Acc) (p q : Page) (i : PageInfo) (off : Nat) :
    (h.granted b q).passes a p i off = h.passes a p i off := rfl

/-- R33, R36. A write of a page that R33 refuses is logged, and does nothing else. -/
theorem State.pageWrite_refused {s : State} {a : Acc} {p : Page} {i : PageInfo} {off : Nat} (d : Word) (hi : pageInfo p = some i)
    (h6 : off ≠ 6) (h8 : off ≠ 8) (hs : s.hw.stopped p = false) (hp : s.hw.passes a p i off = false) :
    s.pageWrite a p off d = ((s.on fun h => h.granted a p).on fun h => h.logRefused a p off, .refused) := by
  have hp' : ((s.on fun h => h.granted a p).hw).passes a p i off = false := hp
  simp only [State.pageWrite, State.pageWriteWith, hi, if_neg h6, if_neg h8, hs, hp', Bool.false_eq_true, if_false]

/-- R33. A write of a page that R33 lets pass and whose effect accepts it. -/
theorem State.pageWrite_passed {s t : State} {a : Acc} {p : Page} {i : PageInfo} {off : Nat} (d : Word) (hi : pageInfo p = some i)
    (h6 : off ≠ 6) (h8 : off ≠ 8) (hs : s.hw.stopped p = false) (hp : s.hw.passes a p i off = true)
    (he : (s.on fun h => h.granted a p).pageEffect a p i off (s.hw.chanFor p a.who off) d = (t, true)) :
    s.pageWrite a p off d = (t.on (fun h => h.noteSw a p i off), .ok) := by
  have hp' : ((s.on fun h => h.granted a p).hw).passes a p i off = true := hp
  have he' : (s.on fun h => h.granted a p).pageEffect a p i off ((s.on fun h => h.granted a p).hw.chanFor p a.who off) d = (t, true) := he
  simp only [State.pageWrite, State.pageWriteWith, hi, if_neg h6, if_neg h8, hs, hp', he', Bool.false_eq_true, if_false, if_true]

/-- A page that a controlled write reaches and that refuses it. -/
theorem passes_false_of_refused {h : Hw} {w : Requester} {p : Page} {off : Nat} (hr : reachable h p = true) (ha : accepts h w p off = false) :
    ∃ i, pageInfo p = some i ∧ h.stopped p = false ∧ h.passes (h.acc w) p i off = false := by
  simp only [reachable, Bool.and_eq_true, Option.isSome_iff_exists, Bool.not_eq_true'] at hr
  obtain ⟨⟨i, hi⟩, hs⟩ := hr
  simp only [accepts, hi, hs, Bool.not_false, Bool.true_and] at ha
  exact ⟨i, hi, hs, ha⟩

theorem passes_of_accepts {h : Hw} {w : Requester} {p : Page} {off : Nat} (ha : accepts h w p off = true) :
    ∃ i, pageInfo p = some i ∧ h.stopped p = false ∧ h.passes (h.acc w) p i off = true := by
  unfold accepts at ha
  split at ha
  · next i hi =>
    simp only [Bool.and_eq_true, Bool.not_eq_true'] at ha
    exact ⟨i, hi, ha.1, ha.2⟩
  · contradiction

/-! ## Host writes -/

/-- R568. A host write within one slot brings its bytes to that slot. -/
theorem State.hostStoreReq_slot {s : State} (hon : s.hw.hostOn = true) (bar : Fin 3) (k : Nat) {bytes : List (Option (BitVec 8))}
    (hne : bytes ≠ []) (hle : bytes.length ≤ 8) :
    s.hostStoreReq bar (8 * k) bytes = (s.hostSlot bar (8 * k) ((bytes ++ List.replicate 7 none).take 8) false).1 := by
  have hpos : 0 < bytes.length := List.length_pos_iff.2 hne
  have h1 : 8 * k / 8 = k := by omega
  have h2 : 8 * k % 8 = 0 := by omega
  have h3 : (0 + bytes.length + 7) / 8 = 1 := by omega
  have h4 : bytes.isEmpty = false := by simpa using hne
  simp only [State.hostStoreReq, hon, h4, h1, h2, h3, List.range_one, List.foldl_cons, List.foldl_nil, List.replicate_zero,
    List.nil_append, Nat.mul_zero, List.drop_zero, Nat.add_zero]
  rfl

/-- The state that a write of a slot finds, where DRAM not being ready has been noted (R572). -/
def State.slotMet (s : State) (x : Slot) : State := if x.inDram && !s.hw.dramReady then s.dramMissed else s

/-- The word that a slot's bytes carry, each of them enabled. -/
theorem wordOfBytes_enabled (bs : List (BitVec 8)) :
    wordOfBytes (((bs.map some).take 5).map (fun b => (b.getD 0).toNat)) = wordOfBytes (bs.map (·.toNat)) := by
  simp [wordOfBytes, List.take_take, ← List.map_take, Function.comp_def]

/-- R568, R570. The bytes that a write brings to a slot which host writes reach as a slot. -/
theorem State.hostSlot_writable {s : State} {bar : Fin 3} {o : Nat} {bytes : List (Option (BitVec 8))}
    (hn : bytes.all (·.isNone) = false) (hw : (s.hw.slotAt bar o).writable = true) :
    s.hostSlot bar o bytes false =
      if (bytes.take 5).all (·.isSome) then
        ((s.slotMet (s.hw.slotAt bar o)).slotWrite bar o (s.hw.slotAt bar o)
          (wordOfBytes ((bytes.take 5).map (fun b => (b.getD 0).toNat))), false)
      else ((s.slotMet (s.hw.slotAt bar o)).on (fun h => h.partialWrite bar.val o true), true) := by
  unfold State.hostSlot State.slotMet
  generalize s.hw.slotAt bar o = x at hw ⊢
  cases x with
  | plain a => simp only [hn, hw, Bool.false_eq_true, if_false, Bool.not_true, Bool.not_false]
  | dram g => simp only [hn, hw, Bool.false_eq_true, if_false, Bool.not_true, Bool.not_false]
  | none => contradiction
  | snap w => contradiction
  | hamper w => contradiction
  | msix o => contradiction
  | pba o => contradiction

/-- R6, R7. A write of a whole slot stores its word. -/
theorem State.hostStoreReq_whole {s : State} (hon : s.hw.hostOn = true) (bar : Fin 3) (k : Nat) {bs : List (BitVec 8)}
    (hl : bs.length = 8) (hw : (s.hw.slotAt bar (8 * k)).writable = true) :
    s.hostStoreReq bar (8 * k) (bs.map some) =
      (s.slotMet (s.hw.slotAt bar (8 * k))).slotWrite bar (8 * k) (s.hw.slotAt bar (8 * k)) (wordOfBytes (bs.map (·.toNat))) := by
  have hne : bs ≠ [] := by rintro rfl; contradiction
  have htake : (bs.map some ++ List.replicate 7 none).take 8 = bs.map some := by
    rw [List.take_append_of_le_length (by simp [hl]), List.take_of_length_le (by simp [hl])]
  have hn : (bs.map some).all (·.isNone) = false := by
    obtain ⟨b, rest, rfl⟩ := List.exists_cons_of_ne_nil hne
    rfl
  have hs : ((bs.map some).take 5).all (·.isSome) = true := by simp [← List.map_take]
  rw [State.hostStoreReq_slot hon bar k (by simpa using hne) (by simp [hl]), htake, State.hostSlot_writable hn hw, if_pos hs,
    wordOfBytes_enabled]

/-- R7, R570. A write of one byte of a slot is discarded, counted and located. -/
theorem State.hostStoreReq_byte {s : State} (hon : s.hw.hostOn = true) (bar : Fin 3) (k : Nat) (b : BitVec 8)
    (hw : (s.hw.slotAt bar (8 * k)).writable = true) :
    s.hostStoreReq bar (8 * k) [some b] =
      (s.slotMet (s.hw.slotAt bar (8 * k))).on (fun h => h.partialWrite bar.val (8 * k) true) := by
  rw [State.hostStoreReq_slot hon bar k (by simp) (by simp), State.hostSlot_writable rfl hw, if_neg (by decide +revert)]

theorem Hw.dramReady_dramMissed (s : State) : s.dramMissed.hw.dramReady = s.hw.dramReady := by
  simp only [State.dramMissed, State.hw_on, Hw.dramReady, Hw.b, Hw.f_irqBit_ne s.hw (p := pPCIE) (q := pDRAM) (ch := 0)
    PCIE_IRQ_DRAM_NR DRAM_STATUS_READY 0 (by decide)]

/-- R22. DRAM words are no words of Loop Engine data memory. -/
theorem inLoopMem_dram {g : Nat} (h : 0x10000000 ≤ g) : inLoopMem g = false := by
  refine List.any_eq_false.2 fun c hc => ?_
  have hc := List.mem_range.1 hc
  have hlt : ¬ g < loopAddr c 0 + 16384 := by
    simp only [loopAddr, winBase]
    omega
  simp [hlt]

/-- R6. A covering write of a DRAM slot stores the word, and nothing else changes. -/
theorem State.softWr_dram (s : State) {g : Nat} (h : 0x10000000 ≤ g) (v : Word) : s.softWr g v = s.wr g v := by
  simp only [State.softWr, inLoopMem_dram h, Bool.false_eq_true, if_false]
  rfl

/-- R6, R568. A covering write of a DRAM slot that answers stores the word, and nothing else changes. -/
theorem State.hostStoreReq_dram {s : State} (hon : s.hw.hostOn = true) {k : Nat} (hk : k < 2 ^ 29) (hr : s.hw.dramReady = true)
    (hm : s.hw.memStopped (0x10000000 + k) = false) {bs : List (BitVec 8)} (hl : bs.length = 8) :
    s.hostStoreReq 1 (8 * k) (bs.map some) = s.wr (0x10000000 + k) (wordOfBytes (bs.map (·.toNat))) := by
  rw [State.hostStoreReq_whole hon 1 k hl (by rw [Hw.slotAt_bar2 _ hk]; rfl), Hw.slotAt_bar2 _ hk]
  simp only [State.slotMet, State.slotWrite, hr, hm, Bool.not_true, Bool.and_false, Bool.false_eq_true, if_false]
  exact State.softWr_dram s (by omega) _

/-- R572. What a covering write of BAR2 leaves while DRAM is not ready. -/
theorem State.hostStoreReq_dramNotReady {s : State} (hon : s.hw.hostOn = true) {k : Nat} (hk : k < 2 ^ 29)
    (hr : s.hw.dramReady = false) {bs : List (BitVec 8)} (hl : bs.length = 8) :
    s.hostStoreReq 1 (8 * k) (bs.map some) = s.dramMissed.dramMissed := by
  rw [State.hostStoreReq_whole hon 1 k hl (by rw [Hw.slotAt_bar2 _ hk]; rfl), Hw.slotAt_bar2 _ hk]
  simp only [State.slotMet, State.slotWrite, hr, Slot.inDram, Hw.dramReady_dramMissed, Bool.not_false, Bool.and_true, if_true]

theorem State.dramMissed_flag (s : State) : s.dramMissed.hw.f pPCIE 0 PCIE_IRQ_DRAM_NR = 1 := Hw.f_irqBit_same _ _ 3 (by decide)

/-- R572. A slot that is met leaves memory and every register but IRQ_FLAG of the PCIE page. -/
theorem State.slotMet_frame (s : State) (x : Slot) : (s.slotMet x).mem = s.mem ∧ (s.slotMet x).tags = s.tags ∧
    ∀ (q : Page) (ch : Nat) (fl : Fld), (q, fl.off, ch) ≠ (pPCIE, 5, 0) → (s.slotMet x).hw.f q ch fl = s.hw.f q ch fl := by
  unfold State.slotMet
  split
  · exact ⟨rfl, rfl, fun q ch fl h => Hw.f_irqBit_ne _ _ _ _ h⟩
  · exact ⟨rfl, rfl, fun _ _ _ _ => rfl⟩

/-- R570. What the report of a partial write shows. -/
theorem Hw.partialWrite_shows (h : Hw) (bar o : Nat) (hb : bar < 4) (ho : o < 2 ^ 32) :
    (h.partialWrite bar o true).f pPCIE 0 PCIE_PARTIAL_CNT_COUNT = (h.f pPCIE 0 PCIE_PARTIAL_CNT_COUNT + 1) % 2 ^ 40 ∧
      (h.partialWrite bar o true).f pPCIE 0 PCIE_IRQ_PARTIAL = 1 ∧ (h.partialWrite bar o true).f pPCIE 0 PCIE_HERR_BAR = bar ∧
      (h.partialWrite bar o true).f pPCIE 0 PCIE_HERR_OFFSET = o := by
  simp only [Hw.partialWrite, if_true]
  refine ⟨?_, ?_, ?_, ?_⟩
  · rw [Hw.f_setF_ne _ _ _ _ (by decide), Hw.f_setF_ne _ _ _ _ (by decide), Hw.f_irqBit_ne _ _ _ _ (by decide),
      Hw.f_incF_same _ _ _ _ (by decide)]
  · rw [Hw.f_setF_ne _ _ _ _ (by decide), Hw.f_setF_ne _ _ _ _ (by decide), Hw.f_irqBit_same _ _ 0 (by decide)]
  · rw [Hw.f_setF_other _ pPCIE 0 PCIE_HERR_OFFSET PCIE_HERR_BAR _ rfl (by decide) (by decide), Hw.f_setF_same _ _ _ _ _ (by decide)]
    exact Nat.mod_eq_of_lt hb
  · rw [Hw.f_setF_same _ _ _ _ _ (by decide)]
    exact Nat.mod_eq_of_lt ho

/-- R570. What the report of a refused host write shows. -/
theorem Hw.hostRefused_shows (h : Hw) (bar o : Nat) (hb : bar < 4) (ho : o < 2 ^ 32) :
    (h.hostRefused bar o).f pPCIE 0 PCIE_REFUSED_CNT_COUNT = (h.f pPCIE 0 PCIE_REFUSED_CNT_COUNT + 1) % 2 ^ 40 ∧
      (h.hostRefused bar o).f pPCIE 0 PCIE_IRQ_REFUSED = 1 ∧ (h.hostRefused bar o).f pPCIE 0 PCIE_HERR_BAR = bar ∧
      (h.hostRefused bar o).f pPCIE 0 PCIE_HERR_OFFSET = o := by
  unfold Hw.hostRefused
  refine ⟨?_, Hw.f_irqBit_same _ _ 1 (by decide), ?_, ?_⟩
  · rw [Hw.f_irqBit_ne _ _ _ _ (by decide), Hw.f_setF_ne _ _ _ _ (by decide), Hw.f_setF_ne _ _ _ _ (by decide),
      Hw.f_incF_same _ _ _ _ (by decide)]
  · rw [Hw.f_irqBit_ne _ _ _ _ (by decide),
      Hw.f_setF_other _ pPCIE 0 PCIE_HERR_OFFSET PCIE_HERR_BAR _ rfl (by decide) (by decide),
      Hw.f_setF_same _ _ _ _ _ (by decide)]
    exact Nat.mod_eq_of_lt hb
  · rw [Hw.f_irqBit_ne _ _ _ _ (by decide), Hw.f_setF_same _ _ _ _ _ (by decide)]
    exact Nat.mod_eq_of_lt ho

/-- R570. The report touches no register of another page. -/
theorem Hw.hostRefused_reg_ne (h : Hw) (bar o : Nat) {q : Page} (hq : q ≠ pPCIE) (off ch : Nat) :
    (h.hostRefused bar o).reg q off ch = h.reg q off ch := by
  have k (x : Nat × Nat) : (q, off, ch) ≠ (pPCIE, x.1, x.2) := fun e => hq (congrArg Prod.fst e)
  simp only [Hw.hostRefused, Hw.irqBit, Hw.incF]
  rw [Hw.irq_reg_ne _ _ (k (5, 0)), Hw.reg_setF_ne _ _ _ (k (_, 0)), Hw.reg_setF_ne _ _ _ (k (_, 0)),
    Hw.reg_setF_ne _ _ _ (k (_, 0))]

/-- R36. ACC_LOG as a refused write leaves it. -/
theorem Hw.logRefused_accLog (h : Hw) (a : Acc) (p : Page) (off : Nat) :
    (h.logRefused a p off).reg pDEV 0x80 0 =
      w40 (p.cl * 2 ^ 36 + p.idx % 4096 * 2 ^ 24 + off % 256 * 2 ^ 16 + a.ring % 4 * 2 ^ 8 + a.who.id % 256) := by
  unfold Hw.logRefused Hw.irqBit
  rw [Hw.irq_reg_ne _ _ (by decide), Hw.reg_setReg_same]

/-- R36, R570. A host write of a register that refuses it is logged, counted and located. -/
theorem State.hostStoreReq_refused {s : State} (hon : s.hw.hostOn = true) {idx : Fin 64} {off : Fin 256}
    (hr : reachable s.hw ⟨15, idx⟩ = true) (ha : accepts s.hw .host ⟨15, idx⟩ off = false) (ho : 0x10 ≤ off.val)
    {bs : List (BitVec 8)} (hl : bs.length = 8) :
    s.hostStoreReq 0 (8 * (256 * idx + off)) (bs.map some) =
      (((s.on fun h => h.granted ⟨.host, 1⟩ ⟨15, idx⟩).on fun h => h.logRefused ⟨.host, 1⟩ ⟨15, idx⟩ off).on
        fun h => h.hostRefused 0 (8 * (256 * idx + off))) := by
  obtain ⟨i, hi, hs, hp⟩ := passes_false_of_refused hr ha
  have hp : s.hw.passes ⟨.host, 1⟩ ⟨15, idx⟩ i off = false := hp
  rw [State.hostStoreReq_whole hon 0 _ hl (by rw [Hw.slotAt_bar0]; rfl), Hw.slotAt_bar0]
  simp only [State.slotMet, Slot.inDram, Bool.false_and, Bool.false_eq_true, if_false, State.slotWrite, State.busWrite,
    State.busWriteWith, placeOf_host_devicePage (idx := idx) (by rw [hi]; rfl) off]
  have hw := State.pageWrite_refused (wordOfBytes (bs.map (·.toNat))) hi (by omega) (by omega) hs hp
  rw [State.pageWrite] at hw
  rw [hw]
  rfl

/-! ## The two windows -/

/-- R578. While the Hamper is frozen its window shows the ring, from the line that follows the last record. -/
theorem Hw.hamperSlot_frozen {h : Hw} (hf : h.f pHAMPER 0 HAMPER_STATUS_STATE = 4) (hr : 0 < h.hamper.k * h.hamper.r) (w : Nat) :
    h.hamperSlot w = some (lineBase (h.hamper.base + ((h.f pHAMPER 0 HAMPER_LAST_IDX_POS + 1) * h.hamper.r +
      h.f pPCIE 0 PCIE_HWIN_LINE + w / 8) % (h.hamper.k * h.hamper.r)) + w % 8) := by
  have hf : h.hState = 4 := hf
  have hmax : max 1 (h.hamper.k * h.hamper.r) = h.hamper.k * h.hamper.r := Nat.max_eq_right hr
  simp only [Hw.hamperSlot, hf, if_true, hmax]

theorem Hw.hamperSlot_none {h : Hw} (hf : h.f pHAMPER 0 HAMPER_STATUS_STATE ≠ 4) (w : Nat) : h.hamperSlot w = none := if_neg hf

/-- A read of a slot of the snapshot window is a read of BAR4 at its offset. -/
theorem exec_snapshotWindowRead {w : Nat} (hw : w < 2 ^ 21) (s : State) :
    exec (.snapshotWindowRead (BitVec.ofNat 24 (8 * w)) 8) s = .next (s.hostReq 2 (8 * w) 8 false false) := by
  rw [← toNat_slotOffset (w := 24) (k := w) (by omega)]
  simp only [BitVec.ofNat_toNat, BitVec.setWidth_eq]
  rfl

/-- A read of a slot of the Hamper window is a read of the upper half of BAR4. -/
theorem exec_hamperWindowRead {w : Nat} (hw : w < 2 ^ 22) (s : State) :
    exec (.hamperWindowRead (BitVec.ofNat 25 (8 * w)) 8) s = .next (s.hostReq 2 (8 * (0x400000 + w)) 8 false false) := by
  have ho : 8 * (0x400000 + w) = 0x2000000 + (BitVec.ofNat 25 (8 * w)).toNat := by
    rw [toNat_slotOffset (by omega)]
    omega
  rw [ho]
  rfl

theorem exec_hostRead {k : Nat} (hk : k < 2 ^ 29) (bar : Fin 3) (ro ns : Bool) (s : State) :
    exec (.hostRead bar (BitVec.ofNat 32 (8 * k)) 8 ro ns) s = .next (s.hostReq bar (8 * k) 8 ro ns) := by
  have ho := toNat_slotOffset (w := 32) (k := k) (by omega)
  show Host.Outcome.next (s.hostReq bar (BitVec.ofNat 32 (8 * k)).toNat 8 ro ns) = _
  rw [ho]

theorem exec_hostWrite {k : Nat} (hk : k < 2 ^ 29) (bar : Fin 3) (bytes : List (Option (BitVec 8))) (s : State) :
    exec (.hostWrite bar (BitVec.ofNat 32 (8 * k)) bytes) s = .next (s.hostStoreReq bar (8 * k) bytes) := by
  have ho := toNat_slotOffset (w := 32) (k := k) (by omega)
  show Host.Outcome.next (s.hostStoreReq bar (BitVec.ofNat 32 (8 * k)).toNat bytes) = _
  rw [ho]

theorem deviceSlot_lt (idx : Fin 64) (off : Fin 256) : 256 * idx.val + off.val < 2 ^ 29 := by omega

/-- R36. ACC_LOG names the requester. -/
theorem Hw.logRefused_req (h : Hw) (a : Acc) (p : Page) (off : Nat) :
    (h.logRefused a p off).f pDEV 0 DEV_ACC_LOG_REQ = a.who.id % 256 := by
  rw [Hw.f, Hw.logRefused_accLog]
  generalize a.who.id = id
  simp only [w40, bitsOf, BitVec.toNat_ofNat, Nat.shiftRight_zero]
  omega

/-- R36. The log of a refused write is no register of another page. -/
theorem Hw.logRefused_reg_page (h : Hw) (a : Acc) (p : Page) (off : Nat) {q : Page} (hq : q ≠ pDEV) (o ch : Nat) :
    (h.logRefused a p off).reg q o ch = h.reg q o ch :=
  Hw.logRefused_reg_ne _ _ _ _ (fun e => hq (congrArg Prod.fst e)) (fun e => hq (congrArg Prod.fst e))

/-- R36, R570. What a host write of a register that refuses it shows: the counter, the flag, HERR and ACC_LOG. -/
theorem State.hostStoreReq_refused_shows {s : State} (hon : s.hw.hostOn = true) {idx : Fin 64} {off : Fin 256}
    (hr : reachable s.hw ⟨15, idx⟩ = true) (ha : accepts s.hw .host ⟨15, idx⟩ off = false) (ho : 0x10 ≤ off.val)
    {bs : List (BitVec 8)} (hl : bs.length = 8) :
    let t := s.hostStoreReq 0 (8 * (256 * idx + off)) (bs.map some)
    t.mem = s.mem ∧ t.tags = s.tags ∧
      t.hw.f pPCIE 0 PCIE_REFUSED_CNT_COUNT = (s.hw.f pPCIE 0 PCIE_REFUSED_CNT_COUNT + 1) % 2 ^ 40 ∧
      t.hw.f pPCIE 0 PCIE_IRQ_REFUSED = 1 ∧ t.hw.f pPCIE 0 PCIE_HERR_BAR = 0 ∧
      t.hw.f pPCIE 0 PCIE_HERR_OFFSET = 8 * (256 * idx + off) ∧ t.hw.f pDEV 0 DEV_ACC_LOG_REQ = 0x30 := by
  rw [State.hostStoreReq_refused hon hr ha ho hl]
  refine ⟨by rw [State.mem_on, State.mem_on, State.mem_on], by rw [State.tags_on, State.tags_on, State.tags_on], ?_⟩
  simp only [State.hw_on]
  obtain ⟨hcnt, hirq, hbar, hoff⟩ := ((s.hw.granted ⟨.host, 1⟩ ⟨15, idx⟩).logRefused ⟨.host, 1⟩ ⟨15, idx⟩ off).hostRefused_shows 0
    (8 * (256 * idx + off)) (by decide) (by omega)
  rw [Hw.f, Hw.f, Hw.logRefused_reg_page _ _ _ _ (by decide), Hw.granted_reg] at hcnt
  refine ⟨hcnt, hirq, hbar, hoff, ?_⟩
  rw [Hw.f, Hw.hostRefused_reg_ne _ _ _ (by decide)]
  exact Hw.logRefused_req _ _ _ _

/-- R7, R570. What a write of one byte of a DRAM slot shows. -/
theorem State.hostStoreReq_byte_shows {s : State} (hon : s.hw.hostOn = true) {k : Nat} (hk : k < 2 ^ 29) (b : BitVec 8) :
    let t := s.hostStoreReq 1 (8 * k) [some b]
    t.mem = s.mem ∧ t.tags = s.tags ∧
      t.hw.f pPCIE 0 PCIE_PARTIAL_CNT_COUNT = (s.hw.f pPCIE 0 PCIE_PARTIAL_CNT_COUNT + 1) % 2 ^ 40 ∧
      t.hw.f pPCIE 0 PCIE_IRQ_PARTIAL = 1 ∧ t.hw.f pPCIE 0 PCIE_HERR_BAR = 1 ∧ t.hw.f pPCIE 0 PCIE_HERR_OFFSET = 8 * k := by
  rw [State.hostStoreReq_byte hon 1 k b (by rw [Hw.slotAt_bar2 _ hk]; rfl)]
  obtain ⟨hmem, htags, hf⟩ := s.slotMet_frame (s.hw.slotAt 1 (8 * k))
  obtain ⟨hcnt, hirq, hbar, hoff⟩ := (s.slotMet (s.hw.slotAt 1 (8 * k))).hw.partialWrite_shows 1 (8 * k) (by decide) (by omega)
  rw [hf _ _ _ (by decide)] at hcnt
  exact ⟨hmem, htags, hcnt, hirq, hbar, hoff⟩

/-- Settles O46: each clause by the lemma on its request; the host's own offsets are slots of one BAR. -/
theorem hostReadsAndWritesSlots : Obligations.HostReadsAndWritesSlots := by
  refine ⟨?_, ?_, ?_, ?_, ?_, ?_, ?_, ?_, ?_, ?_, ?_, ?_⟩
  · rintro k ro ns s ⟨hon, hk, hr, hm, hp⟩
    refine ⟨_, exec_hostRead hk 1 ro ns s, State.hostReq_cleanWord hon ro ns ?_ hm hp⟩
    simp only [Hw.slotAt_bar2 _ hk, State.slotRead, hr, if_true]
  · rintro k ro ns s ⟨hon, hk, hr, hm, hp⟩
    refine ⟨_, exec_hostRead hk 1 ro ns s, State.hostReq_poisoned hon ro ns ?_ hm hp⟩
    simp only [Hw.slotAt_bar2 _ hk, State.slotRead, hr, if_true]
  · rintro k ro ns s ⟨hon, hk, hr⟩
    exact ⟨_, exec_hostRead hk 1 ro ns s, State.hostReq_dramNotReady hon hr hk ro ns⟩
  · rintro idx off ro ns s ⟨hon, hr⟩
    exact ⟨_, exec_hostRead (deviceSlot_lt idx off) 0 ro ns s, State.hostReq_devicePage hon off hr ro ns⟩
  · rintro k bs s ⟨hon, hk, hr, hm, hl⟩
    refine ⟨_, (exec_hostWrite hk 1 _ s).trans (congrArg _ (State.hostStoreReq_dram hon hk hr hm hl)), ?_⟩
    exact ⟨State.rd_wr_same _ _ _, fun g hg => State.rd_wr_ne _ _ hg, rfl, rfl⟩
  · rintro k b s ⟨hon, hk⟩
    exact ⟨_, exec_hostWrite hk 1 _ s, State.hostStoreReq_byte_shows hon hk b⟩
  · rintro k bs s ⟨hon, hk, hr, hl⟩
    refine ⟨_, (exec_hostWrite hk 1 _ s).trans (congrArg _ (State.hostStoreReq_dramNotReady hon hk hr hl)), ?_⟩
    exact ⟨rfl, rfl, State.dramMissed_flag _⟩
  · rintro idx off bs s ⟨hon, hr, ha, ho, hl⟩
    exact ⟨_, exec_hostWrite (deviceSlot_lt idx off) 0 _ s, State.hostStoreReq_refused_shows hon hr ha ho hl⟩
  · rintro w s ⟨hon, hw, hlt, hv⟩ ⟨hm, hp⟩
    refine ⟨_, exec_snapshotWindowRead hw s, State.hostReq_cleanWord hon false false ?_ hm hp⟩
    simp only [Hw.slotAt_snapshotWindow _ hw, State.slotRead, Hw.snapSlot_leased hv hlt]
  · rintro w s ⟨hon, hw, hn⟩
    refine ⟨_, exec_snapshotWindowRead hw s, State.hostReq_zeros hon false false ?_⟩
    simp only [Hw.slotAt_snapshotWindow _ hw, State.slotRead, Hw.snapSlot_none hn]
  · rintro w g s ⟨hon, hw, hf, hr, hkr⟩ rfl ⟨hm, hp⟩
    refine ⟨_, exec_hamperWindowRead hw s, State.hostReq_cleanWord hon false false ?_ hm hp⟩
    simp only [Hw.slotAt_hamperWindow _ hw, State.slotRead, hr, Hw.hamperSlot_frozen hf hkr, Bool.not_true, Bool.false_eq_true,
      if_false]
  · rintro w s ⟨hon, hw, hf, hr⟩
    refine ⟨_, exec_hamperWindowRead hw s, State.hostReq_zeros hon false false ?_⟩
    simp only [Hw.slotAt_hamperWindow _ hw, State.slotRead, hr, Hw.hamperSlot_none hf, Bool.not_true, Bool.false_eq_true, if_false]

end Sys2Proof.Machine

/-! Controlled writes: what a page does with a plain register, with OWNER, and with a write it refuses (R13 to R37). -/

namespace Sys2Proof.Machine

open Sys2Proof

/-! ## The plain registers that open a page

Below the channel window only CTRL (2), IRQ_FLAG (5), OWNER (6) and CHSEL (8) have rules of their own: a page's write function
treats each other register there as a plain one. -/

/-- An offset below the channel window at which no page has a rule of its own for a controlled write. -/
def PlainOff (off : Nat) : Prop := off < 0x10 ∧ off ≠ 2 ∧ off ≠ 5

section PageFunctions

variable {off : Nat}

theorem PlainOff.ne (ho : PlainOff off) {n : Nat} (hn : 0x10 ≤ n) : off ≠ n := Nat.ne_of_lt (Nat.lt_of_lt_of_le ho.1 hn)

theorem PlainOff.not_le (ho : PlainOff off) {n : Nat} (hn : 0x10 ≤ n) : ¬ n ≤ off := Nat.not_le.2 (Nat.lt_of_lt_of_le ho.1 hn)

theorem PlainOff.ne_two (ho : PlainOff off) : off ≠ 2 := ho.2.1

theorem PlainOff.ne_five (ho : PlainOff off) : off ≠ 5 := ho.2.2

theorem Hw.cluWrite_plain (ho : PlainOff off) (h : Hw) (n : Nat) (d : Word) :
    h.cluWrite n off d = h.plainWrite (pCLU n) off 0 d := by
  simp [Hw.cluWrite, ho.ne_two]

theorem Hw.coreWrite_plain (ho : PlainOff off) (h : Hw) (k : Fin 32) (d : Word) :
    h.coreWrite k off d = h.plainWrite (corePage k) off 0 d := by
  simp [Hw.coreWrite, ho.ne]

theorem Hw.dicWrite_plain (ho : PlainOff off) (h : Hw) (a : Acc) (c ch : Nat) (d : Word) :
    h.dicWrite a c off ch d = (h.plainWrite (pDIC c) off ch d, true) := by
  simp [Hw.dicWrite, ringZeroOnly, ho.ne, ho.not_le]

theorem Hw.wdtWrite_plain (ho : PlainOff off) (h : Hw) (x : Option (Fin 8)) (d : Word) :
    h.wdtWrite x off d = h.plainWrite (wdtPage x) off 0 d := by
  simp [Hw.wdtWrite, ho.ne]

theorem Hw.loopWrite_plain (ho : PlainOff off) (h : Hw) (c i : Nat) (d : Word) :
    h.loopWrite c off i d = h.plainWrite (pLOOP c) off i d := by
  simp [Hw.loopWrite, ho.ne, ho.ne_two]

theorem Hw.loopUcWrite_plain (ho : PlainOff off) (h : Hw) (c ch : Nat) (r : Requester) (d : Word) :
    h.loopUcWrite c off ch r d = h.plainWrite (pLOOPUC c) off ch d := by
  simp [Hw.loopUcWrite, ho.ne]

theorem Hw.pwmTbWrite_plain (ho : PlainOff off) (h : Hw) (c t : Nat) (d : Word) :
    h.pwmTbWrite c off t d = h.plainWrite (pPWMTB c) off t d := by
  simp [Hw.pwmTbWrite, ho.ne, ho.ne_two, ho.not_le]

theorem Hw.pwmChWrite_plain (ho : PlainOff off) (h : Hw) (c k : Nat) (d : Word) :
    h.pwmChWrite c off k d = h.plainWrite (pPWMCH c) off k d := by
  simp [Hw.pwmChWrite, shadowOffs, ho.ne]

theorem Hw.scorchWrite_plain (ho : PlainOff off) (h : Hw) (c t : Nat) (d : Word) :
    h.scorchWrite c off t d = h.plainWrite (pSCORCH c) off t d := by
  simp [Hw.scorchWrite, ho.ne, ho.not_le]

theorem Hw.adcWrite_plain (ho : PlainOff off) (h : Hw) (c j : Nat) (d : Word) :
    h.adcWrite c j off d = h.plainWrite (pADC c j) off 0 d := by
  simp [Hw.adcWrite, ho.ne_two]

theorem Hw.adcSWrite_plain (ho : PlainOff off) (h : Hw) (c : Nat) (d : Word) :
    h.adcSWrite c off d = h.plainWrite (pADCS c) off 0 d := by
  simp [Hw.adcSWrite, ho.ne, ho.ne_two]

theorem Hw.adcSeqWrite_plain (ho : PlainOff off) (h : Hw) (c ch : Nat) (d : Word) :
    h.adcSeqWrite c off ch d = h.plainWrite (pADCSEQ c) off ch d := by
  simp [Hw.adcSeqWrite, ho.ne, ho.ne_two]

theorem Hw.sdfWrite_plain (ho : PlainOff off) (h : Hw) (c ch : Nat) (d : Word) :
    h.sdfWrite c off ch d = h.plainWrite (pSDF c) off ch d := by
  simp [Hw.sdfWrite, ho.ne]

theorem Hw.cmpWrite_plain (ho : PlainOff off) (h : Hw) (c ch : Nat) (d : Word) :
    h.cmpWrite c off ch d = h.plainWrite (pCMP c) off ch d := by
  simp [Hw.cmpWrite, ho.ne]

theorem Hw.trkWrite_plain (ho : PlainOff off) (h : Hw) (c t : Nat) (r : Requester) (d : Word) :
    h.trkWrite c off t r d = h.plainWrite (pTRK c) off t d := by
  simp [Hw.trkWrite, ho.ne]

theorem Hw.seamWrite_plain (ho : PlainOff off) (h : Hw) (loc ch : Nat) (d : Word) :
    h.seamWrite loc off ch d = h.plainWrite (chanPage ⟨loc, ch⟩) off ch d := by
  simp [Hw.seamWrite, ho.ne]

theorem Hw.manglePlain_plain (ho : PlainOff off) (h : Hw) (p : Page) (ch : Nat) (d : Word) :
    h.manglePlain p off ch d = h.plainWrite p off ch d := by
  simp [Hw.manglePlain, ho.ne]

theorem Hw.devWrite_plain (ho : PlainOff off) (h : Hw) (d : Word) :
    h.devWrite off d = h.plainWrite pDEV off 0 d := by
  simp [Hw.devWrite, ho.ne, ho.ne_two]

theorem Hw.clkWrite_plain (ho : PlainOff off) (h : Hw) (ch : Nat) (d : Word) :
    h.clkWrite off ch d = (h.plainWrite pCLK off ch d, true) := by
  simp [Hw.clkWrite, ho.ne]

theorem Hw.rstWrite_plain (ho : PlainOff off) (h : Hw) (r : Requester) (d : Word) :
    h.rstWrite off r d = h.plainWrite pRST off 0 d := by
  simp [Hw.rstWrite, ho.ne]

theorem State.pwrWrite_plain (ho : PlainOff off) (s : State) (d : Word) :
    s.pwrWrite off d = s.on (fun h => h.plainWrite pPWR off 0 d) := by
  simp [State.pwrWrite, ho.ne, ho.ne_two]

theorem Hw.aowWrite_plain (ho : PlainOff off) (h : Hw) (ch : Nat) (d : Word) :
    h.aowWrite off ch d = h.plainWrite pAOW off ch d := by
  simp [Hw.aowWrite, ho.ne]

theorem Hw.monWrite_plain (ho : PlainOff off) (h : Hw) (ch : Nat) (d : Word) :
    h.monWrite off ch d = h.plainWrite pMON off ch d := by
  simp [Hw.monWrite, ho.ne_five]

theorem State.dramWrite_plain (ho : PlainOff off) (s : State) (r : Requester) (d : Word) :
    s.dramWrite r off d = s.on (fun h => h.plainWrite pDRAM off 0 d) := by
  simp [State.dramWrite, ho.ne, ho.ne_five]

theorem Hw.darnerWrite_plain (ho : PlainOff off) (h : Hw) (d : Word) :
    h.darnerWrite off d = h.plainWrite pDARNER off 0 d := by
  simp [Hw.darnerWrite, ho.ne_two]

theorem Hw.hamperWrite_plain (ho : PlainOff off) (h : Hw) (ch : Nat) (d : Word) :
    h.hamperWrite off ch d = h.plainWrite pHAMPER off ch d := by
  simp [Hw.hamperWrite, ho.ne, ho.ne_two]

theorem State.flashWrite_plain (ho : PlainOff off) (s : State) (a : Acc) (ch : Nat) (d : Word) :
    s.flashWrite a off ch d = s.on (fun h => h.plainWrite pFLASH off ch d) := by
  simp [State.flashWrite, ho.ne]

theorem Hw.ledgerWrite_plain (ho : PlainOff off) (h : Hw) (a : Acc) (d : Word) :
    h.ledgerWrite a off d = h.plainWrite pLEDGER off 0 d := by
  simp [Hw.ledgerWrite, ho.ne]

theorem Hw.lwfWrite_plain (ho : PlainOff off) (h : Hw) (a : Acc) (ch : Nat) (d : Word) :
    h.lwfWrite a off ch d = h.plainWrite pLWF off ch d := by
  simp [Hw.lwfWrite, ho.ne]

theorem State.domWrite_plain (ho : PlainOff off) (s : State) (ch : Nat) (r : Requester) (d : Word) :
    s.domWrite off ch r d = s.on (fun h => h.plainWrite pDOM off ch d) := by
  simp [State.domWrite, ho.ne]

theorem Hw.snapWrite_plain (ho : PlainOff off) (h : Hw) (r : Requester) (d : Word) :
    h.snapWrite off r d = h.plainWrite pSNAP off 0 d := by
  simp [Hw.snapWrite, ho.ne, ho.ne_two]

theorem Hw.dtimeWrite_plain (ho : PlainOff off) (h : Hw) (r : Requester) (d : Word) :
    h.dtimeWrite off r d = h.plainWrite pDTIME off 0 d := by
  simp [Hw.dtimeWrite, ho.ne, ho.ne_two]

theorem Hw.dlWrite_plain (ho : PlainOff off) (h : Hw) (k ch : Nat) (d : Word) :
    h.dlWrite k off ch d = h.plainWrite (pDL k) off ch d := by
  simp [Hw.dlWrite, ho.ne, ho.ne_two, ho.not_le]

theorem Hw.frayWrite_plain (ho : PlainOff off) (h : Hw) (k : Nat) (d : Word) :
    h.frayWrite k off d = (h.plainWrite (pFRAY k) off 0 d, true) := by
  simp [Hw.frayWrite, ho.ne, ho.ne_two, ho.not_le]

theorem Hw.pcieWrite_plain (ho : PlainOff off) (h : Hw) (r : Requester) (d : Word) :
    h.pcieWrite off r d = h.plainWrite pPCIE off 0 d := by
  simp [Hw.pcieWrite, ho.ne]

theorem State.mboxWrite_plain (ho : PlainOff off) (s : State) (m : Nat) (d : Word) :
    s.mboxWrite off m d = s.on (fun h => h.plainWrite pMBOX off m d) := by
  simp [State.mboxWrite, ho.ne]

theorem Hw.ethWrite_plain (ho : PlainOff off) (h : Hw) (k ch : Nat) (r : Requester) (d : Word) :
    h.ethWrite k off ch r d = h.plainWrite (pETH k) off ch d := by
  simp [Hw.ethWrite, ethPairHigh, ho.ne]

theorem Hw.svcWrite_plain (ho : PlainOff off) (h : Hw) (ch : Nat) (d : Word) :
    h.svcWrite off ch d = h.plainWrite pSVC off ch d := by
  simp [Hw.svcWrite, ho.ne, ho.ne_two]

theorem Hw.pinWrite_plain (ho : PlainOff off) (h : Hw) (a : Acc) (pin : Nat) (d : Word) :
    h.pinWrite a off pin d = (h.plainWrite pPIN off pin d, true) := by
  simp [Hw.pinWrite, ho.ne, ho.not_le]

theorem Hw.secWrite_plain (ho : PlainOff off) (h : Hw) (d : Word) :
    h.secWrite off d = h.plainWrite pSEC off 0 d := by
  simp [Hw.secWrite, ho.ne]

theorem Hw.dbgWrite_plain (ho : PlainOff off) (h : Hw) (d : Word) :
    h.dbgWrite off d = h.plainWrite pDBG off 0 d := by
  simp [Hw.dbgWrite, ho.ne]

end PageFunctions

/-! ## The effect of a write of a plain register -/

/-- The core whose page a cluster's page is has that page. -/
theorem corePage_coreOf {c idx : Nat} (hc : c < 8) (h1 : 1 ≤ idx) (h4 : idx ≤ 4) : corePage (coreOf ⟨c, idx⟩) = ⟨c, idx⟩ := by
  have hv : (coreOf ⟨c, idx⟩).val = 4 * c + (idx - 1) := Nat.mod_eq_of_lt (show 4 * c + (idx - 1) < 32 by omega)
  simp only [corePage, pCORE, clOf, noOf, hv, Page.mk.injEq]
  omega

/-- R13. A cluster page treats a plain register by the access codes alone. -/
theorem State.clusterEffect_plain {c idx : Nat} {i : PageInfo} (hi : clusterPage idx = some i) (hc : c < 8) {off : Nat}
    (ho : PlainOff off) (s : State) (a : Acc) (d : Word) :
    s.clusterEffect a ⟨c, idx⟩ i.kind off 0 d = (s.on (fun h => h.plainWrite ⟨c, idx⟩ off 0 d), true) := by
  have hw : wdtPage (some (Fin.ofNat 8 c)) = pCWDT c := by simp [wdtPage, Nat.mod_eq_of_lt hc]
  unfold clusterPage at hi
  split at hi
  case h_22 => contradiction
  all_goals
    cases hi
    simp only [State.clusterEffect, State.eff, State.effR, State.on, ho.ne (n := 0x80) (by decide), if_false, Hw.cluWrite_plain ho,
      Hw.dicWrite_plain ho, Hw.wdtWrite_plain ho, Hw.loopWrite_plain ho, Hw.loopUcWrite_plain ho, Hw.pwmTbWrite_plain ho,
      Hw.pwmChWrite_plain ho, Hw.scorchWrite_plain ho, Hw.adcWrite_plain ho, Hw.adcSWrite_plain ho, Hw.adcSeqWrite_plain ho,
      Hw.sdfWrite_plain ho, Hw.cmpWrite_plain ho, Hw.trkWrite_plain ho, Hw.seamWrite_plain ho, Hw.manglePlain_plain ho, hw,
      chanPage, hc, if_true, Hw.coreWrite_plain ho, corePage_coreOf hc (idx := 1) (by decide) (by decide),
      corePage_coreOf hc (idx := 2) (by decide) (by decide), corePage_coreOf hc (idx := 3) (by decide) (by decide),
      corePage_coreOf hc (idx := 4) (by decide) (by decide)]


/-- R13. A device page treats a plain register by the access codes alone. -/
theorem State.deviceEffect_plain {idx : Nat} {i : PageInfo} (hi : devicePage idx = some i) {off : Nat} (ho : PlainOff off)
    (s : State) (a : Acc) (d : Word) :
    s.deviceEffect a ⟨devCl, idx⟩ i.kind off 0 d = (s.on (fun h => h.plainWrite ⟨devCl, idx⟩ off 0 d), true) := by
  have hg : chanPage ⟨15, 0⟩ = pGSEAM := rfl
  unfold devicePage at hi
  split at hi
  case h_38 => contradiction
  all_goals
    cases hi
    simp only [State.deviceEffect, State.eff, State.effR, State.on, ho.ne (n := 0x10) (by decide), if_false, Hw.devWrite_plain ho,
      Hw.clkWrite_plain ho, Hw.rstWrite_plain ho, State.pwrWrite_plain ho, Hw.wdtWrite_plain ho, Hw.aowWrite_plain ho,
      Hw.monWrite_plain ho, Hw.seamWrite_plain ho, Hw.manglePlain_plain ho, State.dramWrite_plain ho, Hw.darnerWrite_plain ho,
      Hw.hamperWrite_plain ho, State.flashWrite_plain ho, Hw.ledgerWrite_plain ho, Hw.lwfWrite_plain ho, State.domWrite_plain ho,
      Hw.snapWrite_plain ho, Hw.dtimeWrite_plain ho, Hw.dlWrite_plain ho, Hw.frayWrite_plain ho, Hw.pcieWrite_plain ho,
      State.mboxWrite_plain ho, Hw.ethWrite_plain ho, Hw.svcWrite_plain ho, Hw.pinWrite_plain ho, Hw.secWrite_plain ho,
      Hw.dbgWrite_plain ho, wdtPage, hg]

/-- R13. What a controlled write that passes does to a plain register of any page. -/
theorem State.pageEffect_plain {p : Page} {i : PageInfo} (hi : pageInfo p = some i) {off : Nat} (ho : PlainOff off) (s : State)
    (a : Acc) (d : Word) : s.pageEffect a p i off 0 d = (s.on (fun h => h.plainWrite p off 0 d), true) := by
  have h10 : ¬ ((i.kind = .cmangle ∨ i.kind = .dmangle) ∧ off = 0x10) := fun h => ho.ne (by decide) h.2
  obtain ⟨c, idx⟩ := p
  rw [State.pageEffect, if_neg h10, State.plainEffect]
  unfold pageInfo at hi
  split at hi
  · next hc => rw [if_pos hc, State.clusterEffect_plain hi hc ho]
  · next hc =>
    split at hi
    · next hd =>
      cases hd
      rw [if_neg hc, State.deviceEffect_plain hi ho]
    · contradiction

/-! ## The fields of the registers that open a page -/

theorem fieldsAt_reserved (k : PageKind) (off : Fin 7) : fieldsAt k (9 + off) = [] := by
  revert off
  cases k <;> decide +kernel

theorem fieldsAt_owner (k : PageKind) : fieldsAt k 6 = [⟨0, 8, .rwl, 0xff⟩, ⟨8, 2, .rwl, 3⟩] := by
  cases k <;> decide +kernel

theorem fieldsAt_lock (k : PageKind) : fieldsAt k 7 = [⟨0, 1, .w1s, 0⟩] := by
  cases k <;> decide +kernel

/-- R39. Below the channel window only CHSEL is banked. -/
theorem not_banked (k : PageKind) (off : Fin 16) : (fieldsAt k off).any (fun f => f.acc == .bk || f.acc == .bkro) = false := by
  revert off
  cases k <;> decide +kernel

/-- R15. The reserved parts of a layout stand in IRQ_EN, IRQ_FLAG and registers of the windows. -/
theorem reservedParts_offs (k : PageKind) (inst : Nat) : ∀ r ∈ reservedParts k inst, r.1 = 4 ∨ r.1 = 5 ∨ 0x10 ≤ r.1 := by
  unfold reservedParts
  split
  case h_4 => split <;> decide
  case h_5 => split <;> decide
  all_goals decide

theorem withoutReserved_plain (k : PageKind) (inst : Nat) {off : Nat} (ho : PlainOff off) (h4 : off ≠ 4) (n : Nat) :
    withoutReserved k inst off n = n := by
  have hnone : (reservedParts k inst).filter (fun r => r.1 == off) = [] := by
    rw [List.filter_eq_nil_iff]
    intro r hr he
    have he : r.1 = off := by simpa using he
    have h16 := ho.1
    rcases reservedParts_offs k inst r hr with h | h | h
    · exact h4 (he ▸ h)
    · exact ho.ne_five (he ▸ h)
    · omega
  rw [withoutReserved, hnone, List.foldl_nil]

theorem w40_toNat (v : Word) : w40 v.toNat = v := (BitVec.ofNat_toNat 40 v).trans (BitVec.setWidth_eq v)

/-- R15. A write of a reserved offset leaves the word there. -/
theorem writtenWord_reserved (h : Hw) (p : Page) {off : Nat} (h9 : 9 ≤ off) (h15 : off ≤ 15) (old d : Word) :
    writtenWord h p off old d = old := by
  have hk (k : PageKind) : fieldsAt k off = [] := by
    have := fieldsAt_reserved k ⟨off - 9, by omega⟩
    rwa [show 9 + (off - 9) = off by omega] at this
  unfold writtenWord
  split
  · rfl
  · next i _ =>
    rw [hk, List.foldl_nil, withoutReserved_plain _ _ ⟨by omega, by omega, by omega⟩ (by omega), w40_toNat]

/-- R17, R32. A write of 1 to LOCK sets it. -/
theorem writtenWord_lock (h : Hw) {p : Page} (hp : (pageInfo p).isSome = true) (old : Word) :
    bitsOf (writtenWord h p 7 old 1).toNat 0 1 = 1 := by
  obtain ⟨i, hi⟩ := Option.isSome_iff_exists.1 hp
  simp only [writtenWord, hi, fieldsAt_lock, List.foldl_cons, List.foldl_nil, fieldWrite]
  rw [withoutReserved_plain _ _ ⟨by decide, by decide, by decide⟩ (by decide), w40_withBits _ _ _ _ (by decide),
    bitsOf_withBits_same]
  have ho : bitsOf old.toNat 0 1 < 2 := Nat.mod_lt _ (by decide)
  obtain h0 | h1 : bitsOf old.toNat 0 1 = 0 ∨ bitsOf old.toNat 0 1 = 1 := by omega
  · rw [h0]
    decide
  · rw [h1]
    decide

/-- R13, R31. While LOCK is 0 a write of OWNER leaves the RING and REQ written. -/
theorem writtenWord_owner {h : Hw} {p : Page} (hp : (pageInfo p).isSome = true) (hl : h.b p 0 LOCK_BIT = false) (old d : Word) :
    bitsOf (writtenWord h p 6 old d).toNat 8 2 = bitsOf d.toNat 8 2 ∧ bitsOf (writtenWord h p 6 old d).toNat 0 8 = bitsOf d.toNat 0 8 := by
  obtain ⟨i, hi⟩ := Option.isSome_iff_exists.1 hp
  have hreq := w40_withBits old 0 8 (bitsOf d.toNat 0 8) (by decide)
  have hw := w40_withBits (w40 (withBits old.toNat 0 8 (bitsOf d.toNat 0 8))) 8 2 (bitsOf d.toNat 8 2) (by decide)
  rw [hreq] at hw
  simp only [writtenWord, hi, fieldsAt_owner, List.foldl_cons, List.foldl_nil, fieldWrite, hl, Bool.false_eq_true, if_false]
  rw [withoutReserved_plain _ _ ⟨by decide, by decide, by decide⟩ (by decide), hw, bitsOf_withBits_same,
    bitsOf_withBits_below _ _ _ _ _ _ (by decide), bitsOf_withBits_same]
  exact ⟨Nat.mod_mod _ _, Nat.mod_mod _ _⟩

/-! ## Writes of a requester -/

theorem State.report_ok (s : State) (w : Requester) (p : Page) (off : Nat) : s.on (fun h => h.report w p off .ok) = s := by
  cases w <;> rfl

@[simp] theorem Hw.noteSw_reg (h : Hw) (a : Acc) (p : Page) (i : PageInfo) (off : Nat) (q : Page) (o ch : Nat) :
    (h.noteSw a p i off).reg q o ch = h.reg q o ch := by
  unfold Hw.noteSw
  split <;> rfl

/-- R33. Below the channel window the check is one for every register. -/
theorem Hw.passes_plain (h : Hw) (a : Acc) (p : Page) (i : PageInfo) {off : Nat} (ho : off < 0x10) :
    h.passes a p i off = h.passes a p i 0 := by
  have h12 : (off == 0x12) = false := beq_false_of_ne (by omega)
  have h10 : ¬ 0x10 ≤ off := by omega
  simp [Hw.passes, pinOwned, h12, h10]

/-- R38, R39. Below the channel window a register but CHSEL has one channel and no banks. -/
theorem Hw.chanFor_plain (h : Hw) (p : Page) (r : Requester) {off : Nat} (ho : off < 0x10) (h8 : off ≠ 8) : h.chanFor p r off = 0 := by
  have h10 : ¬ 0x10 ≤ off := by omega
  have h84 : off ≠ 0x84 := by omega
  have h85 : off ≠ 0x85 := by omega
  unfold Hw.chanFor
  split
  · rfl
  · next i _ =>
    have hb : bankedAt i off = false := by simpa [bankedAt, h8, h84, h85] using not_banked i.kind ⟨off, ho⟩
    simp [h10, hb]

/-- What a write leaves depends on the registers alone. -/
theorem fieldWrite_granted (h : Hw) (a : Acc) (q p : Page) (f : FieldDef) (old d : Nat) :
    fieldWrite (h.granted a q) p f old d = fieldWrite h p f old d := by
  unfold fieldWrite
  cases f.acc <;> rfl

theorem writtenWord_granted (h : Hw) (a : Acc) (q p : Page) (off : Nat) (old d : Word) :
    writtenWord (h.granted a q) p off old d = writtenWord h p off old d := by
  simp only [writtenWord, fieldWrite_granted]

/-- R13. A write that a page accepts, of a plain register: the register holds the written word, every other one what it held. -/
theorem State.requestWrite_plain {s : State} {w : Requester} {p : Page} {off : Nat} (ha : accepts s.hw w p = true)
    (ho : PlainOff off) (h6 : off ≠ 6) (h8 : off ≠ 8) (d : Word) :
    (s.requestWrite w p off d).hw.reg p off 0 = writtenWord s.hw p off (s.hw.reg p off 0) d ∧
      ∀ (q : Page) (o ch : Nat), (q, o, ch) ≠ (p, off, 0) → (s.requestWrite w p off d).hw.reg q o ch = s.hw.reg q o ch := by
  obtain ⟨i, hi, hs, hp⟩ := passes_of_accepts ha
  have hp : s.hw.passes (s.hw.acc w) p i off = true := (Hw.passes_plain _ _ _ _ ho.1).trans hp
  have he : (s.on fun h => h.granted (s.hw.acc w) p).pageEffect (s.hw.acc w) p i off (s.hw.chanFor p (s.hw.acc w).who off) d =
      ((s.on fun h => h.granted (s.hw.acc w) p).on (fun h => h.plainWrite p off 0 d), true) := by
    rw [Hw.chanFor_plain _ _ _ ho.1 h8]
    exact State.pageEffect_plain hi ho _ _ d
  rw [State.requestWrite, State.pageWrite_passed d hi h6 h8 hs hp he, State.report_ok]
  simp only [State.hw_on, Hw.noteSw_reg]
  refine ⟨?_, fun q o ch hne => ?_⟩
  · rw [Hw.plainWrite_reg, writtenWord_granted, Hw.granted_reg]
  · rw [Hw.plainWrite_reg_ne _ _ hne, Hw.granted_reg]

theorem pageInfo_of_accepts {h : Hw} {w : Requester} {p : Page} {off : Nat} (ha : accepts h w p off = true) :
    (pageInfo p).isSome = true := by
  obtain ⟨i, hi, _⟩ := passes_of_accepts ha
  exact Option.isSome_iff_exists.2 ⟨i, hi⟩

/-- R15. A write of a reserved offset changes no register. -/
theorem State.requestWrite_reserved {s : State} {w : Requester} {p : Page} {off : Nat} (ha : accepts s.hw w p = true)
    (h9 : 9 ≤ off) (h15 : off ≤ 15) (d : Word) (q : Page) (o ch : Nat) :
    (s.requestWrite w p off d).hw.reg q o ch = s.hw.reg q o ch := by
  obtain ⟨hsame, hother⟩ := State.requestWrite_plain ha (off := off) ⟨by omega, by omega, by omega⟩ (by omega) (by omega) d
  by_cases hq : (q, o, ch) = (p, off, 0)
  · cases hq
    rw [hsame, writtenWord_reserved _ _ h9 h15]
  · exact hother q o ch hq

/-- R32. A write of OWNER that takes effect leaves OWNER as a plain write does. -/
theorem State.requestWrite_owner {s : State} {w : Requester} {p : Page} (hr : reachable s.hw p = true)
    (hl : s.hw.f p 0 LOCK_BIT = 0) (ho : s.hw.ringOf w ≤ 1 ∨ w.id = s.hw.f p 0 OWNER_REQ) (hm : s.hw.mayWrite w = true) (d : Word) :
    (s.requestWrite w p 6 d).hw.reg p 6 0 = writtenWord s.hw p 6 (s.hw.reg p 6 0) d := by
  simp only [reachable, Bool.and_eq_true, Option.isSome_iff_exists, Bool.not_eq_true'] at hr
  obtain ⟨⟨i, hi⟩, hs⟩ := hr
  have hok : (!s.hw.b p 0 LOCK_BIT && s.hw.mayWrite (s.hw.acc w).who &&
      (decide ((s.hw.acc w).ring ≤ 1) || (s.hw.acc w).who.id == s.hw.f p 0 OWNER_REQ)) = true := by
    have hm' : s.hw.mayWrite (s.hw.acc w).who = true := hm
    have ho' : (s.hw.acc w).ring ≤ 1 ∨ (s.hw.acc w).who.id = s.hw.f p 0 OWNER_REQ := ho
    simp [Hw.b, hl, hm', ho']
  have hw : s.hw.ownerWrite (s.hw.acc w) p d = ((s.hw.granted (s.hw.acc w) p).plainWrite p 6 0 d, .ok) := by
    simp only [Hw.ownerWrite, hi, hs, Bool.false_eq_true, if_false, hok, if_true]
  have hpw : s.pageWrite (s.hw.acc w) p 6 d = (s.on (fun h => (h.granted (s.hw.acc w) p).plainWrite p 6 0 d), .ok) := by
    simp only [State.pageWrite, State.pageWriteWith, hi, if_true, hw]
    rfl
  rw [State.requestWrite, hpw, State.report_ok]
  simp only [State.hw_on]
  rw [Hw.plainWrite_reg, writtenWord_granted, Hw.granted_reg]

/-- R36. A refused write of a requester: granted, logged and reported, and nothing else. -/
theorem State.requestWrite_refused {s : State} {w : Requester} {p : Page} {off : Nat} (hr : reachable s.hw p = true)
    (ha : accepts s.hw w p off = false) (h6 : off ≠ 6) (h8 : off ≠ 8) (d : Word) :
    s.requestWrite w p off d =
      (((s.on fun h => h.granted (s.hw.acc w) p).on fun h => h.logRefused (s.hw.acc w) p off).on
        fun h => h.report w p off .refused) := by
  obtain ⟨i, hi, hs, hp⟩ := passes_false_of_refused hr ha
  rw [State.requestWrite, State.pageWrite_refused d hi h6 h8 hs hp]

theorem State.requestWrite_refused_hw {s : State} {w : Requester} {p : Page} {off : Nat} (hr : reachable s.hw p = true)
    (ha : accepts s.hw w p off = false) (h6 : off ≠ 6) (h8 : off ≠ 8) (d : Word) :
    (s.requestWrite w p off d).hw =
      ((s.hw.granted (s.hw.acc w) p).logRefused (s.hw.acc w) p off).report w p off .refused := by
  rw [State.requestWrite_refused hr ha h6 h8 d, State.hw_on, State.hw_on, State.hw_on]

/-- R36, R570. The registers that a refused write leaves as they were. -/
theorem State.requestWrite_refused_reg {s : State} {w : Requester} {p : Page} {off : Nat} (hr : reachable s.hw p = true)
    (ha : accepts s.hw w p off = false) (h6 : off ≠ 6) (h8 : off ≠ 8) (d : Word) {q : Page} {o : Nat} (h80 : (q, o) ≠ (pDEV, 0x80))
    (h5 : (q, o) ≠ (pDEV, 5)) (hq : w = .host → q ≠ pPCIE) (ch : Nat) :
    (s.requestWrite w p off d).hw.reg q o ch = s.hw.reg q o ch := by
  have key {n : Nat} (hn : (q, o) ≠ (pDEV, n)) : (q, o, ch) ≠ (pDEV, n, 0) := fun e => hn (by cases e; rfl)
  rw [State.requestWrite_refused_hw hr ha h6 h8 d, Hw.report_reg _ _ _ _ _ hq, Hw.logRefused_reg_ne _ _ _ _ (key h80) (key h5), Hw.granted_reg]

theorem Hw.acc_ring (h : Hw) (w : Requester) : (h.acc w).ring = h.ringOf w := rfl

theorem Hw.acc_who (h : Hw) (w : Requester) : (h.acc w).who = w := rfl

theorem Requester.id_lt (w : Requester) : w.id < 256 := by
  cases w <;> simp only [Requester.id] <;> omega

/-- R36. The word in which ACC_LOG names an access. -/
def accLogWord (p : Page) (off ring id : Nat) : Word :=
  w40 (p.cl * 2 ^ 36 + p.idx * 2 ^ 24 + off * 2 ^ 16 + ring % 4 * 2 ^ 8 + id)

/-- R36. ACC_LOG as a refused and reported write leaves it. -/
theorem Hw.report_accLog (h : Hw) (w : Requester) (a : Acc) {p : Page} {off : Nat} (hidx : p.idx < 4096) (hoff : off < 256) :
    ((h.logRefused a p off).report w p off .refused).reg pDEV 0x80 0 = accLogWord p off a.ring a.who.id := by
  rw [Hw.report_reg _ _ _ _ _ (fun _ => by decide), Hw.logRefused_accLog, Nat.mod_eq_of_lt hidx, Nat.mod_eq_of_lt hoff,
    Nat.mod_eq_of_lt a.who.id_lt, accLogWord]

/-- R36. ACC_LOG of a refused write of a requester names the page, the offset, the ring and the requester. -/
theorem State.requestWrite_refused_accLog {s : State} {w : Requester} {p : Page} {off : Nat} (hr : reachable s.hw p = true)
    (ha : accepts s.hw w p off = false) (h6 : off ≠ 6) (h8 : off ≠ 8) (d : Word) (hidx : p.idx < 4096) (hoff : off < 256) :
    (s.requestWrite w p off d).hw.reg pDEV 0x80 0 = accLogWord p off (s.hw.ringOf w) w.id := by
  rw [State.requestWrite_refused_hw hr ha h6 h8 d, Hw.report_accLog _ _ _ hidx hoff, Hw.acc_ring, Hw.acc_who]

theorem State.requestWrite_refused_memory {s : State} {w : Requester} {p : Page} {off : Nat} (hr : reachable s.hw p = true)
    (ha : accepts s.hw w p off = false) (h6 : off ≠ 6) (h8 : off ≠ 8) (d : Word) : sameMemory s (s.requestWrite w p off d) := by
  rw [State.requestWrite_refused hr ha h6 h8 d]
  exact ⟨fun g => by rw [State.rd_on, State.rd_on, State.rd_on], fun g => by rw [State.tag_on, State.tag_on, State.tag_on]⟩

/-- Settles O1: the first three clauses are plain writes of the register file, the fourth a write of OWNER, the last a refusal. -/
theorem pageWritesUnderTheAccessCodes : Obligations.PageWritesUnderTheAccessCodes := by
  refine ⟨?_, ?_, ?_, ?_, ?_⟩
  · intro w cl idx d s ha
    exact ⟨_, rfl, (State.requestWrite_plain ha ⟨by decide, by decide, by decide⟩ (by decide) (by decide) d).1⟩
  · rintro w cl idx off d s ha ⟨h9, h15⟩
    exact ⟨_, rfl, State.requestWrite_reserved ha h9 h15 d⟩
  · intro w cl idx s ha
    have hreg := (State.requestWrite_plain ha (off := 7) ⟨by decide, by decide, by decide⟩ (by decide) (by decide) 1).1
    exact ⟨_, rfl, (congrArg (fun v : Word => bitsOf v.toNat 0 1) hreg).trans (writtenWord_lock _ (pageInfo_of_accepts ha) _)⟩
  · intro w cl idx d s hr hl ho hm
    have hp : (pageInfo ⟨cl.val, idx.toNat⟩).isSome = true := by
      simp only [reachable, Bool.and_eq_true] at hr
      exact hr.1
    have hlock : s.hw.b ⟨cl.val, idx.toNat⟩ 0 LOCK_BIT = false := by simp [Hw.b, hl]
    have hreg := State.requestWrite_owner hr hl ho hm d
    obtain ⟨hring, hreq⟩ := writtenWord_owner hp hlock (s.hw.reg ⟨cl.val, idx.toNat⟩ 6 0) d
    exact ⟨_, rfl, (congrArg (fun v : Word => bitsOf v.toNat 8 2) hreg).trans hring,
      (congrArg (fun v : Word => bitsOf v.toNat 0 8) hreg).trans hreq⟩
  · rintro w cl idx off d s hr ha ⟨h6, h8⟩
    have h6 : off.toNat ≠ 6 := fun e => h6 (BitVec.eq_of_toNat_eq e)
    have h8 : off.toNat ≠ 8 := fun e => h8 (BitVec.eq_of_toNat_eq e)
    exact ⟨_, rfl, fun q o ch h80 h5 hq => State.requestWrite_refused_reg hr ha h6 h8 d h80 h5 hq ch,
      State.requestWrite_refused_accLog hr ha h6 h8 d idx.isLt off.isLt, State.requestWrite_refused_memory hr ha h6 h8 d⟩

end Sys2Proof.Machine
